-- ==== Sys2Proof/Word.lean ====
section
/-!
DEFINITION. The word types of the TX9656 model and nothing else: bytes, register words (R4), engine
words (R55) and 128-bit entries (R30, R226).
-/

namespace Sys2Proof

/-- A byte (R3). -/
abbrev Byte := BitVec 8
/-- A control-space register (R4). -/
abbrev W32 := BitVec 32
/-- An engine register or port latch (R55, R58). -/
abbrev W64 := BitVec 64
/-- An instruction (R30), a queue entry (R226) or an assist entry (R318). -/
abbrev W128 := BitVec 128
/-- An instruction number (R46). -/
abbrev Pc := BitVec 17
/-- A ring (R121). -/
abbrev Ring := BitVec 2

end Sys2Proof
end

