-- ==== Sys2Proof/Syntax.lean ====
section
/-!
DEFINITION. The commands of the block: ONE constructor per row of spec/opcode_table.json, in the table's
order, with the row's operands. Operands name an existing unit by a `Fin`; what reaches the block from
outside (a symbol at a receiver, a sensor code, the state of a memory cell's check bits) is an operand too.
-/

namespace Sys2Proof

/-- A physical engine slot `k` of Sheaf `s` (R2, R152). -/
structure EngId where
  s : Fin 12
  k : Fin 9
deriving DecidableEq, Repr

/-- Thread slot `j` of a physical engine. -/
structure Th where
  s : Fin 12
  k : Fin 9
  j : Fin 8
deriving DecidableEq, Repr

/-- ALU operations (table before R83). -/
inductive AluOp
  | add | addc | sub | subb | and | or | xor | andn | min | max | minu | maxu
deriving DecidableEq, Repr

/-- Shifter operations (table before R85). -/
inductive ShOp
  | shl | shr | sar | rol | ror | bswap
deriving DecidableEq, Repr

/-- Multiplier operations (table before R86). -/
inductive MulOp
  | mul | mulhu | mulhs
deriving DecidableEq, Repr

/-- Bit-field operations (table before R89). -/
inductive BfOp
  | extu | exts | dep | clz | ctz | popc | find1 | find0
deriving DecidableEq, Repr

/-- Compare operations, R90. -/
inductive CmpOp
  | eq | lt | ltu | le | leu | test | bit
deriving DecidableEq, Repr

/-- Load operations (table before R95). -/
inductive LdOp
  | ld8u | ld16u | ld32u | ld64 | ld8s | ld16s | ld32s
deriving DecidableEq, Repr

/-- Store widths (table before R95). -/
inductive StOp
  | st8 | st16 | st32 | st64
deriving DecidableEq, Repr

/-- CRC feed widths (table before R111). -/
inductive FeedOp
  | feed8 | feed16 | feed32 | feed64
deriving DecidableEq, Repr

/-- The units that deliver a result to a latch (R53, R119). -/
inductive RUnit
  | alu0 | alu1 | shifter | mul | div | bf | crc | poll
deriving DecidableEq, Repr

/-- What the check bits of a memory word say when it is read (R328, R342, R350). -/
structure Ecc where
  ce : Nat      -- words, or in DRAM bursts, whose error was corrected
  ue : Bool     -- a word or burst holds an uncorrectable error
deriving DecidableEq, Repr

/-- Check bits that find nothing wrong. -/
abbrev Ecc.ok : Ecc := ⟨0, false⟩

/-- Who makes a register access (R6, R332, R366); `bar0`, `bar2` and `cfg` are the host's own writes to BAR0, BAR2 and configuration space (R392). -/
inductive Agent
  | mgmt                    -- the management controller (host register commands included)
  | dma                     -- the peripheral DMA
  | engine (s : Fin 12)     -- ring-0 code of a Sheaf
  | debug                   -- the debug port
  | bar0                    -- the host at BAR0
  | bar2                    -- the host at BAR2 (MSI-X table)
  | cfg                     -- the host at the endpoint's configuration space
deriving DecidableEq, Repr

/-- A command as the host wrote it (R398), less its opcode, which the row names: the queue it was taken from, the
header fields, and the 56 parameter bytes, byte 0x08 of the command in bits [7:0]. With it, what the host's memory and
link do for it: the bytes of its buffer, those of a second reading where they differ (R416), the bytes moved before a
failing transfer (R402), whether the fetch of the command failed, and whether the write of its completion fails (R396). -/
structure Packet where
  q : Fin 16
  flags : BitVec 8
  tag : BitVec 16
  length : BitVec 16
  rsvd : BitVec 16
  params : BitVec 448
  buf : List Byte
  again : Option (List Byte)
  hostErr : Option Nat
  fetchErr : Bool
  cplErr : Bool
deriving DecidableEq, Repr

/-- What the receiver of one lane sees during the 32 receive UIs that judge one expected frame (R265, R293): the
differential voltage between its P and N contacts in mV, and the symbols it decided in the six UIs before, the latest first,
which its DFE takes into account (R269). Each pair of the wave is a position, in 1/1024 UI from the start of receive UI 0 of the
frame, and the level from there up to the next pair. -/
structure LaneSamples where
  lane : Fin 8
  prior : List (BitVec 2)
  wave : List (Int × Int)
deriving DecidableEq, Repr

/-- How training ends (R275): at the step that fails, or with the baselines it found (transmit and strobe baseline in
1/1024 UI, thresholds in mV) and the round trip. -/
inductive TrainResult
  | fail (step : BitVec 3)
  | done (tx strobe th0 th1 th2 : Int) (rtrip : BitVec 16)
deriving DecidableEq, Repr

/-- The result of one monitor sweep (R278). -/
structure Sweep where
  transitions : Nat
  rxErr : BitVec 13
  th0 : Int
  th1 : Int
  th2 : Int
  width : BitVec 8
  height : BitVec 10
deriving DecidableEq, Repr

/-- What the March test of one Gleaner row found (R344, R346). -/
structure MarchResult where
  corrected : Nat      -- words of the row that the copy corrected
  poisoned : List (Fin 32)  -- words of the row that the copy carried with an uncorrectable error
  mismatch : Bool      -- a read of the March test mismatched
  badSpares : List (Fin 62 × Fin 64)  -- unused spares found failing between passes: memory (48 banks, 12 program
                       -- stores, context store, state store) and spare
deriving DecidableEq, Repr

/-- The regulator's answer to an AVSBus frame (R429, R431): its CRC holds and it reports the action as taken; the data of
a Read (mV, or status data); if it signals a status alert, the data of the Status Read that follows, unless that frame fails. -/
structure AvsResp where
  taken : Bool
  mv : BitVec 16
  alert : Option (Option (BitVec 16))
deriving DecidableEq, Repr

/-- An instruction of the test access port that the lanes support (R291). -/
inductive ScanInstr
  | bypass | idcode | samplePreload | extest | extestPulse | extestTrain
deriving DecidableEq, Repr

/-- What comes with an instruction of the test access port (R291, R499, R509; log 137): the levels that an update gives the output cells
of the lanes; whether the test receivers are in AC mode; the differential levels in mV that they meet, by lane, each with the level
before it, in order; the level of TMS at the TCK edges that follow. -/
structure ScanData where
  cells : BitVec 64
  ac : Bool
  seen : List (Fin 64 × Int × Int)
  tms : List Bool
deriving DecidableEq, Repr

/-- Which EXTEST instruction (R291). -/
inductive ExtestKind
  | level | pulse | train
deriving DecidableEq, Repr

/-- Which other instruction (R291). -/
inductive OtherScan
  | bypass | idcode | samplePreload
deriving DecidableEq, Repr

/-- A record of the service area with two copies (R445, R449). -/
inductive ServiceRec
  | boot | keys | policy | repairs | life
deriving DecidableEq, Repr

/-- What a soft post-package repair of a DRAM row finds: whether the stack has a spare row left, and the bursts of the row that
cannot be read (R352). -/
structure PprObs where
  spareLeft : Bool
  bad : BitVec 32
deriving DecidableEq, Repr

/-- What the start finds outside the device's own state (R435, R436, R449, R471): whether the digest of the Zhodan
firmware holds, the service records of which a copy fails its CRC and whether it is the newer one, VDD_CORE read over AVSBus in mV, the regulator's answer to
the first request, the recorded DRAM rows (channel, row) that the stack can no longer repair; and what the power loss that it follows
cut off, if it follows one: the erase of a slot, below an offset, and the newest entry of the reset history, with the bytes that were
written (R449, R451). -/
structure BootObs where
  firmwareOk : Bool
  badCopies : List (ServiceRec × Bool)
  vddCore : Nat
  avs : AvsResp
  worn : List (Fin 16 × BitVec 21)
  cutErase : List (Fin 2 × BitVec 27)
  cutEntry : Option (BitVec 6)
deriving DecidableEq, Repr

/-- What ended the link: link-down, a hot or secondary bus reset, or the PERST_N contact, asserted or, `false`, deasserted (R393,
R437). -/
inductive LinkEnd
  | linkDown
  | hotReset
  | perst (asserted : Bool)
deriving DecidableEq, Repr

/-- What wakes the device from sleep (R456). -/
inductive WakeSource
  | command | timer (c : Fin 32) | halt
deriving DecidableEq, Repr

/-- The commands of the block, one constructor per row of spec/opcode_table.json. An operand of type `Unit` carries nothing: what
the accesses of FETCH_RETURN, FETCH, COMMIT, SCRUB_READ, ELEMENT and BITMAP_WRITE meet is an operand of the accesses' own commands, and
the end of a scrub pass follows from the bursts read. -/
inductive Instr
  | instruction (t : Th) (ue : Bool)
  | aluOperation (t : Th) (u : Fin 2) (op : AluOp) (b : W64)
  | shifterOperation (t : Th) (op : ShOp) (b : W64)
  | multiply (t : Th) (op : MulOp) (b : W64)
  | divide (t : Th) (signed : Bool) (b : W64)
  | bitFieldOperation (t : Th) (op : BfOp) (b : W64)
  | guardCompare (t : Th) (op : CmpOp) (g : Fin 8) (b : W64)
  | glogic (t : Th) (b : W64)
  | load (t : Th) (op : LdOp) (b : W64)
  | store (t : Th) (op : StOp) (b : W64)
  | drain (t : Th)
  | jump (t : Th) (rel : Bool) (b : W64)
  | call (t : Th) (rel : Bool) (b : W64)
  | loop (t : Th) (n : Fin 2) (b : W64)
  | lbreak (t : Th) (n : Fin 2)
  | gate (t : Th) (b : W64)
  | ret (t : Th) (b : W64)
  | rfe (t : Th)
  | push (t : Th) (px : Fin 16) (b : W64)
  | assistPush (t : Th) (n : Fin 4) (b : W64)
  | pull (t : Th) (n : Fin 4)
  | pullReply (t : Th)
  | wait (t : Th) (b : W64)
  | signal (t : Th) (b : W64)
  | poll (t : Th) (b : W64)
  | setstate (t : Th) (b : W64)
  | feed (t : Th) (op : FeedOp) (b : W64)
  | lfsr (t : Th) (b : W64)
  | setptr (t : Th) (b : W64)
  | save (t : Th) (b : W64)
  | restore (t : Th) (b : W64)
  | setxsp (t : Th) (b : W64)
  | xsave (t : Th)
  | xrestore (t : Th)
  | bkpt (t : Th) (b : W64)
  | trace (t : Th) (b : W64)
  | unitResult (t : Th) (u : RUnit)
  | loadResult (t : Th) (ecc : Ecc)
  | storeDrain (t : Th)
  | spillTransferEnd (t : Th) (ecc : Ecc)
  | exceptionEntry (t : Th)
  | culmSlot (c : Fin 1024)
  | wordDelivery (c : Fin 1024)
  | rxDiscard (c : Fin 1024)
  | culmCntClear
  | culmFrameLo
  | instrLo (e : EngId)
  | traceLo (e : EngId)
  | engCntClear (e : EngId)
  | directedEvent
  | broadcastEvent
  | grnTimeAdvance
  | taskUrgent (t : Fin 40960)
  | quantumExpiry (t : Fin 40960)
  | roundBoundary
  | grant (sheaf : Fin 12) (pos : Fin 8)
  | quiesceComplete (t : Th)
  | pageInComplete (t : Th)
  | pageOutComplete (t : Th)
  | slotEmpties (t : Th)
  | kill
  | raise
  | setPrio
  | setAffinity
  | read
  | refusedOperation
  | grnCntClear
  | queueEntry (n : Fin 16)
  | fetchReturn (n : Fin 16) (seen : Unit)
  | idleEntry (n : Fin 16)
  | burstStart (n : Fin 16)
  | startRelease
  | frame (n : Fin 16)
  | burstEnd (n : Fin 16)
  | stop (n : Fin 16)
  | flush (n : Fin 16)
  | failRecord (g : Fin 8) (rx : List LaneSamples)
  | overflowSummary (g : Fin 8)
  | closeMark (g : Fin 8)
  | recordIntake (n : Fin 4)
  | summaryIntake (n : Fin 4)
  | closeMarkIntake (n : Fin 4)
  | bitmapWrite (n : Fin 4) (seen : Unit)
  | regionReset (n : Fin 4)
  | query (n : Fin 4)
  | scan (n : Fin 4)
  | fetch (n : Fin 4) (seen : Unit)
  | tentative (n : Fin 4)
  | undo (n : Fin 4)
  | cost (n : Fin 4)
  | commit (n : Fin 4) (seen : Unit)
  | close (n : Fin 4)
  | reset (n : Fin 4)
  | release (n : Fin 4)
  | badOp (n : Fin 4)
  | flPush (n : Fin 4) (page : BitVec 19)
  | thrCntClear (n : Fin 4)
  | pgCntClear (g : Fin 8)
  | pgFrameLo (g : Fin 8)
  | finish (site : Fin 256)
  | siteDone (site : Fin 256)
  | relock (g : Fin 8)
  | pllLock (g : Fin 8)
  | lossOfLock (g : Fin 8)
  | trefAbsent
  | trefPresent
  | measWindow (edges : BitVec 20)
  | train (n : Fin 64) (v : W32)
  | trainingComplete (n : Fin 64) (r : TrainResult)
  | txErrUpdate (n : Fin 64) (err : BitVec 13)
  | measFail (n : Fin 64)
  | sweepEnd (n : Fin 64) (r : Sweep)
  | correctionOpportunity (n : Fin 64) (now : Nat)
  | eyeScan (n : Fin 64) (v : W32)
  | eyeScanDone (n : Fin 64) (errors : BitVec 24)
  | prbsLock (n : Fin 64)
  | prbsLockLost (n : Fin 64) (bits errors : Nat)
  | prbsClear (n : Fin 64)
  | prbsBitsLo (n : Fin 64) (bits errors : Nat)
  | syncWord (w : BitVec 16)
  | epoch
  | startWord
  | stopWord
  | sendEpoch (arg : BitVec 7)
  | sendStop (arg : BitVec 7)
  | leaderStart (rdy : Bool)
  | startTimeout
  | extest (k : ExtestKind := .level) (d : ScanData := ⟨0, false, [], []⟩)
  | extestExit (k : OtherScan := .bypass) (d : ScanData := ⟨0, false, [], []⟩)
  | bankAccess (b : Fin 48) (ecc : Ecc)
  | nonowner (b : Fin 48)
  | ownerWrite (b : Fin 48) (a : Agent) (v : W32)
  | handoverComplete (b : Fin 48)
  | retentionEntry (b : Fin 48)
  | retentionEntered (b : Fin 48)
  | bankWake (b : Fin 48)
  | bankAwake (b : Fin 48)
  | gleanerRow (r : MarchResult)
  | repairMapWrite
  | dramAccess (k : Fin 16) (ecc : Ecc)
  | scrubRead (k : Fin 16) (burst : BitVec 26) (ecc : Ecc) (seen : Unit)
  | softPpr (k : Fin 16) (found : PprObs)
  | transactionGrant (t : Fin 17) (cycles : Nat)
  | mtxCntClear
  | dmaEnable (c : Fin 8)
  | dmaGo (c : Fin 8)
  | dmaAbort (c : Fin 8)
  | dmaTrigger (src : BitVec 7)
  | dmaElement (seen : Unit) (stored : Unit)
  | blockEnd (c : Fin 8)
  | match (c : Fin 32) (pin : Bool)
  | wrap (c : Fin 32) (pin : Bool)
  | action
  | maxgate (c : Fin 32) (pin : Bool)
  | tooFast (c : Fin 32)
  | groupStart (spread : Bool)
  | slowStep (c : Fin 32)
  | tmrCountRead (p : Fin 16)
  | queueEnable (q : Fin 16) (v : W32)
  | queueDisable (q : Fin 16) (v : W32)
  | sqTail (q : Fin 16) (v : W32)
  | cqHead (q : Fin 16) (v : W32)
  | msixMessage (v : Fin 32)
  | linkReset (why : LinkEnd)
  | badOpcode (op : BitVec 8) (p : Packet)
  | nop (p : Packet)
  | identify (p : Packet)
  | abort (p : Packet)
  | fence (p : Packet)
  | noticeWait (p : Packet)
  | imageErase (p : Packet)
  | imageStage (p : Packet)
  | imageCommit (p : Packet)
  | imageActivate (p : Packet)
  | imageActivateHost (p : Packet)
  | imageRead (p : Packet)
  | keyProvision (p : Packet)
  | keyRevoke (p : Packet)
  | sigPolicy (p : Packet)
  | regRead (p : Packet)
  | regWrite (p : Packet)
  | regBlockRead (p : Packet)
  | memRead (p : Packet)
  | memWrite (p : Packet)
  | bankOwner (p : Packet)
  | siteResults (p : Packet)
  | siteArm (p : Packet)
  | testStart (p : Packet)
  | testStop (p : Packet)
  | siteDisarm (p : Packet)
  | siteWait (p : Packet)
  | siteWaitTimeout (q : Fin 16)
  | doorbell (p : Packet)
  | siteSignal (p : Packet)
  | taskQuery (p : Packet)
  | taskSignal (p : Packet)
  | taskKill (p : Packet)
  | taskSetPrio (p : Packet)
  | taskSetAffinity (p : Packet)
  | taskList (p : Packet)
  | laneTrain (p : Packet)
  | laneCal (p : Packet)
  | laneEyeScan (p : Packet)
  | lanePrbs (p : Packet)
  | healthRead (p : Packet)
  | stickyRead (p : Packet)
  | stickyClear (p : Packet)
  | spareMapRead (p : Packet)
  | syncConfig (p : Packet)
  | syncSend (p : Packet)
  | pgRelock (p : Packet)
  | prepareRemoval (p : Packet)
  | deviceReset (p : Packet)
  | resetDelayEnd
  | resume (p : Packet)
  | smbusStatus (pecOk : Bool)
  | smbusIdentity (pecOk : Bool)
  | smbusHealth (pecOk : Bool)
  | alertResponse
  | avsReadback (r next : AvsResp)
  | avsRetry (r : AvsResp)
  | powerGood
  | powerGoodFall
  | resetN
  | presenceReset
  | startSequence (o : BootObs)
  | haltRequest
  | haltRelease
  | enter
  | sleepEntry
  | wake (src : WakeSource)
  | histSel (age : BitVec 6)
  | histCopyDone
  | lfrefTaken
  | lfrefLost
  | adcGo (sensor : BitVec 8)
  | scanRequest
  | conversionEnd (code : BitVec 12)
  | scanStale
  | trip
  | ageWindow (e : EngId) (count : Nat)
  | ageEvaluation (r : AvsResp)
  | lifeUpdate
  | lifeRecordWrite
  | spareReq (sheaf : BitVec 4) (slot : BitVec 4)
  | remap (e : EngId)
  | devStickyUpdate
  | railCurrentReport (core lane hi io : BitVec 16)
  | railLink
  | registerWrite (a : Agent) (addr : W32) (v : W32)
  | tick (c : Fin 32) (pin : Bool)
  | linkUp (speed : BitVec 3) (width : BitVec 4)
  | frameEdge (g : Fin 8)
deriving DecidableEq, Repr

end Sys2Proof
end

