-- ==== Sys2Proof/Decode.lean ====
section
/-!
DEFINITION. The decoder of command words. spec/opcode_table.json gives no row any bits, so no word spells a command. The 64 bytes of a host command name their row by their OPCODE (R398).
-/

namespace Sys2Proof

/-- The command that a word of `nbits` bits spells by the opcode table's bits: no row of the table gives bits. -/
def decodeTableWord (nbits w : Nat) : Option Instr :=
  match nbits, w with
  | _, _ => none

/- Host commands (R398) ---------------------------------------------------------------------------------------------------- -/

/-- The row that an OPCODE names (R398, R410 to R425); any other code is BAD_OPCODE's. -/
def commandOf (op : BitVec 8) (p : Packet) : Instr :=
  match op.toNat with
  | 0x00 => .nop p
  | 0x01 => .identify p
  | 0x02 => .abort p
  | 0x03 => .fence p
  | 0x04 => .noticeWait p
  | 0x10 => .imageErase p
  | 0x11 => .imageStage p
  | 0x12 => .imageCommit p
  | 0x13 => .imageActivate p
  | 0x14 => .imageRead p
  | 0x15 => .keyProvision p
  | 0x16 => .keyRevoke p
  | 0x17 => .sigPolicy p
  | 0x18 => .imageActivateHost p
  | 0x20 => .regRead p
  | 0x21 => .regWrite p
  | 0x22 => .regBlockRead p
  | 0x30 => .memRead p
  | 0x31 => .memWrite p
  | 0x32 => .bankOwner p
  | 0x33 => .siteResults p
  | 0x40 => .siteArm p
  | 0x41 => .testStart p
  | 0x42 => .testStop p
  | 0x43 => .siteDisarm p
  | 0x44 => .siteWait p
  | 0x45 => .doorbell p
  | 0x46 => .siteSignal p
  | 0x50 => .taskQuery p
  | 0x51 => .taskSignal p
  | 0x52 => .taskKill p
  | 0x53 => .taskSetPrio p
  | 0x54 => .taskSetAffinity p
  | 0x55 => .taskList p
  | 0x60 => .laneTrain p
  | 0x61 => .laneCal p
  | 0x62 => .laneEyeScan p
  | 0x63 => .lanePrbs p
  | 0x70 => .healthRead p
  | 0x71 => .stickyRead p
  | 0x72 => .stickyClear p
  | 0x73 => .spareMapRead p
  | 0x80 => .syncConfig p
  | 0x81 => .syncSend p
  | 0x82 => .pgRelock p
  | 0x90 => .prepareRemoval p
  | 0x91 => .deviceReset p
  | 0x92 => .resume p
  | _ => .badOpcode op p

/-- The header and parameters of a command's 64 bytes, byte 0 in bits [7:0] (R398), beside what `p` holds of its queue and host. -/
def packetOf (w : BitVec 512) (p : Packet) : Packet :=
  { p with flags := w.extractLsb' 8 8, tag := w.extractLsb' 16 16, length := w.extractLsb' 32 16, rsvd := w.extractLsb' 48 16
           params := w.extractLsb' 64 448 }

/-- The command that the 64 bytes at the head of a submission ring spell (R398). -/
def hostCommand (w : BitVec 512) (p : Packet) : Instr := commandOf (w.extractLsb' 0 8) (packetOf w p)

end Sys2Proof
end

