-- ==== Sys2Proof/Config.lean ====
section
/-!
DEFINITION. What the spec leaves open: free values (constants with no body, so that nothing can be proved of
their value) and what an implementation or a module fixes.
-/

namespace Sys2Proof

/-- FREE VALUES. The `n`-th value the spec does not state; the state counts them off in `State.fresh`. -/
opaque Config.free (n : Nat) : BitVec 64
/-- How many accesses beyond 8 the queue of a DRAM controller holds, which R358 does not number. -/
opaque Config.dramQueue : Nat
/-- A byte of an erased but unprogrammed flash address is not stated by the spec: free per slot and offset. -/
opaque Config.erased (slot off : Nat) : BitVec 8
/-- The running Zhodan firmware version (FW_VER, chapter 17): major in [31:16], minor in [15:0]. -/
opaque Config.fwVersion : BitVec 32
/-- Word `i` of the module serial number (SERIAL, chapter 17). -/
opaque Config.serial (i : Fin 4) : BitVec 32
/-- What the factory programmed into the module and the spec does not number, by name and index. -/
opaque Config.factory (what index : Nat) : BitVec 64
/-- The frequency of ring oscillator `e`, normalised to 0.90 V and 85 °C with the factory's coefficients, which R469 does not number:
from its count in a window, the code of the VDD_CORE monitor and that of the thermal sensor. -/
opaque Config.ageNorm (e count volt temp : Nat) : Nat
/-- What a receiver's CTLE makes of the wave at its contacts with a peaking of 1 to 18 dB, at a position: R269 gives the peaking at
the Nyquist frequency and no more of its response. -/
opaque Config.ctle (peaking : Nat) (wave : List (Int × Int)) (pos : Int) : Int
/-- How far beyond 50 mV the hysteresis of the test receivers reaches in DC mode, and how far below 150 mV the transitions that they
detect in AC mode: R509 gives the bounds. -/
opaque Config.testRx (ac : Bool) : Nat
/-- The factory frequency of ring oscillator `e`, less one (R469). -/
opaque Config.ageFactory (e : Nat) : Nat
/-- The factory's records of the repair map (R452), 8 bytes each, byte 0 in bits [7:0], in the order written. -/
opaque Config.factoryRepairs : List (BitVec 64)

end Sys2Proof
end

