-- ==== Sys2Proof/Machine/Sparse.lean ====
section
/-!
DEFINITION. Sparse maps in ONE canonical form: a list of (key, value) pairs, keys strictly rising, no entry
equal to what an unlisted key reads as. `spGet`, `spSet` and `spOk` are the three operations; equal maps are
equal lists.
-/

namespace Sys2Proof.Machine

/-- The value at key `k`; an unlisted key reads as `d k`. -/
def spGet {α : Type} (d : Nat → α) : List (Nat × α) → Nat → α
  | [], k => d k
  | (i, v) :: m, k => if i = k then v else spGet d m k

/-- The map with key `k` removed. -/
def spDel {α : Type} (k : Nat) : List (Nat × α) → List (Nat × α)
  | [] => []
  | (i, v) :: m => if i = k then m else (i, v) :: spDel k m

/-- The map with `(k, v)` inserted in key order, replacing an older entry of `k`. -/
def spIns {α : Type} (k : Nat) (v : α) : List (Nat × α) → List (Nat × α)
  | [] => [(k, v)]
  | (i, u) :: m => if k < i then (k, v) :: (i, u) :: m
                   else if k = i then (k, v) :: m
                   else (i, u) :: spIns k v m

/-- The map with `v` at key `k`, in canonical form for the default `d`. -/
def spSet {α : Type} [DecidableEq α] (d : Nat → α) (m : List (Nat × α)) (k : Nat) (v : α) : List (Nat × α) :=
  if v = d k then spDel k m else spIns k v m

/-- The keys from `n` on rise strictly and no entry equals its default. -/
def spOkFrom {α : Type} [DecidableEq α] (d : Nat → α) : Nat → List (Nat × α) → Bool
  | _, [] => true
  | n, (i, v) :: m => decide (n ≤ i) && decide (v ≠ d i) && spOkFrom d (i + 1) m

/-- The canonical form. -/
def spOk {α : Type} [DecidableEq α] (d : Nat → α) (m : List (Nat × α)) : Bool := spOkFrom d 0 m

end Sys2Proof.Machine
end

