-- ==== Sys2Proof/Machine/RegMap.lean ====
section
/-!
DEFINITION. The register map of control space (R6, R9, R511 to R513 and every register table of the spec):
which fields each address holds, their access codes and reset values, and the addresses of the blocks.
An address with no field is a reserved address (R10).
-/

namespace Sys2Proof.Machine

/-- Access codes of R6. -/
inductive Acc
  | rw | ro | wo | w1c | trg | wl
deriving DecidableEq, Repr

/-- One field of a register: bits `lo` to `lo + w - 1`, its access code, its reset value and whether the
active image may give it its value (the Reset column says "image"). -/
structure Field where
  lo : Nat
  w : Nat
  acc : Acc
  rst : Nat
  img : Bool
deriving DecidableEq, Repr

/-- Registers at `off + i * stride`, `i < count`, with the fields of index `i`. -/
structure RegArr where
  off : Nat
  stride : Nat
  count : Nat
  fields : Nat → List Field

/-- A field RW with a die reset value. -/
def fRw (lo w : Nat) (r : Nat := 0) : Field := ⟨lo, w, .rw, r, false⟩
/-- A field RW whose reset is "image (r)". -/
def fIm (lo w : Nat) (r : Nat := 0) : Field := ⟨lo, w, .rw, r, true⟩
/-- A field WL, "image (r)". -/
def fWl (lo w : Nat) (r : Nat := 0) : Field := ⟨lo, w, .wl, r, true⟩
/-- A field RO. -/
def fRo (lo w : Nat) (r : Nat := 0) : Field := ⟨lo, w, .ro, r, false⟩
/-- A field WO. -/
def fWo (lo w : Nat) : Field := ⟨lo, w, .wo, 0, false⟩
/-- A trigger bit. -/
def fTrg (lo : Nat) : Field := ⟨lo, 1, .trg, 0, false⟩
/-- Sticky bits `0` to `n - 1`, W1C. -/
def fSticky : Nat → List Field
  | 0 => []
  | n + 1 => fSticky n ++ [⟨n, 1, .w1c, 0, false⟩]

/-- One register. -/
def r1 (off : Nat) (f : List Field) : RegArr := ⟨off, 4, 1, fun _ => f⟩
/-- An array of alike registers, 4 bytes apart. -/
def rN (off n : Nat) (f : List Field) : RegArr := ⟨off, 4, n, fun _ => f⟩
/-- An array of alike registers at a stride. -/
def rS (off stride n : Nat) (f : List Field) : RegArr := ⟨off, stride, n, fun _ => f⟩

/-- GLB (chapters 1, 14, 15, 16 and 17). -/
def tabGlb : List RegArr :=
  [ r1 0x000 [fRo 0 32 0x9656], r1 0x004 [fRo 0 8, fRo 8 8 1], r1 0x008 [fRo 0 16, fRo 16 16],
    rN 0x010 4 [fRo 0 32],
    r1 0x040 [fWl 0 5 16, fRo 16 5 16], r1 0x044 [fRo 0 1, fRo 1 1],
    r1 0x060 [fRo 0 2, fRo 4 1, fRo 8 2, fRo 12 2 3],
    r1 0x064 [fTrg 0, fRo 4 4], r1 0x068 [fIm 0 32], r1 0x06C [fRo 0 2, fRo 8 5, fRo 16 16],
    r1 0x080 [fRo 0 23], r1 0x084 [fIm 0 23 1], r1 0x088 [fIm 0 23 0x7A0240], r1 0x08C (fSticky 4),
    r1 0x090 [fRo 0 1, fRo 1 1, fRo 2 1],
    r1 0x0A0 [fRo 0 12], r1 0x0A4 [fRo 0 16, fRo 16 8, fRo 24 4], r1 0x0A8 [fRo 0 32], r1 0x0AC [fRo 0 32],
    r1 0x0B0 [fRo 0 32], r1 0x0B4 [fRo 0 16], r1 0x0B8 [fRo 0 8, fRo 8 1],
    rS 0x8000 0x20 256 [fIm 0 32], rS 0x8004 0x20 256 [fIm 0 32], rS 0x8008 0x20 256 [fIm 0 16, fIm 16 16],
    rS 0x800C 0x20 256 [fIm 0 14, fIm 16 15], rS 0x8010 0x20 256 [fIm 0 1, fIm 1 1 1, fTrg 4],
    rS 0x8014 0x20 256 [fRo 0 3, fRo 3 1, fRo 4 2, fRo 8 1, fRo 9 1, fRo 10 1, fRo 12 1] ]

/-- CMD (chapter 13). -/
def tabCmd : List RegArr :=
  [ r1 0x000 [fRo 0 3, fRo 4 4, fRo 8 1], r1 0x004 [fRo 0 16, fRo 16 16], r1 0x008 (fSticky 6),
    r1 0x00C [fRo 0 32], r1 0x010 [fRo 0 16 0x384, fRo 16 16], r1 0x014 [fWl 0 4, fWl 8 8 19],
    r1 0x018 [fRo 0 16], r1 0x01C [fRo 0 7 0x58] ]

/-- NVC (chapters 5 and 14). -/
def tabNvc : List RegArr :=
  [ r1 0x000 [fRo 0 2, fRo 2 2, fRo 4 2 3, fRo 6 2 3], r1 0x004 [fRo 0 13, fRo 16 1], r1 0x008 (fSticky 4),
    r1 0x010 [fRw 0 6, fTrg 31], r1 0x014 [fRo 0 1, fRo 1 1, fRo 8 7], rN 0x040 16 [fRo 0 32],
    r1 0x100 [fRo 0 1], r1 0x104 [fRo 0 4, fRo 4 4], r1 0x108 [fRo 0 8, fRo 8 8, fRo 31 1],
    r1 0x10C [fRo 0 32] ]

/-- The factory window of voltage monitor `v` (chapter 15). -/
def vwinReset (v : Nat) : Nat × Nat :=
  if v ≤ 7 ∨ v = 20 then (0x6B8, 0x7D0)
  else if v ≤ 15 ∨ v = 21 then (0x6B8, 0x758)
  else if v = 16 ∨ v = 17 ∨ v = 22 then (0x8FC, 0x9C4)
  else if v = 18 ∨ v = 19 then (0x528, 0x5C8)
  else (0xD5C, 0xEC4)

/-- HLT (chapter 15). -/
def tabHlt : List RegArr :=
  [ r1 0x000 (fSticky 15), r1 0x004 [fRo 0 1, fRo 1 1, fRo 2 1, fRo 8 6], r1 0x008 [fRo 0 12, fRo 31 1],
    r1 0x00C [fIm 0 12 0x9F0, fIm 16 12 0xA90], r1 0x010 [fIm 0 16 100], r1 0x014 [fWo 0 8, fTrg 31],
    r1 0x018 [fRo 0 12, fRo 16 8, fRo 24 6, fRo 31 1], rN 0x040 32 [fIm 0 8],
    rN 0x100 48 [fRo 0 12, fRo 31 1], rN 0x200 24 [fRo 0 12, fRo 31 1],
    ⟨0x280, 4, 24, fun v => [fIm 0 12 (vwinReset v).1, fIm 16 12 (vwinReset v).2]⟩,
    rN 0x300 32 [fIm 0 8, fIm 8 12 0xFFF, fIm 20 8 0x10, fIm 30 1 1, fRo 31 1],
    rN 0x400 108 [fRo 0 16, fRo 31 1],
    r1 0x600 [fIm 0 16 60, fIm 16 8 100], r1 0x604 [fRo 0 16, fRo 16 7, fRo 24 4, fRo 28 4],
    r1 0x608 [fWl 0 4 12], r1 0x610 [fRo 0 16], r1 0x614 [fRo 0 27], r1 0x618 [fIm 0 16 9000],
    r1 0x61C [fRo 0 16], rN 0x640 4 [fRo 0 16, fRo 31 1], r1 0x650 [fRo 0 16],
    r1 0x660 [fIm 0 16 4096], r1 0x664 [fWo 0 4, fWo 4 4, fTrg 31] ]

/-- One timer channel (chapter 12). -/
def tabTmr : List RegArr :=
  [ r1 0x00 [fIm 0 1], r1 0x04 [fIm 0 2, fIm 2 1, fIm 3 1, fIm 4 1 1, fIm 8 7], r1 0x08 [fIm 0 16 100],
    r1 0x0C [fIm 0 32 0xFFFFFFFF], r1 0x10 [fIm 0 32 0xFFFFFFFF], r1 0x14 [fRw 0 32], r1 0x18 [fRo 0 32],
    r1 0x1C [fIm 0 32], r1 0x20 [fIm 0 2, fIm 4 1, fIm 5 1, fIm 6 1, fIm 8 2, fIm 16 5],
    r1 0x24 [fIm 0 32], r1 0x28 [fIm 0 24 7629], r1 0x2C [fRo 0 1, fRo 1 1, fRo 2 1], r1 0x30 (fSticky 4) ]

/-- The timer block registers (chapter 12). -/
def tabTmrBlk : List RegArr :=
  [ r1 0x1000 [fIm 0 32], r1 0x1004 [fTrg 0, fIm 1 1], r1 0x1008 (fSticky 1),
    r1 0x100C [fRo 0 5, fRo 7 1, fRo 8 5] ]

/-- The factory QoS of master port `m`, read and write (R353). -/
def qosReset (m : Nat) : Nat × Nat :=
  if m ≤ 11 then (4, 4) else if m = 12 then (8, 8) else if m = 13 then (6, 6)
  else if m ≤ 17 then (10, 10) else if m = 18 then (12, 0) else if m = 21 then (2, 2) else (0, 0)

/-- MTX (chapter 11). -/
def tabMtx : List RegArr :=
  [ ⟨0x000, 4, 22, fun m => [fIm 0 4 (qosReset m).1, fIm 8 4 (qosReset m).2]⟩,
    rN 0x080 17 [fIm 0 8 16, fRo 16 5], rN 0x100 17 [fRo 0 16], r1 0x180 (fSticky 2), r1 0x184 [fRo 0 32],
    r1 0x188 [fRo 0 8, fRo 8 8, fRo 16 1, fRo 31 1], r1 0x18C [fTrg 0] ]

/-- One DMA channel (chapter 11). -/
def tabDma : List RegArr :=
  [ r1 0x00 [fIm 0 32], r1 0x04 [fIm 0 8], r1 0x08 [fIm 0 32], r1 0x0C [fIm 0 8],
    r1 0x10 [fIm 0 2, fIm 2 2 1, fIm 4 2 1, fIm 8 5 12, fIm 16 4 3, fIm 20 1], r1 0x14 [fIm 0 9 1, fIm 16 16],
    r1 0x18 [fIm 0 7], r1 0x1C [fRw 0 1, fTrg 1, fTrg 2], r1 0x20 [fRo 0 3, fRo 4 1, fRo 16 16],
    r1 0x24 (fSticky 4), r1 0x28 [fRo 0 32], r1 0x2C [fRo 0 8] ]

/-- One bank (chapter 10). -/
def tabBnk : List RegArr :=
  [ r1 0x000 [fIm 0 8 0x10], r1 0x004 [fIm 0 1, fIm 1 1 1, fWl 8 4 0xF], r1 0x008 [fRo 0 2, fRo 4 1, fRo 5 1, fRo 8 6],
    r1 0x00C (fSticky 6), r1 0x010 [fRo 0 22, fRo 31 1], r1 0x014 [fRo 0 8, fRo 8 2, fRo 12 1],
    r1 0x018 [fRo 0 32], rN 0x100 32 [fRo 0 14, fRo 28 2, fRo 31 1] ]

/-- The Gleaner, from 0x0008_C000 (chapter 10). -/
def tabGln : List RegArr :=
  [ r1 0x00 [fIm 0 1 1, fIm 8 16 10], r1 0x04 [fRo 0 2, fRo 4 6, fRo 12 17, fRo 31 1], r1 0x08 [fRo 0 32],
    r1 0x0C [fRo 0 32], r1 0x10 (fSticky 3),
    ⟨0x20, 4, 14, fun i => [fRo 0 7, fRo 16 7 (if i < 12 then 32 else if i = 12 then 64 else 8)]⟩ ]

/-- GRN (chapter 6). -/
def tabGrn : List RegArr :=
  [ r1 0x000 [fIm 0 6 0, fIm 8 6 63, fIm 16 6 7, fIm 24 4 4], r1 0x004 [fIm 0 20 100], r1 0x008 [fIm 0 20 2000],
    r1 0x00C [fIm 0 12 256], r1 0x010 [fIm 0 16 512], r1 0x014 [fRo 0 24], r1 0x018 (fSticky 5),
    rN 0x020 12 [fRo 0 32], r1 0x050 [fTrg 0], r1 0x054 [fRo 0 32],
    r1 0x060 [fWo 0 16, fWo 16 4, fTrg 31], r1 0x064 [fRw 0 32], r1 0x068 [fRo 0 5, fRo 8 1, fRo 9 1],
    rN 0x070 6 [fRo 0 32] ]

/-- CULM (chapter 5). -/
def tabCulm : List RegArr :=
  [ r1 0x0000 [fRo 0 32], r1 0x0004 [fRo 0 32], r1 0x0010 (fSticky 3), r1 0x0014 [fRo 0 10, fRo 16 10, fRo 31 1],
    r1 0x0018 [fRo 0 10, fRo 31 1], r1 0x0020 [fWo 0 10, fTrg 31], r1 0x0024 [fTrg 0],
    rN 0x2000 1024 [fRo 0 1, fRo 1 1, fRo 2 1], rN 0x4000 1024 [fRo 0 32], rN 0x6000 1024 [fRo 0 32],
    rS 0x8000 8 1024 [fWl 0 4, fWl 4 3, fWl 8 6, fWl 16 3, fWl 20 4, fWl 31 1],
    rS 0x8004 8 1024 [fWl 0 4, fWl 4 3, fWl 8 8] ]

/-- SYN (chapter 8). -/
def tabSyn : List RegArr :=
  [ r1 0x000 [fIm 0 20 100000], r1 0x004 [fRo 0 20, fRo 31 1],
    rS 0x010 0x10 8 [fIm 0 11 10, fIm 16 6 1], rS 0x014 0x10 8 [fTrg 0],
    rS 0x018 0x10 8 [fRo 0 1, fRo 1 1, fRo 2 1, fRo 4 4],
    r1 0x100 [fIm 0 2, fIm 2 1, fIm 8 8 8], r1 0x104 [fWo 0 4, fWo 8 7, fTrg 31],
    r1 0x108 [fRo 0 4, fRo 8 7, fRo 16 1, fRo 17 1], r1 0x10C [fIm 0 24], r1 0x110 (fSticky 8) ]

/-- The Sheaf registers (chapter 15). -/
def tabShf : List RegArr :=
  [ r1 0x000 [fRo 0 32 0x76543210], r1 0x004 [fRo 0 9, fRo 16 9] ]

/-- One engine block (chapters 2, 3, 4 and 10). -/
def tabEng : List RegArr :=
  [ r1 0x000 [fRo 0 1, fRo 1 1, fRo 2 1, fRo 8 8, fRo 16 8, fRo 24 8], r1 0x004 [fRo 0 32], r1 0x008 [fRo 0 32],
    r1 0x00C [fRo 0 32], rN 0x010 4 [fRo 0 32], r1 0x020 [fTrg 0], r1 0x024 (fSticky 5),
    r1 0x028 [fIm 0 1, fIm 1 1, fIm 2 1 1], r1 0x02C (fSticky 5), r1 0x030 [fRo 0 32], r1 0x034 [fRo 0 32],
    r1 0x038 [fRo 0 3, fRo 7 1, fRo 16 16],
    r1 0x040 [fWl 0 17, fWl 24 2], r1 0x044 [fWl 0 17], r1 0x048 [fWl 3 15 0x7E00], r1 0x04C [fWl 0 24],
    r1 0x050 [fWl 0 24 4, fWl 24 4 0xF], r1 0x054 [fRo 0 8, fRo 8 8], r1 0x058 [fRo 0 32],
    r1 0x05C [fRo 0 8, fRo 8 1, fRo 9 2, fRo 16 3, fRo 31 1], r1 0x060 [fRo 0 17], r1 0x064 [fRo 0 17],
    r1 0x068 [fRo 0 8, fRo 8 1, fRo 9 2, fRo 16 3, fRo 31 1], r1 0x06C [fRo 0 17], r1 0x070 [fRo 0 32],
    rN 0x100 64 [fWl 0 17, fWl 20 2, fWl 24 4, fWl 31 1] ]

/-- One expander (chapter 7). -/
def tabPx : List RegArr :=
  [ r1 0x000 [fRw 0 1, fTrg 1, fTrg 2], r1 0x004 [fRo 0 3, fRo 4 2, fRo 16 10], r1 0x008 [fWl 0 1, fIm 16 10],
    r1 0x00C [fIm 0 16], r1 0x010 [fWl 4 28], r1 0x014 [fWl 0 8], r1 0x018 [fWl 0 5 4], r1 0x01C [fRw 0 20],
    r1 0x020 [fRo 0 20], r1 0x024 [fRo 0 2, fRo 4 4, fRo 16 16], r1 0x028 (fSticky 7), r1 0x02C [fRo 0 32],
    rN 0x040 2 [fIm 0 5 31], rN 0x048 2 [fRw 0 32], r1 0x050 [fRo 0 12],
    rN 0x080 32 [fIm 0 32], rN 0x100 16 [fIm 0 32], rN 0x140 16 [fRo 0 32],
    rN 0x180 12 [fIm 0 32], rN 0x1C0 16 [fIm 0 32],
    r1 0x200 [fIm 0 32], r1 0x204 [fIm 0 5 31], r1 0x208 [fIm 0 32 1], r1 0x20C [fRo 0 32],
    r1 0x210 [fIm 0 2, fIm 8 5 31, fIm 16 16], r1 0x214 [fIm 0 2, fIm 4 4],
    rN 0x220 8 [fIm 0 3, fIm 3 5, fIm 8 1, fIm 9 1, fIm 10 1, fIm 11 1], rN 0x240 4 [fIm 0 8] ]

/-- One pin group (chapters 7 and 9). -/
def tabPg : List RegArr :=
  [ r1 0x000 [fWl 0 8, fWl 8 1], r1 0x004 [fIm 0 16 0xAAAA], r1 0x008 [fIm 0 16], r1 0x010 [fRo 0 32],
    r1 0x014 [fRo 0 16], rN 0x040 8 [fIm 0 2, fIm 4 3 3, fIm 8 8 0x10], rN 0x060 8 [fRo 0 32],
    r1 0x080 [fRo 0 32], r1 0x084 [fRo 0 32], r1 0x088 (fSticky 2), r1 0x08C [fTrg 0] ]

/-- One lane (chapter 8). -/
def tabLn : List RegArr :=
  [ r1 0x000 [fIm 0 1, fIm 1 1 1, fIm 2 1, fIm 4 2, fIm 8 4 6], r1 0x004 [fIm 0 7 80, fIm 8 5, fIm 16 5],
    r1 0x008 [fIm 0 5 6, fIm 8 1 1], r1 0x00C [fIm 0 30], r1 0x010 [fRw 0 2, fRw 2 1, fRw 4 3, fRw 8 3 2, fTrg 31],
    r1 0x014 [fRo 0 2, fRo 4 3, fRo 8 4, fRo 12 1, fRo 13 1, fRo 14 1], r1 0x018 [fRo 0 16, fRo 31 1],
    r1 0x01C [fRo 0 8, fRo 8 10, fRo 31 1],
    r1 0x020 [fIm 0 1 1, fIm 1 1 1, fIm 2 1 1, fIm 3 1 1, fIm 4 8 16, fIm 16 12 100],
    r1 0x024 [fIm 0 12 320, fIm 16 12 256], r1 0x028 [fIm 0 4 2, fIm 8 8 40, fIm 16 8 30],
    r1 0x030 [fRo 0 13], r1 0x034 [fRo 0 13], r1 0x038 [fRo 0 8, fRo 8 8, fRo 16 8],
    r1 0x03C [fRo 0 13, fRo 31 1], r1 0x040 [fRo 0 13, fRo 31 1], r1 0x044 [fRo 0 32], r1 0x048 [fRo 0 32],
    r1 0x04C [fRo 0 3, fRo 4 9, fRo 16 16], r1 0x050 (fSticky 7),
    r1 0x060 [fRw 0 1, fRw 1 1, fRw 4 3 4, fRw 8 1], r1 0x064 [fRo 0 32], r1 0x068 [fRo 0 32], r1 0x06C [fRo 0 16],
    r1 0x070 [fTrg 0], r1 0x080 [fRw 0 8, fRw 8 10, fRw 20 2, fTrg 31], r1 0x084 [fRo 0 24, fRo 31 1] ]

/-- One Thresher (chapter 9). -/
def tabThr : List RegArr :=
  [ r1 0x000 [fRo 0 6, fRo 8 6, fRo 16 7, fRo 24 7], r1 0x004 (fSticky 9), rN 0x010 7 [fRo 0 32], r1 0x02C [fTrg 0],
    r1 0x030 [fRo 0 17], r1 0x034 [fRo 0 18],
    rN 0x040 16 [fWl 0 12, fWl 16 5, fWl 24 1, fWl 25 4, fWl 31 1],
    ⟨0x080, 4, 32, fun i =>
      let k := i % 8
      [fWl 0 5 (4*k), fWl 8 5 (4*k+1), fWl 16 5 (4*k+2), fWl 24 5 (4*k+3)]⟩,
    r1 0x100 [fWl 4 28], r1 0x104 [fWl 0 8], r1 0x108 [fWl 0 5 4], r1 0x10C [fRo 0 18], r1 0x110 [fWl 0 18],
    r1 0x114 [fRo 0 19], r1 0x118 [fWo 0 19, fTrg 31],
    rN 0x4000 4096 [fRo 0 2, fRo 2 1, fRo 3 1, fRo 4 1, fRo 5 1, fRo 8 6, fRo 16 6, fRo 24 5],
    rN 0x8000 4096 [fRo 0 19, fRo 31 1] ]

/-- The DRAM controllers (chapter 10). -/
def tabDrc : List RegArr :=
  [ r1 0x000 [fWl 0 1], r1 0x004 [fIm 0 16 24], r1 0x008 [fIm 0 8 4, fIm 8 1 1, fIm 9 1 1], r1 0x00C (fSticky 4),
    r1 0x010 [fRo 0 32],
    rS 0x100 0x40 16 [fRo 0 32], rS 0x104 0x40 16 [fRo 0 32], rS 0x108 0x40 16 [fRo 0 32],
    rS 0x10C 0x40 16 [fRo 0 3, fRo 31 1], rS 0x110 0x40 16 [fRo 0 16, fRo 16 16] ]

/-- The debug port (chapter 14). -/
def tabDbg : List RegArr := [ r1 0x000 [fRw 0 1, fRo 1 1] ]

/-- The fields of the register at offset `o` of a table; none where no register lies. -/
def tabFind : List RegArr → Nat → List Field
  | [], _ => []
  | r :: t, o =>
    if r.off ≤ o ∧ (o - r.off) % r.stride = 0 ∧ (o - r.off) / r.stride < r.count
    then r.fields ((o - r.off) / r.stride) else tabFind t o

/-- The fields of instance `i` of a block replicated `n` times at a stride (R511). -/
def tabRep (base stride n : Nat) (t : List RegArr) (a : Nat) : List Field :=
  if (a - base) / stride < n then tabFind t ((a - base) % stride) else []

/-- The fields of control address `a` (R511 to R513). -/
def regFields (a : Nat) : List Field :=
  if a % 4 ≠ 0 then []
  else if a < 0x10000 then tabFind tabGlb a
  else if a < 0x20000 then tabFind tabCmd (a - 0x10000)
  else if a < 0x30000 then tabFind tabNvc (a - 0x20000)
  else if a < 0x40000 then tabFind tabHlt (a - 0x30000)
  else if a < 0x41000 then tabRep 0x40000 0x40 32 tabTmr a
  else if a < 0x50000 then tabFind tabTmrBlk (a - 0x40000)
  else if a < 0x60000 then tabFind tabMtx (a - 0x50000)
  else if a < 0x70000 then tabRep 0x60000 0x40 8 tabDma a
  else if a < 0x80000 then []
  else if a < 0x8C000 then tabRep 0x80000 0x400 48 tabBnk a
  else if a < 0x90000 then tabFind tabGln (a - 0x8C000)
  else if a < 0xA0000 then tabFind tabGrn (a - 0x90000)
  else if a < 0xB0000 then tabFind tabCulm (a - 0xA0000)
  else if a < 0xC0000 then tabFind tabSyn (a - 0xB0000)
  else if a < 0x100000 then []
  else if a < 0x1C0000 then
    let o := (a - 0x100000) % 0x10000
    if o < 0x1000 then tabFind tabShf o
    else if o < 0xA000 then tabFind tabEng (o % 0x1000) else []
  else if a < 0x200000 then []
  else if a < 0x300000 then tabRep 0x200000 0x10000 16 tabPx a
  else if a < 0x380000 then tabRep 0x300000 0x10000 8 tabPg a
  else if a < 0x400000 then []
  else if a < 0x440000 then tabRep 0x400000 0x1000 64 tabLn a
  else if a < 0x500000 then []
  else if a < 0x540000 then tabRep 0x500000 0x10000 4 tabThr a
  else if a < 0x600000 then []
  else if a < 0x700000 then tabFind tabDrc (a - 0x600000)
  else if a < 0x800000 then []
  else if a < 0x810000 then tabFind tabDbg (a - 0x800000)
  else []

/-- BAR0 of the host link (chapter 13): not part of control space. -/
def tabBar0 : List RegArr :=
  [ r1 0x0000 [fRo 0 5 15, fRo 16 12 0xFFF], r1 0x0004 [fRo 0 16, fRo 16 16 1],
    r1 0x0008 [fRo 0 1, fRo 1 1, fRo 2 1, fRo 3 1],
    rS 0x100 0x20 16 [fRw 12 20], rS 0x104 0x20 16 [fRw 0 32], rS 0x108 0x20 16 [fRw 12 20], rS 0x10C 0x20 16 [fRw 0 32],
    rS 0x110 0x20 16 [fRw 0 12, fRw 16 12], rS 0x114 0x20 16 [fRw 0 5, fRw 8 1, fRw 9 1, fRw 10 1],
    rS 0x118 0x20 16 [fRo 0 1, fRo 1 1, fRo 4 4],
    rS 0x1000 8 16 [fWo 0 12], rS 0x1004 8 16 [fWo 0 12] ]

/-- The reset word of a field list. -/
def fieldsReset : List Field → Nat
  | [] => 0
  | f :: t => f.rst * 2 ^ f.lo + fieldsReset t

/-- What control address `a` holds after a full reset; what an unlisted register reads as. -/
def regReset (a : Nat) : W32 := BitVec.ofNat 32 (fieldsReset (regFields a))

/-- What BAR0 offset `a` holds after a full reset. -/
def bar0Reset (a : Nat) : W32 := BitVec.ofNat 32 (fieldsReset (tabFind tabBar0 a))

/- Addresses of the blocks (R511, R512). -/
/-- CMD at offset `o`. -/
def aCmd (o : Nat) : Nat := 0x10000 + o
/-- NVC at offset `o`. -/
def aNvc (o : Nat) : Nat := 0x20000 + o
/-- HLT at offset `o`. -/
def aHlt (o : Nat) : Nat := 0x30000 + o
/-- Timer channel `c`. -/
def aTmr (c o : Nat) : Nat := 0x40000 + 0x40 * c + o
/-- MTX at offset `o`. -/
def aMtx (o : Nat) : Nat := 0x50000 + o
/-- DMA channel `c`. -/
def aDma (c o : Nat) : Nat := 0x60000 + 0x40 * c + o
/-- Bank `b`. -/
def aBnk (b o : Nat) : Nat := 0x80000 + 0x400 * b + o
/-- The Gleaner. -/
def aGln (o : Nat) : Nat := 0x8C000 + o
/-- GRN at offset `o`. -/
def aGrn (o : Nat) : Nat := 0x90000 + o
/-- CULM at offset `o`. -/
def aCulm (o : Nat) : Nat := 0xA0000 + o
/-- SYN at offset `o`. -/
def aSyn (o : Nat) : Nat := 0xB0000 + o
/-- Sheaf `s`. -/
def aShf (s o : Nat) : Nat := 0x100000 + 0x10000 * s + o
/-- Engine `e = 9 * s + k`: physical slot `k` of Sheaf `s` (R512). -/
def aEng (e o : Nat) : Nat := 0x100000 + 0x10000 * (e / 9) + 0x1000 * (e % 9 + 1) + o
/-- Expander `n`. -/
def aPx (n o : Nat) : Nat := 0x200000 + 0x10000 * n + o
/-- Pin group `g`. -/
def aPg (g o : Nat) : Nat := 0x300000 + 0x10000 * g + o
/-- Lane `n`. -/
def aLn (n o : Nat) : Nat := 0x400000 + 0x1000 * n + o
/-- Thresher `n`. -/
def aThr (n o : Nat) : Nat := 0x500000 + 0x10000 * n + o
/-- The DRAM controllers. -/
def aDrc (o : Nat) : Nat := 0x600000 + o
/-- Channel `k` of the DRAM controllers. -/
def aDrcCh (k o : Nat) : Nat := 0x600100 + 0x40 * k + o
/-- DBG.HALT. -/
def aDbgHalt : Nat := 0x800000
/-- Site `s` of the site table. -/
def aSite (s o : Nat) : Nat := 0x8000 + 0x20 * s + o

end Sys2Proof.Machine
end

