-- ==== Sys2Proof/Machine/State.lean ====
section
/-!
DEFINITION. The state of the block as plain data: every register, buffer, queue, counter, mode and pin the spec
gives the TX9656, the queue of waiting commands, and the state after reset. Maps that are mostly empty are sparse
lists of (key, value) pairs in canonical form (Machine/Sparse.lean); what an unlisted key reads as is a definition
of Machine/Ops.lean or the initial value defined here beside the type.
-/

namespace Sys2Proof.Machine

/-- Why the machine stops. No meaning raises one: an event whose condition does not hold changes nothing.
`illFormed` is kept for a command the host could not have sent; it is safe (the machine stops). -/
inductive Fault
  | illFormed (what : String)
deriving DecidableEq, Repr

/-- Why a command has no meaning. -/
inductive Refusal
  | notModelled (mnemonic : String)   -- a command whose meaning is not written; safe, the machine stops
deriving DecidableEq, Repr

/- ---------------------------------------------------------------- Tiller engines (chapters 2, 3 and 4) -/

/-- The bank of working state a thread uses (R133, R145). -/
inductive BankSel
  | normal | shadow | brace
deriving DecidableEq, Repr

/-- One hardware loop level (R60, R102). -/
structure LoopSt where
  start : Pc
  active : Bool
  count : W32
deriving DecidableEq, Repr

/-- A return: link register or shadow stack entry (R59). -/
structure Ret where
  pc : Pc
  ring : Ring
deriving DecidableEq, Repr

/-- One bank of working state (R133): W, B, carries, the 22 port latches of R58 in context order, LIMM, the spill
pointer bits [39:16], both loops, the link register, and the error mark of the LD latch (R99): cause and address. -/
structure Bank where
  w : Vector W64 32
  b : BitVec 8
  c0 : Bool
  c1 : Bool
  latch : Vector W64 22
  limm : BitVec 28
  spill : BitVec 24
  loop0 : LoopSt
  loop1 : LoopSt
  link : Ret
  ldErr : Option (BitVec 8 × W64)
deriving DecidableEq, Repr

/-- The exception record of a shadow bank (R133, R134). -/
structure ExcRec where
  cause : BitVec 8
  epc : Pc
  enpc : Pc
  ds : Bool
  ring : Ring
  depth : Nat
  slot : Nat
  info : W64
deriving DecidableEq, Repr

/-- Where a load stands (R73, R97 to R99): forwarded with its data; on its way from local scratch, with the bytes read at
the trigger; waiting for stores of the buffer to drain; issued to the fast matrix; returned with data; returned with an error cause. -/
inductive LdSt
  | fwd (d : W64)
  | scratch (d : Nat)
  | waits (ids : List Nat)
  | issued
  | done (d : W64)
  | err (cause : BitVec 8)
deriving DecidableEq, Repr

/-- A load in flight; `addr` is the 40-bit address. -/
structure LoadRec where
  id : Nat
  old : Bool                      -- a newer load of the same bank exists (R98)
  sel : BankSel
  op : LdOp
  addr : Nat
  st : LdSt
deriving DecidableEq, Repr

/-- Where a buffered store stands (R72, R75): held (local scratch), issued, acknowledged, or refused with a cause. -/
inductive StSt
  | held
  | issued
  | acked
  | err (cause : BitVec 8)
deriving DecidableEq, Repr

/-- An entry of the store buffer; `task` is the task that stored. -/
structure StoreRec where
  id : Nat
  task : Nat
  sel : BankSel
  op : StOp
  addr : Nat
  data : W64
  st : StSt
deriving DecidableEq, Repr

/-- An operation running on a unit (R53): the bank its result lands in, the result, the remainder (divider) and the
carry, if it writes one, or for a divide whether it is by zero; `short`: its latency is at most 1, so it lands before the thread's next FETCH ends. -/
structure RunOp where
  unit : RUnit
  short : Bool
  sel : BankSel
  res : W64
  rem : W64
  carry : Option Bool
deriving DecidableEq, Repr

/-- What a spill transfer does (R115, R141, R142, R136). -/
inductive SpillKind
  | save (blk : Fin 4)
  | restore (blk : Fin 4)
  | xsave
  | xrestore
  | nested                 -- the read of a nested return
deriving DecidableEq, Repr

/-- A spill transfer in progress; `sel` is the bank of the issuing code. -/
structure SpillRec where
  kind : SpillKind
  sel : BankSel
  addr : Nat
deriving DecidableEq, Repr

/-- What a replayed instruction waits for (R51): an operation of the thread on a unit, the carry of an ALU, a load,
a drain, a pull, a word on a channel, a full send buffer, a busy unit, a full store buffer, a full expander queue,
a full assist queue. -/
inductive WaitCond
  | result (u : RUnit)
  | carry (u : Fin 2)
  | ld
  | drained
  | pull
  | rx (c : Nat)
  | send (c : Nat)
  | busy (u : RUnit)
  | spillBusy
  | storeFull
  | pxFull (n : Nat)
  | assistFull (n : Nat)
deriving DecidableEq, Repr

/-- What a thread slot holds (R49, R203, R207, R210): nothing; a reserved place for a task being paged in; a
resident task; a resident task quiescing for a page-out, in favour of a granted candidate if there is one (R477: none). -/
inductive Phase
  | empty
  | incoming (cand : Nat)
  | run
  | quiesce (cand : Option Nat)
deriving DecidableEq, Repr

/-- A synchronous fault waiting for its ENTRY cycle (R135): cause, information, slot of the faulting move. -/
structure FaultRec where
  cause : BitVec 8
  info : W64
  slot : Nat
deriving DecidableEq, Repr

/-- One thread slot. -/
structure Thread where
  phase : Phase
  task : Nat                      -- resident task, meaningful in `run` and `quiesce`
  normal : Bank
  shadow : Bank
  exc : ExcRec
  sel : BankSel
  pc : Pc
  npc : Pc
  ds : Bool
  ring : Ring
  stack : List Ret                -- shadow stack, top first (R61)
  xsp : BitVec 40
  armed : Bool
  xdepth : Nat
  evt : W32
  asleep : Bool
  wait : Option WaitCond
  ops : List RunOp
  loads : List LoadRec
  stores : List StoreRec          -- oldest first, at most 4 (R72)
  drainIds : List Nat             -- entries a DRAIN recorded (R100)
  pulls : List (Nat × BankSel)    -- pulls on their way, Thresher and bank, oldest first (R107)
  spill : Option SpillRec
  brEntry : Option FaultRec       -- brace entry due after a failed transfer (R143)
  fault : Option FaultRec         -- synchronous fault awaiting its ENTRY cycle
  sigs : List (BitVec 8 × W64)    -- pending asynchronous signals (R131)
  lastRun : Nat                   -- ECLK count at the last commit
  pageInAt : Nat                  -- ECLK count at page-in
deriving DecidableEq, Repr

/-- One physical engine. -/
structure EngSt where
  brace : Bank
  braced : Option Nat             -- the slot in the brace bank (R145)
  last : Nat                      -- the slot that last completed, replayed or entered (R52)
  instr : W64                     -- committed instructions (R76)
  trVal : W64                     -- TRACE (R120)
  trSlot : Nat
  trValid : Bool
  trSeq : BitVec 16
deriving DecidableEq, Repr

/-- An empty loop level. -/
def LoopSt.off : LoopSt := ⟨0, false, 0⟩

/-- A cleared bank (R134); B0 reads 1. -/
def Bank.clear : Bank :=
  ⟨Vector.replicate 32 0, 1, false, false, Vector.replicate 22 0, 0, 0, LoopSt.off, LoopSt.off, ⟨0, 0⟩, none⟩

/-- A cleared exception record. -/
def ExcRec.clear : ExcRec := ⟨0, 0, 0, false, 0, 0, 0, 0⟩

/-- An empty thread slot. -/
def Thread.init : Thread :=
  { phase := .empty, task := 0, normal := Bank.clear, shadow := Bank.clear, exc := ExcRec.clear, sel := .normal,
    pc := 0, npc := 0, ds := false, ring := 0, stack := [], xsp := 0, armed := false, xdepth := 0, evt := 0,
    asleep := false, wait := none, ops := [], loads := [], stores := [], drainIds := [], pulls := [],
    spill := none, brEntry := none, fault := none, sigs := [], lastRun := 0, pageInAt := 0 }

/-- An engine after reset. -/
def EngSt.init : EngSt := ⟨Bank.clear, none, 7, 0, 0, 0, false, 0⟩

/- ---------------------------------------------------------------- The Culm (chapter 5) -/

/-- The buffers of one channel (R156, R158, R161) and the slot start (NCLK count, plus one) last served. -/
structure Chan where
  send : Option W64
  rx : Option W64
  poison : Bool
  served : Nat
deriving DecidableEq, Repr

/-- A word under way (R154): channel, word, NCLK count of its slot, and whether it collided (R160). -/
structure Flight where
  chan : Nat
  word : W64
  start : Nat
  lost : Bool
deriving DecidableEq, Repr

/-- A channel after reset. -/
def Chan.init : Chan := ⟨none, none, false, 0⟩

/- ---------------------------------------------------------------- The Granary (chapter 6) -/

/-- STATE of a state record (R183). -/
inductive TState
  | none | ready | asleep | ended | lost
deriving DecidableEq, Repr

/-- How the urgency guarantee stands for a task (R199): no claim, to be judged from the next round start, held to
the end of the current round, excused or counted. -/
inductive Urg
  | idle | due | held | closed
deriving DecidableEq, Repr

/-- The state record of a task (R183), the EVT waiting for its page-in (R109) and the measures of R199 to R201. -/
structure TaskRec where
  state : TState
  inSlot : Bool
  paging : Bool
  urgent : Bool
  pinned : Bool
  prio : Nat
  eprio : Nat
  affinity : BitVec 12
  mask : W32
  obj : W32
  pend : W32
  sheaf : Nat
  engine : Nat
  slot : Nat
  quantum : Nat
  aRun : Nat
  aWait : Nat
  stamp : BitVec 24
  evt : W32
  waited : Nat        -- ready wait before this residency, 4 µs units (R201)
  runFrom : Nat       -- ECLK count at the first FETCH of this residency
  runTime : BitVec 24 -- GRN.TIME at the first FETCH (R200)
  ran : Bool          -- the first FETCH since the page-in or wake has begun
  expired : Bool
  urg : Urg
deriving DecidableEq, Repr

/-- A task no TASKS record lists. -/
def TaskRec.absent : TaskRec :=
  ⟨.none, false, false, false, false, 0, 0, 0, 0, 0, 0, 0, 0, 0, 0, 0, 0, 0, 0, 0, 0, 0, false, false, .idle⟩

/-- An event held in its crossing (R193): the rank of its source, the addressed task (none: broadcast), class and
object. -/
structure EvReq where
  rank : Nat
  task : Option Nat
  cls : Nat
  obj : W32
deriving DecidableEq, Repr

/-- An operation of the task operation queue (R212), and the host command that waits for it, if one does (R421). -/
structure TaskOp where
  task : Nat
  op : Nat
  arg : W32
  host : Option Nat
deriving DecidableEq, Repr

/-- A context on its way out of a slot (R208): thread index, the ECLK count at the end of its quiesce, the mapped position of
its engine at that moment, task, the 64 words of the context. -/
structure PageOut where
  th : Nat
  q : Nat
  pos : Nat
  task : Nat
  ctx : List W64
deriving DecidableEq, Repr

/- ---------------------------------------------------------------- Memory system (chapters 10 and 11) -/

/-- Who receives the response to a transaction: a load or store of a thread, a transfer; a store of `task` in slot `th`, or a
transfer, whose write a DRAM controller has acknowledged and not yet performed (R362); the free list of a Thresher, for the entry it
writes at FL_PUT (`freed`) and for such a write once acknowledged; nobody, for a register write that stands alone (`lone`). -/
inductive TxnFor
  | load (th id : Nat)
  | store (th id : Nat)
  | xfer (id : Nat)
  | lateStore (th task : Nat) (brace : Bool)
  | lateXfer (id : Nat)
  | freed (n : Nat)
  | lateFreed (n : Nat)
  | lone
deriving DecidableEq, Repr

/-- A transaction in a queue of the fast matrix (R355, R358): master port, addressee, 40-bit address, size in bytes, the
bytes written if a write, QoS, MCLK cycles since it became the head, the ECLK count at which its master issued it, and the
thread that did (R363). -/
structure Txn where
  master : Nat
  for_ : TxnFor
  addr : Nat
  size : Nat
  data : Option (List Byte)
  qos : Nat
  wait : Nat
  at_ : Nat
  slot : Nat
deriving DecidableEq, Repr

/-- Whose transfer it is: a spill of a thread, the fetch of an expander, the DEST of an assist operation, a bitmap write or a release of
bitmap pages of a Thresher, an element of a DMA channel, a host command by its number. -/
inductive XferKey
  | spill (th : Nat)
  | fetch (px : Nat)
  | assist (n : Nat)
  | bitmap (n : Nat)
  | release (n : Nat)
  | dma (c : Nat)
  | host (id : Nat)
deriving DecidableEq, Repr

/-- A transfer that a master carries out as transactions (R355): the block at whose boundaries it is split, whether the
master issues all transactions at once or waits for each, its first address and length, the bytes to write if it writes;
bytes issued, answered, moved in order before any error, and the offset of the transaction issued last; the bytes read; the
first error. -/
structure Xfer where
  id : Nat
  key : XferKey
  port : Nat
  slot : Nat
  blk : Nat
  all : Bool
  addr : Nat
  len : Nat
  data : Option (List Byte)
  sent : Nat
  ans : Nat
  moved : Nat
  last : Nat
  got : List Byte
  err : Option Nat
deriving DecidableEq, Repr

/-- An access delivered to a bank (R327), whether the owner rule admits it (R329, R334), whether the bank refuses it because it was not
AWAKE when it arrived (R341), and its place in the order of delivery (R361). -/
structure BankAcc where
  txn : Txn
  allow : Bool
  asleep : Bool
  ord : Nat
deriving DecidableEq, Repr

/-- A PCLK cycle of a peripheral bus (R365 to R367): the inputs (0 management controller, 1 DMA, 2 matrix side) that have made
their access; what registers that its writes change read as before it; the banks whose OWNER it has written, where that write
requested a handover (`true`) or set HANDOVER_REFUSED (`false`), which a later write of the cycle takes back (R333); and the W1C bits,
by register and bit, that its accesses have set (R7). -/
structure BusCycle where
  inputs : List Nat
  before : List (Nat × W32)
  own : List (Nat × Bool)
  sets : List (Nat × Nat)
deriving DecidableEq, Repr

/-- A cycle in which no input has made an access. -/
def BusCycle.init : BusCycle := ⟨[], [], [], []⟩

/-- A bank: delivered accesses, oldest first, and the owner a handover brings in (R334). -/
structure BankSt where
  acc : List BankAcc
  next : Option (BitVec 8)
deriving DecidableEq, Repr

/-- A bank after reset. -/
def BankSt.init : BankSt := ⟨[], none⟩

/- ---------------------------------------------------------------- Expanders and pin groups (chapter 7) -/

/-- One beat of one lane (R215): drive value, drive enable, expected value, compare enable. -/
structure LaneBeat where
  v : BitVec 2
  den : Bool
  exp : BitVec 2
  cen : Bool
deriving DecidableEq, Repr

/-- What an expander took at the last edge for its burst's next frame (R253): the operand of an ALGO frame; the lane
codes of a vector frame with its timing set and whether the burst ends in it; or the cause for which the burst turns
VOID at that frame (R256). -/
inductive NextFrame
  | algo (op : Option W128)
  | vec (codes : List (BitVec 32)) (ts : Nat) (last : Bool)
  | void (cause : Nat)
deriving DecidableEq, Repr

/-- A burst in progress: BURST fields, frames left of a REPEAT, whether a MIXED microprogram has ended, the vector
stream (beats of taken records with timing set and repeats left; a VLOOP with the records it plays and the times left;
the last 255 records, newest first), the next frame, and a LINKED void that is due (R255). -/
structure Burst where
  mode : Nat
  link : Bool
  task : Nat
  fetched : Bool
  rep : Option Nat
  seqEnd : Bool
  segs : List (BitVec 32 × Nat × Nat)
  vloop : Option (List W128 × Nat)
  hist : List W128
  next : NextFrame
  linkDue : Bool
deriving DecidableEq, Repr

/-- A burst whose last frame has been delivered and whose BURST_END is to come (R235): the task, LINK, VOID cause (0: none),
the number of the first frame after its last, and the count of started frames at which BURST_END is due. -/
structure Ending where
  task : Nat
  fetched : Bool
  link : Bool
  cause : Nat
  first : Nat
  due : Nat
deriving DecidableEq, Repr

/-- An expander: its queue and the entries in the crossing, oldest first, with the number of those that the crossing delivered
while FCLK stood (R231); the burst; endings; CRC register and last sent
word of bus inversion; a fetch stopped by an error; a released start not yet taken; the frame edge it last acted at; QCOUNT at
the last edge (R232); the last ECLK cycle in which engines pushed, and those engines in the order of their entries (R106). -/
structure PxSt where
  queue : List W128
  cross : List W128
  here : Nat
  pushed : Nat × List Nat
  burst : Option Burst
  ends : List Ending
  crc : BitVec 16
  dbi : W32
  fetchErr : Bool
  take : Bool
  lastEdge : Nat
  low : Nat
deriving DecidableEq, Repr

/-- An expander after reset. -/
def PxSt.init : PxSt := ⟨[], [], 0, (0, []), none, [], 0, 0, false, false, 0, 0⟩

/-- An expected frame in the delay line (R218, R296): its number, the started frames at which its last UI has been
judged, P, tag, the beat steps XBEAT and YBEAT of the tag, and for each lane its timing set and the expected symbol of each
UI, if it is compared. -/
structure ExpFrame where
  idx : Nat
  due : Nat
  p : Nat
  tagv : Bool
  tag : W64
  steps : Nat × Nat
  lanes : List (Nat × Nat × List (Option (BitVec 2)))
deriving DecidableEq, Repr

/-- A frame that an expander delivered (R215): the expander, the timing set, the beats of each lane. -/
structure OutFrame where
  px : Nat
  ts : Nat
  lanes : List (Nat × List LaneBeat)
deriving DecidableEq, Repr

/-- What one lane carries in a frame (R217, R273): beats under a timing set, with the PARK code of any beat after the last;
a symbol for each UI from a PRBS generator; its park symbol, by PARK code. -/
inductive LaneFrame
  | beats (ts park : Nat) (bs : List LaneBeat)
  | syms (l : List (BitVec 2))
  | park (code : Nat)
deriving DecidableEq, Repr

/-- One UI of a lane's output (R221, R222, R268): the symbol whose level it shows, driver on, electrical idle. -/
structure UiOut where
  sym : BitVec 2
  on : Bool
  idle : Bool
deriving DecidableEq, Repr

/-- An episode of diverted records (R301, R302); a range is lane, lowest and highest local region. -/
structure Episode where
  cycle : Nat
  records : Nat
  ui : Nat
  ranges : List (Nat × Nat × Nat)
deriving DecidableEq, Repr

/-- A pin group: FCLK running; frames started since its frame clock started; MULT, DIV and KHZ of the last accepted
relock; the expected-value delay line; the episode; sites whose close marks wait; of each lane the symbol last driven,
the level at the end of its last beat, the driver after it (R222) and whether it is in electrical idle; the frames that the
expanders delivered at the last edge; what each lane carries in the frame of the edge before it; for each lane the 32 UIs of the
frame that the last edge handed to the serializers (R216), and those of the frame before it; drive fractions. -/
structure PgSt where
  run : Bool
  started : Nat
  rate : Option (Nat × Nat × Nat)
  line : List ExpFrame
  ep : Option Episode
  marks : List Nat
  sym : Vector (BitVec 2) 8
  lvl : Vector (BitVec 2) 8
  den : Vector Bool 8
  ei : Vector Bool 8
  fmt : List OutFrame
  fmt1 : List LaneFrame
  out : List (List UiOut)
  before : List (List UiOut)
  frac : Vector Nat 8
deriving DecidableEq, Repr

/-- A pin group after reset. -/
def PgSt.init : PgSt :=
  { run := false, started := 0, rate := none, line := [], ep := none, marks := [], sym := Vector.replicate 8 0,
    lvl := Vector.replicate 8 0, den := Vector.replicate 8 false, ei := Vector.replicate 8 true, fmt := [], fmt1 := [], out := [],
    before := [], frac := Vector.replicate 8 0 }

/- ---------------------------------------------------------------- Lanes (chapter 8) -/

/-- A lane: the transmit baseline, and the strobe and threshold baselines (1/1024 UI, mV) of the last successful training
(R275); threshold errors of the last sweep; microsecond of the last correction; an eye
scan occupies the monitor; the lane whose training it serves; the count of checked PRBS bits; the generator state; the
TX, RX and DFE settings that act (R267, R269), and for each frame edge that changed them the frame that it began with those in
force before it; for each correction whose frame compare has not reached, the number of that
frame with the RX_TRIM and TH_TRIM in force before it (R281); whether a removal preparation keeps the lane in electrical idle until
it is configured again (R459). -/
structure LnSt where
  tx : Option Int
  rx : Option (Int × Vector Int 3)
  therr : Option (Vector Int 3)
  applied : Nat
  scan : Bool
  serves : Option Nat
  bits : Nat
  gen : BitVec 31
  act : W32 × W32 × W32
  acts : List (Nat × W32 × W32 × W32)
  trims : List (Nat × W32 × W32)
  kept : Bool
deriving DecidableEq, Repr

/-- A lane after reset; `last_apply` of R279 is microsecond 0 (DESIGN CHOICE, log 165). -/
def LnSt.init : LnSt := ⟨none, none, none, 0, false, none, 0, 0x7FFFFFFF, (80, 0x106, 0), [], [], false⟩

/- ---------------------------------------------------------------- Threshers (chapter 9) -/

/-- A fail record (R297): the mask lists lanes of the pin group with their failing UIs. -/
structure FailRec where
  cycle : Nat
  pg : Nat
  p : Nat
  tagv : Bool
  tag : W64
  mask : List (Nat × W32)
deriving DecidableEq, Repr

/-- An item of an intake queue (R300): a record, an overflow summary of a pin group, or its close mark for a site. -/
inductive Intake
  | fail (r : FailRec)
  | summary (pg : Nat) (e : Episode)
  | mark (pg site : Nat)
deriving DecidableEq, Repr

/-- How an assigned line stands (R311, R322). -/
inductive LineTag
  | must | final | tent
deriving DecidableEq, Repr

/-- An assigned line: column or row, index, standing. -/
structure LineRec where
  col : Bool
  index : Nat
  tag : LineTag
deriving DecidableEq, Repr

/-- STATE of a region (R308). -/
inductive RegState
  | idle | isOpen | closed
deriving DecidableEq, Repr

/-- A repair region (R310 to R313, R316): state, flags, spares left, notice bits, cells entered since reset, sparse
cells in order of row and column, assigned lines in order of assignment, directory page. -/
structure Region_ where
  st : RegState
  unrep : Bool
  inc : Bool
  binc : Bool
  late : Bool
  rows : Nat
  cols : Nat
  notice : BitVec 5
  entered : Nat
  cells : List (Nat × Nat)
  lines : List LineRec
  dir : Option Nat
deriving DecidableEq, Repr

/-- A region after activation. -/
def Region_.init : Region_ := ⟨.idle, false, false, false, false, 0, 0, 0, 0, [], [], none⟩

/-- The access by which the oldest bitmap write goes on (R315, R316): the read of the free-list entry at FL_GET, for the directory
page or for a data page; the zero fill of the page taken; the read of the directory entry; the write of that entry; the write of the
cell, into a data page. -/
inductive Walk
  | take (dir : Bool)
  | zero (dir : Bool) (page : Nat)
  | entry
  | link (page : Nat)
  | cell (page : Nat)
deriving DecidableEq, Repr

/-- A Thresher: the intake queues of PG(2n) and PG(2n+1), the queue last served, assist entries and output words
waiting, oldest first, assist entries taken, regions whose reset waits, bitmap writes waiting (region, row, column),
close marks taken (pin group, site); the last ECLK cycle in which engines pushed assist entries, and those engines (R106); intake
times since the last assist operation ended (R314); how far the oldest bitmap write has come; pages that go back to the free list,
oldest first, and whether the entry of the first is being written; a release of bitmap pages under way: whether it is that of a
region reset, and how many pages it names once the directory has been read (R316). -/
structure ThrSt where
  q0 : List Intake
  q1 : List Intake
  last : Bool
  assist : List W128
  pushed : Nat × List Nat
  out : List W64
  seq : BitVec 4
  resets : List Nat
  bmq : List (Nat × Nat × Nat)
  marks : List (Nat × Nat)
  times : Nat
  walk : Option Walk
  toFree : List Nat
  freeing : Bool
  job : Option (Bool × Option Nat)
deriving DecidableEq, Repr

/-- A Thresher after reset. -/
def ThrSt.init : ThrSt := ⟨[], [], true, [], (0, []), [], 0, [], [], [], 0, none, [], false, none⟩

/- ---------------------------------------------------------------- Sites (chapter 1) -/

/-- What still holds a FINISH (R17): an expander, the bursts in progress that have not raised BURST_END, whether one was
STARTING, and the latest started frame at which a record of those bursts may form. -/
structure Hold where
  px : Nat
  ends : Nat
  starting : Bool
  due : Nat
deriving DecidableEq, Repr

/-- A site: what holds its FINISH, if one is pending; when done, the Threshers whose closing it awaits and the pin groups that
have queued a close mark (R309). -/
structure SiteSt where
  finish : Option (List Hold)
  awaits : List Nat
  groups : List Nat
deriving DecidableEq, Repr

/-- A site after reset. -/
def SiteSt.init : SiteSt := ⟨none, [], []⟩

/- ---------------------------------------------------------------- Repair and sparing (chapters 14 and 15) -/

/-- A repair record (R452). -/
structure Repair where
  kind : Nat
  flags : Nat
  inst : Nat
  row : Nat
deriving DecidableEq, Repr

/-- What the NV flash keeps in its service area (R445 to R452, R474): the slot states of R446, the boot slot (3: none),
public keys, revoked slots, the signature policy and its lock, the in-service repair map, the history ring, newest entry
first, the SEQ of its newest entry, and the life record. -/
structure NvSt where
  stA : Nat
  stB : Nat
  boot : Nat
  keys : Vector (Option (Nat × Nat)) 4
  revoked : BitVec 4
  require : Bool
  lock : Bool
  repairs : List Repair
  hist : List (List Byte)
  seq : Nat
  used : Nat
  frac : Nat
  step : Nat
deriving DecidableEq, Repr

/-- The service area of a module that nothing has been written to. -/
def NvSt.init : NvSt := ⟨0, 0, 3, Vector.replicate 4 none, 0, false, false, [], [], 0, 0, 0, 0⟩

/-- Where the module stands between power and READY (R433 to R440): power-good is low; a full reset has begun and its
start has not; running; stopped by a firmware digest that fails (R436). -/
inductive Power
  | off | entry | up | dead
deriving DecidableEq, Repr

/- ---------------------------------------------------------------- DMA, timers and health (chapters 11, 12 and 15) -/

/-- A DMA channel (R368, R370, R373): elements moved since EN, elements left of the block, the bytes of an element that has
been read and is being written, and whether it stops after the element in progress. -/
structure DmaSt where
  moved : Nat
  left : Nat
  elem : Option (List Byte)
  stop : Bool
deriving DecidableEq, Repr

/-- The sensor ADC (R387, R463): the conversion in progress, the waiting request (source 0 to 31 a timer channel, 32 GO,
33 scan; sensor code), the held GO, whether a scan request waits, and the sensor the scan requests next. -/
structure AdcSt where
  now : Option (Nat × Nat)
  next : Option (Nat × Nat)
  held : Option Nat
  scan : Bool
  scanAt : Nat
deriving DecidableEq, Repr

/-- VDD_CORE requests (R430, R431, R471): the step a start steps to; a Write that was not taken and the number of times it
has been sent again; the read-back that is due, by its requested mV, with the number of times a Read that failed has been
sent again; the number of times a Status Read that failed has been sent again; whether requests have stopped. -/
structure AvsSt where
  goal : Option Nat
  write : Option (Nat × Nat)
  read : Option (Nat × Option Nat)
  status : Option Nat
  stopped : Bool
deriving DecidableEq, Repr

/-- A frame that the AVSBus master sends (R429): a Write with commit of a voltage in mV, or a Read of Voltage or Status. -/
inductive AvsKind
  | write (mv : Nat)
  | readVoltage
  | readStatus
deriving DecidableEq, Repr

/-- A frame with its rail and clock divider (R429). -/
structure AvsFrame where
  rail : Nat
  div : Nat
  kind : AvsKind
deriving DecidableEq, Repr

/- ---------------------------------------------------------------- Host link (chapter 13) -/

/-- A queue pair (R394, R395): submission head and tail, completion tail, the last CQ_HEAD, the expected phase. -/
structure QSt where
  head : Nat
  tail : Nat
  ctail : Nat
  chead : Nat
  phase : Bool
deriving DecidableEq, Repr

/-- A queue pair after reset. -/
def QSt.init : QSt := ⟨0, 0, 0, 0, true⟩

/-- Where a taken command stands (R405, R407, R408, R412): not started; started, its transfer held up by a bank; or
waiting for a notice of a kind; a test start's release; sites at FINAL; the resets of an arm; a handover of a bank (its
previous owner); task operations `op` on tasks `next` to `stop - 1` (operations under way, tasks refused); a READ; the context of a
task, with the bytes of its record;
training of lanes (those that failed at once); point `k` of an eye scan (results so far); relocked groups (refused
groups, codes). -/
inductive Wait
  | held
  | data
  | notice (mask : BitVec 3)
  | release
  | sites (mask : Nat)
  | arm (mask : Nat)
  | owner (b prev : Nat)
  | ops (op : Nat) (arg : W32) (next stop out refused : Nat)
  | query (task : Nat)
  | context (task : Nat) (rec_ : List Byte)
  | train (mask failed : Nat)
  | scan (k : Nat) (errors : List W32)
  | relock (groups refused : Nat) (codes : Nat)
deriving DecidableEq, Repr

/-- A command in progress: its number in take order, opcode, packet, the submission head after it, whether its
completion will be written, where it stands. -/
structure Cur where
  id : Nat
  op : Nat
  pkt : Packet
  head : Nat
  live : Bool
  wait : Wait
deriving DecidableEq, Repr

/-- What is requested in sleep and waits for the wake (R27): a read (none) or write of a register by the management controller; the
ADC request of a timer channel. -/
inductive LateReq
  | access (a : Nat) (v : Option W32)
  | adc (c : Nat)
deriving DecidableEq, Repr

/-- The states of the test access port's controller (PRESUMED: IEEE 1149.1, log 137). -/
inductive TapState
  | testLogicReset | runTestIdle
  | selectDr | captureDr | shiftDr | exit1Dr | pauseDr | exit2Dr | updateDr
  | selectIr | captureIr | shiftIr | exit1Ir | pauseIr | exit2Ir | updateIr
deriving DecidableEq, Repr

/-- The test access port (R291, R499): its controller, its instruction, the levels of the output cells of the lanes, whether the test
receivers are in AC mode, and what they hold. -/
structure Tap where
  st : TapState
  instr : ScanInstr
  cells : BitVec 64
  ac : Bool
  rx : BitVec 64
deriving DecidableEq, Repr

/-- The test access port after reset: Test-Logic-Reset with IDCODE (PRESUMED: IEEE 1149.1, log 137). -/
def Tap.init : Tap := ⟨.testLogicReset, .idcode, 0, false, 0⟩

/-- The state of the block. -/
structure State where
  pending : List Instr
  fresh : Nat
  nextId : Nat
  eclk : Nat
  regs : List (Nat × W32)
  bar0 : List (Nat × W32)
  mem : List Host.Cell
  busOut : W32
  prog : List (Nat × W128)
  progOn : Bool                     -- an activation has filled the program stores since the last full reset (R441)
  engs : List (Nat × EngSt)
  ths : List (Nat × Thread)
  chans : List (Nat × Chan)
  flights : List Flight
  culmStart : Option Nat
  culmDone : Nat
  tasks : List (Nat × TaskRec)
  evq : List EvReq
  taskOps : List TaskOp
  opFree : Nat                      -- ECLK count from which the next task operation may be performed (R212)
  pageOuts : List PageOut
  roundStart : Bool
  granted : List Nat                -- tasks granted in this ECLK cycle (R205)
  schedAt : Nat                     -- mapped positions the scheduler has passed in this cycle (R204)
  intake : List Nat                 -- ECLK counts until which intake positions of the Granary are occupied (R193)
  ctxReads : List Nat               -- ECLK counts until which read ports of the context store are taken (R206)
  ctxWrites : List Nat              -- the same for its write ports
  mtxq : List Txn
  xfers : List Xfer                 -- transfers in progress (R355)
  mtxBusy : List (Nat × Nat)        -- MCLK cycles that a target port stays occupied after its last grant (R358)
  bus : List (Nat × BusCycle)       -- the PCLK cycle of each peripheral bus (R365 to R367)
  banks : List (Nat × BankSt)
  bankPois : List (Nat × Bool)      -- poisoned words of the banks, the program stores and the context store (R344)
  dramq : List (Nat × Txn)
  poisoned : List (Nat × Bool)      -- poisoned 32-byte DRAM bursts (R352)
  scrubbed : List (Nat × Bool)      -- DRAM bursts that this scrub pass has read (R351)
  rowCe : List (Nat × Nat)          -- corrected errors of a DRAM row in this scrub pass (R352)
  pprq : List Nat                   -- DRAM rows that are repair candidates, oldest first
  glnPos : Nat                      -- rows the Gleaner has visited in this pass (R343)
  recPois : List (Nat × Option W64) -- words of the state store that a copy found bad, with what they hold: poisoned until rewritten (R344)
  glnDue : Nat                      -- ECLK count at which the Gleaner may copy its next row (R343)
  grants : List (Nat × BitVec 24)
  px : List (Nat × PxSt)
  pg : List (Nat × PgSt)
  lanes : List (Nat × LnSt)
  tsets : List (Nat × BitVec 1152)   -- timing sets, 64 per pin group (R219)
  pxprog : List (Nat × W128)         -- microprograms, 4,096 words per expander (R238)
  scr : List (Nat × W32)             -- scramble tables, 65,536 entries per expander (R242)
  startReq : Bool                    -- a test start request waits (R234, R289)

  thr : List (Nat × ThrSt)
  regions : List (Nat × Region_)     -- repair regions by global number
  rdesc : List (Nat × W128)          -- region descriptors (R306)
  sites : List (Nat × SiteSt)
  repairQ : List Repair
  queues : List (Nat × QSt)
  inprog : List Cur                  -- commands in progress, in take order
  lastQ : Nat                        -- the queue last taken from (R404)
  opsDone : List (Nat × Bool)        -- finished task operations of host commands: command, refused
  hostMem : List Host.Cell           -- what the device has written to host memory
  msixPend : BitVec 32               -- vectors with a message to send (R397)
  msixSent : List (Nat × Nat)        -- messages sent per vector
  bar2 : List (Nat × W32)            -- the MSI-X table (R392)
  cfgSpace : List (Nat × W32)        -- the endpoint's configuration space (R392, R393)
  perst : Bool                       -- the PERST_N contact is asserted (R437)
  stickyNote : Option W32            -- a latched STICKY notice: DEV_STICKY after the change (R413)
  faultNote : Option W32             -- a latched FAULT notice
  unreported : List Nat              -- enabled sites that reached FINAL and are not reported, ascending
  syncq : List (BitVec 4)            -- accepted sync words that have not acted yet (R288)
  syncOut : Option (BitVec 16)       -- the last word sent on SYNC_OUT (R288)
  startSeq : BitVec 7                -- sequence count of START words (R289)
  startSent : Bool                   -- the START word of the pending start has been sent (R289)
  sleeping : Bool
  tap : Tap                          -- the test access port and the boundary cells of the lanes (R291, R499)
  dma : List (Nat × DmaSt)           -- DMA channels (R368, R370)
  dmaq : List Nat                    -- TRIG codes of source events under way to the DMA (R369)
  dmaLast : Nat                      -- the channel that last moved an element (R370)
  tmrStage : List (Nat × Option W32) -- staged writes of high channels, by register address (R384)
  tmrRun : List (Nat × Nat)          -- unbroken active-gate ticks of a channel (R382)
  tmrActs : List (Nat × Nat)         -- actions raised at this edge: target channel, code (R388)
  tmrDue : List (Nat × Nat)          -- actions raised at an earlier edge, due at this one
  tmrEdge : Nat                      -- channels up to which this PCLK edge has ticked (R387)
  tmrGate : List (Nat × (Bool × Bool × Bool))  -- gate input and flip-flops of a channel (R381)
  tmrDiv : List (Nat × Nat)          -- TREF edges counted by the divider of a channel (R374)
  tmrSlow : List (Nat × Bool)        -- channels in slow mode (R391)
  adc : AdcSt
  age : List (Nat × (Int × Nat))     -- windows of this evaluation period: sum of f0 - f, count (R469)
  ageOver : Bool                     -- need exceeded the acknowledged step at the last evaluation (R472)
  avs : AvsSt
  avsOut : List AvsFrame             -- the last four AVSBus frames sent, newest first (R429)
  nv : NvSt                          -- the newer copy of each record (R449)
  nvOld : NvSt                       -- the older copies
  flash : List (Nat × Option Byte)   -- programmed bytes of slots A and B (R445)
  image : Option (List Byte × List Byte)  -- BUILD_ID and NAME of the active image (R411)
  power : Power
  straps : BitVec 2                  -- the card's straps of SMB_ADDR1 and SMB_ADDR0 (R426)
  histCopy : Option Nat              -- the age of the history entry being copied (R451)
  lifeTicks : Nat                    -- life updates since the last full reset
  sleepDue : Bool                    -- an accepted sleep entry is to come (R454)
  engStop : Bool                     -- engines and Granary stopped by a trip or a removal preparation (R458, R468)
  safe : Bool                        -- SAFE_N is asserted (R459)
  smbOut : List Byte                 -- the bytes of the last SMBus answer (R427, R428)
  late : List LateReq                -- what was requested in sleep, oldest first (R27)
  wakeDue : Option WakeSource        -- the event that ends sleep, once one has come (R456)
deriving DecidableEq, Repr

/-- The state after reset. -/
def State.reset : State :=
  { pending := [], fresh := 0, nextId := 0, eclk := 0, regs := [], bar0 := [], mem := [], busOut := 0,
    prog := [], progOn := false, engs := [], ths := [], chans := [], flights := [], culmStart := none, culmDone := 0,
    tasks := [], evq := [], taskOps := [], opFree := 0, pageOuts := [], roundStart := false, granted := [], schedAt := 0, intake := [], ctxReads := [], ctxWrites := [], mtxq := [], xfers := [],
    mtxBusy := [], bus := [], banks := [], bankPois := [], dramq := [], poisoned := [], scrubbed := [], rowCe := [], pprq := [],
    glnPos := 0, recPois := [], glnDue := 0, grants := [], px := [], pg := [], lanes := [], tsets := [], pxprog := [], scr := [],
    startReq := false, thr := [], regions := [], rdesc := [], sites := [], repairQ := [],
    queues := [], inprog := [], lastQ := 15, opsDone := [], hostMem := [], msixPend := 0, msixSent := [], bar2 := [], cfgSpace := [], perst := true,
    stickyNote := none, faultNote := none, unreported := [], syncq := [], syncOut := none, startSeq := 0, startSent := false, sleeping := false, tap := Tap.init,
    dma := [], dmaq := [], dmaLast := 7, tmrStage := [], tmrRun := [], tmrActs := [], tmrDue := [], tmrEdge := 0, tmrGate := [], tmrDiv := [], tmrSlow := [], adc := ⟨none, none, none, false, 0⟩,
    age := [], ageOver := false, avs := ⟨none, none, none, none, false⟩, avsOut := [], nv := NvSt.init, nvOld := NvSt.init, flash := [], image := none,
    power := .entry, straps := 0, histCopy := none, lifeTicks := 0, sleepDue := false, engStop := false, safe := false, smbOut := [],
    late := [], wakeDue := none }

end Sys2Proof.Machine
end

