-- ==== Sys2Proof/Machine/Ops.lean ====
section
/-!
DEFINITION. The named operations over registers, memory and the sparse parts of the state that every family uses.
-/

namespace Sys2Proof.Machine

/- Registers ------------------------------------------------------------------------------------ -/

/-- What control address `a` stores. -/
def State.rd (s : State) (a : Nat) : W32 := spGet regReset s.regs a

/-- Store a word at control address `a`. -/
def State.wr (s : State) (a : Nat) (v : W32) : State := { s with regs := spSet regReset s.regs a v }

/-- Bits `lo` to `lo + w - 1` of a word. -/
def field (v : W32) (lo w : Nat) : Nat := v.toNat / 2 ^ lo % 2 ^ w

/-- The word with bits `lo` to `lo + w - 1` replaced by `x` modulo `2 ^ w`. -/
def putField (v : W32) (lo w x : Nat) : W32 :=
  BitVec.ofNat 32 (v.toNat % 2 ^ lo + x % 2 ^ w * 2 ^ lo + v.toNat / 2 ^ (lo + w) * 2 ^ (lo + w))

/-- A field of a stored register. -/
def State.rf (s : State) (a lo w : Nat) : Nat := field (s.rd a) lo w

/-- A bit of a stored register. -/
def State.bit (s : State) (a i : Nat) : Bool := s.rf a i 1 == 1

/-- Store a field of a register. -/
def State.wf (s : State) (a lo w x : Nat) : State := s.wr a (putField (s.rd a) lo w x)

/-- Set a bit of a register. -/
def State.setB (s : State) (a i : Nat) : State := s.wf a i 1 1

/-- Clear a bit of a register. -/
def State.clrB (s : State) (a i : Nat) : State := s.wf a i 1 0

/-- Set a bit to a Boolean. -/
def State.putB (s : State) (a i : Nat) (v : Bool) : State := s.wf a i 1 v.toNat

/-- Add to a 32-bit counter that wraps. -/
def State.bump (s : State) (a n : Nat) : State := s.wr a (s.rd a + BitVec.ofNat 32 n)

/-- Add to a 32-bit counter that saturates. -/
def State.bumpSat (s : State) (a n : Nat) : State :=
  s.wr a (BitVec.ofNat 32 (min ((s.rd a).toNat + n) 0xFFFFFFFF))

/-- A register of BAR0. -/
def State.rdB (s : State) (a : Nat) : W32 := spGet bar0Reset s.bar0 a

/-- Store a BAR0 register. -/
def State.wrB (s : State) (a : Nat) (v : W32) : State := { s with bar0 := spSet bar0Reset s.bar0 a v }

/-- A field of a BAR0 register. -/
def State.rfB (s : State) (a lo w : Nat) : Nat := field (s.rdB a) lo w

/-- Store a field of a BAR0 register. -/
def State.wfB (s : State) (a lo w x : Nat) : State := s.wrB a (putField (s.rdB a) lo w x)

/- Free values ---------------------------------------------------------------------------------- -/

/-- The next free value. -/
def State.free (s : State) : W64 := Config.free s.fresh

/-- The state with the next free value used up. -/
def State.used (s : State) : State := { s with fresh := s.fresh + 1 }

/- Sleep ---------------------------------------------------------------------------------------- -/

/-- What a domain that sleep stops would do: nothing while the device sleeps (R27, R455). -/
def State.awakeDo (s : State) (f : State → State) : State := if s.sleeping then s else f s

/-- What a write (`some`) or read (`none`) of the register at `a` by the management controller does. In sleep its bridge stands, and
the access waits for the wake (R27, R455). -/
def State.lateDo (s : State) (a : Nat) (v : Option W32) (f : State → State) : State :=
  if s.sleeping then { s with late := s.late ++ [.access a v] } else f s

/- Memory --------------------------------------------------------------------------------------- -/

/-- What a byte of memory reads as when nothing has written it (DESIGN CHOICE: 0). -/
def memUnwritten (_ : Nat) : Byte := 0

/-- The canonical form of memory. -/
def Memory.wf (m : List Host.Cell) : Bool := spOk memUnwritten m

/-- The byte at a memory key. -/
def State.byte (s : State) (a : Nat) : Byte := spGet memUnwritten s.mem a

/-- Store one byte. -/
def State.setByte (s : State) (a : Nat) (v : Byte) : State := { s with mem := spSet memUnwritten s.mem a v }

/-- The little-endian number in the `n` bytes from `a` (R3). -/
def State.bytes (s : State) (a : Nat) : Nat → Nat
  | 0 => 0
  | n + 1 => (s.byte a).toNat + 256 * s.bytes (a + 1) n

/-- Store the low `n` bytes of `v` from `a`, little-endian (R3). -/
def State.setBytes (s : State) (a : Nat) : Nat → Nat → State
  | 0, _ => s
  | n + 1, v => (s.setByte a (BitVec.ofNat 8 v)).setBytes (a + 1) n (v / 256)

/-- The bytes from `a` as a list. -/
def State.byteList (s : State) (a n : Nat) : List Byte := (List.range n).map fun i => s.byte (a + i)

/-- Store a list of bytes from `a`. -/
def State.setByteList (s : State) (a : Nat) : List Byte → State
  | [] => s
  | v :: t => (s.setByte a v).setByteList (a + 1) t

/-- The little-endian number of a byte list. -/
def leNat : List Byte → Nat
  | [] => 0
  | v :: t => v.toNat + 256 * leNat t

/-- The `n` low bytes of a number, little-endian. -/
def natLe : Nat → Nat → List Byte
  | 0, _ => []
  | n + 1, v => BitVec.ofNat 8 v :: natLe n (v / 256)

/-- The 64-bit words of consecutive 8-byte groups. -/
def State.words (s : State) (a n : Nat) : List W64 :=
  (List.range n).map fun i => BitVec.ofNat 64 (s.bytes (a + 8 * i) 8)

/-- Store 64-bit words from `a`. -/
def State.setWords (s : State) (a : Nat) (l : List W64) : State := s.setByteList a (l.flatMap fun v => natLe 8 v.toNat)

/-- The key of byte `o` of the local scratch of engine `e` (R71); above every 40-bit address. -/
def scratchKey (e o : Nat) : Nat := 2 ^ 41 + 0x40000 * e + o

/-- Fill `n` bytes from memory key `a` with zeros. -/
def State.zeroFill (s : State) (a n : Nat) : State := { s with mem := s.mem.filter fun p => !(a ≤ p.1 && p.1 < a + n) }

/-- The key of the context of task `t` (R182, R354). -/
def ctxKey (t : Nat) : Nat := 0x0400000000 + 512 * t

/-- The number of the first 64-bit word of the program stores, behind those of the banks. -/
def progWord0 : Nat := 48 * 0x80000

/-- The number of the first 64-bit word of the context store, behind those of the program stores. -/
def ctxWord0 : Nat := progWord0 + 12 * 0x40000

/-- The number of the first 64-bit word of the state store, behind those of the context store. -/
def recWord0 : Nat := ctxWord0 + 64 * 40960

/-- A word of a bank, a program store or the context store is poisoned (R344). -/
def State.wordPois (s : State) (k : Nat) : Bool := spGet (fun _ => false) s.bankPois k

/- Sparse parts --------------------------------------------------------------------------------- -/

/-- Thread slot index of a thread operand. -/
def thIx (t : Th) : Nat := 8 * (9 * t.s.val + t.k.val) + t.j.val
/-- Engine index of an engine operand. -/
def engIx (e : EngId) : Nat := 9 * e.s.val + e.k.val
/-- The engine of a thread index. -/
def engOf (i : Nat) : Nat := i / 8
/-- The slot of a thread index in its engine. -/
def slotOf (i : Nat) : Nat := i % 8

/-- Thread slot `i`. -/
def State.th (s : State) (i : Nat) : Thread := spGet (fun _ => Thread.init) s.ths i
/-- Store thread slot `i`. -/
def State.setTh (s : State) (i : Nat) (t : Thread) : State :=
  { s with ths := spSet (fun _ => Thread.init) s.ths i t }
/-- Change thread slot `i`. -/
def State.modTh (s : State) (i : Nat) (f : Thread → Thread) : State := s.setTh i (f (s.th i))

/-- Engine `e`. -/
def State.eng (s : State) (e : Nat) : EngSt := spGet (fun _ => EngSt.init) s.engs e
/-- Store engine `e`. -/
def State.setEng (s : State) (e : Nat) (v : EngSt) : State :=
  { s with engs := spSet (fun _ => EngSt.init) s.engs e v }

/-- Channel `c`. -/
def State.chan (s : State) (c : Nat) : Chan := spGet (fun _ => Chan.init) s.chans c
/-- Store channel `c`. -/
def State.setChan (s : State) (c : Nat) (v : Chan) : State :=
  { s with chans := spSet (fun _ => Chan.init) s.chans c v }

/-- The state record of task `t`. -/
def State.task (s : State) (t : Nat) : TaskRec := spGet (fun _ => TaskRec.absent) s.tasks t
/-- Store the state record of task `t`. -/
def State.setTask (s : State) (t : Nat) (v : TaskRec) : State :=
  { s with tasks := spSet (fun _ => TaskRec.absent) s.tasks t v }

/-- Bank `b`. -/
def State.bank (s : State) (b : Nat) : BankSt := spGet (fun _ => BankSt.init) s.banks b
/-- Store bank `b`. -/
def State.setBank (s : State) (b : Nat) (v : BankSt) : State :=
  { s with banks := spSet (fun _ => BankSt.init) s.banks b v }

/-- Expander `n`. -/
def State.pxs (s : State) (n : Nat) : PxSt := spGet (fun _ => PxSt.init) s.px n
/-- Store expander `n`. -/
def State.setPx (s : State) (n : Nat) (v : PxSt) : State :=
  { s with px := spSet (fun _ => PxSt.init) s.px n v }

/-- Thresher `n`. -/
def State.thrs (s : State) (n : Nat) : ThrSt := spGet (fun _ => ThrSt.init) s.thr n
/-- Store Thresher `n`. -/
def State.setThr (s : State) (n : Nat) (v : ThrSt) : State :=
  { s with thr := spSet (fun _ => ThrSt.init) s.thr n v }

/-- Region `g`, by global number. -/
def State.region (s : State) (g : Nat) : Region_ := spGet (fun _ => Region_.init) s.regions g
/-- Store region `g`. -/
def State.setRegion (s : State) (g : Nat) (v : Region_) : State :=
  { s with regions := spSet (fun _ => Region_.init) s.regions g v }
/-- The descriptor of region `g` (R306, R517). -/
def State.rdescOf (s : State) (g : Nat) : W128 := spGet (fun _ => 0) s.rdesc g
/-- Site `n`. -/
def State.site (s : State) (n : Nat) : SiteSt := spGet (fun _ => SiteSt.init) s.sites n
/-- Store site `n`. -/
def State.setSite (s : State) (n : Nat) (v : SiteSt) : State :=
  { s with sites := spSet (fun _ => SiteSt.init) s.sites n v }

/-- The image grants queue code `q` of R173 to task `t`. -/
def State.grantOf (s : State) (t q : Nat) : Bool := (spGet (fun _ => (0 : BitVec 24)) s.grants t).getLsbD q

/-- The fault word that fills the program store beyond the program (R65, R517). -/
def faultWord : W128 := 0xFFF

/-- What the program store holds beside the listed words: zero after a full reset, the fault word once an activation has filled
it (R65, R435, R441). -/
def State.progRest (s : State) : W128 := if s.progOn then faultWord else 0

/-- The instruction word at `pc` of the program store; every Sheaf holds the same copy (R63). -/
def State.instrAt (s : State) (pc : Pc) : W128 := spGet (fun _ => s.progRest) s.prog pc.toNat

/- The service area (R449) ------------------------------------------------------------------------- -/

/-- The older copies after the records of `v` have been rewritten as `w`: of each record that changed, what it held. -/
def NvSt.older (old v w : NvSt) : NvSt :=
  let boot := decide (v.stA ≠ w.stA) || decide (v.stB ≠ w.stB) || decide (v.boot ≠ w.boot)
  let keys := decide (v.keys ≠ w.keys) || decide (v.revoked ≠ w.revoked)
  let pol := decide (v.require ≠ w.require) || decide (v.lock ≠ w.lock)
  let life := decide (v.used ≠ w.used) || decide (v.frac ≠ w.frac) || decide (v.step ≠ w.step)
  { old with
    stA := if boot then v.stA else old.stA, stB := if boot then v.stB else old.stB, boot := if boot then v.boot else old.boot
    keys := if keys then v.keys else old.keys, revoked := if keys then v.revoked else old.revoked
    require := if pol then v.require else old.require, lock := if pol then v.lock else old.lock
    repairs := if v.repairs = w.repairs then old.repairs else v.repairs
    used := if life then v.used else old.used, frac := if life then v.frac else old.frac, step := if life then v.step else old.step }

/-- Zhodan writes records of the service area: the newer copies become `v`, the older what the newer held (R449). -/
def State.nvPut (s : State) (v : NvSt) : State := { s with nv := v, nvOld := s.nvOld.older s.nv v }

/-- Pin group `g`. -/
def State.pgs (s : State) (g : Nat) : PgSt := spGet (fun _ => PgSt.init) s.pg g
/-- Store pin group `g`. -/
def State.setPg (s : State) (g : Nat) (v : PgSt) : State := { s with pg := spSet (fun _ => PgSt.init) s.pg g v }

/-- Lane `n`. -/
def State.lane (s : State) (n : Nat) : LnSt := spGet (fun _ => LnSt.init) s.lanes n
/-- Store lane `n`. -/
def State.setLane (s : State) (n : Nat) (v : LnSt) : State :=
  { s with lanes := spSet (fun _ => LnSt.init) s.lanes n v }

/-- Timing set `k` of pin group `g` (R219, R517). -/
def State.tset (s : State) (g k : Nat) : BitVec 1152 := spGet (fun _ => 0) s.tsets (64 * g + k)
/-- Microinstruction `pc` of expander `n` (R238, R517). -/
def State.micro (s : State) (n pc : Nat) : W128 := spGet (fun _ => 0) s.pxprog (4096 * n + pc)
/-- What scramble entry `k` holds when no image fills it: the identity (R517). -/
def scrIdent (k : Nat) : W32 := BitVec.ofNat 32 (k % 65536 + k % 65536 * 65536)
/-- Scramble entry `i` of expander `n` (R242). -/
def State.scramble (s : State) (n i : Nat) : W32 := spGet scrIdent s.scr (65536 * n + i)

/- Peripheral buses (R365 to R367) ---------------------------------------------------------------- -/

/-- The input of a peripheral bus that an agent uses: 0 management controller, 1 peripheral DMA, 2 matrix side. -/
def busInput : Agent → Nat
  | .mgmt => 0
  | .dma => 1
  | _ => 2

/-- The PCLK cycle of peripheral bus `k`. -/
def State.busCycle (s : State) (k : Nat) : BusCycle := spGet (fun _ => BusCycle.init) s.bus k
/-- Store the PCLK cycle of a bus. -/
def State.setBus (s : State) (k : Nat) (c : BusCycle) : State := { s with bus := spSet (fun _ => BusCycle.init) s.bus k c }

/-- The peripheral bus of a control address (R354). -/
def busOf (a : Nat) : Nat := if a < 0x200000 then 0 else 1

/-- The bits of a word that a read shows: those of RW, RO, W1C and WL fields (R6, R9). -/
def readMask (fs : List Field) (v : W32) : W32 :=
  fs.foldl (fun acc f => if f.acc = .wo ∨ f.acc = .trg then acc else putField acc f.lo f.w (field v f.lo f.w)) 0

/-- What the registers that a write to `a` may change read as before it: the register itself, now `old`, and for a write to the timer
block every COUNT (R367, R376). -/
def State.busSees (s : State) (a : Nat) (old : W32) : List (Nat × W32) :=
  (a, old) :: (if 0x40000 ≤ a ∧ a < 0x42000 then (List.range 32).map fun c => (aTmr c 0x14, s.rd (aTmr c 0x14)) else [])

/-- Input `i` makes an access. One PCLK cycle takes one access of each input, in the order management controller, DMA, matrix side
(R365, R366): an input that does not come after the last begins the next cycle (DESIGN CHOICE, log entry 122). Of registers seen
before, the first value is kept. -/
def BusCycle.enter (c : BusCycle) (i : Nat) (seen : List (Nat × W32)) : BusCycle :=
  let d : BusCycle := if c.inputs.any (i ≤ ·) then BusCycle.init else c
  { d with inputs := d.inputs ++ [i]
           before := d.before ++ seen.filter fun p => d.before.all fun q => q.1 != p.1 }

/-- Input `i` of the bus of register `a` makes its access: a write, where the register has read as `old`, or a read (none). -/
def State.busEnter (s : State) (a i : Nat) (old : Option W32) : State :=
  s.setBus (busOf a) ((s.busCycle (busOf a)).enter i (match old with
    | some v => s.busSees a v
    | none => []))

/-- The PCLK cycles of the peripheral buses are over: what comes next falls in later ones (R365, R376). -/
def State.busEnd (s : State) : State := { s with bus := [] }

/-- The device sets W1C bit `i` of register `a` for an access of its bus; a clear later in the same PCLK cycle leaves it set (R7). -/
def State.flag (s : State) (a i : Nat) : State :=
  let k := s.busCycle (busOf a)
  (s.setB a i).setBus (busOf a) { k with sets := if k.inputs.isEmpty then k.sets else (a, i) :: k.sets }

/-- What an earlier access of this PCLK cycle set at bit `i` of register `a` counts no more. -/
def State.unflag (s : State) (a i : Nat) : State :=
  let k := s.busCycle (busOf a)
  s.setBus (busOf a) { k with sets := k.sets.filter fun p => p != (a, i) }

/-- An access of this PCLK cycle has set bit `i` of register `a` (R7). -/
def State.flagged (s : State) (a i : Nat) : Bool := (s.busCycle (busOf a)).sets.contains (a, i)

/-- What a read of register `a` gives in this PCLK cycle: the value before the cycle's writes, `now` where none of them changes it
(R367, R376). -/
def State.busWord (s : State) (a : Nat) (now : W32) : W32 :=
  (((s.busCycle (busOf a)).before.find? fun p => p.1 == a).map (·.2)).getD now

/-- The state in which an access of the management controller to the register at `a` acts, a write if `w`: it has used its input of
the peripheral bus in this PCLK cycle (R365, R367). -/
def State.mgmtIn (s : State) (a : Nat) (w : Bool) : State :=
  s.busEnter a 0 (if w then some (readMask (regFields a) (s.rd a)) else none)

/-- An access of the management controller that does `f`: through its input of the bus, after the wake if the device sleeps (R27,
R365, R406). -/
def State.mgmtDo (s : State) (a : Nat) (v : Option W32) (f : State → State) : State :=
  s.lateDo a v fun s => f (s.mgmtIn a v.isSome)

/- Test access port (R291) ---------------------------------------------------------------------- -/

/-- The instruction hands the lane contacts to the boundary cells (R291). -/
def handsOver (i : ScanInstr) : Bool := i == .extest || i == .extestPulse || i == .extestTrain

/-- An EXTEST instruction is in force: the boundary cells hold the lane contacts (R291). -/
def State.extest (s : State) : Bool := handsOver s.tap.instr

/- Events --------------------------------------------------------------------------------------- -/

/-- Offer an event to the Granary's intake (R193); it waits in its crossing until taken. -/
def State.post (s : State) (rank : Nat) (task : Option Nat) (cls obj : Nat) : State :=
  { s with evq := s.evq ++ [⟨rank, task, cls, BitVec.ofNat 32 obj⟩] }

/- Intake ranks of R193. -/
/-- Thresher `n`. -/
def rkThr (n : Nat) : Nat := n
/-- Expander `n`. -/
def rkPx (n : Nat) : Nat := 4 + n
/-- Timers. -/
def rkTmr : Nat := 20
/-- DMA. -/
def rkDma : Nat := 21
/-- Sensors. -/
def rkSensor : Nat := 22
/-- Lanes. -/
def rkLane : Nat := 23
/-- Health. -/
def rkHealth : Nat := 24
/-- START and STOP. -/
def rkSite : Nat := 25
/-- SYNC, BANK and CULM_RX, whose sources R193 does not list (DESIGN CHOICE: after the PCLK group). -/
def rkOther : Nat := 26
/-- The management controller, for DOORBELL. -/
def rkMgmt : Nat := 27
/-- RAISE. -/
def rkRaise : Nat := 28
/-- SIGNAL of thread index `i`. -/
def rkSignal (i : Nat) : Nat := 29 + i

/- Engine mapping (R175, R475) ------------------------------------------------------------------- -/

/-- The physical slot of mapped position `p` of Sheaf `sh`; none where the position is unplaced. -/
def State.physOf (s : State) (sh p : Nat) : Option Nat :=
  let k := s.rf (aShf sh 0) (4 * p) 4
  if k < 9 then some k else none

/-- The mapped position of physical slot `k` of Sheaf `sh`. -/
def State.posOf (s : State) (sh k : Nat) : Option Nat :=
  (List.range 8).find? fun p => s.rf (aShf sh 0) (4 * p) 4 == k

/-- STATUS.MAPPED of engine `e`. -/
def State.mapped (s : State) (e : Nat) : Bool := s.bit (aEng e 0) 0
/-- STATUS.LOCKUP of engine `e`. -/
def State.locked (s : State) (e : Nat) : Bool := s.bit (aEng e 0) 1
/-- STATUS.BRACE of engine `e`. -/
def State.inBrace (s : State) (e : Nat) : Bool := s.bit (aEng e 0) 2

end Sys2Proof.Machine
end

