-- ==== Sys2Proof/Machine/Addr.lean ====
section
/-!
DEFINITION. The 40-bit address map (R67, R325, R349, R354): which memory or port an address names, the start and end of transfers (R355)
and the free lists of the Threshers (R316).
-/

namespace Sys2Proof.Machine

/-- The alias of a bank address (R325, R338). -/
inductive Alias
  | normal | set | clear
deriving DecidableEq, Repr

/-- What a 40-bit address names. -/
inductive Region
  | scratch (o : Nat)
  | ctrl (a : Nat)
  | bank (b o : Nat) (al : Alias)
  | dram (o : Nat)
  | ctx (o : Nat)        -- Granary spill port, contexts
  | recs (o : Nat)       -- Granary spill port, state records
  | unmapped
deriving DecidableEq, Repr

/-- The region of a bank address with its alias window removed. -/
def bankRegion (o : Nat) (al : Alias) : Region :=
  if o < 0x0C000000 then .bank (o / 0x400000) (o % 0x400000) al else .unmapped

/-- The region of an address (R67, R354). -/
def regionOf (a : Nat) : Region :=
  if a < 0x40000 then .scratch a
  else if a < 0x80000000 then .unmapped
  else if a < 0x100000000 then .ctrl (a - 0x80000000)
  else if a < 0x200000000 then bankRegion (a - 0x100000000) .normal
  else if a < 0x300000000 then bankRegion (a - 0x200000000) .set
  else if a < 0x400000000 then bankRegion (a - 0x300000000) .clear
  else if a < 0x401400000 then .ctx (a - 0x400000000)
  else if a < 0x402000000 then .unmapped
  else if a < 0x4020F0000 then .recs (a - 0x402000000)
  else if a < 0x1000000000 then .unmapped
  else if a < 0x1800000000 then .dram (a - 0x1000000000)
  else .unmapped

/-- An engine may name the region (R67, R354). -/
def Region.engine : Region → Bool
  | .scratch _ => true
  | .ctrl _ => true
  | .bank _ _ _ => true
  | .dram _ => true
  | _ => false

/-- Two addresses lie in one region of R67 (the same range, and for banks the same alias). -/
def sameRange (a b : Nat) : Bool :=
  match regionOf a, regionOf b with
  | .scratch _, .scratch _ => true
  | .ctrl _, .ctrl _ => true
  | .bank _ _ x, .bank _ _ y => x == y
  | .dram _, .dram _ => true
  | _, _ => false

/-- The memory key of a bank offset: the bank's normal address. -/
def bankKey (b o : Nat) : Nat := 0x100000000 + 0x400000 * b + o
/-- The memory key of a DRAM offset. -/
def dramKey (o : Nat) : Nat := 0x1000000000 + o

/-- The bank or scratch location an access names, aliases removed (R73). -/
def plainAddr (a : Nat) : Nat :=
  match regionOf a with
  | .bank b o _ => bankKey b o
  | _ => a

/-- DRAM channel of a DRAM offset under DRC.MAP.MODE (R349). -/
def State.dramChan (s : State) (o : Nat) : Nat :=
  if s.bit (aDrc 0) 0 then o / 2 ^ 31 % 16 else o / 2 ^ 8 % 16

/-- The channel address C of a DRAM offset (R349). -/
def State.dramC (s : State) (o : Nat) : Nat :=
  if s.bit (aDrc 0) 0 then o % 2 ^ 31 else o / 2 ^ 12 * 2 ^ 8 + o % 2 ^ 8

/-- The target port of an address (R354); none: a decode error. -/
def State.targetOf (s : State) (a : Nat) : Option Nat :=
  match regionOf a with
  | .bank b _ _ => some (b / 4)
  | .dram o => some (12 + s.dramChan o / 8)
  | .ctx _ => some 14
  | .recs _ => some 14
  | .ctrl a => some (if a < 0x200000 then 15 else 16)
  | _ => none

/-- QoS of master port `m` for a read or a write (R357). -/
def State.mqos (s : State) (m : Nat) (write : Bool) : Nat :=
  min 14 (s.rf (aMtx (4 * m)) (if write then 8 else 0) 4)

/-- The master code of a master port (R353). -/
def masterCode (m : Nat) : Nat :=
  if m ≤ 11 then m else if m = 12 then 0x10 else if m = 13 then 0x11
  else if m ≤ 17 then 0x20 + (m - 14) else if m = 18 then 0x30 else if m = 19 then 0x42
  else if m = 20 then 0x40 else 0x41

/- DRAM bytes (R349) ------------------------------------------------------------------------------ -/

/-- The DRAM offset of channel address `c` of channel `k` (R349). -/
def State.dramOffset (s : State) (k c : Nat) : Nat :=
  if s.bit (aDrc 0) 0 then k * 2 ^ 31 + c else c / 2 ^ 8 * 2 ^ 12 + k * 2 ^ 8 + c % 2 ^ 8

/-- The place in the stacks of DRAM offset `o`: channel and channel address as one number (R349). -/
def State.dramCell (s : State) (o : Nat) : Nat := s.dramChan o * 2 ^ 31 + s.dramC o

/-- The bytes at DRAM offset `o`. -/
def State.dramBytes (s : State) (o n : Nat) : List Byte := (List.range n).map fun i => s.byte (dramKey (s.dramCell (o + i)))

/-- Store bytes from DRAM offset `o`. -/
def State.setDram (s : State) (o : Nat) : List Byte → State
  | [] => s
  | v :: l => (s.setByte (dramKey (s.dramCell o)) v).setDram (o + 1) l

/- Transactions (R355, R357, R361, R363) ------------------------------------------------------------- -/

/-- `n` bytes at `a` cut at the boundaries of `blk`-byte blocks: addresses and lengths. -/
def cutAt (blk : Nat) : Nat → Nat → Nat → List (Nat × Nat)
  | 0, _, _ => []
  | f + 1, a, n =>
    if n = 0 then []
    else (a, min n (blk - a % blk)) :: cutAt blk f (a + min n (blk - a % blk)) (n - min n (blk - a % blk))

/-- The beats of a transaction: accesses inside one aligned 32-byte block (R327, R355). -/
def Txn.beats (x : Txn) : List Txn :=
  (cutAt 32 (x.size / 32 + 2) x.addr x.size).map fun p =>
    { x with addr := p.1, size := p.2, data := x.data.map fun l => (l.drop (p.1 - x.addr)).take p.2 }

/-- A transaction enters its master's queue: behind the others, but before those that a later thread of the Sheaf issued in
the same ECLK cycle (R361, R363). -/
def insTxn (x : Txn) : List Txn → List Txn
  | [] => [x]
  | y :: l => if y.master = x.master ∧ y.at_ = x.at_ ∧ x.slot < y.slot then x :: y :: l else y :: insTxn x l

/-- Issue a load or store of thread `i` at its Sheaf port (R361, R363). -/
def State.issue (s : State) (i : Nat) (f : TxnFor) (addr size : Nat) (data : Option (List Byte)) : State :=
  let m := engOf i / 9
  { s with mtxq := insTxn ⟨m, f, addr, size, data, s.mqos m data.isSome, 0, s.eclk, i⟩ s.mtxq }

/-- An expander in fetch mode that is STARTING or in a burst has fewer entries than LOWWATER (R357). -/
def State.fetchUrgent (s : State) : Bool :=
  (List.range 16).any fun n => s.bit (aPx n 8) 0 && (s.rf (aPx n 4) 0 3 == 2 || s.rf (aPx n 4) 0 3 == 3)
    && decide ((s.pxs n).queue.length < min 512 (s.rf (aPx n 8) 16 10))

/-- QoS of a transaction of a transfer (R357). -/
def State.xferQos (s : State) (x : Xfer) : Nat :=
  match x.key with
  | .dma c => min 14 (s.rf (aDma c 0x10) 16 4)
  | .fetch _ => if s.fetchUrgent then 15 else s.mqos x.port x.data.isSome
  | .bitmap n => if 192 ≤ (s.thrs n).bmq.length then 15 else s.mqos x.port x.data.isSome
  | _ => s.mqos x.port x.data.isSome

/- Transfers (R355) ---------------------------------------------------------------------------------- -/

/-- The transfer of `k`, if one is in progress. -/
def State.xferOf (s : State) (k : XferKey) : Option Xfer := s.xfers.find? fun x => x.key == k

/-- Store a transfer under its number. -/
def State.setXfer (s : State) (x : Xfer) : State := { s with xfers := s.xfers.map fun y => if y.id = x.id then x else y }

/-- The transfer of `k` is given up; answers still to come find none. -/
def State.dropXfer (s : State) (k : XferKey) : State := { s with xfers := s.xfers.filter fun x => x.key != k }

/-- The next transaction of transfer `x` (R355, R357). -/
def State.xferTxn (s : State) (x : Xfer) : Txn :=
  let a := x.addr + x.sent
  let n := min (x.blk - a % x.blk) (x.len - x.sent)
  ⟨x.port, .xfer x.id, a, n, x.data.map fun l => (l.drop x.sent).take n, s.xferQos x, 0, s.eclk, x.slot⟩

/-- Transfer `x` issues up to `f` transactions. -/
def State.xferIssue (s : State) (x : Xfer) : Nat → State
  | 0 => s
  | f + 1 =>
    if x.len ≤ x.sent then s
    else
      let t := s.xferTxn x
      let y := { x with sent := x.sent + t.size, last := x.sent }
      { s.setXfer y with mtxq := insTxn t s.mtxq }.xferIssue y f

/-- A transfer starts: all its transactions are issued, or the first. -/
def State.xferStart (s : State) (k : XferKey) (port slot blk : Nat) (all : Bool) (a n : Nat) (data : Option (List Byte)) : State :=
  let x : Xfer := ⟨s.nextId, k, port, slot, blk, all, a, n, data, 0, 0, 0, 0, List.replicate n 0, none⟩
  { s with nextId := s.nextId + 1, xfers := s.xfers ++ [x] }.xferIssue x (if all then n else 1)

/-- Every transaction issued has been answered, and no more are to come: all are done, or one failed. -/
def Xfer.over (x : Xfer) : Bool := x.ans == x.sent && (x.err.isSome || x.sent == x.len)

/-- A transfer as its master sees it: started if there is none, and once it is over taken from the list. -/
def State.xfer (s : State) (k : XferKey) (port slot blk : Nat) (all : Bool) (a n : Nat) (data : Option (List Byte)) :
    State × Option Xfer :=
  let s1 := if (s.xferOf k).isSome then s else s.xferStart k port slot blk all a n data
  match s1.xferOf k with
  | some x => if x.over then (s1.dropXfer k, some x) else (s1, none)
  | none => (s1, none)

/-- Replace the bytes from `o` by `l`. -/
def splice (o : Nat) (l g : List Byte) : List Byte := g.take o ++ l ++ g.drop (o + l.length)

/-- The answer to a beat of `n` bytes at `a` reaches transfer `id`; a master that waits for each transaction issues the next. -/
def State.xferBack (s : State) (id a n : Nat) (r : Except Nat (List Byte)) : State :=
  match s.xfers.find? fun x => x.id == id with
  | none => s
  | some x =>
    let y : Xfer := { x with ans := x.ans + n }
    let z : Xfer := if x.err.isSome then y else match r with
      | .ok l => { y with moved := x.moved + n, got := splice (a - x.addr) l x.got }
      | .error k => { y with err := some k }
    let s1 := s.setXfer z
    if z.ans = z.sent ∧ z.err.isNone = true ∧ z.all = false then s1.xferIssue z 1 else s1

/-- A write that was acknowledged fails: a transfer in progress that had no error gets it. -/
def State.xferLate (s : State) (id k : Nat) : State :=
  match s.xfers.find? fun x => x.id == id with
  | some x => if x.err.isSome then s else s.setXfer { x with err := some k }
  | none => s

/- Free lists (R316) -/

/-- The DRAM address of free-list entry `k` of Thresher `n`. -/
def State.flAddr (s : State) (n k : Nat) : Nat :=
  s.rf (aThr n 0x100) 4 28 * 16 + s.rf (aThr n 0x104) 0 8 * 2 ^ 32 + 4 * k

/-- Entries of the free-list ring. -/
def State.flSize (s : State) (n : Nat) : Nat := 2 ^ min 18 (s.rf (aThr n 0x108) 0 5)

/-- The pages `l` go back to the ring of Thresher `n`: it writes the first at FL_PUT, as one beat; a full ring drops it (R316,
R355). -/
def State.flNext (s : State) (n : Nat) : List Nat → State
  | [] => s.setThr n { s.thrs n with toFree := [], freeing := false }
  | p :: l =>
    if s.flSize n ≤ s.rf (aThr n 0x114) 0 19 then (s.flag (aThr n 4) 8).flNext n l
    else
      let a := s.flAddr n (s.rf (aThr n 0x110) 0 18)
      { s.setThr n { s.thrs n with toFree := p :: l, freeing := true } with
          mtxq := insTxn ⟨14 + n, .freed n, a, 4, some (natLe 4 p), s.mqos (14 + n) true, 0, s.eclk, 0⟩ s.mtxq }

/-- Pages join those that go back to the ring of Thresher `n`. -/
def State.flPush (s : State) (n : Nat) (l : List Nat) : State :=
  let t := s.thrs n
  if t.freeing then s.setThr n { t with toFree := t.toFree ++ l } else s.flNext n (t.toFree ++ l)

/-- The write at FL_PUT is answered: the page is in the ring, or lost with MEM_ERR (R317); the next one follows. -/
def State.flDone (s : State) (n : Nat) (ok : Bool) : State :=
  let p := s.rf (aThr n 0x110) 0 18
  let s1 := if ok then
      (s.wr (aThr n 0x110) (BitVec.ofNat 32 ((p + 1) % s.flSize n))).wr (aThr n 0x114)
        (BitVec.ofNat 32 (s.rf (aThr n 0x114) 0 19 + 1))
    else s.setB (aThr n 4) 7
  s1.flNext n ((s1.thrs n).toFree.drop 1)

end Sys2Proof.Machine
end

