-- ==== Sys2Proof/Machine/Flags.lean ====
section
/-!
DEFINITION. What the function units compute: results, carries and guards (R83 to R91, R111, R112).
-/

namespace Sys2Proof.Machine

/-- ALU result and the carry it writes, if any (R83). -/
def aluFn (op : AluOp) (a b : W64) (c : Bool) : W64 × Option Bool :=
  match op with
  | .add => (a + b, some (decide (2 ^ 64 ≤ a.toNat + b.toNat)))
  | .addc => (a + b + BitVec.ofNat 64 c.toNat, some (decide (2 ^ 64 ≤ a.toNat + b.toNat + c.toNat)))
  | .sub => (a - b, some (decide (a.toNat < b.toNat)))
  | .subb => (a - b - BitVec.ofNat 64 c.toNat, some (decide (a.toNat < b.toNat + c.toNat)))
  | .and => (a &&& b, none)
  | .or => (a ||| b, none)
  | .xor => (a ^^^ b, none)
  | .andn => (a &&& ~~~b, none)
  | .min => (if a.slt b then a else b, none)
  | .max => (if a.slt b then b else a, none)
  | .minu => (if a.ult b then a else b, none)
  | .maxu => (if a.ult b then b else a, none)

/-- The 8 bytes of a word in reverse order. -/
def bswap (b : W64) : W64 := BitVec.ofNat 64 (leNat (natLe 8 b.toNat).reverse)

/-- Shifter result; the amount is B[5:0] (R85). -/
def shFn (op : ShOp) (a b : W64) : W64 :=
  let n := b.toNat % 64
  match op with
  | .shl => a <<< n
  | .shr => a >>> n
  | .sar => a.sshiftRight n
  | .rol => a.rotateLeft n
  | .ror => a.rotateRight n
  | .bswap => bswap b

/-- Multiplier result (R86). -/
def mulFn (op : MulOp) (a b : W64) : W64 :=
  match op with
  | .mul => a * b
  | .mulhu => BitVec.ofNat 64 (a.toNat * b.toNat / 2 ^ 64)
  | .mulhs => BitVec.ofInt 64 (a.toInt * b.toInt / 2 ^ 64)

/-- Quotient and remainder; a zero divisor gives all ones and A (R87, R88). -/
def divFn (signed : Bool) (a b : W64) : W64 × W64 :=
  if b = 0 then (BitVec.allOnes 64, a)
  else if signed then (a.sdiv b, a.srem b) else (a / b, a % b)

/-- The first `i` of `[n, n + k)` with bit `i` of `a` equal to `v`, else 64. -/
def findBit (a : W64) (v : Bool) (n : Nat) : Nat → Nat
  | 0 => 64
  | k + 1 => if a.getLsbD n == v then n else findBit a v (n + 1) k

/-- Number of ones in the low `n` bits. -/
def popCount (a : W64) : Nat → Nat
  | 0 => 0
  | n + 1 => (a.getLsbD n).toNat + popCount a n

/-- Trailing zeros counted from bit `i`, at most `k`. -/
def zerosUp (a : W64) (i : Nat) : Nat → Nat
  | 0 => 0
  | k + 1 => if a.getLsbD i then 0 else 1 + zerosUp a (i + 1) k

/-- Leading zeros of the low `k` bits. -/
def zerosDown (a : W64) : Nat → Nat
  | 0 => 0
  | k + 1 => if a.getLsbD k then 0 else 1 + zerosDown a k

/-- Bit-field result; the field of a descriptor is cut at bit 63 (R89). -/
def bfFn (op : BfOp) (a b : W64) : W64 :=
  let lsb := b.toNat % 64
  let n := min 63 (lsb + b.toNat / 64 % 64) - lsb + 1
  let f := a.toNat / 2 ^ lsb % 2 ^ n
  match op with
  | .extu => BitVec.ofNat 64 f
  | .exts => BitVec.ofInt 64 (if f < 2 ^ (n - 1) then (f : Int) else (f : Int) - 2 ^ n)
  | .dep => BitVec.ofNat 64 (a.toNat % 2 ^ n * 2 ^ lsb)
  | .clz => BitVec.ofNat 64 (zerosDown b 64)
  | .ctz => BitVec.ofNat 64 (zerosUp b 0 64)
  | .popc => BitVec.ofNat 64 (popCount b 64)
  | .find1 => BitVec.ofNat 64 (findBit a true lsb (64 - lsb))
  | .find0 => BitVec.ofNat 64 (findBit a false lsb (64 - lsb))

/-- The compare operations of R90. -/
def cmpFn (op : CmpOp) (a b : W64) : Bool :=
  match op with
  | .eq => a == b
  | .lt => a.slt b
  | .ltu => a.ult b
  | .le => a.sle b
  | .leu => a.ule b
  | .test => (a &&& b) != 0
  | .bit => a.getLsbD (b.toNat % 64)

/-- Write guard `g`; B0 ignores writes and reads 1 (R55). -/
def setGuard (b : BitVec 8) (g : Nat) (v : Bool) : BitVec 8 :=
  if g % 8 = 0 then b
  else if v then b ||| (1 <<< (g % 8)) else b &&& ~~~((1 : BitVec 8) <<< (g % 8))

/-- Guard `g`; B0 reads 1 (R55). -/
def guardOf (b : BitVec 8) (g : Nat) : Bool := g % 8 == 0 || b.getLsbD (g % 8)

/-- GLOGIC: the guards after Bd := Ba op Bb (R91). The sources are the guards `old` from before the instruction. -/
def glogicFn (old b : BitVec 8) (v : W64) : BitVec 8 :=
  let d := v.toNat % 8
  let x := guardOf old (v.toNat / 8)
  let y := guardOf old (v.toNat / 64)
  let r := match v.toNat / 512 % 4 with
    | 0 => x && y
    | 1 => x || y
    | 2 => x ^^ y
    | _ => x && !y
  setGuard b d r

/-- The low `w` bits of `x` in reverse order. -/
def revBits (x : Nat) : Nat → Nat
  | 0 => 0
  | w + 1 => x % 2 * 2 ^ w + revBits (x / 2) w

/-- Width of POLY[36:32] (R111). -/
def crcWidth (poly : W64) : Nat := poly.toNat / 2 ^ 32 % 32 + 1

/-- One step of R112 on data bit `d`, REFLECT = 0. -/
def crcStep (w poly st : Nat) (d : Bool) : Nat :=
  let fb := (st / 2 ^ (w - 1) % 2 == 1) ^^ d
  let x := st * 2 % 2 ^ w
  if fb then Nat.xor x (poly % 2 ^ w) else x

/-- One step of R112 on data bit `d`, REFLECT = 1. -/
def crcStepR (w poly st : Nat) (d : Bool) : Nat :=
  let fb := (st % 2 == 1) ^^ d
  if fb then Nat.xor (st / 2) (revBits (poly % 2 ^ w) w) else st / 2

/-- Feed the low `n` bits of `v`, most significant first. -/
def crcFeed (w poly st v : Nat) : Nat → Nat
  | 0 => st
  | n + 1 => crcFeed w poly (crcStep w poly st (v / 2 ^ n % 2 == 1)) v n

/-- Feed the low `n` bits of `v`, least significant first, REFLECT = 1. -/
def crcFeedR (w poly st v : Nat) : Nat → Nat
  | 0 => st
  | n + 1 => crcFeedR w poly (crcStepR w poly st (v % 2 == 1)) (v / 2) n

/-- The CRC/LFSR unit: STATE after `n` data bits of `v` under POLY (R111, R112). -/
def crcFn (poly st v : W64) (n : Nat) : W64 :=
  let w := crcWidth poly
  let p := poly.toNat % 2 ^ 32
  let x := st.toNat % 2 ^ w
  BitVec.ofNat 64 (if poly.getLsbD 40 then crcFeedR w p x v.toNat n else crcFeed w p x v.toNat n)

/-- Bytes of a load (table before R95). -/
def ldSize : LdOp → Nat
  | .ld8u | .ld8s => 1
  | .ld16u | .ld16s => 2
  | .ld32u | .ld32s => 4
  | .ld64 => 8

/-- Bytes of a store. -/
def stSize : StOp → Nat
  | .st8 => 1
  | .st16 => 2
  | .st32 => 4
  | .st64 => 8

/-- A load result from the `ldSize` bytes read, zero- or sign-extended. -/
def ldExtend (op : LdOp) (v : Nat) : W64 :=
  match op with
  | .ld8s => (BitVec.ofNat 8 v).signExtend 64
  | .ld16s => (BitVec.ofNat 16 v).signExtend 64
  | .ld32s => (BitVec.ofNat 32 v).signExtend 64
  | .ld8u => BitVec.ofNat 64 (v % 2 ^ 8)
  | .ld16u => BitVec.ofNat 64 (v % 2 ^ 16)
  | .ld32u => BitVec.ofNat 64 (v % 2 ^ 32)
  | .ld64 => BitVec.ofNat 64 v

/-- Data bits of a feed. -/
def feedBits : FeedOp → Nat
  | .feed8 => 8
  | .feed16 => 16
  | .feed32 => 32
  | .feed64 => 64

end Sys2Proof.Machine
end

