-- ==== Sys2Proof/Machine/Operands.lean ====
section
/-!
DEFINITION. The operand forms of an engine: the port identifier space (R37, R77 and the port tables of
chapter 3), the slots of an instruction word (R30 to R34), and the byte layouts of a context, a saved block and a
shadow bank image (R57 to R60, R115, R141).
-/

namespace Sys2Proof.Machine

/-- The trigger ports of every unit. -/
inductive Trig
  | alu (u : Fin 2) (op : AluOp)
  | sh (op : ShOp)
  | mul (op : MulOp)
  | div (signed : Bool)
  | bf (op : BfOp)
  | cmp (op : CmpOp) (g : Fin 8)
  | glogic
  | ld (op : LdOp)
  | st (op : StOp)
  | drain
  | jump (rel : Bool)
  | call (rel : Bool)
  | loop (n : Fin 2)
  | lbreak (n : Fin 2)
  | gate
  | ret
  | rfe
  | push (n : Fin 16)
  | assist (n : Fin 4)
  | pull (n : Fin 4)
  | wait
  | signal
  | poll
  | setstate
  | feed (op : FeedOp)
  | lfsr
  | setptr
  | save
  | restore
  | setxsp
  | xsave
  | xrestore
  | bkpt
  | trace
deriving DecidableEq, Repr

/-- What a source port is. -/
inductive Src
  | null
  | latch (i : Fin 22) (w : Option WaitCond)   -- O and R kinds with a latch; what its read waits for
  | ld
  | w (n : Fin 32)
  | b (n : Fin 8)
  | bmask
  | carry (u : Fin 2)
  | drained
  | evt
  | ring
  | taskId
  | whereAmI
  | link
  | limm
  | limmz
  | limmh
  | ones
  | mins
  | lcount (n : Fin 2)
  | xcause
  | xepc
  | xenpc
  | ptr
  | xsp
  | cycle
  | rx (p : Nat)
  | bad
deriving DecidableEq, Repr

/-- What a destination port is. -/
inductive Dst
  | null
  | latch (i : Fin 22)
  | w (n : Fin 32)
  | b (n : Fin 8)
  | bmask
  | carry (u : Fin 2)
  | trig (t : Trig)
  | send (c : Nat)
  | bad
deriving DecidableEq, Repr

/-- ALU trigger at `u + o`. -/
def aluPort (u : Fin 2) (o : Nat) : Dst :=
  match o with
  | 0x00 => .latch (if u = 0 then 0 else 2)
  | 0x02 => .carry u
  | 0x08 => .trig (.alu u .add)
  | 0x09 => .trig (.alu u .addc)
  | 0x0A => .trig (.alu u .sub)
  | 0x0B => .trig (.alu u .subb)
  | 0x0C => .trig (.alu u .and)
  | 0x0D => .trig (.alu u .or)
  | 0x0E => .trig (.alu u .xor)
  | 0x0F => .trig (.alu u .andn)
  | 0x10 => .trig (.alu u .min)
  | 0x11 => .trig (.alu u .max)
  | 0x12 => .trig (.alu u .minu)
  | 0x13 => .trig (.alu u .maxu)
  | _ => .bad

/-- Compare port `0x1C8 + 8 k + g` (R90). -/
def cmpPort (o : Nat) : Dst :=
  let g : Fin 8 := Fin.ofNat 8 (o % 8)
  if g = 0 then .bad else
  match o / 8 with
  | 0 => .trig (.cmp .eq g)
  | 1 => .trig (.cmp .lt g)
  | 2 => .trig (.cmp .ltu g)
  | 3 => .trig (.cmp .le g)
  | 4 => .trig (.cmp .leu g)
  | 5 => .trig (.cmp .test g)
  | 6 => .trig (.cmp .bit g)
  | _ => .bad

/-- Ports 0x0C0 to 0x1C1: shifter, multiplier, divider, bit-field unit, compare operand. -/
def midPort (p : Nat) : Dst :=
  match p with
  | 0x0C0 => .latch 4
  | 0x0C8 => .trig (.sh .shl)
  | 0x0C9 => .trig (.sh .shr)
  | 0x0CA => .trig (.sh .sar)
  | 0x0CB => .trig (.sh .rol)
  | 0x0CC => .trig (.sh .ror)
  | 0x0CD => .trig (.sh .bswap)
  | 0x100 => .latch 6
  | 0x108 => .trig (.mul .mul)
  | 0x109 => .trig (.mul .mulhu)
  | 0x10A => .trig (.mul .mulhs)
  | 0x140 => .latch 8
  | 0x148 => .trig (.div false)
  | 0x149 => .trig (.div true)
  | 0x180 => .latch 11
  | 0x188 => .trig (.bf .extu)
  | 0x189 => .trig (.bf .exts)
  | 0x18A => .trig (.bf .dep)
  | 0x18B => .trig (.bf .clz)
  | 0x18C => .trig (.bf .ctz)
  | 0x18D => .trig (.bf .popc)
  | 0x18E => .trig (.bf .find1)
  | 0x18F => .trig (.bf .find0)
  | 0x1C0 => .latch 13
  | 0x1C1 => .trig .glogic
  | _ => .bad

/-- Ports of the load-store, control and gate units. -/
def lsPort (p : Nat) : Dst :=
  match p with
  | 0x2C0 => .latch 14
  | 0x2C1 => .latch 15
  | 0x2C8 => .trig (.ld .ld8u)
  | 0x2C9 => .trig (.ld .ld16u)
  | 0x2CA => .trig (.ld .ld32u)
  | 0x2CB => .trig (.ld .ld64)
  | 0x2CC => .trig (.ld .ld8s)
  | 0x2CD => .trig (.ld .ld16s)
  | 0x2CE => .trig (.ld .ld32s)
  | 0x2D0 => .trig (.st .st8)
  | 0x2D1 => .trig (.st .st16)
  | 0x2D2 => .trig (.st .st32)
  | 0x2D3 => .trig (.st .st64)
  | 0x2D8 => .trig .drain
  | 0x308 => .trig (.jump false)
  | 0x309 => .trig (.jump true)
  | 0x30A => .trig (.call false)
  | 0x30B => .trig (.call true)
  | 0x310 => .trig (.loop 0)
  | 0x311 => .trig (.loop 1)
  | 0x312 => .trig (.lbreak 0)
  | 0x313 => .trig (.lbreak 1)
  | 0x348 => .trig .gate
  | 0x349 => .trig .ret
  | 0x34A => .trig .rfe
  | _ => .bad

/-- Ports of the event, CRC/LFSR, spill and debug units and the stream operand. -/
def hiPort (p : Nat) : Dst :=
  match p with
  | 0x380 => .latch 17
  | 0x3C0 => .latch 19
  | 0x3C8 => .trig .wait
  | 0x3C9 => .trig .signal
  | 0x3CA => .trig .poll
  | 0x400 => .latch 21
  | 0x408 => .trig .setstate
  | 0x409 => .trig (.feed .feed8)
  | 0x40A => .trig (.feed .feed16)
  | 0x40B => .trig (.feed .feed32)
  | 0x40C => .trig (.feed .feed64)
  | 0x40D => .trig .lfsr
  | 0x448 => .trig .setptr
  | 0x449 => .trig .save
  | 0x44A => .trig .restore
  | 0x44C => .trig .setxsp
  | 0x44D => .trig .xsave
  | 0x44E => .trig .xrestore
  | 0x488 => .trig .bkpt
  | 0x489 => .trig .trace
  | _ => .bad

/-- The destination port `p` (R37, R77 and the port tables of chapter 3). -/
def dstPort (p : Nat) : Dst :=
  if p = 0 then .null
  else if p < 0x040 then .bad
  else if p < 0x080 then aluPort 0 (p - 0x040)
  else if p < 0x0C0 then aluPort 1 (p - 0x080)
  else if p < 0x1C8 then midPort p
  else if p < 0x200 then cmpPort (p - 0x1C8)
  else if p < 0x220 then .w (Fin.ofNat 32 (p - 0x200))
  else if p < 0x228 then .b (Fin.ofNat 8 (p - 0x220))
  else if p = 0x228 then .bmask
  else if p < 0x2C0 then .bad
  else if p < 0x380 then lsPort p
  else if 0x390 ≤ p ∧ p < 0x3A0 then .trig (.push (Fin.ofNat 16 (p - 0x390)))
  else if 0x3A0 ≤ p ∧ p < 0x3A4 then .trig (.assist (Fin.ofNat 4 (p - 0x3A0)))
  else if 0x3A8 ≤ p ∧ p < 0x3AC then .trig (.pull (Fin.ofNat 4 (p - 0x3A8)))
  else if p < 0x700 then hiPort p
  else if p < 0x800 then .bad
  else if p < 0xC00 then .send (p - 0x800)
  else .bad

/-- The source ports below 0x2C0 that are not in the W, B ranges. -/
def srcLow (p : Nat) : Src :=
  match p with
  | 0x040 => .latch 0 none
  | 0x041 => .latch 1 (some (.result .alu0))
  | 0x042 => .carry 0
  | 0x080 => .latch 2 none
  | 0x081 => .latch 3 (some (.result .alu1))
  | 0x082 => .carry 1
  | 0x0C0 => .latch 4 none
  | 0x0C1 => .latch 5 (some (.result .shifter))
  | 0x100 => .latch 6 none
  | 0x101 => .latch 7 (some (.result .mul))
  | 0x140 => .latch 8 none
  | 0x141 => .latch 9 (some (.result .div))
  | 0x142 => .latch 10 (some (.result .div))
  | 0x180 => .latch 11 none
  | 0x181 => .latch 12 (some (.result .bf))
  | 0x1C0 => .latch 13 none
  | 0x228 => .bmask
  | 0x229 => .ring
  | 0x22A => .taskId
  | 0x22B => .whereAmI
  | 0x22C => .link
  | 0x280 => .limm
  | 0x281 => .limmz
  | 0x282 => .limmh
  | 0x283 => .ones
  | 0x284 => .mins
  | _ => .bad

/-- The source ports from 0x2C0 up to 0x6FF. -/
def srcHigh (p : Nat) : Src :=
  match p with
  | 0x2C0 => .latch 14 none
  | 0x2C1 => .latch 15 none
  | 0x2C2 => .ld
  | 0x2C3 => .drained
  | 0x301 => .lcount 0
  | 0x302 => .lcount 1
  | 0x350 => .xcause
  | 0x351 => .xepc
  | 0x352 => .xenpc
  | 0x380 => .latch 17 none
  | 0x381 => .latch 18 (some .pull)
  | 0x3C0 => .latch 19 none
  | 0x3C1 => .evt
  | 0x400 => .latch 21 none
  | 0x401 => .latch 20 (some (.result .crc))
  | 0x440 => .ptr
  | 0x441 => .xsp
  | 0x481 => .cycle
  | _ => .bad

/-- The source port `p` (R37, R77 and the port tables of chapter 3). -/
def srcPort (p : Nat) : Src :=
  if p = 0 then .null
  else if 0x200 ≤ p ∧ p < 0x220 then .w (Fin.ofNat 32 (p - 0x200))
  else if 0x220 ≤ p ∧ p < 0x228 then .b (Fin.ofNat 8 (p - 0x220))
  else if p < 0x2C0 then srcLow p
  else if p < 0x700 then srcHigh p
  else if p < 0x800 then .rx (p - 0x700)
  else .bad

/-- The unit of a trigger, for R80. LBREAK counts as the loop trigger that R80 and R103 let stand beside a transfer, though R102
names loop and break triggers apart (DEDUCED, log entry 134). -/
def trigUnit : Trig → Nat
  | .alu u _ => u.val
  | .sh _ => 2
  | .mul _ => 3
  | .div _ => 4
  | .bf _ => 5
  | .cmp _ _ => 6
  | .glogic => 6
  | .ld _ => 7
  | .st _ => 8
  | .drain => 8
  | .jump _ => 9
  | .call _ => 9
  | .gate => 9
  | .ret => 9
  | .rfe => 9
  | .loop _ => 10
  | .lbreak _ => 10
  | .push n => 20 + n.val
  | .assist n => 40 + n.val
  | .pull n => 50 + n.val
  | .wait => 11
  | .signal => 11
  | .poll => 11
  | .setstate => 12
  | .feed _ => 12
  | .lfsr => 12
  | .setptr => 13
  | .save => 13
  | .restore => 13
  | .setxsp => 13
  | .xsave => 13
  | .xrestore => 13
  | .bkpt => 14
  | .trace => 14

/-- Two executing moves that one instruction may not hold together (R44, R80, R103): two triggers of one unit, where
a load beside a store or drain, distinct stream queues, and a loop trigger beside a transfer are no pair; or two
sends on one channel. -/
def dstClash : Dst → Dst → Bool
  | .trig a, .trig b => trigUnit a == trigUnit b
  | .send a, .send b => a == b
  | _, _ => false

/-- A decoded move slot (R31). -/
structure Move where
  slot : Nat
  d : Nat
  imm : Option W64      -- short immediate (R33)
  s : Nat               -- source port when there is none
  g : Nat
  inv : Bool
deriving DecidableEq, Repr

/-- Slot `n` of an instruction word (R30, R31, R33). -/
def moveAt (iw : W128) (n : Nat) : Move :=
  let x := iw.toNat / 2 ^ (28 * n) % 2 ^ 28
  let sf := x / 2 ^ 12 % 2 ^ 12
  { slot := n
    d := x % 2 ^ 12
    imm := if sf / 2048 = 1 then some ((BitVec.ofNat 11 sf).signExtend 64) else none
    s := sf % 2048
    g := x / 2 ^ 24 % 8
    inv := x / 2 ^ 27 % 2 == 1 }

/-- HDR.LIMM (R34). -/
def iwLimm (iw : W128) : Bool := iw.getLsbD 126
/-- HDR.LOOPEND (R34). -/
def iwLoopend (iw : W128) : Bool := iw.getLsbD 127
/-- The long immediate in SLOT3. -/
def iwLong (iw : W128) : BitVec 28 := BitVec.ofNat 28 (iw.toNat / 2 ^ 84)

/-- The executing moves under guards `b` (R32); a long immediate is no move (R34). -/
def movesOf (iw : W128) (b : BitVec 8) : List Move :=
  ((List.range (if iwLimm iw then 3 else 4)).map (moveAt iw)).filter fun m => guardOf b m.g ^^ m.inv

/- Byte layouts --------------------------------------------------------------------------------- -/

/-- A loop level as its context word (R60). -/
def loopWord (l : LoopSt) : W64 :=
  BitVec.ofNat 64 (l.start.toNat + l.active.toNat * 2 ^ 31 + l.count.toNat * 2 ^ 32)

/-- A loop level from its context word. -/
def wordLoop (v : W64) : LoopSt :=
  ⟨BitVec.ofNat 17 v.toNat, v.getLsbD 31, BitVec.ofNat 32 (v.toNat / 2 ^ 32)⟩

/-- Context word 0x1D8 and the link register at 0x1DC (R60). -/
def flagWord (b : Bank) (ring : Ring) (depth : Nat) : W64 :=
  BitVec.ofNat 64 ((b.b ||| 1).toNat + ring.toNat * 2 ^ 8 + b.c0.toNat * 2 ^ 16 + b.c1.toNat * 2 ^ 17
    + depth * 2 ^ 24 + b.link.pc.toNat * 2 ^ 32 + b.link.ring.toNat * 2 ^ 56)

/-- The six words of the control area 0x1D0 to 0x1FF (R60). -/
def ctlWords (b : Bank) (pc npc : Pc) (ds : Bool) (ring : Ring) (depth : Nat) (xsp : BitVec 40) (task : Nat) :
    List W64 :=
  [ BitVec.ofNat 64 (pc.toNat + ds.toNat * 2 ^ 31 + npc.toNat * 2 ^ 32),
    flagWord b ring depth,
    loopWord b.loop0,
    loopWord b.loop1,
    BitVec.ofNat 64 (xsp.toNat + b.spill.toNat * 2 ^ 40),
    BitVec.ofNat 64 (b.limm.toNat + task * 2 ^ 32) ]

/-- A bank with B1 to B7, carries, loops and link register taken from control words (R115). -/
def bankOfCtl (b : Bank) (c : List W64) : Bank :=
  let f := c.getD 1 0
  { b with
    b := BitVec.ofNat 8 f.toNat ||| 1
    c0 := f.getLsbD 16
    c1 := f.getLsbD 17
    link := ⟨BitVec.ofNat 17 (f.toNat / 2 ^ 32), BitVec.ofNat 2 (f.toNat / 2 ^ 56)⟩
    loop0 := wordLoop (c.getD 2 0)
    loop1 := wordLoop (c.getD 3 0) }

/-- A shadow stack entry as 4 bytes (R59). -/
def retWord (r : Ret) : Nat := r.pc.toNat + r.ring.toNat * 2 ^ 24 + 2 ^ 31

/-- The top 8 shadow stack entries as four words (R61). -/
def stackWords (st : List Ret) : List W64 :=
  let e := fun n => ((st[n]?).map retWord).getD 0
  [0, 1, 2, 3].map fun n => BitVec.ofNat 64 (e (2 * n) + e (2 * n + 1) * 2 ^ 32)

/-- Shadow stack entry `n` of the context words. -/
def wordRet (c : List W64) (n : Nat) : Ret :=
  let v := (c.getD (54 + n / 2) 0).toNat / 2 ^ (32 * (n % 2))
  ⟨BitVec.ofNat 17 v, BitVec.ofNat 2 (v / 2 ^ 24)⟩

/-- The 64 words of a 512-byte context (R57). -/
def ctxWords (t : Thread) : List W64 :=
  t.normal.w.toList ++ t.normal.latch.toList ++ stackWords t.stack ++
    ctlWords t.normal t.pc t.npc t.ds t.ring t.stack.length t.xsp t.task

/-- W0 to W31 from a word list at index `i`. -/
def vecFrom (c : List W64) (i n : Nat) : Vector W64 n := Vector.ofFn fun k => c.getD (i + k.val) 0

/-- A thread slot that holds the task of context `c` (R207). -/
def threadOfCtx (task : Nat) (evt : W32) (now : Nat) (c : List W64) : Thread :=
  let p := c.getD 58 0
  let x := c.getD 62 0
  let l := c.getD 63 0
  let b := bankOfCtl { Bank.clear with w := vecFrom c 0 32, latch := vecFrom c 32 22, limm := BitVec.ofNat 28 l.toNat,
                                       spill := BitVec.ofNat 24 (x.toNat / 2 ^ 40) } (c.drop 58)
  { Thread.init with
    phase := .run, task := task, normal := b
    pc := BitVec.ofNat 17 p.toNat, ds := p.getLsbD 31, npc := BitVec.ofNat 17 (p.toNat / 2 ^ 32)
    ring := BitVec.ofNat 2 ((c.getD 59 0).toNat / 2 ^ 8)
    stack := (List.range (min 8 ((c.getD 59 0).toNat / 2 ^ 24 % 64))).map (wordRet c)
    xsp := BitVec.ofNat 40 x.toNat, evt := evt, pageInAt := now, lastRun := now }

/-- TASK_ID of context words (R60). -/
def ctxTask (c : List W64) : Nat := (c.getD 63 0).toNat / 2 ^ 32 % 2 ^ 16

/-- First word and number of words of a SAVE block in the context (R115). -/
def blkWords : Fin 4 → Nat × Nat
  | 0 => (0, 16)
  | 1 => (16, 16)
  | 2 => (32, 22)
  | 3 => (58, 6)

/-- Word 0x1B0 of a shadow bank image (R141). -/
def excWord (x : ExcRec) : W64 :=
  BitVec.ofNat 64 (x.cause.toNat + x.ds.toNat * 2 ^ 8 + x.ring.toNat * 2 ^ 9 + x.depth * 2 ^ 16 + x.slot * 2 ^ 24
    + x.epc.toNat * 2 ^ 32)

/-- The 64 words of a shadow bank image (R141). -/
def imageWords (b : Bank) (x : ExcRec) : List W64 :=
  b.w.toList ++ b.latch.toList ++
    [ excWord x, BitVec.ofNat 64 x.enpc.toNat, x.info, 0, 0, flagWord b 0 0, loopWord b.loop0, loopWord b.loop1,
      BitVec.ofNat 64 (b.spill.toNat * 2 ^ 40), BitVec.ofNat 64 b.limm.toNat ]

/-- The bank of a shadow bank image. -/
def bankOfImage (c : List W64) : Bank :=
  bankOfCtl { Bank.clear with w := vecFrom c 0 32, latch := vecFrom c 32 22,
                              limm := BitVec.ofNat 28 (c.getD 63 0).toNat,
                              spill := BitVec.ofNat 24 ((c.getD 62 0).toNat / 2 ^ 40) } (c.drop 58)

/-- The exception record of a shadow bank image. -/
def excOfImage (c : List W64) : ExcRec :=
  let v := (c.getD 54 0).toNat
  { cause := BitVec.ofNat 8 v, ds := (c.getD 54 0).getLsbD 8, ring := BitVec.ofNat 2 (v / 2 ^ 9),
    depth := v / 2 ^ 16 % 64, slot := v / 2 ^ 24 % 8, epc := BitVec.ofNat 17 (v / 2 ^ 32),
    enpc := BitVec.ofNat 17 (c.getD 55 0).toNat, info := c.getD 56 0 }

end Sys2Proof.Machine
end

