-- ==== Sys2Proof/Machine/Sched.lean ====
section
/-!
DEFINITION. The operations of the Granary on tasks and thread slots (chapter 6): time, waking, waiting, killing,
signals, placement and paging, lockup and sparing candidates.
-/

namespace Sys2Proof.Machine

/-- The number of task IDs. -/
def taskCount : Nat := 40960

/-- GRN.TIME (R185). -/
def State.grnTime (s : State) : BitVec 24 := BitVec.ofNat 24 (s.rd (aGrn 0x14)).toNat

/-- The wait of a READY task that is not resident, in µs (R185). -/
def State.waitOf (s : State) (t : TaskRec) : Nat := (s.grnTime - t.stamp).toNat

/-- A slot is not empty and its task is resident. -/
def Thread.resident (t : Thread) : Bool :=
  match t.phase with
  | .run => true
  | .quiesce _ => true
  | _ => false

/-- A task that is paged in or wakes in its slot has not run yet: its quantum starts at its next FETCH (R200). -/
def TaskRec.fresh (t : TaskRec) : TaskRec := { t with ran := false, expired := false }

/-- The first FETCH of the task in slot `i` since its page-in or wake begins (R200, R201). -/
def State.firstFetch (s : State) (i : Nat) : State :=
  let id := (s.th i).task
  let t := s.task id
  if t.ran then s else s.setTask id { t with ran := true, runFrom := s.eclk, runTime := s.grnTime }

/-- Nothing the thread started is under way (R62, R148, R210). -/
def Thread.quiet (t : Thread) : Bool :=
  t.ops.isEmpty && t.loads.isEmpty && t.stores.isEmpty && t.pulls.isEmpty && t.spill.isNone

/-- The thread stands at an instruction boundary with nothing under way and no entry due: the conditions of R62. -/
def Thread.drained (t : Thread) : Bool := t.quiet && t.brEntry.isNone && t.fault.isNone

/-- R201: the averages and the quantum at the end of a residency with run `r` and wait `w`. -/
def quantumAfter (t : TaskRec) (cfg : W32) (r w : Nat) : TaskRec :=
  let step := fun (a x : Nat) => ((a : Int) + ((x : Int) - (a : Int)) / 4).toNat
  let aRun := step t.aRun (min 255 r)
  let aWait := step t.aWait (min 255 w)
  let qmin := field cfg 0 6
  let qmax := field cfg 8 6
  let ratio := field cfg 24 4
  let lo := qmin + 1
  let hi := max qmax qmin + 1
  let q := max lo (min hi aRun)
  let q2 := if ratio ≠ 0 ∧ ratio * q < 4 * aWait then min hi (2 * q) else q
  { t with aRun := aRun, aWait := aWait, quantum := q2 - 1 }

/-- The run of a resident task so far, in units of 0.5 µs (R201); 0 before its first FETCH. -/
def State.runUnits (s : State) (t : TaskRec) : Nat :=
  if t.ran then (s.eclk - t.runFrom) * 2 / (125 * max 1 (s.rf 0x40 16 5)) else 0

/-- The Granary measures the end of a residency (R201). One that goes on after an abandoned page-out ends a second time: R is measured
from the same first FETCH, and W is 0 (DESIGN CHOICE, log 159). -/
def State.endResidency (s : State) (id : Nat) : State :=
  let t := s.task id
  s.setTask id { quantumAfter t (s.rd (aGrn 0)) (s.runUnits t) t.waited with waited := 0 }

/-- R190: a task that is asleep with a pending class of its mask wakes. A task being paged out wakes after it
(R195). `slot` is the thread index of a resident task. -/
def State.wakeTask (s : State) (id : Nat) (slot : Option Nat) : State :=
  let t := s.task id
  let e := t.pend &&& t.mask
  if t.state = .asleep ∧ e ≠ 0 ∧ t.paging = false then
    let t1 := { t with state := .ready, pend := t.pend &&& ~~~t.mask }
    match slot with
    | some i =>
      (s.setTask id t1.fresh).modTh i fun th => { th with asleep := false, evt := e }
    | none => s.setTask id { t1 with evt := e, stamp := s.grnTime, urg := .idle }
  else s

/-- The thread slot of a resident task. -/
def State.slotOfTask (s : State) (id : Nat) : Option Nat :=
  (s.ths.find? fun p => p.2.resident && p.2.task == id).map (·.1)

/-- R190 for a task wherever it is. -/
def State.wakeAny (s : State) (id : Nat) : State := s.wakeTask id (s.slotOfTask id)

/-- A directed event of class `c` for task `id` (R188). -/
def State.directed (s : State) (id c : Nat) : State :=
  let t := s.task id
  if t.state = .none then s.setB (aGrn 0x18) 0
  else (s.setTask id { t with pend := t.pend ||| (1 <<< c) }).wakeAny id

/-- The sleepers a broadcast event reaches (R189). -/
def State.sleepersOn (s : State) (c : Nat) (o : W32) : List Nat :=
  (s.tasks.filter fun p =>
    decide (p.2.state = .asleep) && p.2.mask.getLsbD c && (p.2.obj == o || p.2.obj == 0xFFFFFFFF)).map (·.1)

/-- A broadcast event (R189). -/
def State.broadcast (s : State) (c : Nat) (o : W32) : State :=
  (s.sleepersOn c o).foldl (fun s id => s.directed id c) s

/-- KILL of task `id` (R210). A resident task's slot empties later. -/
def State.killTask (s : State) (id : Nat) : State :=
  let t := s.task id
  match t.state with
  | .ready | .asleep => s.setTask id { t with state := .ended }
  | _ => s

/-- A pending signal makes the resident sleeper of slot `i` ready; its wait is complete with EVT = 0 (R132). A task that has
ended sleeps on. -/
def State.signalWake (s : State) (i : Nat) : State :=
  let t := s.th i
  if t.asleep && t.resident && (s.task t.task).state == .asleep && !t.sigs.isEmpty then
    (s.setTask t.task { s.task t.task with state := .ready }.fresh).modTh i fun th => { th with asleep := false, evt := 0 }
  else s

/-- A resident task's WAIT as the Granary processes it (R191, R192); a signal that is pending already completes it (R132). The WAIT that
ends a task is a KILL, with no measurement of R201 (DESIGN CHOICE, log entry 145). -/
def State.grnWait (s : State) (i : Nat) (mask obj : W32) : State :=
  let id := (s.th i).task
  if mask = 0 then s.modTh i fun th => { th with evt := 0 }
  else if (s.task id).state ≠ .ready then s
  else if mask = 0x80000000 then s.killTask id
  else
    let s1 := s.endResidency id
    let t := s1.task id
    let out := mask.getLsbD 5 && ([0, 1, 2, 3].any fun n =>
      !(s1.thrs n).out.isEmpty && (obj == BitVec.ofNat 32 n || obj == 0xFFFFFFFF))
    let pend := if out then t.pend ||| (1 <<< 5) else t.pend
    let s2 := s1.setTask id { t with state := .asleep, mask := mask, obj := obj, pend := pend, eprio := t.prio,
                                     urgent := false, urg := .idle }
    ((s2.modTh i fun th => { th with asleep := true }).wakeTask id (some i)).signalWake i

/-- A page-out is abandoned: the slot is selectable again and the candidate returns to the ready lists (R203). -/
def State.abandon (s : State) (i : Nat) : State :=
  match (s.th i).phase with
  | .quiesce c =>
    let s1 := (s.modTh i fun th => { th with phase := .run }).bump (aGrn 0x48) 1
    match c with
    | some c => s1.setTask c { s1.task c with paging := false }
    | none => s1
  | _ => s

/-- An asynchronous signal of `cause` becomes pending on slot `i`, or is dropped (R131). It wakes a resident
sleeper with EVT = 0 (R132) and abandons a page-out (R203). -/
def State.raiseSignal (s : State) (i : Nat) (cause : BitVec 8) (info : W64) : State :=
  let t := s.th i
  if t.sigs.any (fun p => p.1 == cause) then s.setB (aEng (engOf i) 0x24) 4
  else
    let s2 := (s.setTh i { t with sigs := t.sigs ++ [(cause, info)] }).signalWake i
    if (s2.task t.task).state = .ended then s2 else s2.abandon i

/-- The engine's slot has no unused good slot beside it in its Sheaf (R478): every slot is mapped, mapped out or a
candidate. -/
def State.spareSlot (s : State) (sh : Nat) : Option Nat :=
  (List.range 9).find? fun k =>
    (s.posOf sh k).isNone && !s.bit (aShf sh 4) k && !s.bit (aShf sh 4) (16 + k)

/-- NO_SPARE_ENG is set while a mapped candidate of a Sheaf waits and no unused good slot is left (R478). -/
def State.spareCheck (s : State) (sh : Nat) : State :=
  if ((List.range 9).any fun k => s.bit (aShf sh 4) (16 + k) && (s.posOf sh k).isSome) && (s.spareSlot sh).isNone
  then s.setB (aHlt 0) 12 else s

/-- A physical slot becomes a sparing candidate (R476, R478). -/
def State.candidate (s : State) (e : Nat) : State :=
  let sh := e / 9
  let k := e % 9
  if s.bit (aShf sh 4) (16 + k) || s.bit (aShf sh 4) k then s
  else
    let s1 := s.setB (aShf sh 4) (16 + k)
    let s2 := { s1 with repairQ := s1.repairQ ++ [Repair.mk 6 1 (16 * sh + k) 0] }
    s2.spareCheck sh

/-- A task becomes LOST with its engine (R211). -/
def State.loseTask (s : State) (id : Nat) : State :=
  let t := s.task id
  match t.state with
  | .ready | .asleep => (s.setTask id { t with state := .lost }).setB (aGrn 0x18) 2
  | _ => s

/-- A candidate granted to a slot of an engine that locks up returns to the ready lists (R203). -/
def State.dropCand (s : State) (i : Nat) : State :=
  match (s.th i).phase with
  | .quiesce (some c) =>
    (s.setTask c { s.task c with paging := false }).modTh i fun th => { th with phase := .quiesce none }
  | .incoming c => (s.setTask c { s.task c with paging := false }).modTh i fun th => { th with phase := .empty }
  | _ => s

/-- The tasks pinned to a slot of position `p` of Sheaf `sh`. -/
def State.pinnedTo (s : State) (sh p : Nat) : List Nat :=
  (s.tasks.filter fun q => q.2.pinned && q.2.sheaf == sh && q.2.engine == p).map (·.1)

/-- FAULT_N is asserted by a cause that only a full reset ends; a contact that was released gives the FAULT notice (R413,
R483). -/
def State.hardFault (s : State) : State :=
  let s1 := (s.setB 0x90 0).setB 0x90 2
  if s.bit 0x90 0 then s1 else { s1 with faultNote := some (s.rd 0x80) }

/-- An engine locks up (R148, R149, R211, R476, R483); entries that were due on its slots lapse. A task whose context is already leaving
its slot is not lost: R208 has emptied the slot, though the record says IN_SLOT still (DESIGN CHOICE, log entry 145). -/
def State.lockup (s : State) (e : Nat) (cause : BitVec 8) (epc : Pc) (ds : Bool) (ring : Ring) (slot : Nat) :
    State :=
  if s.locked e then s
  else
    let s1 := ((s.setB (aEng e 0) 1).setB (aEng e 0x24) 2).wr (aEng e 0x68)
      (BitVec.ofNat 32 (cause.toNat + ds.toNat * 2 ^ 8 + ring.toNat * 2 ^ 9 + slot % 8 * 2 ^ 16 + 2 ^ 31))
    let s2 := (s1.wr (aEng e 0x6C) (BitVec.ofNat 32 epc.toNat)).hardFault
    let slots := (List.range 8).map fun j => 8 * e + j
    let s3 := slots.foldl (fun s i => (s.dropCand i).modTh i fun t => { t with fault := none, brEntry := none }) s2
    let res := (slots.filter fun i => (s3.th i).resident).map fun i => (s3.th i).task
    let pin := match s3.posOf (e / 9) (e % 9) with
      | some p => s3.pinnedTo (e / 9) p
      | none => []
    ((res ++ pin).foldl State.loseTask s3).candidate e

/- Placement (R196 to R205) ---------------------------------------------------------------------- -/

/-- A task is READY and not resident (R185, R196). -/
def TaskRec.outside (t : TaskRec) : Bool := decide (t.state = .ready) && !t.inSlot

/-- A task waits for a slot (R202). -/
def TaskRec.waiting (t : TaskRec) : Bool := t.outside && !t.paging

/-- The Granary prefers `a` to `b` (R198). -/
def State.prefers (s : State) (a b : Nat) : Bool :=
  let x := s.task a
  let y := s.task b
  let wa := s.waitOf x
  let wb := s.waitOf y
  if x.urgent && y.urgent then wb < wa || (wa == wb && a < b)
  else if x.urgent != y.urgent then x.urgent
  else if x.eprio != y.eprio then y.eprio < x.eprio
  else wb < wa || (wa == wb && a < b)

/-- The preferred task of a list. -/
def State.bestOf (s : State) : List Nat → Option Nat
  | [] => none
  | a :: l => match s.bestOf l with
    | none => some a
    | some b => if s.prefers a b then some a else some b

/-- No task that could still run is pinned to the slot (R202). -/
def State.slotUnpinned (s : State) (sh p j : Nat) : Bool :=
  !(s.tasks.any fun q => q.2.pinned && q.2.sheaf == sh && q.2.engine == p && q.2.slot == j
      && (q.2.state == .ready || q.2.state == .asleep))

/-- Task `t` may be placed in slot `j` of position `p` of Sheaf `sh`, leaving aside whether it waits (R202). -/
def State.fits (s : State) (t : TaskRec) (sh p j : Nat) : Bool :=
  if t.pinned then t.sheaf == sh && t.engine == p && t.slot == j
  else t.affinity.getLsbD sh && s.slotUnpinned sh p j

/-- The best eligible task for a slot (R198, R202). -/
def State.bestFor (s : State) (sh p j : Nat) : Option Nat :=
  s.bestOf ((s.tasks.filter fun q => q.2.waiting && s.fits q.2 sh p j).map (·.1))

/-- The best task when those granted earlier in this cycle still count (R205). -/
def State.firstChoice (s : State) (sh p j : Nat) : Option Nat :=
  s.bestOf ((s.tasks.filter fun q => (q.2.waiting || s.granted.contains q.1) && s.fits q.2 sh p j).map (·.1))

/-- The resident of slot `i` can be saved (R203). -/
def State.savable (s : State) (i : Nat) : Bool :=
  let t := s.th i
  decide (t.sel = .normal) && t.stack.length ≤ 8 && t.normal.ldErr.isNone && t.sigs.isEmpty
    && !s.inBrace (engOf i) && !s.locked (engOf i)

/-- Insert a slot into a list ordered by a key, after equals. -/
def insBy (key : Nat → Nat) (i : Nat) : List Nat → List Nat
  | [] => [i]
  | j :: l => if key i < key j then i :: j :: l else j :: insBy key i l

/-- Slots in the order of a key, the lower slot first among equals. -/
def sortBy (key : Nat → Nat) (l : List Nat) : List Nat := l.foldl (fun acc i => insBy key i acc) []

/-- The slots of engine `e` that route `r` of R202 offers, in the order it prefers. -/
def State.routeSlots (s : State) (e r : Nat) : List Nat :=
  let slots := (List.range 8).map fun j => 8 * e + j
  match r with
  | 1 => slots.filter fun i => decide ((s.th i).phase = .empty)
  | 2 => sortBy (fun i => (s.th i).lastRun) (slots.filter fun i =>
      decide ((s.th i).phase = .run) && (s.task (s.th i).task).state == .asleep && s.savable i)
  | _ => sortBy (fun i => (s.task (s.th i).task).eprio * 2 ^ 64 + (s.th i).lastRun) (slots.filter fun i =>
      decide ((s.th i).phase = .run) && (s.task (s.th i).task).state == .ready && s.savable i)

/-- Candidate `c` may displace the READY resident of slot `i` at a round boundary (R202, route 3). -/
def State.displaces (s : State) (c i : Nat) : Bool :=
  let x := s.task c
  let y := s.task (s.th i).task
  y.eprio < x.eprio
    || (x.eprio == y.eprio && y.expired && s.rf (aGrn 0x10) 0 16 ≤ s.eclk - (s.th i).pageInAt)
    || (x.urgent && y.eprio < 7)

/-- The first slot of a route with a candidate it accepts. -/
def State.pick (s : State) (sh p r : Nat) : List Nat → Option (Nat × Nat)
  | [] => none
  | i :: l => match s.bestFor sh p (slotOf i) with
    | some c => if r = 3 && !s.displaces c i then s.pick sh p r l else some (i, c)
    | none => s.pick sh p r l

/-- The ports of a pair that are still taken at ECLK count `now`. -/
def busyPorts (now : Nat) (l : List Nat) : List Nat := l.filter fun e => decide (now < e)

/-- Grant candidate `c` to slot `i` at position `p` of Sheaf `sh` by route `r` (R204). -/
def State.grantSlot (s : State) (sh p r i c : Nat) : State :=
  let lost := match s.firstChoice sh p (slotOf i) with
    | some f => decide (f ≠ c)
    | none => false
  let s0 := if lost then s.bump (aGrn 0x4C) 1 else s
  let t := s0.task c
  let s1 := s0.setTask c { t with paging := true, sheaf := sh, engine := p, slot := slotOf i, urg := .idle }
  let s2 := { s1 with granted := s1.granted ++ [c], ctxReads := busyPorts s1.eclk s1.ctxReads ++ [s1.eclk + 8] }
  if r = 1 then s2.modTh i fun th => { th with phase := .incoming c }
  else
    let s3 := if r = 3 then s2.endResidency (s2.th i).task else s2
    s3.modTh i fun th => { th with phase := .quiesce (some c) }

/-- The grant, if any, that the scheduler makes on position `p` of Sheaf `sh` in this cycle: route, slot and candidate (R202,
R204, R477). -/
def State.grantAt (s : State) (sh p : Nat) : Option (Nat × Nat × Nat) :=
  match s.physOf sh p with
  | none => none
  | some k =>
    let e := 9 * sh + k
    let by_ := fun r => (s.pick sh p r (s.routeSlots e r)).map fun q => (r, q.1, q.2)
    if s.inBrace e || s.locked e || !s.mapped e || s.bit (aShf sh 4) (16 + k) then none
    else match by_ 1 with
      | some g => some g
      | none => match by_ 2 with
        | some g => some g
        | none => if s.roundStart then by_ 3 else none

/-- No position from `n` up to `m`, both counted Sheaf by Sheaf, is granted a task in this cycle. -/
def State.noneBefore (s : State) (n m : Nat) : Bool :=
  (List.range m).all fun i => decide (i < n) || (s.grantAt (i / 8) (i % 8)).isNone

/-- The Granary's grant on position `p` of Sheaf `sh` (R202, R204 to R206): the scheduler passes the positions in ascending
order once a cycle, grants where the first position accepts, and stops where no read port of the context store is free. A
position it has passed, or that does not come first, is granted nothing. -/
def State.schedule (s : State) (sh p : Nat) : State :=
  if s.bit 0x800000 0 || s.sleeping || s.engStop || decide (8 * sh + p < s.schedAt)
      || decide (2 ≤ (busyPorts s.eclk s.ctxReads).length) || !s.noneBefore s.schedAt (8 * sh + p) then s
  else match s.grantAt sh p with
    | some (r, i, c) => { s.grantSlot sh p r i c with schedAt := 8 * sh + p + 1 }
    | none => s

/-- The quiesce of a slot completes: its context leaves for the store, its EVT is kept (R56, R109), and the slot passes on
(R203, R208). -/
def State.quiesceDone (s : State) (i : Nat) : State :=
  let t := s.th i
  match t.phase with
  | .quiesce c =>
    let id := t.task
    if (s.task id).state = .ended || s.inBrace (engOf i) || s.locked (engOf i) then s
    else if !s.savable i then s.abandon i
    else if !t.drained then s
    else
      let s1 := { s with pageOuts := s.pageOuts ++ [PageOut.mk i s.eclk ((s.posOf (engOf i / 9) (engOf i % 9)).getD 8) id (ctxWords t)] }
      let r := s1.task id
      let s2 := s1.setTask id { r with paging := true, eprio := r.prio, urgent := false, urg := .idle, evt := t.evt }
      s2.setTh i { Thread.init with phase := match c with
        | some c => .incoming c
        | none => .empty }
  | _ => s

/-- The oldest page-out of slot `i` and the others. -/
def takePageOut (i : Nat) : List PageOut → Option (PageOut × List PageOut)
  | [] => none
  | p :: l => if p.th = i then some (p, l) else (takePageOut i l).map fun q => (q.1, p :: q.2)

/-- The order in which waiting page-outs are served: the end of the quiesce, then Sheaf, mapped engine and slot (R208). -/
def PageOut.before (a b : PageOut) : Bool :=
  let key := fun (p : PageOut) => (engOf p.th / 9 * 9 + p.pos) * 8 + slotOf p.th
  decide (a.q < b.q) || (a.q == b.q && decide (key a < key b))

/-- A page-out reaches the store (R208): the first in order, through a write port that is free for its 8 beats (R206). -/
def State.pageOutDone (s : State) (i : Nat) : State :=
  match takePageOut i s.pageOuts with
  | none => s
  | some (p, l) =>
    if l.any (fun x => x.before p) || decide (2 ≤ (busyPorts s.eclk s.ctxWrites).length) then s
    else
    let s1 := { s with pageOuts := l, ctxWrites := busyPorts s.eclk s.ctxWrites ++ [s.eclk + 8]
                       bankPois := s.bankPois.filter fun x => !decide (ctxWord0 + 64 * p.task ≤ x.1 ∧ x.1 < ctxWord0 + 64 * p.task + 64)
      }.setWords (ctxKey p.task) p.ctx
    let t := s1.task p.task
    let t1 := { t with inSlot := false, paging := false }
    let t2 := if t.state = .ready then { t1 with stamp := s1.grnTime } else t1
    ((s1.setTask p.task t2).bump (aGrn 0x44) 1).wakeTask p.task none

/-- A page-in lands (R207, R209), with the wait W that preceded it (R201); none lands while the brace handler runs (R146). Stores
of an earlier task that still drain stay in the slot's buffer (R147). A task whose TASK_ID check fails is LOST, one that a KILL has
ended meanwhile too (R209). -/
def State.pageInDone (s : State) (i : Nat) : State :=
  match (s.th i).phase with
  | .incoming c =>
    if s.inBrace (engOf i) then s
    else
    let w := s.words (ctxKey c) 64
    let t := s.task c
    if ctxTask w ≠ c then
      ((s.setTh i { Thread.init with stores := (s.th i).stores }).setTask c { t with state := .lost, paging := false }).setB (aGrn 0x18) 2
    else
      let t1 := { t with inSlot := true, paging := false, evt := 0, waited := min 255 (s.waitOf t / 4) }.fresh
      ((s.setTh i { threadOfCtx c t.evt s.eclk w with stores := (s.th i).stores }).setTask c t1).bump (aGrn 0x40) 1
  | _ => s

/-- The slot of a killed task is empty, or passes to a granted candidate (R210); what its buffer still holds drains. -/
def State.vacate (s : State) (i : Nat) : State :=
  let t := s.th i
  let id := t.task
  let c := match t.phase with
    | .quiesce c => c
    | _ => none
  (s.setTask id { s.task id with inSlot := false }).setTh i { Thread.init with stores := t.stores, phase := match c with
    | some c => .incoming c
    | none => .empty }

/-- The slot of thread `i` holds a task that has ended. -/
def State.endedIn (s : State) (i : Nat) : Bool := (s.th i).resident && (s.task (s.th i).task).state == .ended

/-- A killed task's slot empties once nothing of it is under way (R210); an entry that is due lapses. In the brace bank it waits
for the RFE of R147. -/
def State.emptySlot (s : State) (i : Nat) : State :=
  if s.endedIn i && (s.th i).quiet && decide ((s.th i).sel ≠ .brace) then s.vacate i else s

/- Task operations (R212, R213) ------------------------------------------------------------------ -/

/-- The first two words of a state record as a number, then the rest: the 24 bytes of R183. SHEAF, ENGINE and SLOT of a task that
is neither in a slot nor pinned, of which R183 says nothing, read 0 (DESIGN CHOICE, log entry 136). -/
def recWords (t : TaskRec) : List W32 :=
  let st : Nat := match t.state with
    | .none => 0
    | .ready => 1
    | .asleep => 2
    | .ended => 3
    | .lost => 4
  let w0 := st + t.inSlot.toNat * 2 ^ 3 + t.paging.toNat * 2 ^ 4 + t.urgent.toNat * 2 ^ 5 + t.pinned.toNat * 2 ^ 6
    + t.prio * 2 ^ 8 + t.eprio * 2 ^ 12 + t.affinity.toNat * 2 ^ 16
  let placed := t.inSlot || t.pinned
  let place := if placed then t.sheaf + t.engine * 2 ^ 4 + t.slot * 2 ^ 7 else 0
  let w4 := place + t.quantum * 2 ^ 16 + t.aRun * 2 ^ 24
  let w5 := t.aWait + t.stamp.toNat * 2 ^ 8
  [BitVec.ofNat 32 w0, t.mask, t.obj, t.pend, BitVec.ofNat 32 w4, BitVec.ofNat 32 w5]

/-- Enqueue a task operation (R212). -/
def State.enqueueOp (s : State) (task op : Nat) (arg : W32) (host : Option Nat) : State :=
  if s.taskOps.length < 16 then { s with taskOps := s.taskOps ++ [⟨task, op, arg, host⟩] }
  else s.flag (aGrn 0x18) 4

/-- The operation at the head is one of those that `o` is refused as (R212). -/
def State.opRefused (s : State) (o : TaskOp) : Bool :=
  let t := s.task o.task
  if taskCount ≤ o.task then true
  else match o.op with
    | 1 => t.state == .none
    | 2 => t.state == .none || field o.arg 0 5 == 31
    | 3 => t.state == .none || t.state == .ended || t.state == .lost
    | 4 => field o.arg 0 12 == 0 || t.pinned || t.state == .none
    | 5 => false
    | _ => true

/-- Complete the operation at the head of the queue; a host command that waits for it is told (R421). -/
def State.opDone (s : State) (refused : Bool) : State :=
  let told := match s.taskOps.head? with
    | some o => (match o.host with
      | some i => [(i, refused)]
      | none => [])
    | none => []
  { s with taskOps := s.taskOps.drop 1, opsDone := s.opsDone ++ told, opFree := s.eclk + 1 }.putB (aGrn 0x68) 8 refused

/-- Store a list of words from a control address. -/
def State.wrWords (s : State) (a : Nat) : List W32 → State
  | [] => s
  | v :: t => (s.wr a v).wrWords (a + 4) t

end Sys2Proof.Machine
end

