-- ==== Sys2Proof/Machine/Engine.lean ====
section
/-!
DEFINITION. The shared operations of a Tiller engine (chapters 2, 3 and 4): readiness and selection, reading
sources, the checks and the effects of every trigger, sequencing, and TAKING AN EXCEPTION.
-/

namespace Sys2Proof.Machine

/- Banks ---------------------------------------------------------------------------------------- -/

/-- A bank of slot `i` (R133, R145). -/
def State.bankOf (s : State) (i : Nat) (sel : BankSel) : Bank :=
  match sel with
  | .normal => (s.th i).normal
  | .shadow => (s.th i).shadow
  | .brace => (s.eng (engOf i)).brace

/-- Store a bank of slot `i`. -/
def State.putBank (s : State) (i : Nat) (sel : BankSel) (b : Bank) : State :=
  match sel with
  | .normal => s.modTh i fun t => { t with normal := b }
  | .shadow => s.modTh i fun t => { t with shadow := b }
  | .brace => s.setEng (engOf i) { s.eng (engOf i) with brace := b }

/-- The bank slot `i` works in. -/
def State.cur (s : State) (i : Nat) : Bank := s.bankOf i (s.th i).sel

/- Results -------------------------------------------------------------------------------------- -/

/-- Write the results of an operation into its latches (R53, R87). -/
def landBank (b : Bank) (o : RunOp) : Bank :=
  match o.unit with
  | .alu0 => { b with latch := b.latch.set 1 o.res, c0 := o.carry.getD b.c0 }
  | .alu1 => { b with latch := b.latch.set 3 o.res, c1 := o.carry.getD b.c1 }
  | .shifter => { b with latch := b.latch.set 5 o.res }
  | .mul => { b with latch := b.latch.set 7 o.res }
  | .div => { b with latch := (b.latch.set 9 o.res).set 10 o.rem }
  | .bf => { b with latch := b.latch.set 12 o.res }
  | .crc => { b with latch := b.latch.set 20 o.res }
  | .poll => b

/-- An operation of slot `i` completes: its result is in the latch, or in EVT for a POLL. A divide by zero sets
FU_STICKY.DIV_ZERO now: R88 names no moment, and the register table says that one has completed (DEDUCED, log entry 132). -/
def State.land (s : State) (i : Nat) (o : RunOp) : State :=
  match o.unit with
  | .poll => s.modTh i fun t => { t with evt := BitVec.ofNat 32 o.res.toNat }
  | .div => (if o.carry = some true then s.setB (aEng (engOf i) 0x2C) 0 else s).putBank i o.sel (landBank (s.bankOf i o.sel) o)
  | _ => s.putBank i o.sel (landBank (s.bankOf i o.sel) o)

/-- Operations of a unit that still run when the newer ones `new` have completed deliver nothing older (R54): their result
becomes the newest. -/
def supersede (new ops : List RunOp) : List RunOp :=
  ops.map fun x => match (new.filter fun o => o.unit = x.unit ∧ o.sel = x.sel).getLast? with
    | some o => { x with res := o.res, rem := o.rem, carry := o.carry }
    | none => x

/-- Operations of latency at most 1 have landed before the thread's next FETCH ends (R53, R54); on a locked engine their
results are discarded (R148). -/
def State.landShort (s : State) (i : Nat) : State :=
  let ops := (s.th i).ops
  let s1 := s.modTh i fun t => { t with ops := supersede (ops.filter (·.short)) (ops.filter fun o => !o.short) }
  if s.locked (engOf i) then s1 else (ops.filter (·.short)).foldl (fun s o => s.land i o) s1

/-- The oldest running operation on a unit, and the others. -/
def takeOp (u : RUnit) : List RunOp → Option (RunOp × List RunOp)
  | [] => none
  | o :: l => if o.unit = u then some (o, l) else (takeOp u l).map fun p => (p.1, o :: p.2)

/- Readiness and selection (R49 to R52, R119) ----------------------------------------------------- -/

/-- The slots of the engine of slot `i`. -/
def slotsOf (e : Nat) : List Nat := (List.range 8).map fun j => 8 * e + j

/-- A non-pipelined unit of engine `e` is busy (R81). -/
def State.unitBusy (s : State) (e : Nat) (u : RUnit) : Bool :=
  (slotsOf e).any fun i => (s.th i).ops.any fun o => o.unit == u && !o.short

/-- The spill unit of engine `e` is busy (R81, R117): with the read of a nested return too (DESIGN CHOICE, log 158). -/
def State.spillBusy (s : State) (e : Nat) : Bool := (slotsOf e).any fun i => (s.th i).spill.isSome

/-- The engine-side count shows no free entry in the queue of expander `n` (R105, R230). -/
def State.pxFull (s : State) (n : Nat) : Bool :=
  !s.bit (aPx n 8) 0 && 512 ≤ (s.pxs n).queue.length + (s.pxs n).cross.length

/-- The condition of a recorded wait still holds. -/
def State.holds (s : State) (i : Nat) (w : WaitCond) : Bool :=
  let t := s.th i
  match w with
  | .result u => t.ops.any fun o => o.unit == u
  | .carry u => t.ops.any fun o => o.unit == (if u = 0 then .alu0 else .alu1) && o.carry.isSome
  | .ld => !t.loads.isEmpty
  | .drained => t.drainIds.any fun d => t.stores.any fun x => x.id == d
  | .pull => !t.pulls.isEmpty
  | .rx c => (s.chan c).rx.isNone && !(s.chan c).poison
  | .send c => (s.chan c).send.isSome
  | .busy u => s.unitBusy (engOf i) u
  | .spillBusy => s.spillBusy (engOf i)
  | .storeFull => 4 ≤ t.stores.length
  | .pxFull n => s.pxFull n
  | .assistFull n => 64 ≤ (s.thrs n).assist.length

/-- Slots whose recorded condition has cleared are ready again (R51). -/
def State.clearWaits (s : State) : State :=
  (s.ths.filter fun p => p.2.wait.any fun w => !s.holds p.1 w).foldl
    (fun s p => s.modTh p.1 fun t => { t with wait := none }) s

/-- The engines select nothing: debug halt (R453), sleep (R455), a trip or a removal preparation (R458, R468). -/
def State.stopped (s : State) : Bool := s.bit 0x800000 0 || s.sleeping || s.engStop

/-- Slot `i` is ready (R28, R49, R148, R210): STATUS.READY. -/
def State.slotReady (s : State) (i : Nat) : Bool :=
  let t := s.th i
  decide (t.phase = .run) && (s.task t.task).inSlot && ((s.task t.task).state == .ready || t.sel == .brace)
    && !t.asleep && t.wait.isNone && t.spill.isNone && s.mapped (engOf i) && !s.locked (engOf i)

/-- While the brace handler runs the engine selects only the braced slot (R146); a locked-up engine selects none (R148). -/
def State.mayPick (s : State) (i : Nat) : Bool :=
  !s.locked (engOf i) && (!s.inBrace (engOf i) || (s.eng (engOf i)).braced == some (slotOf i))

/-- The engine may select slot `i`: it is ready, engines are not stopped (R453), and no other slot runs the brace handler. -/
def State.ready (s : State) (i : Nat) : Bool := s.slotReady i && !s.stopped && s.mayPick i

/-- The slot the engine runs next: one whose fault awaits its ENTRY cycle (R135), else the first ready slot after the
one that last completed (R52). -/
def State.selected (s : State) (e : Nat) : Option Nat :=
  match (slotsOf e).find? fun i => (s.th i).fault.isSome && s.mayPick i with
  | some i => some i
  | none => ((List.range 8).map fun d => 8 * e + ((s.eng e).last + 1 + d) % 8).find? fun i => s.ready i

/-- Priority of an asynchronous cause (R129). -/
def sigPrio (c : BitVec 8) : Nat := if c ≤ 0x42 then 1 else if c = 0x43 then 2 else 3

/-- The first pending signal of the lowest priority number (R131); of several of one priority the one raised earliest, which no
rule says (DESIGN CHOICE, log entry 133). -/
def firstSig : List (BitVec 8 × W64) → Option (BitVec 8 × W64)
  | [] => none
  | p :: l => match firstSig l with
    | none => some p
    | some q => if sigPrio q.1 < sigPrio p.1 then some q else some p

/-- The signal due at this boundary, if signals may be taken (R138). -/
def signalDue (t : Thread) : Option (BitVec 8 × W64) :=
  if t.sel = .normal ∨ (t.sel = .shadow ∧ t.armed = true) then firstSig t.sigs else none

/- Faults --------------------------------------------------------------------------------------- -/

/-- A detected fault with its priority (R129, R130). -/
structure Flt where
  prio : Nat
  fr : FaultRec
deriving DecidableEq, Repr

/-- The fault R130 records: the lowest priority number, then the lowest slot. -/
def worst : List Flt → Option Flt
  | [] => none
  | f :: l => match worst l with
    | none => some f
    | some g => if g.prio < f.prio || (g.prio == f.prio && g.fr.slot < f.fr.slot) then some g else some f

/-- A fault. -/
def flt (prio : Nat) (cause : BitVec 8) (info : W64) (slot : Nat) : Flt := ⟨prio, ⟨cause, info, slot⟩⟩

/-- An illegal-port fault naming port `p`. -/
def fltPort (p slot : Nat) : Flt := flt 1 0x01 (BitVec.ofNat 64 p) slot

/- TAKING AN EXCEPTION (R134, R145, R148) ---------------------------------------------------------- -/

/-- Brace entry (R145). -/
def State.braceEntry (s : State) (i : Nat) (cause : BitVec 8) : State :=
  let t := s.th i
  let e := engOf i
  let rec_ := BitVec.ofNat 32 (cause.toNat + t.ds.toNat * 2 ^ 8 + t.ring.toNat * 2 ^ 9 + slotOf i * 2 ^ 16 + 2 ^ 31)
  let s1 := ((s.wr (aEng e 0x5C) rec_).wr (aEng e 0x60) (BitVec.ofNat 32 t.pc.toNat)).wr (aEng e 0x64)
    (BitVec.ofNat 32 t.npc.toNat)
  let s2 := (s1.setB (aEng e 0) 2).setB (aEng e 0x24) 3
  let sp := BitVec.ofNat 64 (s.rf (aEng e 0x48) 3 15 * 8)
  let s3 := s2.setEng e { s2.eng e with brace := { Bank.clear with w := (Bank.clear).w.set 31 sp },
                                        braced := some (slotOf i) }
  let pc := BitVec.ofNat 17 (s.rf (aEng e 0x44) 0 17)
  s3.modTh i fun t => { t with sel := .brace, ring := 0, pc := pc, npc := pc + 1, ds := false }

/-- Exception entry of slot `i` for `cause` with `info`, raised by move `slot` (7 for a signal): lockup from the brace
bank, first or nested entry into the shadow bank, or brace entry (R134). An error mark of LD in the shadow bank that a nested entry
clears unread sets no LOAD_ERR_LOST (DESIGN CHOICE, log 157). -/
def State.enter (s : State) (i : Nat) (cause : BitVec 8) (info : W64) (slot : Nat) : State :=
  let t := s.th i
  let e := engOf i
  let nested := decide (t.sel = .shadow)
  match t.sel with
  | .brace => s.lockup e cause t.pc t.ds t.ring (slotOf i)
  | _ =>
    if nested && !(t.armed && t.xdepth < 15) then s.braceEntry i cause
    else
      let exc : ExcRec := ⟨cause, t.pc, t.npc, t.ds, t.ring, t.stack.length, slot, info⟩
      let pc := BitVec.ofNat 17 (s.rf (aEng e 0x40) 0 17)
      s.setTh i { t with
        exc := exc, shadow := Bank.clear, xdepth := if nested then t.xdepth + 1 else t.xdepth, armed := false
        sel := .shadow, ring := BitVec.ofNat 2 (s.rf (aEng e 0x40) 24 2), pc := pc, npc := pc + 1, ds := false }

/-- What a fault in READ leaves: a read of poison sets CULM.STICKY.POISON_READ (R161); the error result whose fault is raised
has been read (R99). -/
def State.readFault (s : State) (i : Nat) (cause : BitVec 8) : State :=
  if cause = 0x03 then s.setB (aCulm 0x10) 2
  else if cause = 0x04 ∨ cause = 0x05 ∨ cause = 0x06 then s.putBank i (s.th i).sel { s.cur i with ldErr := none }
  else s

/-- A synchronous fault of slot `i`: its ENTRY cycle is due (R135), or the engine locks up from the brace bank (R148). -/
def State.raiseFault (s : State) (i : Nat) (f : FaultRec) : State :=
  let s1 := s.readFault i f.cause
  let t := s1.th i
  if t.sel = .brace then s1.lockup (engOf i) f.cause t.pc t.ds t.ring (slotOf i)
  else s1.modTh i fun t => { t with fault := some f }

/-- The ENTRY cycle of slot `i`: a fault, a brace entry after a failed transfer, or a pending signal (R135). -/
def State.entryCycle (s : State) (i : Nat) : State :=
  let t := s.th i
  let e := engOf i
  let s0 := s.setEng e { s.eng e with last := slotOf i }
  match t.fault with
  | some f => (s0.modTh i fun t => { t with fault := none }).enter i f.cause f.info f.slot
  | none => match t.brEntry with
    | some f => (s0.modTh i fun t => { t with brEntry := none }).braceEntry i f.cause
    | none => match signalDue t with
      | some (c, x) =>
        (s0.modTh i fun t => { t with sigs := t.sigs.filter fun p => p.1 != c }).enter i c x 7
      | none => s

/- Sources (READ) --------------------------------------------------------------------------------- -/

/-- The channel bound to receive port `p` of engine `e` (R39, R162). -/
def State.boundChan (s : State) (e p : Nat) : Option Nat :=
  match s.posOf (e / 9) (e % 9) with
  | none => none
  | some pos => (List.range 1024).find? fun c =>
      s.bit (aCulm (0x8000 + 8 * c)) 31 && s.rf (aCulm (0x8004 + 8 * c)) 0 4 == e / 9
        && s.rf (aCulm (0x8004 + 8 * c)) 4 3 == pos && s.rf (aCulm (0x8004 + 8 * c)) 8 8 == p

/-- What a source's read waits for (R50, R119). -/
def State.srcWait (s : State) (i : Nat) (m : Move) : Option WaitCond :=
  match m.imm with
  | some _ => none
  | none => match srcPort m.s with
    | .latch _ w => w
    | .ld => some .ld
    | .drained => some .drained
    | .evt => some (.result .poll)
    | .carry u => some (.carry u)
    | .rx p => (s.boundChan (engOf i) p).map .rx
    | _ => none

/-- The fault a source raises in READ (R41). -/
def State.srcFault (s : State) (i : Nat) (b : Bank) (m : Move) : Option Flt :=
  match m.imm with
  | some _ => none
  | none => match srcPort m.s with
    | .bad => some (fltPort m.s m.slot)
    | .rx p => match s.boundChan (engOf i) p with
      | none => some (fltPort m.s m.slot)
      | some c => if (s.chan c).poison then some (flt 3 0x03 (BitVec.ofNat 64 c) m.slot) else none
    | .ld => b.ldErr.map fun e => flt 4 e.1 e.2 m.slot
    | _ => none

/-- XCAUSE, XEPC and XENPC of the current bank (R104, R146). -/
def State.excPort (s : State) (i : Nat) : W64 × W64 × W64 :=
  let t := s.th i
  let e := engOf i
  match t.sel with
  | .normal => (0, 0, 0)
  | .shadow => (BitVec.ofNat 64 (t.exc.cause.toNat + t.exc.ds.toNat * 2 ^ 8), t.exc.epc.setWidth 64,
      t.exc.enpc.setWidth 64)
  | .brace => (BitVec.ofNat 64 (s.rf (aEng e 0x5C) 0 9), BitVec.ofNat 64 (s.rf (aEng e 0x60) 0 17),
      BitVec.ofNat 64 (s.rf (aEng e 0x64) 0 17))

/-- STATE of the CRC/LFSR unit: the bits at and above the width of POLY read 0 (R111). -/
def crcState (b : Bank) : W64 := BitVec.ofNat 64 (b.latch[20].toNat % 2 ^ crcWidth b.latch[21])

/-- The value a source gives (R43); `b` is the bank with the LIMM latch loaded. -/
def State.srcVal (s : State) (i : Nat) (b : Bank) (m : Move) : W64 :=
  match m.imm with
  | some v => v
  | none =>
    let t := s.th i
    match srcPort m.s with
    | .null => 0
    | .latch n _ => if n = 20 then crcState b else b.latch[n]
    | .ld => b.latch[16]
    | .w n => b.w[n]
    | .b n => BitVec.ofNat 64 (guardOf b.b n.val).toNat
    | .bmask => (b.b ||| 1).setWidth 64
    | .carry u => BitVec.ofNat 64 (if u = 0 then b.c0 else b.c1).toNat
    | .drained => 0
    | .evt => t.evt.setWidth 64
    | .ring => t.ring.setWidth 64
    | .taskId => BitVec.ofNat 64 t.task
    | .whereAmI => BitVec.ofNat 64 (engOf i / 9 + engOf i % 9 * 2 ^ 4 + slotOf i * 2 ^ 8)
    | .link => BitVec.ofNat 64 (b.link.pc.toNat + b.link.ring.toNat * 2 ^ 24)
    | .limm => b.limm.signExtend 64
    | .limmz => b.limm.setWidth 64
    | .limmh => b.limm.signExtend 64 <<< 28
    | .ones => BitVec.allOnes 64
    | .mins => 0x8000000000000000
    | .lcount n => (if n = 0 then b.loop0 else b.loop1).count.setWidth 64
    | .xcause => (s.excPort i).1
    | .xepc => (s.excPort i).2.1
    | .xenpc => (s.excPort i).2.2
    | .ptr => BitVec.ofNat 64 (b.spill.toNat * 2 ^ 16)
    | .xsp => t.xsp.setWidth 64
    | .cycle => BitVec.ofNat 64 s.eclk
    | .rx p => match s.boundChan (engOf i) p with
      | some c => (s.chan c).rx.getD 0
      | none => 0
    | .bad => 0

/-- The channels whose words the executing moves take (R158). -/
def State.taken (s : State) (i : Nat) (ms : List Move) : List Nat :=
  ms.filterMap fun m => match m.imm with
    | some _ => none
    | none => match srcPort m.s with
      | .rx p => s.boundChan (engOf i) p
      | _ => none

/- Destinations (TRANSPORT) ------------------------------------------------------------------------ -/

/-- Channel `c` is allocated and engine `e` is its source (R153, R162). -/
def State.maySend (s : State) (e c : Nat) : Bool :=
  let r := aCulm (0x8000 + 8 * c)
  s.bit r 31 && s.rf r 0 4 == e / 9 && s.posOf (e / 9) (e % 9) == some (s.rf r 4 3)

/-- The fault a destination raises in TRANSPORT; `before` are the executing moves of lower slots (R41, R44, R80, R103). -/
def State.dstFault (s : State) (i : Nat) (before : List Move) (m : Move) : Option Flt :=
  let d := dstPort m.d
  if d = .bad || before.any (fun x => dstClash (dstPort x.d) d) then some (fltPort m.d m.slot)
  else match d with
    | .trig .signal => if 2 ≤ (s.th i).ring.toNat then some (flt 2 0x02 (BitVec.ofNat 64 m.d) m.slot) else none
    | .send c => if s.maySend (engOf i) c then none else some (flt 3 0x07 (BitVec.ofNat 64 c) m.slot)
    | _ => none

/-- The TRANSPORT faults of the executing moves, in slot order. -/
def State.dstFaults (s : State) (i : Nat) (before : List Move) : List Move → List Flt
  | [] => []
  | m :: l => (s.dstFault i before m).toList ++ s.dstFaults i (before ++ [m]) l

/-- What a trigger waits for (R50, R81, R119). RFE, whose nested return reads memory, waits for nothing: R119 lists no unit for it (DESIGN
CHOICE, log 158). -/
def trigWait (t : Trig) : Option WaitCond :=
  match t with
  | .div _ => some (.busy .div)
  | .setstate | .feed _ | .lfsr => some (.busy .crc)
  | .setptr | .save | .restore | .setxsp | .xsave | .xrestore => some .spillBusy
  | .st _ => some .storeFull
  | .push n => some (.pxFull n.val)
  | .assist n => some (.assistFull n.val)
  | _ => none

/-- What a destination waits for. -/
def dstWait (m : Move) : Option WaitCond :=
  match dstPort m.d with
  | .trig t => trigWait t
  | .send c => some (.send c)
  | _ => none

/-- Operand latches, W registers and carries written by the moves, in slot order (R44, R79). -/
def writeLatches (b : Bank) : List (Move × W64) → Bank
  | [] => b
  | (m, v) :: l =>
    let b1 := match dstPort m.d with
      | .latch n => { b with latch := b.latch.set n v }
      | .w n => { b with w := b.w.set n v }
      | .carry u => if u = 0 then { b with c0 := v.getLsbD 0 } else { b with c1 := v.getLsbD 0 }
      | _ => b
    writeLatches b1 l

/-- Guards written by the moves, in slot order: register-file ports, BMASK, compares and GLOGIC (R44, R45, R92). `a` is
the compare operand with this instruction's writes, `old` the guards before it. -/
def writeGuards (a : W64) (old g : BitVec 8) : List (Move × W64) → BitVec 8
  | [] => g
  | (m, v) :: l =>
    let g1 := match dstPort m.d with
      | .b n => setGuard g n.val (v.getLsbD 0)
      | .bmask => BitVec.ofNat 8 v.toNat ||| 1
      | .trig (.cmp op n) => setGuard g n.val (cmpFn op a v)
      | .trig .glogic => glogicFn old g v
      | _ => g
    writeGuards a old g1 l

/- Trigger checks (TRIGGER) -------------------------------------------------------------------------- -/

/-- The faults of a load or store of `n` bytes at the 64-bit sum `sum` in ring `ring` (R67 to R69, R95). One that runs over the end of a
listed range into the next raises the unmapped-address fault alone (DESIGN CHOICE, log 167). -/
def accessFault (sum : W64) (n : Nat) (ring : Ring) (slot : Nat) : List Flt :=
  let a := sum.toNat
  let info := BitVec.ofNat 64 (a % 2 ^ 40)
  if 2 ^ 40 ≤ a || !(regionOf a).engine || !sameRange a (a + n - 1) then [flt 7 0x15 info slot]
  else
    let isCtrl := match regionOf a with
      | .ctrl _ => true
      | _ => false
    (if isCtrl && ring ≠ 0 then [flt 8 0x16 info slot] else []) ++
      (if a % n ≠ 0 || (isCtrl && n ≠ 4) then [flt 9 0x17 info slot] else [])

/-- The spill range `[a, a + n)` is mapped throughout and outside the control window (R116). -/
def spillRange (a n : Nat) : Bool :=
  a + n ≤ 2 ^ 40 && (regionOf a).engine && sameRange a (a + n - 1) && !(match regionOf a with
    | .ctrl _ => true
    | _ => false)

/-- The XSP checks on the 512 bytes from `a` (R139): the failed ones as FAULT_INFO bits. -/
def State.xspFails (s : State) (i : Nat) (a : Option Nat) : Nat :=
  let e := engOf i
  let lo := s.rf (aEng e 0x4C) 0 24 * 65536
  let hi := s.rf (aEng e 0x50) 0 24 * 65536
  let ok := match a with
    | some x => lo ≤ x && x + 512 ≤ hi
    | none => false
  let al := match a with
    | some x => x % 64 == 0
    | none => (s.th i).xsp.toNat % 64 == 0
  (!ok).toNat + (!al).toNat * 2 + (!(s.rf (aEng e 0x50) 24 4).testBit (s.th i).ring.toNat).toNat * 4

/-- The address XSP - 512, if there is one. -/
def xspBelow (x : BitVec 40) : Option Nat := if 512 ≤ x.toNat then some (x.toNat - 512) else none

/-- XSP_INVALID with the failed checks, if any. -/
def xspFlt (fails slot : Nat) : List Flt :=
  if fails = 0 then [] else [flt 11 0x19 (BitVec.ofNat 64 fails) slot]

/-- Bytes of a SAVE block (R115). -/
def blkBytes (k : Nat) : Nat := if k ≤ 1 then 128 else if k = 2 then 176 else 48

/-- GATE, RETURN or RFE in a delay slot (R104). -/
def dsFlt (t : Thread) (port slot : Nat) : List Flt :=
  if t.ds then [flt 2 0x10 (BitVec.ofNat 64 port) slot] else []

/-- A push on a full shadow stack (R125). -/
def overflowFlt (t : Thread) (slot : Nat) : List Flt :=
  if 32 ≤ t.stack.length then [flt 6 0x14 0 slot] else []

/-- A stream port without the grant `q` (R105). -/
def State.grantFlt (s : State) (i q port slot : Nat) : List Flt :=
  if s.grantOf (s.th i).task q then [] else [flt 10 0x18 (BitVec.ofNat 64 port) slot]

/-- The faults a trigger raises in TRIGGER; `b` is the bank with this instruction's operand writes (R41, R79). -/
def State.trigFaults (s : State) (i : Nat) (b : Bank) (t : Trig) (v : W64) (port slot : Nat) : List Flt :=
  let th := s.th i
  let e := engOf i
  match t with
  | .div _ => if v = 0 && s.bit (aEng e 0x28) 0 then [flt 13 0x1B 0 slot] else []
  | .ld op => accessFault (b.latch[14] + v) (ldSize op) th.ring slot
  | .st op => accessFault (b.latch[14] + v) (stSize op) th.ring slot
  | .call _ => overflowFlt th slot
  | .gate =>
    let g := s.rd (aEng e (0x100 + 4 * (v.toNat % 64)))
    dsFlt th port slot ++ overflowFlt th slot ++
      (if g.getLsbD 31 && g.getLsbD (24 + th.ring.toNat) then []
       else [flt 3 0x11 (BitVec.ofNat 64 (v.toNat % 64)) slot])
  | .ret => dsFlt th port slot ++ (match th.stack with
    | [] => [flt 5 0x13 0 slot]
    | top :: _ =>
      if BitVec.ofNat 17 v.toNat ≠ top.pc || top.ring < th.ring
      then [flt 4 0x12 (BitVec.ofNat 64 (v.toNat % 2 ^ 17 + top.pc.toNat * 2 ^ 32)) slot] else [])
  | .rfe => dsFlt th port slot ++ (match th.sel with
    | .brace => []
    | .normal => [fltPort port slot]
    | .shadow =>
      if th.armed then [flt 4 0x12 1 slot]
      else if th.stack.length ≠ th.exc.depth then [flt 4 0x12 2 slot]
      else if 0 < th.xdepth then xspFlt (s.xspFails i (xspBelow th.xsp)) slot else [])
  | .push n => s.grantFlt i n.val port slot
  | .assist n => s.grantFlt i (16 + n.val) port slot
  | .pull n => s.grantFlt i (20 + n.val) port slot
  | .setptr => if v.toNat % 65536 ≠ 0 || 2 ^ 40 ≤ v.toNat then [flt 9 0x17 v slot] else []
  | .save | .restore =>
    let off := v.toNat % 65536
    let k := v.toNat / 65536 % 16
    let a := b.spill.toNat * 65536 + off
    if 3 < k || off % 64 ≠ 0 || 65536 < off + blkBytes k || !spillRange a (blkBytes k)
    then [flt 12 0x1A (BitVec.ofNat 64 (v.toNat % 2 ^ 20)) slot] else []
  | .xsave =>
    (if th.sel = .shadow && !th.armed then [] else [flt 12 0x1A (BitVec.ofNat 64 (v.toNat % 2 ^ 20)) slot]) ++
      xspFlt (s.xspFails i (some th.xsp.toNat)) slot
  | .xrestore =>
    (if th.sel = .shadow && th.armed then [] else [flt 12 0x1A (BitVec.ofNat 64 (v.toNat % 2 ^ 20)) slot]) ++
      xspFlt (s.xspFails i (xspBelow th.xsp)) slot
  | _ => []

/- Trigger effects ------------------------------------------------------------------------------------ -/

/-- An operation starts on a unit. -/
def State.start (s : State) (i : Nat) (u : RUnit) (short : Bool) (res rem : W64) (carry : Option Bool) : State :=
  s.modTh i fun t => { t with ops := t.ops ++ [RunOp.mk u short t.sel res rem carry] }

/-- The stores of the buffer, youngest first, that overlap `n` bytes at plain address `a`. -/
def overlapping (st : List StoreRec) (a n : Nat) : List StoreRec :=
  st.reverse.filter fun x => plainAddr x.addr < a + n && a < plainAddr x.addr + stSize x.op

/-- Whether an address is a control-window address. -/
def isWindow (a : Nat) : Bool :=
  match regionOf a with
  | .ctrl _ => true
  | _ => false

/-- Whether an address names a set or clear alias. -/
def isAlias (a : Nat) : Bool :=
  match regionOf a with
  | .bank _ _ al => al != .normal
  | _ => false

/-- How a load of engine `e` starts after looking up the store buffer (R73); local scratch is read at once (R96, R342). -/
def State.loadState (s : State) (e : Nat) (st : List StoreRec) (a n : Nat) : LdSt :=
  if isWindow a then
    match st.filter (fun x => isWindow x.addr) with
    | [] => .issued
    | l => .waits (l.map (·.id))
  else
    match overlapping st (plainAddr a) n with
    | [] => match regionOf a with
      | .scratch o => .scratch (s.bytes (scratchKey e o) n)
      | _ => .issued
    | x :: _ =>
      if !isAlias x.addr && plainAddr x.addr ≤ plainAddr a && plainAddr a + n ≤ plainAddr x.addr + stSize x.op
      then .fwd (x.data >>> (8 * (plainAddr a - plainAddr x.addr)))
      else .waits ((st.take (st.findIdx (fun y => y.id == x.id) + 1)).map (·.id))

/-- A load is triggered at address `a` (R73, R96, R98). -/
def State.loadAt (s : State) (i : Nat) (op : LdOp) (a : Nat) : State :=
  let t := s.th i
  let e := engOf i
  let st := s.loadState e t.stores a (ldSize op)
  let s1 := { s with nextId := s.nextId + 1 }
  let s2 := s1.modTh i fun t => 
    { t with loads := t.loads.map (fun l => if l.sel = t.sel then { l with old := true } else l) ++
               [LoadRec.mk s.nextId false t.sel op a st] }
  match st with
  | .fwd _ => s2.bump (aEng e 0x18) 1
  | .waits _ => s2.bump (aEng e 0x1C) 1
  | .issued => s2.issue i (.load i s.nextId) a (ldSize op) none
  | _ => s2

/-- A store enters the buffer at address `a` (R72). -/
def State.storeAt (s : State) (i : Nat) (op : StOp) (a : Nat) (d : W64) : State :=
  let held := match regionOf a with
    | .scratch _ => true
    | _ => false
  let s1 := { s with nextId := s.nextId + 1 }
  let s2 := s1.modTh i fun t =>
    { t with stores := t.stores ++ [StoreRec.mk s.nextId t.task t.sel op a d (if held then .held else .issued)] }
  if held then s2 else s2.issue i (.store i s.nextId) a (stSize op) (some (natLe (stSize op) d.toNat))

/-- A 128-bit stream entry HI:B with the pushing task's ID in its TASK field (R226, R318). -/
def streamEntry (hi b : W64) (task : Nat) : W128 :=
  BitVec.ofNat 128 (b.toNat + hi.toNat % 2 ^ 32 * 2 ^ 64 + task % 65536 * 2 ^ 96 + hi.toNat / 2 ^ 48 * 2 ^ 112)

/-- Engine `e` pushes `x` into queue `l` in ECLK cycle `now`: behind the entries of earlier cycles and behind the first `held`, which are
in work, and among the others of this cycle in the order of Sheaf and engine slot (R106). `p`: the last cycle of a push and the engines
of its entries, of which those still in the queue count. -/
def pushIn (p : Nat × List Nat) (now e held : Nat) (l : List W128) (x : W128) : List W128 × (Nat × List Nat) :=
  let k := if p.1 = now then p.2.drop (p.2.length - (l.length - held)) else []
  let n := l.length - (k.filter fun j => decide (e < j)).length
  (l.take n ++ x :: l.drop n, (now, (k.filter fun j => decide (j ≤ e)) ++ e :: k.filter fun j => decide (e < j)))

/-- The steps of LFSR: B[5:0], where 0 means 64. -/
def lfsrSteps (v : W64) : Nat := if v.toNat % 64 = 0 then 64 else v.toNat % 64

/-- The effect of a trigger other than a transfer, a guard write or a loop trigger; `b` is the bank with this
instruction's operand writes, `v` operand B. -/
def State.trigRun (s : State) (i : Nat) (b : Bank) (t : Trig) (v : W64) : State :=
  let th := s.th i
  let e := engOf i
  match t with
  | .alu u op =>
    let r := aluFn op (if u = 0 then b.latch[0] else b.latch[2]) v (if u = 0 then b.c0 else b.c1)
    s.start i (if u = 0 then .alu0 else .alu1) true r.1 0 r.2
  | .sh op => s.start i .shifter true (shFn op b.latch[4] v) 0 none
  | .mul op => s.start i .mul false (mulFn op b.latch[6] v) 0 none
  | .div sg =>
    let r := divFn sg b.latch[8] v
    s.start i .div false r.1 r.2 (some (v == 0))
  | .bf op =>
    let short := match op with
      | .extu | .exts | .dep => true
      | _ => false
    s.start i .bf short (bfFn op b.latch[11] v) 0 none
  | .ld op => s.loadAt i op (b.latch[14] + v).toNat
  | .st op => s.storeAt i op (b.latch[14] + v).toNat b.latch[15]
  | .drain => s.modTh i fun t => { t with drainIds := t.stores.map (·.id) }
  | .push n =>
    let p := s.pxs n.val
    let q := pushIn p.pushed s.eclk e 0 p.cross (streamEntry b.latch[17] v th.task)
    s.setPx n.val { p with cross := q.1, pushed := q.2 }
  | .assist n =>
    let p := s.thrs n.val
    let q := pushIn p.pushed s.eclk e ((s.xferOf (.assist n.val)).isSome || p.job.any fun j => !j.1).toNat p.assist (streamEntry b.latch[17] v th.task)
    s.setThr n.val { p with assist := q.1, pushed := q.2 }
  | .pull n => s.modTh i fun t => { t with pulls := t.pulls ++ [(n.val, t.sel)] }
  | .wait => s.grnWait i (BitVec.ofNat 32 v.toNat) (BitVec.ofNat 32 (b.latch[19]).toNat)
  | .signal =>
    let c := v.toNat / 2 ^ 16 % 32
    if taskCount ≤ v.toNat % 65536 then s.setB (aEng e 0x2C) 2
    else if c = 31 then s.setB (aGrn 0x18) 1
    else s.post (rkSignal i) (some (v.toNat % 65536)) c (b.latch[19]).toNat
  | .poll =>
    let r := s.task th.task
    let got := r.pend &&& BitVec.ofNat 32 v.toNat
    (s.setTask th.task { r with pend := r.pend &&& ~~~got }).start i .poll false (got.setWidth 64) 0 none
  | .setstate => s.start i .crc true (BitVec.ofNat 64 (v.toNat % 2 ^ crcWidth b.latch[21])) 0 none
  | .feed op =>
    s.start i .crc (op == .feed8) (crcFn b.latch[21] b.latch[20] v (feedBits op)) 0 none
  | .lfsr =>
    s.start i .crc (lfsrSteps v ≤ 8) (crcFn b.latch[21] b.latch[20] 0 (lfsrSteps v)) 0 none
  | .setptr => s.putBank i th.sel { s.cur i with spill := BitVec.ofNat 24 (v.toNat / 65536) }
  | .save =>
    s.modTh i fun t => { t with spill := some ⟨.save (Fin.ofNat 4 (v.toNat / 65536)), t.sel,
                                               b.spill.toNat * 65536 + v.toNat % 65536⟩ }
  | .restore =>
    s.modTh i fun t => { t with spill := some ⟨.restore (Fin.ofNat 4 (v.toNat / 65536)), t.sel,
                                               b.spill.toNat * 65536 + v.toNat % 65536⟩ }
  | .setxsp => s.modTh i fun t => { t with xsp := BitVec.ofNat 40 v.toNat }
  | .xsave => s.modTh i fun t => { t with spill := some ⟨.xsave, t.sel, t.xsp.toNat⟩ }
  | .xrestore => s.modTh i fun t => { t with spill := some ⟨.xrestore, t.sel, t.xsp.toNat - 512⟩ }
  | .bkpt =>
    if s.bit (aEng e 0x28) 1 then s.raiseSignal i 0x44 (BitVec.ofNat 64 (v.toNat % 65536))
    else s.setB (aEng e 0x2C) 3
  | .trace =>
    if s.bit (aEng e 0x28) 2 then
      let g := s.eng e
      let s1 := if g.trValid then s.setB (aEng e 0x2C) 4 else s
      s1.setEng e { g with trVal := v, trSlot := slotOf i, trValid := true, trSeq := g.trSeq + 1 }
    else s
  | _ => s

/-- The loop state after a loop trigger of the instruction at `pc` (R102). -/
def loopRun (b : Bank) (t : Trig) (v : W64) (pc : Pc) : Bank :=
  match t with
  | .loop n =>
    let l : LoopSt := ⟨pc + 1, true, BitVec.ofNat 32 v.toNat⟩
    if n = 0 then { b with loop0 := l } else { b with loop1 := l }
  | .lbreak n =>
    if n = 0 then { b with loop0 := { b.loop0 with active := false } }
    else { b with loop1 := { b.loop1 with active := false } }
  | _ => b

/- Sequencing (R46, R101, R126, R127, R136, R147) ------------------------------------------------------ -/

/-- Push a return on the shadow stack and into the link register (R125). -/
def State.pushRet (s : State) (i : Nat) (r : Ret) : State :=
  let b := s.cur i
  (s.putBank i (s.th i).sel { b with link := r }).modTh i fun t => { t with stack := r :: t.stack }

/-- Sequencing of an instruction without a gate transfer; `jump` is its jump target (R46, R47). -/
def State.advance (s : State) (i : Nat) (loopend : Bool) (jump : Option Pc) : State :=
  let t := s.th i
  let e := engOf i
  let b := s.cur i
  let ign := fun (s : State) => if loopend then s.setB (aEng e 0x24) 1 else s
  match jump with
  | some q => ign (s.modTh i fun t => { t with pc := t.npc, npc := q, ds := true })
  | none =>
    let l := if b.loop1.active then some b.loop1 else if b.loop0.active then some b.loop0 else none
    let step := fun (s : State) => s.modTh i fun t => { t with pc := t.npc, npc := t.npc + 1, ds := false }
    match loopend && !t.ds, l with
    | true, some l =>
      let put := fun (x : LoopSt) => s.putBank i t.sel
        (if b.loop1.active then { b with loop1 := x } else { b with loop0 := x })
      if l.count ≠ 0 then
        (put { l with count := l.count - 1 }).modTh i fun t =>
          { t with pc := l.start, npc := l.start + 1, ds := false }
      else step (put { l with active := false })
    | _, _ => ign (step s)

/-- The thread goes to `pc` in `ring` with no delay slot. -/
def State.goto (s : State) (i : Nat) (pc npc : Pc) (ds : Bool) (ring : Ring) : State :=
  s.modTh i fun t => { t with pc := pc, npc := npc, ds := ds, ring := ring }

/-- A gate call commits (R126). -/
def State.gateRun (s : State) (i : Nat) (v : W64) : State :=
  let t := s.th i
  let g := s.rd (aEng (engOf i) (0x100 + 4 * (v.toNat % 64)))
  let pc : Pc := BitVec.ofNat 17 g.toNat
  (s.pushRet i ⟨t.pc + 1, t.ring⟩).goto i pc (pc + 1) false (BitVec.ofNat 2 (field g 20 2))

/-- A RETURN commits (R127). -/
def State.retRun (s : State) (i : Nat) (v : W64) : State :=
  let t := s.th i
  match t.stack with
  | [] => s
  | top :: rest =>
    let b := s.cur i
    let s1 := (s.putBank i t.sel { b with link := rest.headD ⟨0, 0⟩ }).modTh i fun t => { t with stack := rest }
    let pc : Pc := BitVec.ofNat 17 v.toNat
    s1.goto i pc (pc + 1) false top.ring

/-- An RFE commits (R136, R147). A nested return waits for its read, which starts at once, whatever another thread's transfer does
(DESIGN CHOICE, log 158). -/
def State.rfeRun (s : State) (i : Nat) : State :=
  let t := s.th i
  let e := engOf i
  match t.sel with
  | .brace =>
    let s1 := (s.clrB (aEng e 0) 2).setEng e { s.eng e with braced := none }
    let s2 := (s1.goto i (BitVec.ofNat 17 (s.rf (aEng e 0x60) 0 17)) (BitVec.ofNat 17 (s.rf (aEng e 0x64) 0 17))
      (s.bit (aEng e 0x5C) 8) (BitVec.ofNat 2 (s.rf (aEng e 0x5C) 9 2))).modTh i fun t => { t with sel := .shadow }
    if s2.endedIn i then s2.vacate i else s2
  | .shadow =>
    if t.xdepth = 0 then
      (s.goto i t.exc.epc t.exc.enpc t.exc.ds t.exc.ring).modTh i fun t => { t with sel := .normal }
    else s.modTh i fun t => { t with spill := some ⟨.nested, .shadow, t.xsp.toNat - 512⟩ }
  | .normal => s

/-- Commit the sequencing of an instruction at the thread's PC with transfer `x`, if any (R46). -/
def State.sequence (s : State) (i : Nat) (loopend : Bool) (x : Option (Trig × W64)) : State :=
  let t := s.th i
  let ign := fun (s : State) => if loopend then s.setB (aEng (engOf i) 0x24) 1 else s
  match x with
  | some (.jump rel, v) => s.advance i loopend (some ((if rel then t.pc else 0) + BitVec.ofNat 17 v.toNat))
  | some (.call rel, v) =>
    (s.pushRet i ⟨t.pc + 2, t.ring⟩).advance i loopend (some ((if rel then t.pc else 0) + BitVec.ofNat 17 v.toNat))
  | some (.gate, v) => ign (s.gateRun i v)
  | some (.ret, v) => ign (s.retRun i v)
  | some (.rfe, _) => ign (s.rfeRun i)
  | _ => s.advance i loopend none

/-- A trigger is a control transfer (R103). -/
def Trig.isXfer : Trig → Bool
  | .jump _ | .call _ | .gate | .ret | .rfe => true
  | _ => false

/-- A trigger is a loop trigger. -/
def Trig.isLoop : Trig → Bool
  | .loop _ | .lbreak _ => true
  | _ => false

/-- The triggers of the executing moves with their operand B, loads before the others (R96), in slot order. -/
def trigsOf (mv : List (Move × W64)) : List (Trig × W64 × Move) :=
  let l := mv.filterMap fun p => match dstPort p.1.d with
    | .trig t => some (t, p.2, p.1)
    | _ => none
  let isLd := fun (q : Trig × W64 × Move) => match q.1 with
    | .ld _ => true
    | _ => false
  l.filter isLd ++ l.filter fun q => !isLd q

/-- The sends of the executing moves (R156). -/
def State.sends (s : State) : List (Move × W64) → State
  | [] => s
  | (m, v) :: l =>
    match dstPort m.d with
    | .send c => (s.setChan c { s.chan c with send := some v }).sends l
    | _ => s.sends l

/-- The receive buffers whose words were taken become empty (R158). -/
def State.empties (s : State) : List Nat → State
  | [] => s
  | c :: l => (s.setChan c { s.chan c with rx := none }).empties l

/-- The writes of an instruction's moves to the bank: LIMM, latches, registers, carries and guards. -/
def commitBank (b : Bank) (mv : List (Move × W64)) : Bank :=
  let b1 := writeLatches b mv
  { b1 with b := writeGuards b1.latch[13] b.b b1.b mv }

/-- Commit an instruction: its writes, sends, takes, operations, sequencing and loop triggers (R41 to R46, R102). -/
def State.commit (s : State) (i : Nat) (b : Bank) (iw : W128) (mv : List (Move × W64)) : State :=
  let t := s.th i
  let e := engOf i
  let tr := trigsOf mv
  let b1 := commitBank b mv
  let s1 := ((s.putBank i t.sel b1).sends mv).empties (s.taken i (mv.map (·.1)))
  let s2 := tr.foldl (fun s q => s.trigRun i b1 q.1 q.2.1) s1
  let s3 := s2.sequence i (iwLoopend iw) ((tr.find? fun q => q.1.isXfer).map fun q => (q.1, q.2.1))
  let s4 := match tr.find? fun q => q.1.isLoop with
    | some q => s3.putBank i t.sel (loopRun (s3.bankOf i t.sel) q.1 q.2.1 t.pc)
    | none => s3
  let g := s4.eng e
  (s4.setEng e { g with instr := g.instr + 1, last := slotOf i }).modTh i fun t => { t with lastRun := s4.eclk }

/-- One instruction of slot `i`, fetched word `iw` (R40 to R44, R50, R51). Of several conditions that fail, the one of the lowest move is
recorded, its source's before its destination's, which no rule says (DESIGN CHOICE, log entry 148). -/
def State.runWord (s : State) (i : Nat) (iw : W128) : State :=
  let e := engOf i
  let b0 := s.cur i
  let ms := movesOf iw b0.b
  match ms.findSome? fun m => (((s.srcWait i m).toList ++ (dstWait m).toList).find? fun w => s.holds i w) with
  | some w =>
    (((s.modTh i fun t => { t with wait := some w }).bump (aEng e 0x10) 1).setEng e
      { s.eng e with last := slotOf i })
  | none =>
    let b := if iwLimm iw then { b0 with limm := iwLong iw } else b0
    match worst (ms.filterMap fun m => s.srcFault i b m) with
    | some f => s.raiseFault i f.fr
    | none => match worst (s.dstFaults i [] ms) with
      | some f => s.raiseFault i f.fr
      | none =>
        let mv := ms.map fun m => (m, s.srcVal i b m)
        let b1 := commitBank b mv
        match worst ((trigsOf mv).flatMap fun q => s.trigFaults i b1 q.1 q.2.1 q.2.2.d q.2.2.slot) with
        | some f => s.raiseFault i f.fr
        | none => s.commit i b iw mv

/- Spill transfers (R115, R117, R141, R142) -------------------------------------------------------------- -/

/-- The context words of block `k` that SAVE writes: of the normal bank, with the resume point of the record when the
code runs in its shadow bank (R115, R137). Of code in the brace bank no rule says which resume point it is; the record's is
taken there too (DESIGN CHOICE, log entry 118). -/
def Thread.saveWords (t : Thread) (k : Fin 4) : List W64 :=
  let c := match t.sel with
    | .normal => ctxWords t
    | _ => ctxWords { t with pc := t.exc.epc, npc := t.exc.enpc, ds := t.exc.ds, ring := t.exc.ring }
  (c.drop (blkWords k).1).take (blkWords k).2

/-- The words that a spill transfer writes; none: it reads. -/
def Thread.spillWords (t : Thread) (p : SpillRec) : Option (List W64) :=
  match p.kind with
  | .save k => some (t.saveWords k)
  | .xsave => some (imageWords t.shadow t.exc)
  | _ => none

/-- The bytes of a spill transfer. -/
def SpillRec.len (p : SpillRec) : Nat :=
  match p.kind with
  | .save k | .restore k => 8 * (blkWords k).2
  | _ => 512

/-- A spill transfer of slot `i` outside scratch starts once the store buffer has drained: one-beat transactions, issued one
after another without waiting (R117, R355). A SAVE of the latches does not wait for operations still running, and writes what they
hold then (DESIGN CHOICE, log entry 148). -/
def State.spillGo (s : State) (i : Nat) : State :=
  let t := s.th i
  match t.spill with
  | none => s
  | some p =>
    match regionOf p.addr with
    | .scratch _ => s
    | _ =>
      if !t.stores.isEmpty || (s.xferOf (.spill i)).isSome then s
      else s.xferStart (.spill i) (engOf i / 9) i 32 true p.addr p.len
        ((t.spillWords p).map fun l => l.flatMap fun v => natLe 8 v.toNat)

/-- The slot may run an instruction now: it is selected and no entry is due at this boundary (R48, R52, R135). -/
def State.mayRun (s : State) (i : Nat) : Bool :=
  s.selected (engOf i) == some i && (s.th i).fault.isNone && (s.th i).brEntry.isNone && (signalDue (s.th i)).isNone

/-- An entry is due on slot `i`. -/
def State.mayEnter (s : State) (i : Nat) : Bool :=
  s.selected (engOf i) == some i
    && ((s.th i).fault.isSome || (s.th i).brEntry.isSome || (signalDue (s.th i)).isSome)

/-- No ENTRY cycle is due before the next instruction of slot `i`: no fault of a slot of the engine awaits its entry, and
neither a brace entry nor a signal of the slot is due (R48, R135). -/
def State.noEntry (s : State) (i : Nat) : Bool :=
  ((slotsOf (engOf i)).all fun j => (s.th j).fault.isNone) && (s.th i).brEntry.isNone && (signalDue (s.th i)).isNone

/-- The effect of a lone trigger that raises no fault: a transfer, a loop trigger, a guard write, or the operation of a unit. -/
def State.trigEffect (s : State) (i : Nat) (t : Trig) (v : W64) : State :=
  if t.isXfer then s.sequence i false (some (t, v))
  else if t.isLoop then s.putBank i (s.th i).sel (loopRun (s.cur i) t v (s.th i).pc)
  else
    let b := s.cur i
    match t with
    | .cmp op g => s.putBank i (s.th i).sel { b with b := setGuard b.b g.val (cmpFn op b.latch[13] v) }
    | .glogic => s.putBank i (s.th i).sel { b with b := glogicFn b.b b.b v }
    | _ => s.trigRun i b t v

/-- The checks of a lone trigger, then its effect or its fault; it waits, without effect, as R50 and R119 say. `port` names the
trigger in FAULT_INFO. -/
def State.trigDo (s : State) (i : Nat) (t : Trig) (v : W64) (port : Nat) : State :=
  if (trigWait t).any fun w => s.holds i w then s
  else match worst ((s.dstFault i [] ⟨0, port, none, 0, 0, false⟩).toList ++ s.trigFaults i (s.cur i) t v port 0) with
    | some f => s.raiseFault i f.fr
    | none => s.trigEffect i t v

/-- A single trigger of a unit by a ready thread, outside an instruction word (log entry 3): operations of latency at most 1 have
landed, no entry is due, and the FETCH begins (R53, R135, R200). -/
def State.trigOnce (s : State) (i : Nat) (t : Trig) (v : W64) (port : Nat) : State :=
  let s := s.landShort i
  if !s.ready i || !s.noEntry i then s else (s.firstFetch i).trigDo i t v port

end Sys2Proof.Machine
end

