-- ==== Sys2Proof/Machine/Memory.lean ====
section
/-!
DEFINITION. The data banks, bulk DRAM and the Granary spill port as a master reaches them (chapters 10 and 11):
owner rule, retention, check bits, aliases, poison, captures.
-/

namespace Sys2Proof.Machine

/-- How an access ends: done, or refused with a kind (0 non-owner, 1 asleep, 2 uncorrectable, 3 other). -/
inductive AccRes
  | ok
  | err (kind : Nat)
deriving DecidableEq, Repr

/- Banks ---------------------------------------------------------------------------------------- -/

/-- The owner code of bank `b` (R329). -/
def State.owner (s : State) (b : Nat) : Nat := s.rf (aBnk b 0) 0 8

/-- The owner codes that R174 defines. -/
def ownerCode (c : Nat) : Bool :=
  c ≤ 11 || c == 0x10 || c == 0x11 || (0x20 ≤ c && c ≤ 0x23) || c == 0x30

/-- Owner `c` admits master code `m` (R329). -/
def admits (c m : Nat) : Bool := c == m || (c == 0x10 && m == 0x40) || m == 0x41 || m == 0x42

/-- Whether bank `b` takes an access of master code `m` now; none: held at the port for a new owner (R329, R334). -/
def State.admission (s : State) (b m : Nat) : Option Bool :=
  if m = 0x41 ∨ m = 0x42 then some true
  else match (s.bank b).next with
    | none => some (admits (s.owner b) m)
    | some n =>
      if n.toNat = s.owner b then some (admits (s.owner b) m)
      else if admits n.toNat m then none else some false

/-- Record an error of bank `b` in its sticky bits and, if they were clear, its capture (R330, R331, R341, R328). -/
def State.bankErr (s : State) (b m o : Nat) (w : Bool) (kind : Nat) : State :=
  let st := aBnk b 0xC
  let s1 :=
    if s.rf st 0 2 = 0 && !s.bit st 4 then
      (s.wr (aBnk b 0x10) (BitVec.ofNat 32 (o % 2 ^ 22 + 2 ^ 31))).wr (aBnk b 0x14)
        (BitVec.ofNat 32 (m % 256 + kind * 2 ^ 8 + w.toNat * 2 ^ 12))
    else s
  s1.setB st (if kind = 2 then 4 else kind)

/-- An access to a bank that is not AWAKE under AUTOWAKE: it is held and SLEEP is cleared (R340). -/
def State.autoWake (s : State) (b : Nat) : State := s.clrB (aBnk b 4) 0

/-- The bank is AWAKE. -/
def State.awake (s : State) (b : Nat) : Bool := s.rf (aBnk b 8) 0 2 == 0

/-- Write bytes through an alias: set ORs, clear clears (R338). -/
def State.aliasWrite (s : State) (al : Alias) (key : Nat) : List Byte → State
  | [] => s
  | v :: l =>
    let x := match al with
      | .normal => v
      | .set => s.byte key ||| v
      | .clear => s.byte key &&& ~~~v
    (s.setByte key x).aliasWrite al (key + 1) l

/-- The number of the 64-bit word at offset `o` of bank `b`. -/
def bankWord (b o : Nat) : Nat := b * 0x80000 + o / 8

/-- The words that `n` bytes at offset `o` of bank `b` touch. -/
def bankWords (b o n : Nat) : List Nat := (List.range ((o + n - 1) / 8 - o / 8 + 1)).map fun i => bankWord b o + i

/-- The number of word `w` of a row that the Gleaner visits, by TARGET, INSTANCE and ROW (R343): the words of the state store come
behind those of the context store. -/
def glnWord (tgt inst row w : Nat) : Nat :=
  match tgt with
  | 0 => bankWord inst (256 * row) + w
  | 1 => progWord0 + inst * 0x40000 + 32 * row + w
  | 2 => ctxWord0 + 32 * row + w
  | _ => recWord0 + 32 * row + w

/-- What 64-bit word `j` of the state store holds: a third of the record of a task (R183). -/
def State.recWord (s : State) (j : Nat) : W64 :=
  let l := recWords (s.task (j / 3))
  BitVec.ofNat 64 ((l.getD (2 * (j % 3)) 0).toNat + (l.getD (2 * (j % 3) + 1) 0).toNat * 2 ^ 32)

/-- Word `j` of the state store is poisoned: a copy found it bad, and it has not been rewritten (R344; log 152). -/
def State.recPoisoned (s : State) (j : Nat) : Bool := spGet (fun _ => none) s.recPois j == some (s.recWord j)

/-- Word `k` of a memory that the Gleaner visits is poisoned (R344). -/
def State.wordBad (s : State) (k : Nat) : Bool := if k < recWord0 then s.wordPois k else s.recPoisoned (k - recWord0)

/-- Mark or unmark a word. -/
def State.setWordPois (s : State) (k : Nat) (v : Bool) : State := { s with bankPois := spSet (fun _ => false) s.bankPois k v }

/-- A copy finds word `k` bad: it is carried as poisoned (R344). -/
def State.poisonWord (s : State) (k : Nat) : State :=
  if k < recWord0 then s.setWordPois k true
  else { s with recPois := spSet (fun _ => none) s.recPois (k - recWord0) (some (s.recWord (k - recWord0))) }

/-- The save buffer of the Gleaner serves row `o / 256` of bank `b` (R344). -/
def State.inSaveBuffer (s : State) (b o : Nat) : Bool :=
  s.bit (aBnk b 8) 5 && s.rf (aGln 4) 0 2 == 0 && s.rf (aGln 4) 4 6 == b && s.rf (aGln 4) 12 17 == o / 256

/-- The words of an access that the bank reads: all of a read and of an alias write, and those a write covers in part (R327). -/
def readWords (b o n : Nat) (al : Alias) (write : Bool) : List Nat :=
  if !write || al != .normal then bankWords b o n
  else (bankWords b o n).filter fun k => decide (8 * (k - bankWord b 0) < o) || decide (o + n < 8 * (k - bankWord b 0) + 8)

/-- Errors corrected by bank `b` (R328). -/
def State.bankCe (s : State) (b n : Nat) : State := if n = 0 then s else (s.bumpSat (aBnk b 0x18) n).setB (aBnk b 0xC) 3

/-- A bank performs an admitted access of `n` bytes at offset `o`; `w`: the bytes written. `ecc` says what the words that
it reads hold; words in the save buffer were corrected when it was filled (R327, R328, R338, R344). -/
def State.bankDo (s : State) (m b o n : Nat) (al : Alias) (w : Option (List Byte)) (ecc : Ecc) : State × AccRes :=
  let rd := readWords b o n al w.isSome
  let s1 := if rd.isEmpty || s.inSaveBuffer b o then s else s.bankCe b ecc.ce
  if !rd.isEmpty && (ecc.ue || rd.any s.wordPois) then (s1.bankErr b m o w.isSome 2, .err 2)
  else match w with
    | none => (s1, .ok)
    | some l =>
      let s2 := (bankWords b o n).foldl (fun t k => t.setWordPois k false) (s1.aliasWrite al (bankKey b o) l)
      (s2, .ok)

/- DRAM ----------------------------------------------------------------------------------------- -/

/-- Burst `k` of the DRAM offset space is poisoned. -/
def State.isPoison (s : State) (k : Nat) : Bool := spGet (fun _ => false) s.poisoned k

/-- Mark or unmark a burst. -/
def State.setPoison (s : State) (k : Nat) (v : Bool) : State :=
  { s with poisoned := spSet (fun _ => false) s.poisoned k v }

/-- The burst of DRAM offset `o`: its place in the stacks, in bursts. -/
def State.burstOf (s : State) (o : Nat) : Nat := s.dramCell o / 32

/-- The DRAM row of offset `o`: channel, row and DRAM bank index as one number (R349). -/
def State.dramRow (s : State) (o : Nat) : Nat := s.burstOf o / 32

/-- Capture the first error of channel `k` at DRAM offset `o` (ERR_ADDR). -/
def State.dramCapture (s : State) (k o : Nat) : State :=
  if s.bit (aDrcCh k 0xC) 31 then s
  else (s.wr (aDrcCh k 8) (BitVec.ofNat 32 o)).wr (aDrcCh k 0xC) (BitVec.ofNat 32 (o / 2 ^ 32 % 8 + 2 ^ 31))

/-- The DRAM row of `o` becomes a candidate for repair (R352). -/
def State.pprCand (s : State) (o : Nat) : State :=
  if s.pprq.contains (s.dramRow o) then s else { s with pprq := s.pprq ++ [s.dramRow o] }

/-- A corrected error at DRAM offset `o` (R350, R352). -/
def State.dramCe (s : State) (o : Nat) : State :=
  let k := s.dramChan o
  let r := s.dramRow o
  let n := spGet (fun _ => 0) s.rowCe r + 1
  let s1 := (((s.bumpSat (aDrcCh k 0) 1).setB (aDrc 0xC) 0).dramCapture k o)
  let s2 := { s1 with rowCe := spSet (fun _ => 0) s1.rowCe r n }
  if max 1 (s.rf (aDrc 8) 0 8) ≤ n then s2.pprCand o else s2

/-- An uncorrectable error at DRAM offset `o` (R350, R352). -/
def State.dramUe (s : State) (o : Nat) : State :=
  let k := s.dramChan o
  (((s.bumpSat (aDrcCh k 4) 1).setB (aDrc 0xC) 1).dramCapture k o).pprCand o

/-- An access of `n` bytes at DRAM offset `o`, inside one burst: a read, or a write that first reads the burst unless it
covers it (R350, R352). -/
def State.dramDo (s : State) (o n : Nat) (w : Option (List Byte)) (ecc : Ecc) : State × AccRes :=
  let reads := w.isNone || n != 32
  if reads && (ecc.ue || s.isPoison (s.burstOf o)) then (s.dramUe o, .err 2)
  else
    let s1 := if reads && ecc.ce != 0 then s.dramCe o else s
    match w with
    | none => (s1, .ok)
    | some l => ((s1.setDram o l).setPoison (s.burstOf o) false, .ok)

/-- Whole bursts written from DRAM offset `o`, which their old contents cannot refuse (R350). -/
def State.dramFill (s : State) (o : Nat) (l : List Byte) : State :=
  (List.range ((l.length + 31) / 32)).foldl (fun t k => t.setPoison (t.burstOf (o + 32 * k)) false) (s.setDram o l)

/-- The byte at DRAM offset `o` as every read sees it: with the queued writes, which are acknowledged (R362). -/
def State.dramSeen (s : State) (o : Nat) : Byte :=
  s.dramq.foldl (fun v p => match p.2.data with
    | some l => if p.2.addr ≤ 0x1000000000 + o ∧ 0x1000000000 + o < p.2.addr + p.2.size
        then l.getD (0x1000000000 + o - p.2.addr) v else v
    | none => v) (s.byte (dramKey (s.dramCell o)))

/- The Granary spill port and decode errors -------------------------------------------------------- -/

/-- A matrix error: sticky bit `k`, and the capture if it is empty (R354, R364). -/
def State.mtxErr (s : State) (k a m : Nat) (w : Bool) : State :=
  let s1 :=
    if s.bit (aMtx 0x188) 31 then s
    else (s.wr (aMtx 0x184) (BitVec.ofNat 32 a)).wr (aMtx 0x188)
      (BitVec.ofNat 32 (a / 2 ^ 32 % 256 + m % 256 * 2 ^ 8 + w.toNat * 2 ^ 16 + 2 ^ 31))
  s1.setB (aMtx 0x180) k

/-- Bytes of the state records from record offset `o` (R183, R364). -/
def State.recBytes (s : State) (o n : Nat) : List Byte :=
  (List.range n).map fun i =>
    let w := (recWords (s.task ((o + i) / 24))).getD ((o + i) % 24 / 4) 0
    BitVec.ofNat 8 (w.toNat / 2 ^ (8 * ((o + i) % 4)))

/-- The bytes that a read of memory returns (R338: the same through every alias). -/
def State.memData (s : State) (a n : Nat) : List Byte :=
  match regionOf a with
  | .bank b o _ => s.byteList (bankKey b o) n
  | .dram o => s.dramBytes o n
  | .ctx _ => s.byteList a n
  | .recs o => s.recBytes o n
  | _ => List.replicate n 0

/- Local scratch ------------------------------------------------------------------------------------ -/

/-- Errors corrected in the scratch of engine `e` (R342); at SPARE_CFG.SCR_CE the engine is a candidate (R476). -/
def State.scratchCe (s : State) (e n : Nat) : State :=
  if n = 0 then s
  else
    let s1 := s.bumpSat (aEng e 0x70) n
    if s.rf (aHlt 0x660) 0 16 ≤ (s1.rd (aEng e 0x70)).toNat then s1.candidate e else s1

end Sys2Proof.Machine
end

