-- ==== Sys2Proof/Machine/Complete.lean ====
section
/-!
DEFINITION. What comes back to a thread: results of units, loads, drained stores, spill transfers, pulled words, and
the ENTRY cycle (chapters 2, 3 and 4).
-/

namespace Sys2Proof.Machine

/- Unit results ----------------------------------------------------------------------------------- -/

/-- The oldest operation of slot `i` on unit `u` completes (R53, R54); on a locked engine its result is lost (R148). -/
def State.unitDone (s : State) (i : Nat) (u : RUnit) : State :=
  match takeOp u (s.th i).ops with
  | none => s
  | some (o, l) =>
    let s1 := s.modTh i fun t => { t with ops := l }
    (if s.locked (engOf i) then s1 else s1.land i o).clearWaits

/-- UNIT_RESULT (R53). -/
def execUnitResult (t : Th) (u : RUnit) (s : State) : Host.Outcome State Fault Refusal := .next (s.awakeDo fun s => s.unitDone (thIx t) u)

/- Loads ------------------------------------------------------------------------------------------ -/

/-- A load whose result can be delivered. -/
def LoadRec.back (l : LoadRec) : Bool :=
  match l.st with
  | .fwd _ | .scratch _ | .done _ | .err _ => true
  | _ => false

/-- The first load that is back, and the others. -/
def takeLoad : List LoadRec → Option (LoadRec × List LoadRec)
  | [] => none
  | l :: t => if l.back then some (l, t) else (takeLoad t).map fun p => (p.1, l :: p.2)

/-- The data a load brings, or its error cause; the check bits of scratch are judged now (R342). -/
def State.loadData (s : State) (i : Nat) (l : LoadRec) (ecc : Ecc) : State × Except (BitVec 8) W64 :=
  match l.st with
  | .fwd d => (s, .ok (ldExtend l.op d.toNat))
  | .done d => (s, .ok (ldExtend l.op d.toNat))
  | .err c => (s, .error c)
  | .scratch d =>
    let s1 := s.scratchCe (engOf i) (min 1 ecc.ce)
    if ecc.ue then (s1, .error 0x06) else (s1, .ok (ldExtend l.op d))
  | _ => (s, .error 0x06)

/-- A load result reaches the LD latch of its bank (R98, R99); an error of a load of the brace handler locks up the engine
(R148). What the latch then holds beside the mark no rule states: a free value. -/
def State.loadLand (s : State) (i : Nat) (l : LoadRec) (r : Except (BitVec 8) W64) : State :=
  let e := engOf i
  let b := s.bankOf i l.sel
  let lost := s.setB (aEng e 0x2C) 1
  if s.locked e then s
  else match r with
    | .error c =>
      let t := s.th i
      if l.sel = .brace then s.lockup e c t.pc t.ds t.ring (slotOf i)
      else if l.old then lost
      else (if b.ldErr.isSome then lost else s).used.putBank i l.sel
        { b with latch := b.latch.set 16 s.free, ldErr := some (c, BitVec.ofNat 64 l.addr) }
    | .ok v =>
      if l.old then s
      else (if b.ldErr.isSome then lost else s).putBank i l.sel { b with latch := b.latch.set 16 v, ldErr := none }

/-- The oldest load of slot `i` that is back is delivered. -/
def State.loadDone (s : State) (i : Nat) (ecc : Ecc) : State :=
  match takeLoad (s.th i).loads with
  | none => s
  | some (l, rest) =>
    let s1 := s.modTh i fun t => { t with loads := rest }
    match s1.loadData i l ecc with
    | (s2, r) => (s2.loadLand i l r).clearWaits

/-- LOAD_RESULT (R98). -/
def execLoadResult (t : Th) (ecc : Ecc) (s : State) : Host.Outcome State Fault Refusal :=
  .next (s.awakeDo fun s => s.loadDone (thIx t) ecc)

/- Stores ----------------------------------------------------------------------------------------- -/

/-- A store that can drain. -/
def StoreRec.back (x : StoreRec) : Bool :=
  match x.st with
  | .issued => false
  | _ => true

/-- The first store that can drain, and the others. -/
def takeStore : List StoreRec → Option (StoreRec × List StoreRec)
  | [] => none
  | x :: t => if x.back then some (x, t) else (takeStore t).map fun p => (p.1, x :: p.2)

/-- The loads of slot `i` whose stores have all drained start (R73). -/
def State.startLoads (s : State) (i : Nat) : List LoadRec → State
  | [] => s
  | l :: t =>
    match l.st with
    | .waits ids =>
      if ids.any fun d => (s.th i).stores.any fun x => x.id == d then s.startLoads i t
      else
        let st : LdSt := match regionOf l.addr with
          | .scratch o => .scratch (s.bytes (scratchKey (engOf i) o) (ldSize l.op))
          | _ => .issued
        let s1 := s.modTh i fun th => { th with loads := th.loads.map fun x => if x.id = l.id then { x with st := st } else x }
        let s2 := match st with
          | .issued => s1.issue i (.load i l.id) l.addr (ldSize l.op) none
          | _ => s1
        s2.startLoads i t
    | _ => s.startLoads i t

/-- A store of `task` in slot `i` to address `a` got an error response: lockup if the brace handler stored, else the signal to the
task, if it is still resident (R75, R148). -/
def State.storeError (s : State) (i task : Nat) (brace : Bool) (c : BitVec 8) (a : Nat) : State :=
  let e := engOf i
  let t := s.th i
  if s.locked e then s
  else if brace then s.lockup e c t.pc t.ds t.ring (slotOf i)
  else if t.resident && t.task == task then s.raiseSignal i c (BitVec.ofNat 64 a)
  else s

/-- The effect of a drained store: the write of scratch, or the error of a refused write (R72, R75). -/
def State.drainOne (s : State) (i : Nat) (x : StoreRec) : State :=
  match x.st with
  | .held => s.setBytes (scratchKey (engOf i) x.addr) (stSize x.op) x.data.toNat
  | .err c => s.storeError i x.task (x.sel == .brace) c x.addr
  | _ => s

/-- The first store of slot `i` that can drain leaves the buffer. -/
def State.storeDone (s : State) (i : Nat) : State :=
  match takeStore (s.th i).stores with
  | none => s
  | some (x, rest) =>
    let s1 := (s.modTh i fun t => { t with stores := rest }).drainOne i x
    ((s1.startLoads i (s1.th i).loads).spillGo i).clearWaits

/-- STORE_DRAIN (R72, R75). -/
def execStoreDrain (t : Th) (s : State) : Host.Outcome State Fault Refusal := .next (s.awakeDo fun s => s.storeDone (thIx t))

/- Spill transfers --------------------------------------------------------------------------------- -/

/-- The 64-bit words of a byte list. -/
def wordsOf (l : List Byte) : List W64 := (List.range (l.length / 8)).map fun k => BitVec.ofNat 64 (leNat ((l.drop (8 * k)).take 8))

/-- The normal bank with block `k` restored from words `w` (R115). -/
def restoreBank (b : Bank) (k : Fin 4) (w : List W64) : Bank :=
  match k with
  | 0 => { b with w := Vector.ofFn fun n => if n.val < 16 then w.getD n.val 0 else b.w[n] }
  | 1 => { b with w := Vector.ofFn fun n => if n.val < 16 then b.w[n] else w.getD (n.val - 16) 0 }
  | 2 => { b with latch := vecFrom w 0 22, ldErr := none }
  | 3 => bankOfCtl b w

/-- The thread leaves its spill wait. -/
def State.spillOver (s : State) (i : Nat) : State := s.modTh i fun t => { t with spill := none }

/-- A SAVE or RESTORE failed: the spill signal, or lockup if the brace handler issued it (R117, R148). -/
def State.spillErr (s : State) (i : Nat) (p : SpillRec) : State :=
  let t := s.th i
  if s.locked (engOf i) then s
  else if p.sel = .brace then s.lockup (engOf i) 0x43 t.pc t.ds t.ring (slotOf i)
  else s.raiseSignal i 0x43 (BitVec.ofNat 64 p.addr)

/-- A failed exception transfer: brace entry is due with SPILL_ERROR; `ring`: by the ring check (R142, R143). -/
def State.spillBrace (s : State) (i : Nat) (p : SpillRec) (ring : Bool) : State :=
  s.modTh i fun t =>
    { t with brEntry := some ⟨0x43, BitVec.ofNat 64 (p.addr + ring.toNat * 2 ^ 63), 7⟩ }

/-- The image of an exception transfer arrives: written back into the shadow bank and its record (R142, R136). An error mark of LD in
the shadow bank that it overwrites unread sets no LOAD_ERR_LOST (DESIGN CHOICE, log 157). -/
def State.takeImage (s : State) (i : Nat) (p : SpillRec) (w : List W64) : State :=
  let t := s.th i
  let x := excOfImage w
  if x.ring < t.ring then s.spillBrace i p true
  else match p.kind with
    | .nested => s.modTh i fun t =>
        { t with pc := t.exc.epc, npc := t.exc.enpc, ds := t.exc.ds, ring := t.exc.ring,
                 shadow := bankOfImage w, exc := x, xdepth := t.xdepth - 1, armed := true }
    | _ => s.modTh i fun t =>
        { t with shadow := bankOfImage w, exc := x, xsp := t.xsp - 512, armed := false }

/-- The end of a transfer `p` of slot `i` whose accesses ended in state `s` with `r`, having read `w`. -/
def State.spillEnd (s : State) (i : Nat) (p : SpillRec) (r : AccRes) (w : List W64) : State :=
  let s1 := s.spillOver i
  if s1.locked (engOf i) then s1
  else match p.kind, r with
    | .save _, .ok => s1
    | .save _, _ => s1.spillErr i p
    | .restore k, .ok => s1.modTh i fun t => { t with normal := restoreBank t.normal k w }
    | .restore _, _ => s1.spillErr i p
    | .xsave, .ok => s1.modTh i fun t => { t with xsp := t.xsp + 512, armed := true }
    | .xsave, _ => s1.spillBrace i p false
    | _, .ok => s1.takeImage i p w
    | _, _ => s1.spillBrace i p false

/-- The end of a spill transfer in local scratch, at offset `o`; `ecc`: of the words read (R117, R342). -/
def State.spillScratch (s : State) (i o : Nat) (p : SpillRec) (ecc : Ecc) : State :=
  let key := scratchKey (engOf i) o
  match (s.th i).spillWords p with
  | some w => (s.setWords key w).spillEnd i p .ok []
  | none =>
    let s1 := s.scratchCe (engOf i) ecc.ce
    s1.spillEnd i p (if ecc.ue then .err 2 else .ok) (s.words key (p.len / 8))

/-- The spill transfer of slot `i` ends, once its store buffer has drained: at once in scratch, elsewhere when its last beat has
been answered (R117). Operations of latency at most 1 that its instruction started have landed by then (R53). -/
def State.spillDone (s : State) (i : Nat) (ecc : Ecc) : State :=
  let t := s.th i
  match t.spill with
  | none => s
  | some p =>
    if !t.stores.isEmpty then s
    else match regionOf p.addr with
      | .scratch o => ((s.landShort i).spillScratch i o p ecc).clearWaits
      | _ =>
        match s.xferOf (.spill i) with
        | none => s.spillGo i
        | some x =>
          if x.over then
            (((s.landShort i).dropXfer (.spill i)).spillEnd i p (match x.err with
              | some k => .err k
              | none => .ok) (wordsOf x.got)).clearWaits
          else s

/-- SPILL_TRANSFER_END (R117, R136, R137, R141 to R143). -/
def execSpillTransferEnd (t : Th) (ecc : Ecc) (s : State) : Host.Outcome State Fault Refusal :=
  .next (s.awakeDo fun s => s.spillDone (thIx t) ecc)

/- Pulls ------------------------------------------------------------------------------------------ -/

/-- A pull reaches its Thresher and its answer PULLRES (R107). Two pulls of one thread are answered in the order of their moves, which no
rule says (DESIGN CHOICE, log entry 148). -/
def State.pullDone (s : State) (i : Nat) : State :=
  match (s.th i).pulls with
  | [] => s
  | (n, sel) :: rest =>
    let p := s.thrs n
    let v : W64 := match p.out with
      | [] => 0x8000000000000000
      | x :: _ => x &&& 0x7FFFFFFFFFFFFFFF
    let s1 := (s.setThr n { p with out := p.out.drop 1 }).modTh i fun t => { t with pulls := rest }
    if s.locked (engOf i) then s1.clearWaits
    else
      let b := s1.bankOf i sel
      (s1.putBank i sel { b with latch := b.latch.set 18 v }).clearWaits

/-- PULL_REPLY (R107). -/
def execPullReply (t : Th) (s : State) : Host.Outcome State Fault Refusal := .next (s.awakeDo fun s => s.pullDone (thIx t))

/- Entry ------------------------------------------------------------------------------------------ -/

/-- EXCEPTION_ENTRY (R134, R135, R145, R148): the selected slot takes the entry that is due. -/
def execExceptionEntry (t : Th) (s : State) : Host.Outcome State Fault Refusal :=
  .next (s.awakeDo fun s =>
    let i := thIx t
    let s := s.landShort i
    if s.mayEnter i then s.entryCycle i else s)

/- Engine counters and trace ------------------------------------------------------------------------ -/

/-- A read of INSTR_LO (R76): the count at this instant, its high word held for INSTR_HI. -/
def State.instrLoRead (s : State) (e : Nat) : State :=
  let v := (s.eng e).instr
  { s.wr (aEng e 0xC) (BitVec.ofNat 32 (v.toNat / 2 ^ 32)) with busOut := BitVec.ofNat 32 v.toNat }

/-- A read of TRACE_LO (R120): the record is held for TRACE_HI and TRACE_INFO, and VALID is cleared. -/
def State.traceLoRead (s : State) (e : Nat) : State :=
  let g := s.eng e
  let s1 := (s.wr (aEng e 0x34) (BitVec.ofNat 32 (g.trVal.toNat / 2 ^ 32))).wr (aEng e 0x38)
    (BitVec.ofNat 32 (g.trSlot % 8 + g.trValid.toNat * 2 ^ 7 + g.trSeq.toNat * 2 ^ 16))
  { s1.setEng e { g with trValid := false } with busOut := BitVec.ofNat 32 g.trVal.toNat }

/-- CNT_CLEAR of an engine: the instruction count, the held high word and the four counters. -/
def State.engClear (s : State) (e : Nat) : State :=
  let s1 := s.setEng e { s.eng e with instr := 0 }
  ((((s1.wr (aEng e 0xC) 0).wr (aEng e 0x10) 0).wr (aEng e 0x14) 0).wr (aEng e 0x18) 0).wr (aEng e 0x1C) 0

/-- INSTR_LO (R76). -/
def execInstrLo (e : EngId) (s : State) : Host.Outcome State Fault Refusal := .next (s.mgmtDo (aEng (engIx e) 8) (none) fun s => s.instrLoRead (engIx e))

/-- TRACE_LO (R120). -/
def execTraceLo (e : EngId) (s : State) : Host.Outcome State Fault Refusal := .next (s.mgmtDo (aEng (engIx e) 0x30) (none) fun s => s.traceLoRead (engIx e))

/-- ENG_CNT_CLEAR (R518). -/
def execEngCntClear (e : EngId) (s : State) : Host.Outcome State Fault Refusal := .next (s.mgmtDo (aEng (engIx e) 0x20) (some (1)) fun s => s.engClear (engIx e))

end Sys2Proof.Machine
end

