-- ==== Sys2Proof/Machine/Culm.lean ====
section
/-!
DEFINITION. The Culm network: slots, words under way, collisions, delivery, discards and counters (chapter 5).
-/

namespace Sys2Proof.Machine

/-- NCLK cycles since the frames started (R22, R151); none while no image is active. -/
def State.nclk (s : State) : Option Nat := s.culmStart.map fun t => (s.eclk - t) / 2

/-- The completed frames (R151). -/
def State.frames (s : State) : Nat := (s.nclk.getD 0) / 64

/-- ROUTE.VALID of channel `c` (R153). -/
def State.routed (s : State) (c : Nat) : Bool := s.bit (aCulm (0x8000 + 8 * c)) 31

/-- A field of ROUTE. -/
def State.route (s : State) (c lo w : Nat) : Nat := s.rf (aCulm (0x8000 + 8 * c)) lo w
/-- A field of BIND. -/
def State.bind (s : State) (c lo w : Nat) : Nat := s.rf (aCulm (0x8004 + 8 * c)) lo w

/-- A resource of R154. -/
inductive CulmRes
  | send (sheaf eng : Nat)
  | seg (lane from_ : Nat)
  | recv (sheaf eng : Nat)
deriving DecidableEq, Repr

/-- The Sheaf from which segment `h` of a route leaves (R152, R154). -/
def segFrom (src lane h : Nat) : Nat := if lane % 8 ≤ 5 then (src + h - 1) % 12 else (src + 132 - (h - 1)) % 12

/-- The resources the word of flight `f` uses in NCLK cycle `n` (R154). -/
def State.resAt (s : State) (f : Flight) (n : Nat) : List CulmRes :=
  let c := f.chan
  let h := s.route c 20 4
  let snd := CulmRes.send (s.route c 0 4) (s.route c 4 3)
  let rcv := CulmRes.recv (s.bind c 0 4) (s.bind c 4 3)
  if h = 0 then (if n = f.start then [snd, rcv] else [])
  else if n = f.start then [snd]
  else if f.start < n ∧ n ≤ f.start + h then [.seg (s.route c 16 3) (segFrom (s.route c 0 4) (s.route c 16 3) (n - f.start))]
  else if n = f.start + h + 1 then [rcv]
  else []

/-- The NCLK cycle at whose start the word of flight `f` is written into its receive buffer (R154). -/
def State.dueAt (s : State) (f : Flight) : Nat :=
  let h := s.route f.chan 20 4
  if h = 0 then f.start + 2 else f.start + h + 3

/-- The live flights that share a resource with `f` in cycle `n`. -/
def State.rivals (s : State) (n : Nat) (f : Flight) : List Flight :=
  s.flights.filter fun g => !g.lost && g.chan != f.chan && (s.resAt f n).any fun r => (s.resAt g n).contains r

/-- The lowest number of a list. -/
def lowest : List Nat → Nat
  | [] => 0
  | [a] => a
  | a :: l => min a (lowest l)

/-- Judge NCLK cycle `n` for collisions (R160). -/
def State.collideAt (s : State) (n : Nat) : State :=
  let hit := s.flights.filter fun f => !f.lost && !(s.rivals n f).isEmpty
  match hit with
  | [] => { s with culmDone := n + 1 }
  | _ =>
    let a := lowest (hit.map (·.chan))
    let b := match hit.find? fun f => f.chan == a with
      | some f => lowest ((s.rivals n f).map (·.chan))
      | none => a
    let s1 := s.setB (aCulm 0x10) 0
    let s2 := if s1.bit (aCulm 0x14) 31 then s1
      else s1.wr (aCulm 0x14) (BitVec.ofNat 32 (a + b * 2 ^ 16 + 2 ^ 31))
    { s2 with culmDone := n + 1
              flights := s2.flights.map fun f => if hit.contains f then { f with lost := true } else f }

/-- Judge the NCLK cycles that have ended and were not judged. -/
def State.collide (s : State) : State :=
  match s.nclk with
  | none => s
  | some n => (List.range (n - s.culmDone)).foldl (fun t k => t.collideAt (s.culmDone + k)) s

/-- An NCLK cycle starts in this ECLK cycle, the first of its two (R22, R151). -/
def State.nclkEdge (s : State) : Bool := s.culmStart.any fun t => (s.eclk - t) % 2 == 0

/-- The slot of channel `c` starts now and was not served (R151, R153, R156). -/
def State.slotNow (s : State) (c : Nat) : Bool :=
  match s.nclk with
  | none => false
  | some n => s.nclkEdge && s.routed c && s.route c 8 6 == n % 64 && (s.chan c).served != n + 1

/-- Channel `c` at its slot: the word leaves, or the slot carries chaff (R154, R156, R157). -/
def State.culmSlot (s : State) (c : Nat) : State :=
  if !s.slotNow c then s
  else
    let s := s.collide
    let n := s.nclk.getD 0
    let ch := s.chan c
    match ch.send with
    | some v =>
      ({ s.setChan c { ch with send := none, served := n + 1 } with
          flights := s.flights ++ [Flight.mk c v n false] }).clearWaits
    | none => (s.setChan c { ch with served := n + 1 }).bump (aCulm (0x4000 + 4 * c)) 1

/-- CULM_SLOT (R154). -/
def execCulmSlot (c : Fin 1024) (s : State) : Host.Outcome State Fault Refusal := .next (s.culmSlot c.val)

/-- The first flight of channel `c` that is due, and the others. -/
def State.takeFlight (s : State) (c n : Nat) : List Flight → Option (Flight × List Flight)
  | [] => none
  | f :: l => if f.chan = c ∧ s.dueAt f ≤ n then some (f, l) else (s.takeFlight c n l).map fun p => (p.1, f :: p.2)

/-- A word is written into the receive buffer of its channel, or poisons it (R158 to R160, R186);
words routed to an unplaced position are discarded (R475). -/
def State.deliver (s : State) (c : Nat) : State :=
  let s := s.collide
  match s.nclk with
  | none => s
  | some n =>
    match s.takeFlight c n s.flights with
    | none => s
    | some (f, rest) =>
      let s1 := { s with flights := rest }
      let ch := s1.chan c
      if (s1.physOf (s1.bind c 0 4) (s1.bind c 4 3)).isNone then s1
      else if f.lost then (s1.setChan c { ch with rx := none, poison := true }).clearWaits
      else if ch.rx.isSome || ch.poison then
        let s2 := (s1.setChan c { ch with rx := none, poison := true }).setB (aCulm 0x10) 1
        (if s2.bit (aCulm 0x18) 31 then s2 else s2.wr (aCulm 0x18) (BitVec.ofNat 32 (c + 2 ^ 31))).clearWaits
      else ((s1.setChan c { ch with rx := some f.word }).post rkOther none 8 c).clearWaits

/-- WORD_DELIVERY (R158). -/
def execWordDelivery (c : Fin 1024) (s : State) : Host.Outcome State Fault Refusal := .next (s.deliver c.val)

/-- Empty the receive buffer of channel `c` and clear its poison (R161); no effect on a channel the image does not allocate. -/
def State.rxDiscard (s : State) (c : Nat) : State :=
  if s.routed c then s.setChan c { s.chan c with rx := none, poison := false } else s

/-- RX_DISCARD (R161). -/
def execRxDiscard (c : Fin 1024) (s : State) : Host.Outcome State Fault Refusal := .next (s.mgmtDo (aCulm 0x20) (some (BitVec.ofNat 32 (c.val + 2 ^ 31))) fun s => s.rxDiscard c.val)

/-- Every VOID and RXWAIT counter reads zero. -/
def State.culmClear (s : State) : State :=
  { s with regs := s.regs.filter fun p => !(aCulm 0x4000 ≤ p.1 && p.1 < aCulm 0x5000 || aCulm 0x6000 ≤ p.1 && p.1 < aCulm 0x7000) }

/-- CULM_CNT_CLEAR. -/
def execCulmCntClear (s : State) : Host.Outcome State Fault Refusal := .next (s.mgmtDo (aCulm 0x24) (some (1)) fun s => s.culmClear)

/-- A read of FRAME_LO (R165). -/
def State.frameLoRead (s : State) : State :=
  { s.wr (aCulm 4) (BitVec.ofNat 32 (s.frames / 2 ^ 32)) with busOut := BitVec.ofNat 32 s.frames }

/-- CULM_FRAME_LO (R165). -/
def execCulmFrameLo (s : State) : Host.Outcome State Fault Refusal := .next (s.mgmtDo (aCulm 0) (none) fun s => s.frameLoRead)

end Sys2Proof.Machine
end

