-- ==== Sys2Proof/Machine/Granary.lean ====
section
/-!
DEFINITION. The commands of the Granary: events, time, rounds, placement, paging and task operations (chapter 6).
-/

namespace Sys2Proof.Machine

/- Events ----------------------------------------------------------------------------------------- -/

/-- The lowest rank among the events (R193). -/
def leastRank : List EvReq → Option Nat
  | [] => none
  | e :: l => some (match leastRank l with
    | some r => min e.rank r
    | none => e.rank)

/-- The first event of a rank, and the others. -/
def takeEv (r : Nat) : List EvReq → Option (EvReq × List EvReq)
  | [] => none
  | e :: l => if e.rank = r then some (e, l) else (takeEv r l).map fun p => (p.1, e :: p.2)

/-- The next event that the Granary takes, and the others: the order of the sources (R193). -/
def nextEv (l : List EvReq) : Option (EvReq × List EvReq) :=
  match leastRank l with
  | none => none
  | some r => takeEv r l

/-- A free intake position: the Granary takes at most 4 events in a cycle (R193). -/
def State.intakeFree (s : State) : Bool := decide ((busyPorts s.eclk s.intake).length < 4)

/-- An event occupies an intake position for `n` cycles. -/
def State.intakeUse (s : State) (n : Nat) : State := { s with intake := busyPorts s.eclk s.intake ++ [s.eclk + n] }

/-- An event reaches its tasks (R188 to R190). -/
def State.process (s : State) (e : EvReq) : State :=
  match e.task with
  | some id => s.directed id e.cls
  | none => s.broadcast e.cls e.obj

/-- The tasks that a broadcast event wakes: the sleepers it reaches that are not being paged (R189, R190, R195). -/
def State.wokenBy (s : State) (e : EvReq) : Nat :=
  match e.task with
  | some _ => 0
  | none => ((s.sleepersOn e.cls e.obj).filter fun id => !(s.task id).paging).length

/-- The event that is next in the order of R193, if it has the form `dir`, is taken into a free intake position, which a
broadcast event occupies for one cycle more for each task it wakes. -/
def State.takeEvent (s : State) (dir : Bool) : State :=
  match nextEv s.evq with
  | some (e, l) =>
    if e.task.isSome = dir ∧ s.intakeFree = true then ({ s with evq := l }.intakeUse (1 + s.wokenBy e)).process e else s
  | none => s

/-- Take the next event, if it is directed (R188, R190). -/
def State.takeDirected (s : State) : State := s.takeEvent true

/-- Take the next event, if it is a broadcast (R189, R190). -/
def State.takeBroadcast (s : State) : State := s.takeEvent false

/-- The next event, whatever its form and whatever positions are occupied, is taken: as often as cycles pass. -/
def State.takeAny (s : State) : State :=
  match nextEv s.evq with
  | some (e, l) => { s with evq := l }.process e
  | none => s

/-- DIRECTED_EVENT (R188). -/
def execDirectedEvent (s : State) : Host.Outcome State Fault Refusal := .next (s.awakeDo fun s => s.takeDirected)

/-- BROADCAST_EVENT (R189). -/
def execBroadcastEvent (s : State) : Host.Outcome State Fault Refusal := .next (s.awakeDo fun s => s.takeBroadcast)

/- Time, ageing and urgency --------------------------------------------------------------------------- -/

/-- The EPRIO of a waiting task (R196). -/
def State.ageOf (s : State) (t : TaskRec) : Nat :=
  if t.urgent || t.prio == 7 then 7
  else
    let tick := s.rf (aGrn 4) 0 20
    if tick = 0 then t.prio else min 6 (t.prio + s.waitOf t / tick)

/-- A READY task that is not resident at an advance of GRN.TIME: its STAMP is held and its EPRIO ages (R185, R196). -/
def State.ageTask (s : State) (t : TaskRec) : TaskRec :=
  if t.outside then
    let t1 := if 2 ^ 23 < s.waitOf t then { t with stamp := t.stamp + 1 } else t
    { t1 with eprio := s.ageOf t1 }
  else t

/-- GRN.TIME advances by one (R185). -/
def State.grnTick (s : State) : State :=
  if s.culmStart.isNone || s.stopped then s
  else
    let s1 := s.wr (aGrn 0x14) (BitVec.ofNat 32 ((s.grnTime + 1).toNat))
    s1.tasks.foldl (fun s p => s.setTask p.1 (s.ageTask p.2)) s1

/-- GRN_TIME_ADVANCE (R185). -/
def execGrnTimeAdvance (s : State) : Host.Outcome State Fault Refusal := .next (s.awakeDo fun s => s.grnTick)

/-- A READY task that is not resident, and whose wait has reached WAIT_BOUND, becomes urgent (R196); one that is granted already
is not judged by R199. -/
def State.makeUrgent (s : State) (id : Nat) : State :=
  let t := s.task id
  let bound := s.rf (aGrn 8) 0 20
  if t.outside && !t.urgent && bound != 0 && decide (bound ≤ s.waitOf t) then
    (s.setTask id { t with urgent := true, eprio := 7, urg := if t.paging then .idle else .due }).bump
      (aGrn (if t.prio = 7 then 0x54 else 0x20 + 4 * t.prio)) 1
  else s

/-- TASK_URGENT (R196). -/
def execTaskUrgent (t : Fin 40960) (s : State) : Host.Outcome State Fault Refusal := .next (s.awakeDo fun s => s.makeUrgent t.val)

/-- The quantum of a resident READY task expires, counted from its first FETCH (R200). -/
def State.expire (s : State) (id : Nat) : State :=
  let t := s.task id
  if t.state == .ready && t.inSlot && t.ran && decide (t.quantum + 1 ≤ (s.grnTime - t.runTime).toNat)
  then s.setTask id { t with expired := true } else s

/-- QUANTUM_EXPIRY (R200). -/
def execQuantumExpiry (t : Fin 40960) (s : State) : Host.Outcome State Fault Refusal := .next (s.awakeDo fun s => s.expire t.val)

/- Rounds ----------------------------------------------------------------------------------------- -/

/-- The urgent waiting tasks that precede task `id` (R198, R199). -/
def State.urgentAhead (s : State) (id : Nat) : Nat :=
  (s.tasks.filter fun p => p.2.waiting && p.2.urgent && p.1 != id && s.prefers p.1 id).length

/-- Unpinned mapped thread slots of a Sheaf on engines neither braced nor locked (R199). -/
def State.openSlots (s : State) (sh : Nat) : Nat :=
  ((List.range 8).map fun p =>
    match s.physOf sh p with
    | none => 0
    | some k =>
      if s.mapped (9 * sh + k) && !s.inBrace (9 * sh + k) && !s.locked (9 * sh + k)
      then ((List.range 8).filter fun j => s.slotUnpinned sh p j).length else 0).foldl (· + ·) 0

/-- Both conditions of R199 hold for task `id` at the start of a round. -/
def State.urgentOwed (s : State) (id : Nat) : Bool :=
  let t := s.task id
  let ahead := s.urgentAhead id
  4 * ahead < max 64 (s.rf (aGrn 0xC) 0 12)
    && ahead < (((List.range 12).filter fun sh => t.affinity.getLsbD sh).map s.openSlots).foldl (· + ·) 0

/-- The judgement of an urgent waiting task at a round boundary (R199). -/
def State.judgeUrgent (s : State) (id : Nat) : State :=
  let t := s.task id
  match t.urg with
  | .due => s.setTask id { t with urg := if s.urgentOwed id then .held else .closed }
  | .held => ((s.setTask id { t with urg := .closed }).bump (aGrn 0x3C) 1).setB (aGrn 0x18) 3
  | _ => s

/-- At the boundary a mapped candidate's residents that can be saved start their page-out (R477). -/
def State.evacuate (s : State) (i : Nat) : State :=
  let t := s.th i
  let e := engOf i
  if decide (t.phase = .run) && (s.posOf (e / 9) (e % 9)).isSome && s.bit (aShf (e / 9) 4) (16 + e % 9) && s.savable i
    && (s.task t.task).state != .ended
  then
    let s1 := if (s.task t.task).state = .ready then s.endResidency t.task else s
    s1.modTh i fun t => { t with phase := .quiesce none }
  else s

/-- A scheduling round begins (R199, R204, R477). -/
def State.roundBegin (s : State) : State :=
  if s.culmStart.isNone || s.stopped then s
  else
    let us := (s.tasks.filter fun p => p.2.urgent && p.2.waiting).map (·.1)
    let s1 := us.foldl State.judgeUrgent s
    let s2 := (s1.ths.map (·.1)).foldl State.evacuate s1
    { s2 with roundStart := true }

/-- ROUND_BOUNDARY (R204). -/
def execRoundBoundary (s : State) : Host.Outcome State Fault Refusal := .next (s.awakeDo fun s => s.roundBegin)

/-- GRANT (R202, R204): the scheduler considers one mapped position. -/
def execGrant (sh : Fin 12) (pos : Fin 8) (s : State) : Host.Outcome State Fault Refusal :=
  .next (s.awakeDo fun s => s.schedule sh.val pos.val)

/- Paging ----------------------------------------------------------------------------------------- -/

/-- QUIESCE_COMPLETE (R203). -/
def execQuiesceComplete (t : Th) (s : State) : Host.Outcome State Fault Refusal := .next (s.awakeDo fun s => s.quiesceDone (thIx t))

/-- PAGE_IN_COMPLETE (R207, R209). -/
def execPageInComplete (t : Th) (s : State) : Host.Outcome State Fault Refusal := .next (s.awakeDo fun s => s.pageInDone (thIx t))

/-- PAGE_OUT_COMPLETE (R208). -/
def execPageOutComplete (t : Th) (s : State) : Host.Outcome State Fault Refusal := .next (s.awakeDo fun s => s.pageOutDone (thIx t))

/-- SLOT_EMPTIES (R210). -/
def execSlotEmpties (t : Th) (s : State) : Host.Outcome State Fault Refusal := .next (s.awakeDo fun s => s.emptySlot (thIx t))

/- Task operations ---------------------------------------------------------------------------------- -/

/-- The operation at the head of the queue, if one may be performed in this ECLK cycle: one a cycle (R212; log entry 140). -/
def State.opNext (s : State) : Option TaskOp := if s.opFree ≤ s.eclk then s.taskOps.head? else none

/-- The next operation, if it is `op` and is not refused (R212). -/
def State.headOp (s : State) (op : Nat) : Option TaskOp :=
  s.opNext.filter fun o => o.op == op && !s.opRefused o

/-- KILL at the head of the queue (R210, R212). -/
def State.opKill (s : State) : State :=
  match s.headOp 1 with
  | some o => (s.killTask o.task).opDone false
  | none => s

/-- RAISE at the head of the queue (R187, R212). -/
def State.opRaise (s : State) : State :=
  match s.headOp 2 with
  | some o => (s.post rkRaise (some o.task) (field o.arg 0 5) 0).opDone false
  | none => s

/-- SET_PRIO at the head of the queue (R213). -/
def State.opSetPrio (s : State) : State :=
  match s.headOp 3 with
  | some o =>
    let t := s.task o.task
    let p := field o.arg 0 3
    (s.setTask o.task { t with prio := p, eprio := if t.urgent || t.inSlot then t.eprio else p }).opDone false
  | none => s

/-- SET_AFFINITY at the head of the queue (R213). -/
def State.opSetAffinity (s : State) : State :=
  match s.headOp 4 with
  | some o => (s.setTask o.task { s.task o.task with affinity := BitVec.ofNat 12 (field o.arg 0 12) }).opDone false
  | none => s

/-- READ at the head of the queue (R213). -/
def State.opRead (s : State) : State :=
  match s.headOp 5 with
  | some o => ((s.wrWords (aGrn 0x70) (recWords (s.task o.task))).setB (aGrn 0x68) 9).opDone false
  | none => s

/-- A refused operation at the head of the queue changes nothing but LAST_REFUSED; a RAISE of class 31 also sets
SIGNAL_31 (R187, R212). -/
def State.opRefuse (s : State) : State :=
  match s.opNext with
  | some o =>
    if s.opRefused o then
      (if o.op = 2 && field o.arg 0 5 = 31 then s.setB (aGrn 0x18) 1 else s).opDone true
    else s
  | none => s

/-- CNT_CLEAR: the counters from 0x020 to 0x04C and URGENT[7]. -/
def State.grnClear (s : State) : State :=
  { s with regs := s.regs.filter fun p => !(aGrn 0x20 ≤ p.1 && p.1 ≤ aGrn 0x4C || p.1 == aGrn 0x54) }

/-- GRN_CNT_CLEAR. -/
def execGrnCntClear (s : State) : Host.Outcome State Fault Refusal := .next (s.mgmtDo (aGrn 0x50) (some (1)) fun s => s.grnClear)

end Sys2Proof.Machine
end

