-- ==== Sys2Proof/Machine/Site.lean ====
section
/-!
DEFINITION. The site table (R16 to R21): lane masks, states, SAW bits, results.
-/

namespace Sys2Proof.Machine

/-- The lane mask of site `i` (R16). -/
def State.siteLanes (s : State) (i : Nat) : Nat := (s.rd (aSite i 0)).toNat + (s.rd (aSite i 4)).toNat * 2 ^ 32

/-- STATUS.STATE of site `i`: 0 idle, 1 armed, 2 running, 3 done. -/
def State.siteState (s : State) (i : Nat) : Nat := s.rf (aSite i 0x14) 0 3

/-- STATUS.FINAL of site `i`. -/
def State.siteFinal (s : State) (i : Nat) : Bool := s.bit (aSite i 0x14) 3

/-- REGION_BASE and REGION_COUNT of site `i`. -/
def State.siteRegions (s : State) (i : Nat) : Nat × Nat := (s.rf (aSite i 0xC) 0 14, s.rf (aSite i 0xC) 16 15)

/-- Two lane masks share a lane. -/
def meets (a b : Nat) : Bool := Nat.land a b != 0

/-- The sites between arm and FINAL whose lane mask meets `mask` get STATUS bit `k` (R16, R21). -/
def State.saw (s : State) (mask k : Nat) : State :=
  ((List.range 256).filter fun i => s.siteState i != 0 && !s.siteFinal i && meets (s.siteLanes i) mask).foldl
    (fun t i => t.setB (aSite i 0x14) k) s

/-- Armed or running sites whose lane mask meets `mask` get STATUS bit `k` (R237, R282). -/
def State.sawActive (s : State) (mask k : Nat) (en : Nat → Bool) : State :=
  ((List.range 256).filter fun i => (s.siteState i == 1 || s.siteState i == 2) && meets (s.siteLanes i) mask && en i).foldl
    (fun t i => t.setB (aSite i 0x14) k) s

/-- SAW_INCOMPLETE of every site between arm and FINAL that lists global region `g` (R304). -/
def State.sawRegion (s : State) (g : Nat) : State :=
  ((List.range 256).filter fun i =>
    s.siteState i != 0 && !s.siteFinal i && decide ((s.siteRegions i).1 ≤ g)
      && decide (g < (s.siteRegions i).1 + (s.siteRegions i).2)).foldl
    (fun t i => t.setB (aSite i 0x14) 9) s

/-- The result of a site from its SAW bits (R20). -/
def siteResult (v : W32) : Nat := if v.getLsbD 10 then 3 else if v.getLsbD 9 then 2 else if v.getLsbD 8 then 1 else 0

/-- Insert a number in ascending order, once. -/
def insNat (a : Nat) : List Nat → List Nat
  | [] => [a]
  | b :: l => if a < b then a :: b :: l else if a = b then b :: l else b :: insNat a l

/-- Site `i` reaches FINAL and its RESULT is formed (R17, R20); an enabled site is to be reported (R413). -/
def State.makeFinal (s : State) (i : Nat) : State :=
  let v := s.rd (aSite i 0x14)
  let s1 := (s.wf (aSite i 0x14) 4 2 (siteResult v)).setB (aSite i 0x14) 3
  if s.bit (aSite i 0x10) 0 then { s1 with unreported := insNat i s1.unreported } else s1

/-- Thresher `n` holds a region of site `i`. -/
def State.siteUses (s : State) (i n : Nat) : Bool :=
  let r := s.siteRegions i
  decide (0 < r.2) && decide (r.1 < 4096 * (n + 1)) && decide (4096 * n < r.1 + r.2)

/-- Pin group `g` holds a lane of site `i`. -/
def State.siteHasPg (s : State) (i g : Nat) : Bool := s.siteLanes i / 2 ^ (8 * g) % 256 != 0

/-- The regions of site `i` in Thresher `n`, ascending, by global number. -/
def State.siteRegionsIn (s : State) (i n : Nat) : List Nat :=
  let r := s.siteRegions i
  ((List.range 4096).map fun k => 4096 * n + k).filter fun g => decide (r.1 ≤ g) && decide (g < r.1 + r.2)

end Sys2Proof.Machine
end

