-- ==== Sys2Proof/Machine/Thresher.lean ====
section
/-!
DEFINITION. The Threshers: intake, repair regions, must-repair analysis, notices, bitmaps, close marks and assist
operations (chapter 9, R299 to R324).
-/

namespace Sys2Proof.Machine

/-- A field of a 128-bit word. -/
def fld (d : W128) (lo w : Nat) : Nat := d.toNat / 2 ^ lo % 2 ^ w

/-- The Thresher of a global region number. -/
def thrOf (g : Nat) : Nat := g / 4096

/- Notices ---------------------------------------------------------------------------------------- -/

/-- Notice reason `k` of region `g` occurs; a bit that rises with its EVENTS bit raises REGION (R313). -/
def State.notice (s : State) (g k : Nat) : State :=
  let r := s.region g
  if r.notice.getLsbD k then s
  else
    let s1 := s.setRegion g { r with notice := r.notice ||| (1 <<< k) }
    let d := s.rdescOf g
    if d.getLsbD (96 + k) then s1.post (rkThr (thrOf g)) (some (fld d 48 16)) 4 g else s1

/-- Region `g` is INCOMPLETE (R304): one that was not becomes so, which is a notice (R313). -/
def State.incomplete (s : State) (g : Nat) : State :=
  (if (s.region g).inc then s else (s.setRegion g { s.region g with inc := true }).notice g 2).sawRegion g

/-- An OPEN region closes (R309, R313). -/
def State.closeRegion (s : State) (g : Nat) : State :=
  let r := s.region g
  if r.st = .isOpen then
    let s1 := s.setRegion g { r with st := .closed }
    if r.unrep then s1 else s1.notice g (if r.cells.isEmpty then 4 else 3)
  else s

/-- A region as its reset leaves it (R308). -/
def freshRegion (d : W128) : Region_ :=
  { Region_.init with st := .isOpen, rows := fld d 32 6, cols := fld d 40 6 }

/- Must-repair analysis (R310 to R312) --------------------------------------------------------------- -/

/-- An assigned line covers the cell. -/
def covers (lines : List LineRec) (c : Nat × Nat) : Bool :=
  lines.any fun l => if l.col then l.index == c.2 else l.index == c.1

/-- Insert a cell in order of row and column. -/
def insCell (c : Nat × Nat) : List (Nat × Nat) → List (Nat × Nat)
  | [] => [c]
  | d :: l => if c.1 < d.1 || (c.1 == d.1 && c.2 < d.2) then c :: d :: l else d :: insCell c l

/-- The rows or columns that hold cells, ascending. -/
def linesOf (col : Bool) (cells : List (Nat × Nat)) : List Nat :=
  cells.foldl (fun acc c => insNat (if col then c.2 else c.1) acc) []

/-- The number of cells on a line: the count of a fail-line table entry. -/
def lineCount (col : Bool) (i : Nat) (cells : List (Nat × Nat)) : Nat :=
  (cells.filter fun c => (if col then c.2 else c.1) == i).length

/-- Assign a line, using a spare and freeing the cells it covers if it is final. -/
def assignLine (r : Region_) (col : Bool) (i : Nat) (tag : LineTag) : Region_ :=
  { r with
    lines := r.lines ++ [LineRec.mk col i tag]
    rows := if col then r.rows else r.rows - 1
    cols := if col then r.cols - 1 else r.cols
    cells := if tag = .tent then r.cells else r.cells.filter fun c => (if col then c.2 else c.1) != i }

/-- Assign the must-repair lines of a list; stop at the first that finds no spare. -/
def settleLines (col : Bool) (r : Region_) : List Nat → Region_
  | [] => r
  | i :: l =>
    if (if col then r.cols else r.rows) = 0 then { r with unrep := true }
    else settleLines col (assignLine r col i .must) l

/-- The lines that the counts demand. -/
def demanded (col : Bool) (r : Region_) : List Nat :=
  (linesOf col r.cells).filter fun i => decide ((if col then r.rows else r.cols) < lineCount col i r.cells)

/-- Settle a region (R311); at most `SPARE_ROWS + SPARE_COLS` rounds assign a line. -/
def settle : Nat → Region_ → Region_
  | 0, r => r
  | n + 1, r =>
    let dr := demanded false r
    let r1 := settleLines false r dr
    if r1.unrep then r1
    else
      let dc := demanded true r1
      let r2 := settleLines true r1 dc
      if r2.unrep then r2 else if dr.isEmpty && dc.isEmpty then r2 else settle n r2

/-- Fail-line table entries of Thresher `n` in use (R310). -/
def State.tableUse (s : State) (n : Nat) : Nat :=
  ((s.regions.filter fun p => thrOf p.1 == n).map fun p =>
    (linesOf false p.2.cells).length + (linesOf true p.2.cells).length).foldl (· + ·) 0

/-- Sparse cells of Thresher `n` in use (R310). -/
def State.sparseUse (s : State) (n : Nat) : Nat :=
  ((s.regions.filter fun p => thrOf p.1 == n).map fun p => p.2.cells.length).foldl (· + ·) 0

/-- A cell of an OPEN region (R311). -/
def State.openCell (s : State) (g x y : Nat) : State :=
  let n := thrOf g
  let r := s.region g
  let s0 := s.bump (aThr n 0x14) 1
  if r.unrep || covers r.lines (x, y) || r.cells.contains (x, y) then s0
  else
    let need := (lineCount false x r.cells == 0).toNat + (lineCount true y r.cells == 0).toNat
    let tFull := decide (65536 < s.tableUse n + need)
    let sFull := decide (131072 < s.sparseUse n + 1)
    if tFull || sFull then
      let s1 := if tFull then s0.setB (aThr n 4) 1 else s0
      (if sFull then s1.setB (aThr n 4) 2 else s1).incomplete g
    else
      let r1 := settle 66 { r with cells := insCell (x, y) r.cells, entered := r.entered + 1 }
      let s1 := s0.setRegion g r1
      let s2 := if r.lines.length < r1.lines.length then s1.notice g 0 else s1
      if r1.unrep then s2.notice g 1 else s2

/-- A cell for a CLOSED region comes late (R304). -/
def State.lateCell (s : State) (g : Nat) : State :=
  ((s.setRegion g { s.region g with late := true }).setB (aThr (thrOf g) 4) 4).incomplete g

/-- A failing cell is written to the bitmap queue of a region with BITMAP 1 (R315, R317). -/
def State.bitmapCell (s : State) (g x y : Nat) : State :=
  let n := thrOf g
  if (s.rdescOf g).getLsbD 88 then
    let t := s.thrs n
    if t.bmq.length < 256 then s.setThr n { t with bmq := t.bmq ++ [(g, x, y)] }
    else (s.setRegion g { s.region g with binc := true }).setB (aThr n 4) 6
  else s

/-- A Thresher applies one cell (R304, R311, R315). -/
def State.applyCell (s : State) (c : Nat × Nat × Nat) : State :=
  let s1 := s.bitmapCell c.1 c.2.1 c.2.2
  match (s1.region c.1).st with
  | .isOpen => s1.openCell c.1 c.2.1 c.2.2
  | .closed => s1.lateCell c.1
  | .idle => s1

/- Intake (R300, R303, R305, R306, R309) ---------------------------------------------------------------- -/

/-- The next intake item and the queue it stands in (R300). -/
def ThrSt.nextItem (t : ThrSt) : Option (Bool × Intake) :=
  match t.q0, t.q1 with
  | [], [] => none
  | a :: _, [] => some (false, a)
  | [], b :: _ => some (true, b)
  | a :: _, b :: _ => if t.last then some (false, a) else some (true, b)

/-- The item at the front of queue `q` is taken; it occupies `k` intake times. -/
def ThrSt.taken (t : ThrSt) (q : Bool) (k : Nat) : ThrSt :=
  let u := { t with times := t.times + k }
  if q then { u with q1 := t.q1.drop 1, last := true } else { u with q0 := t.q0.drop 1, last := false }

/-- An assist entry waits that the Thresher can take (R319). -/
def ThrSt.wantsAssist (t : ThrSt) : Bool := !t.assist.isEmpty && decide (t.out.length < 64)

/-- It is the turn of an assist entry: no intake item waits, or 64 intake times have passed since the last assist operation
(R314). -/
def ThrSt.assistTurn (t : ThrSt) : Bool := (t.q0.isEmpty && t.q1.isEmpty) || decide (64 ≤ t.times)

/-- The next intake item of Thresher `n` and its queue, unless an assist operation is in progress or has its turn (R300, R314). -/
def State.intakeItem (s : State) (n : Nat) : Option (Bool × Intake) :=
  let t := s.thrs n
  if (s.xferOf (.assist n)).isSome || t.job.isSome || (t.wantsAssist && t.assistTurn) then none else t.nextItem

/-- The region that lane map `i` of Thresher `n` selects, by global number; none where it maps to none (R305). -/
def State.mapRegion (s : State) (n i : Nat) (tag : W64) : Option Nat :=
  let a := aThr n (0x40 + 4 * i)
  if s.bit a 31 then
    let src := if s.bit a 24 then tag.toNat / 2 ^ 32 else tag.toNat % 2 ^ 32
    let r := s.rf a 0 12 + src / 2 ^ s.rf a 16 5 % 2 ^ min 12 (s.rf a 25 4)
    if r < 4096 then some (4096 * n + r) else none
  else none

/-- The cell of UI `u` in region `g` (R306). -/
def State.cellOf (s : State) (g u p : Nat) (tag : W64) : Nat × Nat :=
  let d := s.rdescOf g
  let b := u / 2 ^ p
  let m := if d.getLsbD 86 then s.rf (aThr (thrOf g) (0x80 + 32 * fld d 84 2 + b / 4 * 4)) (8 * (b % 4)) 5 else b
  let half := fun (hi : Bool) => if hi then tag.toNat / 2 ^ 32 else tag.toNat % 2 ^ 32
  let x := half (d.getLsbD 64) / 2 ^ fld d 65 5 % (fld d 0 16 + 1)
  let step : Int := (BitVec.ofNat 8 (fld d 76 8)).toInt
  let y := ((half (d.getLsbD 70) / 2 ^ fld d 71 5 : Nat) + (m : Int) * step) % ((fld d 16 16 + 1 : Nat) : Int)
  (x, y.toNat)

/-- Failing UIs of a mask. -/
def uisOf (m : W32) : List Nat := (List.range 32).filter fun u => m.getLsbD u

/-- A fail resolves into a region that takes it (R305). -/
def State.mapped? (s : State) (g : Option Nat) : Option Nat :=
  g.filter fun g => (s.rdescOf g).getLsbD 47 && decide ((s.region g).st ≠ .idle)

/-- Insert a cell of a region in ascending order of region, row and column, once. -/
def insRcell (c : Nat × Nat × Nat) : List (Nat × Nat × Nat) → List (Nat × Nat × Nat)
  | [] => [c]
  | d :: l =>
    if c = d then d :: l
    else if c.1 < d.1 || (c.1 == d.1 && (c.2.1 < d.2.1 || (c.2.1 == d.2.1 && c.2.2 < d.2.2))) then c :: d :: l
    else d :: insRcell c l

/-- The distinct cells of a record, in the order they apply, and its unmapped UIs (R305, R306). -/
def State.recordCells (s : State) (n : Nat) (r : FailRec) : List (Nat × Nat × Nat) × Nat :=
  r.mask.foldl (fun acc p =>
    match s.mapped? (s.mapRegion n (8 * (r.pg % 2) + p.1) r.tag) with
    | none => (acc.1, acc.2 + (uisOf p.2).length)
    | some g => ((uisOf p.2).foldl (fun l u => insRcell (g, s.cellOf g u r.p r.tag) l) acc.1, acc.2)) ([], 0)

/-- A Thresher takes a fail record (R305, R306). -/
def State.takeRecord (s : State) (n : Nat) : State :=
  match s.intakeItem n with
  | some (q, .fail r) =>
    let c := if r.tagv then s.recordCells n r else ([], 0)
    let s1 := (s.setThr n ((s.thrs n).taken q (max 1 ((c.1.length + 63) / 64)))).bump (aThr n 0x10) 1
    if !r.tagv then s1.bump (aThr n 0x24) 1
    else
      let s2 := if 0 < c.2 then (s1.bump (aThr n 0x20) c.2).setB (aThr n 4) 3 else s1
      c.1.foldl State.applyCell s2
  | _ => s

/-- RECORD_INTAKE (R306). -/
def execRecordIntake (n : Fin 4) (s : State) : Host.Outcome State Fault Refusal := .next (s.awakeDo fun s => s.takeRecord n.val)

/-- An overflow summary covers region `g` (R303, R317). -/
def State.coverRegion (s : State) (g : Nat) : State :=
  let r := s.region g
  if r.st = .idle then s else (s.setRegion g { r with binc := true }).incomplete g

/-- A Thresher takes an overflow summary (R303). -/
def State.takeSummary (s : State) (n : Nat) : State :=
  match s.intakeItem n with
  | some (q, .summary _ e) =>
    let s1 := (((s.setThr n ((s.thrs n).taken q 1)).bump (aThr n 0x18) e.records).bump (aThr n 0x1C) e.ui).setB
      (aThr n 4) 0
    (e.ranges.flatMap fun r => (List.range (r.2.2 + 1 - r.2.1)).map fun k => 4096 * n + r.2.1 + k).foldl
      State.coverRegion s1
  | _ => s

/-- SUMMARY_INTAKE (R303). -/
def execSummaryIntake (n : Fin 4) (s : State) : Host.Outcome State Fault Refusal := .next (s.awakeDo fun s => s.takeSummary n.val)

/-- Thresher `n` has taken every close mark of site `i`: its regions close, and the site is FINAL when no Thresher is
awaited (R309, R17). Where REGIONS was written since the site reached done, the spec does not say which range counts: the
range of now is closed, the Threshers awaited are those of then (DESIGN CHOICE, log entry 119). -/
def State.thrCloses (s : State) (n i : Nat) : State :=
  let s1 := (s.siteRegionsIn i n).foldl State.closeRegion s
  let st := s1.site i
  if st.awaits.contains n then
    let rest := st.awaits.filter (· != n)
    let s2 := s1.setSite i { st with awaits := rest }
    if rest.isEmpty && s2.siteState i == 3 then s2.makeFinal i else s2
  else s1

/-- A Thresher takes a close mark; it awaits those of its pin groups that queued one when the site reached done (R309). -/
def State.takeMark (s : State) (n : Nat) : State :=
  match s.intakeItem n with
  | some (q, .mark g i) =>
    let t := (s.thrs n).taken q 1
    let marks := (g, i) :: t.marks
    let need := [2 * n, 2 * n + 1].filter fun g => (s.site i).groups.contains g
    if need.all fun g => marks.contains (g, i) then
      (s.setThr n { t with marks := marks.filter fun m => m.2 != i }).thrCloses n i
    else s.setThr n { t with marks := marks }
  | _ => s

/-- A running site moves to done: its pin groups queue their close marks, and Threshers without one close at once
(R17, R309). -/
def State.siteToDone (s : State) (i : Nat) : State :=
  let s1 := s.wf (aSite i 0x14) 0 3 3
  let gs := (List.range 8).filter fun g => s.siteHasPg i g
  let s2 := gs.foldl (fun t g => t.setPg g { t.pgs g with marks := (t.pgs g).marks ++ [i] }) s1
  let ts := (List.range 4).filter fun n => s.siteUses i n
  let now := ts.filter fun n => !(s.siteHasPg i (2 * n) || s.siteHasPg i (2 * n + 1))
  let later := ts.filter fun n => s.siteHasPg i (2 * n) || s.siteHasPg i (2 * n + 1)
  let s3 := s2.setSite i ⟨none, later, gs⟩
  let s4 := now.foldl (fun t n => t.thrCloses n i) s3
  if later.isEmpty then s4.makeFinal i else s4

/- Free list and bitmaps (R315 to R317) ------------------------------------------------------------------ -/

/-- FL_PUSH (R316). -/
def execFlPush (n : Fin 4) (page : BitVec 19) (s : State) : Host.Outcome State Fault Refusal :=
  .next (s.mgmtDo (aThr n.val 0x118) (some (BitVec.ofNat 32 (page.toNat + 2 ^ 31))) fun s => s.flPush n.val [page.toNat])

/-- The DRAM address of bitmap page `k` (R315). -/
def pageAddr (k : Nat) : Nat := 0x1000000000 + 65536 * k

/-- Data pages per 256 rows of a region (R315). -/
def pagesAcross (d : W128) : Nat := (fld d 16 16 + 2048) / 2048

/-- The bitmap cannot be written: BITMAP_INCOMPLETE and sticky bit `k` (R317). -/
def State.bitmapFail (s : State) (g k : Nat) : State :=
  (s.setRegion g { s.region g with binc := true }).setB (aThr (thrOf g) 4) k

/-- The DRAM address of the byte of cell `(x, y)` in data page `k` (R315). -/
def cellAddr (k x y : Nat) : Nat := pageAddr k + x % 256 * 256 + y % 2048 / 8

/-- The place of cell `(x, y)` in the directory of region `g` (R315). -/
def State.dirIndex (s : State) (g x y : Nat) : Nat := x / 256 * pagesAcross (s.rdescOf g) + y / 2048

/-- The access of a step of a bitmap write of cell `(x, y)` of region `g`: address, length and the bytes written (R315, R316). -/
def State.walkAccess (s : State) (n g x y : Nat) (w : Walk) : Nat × Nat × Option (List Byte) :=
  let entry := pageAddr ((s.region g).dir.getD 0) + 4 * s.dirIndex g x y
  match w with
  | .take _ => (s.flAddr n (s.rf (aThr n 0x10C) 0 18), 4, none)
  | .zero _ k => (pageAddr k, 65536, some (List.replicate 65536 0))
  | .entry => (entry, 4, none)
  | .link k => (entry, 4, some (natLe 4 (k + 1)))
  | .cell k =>
    let a := cellAddr k x y
    (a, 1, some [s.dramSeen (a - 0x1000000000) ||| BitVec.ofNat 8 (2 ^ (y % 8))])

/-- The oldest bitmap write goes on with an access, which the Thresher's port splits at 256-byte boundaries (R355). -/
def State.walkTo (s : State) (n g x y : Nat) (w : Walk) : State :=
  let a := s.walkAccess n g x y w
  (s.setThr n { s.thrs n with walk := some w }).xferStart (.bitmap n) (14 + n) 0 256 false a.1 a.2.1 a.2.2

/-- The oldest bitmap write leaves the queue. -/
def State.walkEnd (s : State) (n : Nat) : State :=
  s.setThr n { s.thrs n with bmq := (s.thrs n).bmq.drop 1, walk := none }

/-- The oldest bitmap write needs a page: it takes one from the ring, or ends with BITMAP_FULL (R316, R317). -/
def State.walkTake (s : State) (n g x y : Nat) (dir : Bool) : State :=
  if s.rf (aThr n 0x114) 0 19 = 0 then (s.walkEnd n).bitmapFail g 5 else s.walkTo n g x y (.take dir)

/-- A page has left the ring of Thresher `n` (R316). -/
def State.flTaken (s : State) (n : Nat) : State :=
  (s.wr (aThr n 0x10C) (BitVec.ofNat 32 ((s.rf (aThr n 0x10C) 0 18 + 1) % s.flSize n))).wr (aThr n 0x114)
    (BitVec.ofNat 32 (s.rf (aThr n 0x114) 0 19 - 1))

/-- An access of the oldest bitmap write has been answered without an error; `got`: the bytes it read (R315, R316). -/
def State.walkNext (s : State) (n g x y : Nat) (w : Walk) (got : List Byte) : State :=
  match w with
  | .take d => (s.flTaken n).walkTo n g x y (.zero d (leNat got % 2 ^ 19))
  | .zero true k => (s.setRegion g { s.region g with dir := some k }).walkTo n g x y .entry
  | .zero false k => s.walkTo n g x y (.link k)
  | .entry => if leNat got = 0 then s.walkTake n g x y false else s.walkTo n g x y (.cell (leNat got - 1))
  | .link k => s.walkTo n g x y (.cell k)
  | .cell _ => s.walkEnd n

/-- The Thresher goes on with the oldest cell of its bitmap queue: it starts, or its last access has been answered (R315 to R317,
R355). -/
def State.bitmapStep (s : State) (n : Nat) : State :=
  match (s.thrs n).bmq with
  | [] => s
  | (g, x, y) :: _ =>
    match (s.thrs n).walk with
    | none => if (s.region g).dir.isSome then s.walkTo n g x y .entry else s.walkTake n g x y true
    | some w =>
      match s.xferOf (.bitmap n) with
      | none => s.walkTo n g x y w
      | some q =>
        if !q.over then s
        else if q.err.isSome then ((s.dropXfer (.bitmap n)).walkEnd n).bitmapFail g 7
        else (s.dropXfer (.bitmap n)).walkNext n g x y w q.got

/-- BITMAP_WRITE (R315). -/
def execBitmapWrite (n : Fin 4) (_ : Unit) (s : State) : Host.Outcome State Fault Refusal :=
  .next (s.awakeDo fun s => s.bitmapStep n.val)

/-- The page numbers in the bytes of a directory page, in ascending place; an entry of 0 names none (R315). -/
def dirPages : Nat → List Byte → List Nat
  | 0, _ => []
  | f + 1, l => if leNat (l.take 4) = 0 then dirPages f (l.drop 4) else (leNat (l.take 4) - 1) :: dirPages f (l.drop 4)

/-- Entries of the directory page of region `g`. -/
def State.dirSize (s : State) (g : Nat) : Nat := (fld (s.rdescOf g) 0 16 + 256) / 256 * pagesAcross (s.rdescOf g)

/-- The oldest bitmap write, under way, is one of region `g`. -/
def State.walksIn (s : State) (n g : Nat) : Bool := (s.thrs n).walk.isSome && (s.thrs n).bmq.head?.any fun c => c.1 == g

/-- The pages `l` of region `g` go back to the free list, and the region has none (R316). -/
def State.releasePages (s : State) (n g : Nat) (reset : Bool) (l : List Nat) : State :=
  let s1 := s.setRegion g { s.region g with dir := none }
  (s1.setThr n { s1.thrs n with job := some (reset, some l.length) }).flPush n l

/-- The release of the bitmap pages of region `g` goes on (R316): the Thresher reads the directory page, then writes the data pages in
ascending order and the directory page to its ring; the number of pages once all are there. A bitmap write of the region that is
under way ends first, and an entry that cannot be read names no page (DESIGN CHOICE, log 125). -/
def State.releaseStep (s : State) (n g : Nat) (reset : Bool) : State × Option Nat :=
  let t := s.thrs n
  match t.job with
  | some (_, some k) => if t.toFree.isEmpty then (s.setThr n { t with job := none }, some k) else (s, none)
  | _ =>
    match (s.region g).dir with
    | none => (s, some 0)
    | some d =>
      if s.walksIn n g then (s, none)
      else match (s.setThr n { t with job := some (reset, none) }).xfer (.release n) (14 + n) 0 256 false (pageAddr d)
          (4 * s.dirSize g) none with
        | (s1, none) => (s1, none)
        | (s1, some x) => (s1.releasePages n g reset (dirPages (s.dirSize g) x.got ++ [d]), none)

/-- The next waiting reset of Thresher `n` goes on: its pages are released, then the region is as its reset leaves it (R308). -/
def State.resetNext (s : State) (n : Nat) : State :=
  let t := s.thrs n
  if (s.xferOf (.assist n)).isSome || t.job.any (fun j => !j.1) then s
  else match t.resets with
  | [] => s
  | g :: rest =>
    match s.releaseStep n g true with
    | (s1, none) => s1
    | (s1, some _) => (s1.setThr n { s1.thrs n with resets := rest }).setRegion g (freshRegion (s.rdescOf g))

/- Assist operations (R318 to R324) ------------------------------------------------------------------------ -/

/-- An assist entry with no reserved bit set (R318). -/
def assistOk (e : W128) : Bool :=
  fld e 12 4 == 0 && fld e 17 15 == 0 && fld e 48 8 == 0 && fld e 112 12 == 0

/-- The assist entry at the head of queue `n`: one whose memory accesses are under way, or, if the output queue has room and intake
does not go first, the next to perform (R314, R319). -/
def State.assistHead (s : State) (n : Nat) : Option W128 :=
  let t := s.thrs n
  let mine := (s.xferOf (.assist n)).isSome || t.job.any fun j => !j.1
  if mine || (t.job.isNone && t.wantsAssist && t.assistTurn) then t.assist.head? else none

/-- The head entry, if it is a well-formed `op` (R318, R323). -/
def State.assistOp (s : State) (n op : Nat) : Option W128 :=
  (s.assistHead n).filter fun e => fld e 124 4 == op && assistOk e

/-- The entry leaves the assist queue and its reply enters the output queue (R319). -/
def State.reply (s : State) (n : Nat) (e : W128) (status value : Nat) : State :=
  let t := s.thrs n
  let w := fld e 124 4 + status % 16 * 2 ^ 4 + fld e 0 12 * 2 ^ 8 + t.seq.toNat * 2 ^ 20 + value % 2 ^ 39 * 2 ^ 24
  let s1 := (s.setThr n { t with assist := t.assist.drop 1, seq := t.seq + 1, times := 0,
                                 out := t.out ++ [BitVec.ofNat 64 w] }).bump (aThr n 0x28) 1
  let s2 := if t.out.isEmpty then s1.post (rkThr n) none 5 n else s1
  s2.clearWaits

/-- Uncovered sparse cells of a region. -/
def Region_.open_ (r : Region_) : List (Nat × Nat) := r.cells.filter fun c => !covers r.lines c

/-- The state word of a region (R321); `notice`: the notice bits before the operation. -/
def stateWord (r : Region_) (notice : BitVec 5) : Nat :=
  let st := match r.st with
    | .idle => 0
    | .isOpen => 1
    | .closed => 2
  r.open_.length % 2 ^ 18 + r.rows * 2 ^ 18 + r.cols * 2 ^ 24 + st * 2 ^ 30 + r.unrep.toNat * 2 ^ 32
    + r.inc.toNat * 2 ^ 33 + notice.toNat * 2 ^ 34

/-- The global region of an assist entry. -/
def assistRegion (n : Nat) (e : W128) : Nat := 4096 * n + fld e 0 12

/-- BAD_REGION and NOT_OWNER, in that order (R322, R323); 0: neither. -/
def State.assistCheck (s : State) (n : Nat) (e : W128) (owner : Bool) : Nat :=
  let g := assistRegion n e
  if !(s.rdescOf g).getLsbD 47 || decide ((s.region g).st = .idle) then 2
  else if owner && fld (s.rdescOf g) 48 16 != fld e 96 16 then 3 else 0

/-- The first nonzero status of a list; 0 when all hold. -/
def firstStatus : List Nat → Nat
  | [] => 0
  | a :: l => if a = 0 then firstStatus l else a

/-- QUERY (R322). -/
def State.assistQuery (s : State) (n : Nat) : State :=
  match s.assistOp n 1 with
  | none => s
  | some e =>
    let g := assistRegion n e
    let r := s.region g
    match s.assistCheck n e false with
    | 0 =>
      let s1 := if fld (s.rdescOf g) 48 16 = fld e 96 16 then s.setRegion g { r with notice := 0 } else s
      s1.reply n e 0 (stateWord r r.notice)
    | k => s.reply n e k 0

/-- SCAN (R322). -/
def State.assistScan (s : State) (n : Nat) : State :=
  match s.assistOp n 2 with
  | none => s
  | some e =>
    let hit := (List.range 4096).find? fun k =>
      decide (fld e 0 12 ≤ k) && (s.region (4096 * n + k)).notice != 0
        && fld (s.rdescOf (4096 * n + k)) 48 16 == fld e 96 16
    s.reply n e 0 (match hit with
      | some k => k + 2 ^ 12
      | none => 0)

/-- DEST lies with all its `len` bytes at the normal address of one bank or in DRAM (R322). -/
def destRange (dest len : Nat) : Bool :=
  match regionOf dest with
  | .bank _ o .normal => decide (o + len ≤ 0x400000)
  | .dram o => decide (o + len ≤ 0x800000000)
  | _ => false

/-- Thresher `n` owns the bank of DEST, if it names one (R322). -/
def State.destOwned (s : State) (n dest : Nat) : Bool :=
  match regionOf dest with
  | .bank b _ _ => s.owner b == 0x20 + n
  | _ => true

/-- What the DEST of an operation that writes `len` bytes reports before any byte is written (R322, R323): MEM_ERR for a range
outside the permitted targets, RANGE for one that is not 16-byte aligned. The bank itself refuses a Thresher that does not own
it (R330), unless nothing would be written. -/
def State.destStatus (s : State) (n dest len : Nat) : Nat :=
  if !destRange dest len then 0xA
  else if dest % 16 ≠ 0 ∨ len = 0 then if !s.destOwned n dest then 0xA else if dest % 16 ≠ 0 then 0xB else 0
  else 0

/-- The DEST of an assist entry. -/
def destOf (e : W128) : Nat := fld e 56 40

/-- An operation that writes `l` to DEST and then leaves the region as `f` says: one-beat writes, each issued once the one before
is acknowledged; an error response ends it with the bytes written before (R319, R322, R323, R330, R355). -/
def State.assistStore (s : State) (n : Nat) (e : W128) (l : List Byte) (value : Nat) (f : State → State) : State :=
  if l.isEmpty then (f s).reply n e 0 value
  else match s.xfer (.assist n) (14 + n) 0 32 false (destOf e) l.length (some l) with
    | (s1, none) => s1
    | (s1, some x) =>
      if x.err.isSome then (s1.setB (aThr n 4) 7).reply n e 0xA x.moved else (f s1).reply n e 0 value

/-- The status of an operation with memory writes, checked before they start. -/
def State.storeStatus (s : State) (n : Nat) (l : List Nat) : Nat :=
  if (s.xferOf (.assist n)).isSome then 0 else firstStatus l

/-- The bytes FETCH writes: each uncovered sparse cell, by row and column (R322). -/
def fetchBytes (r : Region_) : List Byte := r.open_.flatMap fun c => natLe 4 (c.1 + c.2 * 65536)

/-- FETCH (R322). -/
def State.assistFetch (s : State) (n : Nat) : State :=
  match s.assistOp n 3 with
  | none => s
  | some e =>
    let r := s.region (assistRegion n e)
    let l := fetchBytes r
    match s.storeStatus n [s.assistCheck n e true, s.destStatus n (destOf e) l.length] with
    | 0 => s.assistStore n e l r.open_.length id
    | k => (if k = 0xA then s.setB (aThr n 4) 7 else s).reply n e k 0

/-- The line an entry names is assigned (R323). -/
def assigned (r : Region_) (col : Bool) (i : Nat) : Bool := r.lines.any fun l => l.col == col && l.index == i

/-- TENTATIVE (R322). -/
def State.assistTentative (s : State) (n : Nat) : State :=
  match s.assistOp n 4 with
  | none => s
  | some e =>
    let g := assistRegion n e
    let r := s.region g
    let d := s.rdescOf g
    let col := e.getLsbD 16
    let i := fld e 32 16
    match firstStatus [s.assistCheck n e true, if r.st = .closed then 0 else 4,
        if (if col then r.cols else r.rows) = 0 then 5 else 0, if assigned r col i then 6 else 0,
        if r.unrep then 8 else 0, if (if col then fld d 16 16 else fld d 0 16) < i then 0xB else 0] with
    | 0 =>
      let r1 := assignLine r col i .tent
      (s.setRegion g r1).reply n e 0 (stateWord r1 r.notice)
    | k => s.reply n e k 0

/-- The lines without the most recent tentative one, and that line. -/
def popTent : List LineRec → Option (List LineRec × LineRec)
  | [] => none
  | l :: t => match popTent t with
    | some (t1, x) => some (l :: t1, x)
    | none => if l.tag = .tent then some (t, l) else none

/-- UNDO (R322). -/
def State.assistUndo (s : State) (n : Nat) : State :=
  match s.assistOp n 5 with
  | none => s
  | some e =>
    let g := assistRegion n e
    let r := s.region g
    match firstStatus [s.assistCheck n e true, if r.st = .closed then 0 else 4,
        if (popTent r.lines).isNone then 7 else 0, if r.unrep then 8 else 0], popTent r.lines with
    | 0, some (l, x) =>
      let r1 := { r with lines := l, rows := if x.col then r.rows else r.rows + 1,
                         cols := if x.col then r.cols + 1 else r.cols }
      (s.setRegion g r1).reply n e 0 (stateWord r1 r.notice)
    | k, _ => s.reply n e k 0

/-- COST (R322). -/
def State.assistCost (s : State) (n : Nat) : State :=
  match s.assistOp n 6 with
  | none => s
  | some e =>
    let r := s.region (assistRegion n e)
    match s.assistCheck n e false with
    | 0 => s.reply n e 0 (stateWord r r.notice)
    | k => s.reply n e k 0

/-- The LINE entries of one kind, in ascending index (R324). -/
def lineEntries (r : Region_) (col : Bool) : List Byte :=
  let idx := (r.lines.filter fun l => l.col == col).foldl (fun acc l => insNat l.index acc) []
  idx.flatMap fun i =>
    let must := r.lines.any fun l => l.col == col && l.index == i && decide (l.tag = .must)
    natLe 4 (i + col.toNat * 2 ^ 16 + must.toNat * 2 ^ 17)

/-- The repair record of region `g` (R324), padded to a multiple of 16 bytes. -/
def repairRecord (g : Nat) (r : Region_) : List Byte :=
  let used := fun (col : Bool) => (r.lines.filter fun l => l.col == col).length
  let l := natLe 2 g ++ natLe 1 (r.inc.toNat + 2 * r.binc.toNat) ++ natLe 1 0 ++ natLe 1 (used false)
    ++ natLe 1 (used true) ++ natLe 2 0 ++ natLe 4 r.entered ++ natLe 4 0
    ++ lineEntries r false ++ lineEntries r true
  l ++ List.replicate ((16 - l.length % 16) % 16) 0

/-- The region after COMMIT: tentative lines final, covered cells freed (R322). -/
def committed (r : Region_) : Region_ :=
  { r with
    lines := r.lines.map fun l => if l.tag = .tent then { l with tag := .final } else l
    cells := r.cells.filter fun c => !covers r.lines c }

/-- COMMIT (R322, R324). -/
def State.assistCommit (s : State) (n : Nat) : State :=
  match s.assistOp n 7 with
  | none => s
  | some e =>
    let g := assistRegion n e
    let r := s.region g
    let l := repairRecord g r
    match s.storeStatus n [s.assistCheck n e true, if r.st = .closed then 0 else 4, if r.unrep then 8 else 0,
        if r.open_.isEmpty then 0 else 9, s.destStatus n (destOf e) l.length] with
    | 0 => s.assistStore n e l l.length fun t => t.setRegion g (committed r)
    | k => (if k = 0xA then s.setB (aThr n 4) 7 else s).reply n e k 0

/-- CLOSE (R322). -/
def State.assistClose (s : State) (n : Nat) : State :=
  match s.assistOp n 8 with
  | none => s
  | some e =>
    let g := assistRegion n e
    let r := s.region g
    match firstStatus [s.assistCheck n e true, if r.st = .isOpen then 0 else 4] with
    | 0 =>
      let s1 := s.closeRegion g
      s1.reply n e 0 (stateWord (s1.region g) r.notice)
    | k => s.reply n e k 0

/-- RESET (R322). -/
def State.assistReset (s : State) (n : Nat) : State :=
  match s.assistOp n 9 with
  | none => s
  | some e =>
    let g := assistRegion n e
    match s.assistCheck n e true with
    | 0 => (s.setRegion g { freshRegion (s.rdescOf g) with dir := (s.region g).dir }).reply n e 0 0
    | k => s.reply n e k 0

/-- RELEASE (R322). -/
def State.assistRelease (s : State) (n : Nat) : State :=
  match s.assistOp n 10 with
  | none => s
  | some e =>
    let g := assistRegion n e
    match if (s.thrs n).job.isSome then 0 else s.assistCheck n e true with
    | 0 => match s.releaseStep n g false with
      | (s1, none) => s1
      | (s1, some k) => s1.reply n e 0 k
    | k => s.reply n e k 0

/-- BAD_OP (R323): an OP outside the table, or a reserved bit. -/
def State.assistBad (s : State) (n : Nat) : State :=
  match s.assistHead n with
  | none => s
  | some e =>
    let op := fld e 124 4
    if op = 0 || 10 < op || !assistOk e then s.reply n e 1 0 else s

/-- QUERY (R322). -/
def execQuery (n : Fin 4) (s : State) : Host.Outcome State Fault Refusal := .next (s.awakeDo fun s => s.assistQuery n.val)
/-- SCAN (R322). -/
def execScan (n : Fin 4) (s : State) : Host.Outcome State Fault Refusal := .next (s.awakeDo fun s => s.assistScan n.val)
/-- FETCH (R322). -/
def execFetch (n : Fin 4) (_ : Unit) (s : State) : Host.Outcome State Fault Refusal := .next (s.awakeDo fun s => s.assistFetch n.val)
/-- TENTATIVE (R322). -/
def execTentative (n : Fin 4) (s : State) : Host.Outcome State Fault Refusal := .next (s.awakeDo fun s => s.assistTentative n.val)
/-- UNDO (R322). -/
def execUndo (n : Fin 4) (s : State) : Host.Outcome State Fault Refusal := .next (s.awakeDo fun s => s.assistUndo n.val)
/-- COST (R322). -/
def execCost (n : Fin 4) (s : State) : Host.Outcome State Fault Refusal := .next (s.awakeDo fun s => s.assistCost n.val)
/-- COMMIT (R322). -/
def execCommit (n : Fin 4) (_ : Unit) (s : State) : Host.Outcome State Fault Refusal := .next (s.awakeDo fun s => s.assistCommit n.val)
/-- CLOSE (R322). -/
def execClose (n : Fin 4) (s : State) : Host.Outcome State Fault Refusal := .next (s.awakeDo fun s => s.assistClose n.val)
/-- RESET (R322). -/
def execReset (n : Fin 4) (s : State) : Host.Outcome State Fault Refusal := .next (s.awakeDo fun s => s.assistReset n.val)
/-- RELEASE (R322). -/
def execRelease (n : Fin 4) (s : State) : Host.Outcome State Fault Refusal := .next (s.awakeDo fun s => s.assistRelease n.val)
/-- BAD_OP (R323). -/
def execBadOp (n : Fin 4) (s : State) : Host.Outcome State Fault Refusal := .next (s.awakeDo fun s => s.assistBad n.val)

/-- CNT_CLEAR of a Thresher: 0x010 to 0x028. -/
def State.thrClear (s : State) (n : Nat) : State :=
  [0x10, 0x14, 0x18, 0x1C, 0x20, 0x24, 0x28].foldl (fun t o => t.wr (aThr n o) 0) s

/-- THR_CNT_CLEAR. -/
def execThrCntClear (n : Fin 4) (s : State) : Host.Outcome State Fault Refusal := .next (s.mgmtDo (aThr n.val 0x2C) (some (1)) fun s => s.thrClear n.val)

end Sys2Proof.Machine
end

