-- ==== Sys2Proof/Machine/Expander.lean ====
section
/-!
DEFINITION. The pattern expanders' frames: queue entries, address generators, data words, lane symbols, vector streams
(chapter 7, R214 to R252).
-/

namespace Sys2Proof.Machine

/- Lanes of an expander ------------------------------------------------------------------------------ -/

/-- Expander `n` owns lane `l` of its pin group (R214). -/
def State.owns (s : State) (n l : Nat) : Bool := s.bit (aPg (n / 2) 0) l == (n % 2 == 1)

/-- LANE_FN.KIND of lane `l` (R247). -/
def State.kind (s : State) (n l : Nat) : Nat := s.rf (aPx n (0x220 + 4 * l)) 0 3

/-- The lanes expander `n` owns: all, or those with KIND other than OFF. -/
def State.ownLanes (s : State) (n : Nat) (all : Bool) : List Nat :=
  (List.range 8).filter fun l => s.owns n l && (all || s.kind n l != 0)

/-- The site lane mask of lanes of pin group `g`. -/
def laneMask (g : Nat) (ls : List Nat) : Nat := (ls.map fun l => 2 ^ (8 * g + l)).foldl (· + ·) 0

/-- Lane `l` of pin group `g` is in PAM4 mode. -/
def State.pam4 (s : State) (g l : Nat) : Bool := s.bit (aLn (8 * g + l) 0) 0

/-- The pin group is locked (R263). -/
def State.pgLocked (s : State) (g : Nat) : Bool := s.bit (aSyn (0x18 + 0x10 * g)) 0

/-- STATUS.STATE of expander `n`: 0 IDLE, 1 ARMED, 2 STARTING, 3 BURST, 4 DISCARD. -/
def State.pxState (s : State) (n : Nat) : Nat := s.rf (aPx n 4) 0 3

/-- Set STATUS.STATE. -/
def State.setPxState (s : State) (n v : Nat) : State := s.wf (aPx n 4) 0 3 v

/-- CTRL.ARM. -/
def State.isArmed (s : State) (n : Nat) : Bool := s.bit (aPx n 0) 0

/-- The expander comes to rest: STARTING, with PREFILL_WAIT counting from zero, or ARMED if it is armed, else IDLE (R234). -/
def State.pxRest (s : State) (n : Nat) : State :=
  let v := if s.isArmed n then (if s.startReq then 2 else 1) else 0
  (if v = 2 ∧ s.pxState n ≠ 2 then s.wr (aPx n 0x2C) 0 else s).setPxState n v

/-- A field of timing set `k` of pin group `g` (R219). -/
def State.tsf (s : State) (g k lo w : Nat) : Nat := (s.tset g k).toNat / 2 ^ lo % 2 ^ w

/-- UI of a beat under timing set `k`: PERIOD (R215). -/
def State.period (s : State) (g k : Nat) : Nat := 2 ^ min 5 (s.tsf g k 0 3)

/- Queue entries (R226, R227) ------------------------------------------------------------------------- -/

/-- TYPE of an entry. -/
def entType (e : W128) : Nat := fld e 124 4

/-- A good BURST entry. -/
def burstOk (e : W128) : Bool :=
  entType e == 1 && fld e 12 2 != 3 && fld e 15 1 == 0 && fld e 25 71 == 0 && fld e 112 12 == 0

/-- The register an OPERAND target names; `some none`: target 0xFF writes nothing; `none`: another code (R227). -/
def opTarget (t : Nat) : Option (Option Nat) :=
  if t < 0x20 then some (some (0x80 + 4 * t))
  else if t = 0x20 then some (some 0x48)
  else if t = 0x21 then some (some 0x4C)
  else if 0x28 ≤ t ∧ t ≤ 0x2B then some (some (0x180 + 4 * (t - 0x28)))
  else if 0x30 ≤ t ∧ t ≤ 0x3F then some (some (0x140 + 4 * (t - 0x30)))
  else if t = 0x40 then some (some 0x20C)
  else if t = 0xFF then some none
  else none

/-- A good OPERAND entry. -/
def operandOk (e : W128) : Bool :=
  entType e == 2 && fld e 80 16 == 0 && fld e 112 12 == 0 && (opTarget (fld e 64 8)).isSome
    && (opTarget (fld e 72 8)).isSome

/-- A good VEC entry (R248). -/
def vecOk (e : W128) : Bool := entType e == 4 && fld e 81 7 == 0 && fld e 94 2 == 0 && fld e 112 12 == 0

/-- A good VLOOP entry. -/
def vloopOk (e : W128) : Bool :=
  entType e == 5 && fld e 24 72 == 0 && fld e 112 12 == 0 && fld e 16 8 != 0

/-- A good VEND entry. -/
def vendOk (e : W128) : Bool := entType e == 6 && fld e 0 96 == 0 && fld e 112 12 == 0

/-- 2^XBITS or 2^YBITS of expander `n` (R241). -/
def State.axMod (s : State) (n : Nat) (y : Bool) : Nat := 2 ^ (s.rf (aPx n (0x40 + 4 * y.toNat)) 0 5 + 1)

/-- The LFSR width w (R244). -/
def State.lfsrW (s : State) (n : Nat) : Nat := s.rf (aPx n 0x204) 0 5 + 1

/-- Write `v` to an OPERAND target (R227). -/
def State.putTarget (s : State) (n t v : Nat) : State :=
  match opTarget t with
  | some (some o) =>
    let x := if o = 0x48 then v % s.axMod n false else if o = 0x4C then v % s.axMod n true
      else if o = 0x20C then v % 2 ^ s.lfsrW n else v
    s.wr (aPx n o) (BitVec.ofNat 32 x)
  | _ => s

/-- Apply an OPERAND: VALUE0, then VALUE1 (R227). -/
def State.applyOperand (s : State) (n : Nat) (e : W128) : State :=
  (s.putTarget n (fld e 64 8) (fld e 0 32)).putTarget n (fld e 72 8) (fld e 32 32)

/- Address generators and data (R240 to R246) ----------------------------------------------------------- -/

/-- The generator state of an expander. -/
structure GenSt where
  x : Nat
  y : Nat
  lfsr : Nat
  crc : Nat
  dbi : Nat
deriving DecidableEq, Repr

/-- The generator state expander `n` holds. -/
def State.genOf (s : State) (n : Nat) : GenSt :=
  ⟨(s.rd (aPx n 0x48)).toNat, (s.rd (aPx n 0x4C)).toNat, (s.rd (aPx n 0x20C)).toNat, (s.pxs n).crc.toNat,
   (s.pxs n).dbi.toNat⟩

/-- Store a generator state. -/
def State.putGen (s : State) (n : Nat) (g : GenSt) : State :=
  let s1 := ((s.wr (aPx n 0x48) (BitVec.ofNat 32 g.x)).wr (aPx n 0x4C) (BitVec.ofNat 32 g.y)).wr (aPx n 0x20C)
    (BitVec.ofNat 32 g.lfsr)
  s1.setPx n { s1.pxs n with crc := BitVec.ofNat 16 g.crc, dbi := BitVec.ofNat 32 g.dbi }

/-- `x + d` modulo `m`, or `x - d` if `neg`, and whether it wrapped (R241). -/
def addMod (m x d : Nat) (neg : Bool) : Nat × Bool :=
  let a := x % m
  let b := d % m
  if neg then (if b ≤ a then (a - b, false) else (a + m - b, true))
  else if a + b < m then (a + b, false) else (a + b - m, true)

/-- A field of microinstruction `u` (R238). -/
def uf (u : W128) (lo w : Nat) : Nat := fld u lo w

/-- The step of an address register in words: nothing, or the amount and its direction (R238). -/
def State.stepAmount (s : State) (n : Nat) (y : Bool) (op r : Nat) : Option (Nat × Bool) :=
  let idx := (s.rd (aPx n (0xA0 + 0x40 * y.toNat + 4 * r))).toNat
  match op with
  | 2 => some (idx, false)
  | 3 => some (idx, true)
  | 5 => some (1, false)
  | 6 => some (1, true)
  | _ => none

/-- A step of X, with its carry into Y when linked (R241). -/
def State.stepX (s : State) (n : Nat) (g : GenSt) (op r : Nat) (link : Bool) : GenSt :=
  match s.stepAmount n false op r with
  | none => g
  | some (d, neg) =>
    let q := addMod (s.axMod n false) g.x d neg
    { g with x := q.1, y := if q.2 && link then (addMod (s.axMod n true) g.y 1 neg).1 else g.y }

/-- A step of Y (R241). -/
def State.stepY (s : State) (n : Nat) (g : GenSt) (op r : Nat) : GenSt :=
  match s.stepAmount n true op r with
  | none => g
  | some (d, neg) => { g with y := (addMod (s.axMod n true) g.y d neg).1 }

/-- The frame operation of XBEAT or YBEAT (R238). -/
def beatOp (c : Nat) : Nat := if c = 1 then 5 else if c = 2 then 6 else if c = 3 then 2 else 0

/-- The parity of a word. -/
def parity (v : W32) : Bool := (List.range 32).foldl (fun acc i => acc ^^ v.getLsbD i) false

/-- The number of ones in the low `n` bits. -/
def onesIn (v n : Nat) : Nat := ((List.range n).filter fun i => v / 2 ^ i % 2 == 1).length

/-- PX and PY of an address under SCRX and SCRY (R242). An X or Y that control space wrote at or above its modulus, of which R241 says
nothing, is shown as written until it is stepped (DESIGN CHOICE, log 150). -/
def State.physAddr (s : State) (n : Nat) (u : W128) (g : GenSt) : Nat × Nat :=
  let px := if u.getLsbD 37 then g.x / 65536 * 65536 + (s.scramble n (g.x % 65536)).toNat % 65536 else g.x
  let py := if u.getLsbD 38 then g.y / 65536 * 65536 + (s.scramble n (g.y % 65536)).toNat / 65536 else g.y
  (px, py)

/-- The data source of a beat and the LFSR after it (R243, R244). -/
def State.dataSource (s : State) (n : Nat) (u : W128) (g : GenSt) (px py : Nat) : W32 × Nat :=
  match uf u 39 3 with
  | 4 =>
    let w := s.lfsrW n
    let v := crcFeed w ((s.rd (aPx n 0x200)).toNat % 2 ^ w) (g.lfsr % 2 ^ w) 0 32
    (BitVec.ofNat 32 v, v)
  | 5 => (BitVec.ofNat 32 px, g.lfsr)
  | 6 => (BitVec.ofNat 32 py, g.lfsr)
  | 7 => (0, g.lfsr)
  | d => (s.rd (aPx n (0x180 + 4 * d)), g.lfsr)

/-- The data word before bus inversion (R243 steps 2 and 3). -/
def State.dataWord (s : State) (n : Nat) (u : W128) (px py : Nat) (d : W32) : W32 :=
  let t := uf u 42 2
  let x := BitVec.ofNat 32 px
  let y := BitVec.ofNat 32 py
  let d1 := if u.getLsbD 44 && (parity (x &&& s.rd (aPx n (0x190 + 4 * t))) ^^ parity (y &&& s.rd (aPx n (0x1A0 + 4 * t))))
    then ~~~d else d
  if u.getLsbD 45 then
    (List.range 8).foldl (fun v i =>
      let v1 := if x.getLsbD i then v ^^^ s.rd (aPx n (0x1C0 + 4 * i)) else v
      if y.getLsbD i then v1 ^^^ s.rd (aPx n (0x1E0 + 4 * i)) else v1) d1
  else d1

/-- The code positions of the 32 data bits: 3 to 38 without the powers of two (R245). -/
def codePos : List Nat := ((List.range 36).map (· + 3)).filter fun p => p != 4 && p != 8 && p != 16 && p != 32

/-- The SEC-DED check bits of a word (R245). -/
def secded (d : W32) : Nat :=
  let ham := (List.range 6).map fun k =>
    (List.range 32).foldl (fun acc i => acc ^^ (d.getLsbD i && codePos.getD i 0 / 2 ^ k % 2 == 1)) false
  let all := parity d ^^ ham.foldl (fun a b => a ^^ b) false
  (List.range 6).foldl (fun acc k => acc + (ham.getD k false).toNat * 2 ^ k) (all.toNat * 64)

/-- CHECK of a beat and the CRC register after its feed (R245). -/
def State.checkBits (s : State) (n : Nat) (u : W128) (crc : Nat) (d : W32) : Nat × Nat :=
  let fed := uf u 51 2 == 1 || uf u 51 2 == 2
  let k := s.rf (aPx n 0x210) 8 5 + 1
  match s.rf (aPx n 0x210) 0 2 with
  | 1 => (crc % 256, if fed then crcFeed 8 0x07 (crc % 256) d.toNat k else crc)
  | 2 => (crc, if fed then crcFeed 16 0x1021 crc d.toNat k else crc)
  | 3 => (secded d, crc)
  | _ => (0, crc)

/-- Group `j` is inverted on the bus (R246). -/
def State.dbiHit (s : State) (n : Nat) (prev : Nat) (d : W32) (j : Nat) : Bool :=
  let v := d.toNat / 2 ^ (8 * j) % 256
  s.bit (aPx n 0x214) (4 + j) && (match s.rf (aPx n 0x214) 0 2 with
    | 1 => decide (onesIn v 8 < 4)
    | 2 => decide (4 < onesIn (Nat.xor v (prev / 2 ^ (8 * j) % 256)) 8)
    | _ => false)

/-- The word as sent and the DBI bits (R246). -/
def State.busInvert (s : State) (n : Nat) (prev : Nat) (d : W32) : W32 × Nat :=
  (List.range 4).foldl (fun acc j =>
    if s.dbiHit n prev d j then (acc.1 ^^^ BitVec.ofNat 32 (255 * 2 ^ (8 * j)), acc.2 + 2 ^ j) else acc) (d, 0)

/-- What lanes may show of a beat: PX, PY, the word as sent, CHECK, DBI (R247). -/
structure BeatSrc where
  px : Nat
  py : Nat
  data : Nat
  check : Nat
  dbi : Nat
deriving DecidableEq, Repr

/-- One beat under microinstruction `u`, without the beat steps (R240, R243 to R246). -/
def State.beat (s : State) (n : Nat) (u : W128) (g : GenSt) : BeatSrc × GenSt :=
  let a := s.physAddr n u g
  let src := s.dataSource n u g a.1 a.2
  let d := s.dataWord n u a.1 a.2 src.1
  let c := s.checkBits n u g.crc d
  let b := s.busInvert n g.dbi d
  (⟨a.1, a.2, b.1.toNat, c.1, b.2⟩, { g with lfsr := src.2, crc := c.2, dbi := b.1.toNat })

/-- The beats of a frame and the generator state after it (R240). -/
def State.beats (s : State) (n : Nat) (u : W128) : Nat → GenSt → List BeatSrc × GenSt
  | 0, g => ([], g)
  | k + 1, g =>
    let q := s.beat n u g
    let g1 := s.stepX n q.2 (beatOp (uf u 32 2)) (uf u 26 3) (u.getLsbD 36)
    let g2 := s.stepY n g1 (beatOp (uf u 34 2)) (uf u 29 3)
    let r := s.beats n u k g2
    (q.1 :: r.1, r.2)

/-- Bit `i` of a source of width `w`; a bit beyond the width reads 0 (R247). -/
def srcBit (v w i : Nat) : Nat := if i < w then v / 2 ^ i % 2 else 0

/-- The symbol of lane `l` in a beat (R247). What a two-bit symbol above 1 does on a lane in NRZ mode the spec leaves open: it stays as
it is, as drive and as expected value (DESIGN CHOICE, log 150). -/
def State.laneSym (s : State) (n l : Nat) (u : W128) (b : BeatSrc) : BitVec 2 :=
  let f := s.rd (aPx n (0x220 + 4 * l))
  let q : Nat × Nat := match field f 0 3 with
    | 1 => ((f.getLsbD 8).toNat, 1)
    | 2 => (b.px, 32)
    | 3 => (b.py, 32)
    | 4 => (b.data, 32)
    | 5 => (b.check, 16)
    | 6 => (b.dbi, 4)
    | 7 => (uf u 59 8, 8)
    | _ => (0, 0)
  let sel := field f 3 5
  BitVec.ofNat 2 (if f.getLsbD 10 then 2 * srcBit q.1 q.2 (sel + 1) + srcBit q.1 q.2 sel else srcBit q.1 q.2 sel)

/-- A beat of lane `l` from the microinstruction (R247). -/
def State.laneBeat (s : State) (n l : Nat) (u : W128) (b : BeatSrc) : LaneBeat :=
  let v := s.laneSym n l u b
  let cls := s.bit (aPx n (0x220 + 4 * l)) 9
  let rw := uf u 47 2
  let cen := cls && (rw == 2 || rw == 3) && !(s.bit (aPx n (0x240 + 4 * uf u 49 2)) l)
  ⟨v, !cls || rw == 1 || rw == 3, v, cen⟩

/-- The generator state at the start of a frame's beats: seed, frame operations, check reset (R240). -/
def State.frameOps (s : State) (n : Nat) (u : W128) : State :=
  let g0 := s.genOf n
  let g1 := if u.getLsbD 46 then { g0 with lfsr := (s.rd (aPx n 0x208)).toNat % 2 ^ s.lfsrW n } else g0
  let base := fun (y : Bool) (r : Nat) => aPx n (0x80 + 0x40 * y.toNat + 4 * r)
  let xr := uf u 26 3
  let yr := uf u 29 3
  let s1 := if uf u 20 3 = 4 then s.wr (base false xr) (BitVec.ofNat 32 g1.x) else s
  let g2 := if uf u 20 3 = 1 then { g1 with x := (s.rd (base false xr)).toNat % s.axMod n false }
    else s.stepX n g1 (uf u 20 3) xr (u.getLsbD 36)
  let s2 := if uf u 23 3 = 4 then s1.wr (base true yr) (BitVec.ofNat 32 g2.y) else s1
  let g3 := if uf u 23 3 = 1 then { g2 with y := (s.rd (base true yr)).toNat % s.axMod n true }
    else s.stepY n g2 (uf u 23 3) yr
  let g4 := if uf u 51 2 = 2 || uf u 51 2 = 3 then { g3 with crc := s.rf (aPx n 0x210) 16 16 } else g3
  s2.putGen n g4

/-- The next microprogram counter and loop counters; a REPEAT counts its frames in the burst (R239). -/
def State.sequenceUop (s : State) (n : Nat) (u : W128) : State :=
  let pc := s.rf (aPx n 0x50) 0 12
  let go := fun (t : State) (v : Nat) => t.wr (aPx n 0x50) (BitVec.ofNat 32 (v % 4096))
  let lc := aPx n (0x140 + 4 * uf u 15 4)
  match uf u 0 3 with
  | 1 => go s (uf u 3 12)
  | 2 => if s.rd lc = 0 then go s (pc + 1) else go (s.wr lc (s.rd lc - 1)) (uf u 3 12)
  | 3 => go (s.wr lc (s.rd (aPx n (0x100 + 4 * uf u 15 4)))) (pc + 1)
  | 4 =>
    let p := s.pxs n
    match p.burst with
    | some b =>
      let left := b.rep.getD (uf u 3 12)
      if left = 0 then go (s.setPx n { p with burst := some { b with rep := none } }) (pc + 1)
      else s.setPx n { p with burst := some { b with rep := some (left - 1) } }
    | none => go s (pc + 1)
  | 5 => s
  | _ => go s (pc + 1)

/- Vector streams (R248 to R252) -------------------------------------------------------------------------- -/

/-- The beats of a VEC record with their timing set and repeats (R248). -/
def recSegs (e : W128) : List (BitVec 32 × Nat × Nat) :=
  let ts := fld e 88 6
  (BitVec.ofNat 32 (fld e 0 32), ts, fld e 64 8 + 1) ::
    (if e.getLsbD 80 then [(BitVec.ofNat 32 (fld e 32 32), ts, fld e 72 8 + 1)] else [])

/-- A frame being filled from the vector stream. -/
structure VecFill where
  segs : List (BitVec 32 × Nat × Nat)
  vloop : Option (List W128 × Nat)
  hist : List W128
  queue : List W128
  ts : Option Nat
  codes : List (BitVec 32)
  mid : Bool
  last : Bool
  cause : Nat
deriving DecidableEq, Repr

/-- Take beats, records and loops until the frame is full, ends the burst, or turns VOID (R250, R251, R253). -/
def vecFill (per : Nat → Nat) (ferr : Bool) : Nat → VecFill → VecFill
  | 0, v => v
  | k + 1, v =>
    let full := match v.ts with
      | some t => decide (32 / per t ≤ v.codes.length)
      | none => false
    if full || v.last || v.cause != 0 then v
    else match v.segs with
    | (c, ts, r) :: rest =>
      let t := v.ts.getD ts
      let m := min r (32 / per t - v.codes.length)
      vecFill per ferr k { v with ts := some t, mid := v.mid || t != ts, codes := v.codes ++ List.replicate m c,
                                  segs := if m = r then rest else (c, ts, r - m) :: rest }
    | [] =>
      match v.vloop with
      | some (recs, c) =>
        vecFill per ferr k { v with segs := recs.flatMap recSegs, vloop := if c ≤ 1 then none else some (recs, c - 1) }
      | none =>
        match v.queue with
        | [] => { v with cause := if ferr then 1 else 2 }
        | e :: q =>
          if vecOk e then
            vecFill per ferr k { v with segs := recSegs e, hist := (e :: v.hist).take 255, queue := q }
          else if vloopOk e && decide (fld e 16 8 ≤ v.hist.length) then
            let lp := if fld e 0 16 = 0 then none else some ((v.hist.take (fld e 16 8)).reverse, fld e 0 16)
            vecFill per ferr k { v with queue := q, vloop := lp }
          else if vendOk e then { v with last := true, queue := q }
          else { v with cause := 3 }

/-- Lane code of lane `l`. -/
def laneCode (c : BitVec 32) (l : Nat) : Nat := c.toNat / 2 ^ (4 * l) % 16

/-- The code voids the burst on a lane (R249). -/
def badCode (pam : Bool) (c : Nat) : Bool := decide (14 ≤ c) || (decide (c < 12) && !pam && decide (2 ≤ c % 4))

/-- The beats that lane codes give, from the symbol the lane last drove (R249). -/
def codeBeats (sym : BitVec 2) : List Nat → List LaneBeat
  | [] => []
  | c :: l =>
    let v := BitVec.ofNat 2 c
    let b : LaneBeat := if c < 4 then ⟨v, true, 0, false⟩ else if c < 8 then ⟨0, false, v, true⟩
      else if c < 12 then ⟨v, true, v, true⟩ else if c = 13 then ⟨sym, true, 0, false⟩ else ⟨0, false, 0, false⟩
    b :: codeBeats (if b.den then b.v else sym) l

/- The next frame (R253 to R256) ----------------------------------------------------------------------- -/

/-- The lanes of a burst that R257 counts. -/
def State.burstLanes (s : State) (n mode : Nat) : List Nat := s.ownLanes n (mode == 1)

/-- Timing set `k` gives a counted lane a format its mode does not allow (R225, R256). -/
def State.badFormat (s : State) (n mode k : Nat) : Bool :=
  (s.burstLanes n mode).any fun l =>
    let f := s.tsf (n / 2) k (128 + 128 * l) 3
    if s.pam4 (n / 2) l then !(f == 4 || f == 5) else f == 4

/-- Lane `l` is an overlay lane of a burst in mode `mode` (R252). -/
def State.overlay (s : State) (n mode l : Nat) : Bool := mode == 2 && s.bit (aPx n (0x220 + 4 * l)) 11

/-- The lanes of a burst that take vector codes (R252). -/
def State.vecLanes (s : State) (n mode : Nat) : List Nat := (s.burstLanes n mode).filter fun l => !s.overlay n mode l

/-- The owned lanes whose codes R249 judges, one of KIND OFF among them. It does not say whether the field of an overlay lane, which
takes no code (R252), is judged: it is not (DESIGN CHOICE, log 150). -/
def State.codeLanes (s : State) (n mode : Nat) : List Nat := (s.ownLanes n true).filter fun l => !s.overlay n mode l

/-- The lowest nonzero number of a list; 0 if there is none. -/
def leastCause (l : List Nat) : Nat := l.foldl (fun a b => if b = 0 then a else if a = 0 then b else min a b) 0

/-- QCOUNT of expander `n` stands, after what it takes at an edge, as it does: QUEUE_LOW if it has gone at that edge from LOWWATER or
more to below it (R231, R232; log 149). -/
def State.queueLow (s : State) (n : Nat) : State :=
  let p := s.pxs n
  let m := min 512 (s.rf (aPx n 8) 16 10)
  let s1 := s.setPx n { p with low := p.queue.length }
  if m != 0 && decide (m ≤ p.low) && decide (p.queue.length < m) then s1.post (rkPx n) (some (s.rf (aPx n 0xC) 0 16)) 2 n else s1

/-- An expander's queue becomes `q`: places are freed for engines (R231). -/
def State.setQueue (s : State) (n : Nat) (q : List W128) : State :=
  (s.setPx n { s.pxs n with queue := q }).clearWaits

/-- The other expander of the pin group. -/
def otherPx (n : Nat) : Nat := if n % 2 = 0 then n + 1 else n - 1

/-- The linked burst `b` of expander `n` turns VOID at its next frame since the other expander's burst does (R255). -/
def State.linked (s : State) (n : Nat) (b : Burst) : Bool :=
  let o := s.pxs (otherPx n)
  let k := (s.pgs (n / 2)).started
  b.link && (b.linkDue || (o.ends.getLast?.any fun e => e.cause != 0 && e.first == k) || match o.burst with
    | some c => (match c.next with | .void _ => true | _ => false) && o.lastEdge == k
    | none => false)

/-- What the next frame of a burst holds, the queue that is left, the burst, and TS_MIDFRAME. -/
def State.nextOf (s : State) (n : Nat) (b : Burst) : Burst × List W128 × Bool :=
  let p := s.pxs n
  let u := s.micro n (s.rf (aPx n 0x50) 0 12)
  if b.mode = 0 then
    let take := u.getLsbD 19
    let op := if take then p.queue.head? else none
    let c1 := if take then (match op with
      | none => if p.fetchErr then 1 else 2
      | some e => if operandOk e then 0 else 3) else 0
    let c := leastCause [c1, if s.badFormat n 0 (uf u 53 6) then 5 else 0, if s.linked n b then 6 else 0]
    let q := if take && c1 = 0 then p.queue.drop 1 else p.queue
    ({ b with linkDue := false, next := if c = 0 then .algo op else .void c }, q, false)
  else
    let v := vecFill (s.period (n / 2)) p.fetchErr 2048
      ⟨b.segs, b.vloop, b.hist, p.queue, none, [], false, false, 0⟩
    let ts := v.ts.getD 0
    let sym := (s.codeLanes n b.mode).any fun l => v.codes.any fun c => badCode (s.pam4 (n / 2) l) (laneCode c l)
    let fmt := v.ts.isSome && s.badFormat n b.mode ts
    let ends := v.last && v.codes.isEmpty
    let take := b.mode = 2 && !b.seqEnd && u.getLsbD 19 && !ends
    let c := leastCause [v.cause, if take then 3 else 0, if sym then 4 else 0, if fmt then 5 else 0,
                         if s.linked n b && !ends then 6 else 0]
    ({ b with linkDue := false, segs := v.segs, vloop := v.vloop, hist := v.hist,
              next := if c = 0 then .vec v.codes ts v.last else .void c }, v.queue, v.mid)

/- The formatter (R216, R217, R221 to R223) ------------------------------------------------------------------- -/

/-- The level of UI `u` of a beat with drive value `v`, from the level before the beat (R221). E1 and E2 have the same fraction,
which delays the whole output (R223), so the edges stand at whole UIs. -/
def uiLevel (fmt e1 e2 : Nat) (prev v : BitVec 2) (u : Nat) : BitVec 2 :=
  let a := e1 / 128
  let mid := a ≤ u && decide (u < e2 / 128)
  match fmt with
  | 0 | 4 => if u < a then prev else v
  | 1 => if mid then v else 1
  | 2 => if mid then v else 0
  | 3 => if mid then v else v ^^^ 1
  | _ => prev

/-- The driver is on in UI `u` of a beat with drive enable `den`, if it was `on` before the beat (R222). -/
def uiOn (deOn deOff : Nat) (on den : Bool) (u : Nat) : Bool :=
  if den && !on then decide (deOn / 128 ≤ u) else if !den && on then decide (u < deOff / 128) else on

/-- The UIs of beats of `len` UI under a lane entry of a timing set, after a UI `st` (R221, R222). A beat without a drive value
has drive value 0 (DESIGN CHOICE, log 127). -/
def beatUis (e : BitVec 128) (len : Nat) (st : UiOut) : List LaneBeat → List UiOut
  | [] => []
  | b :: bs =>
    let f := fun lo w => e.toNat / 2 ^ lo % 2 ^ w
    let u := (List.range len).map fun u =>
      UiOut.mk (uiLevel (f 0 3) (f 4 12) (f 16 12) st.sym b.v u) (uiOn (f 28 12) (f 40 12) st.on b.den u) false
    u ++ beatUis e len ⟨(u.getLastD st).sym, b.den, false⟩ bs

/-- A UI of a parked lane after a UI `st`, by PARK code (R217). A lane in electrical idle leaves it only when a burst, a PRBS
generator or training drives it, so driving low does not (R434). The driver that the park leaves counts as the DEN of the lane's last
beat for the first beat after it (R222; DESIGN CHOICE, log 161). -/
def parkUi (code : Nat) (st : UiOut) : UiOut :=
  match code with
  | 0 => st
  | 1 => if st.idle then st else ⟨0, true, false⟩
  | _ => ⟨st.sym, true, true⟩

/-- A vector with element `i` replaced. -/
def vput {α : Type} {n : Nat} (v : Vector α n) (i : Nat) (x : α) : Vector α n := v.setIfInBounds i x

/-- Set DRIVER of a lane. -/
def State.setDriver (s : State) (g l : Nat) (on : Bool) : State := s.putB (aLn (8 * g + l) 0x14) 14 on

/-- The polynomial taps of a PRBS code (R272). -/
def prbsTaps (poly : Nat) : Nat × Nat :=
  match poly with
  | 0 => (7, 6)
  | 1 => (9, 5)
  | 2 => (15, 14)
  | 3 => (23, 18)
  | _ => (31, 28)

/-- `k` bits of a PRBS and the state after them: the bit that leaves the last stage (R272). -/
def prbsBits (a b : Nat) : Nat → Nat → List Nat × Nat
  | 0, g => ([], g)
  | k + 1, g =>
    let r := prbsBits a b k ((g * 2 + (g / 2 ^ (a - 1) + g / 2 ^ (b - 1)) % 2) % 2 ^ a)
    (g / 2 ^ (a - 1) % 2 :: r.1, r.2)

/-- The symbols of bits: one each, or in pairs in PAM4 mode, the first bit as b1 (R272). -/
def bitSyms (pam : Bool) : List Nat → List (BitVec 2)
  | [] => []
  | a :: l => if pam then (match l with
      | b :: m => BitVec.ofNat 2 (2 * a + b) :: bitSyms pam m
      | [] => [BitVec.ofNat 2 (2 * a)])
    else BitVec.ofNat 2 a :: bitSyms pam l

/-- `k` symbols of polynomial code `poly` from lane `n`'s generator, which advances (R272). -/
def State.prbsSyms (s : State) (g l poly : Nat) (inv : Bool) : State × List (BitVec 2) :=
  let n := 8 * g + l
  let t := prbsTaps poly
  let pam := s.pam4 g l
  let r := prbsBits t.1 t.2 (if pam then 64 else 32) ((s.lane n).gen.toNat % 2 ^ t.1)
  (s.setLane n { s.lane n with gen := BitVec.ofNat 31 r.2 }, bitSyms pam (r.1.map fun b => if inv then 1 - b else b))

/-- The lane whose training makes lane `n` send its pattern: from step 3 with SRC 2 or 3, in step 7 with RTRIP (R275), but not in
EXTEST (R291). -/
def State.sendsFor (s : State) (n : Nat) : Option Nat :=
  match (s.lane n).serves with
  | some k =>
    let step := s.rf (aLn k 0x14) 4 3
    if !s.extest && s.rf (aLn k 0x14) 0 2 = 1 && ((2 ≤ s.rf (aLn k 0x10) 0 2 && decide (3 ≤ step)) || step == 7) then some k else none
  | none => none

/-- The training of lane `n` sends its signal over the on-die loopback: step 3 on with SRC 1 (R275). -/
def State.loops (s : State) (n : Nat) : Bool :=
  s.rf (aLn n 0x14) 0 2 == 1 && s.rf (aLn n 0x10) 0 2 == 1 && decide (3 ≤ s.rf (aLn n 0x14) 4 3)

/-- What a lane carries in a frame in which no burst drives it: the pattern of a training it serves, electrical idle during its
own loopback, its PRBS generator, or its park symbol (R217, R273, R275, R291, R459). -/
def State.unused (s : State) (g l : Nat) : State × LaneFrame :=
  let n := 8 * g + l
  let cfg := s.rd (aLn n 0x60)
  match s.sendsFor n with
  | some k => let r := s.prbsSyms g l (s.rf (aLn k 0x10) 8 3) false; (r.1, .syms r.2)
  | none =>
    if s.loops n then (s, .park 2)
    else if cfg.getLsbD 0 && !s.extest && !(s.lane n).kept then
      let r := s.prbsSyms g l (field cfg 4 3) (cfg.getLsbD 8)
      (r.1, .syms r.2)
    else (s, .park (s.rf (aPg g 4) (2 * l) 2))

/-- What lane `l` carries in the frame that the last edge began (R217). PARK is read here, at the edge that ends the frame, which the
spec leaves open (DESIGN CHOICE, log 150). -/
def State.formed (s : State) (g l : Nat) : State × LaneFrame :=
  match (s.pgs g).fmt.findSome? fun x => (x.lanes.find? fun y => y.1 == l).map fun y => (x.ts, y.2) with
  | some (ts, bs) => (s.setLane (8 * g + l) { s.lane (8 * g + l) with kept := false }, .beats ts (s.rf (aPg g 4) (2 * l) 2) bs)
  | none => s.unused g l

/-- The symbol that a lane last drove, after a frame (R249). -/
def LaneFrame.lastSym (f : LaneFrame) (full idle : Bool) (sym : BitVec 2) : BitVec 2 :=
  match f with
  | .beats _ code bs => if full || code != 1 then bs.foldl (fun v b => if b.den then b.v else v) sym else 0
  | .syms l => l.getLastD sym
  | .park code => if code = 1 && !idle then 0 else sym

/-- Lane `l`'s frame is complete and waits for its hand-over (R216). -/
def State.form (s : State) (g l : Nat) : State :=
  let r := s.formed g l
  let p := r.1.pgs g
  let full := match r.2 with
    | .beats ts _ bs => decide (32 / s.period g ts ≤ bs.length)
    | _ => true
  r.1.setPg g { p with fmt1 := p.fmt1 ++ [r.2], sym := vput p.sym l (r.2.lastSym full (p.ei.getD l true) (p.sym.getD l 0)) }

/-- The lanes of a pin group are held in electrical idle: not locked, in sleep, or stopped by a trip or a removal preparation
(R261, R263, R455, R458, R468). -/
def State.muted (s : State) (g : Nat) : Bool := !s.pgLocked g || s.sleeping || s.engStop

/-- What a lane's output is left at by the UIs `u` of beats `bs`: the level of the last UI, and the driver as DEN of the last beat has
it, though the edge that switches it may stand at the very end of the beat (R221, R222). -/
def afterBeats (st : UiOut) (u : List UiOut) (bs : List LaneBeat) : UiOut :=
  match bs.getLast? with
  | some b => ⟨(u.getLastD st).sym, b.den, false⟩
  | none => st

/-- The 32 UIs of lane `l` for a frame, from what the frame before left, and what this one leaves (R217, R221, R222). -/
def State.laneUis (s : State) (g l : Nat) (st : UiOut) (f : LaneFrame) : List UiOut × UiOut :=
  if s.muted g then (List.replicate 32 (parkUi 2 st), parkUi 2 st)
  else match f with
  | .beats ts code bs =>
    let u := beatUis (((s.tset g ts) >>> (128 + 128 * l)).setWidth 128) (s.period g ts) st bs
    let z := afterBeats st u bs
    if u.length < 32 then (u ++ List.replicate (32 - u.length) (parkUi code z), parkUi code z) else (u, z)
  | .syms x => (x.map fun v => ⟨v, true, false⟩, ⟨x.getLastD st.sym, true, false⟩)
  | .park code => (List.replicate 32 (parkUi code st), parkUi code st)

/-- A frame of lane `l` is handed to its serializer (R216); a lane without beats keeps its drive fraction (R217, R223). -/
def State.carry (s : State) (g l : Nat) (f : LaneFrame) : State :=
  let p := s.pgs g
  let r := s.laneUis g l ⟨p.lvl.getD l 0, p.den.getD l true, p.ei.getD l true⟩ f
  let z := r.2
  let fr := match f with
    | .beats ts _ _ => s.tsf g ts (128 + 128 * l + 4) 7
    | _ => p.frac.getD l 0
  (s.setPg g { p with out := p.out ++ [r.1], lvl := vput p.lvl l z.sym, den := vput p.den l z.on, ei := vput p.ei l z.idle,
                      frac := vput p.frac l fr }).setDriver g l (r.1.getLastD z).on

/-- At the frame edge that begins frame `f`, the TX, RX and DFE settings of lane `n` act (R267, R269); those before stay known for the
frames of which the contacts or compare still ask. -/
def State.settle (s : State) (n f : Nat) : State :=
  let v := s.lane n
  let new := (s.rd (aLn n 4), s.rd (aLn n 8), s.rd (aLn n 0xC))
  let kept := v.acts.filter fun x => decide (f ≤ x.1 + 1) || (s.pgs (n / 8)).line.any fun e => decide (e.idx < x.1)
  s.setLane n { v with act := new, acts := if new = v.act then kept else kept ++ [(f, v.act)] }

/-- The TX, RX and DFE settings of lane `n` that act in frame `f` (R267, R269). -/
def State.actAt (s : State) (n f : Nat) : W32 × W32 × W32 :=
  match (s.lane n).acts.find? fun x => decide (f < x.1) with
  | some x => x.2
  | none => (s.lane n).act

/-- A frame edge of the formatter: the frame of the edge before last goes to the serializers, that of the last edge waits
(R216), and the TX, RX and DFE settings written since act (R267, R269). -/
def State.handOver (s : State) (g : Nat) : State :=
  let old := (s.pgs g).fmt1
  let out := (s.pgs g).out
  let s1 := (List.range 8).foldl (fun t l => t.form g l) (s.setPg g { s.pgs g with fmt1 := [] })
  let s2 := s1.setPg g { s1.pgs g with fmt := [], out := [], before := out }
  (List.range 8).foldl (fun t l => (t.settle (8 * g + l) (s.pgs g).started).carry g l (old.getD l (.park 0))) s2

end Sys2Proof.Machine
end

