-- ==== Sys2Proof/Machine/Burst.lean ====
section
/-!
DEFINITION. The life of a burst: queue entries, start, frames, VOID, end, STOP and FLUSH (chapter 7, R226 to R237 and
R253 to R257).
-/

namespace Sys2Proof.Machine

/- Holds of FINISH (R17) ------------------------------------------------------------------------------- -/

/-- Change every hold of a pending FINISH. -/
def State.mapHolds (s : State) (f : Hold → Hold) : State :=
  { s with sites := s.sites.map fun p => (p.1, { p.2 with finish := p.2.finish.map fun l => l.map f }) }

/-- A burst of expander `n` that a FINISH holds raises BURST_END: its records may form until now. -/
def Hold.ended (n started : Nat) (h : Hold) : Hold :=
  if h.px = n && 0 < h.ends then { h with ends := h.ends - 1, due := started } else h

/-- Expander `n` leaves STARTING: with its burst begun, or with no burst to come (R17). -/
def Hold.left (n : Nat) (began : Bool) (h : Hold) : Hold :=
  if h.px = n && h.starting then { h with starting := false, ends := h.ends + began.toNat } else h

/- VOID and the end of a burst (R235, R254 to R257) ------------------------------------------------------ -/

/-- FETCH_GET := FETCH_PUT in fetch mode, an outstanding read is discarded, and a stopped fetch restarts (R237). -/
def State.fetchReset (s : State) (n : Nat) : State :=
  let s1 := (if s.bit (aPx n 8) 0 then s.wr (aPx n 0x20) (s.rd (aPx n 0x1C)) else s).dropXfer (.fetch n)
  s1.setPx n { s1.pxs n with fetchErr := false }

/-- The delivered part of a burst is over: BURST_END comes when `base + floor((31 + EXP_DELAY) / 32)` frames have
started, where `base` is two more than the number of its last frame F (R235). -/
def State.endBurst (s : State) (n cause base : Nat) : State :=
  let p := s.pxs n
  match p.burst with
  | none => s
  | some b =>
    let d := s.rf (aPg (n / 2) 8) 0 16
    s.setPx n { p with burst := none, ends := p.ends ++ [⟨b.task, b.fetched, b.link, cause, base - 1, base + (31 + d) / 32⟩] }

/-- SAW_VOID for the lanes of a burst in mode `mode` of expander `n` (R257). -/
def State.sawVoid (s : State) (n mode : Nat) : State := s.saw (laneMask (n / 2) (s.burstLanes n mode)) 10

/-- DISCARD: the entries ahead of the first BURST leave, and the state ends when a BURST is at the head and BURST_END
has been raised (R254). -/
def State.settleDiscard (s : State) (n : Nat) : State :=
  if s.pxState n = 4 then
    let q := (s.pxs n).queue.dropWhile fun e => entType e != 1
    let s1 := s.setQueue n q
    if !q.isEmpty && (s.pxs n).ends.isEmpty then s1.pxRest n else s1
  else s

/-- A burst of expander `n` turns VOID at its next frame: the linked burst beside it does so at the same frame, with the lower cause
if a STOP has just ended it (R255, R256). -/
def State.linkVoid (s : State) (n : Nat) : State :=
  let m := otherPx n
  let p := s.pxs m
  match p.burst with
  | some b =>
    if !b.link then s
    else if p.lastEdge = (s.pgs (m / 2)).started then
      let c := match b.next with
        | .void c => min c 6
        | _ => 6
      s.setPx m { p with burst := some { b with next := .void c } }
    else s.setPx m { p with burst := some { b with linkDue := true } }
  | none =>
    match p.ends.getLast? with
    | some e =>
      if e.link && e.cause == 7 && e.first == (s.pgs (m / 2)).started then
        ((s.setPx m { p with ends := p.ends.dropLast ++ [{ e with cause := 6 }] }).setPxState m 4).settleDiscard m
      else s
    | none => s

/-- The burst of expander `n`, which has delivered its frame of the last edge, turns VOID at the next. -/
def State.turnsVoid (s : State) (n : Nat) : Bool :=
  (s.pxs n).lastEdge == (s.pgs (n / 2)).started && (s.pxs n).burst.any fun b => match b.next with
    | .void _ => true
    | _ => false

/-- A burst of expander `n` turns VOID at its next frame, and the burst beside it with it if that one is linked; where the other turns
VOID at that frame, a link of the first gives it the lower cause too (R255, R256). -/
def State.linkVoids (s : State) (n : Nat) : State :=
  let t := s.linkVoid n
  if t.turnsVoid (otherPx n) then t.linkVoid (otherPx n) else t

/-- The entries of the burst's next frame are taken (R253); a stream that ends at the frame boundary ends the burst, and
a frame that will be VOID makes the linked burst VOID too. -/
def State.takeNext (s : State) (n : Nat) : State :=
  match (s.pxs n).burst with
  | none => s
  | some b =>
    let q := s.nextOf n b
    let s1 := (s.setPx n { s.pxs n with burst := some q.1 }).setQueue n q.2.1
    let s2 := if q.2.2 then s1.setB (aPx n 0x28) 4 else s1
    match q.1.next with
    | .void _ => s2.linkVoids n
    | .vec [] _ true => s2.endBurst n 0 ((s2.pgs (n / 2)).started + 1)
    | _ => s2

/- STOP and FLUSH (R237) --------------------------------------------------------------------------------- -/

/-- CTRL.STOP of expander `n`, whose burst has delivered its frame of the last edge. -/
def State.stopNow (s : State) (n : Nat) : State :=
  let st := s.pxState n
  let s1 := (((s.clrB (aPx n 0) 0).setQueue n []).fetchReset n)
  let s2 := s1.setPx n { s1.pxs n with take := false }
  match st with
  | 1 | 2 => (((s2.setPxState n 0).sawActive (laneMask (n / 2) (s.ownLanes n false)) 10 fun _ => true)).mapHolds
      (Hold.left n false)
  | 3 =>
    match (s2.pxs n).burst with
    | none => s2
    | some b => match b.next with
      | .void _ => s2
      | _ => ((s2.endBurst n 7 ((s2.pgs (n / 2)).started + 1)).sawVoid n b.mode).linkVoids n
  | 4 => if (s2.pxs n).ends.isEmpty then s2.setPxState n 0 else s2.setPxState n 3
  | _ => s2

/-- CTRL.FLUSH of expander `n`. -/
def State.pxFlush (s : State) (n : Nat) : State :=
  if s.pxState n = 0 then (s.setQueue n []).fetchReset n else s

/-- FLUSH (R237). -/
def execFlush (n : Fin 16) (s : State) : Host.Outcome State Fault Refusal := .next (s.mgmtDo (aPx n.val 0) (some (BitVec.ofNat 32 ((s.isArmed n.val).toNat + 4))) fun s => s.pxFlush n.val)

/- Filling the queue (R228 to R231) ----------------------------------------------------------------------- -/

/-- Entries of the fetch ring; LOG2 outside 4 to 20 acts as the nearer end. -/
def State.ringSize (s : State) (n : Nat) : Nat := 2 ^ max 4 (min 20 (s.rf (aPx n 0x18) 0 5))

/-- A push to a fetch-mode queue adds to FETCH_PUT (R230). -/
def State.fetchPush (s : State) (n k : Nat) : State :=
  let size := s.ringSize n
  let put := s.rf (aPx n 0x1C) 0 20 % size
  let get := s.rf (aPx n 0x20) 0 20 % size
  if size - 1 < (put + size - get) % size + k then s.setB (aPx n 0x28) 5
  else s.wr (aPx n 0x1C) (BitVec.ofNat 32 ((put + k) % size))

/-- Entry `e` enters the queue: it leaves again at this edge if DISCARD discards it (R231, R232, R254). -/
def State.joinQueue (s : State) (n : Nat) (e : W128) : State :=
  let p := s.pxs n
  if s.pxState n = 4 then
    let q := (p.queue ++ [e]).dropWhile fun e => entType e != 1
    (s.setQueue n q).settleDiscard n
  else s.setPx n { p with queue := p.queue ++ [e] }

/-- The oldest entry in the crossing arrives: it enters the queue, or in fetch mode moves FETCH_PUT (R228, R230, R231). -/
def State.arrive (s : State) (n : Nat) : State :=
  let p := s.pxs n
  match p.cross with
  | [] => s
  | e :: rest =>
    if !(s.pgs (n / 2)).run then s
    else if s.bit (aPx n 8) 0 then ((s.setPx n { p with cross := rest }).fetchPush n (fld e 0 20)).clearWaits
    else if 512 ≤ p.queue.length then s
    else (s.setPx n { p with cross := rest }).joinQueue n e

/-- An entry reaches the FCLK side of its crossing: it arrives, or waits there while FCLK stands (R231). -/
def State.crossed (s : State) (n : Nat) : State :=
  if (s.pgs (n / 2)).run then s.arrive n
  else s.setPx n { s.pxs n with here := min ((s.pxs n).here + 1) (s.pxs n).cross.length }

/-- QUEUE_ENTRY (R231). -/
def execQueueEntry (n : Fin 16) (s : State) : Host.Outcome State Fault Refusal := .next (s.crossed n.val)

/-- The address of ring entry `k` (R229). -/
def State.ringAddr (s : State) (n k : Nat) : Nat :=
  s.rf (aPx n 0x10) 4 28 * 16 + s.rf (aPx n 0x14) 0 8 * 2 ^ 32 + 16 * k

/-- The fetch has an entry to read and a place for it (R229). -/
def State.mayFetch (s : State) (n : Nat) : Bool :=
  let p := s.pxs n
  s.bit (aPx n 8) 0 && !p.fetchErr && (s.pgs (n / 2)).run && decide (p.queue.length < 512)
    && s.rf (aPx n 0x1C) 0 20 % s.ringSize n != s.rf (aPx n 0x20) 0 20 % s.ringSize n

/-- Expander `n` issues the read of its next ring entry, if it may and has none outstanding (R229). -/
def State.fetchAsk (s : State) (n : Nat) : State :=
  if s.mayFetch n && (s.xferOf (.fetch n)).isNone then
    s.xferStart (.fetch n) 18 0 256 false (s.ringAddr n (s.rf (aPx n 0x20) 0 20 % s.ringSize n)) 16 none
  else s

/-- A fetch read has returned: its entry enters the queue and FETCH_GET advances, or the fetch stops (R229). -/
def State.fetchReturn (s : State) (n : Nat) : State :=
  match s.xferOf (.fetch n) with
  | none => s
  | some x =>
    if x.over && (s.pgs (n / 2)).run then
      let s1 := s.dropXfer (.fetch n)
      if x.err.isSome then (s1.setPx n { s1.pxs n with fetchErr := true }).setB (aPx n 0x28) 2
      else
        (s1.wr (aPx n 0x20) (BitVec.ofNat 32 ((s.rf (aPx n 0x20) 0 20 % s.ringSize n + 1) % s.ringSize n))).joinQueue n
          (BitVec.ofNat 128 (leNat x.got))
    else s

/-- FETCH_RETURN (R229). -/
def execFetchReturn (n : Fin 16) (_ : Unit) (s : State) : Host.Outcome State Fault Refusal :=
  .next (s.awakeDo fun s => s.fetchReturn n.val)

/- Between bursts and starts (R233, R234, R236) ------------------------------------------------------------- -/

/-- The head entry between bursts (R236). -/
def State.idleEntry (s : State) (n : Nat) : State :=
  let p := s.pxs n
  match p.queue with
  | [] => s
  | e :: q =>
    if p.burst.isSome || s.pxState n = 4 || !(s.pgs (n / 2)).run || burstOk e then s
    else if operandOk e then ((s.setQueue n q).applyOperand n e).queueLow n
    else ((s.setQueue n q).setB (aPx n 0x28) 3).queueLow n

/-- IDLE_ENTRY (R236). -/
def execIdleEntry (n : Fin 16) (s : State) : Host.Outcome State Fault Refusal := .next (s.idleEntry n.val)

/-- The BURST entry at the head meets its start condition (R233). -/
def State.startCond (s : State) (n : Nat) : Bool :=
  match (s.pxs n).queue with
  | [] => false
  | e :: q => burstOk e && (decide (fld e 16 9 ≤ q.length) || q.any fun x => entType x == 1)

/-- The expander may take the BURST entry at its head now (R233 to R235, R263). -/
def State.mayStart (s : State) (n : Nat) : Bool :=
  let p := s.pxs n
  let g := n / 2
  (s.pgs g).run && s.pgLocked g && s.startCond n && p.burst.isNone
    && ((!s.isArmed n && (s.pxState n == 0 || (s.pxState n == 3 && !p.ends.isEmpty))) || (p.take && s.pxState n == 2))

/-- A lane that expander `n` owns is in training or serves another lane's training (R276). -/
def State.trainsOn (s : State) (n : Nat) : Bool :=
  (s.ownLanes n true).any fun l =>
    s.rf (aLn (8 * (n / 2) + l) 0x14) 0 2 == 1 || (s.lane (8 * (n / 2) + l)).serves.isSome

/-- The burst of entry `e` begins: its first frame starts at the next edge (R233, R253, R276). -/
def State.beginBurst (s : State) (n : Nat) (e : W128) (q : List W128) : State :=
  let p := s.pxs n
  let b : Burst := { mode := fld e 12 2, link := e.getLsbD 14, task := fld e 96 16, fetched := s.bit (aPx n 8) 0,
                     rep := none, seqEnd := false, segs := [], vloop := none, hist := [], next := .algo none,
                     linkDue := false }
  let s1 := if s.pxState n = 2 then s.mapHolds (Hold.left n true) else s
  let s2 := if p.take then s1.clrB (aPx n 0) 0 else s1
  let s3 := s2.setPx n { p with burst := some b, dbi := 0, take := false, lastEdge := (s.pgs (n / 2)).started }
  let s4 := ((s3.wr (aPx n 0x50) (BitVec.ofNat 32 (fld e 0 12))).wf (aPx n 4) 4 2 b.mode).setPxState n 3
  let s5 := ((s4.setQueue n q).takeNext n).queueLow n
  if s5.trainsOn n then s5.stopNow n else s5

/-- BURST_START (R233, R234). -/
def State.burstStart (s : State) (n : Nat) : State :=
  match (s.pxs n).queue with
  | [] => s
  | e :: q => if s.mayStart n then s.beginBurst n e q else s

/-- BURST_START (R233). -/
def execBurstStart (n : Fin 16) (s : State) : Host.Outcome State Fault Refusal := .next (s.burstStart n.val)

/-- The armed expanders. -/
def State.armedPx (s : State) : List Nat := (List.range 16).filter s.isArmed

/-- An armed expander qualifies for the start (R234, R263). -/
def State.qualifies (s : State) (n : Nat) : Bool :=
  s.pxState n == 2 && s.startCond n && s.pgLocked (n / 2) && (s.pgs (n / 2)).run

/-- Region `g` lies in the range of an armed site. -/
def State.armedRegion (s : State) (g : Nat) : Bool :=
  (List.range 256).any fun i => s.siteState i == 1 && decide ((s.siteRegions i).1 ≤ g)
    && decide (g < (s.siteRegions i).1 + (s.siteRegions i).2)

/-- A pending test start qualifies: every armed expander does, and no reset of an armed site is still to come (R234, R308). -/
def State.startQualified (s : State) : Bool :=
  s.startReq && s.armedPx.all s.qualifies && (List.range 4).all fun n => (s.thrs n).resets.all fun g => !s.armedRegion g

/-- The module takes part in synchronized starts (R289). -/
def State.joined (s : State) : Bool := (s.rf (aSyn 0x100) 0 2 == 1 || s.rf (aSyn 0x100) 0 2 == 2) && s.bit (aSyn 0x100) 2

/-- The start is released: the armed expanders take their BURST at their next edge, the armed sites run, and START is
raised for each (R17, R186, R234). -/
def State.releaseStart (s : State) : State :=
  let s1 := s.armedPx.foldl (fun t n => t.setPx n { t.pxs n with take := true }) { s with startReq := false }
  ((List.range 256).filter fun i => s.siteState i == 1).foldl
    (fun t i => (t.wf (aSite i 0x14) 0 3 2).post rkSite none 0 i) s1

/- Frames (R215, R240, R253, R259) ---------------------------------------------------------------------------- -/

/-- The expected symbols of a lane's 32 UI: each beat `k` UI long, nothing compared after the last beat (R215, R218). -/
def expectUis (k : Nat) (bs : List LaneBeat) : List (Option (BitVec 2)) :=
  let l := bs.flatMap fun b => List.replicate k (if b.cen then some b.exp else none)
  l ++ List.replicate (32 - l.length) none

/-- A frame of the expected-value delay line in which nothing is compared. -/
def ExpFrame.quiet (e : ExpFrame) : Bool := e.lanes.all fun p => p.2.2.all Option.isNone

/-- What expander `n` adds to the expected frame of number `idx` (R218, R297): P, tag and beat steps if TAG_SRC names it; `ts` is
the frame's timing set, and there is none in a frame in which the burst is VOID, whose P is 0 (log 47). -/
def State.expect (s : State) (n idx : Nat) (ts : Option Nat) (tag : Option (W64 × Nat × Nat))
    (ls : List (Nat × List LaneBeat)) : State :=
  let g := n / 2
  let p := s.pgs g
  let src := s.bit (aPg g 0) 8 == (n % 2 == 1)
  let d := s.rf (aPg g 8) 0 16
  let old := p.line.find? fun e => e.idx == idx
  let base := old.getD ⟨idx, idx + (31 + d) / 32 + 2, 0, false, 0, (0, 0), []⟩
  let k := ts.getD 0
  let add := ls.map fun x => (x.1, k, expectUis (s.period g k) x.2)
  let t := tag.getD (0, 0, 0)
  let e := { (if src then { base with p := (ts.map fun k => min 5 (s.tsf g k 0 3)).getD 0, tagv := tag.isSome, tag := t.1,
                                      steps := t.2 } else base)
             with lanes := base.lanes ++ add }
  let rest := p.line.filter fun x => x.idx != idx && !x.quiet
  s.setPg g { p with line := rest ++ [e] }

/-- Expander `n` delivers a frame: its beats reach the formatter and compare (R215, R218). Lanes without beats park when the
frame is complete (`State.form`). -/
def State.showFrame (s : State) (n idx : Nat) (ts : Option Nat) (tag : Option (W64 × Nat × Nat))
    (ls : List (Nat × List LaneBeat)) : State :=
  let g := n / 2
  let p := s.pgs g
  let sent := match ts with
    | some k => p.fmt ++ [OutFrame.mk n k ls]
    | none => p.fmt
  (s.setPg g { p with fmt := sent }).expect n idx ts tag ls

/-- The tag that PX and PY of beat 0 make (R218). -/
def tagOf (px py : Nat) : W64 := BitVec.ofNat 64 (px % 2 ^ 32 + py % 2 ^ 32 * 2 ^ 32)

/-- One frame of an ALGO burst (R240). -/
def State.algoFrame (s : State) (n idx : Nat) (op : Option W128) : State :=
  let u := s.micro n (s.rf (aPx n 0x50) 0 12)
  let ts := uf u 53 6
  let s1 := match op with
    | some e => s.applyOperand n e
    | none => s
  let s2 := s1.frameOps n u
  let r := s2.beats n u (32 / s.period (n / 2) ts) (s2.genOf n)
  let s3 := s2.putGen n r.2
  let ls := (s.burstLanes n 0).map fun l => (l, r.1.map fun b => s3.laneBeat n l u b)
  let b0 := r.1.headD ⟨0, 0, 0, 0, 0⟩
  let s4 := (s3.showFrame n idx (some ts) (some (tagOf b0.px b0.py, uf u 32 2, uf u 34 2)) ls).sequenceUop n u
  if uf u 0 3 = 5 then s4.endBurst n 0 (idx + 2) else s4.takeNext n

/-- The burst of expander `n` runs no further microinstruction (R252). -/
def State.endMicro (s : State) (n : Nat) : State :=
  let p := s.pxs n
  s.setPx n { p with burst := p.burst.map fun b => { b with seqEnd := true } }

/-- One frame of a VECTOR or MIXED burst `b` (R248 to R252). A lane with KIND OFF parks in VECTOR mode too (R217; log 128). X, Y, LFSR
and CRC step for all the beats of the frame, though VEND may cut off the last of them (R252 leaves it open: DESIGN CHOICE,
log 150). -/
def State.vecFrame (s : State) (n idx : Nat) (b : Burst) (codes : List (BitVec 32)) (ts : Nat) (last : Bool) : State :=
  let g := n / 2
  let u := s.micro n (s.rf (aPx n 0x50) 0 12)
  let runs := b.mode == 2 && !b.seqEnd
  let s1 := if runs then s.frameOps n u else s
  let r := if runs then s1.beats n u (32 / s.period g ts) (s1.genOf n) else ([], s1.genOf n)
  let s2 := if runs then s1.putGen n r.2 else s1
  let g0 := s1.genOf n
  let b0 := r.1.headD ⟨g0.x, g0.y, 0, 0, 0⟩
  let vec := s.vecLanes n b.mode
  let ls := (s.ownLanes n false).map fun l =>
    (l, if vec.contains l then codeBeats ((s.pgs g).sym.getD l 0) (codes.map fun c => laneCode c l)
        else if runs then (r.1.take codes.length).map fun x => s2.laneBeat n l u x
        else codes.map fun _ => LaneBeat.mk 0 false 0 false)
  let steps := if runs then (uf u 32 2, uf u 34 2) else (0, 0)
  let s3 := s2.showFrame n idx (some ts) (if b.mode == 2 then some (tagOf b0.px b0.py, steps) else none) ls
  let s4 := if runs then (if uf u 0 3 = 5 then s3.endMicro n else s3.sequenceUop n u) else s3
  if last then s4.endBurst n 0 (idx + 2) else s4.takeNext n

/-- The burst turns VOID at this frame, number `idx`, whose P is 0 (R254, R256, R257; log 47). -/
def State.voidFrame (s : State) (n idx : Nat) (b : Burst) (cause : Nat) : State :=
  let s1 := (s.showFrame n idx none none []).endBurst n cause (idx + 1)
  let s2 := if cause ≤ 2 then s1.setB (aPx n 0x28) 0 else s1
  ((s2.sawVoid n b.mode).setPxState n 4).settleDiscard n

/-- A new frame edge of the pin group: the formatter hands over, the frame count advances, QCOUNT of an expander without a burst is
judged, and an expander in STARTING waits one cycle more: every edge that begins in STARTING counts, that of the take too (R216, R232,
R234, R259; DESIGN CHOICE, log 160). -/
def State.newEdge (s : State) (g : Nat) : State :=
  let s0 := s.handOver g
  let s1 := ([2 * g, 2 * g + 1].filter fun n => (s.pxs n).burst.isNone).foldl State.queueLow
    (s0.setPg g { s0.pgs g with started := (s0.pgs g).started + 1 })
  ([2 * g, 2 * g + 1].filter fun n => s.pxState n == 2).foldl (fun t n => t.bump (aPx n 0x2C) 1) s1

/-- Expander `n` may deliver a frame: its clock runs, it is in a burst, and at a new edge the other expander's burst has
delivered its frame of the last one. -/
def State.mayFrame (s : State) (n : Nat) : Bool :=
  let p := s.pxs n
  let m := s.pxs (otherPx n)
  let g := s.pgs (n / 2)
  g.run && p.burst.isSome && (p.lastEdge != g.started || m.burst.isNone || m.lastEdge == g.started)

/-- One frame of expander `n` (R215); QCOUNT is judged after what it takes at the edge (R231, R232). -/
def State.frame (s : State) (n : Nat) : State :=
  if !s.mayFrame n then s
  else
    let g := n / 2
    let s1 := if (s.pxs n).lastEdge = (s.pgs g).started then s.newEdge g else s
    let k := (s1.pgs g).started
    let p := s1.pxs n
    match p.burst with
    | none => s
    | some b =>
      let s2 := s1.setPx n { p with lastEdge := k }
      match b.next with
      | .algo op => (s2.algoFrame n (k - 1) op).queueLow n
      | .vec codes ts last => (s2.vecFrame n (k - 1) b codes ts last).queueLow n
      | .void c => (s2.voidFrame n (k - 1) b c).queueLow n

/-- FRAME (R240). -/
def execFrame (n : Fin 16) (s : State) : Host.Outcome State Fault Refusal := .next (s.frame n.val)

/-- CTRL.STOP of expander `n`: a frame of the last edge that its burst has not yet delivered comes first (R237). -/
def State.pxStop (s : State) (n : Nat) : State :=
  (if (s.pxs n).lastEdge = (s.pgs (n / 2)).started then s else s.frame n).stopNow n

/-- STOP (R237). -/
def execStop (n : Fin 16) (s : State) : Host.Outcome State Fault Refusal := .next (s.mgmtDo (aPx n.val 0) (some (BitVec.ofNat 32 ((s.isArmed n.val).toNat + 2))) fun s => s.pxStop n.val)

/-- A frame edge at which neither expander is in a burst (R217, R259, R273). -/
def State.frameEdge (s : State) (g : Nat) : State :=
  if (s.pgs g).run && (s.pxs (2 * g)).burst.isNone && (s.pxs (2 * g + 1)).burst.isNone then
    s.newEdge g
  else s

/-- FRAME_EDGE (R259). -/
def execFrameEdge (g : Fin 8) (s : State) : Host.Outcome State Fault Refusal := .next (s.frameEdge g.val)

/- BURST_END (R235) ----------------------------------------------------------------------------------------- -/

/-- The oldest ending of expander `n` is due: BURST_END is raised and BURST_STATUS recorded (R235, R256). -/
def State.burstEnd (s : State) (n : Nat) : State :=
  let p := s.pxs n
  let k := (s.pgs (n / 2)).started
  match p.ends with
  | [] => s
  | e :: rest =>
    if k < e.due then s
    else
      let task := if e.fetched then s.rf (aPx n 0xC) 0 16 else e.task
      let s1 := (s.setPx n { p with ends := rest }).post (rkPx n) (some task) 3 n
      let cnt := s.rf (aPx n 0x24) 16 16 + 1
      let s2 := s1.wr (aPx n 0x24) (BitVec.ofNat 32 ((if e.cause = 0 then 1 else 2) + e.cause * 16 + cnt % 65536 * 65536))
      let s3 := (if e.cause = 0 then s2 else s2.setB (aPx n 0x28) 1).mapHolds (Hold.ended n k)
      if p.burst.isSome || !rest.isEmpty then s3
      else if s.pxState n = 4 then s3.settleDiscard n
      else s3.pxRest n

/-- BURST_END (R235). -/
def execBurstEnd (n : Fin 16) (s : State) : Host.Outcome State Fault Refusal := .next (s.burstEnd n.val)

end Sys2Proof.Machine
end

