-- ==== Sys2Proof/Machine/PinGroup.lean ====
section
/-!
DEFINITION. Compare, fail records, overflow episodes and close marks of a pin group, and FINISH of a site (chapter 9,
R292 to R302 and R309; R17).
-/

namespace Sys2Proof.Machine

/- Compare (R292 to R294) ------------------------------------------------------------------------------- -/

/-- STATUS.TSTATE of lane `n`: 0 untrained, 1 running, 2 trained, 3 failed. -/
def State.tstate (s : State) (n : Nat) : Nat := s.rf (aLn n 0x14) 0 2

/-- The factory baseline of threshold `i` of lane `n` in mV, which the spec does not number: a free value (R276). -/
def factoryTh (n i : Nat) : Int := (Config.factory 1 (3 * n + i)).toInt

/-- The baseline of threshold `i` of a trained lane: of the last training that set it; of any other lane, of the factory (R275,
R276). -/
def State.thBase (s : State) (n i : Nat) : Int :=
  match (s.lane n).rx with
  | some v => if s.tstate n = 2 then v.2[i]?.getD 0 else factoryTh n i
  | none => factoryTh n i

/-- The strobe baseline in 1/1024 UI; the factory's is a free value (R275, R276). -/
def State.stBase (s : State) (n : Nat) : Int :=
  match (s.lane n).rx with
  | some v => if s.tstate n = 2 then v.1 else (Config.factory 8 n).toInt
  | none => (Config.factory 8 n).toInt

/-- RX_TRIM and TH_TRIM as compare uses them for frame `f`: those of the first correction later than `f`, as they were before it,
or else the present ones (R281). -/
def State.trimsAt (s : State) (n f : Nat) : W32 × W32 :=
  match (s.lane n).trims.find? fun x => decide (f < x.1) with
  | some x => x.2
  | none => (s.rd (aLn n 0x34), s.rd (aLn n 0x38))

/-- Threshold `i` of lane `n` in mV for frame `f`: baseline and TH_TRIM (R270, R281, R293). -/
def State.threshold (s : State) (n i f : Nat) : Int :=
  s.thBase n i + (BitVec.ofNat 8 (field (s.trimsAt n f).2 (8 * i) 8)).toInt

/-- The level number of a PAM4 symbol (R266). -/
def pamLevel (gray : Bool) (v : BitVec 2) : Nat :=
  if gray then (if v = 2 then 3 else if v = 3 then 2 else v.toNat) else v.toNat

/-- The thresholds that bound the band of a symbol: the lower and the upper (R270, R293). -/
def State.bounds (s : State) (g l : Nat) (exp : BitVec 2) : Option Nat × Option Nat :=
  if s.pam4 g l then
    let k := pamLevel (s.bit (aLn (8 * g + l) 0) 1) exp
    (if k = 0 then none else some (k - 1), if k = 3 then none else some k)
  else if exp = 0 then (none, some 0) else (some 0, none)

/-- The wave that reaches the receiver of lane `n`, P and N exchanged by CFG.INVERT (R266). -/
def State.facing (s : State) (n : Nat) (wave : List (Int × Int)) : List (Int × Int) :=
  if s.bit (aLn n 0) 2 then wave.map fun x => (x.1, -x.2) else wave

/-- The level of a wave at a position; none before the wave begins. -/
def levelAt (wave : List (Int × Int)) (pos : Int) : Option Int :=
  wave.foldl (fun (acc : Option Int) x => if x.1 ≤ pos then some x.2 else acc) none

/-- The level at a position behind the CTLE under an RX word (R269): a peaking of 0 dB leaves the wave as it is (DEDUCED, log 151);
what another makes of it is a free value. -/
def ctleLevel (rx : W32) (wave : List (Int × Int)) (pos : Int) : Option Int :=
  (levelAt wave pos).map fun v => match min 18 (field rx 0 5) with
    | 0 => v
    | k => Config.ctle k wave pos

/-- The weight of a symbol of lane `l` among its levels: -3, -1, 1 or 3 sixths of the whole swing (R266). -/
def State.symWeight (s : State) (g l : Nat) (v : BitVec 2) : Int :=
  if s.pam4 g l then 2 * (pamLevel (s.bit (aLn (8 * g + l) 0) 1) v : Nat) - 3 else if v = 0 then -3 else 3

/-- What the DFE subtracts under an RX and a DFE word after the decisions `hist`, the latest first, in thirds of a millivolt: for tap
i, 4 mV × TAPi times the symbol i UI earlier, from -1 to 1 (R269; DEDUCED, log 151). -/
def State.dfe (s : State) (g l : Nat) (rx taps : W32) (hist : List (BitVec 2)) : Int :=
  if rx.getLsbD 8 then
    (List.range 6).foldl (fun acc i =>
      acc + 4 * (BitVec.ofNat 5 (field taps (5 * i) 5)).toInt * s.symWeight g l (hist.getD i 0)) 0
  else 0

/-- A level, in thirds of a millivolt, clears its bounds by the margin (R293). -/
def State.clears (s : State) (g l f : Nat) (exp : BitVec 2) (level : Int) : Bool :=
  let m : Int := ((s.rf (aPg g (0x40 + 4 * l)) 8 8 : Nat) : Int)
  let b := s.bounds g l exp
  (match b.1 with
    | some i => decide (3 * (s.threshold (8 * g + l) i f + m) ≤ level)
    | none => true) &&
  (match b.2 with
    | some i => decide (level ≤ 3 * (s.threshold (8 * g + l) i f - m))
    | none => true)

/-- The symbol that lane `l` decides for a level in thirds of a millivolt (R266, R270, R292): the level number is the count of its
thresholds that the level reaches (a level at a threshold reaches it: DEDUCED, log 129). -/
def State.decideSym (s : State) (g l f : Nat) (level : Int) : BitVec 2 :=
  let n := 8 * g + l
  let k := ((List.range (if s.pam4 g l then 3 else 1)).filter fun i => decide (3 * s.threshold n i f ≤ level)).length
  BitVec.ofNat 2 (if s.pam4 g l then pamLevel (s.bit (aLn n 0) 1) (BitVec.ofNat 2 k) else k)

/-- The sample positions of a beat that begins `start` UI into frame `f` under timing set `k`, in 1/1024 UI from the start of the
frame (R265, R293): STROBE, and in WINDOW mode STROBE + floor(i × WINDOW / (N − 1)), with the baseline and RX_TRIM added. -/
def State.positions (s : State) (g l f k start : Nat) : List Int :=
  let c := aPg g (0x40 + 4 * l)
  let n := 8 * g + l
  let e := 128 + 128 * l
  let cnt := max 2 (s.rf c 4 3 + 1)
  let offs := if s.rf c 0 2 = 1 then (List.range cnt).map fun i => i * s.tsf g k (e + 64) 12 / (cnt - 1) else [0]
  offs.map fun o => (((128 * start + s.tsf g k (e + 52) 12 + o) * 8 : Nat) : Int) + s.stBase n
    + (BitVec.ofNat 13 (field (s.trimsAt n f).1 0 13)).toInt

/-- The RX and DFE words that act on the beat of expected frame `f` that begins with UI `b`, which is received EXP_DELAY UI later
(R218, R269). -/
def State.rxAt (s : State) (g l f b : Nat) : W32 × W32 := (s.actAt (8 * g + l) (f + (b + s.rf (aPg g 8) 0 16) / 32)).2

/-- The levels that judge the beat that begins with UI `b`, at its sample positions, in thirds of a millivolt: behind the CTLE and,
after the decisions `hist`, the DFE (R269, R293; DEDUCED, log 129). `i` UI earlier counts from the first UI of the beat, wherever
STROBE lies in it (DESIGN CHOICE, log 163). -/
def State.beatLevels (s : State) (g l f k b : Nat) (wave : List (Int × Int)) (hist : List (BitVec 2)) : List Int :=
  let a := s.rxAt g l f b
  let d := s.dfe g l a.1 a.2 hist
  (s.positions g l f k b).filterMap fun p => (ctleLevel a.1 (s.facing (8 * g + l) wave) p).map fun v => 3 * v - d

/-- A compared UI fails, by the levels at its beat's sample positions, the first at STROBE (R293). -/
def State.uiFails (s : State) (g l f : Nat) (exp : BitVec 2) (levels : List Int) : Bool :=
  (levels.any fun v => s.decideSym g l f v != exp) ||
    (s.rf (aPg g (0x40 + 4 * l)) 0 2 == 2 && levels.any fun v => !s.clears g l f exp v)

/-- The fail bits of the UIs of a beat, the first of them UI `u`, under levels that judge them all. -/
def State.beatBits (s : State) (g l f : Nat) (levels : List Int) : Nat → List (Option (BitVec 2)) → Nat
  | _, [] => 0
  | u, e :: es =>
    (match e with
      | some v => if s.uiFails g l f v levels then 2 ^ u else 0
      | none => 0) + s.beatBits g l f levels (u + 1) es

/-- The fail bits of a lane in `c` beats from UI `b` on: its expected symbols beside the wave it received, after the decisions
`hist`, the newest of which is that of the UI before the beat (DESIGN CHOICE, log 163). -/
def State.failBits (s : State) (g l f k : Nat) (wave : List (Int × Int)) :
    Nat → Nat → List (BitVec 2) → List (Option (BitVec 2)) → Nat
  | 0, _, _, _ => 0
  | c + 1, b, hist, es =>
    let len := s.period g k
    let lv := s.beatLevels g l f k b wave hist
    s.beatBits g l f lv b (es.take len)
      + s.failBits g l f k wave c (b + len) ((List.replicate len (s.decideSym g l f (lv.headD 0)) ++ hist).take 6) (es.drop len)

/-- What lane `l` received. -/
def rxOf (rx : List LaneSamples) (l : Nat) : List (BitVec 2) × List (Int × Int) :=
  ((rx.find? fun x => x.lane.val == l).map fun x => (x.prior, x.wave)).getD ([], [])

/-- The waves reach every sample position of a compared UI, and of every UI of a compared lane whose DFE acts. -/
def State.covered (s : State) (g : Nat) (e : ExpFrame) (rx : List LaneSamples) : Bool :=
  e.lanes.all fun p => p.2.2.all Option.isNone || (List.range 32).all fun u =>
    let b := u / s.period g p.2.1 * s.period g p.2.1
    ((p.2.2.getD u none).isNone && !(s.rxAt g p.1 e.idx b).1.getLsbD 8)
      || (s.positions g p.1 e.idx p.2.1 b).all fun q => (levelAt (rxOf rx p.1).2 q).isSome

/-- The failing lanes of a frame with their fail bits, in lane order (R296). -/
def State.failMask (s : State) (g : Nat) (e : ExpFrame) (rx : List LaneSamples) : List (Nat × W32) :=
  (List.range 8).filterMap fun l =>
    let m := (e.lanes.filter fun p => p.1 == l).foldl
      (fun acc p => Nat.lor acc (s.failBits g l e.idx p.2.1 (rxOf rx l).2 32 0 (rxOf rx l).1 p.2.2)) 0
    if m = 0 then none else some (l, BitVec.ofNat 32 m)

/- Records and diversion (R296 to R302) ------------------------------------------------------------------- -/

/-- The intake queue of pin group `g`. -/
def State.intakeOf (s : State) (g : Nat) : List Intake := if g % 2 = 1 then (s.thrs (g / 2)).q1 else (s.thrs (g / 2)).q0

/-- Put an item into the intake queue of pin group `g` (R300). -/
def State.enqueue (s : State) (g : Nat) (x : Intake) : State :=
  let t := s.thrs (g / 2)
  s.setThr (g / 2) (if g % 2 = 1 then { t with q1 := t.q1 ++ [x] } else { t with q0 := t.q0 ++ [x] })

/-- The intake queue of pin group `g` has a free place. -/
def State.hasPlace (s : State) (g : Nat) : Bool := decide ((s.intakeOf g).length < 32)

/-- Widen the range of a lane to a region (R301). -/
def widen (l r : Nat) : List (Nat × Nat × Nat) → List (Nat × Nat × Nat)
  | [] => [(l, r, r)]
  | (k, lo, hi) :: t => if k = l then (k, min lo r, max hi r) :: t else (k, lo, hi) :: widen l r t

/-- Add with saturation at 32 bits. -/
def satAdd (a b : Nat) : Nat := min 0xFFFFFFFF (a + b)

/-- A record that finds no place is diverted (R301). -/
def State.divert (s : State) (g : Nat) (r : FailRec) : State :=
  let p := s.pgs g
  let e := p.ep.getD ⟨r.cycle, 0, 0, []⟩
  let ranges := if r.tagv then
      r.mask.foldl (fun acc x => match s.mapRegion (g / 2) (8 * (g % 2) + x.1) r.tag with
        | some k => widen x.1 (k % 4096) acc
        | none => acc) e.ranges
    else e.ranges
  let ui := (r.mask.map fun x => (uisOf x.2).length).foldl (· + ·) 0
  ((s.setPg g { p with ep := some { e with records := satAdd e.records 1, ui := satAdd e.ui ui, ranges := ranges } }).bump
    (aPg g 0x84) 1).setB (aPg g 0x88) 0

/-- A fail record is formed (R298, R299, R301). -/
def State.record (s : State) (g : Nat) (r : FailRec) : State :=
  let s1 := r.mask.foldl (fun t x => t.bumpSat (aPg g (0x60 + 4 * x.1)) (uisOf x.2).length) (s.bump (aPg g 0x80) 1)
  let s2 := s1.saw (laneMask g (r.mask.map (·.1))) 8
  if (s2.pgs g).ep.isNone && s2.hasPlace g then s2.enqueue g (.fail r) else s2.divert g r

/-- The next expected frame that is due is judged (R296). -/
def State.judge (s : State) (g : Nat) (rx : List LaneSamples) : State :=
  let p := s.pgs g
  match p.line.dropWhile ExpFrame.quiet with
  | [] => s
  | e :: rest =>
    if decide (p.started < e.due) || !s.covered g e rx then s
    else
      let s1 := s.setPg g { p with line := rest }
      match s1.failMask g e rx with
      | [] => s1
      | m => s1.record g ⟨e.idx % 2 ^ 48, g, e.p, e.tagv, e.tag, m⟩

/-- FAIL_RECORD (R296). -/
def execFailRecord (g : Fin 8) (rx : List LaneSamples) (s : State) : Host.Outcome State Fault Refusal :=
  .next (s.judge g.val rx)

/-- The episode's summary enters the intake queue (R302). -/
def State.summarize (s : State) (g : Nat) : State :=
  let p := s.pgs g
  match p.ep with
  | some e => if s.hasPlace g then (s.setPg g { p with ep := none }).enqueue g (.summary g e) else s
  | none => s

/-- OVERFLOW_SUMMARY (R302). -/
def execOverflowSummary (g : Fin 8) (s : State) : Host.Outcome State Fault Refusal := .next (s.summarize g.val)

/-- The oldest waiting close mark enters the intake queue, behind the summary of an episode (R309). -/
def State.closeMarkIn (s : State) (g : Nat) : State :=
  let p := s.pgs g
  match p.marks with
  | [] => s
  | i :: rest =>
    if p.ep.isNone && s.hasPlace g then (s.setPg g { p with marks := rest }).enqueue g (.mark g i) else s

/-- CLOSE_MARK (R309). -/
def execCloseMark (g : Fin 8) (s : State) : Host.Outcome State Fault Refusal := .next (s.closeMarkIn g.val)

/- FINISH (R17) -------------------------------------------------------------------------------------------- -/

/-- Frame `e` of expander `n`'s pin group has still to be compared on a lane of `n`. -/
def State.frameOf (s : State) (n : Nat) (e : ExpFrame) : Bool :=
  e.lanes.any fun x => s.owns n x.1 && x.2.2.any Option.isSome

/-- What holds a FINISH of site `i` on expander `n`: its bursts, and the frames of its bursts that compare has still to judge
(R11, R17; log 149). -/
def State.holdOf (s : State) (i n : Nat) : Option Hold :=
  let p := s.pxs n
  let k := p.ends.length + p.burst.isSome.toNat
  let st := s.pxState n == 2
  let line := (s.pgs (n / 2)).line.filter (s.frameOf n)
  if meets (s.siteLanes i) (laneMask (n / 2) (s.ownLanes n true)) && (st || 0 < k || !line.isEmpty) then
    some ⟨n, k, st, line.foldl (fun d e => max d e.due) 0⟩
  else none

/-- CTRL.FINISH of site `i` (R17). -/
def State.finish (s : State) (i : Nat) : State :=
  let t := s.site i
  if s.siteState i = 2 && t.finish.isNone then
    s.setSite i { t with finish := some ((List.range 16).filterMap (s.holdOf i)) }
  else s

/-- FINISH (R17). -/
def execFinish (i : Fin 256) (s : State) : Host.Outcome State Fault Refusal := .next (s.mgmtDo (aSite i.val 0x10) (some (s.rd (aSite i.val 0x10) ||| 0x10)) fun s => s.finish i.val)

/-- A hold has ended: its bursts have raised BURST_END and their records are formed. -/
def State.holdOver (s : State) (h : Hold) : Bool :=
  h.ends == 0 && !h.starting && (s.pgs (h.px / 2)).line.all fun e => !s.frameOf h.px e || decide (h.due < e.due)

/-- A FINISH that nothing holds moves its site to done (R17). -/
def State.finishDone (s : State) (i : Nat) : State :=
  match (s.site i).finish with
  | some l => if s.siteState i = 2 && l.all s.holdOver then s.siteToDone i else s
  | none => s

/- Counters (R6, R259) --------------------------------------------------------------------------------------- -/

/-- CNT_CLEAR of a pin group: FAIL_UI, REC_CNT and DIV_CNT. -/
def State.pgClear (s : State) (g : Nat) : State :=
  [0x60, 0x64, 0x68, 0x6C, 0x70, 0x74, 0x78, 0x7C, 0x80, 0x84].foldl (fun t o => t.wr (aPg g o) 0) s

/-- PG_CNT_CLEAR. -/
def execPgCntClear (g : Fin 8) (s : State) : Host.Outcome State Fault Refusal := .next (s.mgmtDo (aPg g.val 0x8C) (some (1)) fun s => s.pgClear g.val)

/-- A read of FRAME_LO: the frame count at this instant, its high word held (R259). -/
def State.pgFrameRead (s : State) (g : Nat) : State :=
  let c := (s.pgs g).started - 1
  { (s.wr (aPg g 0x10) (BitVec.ofNat 32 c)).wr (aPg g 0x14) (BitVec.ofNat 32 (c / 2 ^ 32 % 2 ^ 16)) with
      busOut := BitVec.ofNat 32 c }

/-- PG_FRAME_LO (R259). -/
def execPgFrameLo (g : Fin 8) (s : State) : Host.Outcome State Fault Refusal := .next (s.mgmtDo (aPg g.val 0x10) (none) fun s => s.pgFrameRead g.val)

end Sys2Proof.Machine
end

