-- ==== Sys2Proof/Machine/Lanes.lean ====
section
/-!
DEFINITION. Pin-group clocks, training, calibration, PRBS tests, eye scans and boundary scan of the lanes (chapter 8,
R260 to R287, R291 and R519).
-/

namespace Sys2Proof.Machine

/-- Pin group of lane `n`. -/
def pgOf (n : Nat) : Nat := n / 8

/- Clocks (R260 to R263) ---------------------------------------------------------------------------------- -/

/-- MULT and DIV of pin group `g`, and KHZ. -/
def State.rateRegs (s : State) (g : Nat) : Nat × Nat × Nat :=
  (s.rf (aSyn (0x10 + 0x10 * g)) 0 11, s.rf (aSyn (0x10 + 0x10 * g)) 16 6, s.rf (aSyn 0) 0 20)

/-- The symbol rate that a rate declares is at least `khz` (R260). -/
def rateAtLeast (r : Nat × Nat × Nat) (khz : Nat) : Bool := decide (khz * r.2.1 ≤ r.2.2 * r.1)

/-- A rate is in range (R261, code 0x2). -/
def rateOk (r : Nat × Nat × Nat) : Bool :=
  decide (1 ≤ r.1) && decide (r.1 ≤ 1024) && decide (1 ≤ r.2.1) && decide (r.2.1 ≤ 32) && decide (100000 ≤ r.2.2)
    && decide (r.2.2 ≤ 1000000) && rateAtLeast r 1000000 && decide (r.2.2 * r.1 ≤ 56000000 * r.2.1)

/-- The lowest code that refuses a relock; 0: accepted (R261). -/
def State.relockCode (s : State) (g : Nat) : Nat :=
  let r := s.rateRegs g
  let meas := s.rf (aSyn 4) 0 20
  if s.pxState (2 * g) != 0 || s.pxState (2 * g + 1) != 0 then 1
  else if !rateOk r then 2
  else if ((List.range 8).any (s.pam4 g)) && !rateAtLeast r 14000000 then 3
  else if !s.bit (aSyn 4) 31 then 4
  else if r.2.2 < 1000 * (max meas r.2.2 - min meas r.2.2) then 5
  else 0

/-- The lanes of a pin group stand in electrical idle (R261, R268). -/
def State.idleLanes (s : State) (g : Nat) : State :=
  let s1 := s.setPg g { s.pgs g with den := Vector.replicate 8 true, ei := Vector.replicate 8 true, fmt := [], fmt1 := [], out := [] }
  (List.range 8).foldl (fun t l => t.setDriver g l true) s1

/-- The lane that serves the training of lane `n` is free again. -/
def State.freePartner (s : State) (n : Nat) : State :=
  { s with lanes := s.lanes.filterMap fun p =>
      let v := if p.2.serves = some n then { p.2 with serves := none } else p.2
      if v = LnSt.init then none else some (p.1, v) }

/-- Lane `n` becomes untrained: trims cleared, TSTATE 0 (R261, R291). -/
def State.untrain (s : State) (n : Nat) : State :=
  (((((s.wr (aLn n 0x30) 0).wr (aLn n 0x34) 0).wr (aLn n 0x38) 0).wf (aLn n 0x14) 0 2 0)).freePartner n

/-- A write of SYN.PG[g].CTRL.RELOCK (R261). A relock with the MULT and DIV of the lock before lets a training of the group's lanes go
on (DEDUCED, log 52). -/
def State.relock (s : State) (g : Nat) : State :=
  let st := aSyn (0x18 + 0x10 * g)
  match s.relockCode g with
  | 0 =>
    let r := s.rateRegs g
    let p := s.pgs g
    let s1 := (s.setPg g { p with run := false, rate := some r }).idleLanes g
    let s2 := (s1.clrB st 0).setB st 1
    if p.rate.any fun q => q.1 != r.1 || q.2.1 != r.2.1 then
      (List.range 8).foldl (fun t l => t.untrain (8 * g + l)) s2
    else s2
  | k => (s.wf st 4 4 k).flag (aSyn 0x110) 5

/-- RELOCK (R261). -/
def execRelock (g : Fin 8) (s : State) : Host.Outcome State Fault Refusal := .next (s.mgmtDo (aSyn (0x14 + 0x10 * g.val)) (some (1)) fun s => s.relock g.val)

/-- The first edge after a stand of FCLK: the entries that the crossing delivered meanwhile enter the queue, and a fetch read that
has returned does (R231). -/
def State.letIn (s : State) (n : Nat) : State :=
  let k := (s.pxs n).here
  ((List.range k).foldl (fun t _ => t.arrive n) (s.setPx n { s.pxs n with here := 0 })).fetchReturn n

/-- The frame clock of a pin group starts: frame count 0, with its first edge (R231, R262); what is left in the delay line is
due. -/
def State.clockStart (s : State) (g : Nat) : State :=
  let s0 := s.handOver g
  let p := s0.pgs g
  let s1 := s0.setPg g { p with run := true, started := 1, line := p.line.map fun e => { e with due := 0 } }
  let s2 := (List.range 8).foldl (fun t l => t.setLane (8 * g + l) { t.lane (8 * g + l) with trims := [], acts := [] }) s1
  let s3 := [2 * g, 2 * g + 1].foldl (fun t n => t.setPx n { t.pxs n with lastEdge := 0 }) s2
  let s4 := s3.mapHolds fun h => if h.px / 2 = g then { h with due := 0 } else h
  (s4.letIn (2 * g)).letIn (2 * g + 1)

/-- The PLL of pin group `g` locks after a relock (R261, R262), one in progress when TREF fell absent too (DESIGN CHOICE, log 162). -/
def State.pllLock (s : State) (g : Nat) : State :=
  let st := aSyn (0x18 + 0x10 * g)
  if s.bit st 1 then (((s.setB st 0).clrB st 1).clrB st 2).clockStart g else s

/-- What a loss of lock does to pin group `g` (R263); its lanes go to electrical idle at the next frame edge, since
LOCKED is 0. A relock in progress stays one (DESIGN CHOICE, log 162). -/
def State.unlock (s : State) (g : Nat) : State :=
  let s1 := (s.pxStop (2 * g)).pxStop (2 * g + 1)
  (s1.clrB (aSyn (0x18 + 0x10 * g)) 0).setB (aSyn 0x110) 3

/-- The PLL of a locked pin group loses lock. -/
def State.lossOfLock (s : State) (g : Nat) : State := if s.pgLocked g then s.unlock g else s

/-- LOSS_OF_LOCK (R263). -/
def execLossOfLock (g : Fin 8) (s : State) : Host.Outcome State Fault Refusal := .next (s.lossOfLock g.val)

/-- TREF_STATUS.PRESENT falls (R263, R519). -/
def State.trefAbsent (s : State) : State :=
  if s.bit (aSyn 4) 31 then
    ((List.range 8).foldl State.unlock (s.clrB (aSyn 4) 31)).setB (aSyn 0x110) 4
  else s

/-- TREF_ABSENT (R263). -/
def execTrefAbsent (s : State) : Host.Outcome State Fault Refusal := .next s.trefAbsent

/-- TREF_PRESENT (R519): edges have arrived for 1 µs without a gap. -/
def execTrefPresent (s : State) : Host.Outcome State Fault Refusal := .next (s.setB (aSyn 4) 31)

/-- A gate window of 1 ms ends; TREF was present throughout (R519). -/
def State.measWindow (s : State) (edges : Nat) : State := if s.bit (aSyn 4) 31 then s.wf (aSyn 4) 0 20 edges else s

/-- MEAS_WINDOW (R519). -/
def execMeasWindow (edges : BitVec 20) (s : State) : Host.Outcome State Fault Refusal :=
  .next (s.measWindow edges.toNat)

/- Training (R275, R276, R283) -------------------------------------------------------------------------------- -/

/-- The expander that owns lane `n` (R214). -/
def State.ownerPx (s : State) (n : Nat) : Nat := 2 * pgOf n + (s.bit (aPg (pgOf n) 0) (n % 8)).toNat

/-- The training of lane `n` uses its partner: SRC 2 or 3, or RTRIP. -/
def State.usesPartner (s : State) (n : Nat) : Bool := 2 ≤ s.rf (aLn n 0x10) 0 2 || s.bit (aLn n 0x10) 2

/-- The partner lane. -/
def State.partner (s : State) (n : Nat) : Nat := 8 * pgOf n + s.rf (aLn n 0x10) 4 3

/-- Why a GO fails at once; 0: it does not (R275). -/
def State.trainCode (s : State) (n : Nat) : Nat :=
  let m := s.partner n
  let u := s.usesPartner n
  if !s.pgLocked (pgOf n) then 2
  else if s.pxState (s.ownerPx n) != 0 || (u && s.pxState (s.ownerPx m) != 0) then 1
  else if u && (s.tstate m == 1 || (s.lane m).serves.any fun k => k != n) then 6
  else 0

/-- GO of TRAIN (R275). A lane that is training already starts again at step 1; the partner it has kept goes on serving it until it ends
(DESIGN CHOICE, log 164). -/
def State.trainGo (s : State) (n : Nat) : State :=
  match s.trainCode n with
  | 0 =>
    let s1 := ((s.wf (aLn n 0x14) 0 2 1).wf (aLn n 0x14) 4 3 1).wf (aLn n 0x14) 8 4 0
    if s.usesPartner n then s1.setLane (s.partner n) { s1.lane (s.partner n) with serves := some n } else s1
  | k => (s.wf (aLn n 0x14) 8 4 k).flag (aLn n 0x50) 3

/-- A write of LN[n].TRAIN: SRC, RTRIP, PARTNER and PATTERN, then GO (R275). Bits written while the lane trains steer what is left of
the training (DESIGN CHOICE, log 164). -/
def State.trainWrite (s : State) (n : Nat) (v : W32) : State :=
  let s1 := s.wr (aLn n 0x10) (v &&& 0x777)
  if v.getLsbD 31 then s1.trainGo n else s1

/-- TRAIN (R275). -/
def execTrain (n : Fin 64) (v : W32) (s : State) : Host.Outcome State Fault Refusal := .next (s.mgmtDo (aLn n.val 0x10) (some (v)) fun s => s.trainWrite n.val v)

/-- The last step of lane `n`'s training before its end (R275). -/
def State.trainLast (s : State) (n : Nat) : Nat :=
  if s.rf (aLn n 0x10) 0 2 = 0 then 2 else if s.bit (aLn n 0x10) 2 then 7 else 6

/-- What step `k` of lane `n`'s training leaves when it is over: TX_TRIM 0; the CTLE setting it keeps and the DFE taps, both free
values; RX_TRIM and TH_TRIM 0 (R275). -/
def State.trainEffect (s : State) (n k : Nat) : State :=
  match k with
  | 2 => s.wr (aLn n 0x30) 0
  | 4 => (s.wf (aLn n 8) 0 5 (s.free.toNat % 19)).used
  | 5 => (s.wr (aLn n 0xC) ((s.free.setWidth 30).setWidth 32)).used
  | 6 => let s1 := (s.wr (aLn n 0x34) 0).wr (aLn n 0x38) 0
         s1.setLane n { s1.lane n with trims := [] }
  | _ => s

/-- Lane `n`'s training is over with its step and goes on to the next. -/
def State.trainNext (s : State) (n : Nat) : State :=
  let k := s.rf (aLn n 0x14) 4 3
  (s.trainEffect n k).wf (aLn n 0x14) 4 3 (k + 1)

/-- Training of lane `n` may go on to its next step in this cycle: a free value says whether it does, as the spec gives only the
longest time of a step (R275). -/
def State.trainStep (s : State) (n : Nat) : State :=
  if s.tstate n != 1 then s
  else
    let s1 := s.used
    if s.free.getLsbD 0 && decide (s.rf (aLn n 0x14) 4 3 < s.trainLast n) then s1.trainNext n else s1

/-- Training of lane `n` runs on to step `k` (R275). -/
def State.trainTo (s : State) (n k : Nat) : State :=
  (List.range (k - s.rf (aLn n 0x14) 4 3)).foldl (fun t _ => t.trainNext n) s

/-- The FAIL code of a step; 0: the step cannot fail (R275). -/
def stepCode (k : Nat) : Nat := match k with
  | 3 => 3
  | 4 | 5 | 6 => 4
  | 7 => 5
  | _ => 0

/-- Training of lane `n` fails at step `k`, which it has not passed: the steps before it have left what they leave (R275). -/
def State.trainFail (s : State) (n k : Nat) : State :=
  let s1 := (s.trainTo n k).freePartner n
  (((s1.wf (aLn n 0x14) 0 2 3).wf (aLn n 0x14) 4 3 k).wf (aLn n 0x14) 8 4 (stepCode k)).setB (aLn n 0x50) 3

/-- Training of lane `n` ends well: its last step is over, its baselines are set and every trim is 0, without a step 6 too (R275,
R283). -/
def State.trainDone (s : State) (n : Nat) (tx strobe t0 t1 t2 : Int) (rtrip : BitVec 16) : State :=
  let last := s.trainLast n
  let s0 := (s.trainTo n last).trainEffect n last
  let s1 := (if last < 6 then s0.trainEffect n 6 else s0).freePartner n
  let s2 := s1.setLane n { s1.lane n with tx := some tx, rx := if 2 < last then some (strobe, #v[t0, t1, t2]) else (s1.lane n).rx }
  let s3 := if last = 7 then s2.wr (aLn n 0x18) (BitVec.ofNat 32 (rtrip.toNat + 2 ^ 31)) else s2
  (s3.wf (aLn n 0x14) 0 2 2).wf (aLn n 0x14) 4 3 last

/-- Training of lane `n` ends (R275, R283). A step that it does not reach or has passed cannot fail. -/
def State.trainEnd (s : State) (n : Nat) (r : TrainResult) : State :=
  if s.tstate n != 1 then s
  else match r with
  | .fail k =>
    if stepCode k.toNat != 0 && decide (s.rf (aLn n 0x14) 4 3 ≤ k.toNat) && decide (k.toNat ≤ s.trainLast n) then
      s.trainFail n k.toNat
    else s
  | .done tx strobe t0 t1 t2 rtrip => s.trainDone n tx strobe t0 t1 t2 rtrip

/- Calibration (R277 to R285) ------------------------------------------------------------------------------------ -/

/-- A calibration alarm on lane `n` (R282); AT_LIMIT is `State.atLimit`. -/
def State.calAlarm (s : State) (n : Nat) : State :=
  ((s.setB (aLn n 0x50) 1).post rkLane none 10 n).sawActive (2 ^ n) 12 fun i => s.bit (aSite i 0x10) 1

/-- A signed field. -/
def State.srf (s : State) (a lo w : Nat) : Int := (BitVec.ofNat w (s.rf a lo w)).toInt

/-- The trims of lane `n`: 0 TX, 1 RX, 2 to 4 the thresholds. -/
def State.trim (s : State) (n w : Nat) : Int :=
  match w with
  | 0 => s.srf (aLn n 0x30) 0 13
  | 1 => s.srf (aLn n 0x34) 0 13
  | k => s.srf (aLn n 0x38) (8 * (k - 2)) 8

/-- The number whose low `w` bits are `x` in two's complement. -/
def twos (w : Nat) (x : Int) : Nat := (x % (2 ^ w : Int)).toNat

/-- Store a trim. -/
def State.setTrim (s : State) (n w : Nat) (x : Int) : State :=
  match w with
  | 0 => s.wr (aLn n 0x30) (BitVec.ofNat 32 (twos 13 x))
  | 1 => s.wr (aLn n 0x34) (BitVec.ofNat 32 (twos 13 x))
  | k => s.wf (aLn n 0x38) (8 * (k - 2)) 8 (twos 8 x)

/-- The limit and the warning level of a trim. -/
def State.trimLimit (s : State) (n w : Nat) : Nat × Nat :=
  if w < 2 then (s.rf (aLn n 0x24) 0 12, s.rf (aLn n 0x24) 16 12) else (s.rf (aLn n 0x28) 8 8, s.rf (aLn n 0x28) 16 8)

/-- STATUS.AT_LIMIT: a trim of lane `n` stands at its limit (R282). -/
def State.atLimit (s : State) (n : Nat) : Bool :=
  (List.range 5).any fun w => decide ((s.trimLimit n w).1 ≤ (s.trim n w).natAbs)

/-- A value held between `-b` and `b`. -/
def clampInt (x : Int) (b : Nat) : Int := max (-(b : Int)) (min x b)

/-- RX_TRIM and TH_TRIM of lane `n` are about to change at the edge of frame `f`: earlier frames are still compared with the present
ones, once for each edge (R281). -/
def State.keepTrims (s : State) (n f : Nat) : State :=
  let v := s.lane n
  let used := v.trims.filter fun x => (s.pgs (pgOf n)).line.any fun e => decide (e.idx < x.1)
  if v.trims.any fun x => x.1 == f then s
  else s.setLane n { v with trims := used ++ [(f, s.rd (aLn n 0x34), s.rd (aLn n 0x38))] }

/-- `adjust` of R279, and whether it applied a change. -/
def State.adjust (s : State) (n w : Nat) (d : Int) : State × Bool :=
  let t := s.trim n w
  let lim := s.trimLimit n w
  if d = 0 then (s, false)
  else
    let past := decide (lim.1 < (t + d).natAbs)
    let new : Int := if past then (if t + d < 0 then -(lim.1 : Int) else lim.1) else t + d
    let s1 := if past then (s.bump (aLn n 0x48) 1).calAlarm n else s
    let s2 := if lim.2 ≤ new.natAbs then s1.setB (aLn n 0x50) 0 else s1
    if new = t then (s2, false)
    else
      let frame := (s.pgs (pgOf n)).started - 1
      let s3 := (if w = 0 then s2 else s2.keepTrims n frame).wr (aLn n 0x4C) (BitVec.ofNat 32 (w + twos 9 (new - t) * 16 + frame % 65536 * 65536))
      ((s3.bump (aLn n 0x44) 1).setTrim n w new, true)

/-- The wanted changes of the loop: trim and amount, in order (R279). -/
def State.wanted (s : State) (n : Nat) : List (Nat × Int) :=
  let cfg := aLn n 0x20
  let step := s.rf cfg 4 8
  let tx := if s.bit cfg 1 && s.bit (aLn n 0x3C) 31 then [(0, clampInt (-(s.srf (aLn n 0x3C) 0 13)) step)] else []
  let rx := if s.bit cfg 2 && s.bit (aLn n 0x40) 31 then [(1, clampInt (s.srf (aLn n 0x40) 0 13) step)] else []
  let used := if s.pam4 (pgOf n) (n % 8) then 3 else 1
  let th := match (s.lane n).therr with
    | some v => if s.bit cfg 3 then (List.range used).map fun i => (2 + i, clampInt (v[i]?.getD 0) (s.rf (aLn n 0x28) 0 4)) else []
    | none => []
  tx ++ rx ++ th

/-- Lane `n` has a correction opportunity now (R280, R291). -/
def State.opportunity (s : State) (n : Nat) : Bool :=
  let g := s.pgs (pgOf n)
  let p := s.pxs (s.ownerPx n)
  let quiet := p.burst.isNone && p.ends.isEmpty && g.line.all fun e => e.lanes.all fun x => x.1 != n % 8 || x.2.2.all Option.isNone
  let guarded := g.fmt.any fun x => x.px == s.ownerPx n && s.tsf (pgOf n) x.ts 8 1 == 1
  g.run && !s.extest && (quiet || guarded)

/-- A correction opportunity at microsecond `now` (R279, R280); before the first correction, the last one counts as made at microsecond 0
(DESIGN CHOICE, log 165). -/
def State.correct (s : State) (n now : Nat) : State :=
  let v := s.lane n
  if !s.opportunity n || !s.bit (aLn n 0x20) 0 || s.tstate n != 2 || decide (now - v.applied < s.rf (aLn n 0x20) 16 12) then s
  else
    let r := (s.wanted n).foldl (fun acc x =>
      let q := acc.1.adjust n x.1 x.2
      (q.1, acc.2 || q.2)) (s, false)
    if r.2 then r.1.setLane n { r.1.lane n with applied := now } else r.1

/-- CORRECTION_OPPORTUNITY (R280). -/
def execCorrectionOpportunity (n : Fin 64) (now : Nat) (s : State) : Host.Outcome State Fault Refusal :=
  .next (s.correct n.val now)

/-- TX_ERR_UPDATE (R277): an average over 64 µs. -/
def execTxErrUpdate (n : Fin 64) (err : BitVec 13) (s : State) : Host.Outcome State Fault Refusal :=
  .next (s.wr (aLn n.val 0x3C) (BitVec.ofNat 32 (err.toNat + 2 ^ 31)))

/-- TX_ERR has been invalid for 10 ms (R277, R282). -/
def State.measFail (s : State) (n : Nat) : State :=
  if s.bit (aLn n 0x20) 1 then ((s.clrB (aLn n 0x3C) 31).setB (aLn n 0x50) 2).calAlarm n else s

/-- MEAS_FAIL (R277). -/
def execMeasFail (n : Fin 64) (s : State) : Host.Outcome State Fault Refusal := .next (s.measFail n.val)

/-- The end of a monitor sweep (R278). -/
def State.sweepEnd (s : State) (n : Nat) (r : Sweep) : State :=
  let v := s.lane n
  if v.scan then s
  else if r.transitions < 65536 then (s.clrB (aLn n 0x40) 31).setLane n { v with therr := none }
  else
    let s1 := (s.wr (aLn n 0x40) (BitVec.ofNat 32 (r.rxErr.toNat + 2 ^ 31))).wr (aLn n 0x1C)
      (BitVec.ofNat 32 (r.width.toNat + r.height.toNat * 256 + 2 ^ 31))
    s1.setLane n { v with therr := some #v[r.th0, r.th1, r.th2] }

/-- SWEEP_END (R278). -/
def execSweepEnd (n : Fin 64) (r : Sweep) (s : State) : Host.Outcome State Fault Refusal := .next (s.sweepEnd n.val r)

/- Eye scan (R286) --------------------------------------------------------------------------------------------- -/

/-- A write of LN[n].EYE_SCAN: PHASE, VOFF and EYE, then GO, which clears DONE (R286). -/
def State.eyeScanWrite (s : State) (n : Nat) (v : W32) : State :=
  let s1 := s.wr (aLn n 0x80) (v &&& 0x33FFFF)
  if v.getLsbD 31 then (s1.clrB (aLn n 0x84) 31).setLane n { s1.lane n with scan := true } else s1

/-- EYE_SCAN (R286). -/
def execEyeScan (n : Fin 64) (v : W32) (s : State) : Host.Outcome State Fault Refusal := .next (s.mgmtDo (aLn n.val 0x80) (some (v)) fun s => s.eyeScanWrite n.val v)

/-- An eye scan ends (R286). -/
def State.eyeScanEnd (s : State) (n errors : Nat) : State :=
  if (s.lane n).scan then
    (s.wr (aLn n 0x84) (BitVec.ofNat 32 (errors + 2 ^ 31))).setLane n { s.lane n with scan := false }
  else s

/- PRBS (R272 to R274) -------------------------------------------------------------------------------------------- -/

/-- The checker of lane `n` is on (R274, R291). -/
def State.checks (s : State) (n : Nat) : Bool := s.bit (aLn n 0x60) 1 && !s.extest

/-- The checker seeds itself: 64 consecutive error-free bits (R274). -/
def State.prbsLock (s : State) (n : Nat) : State := if s.checks n then s.setB (aLn n 0x14) 12 else s

/-- PRBS_LOCK (R274). -/
def execPrbsLock (n : Fin 64) (s : State) : Host.Outcome State Fault Refusal := .next (s.prbsLock n.val)

/-- A locked checker counts `bits` checked bits with `errors` errors (R274). -/
def State.prbsCount (s : State) (n bits errors : Nat) : State :=
  if s.checks n && s.bit (aLn n 0x14) 12 then
    (s.bumpSat (aLn n 0x64) errors).setLane n { s.lane n with bits := ((s.lane n).bits + bits) % 2 ^ 48 }
  else s

/-- More than 16 errors within 64 bits: the checker loses lock (R274). -/
def State.prbsLost (s : State) (n bits errors : Nat) : State :=
  if s.checks n && s.bit (aLn n 0x14) 12 then
    ((s.prbsCount n bits errors).clrB (aLn n 0x14) 12).setB (aLn n 0x50) 4
  else s

/-- PRBS_LOCK_LOST (R274); `bits` and `errors` count since the last command that counts them. -/
def execPrbsLockLost (n : Fin 64) (bits errors : Nat) (s : State) : Host.Outcome State Fault Refusal :=
  .next (s.prbsLost n.val bits errors)

/-- PRBS_CLEAR: PRBS_ERR and PRBS_BITS read zero. -/
def State.prbsClear (s : State) (n : Nat) : State :=
  (((s.wr (aLn n 0x64) 0).wr (aLn n 0x68) 0).wr (aLn n 0x6C) 0).setLane n { s.lane n with bits := 0 }

/-- PRBS_CLEAR (R274). -/
def execPrbsClear (n : Fin 64) (s : State) : Host.Outcome State Fault Refusal := .next (s.mgmtDo (aLn n.val 0x70) (some (1)) fun s => s.prbsClear n.val)

/-- A read of PRBS_BITS_LO holds the high word (R274). -/
def State.prbsBitsRead (s : State) (n : Nat) : State :=
  let c := (s.lane n).bits
  { (s.wr (aLn n 0x68) (BitVec.ofNat 32 c)).wr (aLn n 0x6C) (BitVec.ofNat 32 (c / 2 ^ 32 % 2 ^ 16)) with
      busOut := BitVec.ofNat 32 c }

/-- PRBS_BITS_LO (R274); `bits` and `errors` count since the last command that counts them. -/
def execPrbsBitsLo (n : Fin 64) (bits errors : Nat) (s : State) : Host.Outcome State Fault Refusal :=
  .next ((s.prbsCount n.val bits errors).mgmtDo (aLn n.val 0x68) none fun s => s.prbsBitsRead n.val)

/- The contacts (R266 to R268, R291, R432) ---------------------------------------------------------------------------- -/

/-- What a lane's contacts carry: nothing, the level of its boundary cell as an EXTEST instruction shows it, electrical idle, the termination that CFG.TERM selects, or a
differential voltage in units of 1/384 mV. -/
inductive Contact
  | unpowered
  | boundary (i : ScanInstr) (cell : Bool)
  | idle
  | off (term vtt : Nat)
  | level (v : Int)
deriving DecidableEq, Repr

/-- The differential voltage of a symbol on lane `n` between `a`, the symbol of the UI before, and `b`, that of the UI after: its swing
of 10 mV × SWING, shaped by the weights of the equalizer under a TX word, P and N exchanged by CFG.INVERT (R266, R267; log 151). -/
def State.symVolt (s : State) (n : Nat) (tx : W32) (a v b : BitVec 2) : Int :=
  let w := s.symWeight (pgOf n) (n % 8)
  let pre : Int := (field tx 8 5 : Nat)
  let post : Int := (field tx 16 5 : Nat)
  let x := 10 * (field tx 0 7 : Nat) * ((64 - pre - post) * w v - pre * w b - post * w a)
  if s.bit (aLn n 0) 2 then -x else x

/-- What the contacts of lane `n` carry in UI `u` of its output, between the UIs `a` and `b` (R266 to R268, R291, R432). -/
def State.contactOf (s : State) (n : Nat) (tx : W32) (a u b : UiOut) : Contact :=
  if s.power = .off then .unpowered
  else if s.extest then .boundary s.tap.instr (s.tap.cells.getLsbD n)
  else if u.idle then .idle
  else if u.on then .level (s.symVolt n tx a.sym u.sym b.sym)
  else .off (s.rf (aLn n 0) 4 2 % 3) (min 10 (s.rf (aLn n 0) 8 4))

/-- The UIs of lane `n` that are known: the last two of the frame before, which its TX word of then shapes, and the 32 of the frame
handed over last, with theirs. -/
def State.txUis (s : State) (n : Nat) : List (W32 × UiOut) :=
  let p := s.pgs (pgOf n)
  (((p.before.getD (n % 8) []).drop 30).map fun u => ((s.actAt n (p.started - 2)).1, u)) ++
    (p.out.getD (n % 8) []).map fun u => ((s.lane n).act.1, u)

/-- What the contacts carry in each UI that stands between two others. -/
def State.shaped (s : State) (n : Nat) : List (W32 × UiOut) → List Contact
  | a :: u :: b :: l => s.contactOf n u.1 a.2 u.2 b.2 :: s.shaped n (u :: b :: l)
  | _ => []

/-- What the contacts of lane `n` carry, UI by UI, from the last UI of the frame before up to the last but one of the frame handed
over last, whose last UI waits for the symbol after it. -/
def State.contacts (s : State) (n : Nat) : List Contact := s.shaped n (s.txUis n)

/-- What an output of the block has carried: nothing while it is high impedance (R432), else what it was last given to send, after
which it idles at 0 (R288, R440). -/
inductive Output (α : Type)
  | highZ
  | sent (x : α)
deriving DecidableEq, Repr

/-- SYNC_OUT (R288, R432). -/
def State.syncPin (s : State) : Output (Option (BitVec 16)) := if s.power = .off then .highZ else .sent s.syncOut

/-- AVS_CLK and AVS_MDATA (R429, R432). -/
def State.avsPins (s : State) : Output (List AvsFrame) := if s.power = .off then .highZ else .sent s.avsOut

/- Boundary scan (R291) ---------------------------------------------------------------------------------------------- -/

/-- CTRL.STOP of every expander. -/
def State.stopAll (s : State) : State := (List.range 16).foldl State.pxStop s

/-- An EXTEST instruction gives the lanes back: electrical idle, untrained (R291). -/
def State.lanesBack (s : State) : State := (List.range 64).foldl State.untrain ((List.range 8).foldl State.idleLanes s)

/-- Instruction `i` comes into force: one that enters EXTEST stops the expanders and takes the lane contacts, one that leaves it gives
them back (R291). -/
def State.tapLoad (s : State) (i : ScanInstr) : State :=
  let t : State := { (if handsOver i then s.stopAll else s) with tap := { s.tap with instr := i } }
  if s.extest && !handsOver i then t.lanesBack else t

/-- The next state of the controller at a TCK edge (PRESUMED: IEEE 1149.1, log 137). -/
def TapState.next (t : TapState) (tms : Bool) : TapState :=
  match t with
  | .testLogicReset => if tms then .testLogicReset else .runTestIdle
  | .runTestIdle => if tms then .selectDr else .runTestIdle
  | .selectDr => if tms then .selectIr else .captureDr
  | .captureDr => if tms then .exit1Dr else .shiftDr
  | .shiftDr => if tms then .exit1Dr else .shiftDr
  | .exit1Dr => if tms then .updateDr else .pauseDr
  | .pauseDr => if tms then .exit2Dr else .pauseDr
  | .exit2Dr => if tms then .updateDr else .shiftDr
  | .updateDr => if tms then .selectDr else .runTestIdle
  | .selectIr => if tms then .testLogicReset else .captureIr
  | .captureIr => if tms then .exit1Ir else .shiftIr
  | .shiftIr => if tms then .exit1Ir else .shiftIr
  | .exit1Ir => if tms then .updateIr else .pauseIr
  | .pauseIr => if tms then .exit2Ir else .pauseIr
  | .exit2Ir => if tms then .updateIr else .shiftIr
  | .updateIr => if tms then .selectDr else .runTestIdle

/-- A TCK edge; Test-Logic-Reset brings IDCODE into force (PRESUMED: IEEE 1149.1, log 137). -/
def State.tapEdge (s : State) (tms : Bool) : State :=
  let n := s.tap.st.next tms
  let t : State := { s with tap := { s.tap with st := n } }
  if n = .testLogicReset then t.tapLoad .idcode else t

/-- What a test receiver holds once the differential level at its contact has gone from `v0` to `v` mV: in DC mode it follows the level
with 50 mV to 100 mV of hysteresis about zero, in AC mode a transition of 150 mV, or of less as the module has it (R509). -/
def testRx (ac old : Bool) (v0 v : Int) : Bool :=
  if ac then
    let d : Int := 150 - (Config.testRx true % 150 : Nat)
    if d ≤ v - v0 then true else if v - v0 ≤ -d then false else old
  else
    let h : Int := 50 + (Config.testRx false % 51 : Nat)
    if h < 2 * v then true else if 2 * v < -h then false else old

/-- The test receiver of a lane meets a level (R291, R509). -/
def Tap.meet (t : Tap) (x : Fin 64 × Int × Int) : Tap :=
  let m : BitVec 64 := BitVec.ofNat 64 (2 ^ x.1.val)
  { t with rx := if testRx t.ac (t.rx.getLsbD x.1.val) x.2.1 x.2.2 then t.rx ||| m else t.rx &&& ~~~m }

/-- An instruction that selects the boundary cells updates the output cells of the lanes (R291). -/
def Tap.update (t : Tap) (d : ScanData) : Tap :=
  d.seen.foldl Tap.meet { t with st := .updateIr, ac := d.ac
                                 cells := if t.instr = .bypass ∨ t.instr = .idcode then t.cells else d.cells }

/-- The test access port takes instruction `i`: its effect on the lanes, the cells and the test receivers, and the TCK edges after it
(R291, R499; log 137). -/
def State.scan (s : State) (i : ScanInstr) (d : ScanData) : State :=
  let t := s.tapLoad i
  d.tms.foldl State.tapEdge { t with tap := t.tap.update d }

/-- The instruction of an EXTEST. -/
def extestInstr (k : ExtestKind) : ScanInstr :=
  match k with
  | .level => .extest
  | .pulse => .extestPulse
  | .train => .extestTrain

/-- The instruction that follows an EXTEST. -/
def otherInstr (k : OtherScan) : ScanInstr :=
  match k with
  | .bypass => .bypass
  | .idcode => .idcode
  | .samplePreload => .samplePreload

/-- EXTEST: entering EXTEST, EXTEST_PULSE or EXTEST_TRAIN (R291); by default EXTEST with every cell low. -/
def execExtest (s : State) (k : ExtestKind := .level) (d : ScanData := ⟨0, false, [], []⟩) : Host.Outcome State Fault Refusal :=
  .next (s.scan (extestInstr k) d)

/-- EXTEST_EXIT: another instruction, which leaves those three (R291); by default BYPASS. -/
def execExtestExit (s : State) (k : OtherScan := .bypass) (d : ScanData := ⟨0, false, [], []⟩) : Host.Outcome State Fault Refusal :=
  .next (s.scan (otherInstr k) d)

/-- TDO: high impedance outside Shift-DR and Shift-IR, and without power; which bit it carries there the spec does not give, since it
has neither the cell order nor the length of a register (R291, R432, R499; log 137). -/
def State.tdoPin (s : State) : Output Unit :=
  if s.power = .off then .highZ
  else match s.tap.st with
    | .shiftDr | .shiftIr => .sent ()
    | _ => .highZ

end Sys2Proof.Machine
end

