-- ==== Sys2Proof/Machine/HostLink.lean ====
section
/-!
DEFINITION. Host queues: doorbells, taking and starting commands, completions, MSI-X messages, notices and the waits of
commands in progress (chapter 13, R392 to R409 and R413).
-/

namespace Sys2Proof.Machine

/- Queues (R394 to R397) ---------------------------------------------------------------------------------- -/

/-- Queue pair `q`. -/
def State.qp (s : State) (q : Nat) : QSt := spGet (fun _ => QSt.init) s.queues q
/-- Store queue pair `q`. -/
def State.setQp (s : State) (q : Nat) (v : QSt) : State := { s with queues := spSet (fun _ => QSt.init) s.queues q v }

/-- BAR0 offset `o` of queue `q`. -/
def aQ (q o : Nat) : Nat := 0x100 + 0x20 * q + o

/-- A bit of a BAR0 register. -/
def State.bitB (s : State) (a i : Nat) : Bool := s.rfB a i 1 == 1

/-- Places of the submission ring. -/
def State.sqLen (s : State) (q : Nat) : Nat := s.rfB (aQ q 0x10) 0 12 + 1
/-- Places of the completion ring. -/
def State.cqLen (s : State) (q : Nat) : Nat := s.rfB (aQ q 0x10) 16 12 + 1

/-- CFG.ENABLE of queue `q`. -/
def State.qEnabled (s : State) (q : Nat) : Bool := s.bitB (aQ q 0x14) 8
/-- QSTATUS.ERROR of queue `q`. -/
def State.qFailed (s : State) (q : Nat) : Bool := s.bitB (aQ q 0x18) 1

/-- A command of queue `q` is in progress. -/
def State.qBusy (s : State) (q : Nat) : Bool := s.inprog.any fun c => c.pkt.q.val == q

/-- ACTIVE falls once a stopped queue has no command in progress (R394). -/
def State.qSettle (s : State) (q : Nat) : State :=
  if (!s.qEnabled q || s.qFailed q) && !s.qBusy q then s.wfB (aQ q 0x18) 0 1 0 else s

/-- No further command is taken, and completions of those in progress are discarded (R394). -/
def State.qStop (s : State) (q : Nat) : State :=
  { s with inprog := s.inprog.map fun (c : Cur) => if c.pkt.q.val = q then { c with live := false } else c }.qSettle q

/-- A queue pair stops on error `e` (R396). -/
def State.qError (s : State) (q e : Nat) : State :=
  let s1 := (s.wfB (aQ q 0x18) 1 1 1).wfB (aQ q 0x18) 4 4 e
  (s1.setB (aCmd 8) (if e ≤ 2 then 1 else 2)).qStop q

/-- A write of a queue's CFG register (R394). -/
def State.qCfgWrite (s : State) (q : Nat) (v : W32) : State :=
  let was := s.qEnabled q
  let s1 := s.wrB (aQ q 0x14) (v &&& 0x71F)
  let now := v.getLsbD 8
  if now && !was then
    if 1 ≤ s.rfB (aQ q 0x10) 0 12 ∧ 1 ≤ s.rfB (aQ q 0x10) 16 12 then
      (s1.setQp q ⟨0, 0, 0, 0, true⟩).wrB (aQ q 0x18) 1
    else ((s1.wfB (aQ q 0x18) 1 1 1).wfB (aQ q 0x18) 4 4 5).qSettle q
  else if was && !now then s1.qStop q else s1

/-- What a host access to the endpoint does: nothing while PERST_N holds it in link reset (R437). -/
def State.linkDo (s : State) (f : State → State) : State := if s.perst then s else f s

/-- QUEUE_ENABLE (R394): a write of CFG that sets ENABLE. -/
def execQueueEnable (q : Fin 16) (v : W32) (s : State) : Host.Outcome State Fault Refusal :=
  .next (s.linkDo fun s => s.qCfgWrite q.val (v ||| 0x100))

/-- QUEUE_DISABLE (R394): a write of CFG that clears ENABLE. -/
def execQueueDisable (q : Fin 16) (v : W32) (s : State) : Host.Outcome State Fault Refusal :=
  .next (s.linkDo fun s => s.qCfgWrite q.val (v &&& ~~~(0x100 : W32)))

/-- A write of SQ_TAIL (R395, R396); the doorbell of a queue that is not in use is ignored. -/
def State.sqTailWrite (s : State) (q : Nat) (v : W32) : State :=
  let i := field v 0 12
  if !s.qEnabled q || s.qFailed q then s
  else if s.sqLen q ≤ i then s.qError q 1
  else s.setQp q { s.qp q with tail := i }

/-- SQ_TAIL (R395, R396). -/
def execSqTail (q : Fin 16) (v : W32) (s : State) : Host.Outcome State Fault Refusal := .next (s.linkDo fun s => s.sqTailWrite q.val v)

/-- A write of CQ_HEAD (R395, R396). -/
def State.cqHeadWrite (s : State) (q : Nat) (v : W32) : State :=
  let i := field v 0 12
  let p := s.qp q
  let n := s.cqLen q
  if !s.qEnabled q || s.qFailed q then s
  else if n ≤ i || (p.ctail + n - p.chead) % n < (i + n - p.chead) % n then s.qError q 2
  else s.setQp q { p with chead := i }

/-- CQ_HEAD (R395, R396). -/
def execCqHead (q : Fin 16) (v : W32) (s : State) : Host.Outcome State Fault Refusal := .next (s.linkDo fun s => s.cqHeadWrite q.val v)

/- Host memory ---------------------------------------------------------------------------------------------- -/

/-- Write bytes to host memory from a 64-bit address. -/
def State.toHostMem (s : State) (a : Nat) : List Byte → State
  | [] => s
  | v :: t => { s with hostMem := spSet memUnwritten s.hostMem (a % 2 ^ 64) v }.toHostMem (a + 1) t

/- MSI-X (R392, R397) ------------------------------------------------------------------------------------------ -/

/-- What BAR2 holds after reset: every vector masked (PRESUMED: the base specification's MSI-X table). -/
def bar2Reset (o : Nat) : W32 := if o % 16 = 12 ∧ o < 0x200 then 1 else 0

/-- A word of the MSI-X table. -/
def State.rd2 (s : State) (o : Nat) : W32 := spGet bar2Reset s.bar2 o

/-- What configuration space holds after a reset of the endpoint: vendor and device ID, class code, both BARs; at 0x40 the MSI-X
capability of 32 vectors with its table at BAR2 0x0000 and its pending bits at 0x0800; at 0x50 the PCI Express capability of an
endpoint, with a maximum payload of 512 bytes, 10-bit tags, x8 and up to 32.0 GT/s, and no function-level reset; at 0x100 Advanced
Error Reporting (R392). The offsets and the values after a reset are the base specification's, but for the places of the first two
capabilities (PRESUMED, log 61). -/
def cfgReset (a : Nat) : W32 :=
  match a with
  | 0x00 => BitVec.ofNat 32 ((Config.factory 2 0).toNat % 2 ^ 16 + 0x9656 * 2 ^ 16)
  | 0x08 => 0x12000000
  | 0x10 | 0x18 => 4
  | 0x34 => 0x40
  | 0x40 => 0x001F5011
  | 0x44 => 2
  | 0x48 => 0x802
  | 0x50 => 0x00020010
  | 0x54 => 0x8022
  | 0x58 => 0x2910
  | 0x5C => 0x85
  | 0x74 => 0x30000
  | 0x7C => 0x3E
  | 0x80 => 5
  | 0x100 => 0x00020001
  | 0x10C => 0x00462030
  | 0x114 => 0x2000
  | _ => 0

/-- The bits of configuration space that the host writes: memory space, bus master and INTx disable; the addresses of BAR0 (16 KiB)
and BAR2 (8 KiB); Function Mask and MSI-X Enable; error reporting, Max Payload Size and Max Read Request Size; the 10-bit tag
requester; the target link speed; the masks and severities of error reporting (R392; PRESUMED, log 61). -/
def cfgMask (a : Nat) : W32 :=
  match a with
  | 0x04 => 0x406
  | 0x10 => 0xFFFFC000
  | 0x18 => 0xFFFFE000
  | 0x14 | 0x1C => 0xFFFFFFFF
  | 0x40 => 0xC0000000
  | 0x58 => 0x79FF
  | 0x78 => 0x1000
  | 0x80 => 0xF
  | 0x108 | 0x10C => 0x07FFF030
  | 0x114 => 0xF1C1
  | _ => 0

/-- A register of configuration space. -/
def State.rdCfg (s : State) (a : Nat) : W32 := spGet cfgReset s.cfgSpace a

/-- What the host reads in configuration space: Link Status shows the negotiated speed and width (R392; PRESUMED, log 61). -/
def State.cfgView (s : State) (a : Nat) : W32 :=
  if a = 0x60 then BitVec.ofNat 32 (s.rf (aCmd 0) 0 3 * 2 ^ 16 + s.rf (aCmd 0) 4 4 * 2 ^ 20) else s.rdCfg a

/-- A write of the host to configuration space. -/
def State.cfgWrite (s : State) (a : Nat) (v : W32) : State :=
  if a % 4 ≠ 0 then s
  else { s with cfgSpace := spSet cfgReset s.cfgSpace a ((s.rdCfg a &&& ~~~(cfgMask a)) ||| (v &&& cfgMask a)) }

/-- MSI-X is enabled and the function is not masked (R397; PRESUMED, log 61). -/
def State.msixOn (s : State) : Bool := (s.rdCfg 0x40).getLsbD 31 && !(s.rdCfg 0x40).getLsbD 30

/-- What the host reads at BAR2: the MSI-X table, the pending bits, zero elsewhere (R392, R397). -/
def State.bar2View (s : State) (a : Nat) : W32 := if a < 0x200 then s.rd2 a else if a = 0x800 then s.msixPend else 0

/-- What the host reads at BAR0; held in link reset, every register is in its reset state (R392, R393, R437). -/
def State.bar0View (s : State) (a : Nat) : W32 := if s.perst || !s.bit (aCmd 0) 8 then bar0Reset a else s.rdB a

/-- A vector with a message to send sends it, unless it or the function is masked or MSI-X is off (R397). -/
def State.msixSend (s : State) (v : Nat) : State :=
  if s.msixPend.getLsbD v && s.msixOn && !(s.rd2 (16 * v + 12)).getLsbD 0 then
    { s with msixPend := s.msixPend &&& ~~~(BitVec.ofNat 32 (2 ^ v)),
             msixSent := spSet (fun _ => 0) s.msixSent v (spGet (fun _ => 0) s.msixSent v + 1) }
  else s

/-- MSIX_MESSAGE (R397). -/
def execMsixMessage (v : Fin 32) (s : State) : Host.Outcome State Fault Refusal := .next (s.msixSend v.val)

/- Completions (R395, R400 to R402) ------------------------------------------------------------------------------- -/

/-- The status codes whose results are kept (R400, R402). -/
def keepsResult (st : Nat) : Bool := st == 0 || st == 5 || st == 6 || st == 7 || st == 0xC || st == 0xD

/-- The 16 bytes of a completion (R400). -/
def completionBytes (r0 r1 head q tag st : Nat) (phase : Bool) : List Byte :=
  natLe 4 r0 ++ natLe 4 r1 ++ natLe 2 head ++ natLe 1 q ++ [0] ++ natLe 2 tag ++ natLe 2 (phase.toNat + st * 256)

/-- Write the completion of command `c` (R395, R396, R397). -/
def State.postCpl (s : State) (c : Cur) (st r0 r1 : Nat) : State :=
  let q := c.pkt.q.val
  let p := s.qp q
  if !c.live then s
  else if c.pkt.cplErr then s.qError q 4
  else
    let base := s.rfB (aQ q 8) 12 20 * 2 ^ 12 + (s.rdB (aQ q 0xC)).toNat * 2 ^ 32
    let k := keepsResult st
    let s1 := s.toHostMem (base + 16 * p.ctail)
      (completionBytes (if k then r0 else 0) (if k then r1 else 0) c.head q c.pkt.tag.toNat st p.phase)
    let t := (p.ctail + 1) % s.cqLen q
    let s2 := (s1.setQp q { p with ctail := t, phase := if t = 0 then !p.phase else p.phase }).bump (aCmd 0xC) 1
    if s.bitB (aQ q 0x14) 9 && !c.pkt.flags.getLsbD 1 then
      { s2 with msixPend := s2.msixPend ||| BitVec.ofNat 32 (2 ^ s.rfB (aQ q 0x14) 0 5) }
    else s2

/-- Command `c` completes with a status and results (R401, R402). -/
def State.complete (s : State) (c : Cur) (st r0 r1 : Nat) : State :=
  let s1 := { s with inprog := s.inprog.filter fun x => x.id != c.id }
  let s2 := if st = 5 then s1.setB (aCmd 8) 2 else s1
  (s2.postCpl c st r0 r1).qSettle c.pkt.q.val

/-- The commands that `f` picks complete. -/
def State.completeAll (s : State) (f : Cur → Bool) (st r0 : Nat) : State :=
  (s.inprog.filter f).foldl (fun t c => t.complete c st r0 0) s

/-- Where command `c` stands now is `w`. -/
def State.setWait (s : State) (c : Cur) (w : Wait) : State :=
  { s with inprog := s.inprog.map fun x => if x.id = c.id then { x with wait := w } else x }

/- Packets (R398, R399) -------------------------------------------------------------------------------------------- -/

/-- The `w` bits from bit `b` of the command byte at offset `o`. -/
def pfld (p : Packet) (o b w : Nat) : Nat := p.params.toNat / 2 ^ (8 * (o - 8) + b) % 2 ^ w

/-- DPTR. -/
def pdptr (p : Packet) : Nat := pfld p 8 0 64
/-- DLEN. -/
def pdlen (p : Packet) : Nat := pfld p 0x10 0 32

/-- Bytes written to the buffer of a command, which then completes; a failing host stops it (R402). -/
def State.toBuffer (s : State) (c : Cur) (l : List Byte) (r0 r1 : Nat) : State :=
  match c.pkt.hostErr with
  | some k => if k < l.length then (s.toHostMem (pdptr c.pkt) (l.take k)).complete c 5 k 0
    else (s.toHostMem (pdptr c.pkt) l).complete c 0 r0 r1
  | none => (s.toHostMem (pdptr c.pkt) l).complete c 0 r0 r1

/- Waits (R405, R412, R413, R419 to R424) ---------------------------------------------------------------------------- -/

/-- A notice of a kind in `mask`: kind, detail and the state without it (R413). -/
def State.takeNotice (s : State) (mask : BitVec 3) : Option (Nat × W32 × State) :=
  match mask.getLsbD 0, s.stickyNote with
  | true, some v => some (0, v, { s with stickyNote := none })
  | _, _ =>
    match mask.getLsbD 1, s.unreported with
    | true, i :: l => some (1, BitVec.ofNat 32 i, { s with unreported := l })
    | _, _ =>
      match mask.getLsbD 2, s.faultNote with
      | true, some v => some (2, v, { s with faultNote := none })
      | _, _ => none

/-- The sites of a mask. -/
def maskSites (mask : Nat) : List Nat := (List.range 256).filter fun i => mask / 2 ^ i % 2 == 1

/-- A reset of a region of a masked site is still to come (R308). -/
def State.armPending (s : State) (mask : Nat) : Bool :=
  (maskSites mask).any fun i => (List.range 4).any fun n => (s.thrs n).resets.any fun g =>
    decide ((s.siteRegions i).1 ≤ g) && decide (g < (s.siteRegions i).1 + (s.siteRegions i).2)

/-- The lanes of a mask. -/
def maskLanes (mask : Nat) : List Nat := (List.range 64).filter fun n => mask / 2 ^ n % 2 == 1

/-- The mask of a list of numbers. -/
def maskOf (l : List Nat) : Nat := (l.map fun i => 2 ^ i).foldl (· + ·) 0

/-- Zhodan writes TASK_ARG, where the operation takes an argument, and then TASK_OP for command `id`, through its input of the bus
(R212, R406, R421; log 156). -/
def State.hostOp (s : State) (id task op : Nat) (arg : W32) : State :=
  let s1 := if op = 2 ∨ op = 3 ∨ op = 4 then (s.mgmtIn (aGrn 0x64) true).wr (aGrn 0x64) arg else s
  (s1.mgmtIn (aGrn 0x60) true).enqueueOp task op (s1.rd (aGrn 0x64)) (some id)

/-- Enqueue operations of a command while the task operation queue has room (R421). -/
def State.feedOps (s : State) (id op : Nat) (arg : W32) (next stop : Nat) : State × Nat :=
  let room := min (16 - s.taskOps.length) (stop - next)
  ((List.range room).foldl (fun t k => t.hostOp id (next + k) op arg) s, next + room)

/-- The finished operations of command `id`: how many, and how many were refused; they are told once. -/
def State.takeOps (s : State) (id : Nat) : Nat × Nat × State :=
  let mine := s.opsDone.filter fun p => p.1 == id
  (mine.length, (mine.filter fun p => p.2).length, { s with opsDone := s.opsDone.filter fun p => p.1 != id })

/-- A command that waits for task operations goes on (R419, R421). -/
def State.pollOps (s : State) (c : Cur) (op : Nat) (arg : W32) (next stop out refused : Nat) : State :=
  let d := s.takeOps c.id
  let f := d.2.2.feedOps c.id op arg next stop
  let left := out + (f.2 - next) - d.1
  let ref := refused + d.2.1
  if f.2 = stop ∧ left = 0 then
    if c.op = 0x46 then f.1.complete c 0 ref 0 else f.1.complete c (if ref = 0 then 0 else 0xD) 0 0
  else f.1.setWait c (.ops op arg f.2 stop left ref)

/-- The 24 bytes of the record that a READ left in QUERY (R421). -/
def State.queryBytes (s : State) : List Byte := (List.range 6).flatMap fun k => natLe 4 (s.rd (aGrn (0x70 + 4 * k))).toNat

/-- The context of task `t` is read at the Granary spill port, by transactions of up to 256 bytes at the host link's port, and follows
the record (R355, R364, R421); after an error the blocks before the failing one have been moved (R402). -/
def State.pollContext (s : State) (c : Cur) (t : Nat) (rec_ : List Byte) : State :=
  match s.xfer (.host c.id) 13 0 256 false (ctxKey t) 512 none with
  | (s1, none) => s1
  | (s1, some x) =>
    let l := rec_ ++ x.got.take x.last
    if x.err.isNone then s1.toBuffer c (rec_ ++ x.got) 0 0
    else if c.pkt.hostErr.any fun k => decide (k < l.length) then s1.toBuffer c l 0 0
    else (s1.toHostMem (pdptr c.pkt) l).complete c 7 l.length 0

/-- A TASK_QUERY whose READ is done writes its answer, once it has read the context if the command asks for it (R421). -/
def State.pollQuery (s : State) (c : Cur) (t : Nat) : State :=
  let d := s.takeOps c.id
  if d.1 = 0 then s
  else if d.2.1 ≠ 0 then d.2.2.complete c 0xD 0 0
  else if pdlen c.pkt = 536 then (d.2.2.setWait c (.context t s.queryBytes)).pollContext c t s.queryBytes
  else d.2.2.toBuffer c s.queryBytes 0 0

/-- The EYE_SCAN word of point `k` of an eye-scan command, with GO (R422). -/
def scanWord (p : Packet) (k : Nat) : W32 :=
  let pn := pfld p 0x18 16 8
  let ph := pfld p 0x18 0 8 + k % pn * pfld p 0x18 8 8
  let vo := pfld p 0x1C 0 10 + k / pn * pfld p 0x1C 12 8
  BitVec.ofNat 32 (ph % 256 + vo % 1024 * 2 ^ 8 + pfld p 0x14 8 2 * 2 ^ 20 + 2 ^ 31)

/-- An eye-scan command takes the result of point `k` and starts the next (R422). -/
def State.pollScan (s : State) (c : Cur) (k : Nat) (acc : List W32) : State :=
  let n := pfld c.pkt 0x14 0 6
  let total := pfld c.pkt 0x18 16 8 * pfld c.pkt 0x1C 20 8
  if (s.lane n).scan || !s.bit (aLn n 0x84) 31 then s
  else
    let acc1 := acc ++ [s.rd (aLn n 0x84) &&& 0xFFFFFF]
    if total ≤ k + 1 then s.toBuffer c (acc1.flatMap fun v => natLe 4 v.toNat) total 0
    else (s.mgmtDo (aLn n 0x80) (some (scanWord c.pkt (k + 1))) fun s => s.eyeScanWrite n (scanWord c.pkt (k + 1))).setWait c (.scan (k + 1) acc1)

/-- A command that waits for something behind a peripheral bus goes on as far as it can. -/
def State.pollBus (s : State) (c : Cur) : State :=
  match c.wait with
  | .sites mask =>
    if (maskSites mask).all fun i => s.siteState i == 3 && s.siteFinal i then s.complete c 0 (maskSites mask).length 0 else s
  | .arm mask => if s.armPending mask then s else s.complete c 0 (maskSites mask).length 0
  | .owner b prev => if s.bit (aBnk b 8) 4 then s else s.complete c 0 prev 0
  | .ops op arg next stop out refused => s.pollOps c op arg next stop out refused
  | .query t => s.pollQuery c t
  | .context t rec_ => s.pollContext c t rec_
  | .train mask failed =>
    let ls := maskLanes mask
    if ls.all fun n => 2 ≤ s.tstate n then
      let f := failed + maskOf (ls.filter fun n => s.tstate n == 3)
      s.complete c 0 (f % 2 ^ 32) (f / 2 ^ 32)
    else s
  | .scan k acc => s.pollScan c k acc
  | .relock gs refused codes =>
    if ((List.range 8).filter fun g => gs / 2 ^ g % 2 == 1).all s.pgLocked then s.complete c 0 refused codes else s
  | _ => s

/-- A waiting command goes on as far as it can. What Zhodan reads through its bridges to go on waits for the wake in sleep (R27). -/
def State.pollCur (s : State) (c : Cur) : State :=
  match c.wait with
  | .notice mask =>
    match s.takeNotice mask with
    | some (k, v, s1) => s1.complete c 0 k v.toNat
    | none => s
  | _ => s.awakeDo fun s => s.pollBus c

/-- Every waiting command goes on as far as it can, in take order. -/
def State.poll (s : State) : State := s.inprog.foldl (fun t c => if t.inprog.any fun x => x.id == c.id then t.pollCur c else t) s

/- Taking and starting (R403 to R409) ----------------------------------------------------------------------------------- -/

/-- A queue pair is eligible (R404). -/
def State.eligible (s : State) (q : Nat) : Bool :=
  let p := s.qp q
  s.qEnabled q && !s.qFailed q && p.head != p.tail && !s.qBusy q && (p.ctail + 1) % s.cqLen q != p.chead

/-- The queue Zhodan takes from next (R404). -/
def State.pickQ (s : State) : Option Nat :=
  let order := (List.range 16).map fun i => (s.lastQ + 1 + i) % 16
  match order.find? fun q => s.eligible q && s.bitB (aQ q 0x14) 10 with
  | some q => some q
  | none => order.find? s.eligible

/-- The exclusive opcodes (R408). -/
def exclusive (op : Nat) : Bool := op == 0x13 || op == 0x18 || op == 0x90 || op == 0x91 || op == 0x92

/-- A command is fenced (R407, R410). -/
def Cur.fenced (c : Cur) : Bool := c.pkt.flags.getLsbD 0 || c.op == 3

/-- A command has started. -/
def Cur.started (c : Cur) : Bool := c.wait != .held

/-- Command `c` may start (R405, R407, R408). -/
def State.mayBegin (s : State) (c : Cur) : Bool :=
  let before := s.inprog.takeWhile fun x => x.id != c.id
  (!c.fenced || before.isEmpty)
    && !(s.inprog.any fun x => x.id != c.id && exclusive x.op && x.started)
    && !(exclusive c.op && s.inprog.any fun x => x.id != c.id && x.wait == .data)
    && !(before.any fun x => !x.started && !x.fenced)

/-- Zhodan takes commands: READY (R404). -/
def State.takes (s : State) : Bool := s.bitB 8 0

/-- The opcodes accepted while the device is prepared for removal (R409). -/
def permitted (op : Nat) : Bool :=
  [0x00, 0x01, 0x02, 0x03, 0x04, 0x20, 0x22, 0x30, 0x14, 0x33, 0x50, 0x55, 0x70, 0x71, 0x73, 0x91, 0x92].contains op

/-- The common checks of R403 up to BAD_FIELD of the packet's own bytes: `named` marks the parameter bits that the opcode
names, `len` its parameter length. 0: none fails. -/
def State.precheck (s : State) (op : Nat) (p : Packet) (len named : Nat) : Nat :=
  if p.length.toNat != len then 2
  else if s.bitB 8 1 && !permitted op then 0xE
  else if p.flags.toNat / 4 != 0 || p.rsvd != 0 || p.params.toNat != Nat.land p.params.toNat named then 3
  else 0

/-- A command of opcode `op` at the head of its queue is taken (R404, R405); a failing fetch takes nothing and stops the queue (R396). -/
def State.take (s : State) (op : Nat) (p : Packet) : State :=
  let q := p.q.val
  if !s.takes || s.pickQ != some q then s
  else if p.fetchErr then s.qError q 3
  else
    let h := ((s.qp q).head + 1) % s.sqLen q
    let s1 := s.setQp q { s.qp q with head := h }
    { s1 with lastQ := q, nextId := s1.nextId + 1, inprog := s1.inprog ++ [Cur.mk s1.nextId op p h true .held] }

/-- The first wake source that comes in sleep ends it (R456). -/
def State.wakeBy (s : State) (src : WakeSource) : State :=
  if s.sleeping && s.wakeDue.isNone then { s with wakeDue := some src } else s

/-- A host command: it is taken if its queue is next, and started if it may start; a command held back, or held up in
its data phase, goes on when its row comes again. In sleep every command but NOP, IDENTIFY, ABORT, FENCE and NOTICE_WAIT
wakes the device and starts after that (R456). `run` is its start and what follows. -/
def State.hostCmd (s : State) (op : Nat) (p : Packet) (run : State → Cur → State) : State :=
  let s1 := if s.qBusy p.q.val then s else s.take op p
  match s1.inprog.find? fun c => c.pkt == p && c.op == op && (c.wait == .held || c.wait == .data) with
  | none => s1
  | some c =>
    if s1.sleeping && decide (4 < op) then s1.wakeBy .command
    else if c.wait == .data || s1.mayBegin c then (run (s1.setWait c .data) { c with wait := .data }).poll else s1

/-- A start that the checks of R403 precede: the first failing status, or `run`. -/
def guarded (status : Nat) (run : State → Cur → State) (s : State) (c : Cur) : State :=
  if status = 0 then run s c else s.complete c status 0 0

/-- The parameter bits that a list of (byte offset, bit, width) names. -/
def namedBits (l : List (Nat × Nat × Nat)) : Nat :=
  l.foldl (fun acc x => Nat.lor acc ((2 ^ x.2.2 - 1) * 2 ^ (8 * (x.1 - 8) + x.2.1))) 0

/-- DPTR and DLEN are multiples of 4 and DLEN is at most `lim` (R399). -/
def dataOk (p : Packet) (lim : Nat) : Bool := pdptr p % 4 == 0 && pdlen p % 4 == 0 && decide (pdlen p ≤ lim)

/-- The limit of DLEN, 16 MiB (R399). -/
def dlenMax : Nat := 0x1000000

end Sys2Proof.Machine
end

