-- ==== Sys2Proof/Machine/HostRows.lean ====
section
/-!
DEFINITION. The commands whose effect may end the wait of a host command (chapter 13): each lets the waiting commands go
on. Synchronized starts (R288, R289) stand here too.
-/

namespace Sys2Proof.Machine

/-- CLOSE_MARK_INTAKE (R309). -/
def execCloseMarkIntake (n : Fin 4) (s : State) : Host.Outcome State Fault Refusal := .next (s.awakeDo fun s => (s.takeMark n.val).poll)

/-- REGION_RESET (R308). -/
def execRegionReset (n : Fin 4) (s : State) : Host.Outcome State Fault Refusal := .next (s.awakeDo fun s => (s.resetNext n.val).poll)

/-- SITE_DONE (R17). -/
def execSiteDone (i : Fin 256) (s : State) : Host.Outcome State Fault Refusal := .next (s.awakeDo fun s => (s.finishDone i.val).poll)

/-- KILL (R210). -/
def execKill (s : State) : Host.Outcome State Fault Refusal := .next (s.awakeDo fun s => s.opKill.poll)

/-- RAISE (R212). -/
def execRaise (s : State) : Host.Outcome State Fault Refusal := .next (s.awakeDo fun s => s.opRaise.poll)

/-- SET_PRIO (R213). -/
def execSetPrio (s : State) : Host.Outcome State Fault Refusal := .next (s.awakeDo fun s => s.opSetPrio.poll)

/-- SET_AFFINITY (R213). -/
def execSetAffinity (s : State) : Host.Outcome State Fault Refusal := .next (s.awakeDo fun s => s.opSetAffinity.poll)

/-- READ (R213). -/
def execRead (s : State) : Host.Outcome State Fault Refusal := .next (s.awakeDo fun s => s.opRead.poll)

/-- REFUSED_OPERATION (R212). -/
def execRefusedOperation (s : State) : Host.Outcome State Fault Refusal := .next (s.awakeDo fun s => s.opRefuse.poll)

/-- PLL_LOCK (R262). -/
def execPllLock (g : Fin 8) (s : State) : Host.Outcome State Fault Refusal := .next (s.pllLock g.val).poll

/-- TRAINING_COMPLETE (R275). -/
def execTrainingComplete (n : Fin 64) (r : TrainResult) (s : State) : Host.Outcome State Fault Refusal :=
  .next (s.trainEnd n.val r).poll

/-- EYE_SCAN_DONE (R286). -/
def execEyeScanDone (n : Fin 64) (errors : BitVec 24) (s : State) : Host.Outcome State Fault Refusal :=
  .next (s.eyeScanEnd n.val errors.toNat).poll

/- Starts (R234, R289) ---------------------------------------------------------------------------------------- -/

/-- The start is released, and a TEST_START that waits for it completes (R419). -/
def State.startNow (s : State) : State := s.releaseStart.completeAll (fun c => c.wait == .release) 0 1

/-- The pending start request is withdrawn: a waiting TEST_START completes ABORTED, PENDING is cleared, and expanders
leave STARTING (R289, R420). -/
def State.withdraw (s : State) : State :=
  if s.startReq then
    let s1 := { s with startReq := false, startSent := false }.clrB (aSyn 0x108) 17
    let s2 := (List.range 16).foldl (fun t n => if t.pxState n = 2 && !(t.pxs n).take then
      (t.pxRest n).mapHolds (Hold.left n false) else t) s1
    s2.completeAll (fun c => c.wait == .release) 0xA 0
  else s

/-- START_RELEASE (R234, R289): a qualified request releases the start, or on a joined module releases SYNC_RDY_N and
sets PENDING. -/
def State.startRelease (s : State) : State :=
  if !s.startQualified then s
  else if s.joined then s.setB (aSyn 0x108) 17
  else s.startNow

/-- START_RELEASE (R234). -/
def execStartRelease (s : State) : Host.Outcome State Fault Refusal := .next s.startRelease.poll

/-- STATUS.PENDING: a qualified synchronized start awaits START. -/
def State.startPending (s : State) : Bool := s.bit (aSyn 0x108) 17

/-- The module pulls SYNC_RDY_N low (R289). -/
def State.pullsRdy (s : State) : Bool := s.joined && !s.startPending

/-- A request has waited longer than START_TIMEOUT (R289). -/
def State.startLate (s : State) : State :=
  if s.startReq && s.joined && s.rf (aSyn 0x10C) 0 24 != 0 then s.setB (aSyn 0x110) 2 else s

/-- START_TIMEOUT (R289). -/
def execStartTimeout (s : State) : Host.Outcome State Fault Refusal := .next s.startLate

/- Sync words (R288) -------------------------------------------------------------------------------------------- -/

/-- The ones of a 16-bit word. -/
def ones16 (w : BitVec 16) : Nat := onesIn w.toNat 16

/-- The word of a CODE and an ARG, with its parity (R288). -/
def syncWordOf (code arg : Nat) : BitVec 16 :=
  let w := 0xB000 + code % 16 * 2 ^ 8 + arg % 128 * 2
  BitVec.ofNat 16 (w + onesIn w 16 % 2)

/-- A sync word arrives at SYNC_IN of a module that acts on words (R288). -/
def State.syncIn (s : State) (w : BitVec 16) : State :=
  let code := w.toNat / 2 ^ 8 % 16
  if !s.joined then s
  else if w.toNat / 2 ^ 12 != 0xB || ones16 w % 2 != 0 then s.setB (aSyn 0x110) 0
  else if code != 1 && code != 2 && code != 3 then s.setB (aSyn 0x110) 1
  else
    let s1 := (s.wf (aSyn 0x108) 0 4 code).wf (aSyn 0x108) 8 7 (w.toNat / 2 % 128)
    { s1 with syncq := s1.syncq ++ [BitVec.ofNat 4 code] }

/-- SYNC_WORD (R288). -/
def execSyncWord (w : BitVec 16) (s : State) : Host.Outcome State Fault Refusal := .next (s.syncIn w)

/-- The oldest accepted word acts now, if its CODE is `k`; the state without it. -/
def State.syncAct (s : State) (k : BitVec 4) : Option State :=
  match s.syncq with
  | c :: l => if c = k then some { s with syncq := l } else none
  | [] => none

/-- Every locked pin group restarts its frame clock (R262, R288). -/
def State.epochStart (s : State) : State :=
  if (List.range 16).any fun n => s.pxState n != 0 then s.setB (aSyn 0x110) 6
  else ((List.range 8).filter s.pgLocked).foldl (fun t g => (t.setB (aSyn (0x18 + 0x10 * g)) 2).clockStart g) s

/-- An EPOCH word acts at Ts. -/
def State.epochAct (s : State) : State :=
  match s.syncAct 1 with
  | some s1 => s1.epochStart
  | none => s

/-- EPOCH (R288). -/
def execEpoch (s : State) : Host.Outcome State Fault Refusal := .next s.epochAct

/-- A START word acts at Ts (R289); PENDING is judged then, not when the word is received (DESIGN CHOICE, log 166). -/
def State.startAct (s : State) : State :=
  match s.syncAct 2 with
  | some s1 =>
    if s1.startPending then ({ s1.startNow with startSent := false }.clrB (aSyn 0x108) 17).post rkOther none 12 0
    else s1.setB (aSyn 0x110) 1
  | none => s

/-- START_WORD (R289). -/
def execStartWord (s : State) : Host.Outcome State Fault Refusal := .next s.startAct.poll

/-- A STOP word acts at Ts (R288). -/
def State.stopAct (s : State) : State :=
  match s.syncAct 3 with
  | some s1 => s1.stopAll
  | none => s

/-- STOP_WORD (R288). -/
def execStopWord (s : State) : Host.Outcome State Fault Refusal := .next s.stopAct

/-- A write of SYN.CMD with SEND (R288): the leader sends an EPOCH or STOP word. -/
def State.syncSend (s : State) (code arg : Nat) : State :=
  if s.rf (aSyn 0x100) 0 2 != 2 then s.flag (aSyn 0x110) 7
  else if code = 1 ∨ code = 3 then { s with syncOut := some (syncWordOf code arg) } else s

/-- SEND_EPOCH (R288). -/
def execSendEpoch (arg : BitVec 7) (s : State) : Host.Outcome State Fault Refusal := .next (s.mgmtDo (aSyn 0x104) (some (BitVec.ofNat 32 (1 + arg.toNat * 2 ^ 8 + 2 ^ 31))) fun s => s.syncSend 1 arg.toNat)

/-- SEND_STOP (R288). -/
def execSendStop (arg : BitVec 7) (s : State) : Host.Outcome State Fault Refusal := .next (s.mgmtDo (aSyn 0x104) (some (BitVec.ofNat 32 (3 + arg.toNat * 2 ^ 8 + 2 ^ 31))) fun s => s.syncSend 3 arg.toNat)

/-- SYNC_RDY_N as sampled at two TREF edges, `rdy` for high: a leader whose own request has qualified sends START
(R289). -/
def State.leaderStart (s : State) (rdy : Bool) : State :=
  let s1 := s.putB (aSyn 0x108) 16 rdy
  if rdy && s.rf (aSyn 0x100) 0 2 == 2 && s.joined && s.startPending && !s.startSent then
    { s1 with syncOut := some (syncWordOf 2 s.startSeq.toNat), startSeq := s.startSeq + 1, startSent := true }
  else s1

/-- LEADER_START (R289). -/
def execLeaderStart (rdy : Bool) (s : State) : Host.Outcome State Fault Refusal := .next (s.leaderStart rdy)

end Sys2Proof.Machine
end

