-- ==== Sys2Proof/Machine/Banks.lean ====
section
/-!
DEFINITION. Owners, handover and retention of the banks, the accesses that the matrix delivered, the Gleaner, and the DRAM
controllers (chapter 10).
-/

namespace Sys2Proof.Machine

/- Owners and handover (R332 to R336) ------------------------------------------------------------------------ -/

/-- A bank held by the host link DMA, a Thresher or the fetch group: its STEWARD may hand it over (R332). -/
def stewarded (c : Nat) : Bool := c == 0x11 || (decide (0x20 ≤ c) && decide (c ≤ 0x23)) || c == 0x30

/-- `a` may write OWNER and CTRL of bank `b` (R332). -/
def State.bankWriter (s : State) (b : Nat) (a : Agent) : Bool :=
  match a with
  | .mgmt => true
  | .engine k => s.owner b == k.val || (stewarded (s.owner b) && s.rf (aBnk b 4) 8 4 == k.val)
  | _ => false

/-- A write of BNK[b].OWNER (R332, R334). -/
def State.ownerWrite (s : State) (b : Nat) (a : Agent) (v : W32) : State :=
  let c := field v 0 8
  if !s.bankWriter b a || !ownerCode c || s.bit (aBnk b 8) 4 then s.flag (aBnk b 0xC) 2
  else (s.setBank b { s.bank b with next := some (BitVec.ofNat 8 c) }).setB (aBnk b 8) 4

/-- What an earlier OWNER write of this PCLK cycle did is taken back: its request, or the HANDOVER_REFUSED it set (R333). -/
def State.ownerUndo (s : State) (b : Nat) : State :=
  match (s.busCycle 0).own.find? fun p => p.1 == b with
  | some (_, true) => (s.setBank b { s.bank b with next := none }).clrB (aBnk b 8) 4
  | some (_, false) => (s.clrB (aBnk b 0xC) 2).unflag (aBnk b 0xC) 2
  | none => s

/-- A write of OWNER as it stands in its PCLK cycle: only the value that stays is judged, against its own writer (R333). -/
def State.ownerBus (s : State) (b : Nat) (a : Agent) (v : W32) : State :=
  let s1 := s.ownerUndo b
  let s2 := s1.ownerWrite b a v
  let own := (s.busCycle 0).own.filter fun p => p.1 != b
  let asked := s2.bit (aBnk b 8) 4 && !s1.bit (aBnk b 8) 4
  let refused := s2.bit (aBnk b 0xC) 2 && !s1.bit (aBnk b 0xC) 2
  s2.setBus 0 { s2.busCycle 0 with own := if asked || refused then (b, asked) :: own else own }

/-- The handover of bank `b` ends once the accepted accesses are complete, at once if it names the current owner: the new
owner comes in and BANK is raised (R334, R336). -/
def State.handover (s : State) (b : Nat) : State :=
  let k := s.bank b
  match k.next with
  | some n =>
    if n.toNat ≠ s.owner b ∧ k.acc.any (·.allow) = true then s
    else
      let s1 := s.setBank b { k with next := none }
      ((s1.wf (aBnk b 0) 0 8 n.toNat).clrB (aBnk b 8) 4).post rkOther none 14 b
  | none => s

/-- HANDOVER_COMPLETE (R334). -/
def execHandoverComplete (b : Fin 48) (s : State) : Host.Outcome State Fault Refusal := .next (s.awakeDo fun s => (s.handover b.val).poll)

/- Retention (R339 to R341) ------------------------------------------------------------------------------------ -/

/-- STATUS.POWER: 0 AWAKE, 1 ENTERING, 2 ASLEEP, 3 WAKING. -/
def State.power_ (s : State) (b : Nat) : Nat := s.rf (aBnk b 8) 0 2
/-- Set STATUS.POWER. -/
def State.setPower (s : State) (b v : Nat) : State := s.wf (aBnk b 8) 0 2 v

/-- An access that arrived under AUTOWAKE is held at bank `b` (R340). -/
def State.wakeWanted (s : State) (b : Nat) : Bool := (s.bank b).acc.any fun x => x.allow && !x.asleep

/-- Bank `b` begins ENTERING (R339). -/
def State.retain (s : State) (b : Nat) : State :=
  if s.power_ b = 0 ∧ s.bit (aBnk b 4) 0 = true ∧ s.bit (aBnk b 8) 5 = false ∧ (s.bank b).acc.isEmpty = true
  then s.setPower b 1 else s

/-- RETENTION_ENTRY (R339). -/
def execRetentionEntry (b : Fin 48) (s : State) : Host.Outcome State Fault Refusal := .next (s.awakeDo fun s => s.retain b.val)

/-- Entry completes (R339). -/
def State.retained (s : State) (b : Nat) : State := if s.power_ b = 1 then s.setPower b 2 else s

/-- RETENTION_ENTERED (R339). -/
def execRetentionEntered (b : Fin 48) (s : State) : Host.Outcome State Fault Refusal := .next (s.awakeDo fun s => s.retained b.val)

/-- A sleeping bank starts to wake: SLEEP is 0, or an access is held under AUTOWAKE, which clears SLEEP (R339, R340). -/
def State.bankWake (s : State) (b : Nat) : State :=
  let s1 := if s.wakeWanted b then s.autoWake b else s
  if s1.power_ b = 2 ∧ s1.bit (aBnk b 4) 0 = false then s1.setPower b 3 else s1

/-- BANK_WAKE (R340). -/
def execBankWake (b : Fin 48) (s : State) : Host.Outcome State Fault Refusal := .next (s.awakeDo fun s => s.bankWake b.val)

/-- A waking bank is AWAKE (R339). -/
def State.bankAwake (s : State) (b : Nat) : State := if s.power_ b = 3 then s.setPower b 0 else s

/-- BANK_AWAKE (R339). -/
def execBankAwake (b : Fin 48) (s : State) : Host.Outcome State Fault Refusal := .next (s.awakeDo fun s => s.bankAwake b.val)

/- Accesses that the matrix delivered (R327 to R331, R350, R362) ------------------------------------------------- -/

/-- The cause an engine load sees for an error of kind `k` (R99, R129). -/
def loadCause (k : Nat) : BitVec 8 := if k = 0 then 0x04 else if k = 1 then 0x05 else 0x06
/-- The cause an engine store sees (R75, R129). -/
def storeCause (k : Nat) : BitVec 8 := if k = 0 then 0x40 else if k = 1 then 0x41 else 0x42

/-- The response to a transaction, or to one of its beats: the bytes read, an acknowledgement, or an error of kind `k` (R75,
R99, R362). An access that stands alone has no further effect. -/
def State.respond (s : State) (x : Txn) (r : Except Nat (List Byte)) : State :=
  match x.for_ with
  | .load i id =>
    let st : LdSt := match r with
      | .ok l => .done (BitVec.ofNat 64 (leNat l))
      | .error k => .err (loadCause k)
    s.modTh i fun t => { t with loads := t.loads.map fun l => if l.id = id then { l with st := st } else l }
  | .store i id =>
    let st : StSt := match r with
      | .ok _ => .acked
      | .error k => .err (storeCause k)
    s.modTh i fun t => { t with stores := t.stores.map fun x => if x.id = id then { x with st := st } else x }
  | .xfer id => s.xferBack id x.addr x.size r
  | .lateStore i task brace => match r with
    | .ok _ => s
    | .error k => s.storeError i task brace (storeCause k) x.addr
  | .lateXfer id => match r with
    | .ok _ => s
    | .error k => s.xferLate id k
  | .freed n => s.flDone n (match r with
    | .ok _ => true
    | .error _ => false)
  | .lateFreed n => match r with
    | .ok _ => s
    | .error _ => s.setB (aThr n 4) 7
  | .lone => s

/-- The response to an access that ended in `r`, reading memory `s`. -/
def State.answer (s : State) (x : Txn) (r : AccRes) : State :=
  match r with
  | .ok => s.respond x (.ok (s.memData x.addr x.size))
  | .err k => s.respond x (.error k)

/-- Bank, offset and alias of a bank address. -/
def bankPlace (a : Nat) : Nat × Nat × Alias :=
  match regionOf a with
  | .bank b o al => (b, o, al)
  | _ => (0, 0, .normal)

/-- An access delivered earlier to another bank of the group of `b`, by the same master, is still to come (R361). -/
def State.bankBehind (s : State) (b : Nat) (x : BankAcc) : Bool :=
  (List.range 4).any fun i => (s.bank (b / 4 * 4 + i)).acc.any fun y =>
    y.txn.master == x.txn.master && decide (y.ord < x.ord)

/-- Bank `b` performs the oldest delivered access, those of its master in order: one that it refuses as asleep gets its error, one that
it holds waits until the bank is AWAKE (R327, R328, R340, R341, R361). -/
def State.bankServe (s : State) (b : Nat) (ecc : Ecc) : State :=
  let k := s.bank b
  match k.acc with
  | [] => s
  | x :: rest =>
    let p := bankPlace x.txn.addr
    let m := masterCode x.txn.master
    if !x.allow || s.sleeping || s.bankBehind b x then s
    else if !x.asleep && !s.awake b then s.autoWake b
    else
      let s1 := s.setBank b { k with acc := rest }
      let q := if x.asleep then (s1.bankErr b m p.2.1 x.txn.data.isSome 1, .err 1)
        else s1.bankDo m b p.2.1 x.txn.size p.2.2 x.txn.data ecc
      q.1.answer x.txn q.2

/-- BANK_ACCESS (R327). -/
def execBankAccess (b : Fin 48) (ecc : Ecc) (s : State) : Host.Outcome State Fault Refusal := .next (s.bankServe b.val ecc)

/-- The oldest delivered access of bank `b` is refused as non-owner (R330, R331). -/
def State.bankRefuse (s : State) (b : Nat) : State :=
  let k := s.bank b
  match k.acc with
  | [] => s
  | x :: rest =>
    if x.allow || s.bankBehind b x then s
    else ((s.setBank b { k with acc := rest }).bankErr b (masterCode x.txn.master) (bankPlace x.txn.addr).2.1
      x.txn.data.isSome 0).answer x.txn (.err 0)

/-- NONOWNER (R330). -/
def execNonowner (b : Fin 48) (s : State) : Host.Outcome State Fault Refusal := .next (s.awakeDo fun s => s.bankRefuse b.val)

/-- The oldest access queued at DRAM channel `k`, and the others. -/
def takeChan (k : Nat) : List (Nat × Txn) → Option (Txn × List (Nat × Txn))
  | [] => none
  | x :: l => if x.1 = k then some (x.2, l) else (takeChan k l).map fun p => (p.1, x :: p.2)

/-- An access queued before those of channel `k` at another channel of its stack, by the same master `m`, is still to come
(R361). -/
def State.dramBehind (s : State) (k m : Nat) : Bool :=
  (s.dramq.takeWhile fun p => p.1 != k).any fun p => p.1 / 8 == k / 8 && p.2.master == m

/-- The controller of channel `k` performs the oldest access of its queue, those of its master in order (R350, R361). -/
def State.dramServe (s : State) (k : Nat) (ecc : Ecc) : State :=
  if s.sleeping then s
  else match takeChan k s.dramq with
    | none => s
    | some (t, rest) =>
      if s.dramBehind k t.master then s
      else
        let q := { s with dramq := rest }.dramDo (t.addr - 0x1000000000) t.size t.data ecc
        q.1.answer t q.2

/-- DRAM_ACCESS (R350). -/
def execDramAccess (k : Fin 16) (ecc : Ecc) (s : State) : Host.Outcome State Fault Refusal := .next (s.dramServe k.val ecc)

/- Spares (R346, R479) -------------------------------------------------------------------------------------------- -/

/-- HLT.STICKY.SPARE_LOW. -/
def State.spareLow (s : State) : State := s.setB (aHlt 0) 10

/-- A repair record joins those that await their NV write. -/
def State.queueRepair (s : State) (r : Repair) : State := { s with repairQ := s.repairQ ++ [r] }

/-- Unused spare rows of bank `b`. -/
def State.bankSpares (s : State) (b : Nat) : Nat := 32 - s.rf (aBnk b 8) 8 6

/-- The lowest unused spare of bank `b`. -/
def State.freeSpare (s : State) (b : Nat) : Option Nat :=
  (List.range 32).find? fun i => !s.bit (aBnk b (0x100 + 4 * i)) 31

/-- Spare `i` of bank `b` comes into use for row `row` with an ORIGIN. -/
def State.useSpare (s : State) (b i row origin : Nat) : State :=
  let s1 := s.wr (aBnk b (0x100 + 4 * i)) (BitVec.ofNat 32 (row % 2 ^ 14 + origin * 2 ^ 28 + 2 ^ 31))
  let s2 := s1.wf (aBnk b 8) 8 6 (s.rf (aBnk b 8) 8 6 + 1)
  if s2.bankSpares b ≤ 4 then s2.spareLow else s2

/-- A spare of memory `i` of GLN_SPARE_USE comes into use. -/
def State.useOther (s : State) (i : Nat) : State :=
  let a := aGln (0x20 + 4 * i)
  let s1 := s.wf a 0 7 (s.rf a 0 7 + 1)
  if s1.rf a 16 7 - s1.rf a 0 7 ≤ (if i = 13 then 2 else 4) then s1.spareLow else s1

/-- A memory of GLN_SPARE_USE has a spare left. -/
def State.hasOther (s : State) (i : Nat) : Bool := decide (s.rf (aGln (0x20 + 4 * i)) 0 7 < s.rf (aGln (0x20 + 4 * i)) 16 7)

/-- KIND and INSTANCE of a repair record of memory `i` of GLN_SPARE_USE (R452). -/
def otherKind (i : Nat) : Nat × Nat := if i < 12 then (2, i) else if i = 12 then (3, 0) else (4, 0)

/- The Gleaner (R343 to R346) -------------------------------------------------------------------------------------- -/

/-- Rows of a pass. -/
def glnRows : Nat := 970752

/-- TARGET, INSTANCE and ROW of a row of the pass (R343). -/
def glnTarget (p : Nat) : Nat × Nat × Nat :=
  if p < 786432 then (0, p / 16384, p % 16384)
  else if p < 884736 then (1, (p - 786432) / 8192, (p - 786432) % 8192)
  else if p < 966656 then (2, 0, p - 884736)
  else (3, 0, p - 966656)

/-- The first row from `p` on that is not in a bank that is not AWAKE (R343). -/
def State.glnSkip (s : State) : Nat → Nat → Nat
  | 0, p => p
  | f + 1, p =>
    if p < 786432 ∧ s.awake (p / 16384) = false then s.glnSkip f ((p / 16384 + 1) * 16384) else p

/-- The soft repair of a row that failed its March test (R346). -/
def State.softRepair (s : State) (tgt inst row : Nat) : State :=
  let s1 := (s.setB (aGln 0x10) 0).bump (aGln 0xC) 1
  if tgt = 0 then
    match s1.freeSpare inst with
    | some i => (s1.useSpare inst i row 2).queueRepair ⟨1, 1, inst, row⟩
    | none => (s1.setB (aGln 0x10) 1).setB (aBnk inst 0xC) 5
  else
    let i := if tgt = 1 then inst else if tgt = 2 then 12 else 13
    if s1.hasOther i then (s1.useOther i).queueRepair ⟨(otherKind i).1, 1, inst, row⟩ else s1.setB (aGln 0x10) 1

/-- An unused spare that fails between passes is marked used with ORIGIN 3 (R346); its record has no row: a free
value. -/
def State.badSpare (s : State) (m i : Nat) : State :=
  let row := s.free.toNat % 2 ^ 32
  if m < 48 then
    if i < 32 ∧ s.bit (aBnk m (0x100 + 4 * i)) 31 = false then
      (s.useSpare m i (s.rf (aBnk m (0x100 + 4 * i)) 0 14) 3).used.queueRepair ⟨1, 5, m, row⟩
    else s
  else if s.hasOther (m - 48) then
    (s.useOther (m - 48)).used.queueRepair ⟨(otherKind (m - 48)).1, 5, (otherKind (m - 48)).2, row⟩
  else s

/-- What the copy of row `row` corrected and what it could not: such a word is carried as poisoned from the copy on, until it is
written, and one that was poisoned before stays so (R328, R331, R344). -/
def State.gleanCopy (s : State) (tgt inst row : Nat) (r : MarchResult) : State :=
  let s1 := r.poisoned.foldl (fun (t : State) w =>
    (if tgt = 0 then t.bankErr inst 0x42 (256 * row + 8 * w.val) false 2 else t).poisonWord (glnWord tgt inst row w.val))
    (if tgt = 0 then s.bankCe inst r.corrected else s)
  if (List.range 32).any fun w => s1.wordBad (glnWord tgt inst row w) then s1.setB (aGln 0x10) 2 else s1

/-- The Gleaner copies its next row into the save buffer, once the interval since the last has passed (R343 to R345). -/
def State.gleanBegin (s : State) (r : MarchResult) : State :=
  if s.bit (aGln 0) 0 = false ∨ s.eclk < s.glnDue then s
  else
    let p := s.glnSkip 48 s.glnPos % glnRows
    let t := glnTarget p
    let s1 := { s with glnPos := p }.wr (aGln 4)
      (BitVec.ofNat 32 (t.1 + t.2.1 % 64 * 2 ^ 4 + t.2.2 % 2 ^ 17 * 2 ^ 12 + 2 ^ 31))
    let s2 := if t.1 = 0 then s1.setB (aBnk t.2.1 8) 5 else s1
    s2.gleanCopy t.1 t.2.1 t.2.2 r

/-- ECLK cycles of `n` µs: ECLK_NOW counts 125 MHz. -/
def State.usCycles (s : State) (n : Nat) : Nat := 125 * n * s.rf 0x40 16 5

/-- The row in the save buffer is done: its repair, its restore, and the way on (R343 to R346). -/
def State.gleanEnd (s : State) (r : MarchResult) : State :=
  let p := s.glnPos
  let t := glnTarget p
  let s3 := if r.mismatch then s.softRepair t.1 t.2.1 t.2.2 else s
  let s4 := if t.1 = 0 then s3.clrB (aBnk t.2.1 8) 5 else s3
  let s5 := { s4.clrB (aGln 4) 31 with glnDue := s.eclk + s.usCycles (s.rf (aGln 0) 8 16) }
  if p + 1 < glnRows then { s5 with glnPos := p + 1 }
  else
    let s6 := { s5 with glnPos := 0 }.bump (aGln 8) 1
    r.badSpares.foldl (fun s x => s.badSpare x.1.val x.2.val) s6

/-- The Gleaner goes on with a row: it copies its next one, or ends the one in the save buffer. GLEANER_ROW comes at both moments, with
what the copy finds and with what the March test finds (DESIGN CHOICE, log entry 126). -/
def State.gleanRow (s : State) (r : MarchResult) : State :=
  s.awakeDo fun s => if s.bit (aGln 4) 31 then s.gleanEnd r else s.gleanBegin r

/-- GLEANER_ROW (R344). -/
def execGleanerRow (r : MarchResult) (s : State) : Host.Outcome State Fault Refusal := .next (s.gleanRow r)

/-- The oldest unrecorded repair is written to the NV repair map, if the map has room (R347, R452, R479). -/
def State.mapWrite (s : State) : State :=
  match s.repairQ with
  | [] => s
  | r :: rest =>
    let s1 := { s with repairQ := rest }
    if s.nv.repairs.length < 4096 then
      (s1.wf (aNvc 4) 0 13 (s.nv.repairs.length + 1)).nvPut { s.nv with repairs := s.nv.repairs ++ [r] }
    else (s1.setB (aNvc 8) 0).spareLow

/-- REPAIR_MAP_WRITE (R347). -/
def execRepairMapWrite (s : State) : Host.Outcome State Fault Refusal := .next s.mapWrite

/- Scrub and post-package repair (R351, R352) ------------------------------------------------------------------------ -/

/-- The bursts of both stacks. -/
def scrubBursts : Nat := 2 ^ 30

/-- Patrol scrub reads burst `burst` of channel `k`, once in a pass; with the last burst the pass ends (R351). -/
def State.scrub (s : State) (k burst : Nat) (ecc : Ecc) : State :=
  let c := k * 2 ^ 26 + burst
  if s.rf (aDrc 4) 0 16 = 0 ∨ s.sleeping = true ∨ spGet (fun _ => false) s.scrubbed c = true then s
  else
    let s1 := (s.dramDo (s.dramOffset k (32 * burst)) 32 none ecc).1
    let l := spSet (fun _ => false) s.scrubbed c true
    if l.length < scrubBursts then { s1 with scrubbed := l } else { s1 with scrubbed := [], rowCe := [] }.bump (aDrc 0x10) 1

/-- SCRUB_READ (R351). -/
def execScrubRead (k : Fin 16) (burst : BitVec 26) (ecc : Ecc) (_ : Unit) (s : State) : Host.Outcome State Fault Refusal :=
  .next (s.scrub k.val burst.toNat ecc)

/-- The oldest repair candidate of channel `k`, and the others. -/
def takeCand (k : Nat) : List Nat → Option (Nat × List Nat)
  | [] => none
  | x :: l => if x / 2 ^ 21 = k then some (x, l) else (takeCand k l).map fun p => (p.1, x :: p.2)

/-- Soft post-package repair of a candidate row of channel `k`; `bad`: its bursts that cannot be read, which are carried as
poisoned (R352, R479). -/
def State.softPpr (s : State) (k : Nat) (spareLeft : Bool) (bad : BitVec 32) : State :=
  if s.bit (aDrc 8) 8 = false ∨ s.sleeping = true then s
  else match takeCand k s.pprq with
    | none => s
    | some (c, rest) =>
      let s1 := { s with pprq := rest }
      if spareLeft then
        let s2 := ((List.range 32).filter fun i => bad.getLsbD i).foldl (fun t i => t.setPoison (32 * c + i) true) s1
        let s3 := (s2.wf (aDrcCh k 0x10) 0 16 (s.rf (aDrcCh k 0x10) 0 16 + 1)).setB (aDrc 0xC) 2
        if s.bit (aDrc 8) 9 then s3.queueRepair ⟨5, 1, k, c % 2 ^ 21⟩ else s3
      else (s1.setB (aDrc 0xC) 3).spareLow

/-- SOFT_PPR (R352). -/
def execSoftPpr (k : Fin 16) (found : PprObs) (s : State) : Host.Outcome State Fault Refusal :=
  .next (s.softPpr k.val found.spareLeft found.bad)

end Sys2Proof.Machine
end

