-- ==== Sys2Proof/Machine/Timers.lean ====
section
/-!
DEFINITION. Timers and counters (chapter 12): ticks, comparators, gates, linked pairs, triggers, actions, group starts and
slow mode; and the requests to the sensor ADC (R387, R463).
-/

namespace Sys2Proof.Machine

/- Channels and pairs (R383) ------------------------------------------------------------------------------- -/

/-- A register of the timer block. -/
def aTmrBlk (o : Nat) : Nat := 0x40000 + o

/-- CFG.LINK of the pair of channel `c`. -/
def State.tmrLinked (s : State) (c : Nat) : Bool := s.bit (aTmr (c - c % 2) 4) 3

/-- The channel that governs channel `c`: the low channel of a linked pair, else itself. -/
def State.tmrBase (s : State) (c : Nat) : Nat := if s.tmrLinked c then c - c % 2 else c

/-- A value register of the counter of channel `b` (64 bits for a pair). -/
def State.tmrVal (s : State) (b o : Nat) : Nat :=
  (s.rd (aTmr b o)).toNat + (if s.tmrLinked b then (s.rd (aTmr (b + 1) o)).toNat * 2 ^ 32 else 0)

/-- Store a value register of the counter of channel `b`. -/
def State.setTmrVal (s : State) (b o v : Nat) : State :=
  let s1 := s.wr (aTmr b o) (BitVec.ofNat 32 v)
  if s.tmrLinked b then s1.wr (aTmr (b + 1) o) (BitVec.ofNat 32 (v / 2 ^ 32)) else s1

/-- Halt or sleep calls for slow mode (R391). -/
def State.slowWanted (s : State) : Bool := s.bit aDbgHalt 0 || s.sleeping

/-- Channel `c` is in slow mode, which it enters and leaves at an SCLK edge (R391). -/
def State.inSlow (s : State) (c : Nat) : Bool := spGet (fun _ => false) s.tmrSlow (s.tmrBase c)

/- The ADC's places (R387, R463, R464) ------------------------------------------------------------------------ -/

/-- A sensor code of R464. -/
def sensorCode (k : Nat) : Bool := decide (k < 0x30) || (decide (0x40 ≤ k) && decide (k < 0x58))

/-- What the waiting place shows in TMR.ADC_STATUS; no rule gives the channel of a waiting GO request: a free value. -/
def State.showWaiting (s : State) : State :=
  match s.adc.next with
  | none => s.clrB (aTmrBlk 0x100C) 7
  | some (src, _) =>
    if src < 32 then (s.wf (aTmrBlk 0x100C) 0 5 src).setB (aTmrBlk 0x100C) 7
    else (s.used.wf (aTmrBlk 0x100C) 0 5 s.free.toNat).setB (aTmrBlk 0x100C) 7

/-- A request of timer channel `c` (R387, R464); one raised in sleep waits until PCLK runs again (R27, R391). -/
def State.adcTimer (s : State) (c : Nat) : State :=
  let k := s.rf (aHlt (0x40 + 4 * c)) 0 8
  if s.sleeping then { s with late := s.late ++ [.adc c] }
  else if !sensorCode k then s.setB (aHlt 0) 5
  else match s.adc.now, s.adc.next with
    | none, _ => { s with adc := { s.adc with now := some (c, k) } }
    | some _, none => { s with adc := { s.adc with next := some (c, k) } }.showWaiting
    | some _, some _ => (s.setB (aTmrBlk 0x1008) 0).wf (aTmrBlk 0x100C) 8 5 c

/-- A GO request of sensor code `k` (R463, R464). -/
def State.adcGo (s : State) (k : Nat) : State :=
  if !sensorCode k then s.flag (aHlt 0) 5
  else match s.adc.now, s.adc.next with
    | none, _ => { s with adc := { s.adc with now := some (32, k) } }
    | some _, none => { s with adc := { s.adc with next := some (32, k) } }.showWaiting
    | some _, some _ =>
      let s1 := if s.adc.held.isSome then s.flag (aHlt 0) 14 else s
      { s1 with adc := { s.adc with held := some k } }

/-- ADC_GO (R463): a write of HLT.ADC_CTRL with GO. -/
def execAdcGo (sensor : BitVec 8) (s : State) : Host.Outcome State Fault Refusal := .next (s.mgmtDo (aHlt 0x14) (some (BitVec.ofNat 32 (sensor.toNat + 2 ^ 31))) fun s => s.adcGo sensor.toNat)

/- Triggers (R386) ---------------------------------------------------------------------------------------------- -/

/-- TRIG.ADC (R387). -/
def State.trigAdc (s : State) (b : Nat) : State := if s.bit (aTmr b 0x20) 4 then s.adcTimer b else s
/-- TRIG.DMA (R369). -/
def State.trigDma (s : State) (b : Nat) : State := if s.bit (aTmr b 0x20) 5 then { s with dmaq := s.dmaq ++ [1 + b] } else s
/-- TRIG.EVT. -/
def State.trigEvt (s : State) (b : Nat) : State := if s.bit (aTmr b 0x20) 6 then s.post rkTmr none 6 b else s
/-- TRIG.ACTION (R388). -/
def State.trigAct (s : State) (b : Nat) : State :=
  if s.rf (aTmr b 0x20) 8 2 = 0 then s
  else { s with tmrActs := s.tmrActs ++ [(s.rf (aTmr b 0x20) 16 5, s.rf (aTmr b 0x20) 8 2)] }

/-- Channel `b` raises its trigger (R386, R456). -/
def State.tmrTrigger (s : State) (b : Nat) : State :=
  let s1 := (((s.trigAdc b).trigDma b).trigEvt b).trigAct b
  if s.bit 0x68 b then s1.wakeBy (.timer (Fin.ofNat 32 b)) else s1

/-- The events of a tick raise one trigger if TRIG.ON selects one of them (R386). -/
def State.tmrEvents (s : State) (b : Nat) (matched wrapped : Bool) : State :=
  if (matched && s.bit (aTmr b 0x20) 0) || (wrapped && s.bit (aTmr b 0x20) 1) then s.tmrTrigger b else s

/- Ticks (R374 to R382) --------------------------------------------------------------------------------------------- -/

/-- Channel `c` counts its source: it runs, it is no high channel of a pair, and it is not in slow mode; asleep, PCLK stands (R375,
R391, R455). -/
def State.ticks (s : State) (c : Nat) : Bool := s.tmrBase c == c && s.bit (aTmr c 0) 0 && !s.inSlow c && !s.sleeping

/-- An edge of the count source of channel `c` and whether the channel ticks at it: the divider counts TREF edges, which come only
while TREF is present, and passes every DIV-th (R374). -/
def State.divided (s : State) (c : Nat) : State × Bool :=
  if s.rf (aTmr c 4) 0 2 != 1 then (s, true)
  else if !s.bit (aSyn 4) 31 then (s, false)
  else
    let k := spGet (fun _ => 0) s.tmrDiv c + 1
    let full := decide (max 16 (s.rf (aTmr c 8) 0 16) ≤ k)
    ({ s with tmrDiv := spSet (fun _ => 0) s.tmrDiv c (if full then 0 else k) }, full)

/-- The gate input of channel `c` is at its active level, by GATE_SRC and LEVEL; `pin` is the level of contact TMR_IN0 to TMR_IN3
where GATE_SRC names one (R380). -/
def State.gateIn (s : State) (c : Nat) (pin : Bool) : Bool :=
  let g := s.rf (aTmr c 4) 8 7
  let high := s.bit (aTmr c 4) 4
  if g < 4 then pin == high
  else if 0x20 ≤ g ∧ g < 0x40 then s.bit (aHlt (0x300 + 4 * (g - 0x20))) 31 == high
  else if 0x40 ≤ g then s.bit (aLn (g - 0x40) 0x14) 14 == high
  else false

/-- GATE_SRC names an input (R380). -/
def gateSource (g : Nat) : Bool := decide (g < 4) || (decide (0x20 ≤ g) && decide (g < 0x80))

/-- The gate of channel `c`: the input at its last tick and the two flip-flops, all as active or not (R381). -/
def State.gateFf (s : State) (c : Nat) : Bool × Bool × Bool := spGet (fun _ => (false, false, false)) s.tmrGate c

/-- The synchronized gate at a tick of channel `c`: what the second flip-flop holds (R381). -/
def State.gateAt (s : State) (c : Nat) : Bool := (s.gateFf c).2.2

/-- The flip-flops take the input at a tick. A level that has changed since the last tick may be caught one tick late: a free
choice, so that it takes effect at the second or third tick after it (R381). -/
def State.gateSample (s : State) (c : Nat) (pin : Bool) : State :=
  let f := s.gateFf c
  let x := s.gateIn c pin
  let v := if x = f.1 then x else if s.free.getLsbD 0 then x else f.1
  { (if x = f.1 then s else s.used) with tmrGate := spSet (fun _ => (false, false, false)) s.tmrGate c (x, v, f.2.1) }

/-- Channel `c` counts at a tick (R380). -/
def State.counts (s : State) (c : Nat) : Bool := !s.bit (aTmr c 4) 2 || s.gateAt c

/-- The count after one step (R375). -/
def State.tmrNext (s : State) (c : Nat) : Nat :=
  if s.tmrVal c 0xC ≤ s.tmrVal c 0x14 then 0 else s.tmrVal c 0x14 + 1

/-- A step of channel `c` wraps (R375). -/
def State.wraps (s : State) (c : Nat) : Bool := decide (s.tmrVal c 0xC ≤ s.tmrVal c 0x14)

/-- A step of channel `c` matches (R377). -/
def State.matches (s : State) (c : Nat) : Bool := s.tmrNext c == s.tmrVal c 0x10

/-- Active-gate ticks in an unbroken run so far (R382). -/
def State.gateSpan (s : State) (c : Nat) : Nat := spGet (fun _ => 0) s.tmrRun c

/-- Store the run of active-gate ticks. -/
def State.setGateSpan (s : State) (c n : Nat) : State := { s with tmrRun := spSet (fun _ => 0) s.tmrRun c n }

/-- A tick with the gate active reaches MAXGATE (R382). -/
def State.gateMaxed (s : State) (c : Nat) : Bool :=
  let m := (s.rd (aTmr c 0x24)).toNat
  decide (0 < m) && decide (m ≤ s.gateSpan c + 1) && !s.bit (aTmr c 0x2C) 1

/-- The gate at a tick of channel `c` (R382). -/
def State.gateTick (s : State) (c : Nat) (pin : Bool) : State :=
  let g := s.gateAt c
  let s1 := (s.gateSample c pin).putB (aTmr c 0x2C) 0 g
  if !g then (s1.clrB (aTmr c 0x2C) 1).setGateSpan c 0
  else
    let s2 := s1.setGateSpan c (s.gateSpan c + 1)
    if s.gateMaxed c then ((s2.setB (aTmr c 0x2C) 1).setB (aTmr c 0x30) 1).post rkTmr none 6 c else s2

/-- The actions `ks` reach channel `b`: RELOAD, then STOP over START (R388). -/
def State.tmrActOn (s : State) (b : Nat) (ks : List Nat) : State :=
  let s1 := if ks.contains 3 then s.setTmrVal b 0x14 (s.tmrVal b 0x1C) else s
  if ks.contains 2 then s1.clrB (aTmr b 0) 0 else if ks.contains 1 then s1.setB (aTmr b 0) 0 else s1

/-- The actions `l` take effect. -/
def State.tmrApply (s : State) (l : List (Nat × Nat)) : State :=
  (List.range 32).foldl (fun t b => t.tmrActOn b ((l.filter fun a => s.tmrBase a.1 == b).map (·.2))) s

/-- A PCLK edge ends: the actions raised at the edge before it take effect, after its ticks, and those that its own ticks have raised
are due at the next (R376, R388). The bus accesses of an edge come after that, and those made before it fell in an earlier PCLK cycle
(R376). -/
def State.tmrActions (s : State) : State :=
  { s.busEnd with tmrDue := s.tmrActs, tmrActs := [], tmrEdge := 0 }.tmrApply s.tmrDue

/-- Channel `c` acts at an edge. The ticks of one PCLK edge come in ascending channel order (R387); ACTION ends an edge, and so does
a tick of a channel that is not above the last (DESIGN CHOICE, log entry 130). The bus accesses before it fell in an earlier PCLK
cycle (R376). -/
def State.edgeOf (s : State) (c : Nat) : State :=
  { (if c < s.tmrEdge then s.tmrActions else s).busEnd with tmrEdge := c + 1 }

/-- A tick of channel `c`, which runs, at the edge that has begun (R375 to R386). -/
def State.tickRun (s : State) (c : Nat) (pin : Bool) : State :=
  let s1 := s.gateTick c pin
  if s.counts c then (s1.setTmrVal c 0x14 (s.tmrNext c)).tmrEvents c (s.matches c) (s.wraps c) else s1

/-- An edge of the count source of channel `c` makes it tick: the state at that tick, in which the actions due at the edge that it
ends have taken effect (R374, R388). -/
def State.tickAt (s : State) (c : Nat) : Option State :=
  let d := s.divided c
  let t := d.1.edgeOf c
  if d.2 && t.ticks c then some t else none

/-- An edge of the count source of channel `c` (R374, R375). -/
def State.tmrTick (s : State) (c : Nat) (pin : Bool) : State :=
  match s.tickAt c with
  | some t => t.tickRun c pin
  | none => (s.divided c).1

/-- TICK (R374, R375): an edge of the count source, a TREF edge where CLK is 1. -/
def execTick (c : Fin 32) (pin : Bool) (s : State) : Host.Outcome State Fault Refusal := .next (s.tmrTick c.val pin)

/-- The tick of channel `c` at which `p` holds, if an edge of its count source makes one. -/
def State.tickIf (s : State) (c : Nat) (pin : Bool) (p : State → Bool) : State :=
  match s.tickAt c with
  | some t => if p t then t.tickRun c pin else s
  | none => s

/-- A tick that steps the count into CMP. -/
def State.tickMatch (s : State) (c : Nat) (pin : Bool) : State := s.tickIf c pin fun t => t.counts c && t.matches c

/-- MATCH (R377). -/
def execMatch (c : Fin 32) (pin : Bool) (s : State) : Host.Outcome State Fault Refusal := .next (s.tickMatch c.val pin)

/-- A tick that wraps. -/
def State.tickWrap (s : State) (c : Nat) (pin : Bool) : State := s.tickIf c pin fun t => t.counts c && t.wraps c

/-- WRAP (R375). -/
def execWrap (c : Fin 32) (pin : Bool) (s : State) : Host.Outcome State Fault Refusal := .next (s.tickWrap c.val pin)

/-- A tick at which an unbroken gate reaches MAXGATE. -/
def State.tickMaxgate (s : State) (c : Nat) (pin : Bool) : State := s.tickIf c pin fun t => t.gateAt c && t.gateMaxed c

/-- MAXGATE (R382). -/
def execMaxgate (c : Fin 32) (pin : Bool) (s : State) : Host.Outcome State Fault Refusal :=
  .next (s.tickMaxgate c.val pin)

/-- The raw gate input moves twice or more between two ticks (R381). -/
def State.tooFast (s : State) (c : Nat) : State :=
  if s.ticks c && gateSource (s.rf (aTmr c 4) 8 7) then s.setB (aTmr c 0x30) 0 else s

/-- TOO_FAST (R381). -/
def execTooFast (c : Fin 32) (s : State) : Host.Outcome State Fault Refusal := .next (s.tooFast c.val)

/- Actions (R388) --------------------------------------------------------------------------------------------------- -/

/-- ACTION (R388): the end of a PCLK edge. -/
def execAction (s : State) : Host.Outcome State Fault Refusal := .next s.tmrActions

/- Group start (R389, R390) ------------------------------------------------------------------------------------------- -/

/-- Channels of GROUP_MASK that take part: the bit of the high channel of a pair is ignored. -/
def State.groupChans (s : State) : List Nat :=
  (List.range 32).filter fun c => s.bit (aTmrBlk 0x1000) c && s.tmrBase c == c

/-- SPREAD computes the PHASE of the unlinked channels from rank `i` of `n` on (R390). -/
def State.spread (s : State) (n : Nat) : Nat → List Nat → State
  | _, [] => s
  | i, c :: l => (s.wr (aTmr c 0x1C) (BitVec.ofNat 32 (i * ((s.rd (aTmr c 0xC)).toNat + 1) / n))).spread n (i + 1) l

/-- A write of GROUP_CTRL with GO (R389, R390). -/
def State.groupStart (s : State) (spread : Bool) : State :=
  let s1 := s.putB (aTmrBlk 0x1004) 1 spread
  let cs := s.groupChans
  let un := cs.filter fun c => !s.tmrLinked c
  let s2 := if spread then s1.spread un.length 0 un else s1
  cs.foldl (fun t c => (t.setTmrVal c 0x14 (t.tmrVal c 0x1C)).setB (aTmr c 0) 0) s2

/-- GROUP_START (R389). -/
def execGroupStart (spread : Bool) (s : State) : Host.Outcome State Fault Refusal := .next (s.mgmtDo (aTmrBlk 0x1004) (some (BitVec.ofNat 32 (1 + 2 * spread.toNat))) fun s => s.groupStart spread)

/- Slow mode (R391) ------------------------------------------------------------------------------------------------------ -/

/-- The count after a slow step from `old`, whether it wraps and whether it matches. -/
def slowStep (old step r cmp : Nat) : Nat × Bool × Bool :=
  let n := old + step
  if r < n then
    let m := (n - (r + 1)) % (r + 1)
    (m, true, decide (cmp ≤ r) && (decide (old < cmp) || decide (cmp ≤ m)))
  else (n, false, decide (old < cmp) && decide (cmp ≤ n))

/-- A slow step of channel `c`, which runs, at the SCLK edge that has begun. -/
def State.slowRun (s : State) (c : Nat) : State :=
  let st := s.rf (aTmr c 0x28) 0 24
  let r := s.tmrVal c 0xC
  let q := slowStep (s.tmrVal c 0x14) st r (s.tmrVal c 0x10)
  let s2 := if r + 1 < st then s.setB (aTmr c 0x30) 2 else s
  (s2.setTmrVal c 0x14 q.1).tmrEvents c q.2.2 q.2.1

/-- An SCLK edge reaches channel `c` (R391): in slow mode it makes its slow step, if it runs once the actions due at the edge that it
ends have taken effect (R388), and the mode is entered, or left after the step, as halt and sleep call for it (DEDUCED, log 131). -/
def State.tmrSclk (s : State) (c : Nat) : State :=
  if s.tmrBase c != c then s
  else
    let t := s.edgeOf c
    let s1 := if s.inSlow c && t.bit (aTmr c 0) 0 then t.slowRun c else s
    { s1 with tmrSlow := spSet (fun _ => false) s1.tmrSlow c s.slowWanted }

/-- SLOW_STEP (R391). -/
def execSlowStep (c : Fin 32) (s : State) : Host.Outcome State Fault Refusal := .next (s.tmrSclk c.val)

/- The capture of R385 ------------------------------------------------------------------------------------------------------ -/

/-- A read of TMR[2p].COUNT: of a linked pair it captures the high word into HOLD, both as before the writes of this PCLK cycle
(R376, R385). -/
def State.tmrCountRead (s : State) (p : Nat) : State :=
  let now := fun c => s.busWord (aTmr c 0x14) (s.rd (aTmr c 0x14))
  let s1 := if s.tmrLinked (2 * p) then s.wr (aTmr (2 * p) 0x18) (now (2 * p + 1)) else s
  { s1 with busOut := now (2 * p) }

/-- TMR_COUNT_READ (R385). -/
def execTmrCountRead (p : Fin 16) (s : State) : Host.Outcome State Fault Refusal := .next (s.mgmtDo (aTmr (2 * p.val) 0x14) (none) fun s => s.tmrCountRead p.val)

end Sys2Proof.Machine
end

