-- ==== Sys2Proof/Machine/Dma.lean ====
section
/-!
DEFINITION. The peripheral DMA (chapter 11, R368 to R373): enable, triggers, abort and the end of a block. The movement of
an element stands with the matrix (Machine/Matrix.lean).
-/

namespace Sys2Proof.Machine

/-- DMA channel `c`. -/
def State.dmaCh (s : State) (c : Nat) : DmaSt := spGet (fun _ => DmaSt.mk 0 0 none false) s.dma c
/-- Store DMA channel `c`. -/
def State.setDma (s : State) (c : Nat) (v : DmaSt) : State := { s with dma := spSet (fun _ => DmaSt.mk 0 0 none false) s.dma c v }

/-- STATUS.STATE of channel `c`: 0 IDLE, 1 WAIT, 2 MOVING, 3 DONE, 4 ERROR. -/
def State.dmaState (s : State) (c : Nat) : Nat := s.rf (aDma c 0x20) 0 3

/-- The start address of the source, or of the destination. -/
def State.dmaStart (s : State) (c : Nat) (dst : Bool) : Nat :=
  (s.rd (aDma c (8 * dst.toNat))).toNat + s.rf (aDma c (8 * dst.toNat + 4)) 0 8 * 2 ^ 32

/-- Bytes of an element. -/
def State.dmaElem (s : State) (c : Nat) : Nat :=
  match s.rf (aDma c 0x10) 0 2 with
  | 1 => 8
  | 2 => 32
  | _ => 4

/-- Addressing mode of a side: 0 fixed, 1 increment, 2 wrap. -/
def State.dmaMode (s : State) (c : Nat) (dst : Bool) : Nat :=
  match s.rf (aDma c 0x10) (2 + 2 * dst.toNat) 2 with
  | 0 => 0
  | 2 => 2
  | _ => 1

/-- Elements of a block. -/
def State.dmaBlock (s : State) (c : Nat) : Nat := max 1 (min 256 (s.rf (aDma c 0x14) 0 9))

/-- One side of channel `c` passes the checks of R368. -/
def State.dmaSideOk (s : State) (c : Nat) (dst : Bool) : Bool :=
  let a := s.dmaStart c dst
  let w := s.rf (aDma c 0x10) 8 5
  (match regionOf a with
    | .bank _ _ _ => true
    | .dram _ => true
    | .ctrl _ => s.dmaElem c == 4
    | _ => false)
    && a % s.dmaElem c == 0 && (s.dmaMode c dst != 2 || (decide (5 ≤ w) && decide (w ≤ 20)))

/-- TRIG codes of R369. -/
def trigCode (k : Nat) : Bool := decide (k ≤ 0x21) || (decide (0x28 ≤ k) && decide (k ≤ 0x2F))

/-- A write of EN = 1 (R368); an enabled channel stays as it is. -/
def State.dmaEnable (s : State) (c : Nat) : State :=
  if s.bit (aDma c 0x1C) 0 then s
  else if s.dmaSideOk c false && s.dmaSideOk c true && trigCode (s.rf (aDma c 0x18) 0 7) then
    (((s.setB (aDma c 0x1C) 0).wf (aDma c 0x20) 0 3 1).wf (aDma c 0x20) 16 16 0).setDma c ⟨0, 0, none, false⟩
  else s.flag (aDma c 0x24) 2

/-- DMA_ENABLE (R368). -/
def execDmaEnable (c : Fin 8) (s : State) : Host.Outcome State Fault Refusal := .next (s.mgmtDo (aDma c.val 0x1C) (some (1)) fun s => s.dmaEnable c.val)

/-- A block of channel `c` starts. -/
def State.dmaBegin (s : State) (c : Nat) : State :=
  (s.wf (aDma c 0x20) 0 3 2).setDma c { s.dmaCh c with left := s.dmaBlock c }

/-- A trigger of channel `c` (R369). -/
def State.dmaTrigger (s : State) (c : Nat) : State :=
  if s.dmaState c = 1 then s.dmaBegin c
  else if s.dmaState c = 2 then
    if s.bit (aDma c 0x20) 4 then s.flag (aDma c 0x24) 0 else s.setB (aDma c 0x20) 4
  else s

/-- DMA_GO (R369). -/
def execDmaGo (c : Fin 8) (s : State) : Host.Outcome State Fault Refusal := .next (s.mgmtDo (aDma c.val 0x1C) (some (3)) fun s => s.dmaTrigger c.val)

/-- Channel `c` has an element in progress: its read or its write is under way. -/
def State.dmaBusy (s : State) (c : Nat) : Bool := (s.dmaCh c).elem.isSome || (s.xferOf (.dma c)).isSome

/-- Channel `c` stops: EN and PENDING clear, state IDLE (R373). -/
def State.dmaIdle (s : State) (c : Nat) : State :=
  (((s.clrB (aDma c 0x1C) 0).wf (aDma c 0x20) 0 3 0).clrB (aDma c 0x20) 4).setDma c { s.dmaCh c with stop := false }

/-- ABORT of channel `c`: it stops after the element in progress (R373). -/
def State.dmaAbort (s : State) (c : Nat) : State :=
  if s.dmaBusy c then s.setDma c { s.dmaCh c with stop := true } else s.dmaIdle c

/-- DMA_ABORT (R373). -/
def execDmaAbort (c : Fin 8) (s : State) : Host.Outcome State Fault Refusal := .next (s.mgmtDo (aDma c.val 0x1C) (some (4)) fun s => s.dmaAbort c.val)

/-- The list without its first `k`. -/
def takeNat (k : Nat) : List Nat → Option (List Nat)
  | [] => none
  | a :: l => if a = k then some l else (takeNat k l).map (a :: ·)

/-- A source event of TRIG code `k` reaches the DMA (R369). -/
def State.dmaSource (s : State) (k : Nat) : State :=
  match takeNat k s.dmaq with
  | none => s
  | some l =>
    ((List.range 8).filter fun c => s.rf (aDma c 0x18) 0 7 == k).foldl State.dmaTrigger { s with dmaq := l }

/-- DMA_TRIGGER (R369). -/
def execDmaTrigger (src : BitVec 7) (s : State) : Host.Outcome State Fault Refusal :=
  .next (if s.sleeping then s else s.dmaSource src.toNat)

/-- Channel `c` raises DMA_DONE. -/
def State.dmaDone (s : State) (c : Nat) : State := s.post rkDma none 9 c

/-- The last write of a block is acknowledged (R372). -/
def State.dmaBlockEnd (s : State) (c : Nat) : State :=
  if s.dmaState c ≠ 2 ∨ (s.dmaCh c).left ≠ 0 ∨ s.dmaBusy c = true then s
  else
    let n := (s.rf (aDma c 0x20) 16 16 + 1) % 2 ^ 16
    let total := s.rf (aDma c 0x14) 16 16
    let s1 := s.wf (aDma c 0x20) 16 16 n
    if total ≠ 0 ∧ n = total then
      let s2 := (((s1.clrB (aDma c 0x1C) 0).wf (aDma c 0x20) 0 3 3).clrB (aDma c 0x20) 4).dmaDone c
      { s2 with dmaq := s2.dmaq ++ [0x28 + c] }
    else
      let s2 := if s.bit (aDma c 0x10) 20 then s1.dmaDone c else s1
      if s.bit (aDma c 0x20) 4 then (s2.clrB (aDma c 0x20) 4).dmaBegin c else s2.wf (aDma c 0x20) 0 3 1

/-- BLOCK_END (R372). -/
def execBlockEnd (c : Fin 8) (s : State) : Host.Outcome State Fault Refusal := .next (s.awakeDo fun s => s.dmaBlockEnd c.val)

end Sys2Proof.Machine
end

