-- ==== Sys2Proof/Machine/Health.lean ====
section
/-!
DEFINITION. Sensors, temperature limits, ageing, core-voltage requests, life reckoning, engine sparing and the sticky
hierarchy (chapter 15; AVSBus frames from chapter 13).
-/

namespace Sys2Proof.Machine

/- Conversions (R462 to R467) ---------------------------------------------------------------------------------- -/

/-- The result register of a sensor code. -/
def sensorReg (k : Nat) : Nat := if k < 0x40 then aHlt (0x100 + 4 * k) else aHlt (0x200 + 4 * (k - 0x40))

/-- A register that holds a CODE with its VALID bit. -/
def validWord (code : Nat) : W32 := BitVec.ofNat 32 (code % 2 ^ 12 + 2 ^ 31)

/-- OUT of comparator `i` after a result (R465). -/
def State.cmpOut (s : State) (i code : Nat) : Bool :=
  let a := aHlt (0x300 + 4 * i)
  let level := s.rf a 8 12
  let hyst := s.rf a 20 8
  if s.bit a 30 then decide (level ≤ code) || (s.bit a 31 && decide (level ≤ code + hyst))
  else decide (code ≤ level) || (s.bit a 31 && decide (code ≤ level + hyst))

/-- Comparator `i` judges a result; a rise of OUT raises SENSOR (R465). -/
def State.cmpJudge (s : State) (i code : Nat) : State :=
  let a := aHlt (0x300 + 4 * i)
  let s1 := s.putB a 31 (s.cmpOut i code)
  if s.cmpOut i code && !s.bit a 31 then s1.post rkSensor none 11 i else s1

/-- The comparators of sensor code `k` judge a result. -/
def State.judgeAll (s : State) (k code : Nat) : State :=
  ((List.range 32).filter fun i => s.rf (aHlt (0x300 + 4 * i)) 0 8 == k).foldl (fun t i => t.cmpJudge i code) s

/-- The CODEs of the thermal sensors that have a result. -/
def State.temps (s : State) : List (Nat × Nat) :=
  ((List.range 48).filter fun t => s.bit (aHlt (0x100 + 4 * t)) 31).map fun t => (t, s.rf (aHlt (0x100 + 4 * t)) 0 12)

/-- The largest value of a list of (index, value) pairs. -/
def maxVal (l : List (Nat × Nat)) : Nat := (l.map (·.2)).foldl max 0

/-- One of the indices that hold a value; where several do, no rule says which: a free value among them. -/
def State.oneOf (s : State) (l : List Nat) : Nat × State :=
  match l with
  | [] => (0, s)
  | [a] => (a, s)
  | _ => (l.getD (s.free.toNat % l.length) 0, s.used)

/-- HOTTEST and HOT_SENSOR follow the thermal results (R467). -/
def State.hottest (s : State) : State :=
  let l := s.temps
  let m := maxVal l
  let p := s.oneOf ((l.filter fun q => q.2 == m).map (·.1))
  (p.2.wr (aHlt 8) (BitVec.ofNat 32 (m + (if l.length = 48 then 2 ^ 31 else 0)))).wf (aHlt 4) 8 6 p.1

/-- A thermal result (R467). -/
def State.thermal (s : State) (code : Nat) : State :=
  let s1 := s.hottest
  let s2 := if s.rf (aHlt 0xC) 0 12 < code then s1.setB (aHlt 0) 0 else s1
  if s.rf (aHlt 0xC) 16 12 < code then s2.setB (aHlt 0) 1 else s2

/-- STATUS.WARN: HOTTEST lies above its threshold (R467). -/
def State.warm (s : State) : Bool := decide (s.rf (aHlt 0xC) 0 12 < s.rf (aHlt 8) 0 12)
/-- STATUS.CRIT (R467). -/
def State.critical (s : State) : Bool := decide (s.rf (aHlt 0xC) 16 12 < s.rf (aHlt 8) 0 12)

/-- Monitor `v` is judged: 18 and 19 only while a bank they serve is ENTERING or ASLEEP (R466). -/
def State.judged (s : State) (v : Nat) : Bool :=
  if v = 18 ∨ v = 19 then (List.range 24).any fun b => s.power_ (24 * (v - 18) + b) == 1 || s.power_ (24 * (v - 18) + b) == 2
  else true

/-- POWER follows the rail results: CODE / 2 mV by 10 mA, in 0.1 W; no rule rounds it: a free choice of the two nearest
values. -/
def State.powerSum (s : State) : State :=
  let x := ((List.range 4).map fun r => s.rf (aHlt (0x200 + 4 * (20 + r))) 0 12 * s.rf (aHlt (0x640 + 4 * r)) 0 16).foldl
    (· + ·) 0
  if x % 20000 = 0 then s.wf (aHlt 0x650) 0 16 (x / 20000)
  else s.used.wf (aHlt 0x650) 0 16 (x / 20000 + s.free.toNat % 2)

/-- A voltage result (R466). -/
def State.voltage (s : State) (v code : Nat) : State :=
  let w := aHlt (0x280 + 4 * v)
  let s1 := if 20 ≤ v then s.powerSum else s
  if s.judged v && (decide (code < s.rf w 0 12) || decide (s.rf w 16 12 < code)) then s1.setB (aHlt 0) 3 else s1

/-- The next requests take their places once the conversion in progress has ended (R387, R463). -/
def State.adcAdvance (s : State) : State :=
  { s with adc := { s.adc with now := s.adc.next, next := s.adc.held.map fun k => (32, k), held := none } }.showWaiting

/-- A waiting scan request starts when the ADC is idle and no request waits (R463). -/
def State.adcScan (s : State) : State :=
  let i := s.adc.scanAt
  if s.adc.scan && s.adc.now.isNone then
    { s with adc := { s.adc with now := some (33, if i < 48 then i else i + 16), scan := false, scanAt := (i + 1) % 72 } }
  else s

/-- The conversion in progress ends with a CODE (R464). -/
def State.converted (s : State) (code : Nat) : State :=
  match s.adc.now with
  | none => s
  | some (src, k) =>
    if s.sleeping then s
    else
      let s1 := (s.wr (sensorReg k) (validWord code)).wr (aHlt 0x18)
        (BitVec.ofNat 32 (code % 2 ^ 12 + k * 2 ^ 16 + src * 2 ^ 24 + 2 ^ 31))
      let s2 := if src < 33 then { s1 with dmaq := s1.dmaq ++ [0x21] } else s1
      let s3 := if k < 0x40 then s2.thermal code else s2.voltage (k - 0x40) code
      ((s3.judgeAll k code).adcAdvance).adcScan

/-- CONVERSION_END (R464). -/
def execConversionEnd (code : BitVec 12) (s : State) : Host.Outcome State Fault Refusal := .next (s.converted code.toNat)

/-- The background scan requests the next sensor (R463). -/
def State.scanRequest (s : State) : State := if s.sleeping then s else { s with adc := { s.adc with scan := true } }.adcScan

/-- SCAN_REQUEST (R463). -/
def execScanRequest (s : State) : Host.Outcome State Fault Refusal := .next s.scanRequest

/-- A latest result is more than 100 ms old while PCLK runs (R466). -/
def State.scanStale (s : State) : State := if s.sleeping then s else s.setB (aHlt 0) 4

/-- SCAN_STALE (R466). -/
def execScanStale (s : State) : Host.Outcome State Fault Refusal := .next s.scanStale

/- Trip (R468) ---------------------------------------------------------------------------------------------------- -/

/-- Every expander that is not IDLE is stopped under R237. -/
def State.stopBusy (s : State) : State := ((List.range 16).filter fun n => s.pxState n != 0).foldl State.pxStop s

/-- Every lane goes to electrical idle. -/
def State.idleAll (s : State) : State := (List.range 8).foldl State.idleLanes s

/-- The device trips (R468). -/
def State.trip (s : State) : State :=
  (((({ s.stopBusy.idleAll with engStop := true }).setB (aHlt 4) 2).setB (aHlt 0) 2)).hardFault

/-- TRIP (R468). -/
def execTrip (s : State) : Host.Outcome State Fault Refusal := .next s.trip.poll

/- AVSBus (R429 to R431, R471) --------------------------------------------------------------------------------------- -/

/-- The master sends a frame on CMD.AVS_CFG.RAIL, at the clock of CMD.AVS_CFG.DIV (R429). -/
def State.avsSend (s : State) (k : AvsKind) : State :=
  { s with avsOut := (AvsFrame.mk (s.rf (aCmd 0x14) 0 4) (s.rf (aCmd 0x14) 8 8) k :: s.avsOut).take 4 }

/-- A status alert is read and recorded (R429, R431); a Status Read that fails waits to be sent again. -/
def State.avsAlert (s : State) (r : AvsResp) : State :=
  match r.alert with
  | some (some d) => ((s.avsSend .readStatus).setB (aCmd 8) 5).wf (aCmd 0x18) 0 16 d.toNat
  | some none =>
    let t := (s.avsSend .readStatus).setB (aCmd 8) 5
    { t with avs := { t.avs with status := some 0 } }
  | none => s

/-- AVS_FAIL: no further request until the next full reset (R431). -/
def State.avsFail (s : State) : State :=
  { s.setB (aCmd 8) 3 with avs := { s.avs with goal := none, write := none, read := none, status := none, stopped := true } }

/-- A Write of `mv` mV is answered, having been sent again `n` times (R430, R431). -/
def State.avsWrite (s : State) (mv n : Nat) (r : AvsResp) : State :=
  let s1 := (s.avsSend (.write mv)).avsAlert r
  if r.taken then
    { (s1.wf (aCmd 0x10) 0 16 mv).wf (aHlt 0x604) 28 4 ((mv - 900) / 5) with
      avs := { s1.avs with write := none, read := some (mv, none) } }
  else if n < 3 then { s1 with avs := { s1.avs with write := some (mv, n) } }
  else s1.avsFail

/-- The acknowledged step (AGE_STATUS.STEP_NOW). -/
def State.stepNow (s : State) : Nat := s.rf (aHlt 0x604) 28 4

/-- The next step on the way to the step of the life record (R471), if one is left. -/
def State.avsStep (s : State) (r : AvsResp) : State :=
  match s.avs.goal with
  | none => s
  | some g =>
    if s.avs.stopped then s
    else if s.stepNow < g then s.avsWrite (900 + 5 * (s.stepNow + 1)) 0 r
    else if g < s.stepNow then s.avsWrite (900 + 5 * (s.stepNow - 1)) 0 r
    else { s with avs := { s.avs with goal := none } }

/-- A read-back of a request of `mv` mV (R430, R431). -/
def State.avsRead (s : State) (mv got : Nat) : State :=
  let s1 := s.wf (aCmd 0x10) 16 16 got
  let s2 := { s1 with avs := { s1.avs with read := none } }
  if 10 < max mv got - min mv got then s2.avsFail else s2

/-- AVS_READBACK (R430): the Read 1 ms after a Write, and the Write that follows it while a start steps on (R471); where a Read that
was sent again has come to its end before, that Write alone. -/
def State.avsReadback (s : State) (r next : AvsResp) : State :=
  match s.avs.read with
  | some (mv, none) =>
    let s1 := (s.avsSend .readVoltage).avsAlert r
    if r.taken then (s1.avsRead mv r.mv.toNat).avsStep next
    else { s1 with avs := { s1.avs with read := some (mv, some 0) } }
  | some (_, some _) => s
  | none => if s.avs.write.isNone then s.avsStep next else s

/-- AVS_READBACK (R430). -/
def execAvsReadback (r next : AvsResp) (s : State) : Host.Outcome State Fault Refusal := .next (s.avsReadback r next)

/-- A Status Read that failed is sent again for the `n + 1`-th time (R431). One that still fails ends the requests as a Write or a Voltage
Read does (DEDUCED, log entry 146). -/
def State.statusRetry (s : State) (n : Nat) (r : AvsResp) : State :=
  let s1 := s.avsSend .readStatus
  if r.taken then { s1.wf (aCmd 0x18) 0 16 r.mv.toNat with avs := { s1.avs with status := none } }
  else if n < 2 then { s1 with avs := { s1.avs with status := some (n + 1) } }
  else s1.avsFail

/-- A Write or a Voltage Read that failed is sent again, up to 3 times (R431). -/
def State.requestRetry (s : State) (r : AvsResp) : State :=
  match s.avs.write with
  | some (mv, n) => s.avsWrite mv (n + 1) r
  | none =>
    match s.avs.read with
    | some (mv, some n) =>
      let s1 := (s.avsSend .readVoltage).avsAlert r
      if r.taken then s1.avsRead mv r.mv.toNat
      else if n < 2 then { s1 with avs := { s1.avs with read := some (mv, some (n + 1)) } }
      else s1.avsFail
    | _ => s

/-- A frame that failed is sent again, a Status Read before others (R431). -/
def State.avsRetry (s : State) (r : AvsResp) : State :=
  match s.avs.status with
  | some n => s.statusRetry n r
  | none => s.requestRetry r

/-- AVS_RETRY (R431). -/
def execAvsRetry (r : AvsResp) (s : State) : Host.Outcome State Fault Refusal := .next (s.avsRetry r)

/- Ageing (R469 to R472) ------------------------------------------------------------------------------------------------ -/

/-- The windows of engine `e` so far: their sum and their number. -/
def State.ageSum (s : State) (e : Nat) : Int × Nat := spGet (fun _ => ((0 : Int), 0)) s.age e

/-- The factory frequency f0 of ring oscillator `e` (R469), which the spec does not number; it is not 0. -/
def ageZero (e : Nat) : Nat := Config.ageFactory e + 1

/-- The thermal sensor beside physical slot `e % 9` of its Sheaf (R461). -/
def ageTherm (e : Nat) : Nat := 2 * (e / 9) + (if e % 9 ≤ 4 then 0 else 1)

/-- The normalised frequency f of ring oscillator `e` for a count: by the results of VDD_CORE monitor (2 s) div 3 and of the slot's
thermal sensor (R469; the coefficients are free, log entry 147). -/
def State.ageFreq (s : State) (e count : Nat) : Nat :=
  Config.ageNorm e count (s.rf (aHlt (0x200 + 4 * (2 * (e / 9) / 3))) 0 12) (s.rf (aHlt (0x100 + 4 * ageTherm e)) 0 12)

/-- A 1 ms window of ring oscillator `e` has counted `count` (R469). -/
def State.ageWindow (s : State) (e count : Nat) : State :=
  let q := s.ageSum e
  { s with age := spSet (fun _ => ((0 : Int), 0)) s.age e (q.1 + ((ageZero e : Int) - s.ageFreq e count), q.2 + 1) }

/-- AGE_WINDOW (R469). -/
def execAgeWindow (e : EngId) (count : Nat) (s : State) : Host.Outcome State Fault Refusal := .next (s.ageWindow (engIx e) count)

/-- SLOW of engine `e`, signed. -/
def State.slow (s : State) (e : Nat) : Int := (BitVec.ofNat 16 (s.rf (aHlt (0x400 + 4 * e)) 0 16)).toInt

/-- SLOW of engine `e` is stored: 10,000 (f0 - f) / f0 averaged over its windows (R469); its rounding is a free choice, bit `e % 64` of
`x`. -/
def State.ageStore (s : State) (x : W64) (e : Nat) : State :=
  let q := s.ageSum e
  let a := aHlt (0x400 + 4 * e)
  if q.2 = 0 then s.setB a 31
  else
    let d : Int := ageZero e * q.2
    let f := 10000 * q.1 / d
    let v := if 10000 * q.1 % d = 0 then f else if x.getLsbD (e % 64) then f + 1 else f
    (s.wf a 0 16 (twos 16 v)).setB a 31

/-- SLOW_MAX and ENGINE (R469); with no mapped engine that is not locked up both are free values. -/
def State.ageMax (s : State) : State :=
  let l := (List.range 108).filter fun e => s.mapped e && !s.locked e
  match l with
  | [] => s.used.wf (aHlt 0x604) 0 23 s.free.toNat
  | e :: t =>
    let m := t.foldl (fun m k => max m (s.slow k)) (s.slow e)
    let p := s.oneOf (l.filter fun k => s.slow k == m)
    (p.2.wf (aHlt 0x604) 0 16 (twos 16 m)).wf (aHlt 0x604) 16 7 p.1

/-- The mapped engines of the Sheaf of `e` other than `e`. -/
def State.ageOthers (s : State) (e : Nat) : List Nat :=
  ((List.range 9).map fun k => 9 * (e / 9) + k).filter fun k => k != e && s.mapped k

/-- Engine `e` is slower than the mean of the others by more than OUTLIER (R472). -/
def State.outlier (s : State) (e : Nat) : Bool :=
  let o := s.ageOthers e
  let sum := (o.map s.slow).foldl (· + ·) 0
  s.mapped e && !o.isEmpty && decide (((s.rf (aHlt 0x600) 16 8 * o.length : Nat) : Int) < s.slow e * (o.length : Int) - sum)

/-- Steps that the slow-down asks for (R470, R472). -/
def stepsFor (slowMax : Int) : Int := (slowMax - 25 + 49) / 50

/-- The request that an evaluation sends, if any (R470). -/
def State.ageRequest (s : State) (need : Nat) (r : AvsResp) : State :=
  let now := s.stepNow
  if s.avs.stopped || s.avs.write.isSome || s.avs.read.isSome then s
  else if now < need then s.avsWrite (900 + 5 * (now + 1)) 0 r
  else if need + 1 < now then s.avsWrite (900 + 5 * (now - 1)) 0 r
  else s

/-- An evaluation (R469, R470, R472). -/
def State.ageEvaluate (s : State) (r : AvsResp) : State :=
  let s1 := { (List.range 108).foldl (fun (t : State) e => t.ageStore s.free e) s.used with age := [] }.ageMax
  let raw := stepsFor (BitVec.ofNat 16 (s1.rf (aHlt 0x604) 0 16)).toInt
  let need := min (raw.toNat) (min 12 (s.rf (aHlt 0x608) 0 4))
  let s2 := s1.wf (aHlt 0x604) 24 4 need
  let s3 := if 12 < raw then s2.setB (aHlt 0) 7 else s2
  let past := decide (s.stepNow < need)
  let s4 := if past && s.ageOver then s3.setB (aHlt 0) 6 else s3
  let bad := (List.range 108).filter s1.outlier
  let s5 := bad.foldl State.candidate (if bad.isEmpty then s4 else s4.setB (aHlt 0) 8)
  { s5 with ageOver := past }.ageRequest need r

/-- AGE_EVALUATION (R470). -/
def execAgeEvaluation (r : AvsResp) (s : State) : Host.Outcome State Fault Refusal :=
  .next (if s.power = .up then s.ageEvaluate r else s)

/- Life (R473, R474) ------------------------------------------------------------------------------------------------------ -/

/-- `r` is at least 1024 * 2^(m / 480) rounded: (2 r + 1) / 2 exceeds it. -/
def lifeReached (m : Int) (r : Nat) : Bool :=
  if 5280 + m < 0 then true else decide (2 ^ (5280 + m).toNat < (2 * r + 1) ^ 480)

/-- The least `r` with `lifeReached m r`, found bit by bit. -/
def lifeSearch (m : Int) : Nat → Nat → Nat
  | 0, acc => acc
  | k + 1, acc => if lifeReached m (acc + 2 ^ k - 1) then lifeSearch m k acc else lifeSearch m k (acc + 2 ^ k)

/-- The exponent of `af` in units of 1 / 480: temperature CODE and voltage CODE (R462, R473). -/
def lifeExponent (code vcode : Nat) : Int := 3 * ((max code 1424 : Nat) - 2384 : Int) + 4 * ((vcode : Int) - 1860)

/-- The acceleration factor (R473). -/
def lifeFactor (code vcode : Nat) : Nat := lifeSearch (lifeExponent code vcode) 41 0

/-- The life reckoning takes a factor `af` (R473). -/
def State.lifeAdd (s : State) (af : Nat) : State :=
  let f := (s.rd (aHlt 0x614)).toNat + af
  let u := (s.rf (aHlt 0x610) 0 16 + f / 129259930) % 2 ^ 16
  let s1 := (s.wf (aHlt 0x614) 0 27 (f % 129259930)).wf (aHlt 0x610) 0 16 u
  if s.rf (aHlt 0x618) 0 16 ≤ u then s1.setB (aHlt 0) 9 else s1

/-- A life update (R473). Before monitor 20 has a result its value is free, and so is LIFE_AF where the factor exceeds the
register. -/
def State.lifeUpdate (s : State) : State :=
  let has := s.bit (aHlt 0x250) 31
  let v := if has then s.rf (aHlt 0x250) 0 12 else s.free.toNat % 2 ^ 12
  let s1 := if has then s else s.used
  let af := lifeFactor (s.rf (aHlt 8) 0 12) v
  let s2 := s1.lifeAdd af
  let s3 := if af < 2 ^ 16 then s2.wf (aHlt 0x61C) 0 16 af else s2.used.wf (aHlt 0x61C) 0 16 s2.free.toNat
  { s3 with lifeTicks := s.lifeTicks + 1 }

/-- LIFE_UPDATE (R473). -/
def execLifeUpdate (s : State) : Host.Outcome State Fault Refusal := .next (if s.power = .up then s.lifeUpdate else s)

/-- The life record is written (R474). -/
def State.lifeRecord (s : State) : State :=
  s.nvPut { s.nv with used := s.rf (aHlt 0x610) 0 16, frac := s.rf (aHlt 0x614) 0 27, step := s.stepNow }

/-- LIFE_RECORD_WRITE (R474). -/
def execLifeRecordWrite (s : State) : Host.Outcome State Fault Refusal := .next (if s.power = .up then s.lifeRecord else s)

/- Rail currents ------------------------------------------------------------------------------------------------------------ -/

/-- RAIL_CURRENT_REPORT: the currents of the four rails (RAIL_I, POWER). -/
def State.railReport (s : State) (l : List (BitVec 16)) : State :=
  ((List.range 4).foldl (fun t r => t.wr (aHlt (0x640 + 4 * r)) (BitVec.ofNat 32 ((l.getD r 0).toNat + 2 ^ 31))) s).powerSum

/-- RAIL_CURRENT_REPORT. -/
def execRailCurrentReport (core lane hi io : BitVec 16) (s : State) : Host.Outcome State Fault Refusal :=
  .next (s.awakeDo fun s => s.railReport [core, lane, hi, io])

/-- RAIL_LINK: no report for 10 ms. -/
def execRailLink (s : State) : Host.Outcome State Fault Refusal := .next (s.awakeDo fun s => s.setB (aHlt 0) 13)

/- Engine sparing (R476, R477) ------------------------------------------------------------------------------------------------ -/

/-- A write of SPARE_REQ with GO (R476). -/
def State.spareReq (s : State) (sh k : Nat) : State := if sh < 12 ∧ k < 9 then s.candidate (9 * sh + k) else s

/-- SPARE_REQ (R476). -/
def execSpareReq (sheaf slot : BitVec 4) (s : State) : Host.Outcome State Fault Refusal :=
  .next (s.mgmtDo (aHlt 0x664) (some (BitVec.ofNat 32 (sheaf.toNat + slot.toNat * 16 + 2 ^ 31))) fun s => s.spareReq sheaf.toNat slot.toNat)

/-- The moment at which candidate `e` is remapped: every slot empty, or locked up and drained (R477). -/
def State.remapReady (s : State) (e : Nat) : Bool :=
  let slots := (List.range 8).map fun j => s.th (8 * e + j)
  slots.all (fun t => decide (t.phase = .empty)) || (s.locked e && slots.all Thread.quiet)

/-- Copy a word that holds RW or WL fields from `a` to `b`. -/
def State.copyReg (s : State) (a b : Nat) : State :=
  (regFields a).foldl (fun t f => if f.acc = .rw ∨ f.acc = .wl then t.wf b f.lo f.w (s.rf a f.lo f.w) else t) s

/-- Every RW and WL field of engine `e`, GATE entries included, is copied to engine `d` (R477). -/
def State.copyEngine (s : State) (e d : Nat) : State :=
  ([0x28, 0x40, 0x44, 0x48, 0x4C, 0x50] ++ (List.range 64).map fun i => 0x100 + 4 * i).foldl
    (fun t o => t.copyReg (aEng e o) (aEng d o)) s

/-- The position of candidate `e` moves to the Sheaf's unused good slot (R477, R479), which takes over MAPPED; a candidate that still
waits may now find none (R478). -/
def State.remap (s : State) (e : Nat) : State :=
  let sh := e / 9
  let k := e % 9
  match s.bit (aShf sh 4) (16 + k), s.posOf sh k, s.spareSlot sh with
  | true, some p, some d =>
    let s1 := s.copyEngine e (9 * sh + d)
    let s2 := (s1.wf (aShf sh 0) (4 * p) 4 d).setB (aHlt 0) 11
    let s3 := ((s2.setB (aShf sh 4) k).clrB (aShf sh 4) (16 + k)).clrB (aEng e 0) 0
    ((s3.putB (aEng (9 * sh + d) 0) 0 (s.mapped e)).spareLow).spareCheck sh
  | _, _, _ => s

/-- REMAP (R477). -/
def execRemap (e : EngId) (s : State) : Host.Outcome State Fault Refusal :=
  .next (s.awakeDo fun s => if s.remapReady (engIx e) then s.remap (engIx e) else s)

/- The sticky hierarchy (R480 to R483) ------------------------------------------------------------------------------------------ -/

/-- The DEV_STICKY bits of HLT.STICKY `v` (R480). -/
def hltBits (v : Nat) : Nat :=
  (if Nat.land v 0x0007 ≠ 0 then 2 ^ 19 else 0) + (if Nat.land v 0x6038 ≠ 0 then 2 ^ 20 else 0)
    + (if Nat.land v 0x03C0 ≠ 0 then 2 ^ 21 else 0) + (if Nat.land v 0x1C00 ≠ 0 then 2 ^ 22 else 0)

/-- `1` in place `k` if `v` has a bit of `mask`. -/
def oneIf (v mask k : Nat) : Nat := if Nat.land v mask ≠ 0 then 2 ^ k else 0

/-- The DEV_STICKY bits that control register `a` feeds when it holds `v` (R480). -/
def devBits (a v : Nat) : Nat :=
  if a < 0x100000 then
    if a = 0x8C then oneIf v 0xF 18
    else if a = aCmd 8 then oneIf v 0x3F 16
    else if a = aNvc 8 then oneIf v 0xF 17
    else if a = aHlt 0 then hltBits v
    else if a = aTmrBlk 0x1008 then oneIf v 1 15
    else if 0x40000 ≤ a ∧ a < 0x40800 ∧ a % 0x40 = 0x30 then oneIf v 0xF 15
    else if a = aMtx 0x180 then oneIf v 3 13
    else if 0x60000 ≤ a ∧ a < 0x60200 ∧ a % 0x40 = 0x24 then oneIf v 0xF 14
    else if 0x80000 ≤ a ∧ a < 0x8C000 ∧ a % 0x400 = 0xC then oneIf v 0x3F 10
    else if a = aGln 0x10 then oneIf v 7 11
    else if a = aGrn 0x18 then oneIf v 0x1F 3
    else if a = aCulm 0x10 then oneIf v 7 2
    else if a = aSyn 0x110 then oneIf v 0xFF 8
    else 0
  else if a < 0x1C0000 then
    let o := a % 0x10000
    if 0x1000 ≤ o ∧ o < 0xA000 then
      if o % 0x1000 = 0x24 then oneIf v 4 0 + oneIf v 0x1B 1
      else if o % 0x1000 = 0x2C then oneIf v 0x1F 1
      else 0
    else 0
  else if 0x200000 ≤ a ∧ a < 0x300000 then if a % 0x10000 = 0x28 then oneIf v 0x7F 4 else 0
  else if 0x300000 ≤ a ∧ a < 0x380000 then if a % 0x10000 = 0x88 then oneIf v 3 5 else 0
  else if 0x400000 ≤ a ∧ a < 0x440000 then if a % 0x1000 = 0x50 then oneIf v 6 6 + oneIf v 0x79 7 else 0
  else if 0x500000 ≤ a ∧ a < 0x540000 then if a % 0x10000 = 4 then oneIf v 0x1FF 9 else 0
  else if a = aDrc 0xC then oneIf v 0xF 12
  else 0

/-- What DEV_STICKY follows: the OR over its sources, which read 0 where nothing is stored (R480). -/
def State.devSticky (s : State) : Nat := s.regs.foldl (fun acc p => Nat.lor acc (devBits p.1 p.2.toNat)) 0

/-- Bit `f a` for every stored register `a` that feeds DEV_STICKY and that `f` places (SUM_ENG to SUM_MISC). -/
def State.sumBits (s : State) (f : Nat → Option Nat) : Nat :=
  s.regs.foldl (fun acc p => match f p.1 with
    | some k => if devBits p.1 p.2.toNat = 0 then acc else Nat.lor acc (2 ^ k)
    | none => acc) 0

/-- The bit of an instance of a block replicated from `base` at a stride. -/
def instBit (base stride n a : Nat) : Option Nat :=
  if base ≤ a ∧ (a - base) / stride < n then some ((a - base) / stride) else none

/-- The summary registers follow their sources (R481). -/
def State.sumUpdate (s : State) : State :=
  let ln := s.sumBits (instBit 0x400000 0x1000 64)
  let bk := s.sumBits (instBit 0x80000 0x400 48)
  let tm := s.sumBits fun a => if 0x40000 ≤ a ∧ a < 0x50000 then some 0 else none
  let units := s.sumBits (instBit 0x200000 0x10000 16) + s.sumBits (instBit 0x300000 0x10000 8) * 2 ^ 16
    + s.sumBits (instBit 0x500000 0x10000 4) * 2 ^ 24
  ((((((s.wr 0xA0 (BitVec.ofNat 32 (s.sumBits (instBit 0x100000 0x10000 12)))).wr 0xA4 (BitVec.ofNat 32 units)).wr 0xA8
    (BitVec.ofNat 32 ln)).wr 0xAC (BitVec.ofNat 32 (ln / 2 ^ 32))).wr 0xB0 (BitVec.ofNat 32 bk)).wr 0xB4
    (BitVec.ofNat 32 (bk / 2 ^ 32))).wr 0xB8 (BitVec.ofNat 32 (s.sumBits (instBit 0x60000 0x40 8) + tm * 2 ^ 8))

/-- FAULT_N and ALERT_N follow their conditions (R483); a contact that becomes asserted gives the FAULT notice (R413). -/
def State.pinsUpdate (s : State) : State :=
  let dev := s.rd 0x80
  let hard := s.bit 0x90 2
  let fault := hard || dev &&& s.rd 0x84 != 0
  let s1 := (s.putB 0x90 0 fault).putB 0x90 1 (dev &&& s.rd 0x88 != 0)
  if fault && !s.bit 0x90 0 then { s1 with faultNote := some dev } else s1

/-- DEV_STICKY, the summaries and the contacts follow the sources; a bit that rises raises HEALTH and the STICKY notice
(R481 to R483). -/
def State.devUpdate (s : State) : State :=
  let old := (s.rd 0x80).toNat
  let new := s.devSticky
  let s1 := (s.wr 0x80 (BitVec.ofNat 32 new)).sumUpdate
  let s2 := if Nat.lor old new = old then s1
    else { s1.post rkHealth none 13 0 with stickyNote := some (BitVec.ofNat 32 new) }
  s2.pinsUpdate

/-- DEV_STICKY_UPDATE (R481). -/
def execDevStickyUpdate (s : State) : Host.Outcome State Fault Refusal := .next (s.awakeDo fun s => s.devUpdate.poll)

end Sys2Proof.Machine
end

