-- ==== Sys2Proof/Machine/Power.lean ====
section
/-!
DEFINITION. Debug halt, sleep, SCLK source, SMBus and the reset history (R426 to R428, R449 to R456, R505).
-/

namespace Sys2Proof.Machine

/- Halt (R453) ---------------------------------------------------------------------------------------------------- -/

/-- DBG.HALT.REQ becomes 1 (R453, R456). -/
def State.haltOn (s : State) : State :=
  if s.bit aDbgHalt 0 then s else ((s.stopBusy.setB aDbgHalt 0).setB aDbgHalt 1).wakeBy .halt

/-- HALT_REQUEST (R453). -/
def execHaltRequest (s : State) : Host.Outcome State Fault Refusal := .next s.haltOn.poll

/-- DBG.HALT.REQ becomes 0 (R453). -/
def State.haltOff (s : State) : State := (s.clrB aDbgHalt 0).clrB aDbgHalt 1

/-- HALT_RELEASE (R453). -/
def execHaltRelease (s : State) : Host.Outcome State Fault Refusal := .next s.haltOff

/- Sleep (R454 to R456) ------------------------------------------------------------------------------------------- -/

/-- The lowest code that refuses sleep; 0: none (R454). -/
def State.sleepCode (s : State) : Nat :=
  if (List.range 256).any fun i => s.siteState i == 1 || s.siteState i == 2 then 1
  else if (List.range 16).any fun n => s.pxState n != 0 then 2
  else if (List.range 8).any fun c => s.bit (aDma c 0x1C) 0 then 3
  else if s.bit aDbgHalt 0 then 4
  else if s.bitB 8 1 then 5
  else 0

/-- A write of GLB.SLEEP.ENTER (R454). -/
def State.sleepAsk (s : State) : State :=
  if s.sleepCode = 0 then { s with sleepDue := true } else s.wf 0x64 4 4 s.sleepCode

/-- ENTER (R454). -/
def execEnter (s : State) : Host.Outcome State Fault Refusal := .next (s.mgmtDo (0x64) (some (1)) State.sleepAsk)

/-- An accepted entry takes place (R455). -/
def State.sleepEntry (s : State) : State :=
  if s.sleepDue && !s.sleeping then
    { s.idleAll.wf 0x6C 16 16 (s.rf 0x6C 16 16 + 1) with sleeping := true, sleepDue := false, wakeDue := none }
  else s

/-- SLEEP_ENTRY (R455). -/
def execSleepEntry (s : State) : Host.Outcome State Fault Refusal := .next s.sleepEntry

/-- SOURCE and CHANNEL of a wake. -/
def wakeFields : WakeSource → Nat × Option Nat
  | .command => (1, none)
  | .timer c => (2, some c.val)
  | .halt => (3, none)

/- SCLK (R505) ------------------------------------------------------------------------------------------------------ -/

/-- LFREF_TAKEN (R505). -/
def execLfrefTaken (s : State) : Host.Outcome State Fault Refusal := .next ((s.setB 0x44 0).setB 0x44 1)

/-- LFREF_LOST (R505). -/
def execLfrefLost (s : State) : Host.Outcome State Fault Refusal := .next (s.clrB 0x44 0)

/- Reset history (R450, R451) ---------------------------------------------------------------------------------------- -/

/-- A register has a W1C bit set. -/
def w1cSet (a : Nat) (v : W32) : Bool := (regFields a).any fun f => f.acc == .w1c && field v f.lo f.w != 0

/-- The control-space registers with a W1C bit set, in ascending order (R423, R450). -/
def State.stickyRegs (s : State) : List (Nat × W32) := s.regs.filter fun p => w1cSet p.1 p.2

/-- The lockup map: bit 9 s + k (R450, R484). -/
def State.lockupMap (s : State) : Nat := maskOf ((List.range 108).filter s.locked)

/-- The first 60 bytes of a history entry of a kind, with its SEQ (R450). The SCLK ticks since the last life update are
a free value. -/
def State.histBody (s : State) (seq kind : Nat) : List Byte :=
  let st := s.stickyRegs
  let build : List Byte := match s.image with
    | some i => i.1.take 8
    | none => List.replicate 8 0
  natLe 4 seq ++ natLe 1 kind ++ natLe 1 ((s.bitB 8 2).toNat + (s.bit 0x90 0).toNat * 2) ++ natLe 2 0
    ++ natLe 8 (32768 * s.lifeTicks + s.free.toNat % 32768) ++ natLe 4 (s.rd 0x80).toNat
    ++ natLe 4 (s.rf (aHlt 0x610) 0 16) ++ natLe 16 s.lockupMap ++ build ++ natLe 4 (s.rd 8).toNat
    ++ natLe 4 st.length ++ natLe 4 ((st.head?.map (·.1)).getD 0xFFFFFFFF)

/-- A history entry with its CRC (R450). -/
def withCrc (l : List Byte) : List Byte := l ++ natLe 4 (crc32 l).toNat

/-- COUNT shows the entries in the ring. -/
def State.histCount (s : State) : State := s.wf (aNvc 0x14) 8 7 s.nv.hist.length

/-- A history entry of a kind is written, and with it the life record (R450, R474). -/
def State.writeHistory (s : State) (kind : Nat) : State :=
  let e := withCrc (s.histBody (s.nv.seq + 1) kind)
  let s1 := s.used.lifeRecord
  { s1 with nv := { s1.nv with hist := (e :: s1.nv.hist).take 64, seq := s1.nv.seq + 1 } }.histCount

/-- A write of NVC.HIST_SEL with GO (R451). -/
def State.histSel (s : State) (age : Nat) : State :=
  { (s.wf (aNvc 0x10) 0 6 age).setB (aNvc 0x14) 0 with histCopy := some age }

/-- HIST_SEL (R451). -/
def execHistSel (age : BitVec 6) (s : State) : Host.Outcome State Fault Refusal :=
  .next (s.mgmtDo (aNvc 0x10) (some (BitVec.ofNat 32 (age.toNat + 2 ^ 31))) fun s => s.histSel age.toNat)

/-- The CRC of a history entry holds. -/
def crcHolds (l : List Byte) : Bool := l.drop 60 == natLe 4 (crc32 (l.take 60)).toNat

/-- Word `i` of a history entry; of one that power loss cut off, a word that was not written whole is a free value. -/
def State.histWord (s : State) (e : List Byte) (i : Nat) : W32 :=
  if 4 * i + 4 ≤ e.length then BitVec.ofNat 32 (leNat ((e.drop (4 * i)).take 4)) else (Config.free (s.fresh + i)).setWidth 32

/-- The copy of a history entry ends (R451). -/
def State.histDone (s : State) : State :=
  match s.histCopy with
  | none => s
  | some age =>
    let s1 := { s with histCopy := none }.clrB (aNvc 0x14) 0
    match s.nv.hist[age]? with
    | none => s1.clrB (aNvc 0x14) 1
    | some e =>
      let s2 := (List.range 16).foldl (fun t i => t.wr (aNvc (0x40 + 4 * i)) (s.histWord e i)) { s1 with fresh := s.fresh + 16 }
      if crcHolds e then s2.setB (aNvc 0x14) 1 else (s2.clrB (aNvc 0x14) 1).setB (aNvc 8) 1

/-- HIST_COPY_DONE (R451). -/
def execHistCopyDone (s : State) : Host.Outcome State Fault Refusal := .next (s.awakeDo State.histDone)

/- SMBus (R426 to R428) ------------------------------------------------------------------------------------------------- -/

/-- A step of the SMBus packet error code (PRESUMED: CRC-8 of SMBus 3.1). -/
def crc8Bits : Nat → BitVec 8 → BitVec 8
  | 0, c => c
  | n + 1, c => crc8Bits n (if c.getLsbD 7 then (c <<< 1) ^^^ 0x07 else c <<< 1)

/-- The packet error code of the bytes of a transfer. -/
def pec (l : List Byte) : Byte := l.foldl (fun c v => crc8Bits 8 (c ^^^ v)) 0

/-- The module's SMBus address, as the card straps it (R426). -/
def State.smbAddr (s : State) : Nat := 0x58 + s.straps.toNat

/-- The answer to a read of command code `code`: data and PEC (R426). -/
def State.smbAnswer (s : State) (code : Nat) (data : List Byte) : State :=
  let lead := natLe 1 (2 * s.smbAddr) ++ natLe 1 code ++ natLe 1 (2 * s.smbAddr + 1)
  { s with smbOut := data ++ [pec (lead ++ data)] }

/-- A write whose PEC is wrong is not acknowledged (R426). -/
def State.smbBad (s : State) : State := { s.setB (aCmd 8) 4 with smbOut := [] }

/-- A transfer that the target serves while the management controller runs (R426). -/
def State.smbServe (s : State) (pecOk : Bool) (code : Nat) (data : List Byte) : State :=
  if s.power = .off then s else if pecOk then s.smbAnswer code data else s.smbBad

/-- The status byte of code 0x00 (R427). -/
def State.smbStatusByte (s : State) : Nat :=
  (s.bitB 8 0).toNat + (s.bit (aCmd 0) 8).toNat * 2 + (s.bitB 8 2).toNat * 4 + (s.bit 0x90 0).toNat * 8
    + (s.bit 0x90 1).toNat * 16 + (s.bitB 8 1).toNat * 32 + s.safe.toNat * 64

/-- SMBUS_STATUS (R427). -/
def execSmbusStatus (pecOk : Bool) (s : State) : Host.Outcome State Fault Refusal :=
  .next (s.smbServe pecOk 0 (natLe 1 s.smbStatusByte))

/-- A block with its byte count; before the firmware runs the count is 0 (R427, R436). -/
def State.smbBlock (s : State) (l : List Byte) : List Byte := if s.power = .up then natLe 1 l.length ++ l else [0]

/-- The 32 bytes of code 0x01 (R427). -/
def State.smbIdentity (s : State) : List Byte :=
  natLe 4 (s.rd 0).toNat ++ natLe 4 (s.rd 8).toNat ++ ((List.range 4).flatMap fun i => natLe 4 (s.rd (0x10 + 4 * i)).toNat)
    ++ natLe 4 (s.rd 4).toNat ++ natLe 4 (s.rf (aHlt 0x610) 0 16)

/-- SMBUS_IDENTITY (R427). -/
def execSmbusIdentity (pecOk : Bool) (s : State) : Host.Outcome State Fault Refusal :=
  .next (s.smbServe pecOk 1 (s.smbBlock s.smbIdentity))

/-- The hottest junction in 1/16 °C: CODE − 1,024, in two's complement (R484). -/
def State.hotDegrees (s : State) : Nat := (s.rf (aHlt 8) 0 12 + 2 ^ 16 - 1024) % 2 ^ 16

/-- VDD_CORE at the module input in mV, CODE / 2 (R462, R484); no rule rounds it: a free choice of the two nearest
values. -/
def State.vddCore (s : State) : Nat :=
  let v := s.rf (aHlt 0x250) 0 12
  v / 2 + v % 2 * (s.free.toNat % 2)

/-- The 16 bytes of code 0x02 (R427). -/
def State.smbHealth (s : State) : List Byte :=
  natLe 2 s.hotDegrees ++ natLe 2 (s.rf (aCmd 0x10) 0 16) ++ natLe 2 s.vddCore ++ natLe 2 (s.rf (aHlt 0x650) 0 16)
    ++ natLe 4 (s.rd 0x80).toNat ++ natLe 4 (s.rf (aHlt 0x610) 0 16)

/-- SMBUS_HEALTH (R427). -/
def execSmbusHealth (pecOk : Bool) (s : State) : Host.Outcome State Fault Refusal :=
  .next (s.smbServe pecOk 2 (s.smbBlock s.smbHealth)).used

/-- The Alert Response Address is answered while ALERT_N is asserted (R428); bit 0 of the answer is a free value. -/
def State.alertAnswer (s : State) : State :=
  if s.power = .off ∨ s.bit 0x90 1 = false then { s with smbOut := [] }
  else
    let data := natLe 1 (2 * s.smbAddr + s.free.toNat % 2)
    { s.used with smbOut := data ++ [pec (natLe 1 0x19 ++ data)] }

/-- ALERT_RESPONSE (R428). -/
def execAlertResponse (s : State) : Host.Outcome State Fault Refusal := .next s.alertAnswer

end Sys2Proof.Machine
end

