-- ==== Sys2Proof/Machine/Regs.lean ====
section
/-!
DEFINITION. Reads and writes of control space and of BAR0 and BAR2 by every agent (R4 to R10, R18, R19, R392 to R395, R511 to
R516), with the actions and the busy rules of each register.
-/

namespace Sys2Proof.Machine

/- What a read returns ------------------------------------------------------------------------------------------- -/

/-- THREADS of a thread slot: 0 empty, 1 ready, 2 executing, 3 on a result port, 4 on a receive port, 5 on a destination,
6 asleep, 7 being paged. Where two of them apply, or none (a slot of a locked-up engine, which reads as it would
otherwise), the order is the model's (DEDUCED, log entry 88). -/
def threadCode (t : Thread) : Nat :=
  match t.phase with
  | .empty => 0
  | .incoming _ => 7
  | .quiesce _ => 7
  | .run =>
    if t.asleep then 6
    else match t.wait with
      | some (.result _) | some (.carry _) | some .ld | some .drained | some .pull => 3
      | some (.rx _) => 4
      | some _ => 5
      | none => if t.fault.isSome then 2 else if t.spill.isSome then 5 else 1

/-- The number with bit (or digit of `w` bits) `j` for slot `j` of engine `e`. -/
def State.slotBits (s : State) (e w : Nat) (f : Nat → Thread → Nat) : Nat :=
  ((List.range 8).map fun j => f (8 * e + j) (s.th (8 * e + j)) * 2 ^ (w * j)).foldl (· + ·) 0

/-- STATUS of engine `e`. -/
def State.engStatus (s : State) (e : Nat) : Nat :=
  s.rf (aEng e 0) 0 3 + s.slotBits e 1 (fun _ t => (t.sel == .shadow).toNat) * 2 ^ 8
    + s.slotBits e 1 (fun i _ => (s.slotReady i).toNat) * 2 ^ 16 + s.slotBits e 1 (fun _ t => t.resident.toNat) * 2 ^ 24

/-- What a read of offset `o` of the block of engine `e` returns. -/
def State.engView (s : State) (e o : Nat) : W32 :=
  if o = 0 then BitVec.ofNat 32 (s.engStatus e)
  else if o = 4 then BitVec.ofNat 32 (s.slotBits e 4 fun _ t => threadCode t)
  else if o = 8 then BitVec.ofNat 32 (s.eng e).instr.toNat
  else if o = 0x30 then BitVec.ofNat 32 (s.eng e).trVal.toNat
  else if o = 0x54 then BitVec.ofNat 32 (s.slotBits e 1 (fun _ t => t.armed.toNat)
    + s.slotBits e 1 (fun _ t => (!t.sigs.isEmpty).toNat) * 2 ^ 8)
  else if o = 0x58 then BitVec.ofNat 32 (s.slotBits e 4 fun _ t => t.xdepth)
  else s.rd (aEng e o)

/-- RSTAT of a region. -/
def rstatWord (r : Region_) : W32 :=
  let st : Nat := match r.st with
    | .idle => 0
    | .isOpen => 1
    | .closed => 2
  BitVec.ofNat 32 (st + r.unrep.toNat * 4 + r.inc.toNat * 8 + r.binc.toNat * 16 + r.late.toNat * 32
    + r.rows % 64 * 2 ^ 8 + r.cols % 64 * 2 ^ 16 + r.notice.toNat * 2 ^ 24)

/-- RDIR of a region. -/
def rdirWord (r : Region_) : W32 :=
  match r.dir with
  | some p => BitVec.ofNat 32 (p % 2 ^ 19 + 2 ^ 31)
  | none => 0

/-- What a read of offset `o` of Thresher `n` returns. -/
def State.thrView (s : State) (n o : Nat) : W32 :=
  let t := s.thrs n
  if o = 0 then BitVec.ofNat 32 (t.q0.length % 64 + t.q1.length % 64 * 2 ^ 8 + t.assist.length % 128 * 2 ^ 16
    + t.out.length % 128 * 2 ^ 24)
  else if o = 0x30 then BitVec.ofNat 32 (s.tableUse n)
  else if o = 0x34 then BitVec.ofNat 32 (s.sparseUse n)
  else if 0x4000 ≤ o ∧ o < 0x8000 then rstatWord (s.region (4096 * n + (o - 0x4000) / 4))
  else if 0x8000 ≤ o then rdirWord (s.region (4096 * n + (o - 0x8000) / 4))
  else s.rd (aThr n o)

/-- The ACTIVE and ERROR bits of the queues (CMD.QUEUES). -/
def State.queueBits (s : State) : Nat :=
  maskOf ((List.range 16).filter fun q => s.bitB (aQ q 0x18) 0)
    + maskOf ((List.range 16).filter fun q => s.bitB (aQ q 0x18) 1) * 2 ^ 16

/-- STATE of Culm channel `c`. -/
def State.chanView (s : State) (c : Nat) : W32 :=
  let k := s.chan c
  BitVec.ofNat 32 (k.send.isSome.toNat + (k.rx.isSome || k.poison).toNat * 2 + k.poison.toNat * 4)

/-- What a read of control address `a` returns, its capture aside: fields that show the state of a unit, and what is
stored. -/
def State.regView (s : State) (a : Nat) : W32 :=
  if regFields a = [] then 0
  else if 0x100000 ≤ a ∧ a < 0x1C0000 ∧ 0x1000 ≤ a % 0x10000 then
    s.engView (9 * ((a - 0x100000) / 0x10000) + (a % 0x10000 / 0x1000 - 1)) (a % 0x1000)
  else if 0x500000 ≤ a ∧ a < 0x540000 then s.thrView ((a - 0x500000) / 0x10000) (a % 0x10000)
  else if 0x200000 ≤ a ∧ a < 0x300000 ∧ a % 0x10000 = 4 then
    putField (s.rd a) 16 10 (s.pxs ((a - 0x200000) / 0x10000)).queue.length
  else if 0x300000 ≤ a ∧ a < 0x380000 ∧ a % 0x10000 = 0x10 then
    BitVec.ofNat 32 ((s.pgs ((a - 0x300000) / 0x10000)).started - 1)
  else if 0x400000 ≤ a ∧ a < 0x440000 ∧ a % 0x1000 = 0x14 then
    putField (s.rd a) 13 1 (s.atLimit ((a - 0x400000) / 0x1000)).toNat
  else if 0x400000 ≤ a ∧ a < 0x440000 ∧ a % 0x1000 = 0x68 then BitVec.ofNat 32 (s.lane ((a - 0x400000) / 0x1000)).bits
  else if 0x40000 ≤ a ∧ a < 0x40800 ∧ a % 0x40 = 0x2C then putField (s.rd a) 2 1 (s.inSlow ((a - 0x40000) / 0x40)).toNat
  else if aCulm 0x2000 ≤ a ∧ a < aCulm 0x3000 then s.chanView ((a - aCulm 0x2000) / 4)
  else if a = aCulm 0 then BitVec.ofNat 32 s.frames
  else if a = aGrn 0x68 then putField (s.rd a) 0 5 s.taskOps.length
  else if a = aCmd 4 then BitVec.ofNat 32 s.queueBits
  else if a = aNvc 4 then putField (s.rd a) 16 1 (s.repairQ.any fun r => r.kind != 6).toNat
  else if a = aHlt 4 then putField (putField (s.rd a) 0 1 s.warm.toNat) 1 1 s.critical.toNat
  else s.rd a

/-- A read of control space with the side effects of R516 and R10. -/
def State.readReg (s : State) (a : Nat) : State × W32 :=
  let v := readMask (regFields a) (s.regView a)
  if a % 4 ≠ 0 ∨ 2 ^ 31 ≤ a then (s, 0)
  else if regFields a = [] then (s.flag 0x8C 1, 0)
  else if 0x100000 ≤ a ∧ a < 0x1C0000 ∧ 0x1000 ≤ a % 0x10000 ∧ a % 0x1000 = 8 then
    (s.instrLoRead (9 * ((a - 0x100000) / 0x10000) + (a % 0x10000 / 0x1000 - 1)), v)
  else if 0x100000 ≤ a ∧ a < 0x1C0000 ∧ 0x1000 ≤ a % 0x10000 ∧ a % 0x1000 = 0x30 then
    (s.traceLoRead (9 * ((a - 0x100000) / 0x10000) + (a % 0x10000 / 0x1000 - 1)), v)
  else if a = aCulm 0 then (s.frameLoRead, v)
  else if 0x300000 ≤ a ∧ a < 0x380000 ∧ a % 0x10000 = 0x10 then (s.pgFrameRead ((a - 0x300000) / 0x10000), v)
  else if 0x400000 ≤ a ∧ a < 0x440000 ∧ a % 0x1000 = 0x68 then (s.prbsBitsRead ((a - 0x400000) / 0x1000), v)
  else if 0x40000 ≤ a ∧ a < 0x40800 ∧ a % 0x80 = 0x14 then (s.tmrCountRead ((a - 0x40000) / 0x80), v)
  else (s, v)

/- Writes by access code (R6 to R9) ---------------------------------------------------------------------------------- -/

/-- WL fields are locked: an image is active (R8, R443). -/
def State.wlLocked (s : State) : Bool := s.bitB 8 2

/-- The word after a write of `v` over `old`, by the access code of each field; a W1C bit that `held` names stays set (R7). -/
def writeFields (locked : Bool) (held : Nat → Bool) (v : W32) (fs : List Field) (old : W32) : W32 :=
  fs.foldl (fun acc f =>
    match f.acc with
    | .rw => putField acc f.lo f.w (field v f.lo f.w)
    | .wl => if locked then acc else putField acc f.lo f.w (field v f.lo f.w)
    | .w1c => if field v f.lo f.w = 0 ∨ held f.lo = true then acc else putField acc f.lo f.w 0
    | _ => acc) old

/-- A write gives a locked field other bits (R8). -/
def lockedDiff (v : W32) (fs : List Field) (old : W32) : Bool :=
  fs.any fun f => f.acc == .wl && field v f.lo f.w != field old f.lo f.w

/-- A write to control address `a` by the access codes alone. -/
def State.plainWrite (s : State) (a : Nat) (v : W32) : State :=
  let fs := regFields a
  let s1 := s.wr a (writeFields s.wlLocked (s.flagged a) v fs (s.rd a))
  if s.wlLocked && lockedDiff v fs (s.rd a) then s1.flag 0x8C 0 else s1

/- Registers with rules of their own ------------------------------------------------------------------------------------ -/

/-- Two region ranges overlap (R19). -/
def rangesMeet (a b : Nat × Nat) : Bool :=
  decide (0 < a.2) && decide (0 < b.2) && decide (a.1 < b.1 + b.2) && decide (b.1 < a.1 + a.2)

/-- Range `r` of site `i` overlaps that of another enabled site. -/
def State.overlaps (s : State) (i : Nat) (r : Nat × Nat) : Bool :=
  (List.range 256).any fun k => k != i && s.bit (aSite k 0x10) 0 && rangesMeet r (s.siteRegions k)

/-- SITE_BUSY where the site is armed or running (R18). -/
def State.siteBusy (s : State) (i : Nat) : Bool := s.siteState i == 1 || s.siteState i == 2

/-- A write to offset `o` of site `i` (R17 to R19). -/
def State.siteWrite (s : State) (i o : Nat) (v : W32) : State :=
  let busy := s.siteBusy i
  if o = 0x10 then
    let change := v.getLsbD 0 != s.bit (aSite i 0x10) 0
    let meets := change && v.getLsbD 0 && s.overlaps i (s.siteRegions i)
    let s1 := if change && !busy && !meets then s.putB (aSite i 0x10) 0 (v.getLsbD 0) else s
    let s2 := if change && busy then s1.flag 0x8C 2 else s1
    let s3 := if meets then s2.flag 0x8C 3 else s2
    let s4 := s3.putB (aSite i 0x10) 1 (v.getLsbD 1)
    if v.getLsbD 4 then s4.finish i else s4
  else if o = 0x14 then s
  else
    let meets := o == 0xC && s.bit (aSite i 0x10) 0 && s.overlaps i (field v 0 14, field v 16 15)
    let s1 := if busy || meets then s else s.plainWrite (aSite i o) v
    let s2 := if busy then s1.flag 0x8C 2 else s1
    if meets then s2.flag 0x8C 3 else s2

/-- A write of a timer value of channel `c`; in a linked pair the high word waits for the low one (R384). -/
def State.tmrValueWrite (s : State) (c o : Nat) (v : W32) : State :=
  if s.tmrLinked c then
    if c % 2 = 1 then { s with tmrStage := spSet (fun _ => none) s.tmrStage (aTmr c o) (some v) }
    else
      let s1 := s.wr (aTmr c o) v
      match spGet (fun _ => none) s.tmrStage (aTmr (c + 1) o) with
      | some h => { s1.wr (aTmr (c + 1) o) h with tmrStage := spSet (fun _ => none) s.tmrStage (aTmr (c + 1) o) none }
      | none => s1
  else s.wr (aTmr c o) v

/-- A write to offset `o` of timer channel `c` (R379, R384; CFG and DIV while it runs). -/
def State.tmrWrite (s : State) (c o : Nat) (v : W32) : State :=
  if o = 4 ∨ o = 8 then
    if s.bit (aTmr c 0) 0 then s.flag (aTmr c 0x30) 3
    else if o = 4 ∧ c % 2 = 0 ∧ s.bit (aTmr (c + 1) 0) 0 = true then
      ((s.plainWrite (aTmr c 4) v).putB (aTmr c 4) 3 (s.bit (aTmr c 4) 3)).flag (aTmr c 0x30) 3
    else s.plainWrite (aTmr c o) v
  else if o = 0xC ∨ o = 0x10 ∨ o = 0x14 ∨ o = 0x1C then s.tmrValueWrite c o v
  else s.plainWrite (aTmr c o) v

/-- A write to offset `o` of DMA channel `c` (R368, R369, R373). EN = 0 written to an enabled channel stops it as ABORT
does. -/
def State.dmaWrite (s : State) (c o : Nat) (v : W32) : State :=
  if o < 0x1C then if s.bit (aDma c 0x1C) 0 then s.flag (aDma c 0x24) 3 else s.plainWrite (aDma c o) v
  else if o = 0x1C then
    let s1 := if v.getLsbD 0 then s.dmaEnable c else if s.bit (aDma c 0x1C) 0 then s.dmaAbort c else s
    let s2 := if v.getLsbD 1 then s1.dmaTrigger c else s1
    if v.getLsbD 2 then s2.dmaAbort c else s2
  else s.plainWrite (aDma c o) v

/-- A write to offset `o` of bank `b` by agent `g` (R331, R332). -/
def State.bnkWrite (s : State) (g : Agent) (b o : Nat) (v : W32) : State :=
  if o = 0 then s.ownerBus b g v
  else if o = 4 then if s.bankWriter b g then s.plainWrite (aBnk b 4) v else s.flag (aBnk b 0xC) 2
  else if o = 0xC ∧ Nat.land v.toNat 0x13 ≠ 0 then
    ((s.plainWrite (aBnk b 0xC) v).wr (aBnk b 0x10) 0).wr (aBnk b 0x14) 0
  else s.plainWrite (aBnk b o) v

/-- A write to offset `o` of GRN. -/
def State.grnWrite (s : State) (o : Nat) (v : W32) : State :=
  if o = 0x50 then if v.getLsbD 0 then s.grnClear else s
  else if o = 0x60 then
    if v.getLsbD 31 then s.enqueueOp (field v 0 16) (field v 16 4) (s.rd (aGrn 0x64)) none else s
  else s.plainWrite (aGrn o) v

/-- A write to offset `o` of CULM. -/
def State.culmWrite (s : State) (o : Nat) (v : W32) : State :=
  if o = 0x10 then
    let s1 := s.plainWrite (aCulm o) v
    let s2 := if v.getLsbD 0 then s1.wr (aCulm 0x14) 0 else s1
    if v.getLsbD 1 then s2.wr (aCulm 0x18) 0 else s2
  else if o = 0x20 then if v.getLsbD 31 then s.rxDiscard (field v 0 10) else s
  else if o = 0x24 then if v.getLsbD 0 then s.culmClear else s
  else s.plainWrite (aCulm o) v

/-- A write to offset `o` of SYN; any write to CMD on a module that is not the leader is ignored (R288). -/
def State.synWrite (s : State) (o : Nat) (v : W32) : State :=
  if 0x10 ≤ o ∧ o < 0x90 ∧ o % 0x10 = 4 then if v.getLsbD 0 then s.relock ((o - 0x14) / 0x10) else s
  else if o = 0x104 then
    if s.rf (aSyn 0x100) 0 2 != 2 then s.flag (aSyn 0x110) 7
    else if v.getLsbD 31 then s.syncSend (field v 0 4) (field v 8 7) else s
  else s.plainWrite (aSyn o) v

/-- CTRL of expander `n`: ARM, then STOP and FLUSH (R234, R237). -/
def State.pxCtrlWrite (s : State) (n : Nat) (v : W32) : State :=
  let s1 := if v.getLsbD 1 then s.pxStop n
    else
      let t := s.putB (aPx n 0) 0 (v.getLsbD 0)
      if s.pxState n ≤ 2 && !(s.pxs n).take then
        let u := t.pxRest n
        if s.pxState n = 2 && !v.getLsbD 0 then u.mapHolds (Hold.left n false) else u
      else t
  if v.getLsbD 2 then s1.pxFlush n else s1

/-- Expander `n` is STARTING or in a burst (R258). -/
def State.pxBusy (s : State) (n : Nat) : Bool := s.pxState n == 2 || s.pxState n == 3

/-- A write to offset `o` of expander `n` (R258). One to a register from 0x040 on that is read-only, such as PC, LC or LFSR, sets no
sticky bit (R8). -/
def State.pxWrite (s : State) (n o : Nat) (v : W32) : State :=
  if o = 0 then s.pxCtrlWrite n v
  else if 0x40 ≤ o && s.pxBusy n && (regFields (aPx n o)).any (fun f => f.acc != .ro) then s.flag (aPx n 0x28) 6
  else s.plainWrite (aPx n o) v

/-- A write to offset `o` of pin group `g` (R258, R295). -/
def State.pgWrite (s : State) (g o : Nat) (v : W32) : State :=
  let b0 := s.pxBusy (2 * g)
  let b1 := s.pxBusy (2 * g + 1)
  if o = 8 && (b0 || b1) then
    let s1 := if b0 then s.flag (aPx (2 * g) 0x28) 6 else s
    if b1 then s1.flag (aPx (2 * g + 1) 0x28) 6 else s1
  else if 0x40 ≤ o && o < 0x60 && (b0 || b1) then s.flag (aPg g 0x88) 1
  else if o = 0x8C then if v.getLsbD 0 then s.pgClear g else s
  else s.plainWrite (aPg g o) v

/-- A TX word keeps the limits of R267. -/
def txOk (v : W32) : Bool :=
  let pre := field v 8 5
  let post := field v 16 5
  decide (20 ≤ field v 0 7) && decide (field v 0 7 ≤ 90) && decide (pre ≤ 16) && decide (post ≤ 28)
    && decide (20 + pre + post ≤ 64)

/-- The symbol rate judged for PAM4: the last accepted relock, or else what the registers declare (R266). -/
def State.judgedRate (s : State) (g : Nat) : Nat × Nat × Nat := ((s.pgs g).rate).getD (s.rateRegs g)

/-- A write to CFG of lane `n`: PAM4 below 14 GBd is refused (R266). -/
def State.lnCfgWrite (s : State) (n : Nat) (v : W32) : State :=
  let s1 := s.plainWrite (aLn n 0) v
  if v.getLsbD 0 && !rateAtLeast (s.judgedRate (pgOf n)) 14000000 then
    (s1.putB (aLn n 0) 0 (s.bit (aLn n 0) 0)).flag (aLn n 0x50) 6
  else s1

/-- A write to PRBS_CFG of lane `n` (R273, R274). -/
def State.lnPrbsWrite (s : State) (n : Nat) (v : W32) : State :=
  let s1 := s.plainWrite (aLn n 0x60) v
  let s2 := if v.getLsbD 0 && !s.bit (aLn n 0x60) 0 then s1.setLane n { s1.lane n with gen := 0x7FFFFFFF } else s1
  if v.getLsbD 1 && !s.bit (aLn n 0x60) 1 then s2.clrB (aLn n 0x14) 12 else s2

/-- A write to offset `o` of lane `n` (R266, R267, R287). What is written to TX, RX and DFE acts from the next frame edge
(`State.handOver`). -/
def State.lnApply (s : State) (n o : Nat) (v : W32) : State :=
  if decide (o ≤ 0xC) && s.pxBusy (s.ownerPx n) then s.flag (aLn n 0x50) 5
  else if o = 0 then s.lnCfgWrite n v
  else if o = 4 then if txOk v then s.plainWrite (aLn n 4) v else s.flag (aLn n 0x50) 5
  else if o = 0x10 then s.trainWrite n v
  else if o = 0x60 then s.lnPrbsWrite n v
  else if o = 0x70 then if v.getLsbD 0 then s.prbsClear n else s
  else if o = 0x80 then s.eyeScanWrite n v
  else s.plainWrite (aLn n o) v

/-- A write of `v` to offset `o` of lane `n` configures the lane: it names CFG, TX, RX, DFE or PRBS_CFG, and it is not refused
(R267, R287, R459; DESIGN CHOICE, log 155). -/
def State.configures (s : State) (n o : Nat) (v : W32) : Bool :=
  o == 0x60 || (decide (o ≤ 0xC) && !s.pxBusy (s.ownerPx n) && (o != 4 || txOk v))

/-- A write to lane `n`: after a removal preparation one that configures the lane lets it leave electrical idle again (R459). -/
def State.lnWrite (s : State) (n o : Nat) (v : W32) : State :=
  let t := s.lnApply n o v
  if (t.lane n).kept && s.configures n o v then t.setLane n { t.lane n with kept := false } else t

/-- A write to offset `o` of Thresher `n`; a new FL_PUT counts the pages between it and FL_GET. -/
def State.thrWrite (s : State) (n o : Nat) (v : W32) : State :=
  if o = 0x2C then if v.getLsbD 0 then s.thrClear n else s
  else if o = 0x118 then if v.getLsbD 31 then s.flPush n [field v 0 19] else s
  else if o = 0x110 then
    let s1 := s.plainWrite (aThr n 0x110) v
    if s.wlLocked then s1
    else s1.wr (aThr n 0x114)
      (BitVec.ofNat 32 ((s1.rf (aThr n 0x110) 0 18 + s.flSize n - s.rf (aThr n 0x10C) 0 18 % s.flSize n) % s.flSize n))
  else s.plainWrite (aThr n o) v

/-- DRC.STICKY: clearing CE or UE frees the captures of the channels. -/
def State.drcStickyWrite (s : State) (v : W32) : State :=
  let s1 := s.plainWrite (aDrc 0xC) v
  if v.getLsbD 0 || v.getLsbD 1 then (List.range 16).foldl (fun t k => t.clrB (aDrcCh k 0xC) 31) s1 else s1

/-- MTX.CNT_CLEAR: every WAIT_MAX reads zero. -/
def State.mtxClear (s : State) : State :=
  { s with regs := s.regs.filter fun p => !(aMtx 0x100 ≤ p.1 && p.1 < aMtx 0x180) }

/-- MTX_CNT_CLEAR. -/
def execMtxCntClear (s : State) : Host.Outcome State Fault Refusal := .next (s.mgmtDo (aMtx 0x18C) (some (1)) State.mtxClear)

/-- A write to offset `o` of MTX (R354, R364). -/
def State.mtxWrite (s : State) (o : Nat) (v : W32) : State :=
  if o = 0x180 ∧ Nat.land v.toNat 3 ≠ 0 then ((s.plainWrite (aMtx o) v).wr (aMtx 0x184) 0).wr (aMtx 0x188) 0
  else if o = 0x18C then if v.getLsbD 0 then s.mtxClear else s
  else s.plainWrite (aMtx o) v

/-- A write to GLB, NVC, HLT or the timer block that starts an action; the contacts follow FAULT_EN and ALERT_EN (R483). -/
def State.trigWrite (s : State) (a : Nat) (v : W32) : State :=
  if a = 0x64 then if v.getLsbD 0 then s.sleepAsk else s
  else if a = 0x84 ∨ a = 0x88 then (s.plainWrite a v).pinsUpdate
  else if a = aNvc 0x10 then if v.getLsbD 31 then s.histSel (field v 0 6) else s.plainWrite a v
  else if a = aHlt 0x14 then if v.getLsbD 31 then s.adcGo (field v 0 8) else s
  else if a = aHlt 0x664 then if v.getLsbD 31 then s.spareReq (field v 0 4) (field v 4 4) else s
  else if a = aTmrBlk 0x1004 then if v.getLsbD 0 then s.groupStart (v.getLsbD 1) else s.plainWrite a v
  else s.plainWrite a v

/-- A write to DBG.HALT (R453). -/
def State.haltWrite (s : State) (v : W32) : State := if v.getLsbD 0 then s.haltOn else s.haltOff

/-- A write of agent `g` to a register that exists (R6 to R9 and the rules of the owning chapters). -/
def State.unitWrite (s : State) (g : Agent) (a : Nat) (v : W32) : State :=
  if 0x8000 ≤ a ∧ a < 0xA000 then s.siteWrite ((a - 0x8000) / 0x20) (a % 0x20) v
  else if 0x40000 ≤ a ∧ a < 0x41000 then s.tmrWrite ((a - 0x40000) / 0x40) (a % 0x40) v
  else if a < 0x50000 then s.trigWrite a v
  else if a < 0x60000 then s.mtxWrite (a - 0x50000) v
  else if a < 0x70000 then s.dmaWrite ((a - 0x60000) / 0x40) (a % 0x40) v
  else if a < 0x80000 then s
  else if a < 0x8C000 then s.bnkWrite g ((a - 0x80000) / 0x400) (a % 0x400) v
  else if a < 0x90000 then s.plainWrite a v
  else if a < 0xA0000 then s.grnWrite (a - 0x90000) v
  else if a < 0xB0000 then s.culmWrite (a - 0xA0000) v
  else if a < 0xC0000 then s.synWrite (a - 0xB0000) v
  else if a < 0x1C0000 then
    if 0x1000 ≤ a % 0x10000 ∧ a % 0x1000 = 0x20 then
      if v.getLsbD 0 then s.engClear (9 * ((a - 0x100000) / 0x10000) + (a % 0x10000 / 0x1000 - 1)) else s
    else s.plainWrite a v
  else if a < 0x300000 then s.pxWrite ((a - 0x200000) / 0x10000) (a % 0x10000) v
  else if a < 0x400000 then s.pgWrite ((a - 0x300000) / 0x10000) (a % 0x10000) v
  else if a < 0x500000 then s.lnWrite ((a - 0x400000) / 0x1000) (a % 0x1000) v
  else if a < 0x600000 then s.thrWrite ((a - 0x500000) / 0x10000) (a % 0x10000) v
  else if a = aDrc 0xC then s.drcStickyWrite v
  else if a = aDbgHalt then s.haltWrite v
  else s.plainWrite a v

/-- A write of agent `g` to control address `a` (R4, R6 to R10): an access of another alignment changes nothing, one to a
reserved address sets UNMAPPED. -/
def State.writeReg (s : State) (g : Agent) (a : Nat) (v : W32) : State :=
  if a % 4 ≠ 0 ∨ 2 ^ 31 ≤ a then s
  else if regFields a = [] then s.flag 0x8C 1
  else s.unitWrite g a v

/- Accesses through a bridge (R365 to R367) -------------------------------------------------------------------------------- -/

/-- A write of agent `g` that its bridge applies in the current PCLK cycle, or in the next if its input is not the next of this one
(R333, R365, R366). -/
def State.bridgeWrite (s : State) (g : Agent) (a : Nat) (v : W32) : State :=
  (s.busEnter a (busInput g) (some (readMask (regFields a) (s.regView a)))).writeReg g a v

/-- A read of agent `g` through its bridge gives what the register held before the writes of this PCLK cycle (R365, R367). -/
def State.bridgeRead (s : State) (g : Agent) (a : Nat) : State × W32 :=
  let s1 := s.busEnter a (busInput g) none
  let r := s1.readReg a
  (r.1, s1.busWord a r.2)

/-- Master port `m` issues a write of register `a` that no thread waits for (R353, R365). An address from 0x8000_0000 on is one that no
agent reaches (R513), and one that is no multiple of 4 is refused (R4). -/
def State.loneWrite (s : State) (m a : Nat) (v : W32) : State :=
  if a % 4 ≠ 0 ∨ 2 ^ 31 ≤ a then s
  else { s with mtxq := insTxn ⟨m, .lone, 0x80000000 + a, 4, some (natLe 4 v.toNat), s.mqos m true, 0, s.eclk, 0⟩ s.mtxq }

/-- A write of agent `g` on its way to its bridge: the management controller and the DMA have inputs of their own, ring-0 code and the
debug port issue a transaction of their master port (R353, R365). While the device sleeps the peripheral buses stand still: a write of
the management controller waits, ring-0 code and the DMA, whose clocks stand, make none, and one of the debug port waits at its port
(R27, R455). -/
def State.sendWrite (s : State) (g : Agent) (a : Nat) (v : W32) : State :=
  match g with
  | .mgmt => s.lateDo a (some v) fun s => s.bridgeWrite .mgmt a v
  | .dma => s.awakeDo fun s => s.bridgeWrite .dma a v
  | .engine k => s.awakeDo fun s => s.loneWrite k.val a v
  | .debug => s.loneWrite 21 a v
  | _ => s

/-- OWNER_WRITE (R332, R333). -/
def execOwnerWrite (b : Fin 48) (a : Agent) (v : W32) (s : State) : Host.Outcome State Fault Refusal :=
  .next (s.sendWrite a (aBnk b.val 0) v)

/- Wake (R27, R456) ---------------------------------------------------------------------------------------------------------- -/

/-- A request that waited for the wake is made. -/
def State.lateOne (s : State) (x : LateReq) : State :=
  match x with
  | .access a (some v) => s.bridgeWrite .mgmt a v
  | .access a none => { (s.bridgeRead .mgmt a).1 with busOut := (s.bridgeRead .mgmt a).2 }
  | .adc c => s.adcTimer c

/-- The requests that waited on stopped domains are delivered, in the order in which they were made (R27). -/
def State.lateAll (s : State) : State := s.late.foldl State.lateOne { s with late := [] }

/-- The device wakes by the first wake source that came (R456). -/
def State.wake (s : State) (src : WakeSource) : State :=
  if s.sleeping && s.wakeDue == some src then
    let s1 := { s with sleeping := false, wakeDue := none }.wf 0x6C 0 2 (wakeFields src).1
    (match (wakeFields src).2 with
      | some c => s1.wf 0x6C 8 5 c
      | none => s1).lateAll
  else s

/-- WAKE (R456). -/
def execWake (src : WakeSource) (s : State) : Host.Outcome State Fault Refusal := .next (s.wake src).poll

/- BAR0 and BAR2 (R392, R394, R395) ---------------------------------------------------------------------------------------- -/

/-- A write of the host to BAR0 offset `a`: base and SIZE of a queue in use are kept; other offsets ignore writes. -/
def State.bar0Write (s : State) (a : Nat) (v : W32) : State :=
  let fs := tabFind tabBar0 a
  if a % 4 ≠ 0 ∨ fs = [] then s
  else if 0x1000 ≤ a then
    if a % 8 = 0 then s.sqTailWrite ((a - 0x1000) / 8) v else s.cqHeadWrite ((a - 0x1000) / 8) v
  else if 0x100 ≤ a then
    let q := (a - 0x100) / 0x20
    if a % 0x20 = 0x14 then s.qCfgWrite q v
    else if s.qEnabled q then s
    else s.wrB a (writeFields false (fun _ => false) v fs (s.rdB a))
  else s

/-- A write of the host to BAR2: a word of the MSI-X table; the pending bits are read-only (PRESUMED: base
specification). -/
def State.bar2Write (s : State) (a : Nat) (v : W32) : State :=
  if a % 4 = 0 ∧ a < 0x200 then { s with bar2 := spSet bar2Reset s.bar2 a v } else s

/-- A write of any agent. The endpoint runs on in sleep, and a request of halt that comes then wakes the device (R456). -/
def State.busWrite (s : State) (g : Agent) (a : Nat) (v : W32) : State :=
  match g with
  | .bar0 => s.linkDo fun s => s.bar0Write a v
  | .bar2 => s.linkDo fun s => s.bar2Write a v
  | .cfg => s.linkDo fun s => s.cfgWrite a v
  | g => if s.sleeping && a == aDbgHalt && (g == .mgmt || g == .debug) then s.haltWrite v else s.sendWrite g a v

/-- REGISTER_WRITE (R6). -/
def execRegisterWrite (a : Agent) (addr v : W32) (s : State) : Host.Outcome State Fault Refusal :=
  .next (s.busWrite a addr.toNat v).poll

end Sys2Proof.Machine
end

