-- ==== Sys2Proof/Machine/Matrix.lean ====
section
/-!
DEFINITION. Arbitration of the fast matrix (chapter 11, R354 to R364) and the elements that the peripheral DMA moves (R370 to
R373).
-/

namespace Sys2Proof.Machine

/- Arbitration ------------------------------------------------------------------------------------------------------ -/

/-- The head of master `m` at port `t` (R361), if it has one. -/
def State.headAt (s : State) (t m : Nat) : Option Txn :=
  s.mtxq.find? fun x => x.master == m && s.targetOf x.addr == some t

/-- The bank a transaction names. -/
def Txn.bank (x : Txn) : Nat := (bankPlace x.addr).1

/-- The target can accept all beats of the transaction: 16 accesses per bank, and for a DRAM controller a queue whose depth the
spec does not give, a free value above 8 (R334, R358). -/
def State.grantable (s : State) (t : Nat) (x : Txn) : Bool :=
  if t < 12 then
    decide ((s.bank x.bank).acc.length + x.beats.length ≤ 16) && (s.admission x.bank (masterCode x.master)).isSome
  else if t < 14 then
    decide ((s.dramq.filter fun p => p.1 / 8 == t - 12).length + x.beats.length ≤ 8 + Config.dramQueue)
  else true

/-- The effective QoS of a head (R358). -/
def effQos (step q w : Nat) : Nat := if q = 15 then 15 else if step = 0 then q else min 14 (q + w / step)

/-- Insert into a list of (key, value) the larger key first; equals keep their order. -/
def bestHead : List (Nat × Txn) → Option Txn
  | [] => none
  | (e, x) :: l =>
    match bestHead l with
    | none => some x
    | some _ => if l.any fun p => e < p.1 then bestHead l else some x

/-- The head that port `t` grants: the highest effective QoS, the first master from the one after RR_PTR among equals
(R358). -/
def State.winner (s : State) (t : Nat) : Option Txn :=
  let ptr := s.rf (aMtx (0x80 + 4 * t)) 16 5
  let step := s.rf (aMtx (0x80 + 4 * t)) 0 8
  let heads := ((List.range 22).map fun i => (ptr + 1 + i) % 22).filterMap (s.headAt t)
  bestHead ((heads.filter (s.grantable t)).map fun x => (effQos step x.qos x.wait, x))

/-- The heads at port `t` have waited `n` more MCLK cycles. -/
def State.ageHeads (s : State) (t n : Nat) : State :=
  { s with mtxq := s.mtxq.map fun x => if s.headAt t x.master = some x then { x with wait := x.wait + n } else x }

/-- The queue without the first transaction equal to `x`. -/
def dropTxn (x : Txn) : List Txn → List Txn
  | [] => []
  | y :: l => if y = x then l else y :: dropTxn x l

/-- The agent behind a master port at a bridge. -/
def busAgent (m : Nat) : Agent := if m < 12 then .engine (Fin.ofNat 12 m) else if m = 21 then .debug else .mgmt

/-- A register access through a bridge (R362, R365). One of another size or alignment is refused and changes no register (R4): a
fetch entry of 16 bytes gets an error response. -/
def State.bridge (s : State) (x : Txn) : State :=
  let a := x.addr - 0x80000000
  if x.size ≠ 4 ∨ a % 4 ≠ 0 then s.respond x (.error 3)
  else match x.data with
  | none =>
    let r := s.bridgeRead (busAgent x.master) a
    r.1.respond x (.ok (natLe 4 r.2.toNat))
  | some l => (s.bridgeWrite (busAgent x.master) a (BitVec.ofNat 32 (leNat l))).respond x (.ok [])

/-- The beats of a transaction join the accesses delivered to its bank (R334). One that the owner rule admits and that finds the bank not
AWAKE is held under AUTOWAKE or behind one that is held, which clears SLEEP; otherwise the bank is to refuse it (R340, R341; log
168). -/
def State.toBank (s : State) (x : Txn) : State :=
  let b := x.bank
  let k := s.bank b
  let ok := s.admission b (masterCode x.master) == some true
  let held := !s.awake b && (s.bit (aBnk b 4) 1 || s.wakeWanted b)
  let new := x.beats.map fun y => BankAcc.mk y ok (ok && !s.awake b && !held) s.nextId
  let s1 := if ok && held then s.autoWake b else s
  { s1.setBank b { k with acc := k.acc ++ new } with nextId := s.nextId + 1 }

/-- Who hears of an error of a write after its acknowledgement: the task that stored, the transfer, or the Thresher. -/
def State.lateFor (s : State) (f : TxnFor) : TxnFor :=
  match f with
  | .store i id => match (s.th i).stores.find? fun x => x.id == id with
    | some x => .lateStore i x.task (x.sel == .brace)
    | none => f
  | .xfer id => .lateXfer id
  | .freed n => .lateFreed n
  | _ => f

/-- A beat joins the queue of its DRAM channel; a write is acknowledged with that (R362). An error that the controller finds when
it performs the write reaches the thread or the transfer after that (DEDUCED from R350 and R362, log entry 123). -/
def State.toDram (s : State) (y : Txn) : State :=
  let k := s.dramChan (y.addr - 0x1000000000)
  if y.data.isSome then { s with dramq := s.dramq ++ [(k, { y with for_ := s.lateFor y.for_ })] }.respond y (.ok [])
  else { s with dramq := s.dramq ++ [(k, y)] }

/-- A range of the Granary store, contexts or state records, holds a poisoned word (R344). -/
def State.ctxPois (s : State) (a n : Nat) : Bool :=
  match regionOf a with
  | .ctx o => (List.range ((o + n - 1) / 8 - o / 8 + 1)).any fun i => s.wordBad (ctxWord0 + o / 8 + i)
  | .recs o => (List.range ((o + n - 1) / 8 - o / 8 + 1)).any fun i => s.wordBad (recWord0 + o / 8 + i)
  | _ => false

/-- The Granary spill port: reads of the management controller, the host link and the debug port (R364), with an error response
where a word is poisoned (R344). -/
def State.toSpillPort (s : State) (x : Txn) : State :=
  let m := masterCode x.master
  if x.data.isNone && (m == 0x10 || m == 0x11 || m == 0x41) then
    s.respond x (if s.ctxPois x.addr x.size then .error 3 else .ok (s.memData x.addr x.size))
  else (s.mtxErr 1 x.addr m x.data.isSome).respond x (.error 3)

/-- A granted transaction reaches target `t` (R358, R362, R364). -/
def State.toTarget (s : State) (t : Nat) (x : Txn) : State :=
  if t < 12 then s.toBank x
  else if t < 14 then x.beats.foldl State.toDram s
  else if t = 14 then s.toSpillPort x
  else s.bridge x

/-- RR_PTR and WAIT_MAX after a grant (R358, R359). -/
def State.granted_ (s : State) (t : Nat) (x : Txn) : State :=
  let s1 := s.wf (aMtx (0x80 + 4 * t)) 16 5 x.master
  if x.qos < 15 ∧ s.rf (aMtx (0x100 + 4 * t)) 0 16 < min 65535 x.wait then
    s1.wf (aMtx (0x100 + 4 * t)) 0 16 (min 65535 x.wait)
  else s1

/-- A transaction that no target serves (R354). -/
def State.decodeErr (s : State) : State :=
  match s.mtxq.find? fun x => (s.targetOf x.addr).isNone with
  | some x =>
    ({ s with mtxq := dropTxn x s.mtxq }.mtxErr 0 x.addr (masterCode x.master) x.data.isSome).respond x (.error 3)
  | none => s

/-- Every expander whose fetch may read issues its read (R229). -/
def State.fetchAll (s : State) : State := (List.range 16).foldl State.fetchAsk s

/-- The cycles that port `t` is still occupied by the beats of its last grant (R358). -/
def State.portBusy (s : State) (t : Nat) : Nat := spGet (fun _ => 0) s.mtxBusy t

/-- Port `t` is occupied for `k` cycles. -/
def State.occupy (s : State) (t k : Nat) : State := { s with mtxBusy := spSet (fun _ => 0) s.mtxBusy t k }

/-- Port `t` makes a grant, `n` MCLK cycles after the last command that counts them, if the beats of its last grant are over
(R358). -/
def State.grantPort (s : State) (t n : Nat) : State :=
  let s1 := (s.decodeErr.ageHeads t n).fetchAll
  if n < s.portBusy t then s1.occupy t (s.portBusy t - n)
  else match s1.winner t with
    | some x => ((({ s1 with mtxq := dropTxn x s1.mtxq }.granted_ t x).occupy t x.beats.length).toTarget t x)
    | none => s1.occupy t 0

/-- TRANSACTION_GRANT (R358). -/
def execTransactionGrant (t : Fin 17) (cycles : Nat) (s : State) : Host.Outcome State Fault Refusal :=
  .next (s.awakeDo fun s => (s.grantPort t.val cycles).poll)

/- DMA elements (R370 to R373) ------------------------------------------------------------------------------------------ -/

/-- The address of element `i` of one side of channel `c` (R370). -/
def State.dmaAddr (s : State) (c : Nat) (dst : Bool) (i : Nat) : Nat :=
  let a := s.dmaStart c dst
  let n := s.dmaElem c
  let ring := 2 ^ s.rf (aDma c 0x10) 8 5
  match s.dmaMode c dst with
  | 0 => a
  | 2 => a / ring * ring + (a % ring + i * n) % ring
  | _ => (a + i * n) % 2 ^ 40

/-- The channel that moves the next element: round-robin after the one last served (R370). -/
def State.dmaNext (s : State) : Option Nat :=
  ((List.range 8).map fun i => (s.dmaLast + 1 + i) % 8).find? fun c => s.dmaState c == 2 && decide (0 < (s.dmaCh c).left)

/-- Channel `c` reads the `n` bytes at `a`: none while the read is under way, else the bytes or an error (R371, R330). -/
def State.dmaRead (s : State) (c a n : Nat) : State × Option (Except Nat (List Byte)) :=
  match regionOf a with
  | .ctrl o =>
    let r := s.bridgeRead .dma o
    (r.1, some (.ok (natLe 4 r.2.toNat)))
  | _ =>
    match s.xfer (.dma c) 20 0 32 false a n none with
    | (s1, none) => (s1, none)
    | (s1, some x) => (s1, some (match x.err with
      | some k => .error k
      | none => .ok x.got))

/-- Channel `c` writes the bytes `l` at `a`: none while the write is under way, else whether it succeeded. -/
def State.dmaPut (s : State) (c a : Nat) (l : List Byte) : State × Option Bool :=
  match regionOf a with
  | .ctrl o => (s.bridgeWrite .dma o (BitVec.ofNat 32 (leNat l)), some true)
  | _ =>
    match s.xfer (.dma c) 20 0 32 false a l.length (some l) with
    | (s1, none) => (s1, none)
    | (s1, some x) => (s1, some x.err.isNone)

/-- Channel `c` stops on an error at address `a`; the element is not written (R373). -/
def State.dmaError (s : State) (c a : Nat) : State :=
  let s1 := ((s.clrB (aDma c 0x1C) 0).wf (aDma c 0x20) 0 3 4).setB (aDma c 0x24) 1
  let s2 := s1.setDma c { s1.dmaCh c with elem := none, stop := false }
  ((s2.wr (aDma c 0x28) (BitVec.ofNat 32 a)).wr (aDma c 0x2C) (BitVec.ofNat 32 (a / 2 ^ 32 % 256))).dmaDone c

/-- The element of channel `c` has been written; after an ABORT the channel stops with it (R370, R373). -/
def State.dmaNextElem (s : State) (c : Nat) : State :=
  let d := s.dmaCh c
  let s1 := s.setDma c ⟨d.moved + 1, d.left - 1, none, d.stop⟩
  if d.stop then s1.dmaIdle c else s1

/-- Channel `c` writes the element `l` that it has read. -/
def State.dmaStore (s : State) (c : Nat) (l : List Byte) : State :=
  let dst := s.dmaAddr c true (s.dmaCh c).moved
  match s.dmaPut c dst l with
  | (s1, none) => s1
  | (s1, some true) => s1.dmaNextElem c
  | (s1, some false) => s1.dmaError c dst

/-- Channel `c` goes on with its element: the read, then the write (R370, R373). -/
def State.dmaMove (s : State) (c : Nat) : State :=
  let s0 := { s with dmaLast := c }
  let d := s.dmaCh c
  match d.elem with
  | some l => s0.dmaStore c l
  | none =>
    let src := s.dmaAddr c false d.moved
    match s0.dmaRead c src (s.dmaElem c) with
    | (s1, none) => s1
    | (s1, some (.ok l)) => (s1.setDma c { s1.dmaCh c with elem := some l }).dmaStore c l
    | (s1, some (.error _)) => s1.dmaError c src

/-- The channel the engine serves: the one with an element in progress, else the next (R370). -/
def State.dmaServes (s : State) : Option Nat :=
  match (List.range 8).find? s.dmaBusy with
  | some c => some c
  | none => s.dmaNext

/-- DMA_ELEMENT (R370). -/
def execDmaElement (_ _ : Unit) (s : State) : Host.Outcome State Fault Refusal :=
  .next (s.awakeDo fun s =>
    match s.dmaServes with
    | some c => (s.dmaMove c).poll
    | none => s)

end Sys2Proof.Machine
end

