-- ==== Sys2Proof/Machine/Quiet.lean ====
section
/-!
DEFINITION. Work in progress runs to its end before an activation or a removal (R444 step 2, R458): store buffers, matrix,
banks, DRAM, Threshers, task operations, DMA blocks.
-/

namespace Sys2Proof.Machine

/-- `f`, `n` times. -/
def State.times (s : State) (f : State → State) : Nat → State
  | 0 => s
  | n + 1 => (f s).times f n

/-- The oldest delivered access of bank `b` is performed or refused (R327, R330). -/
def State.bankAny (s : State) (b : Nat) : State :=
  match (s.bank b).acc with
  | x :: _ => if x.allow then s.bankServe b .ok else s.bankRefuse b
  | [] => s

/-- Bank `b` performs what it holds, wakes if it is to wake, and ends a handover (R334, R339, R340). -/
def State.bankQuiet (s : State) (b : Nat) : State :=
  ((((((s.times (fun t => t.bankAny b) (s.bank b).acc.length).retained b).bankWake b).bankAwake b).times (fun t => t.bankAny b)
    (s.bank b).acc.length)).handover b

/-- Every bank comes to rest. -/
def State.banksQuiet (s : State) : State := (List.range 48).foldl State.bankQuiet s

/-- Every transaction on its way is granted, performed and answered; 8 cycles pass between the grants of a port. -/
def State.memRound (s : State) : State :=
  let s2 := (List.range 17).foldl (fun (t : State) p => t.times (fun u => u.grantPort p 8) s.mtxq.length) s
  let s3 := s2.times State.banksQuiet 4
  s3.times (fun t => (List.range 16).foldl (fun (t : State) k => t.dramServe k .ok) t) s3.dramq.length

/-- Every store buffer drains one store, and every transaction on its way is performed and answered. -/
def State.drainRound (s : State) : State := (s.ths.foldl (fun (t : State) p => t.storeDone p.1) s).memRound

/-- Store buffers drain (R444, R458): a buffer holds at most 4 stores (R72), and a sleeping bank takes a round to wake. -/
def State.drainStores (s : State) : State := s.times State.drainRound 8

/-- The operations at the head of the task operation queue complete (R212). -/
def State.opAny (s : State) : State := s.opRefuse.opKill.opRaise.opSetPrio.opSetAffinity.opRead

/-- The Granary takes every event in its intake and every task operation (R188, R189, R212). -/
def State.granaryQuiet (s : State) : State :=
  let s1 := s.times (fun t => t.opAny.poll) 17
  s1.times State.takeAny s1.evq.length

/-- What the pin group has for its Thresher enters the intake queue (R302, R309). -/
def State.pgQuiet (s : State) (g : Nat) : State := (s.summarize g).times (fun t => t.closeMarkIn g) (s.pgs g).marks.length

/-- The item at the head of an intake queue is taken (R303, R305, R309). -/
def State.intakeAny (s : State) (n : Nat) : State := ((s.takeRecord n).takeSummary n).takeMark n

/-- The assist entry at the head is carried out (R322, R323). -/
def State.assistAny (s : State) (n : Nat) : State :=
  let s1 := ((((s.assistQuery n).assistScan n).assistFetch n).assistTentative n).assistUndo n
  let s2 := ((((s1.assistCost n).assistCommit n).assistClose n).assistReset n).assistRelease n
  s2.assistBad n

/-- The intake, assist and bitmap work of Thresher `n` completes, as far as its output queue has room. -/
def State.thrQuiet (s : State) (n : Nat) : State :=
  let s1 := (s.pgQuiet (2 * n)).pgQuiet (2 * n + 1)
  let s2 := s1.times (fun t => ((t.intakeAny n).pgQuiet (2 * n)).pgQuiet (2 * n + 1)) 256
  let s3 := s2.times (fun t => (t.assistAny n).memRound) ((s2.thrs n).assist.length * (s2.sparseUse n / 8 + 16384))
  let s4 := s3.times (fun t => (t.bitmapStep n).memRound) ((s3.thrs n).bmq.length * 1024)
  s4.times State.memRound (s4.thrs n).toFree.length

/-- Every Thresher. -/
def State.thrsQuiet (s : State) : State := ((List.range 4).foldl State.thrQuiet s).poll

/-- DMA channel `c` is aborted, and the element in progress comes to its end (R373). -/
def State.dmaEnd (s : State) (c : Nat) : State :=
  (s.dmaAbort c).times (fun t => if t.dmaBusy c then (t.dmaMove c).memRound else t) 8

/-- DMA channel `c` finishes the block in progress and stops with EN = 0 (R458). -/
def State.dmaFinish (s : State) (c : Nat) : State :=
  if s.dmaState c = 2 then
    let s1 := s.times (fun t => if (t.dmaBusy c || decide (0 < (t.dmaCh c).left)) && t.dmaState c == 2 then (t.dmaMove c).memRound else t)
      (8 * (s.dmaCh c).left)
    let s2 := s1.dmaBlockEnd c
    if s2.bit (aDma c 0x1C) 0 then s2.dmaAbort c else s2
  else if s.bit (aDma c 0x1C) 0 then s.dmaAbort c
  else s

end Sys2Proof.Machine
end

