-- ==== Sys2Proof/Machine/Image.lean ====
section
/-!
DEFINITION. The image contract: layout, and the load checks of R179 in their order (R124, R140, R166 to R178, R225, R238, R307).
-/

namespace Sys2Proof.Machine

/- Layout (R166 to R168, R176, R177) -------------------------------------------------------------------------------- -/

/-- An image at its source: its length and its bytes. -/
structure Img where
  len : Nat
  get : Nat → Byte

/-- The little-endian number in the `n` bytes from offset `o`. -/
def Img.num (m : Img) (o : Nat) : Nat → Nat
  | 0 => 0
  | n + 1 => (m.get o).toNat + 256 * m.num (o + 1) n

/-- The `n` bytes from offset `o`. -/
def Img.bytes (m : Img) (o n : Nat) : List Byte := (List.range n).map fun i => m.get (o + i)

/-- BODY_LENGTH. -/
def Img.body (m : Img) : Nat := m.num 0x10 8

/-- Bit 0 of FLAGS: SIGNED. -/
def Img.signed (m : Img) : Bool := m.num 0x20 1 % 2 == 1

/-- A section table entry (R168). -/
structure Sect where
  idx : Nat
  typ : Nat
  flags : Nat
  size : Nat
  off : Nat
  len : Nat
  cnt : Nat
  rsvd : Nat
deriving DecidableEq, Repr

/-- Entry `i` of the section table. -/
def Img.sect (m : Img) (i : Nat) : Sect :=
  let o := 256 + 32 * i
  ⟨i, m.num o 2, m.num (o + 2) 2, m.num (o + 4) 4, m.num (o + 8) 8, m.num (o + 16) 8, m.num (o + 24) 4, m.num (o + 28) 4⟩

/-- The section table; SECTION_COUNT is at most 64 (R167). -/
def Img.sects (m : Img) : List Sect := (List.range (min 64 (m.num 0x18 4))).map m.sect

/-- A section type of R169. -/
def knownType (t : Nat) : Bool := decide (1 ≤ t) && decide (t ≤ 13)

/-- The sections of known type, in table order. -/
def Img.known (m : Img) : List Sect := m.sects.filter fun x => knownType x.typ

/-- The section of a type. -/
def Img.find (m : Img) (t : Nat) : Option Sect := m.sects.find? fun x => x.typ == t

/-- Bytes of a record of a section type; 0: no record section (R169). -/
def recLen (t : Nat) : Nat :=
  match t with
  | 2 => 16
  | 3 => 8
  | 4 => 32
  | 5 => 8
  | 10 => 4
  | 11 => 8
  | _ => 0

/-- Instances, WORD_BYTES and capacity of a block section type (R176). -/
def blockRule (t : Nat) : Nat × Nat × Nat :=
  match t with
  | 6 => (16, 16, 4096)
  | 7 => (16, 4, 65536)
  | 8 => (8, 144, 64)
  | 9 => (4, 16, 4096)
  | 12 => (48, 8, 524288)
  | _ => (1, 64, 536870912)

/-- A block section type. -/
def isBlock (t : Nat) : Bool := t == 6 || t == 7 || t == 8 || t == 9 || t == 12 || t == 13

/-- A record of a section: the section, the record index and its offset in the image. -/
structure Rcd where
  sec : Nat
  idx : Nat
  off : Nat
deriving DecidableEq, Repr

/-- The records of a section. -/
def Sect.rcds (x : Sect) : List Rcd :=
  if recLen x.typ = 0 then [] else (List.range (x.len / recLen x.typ)).map fun r => ⟨x.idx, r, x.off + r * recLen x.typ⟩

/-- The records of a section type. -/
def Img.rcds (m : Img) (t : Nat) : List Rcd :=
  match m.find t with
  | some x => x.rcds
  | none => []

/-- A block (R176): its section, its index, INSTANCE, WORD_BYTES, COUNT, START and the offset of its payload; `ok`: it lies
within its section and has a word. -/
structure Blk where
  sec : Nat
  idx : Nat
  inst : Nat
  wb : Nat
  cnt : Nat
  start : Nat
  off : Nat
  ok : Bool
deriving DecidableEq, Repr

/-- The blocks from offset `o` to `stop`, the first that is not whole the last of them. -/
def Img.blocksFrom (m : Img) (sec stop : Nat) : Nat → Nat → Nat → List Blk
  | 0, _, _ => []
  | f + 1, i, o =>
    if stop ≤ o then []
    else if stop - o < 16 then [⟨sec, i, 0, 0, 0, 0, o, false⟩]
    else
      let wb := m.num (o + 2) 2
      let cnt := m.num (o + 4) 4
      let n := 16 + (cnt * wb + 15) / 16 * 16
      if cnt = 0 ∨ stop < o + n then [⟨sec, i, m.num o 2, wb, cnt, m.num (o + 8) 8, o + 16, false⟩]
      else ⟨sec, i, m.num o 2, wb, cnt, m.num (o + 8) 8, o + 16, true⟩ :: m.blocksFrom sec stop f (i + 1) (o + n)

/-- The blocks of a section. -/
def Img.blocksOf (m : Img) (x : Sect) : List Blk := m.blocksFrom x.idx (x.off + x.len) (x.len / 16 + 1) 0 x.off

/-- The blocks of a section type. -/
def Img.blocks (m : Img) (t : Nat) : List Blk :=
  match m.find t with
  | some x => m.blocksOf x
  | none => []

/-- The words of a block: index in the target and value. -/
def Img.blockWords (m : Img) (b : Blk) : List (Nat × Nat) :=
  (List.range b.cnt).map fun k => (b.start + k, m.num (b.off + b.wb * k) b.wb)

/- Results (R178, R179) -------------------------------------------------------------------------------------------------- -/

/-- A check that failed: its code, and the section and the record or block it concerns, where it concerns one. -/
structure CheckFail where
  code : Nat
  sec : Option Nat
  idx : Option Nat
deriving DecidableEq, Repr

/-- The check fails as `code`, concerning no section. -/
def failIf (b : Bool) (code : Nat) : Option CheckFail := if b then some ⟨code, none, none⟩ else none

/-- The first section of a list that fails a check. -/
def failSect (code : Nat) (bad : Sect → Bool) (l : List Sect) : Option CheckFail :=
  (l.find? bad).map fun x => ⟨code, some x.idx, none⟩

/-- The first record of a list that fails a check. -/
def failRcd (code : Nat) (bad : Rcd → Bool) (l : List Rcd) : Option CheckFail :=
  (l.find? bad).map fun r => ⟨code, some r.sec, some r.idx⟩

/-- The first block of a list that fails a check. -/
def failBlk (code : Nat) (bad : Blk → Bool) (l : List Blk) : Option CheckFail :=
  (l.find? bad).map fun b => ⟨code, some b.sec, some b.idx⟩

/- Header and section table (0x01 to 0x09) ---------------------------------------------------------------------------------- -/

/-- MAGIC. -/
def imgMagic : List Byte := [0x54, 0x43, 0x48, 0x49, 0x4D, 0x47, 0x0D, 0x0A]

/-- The largest image, 96 MiB (R166). -/
def imgMax : Nat := 0x6000000

/-- Check 0x02. -/
def Img.formatBad (m : Img) : Bool :=
  m.num 8 2 != 1 || m.num 0xC 4 != 256 || m.num 0x1C 4 != 256 || 2 ≤ m.num 0x20 4 || m.num 0x2C 4 != 0 || m.num 0x80 128 != 0

/-- Check 0x05. -/
def Img.lengthBad (m : Img) : Bool := m.body % 64 != 0 || imgMax < m.body + 160 || m.len < m.body + 160

/-- Two sections share a byte. -/
def sectsMeet (x y : Sect) : Bool :=
  decide (0 < x.len) && decide (0 < y.len) && decide (x.off < y.off + y.len) && decide (y.off < x.off + x.len)

/-- A section breaks a rule of R168. -/
def Img.sectBad (m : Img) (x : Sect) : Bool :=
  x.off % 64 != 0 || decide (x.off < 256 + 32 * m.num 0x18 4) || decide (m.body < x.off + x.len) || decide (2 ≤ x.flags)
    || x.rsvd != 0 || m.sects.any fun y => decide (y.idx < x.idx) && sectsMeet x y

/-- Check 0x06. -/
def Img.tableBad (m : Img) : Option CheckFail :=
  if m.num 0x18 4 = 0 ∨ 64 < m.num 0x18 4 then some ⟨0x06, none, none⟩ else failSect 0x06 m.sectBad m.sects

/-- Checks 0x01 to 0x09. -/
def Img.headChecks (m : Img) (fw : Nat) : List (Unit → Option CheckFail) :=
  [ fun _ => failIf (m.bytes 0 8 != imgMagic) 0x01,
    fun _ => failIf m.formatBad 0x02,
    fun _ => failIf (m.num 0x24 4 != 0x9656) 0x03,
    fun _ => failIf (decide (fw < m.num 0x28 4)) 0x04,
    fun _ => failIf m.lengthBad 0x05,
    fun _ => m.tableBad,
    fun _ => failSect 0x07 (fun x => m.known.any fun y => decide (y.idx < x.idx) && y.typ == x.typ) m.known,
    fun _ => failSect 0x08 (fun x => !knownType x.typ && x.flags % 2 == 1) m.sects,
    fun _ => failIf ((m.find 1).isNone || (m.find 4).isNone) 0x09 ]

/- Digest and signature (0x10 to 0x13) ---------------------------------------------------------------------------------------- -/

/-- The digest of the body (R178). -/
def Img.digest (m : Img) : List Byte := sha384 (m.bytes 0 m.body)

/-- SIG_R, or SIG_S at `o`, big-endian (R177). -/
def Img.sigNum (m : Img) (o : Nat) : Nat := beNat (m.bytes (m.body + o) 48)

/-- KEY_SLOT. -/
def Img.keySlot (m : Img) : Nat := m.num (m.body + 0x30) 2

/-- The key in slot `k`, if it holds one that is not revoked (R178). -/
def NvSt.key (v : NvSt) (k : Nat) : Option (Nat × Nat) :=
  if h : k < 4 then (if v.revoked.getLsbD k then none else v.keys[k]) else none

/-- Checks 0x10 to 0x13. -/
def Img.trustChecks (m : Img) (v : NvSt) : List (Unit → Option CheckFail) :=
  [ fun _ => failIf (m.digest != m.bytes m.body 48) 0x10,
    fun _ => failIf ((v.require && !m.signed) || m.num (m.body + 0x32) 14 != 0
      || (!m.signed && (m.keySlot != 0 || m.num (m.body + 0x40) 96 != 0))) 0x11,
    fun _ => failIf (m.signed && (v.key m.keySlot).isNone) 0x12,
    fun _ => failIf (m.signed && (match v.key m.keySlot with
      | some q => !ecdsaOk q m.digest (m.sigNum 0x40) (m.sigNum 0x70)
      | none => true)) 0x13 ]

/- Record form (0x20) ------------------------------------------------------------------------------------------------------------ -/

/-- The bits that fields name. -/
def fieldMask (fs : List Field) : Nat := fs.foldl (fun acc f => Nat.lor acc ((2 ^ f.w - 1) * 2 ^ f.lo)) 0

/-- The bits of a word outside a mask are set. -/
def outside (v mask : Nat) : Bool := Nat.land v mask != v

/-- Bits `lo` to `lo + w - 1` of a number. -/
def nf (v lo w : Nat) : Nat := v / 2 ^ lo % 2 ^ w

/-- ROUTE and BIND of a CULM_CHANNELS record (R170). -/
def Img.route (m : Img) (r : Rcd) : Nat := m.num (r.off + 4) 4
/-- BIND of a record. -/
def Img.bind (m : Img) (r : Rcd) : Nat := m.num (r.off + 8) 4

/-- A record has a reserved bit set or a field out of range (R170 to R175). -/
def Img.rcdBad (m : Img) (t : Nat) (r : Rcd) : Bool :=
  let o := r.off
  match t with
  | 2 => decide (1023 < m.num o 2) || m.num (o + 2) 2 != 0 || m.num (o + 12) 4 != 0
      || outside (m.route r) (fieldMask (regFields (aCulm 0x8000))) || outside (m.bind r) (fieldMask (regFields (aCulm 0x8004)))
      || decide (11 < nf (m.route r) 0 4) || decide (11 < nf (m.route r) 20 4) || decide (11 < nf (m.bind r) 0 4)
  | 3 => decide (63 < m.num o 1) || m.num (o + 1) 3 != 0 || outside (m.num (o + 4) 4) (fieldMask (regFields (aEng 0 0x100)))
  | 4 => decide (40959 < m.num o 2) || decide (7 < m.num (o + 2) 1) || decide (3 < m.num (o + 3) 1)
      || decide (2 ^ 12 ≤ m.num (o + 4) 2) || outside (m.num (o + 6) 2) 0x8F77 || decide (2 ^ 17 ≤ m.num (o + 8) 4)
      || decide (2 ^ 40 ≤ m.num (o + 12) 8) || m.num (o + 28) 4 != 0
  | 5 => decide (0x17 < m.num (o + 2) 1) || m.num (o + 3) 5 != 0
  | 10 => decide (47 < m.num o 1) || m.num (o + 2) 2 != 0
  | _ => false

/-- Check 0x20 of one section. -/
def Img.formBad (m : Img) (x : Sect) : Option CheckFail :=
  if x.typ = 1 then
    (if x.len % 16 != 0 || 0x200000 < x.len || x.size != 0 || x.cnt != 0 then some ⟨0x20, some x.idx, none⟩ else none)
  else if isBlock x.typ then
    (if x.size != 0 || x.cnt != 0 then some ⟨0x20, some x.idx, none⟩ else failBlk 0x20 (fun b => !b.ok) (m.blocksOf x))
  else if x.size != recLen x.typ || x.cnt * recLen x.typ != x.len then some ⟨0x20, some x.idx, none⟩
  else failRcd 0x20 (m.rcdBad x.typ) x.rcds

/- Records and registers (0x21 to 0x2A) --------------------------------------------------------------------------------------------- -/

/-- What a duplicate check compares of a record of type `t`, if it has one (check 0x21). -/
def Img.dupKey (m : Img) (t : Nat) (r : Rcd) : Option Nat :=
  match t with
  | 2 => some (m.num r.off 2)
  | 4 => some (m.num r.off 2)
  | 3 => some (m.num r.off 1)
  | 10 => some (m.num r.off 1)
  | _ => none

/-- An earlier record of the list has the same key. Of two records or sections that clash the later is reported, where R179 does
not say which (DESIGN CHOICE, log entry 135). -/
def hasEarlier (key : Rcd → Option Nat) (l : List Rcd) (r : Rcd) : Bool :=
  (key r).isSome && l.any fun q => decide (q.idx < r.idx) && key q == key r

/-- Check 0x22 of a channel. -/
def Img.routeBad (m : Img) (r : Rcd) : Bool :=
  let v := m.route r
  let lane := nf v 16 3
  let hops := nf v 20 4
  let src := nf v 0 4
  let dst := nf (m.bind r) 0 4
  nf v 31 1 == 0 || (lane != 0 && decide (lane < 4)) || (lane == 0 && (hops != 0 || dst != src))
    || (lane != 0 && (hops == 0 || dst != (if lane ≤ 5 then (src + hops) % 12 else (src + 12 - hops % 12) % 12)))

/-- Check 0x24 of a gate word (R124). -/
def gateBad (v : Nat) : Bool := nf v 31 1 == 1 && nf v 24 4 % 2 ^ nf v 20 2 != 0

/-- ADDR of a REG_DEFAULTS record. -/
def Img.rdAddr (m : Img) (r : Rcd) : Nat := m.num r.off 4
/-- The value of a REG_DEFAULTS record. -/
def Img.rdVal (m : Img) (r : Rcd) : Nat := m.num (r.off + 4) 4

/-- The last REG_DEFAULTS record for an address that `f` picks. -/
def Img.rdLast (m : Img) (f : Nat → Bool) : Option Rcd := (m.rcds 11).reverse.find? fun r => f (m.rdAddr r)

/-- What a register holds after REG_DEFAULTS, from its factory value. -/
def Img.rdWord (m : Img) (a : Nat) : Nat :=
  match m.rdLast (· == a) with
  | some r => m.rdVal r
  | none => (regReset a).toNat

/-- Check 0x25 (R23). -/
def Img.clockBad (m : Img) : Option CheckFail :=
  match m.rdLast (· == 0x40) with
  | some r => if m.rdVal r % 32 < 8 ∨ 16 < m.rdVal r % 32 then some ⟨0x25, some r.sec, some r.idx⟩ else none
  | none => none

/-- The mapped engine 0 to 7 whose spill window an address belongs to, by the address of its XWIN_BASE. -/
def windowOf (a : Nat) : Option Nat :=
  if 0x100000 ≤ a ∧ a < 0x1C0000 ∧ 0x1000 ≤ a % 0x10000 ∧ a % 0x10000 < 0x9000 ∧ (a % 0x1000 = 0x4C ∨ a % 0x1000 = 0x50)
  then some (a - a % 0x1000 + 0x4C) else none

/-- The window whose XWIN_BASE is at `a` breaks R140. -/
def Img.windowBad (m : Img) (a : Nat) : Bool :=
  let lo := m.rdWord a % 2 ^ 24 * 2 ^ 16
  let hi := m.rdWord (a + 4) % 2 ^ 24 * 2 ^ 16
  decide (hi ≤ lo) || !(decide (hi ≤ 0x40000) || (decide (0x100000000 ≤ lo) && decide (hi ≤ 0x10C000000))
    || (decide (0x1000000000 ≤ lo) && decide (hi ≤ 0x1800000000)))

/-- Check 0x26 at a REG_DEFAULTS record: the last that writes a bad window. -/
def Img.windowRcd (m : Img) (r : Rcd) : Bool :=
  match windowOf (m.rdAddr r) with
  | some a => m.rdLast (fun b => windowOf b == some a) == some r && m.windowBad a
  | none => false

/-- Check 0x27 of a TASKS record. -/
def Img.taskBad (m : Img) (r : Rcd) : Bool :=
  let pin := m.num (r.off + 6) 2
  let aff := m.num (r.off + 4) 2
  (match m.find 1 with
    | some x => decide (x.len / 16 ≤ m.num (r.off + 8) 4)
    | none => true)
    || aff == 0 || (nf pin 15 1 == 1 && nf aff (nf pin 8 4) 1 == 0)

/-- Check 0x27 of a QUEUE_GRANTS record. -/
def Img.grantBad (m : Img) (r : Rcd) : Bool := !(m.rcds 4).any fun q => m.num q.off 2 == m.num r.off 2

/-- Check 0x27, in section and record order. -/
def Img.tasksBad (m : Img) : Option CheckFail :=
  m.known.findSome? fun x =>
    if x.typ = 4 then failRcd 0x27 m.taskBad x.rcds else if x.typ = 5 then failRcd 0x27 m.grantBad x.rcds else none

/-- Where a TASKS record pins its task (R172). -/
def Img.pinOf (m : Img) (r : Rcd) : Option Nat := if nf (m.num (r.off + 6) 2) 15 1 = 1 then some (m.num (r.off + 6) 2) else none

/-- Check 0x28 at a TASKS record: the third pinned to one slot. -/
def Img.pinBad (m : Img) (r : Rcd) : Bool :=
  (m.pinOf r).isSome && decide (2 ≤ ((m.rcds 4).filter fun q => decide (q.idx < r.idx) && m.pinOf q == m.pinOf r).length)

/-- REG_DEFAULTS may not write address `a` (R175). -/
def rdForbidden (a : Nat) : Bool :=
  (decide (aCulm 0x8000 ≤ a) && decide (a < aCulm 0xA000))
    || (decide (0x100000 ≤ a) && decide (a < 0x1C0000) && decide (0x1000 ≤ a % 0x10000)
      && (decide (0x9000 ≤ a % 0x10000) || (decide (0x100 ≤ a % 0x1000) && decide (a % 0x1000 < 0x200))))

/-- The RW and WL bits of control address `a`. -/
def rdMask (a : Nat) : Nat := fieldMask ((regFields a).filter fun f => f.acc == .rw || f.acc == .wl)

/-- Check 0x29 of a REG_DEFAULTS record. -/
def Img.targetBad (m : Img) (r : Rcd) : Bool :=
  let a := m.rdAddr r
  rdForbidden a || rdMask a == 0 || outside (m.rdVal r) (rdMask a)

/-- The site of an address of the site table. -/
def siteOfAddr (a : Nat) : Option Nat := if 0x8000 ≤ a ∧ a < 0xA000 then some ((a - 0x8000) / 0x20) else none

/-- REGION_BASE and REGION_COUNT of site `i` after REG_DEFAULTS. -/
def Img.siteRange (m : Img) (i : Nat) : Nat × Nat :=
  let v := m.rdWord (aSite i 0xC)
  (nf v 0 14, nf v 16 15)

/-- Site `i` is enabled after REG_DEFAULTS. -/
def Img.siteOn (m : Img) (i : Nat) : Bool := nf (m.rdWord (aSite i 0x10)) 0 1 == 1

/-- The limits of TASKS and REGIONS (R16). -/
def Img.siteLimit (m : Img) (i : Nat) : Bool :=
  let t := m.rdWord (aSite i 8)
  decide (40960 < nf t 0 16 + nf t 16 16) || decide (16384 < (m.siteRange i).1 + (m.siteRange i).2)

/-- The last record that writes the entry of site `i`. -/
def Img.siteRcd (m : Img) (i : Nat) : Option Rcd := m.rdLast fun a => siteOfAddr a == some i

/-- Check 0x2A at a REG_DEFAULTS record: the last of an offending site, or the later of two that overlap. -/
def Img.siteBad (m : Img) (r : Rcd) : Bool :=
  match siteOfAddr (m.rdAddr r) with
  | none => false
  | some i => m.siteRcd i == some r
      && (m.siteLimit i || (m.siteOn i && (List.range 256).any fun j =>
        j != i && m.siteOn j && rangesMeet (m.siteRange i) (m.siteRange j)
          && ((m.siteRcd j).map fun q => decide (q.idx < r.idx)) == some true))

/- Units (0x2B to 0x2D) ------------------------------------------------------------------------------------------------------------- -/

/-- Check 0x2B of a block of type `t`. -/
def blockCapBad (t : Nat) (b : Blk) : Bool :=
  let q := blockRule t
  decide (q.1 ≤ b.inst) || b.wb != q.2.1 || decide (q.2.2 < b.start + b.cnt)

/-- A microinstruction fails a field check (R238). -/
def microBad (w : Nat) : Bool :=
  decide (2 ^ 67 ≤ w) || decide (5 < nf w 0 3) || nf w 20 3 == 7 || nf w 23 3 == 7 || nf w 39 3 == 7
    || (nf w 19 1 == 1 && nf w 46 1 == 1)

/-- A lane entry of a timing set with 128 × PERIOD = `p` fails a field check (R225). -/
def tsLaneBad (p w : Nat) : Bool :=
  let e1 := nf w 4 12
  let e2 := nf w 16 12
  let es := [e1, e2, nf w 28 12, nf w 40 12]
  let fmt := nf w 0 3
  decide (5 < fmt) || nf w 3 1 != 0 || decide (2 ^ 76 ≤ w) || es.any (fun e => decide (p < e)) || decide (p < nf w 52 12)
    || decide (p < nf w 52 12 + nf w 64 12) || es.any (fun e => e % 128 != e1 % 128)
    || ((fmt == 1 || fmt == 2 || fmt == 3) && (decide (e2 < e1 + 128) || decide (p + e1 < e2 + 128)))

/-- A timing set fails a field check (R225). -/
def tsetBad (w : Nat) : Bool :=
  let h := nf w 0 128
  decide (5 < nf h 0 3) || outside h 0x107
    || (List.range 8).any fun l => tsLaneBad (128 * 2 ^ nf h 0 3) (nf w (128 + 128 * l) 128)

/-- The named bits of a region descriptor (R306). -/
def rdescMask : Nat := fieldMask
  ([(0, 16), (16, 16), (32, 6), (40, 6), (47, 1), (48, 16), (64, 1), (65, 5), (70, 1), (71, 5), (76, 8), (84, 2), (86, 1), (88, 1),
    (96, 5)].map fun p => fRo p.1 p.2)

/-- A region descriptor fails a field check (R307). -/
def regionBad (w : Nat) : Bool :=
  outside w rdescMask || decide (32 < nf w 32 6) || decide (32 < nf w 40 6) || (nf w 47 1 == 1 && decide (40959 < nf w 48 16))

/-- A word of a block of type `t` fails a field check; a scramble entry has none (R242). -/
def contentBad (t w : Nat) : Bool :=
  match t with
  | 6 => microBad w
  | 8 => tsetBad w
  | 9 => regionBad w
  | _ => false

/-- The block sections, each with its blocks. -/
def Img.blockSects (m : Img) : List (Nat × List Blk) := (m.known.filter fun x => isBlock x.typ).map fun x => (x.typ, m.blocksOf x)

/-- Checks 0x20 to 0x2D. -/
def Img.bodyChecks (m : Img) : List (Unit → Option CheckFail) :=
  [ fun _ => m.known.findSome? m.formBad,
    fun _ => m.known.findSome? fun x => failRcd 0x21 (hasEarlier (m.dupKey x.typ) x.rcds) x.rcds,
    fun _ => failRcd 0x22 m.routeBad (m.rcds 2),
    fun _ => failRcd 0x23 (hasEarlier (fun r => some (nf (m.bind r) 0 7 + nf (m.bind r) 8 8 * 128)) (m.rcds 2)) (m.rcds 2),
    fun _ => failRcd 0x24 (fun r => gateBad (m.num (r.off + 4) 4)) (m.rcds 3),
    fun _ => m.clockBad,
    fun _ => failRcd 0x26 m.windowRcd (m.rcds 11),
    fun _ => m.tasksBad,
    fun _ => failRcd 0x28 m.pinBad (m.rcds 4),
    fun _ => failRcd 0x29 m.targetBad (m.rcds 11),
    fun _ => failRcd 0x2A m.siteBad (m.rcds 11),
    fun _ => m.blockSects.findSome? fun p => failBlk 0x2B (blockCapBad p.1) p.2,
    fun _ => failRcd 0x2C (fun r => !ownerCode (m.num (r.off + 1) 1)) (m.rcds 10),
    fun _ => m.blockSects.findSome? fun p => failBlk 0x2D (fun b => (m.blockWords b).any fun w => contentBad p.1 w.2) p.2 ]

/-- The first check of R179 that the image fails under firmware version `fw` and key store `v`; none: it passes. -/
def Img.check (m : Img) (fw : Nat) (v : NvSt) : Option CheckFail :=
  (m.headChecks fw ++ m.trustChecks v ++ m.bodyChecks).findSome? fun f => f ()

/-- NVC.CHECK_RESULT and CHECK_RECORD of an attempt (R178, R179); SECTION and INDEX where no check concerns one are free
values. -/
def State.checkResult (s : State) (r : Option CheckFail) : State :=
  let code := (r.map (·.code)).getD 0
  let sec := (r.bind (·.sec)).getD (s.free.toNat % 256)
  let idx := (r.bind (·.idx)).getD (s.free.toNat / 256)
  (s.used.wr (aNvc 0x108) (BitVec.ofNat 32 (code + sec % 256 * 2 ^ 8 + 2 ^ 31))).wr (aNvc 0x10C) (BitVec.ofNat 32 idx)

end Sys2Proof.Machine
end

