-- ==== Sys2Proof/Machine/Activate.lean ====
section
/-!
DEFINITION. Activation of an image (R23, R163, R181, R184, R444, R475, R477, R517) and the slots of the NV flash (R445 to R447).
-/

namespace Sys2Proof.Machine

/- Slots (R445 to R447) ----------------------------------------------------------------------------------------------- -/

/-- The key of byte `o` of slot `k` in the programmed flash. -/
def flashKey (k o : Nat) : Nat := imgMax * k + o

/-- What a byte of slot `k` was programmed to since its last erase. -/
def State.programmed (s : State) (k o : Nat) : Option Byte := spGet (fun _ => none) s.flash (flashKey k o)

/-- A byte of slot `k`; one not programmed is a free value. -/
def State.slotByte (s : State) (k o : Nat) : Byte := (s.programmed k o).getD (Config.erased k o)

/-- The image in slot `k`. -/
def State.slotImg (s : State) (k : Nat) : Img := ⟨imgMax, s.slotByte k⟩

/-- An image in a host buffer; bytes the buffer does not have are absent. -/
def bufImg (l : List Byte) : Img := ⟨l.length, fun i => l.getD i 0⟩

/-- The state code of slot `k` (R446). -/
def NvSt.slot (v : NvSt) (k : Nat) : Nat := if k = 0 then v.stA else v.stB

/-- NVC.SLOTS shows the boot record and the active slot `a` (R446). -/
def State.showSlots (s : State) (a : Nat) : State :=
  s.wr (aNvc 0) (BitVec.ofNat 32 (s.nv.stA % 4 + s.nv.stB % 4 * 2 ^ 2 + a % 4 * 2 ^ 4 + s.nv.boot % 4 * 2 ^ 6))

/-- NVC.SLOTS.ACTIVE. -/
def State.activeSlot (s : State) : Nat := s.rf (aNvc 0) 4 2

/-- Slot `k` comes into a state (R446). -/
def State.setSlot (s : State) (k st : Nat) : State :=
  (s.nvPut (if k = 0 then { s.nv with stA := st } else { s.nv with stB := st })).showSlots s.activeSlot

/-- The boot slot becomes `b`; 3: none (R447). -/
def State.setBoot (s : State) (b : Nat) : State := (s.nvPut { s.nv with boot := b }).showSlots s.activeSlot

/-- An erase or a staging of slot `k` takes it from the boot record (R447). -/
def State.unboot (s : State) (k : Nat) : State := if s.nv.boot = k then s.setBoot 3 else s

/-- An activation of slot `k` was refused (R446, R447). -/
def State.slotRefused (s : State) (k : Nat) : State :=
  let s1 := s.setSlot k 3
  if s1.nv.boot = k then s1.setBoot (if s1.nv.slot (1 - k) = 2 then 1 - k else 3) else s1

/- The old image stops (R444 steps 2 to 4) ---------------------------------------------------------------------------------- -/

/-- No task is resident, and nothing of one is under way. -/
def State.emptyEngines (s : State) : State :=
  let s1 := { s with ths := [], mtxq := [], xfers := [], pageOuts := [], granted := [], roundStart := false, evq := [] }
  (List.range 108).foldl (fun (t : State) e => (t.clrB (aEng e 0) 2).setEng e { t.eng e with braced := none }) s1

/-- Step 2 of R444: every task is killed, DMA channels are aborted, stores drain, Threshers empty their queues; what they
cannot take is discarded, resets of regions that are still to come too: every region is IDLE after an activation (R308). -/
def State.stopImage (s : State) : State :=
  let s1 := (s.tasks.map (·.1)).foldl State.killTask s
  let s2 := ((List.range 8).foldl State.dmaEnd s1).drainStores.thrsQuiet.granaryQuiet
  let s3 := (List.range 4).foldl (fun (t : State) n => t.setThr n { t.thrs n with q0 := [], q1 := [], assist := [], resets := [], walk := none, toFree := [], freeing := false, job := none }) s2
  s3.emptyEngines

/-- A register with every field whose reset is "image" at its factory value (R443). -/
def factoryWord (a : Nat) (v : W32) : W32 :=
  (regFields a).foldl (fun acc f => if f.img then putField acc f.lo f.w f.rst else acc) v

/-- Steps 3 and 4 of R444: fields return to their factory values, WL fields are unlocked, tasks and contexts are gone; the contacts
follow their masks (R483). -/
def State.toFactory (s : State) : State :=
  let s1 := s.regs.foldl (fun (t : State) p => t.wr p.1 (factoryWord p.1 p.2)) s
  let s2 := (List.range 108).foldl (fun (t : State) e => t.clrB (aEng e 0) 0) s1
  (({ s2 with tasks := [], grants := [], image := none, culmStart := none, recPois := []
              bankPois := s2.bankPois.filter fun p => decide (p.1 < ctxWord0) }.zeroFill (ctxKey 0) (512 * 40960)).wfB 8 2 1 0
    |>.showSlots 3).pinsUpdate

/- Placement (R181) ---------------------------------------------------------------------------------------------------------- -/

/-- Step 1: ECLK_STEP of the image (R23). -/
def State.placeClock (s : State) (m : Img) : State := s.wf 0x40 16 5 (m.rdWord 0x40 % 32)

/-- Step 2: the program store, every word of it (R63, R65, R517). -/
def State.placeProgram (s : State) (m : Img) : State :=
  let s1 := { s with prog := [], progOn := true, bankPois := s.bankPois.filter fun p => decide (p.1 < progWord0) || decide (ctxWord0 ≤ p.1) }
  match m.find 1 with
  | none => s1
  | some x => (List.range (x.len / 16)).foldl (fun (t : State) n =>
      { t with prog := spSet (fun _ => faultWord) t.prog n (BitVec.ofNat 128 (m.num (x.off + 16 * n) 16)) }) s1

/-- Step 3: channel allocations (R170). -/
def State.placeChannels (s : State) (m : Img) : State :=
  (m.rcds 2).foldl (fun (t : State) r =>
    (t.wr (aCulm (0x8000 + 8 * m.num r.off 2)) (BitVec.ofNat 32 (m.route r))).wr
      (aCulm (0x8004 + 8 * m.num r.off 2)) (BitVec.ofNat 32 (m.bind r))) s

/-- Step 4: gate entries in every engine (R171). -/
def State.placeGates (s : State) (m : Img) : State :=
  (m.rcds 3).foldl (fun (t : State) r => (List.range 108).foldl (fun (u : State) e =>
    u.wr (aEng e (0x100 + 4 * m.num r.off 1)) (BitVec.ofNat 32 (m.num (r.off + 4) 4))) t) s

/-- Step 5: bank and DRAM contents (R176); what is written has valid check bits (R328, R350). -/
def State.placeData (s : State) (m : Img) : State :=
  let s1 := (m.blocks 12).foldl (fun (t : State) b =>
    (bankWords b.inst (8 * b.start) (8 * b.cnt)).foldl (fun (u : State) k => u.setWordPois k false)
      (t.setByteList (bankKey b.inst (8 * b.start)) (m.bytes b.off (8 * b.cnt)))) s
  (m.blocks 13).foldl (fun (t : State) b => t.dramFill (64 * b.start) (m.bytes b.off (64 * b.cnt))) s1

/-- The words of the blocks of a type, each with its instance. -/
def Img.unitWords (m : Img) (t : Nat) : List (Nat × Nat × Nat) :=
  (m.blocks t).flatMap fun b => (m.blockWords b).map fun w => (b.inst, w)

/-- Step 6: the unit stores, from their factory contents (R517), and every region IDLE (R308). -/
def State.placeUnits (s : State) (m : Img) : State :=
  { s with
    pxprog := (m.unitWords 6).foldl (fun l w => spSet (fun _ => 0) l (4096 * w.1 + w.2.1) (BitVec.ofNat 128 w.2.2)) []
    scr := (m.unitWords 7).foldl (fun l w => spSet scrIdent l (65536 * w.1 + w.2.1) (BitVec.ofNat 32 w.2.2)) []
    tsets := (m.unitWords 8).foldl (fun l w => spSet (fun _ => 0) l (64 * w.1 + w.2.1) (BitVec.ofNat 1152 w.2.2)) []
    rdesc := (m.unitWords 9).foldl (fun l w => spSet (fun _ => 0) l (4096 * w.1 + w.2.1) (BitVec.ofNat 128 w.2.2)) []
    regions := [] }

/-- Step 7: banks go to their owners (R174). -/
def State.placeOwners (s : State) (m : Img) : State :=
  (m.rcds 10).foldl (fun (t : State) r => t.wf (aBnk (m.num r.off 1) 0) 0 8 (m.num (r.off + 1) 1)) s

/-- The address that a REG_DEFAULTS record writes: an engine block names a mapped engine (R175); none: unplaced. -/
def State.rdTarget (s : State) (a : Nat) : Option Nat :=
  if 0x100000 ≤ a ∧ a < 0x1C0000 ∧ 0x1000 ≤ a % 0x10000 then
    (s.physOf ((a - 0x100000) / 0x10000) (a % 0x10000 / 0x1000 - 1)).map fun k =>
      aEng (9 * ((a - 0x100000) / 0x10000) + k) (a % 0x1000)
  else some a

/-- A REG_DEFAULTS write: as the management controller writes, but the site table takes it without the refusals of R18
and R19, and a bank's new owner comes in at once. -/
def State.placeReg (s : State) (a : Nat) (v : W32) : State :=
  if 0x8000 ≤ a ∧ a < 0xA000 then s.plainWrite a v
  else
    let s1 := s.unitWrite .mgmt a v
    if 0x80000 ≤ a ∧ a < 0x8C000 ∧ a % 0x400 = 0 then s1.handover ((a - 0x80000) / 0x400) else s1

/-- Step 8: REG_DEFAULTS in record order; events they raise find no task. -/
def State.placeRegs (s : State) (m : Img) : State :=
  { (m.rcds 11).foldl (fun (t : State) r =>
      match t.rdTarget (m.rdAddr r) with
      | some a => t.placeReg a (BitVec.ofNat 32 (m.rdVal r))
      | none => t) s with evq := [] }

/-- The context that activation writes (R184): zero but for PC, NPC, RING, XSP and TASK_ID. -/
def newContext (id pc ring xsp : Nat) : List W64 :=
  (List.range 64).map fun i =>
    if i = 58 then BitVec.ofNat 64 (pc % 2 ^ 17 + (pc + 1) % 2 ^ 17 * 2 ^ 32)
    else if i = 59 then BitVec.ofNat 64 (ring * 2 ^ 8)
    else if i = 62 then BitVec.ofNat 64 xsp
    else if i = 63 then BitVec.ofNat 64 (id * 2 ^ 32)
    else 0

/-- The state record that activation writes (R184); WAIT_OBJ of a task that starts READY, of which R184 says nothing, is 0
(DESIGN CHOICE, log entry 136). -/
def newTask (qinit prio affinity pin mask obj : Nat) : TaskRec :=
  let t := { TaskRec.absent with
    prio := prio, eprio := prio, affinity := BitVec.ofNat 12 affinity, quantum := qinit, aRun := qinit + 1
    state := if mask = 0 then TState.ready else .asleep
    mask := BitVec.ofNat 32 mask, obj := if mask = 0 then 0 else BitVec.ofNat 32 obj }
  if nf pin 15 1 = 1 then { t with pinned := true, sheaf := nf pin 8 4, engine := nf pin 4 3, slot := nf pin 0 3 } else t

/-- A task of TASKS is created (R172, R184). -/
def State.placeTask (s : State) (m : Img) (r : Rcd) : State :=
  let o := r.off
  let id := m.num o 2
  let s1 := s.setWords (ctxKey id) (newContext id (m.num (o + 8) 4) (m.num (o + 3) 1) (m.num (o + 12) 8))
  s1.setTask id (newTask (s.rf (aGrn 0) 16 6) (m.num (o + 2) 1) (m.num (o + 4) 2) (m.num (o + 6) 2) (m.num (o + 20) 4)
    (m.num (o + 24) 4))

/-- Tasks pinned to an unplaced position are LOST (R475). -/
def State.losePinned (s : State) : State :=
  ((s.tasks.filter fun p => p.2.pinned && (s.physOf p.2.sheaf p.2.engine).isNone).map (·.1)).foldl State.loseTask s

/-- Step 9: tasks and queue grants (R173, R184). -/
def State.placeTasks (s : State) (m : Img) : State :=
  let s1 := (m.rcds 4).foldl (fun (t : State) r => t.placeTask m r) s
  let g := (m.rcds 5).foldl (fun l r =>
    let id := m.num r.off 2
    spSet (fun _ => (0 : BitVec 24)) l id
      (spGet (fun _ => (0 : BitVec 24)) l id ||| BitVec.ofNat 24 (2 ^ m.num (r.off + 2) 1))) []
  { s1 with grants := g }.losePinned

/-- Step 11: the Culm is empty and its frames start, and GRN.TIME counts from 0 (R151, R163, R185). R151 does not give the phase of
NCLK against ECLK: the model takes the end of the activation as an edge of NCLK (DESIGN CHOICE, log entry 116). -/
def State.startCulm (s : State) : State :=
  { s with
    chans := [], flights := [], culmStart := some s.eclk, culmDone := 0
    regs := s.regs.filter fun p => !(p.1 == aGrn 0x14 || p.1 == aCulm 0x14 || p.1 == aCulm 0x18 || p.1 == aCulm 4
             || (aCulm 0x4000 ≤ p.1 && p.1 < aCulm 0x5000) || (aCulm 0x6000 ≤ p.1 && p.1 < aCulm 0x7000)) }

/-- Steps 10 and 12: WL fields are locked, the mapped engines run, and the device reports the image (`a`: slot, or 2 for
host memory). -/
def State.imageOn (s : State) (m : Img) (a : Nat) : State :=
  let s1 := (List.range 96).foldl (fun (t : State) i =>
    match t.physOf (i / 8) (i % 8) with
    | some k => t.setB (aEng (9 * (i / 8) + k) 0) 0
    | none => t) s
  { s1.showSlots a with image := some (m.bytes 0x30 16, m.bytes 0x40 64) }.wfB 8 2 1 1

/-- Placement, after the remap of candidates that wait for one (R181, R477). -/
def State.place (s : State) (m : Img) (a : Nat) : State :=
  let s1 := (List.range 108).foldl State.remap (s.placeClock m)
  let s2 := ((((s1.placeProgram m).placeChannels m).placeGates m).placeData m).placeUnits m
  ((((s2.placeOwners m).placeRegs m).placeTasks m).startCulm).imageOn m a

/- Activation (R444, R416) ----------------------------------------------------------------------------------------------------- -/

/-- The old image, if one is active, has stopped, and every field stands as step 3 of R444 leaves it. -/
def State.clearImage (s : State) : State := (if s.bitB 8 2 then s.stopImage else s).toFactory

/-- Activation of an image that a second reading finds as `again` (none: that reading failed): the state after it, and
whether the image is active. `a`: slot, or 2 for host memory. -/
def State.activate (s : State) (m : Img) (again : Option Img) (a : Nat) : State × Bool :=
  match m.check Config.fwVersion.toNat s.nv with
  | some f => (s.checkResult (some f), false)
  | none =>
    let s1 := (s.checkResult none).clearImage
    match again with
    | none => (s1, false)
    | some m2 =>
      if m2.digest = m.digest then (s1.place m2 a, true) else (s1.checkResult (some ⟨0x10, none, none⟩), false)

/-- Activation of slot `k` (R446, R447). -/
def State.activateSlot (s : State) (k : Nat) : State × Bool :=
  match s.activate (s.slotImg k) (some (s.slotImg k)) k with
  | (s1, true) => (s1.setSlot k 2, true)
  | (s1, false) => (s1.slotRefused k, false)

/- The start (R435 to R438, R449, R471, R474, R475) ------------------------------------------------------------------------------ -/

/-- A repair record from its 8 bytes (R452). -/
def repairOf (v : W64) : Repair :=
  ⟨v.toNat % 2 ^ 8, v.toNat / 2 ^ 8 % 2 ^ 8, v.toNat / 2 ^ 16 % 2 ^ 16, v.toNat / 2 ^ 32⟩

/-- The 8 bytes of a repair record. -/
def Repair.bytes (r : Repair) : List Byte := natLe 1 r.kind ++ natLe 1 r.flags ++ natLe 2 r.inst ++ natLe 4 r.row

/-- The factory records of the repair map. -/
def factoryMap : List Repair := Config.factoryRepairs.map repairOf

/-- Every record of the repair map, in the order of R452. -/
def State.repairMap (s : State) : List Repair := factoryMap ++ s.nv.repairs

/-- A record of a row repair is applied at the start (R347): ORIGIN 0 for the factory's, 1 for the NV map's, 3 for a spare
that cannot be used. -/
def State.applyRepair (s : State) (r : Repair) : State :=
  let origin := if r.flags / 4 % 2 = 1 then 3 else r.flags % 2
  match r.kind with
  | 1 => if r.inst < 48 then
      (match s.freeSpare r.inst with
      | some i => s.useSpare r.inst i r.row origin
      | none => s)
    else s
  | 2 => if r.inst < 12 ∧ s.hasOther r.inst = true then s.useOther r.inst else s
  | 3 => if s.hasOther 12 then s.useOther 12 else s
  | 4 => if s.hasOther 13 then s.useOther 13 else s
  | _ => s

/-- The physical slots of Sheaf `sh` that KIND 6 records name. -/
def State.outSlots (s : State) (sh : Nat) : List Nat :=
  (List.range 9).filter fun k => s.repairMap.any fun r => r.kind == 6 && r.inst == 16 * sh + k

/-- MAP and SPARE.OUT of Sheaf `sh` (R475). A map that uses the spare slot sets SPARE_LOW at this start too, as R479 does not say
that only a remap does (DEDUCED, log entry 142). -/
def State.mapSheaf (s : State) (sh : Nat) : State :=
  let out := s.outSlots sh
  let good := (List.range 9).filter fun k => !out.contains k
  let word := ((List.range 8).map fun p => good.getD p 0xF * 2 ^ (4 * p)).foldl (· + ·) 0
  let s1 := (s.wr (aShf sh 0) (BitVec.ofNat 32 word)).wr (aShf sh 4) (BitVec.ofNat 32 (maskOf out))
  if (good.take 8).contains 8 then s1.spareLow else s1

/-- NVC shows the key store and the policy (R178, R415). -/
def State.showKeys (s : State) : State :=
  let present := maskOf ((List.range 4).filter fun k => (s.nv.keys.toList.getD k none).isSome)
  (s.wr (aNvc 0x104) (BitVec.ofNat 32 (present + s.nv.revoked.toNat * 2 ^ 4))).wr (aNvc 0x100)
    (BitVec.ofNat 32 s.nv.require.toNat)

/-- The start uses the older copy of a service record (R449). -/
def NvSt.fall (v old : NvSt) : ServiceRec → NvSt
  | .boot => { v with stA := old.stA, stB := old.stB, boot := old.boot }
  | .keys => { v with keys := old.keys, revoked := old.revoked }
  | .policy => { v with require := old.require, lock := old.lock }
  | .repairs => { v with repairs := old.repairs }
  | .life => { v with used := old.used, frac := old.frac, step := old.step }

/-- Of each service record the valid copy with the higher sequence number counts; a copy that fails its CRC sets SERVICE_FALLBACK
(R449). -/
def State.loadService (s : State) (bad : List (ServiceRec × Bool)) : State :=
  let v := bad.foldl (fun (v : NvSt) p => if p.2 then v.fall s.nvOld p.1 else v) s.nv
  let s1 := { s with nv := v }
  if bad.isEmpty then s1 else s1.setB (aNvc 8) 2

/-- What a power loss cut off: bytes of a slot whose erase it ended, which keeps its recorded state, and the end of the newest history
entry (R449, R451; log 153). -/
def State.cutOff (s : State) (o : BootObs) : State :=
  if s.rf 0x60 0 4 ≠ 0 then s
  else
    let s1 := { s with flash := s.flash.filter fun p =>
      !(o.cutErase.any fun c => p.1 / imgMax == c.1.val && decide (p.1 % imgMax < c.2.toNat)) }
    match o.cutEntry with
    | none => s1
    | some n => { s1 with nv := { s1.nv with hist := match s1.nv.hist with
        | e :: l => e.take n.toNat :: l
        | [] => [] } }

/-- Step 3 of the start: service records, identity, life record, repairs and the engine map. -/
def State.loadRecords (s0 : State) (o : BootObs) : State :=
  let s := s0.loadService o.badCopies
  let s1 := (s.wr 8 Config.fwVersion)
  let s2 := (List.range 4).foldl (fun (t : State) i => t.wr (0x10 + 4 * i) (Config.serial (Fin.ofNat 4 i))) s1
  let s3 := ((s2.showSlots 3).showKeys.wf (aNvc 4) 0 13 s.nv.repairs.length).histCount
  let s4 := (s3.wf (aHlt 0x610) 0 16 s.nv.used).wf (aHlt 0x614) 0 27 s.nv.frac
  (List.range 12).foldl State.mapSheaf (s.repairMap.foldl State.applyRepair s4)

/-- A recorded DRAM row that no hard repair has been applied to (R352, R452). -/
def Repair.due (r : Repair) : Bool := r.kind == 5 && r.flags / 2 % 2 == 0

/-- The stack can no longer repair the row. -/
def wornRow (worn : List (Fin 16 × BitVec 21)) (r : Repair) : Bool := worn.any fun w => w.1.val == r.inst && w.2.toNat == r.row

/-- Step 5 of the start: hard repair of every recorded row; of those that the stack can no longer repair PPR_EXHAUSTED is set
(R352, R435). -/
def State.hardRepair (s : State) (worn : List (Fin 16 × BitVec 21)) : State :=
  let ok := fun (r : Repair) => r.due && !wornRow worn r
  let s1 := s.nvPut { s.nv with repairs := s.nv.repairs.map fun r => if ok r then { r with flags := r.flags + 2 } else r }
  let s2 := (List.range 16).foldl (fun (t : State) k =>
    t.wf (aDrcCh k 0x10) 16 16 (s.nv.repairs.filter fun r => ok r && r.inst == k).length) s1
  if s.nv.repairs.any fun r => r.due && wornRow worn r then (s2.setB (aDrc 0xC) 3).spareLow else s2

/-- The grid value nearest to a VDD_CORE in mV (R471). -/
def gridMv (mv : Nat) : Nat := min 960 (max 900 ((mv + 2) / 5 * 5))

/-- Step 4 of the start: the first voltage request, and the way to the step of the life record (R471). -/
def State.firstRequest (s : State) (o : BootObs) : State :=
  ({ s with avs := { s.avs with goal := some s.nv.step } }.avsSend .readVoltage).avsWrite (gridMv o.vddCore) 0 o.avs

/-- BOOT and SLOT of GLB.RESET_CAUSE. -/
def State.bootCause (s : State) (boot slot : Nat) : State := (s.wf 0x60 8 2 boot).wf 0x60 12 2 slot

/-- Step 6 of the start: the boot image (R438). -/
def State.bootImage (s : State) : State :=
  let b := s.nv.boot
  if 2 ≤ b then s.bootCause 0 3
  else match s.activateSlot b with
    | (s1, true) => s1.bootCause 1 b
    | (s1, false) =>
      let s2 := s1.setB (aNvc 8) 3
      if s2.nv.boot = 1 - b then
        match s2.activateSlot (1 - b) with
        | (s3, true) => s3.bootCause 2 (1 - b)
        | (s3, false) => s3.bootCause 3 3
      else s2.bootCause 3 3

/-- The start sequence (R435, R436), once a full reset has begun; a firmware digest that fails stops it. -/
def State.startUp (s : State) (o : BootObs) : State :=
  if s.power ≠ .entry then s
  else if !o.firmwareOk then { s with power := .dead }.hardFault
  else
    let s1 := ((({ s with power := .up }.wf (aCmd 0x1C) 0 7 s.smbAddr).cutOff o).loadRecords o).firstRequest o
    (s1.hardRepair o.worn).bootImage.wfB 8 0 1 1

/-- START_SEQUENCE (R435). -/
def execStartSequence (o : BootObs) (s : State) : Host.Outcome State Fault Refusal := .next (s.startUp o)

/- Full resets (R439 to R442) ------------------------------------------------------------------------------------------------------ -/

/-- A DRAM address of the memory map, by its key. -/
def inDram (k : Nat) : Bool := decide (0x1000000000 ≤ k) && decide (k < 0x1800000000)

/-- DRAM with the writes that a controller has acknowledged, which a reset keeps (R362, R440). -/
def State.dramKept (s : State) : State :=
  s.dramq.foldl (fun t p => match p.2.data with
    | some l => (t.dramDo (p.2.addr - 0x1000000000) p.2.size (some l) .ok).1
    | none => t) s

/-- A full reset of a CAUSE (0 power-on, 1 RESET_N, 2 device reset, 3 presence), after a history entry or not (R439 to R441,
R450): NV flash is kept, and DRAM unless power was lost; every other register takes its die value. -/
def State.fullReset (s : State) (cause : Nat) (hist : Bool) : State :=
  let keep := cause != 0
  { State.reset with
    pending := s.pending, fresh := s.fresh, nv := s.nv, nvOld := s.nvOld, flash := s.flash, hostMem := s.hostMem, msixSent := s.msixSent
    perst := s.perst, straps := s.straps
    mem := if keep then s.dramKept.mem.filter fun p => inDram p.1 else []
    poisoned := if keep then s.dramKept.poisoned else [] }.wr 0x60 (BitVec.ofNat 32 (cause % 4 + hist.toNat * 2 ^ 4 + 3 * 2 ^ 12))

/-- Power-good rises, in a card whose straps are a free value (R426, R433, R435). -/
def State.powerRise (s : State) : State :=
  if s.power = .off then { s with power := .entry, straps := s.free.setWidth 2 }.used else s

/-- POWER_GOOD (R433). -/
def execPowerGood (s : State) : Host.Outcome State Fault Refusal := .next s.powerRise

/-- Power-good falls (R432, R433, R439). -/
def State.powerFall (s : State) : State := { s.fullReset 0 false with power := .off }

/-- POWER_GOOD_FALL (R433). -/
def execPowerGoodFall (s : State) : Host.Outcome State Fault Refusal := .next s.powerFall

/-- A reset while power is good (R439). -/
def State.poweredReset (s : State) (cause : Nat) (hist : Bool) : State :=
  if s.power = .off then s else s.fullReset cause hist

/-- RESET_N (R439). -/
def execResetN (s : State) : Host.Outcome State Fault Refusal := .next (s.poweredReset 1 false)

/-- PRESENCE_RESET (R439). -/
def execPresenceReset (s : State) : Host.Outcome State Fault Refusal := .next (s.poweredReset 3 false)

/-- The delay of an accepted DEVICE_RESET ends (R442). -/
def State.resetDelayEnd (s : State) : State :=
  if s.bitB 8 3 && !s.inprog.any (fun c => c.op == 0x91) then s.poweredReset 2 true else s

/-- RESET_DELAY_END (R442). -/
def execResetDelayEnd (s : State) : Host.Outcome State Fault Refusal := .next s.resetDelayEnd

end Sys2Proof.Machine
end

