-- ==== Sys2Proof/Machine/HostCmd.lean ====
section
/-!
DEFINITION. Host commands of groups 0x0 to 0x3 (R410 to R418): identification and queue control, images and keys, registers,
memory and results.
-/

namespace Sys2Proof.Machine

/- Checks (R399, R403) ---------------------------------------------------------------------------------------------------- -/

/-- The first status of a list that is not OK; 0: all are. -/
def firstOf : List Nat → Nat
  | [] => 0
  | a :: l => if a = 0 then firstOf l else a

/-- Status `st` if the condition holds, else OK. -/
def stIf (c : Bool) (st : Nat) : Nat := if c then st else 0

/-- DPTR and DLEN as parameters. -/
def bufFields : List (Nat × Nat × Nat) := [(8, 0, 64), (0x10, 0, 32)]

/-- BAD_FIELD unless DPTR and DLEN obey R399 and DLEN is at least `n`. -/
def bufStatus (p : Packet) (n : Nat) : Nat := stIf (!dataOk p dlenMax || decide (pdlen p < n)) 3

/-- BAD_FIELD for a control address with bit 31 set, MISALIGNED for one that is no multiple of 4 (R403, R417). -/
def addrStatus (a : Nat) : Nat := if 2 ^ 31 ≤ a then 3 else if a % 4 ≠ 0 then 4 else 0

/-- The bytes of the host buffer; bytes the host does not have read as 0. -/
def hostBytes (l : List Byte) (n : Nat) : List Byte := (List.range n).map fun i => l.getD i 0

/-- The bytes that a transfer of DLEN bytes moves before the host's memory fails it, if it does. -/
def hostMoves (p : Packet) : Nat :=
  match p.hostErr with
  | some k => min k (pdlen p)
  | none => pdlen p

/-- A transfer from the host has failed. -/
def hostFails (p : Packet) : Bool := decide (hostMoves p < pdlen p)

/- Group 0x0 (R410 to R413) ---------------------------------------------------------------------------------------------------- -/

/-- The opcodes of the opcode tables. -/
def opcodes : List Nat :=
  [0x00, 0x01, 0x02, 0x03, 0x04, 0x10, 0x11, 0x12, 0x13, 0x14, 0x15, 0x16, 0x17, 0x18, 0x20, 0x21, 0x22, 0x30, 0x31, 0x32,
   0x33, 0x40, 0x41, 0x42, 0x43, 0x44, 0x45, 0x46] ++
  [0x50, 0x51, 0x52, 0x53, 0x54, 0x55, 0x60, 0x61, 0x62, 0x63, 0x70, 0x71, 0x72, 0x73, 0x80, 0x81, 0x82, 0x90, 0x91, 0x92]

/-- A command whose opcode is not in the tables (R402). -/
def State.badOpcode (s : State) (c : Cur) : State := s.complete c 1 0 0

/-- BAD_OPCODE (R402); an opcode of the tables is no such command. -/
def execBadOpcode (op : BitVec 8) (p : Packet) (s : State) : Host.Outcome State Fault Refusal :=
  .next (if opcodes.contains op.toNat then s else s.hostCmd op.toNat p State.badOpcode)

/-- The start of NOP (R410). -/
def runNop (p : Packet) (s : State) (c : Cur) : State :=
  guarded (s.precheck 0 p 0 0) (fun s c => s.complete c 0 0 0) s c

/-- NOP (R410). -/
def execNop (p : Packet) (s : State) : Host.Outcome State Fault Refusal := .next (s.hostCmd 0x00 p (runNop p))

/-- The code of the identity page for a slot. -/
def slotByteCode (k lim : Nat) : Nat := if k ≤ lim then k else 0xFF

/-- The identity page (R411). -/
def State.identity (s : State) : List Byte :=
  let im := s.image.getD (List.replicate 16 0, List.replicate 64 0)
  natLe 4 (s.rd 0).toNat ++ natLe 4 (s.rd 4).toNat ++ natLe 4 (s.rd 8).toNat ++ natLe 4 (s.rdB 4).toNat
    ++ ((List.range 4).flatMap fun i => natLe 4 (s.rd (0x10 + 4 * i)).toNat)
    ++ natLe 1 (slotByteCode s.activeSlot 2) ++ natLe 1 (slotByteCode s.nv.boot 1) ++ natLe 1 s.nv.stA ++ natLe 1 s.nv.stB
    ++ natLe 2 (Config.factory 2 0).toNat ++ natLe 2 0x9656 ++ List.replicate 8 0 ++ im.1 ++ im.2
    ++ natLe 4 (s.rf (aHlt 0x610) 0 16) ++ natLe 4 (s.rd (aNvc 0x104)).toNat ++ natLe 4 (s.rd (aNvc 0x100)).toNat
    ++ List.replicate 116 0

/-- The start of IDENTIFY (R410, R411). -/
def runIdentify (p : Packet) (s : State) (c : Cur) : State :=
  guarded (firstOf [s.precheck 1 p 12 (namedBits bufFields), bufStatus p 256])
    (fun s c => s.toBuffer c s.identity (s.rd 8).toNat 0) s c

/-- IDENTIFY (R410). -/
def execIdentify (p : Packet) (s : State) : Host.Outcome State Fault Refusal := .next (s.hostCmd 0x01 p (runIdentify p))

/-- The waits that ABORT ends (R412). -/
def Wait.abortable : Wait → Bool
  | .notice _ => true
  | .release => true
  | .sites _ => true
  | _ => false

/-- ABORT ends the wait of the command of queue `q` with tag `tag` (R410, R412). -/
def State.abortCmd (s : State) (c : Cur) (q tag : Nat) : State :=
  match s.inprog.find? fun x => x.pkt.q.val == q && x.pkt.tag.toNat == tag && x.id != c.id with
  | some x => if x.wait.abortable then (s.complete x 0xA 0 0).complete c 0 1 0 else s.complete c 0 0 0
  | none => s.complete c 0 0 0

/-- The start of ABORT. -/
def runAbort (p : Packet) (s : State) (c : Cur) : State :=
  guarded (s.precheck 2 p 4 (namedBits [(8, 0, 4), (8, 16, 16)])) (fun s c => s.abortCmd c (pfld p 8 0 4) (pfld p 8 16 16)) s c

/-- ABORT (R410, R412). -/
def execAbort (p : Packet) (s : State) : Host.Outcome State Fault Refusal := .next (s.hostCmd 0x02 p (runAbort p))

/-- The start of FENCE. -/
def runFence (p : Packet) (s : State) (c : Cur) : State :=
  guarded (s.precheck 3 p 0 0) (fun s c => s.complete c 0 0 0) s c

/-- FENCE (R407, R410). -/
def execFence (p : Packet) (s : State) : Host.Outcome State Fault Refusal := .next (s.hostCmd 0x03 p (runFence p))

/-- A command waits for a notice. -/
def Wait.isNotice : Wait → Bool
  | .notice _ => true
  | _ => false

/-- The start of NOTICE_WAIT (R410). -/
def runNoticeWait (p : Packet) (s : State) (c : Cur) : State :=
  guarded (firstOf [s.precheck 4 p 4 (namedBits [(8, 0, 3)]),
      stIf (decide (4 ≤ (s.inprog.filter fun x => x.wait.isNotice).length)) 9])
    (fun s c => s.setWait c (.notice (BitVec.ofNat 3 (pfld p 8 0 3)))) s c

/-- NOTICE_WAIT (R410, R413). -/
def execNoticeWait (p : Packet) (s : State) : Host.Outcome State Fault Refusal := .next (s.hostCmd 0x04 p (runNoticeWait p))

/- Group 0x1 (R414 to R416, R444 to R447) ------------------------------------------------------------------------------------------ -/

/-- The checks of a command that names only SLOT at 0x08. -/
def State.slotStatus (s : State) (op : Nat) (p : Packet) : Nat :=
  firstOf [s.precheck op p 4 (namedBits [(8, 0, 32)]), stIf (decide (2 ≤ pfld p 8 0 32)) 3]

/-- WRONG_STATE for the active slot. -/
def State.slotInUse (s : State) (k : Nat) : Nat := stIf (s.activeSlot == k) 8

/-- A slot is erased (R414, R446, R447). -/
def State.eraseSlot (s : State) (k : Nat) : State :=
  ({ s with flash := s.flash.filter fun p => !(flashKey k 0 ≤ p.1 && p.1 < flashKey k 0 + imgMax) }.unboot k).setSlot k 0

/-- The start of IMAGE_ERASE. -/
def runImageErase (p : Packet) (s : State) (c : Cur) : State :=
  guarded (firstOf [s.slotStatus 0x10 p, s.slotInUse (pfld p 8 0 32)])
    (fun s c => (s.eraseSlot (pfld p 8 0 32)).complete c 0 0 0) s c

/-- IMAGE_ERASE (R414). -/
def execImageErase (p : Packet) (s : State) : Host.Outcome State Fault Refusal := .next (s.hostCmd 0x10 p (runImageErase p))

/-- Program bytes of slot `k` from offset `o`, up to the first that is programmed already: the state, the bytes
programmed, and whether all were. -/
def State.program (s : State) (k o : Nat) : List Byte → Nat → State × Nat × Bool
  | [], n => (s, n, true)
  | v :: l, n =>
    if (s.programmed k o).isSome then (s, n, false)
    else { s with flash := spSet (fun _ => none) s.flash (flashKey k o) (some v) }.program k (o + 1) l (n + 1)

/-- Bytes are staged in slot `k` (R402, R414, R446, R447). -/
def State.stage (s : State) (c : Cur) (k o : Nat) (l : List Byte) : State :=
  let r := (s.unboot k).program k o l 0
  let s1 := if 0 < r.2.1 then r.1.setSlot k 1 else r.1
  if !r.2.2 then s1.complete c 0x11 0 0
  else if hostFails c.pkt then s1.complete c 5 r.2.1 0
  else s1.complete c 0 r.2.1 0

/-- The parameters of IMAGE_STAGE and IMAGE_READ. -/
def stageFields : List (Nat × Nat × Nat) := bufFields ++ [(0x14, 0, 32), (0x18, 0, 32)]

/-- The checks that IMAGE_STAGE and IMAGE_READ share. -/
def State.stageStatus (s : State) (op : Nat) (p : Packet) : Nat :=
  firstOf [s.precheck op p 20 (namedBits stageFields), stIf (!dataOk p 0x100000) 3, stIf (decide (2 ≤ pfld p 0x14 0 32)) 3,
    stIf (pfld p 0x18 0 32 % 256 != 0 || decide (imgMax < pfld p 0x18 0 32 + pdlen p)) 3]

/-- The start of IMAGE_STAGE. -/
def runImageStage (p : Packet) (s : State) (c : Cur) : State :=
  guarded (firstOf [s.stageStatus 0x11 p, s.slotInUse (pfld p 0x14 0 32)])
    (fun s c => s.stage c (pfld p 0x14 0 32) (pfld p 0x18 0 32) (hostBytes p.buf (hostMoves p))) s c

/-- IMAGE_STAGE (R414). -/
def execImageStage (p : Packet) (s : State) : Host.Outcome State Fault Refusal := .next (s.hostCmd 0x11 p (runImageStage p))

/-- The command completes IMAGE_REFUSED, with NVC.CHECK_RESULT and CHECK_RECORD (R402). -/
def State.imageRefused (s : State) (c : Cur) : State :=
  s.complete c 0xC (s.rd (aNvc 0x108)).toNat (s.rd (aNvc 0x10C)).toNat

/-- The image in slot `k` is checked and committed or refused (R414, R446, R447). -/
def State.commitSlot (s : State) (c : Cur) (k : Nat) : State :=
  match (s.slotImg k).check Config.fwVersion.toNat s.nv with
  | none => ((s.setSlot k 2).setBoot k).complete c 0 0 0
  | some f => ((s.checkResult (some f)).setSlot k 3).imageRefused c

/-- The start of IMAGE_COMMIT. -/
def runImageCommit (p : Packet) (s : State) (c : Cur) : State :=
  guarded (firstOf [s.slotStatus 0x12 p, s.slotInUse (pfld p 8 0 32)]) (fun s c => s.commitSlot c (pfld p 8 0 32)) s c

/-- IMAGE_COMMIT (R414). -/
def execImageCommit (p : Packet) (s : State) : Host.Outcome State Fault Refusal := .next (s.hostCmd 0x12 p (runImageCommit p))

/-- A site is armed or running (R414, R424). -/
def State.siteActive (s : State) : Bool := (List.range 256).any s.siteBusy

/-- WRONG_STATE if a site is armed or running, or an expander is not IDLE (R414). -/
def State.activeStatus (s : State) : Nat := stIf (s.siteActive || (List.range 16).any fun n => s.pxState n != 0) 8

/-- Slot `k` is activated (R414, R444). -/
def State.activateCmd (s : State) (c : Cur) (k : Nat) : State :=
  match s.activateSlot k with
  | (s1, true) => s1.complete c 0 0 0
  | (s1, false) => s1.imageRefused c

/-- The start of IMAGE_ACTIVATE. -/
def runImageActivate (p : Packet) (s : State) (c : Cur) : State :=
  guarded (firstOf [s.slotStatus 0x13 p, s.activeStatus]) (fun s c => s.activateCmd c (pfld p 8 0 32)) s c

/-- IMAGE_ACTIVATE (R414, R444). -/
def execImageActivate (p : Packet) (s : State) : Host.Outcome State Fault Refusal :=
  .next (s.hostCmd 0x13 p (runImageActivate p))

/-- The image that the device reads from the host buffer, and its second reading (R416). -/
def firstReading (p : Packet) : Img := bufImg (hostBytes p.buf (pdlen p))
/-- The second reading; none: it fails. A host that moves fewer than twice DLEN bytes fails it. -/
def secondReading (p : Packet) : Option Img :=
  match p.hostErr with
  | some k => if k < 2 * pdlen p then none else some (bufImg (hostBytes (p.again.getD p.buf) (pdlen p)))
  | none => some (bufImg (hostBytes (p.again.getD p.buf) (pdlen p)))

/-- The image in the host buffer is activated (R416). -/
def State.activateHost (s : State) (c : Cur) : State :=
  if hostFails c.pkt then s.complete c 5 (hostMoves c.pkt) 0
  else
    match s.activate (firstReading c.pkt) (secondReading c.pkt) 2 with
    | (s1, true) => s1.complete c 0 0 0
    | (s1, false) =>
      if (s1.rf (aNvc 0x108) 0 8 == 0) then s1.complete c 5 (c.pkt.hostErr.getD 0) 0 else s1.imageRefused c

/-- The start of IMAGE_ACTIVATE_HOST. -/
def runImageActivateHost (p : Packet) (s : State) (c : Cur) : State :=
  guarded (firstOf [s.precheck 0x18 p 12 (namedBits bufFields), stIf (!dataOk p imgMax) 3, s.activeStatus])
    (fun s c => s.activateHost c) s c

/-- IMAGE_ACTIVATE_HOST (R416). -/
def execImageActivateHost (p : Packet) (s : State) : Host.Outcome State Fault Refusal :=
  .next (s.hostCmd 0x18 p (runImageActivateHost p))

/-- The start of IMAGE_READ. -/
def runImageRead (p : Packet) (s : State) (c : Cur) : State :=
  guarded (s.stageStatus 0x14 p) (fun s c =>
    s.toBuffer c ((List.range (pdlen p)).map fun i => s.slotByte (pfld p 0x14 0 32) (pfld p 0x18 0 32 + i)) 0 0) s c

/-- IMAGE_READ (R414). -/
def execImageRead (p : Packet) (s : State) : Host.Outcome State Fault Refusal := .next (s.hostCmd 0x14 p (runImageRead p))

/-- The key store holds `v`. -/
def State.setNv (s : State) (v : NvSt) : State := (s.nvPut v).showKeys

/-- Slot `k` of the key store is present or revoked (R178). -/
def NvSt.keyTaken (v : NvSt) (k : Nat) : Bool := (v.keys.toList.getD k none).isSome || v.revoked.getLsbD k

/-- A public key is read and stored if it is a point on P-384 (R414, R415). -/
def State.provision (s : State) (c : Cur) (k : Nat) (l : List Byte) : State :=
  if hostFails c.pkt then s.complete c 5 l.length 0
  else
    let x := beNat (l.take 48)
    let y := beNat (l.drop 48)
    if onCurve x y then (s.setNv { s.nv with keys := s.nv.keys.setIfInBounds k (some (x, y)) }).complete c 0 0 0
    else s.complete c 0x10 0 0

/-- The start of KEY_PROVISION. -/
def runKeyProvision (p : Packet) (s : State) (c : Cur) : State :=
  guarded (firstOf [s.precheck 0x15 p 16 (namedBits (bufFields ++ [(0x14, 0, 32)])), stIf (!dataOk p dlenMax || pdlen p != 96) 3,
      stIf (decide (4 ≤ pfld p 0x14 0 32)) 3, stIf (s.nv.keyTaken (pfld p 0x14 0 32)) 0x10])
    (fun s c => s.provision c (pfld p 0x14 0 32) (hostBytes p.buf (hostMoves p))) s c

/-- KEY_PROVISION (R414). -/
def execKeyProvision (p : Packet) (s : State) : Host.Outcome State Fault Refusal := .next (s.hostCmd 0x15 p (runKeyProvision p))

/-- The start of KEY_REVOKE. -/
def runKeyRevoke (p : Packet) (s : State) (c : Cur) : State :=
  guarded (firstOf [s.precheck 0x16 p 4 (namedBits [(8, 0, 32)]), stIf (decide (4 ≤ pfld p 8 0 32)) 3])
    (fun s c => (s.setNv { s.nv with revoked := s.nv.revoked ||| BitVec.ofNat 4 (2 ^ pfld p 8 0 32) }).complete c 0 0 0) s c

/-- KEY_REVOKE (R414). -/
def execKeyRevoke (p : Packet) (s : State) : Host.Outcome State Fault Refusal := .next (s.hostCmd 0x16 p (runKeyRevoke p))

/-- The signature policy becomes REQUIRE and LOCK (R414, R415). -/
def State.policy (s : State) (c : Cur) (require lock : Bool) : State :=
  if s.nv.lock && require != s.nv.require then s.complete c 0xD 0 0
  else (s.setNv { s.nv with require := require, lock := s.nv.lock || lock }).complete c 0 0 0

/-- The start of SIG_POLICY. -/
def runSigPolicy (p : Packet) (s : State) (c : Cur) : State :=
  guarded (s.precheck 0x17 p 4 (namedBits [(8, 0, 2)])) (fun s c => s.policy c (pfld p 8 0 1 == 1) (pfld p 8 1 1 == 1)) s c

/-- SIG_POLICY (R414). -/
def execSigPolicy (p : Packet) (s : State) : Host.Outcome State Fault Refusal := .next (s.hostCmd 0x17 p (runSigPolicy p))

/- Group 0x2 (R417) --------------------------------------------------------------------------------------------------------------------- -/

/-- The value of a register read goes to RESULT0. -/
def State.readCmd (s : State) (c : Cur) (a : Nat) : State :=
  let r := s.bridgeRead .mgmt a
  r.1.complete c 0 r.2.toNat 0

/-- The start of REG_READ. -/
def runRegRead (p : Packet) (s : State) (c : Cur) : State :=
  guarded (firstOf [s.precheck 0x20 p 4 (namedBits [(8, 0, 32)]), addrStatus (pfld p 8 0 32)])
    (fun s c => s.readCmd c (pfld p 8 0 32)) s c

/-- REG_READ (R417). -/
def execRegRead (p : Packet) (s : State) : Host.Outcome State Fault Refusal := .next (s.hostCmd 0x20 p (runRegRead p))

/-- The start of REG_WRITE: the write, then the read of the register. -/
def runRegWrite (p : Packet) (s : State) (c : Cur) : State :=
  guarded (firstOf [s.precheck 0x21 p 8 (namedBits [(8, 0, 32), (0xC, 0, 32)]), addrStatus (pfld p 8 0 32)])
    (fun s c => (s.bridgeWrite .mgmt (pfld p 8 0 32) (BitVec.ofNat 32 (pfld p 0xC 0 32))).readCmd c (pfld p 8 0 32)) s c

/-- REG_WRITE (R406, R417). -/
def execRegWrite (p : Packet) (s : State) : Host.Outcome State Fault Refusal := .next (s.hostCmd 0x21 p (runRegWrite p))

/-- Reads of `n` consecutive registers from address `a`, in ascending order. -/
def State.readBlock (s : State) (a : Nat) : Nat → State × List W32
  | 0 => (s, [])
  | n + 1 =>
    let r := s.bridgeRead .mgmt a
    let q := r.1.readBlock (a + 4) n
    (q.1, r.2 :: q.2)

/-- The bytes of a list of words. -/
def wordBytes (l : List W32) : List Byte := l.flatMap fun v => natLe 4 v.toNat

/-- The start of REG_BLOCK_READ. -/
def runRegBlockRead (p : Packet) (s : State) (c : Cur) : State :=
  guarded (firstOf [s.precheck 0x22 p 16 (namedBits (bufFields ++ [(0x14, 0, 32)])),
      stIf (!dataOk p 0x4000 || pdlen p == 0) 3, addrStatus (pfld p 0x14 0 32)])
    (fun s c =>
      let q := s.readBlock (pfld p 0x14 0 32) (pdlen p / 4)
      q.1.toBuffer c (wordBytes q.2) 0 0) s c

/-- REG_BLOCK_READ (R417). -/
def execRegBlockRead (p : Packet) (s : State) : Host.Outcome State Fault Refusal := .next (s.hostCmd 0x22 p (runRegBlockRead p))

/- Group 0x3 (R418) ----------------------------------------------------------------------------------------------------------------------- -/

/-- DADDR. -/
def daddr (p : Packet) : Nat := pfld p 0x18 0 40

/-- The range of a transfer is one that R418 allows. -/
def rangeOk (p : Packet) (write : Bool) : Bool :=
  daddr p % 4 == 0 &&
  match regionOf (daddr p) with
  | .bank _ o .normal => decide (o + pdlen p ≤ 0x400000)
  | .dram o => decide (o + pdlen p ≤ 0x800000000)
  | .ctx o => !write && decide (o + pdlen p ≤ 0x1400000)
  | .recs o => !write && decide (o + pdlen p ≤ 0xF0000)
  | _ => false

/-- The checks of MEM_READ and MEM_WRITE. -/
def State.memStatus (s : State) (op : Nat) (p : Packet) (write : Bool) : Nat :=
  firstOf [s.precheck op p 24 (namedBits (bufFields ++ [(0x18, 0, 40)])), stIf (!dataOk p dlenMax) 3, stIf (!rangeOk p write) 3]

/-- The status of a failing block: NONOWNER or MEM_ERROR (R402). -/
def errStatus (kind : Nat) : Nat := if kind = 0 then 6 else 7

/-- The transfer of a MEM_READ or MEM_WRITE: transactions of up to 256 bytes at the host link's port, one after another (R355,
R418); none while it is under way. When the command is presented again it goes on. -/
def State.hostXfer (s : State) (c : Cur) (n : Nat) (data : Option (List Byte)) : State × Option Xfer :=
  s.xfer (.host c.id) 13 0 256 false (daddr c.pkt) n data

/-- The transfer of MEM_READ; after an error the blocks before the failing one have been moved. -/
def State.memReadCmd (s : State) (c : Cur) : State :=
  let k := hostMoves c.pkt
  match s.hostXfer c k none with
  | (s1, none) => s1
  | (s1, some x) => match x.err with
    | none => (s1.toHostMem (pdptr c.pkt) x.got).complete c (stIf (hostFails c.pkt) 5) k 0
    | some e => (s1.toHostMem (pdptr c.pkt) (x.got.take x.last)).complete c (errStatus e) x.last 0

/-- The transfer of MEM_WRITE. -/
def State.memWriteCmd (s : State) (c : Cur) : State :=
  let k := hostMoves c.pkt
  match s.hostXfer c k (some (hostBytes c.pkt.buf k)) with
  | (s1, none) => s1
  | (s1, some x) => match x.err with
    | none => s1.complete c (stIf (hostFails c.pkt) 5) k 0
    | some e => s1.complete c (errStatus e) x.last 0

/-- The start and transfer of MEM_READ. -/
def runMemRead (p : Packet) (s : State) (c : Cur) : State :=
  guarded (s.memStatus 0x30 p false) State.memReadCmd s c

/-- MEM_READ (R418). -/
def execMemRead (p : Packet) (s : State) : Host.Outcome State Fault Refusal := .next (s.hostCmd 0x30 p (runMemRead p))

/-- The start and transfer of MEM_WRITE. -/
def runMemWrite (p : Packet) (s : State) (c : Cur) : State :=
  guarded (s.memStatus 0x31 p true) State.memWriteCmd s c

/-- MEM_WRITE (R418). -/
def execMemWrite (p : Packet) (s : State) : Host.Outcome State Fault Refusal := .next (s.hostCmd 0x31 p (runMemWrite p))

/-- The start of BANK_OWNER: the write of OWNER; the handover is waited for. -/
def runBankOwner (p : Packet) (s : State) (c : Cur) : State :=
  let b := pfld p 8 0 8
  guarded (firstOf [s.precheck 0x32 p 4 (namedBits [(8, 0, 16)]), stIf (decide (48 ≤ b) || !ownerCode (pfld p 8 8 8)) 3,
      stIf (s.bit (aBnk b 8) 4) 9])
    (fun s c => (s.bridgeWrite .mgmt (aBnk b 0) (BitVec.ofNat 32 (pfld p 8 8 8))).setWait c (.owner b (s.owner b))) s c

/-- BANK_OWNER (R332, R418). -/
def execBankOwner (p : Packet) (s : State) : Host.Outcome State Fault Refusal := .next (s.hostCmd 0x32 p (runBankOwner p))

/-- STATUS then CTRL of every site (R418). -/
def State.results (s : State) : List Byte :=
  (List.range 256).flatMap fun i => natLe 4 (s.rd (aSite i 0x14)).toNat ++ natLe 4 (s.rd (aSite i 0x10)).toNat

/-- The start of SITE_RESULTS. -/
def runSiteResults (p : Packet) (s : State) (c : Cur) : State :=
  guarded (firstOf [s.precheck 0x33 p 12 (namedBits bufFields), bufStatus p 2048])
    (fun s c => s.toBuffer c s.results 0 0) s c

/-- SITE_RESULTS (R418). -/
def execSiteResults (p : Packet) (s : State) : Host.Outcome State Fault Refusal := .next (s.hostCmd 0x33 p (runSiteResults p))

end Sys2Proof.Machine
end

