-- ==== Sys2Proof/Machine/HostTest.lean ====
section
/-!
DEFINITION. Host commands of groups 0x4 and 0x5 (R419 to R421): tests, sites and tasks.
-/

namespace Sys2Proof.Machine

/- Group 0x4 (R419, R420) --------------------------------------------------------------------------------------------------- -/

/-- The 32 bytes of MASK. -/
def maskField : List (Nat × Nat × Nat) := [(8, 0, 256)]

/-- The sites of MASK. -/
def pktSites (p : Packet) : List Nat := maskSites (pfld p 8 0 256)

/-- Expander `n` owns a lane of one of the sites. -/
def State.ownsLaneOf (s : State) (sites : List Nat) (n : Nat) : Bool :=
  sites.any fun i => (maskLanes (s.siteLanes i)).any fun l => s.ownerPx l == n

/-- The expanders that own a lane of one of the sites. -/
def State.sitePx (s : State) (sites : List Nat) : List Nat := (List.range 16).filter (s.ownsLaneOf sites)

/-- A site may be armed: enabled, and idle or done with FINAL. -/
def State.mayArm (s : State) (i : Nat) : Bool :=
  s.bit (aSite i 0x10) 0 && (s.siteState i == 0 || (s.siteState i == 3 && s.siteFinal i))

/-- A site is armed (R17). -/
def State.armSite (s : State) (i : Nat) : State := (s.wr (aSite i 0x14) 1).setSite i SiteSt.init

/-- The regions of the sites in Thresher `n` wait for their resets, in ascending order (R308). -/
def State.queueResets (s : State) (sites : List Nat) (n : Nat) : State :=
  s.setThr n { s.thrs n with resets := (s.thrs n).resets ++ (((List.range 4096).map fun k => 4096 * n + k).filter fun g =>
    sites.any fun i => decide ((s.siteRegions i).1 ≤ g) && decide (g < (s.siteRegions i).1 + (s.siteRegions i).2)) }

/-- The sites are armed, and ARM is set in every expander that owns a lane of one (R17, R308, R419). -/
def State.armSites (s : State) (sites : List Nat) : State :=
  let s1 := sites.foldl State.armSite s
  let s2 := (s.sitePx sites).foldl (fun (t : State) n => t.bridgeWrite .mgmt (aPx n 0) 1) s1
  (List.range 4).foldl (fun (t : State) n => t.queueResets sites n) s2

/-- The start of SITE_ARM. -/
def runSiteArm (p : Packet) (s : State) (c : Cur) : State :=
  guarded (firstOf [s.precheck 0x40 p 32 (namedBits maskField), stIf (!(pktSites p).all s.mayArm) 8])
    (fun s c => (s.armSites (pktSites p)).setWait c (.arm (pfld p 8 0 256))) s c

/-- SITE_ARM (R419). -/
def execSiteArm (p : Packet) (s : State) : Host.Outcome State Fault Refusal := .next (s.hostCmd 0x40 p (runSiteArm p))

/-- A test start is requested: armed expanders are STARTING and count PREFILL_WAIT from zero (R234). -/
def State.requestStart (s : State) : State :=
  if s.startReq then s
  else (s.armedPx.filter fun n => s.pxState n == 1).foldl State.pxRest { s with startReq := true }

/-- TEST_START: a request with no armed expander is released at once (R234, R289, R419). -/
def State.testStart (s : State) (c : Cur) (wait : Bool) : State :=
  let none_ := s.armedPx.isEmpty
  let s1 := s.requestStart
  let s2 := if wait then s1.setWait c .release else s1
  let s3 := if none_ then s2.startRelease else s2
  if wait then s3 else s3.complete c 0 (!s3.startReq).toNat 0

/-- The start of TEST_START. -/
def runTestStart (p : Packet) (s : State) (c : Cur) : State :=
  guarded (s.precheck 0x41 p 4 (namedBits [(8, 0, 1)])) (fun s c => s.testStart c (pfld p 8 0 1 == 1)) s c

/-- TEST_START (R419). -/
def execTestStart (p : Packet) (s : State) : Host.Outcome State Fault Refusal := .next (s.hostCmd 0x41 p (runTestStart p))

/-- A stopped site moves to done, and STOP is raised (R17, R419). -/
def State.stopSite (s : State) (i : Nat) : State := (s.siteToDone i).post rkSite none 1 i

/-- The armed and running sites among `sites` are stopped (R419, R420). -/
def State.stopSites (s : State) (sites : List Nat) : State :=
  let act := sites.filter s.siteBusy
  let s1 := act.foldl (fun (t : State) i => t.setB (aSite i 0x14) 10) s
  let s2 := (s.sitePx act).foldl (fun (t : State) n => t.bridgeWrite .mgmt (aPx n 0) 2) s1
  act.foldl State.stopSite s2

/-- The start of TEST_STOP. -/
def runTestStop (p : Packet) (s : State) (c : Cur) : State :=
  guarded (s.precheck 0x42 p 32 (namedBits maskField))
    (fun s c => ((s.stopSites (pktSites p)).withdraw).complete c 0 ((pktSites p).filter s.siteBusy).length 0) s c

/-- TEST_STOP (R419, R420). -/
def execTestStop (p : Packet) (s : State) : Host.Outcome State Fault Refusal := .next (s.hostCmd 0x42 p (runTestStop p))

/-- The sites that stay armed. -/
def State.stillArmed (s : State) : List Nat := (List.range 256).filter fun i => s.siteState i == 1

/-- The armed sites among `sites` are idle again; expanders of theirs that own no lane of a site still armed lose ARM
(R419). -/
def State.disarmSites (s : State) (sites : List Nat) : State :=
  let armed := sites.filter fun i => s.siteState i == 1
  let s1 := armed.foldl (fun (t : State) i => t.wf (aSite i 0x14) 0 3 0) s
  ((s1.sitePx sites).filter fun n => !s1.ownsLaneOf s1.stillArmed n).foldl (fun (t : State) n => t.bridgeWrite .mgmt (aPx n 0) 0) s1

/-- The start of SITE_DISARM. -/
def runSiteDisarm (p : Packet) (s : State) (c : Cur) : State :=
  guarded (firstOf [s.precheck 0x43 p 32 (namedBits maskField), stIf ((pktSites p).any fun i => s.siteState i == 2) 8])
    (fun s c => (s.disarmSites (pktSites p)).withdraw.complete c 0 ((pktSites p).filter fun i => s.siteState i == 1).length 0) s c

/-- SITE_DISARM (R419). -/
def execSiteDisarm (p : Packet) (s : State) : Host.Outcome State Fault Refusal := .next (s.hostCmd 0x43 p (runSiteDisarm p))

/-- The start of SITE_WAIT. -/
def runSiteWait (p : Packet) (s : State) (c : Cur) : State :=
  guarded (firstOf [s.precheck 0x44 p 36 (namedBits (maskField ++ [(0x28, 0, 32)])),
      stIf ((pktSites p).any fun i => s.siteState i == 0) 8])
    (fun s c => s.setWait c (.sites (pfld p 8 0 256))) s c

/-- SITE_WAIT (R419). -/
def execSiteWait (p : Packet) (s : State) : Host.Outcome State Fault Refusal := .next (s.hostCmd 0x44 p (runSiteWait p))

/-- The command is a SITE_WAIT of queue `q` with a time limit. -/
def Cur.timed (c : Cur) (q : Nat) : Bool :=
  match c.wait with
  | .sites _ => c.pkt.q.val == q && pfld c.pkt 0x28 0 32 != 0
  | _ => false

/-- TIMEOUT of the SITE_WAIT of queue `q` has passed (R402, R419). -/
def State.siteTimeout (s : State) (q : Nat) : State := s.completeAll (fun c => c.timed q) 0xB 0

/-- SITE_WAIT_TIMEOUT (R419). -/
def execSiteWaitTimeout (q : Fin 16) (s : State) : Host.Outcome State Fault Refusal := .next (s.siteTimeout q.val)

/-- The start of DOORBELL. -/
def runDoorbell (p : Packet) (s : State) (c : Cur) : State :=
  guarded (s.precheck 0x45 p 4 (namedBits [(8, 0, 8)]))
    (fun s c => (s.post rkMgmt none 7 (pfld p 8 0 8)).complete c 0 0 0) s c

/-- DOORBELL (R419). -/
def execDoorbell (p : Packet) (s : State) : Host.Outcome State Fault Refusal := .next (s.hostCmd 0x45 p (runDoorbell p))

/-- BASE and COUNT of the task set of site `i`. -/
def State.siteTasks (s : State) (i : Nat) : Nat × Nat := (s.rf (aSite i 8) 0 16, s.rf (aSite i 8) 16 16)

/-- The start of SITE_SIGNAL. -/
def runSiteSignal (p : Packet) (s : State) (c : Cur) : State :=
  guarded (firstOf [s.precheck 0x46 p 4 (namedBits [(8, 0, 13)]), stIf (pfld p 8 8 5 == 31) 3])
    (fun s c =>
      let t := s.siteTasks (pfld p 8 0 8)
      s.setWait c (.ops 2 (BitVec.ofNat 32 (pfld p 8 8 5)) t.1 (t.1 + t.2) 0 0)) s c

/-- SITE_SIGNAL (R419). -/
def execSiteSignal (p : Packet) (s : State) : Host.Outcome State Fault Refusal := .next (s.hostCmd 0x46 p (runSiteSignal p))

/- Group 0x5 (R421) --------------------------------------------------------------------------------------------------------------- -/

/-- BAD_FIELD for a task ID above 40,959. -/
def taskStatus (t : Nat) : Nat := stIf (decide (taskCount ≤ t)) 3

/-- One operation on one task is to be enqueued and waited for. -/
def State.waitOp (s : State) (c : Cur) (op arg t : Nat) : State :=
  s.setWait c (.ops op (BitVec.ofNat 32 arg) t (t + 1) 0 0)

/-- READ of a task is enqueued, once the queue has room. -/
def State.queryStart (s : State) (c : Cur) (t : Nat) : State :=
  if s.taskOps.length < 16 then (s.hostOp c.id t 5 0).setWait c (.query t) else s

/-- The start of TASK_QUERY. -/
def runTaskQuery (p : Packet) (s : State) (c : Cur) : State :=
  guarded (firstOf [s.precheck 0x50 p 16 (namedBits (bufFields ++ [(0x14, 0, 16)])),
      stIf (!dataOk p dlenMax || !(pdlen p == 24 || pdlen p == 536)) 3, taskStatus (pfld p 0x14 0 16)])
    (fun s c => s.queryStart c (pfld p 0x14 0 16)) s c

/-- TASK_QUERY (R421). -/
def execTaskQuery (p : Packet) (s : State) : Host.Outcome State Fault Refusal := .next (s.hostCmd 0x50 p (runTaskQuery p))

/-- The start of TASK_SIGNAL. -/
def runTaskSignal (p : Packet) (s : State) (c : Cur) : State :=
  guarded (firstOf [s.precheck 0x51 p 4 (namedBits [(8, 0, 21)]), taskStatus (pfld p 8 0 16)])
    (fun s c => s.waitOp c 2 (pfld p 8 16 5) (pfld p 8 0 16)) s c

/-- TASK_SIGNAL (R421). -/
def execTaskSignal (p : Packet) (s : State) : Host.Outcome State Fault Refusal := .next (s.hostCmd 0x51 p (runTaskSignal p))

/-- The start of TASK_KILL. -/
def runTaskKill (p : Packet) (s : State) (c : Cur) : State :=
  guarded (firstOf [s.precheck 0x52 p 4 (namedBits [(8, 0, 16)]), taskStatus (pfld p 8 0 16)])
    (fun s c => s.waitOp c 1 0 (pfld p 8 0 16)) s c

/-- TASK_KILL (R421). -/
def execTaskKill (p : Packet) (s : State) : Host.Outcome State Fault Refusal := .next (s.hostCmd 0x52 p (runTaskKill p))

/-- The start of TASK_SET_PRIO. -/
def runTaskSetPrio (p : Packet) (s : State) (c : Cur) : State :=
  guarded (firstOf [s.precheck 0x53 p 4 (namedBits [(8, 0, 19)]), taskStatus (pfld p 8 0 16)])
    (fun s c => s.waitOp c 3 (pfld p 8 16 3) (pfld p 8 0 16)) s c

/-- TASK_SET_PRIO (R421). -/
def execTaskSetPrio (p : Packet) (s : State) : Host.Outcome State Fault Refusal :=
  .next (s.hostCmd 0x53 p (runTaskSetPrio p))

/-- The start of TASK_SET_AFFINITY. -/
def runTaskSetAffinity (p : Packet) (s : State) (c : Cur) : State :=
  guarded (firstOf [s.precheck 0x54 p 8 (namedBits [(8, 0, 16), (0xC, 0, 12)]), taskStatus (pfld p 8 0 16)])
    (fun s c => s.waitOp c 4 (pfld p 0xC 0 12) (pfld p 8 0 16)) s c

/-- TASK_SET_AFFINITY (R421). -/
def execTaskSetAffinity (p : Packet) (s : State) : Host.Outcome State Fault Refusal :=
  .next (s.hostCmd 0x54 p (runTaskSetAffinity p))

/-- The byte of TASK_LIST for a state record: its bits [6:0]. -/
def taskByte (t : TaskRec) : Byte := BitVec.ofNat 8 (((recWords t).getD 0 0).toNat % 128)

/-- The start of TASK_LIST. -/
def runTaskList (p : Packet) (s : State) (c : Cur) : State :=
  guarded (firstOf [s.precheck 0x55 p 12 (namedBits bufFields), bufStatus p taskCount])
    (fun s c => s.toBuffer c ((List.range taskCount).map fun t => taskByte (s.task t))
      (s.tasks.filter fun q => q.2.state != .none).length 0) s c

/-- TASK_LIST (R421). -/
def execTaskList (p : Packet) (s : State) : Host.Outcome State Fault Refusal := .next (s.hostCmd 0x55 p (runTaskList p))

end Sys2Proof.Machine
end

