-- ==== Sys2Proof/Machine/HostUnits.lean ====
section
/-!
DEFINITION. Host commands of groups 0x6 to 0x9 (R422 to R425, R452, R458, R459, R484): lanes, health and spares, sync, removal
and reset; and the host link itself (R393).
-/

namespace Sys2Proof.Machine

/- Group 0x6 (R422) ------------------------------------------------------------------------------------------------------ -/

/-- The TRAIN word of lane `n`, with GO. -/
def trainWord (p : Packet) (n : Nat) : W32 :=
  BitVec.ofNat 32 (pfld p 0x10 0 3 + pfld p 0x14 (3 * n) 3 * 2 ^ 4 + pfld p 0x10 8 3 * 2 ^ 8 + 2 ^ 31)

/-- TRAIN is written for the lanes in turn: the state, the lanes that train, the lanes that failed at once (R275). -/
def State.trainAll (s : State) (p : Packet) : List Nat → State × List Nat × List Nat
  | [] => (s, [], [])
  | n :: l =>
    let now := (s.wr (aLn n 0x10) (trainWord p n &&& 0x777)).trainCode n
    let r := (s.bridgeWrite .mgmt (aLn n 0x10) (trainWord p n)).trainAll p l
    if now = 0 then (r.1, n :: r.2.1, r.2.2) else (r.1, r.2.1, n :: r.2.2)

/-- The start of LANE_TRAIN. -/
def runLaneTrain (p : Packet) (s : State) (c : Cur) : State :=
  guarded (s.precheck 0x60 p 36 (namedBits [(8, 0, 64), (0x10, 0, 3), (0x10, 8, 3), (0x14, 0, 192)]))
    (fun s c =>
      let r := s.trainAll p (maskLanes (pfld p 8 0 64))
      r.1.setWait c (.train (maskOf r.2.1) (maskOf r.2.2))) s c

/-- LANE_TRAIN (R422). -/
def execLaneTrain (p : Packet) (s : State) : Host.Outcome State Fault Refusal := .next (s.hostCmd 0x60 p (runLaneTrain p))

/-- LN[n] offsets 0x030 to 0x04C. -/
def State.calBytes (s : State) (n : Nat) : List Byte :=
  wordBytes ((List.range 8).map fun i => (s.bridgeRead .mgmt (aLn n (0x30 + 4 * i))).2)

/-- ACTION on CAL_CFG.EN of lane `n`. -/
def State.calAction (s : State) (action n : Nat) : State :=
  if action = 1 ∨ action = 2 then s.bridgeWrite .mgmt (aLn n 0x20) (putField (s.rd (aLn n 0x20)) 0 1 (2 - action)) else s

/-- The start of LANE_CAL. -/
def runLaneCal (p : Packet) (s : State) (c : Cur) : State :=
  let ls := maskLanes (pfld p 0x14 0 64)
  guarded (firstOf [s.precheck 0x61 p 24 (namedBits (bufFields ++ [(0x14, 0, 64), (0x1C, 0, 2)])), bufStatus p (32 * ls.length)])
    (fun s c => (ls.foldl (fun (t : State) n => t.calAction (pfld p 0x1C 0 2) n) s).toBuffer c (ls.flatMap s.calBytes) 0 0) s c

/-- LANE_CAL (R422). -/
def execLaneCal (p : Packet) (s : State) : Host.Outcome State Fault Refusal := .next (s.hostCmd 0x61 p (runLaneCal p))

/-- PN or VN is 0, or a point of the scan lies outside the field ranges of EYE_SCAN. -/
def scanBad (p : Packet) : Bool :=
  let pn := pfld p 0x18 16 8
  let vn := pfld p 0x1C 20 8
  let ph := (BitVec.ofNat 8 (pfld p 0x18 0 8)).toInt + (pn - 1 : Nat) * (pfld p 0x18 8 8 : Int)
  let vo := (BitVec.ofNat 10 (pfld p 0x1C 0 10)).toInt + (vn - 1 : Nat) * (pfld p 0x1C 12 8 : Int)
  pn == 0 || vn == 0 || decide (127 < ph) || decide (511 < vo)

/-- The start of LANE_EYE_SCAN: the first point. -/
def runLaneEyeScan (p : Packet) (s : State) (c : Cur) : State :=
  guarded (firstOf [s.precheck 0x62 p 24 (namedBits (bufFields ++ [(0x14, 0, 6), (0x14, 8, 2), (0x18, 0, 24), (0x1C, 0, 10),
        (0x1C, 12, 16)])), bufStatus p (4 * pfld p 0x18 16 8 * pfld p 0x1C 20 8), stIf (scanBad p) 3])
    (fun s c => (s.bridgeWrite .mgmt (aLn (pfld p 0x14 0 6) 0x80) (scanWord p 0)).setWait c (.scan 0 [])) s c

/-- LANE_EYE_SCAN (R286, R422). -/
def execLaneEyeScan (p : Packet) (s : State) : Host.Outcome State Fault Refusal := .next (s.hostCmd 0x62 p (runLaneEyeScan p))

/-- PRBS_CFG of lane `n` is written, and the counters cleared if CLEAR is 1. -/
def State.prbsSet (s : State) (p : Packet) (n : Nat) : State :=
  let s1 := s.bridgeWrite .mgmt (aLn n 0x60) (BitVec.ofNat 32 (pfld p 0x10 0 9))
  if pfld p 0x14 0 1 = 1 then s1.bridgeWrite .mgmt (aLn n 0x70) 1 else s1

/-- The start of LANE_PRBS. -/
def runLanePrbs (p : Packet) (s : State) (c : Cur) : State :=
  guarded (s.precheck 0x63 p 16 (namedBits [(8, 0, 64), (0x10, 0, 9), (0x14, 0, 1)]))
    (fun s c => ((maskLanes (pfld p 8 0 64)).foldl (fun (t : State) n => t.prbsSet p n) s).complete c 0 0 0) s c

/-- LANE_PRBS (R422). -/
def execLanePrbs (p : Packet) (s : State) : Host.Outcome State Fault Refusal := .next (s.hostCmd 0x63 p (runLanePrbs p))

/- Group 0x7 (R423, R452, R484) --------------------------------------------------------------------------------------------- -/

/-- A sensor result in 2 bytes: CODE and, in bit 15, VALID. -/
def sensorBytes (v : W32) : List Byte := natLe 2 (field v 0 12 + field v 31 1 * 2 ^ 15)

/-- The least of a list of numbers; 0 for none. -/
def leastOf : List Nat → Nat
  | [] => 0
  | a :: l => l.foldl min a

/-- Unused spares of memory `i` of GLN_SPARE_USE. -/
def State.otherSpares (s : State) (i : Nat) : Nat := s.rf (aGln (0x20 + 4 * i)) 16 7 - s.rf (aGln (0x20 + 4 * i)) 0 7

/-- The 256-byte snapshot (R484). -/
def State.snapshot (s : State) : List Byte :=
  let age := fun lo w => s.rf (aHlt 0x604) lo w
  natLe 4 (s.rd 0x80).toNat ++ natLe 2 (s.rf (aHlt 0x610) 0 16) ++ natLe 2 (s.rf (aHlt 0x61C) 0 16)
    ++ natLe 4 (s.rf (aHlt 0x614) 0 27) ++ natLe 2 s.hotDegrees ++ natLe 1 (s.rf (aHlt 4) 8 6)
    ++ natLe 1 (s.warm.toNat + s.critical.toNat * 2 + (s.bit (aHlt 4) 2).toNat * 4 + s.rf 0x90 0 2 * 8)
    ++ natLe 2 (s.rf (aCmd 0x10) 0 16) ++ natLe 2 s.vddCore ++ natLe 1 (age 28 4) ++ natLe 1 (age 24 4) ++ natLe 2 (age 0 16)
    ++ natLe 2 (s.rf (aHlt 0x650) 0 16) ++ natLe 1 (age 16 7) ++ List.replicate 5 0
    ++ ((List.range 48).flatMap fun t => sensorBytes (s.rd (aHlt (0x100 + 4 * t))))
    ++ ((List.range 24).flatMap fun v => sensorBytes (s.rd (aHlt (0x200 + 4 * v))))
    ++ ((List.range 4).flatMap fun r => natLe 2 (s.rf (aHlt (0x640 + 4 * r)) 0 16)) ++ List.replicate 8 0
    ++ ((List.range 12).flatMap fun i => natLe 2 (s.rf (aShf i 4) 0 9))
    ++ natLe 1 (leastOf ((List.range 48).map s.bankSpares)) ++ natLe 1 (leastOf ((List.range 12).map s.otherSpares))
    ++ natLe 1 (s.otherSpares 12) ++ natLe 1 (s.otherSpares 13) ++ natLe 2 (s.rf (aNvc 4) 0 13) ++ List.replicate 2 0
    ++ natLe 16 s.lockupMap ++ List.replicate 16 0

/-- The start of HEALTH_READ. -/
def runHealthRead (p : Packet) (s : State) (c : Cur) : State :=
  guarded (firstOf [s.precheck 0x70 p 12 (namedBits bufFields), bufStatus p 256])
    (fun s c => s.used.toBuffer c s.snapshot 0 0) s c

/-- HEALTH_READ (R423). -/
def execHealthRead (p : Packet) (s : State) : Host.Outcome State Fault Refusal := .next (s.hostCmd 0x70 p (runHealthRead p))

/-- The 8-byte records of registers with a W1C bit set: address, then value. -/
def State.stickyBytes (s : State) : List Byte :=
  s.stickyRegs.flatMap fun r => natLe 4 r.1 ++ natLe 4 (readMask (regFields r.1) r.2).toNat

/-- As many whole 8-byte records as DLEN allows. -/
def wholeRecords (p : Packet) (l : List Byte) : List Byte := l.take (pdlen p / 8 * 8)

/-- The start of STICKY_READ. -/
def runStickyRead (p : Packet) (s : State) (c : Cur) : State :=
  guarded (firstOf [s.precheck 0x71 p 12 (namedBits bufFields), stIf (!dataOk p dlenMax) 3])
    (fun s c => s.toBuffer c (wholeRecords p s.stickyBytes) s.stickyRegs.length (s.rd 0x80).toNat) s c

/-- STICKY_READ (R423). -/
def execStickyRead (p : Packet) (s : State) : Host.Outcome State Fault Refusal := .next (s.hostCmd 0x71 p (runStickyRead p))

/-- A register has a W1C field. -/
def hasW1c (a : Nat) : Bool := (regFields a).any fun f => f.acc == .w1c

/-- The ADDR that names every register with a W1C field. -/
def allSticky : Nat := 0xFFFFFFFF

/-- The checks of ADDR of STICKY_CLEAR: an address that is no multiple of 4 holds no W1C field either (R403, R423). -/
def clearStatus (a : Nat) : Nat := if a = allSticky then 0 else stIf (a % 4 != 0 || !hasW1c a) 3

/-- All ones go to every register with a W1C bit set: the others have none to clear. -/
def State.clearSticky (s : State) : State :=
  (s.stickyRegs.map (·.1)).foldl (fun (t : State) a => t.bridgeWrite .mgmt a 0xFFFFFFFF) s

/-- The start of STICKY_CLEAR. -/
def runStickyClear (p : Packet) (s : State) (c : Cur) : State :=
  let a := pfld p 8 0 32
  guarded (firstOf [s.precheck 0x72 p 8 (namedBits [(8, 0, 32), (0xC, 0, 32)]), clearStatus a])
    (fun s c => (if a = allSticky then s.clearSticky else s.bridgeWrite .mgmt a (BitVec.ofNat 32 (pfld p 0xC 0 32))).complete c 0 0 0)
    s c

/-- STICKY_CLEAR (R423). -/
def execStickyClear (p : Packet) (s : State) : Host.Outcome State Fault Refusal := .next (s.hostCmd 0x72 p (runStickyClear p))

/-- The start of SPARE_MAP_READ. -/
def runSpareMapRead (p : Packet) (s : State) (c : Cur) : State :=
  guarded (firstOf [s.precheck 0x73 p 12 (namedBits bufFields), stIf (!dataOk p dlenMax) 3])
    (fun s c => s.toBuffer c (wholeRecords p (s.repairMap.flatMap Repair.bytes)) s.repairMap.length 0) s c

/-- SPARE_MAP_READ (R423, R452). -/
def execSpareMapRead (p : Packet) (s : State) : Host.Outcome State Fault Refusal := .next (s.hostCmd 0x73 p (runSpareMapRead p))

/- Group 0x8 (R424) --------------------------------------------------------------------------------------------------------------- -/

/-- The start of SYNC_CONFIG. -/
def runSyncConfig (p : Packet) (s : State) (c : Cur) : State :=
  guarded (firstOf [s.precheck 0x80 p 4 (namedBits [(8, 0, 3), (8, 8, 8)]), stIf s.siteActive 8])
    (fun s c => (s.bridgeWrite .mgmt (aSyn 0x100) (BitVec.ofNat 32 (pfld p 8 0 32))).complete c 0 0 0) s c

/-- SYNC_CONFIG (R424). -/
def execSyncConfig (p : Packet) (s : State) : Host.Outcome State Fault Refusal := .next (s.hostCmd 0x80 p (runSyncConfig p))

/-- The start of SYNC_SEND. -/
def runSyncSend (p : Packet) (s : State) (c : Cur) : State :=
  guarded (firstOf [s.precheck 0x81 p 4 (namedBits [(8, 0, 4), (8, 8, 7)]), stIf (pfld p 8 0 4 != 1 && pfld p 8 0 4 != 3) 3,
      stIf (s.rf (aSyn 0x100) 0 2 != 2) 0xF])
    (fun s c => (s.bridgeWrite .mgmt (aSyn 0x104) (BitVec.ofNat 32 (pfld p 8 0 4 + pfld p 8 8 7 * 2 ^ 8 + 2 ^ 31))).complete c 0 0 0) s c

/-- SYNC_SEND (R424). -/
def execSyncSend (p : Packet) (s : State) : Host.Outcome State Fault Refusal := .next (s.hostCmd 0x81 p (runSyncSend p))

/-- RATE and RELOCK of the groups in turn: the state, the accepted groups, the refused groups with their codes (R261). -/
def State.relockAll (s : State) (rate : W32) : List Nat → State × List Nat × List (Nat × Nat)
  | [] => (s, [], [])
  | g :: l =>
    let s1 := s.bridgeWrite .mgmt (aSyn (0x10 + 0x10 * g)) rate
    let k := s1.relockCode g
    let r := (s1.bridgeWrite .mgmt (aSyn (0x14 + 0x10 * g)) 1).relockAll rate l
    if k = 0 then (r.1, g :: r.2.1, r.2.2) else (r.1, r.2.1, (g, k) :: r.2.2)

/-- The groups of PG_RELOCK. -/
def pktGroups (p : Packet) : List Nat := (List.range 8).filter fun g => pfld p 8 g 1 == 1

/-- The start of PG_RELOCK. -/
def runPgRelock (p : Packet) (s : State) (c : Cur) : State :=
  guarded (firstOf [s.precheck 0x82 p 12 (namedBits [(8, 0, 8), (0xC, 0, 11), (0xC, 16, 6), (0x10, 0, 20)]), stIf s.siteActive 8])
    (fun s c =>
      let s1 := s.bridgeWrite .mgmt (aSyn 0) (BitVec.ofNat 32 (pfld p 0x10 0 20))
      let r := s1.relockAll (BitVec.ofNat 32 (pfld p 0xC 0 32)) (pktGroups p)
      r.1.setWait c (.relock (maskOf r.2.1) (maskOf (r.2.2.map (·.1)))
        ((r.2.2.map fun q => q.2 * 2 ^ (4 * q.1)).foldl (· + ·) 0))) s c

/-- PG_RELOCK (R424). -/
def execPgRelock (p : Packet) (s : State) : Host.Outcome State Fault Refusal := .next (s.hostCmd 0x82 p (runPgRelock p))

/- Group 0x9 (R425, R442, R458, R459) -------------------------------------------------------------------------------------------------- -/

/-- Every lane stays in electrical idle until it is configured again (R459). -/
def State.keepIdle (s : State) : State :=
  (List.range 64).foldl (fun t n => t.setLane n { t.lane n with kept := true }) s

/-- Steps 1 to 4 of R458. -/
def State.quiesceAll (s : State) : State :=
  let s1 := { ((s.stopSites (List.range 256)).withdraw).idleAll with engStop := true }.keepIdle.drainStores
  (((List.range 8).foldl State.dmaFinish s1).thrsQuiet).drainStores

/-- Steps 5 and 6 of R458. -/
def State.makeSafe (s : State) : State :=
  { (s.times State.mapWrite s.repairQ.length).writeHistory 2 with safe := true }.wfB 8 1 1 1

/-- The start of PREPARE_REMOVAL, and the removal preparation. -/
def runPrepareRemoval (p : Packet) (s : State) (c : Cur) : State :=
  guarded (s.precheck 0x90 p 0 0)
    (fun s c => ((s.completeAll (fun x => x.wait.abortable) 0xA 0).quiesceAll.makeSafe).complete c 0 0 0) s c

/-- PREPARE_REMOVAL (R425, R458). -/
def execPrepareRemoval (p : Packet) (s : State) : Host.Outcome State Fault Refusal :=
  .next (s.hostCmd 0x90 p (runPrepareRemoval p))

/-- A device reset is accepted: every other command ends, this one completes, and a history entry is written (R425,
R442). -/
def State.resetAccepted (s : State) (c : Cur) : State :=
  (((s.wfB 8 3 1 1).completeAll (fun x => x.id != c.id) 0xA 0).complete c 0 0 0).writeHistory 1

/-- The start of DEVICE_RESET. -/
def runDeviceReset (p : Packet) (s : State) (c : Cur) : State :=
  guarded (firstOf [s.precheck 0x91 p 4 (namedBits [(8, 0, 32)]),
      stIf (pfld p 8 0 32 == 0 || decide (1000 < pfld p 8 0 32)) 3]) State.resetAccepted s c

/-- DEVICE_RESET (R425, R442). -/
def execDeviceReset (p : Packet) (s : State) : Host.Outcome State Fault Refusal := .next (s.hostCmd 0x91 p (runDeviceReset p))

/-- SAFE_N is released, and engine selection and the Granary restart unless the device has tripped (R459, R468). -/
def State.resume (s : State) : State := { s with safe := false, engStop := s.bit (aHlt 4) 2 }.wfB 8 1 1 0

/-- The start of RESUME. -/
def runResume (p : Packet) (s : State) (c : Cur) : State :=
  guarded (firstOf [s.precheck 0x92 p 0 0, stIf (!s.bitB 8 1) 8]) (fun s c => s.resume.complete c 0 0 0) s c

/-- RESUME (R425, R459). -/
def execResume (p : Packet) (s : State) : Host.Outcome State Fault Refusal := .next (s.hostCmd 0x92 p (runResume p))

/- The link (R392, R393) ------------------------------------------------------------------------------------------------------------------ -/

/-- The endpoint is reset: configuration space, BAR0, BAR2 and the queues; completions of commands in progress are
discarded (R393). What BAR0.STATUS shows of the device is kept for the next link (`State.bar0View`; DEDUCED, log 101). -/
def State.linkDown (s : State) : State :=
  if s.power = .off then s
  else
    (({ s with bar0 := s.bar0.filter (fun p => p.1 == 8), bar2 := [], cfgSpace := [], msixPend := 0, queues := [],
               inprog := s.inprog.map fun (c : Cur) => { c with live := false } }).setB (aCmd 8) 0).wr (aCmd 0) 0

/-- The link ends, or PERST_N moves: while it is asserted the endpoint is held in link reset (R393, R437). -/
def State.linkEnd (s : State) : LinkEnd → State
  | .perst true => { s.linkDown with perst := true }
  | .perst false => { s with perst := false }
  | _ => s.linkDown

/-- LINK_RESET (R393, R437). -/
def execLinkReset (why : LinkEnd) (s : State) : Host.Outcome State Fault Refusal := .next (s.linkEnd why)

/-- The link has trained to a speed (1 to 5) and a width (R392). -/
def State.linkTrained (s : State) (speed width : Nat) : State :=
  if s.power = .up ∧ s.perst = false ∧ 1 ≤ speed ∧ speed ≤ 5 ∧ (width = 1 ∨ width = 2 ∨ width = 4 ∨ width = 8) then
    s.wr (aCmd 0) (BitVec.ofNat 32 (speed + width * 2 ^ 4 + 2 ^ 8))
  else s

/-- LINK_UP (R392). -/
def execLinkUp (speed : BitVec 3) (width : BitVec 4) (s : State) : Host.Outcome State Fault Refusal :=
  .next (s.linkTrained speed.toNat width.toNat)

end Sys2Proof.Machine
end

