-- ==== Sys2Proof/Machine/Units.lean ====
section
/-!
DEFINITION. The commands of the function units: one trigger of a unit by a ready thread (chapter 3), and a whole
instruction (chapter 2).
-/

namespace Sys2Proof.Machine

/-- The index of an ALU operation among the trigger ports. -/
def aluIdx : AluOp → Nat
  | .add => 0 | .addc => 1 | .sub => 2 | .subb => 3 | .and => 4 | .or => 5 | .xor => 6 | .andn => 7
  | .min => 8 | .max => 9 | .minu => 10 | .maxu => 11

/-- The index of a shifter operation. -/
def shIdx : ShOp → Nat
  | .shl => 0 | .shr => 1 | .sar => 2 | .rol => 3 | .ror => 4 | .bswap => 5

/-- The index of a multiplier operation. -/
def mulIdx : MulOp → Nat
  | .mul => 0 | .mulhu => 1 | .mulhs => 2

/-- The index of a bit-field operation. -/
def bfIdx : BfOp → Nat
  | .extu => 0 | .exts => 1 | .dep => 2 | .clz => 3 | .ctz => 4 | .popc => 5 | .find1 => 6 | .find0 => 7

/-- The index of a compare. -/
def cmpIdx : CmpOp → Nat
  | .eq => 0 | .lt => 1 | .ltu => 2 | .le => 3 | .leu => 4 | .test => 5 | .bit => 6

/-- The index of a load. -/
def ldIdx : LdOp → Nat
  | .ld8u => 0 | .ld16u => 1 | .ld32u => 2 | .ld64 => 3 | .ld8s => 4 | .ld16s => 5 | .ld32s => 6

/-- The index of a store. -/
def stIdx : StOp → Nat
  | .st8 => 0 | .st16 => 1 | .st32 => 2 | .st64 => 3

/-- The index of a feed. -/
def feedIdx : FeedOp → Nat
  | .feed8 => 0 | .feed16 => 1 | .feed32 => 2 | .feed64 => 3

/-- The destination port of a trigger (R77 and the port tables of chapter 3). -/
def trigPort : Trig → Nat
  | .alu u op => 0x48 + 0x40 * u.val + aluIdx op
  | .sh op => 0xC8 + shIdx op
  | .mul op => 0x108 + mulIdx op
  | .div sg => 0x148 + sg.toNat
  | .bf op => 0x188 + bfIdx op
  | .cmp op g => 0x1C8 + 8 * cmpIdx op + g.val
  | .glogic => 0x1C1
  | .ld op => 0x2C8 + ldIdx op
  | .st op => 0x2D0 + stIdx op
  | .drain => 0x2D8
  | .jump rel => 0x308 + rel.toNat
  | .call rel => 0x30A + rel.toNat
  | .loop n => 0x310 + n.val
  | .lbreak n => 0x312 + n.val
  | .gate => 0x348
  | .ret => 0x349
  | .rfe => 0x34A
  | .push n => 0x390 + n.val
  | .assist n => 0x3A0 + n.val
  | .pull n => 0x3A8 + n.val
  | .wait => 0x3C8
  | .signal => 0x3C9
  | .poll => 0x3CA
  | .setstate => 0x408
  | .feed op => 0x409 + feedIdx op
  | .lfsr => 0x40D
  | .setptr => 0x448
  | .save => 0x449
  | .restore => 0x44A
  | .setxsp => 0x44C
  | .xsave => 0x44D
  | .xrestore => 0x44E
  | .bkpt => 0x488
  | .trace => 0x489

/-- A thread triggers a unit once with operand B. -/
def State.trigger (s : State) (t : Th) (g : Trig) (b : W64) : State := s.trigOnce (thIx t) g b (trigPort g)

/-- A word of the program store that holds the instruction at `pc` is poisoned (R344). -/
def State.progPois (s : State) (e : Nat) (pc : Pc) : Bool :=
  let k := progWord0 + e / 9 * 0x40000 + 2 * pc.toNat
  s.wordPois k || s.wordPois (k + 1)

/-- INSTRUCTION (R41): the selected thread fetches and runs the instruction at its PC; `ue`: the fetched word has an
uncorrectable error (R66), as a word has that a copy of the Gleaner poisoned (R344). -/
def execInstruction (t : Th) (ue : Bool) (s : State) : Host.Outcome State Fault Refusal :=
  let i := thIx t
  let s := s.landShort i
  if !s.mayRun i then .next s
  else
  let s := s.firstFetch i
  if ue || s.progPois (engOf i) (s.th i).pc then .next (((s.setB (aEng (engOf i) 0x24) 0).runWord i faultWord).spillGo i)
  else .next ((s.runWord i (s.instrAt (s.th i).pc)).spillGo i)

/-- ALU_OPERATION (R83). -/
def execAluOperation (t : Th) (u : Fin 2) (op : AluOp) (b : W64) (s : State) : Host.Outcome State Fault Refusal :=
  .next (s.trigger t (.alu u op) b)

/-- SHIFTER_OPERATION (R85). -/
def execShifterOperation (t : Th) (op : ShOp) (b : W64) (s : State) : Host.Outcome State Fault Refusal :=
  .next (s.trigger t (.sh op) b)

/-- MULTIPLY (R86). -/
def execMultiply (t : Th) (op : MulOp) (b : W64) (s : State) : Host.Outcome State Fault Refusal :=
  .next (s.trigger t (.mul op) b)

/-- DIVIDE (R87, R88). -/
def execDivide (t : Th) (signed : Bool) (b : W64) (s : State) : Host.Outcome State Fault Refusal :=
  .next (s.trigger t (.div signed) b)

/-- BIT_FIELD_OPERATION (R89). -/
def execBitFieldOperation (t : Th) (op : BfOp) (b : W64) (s : State) : Host.Outcome State Fault Refusal :=
  .next (s.trigger t (.bf op) b)

/-- GUARD_COMPARE (R90). -/
def execGuardCompare (t : Th) (op : CmpOp) (g : Fin 8) (b : W64) (s : State) : Host.Outcome State Fault Refusal :=
  .next (s.trigger t (.cmp op g) b)

/-- GLOGIC (R91). -/
def execGlogic (t : Th) (b : W64) (s : State) : Host.Outcome State Fault Refusal := .next (s.trigger t .glogic b)

/-- LOAD (R95). -/
def execLoad (t : Th) (op : LdOp) (b : W64) (s : State) : Host.Outcome State Fault Refusal :=
  .next (s.trigger t (.ld op) b)

/-- STORE (R95). -/
def execStore (t : Th) (op : StOp) (b : W64) (s : State) : Host.Outcome State Fault Refusal :=
  .next (s.trigger t (.st op) b)

/-- DRAIN (R100). -/
def execDrain (t : Th) (s : State) : Host.Outcome State Fault Refusal := .next (s.trigger t .drain 0)

/-- JUMP (R101). -/
def execJump (t : Th) (rel : Bool) (b : W64) (s : State) : Host.Outcome State Fault Refusal :=
  .next (s.trigger t (.jump rel) b)

/-- CALL (R101). -/
def execCall (t : Th) (rel : Bool) (b : W64) (s : State) : Host.Outcome State Fault Refusal :=
  .next (s.trigger t (.call rel) b)

/-- LOOP (R102). -/
def execLoop (t : Th) (n : Fin 2) (b : W64) (s : State) : Host.Outcome State Fault Refusal :=
  .next (s.trigger t (.loop n) b)

/-- LBREAK (R102). -/
def execLbreak (t : Th) (n : Fin 2) (s : State) : Host.Outcome State Fault Refusal := .next (s.trigger t (.lbreak n) 0)

/-- GATE (R126). -/
def execGate (t : Th) (b : W64) (s : State) : Host.Outcome State Fault Refusal := .next (s.trigger t .gate b)

/-- RETURN (R127). -/
def execRet (t : Th) (b : W64) (s : State) : Host.Outcome State Fault Refusal := .next (s.trigger t .ret b)

/-- RFE (R136, R147). -/
def execRfe (t : Th) (s : State) : Host.Outcome State Fault Refusal := .next ((s.trigger t .rfe 0).spillGo (thIx t))

/-- PUSH (R105). -/
def execPush (t : Th) (px : Fin 16) (b : W64) (s : State) : Host.Outcome State Fault Refusal :=
  .next (s.trigger t (.push px) b)

/-- ASSIST_PUSH (R105, R318). -/
def execAssistPush (t : Th) (n : Fin 4) (b : W64) (s : State) : Host.Outcome State Fault Refusal :=
  .next (s.trigger t (.assist n) b)

/-- PULL (R107). -/
def execPull (t : Th) (n : Fin 4) (s : State) : Host.Outcome State Fault Refusal := .next (s.trigger t (.pull n) 0)

/-- WAIT (R108, R191, R192). -/
def execWait (t : Th) (b : W64) (s : State) : Host.Outcome State Fault Refusal := .next (s.trigger t .wait b)

/-- SIGNAL (R110, R187). -/
def execSignal (t : Th) (b : W64) (s : State) : Host.Outcome State Fault Refusal := .next (s.trigger t .signal b)

/-- POLL (R194). -/
def execPoll (t : Th) (b : W64) (s : State) : Host.Outcome State Fault Refusal := .next (s.trigger t .poll b)

/-- SETSTATE (R111). -/
def execSetstate (t : Th) (b : W64) (s : State) : Host.Outcome State Fault Refusal := .next (s.trigger t .setstate b)

/-- FEED (R112). -/
def execFeed (t : Th) (op : FeedOp) (b : W64) (s : State) : Host.Outcome State Fault Refusal :=
  .next (s.trigger t (.feed op) b)

/-- LFSR (R112). -/
def execLfsr (t : Th) (b : W64) (s : State) : Host.Outcome State Fault Refusal := .next (s.trigger t .lfsr b)

/-- SETPTR (R114). -/
def execSetptr (t : Th) (b : W64) (s : State) : Host.Outcome State Fault Refusal := .next (s.trigger t .setptr b)

/-- SAVE (R115). -/
def execSave (t : Th) (b : W64) (s : State) : Host.Outcome State Fault Refusal := .next ((s.trigger t .save b).spillGo (thIx t))

/-- RESTORE (R115). -/
def execRestore (t : Th) (b : W64) (s : State) : Host.Outcome State Fault Refusal := .next ((s.trigger t .restore b).spillGo (thIx t))

/-- SETXSP (R114). -/
def execSetxsp (t : Th) (b : W64) (s : State) : Host.Outcome State Fault Refusal := .next (s.trigger t .setxsp b)

/-- XSAVE (R141). -/
def execXsave (t : Th) (s : State) : Host.Outcome State Fault Refusal := .next ((s.trigger t .xsave 0).spillGo (thIx t))

/-- XRESTORE (R142). -/
def execXrestore (t : Th) (s : State) : Host.Outcome State Fault Refusal := .next ((s.trigger t .xrestore 0).spillGo (thIx t))

/-- BKPT (R118). -/
def execBkpt (t : Th) (b : W64) (s : State) : Host.Outcome State Fault Refusal := .next (s.trigger t .bkpt b)

/-- TRACE (R118, R120). -/
def execTrace (t : Th) (b : W64) (s : State) : Host.Outcome State Fault Refusal := .next (s.trigger t .trace b)

end Sys2Proof.Machine
end

