-- ==== Sys2Proof/Machine/Dispatch.lean ====
section
/-!
DEFINITION. The dispatch: every command runs the one meaning written for it.
-/

namespace Sys2Proof.Machine

/-- The effect of a command on everything but the queue. -/
def exec (i : Instr) (s : State) : Host.Outcome State Fault Refusal :=
  match i with
  | .instruction t ue => Sys2Proof.Machine.execInstruction t ue s
  | .aluOperation t u op b => Sys2Proof.Machine.execAluOperation t u op b s
  | .shifterOperation t op b => Sys2Proof.Machine.execShifterOperation t op b s
  | .multiply t op b => Sys2Proof.Machine.execMultiply t op b s
  | .divide t signed b => Sys2Proof.Machine.execDivide t signed b s
  | .bitFieldOperation t op b => Sys2Proof.Machine.execBitFieldOperation t op b s
  | .guardCompare t op g b => Sys2Proof.Machine.execGuardCompare t op g b s
  | .glogic t b => Sys2Proof.Machine.execGlogic t b s
  | .load t op b => Sys2Proof.Machine.execLoad t op b s
  | .store t op b => Sys2Proof.Machine.execStore t op b s
  | .drain t => Sys2Proof.Machine.execDrain t s
  | .jump t rel b => Sys2Proof.Machine.execJump t rel b s
  | .call t rel b => Sys2Proof.Machine.execCall t rel b s
  | .loop t n b => Sys2Proof.Machine.execLoop t n b s
  | .lbreak t n => Sys2Proof.Machine.execLbreak t n s
  | .gate t b => Sys2Proof.Machine.execGate t b s
  | .ret t b => Sys2Proof.Machine.execRet t b s
  | .rfe t => Sys2Proof.Machine.execRfe t s
  | .push t px b => Sys2Proof.Machine.execPush t px b s
  | .assistPush t n b => Sys2Proof.Machine.execAssistPush t n b s
  | .pull t n => Sys2Proof.Machine.execPull t n s
  | .pullReply t => Sys2Proof.Machine.execPullReply t s
  | .wait t b => Sys2Proof.Machine.execWait t b s
  | .signal t b => Sys2Proof.Machine.execSignal t b s
  | .poll t b => Sys2Proof.Machine.execPoll t b s
  | .setstate t b => Sys2Proof.Machine.execSetstate t b s
  | .feed t op b => Sys2Proof.Machine.execFeed t op b s
  | .lfsr t b => Sys2Proof.Machine.execLfsr t b s
  | .setptr t b => Sys2Proof.Machine.execSetptr t b s
  | .save t b => Sys2Proof.Machine.execSave t b s
  | .restore t b => Sys2Proof.Machine.execRestore t b s
  | .setxsp t b => Sys2Proof.Machine.execSetxsp t b s
  | .xsave t => Sys2Proof.Machine.execXsave t s
  | .xrestore t => Sys2Proof.Machine.execXrestore t s
  | .bkpt t b => Sys2Proof.Machine.execBkpt t b s
  | .trace t b => Sys2Proof.Machine.execTrace t b s
  | .unitResult t u => Sys2Proof.Machine.execUnitResult t u s
  | .loadResult t ecc => Sys2Proof.Machine.execLoadResult t ecc s
  | .storeDrain t => Sys2Proof.Machine.execStoreDrain t s
  | .spillTransferEnd t ecc => Sys2Proof.Machine.execSpillTransferEnd t ecc s
  | .exceptionEntry t => Sys2Proof.Machine.execExceptionEntry t s
  | .culmSlot c => Sys2Proof.Machine.execCulmSlot c s
  | .wordDelivery c => Sys2Proof.Machine.execWordDelivery c s
  | .rxDiscard c => Sys2Proof.Machine.execRxDiscard c s
  | .culmCntClear => Sys2Proof.Machine.execCulmCntClear s
  | .culmFrameLo => Sys2Proof.Machine.execCulmFrameLo s
  | .instrLo e => Sys2Proof.Machine.execInstrLo e s
  | .traceLo e => Sys2Proof.Machine.execTraceLo e s
  | .engCntClear e => Sys2Proof.Machine.execEngCntClear e s
  | .directedEvent => Sys2Proof.Machine.execDirectedEvent s
  | .broadcastEvent => Sys2Proof.Machine.execBroadcastEvent s
  | .grnTimeAdvance => Sys2Proof.Machine.execGrnTimeAdvance s
  | .taskUrgent t => Sys2Proof.Machine.execTaskUrgent t s
  | .quantumExpiry t => Sys2Proof.Machine.execQuantumExpiry t s
  | .roundBoundary => Sys2Proof.Machine.execRoundBoundary s
  | .grant sheaf pos => Sys2Proof.Machine.execGrant sheaf pos s
  | .quiesceComplete t => Sys2Proof.Machine.execQuiesceComplete t s
  | .pageInComplete t => Sys2Proof.Machine.execPageInComplete t s
  | .pageOutComplete t => Sys2Proof.Machine.execPageOutComplete t s
  | .slotEmpties t => Sys2Proof.Machine.execSlotEmpties t s
  | .kill => Sys2Proof.Machine.execKill s
  | .raise => Sys2Proof.Machine.execRaise s
  | .setPrio => Sys2Proof.Machine.execSetPrio s
  | .setAffinity => Sys2Proof.Machine.execSetAffinity s
  | .read => Sys2Proof.Machine.execRead s
  | .refusedOperation => Sys2Proof.Machine.execRefusedOperation s
  | .grnCntClear => Sys2Proof.Machine.execGrnCntClear s
  | .queueEntry n => Sys2Proof.Machine.execQueueEntry n s
  | .fetchReturn n seen => Sys2Proof.Machine.execFetchReturn n seen s
  | .idleEntry n => Sys2Proof.Machine.execIdleEntry n s
  | .burstStart n => Sys2Proof.Machine.execBurstStart n s
  | .startRelease => Sys2Proof.Machine.execStartRelease s
  | .frame n => Sys2Proof.Machine.execFrame n s
  | .burstEnd n => Sys2Proof.Machine.execBurstEnd n s
  | .stop n => Sys2Proof.Machine.execStop n s
  | .flush n => Sys2Proof.Machine.execFlush n s
  | .failRecord g rx => Sys2Proof.Machine.execFailRecord g rx s
  | .overflowSummary g => Sys2Proof.Machine.execOverflowSummary g s
  | .closeMark g => Sys2Proof.Machine.execCloseMark g s
  | .recordIntake n => Sys2Proof.Machine.execRecordIntake n s
  | .summaryIntake n => Sys2Proof.Machine.execSummaryIntake n s
  | .closeMarkIntake n => Sys2Proof.Machine.execCloseMarkIntake n s
  | .bitmapWrite n seen => Sys2Proof.Machine.execBitmapWrite n seen s
  | .regionReset n => Sys2Proof.Machine.execRegionReset n s
  | .query n => Sys2Proof.Machine.execQuery n s
  | .scan n => Sys2Proof.Machine.execScan n s
  | .fetch n seen => Sys2Proof.Machine.execFetch n seen s
  | .tentative n => Sys2Proof.Machine.execTentative n s
  | .undo n => Sys2Proof.Machine.execUndo n s
  | .cost n => Sys2Proof.Machine.execCost n s
  | .commit n seen => Sys2Proof.Machine.execCommit n seen s
  | .close n => Sys2Proof.Machine.execClose n s
  | .reset n => Sys2Proof.Machine.execReset n s
  | .release n => Sys2Proof.Machine.execRelease n s
  | .badOp n => Sys2Proof.Machine.execBadOp n s
  | .flPush n page => Sys2Proof.Machine.execFlPush n page s
  | .thrCntClear n => Sys2Proof.Machine.execThrCntClear n s
  | .pgCntClear g => Sys2Proof.Machine.execPgCntClear g s
  | .pgFrameLo g => Sys2Proof.Machine.execPgFrameLo g s
  | .finish site => Sys2Proof.Machine.execFinish site s
  | .siteDone site => Sys2Proof.Machine.execSiteDone site s
  | .relock g => Sys2Proof.Machine.execRelock g s
  | .pllLock g => Sys2Proof.Machine.execPllLock g s
  | .lossOfLock g => Sys2Proof.Machine.execLossOfLock g s
  | .trefAbsent => Sys2Proof.Machine.execTrefAbsent s
  | .trefPresent => Sys2Proof.Machine.execTrefPresent s
  | .measWindow edges => Sys2Proof.Machine.execMeasWindow edges s
  | .train n v => Sys2Proof.Machine.execTrain n v s
  | .trainingComplete n r => Sys2Proof.Machine.execTrainingComplete n r s
  | .txErrUpdate n err => Sys2Proof.Machine.execTxErrUpdate n err s
  | .measFail n => Sys2Proof.Machine.execMeasFail n s
  | .sweepEnd n r => Sys2Proof.Machine.execSweepEnd n r s
  | .correctionOpportunity n now => Sys2Proof.Machine.execCorrectionOpportunity n now s
  | .eyeScan n v => Sys2Proof.Machine.execEyeScan n v s
  | .eyeScanDone n errors => Sys2Proof.Machine.execEyeScanDone n errors s
  | .prbsLock n => Sys2Proof.Machine.execPrbsLock n s
  | .prbsLockLost n bits errors => Sys2Proof.Machine.execPrbsLockLost n bits errors s
  | .prbsClear n => Sys2Proof.Machine.execPrbsClear n s
  | .prbsBitsLo n bits errors => Sys2Proof.Machine.execPrbsBitsLo n bits errors s
  | .syncWord w => Sys2Proof.Machine.execSyncWord w s
  | .epoch => Sys2Proof.Machine.execEpoch s
  | .startWord => Sys2Proof.Machine.execStartWord s
  | .stopWord => Sys2Proof.Machine.execStopWord s
  | .sendEpoch arg => Sys2Proof.Machine.execSendEpoch arg s
  | .sendStop arg => Sys2Proof.Machine.execSendStop arg s
  | .leaderStart rdy => Sys2Proof.Machine.execLeaderStart rdy s
  | .startTimeout => Sys2Proof.Machine.execStartTimeout s
  | .extest k d => Sys2Proof.Machine.execExtest s k d
  | .extestExit k d => Sys2Proof.Machine.execExtestExit s k d
  | .bankAccess b ecc => Sys2Proof.Machine.execBankAccess b ecc s
  | .nonowner b => Sys2Proof.Machine.execNonowner b s
  | .ownerWrite b a v => Sys2Proof.Machine.execOwnerWrite b a v s
  | .handoverComplete b => Sys2Proof.Machine.execHandoverComplete b s
  | .retentionEntry b => Sys2Proof.Machine.execRetentionEntry b s
  | .retentionEntered b => Sys2Proof.Machine.execRetentionEntered b s
  | .bankWake b => Sys2Proof.Machine.execBankWake b s
  | .bankAwake b => Sys2Proof.Machine.execBankAwake b s
  | .gleanerRow r => Sys2Proof.Machine.execGleanerRow r s
  | .repairMapWrite => Sys2Proof.Machine.execRepairMapWrite s
  | .dramAccess k ecc => Sys2Proof.Machine.execDramAccess k ecc s
  | .scrubRead k burst ecc seen => Sys2Proof.Machine.execScrubRead k burst ecc seen s
  | .softPpr k found => Sys2Proof.Machine.execSoftPpr k found s
  | .transactionGrant t cycles => Sys2Proof.Machine.execTransactionGrant t cycles s
  | .mtxCntClear => Sys2Proof.Machine.execMtxCntClear s
  | .dmaEnable c => Sys2Proof.Machine.execDmaEnable c s
  | .dmaGo c => Sys2Proof.Machine.execDmaGo c s
  | .dmaAbort c => Sys2Proof.Machine.execDmaAbort c s
  | .dmaTrigger src => Sys2Proof.Machine.execDmaTrigger src s
  | .dmaElement seen stored => Sys2Proof.Machine.execDmaElement seen stored s
  | .blockEnd c => Sys2Proof.Machine.execBlockEnd c s
  | .match c pin => Sys2Proof.Machine.execMatch c pin s
  | .wrap c pin => Sys2Proof.Machine.execWrap c pin s
  | .action => Sys2Proof.Machine.execAction s
  | .maxgate c pin => Sys2Proof.Machine.execMaxgate c pin s
  | .tooFast c => Sys2Proof.Machine.execTooFast c s
  | .groupStart spread => Sys2Proof.Machine.execGroupStart spread s
  | .slowStep c => Sys2Proof.Machine.execSlowStep c s
  | .tmrCountRead p => Sys2Proof.Machine.execTmrCountRead p s
  | .queueEnable q v => Sys2Proof.Machine.execQueueEnable q v s
  | .queueDisable q v => Sys2Proof.Machine.execQueueDisable q v s
  | .sqTail q v => Sys2Proof.Machine.execSqTail q v s
  | .cqHead q v => Sys2Proof.Machine.execCqHead q v s
  | .msixMessage v => Sys2Proof.Machine.execMsixMessage v s
  | .linkReset why => Sys2Proof.Machine.execLinkReset why s
  | .badOpcode op p => Sys2Proof.Machine.execBadOpcode op p s
  | .nop p => Sys2Proof.Machine.execNop p s
  | .identify p => Sys2Proof.Machine.execIdentify p s
  | .abort p => Sys2Proof.Machine.execAbort p s
  | .fence p => Sys2Proof.Machine.execFence p s
  | .noticeWait p => Sys2Proof.Machine.execNoticeWait p s
  | .imageErase p => Sys2Proof.Machine.execImageErase p s
  | .imageStage p => Sys2Proof.Machine.execImageStage p s
  | .imageCommit p => Sys2Proof.Machine.execImageCommit p s
  | .imageActivate p => Sys2Proof.Machine.execImageActivate p s
  | .imageActivateHost p => Sys2Proof.Machine.execImageActivateHost p s
  | .imageRead p => Sys2Proof.Machine.execImageRead p s
  | .keyProvision p => Sys2Proof.Machine.execKeyProvision p s
  | .keyRevoke p => Sys2Proof.Machine.execKeyRevoke p s
  | .sigPolicy p => Sys2Proof.Machine.execSigPolicy p s
  | .regRead p => Sys2Proof.Machine.execRegRead p s
  | .regWrite p => Sys2Proof.Machine.execRegWrite p s
  | .regBlockRead p => Sys2Proof.Machine.execRegBlockRead p s
  | .memRead p => Sys2Proof.Machine.execMemRead p s
  | .memWrite p => Sys2Proof.Machine.execMemWrite p s
  | .bankOwner p => Sys2Proof.Machine.execBankOwner p s
  | .siteResults p => Sys2Proof.Machine.execSiteResults p s
  | .siteArm p => Sys2Proof.Machine.execSiteArm p s
  | .testStart p => Sys2Proof.Machine.execTestStart p s
  | .testStop p => Sys2Proof.Machine.execTestStop p s
  | .siteDisarm p => Sys2Proof.Machine.execSiteDisarm p s
  | .siteWait p => Sys2Proof.Machine.execSiteWait p s
  | .siteWaitTimeout q => Sys2Proof.Machine.execSiteWaitTimeout q s
  | .doorbell p => Sys2Proof.Machine.execDoorbell p s
  | .siteSignal p => Sys2Proof.Machine.execSiteSignal p s
  | .taskQuery p => Sys2Proof.Machine.execTaskQuery p s
  | .taskSignal p => Sys2Proof.Machine.execTaskSignal p s
  | .taskKill p => Sys2Proof.Machine.execTaskKill p s
  | .taskSetPrio p => Sys2Proof.Machine.execTaskSetPrio p s
  | .taskSetAffinity p => Sys2Proof.Machine.execTaskSetAffinity p s
  | .taskList p => Sys2Proof.Machine.execTaskList p s
  | .laneTrain p => Sys2Proof.Machine.execLaneTrain p s
  | .laneCal p => Sys2Proof.Machine.execLaneCal p s
  | .laneEyeScan p => Sys2Proof.Machine.execLaneEyeScan p s
  | .lanePrbs p => Sys2Proof.Machine.execLanePrbs p s
  | .healthRead p => Sys2Proof.Machine.execHealthRead p s
  | .stickyRead p => Sys2Proof.Machine.execStickyRead p s
  | .stickyClear p => Sys2Proof.Machine.execStickyClear p s
  | .spareMapRead p => Sys2Proof.Machine.execSpareMapRead p s
  | .syncConfig p => Sys2Proof.Machine.execSyncConfig p s
  | .syncSend p => Sys2Proof.Machine.execSyncSend p s
  | .pgRelock p => Sys2Proof.Machine.execPgRelock p s
  | .prepareRemoval p => Sys2Proof.Machine.execPrepareRemoval p s
  | .deviceReset p => Sys2Proof.Machine.execDeviceReset p s
  | .resetDelayEnd => Sys2Proof.Machine.execResetDelayEnd s
  | .resume p => Sys2Proof.Machine.execResume p s
  | .smbusStatus pecOk => Sys2Proof.Machine.execSmbusStatus pecOk s
  | .smbusIdentity pecOk => Sys2Proof.Machine.execSmbusIdentity pecOk s
  | .smbusHealth pecOk => Sys2Proof.Machine.execSmbusHealth pecOk s
  | .alertResponse => Sys2Proof.Machine.execAlertResponse s
  | .avsReadback r next => Sys2Proof.Machine.execAvsReadback r next s
  | .avsRetry r => Sys2Proof.Machine.execAvsRetry r s
  | .powerGood => Sys2Proof.Machine.execPowerGood s
  | .powerGoodFall => Sys2Proof.Machine.execPowerGoodFall s
  | .resetN => Sys2Proof.Machine.execResetN s
  | .presenceReset => Sys2Proof.Machine.execPresenceReset s
  | .startSequence o => Sys2Proof.Machine.execStartSequence o s
  | .haltRequest => Sys2Proof.Machine.execHaltRequest s
  | .haltRelease => Sys2Proof.Machine.execHaltRelease s
  | .enter => Sys2Proof.Machine.execEnter s
  | .sleepEntry => Sys2Proof.Machine.execSleepEntry s
  | .wake src => Sys2Proof.Machine.execWake src s
  | .histSel age => Sys2Proof.Machine.execHistSel age s
  | .histCopyDone => Sys2Proof.Machine.execHistCopyDone s
  | .lfrefTaken => Sys2Proof.Machine.execLfrefTaken s
  | .lfrefLost => Sys2Proof.Machine.execLfrefLost s
  | .adcGo sensor => Sys2Proof.Machine.execAdcGo sensor s
  | .scanRequest => Sys2Proof.Machine.execScanRequest s
  | .conversionEnd code => Sys2Proof.Machine.execConversionEnd code s
  | .scanStale => Sys2Proof.Machine.execScanStale s
  | .trip => Sys2Proof.Machine.execTrip s
  | .ageWindow e count => Sys2Proof.Machine.execAgeWindow e count s
  | .ageEvaluation r => Sys2Proof.Machine.execAgeEvaluation r s
  | .lifeUpdate => Sys2Proof.Machine.execLifeUpdate s
  | .lifeRecordWrite => Sys2Proof.Machine.execLifeRecordWrite s
  | .spareReq sheaf slot => Sys2Proof.Machine.execSpareReq sheaf slot s
  | .remap e => Sys2Proof.Machine.execRemap e s
  | .devStickyUpdate => Sys2Proof.Machine.execDevStickyUpdate s
  | .railCurrentReport core lane hi io => Sys2Proof.Machine.execRailCurrentReport core lane hi io s
  | .railLink => Sys2Proof.Machine.execRailLink s
  | .registerWrite a addr v => Sys2Proof.Machine.execRegisterWrite a addr v s
  | .tick c pin => Sys2Proof.Machine.execTick c pin s
  | .linkUp speed width => Sys2Proof.Machine.execLinkUp speed width s
  | .frameEdge g => Sys2Proof.Machine.execFrameEdge g s

end Sys2Proof.Machine
end

