-- ==== Sys2Proof/Machine/Tick.lean ====
section
/-!
DEFINITION. What one cycle of the engine clock does when no command is waiting.
-/

namespace Sys2Proof.Machine

/-- A mapped engine with no instruction in progress counts an idle cycle (IDLE, R518). -/
def State.tickIdle (s : State) (e : Nat) : State :=
  if s.mapped e && (s.selected e).isNone then s.bump (aEng e 0x14) 1 else s

/-- The channels on which some thread is recorded as waiting, each once (CULM.RXWAIT). -/
def State.rxWaited (s : State) : List Nat :=
  (List.range 1024).filter fun c => s.ths.any fun p => p.2.wait == some (.rx c)

/-- Training in progress goes on (R275). -/
def State.trainTick (s : State) : State := (List.range 64).foldl State.trainStep s

/-- One ECLK cycle with no command: the cycle count, the idle and receive-wait counters, the end of the cycle in which a
scheduling round began and of the PCLK cycles of the peripheral buses and the steps of training in progress. Asleep or not started, the engine clock does not run (R435, R455); in halt it does (R453). -/
def State.tick (s : State) : State :=
  if s.sleeping || s.power != .up then s
  else
    let s1 := (List.range 108).foldl State.tickIdle s
    let s2 := s.rxWaited.foldl (fun s c => s.bump (aCulm (0x6000 + 4 * c)) 1) s1
    { s2 with eclk := s.eclk + 1, roundStart := false, granted := [], schedAt := 0, bus := [] }.trainTick

end Sys2Proof.Machine
end

