-- ==== Sys2Proof/Machine/Step.lean ====
section
/-!
DEFINITION. One step of the block: the command at the front of the queue, or, with no command waiting, one cycle of
the engine clock.
-/

namespace Sys2Proof.Machine

/-- Take the command at the front of the queue and run it; an idle block lets one ECLK cycle pass (DESIGN CHOICE,
log entry 2). -/
def step (s : State) : Host.Outcome State Fault Refusal :=
  match s.pending with
  | c :: rest => exec c { s with pending := rest }
  | [] => .next s.tick

/-- The state with the command that a table word spells put at the front of its queue. -/
def State.withFetchWord (s : State) (nbits w : Nat) : State :=
  match decodeTableWord nbits w with
  | some c => { s with pending := c :: s.pending }
  | none => s

/-- The 64 bytes of a host command join the queue as the row that their OPCODE names, with the packet that they hold beside what `p` says
of its queue and host (R398). -/
def State.submit (s : State) (w : BitVec 512) (p : Packet) : State := { s with pending := s.pending ++ [hostCommand w p] }

end Sys2Proof.Machine
end

