-- ==== Sys2Proof/Safety.lean ====
section
/-!
DEFINITION. What claims about the block rest on: the canonical forms that make equal contents equal states, what it
means that a command completes, and the frames that say what a command leaves alone.
-/

namespace Sys2Proof.Machine

/-- The sparse parts of the state are in canonical form: keys rise strictly and no entry repeats what an unlisted key
reads as; and the numbers of the host commands in progress lie below the next one. -/
structure State.Inv (s : State) : Prop where
  mem : Memory.wf s.mem = true
  hostMem : Memory.wf s.hostMem = true
  regs : spOk regReset s.regs = true
  bar0 : spOk bar0Reset s.bar0 = true
  ths : spOk (fun _ => Thread.init) s.ths = true
  engs : spOk (fun _ => EngSt.init) s.engs = true
  chans : spOk (fun _ => Chan.init) s.chans = true
  tasks : spOk (fun _ => TaskRec.absent) s.tasks = true
  banks : spOk (fun _ => BankSt.init) s.banks = true
  px : spOk (fun _ => PxSt.init) s.px = true
  pg : spOk (fun _ => PgSt.init) s.pg = true
  lanes : spOk (fun _ => LnSt.init) s.lanes = true
  thr : spOk (fun _ => ThrSt.init) s.thr = true
  regions : spOk (fun _ => Region_.init) s.regions = true
  sites : spOk (fun _ => SiteSt.init) s.sites = true
  queues : spOk (fun _ => QSt.init) s.queues = true
  flash : spOk (fun _ => (none : Option Byte)) s.flash = true
  prog : spOk (fun _ => s.progRest) s.prog = true
  pxprog : spOk (fun _ => (0 : W128)) s.pxprog = true
  scr : spOk scrIdent s.scr = true
  tsets : spOk (fun _ => (0 : BitVec 1152)) s.tsets = true
  rdesc : spOk (fun _ => (0 : W128)) s.rdesc = true
  grants : spOk (fun _ => (0 : BitVec 24)) s.grants = true
  bankPois : spOk (fun _ => false) s.bankPois = true
  poisoned : spOk (fun _ => false) s.poisoned = true
  scrubbed : spOk (fun _ => false) s.scrubbed = true
  rowCe : spOk (fun _ => (0 : Nat)) s.rowCe = true
  mtxBusy : spOk (fun _ => (0 : Nat)) s.mtxBusy = true
  bus : spOk (fun _ => BusCycle.init) s.bus = true
  dma : spOk (fun _ => DmaSt.mk 0 0 none false) s.dma = true
  bar2 : spOk bar2Reset s.bar2 = true
  cfgSpace : spOk cfgReset s.cfgSpace = true
  msixSent : spOk (fun _ => (0 : Nat)) s.msixSent = true
  recPois : spOk (fun _ => (none : Option W64)) s.recPois = true
  tmrStage : spOk (fun _ => (none : Option W32)) s.tmrStage = true
  tmrRun : spOk (fun _ => (0 : Nat)) s.tmrRun = true
  tmrGate : spOk (fun _ => (false, false, false)) s.tmrGate = true
  tmrDiv : spOk (fun _ => (0 : Nat)) s.tmrDiv = true
  tmrSlow : spOk (fun _ => false) s.tmrSlow = true
  age : spOk (fun _ => ((0 : Int), (0 : Nat))) s.age = true
  ids : ∀ x ∈ s.inprog, x.id < s.nextId

/-- SAFE_N is asserted only while the device is prepared for removal (R459): REMOVAL_PREPARED of the host's status
register is set. -/
def State.SafeInv (s : State) : Prop := s.safe = true → s.bitB 8 1 = true

/-- The command completes, in a state that has `Q`. -/
def Runs (c : Instr) (s : State) (Q : State → Prop) : Prop := ∃ t, exec c s = .next t ∧ Q t

/-- Nothing but registers of control space differs, and of those only registers of the list `l`. -/
def OnlyRegs (s t : State) (l : List Nat) : Prop := t = { s with regs := t.regs } ∧ ∀ a, a ∉ l → t.rd a = s.rd a

/-- Nothing but thread slot `i` differs. -/
def OnlyThread (s t : State) (i : Nat) : Prop := t = { s with ths := t.ths } ∧ ∀ j, j ≠ i → t.th j = s.th j

/-- Slot `i` may trigger a unit: once its operations of latency at most 1 have landed (R53) it is ready (R49), and neither a
fault of a slot of its engine nor an entry of its own awaits the ENTRY cycle (R48, R135). -/
def State.canTrigger (s : State) (i : Nat) : Prop := (s.landShort i).ready i = true ∧ (s.landShort i).noEntry i = true

/-- The state in which a trigger of slot `i` acts: its operations of latency at most 1 have landed (R53), and the FETCH of the
instruction has begun, which counts if it is the first of this residency (R200, R201). -/
def State.atTrigger (s : State) (i : Nat) : State := (s.landShort i).firstFetch i

/-- The command in progress that packet `p` of opcode `op` becomes when it is taken and starts (R404, R405). -/
def State.curOf (s : State) (op : Nat) (p : Packet) : Cur :=
  Cur.mk s.nextId op p (((s.qp p.q.val).head + 1) % s.sqLen p.q.val) true .data

/-- The state in which packet `p` of opcode `op` has been taken from its queue and starts (R404, R405). -/
def State.begun (s : State) (op : Nat) (p : Packet) : State :=
  { s.setQp p.q.val { s.qp p.q.val with head := (s.curOf op p).head } with
    lastQ := p.q.val, nextId := s.nextId + 1, inprog := s.inprog ++ [s.curOf op p] }

/-- Packet `p` of opcode `op` is taken and starts at once: its queue is next and takes (R404), its fetch succeeds (R396), the
device is awake or the command needs no waking (R456), and no earlier command, fence or exclusive command keeps it back (R405, R407, R408). -/
structure State.Starts (s : State) (op : Nat) (p : Packet) : Prop where
  next : s.pickQ = some p.q.val
  ready : s.bitB 8 0 = true
  fetched : p.fetchErr = false
  awake : 4 < op → s.sleeping = false
  fence : p.flags.getLsbD 0 = true ∨ op = 3 → s.inprog = []
  others : ∀ x ∈ s.inprog, exclusive x.op = true → x.started = false
  order : ∀ x ∈ s.inprog, x.started = true ∨ x.fenced = true
  alone : exclusive op = true → ∀ x ∈ s.inprog, x.wait ≠ .data
  ids : ∀ x ∈ s.inprog, x.id < s.nextId

end Sys2Proof.Machine
end

