-- ==== Sys2Proof/Certificates/Slice0/Obligations.lean ====
section
/-!
DEFINITION. The statements about the block, for the provers. Where a statement rests on a reading or a choice of the
model, its docstring names the entry of the assumption log.
-/

open Sys2Proof Sys2Proof.Machine

/- The block as a whole ----------------------------------------------------------------------------- -/

/-- The block takes the command at the front of its queue and runs it on the state with the rest of the queue (the
interface of a block; the queue is the model's, log entry 1). -/
def Obligations.StepRunsTheFront : Prop :=
  ∀ (s : State) (c : Instr) (rest : List Instr),
    s.pending = c :: rest → step s = exec c { s with pending := rest }

/-- With no command waiting, one step is one ECLK cycle: it counts the cycle, ends the cycle of a scheduling round with its
grants and the PCLK cycles of the peripheral buses, and changes no memory, thread, task or event; the engine clock runs in debug
halt (R453) and stands in sleep and before the start (R435, R455), where nothing changes. That the empty step is a cycle is the
model's choice (log entry 2). -/
def Obligations.StepOnAnEmptyQueue : Prop :=
  ∀ s : State, s.pending = [] →
    (s.sleeping = false → s.power = .up → ∃ t, step s = .next t ∧ t.eclk = s.eclk + 1 ∧ t.roundStart = false ∧
      t.granted = [] ∧ t.schedAt = 0 ∧ t.bus = [] ∧ t.mem = s.mem ∧ t.ths = s.ths ∧ t.tasks = s.tasks ∧ t.evq = s.evq ∧
      t.pending = []) ∧
    (s.sleeping = true ∨ s.power ≠ .up → step s = .next s)

/-- No command stops the machine and none touches the queue of waiting commands. Both are the model's choice: that a command whose
situation does not hold changes nothing and stops nothing is log entry 5, and the queue is log entry 1. -/
def Obligations.EveryCommandCompletes : Prop :=
  ∀ (c : Instr) (s : State), ∃ t, exec c s = .next t ∧ t.pending = s.pending

/-- Memory, registers and every other sparse part of the state keep their canonical form over every step, so that equal contents
are equal states. The form is the model's (log entry 9 for memory). -/
def Obligations.CanonicalFormKept : Prop := ∀ s t : State, s.Inv → step s = .next t → t.Inv

/-- SAFE_N is asserted only with REMOVAL_PREPARED set, over every step (R459). -/
def Obligations.SafeOnlyWhenPrepared : Prop := ∀ s t : State, s.SafeInv → step s = .next t → t.SafeInv

/-- The state after reset has both invariants, READY is 0, no engine is mapped, no task is listed and nothing is under
way (R437, R440). Which moment counts as reset is the model's reading (log entry 7), and what memory holds then its choice (log
entry 9). -/
def Obligations.AfterReset : Prop :=
  State.reset.Inv ∧ State.reset.SafeInv ∧ State.reset.pending = [] ∧ State.reset.bitB 8 0 = false ∧
    State.reset.mem = [] ∧ State.reset.ths = [] ∧ State.reset.tasks = [] ∧ State.reset.inprog = [] ∧
    (∀ e : EngId, State.reset.mapped (engIx e) = false) ∧ ∀ t : Th, State.reset.ready (thIx t) = false

/- Function units ------------------------------------------------------------------------------------ -/

/-- An ALU operation starts with the result of the table before R83, modulo 2^64; ADD, ADDC, SUB and SUBB write the
carry out or borrow, the others leave C (R83). A is the operand latch, after any result of latency 1 has landed (R53).
Nothing but the thread's list of running operations changes beside that and the measure of the first FETCH (R200). -/
def Obligations.AluOperation : Prop :=
  ∀ (s : State) (t : Th) (u : Fin 2) (op : AluOp) (b : W64),
    let i := thIx t
    let s0 := s.atTrigger i
    let a := if u = 0 then (s0.cur i).latch[0] else (s0.cur i).latch[2]
    let c := if u = 0 then (s0.cur i).c0 else (s0.cur i).c1
    s.canTrigger i →
    ∃ (r : W64) (c' : Option Bool),
      exec (.aluOperation t u op b) s = .next (s0.start i (if u = 0 then .alu0 else .alu1) true r 0 c') ∧
      match op with
      | .add => r.toNat = (a.toNat + b.toNat) % 2 ^ 64 ∧ c' = some (decide (2 ^ 64 ≤ a.toNat + b.toNat))
      | .addc => r.toNat = (a.toNat + b.toNat + c.toNat) % 2 ^ 64 ∧
          c' = some (decide (2 ^ 64 ≤ a.toNat + b.toNat + c.toNat))
      | .sub => r.toNat = (2 ^ 64 + a.toNat - b.toNat) % 2 ^ 64 ∧ c' = some (decide (a.toNat < b.toNat))
      | .subb => r.toNat = (2 ^ 65 + a.toNat - b.toNat - c.toNat) % 2 ^ 64 ∧
          c' = some (decide (a.toNat < b.toNat + c.toNat))
      | .and => r = a &&& b ∧ c' = none
      | .or => r = a ||| b ∧ c' = none
      | .xor => r = a ^^^ b ∧ c' = none
      | .andn => r = a &&& ~~~b ∧ c' = none
      | .min => r.toInt = min a.toInt b.toInt ∧ c' = none
      | .max => r.toInt = max a.toInt b.toInt ∧ c' = none
      | .minu => r.toNat = min a.toNat b.toNat ∧ c' = none
      | .maxu => r.toNat = max a.toNat b.toNat ∧ c' = none

/-- Shifts take B[5:0] as the amount and ignore B[63:6], so an amount of 0 returns A; BSWAP reverses the bytes of B
(R85 and its table). -/
def Obligations.ShifterOperation : Prop :=
  ∀ (s : State) (t : Th) (op : ShOp) (b : W64),
    let i := thIx t
    let s0 := s.atTrigger i
    let a := (s0.cur i).latch[4]
    let n := b.toNat % 64
    s.canTrigger i →
    ∃ r : W64, exec (.shifterOperation t op b) s = .next (s0.start i .shifter true r 0 none) ∧
      (op ≠ .bswap → n = 0 → r = a) ∧
      match op with
      | .shl => r.toNat = a.toNat * 2 ^ n % 2 ^ 64
      | .shr => r.toNat = a.toNat / 2 ^ n
      | .sar => r.toInt = a.toInt / 2 ^ n
      | .rol => r.toNat = a.toNat * 2 ^ n % 2 ^ 64 + a.toNat / 2 ^ (64 - n)
      | .ror => r.toNat = a.toNat / 2 ^ n + a.toNat % 2 ^ n * 2 ^ (64 - n)
      | .bswap => ∀ k < 8, r.toNat / 256 ^ k % 256 = b.toNat / 256 ^ (7 - k) % 256

/-- The multiplier gives the low or the high half of the product, the high half of the unsigned or of the signed one
(table before R86). A divide gives the quotient truncated towards zero and the remainder with the sign of the dividend (R87);
by zero it faults in TRIGGER when DZ_FAULT is 1 and no operation starts, and otherwise gives all ones and A, and its end
sets DIV_ZERO (R88; the moment is the model's reading, log entry 132). That the lone trigger counts as a move of slot 0 is the model's choice (log entry 3). -/
def Obligations.MultiplyAndDivide : Prop :=
  (∀ (s : State) (t : Th) (op : MulOp) (b : W64),
    let i := thIx t
    let s0 := s.atTrigger i
    let a := (s0.cur i).latch[6]
    s.canTrigger i →
    ∃ r : W64, exec (.multiply t op b) s = .next (s0.start i .mul false r 0 none) ∧
      match op with
      | .mul => r.toNat = a.toNat * b.toNat % 2 ^ 64
      | .mulhu => r.toNat = a.toNat * b.toNat / 2 ^ 64
      | .mulhs => r.toInt = a.toInt * b.toInt / 2 ^ 64) ∧
  (∀ (s : State) (t : Th) (sg : Bool) (b : W64),
    let i := thIx t
    let e := engOf i
    let s0 := s.atTrigger i
    let a := (s0.cur i).latch[8]
    s.canTrigger i → s0.unitBusy e .div = false →
    (b ≠ 0 → ∃ q r : W64, exec (.divide t sg b) s = .next (s0.start i .div false q r (some false)) ∧
      (sg = false → q.toNat = a.toNat / b.toNat ∧ r.toNat = a.toNat % b.toNat) ∧
      (sg = true → q = BitVec.ofInt 64 (a.toInt.tdiv b.toInt) ∧ r.toInt = a.toInt.tmod b.toInt)) ∧
    (b = 0 → s0.bit (aEng e 0x28) 0 = false →
      exec (.divide t sg b) s = .next (s0.start i .div false (BitVec.allOnes 64) a (some true))) ∧
    (b = 0 → s0.bit (aEng e 0x28) 0 = true →
      exec (.divide t sg b) s = .next (s0.raiseFault i ⟨0x1B, 0, 0⟩)))

/-- The bit-field unit: the field of A that B describes, cut at bit 63, zero- or sign-extended; the low bits of A
deposited in the field; counts of B; the lowest set or clear bit of A at or above B[5:0] (table before R89). -/
def Obligations.BitFieldOperation : Prop :=
  ∀ (s : State) (t : Th) (op : BfOp) (b : W64),
    let i := thIx t
    let s0 := s.atTrigger i
    let a := (s0.cur i).latch[11]
    let lsb := b.toNat % 64
    let n := min (b.toNat / 64 % 64 + 1) (64 - lsb)
    s.canTrigger i →
    ∃ (r : W64) (short : Bool),
      exec (.bitFieldOperation t op b) s = .next (s0.start i .bf short r 0 none) ∧
      match op with
      | .extu => short = true ∧ r.toNat = a.toNat / 2 ^ lsb % 2 ^ n
      | .exts => short = true ∧ (∀ k < 64, r.getLsbD k = a.getLsbD (lsb + min k (n - 1)))
      | .dep => short = true ∧ (∀ k < 64, r.getLsbD k = (decide (lsb ≤ k) && decide (k < lsb + n) && a.getLsbD (k - lsb)))
      | .clz => short = false ∧ r.toNat ≤ 64 ∧ (∀ k < 64, 64 - r.toNat ≤ k → b.getLsbD k = false) ∧
          (r.toNat < 64 → b.getLsbD (63 - r.toNat) = true)
      | .ctz => short = false ∧ r.toNat ≤ 64 ∧ (∀ k < r.toNat, b.getLsbD k = false) ∧
          (r.toNat < 64 → b.getLsbD r.toNat = true)
      | .popc => short = false ∧ r.toNat = ((List.range 64).filter fun k => b.getLsbD k).length
      | .find1 => short = false ∧ (∀ k < 64, lsb ≤ k → k < r.toNat → a.getLsbD k = false) ∧
          (r.toNat = 64 ∨ lsb ≤ r.toNat ∧ r.toNat < 64 ∧ a.getLsbD r.toNat = true)
      | .find0 => short = false ∧ (∀ k < 64, lsb ≤ k → k < r.toNat → a.getLsbD k = true) ∧
          (r.toNat = 64 ∨ lsb ≤ r.toNat ∧ r.toNat < 64 ∧ a.getLsbD r.toNat = false)

/-- A compare writes one guard with the relation of R90 and leaves the others; B0 has no compare port, so it raises the
illegal-port fault that names the port. GLOGIC computes Bd := Ba op Bb, where B0 reads 1 (R55), and discards a result for d = 0 (R91). That
the lone trigger counts as a move of slot 0 in the fault record is the model's choice (log entry 3). -/
def Obligations.GuardOperations : Prop :=
  (∀ (s : State) (t : Th) (op : CmpOp) (g : Fin 8) (b : W64),
    let i := thIx t
    let s0 := s.atTrigger i
    let a := (s0.cur i).latch[13]
    s.canTrigger i →
    (g ≠ 0 → ∃ v : BitVec 8,
      exec (.guardCompare t op g b) s = .next (s0.putBank i (s0.th i).sel { s0.cur i with b := v }) ∧
      (∀ k < 8, k ≠ g.val → v.getLsbD k = (s0.cur i).b.getLsbD k) ∧
      (v.getLsbD g.val = true ↔ match op with
        | .eq => a = b
        | .lt => a.toInt < b.toInt
        | .ltu => a.toNat < b.toNat
        | .le => a.toInt ≤ b.toInt
        | .leu => a.toNat ≤ b.toNat
        | .test => a &&& b ≠ 0
        | .bit => a.getLsbD (b.toNat % 64) = true)) ∧
    (g = 0 → exec (.guardCompare t op g b) s =
      .next (s0.raiseFault i ⟨0x01, BitVec.ofNat 64 (trigPort (.cmp op g)), 0⟩))) ∧
  (∀ (s : State) (t : Th) (b : W64),
    let i := thIx t
    let s0 := s.atTrigger i
    let old := (s0.cur i).b
    let d := b.toNat % 8
    let x := decide (b.toNat / 8 % 8 = 0) || old.getLsbD (b.toNat / 8 % 8)
    let y := decide (b.toNat / 64 % 8 = 0) || old.getLsbD (b.toNat / 64 % 8)
    s.canTrigger i →
    ∃ v : BitVec 8,
      exec (.glogic t b) s = .next (s0.putBank i (s0.th i).sel { s0.cur i with b := v }) ∧
      (d = 0 → v = old) ∧ (∀ k < 8, k ≠ d → v.getLsbD k = old.getLsbD k) ∧
      (d ≠ 0 → v.getLsbD d = if b.toNat / 512 % 4 = 0 then x && y else if b.toNat / 512 % 4 = 1 then x || y
        else if b.toNat / 512 % 4 = 2 then x ^^ y else x && !y))

/-- The CRC/LFSR unit. POLY gives the width w, the coefficients below x^w and REFLECT; STATE holds w bits (R111). SETSTATE keeps
w bits of B; a feed runs one step of R112 for each of its data bits, most significant first, or with REFLECT least significant
first on the reversed polynomial; LFSR runs B[5:0] steps on zeros, 64 for 0. While an operation runs on the unit each waits
without effect (R81, R119). -/
def Obligations.CrcUnit : Prop :=
  ∀ (s : State) (t : Th) (b : W64),
    let i := thIx t
    let s0 := s.atTrigger i
    let poly := (s0.cur i).latch[21].toNat
    let w := poly / 2 ^ 32 % 32 + 1
    let refl := Nat.testBit poly 40
    let rpoly := (List.range w).foldl (fun x k => x + if Nat.testBit poly k then 2 ^ (w - 1 - k) else 0) 0
    let one := fun (x : Nat) (d : Bool) =>
      if refl then (if Nat.testBit x 0 = d then x / 2 else (x / 2) ^^^ rpoly)
      else if Nat.testBit x (w - 1) = d then x * 2 % 2 ^ w else (x * 2 % 2 ^ w) ^^^ (poly % 2 ^ w)
    let fed := fun (data : W64) (n : Nat) => (List.range n).foldl
      (fun x k => one x (data.getLsbD (if refl then k else n - 1 - k))) ((s0.cur i).latch[20].toNat % 2 ^ w)
    let steps := if b.toNat % 64 = 0 then 64 else b.toNat % 64
    s.canTrigger i →
    (s0.unitBusy (engOf i) .crc = false →
      (∃ r : W64, exec (.setstate t b) s = .next (s0.start i .crc true r 0 none) ∧ r.toNat = b.toNat % 2 ^ w) ∧
      (∃ r : W64, exec (.feed t .feed8 b) s = .next (s0.start i .crc true r 0 none) ∧ r.toNat = fed b 8) ∧
      (∃ r : W64, exec (.feed t .feed16 b) s = .next (s0.start i .crc false r 0 none) ∧ r.toNat = fed b 16) ∧
      (∃ r : W64, exec (.feed t .feed32 b) s = .next (s0.start i .crc false r 0 none) ∧ r.toNat = fed b 32) ∧
      (∃ r : W64, exec (.feed t .feed64 b) s = .next (s0.start i .crc false r 0 none) ∧ r.toNat = fed b 64) ∧
      (∃ r : W64, exec (.lfsr t b) s = .next (s0.start i .crc (decide (steps ≤ 8)) r 0 none) ∧ r.toNat = fed 0 steps)) ∧
    (s0.unitBusy (engOf i) .crc = true → exec (.setstate t b) s = .next s0 ∧ exec (.lfsr t b) s = .next s0 ∧
      ∀ op : FeedOp, exec (.feed t op b) s = .next s0)
/- Results, memory accesses and transfers ------------------------------------------------------------- -/

/-- The oldest operation of a thread on a unit, wherever it stands among those of other units, completes: it leaves the list,
and its result is in the latch of the bank that triggered it (a POLL's in EVT; that it is that bank, whatever the thread entered
meanwhile, is the model's reading, log entry 24); a divide by zero that ran sets DIV_ZERO (R88; that it does so now is the
model's reading, log entry 132); every other latch and part of the bank keeps its value (R53, R78); slots that waited for it are ready again (R51, R53). On a locked engine the result is
discarded (R148). -/
def Obligations.UnitResult : Prop :=
  ∀ (s : State) (t : Th) (u : RUnit) (o : RunOp) (pre post : List RunOp),
    let i := thIx t
    s.sleeping = false → (s.th i).ops = pre ++ o :: post → o.unit = u → (∀ x ∈ pre, x.unit ≠ u) →
    let s1 := s.setTh i { s.th i with ops := pre ++ post }
    (s.locked (engOf i) = true → exec (.unitResult t u) s = .next s1.clearWaits) ∧
    (s.locked (engOf i) = false →
      (u = .poll → exec (.unitResult t u) s =
        .next (s1.modTh i fun t => { t with evt := BitVec.ofNat 32 o.res.toNat }).clearWaits) ∧
      (u ≠ .poll → ∃ b : Bank, exec (.unitResult t u) s =
        .next ((if u = .div ∧ o.carry = some true then s1.setB (aEng (engOf i) 0x2C) 0 else s1).putBank i o.sel b).clearWaits ∧
        let old := s1.bankOf i o.sel
        let only := fun l : List Nat => ∀ j : Fin 22, j.val ∉ l → b.latch[j] = old.latch[j]
        b = { old with latch := b.latch, c0 := b.c0, c1 := b.c1 } ∧
        (u ≠ .alu0 → b.c0 = old.c0) ∧ (u ≠ .alu1 → b.c1 = old.c1) ∧
        (u = .alu0 → b.latch[1] = o.res ∧ b.c0 = o.carry.getD old.c0 ∧ only [1]) ∧
        (u = .alu1 → b.latch[3] = o.res ∧ b.c1 = o.carry.getD old.c1 ∧ only [3]) ∧
        (u = .shifter → b.latch[5] = o.res ∧ only [5]) ∧ (u = .mul → b.latch[7] = o.res ∧ only [7]) ∧
        (u = .div → b.latch[9] = o.res ∧ b.latch[10] = o.rem ∧ only [9, 10]) ∧
        (u = .bf → b.latch[12] = o.res ∧ only [12]) ∧ (u = .crc → b.latch[20] = o.res ∧ only [20])))

/-- Loads and stores: BASE + B modulo 2^64 names the address; any of bits [63:40], no memory there, or an access that crosses the
end of a range, is the unmapped-address fault; the control window from a ring above 0 is the ring violation; a misaligned access,
or one to the window of other than 4 bytes, is the misalignment fault (R67 to R69, R95). Without a fault a load starts and a store
enters the buffer (R72, R73). DRAIN records the entries of the buffer (R100). That the lone trigger counts as a move of slot 0 in
the fault record is the model's choice (log entry 3). -/
def Obligations.LoadStoreDrain : Prop :=
  ∀ (s : State) (t : Th) (b : W64),
    let i := thIx t
    let s0 := s.atTrigger i
    let sum := (s0.cur i).latch[14] + b
    let a := sum.toNat
    let ring := (s0.th i).ring
    s.canTrigger i →
    (exec (.drain t) s = .next (s0.modTh i fun th => { th with drainIds := th.stores.map (·.id) })) ∧
    (∀ op : LdOp,
      (2 ^ 40 ≤ a ∨ (regionOf a).engine = false ∨ sameRange a (a + ldSize op - 1) = false →
        exec (.load t op b) s = .next (s0.raiseFault i ⟨0x15, BitVec.ofNat 64 (a % 2 ^ 40), 0⟩)) ∧
      (isWindow a = true → sameRange a (a + ldSize op - 1) = true → ring ≠ 0 →
        exec (.load t op b) s = .next (s0.raiseFault i ⟨0x16, BitVec.ofNat 64 a, 0⟩)) ∧
      (a < 2 ^ 40 → (regionOf a).engine = true → sameRange a (a + ldSize op - 1) = true → (isWindow a = true → ring = 0) →
        (a % ldSize op ≠ 0 ∨ isWindow a = true ∧ ldSize op ≠ 4) →
        exec (.load t op b) s = .next (s0.raiseFault i ⟨0x17, BitVec.ofNat 64 a, 0⟩)) ∧
      (a < 2 ^ 40 → (regionOf a).engine = true → sameRange a (a + ldSize op - 1) = true → a % ldSize op = 0 →
        (isWindow a = true → ring = 0 ∧ ldSize op = 4) → exec (.load t op b) s = .next (s0.loadAt i op a))) ∧
    (∀ op : StOp, (s0.th i).stores.length < 4 →
      (2 ^ 40 ≤ a ∨ (regionOf a).engine = false ∨ sameRange a (a + stSize op - 1) = false →
        exec (.store t op b) s = .next (s0.raiseFault i ⟨0x15, BitVec.ofNat 64 (a % 2 ^ 40), 0⟩)) ∧
      (isWindow a = true → sameRange a (a + stSize op - 1) = true → ring ≠ 0 →
        exec (.store t op b) s = .next (s0.raiseFault i ⟨0x16, BitVec.ofNat 64 a, 0⟩)) ∧
      (a < 2 ^ 40 → (regionOf a).engine = true → sameRange a (a + stSize op - 1) = true → (isWindow a = true → ring = 0) →
        (a % stSize op ≠ 0 ∨ isWindow a = true ∧ stSize op ≠ 4) →
        exec (.store t op b) s = .next (s0.raiseFault i ⟨0x17, BitVec.ofNat 64 a, 0⟩)) ∧
      (a < 2 ^ 40 → (regionOf a).engine = true → sameRange a (a + stSize op - 1) = true → a % stSize op = 0 →
        (isWindow a = true → ring = 0 ∧ stSize op = 4) →
        exec (.store t op b) s = .next (s0.storeAt i op a (s0.cur i).latch[15]))) ∧
    (∀ op : StOp, 4 ≤ (s0.th i).stores.length → exec (.store t op b) s = .next s0)

/-- A load of local scratch that no buffered store overlaps reads the bytes there when it is triggered (R73, R96, R342). Its
result, without an uncorrectable error, is zero- or sign-extended in the LD latch of the bank that issued it (the model's
reading, log entry 24), and clears its error mark; with one it marks the latch with cause 0x06 and the address, and what the latch
holds beside the mark is a free value (log entry 23); a result that replaces an error which nothing has read sets LOAD_ERR_LOST
(R71, R98, R99, R342). An error of a load of the brace handler locks the engine up (R148). A store to local scratch writes its
bytes there when it drains, and no other byte (R72). -/
def Obligations.ScratchLoadAndStore : Prop :=
  (∀ (s : State) (e a n : Nat) (st : List StoreRec), a + n ≤ 0x40000 → 0 < n →
    (∀ x ∈ st, plainAddr x.addr + stSize x.op ≤ a ∨ a + n ≤ plainAddr x.addr) →
    s.loadState e st a n = .scratch (s.bytes (scratchKey e a) n)) ∧
  (∀ (s : State) (t : Th) (l : LoadRec) (rest : List LoadRec) (d : Nat) (ecc : Ecc),
    let i := thIx t
    let s1 := s.setTh i { s.th i with loads := rest }
    let b := s1.bankOf i l.sel
    let s2 := if b.ldErr.isSome then s1.setB (aEng (engOf i) 0x2C) 1 else s1
    s.sleeping = false → s.locked (engOf i) = false → (s.th i).loads = l :: rest → l.st = .scratch d → l.old = false →
    ecc.ce = 0 →
    (ecc.ue = false → exec (.loadResult t ecc) s = .next (s2.putBank i l.sel
      { b with latch := b.latch.set 16 (ldExtend l.op d), ldErr := none }).clearWaits) ∧
    (ecc.ue = true → l.sel ≠ .brace → exec (.loadResult t ecc) s = .next (s2.used.putBank i l.sel
      { b with latch := b.latch.set 16 s.free, ldErr := some (0x06, BitVec.ofNat 64 l.addr) }).clearWaits) ∧
    (ecc.ue = true → l.sel = .brace → exec (.loadResult t ecc) s =
      .next (s1.lockup (engOf i) 0x06 (s1.th i).pc (s1.th i).ds (s1.th i).ring (slotOf i)).clearWaits)) ∧
  (∀ (s : State) (t : Th) (x : StoreRec) (rest : List StoreRec),
    let i := thIx t
    let k := scratchKey (engOf i) x.addr
    s.sleeping = false → (s.th i).stores = x :: rest → x.st = .held → (s.th i).loads = [] → (s.th i).spill = none → s.Inv →
    Runs (.storeDrain t) s fun s' => s'.bytes k (stSize x.op) = x.data.toNat % 256 ^ stSize x.op ∧
      (∀ a, a < k ∨ k + stSize x.op ≤ a → s'.byte a = s.byte a) ∧ s'.regs = s.regs ∧ (s'.th i).stores = rest ∧
      s'.engs = s.engs ∧ s'.tasks = s.tasks)

/-- An error result of a load that a newer load of its bank replaces sets LOAD_ERR_LOST (R98, R99); an error of the newest load
marks the LD latch of the bank that issued it (the model's reading, log entry 24) with its cause and address, sets LOAD_ERR_LOST
where it replaces an error that nothing has read, and what the latch then holds is a free value, since no rule states it (log entry 23).
A store that was refused leaves the buffer and raises its signal to the task that stored, if it is still resident there (R75). An error
of a load or store of the brace handler locks the engine up (R148). -/
def Obligations.MemoryErrors : Prop :=
  (∀ (s : State) (t : Th) (l : LoadRec) (rest : List LoadRec) (c : BitVec 8) (ecc : Ecc),
    let i := thIx t
    let s1 := s.setTh i { s.th i with loads := rest }
    let b := s1.bankOf i l.sel
    let lost := s1.setB (aEng (engOf i) 0x2C) 1
    s.sleeping = false → s.locked (engOf i) = false → (s.th i).loads = l :: rest → l.st = .err c →
    (l.sel ≠ .brace → l.old = true → exec (.loadResult t ecc) s = .next lost.clearWaits) ∧
    (l.sel ≠ .brace → l.old = false →
      exec (.loadResult t ecc) s = .next ((if b.ldErr.isSome then lost else s1).used.putBank i l.sel
        { b with latch := b.latch.set 16 s.free, ldErr := some (c, BitVec.ofNat 64 l.addr) }).clearWaits) ∧
    (l.sel = .brace → exec (.loadResult t ecc) s =
      .next (s1.lockup (engOf i) c (s1.th i).pc (s1.th i).ds (s1.th i).ring (slotOf i)).clearWaits)) ∧
  (∀ (s : State) (t : Th) (x : StoreRec) (rest : List StoreRec) (c : BitVec 8),
    let i := thIx t
    let s1 := s.setTh i { s.th i with stores := rest }
    s.Inv → s.sleeping = false → s.locked (engOf i) = false → (s.th i).stores = x :: rest → x.st = .err c →
    (s.th i).loads = [] → (s.th i).spill = none →
    (x.sel ≠ .brace → (s.th i).resident = true → (s.th i).task = x.task →
      exec (.storeDrain t) s = .next (s1.raiseSignal i c (BitVec.ofNat 64 x.addr)).clearWaits) ∧
    (x.sel ≠ .brace → (s.th i).resident = false ∨ (s.th i).task ≠ x.task → exec (.storeDrain t) s = .next s1.clearWaits) ∧
    (x.sel = .brace → exec (.storeDrain t) s =
      .next (s1.lockup (engOf i) c (s.th i).pc (s.th i).ds (s.th i).ring (slotOf i)).clearWaits))

/-- The spill unit: SETPTR takes a multiple of 65,536 below 2^40 and otherwise raises the misalignment fault with the value;
SETXSP takes B[39:0] (R114). SAVE and RESTORE with a block of 0 to 3, an offset that is a multiple of 64 within 64 KiB and a
range mapped outside the window start a transfer at the pointer plus the offset, and otherwise raise the spill fault with
B[19:0] (R115 to R117). XSAVE is legal in the shadow bank unarmed, XRESTORE armed, and they start their transfers when the
checks of R139 hold; a check that fails is XSP_INVALID with the failed checks, and anywhere else they raise the spill fault (R141,
R142). While a transfer occupies the unit every trigger waits without effect (R81, R119). A transfer outside scratch, once the store
buffer is empty, issues its beats at the Sheaf's port (R117, R355; that it starts then and issues them one after another is the
model's reading, log entry 34). That the lone trigger counts as a move of slot 0 with operand 0 is the model's choice (log entry 3). -/
def Obligations.SpillTriggers : Prop :=
  (∀ (s : State) (t : Th) (b : W64),
    let i := thIx t
    let s0 := s.atTrigger i
    let th := s0.th i
    let off := b.toNat % 65536
    let k := b.toNat / 65536 % 16
    let a := (s0.cur i).spill.toNat * 65536 + off
    let saveFails := s0.xspFails i (some th.xsp.toNat)
    let backFails := s0.xspFails i (xspBelow th.xsp)
    s.canTrigger i → s0.spillBusy (engOf i) = false →
    (b.toNat % 65536 = 0 → b.toNat < 2 ^ 40 →
      exec (.setptr t b) s = .next (s0.putBank i th.sel { s0.cur i with spill := BitVec.ofNat 24 (b.toNat / 65536) })) ∧
    (b.toNat % 65536 ≠ 0 ∨ 2 ^ 40 ≤ b.toNat → exec (.setptr t b) s = .next (s0.raiseFault i ⟨0x17, b, 0⟩)) ∧
    (exec (.setxsp t b) s = .next (s0.setTh i { th with xsp := BitVec.ofNat 40 b.toNat })) ∧
    (k < 4 → off % 64 = 0 → off + blkBytes k ≤ 65536 → spillRange a (blkBytes k) = true →
      exec (.save t b) s = .next ((s0.setTh i { th with spill := some ⟨.save (Fin.ofNat 4 k), th.sel, a⟩ }).spillGo i) ∧
      exec (.restore t b) s =
        .next ((s0.setTh i { th with spill := some ⟨.restore (Fin.ofNat 4 k), th.sel, a⟩ }).spillGo i)) ∧
    (4 ≤ k ∨ off % 64 ≠ 0 ∨ 65536 < off + blkBytes k ∨ spillRange a (blkBytes k) = false →
      exec (.save t b) s = .next (s0.raiseFault i ⟨0x1A, BitVec.ofNat 64 (b.toNat % 2 ^ 20), 0⟩) ∧
      exec (.restore t b) s = .next (s0.raiseFault i ⟨0x1A, BitVec.ofNat 64 (b.toNat % 2 ^ 20), 0⟩)) ∧
    (th.sel = .shadow → th.armed = false → saveFails = 0 →
      exec (.xsave t) s = .next ((s0.setTh i { th with spill := some ⟨.xsave, .shadow, th.xsp.toNat⟩ }).spillGo i)) ∧
    (saveFails ≠ 0 → exec (.xsave t) s = .next (s0.raiseFault i ⟨0x19, BitVec.ofNat 64 saveFails, 0⟩)) ∧
    (th.sel ≠ .shadow ∨ th.armed = true → saveFails = 0 → exec (.xsave t) s = .next (s0.raiseFault i ⟨0x1A, 0, 0⟩)) ∧
    (th.sel = .shadow → th.armed = true → 512 ≤ th.xsp.toNat → backFails = 0 →
      exec (.xrestore t) s =
        .next ((s0.setTh i { th with spill := some ⟨.xrestore, .shadow, th.xsp.toNat - 512⟩ }).spillGo i)) ∧
    (backFails ≠ 0 → exec (.xrestore t) s = .next (s0.raiseFault i ⟨0x19, BitVec.ofNat 64 backFails, 0⟩)) ∧
    (th.sel ≠ .shadow ∨ th.armed = false → backFails = 0 →
      exec (.xrestore t) s = .next (s0.raiseFault i ⟨0x1A, 0, 0⟩))) ∧
  (∀ (s : State) (t : Th) (b : W64),
    let i := thIx t
    let s0 := s.atTrigger i
    s.canTrigger i → s0.spillBusy (engOf i) = true →
    exec (.setptr t b) s = .next s0 ∧ exec (.setxsp t b) s = .next s0 ∧ exec (.save t b) s = .next s0 ∧
    exec (.restore t b) s = .next s0 ∧ exec (.xsave t) s = .next s0 ∧ exec (.xrestore t) s = .next s0) ∧
  (∀ (u : State) (j : Nat) (p : SpillRec) (o : Nat), (u.th j).spill = some p → regionOf p.addr = .scratch o →
    u.spillGo j = u) ∧
  (∀ (u : State) (j : Nat) (p : SpillRec), (u.th j).spill = some p → (∀ o, regionOf p.addr ≠ .scratch o) →
    (u.th j).stores = [] → u.xferOf (.spill j) = none → u.spillGo j = u.xferStart (.spill j) (engOf j / 9) j 32 true
      p.addr p.len (((u.th j).spillWords p).map fun l => l.flatMap fun v => natLe 8 v.toNat))

/-- The end of a spill transfer. An XSAVE writes the image to XSP, adds 512 to XSP and arms the thread; read back, an image gives the
bank and the record that it was written from (R141). A SAVE writes the words of its block, in the normal bank as context, in the
shadow bank with the record's resume point in block 3, and no other byte (R115, R137; a RESTORE acts on the normal bank whatever bank
the code runs in: the model's reading, log entry 33). A RESTORE writes the registers of its block in the normal bank from the bytes
read, and nothing else; an XRESTORE and a nested return write back the image, the first with 512 taken from XSP and the thread
unarmed, the second with the resume point and ring of the old record, one depth less and the thread armed (R136, R142). A stored ring
below the ring in force, and an error response, change no register: the first, and the second in an exception transfer, make a brace entry due
with SPILL_ERROR, while SAVE and RESTORE raise the spill signal (R117, R143; the start address in the fault information is the model's
reading, log entry 35). On a locked engine the end changes nothing more (R148). Operations of
latency at most 1 have landed before a transfer ends (R53; what a SAVE finds of them is the model's choice, log entry 148). -/
def Obligations.SpillTransferEnd : Prop :=
  (∀ (b : Bank) (x : ExcRec), b.ldErr = none → b.b.getLsbD 0 = true → x.depth < 64 → x.slot < 8 →
    bankOfImage (imageWords b x) = b ∧ excOfImage (imageWords b x) = x) ∧
  (∀ (th : Thread) (k : Fin 4) (n : Nat),
    (k = 0 → ∀ h : n < 16, (th.saveWords k)[n]? = some th.normal.w[n]) ∧
    (k = 1 → ∀ h : n < 16, (th.saveWords k)[n]? = some th.normal.w[16 + n]) ∧
    (k = 2 → ∀ h : n < 22, (th.saveWords k)[n]? = some th.normal.latch[n]) ∧
    (k = 3 → th.sel = .normal →
      th.saveWords k = ctlWords th.normal th.pc th.npc th.ds th.ring th.stack.length th.xsp th.task) ∧
    (k = 3 → th.sel = .shadow →
      th.saveWords k = ctlWords th.normal th.exc.epc th.exc.enpc th.exc.ds th.exc.ring th.stack.length th.xsp th.task)) ∧
  (∀ (s : State) (t : Th) (p : SpillRec) (o : Nat) (ecc : Ecc),
    let i := thIx t
    let u := s.landShort i
    let th := u.th i
    let key := scratchKey (engOf i) o
    ecc.ce = 0 → s.Inv → s.sleeping = false → s.locked (engOf i) = false → th.spill = some p → th.stores = [] →
    regionOf p.addr = .scratch o →
    (p.kind = .xsave → Runs (.spillTransferEnd t ecc) s fun s' =>
      s'.words key 64 = imageWords th.shadow th.exc ∧ (s'.th i).xsp = th.xsp + 512 ∧ (s'.th i).armed = true ∧
      (s'.th i).spill = none ∧ (s'.th i).shadow = th.shadow ∧ s'.regs = u.regs ∧
      ∀ a, a < key ∨ key + 512 ≤ a → s'.byte a = s.byte a) ∧
    (∀ k, p.kind = .save k → Runs (.spillTransferEnd t ecc) s fun s' =>
      s'.words key (blkWords k).2 = th.saveWords k ∧ (s'.th i).spill = none ∧ (s'.th i).normal = th.normal ∧
      (s'.th i).shadow = th.shadow ∧ s'.regs = u.regs ∧
      ∀ a, a < key ∨ key + 8 * (blkWords k).2 ≤ a → s'.byte a = s.byte a) ∧
    (p.kind = .restore 0 → ecc.ue = false → Runs (.spillTransferEnd t ecc) s fun s' =>
      (∀ n : Fin 32, n.val < 16 → (s'.th i).normal.w[n] = BitVec.ofNat 64 (s.bytes (key + 8 * n.val) 8)) ∧
      (∀ n : Fin 32, 16 ≤ n.val → (s'.th i).normal.w[n] = th.normal.w[n]) ∧
      (s'.th i).normal.latch = th.normal.latch ∧ (s'.th i).shadow = th.shadow ∧ (s'.th i).spill = none ∧ s'.mem = s.mem) ∧
    (p.kind = .xrestore → ecc.ue = false → BitVec.ofNat 2 (s.bytes (key + 0x1B0) 4 / 2 ^ 9) < th.ring →
      Runs (.spillTransferEnd t ecc) s fun s' =>
      (s'.th i).brEntry = some ⟨0x43, BitVec.ofNat 64 (p.addr + 2 ^ 63), 7⟩ ∧ (s'.th i).shadow = th.shadow ∧
      (s'.th i).exc = th.exc ∧ (s'.th i).xsp = th.xsp ∧ (s'.th i).armed = th.armed ∧ s'.mem = s.mem) ∧
    (p.kind ≠ .xsave → (∀ k, p.kind ≠ .save k) → exec (.spillTransferEnd t ecc) s =
      .next (u.spillEnd i p (if ecc.ue then .err 2 else .ok) (u.words key (p.len / 8))).clearWaits)) ∧
  (∀ (s : State) (t : Th) (p : SpillRec) (x : Xfer) (ecc : Ecc),
    let i := thIx t
    s.sleeping = false → (s.th i).spill = some p → (s.th i).stores = [] → (∀ o, regionOf p.addr ≠ .scratch o) →
    s.xferOf (.spill i) = some x → x.over = true →
    (x.err = none → exec (.spillTransferEnd t ecc) s =
      .next (((s.landShort i).dropXfer (.spill i)).spillEnd i p .ok (wordsOf x.got)).clearWaits) ∧
    (∀ k, x.err = some k → exec (.spillTransferEnd t ecc) s =
      .next (((s.landShort i).dropXfer (.spill i)).spillEnd i p (.err k) (wordsOf x.got)).clearWaits)) ∧
  (∀ (u : State) (i : Nat) (p : SpillRec) (r : AccRes) (w : List W64),
    let v := u.spillOver i
    let th := v.th i
    let x := excOfImage w
    (u.locked (engOf i) = true → u.spillEnd i p r w = v) ∧
    (u.locked (engOf i) = false →
      (∀ k, p.kind = .save k → u.spillEnd i p .ok w = v) ∧
      (∀ k, p.kind = .save k ∨ p.kind = .restore k → p.sel ≠ .brace → r ≠ .ok →
        u.spillEnd i p r w = v.raiseSignal i 0x43 (BitVec.ofNat 64 p.addr)) ∧
      (∀ k, p.kind = .restore k → ∃ b : Bank, u.spillEnd i p .ok w = v.modTh i (fun t => { t with normal := b }) ∧
        (k = 0 → b = { th.normal with w := b.w } ∧ ∀ n : Fin 32, b.w[n] = if n.val < 16 then w.getD n.val 0 else th.normal.w[n]) ∧
        (k = 1 → b = { th.normal with w := b.w } ∧
          ∀ n : Fin 32, b.w[n] = if n.val < 16 then th.normal.w[n] else w.getD (n.val - 16) 0) ∧
        (k = 2 → b = { th.normal with latch := b.latch, ldErr := none } ∧ ∀ n : Fin 22, b.latch[n] = w.getD n.val 0) ∧
        (k = 3 → b = { th.normal with b := b.b, c0 := (w.getD 1 0).getLsbD 16, c1 := (w.getD 1 0).getLsbD 17
                                      link := ⟨(w.getD 1 0).extractLsb' 32 17, (w.getD 1 0).extractLsb' 56 2⟩
                                      loop0 := wordLoop (w.getD 2 0), loop1 := wordLoop (w.getD 3 0) } ∧
          b.b.getLsbD 0 = true ∧ ∀ n, 1 ≤ n → n < 8 → b.b.getLsbD n = (w.getD 1 0).getLsbD n)) ∧
      (p.kind = .xsave → u.spillEnd i p .ok w = v.modTh i fun t => { t with xsp := t.xsp + 512, armed := true }) ∧
      (p.kind = .xsave ∨ p.kind = .xrestore ∨ p.kind = .nested → r ≠ .ok →
        u.spillEnd i p r w = v.modTh i fun t => { t with brEntry := some ⟨0x43, BitVec.ofNat 64 p.addr, 7⟩ }) ∧
      (p.kind = .xrestore ∨ p.kind = .nested → x.ring < th.ring →
        u.spillEnd i p .ok w = v.modTh i fun t => { t with brEntry := some ⟨0x43, BitVec.ofNat 64 (p.addr + 2 ^ 63), 7⟩ }) ∧
      (p.kind = .xrestore → ¬ x.ring < th.ring → u.spillEnd i p .ok w =
        v.modTh i fun t => { t with shadow := bankOfImage w, exc := x, xsp := t.xsp - 512, armed := false }) ∧
      (p.kind = .nested → ¬ x.ring < th.ring → u.spillEnd i p .ok w =
        v.modTh i fun t => { t with pc := t.exc.epc, npc := t.exc.enpc, ds := t.exc.ds, ring := t.exc.ring
                                    shadow := bankOfImage w, exc := x, xdepth := t.xdepth - 1, armed := true })))
/- Control, gates and exceptions ---------------------------------------------------------------------- -/

/-- JUMP and CALL go to B[16:0], JREL and CALLR to PC + B modulo 131,072, after one delay slot (R46, R101). A CALL pushes
PC + 2 with the current ring on the shadow stack and into the link register, and at depth 32 raises SS_OVERFLOW (R125; that the
lone trigger counts as a move of slot 0 is the model's choice, log entry 3). The ring does not change. LOOPn starts level n at PC + 1
with count B[31:0]; LBREAKn ends it (R102). -/
def Obligations.JumpsCallsLoops : Prop :=
  ∀ (s : State) (t : Th) (b : W64),
    let i := thIx t
    let s0 := s.atTrigger i
    let th := s0.th i
    let tgt := fun rel : Bool => (if rel then th.pc else 0) + BitVec.ofNat 17 b.toNat
    s.canTrigger i →
    (∀ rel : Bool, exec (.jump t rel b) s = .next (s0.setTh i { th with pc := th.npc, npc := tgt rel, ds := true })) ∧
    (∀ rel : Bool, th.stack.length < 32 → s.Inv → ∃ s', exec (.call t rel b) s = .next s' ∧
      (s'.th i).pc = th.npc ∧ (s'.th i).npc = tgt rel ∧ (s'.th i).ds = true ∧ (s'.th i).ring = th.ring ∧
      (s'.th i).stack = ⟨th.pc + 2, th.ring⟩ :: th.stack ∧ (s'.cur i).link = ⟨th.pc + 2, th.ring⟩ ∧
      (s'.cur i).w = (s0.cur i).w ∧ s'.mem = s.mem ∧ s'.regs = s0.regs) ∧
    (∀ rel : Bool, 32 ≤ th.stack.length → exec (.call t rel b) s = .next (s0.raiseFault i ⟨0x14, 0, 0⟩)) ∧
    (exec (.loop t 0 b) s =
      .next (s0.putBank i th.sel { s0.cur i with loop0 := ⟨th.pc + 1, true, BitVec.ofNat 32 b.toNat⟩ })) ∧
    (exec (.loop t 1 b) s =
      .next (s0.putBank i th.sel { s0.cur i with loop1 := ⟨th.pc + 1, true, BitVec.ofNat 32 b.toNat⟩ })) ∧
    (exec (.lbreak t 0) s =
      .next (s0.putBank i th.sel { s0.cur i with loop0 := { (s0.cur i).loop0 with active := false } })) ∧
    (exec (.lbreak t 1) s =
      .next (s0.putBank i th.sel { s0.cur i with loop1 := { (s0.cur i).loop1 with active := false } }))

/-- A gate call enters the gate's ring at its target with PC + 1 and the caller's ring on the shadow stack, when the entry is
valid and allows the ring, and raises SS_OVERFLOW at depth 32; otherwise GATE_MASK with the gate number (R125, R126, R130). A RETURN to the top of the shadow stack pops it and
restores its ring; to another address or inward it is the control-flow fault, at depth 0 the underflow fault (R127). In a
delay slot each is the gate-in-delay-slot fault (R104). That the lone trigger counts as a move of slot 0 in the fault record is the
model's choice (log entry 3). -/
def Obligations.GateAndReturn : Prop :=
  ∀ (s : State) (t : Th) (b : W64),
    let i := thIx t
    let s0 := s.atTrigger i
    let th := s0.th i
    let g := s0.rd (aEng (engOf i) (0x100 + 4 * (b.toNat % 64)))
    s.Inv → s.canTrigger i →
    (th.ds = false → th.stack.length < 32 → g.getLsbD 31 = true → g.getLsbD (24 + th.ring.toNat) = true →
      Runs (.gate t b) s fun s' =>
        (s'.th i).ring = BitVec.ofNat 2 (g.toNat / 2 ^ 20) ∧ (s'.th i).pc = BitVec.ofNat 17 g.toNat ∧
        (s'.th i).npc = BitVec.ofNat 17 g.toNat + 1 ∧ (s'.th i).ds = false ∧
        (s'.th i).stack = ⟨th.pc + 1, th.ring⟩ :: th.stack ∧ s'.mem = s.mem ∧ s'.regs = s0.regs) ∧
    (th.ds = false → g.getLsbD 31 = false ∨ g.getLsbD (24 + th.ring.toNat) = false →
      exec (.gate t b) s = .next (s0.raiseFault i ⟨0x11, BitVec.ofNat 64 (b.toNat % 64), 0⟩)) ∧
    (th.ds = false → 32 ≤ th.stack.length → g.getLsbD 31 = true → g.getLsbD (24 + th.ring.toNat) = true →
      exec (.gate t b) s = .next (s0.raiseFault i ⟨0x14, 0, 0⟩)) ∧
    (∀ (top : Ret) (rest : List Ret), th.ds = false → th.stack = top :: rest → BitVec.ofNat 17 b.toNat = top.pc →
      th.ring ≤ top.ring → Runs (.ret t b) s fun s' =>
        (s'.th i).pc = top.pc ∧ (s'.th i).npc = top.pc + 1 ∧ (s'.th i).ds = false ∧ (s'.th i).ring = top.ring ∧
        (s'.th i).stack = rest ∧ (s'.cur i).link = rest.headD ⟨0, 0⟩ ∧ s'.mem = s.mem ∧ s'.regs = s0.regs) ∧
    (∀ (top : Ret) (rest : List Ret), th.ds = false → th.stack = top :: rest →
      BitVec.ofNat 17 b.toNat ≠ top.pc ∨ top.ring < th.ring → exec (.ret t b) s = .next (s0.raiseFault i
        ⟨0x12, BitVec.ofNat 64 (b.toNat % 2 ^ 17 + top.pc.toNat * 2 ^ 32), 0⟩)) ∧
    (th.ds = false → th.stack = [] → exec (.ret t b) s = .next (s0.raiseFault i ⟨0x13, 0, 0⟩)) ∧
    (th.ds = true →
      exec (.gate t b) s = .next (s0.raiseFault i ⟨0x10, 0x348, 0⟩) ∧
      exec (.ret t b) s = .next (s0.raiseFault i ⟨0x10, 0x349, 0⟩))

/-- Return from exception at depth 0: the thread resumes at EPC, ENPC and DS of the record, in the recorded ring and its
normal bank, and nothing else changes; armed, or at another shadow-stack depth than at entry, it is the control-flow fault; in
the normal bank the illegal-port fault (R136). At a greater depth it starts the read of the image at XSP - 512, or raises XSP_INVALID
with the checks that fail (R139). In a delay slot it is the gate-in-delay-slot fault, but in the normal bank the illegal-port fault
(R104, R130, R136). That the lone trigger counts as a move of slot 0 is the model's choice (log entry 3). In the brace
bank it clears STATUS.BRACE and returns the thread to its shadow bank at the brace record, or, where the task has ended, empties
its slot, whose buffered stores go on draining (R147). -/
def Obligations.ReturnFromException : Prop :=
  ∀ (s : State) (t : Th),
    let i := thIx t
    let s0 := s.atTrigger i
    let th := s0.th i
    s.canTrigger i →
    (th.ds = true → th.sel ≠ .normal → exec (.rfe t) s = .next (s0.raiseFault i ⟨0x10, 0x34A, 0⟩)) ∧
    (th.ds = true → th.sel = .normal → exec (.rfe t) s = .next (s0.raiseFault i ⟨0x01, 0x34A, 0⟩)) ∧
    (th.ds = false →
    (th.sel = .shadow → th.armed = false → th.stack.length = th.exc.depth → th.xdepth = 0 → s.Inv →
      Runs (.rfe t) s fun s' => OnlyThread s0 s' i ∧ s'.th i = { th with
        pc := th.exc.epc, npc := th.exc.enpc, ds := th.exc.ds, ring := th.exc.ring, sel := .normal }) ∧
    (th.sel = .shadow → th.armed = true → exec (.rfe t) s = .next (s0.raiseFault i ⟨0x12, 1, 0⟩)) ∧
    (th.sel = .shadow → th.armed = false → th.stack.length ≠ th.exc.depth →
      exec (.rfe t) s = .next (s0.raiseFault i ⟨0x12, 2, 0⟩)) ∧
    (th.sel = .normal → exec (.rfe t) s = .next (s0.raiseFault i ⟨0x01, 0x34A, 0⟩)) ∧
    (th.sel = .shadow → th.armed = false → th.stack.length = th.exc.depth → 0 < th.xdepth → 512 ≤ th.xsp.toNat →
      s0.xspFails i (some (th.xsp.toNat - 512)) = 0 →
      exec (.rfe t) s =
        .next ((s0.setTh i { th with spill := some ⟨.nested, .shadow, th.xsp.toNat - 512⟩ }).spillGo i)) ∧
    (th.sel = .shadow → th.armed = false → th.stack.length = th.exc.depth → 0 < th.xdepth →
      s0.xspFails i (xspBelow th.xsp) ≠ 0 → exec (.rfe t) s =
        .next (s0.raiseFault i ⟨0x19, BitVec.ofNat 64 (s0.xspFails i (xspBelow th.xsp)), 0⟩)) ∧
    (th.sel = .brace → (s0.task th.task).state ≠ .ended → s.Inv → Runs (.rfe t) s fun s' =>
      (s'.th i).sel = .shadow ∧ (s'.th i).pc = BitVec.ofNat 17 (s0.rd (aEng (engOf i) 0x60)).toNat ∧
      (s'.th i).npc = BitVec.ofNat 17 (s0.rd (aEng (engOf i) 0x64)).toNat ∧
      (s'.th i).ring = BitVec.ofNat 2 ((s0.rd (aEng (engOf i) 0x5C)).toNat / 2 ^ 9) ∧
      (s'.th i).ds = s0.bit (aEng (engOf i) 0x5C) 8 ∧ s'.inBrace (engOf i) = false ∧
      (s'.eng (engOf i)).braced = none ∧ s'.mem = s.mem) ∧
    (th.sel = .brace → (s0.task th.task).state = .ended → s.Inv → Runs (.rfe t) s fun s' =>
      (s'.th i).phase = .empty ∧ (s'.th i).stores = th.stores ∧ (s'.task th.task).inSlot = false ∧
      s'.inBrace (engOf i) = false ∧ (s'.eng (engOf i)).braced = none ∧ s'.mem = s.mem))

/-- A fault outside the brace bank waits for its ENTRY cycle; a read of poison also sets POISON_READ, and the read of a load error
clears the mark (R99, R135, R161). First
entry, from the normal bank: the record takes cause, PC, NPC, DS, ring, depth, slot and info; the shadow bank is cleared; the
thread runs there at XVEC in XVEC's ring, unarmed; the normal bank, the shadow stack and memory stay as they were (R134). From
an armed shadow bank below depth 15 the same with one more depth; from any other shadow bank brace entry: ring 0 at BRACE_PC with W31
the brace stack, STATUS.BRACE set, the shadow bank and its record kept (R145). With no fault due, the entry that a failed transfer made due
is the brace entry (R143), and a pending signal of the lowest priority number enters in the same way, with slot 7, and leaves the
others pending (R131, R135; of several of one priority the earliest, the model's choice, log entry 133). A fault in the brace bank
locks the engine up: LOCK_REC and LOCK_EPC take it, STATUS and STICKY show it, FAULT_N is driven low, nothing of the engine is due or
selected any more, every READY or ASLEEP task that is resident on the engine or pinned to it is LOST, and the engine is a sparing
candidate (R148, R149, R211, R476; a task whose context already leaves its slot is not counted resident, log entry 145). -/
def Obligations.ExceptionEntry : Prop :=
  (∀ (s : State) (i : Nat) (f : FaultRec), (s.th i).sel ≠ .brace →
    (f.cause.toNat < 3 ∨ 6 < f.cause.toNat → s.raiseFault i f = s.setTh i { s.th i with fault := some f }) ∧
    (f.cause = 0x03 → s.raiseFault i f = (s.setB (aCulm 0x10) 2).setTh i { s.th i with fault := some f }) ∧
    (f.cause = 0x04 ∨ f.cause = 0x05 ∨ f.cause = 0x06 → s.raiseFault i f =
      (s.putBank i (s.th i).sel { s.cur i with ldErr := none }).modTh i fun th => { th with fault := some f })) ∧
  (∀ (s : State) (i : Nat) (f : FaultRec), (s.th i).sel = .brace → f.cause.toNat < 3 ∨ 6 < f.cause.toNat →
    s.raiseFault i f = s.lockup (engOf i) f.cause (s.th i).pc (s.th i).ds (s.th i).ring (slotOf i)) ∧
  (∀ (s : State) (e : EngId) (cause : BitVec 8) (epc : Pc) (ds : Bool) (ring : Ring) (slot : Nat),
    let n := engIx e
    let s' := s.lockup n cause epc ds ring slot
    let here := fun id : Nat => (∃ i ∈ slotsOf n, (s.th i).resident = true ∧ (s.th i).task = id) ∨
      ((s.task id).pinned = true ∧ (s.task id).sheaf = n / 9 ∧ s.posOf (n / 9) (n % 9) = some (s.task id).engine)
    s.Inv → (s.locked n = true → s' = s) ∧
    (s.locked n = false →
      s'.locked n = true ∧ s'.bit (aEng n 0x24) 2 = true ∧ s'.bit 0x90 0 = true ∧ s'.bit 0x90 2 = true ∧
      s'.rf (aEng n 0x68) 0 8 = cause.toNat ∧ s'.bit (aEng n 0x68) 8 = ds ∧ s'.rf (aEng n 0x68) 9 2 = ring.toNat ∧
      s'.rf (aEng n 0x68) 16 3 = slot % 8 ∧ s'.bit (aEng n 0x68) 31 = true ∧ s'.rd (aEng n 0x6C) = epc.setWidth 32 ∧
      (∀ i ∈ slotsOf n, (s'.th i).fault = none ∧ (s'.th i).brEntry = none ∧ s'.mayPick i = false) ∧
      (∀ i, i ∉ slotsOf n → s'.th i = s.th i) ∧ s'.mem = s.mem ∧
      (∀ id, here id → (s.task id).state = .ready ∨ (s.task id).state = .asleep → (s'.task id).state = .lost) ∧
      (∀ id, ¬ here id ∨ (s.task id).state ≠ .ready ∧ (s.task id).state ≠ .asleep → (s'.task id).state = (s.task id).state) ∧
      (s'.bit (aShf (n / 9) 4) (16 + n % 9) = true ∨ s'.bit (aShf (n / 9) 4) (n % 9) = true))) ∧
  (∀ (s : State) (t : Th) (f : FaultRec),
    let i := thIx t
    let e := engOf i
    let s0 := s.landShort i
    let th := s0.th i
    let xvec := s0.rd (aEng e 0x40)
    s.Inv → s.sleeping = false → s0.selected e = some i → th.fault = some f →
    (th.sel = .normal ∨ th.sel = .shadow ∧ th.armed = true ∧ th.xdepth < 15 → Runs (.exceptionEntry t) s fun s' =>
      s'.th i = { th with
        fault := none, exc := ⟨f.cause, th.pc, th.npc, th.ds, th.ring, th.stack.length, f.slot, f.info⟩
        shadow := Bank.clear, sel := .shadow, armed := false
        xdepth := if th.sel = .normal then th.xdepth else th.xdepth + 1
        pc := BitVec.ofNat 17 xvec.toNat, npc := BitVec.ofNat 17 xvec.toNat + 1, ds := false
        ring := BitVec.ofNat 2 (xvec.toNat / 2 ^ 24) } ∧
      s'.mem = s.mem ∧ s'.regs = s0.regs ∧ s'.tasks = s0.tasks ∧ (∀ j, j ≠ i → s'.th j = s0.th j)) ∧
    (th.sel = .shadow → ¬(th.armed = true ∧ th.xdepth < 15) → Runs (.exceptionEntry t) s fun s' =>
      (s'.th i).sel = .brace ∧ (s'.th i).ring = 0 ∧ (s'.th i).pc = BitVec.ofNat 17 (s0.rd (aEng e 0x44)).toNat ∧
      (s'.th i).shadow = th.shadow ∧ (s'.th i).exc = th.exc ∧ (s'.th i).armed = th.armed ∧ (s'.th i).xsp = th.xsp ∧
      (s'.eng e).braced = some t.j.val ∧ (s'.eng e).brace.w[31] = BitVec.ofNat 64 (s0.rf (aEng e 0x48) 3 15 * 8) ∧
      s'.inBrace e = true ∧ s'.bit (aEng e 0x24) 3 = true ∧ s'.rf (aEng e 0x5C) 0 8 = f.cause.toNat ∧
      s'.rf (aEng e 0x60) 0 17 = th.pc.toNat ∧ s'.mem = s.mem)) ∧
  (∀ (s : State) (t : Th),
    let i := thIx t
    let e := engOf i
    let s0 := s.landShort i
    let th := s0.th i
    let xvec := s0.rd (aEng e 0x40)
    s.Inv → s.sleeping = false → s0.selected e = some i → th.fault = none →
    (∀ f : FaultRec, th.brEntry = some f → Runs (.exceptionEntry t) s fun s' =>
      (s'.th i).sel = .brace ∧ (s'.th i).ring = 0 ∧ (s'.th i).pc = BitVec.ofNat 17 (s0.rd (aEng e 0x44)).toNat ∧
      (s'.th i).brEntry = none ∧ (s'.th i).shadow = th.shadow ∧ (s'.th i).exc = th.exc ∧ (s'.th i).xsp = th.xsp ∧
      (s'.eng e).braced = some t.j.val ∧ s'.inBrace e = true ∧ s'.rf (aEng e 0x5C) 0 8 = f.cause.toNat ∧
      s'.rf (aEng e 0x60) 0 17 = th.pc.toNat ∧ s'.mem = s.mem) ∧
    (∀ (c : BitVec 8) (x : W64) (pre post : List (BitVec 8 × W64)), th.brEntry = none → th.sigs = pre ++ (c, x) :: post →
      (∀ q ∈ pre, sigPrio c < sigPrio q.1) → (∀ q ∈ post, sigPrio c ≤ sigPrio q.1) →
      (th.sel = .normal ∨ th.sel = .shadow ∧ th.armed = true ∧ th.xdepth < 15 → Runs (.exceptionEntry t) s fun s' =>
        s'.th i = { th with
          sigs := th.sigs.filter fun q => q.1 != c
          exc := ⟨c, th.pc, th.npc, th.ds, th.ring, th.stack.length, 7, x⟩
          shadow := Bank.clear, sel := .shadow, armed := false
          xdepth := if th.sel = .normal then th.xdepth else th.xdepth + 1
          pc := BitVec.ofNat 17 xvec.toNat, npc := BitVec.ofNat 17 xvec.toNat + 1, ds := false
          ring := BitVec.ofNat 2 (xvec.toNat / 2 ^ 24) } ∧
        s'.mem = s.mem ∧ s'.regs = s0.regs ∧ s'.tasks = s0.tasks ∧ (∀ j, j ≠ i → s'.th j = s0.th j)) ∧
      (th.sel = .shadow → th.armed = true → 15 ≤ th.xdepth → Runs (.exceptionEntry t) s fun s' =>
        (s'.th i).sel = .brace ∧ (s'.th i).sigs = (th.sigs.filter fun q => q.1 != c) ∧
        s'.rf (aEng e 0x5C) 0 8 = c.toNat ∧ s'.mem = s.mem) ∧
      (th.sel = .brace ∨ th.sel = .shadow ∧ th.armed = false → exec (.exceptionEntry t) s = .next s0)))

/-- A whole instruction. The word of zeros (no move) commits, advances PC to NPC and the instruction count by 1, and changes
nothing else of the thread but its DS and the cycle of its last commit (R41, R46). A word with an uncorrectable error, or one that a
copy poisoned, and the fault word, raise the illegal-port fault at the null instruction's PC with no other effect (R65, R66, R344).
Any other word: the moves that execute are those whose guard reads 1, slot 3 being none with LIMM (R32, R34, R35); the first of them
whose source or destination waits replays the instruction without effect (R50, R51; which wait is recorded is the model's choice, log
entry 148); else the fault of the lowest priority number and slot among those of READ, then of TRANSPORT, then of TRIGGER is raised
(R41, R130); else it commits, each move carrying the value its source had before the instruction (R43). -/
def Obligations.WholeInstruction : Prop :=
  ∀ (s : State) (t : Th),
    let i := thIx t
    let e := engOf i
    let s0 := s.atTrigger i
    let th := s0.th i
    let iw := s0.instrAt th.pc
    let g0 := (s0.cur i).b
    let ms := movesOf iw g0
    let b := if iwLimm iw then { s0.cur i with limm := iwLong iw } else s0.cur i
    let mv := ms.map fun m => (m, s0.srcVal i b m)
    let waits := fun m : Move => (s0.srcWait i m).toList ++ (dstWait m).toList
    let trig := (trigsOf mv).flatMap fun q => s0.trigFaults i (commitBank b mv) q.1 q.2.1 q.2.2.d q.2.2.slot
    let least := fun (f : Flt) (l : List Flt) => f ∈ l ∧ ∀ g ∈ l, f.prio < g.prio ∨ f.prio = g.prio ∧ f.fr.slot ≤ g.fr.slot
    s.Inv → (s.landShort i).mayRun i = true →
    (∀ ue : Bool, ue = true ∨ s0.progPois e th.pc = true → exec (.instruction t ue) s =
      .next ((s0.setB (aEng e 0x24) 0).raiseFault i ⟨0x01, 0xFFF, 0⟩)) ∧
    (s0.progPois e th.pc = false →
      (iw = 0 → Runs (.instruction t false) s fun s' =>
        s'.th i = { th with pc := th.npc, npc := th.npc + 1, ds := false, lastRun := s0.eclk } ∧
        s'.eng e = { s0.eng e with instr := (s0.eng e).instr + 1, last := t.j.val } ∧
        s'.mem = s.mem ∧ s'.regs = s0.regs ∧ s'.chans = s0.chans ∧ (∀ j, j ≠ i → s'.th j = s0.th j)) ∧
      (iw = faultWord → exec (.instruction t false) s = .next (s0.raiseFault i ⟨0x01, 0xFFF, 0⟩)) ∧
      (∀ m, m ∈ ms ↔ ∃ k, k < (if iwLimm iw then 3 else 4) ∧ m = moveAt iw k ∧
        (m.inv = false ↔ m.g = 0 ∨ g0.getLsbD m.g = true)) ∧
      (∀ (pre post : List Move) (m : Move) (w : WaitCond), ms = pre ++ m :: post →
        (∀ x ∈ pre, ∀ v ∈ waits x, s0.holds i v = false) → (waits m).find? (fun v => s0.holds i v) = some w →
        exec (.instruction t false) s = .next (((s0.modTh i fun th => { th with wait := some w }).bump (aEng e 0x10) 1).setEng e
          { s0.eng e with last := t.j.val })) ∧
      ((∀ m ∈ ms, ∀ v ∈ waits m, s0.holds i v = false) →
        (∀ f, least f (ms.filterMap fun m => s0.srcFault i b m) →
          exec (.instruction t false) s = .next (s0.raiseFault i f.fr)) ∧
        ((∀ m ∈ ms, s0.srcFault i b m = none) →
          (∀ f, least f (s0.dstFaults i [] ms) → exec (.instruction t false) s = .next (s0.raiseFault i f.fr)) ∧
          (s0.dstFaults i [] ms = [] →
            (∀ f, least f trig → exec (.instruction t false) s = .next (s0.raiseFault i f.fr)) ∧
            (trig = [] → exec (.instruction t false) s = .next ((s0.commit i b iw mv).spillGo i))))))

/-- What a committed instruction leaves. Of moves to one latch or register the one of the highest slot determines the value (R44);
what no move names keeps its value; guards are written at commit (R45); a send fills the channel's send buffer and a receive port
that was read leaves its buffer empty (R156, R158); LIMM is the loaded latch (R35). Without a transfer PC goes on to NPC; LOOPEND of
an active loop, level 1 before level 0, goes back to its start while the count is not 0, and else ends the level; in a delay slot or
with no active loop it sets LOOPEND_IGNORED (R46, R47). An ALU trigger uses the operand latch as the instruction's own moves leave it (R79),
and a JUMP takes effect after NPC, whatever other moves stand beside it (R46). -/
def Obligations.CommittedMoves : Prop :=
  ∀ (s : State) (t : Th) (b : Bank) (iw : W128) (mv : List (Move × W64)),
    let i := thIx t
    let e := engOf i
    let th := s.th i
    let s' := s.commit i b iw mv
    let b' := s'.bankOf i th.sel
    let plain := fun p : Move × W64 => ∀ g : Trig, dstPort p.1.d ≠ .trig g
    let onward := (s'.th i).pc = th.npc ∧ (s'.th i).npc = th.npc + 1 ∧ (s'.th i).ds = false
    s.Inv → th.phase = .run →
    ((∀ p ∈ mv, plain p) →
      (∀ (pre post : List (Move × W64)) (m : Move) (v : W64), mv = pre ++ (m, v) :: post →
        (∀ q ∈ post, dstPort q.1.d ≠ dstPort m.d) →
        (∀ n, dstPort m.d = .w n → b'.w[n] = v) ∧ (∀ n, dstPort m.d = .latch n → b'.latch[n] = v) ∧
        (dstPort m.d = .carry 0 → b'.c0 = v.getLsbD 0) ∧ (dstPort m.d = .carry 1 → b'.c1 = v.getLsbD 0) ∧
        (∀ n, dstPort m.d = .b n → n ≠ 0 → (∀ q ∈ post, dstPort q.1.d ≠ .bmask) → b'.b.getLsbD n.val = v.getLsbD 0) ∧
        (dstPort m.d = .bmask → (∀ q ∈ post, ∀ n, dstPort q.1.d ≠ .b n) → b'.b = BitVec.ofNat 8 v.toNat ||| 1) ∧
        (∀ c, dstPort m.d = .send c → (s'.chan c).send = some v)) ∧
      (∀ n : Fin 32, (∀ p ∈ mv, dstPort p.1.d ≠ .w n) → b'.w[n] = b.w[n]) ∧
      (∀ n : Fin 22, (∀ p ∈ mv, dstPort p.1.d ≠ .latch n) → b'.latch[n] = b.latch[n]) ∧
      (∀ n : Fin 8, (∀ p ∈ mv, dstPort p.1.d ≠ .b n ∧ dstPort p.1.d ≠ .bmask) → b'.b.getLsbD n.val = b.b.getLsbD n.val) ∧
      (∀ c, (∀ p ∈ mv, dstPort p.1.d ≠ .send c) → (s'.chan c).send = (s.chan c).send) ∧
      (∀ c, (s'.chan c).rx = if c ∈ s.taken i (mv.map (·.1)) then none else (s.chan c).rx) ∧
      b'.limm = b.limm ∧ b'.link = b.link ∧ b'.spill = b.spill ∧ (s'.eng e).instr = (s.eng e).instr + 1 ∧
      (s'.eng e).last = t.j.val ∧ (s'.th i).lastRun = s.eclk ∧ (s'.th i).ring = th.ring ∧ (s'.th i).stack = th.stack ∧
      s'.mem = s.mem ∧ s'.tasks = s.tasks ∧ (∀ j, j ≠ i → s'.th j = s.th j) ∧
      (iwLoopend iw = false → onward ∧ b'.loop0 = b.loop0 ∧ b'.loop1 = b.loop1 ∧ s'.regs = s.regs) ∧
      (iwLoopend iw = true → th.ds = true ∨ b.loop1.active = false ∧ b.loop0.active = false →
        onward ∧ b'.loop0 = b.loop0 ∧ b'.loop1 = b.loop1 ∧ s'.bit (aEng e 0x24) 1 = true) ∧
      (iwLoopend iw = true → th.ds = false → b.loop1.active = true → b'.loop0 = b.loop0 ∧ s'.regs = s.regs ∧
        (b.loop1.count ≠ 0 → (s'.th i).pc = b.loop1.start ∧ (s'.th i).npc = b.loop1.start + 1 ∧ (s'.th i).ds = false ∧
          b'.loop1 = { b.loop1 with count := b.loop1.count - 1 }) ∧
        (b.loop1.count = 0 → onward ∧ b'.loop1 = { b.loop1 with active := false })) ∧
      (iwLoopend iw = true → th.ds = false → b.loop1.active = false → b.loop0.active = true → b'.loop1 = b.loop1 ∧
        s'.regs = s.regs ∧
        (b.loop0.count ≠ 0 → (s'.th i).pc = b.loop0.start ∧ (s'.th i).npc = b.loop0.start + 1 ∧ (s'.th i).ds = false ∧
          b'.loop0 = { b.loop0 with count := b.loop0.count - 1 }) ∧
        (b.loop0.count = 0 → onward ∧ b'.loop0 = { b.loop0 with active := false }))) ∧
    (∀ (pre post : List (Move × W64)) (m : Move) (v : W64), mv = pre ++ (m, v) :: post → (∀ p ∈ pre ++ post, plain p) →
      (dstPort m.d = .trig (.alu 0 .add) → ∃ c : Bool,
        (s'.th i).ops = th.ops ++ [RunOp.mk .alu0 true th.sel (b'.latch[0] + v) 0 (some c)] ∧
        c = decide (2 ^ 64 ≤ b'.latch[0].toNat + v.toNat)) ∧
      (∀ rel : Bool, dstPort m.d = .trig (.jump rel) → (s'.th i).pc = th.npc ∧ (s'.th i).ds = true ∧
        (s'.th i).npc = (if rel then th.pc else 0) + BitVec.ofNat 17 v.toNat))

/- Streams, events and debug -------------------------------------------------------------------------- -/

/-- A granted push puts the entry HI:B, with the task's ID in its TASK field, behind what is on its way to the expander or
Thresher and behind an assist entry in work, but before what higher engines of the device pushed in the same ECLK cycle (R106); without
the grant it is the ungranted-queue fault that names the port, while the queue is full it waits without effect (R105, R226, R318; that
the lone trigger counts as a move of slot 0 is the model's choice, log entry 3). A pull takes the oldest output word, or answers bit 63
alone when there is none (R107), into the bank that pulled, whatever bank the thread runs in now (a reading, log entry 24; two pulls in the order of their moves is the model's choice, log entry 148). -/
def Obligations.Streams : Prop :=
  (∀ (p : Nat × List Nat) (now e held : Nat) (l : List W128) (x : W128),
    (p.1 ≠ now → pushIn p now e held l x = (l ++ [x], (now, [e]))) ∧
    (∀ (a c : List Nat) (pre post : List W128), p = (now, a ++ c) → l = pre ++ post → c.length = post.length →
      held ≤ pre.length → (∀ j ∈ a, j ≤ e) → (∀ j ∈ c, e < j) →
      (pushIn p now e held l x).1 = pre ++ x :: post ∧ ∃ a', a' <:+ a ∧ (pushIn p now e held l x).2 = (now, a' ++ e :: c))) ∧
  (∀ (s : State) (t : Th) (n : Fin 16) (b : W64),
    let i := thIx t
    let s0 := s.atTrigger i
    let p := s0.pxs n.val
    let q := pushIn p.pushed s0.eclk (engOf i) 0 p.cross (streamEntry (s0.cur i).latch[17] b (s0.th i).task)
    s.canTrigger i →
    (s0.pxFull n.val = false → s0.grantOf (s0.th i).task n.val = true →
      exec (.push t n b) s = .next (s0.setPx n.val { p with cross := q.1, pushed := q.2 })) ∧
    (s0.pxFull n.val = false → s0.grantOf (s0.th i).task n.val = false →
      exec (.push t n b) s = .next (s0.raiseFault i ⟨0x18, BitVec.ofNat 64 (0x390 + n.val), 0⟩)) ∧
    (s0.pxFull n.val = true → exec (.push t n b) s = .next s0)) ∧
  (∀ (s : State) (t : Th) (n : Fin 4) (b : W64),
    let i := thIx t
    let s0 := s.atTrigger i
    let p := s0.thrs n.val
    let inWork := (s0.xferOf (.assist n.val)).isSome || p.job.any fun j => !j.1
    let q := pushIn p.pushed s0.eclk (engOf i) (if inWork then 1 else 0) p.assist
      (streamEntry (s0.cur i).latch[17] b (s0.th i).task)
    s.canTrigger i →
    (s0.grantOf (s0.th i).task (16 + n.val) = true → p.assist.length < 64 →
      exec (.assistPush t n b) s = .next (s0.setThr n.val { p with assist := q.1, pushed := q.2 })) ∧
    (s0.grantOf (s0.th i).task (16 + n.val) = false → p.assist.length < 64 →
      exec (.assistPush t n b) s = .next (s0.raiseFault i ⟨0x18, BitVec.ofNat 64 (0x3A0 + n.val), 0⟩)) ∧
    (64 ≤ p.assist.length → exec (.assistPush t n b) s = .next s0) ∧
    (s0.grantOf (s0.th i).task (20 + n.val) = true → exec (.pull t n) s =
      .next (s0.setTh i { s0.th i with pulls := (s0.th i).pulls ++ [(n.val, (s0.th i).sel)] })) ∧
    (s0.grantOf (s0.th i).task (20 + n.val) = false →
      exec (.pull t n) s = .next (s0.raiseFault i ⟨0x18, BitVec.ofNat 64 (0x3A8 + n.val), 0⟩))) ∧
  (∀ (s : State) (t : Th) (n : Nat) (sel : BankSel) (rest : List (Nat × BankSel)),
    let i := thIx t
    s.Inv → s.sleeping = false → s.locked (engOf i) = false → (s.th i).pulls = (n, sel) :: rest →
    Runs (.pullReply t) s fun s' =>
      ((s.thrs n).out = [] → (s'.bankOf i sel).latch[18] = 0x8000000000000000) ∧
      (∀ (w : W64) (l : List W64), (s.thrs n).out = w :: l →
        (s'.bankOf i sel).latch[18] = (w &&& 0x7FFFFFFFFFFFFFFF) ∧ (s'.thrs n).out = l) ∧
      (∀ other : BankSel, other ≠ sel → s'.bankOf i other = s.bankOf i other) ∧
      (s'.th i).pulls = rest ∧ s'.mem = s.mem ∧ s'.regs = s.regs)

/-- WAIT with mask 0 does not sleep and sets EVT to 0; with classes pending in the mask it is taken and ends at once, class 5 counting as
pending while an output queue that the object names holds a word (R192); with none it puts the task to sleep with its mask and object
(R108, R191; that the command itself registers the WAIT is the model's choice, log entry 30), unless a signal is pending, which completes
it at once with EVT = 0 (R132). A mask of 0x80000000 ends the task (R191, R210). SIGNAL posts the class for the task, from ring 0 or 1;
a task ID of 40,960 or above sets BAD_SIGNAL, and class 31 the Granary's bad-class bit (R82, R110, R187). POLL takes the pending classes
in the mask from the task and starts with them as its result (R194). That the lone trigger counts as a move of slot 0 in the fault record
is the model's choice (log entry 3). -/
def Obligations.EventUnit : Prop :=
  ∀ (s : State) (t : Th) (b : W64),
    let i := thIx t
    let s0 := s.atTrigger i
    let th := s0.th i
    let r := s0.task th.task
    let m := BitVec.ofNat 32 b.toNat
    let obj := BitVec.ofNat 32 ((s0.cur i).latch[19]).toNat
    let out := m.getLsbD 5 = true ∧ ∃ n, n < 4 ∧ (s0.thrs n).out ≠ [] ∧ (obj = BitVec.ofNat 32 n ∨ obj = 0xFFFFFFFF)
    s.canTrigger i →
    (m = 0 → exec (.wait t b) s = .next (s0.setTh i { th with evt := 0 })) ∧
    (m ≠ 0 → r.state ≠ .ready → exec (.wait t b) s = .next s0) ∧
    (m = 0x80000000 → r.state = .ready → exec (.wait t b) s = .next (s0.setTask th.task { r with state := .ended })) ∧
    (m ≠ 0 → m ≠ 0x80000000 → ¬out → r.state = .ready → r.pend &&& m = 0 → th.sigs = [] → s.Inv →
      Runs (.wait t b) s fun s' => (s'.th i).asleep = true ∧ (s'.task th.task).state = .asleep ∧
        (s'.task th.task).mask = m ∧ (s'.task th.task).obj = obj ∧ s'.mem = s.mem ∧ s'.regs = s0.regs) ∧
    (m ≠ 0 → m ≠ 0x80000000 → ¬out → r.state = .ready → r.pend &&& m = 0 → th.sigs ≠ [] → s.Inv →
      Runs (.wait t b) s fun s' => (s'.th i).asleep = false ∧ (s'.th i).evt = 0 ∧ (s'.task th.task).state = .ready ∧
        s'.mem = s.mem ∧ s'.regs = s0.regs) ∧
    (m ≠ 0 → m ≠ 0x80000000 → ¬out → r.state = .ready → r.paging = false → r.pend &&& m ≠ 0 → s.Inv →
      Runs (.wait t b) s fun s' => (s'.th i).asleep = false ∧ (s'.th i).evt = r.pend &&& m ∧
        (s'.task th.task).state = .ready ∧ (s'.task th.task).pend = r.pend &&& ~~~m ∧ s'.mem = s.mem ∧ s'.regs = s0.regs) ∧
    (m ≠ 0 → m ≠ 0x80000000 → out → r.state = .ready → r.paging = false → s.Inv →
      Runs (.wait t b) s fun s' => (s'.th i).asleep = false ∧ (s'.th i).evt = (r.pend ||| 0x20) &&& m ∧
        (s'.task th.task).state = .ready ∧ (s'.task th.task).pend = (r.pend ||| 0x20) &&& ~~~m ∧ s'.mem = s.mem ∧
        s'.regs = s0.regs) ∧
    (th.ring.toNat < 2 → b.toNat % 65536 < 40960 → b.toNat / 65536 % 32 ≠ 31 → exec (.signal t b) s =
      .next (s0.post (rkSignal i) (some (b.toNat % 65536)) (b.toNat / 65536 % 32) ((s0.cur i).latch[19]).toNat)) ∧
    (th.ring.toNat < 2 → 40960 ≤ b.toNat % 65536 → exec (.signal t b) s = .next (s0.setB (aEng (engOf i) 0x2C) 2)) ∧
    (th.ring.toNat < 2 → b.toNat % 65536 < 40960 → b.toNat / 65536 % 32 = 31 →
      exec (.signal t b) s = .next (s0.setB (aGrn 0x18) 1)) ∧
    (2 ≤ th.ring.toNat → exec (.signal t b) s = .next (s0.raiseFault i ⟨0x02, 0x3C9, 0⟩)) ∧
    (exec (.poll t b) s = .next ((s0.setTask th.task { r with pend := r.pend &&& ~~~(r.pend &&& m) }).start i .poll false
      ((r.pend &&& m).setWidth 64) 0 none))

/-- BKPT sets BKPT_SEEN, or with BKPT_MODE raises the breakpoint signal with its tag (R118). TRACE with TRACE_EN records its
value, thread slot and the next sequence number, and marks an unread record lost; without it nothing happens. TRACE_LO gives
the value's low half, holds the rest, and clears VALID (R120). INSTR_LO gives the count's low half and holds the high half
(R76); CNT_CLEAR clears the count and the counters (R518). -/
def Obligations.DebugAndCounters : Prop :=
  (∀ (s : State) (t : Th) (b : W64),
    let i := thIx t
    let e := engOf i
    let s0 := s.atTrigger i
    let g := s0.eng e
    s.canTrigger i →
    (s0.bit (aEng e 0x28) 1 = false → exec (.bkpt t b) s = .next (s0.setB (aEng e 0x2C) 3)) ∧
    (s0.bit (aEng e 0x28) 1 = true →
      exec (.bkpt t b) s = .next (s0.raiseSignal i 0x44 (BitVec.ofNat 64 (b.toNat % 65536)))) ∧
    (s0.bit (aEng e 0x28) 2 = false → exec (.trace t b) s = .next s0) ∧
    (s0.bit (aEng e 0x28) 2 = true → exec (.trace t b) s =
      .next ((if g.trValid then s0.setB (aEng e 0x2C) 4 else s0).setEng e
        { g with trVal := b, trSlot := t.j.val, trValid := true, trSeq := g.trSeq + 1 }))) ∧
  (∀ (s : State) (e : EngId), s.sleeping = false → s.Inv →
    let n := engIx e
    (Runs (.instrLo e) s fun s' => s'.busOut = BitVec.ofNat 32 (s.eng n).instr.toNat ∧
      s'.rd (aEng n 0xC) = BitVec.ofNat 32 ((s.eng n).instr.toNat / 2 ^ 32) ∧ s'.eng n = s.eng n ∧ s'.ths = s.ths ∧
      ∀ a, a ≠ aEng n 0xC → s'.rd a = s.rd a) ∧
    (Runs (.traceLo e) s fun s' => s'.busOut = BitVec.ofNat 32 (s.eng n).trVal.toNat ∧
      s'.rd (aEng n 0x34) = BitVec.ofNat 32 ((s.eng n).trVal.toNat / 2 ^ 32) ∧ (s'.eng n).trValid = false ∧
      (s'.eng n).instr = (s.eng n).instr ∧ ∀ a, a ≠ aEng n 0x34 → a ≠ aEng n 0x38 → s'.rd a = s.rd a) ∧
    (Runs (.engCntClear e) s fun s' => (s'.eng n).instr = 0 ∧ (∀ o ∈ [0xC, 0x10, 0x14, 0x18, 0x1C], s'.rd (aEng n o) = 0) ∧
      s'.ths = s.ths ∧ s'.mem = s.mem ∧ ∀ a, (∀ o ∈ [0xC, 0x10, 0x14, 0x18, 0x1C], a ≠ aEng n o) → s'.rd a = s.rd a))
/- The Culm ------------------------------------------------------------------------------------------- -/

/-- At its slot a channel's word leaves the send buffer, which is then free; an empty buffer sends chaff and VOID counts it
(R154, R156, R157). Away from the slot nothing happens. `collide` judges the cycles that have passed (R160). -/
def Obligations.CulmSlot : Prop :=
  ∀ (s : State) (c : Fin 1024),
    let s1 := s.collide
    let n := s1.nclk.getD 0
    (s.slotNow c.val = true → ∀ v : W64, (s1.chan c.val).send = some v → exec (.culmSlot c) s =
      .next ({ s1.setChan c.val { s1.chan c.val with send := none, served := n + 1 } with
        flights := s1.flights ++ [Flight.mk c.val v n false] }).clearWaits) ∧
    (s.slotNow c.val = true → (s1.chan c.val).send = none → exec (.culmSlot c) s =
      .next ((s1.setChan c.val { s1.chan c.val with served := n + 1 }).bump (aCulm (0x4000 + 4 * c.val)) 1)) ∧
    (s.slotNow c.val = false → exec (.culmSlot c) s = .next s)

/-- A word that is due is written into an empty receive buffer, and the Granary is offered CULM_RX for the channel (R158,
R186). Into a buffer that holds a word or is poisoned it is an overrun: both words are lost, the buffer is poisoned and OVERRUN
is set, the first channel captured (R159). A collided word poisons its buffer (R160). RX_DISCARD empties the buffer of an allocated
channel and clears its poison (R161). CNT_CLEAR of the Culm clears every VOID and RXWAIT counter and no other register; a read of
FRAME_LO gives the low half of the count of completed frames and holds the high half for FRAME_HI (R165). -/
def Obligations.CulmDelivery : Prop :=
  (∀ (s : State) (c : Fin 1024) (n : Nat) (f : Flight) (rest : List Flight),
    let s1 := s.collide
    let s2 := { s1 with flights := rest }
    let ch := s2.chan c.val
    s1.nclk = some n → s1.takeFlight c.val n s1.flights = some (f, rest) →
    s2.physOf (s2.bind c.val 0 4) (s2.bind c.val 4 3) ≠ none →
    (f.lost = false → ch.rx = none → ch.poison = false → exec (.wordDelivery c) s =
      .next ((s2.setChan c.val { ch with rx := some f.word }).post rkOther none 8 c.val).clearWaits) ∧
    (f.lost = false → ch.rx ≠ none ∨ ch.poison = true → s.Inv → Runs (.wordDelivery c) s fun s' =>
      (s'.chan c.val).rx = none ∧ (s'.chan c.val).poison = true ∧ s'.bit (aCulm 0x10) 1 = true ∧
      (s1.bit (aCulm 0x18) 31 = false → s'.rd (aCulm 0x18) = BitVec.ofNat 32 (c.val + 2 ^ 31)) ∧
      (s1.bit (aCulm 0x18) 31 = true → s'.rd (aCulm 0x18) = s1.rd (aCulm 0x18)) ∧ s'.evq = s.evq) ∧
    (f.lost = true → exec (.wordDelivery c) s =
      .next (s2.setChan c.val { ch with rx := none, poison := true }).clearWaits)) ∧
  (∀ (s : State) (c : Fin 1024), s.sleeping = false →
    let s1 := s.mgmtIn (aCulm 0x20) true
    exec (.rxDiscard c) s = .next
      (if s.routed c.val then s1.setChan c.val { s.chan c.val with rx := none, poison := false } else s1)) ∧
  (∀ s : State, s.sleeping = false → s.Inv →
    (Runs .culmCntClear s fun s' =>
      s' = { s with regs := s'.regs, bus := s'.bus } ∧
      (∀ c : Fin 1024, s'.rd (aCulm (0x4000 + 4 * c.val)) = 0 ∧ s'.rd (aCulm (0x6000 + 4 * c.val)) = 0) ∧
      ∀ a, (∀ o < 0x1000, a ≠ aCulm (0x4000 + o) ∧ a ≠ aCulm (0x6000 + o)) → s'.rd a = s.rd a) ∧
    (Runs .culmFrameLo s fun s' =>
      s'.busOut = BitVec.ofNat 32 s.frames ∧ s'.rd (aCulm 4) = BitVec.ofNat 32 (s.frames / 2 ^ 32) ∧
      s' = { s with regs := s'.regs, busOut := s'.busOut, bus := s'.bus } ∧ ∀ a, a ≠ aCulm 4 → s'.rd a = s.rd a))

/- The Granary ---------------------------------------------------------------------------------------- -/

/-- The Granary takes the events in the order of R193, the lowest rank first, while one of its 4 intake positions is free; a
broadcast occupies its position for one cycle more for each task it wakes. A directed event sets the pending bit of its class in
the task's record, and a task asleep on that class wakes with the pending classes of its mask in EVT, which are cleared: resident,
it runs again; otherwise it waits from now on (R188, R190). For a task with no record it sets STICKY bit 0. A broadcast event
reaches every task asleep on its class and object as a directed event does (R189). -/
def Obligations.Events : Prop :=
  (∀ (s : State) (e : EvReq) (l : List EvReq) (id : Nat),
    let s1 := { s with evq := l, intake := busyPorts s.eclk s.intake ++ [s.eclk + 1] }
    let r := s.task id
    let p := r.pend ||| (1 <<< e.cls)
    s.sleeping = false → nextEv s.evq = some (e, l) → e.task = some id → s.intakeFree = true →
    (r.state = .none → exec .directedEvent s = .next (s1.setB (aGrn 0x18) 0)) ∧
    (r.state ≠ .none → r.state ≠ .asleep ∨ p &&& r.mask = 0 ∨ r.paging = true → s.Inv →
      exec .directedEvent s = .next (s1.setTask id { r with pend := p })) ∧
    (r.state = .asleep → p &&& r.mask ≠ 0 → r.paging = false → s.Inv → Runs .directedEvent s fun s' =>
      (s'.task id).state = .ready ∧ (s'.task id).pend = p &&& ~~~r.mask ∧ s'.evq = l ∧ s'.mem = s.mem ∧ s'.regs = s.regs ∧
      (∀ k, k ≠ id → s'.task k = s.task k) ∧
      (s.slotOfTask id = none → (s'.task id).evt = p &&& r.mask ∧ (s'.task id).stamp = s.grnTime ∧ s'.ths = s.ths) ∧
      (∀ i, s.slotOfTask id = some i → (s'.th i).asleep = false ∧ (s'.th i).evt = p &&& r.mask))) ∧
  (∀ (s : State) (e : EvReq) (l : List EvReq),
    let woken := ((s.sleepersOn e.cls e.obj).filter fun id => !(s.task id).paging).length
    s.sleeping = false → nextEv s.evq = some (e, l) → e.task = none → s.intakeFree = true →
    exec .broadcastEvent s = .next ((s.sleepersOn e.cls e.obj).foldl (fun t id => t.directed id e.cls)
      { s with evq := l, intake := busyPorts s.eclk s.intake ++ [s.eclk + (1 + woken)] })) ∧
  (∀ s : State, s.evq = [] ∨ s.intakeFree = false → exec .directedEvent s = .next s ∧ exec .broadcastEvent s = .next s) ∧
  (∀ (l rest : List EvReq) (e : EvReq), nextEv l = some (e, rest) → e ∈ l ∧ ∀ x ∈ l, e.rank ≤ x.rank)

/-- GRN.TIME advances by one microsecond modulo 2^24 while an image is active and the Granary runs, and a READY task that is not
resident, below PRIO 7 and not urgent, ages by one level per AGE_TICK of its wait, to 6 at most, and with AGE_TICK 0 keeps its PRIO;
one that is urgent or of PRIO 7 has EPRIO 7; a wait that would pass 2^23 is held by moving STAMP, and what the ageing sees is the wait
held; other tasks do not change (R185, R196). A task that waits and whose wait reaches WAIT_BOUND becomes urgent with EPRIO 7 and is counted by its PRIO (R196). A resident ready task's
quantum expires quantum + 1 microseconds after its first FETCH (R200). -/
def Obligations.TimeAndUrgency : Prop :=
  (∀ s : State, s.sleeping = false → s.culmStart ≠ none → s.stopped = false → s.Inv →
    Runs .grnTimeAdvance s fun s' =>
      s'.rd (aGrn 0x14) = BitVec.ofNat 32 (s.grnTime + 1).toNat ∧ s'.mem = s.mem ∧ s'.ths = s.ths ∧
      (∀ a, a ≠ aGrn 0x14 → s'.rd a = s.rd a) ∧
      (∀ id, (s.task id).outside = false → s'.task id = s.task id) ∧
      (∀ id, let t := s.task id
        let w := (s.grnTime + 1 - t.stamp).toNat
        let held := if 2 ^ 23 < w then { t with stamp := t.stamp + 1 } else t
        let aged := min w (max (2 ^ 23) (w - 1))
        let tick := s.rf (aGrn 4) 0 20
        t.outside = true →
        (t.urgent = true ∨ t.prio = 7 → s'.task id = { held with eprio := 7 }) ∧
        (t.urgent = false → t.prio ≠ 7 → tick = 0 → s'.task id = { held with eprio := t.prio }) ∧
        (t.urgent = false → t.prio ≠ 7 → tick ≠ 0 → s'.task id = { held with eprio := min 6 (t.prio + aged / tick) }))) ∧
  (∀ (s : State) (id : Fin 40960),
    let t := s.task id.val
    let bound := s.rf (aGrn 8) 0 20
    s.sleeping = false →
    (t.outside = true → t.urgent = false → bound ≠ 0 → bound ≤ s.waitOf t → exec (.taskUrgent id) s =
      .next ((s.setTask id.val { t with urgent := true, eprio := 7, urg := if t.paging then .idle else .due }).bump
        (aGrn (if t.prio = 7 then 0x54 else 0x20 + 4 * t.prio)) 1)) ∧
    (t.outside = false ∨ t.urgent = true ∨ bound = 0 ∨ s.waitOf t < bound → exec (.taskUrgent id) s = .next s) ∧
    (t.state = .ready → t.inSlot = true → t.ran = true → t.quantum + 1 ≤ (s.grnTime - t.runTime).toNat →
      exec (.quantumExpiry id) s = .next (s.setTask id.val { t with expired := true })) ∧
    (t.ran = false ∨ (s.grnTime - t.runTime).toNat < t.quantum + 1 → exec (.quantumExpiry id) s = .next s))

/-- A round boundary opens a round, and no thread changes but those of engines that are candidates for sparing (R204, R477). A
grant by route 1 gives the best eligible waiting task to an empty slot, which then awaits its page-in; with none, route 2
displaces a sleeper that can be saved; with none, in the cycle of a round start, route 3 a ready task (R202). Each takes a read
port of the context store for 8 cycles (R206) and moves the scheduler past its position, which it serves once a cycle in
ascending order (R204). A task is eligible for a slot if it is ready, in no slot and not on its way to one, and is pinned to that slot,
or has the Sheaf in its affinity while no task that could run is pinned there (R202); of two the urgent one is preferred, then the
higher EPRIO, then the longer wait, then the lower ID, but of two urgent ones the longer wait (R198). A route takes the first of its
slots, those of route 2 by the earliest last run, those of route 3 by the lowest EPRIO before, that has such a task, which at
route 3 must be due to displace the resident (R202); that route 1 takes its empty slots, and the others equal ones, in ascending
slot number is a reading (log entry 25). -/
def Obligations.RoundsAndGrants : Prop :=
  (∀ s : State, s.sleeping = false → s.culmStart ≠ none → s.stopped = false → Runs .roundBoundary s fun s' =>
    s'.roundStart = true ∧ s'.granted = s.granted ∧ s'.mem = s.mem ∧ s'.engs = s.engs ∧
    ∀ i, s.bit (aShf (engOf i / 9) 4) (16 + engOf i % 9) = false → s'.th i = s.th i) ∧
  (∀ (s : State) (sh : Fin 12) (p : Fin 8) (k : Nat),
    let e := 9 * sh.val + k
    let n := 8 * sh.val + p.val
    let ports := busyPorts s.eclk s.ctxReads
    s.sleeping = false → s.stopped = false → s.physOf sh.val p.val = some k → s.inBrace e = false → s.locked e = false →
    s.mapped e = true → s.bit (aShf sh.val 4) (16 + k) = false → s.schedAt ≤ n → ports.length < 2 →
    s.noneBefore s.schedAt n = true → s.Inv →
    (∀ i c, s.pick sh.val p.val 1 (s.routeSlots e 1) = some (i, c) → Runs (.grant sh p) s fun s' =>
      s'.th i = { s.th i with phase := .incoming c } ∧ (s'.task c).paging = true ∧ (s'.task c).sheaf = sh.val ∧
      (s'.task c).engine = p.val ∧ (s'.task c).slot = slotOf i ∧ s'.granted = s.granted ++ [c] ∧ s'.mem = s.mem ∧
      s'.ctxReads = ports ++ [s.eclk + 8] ∧ s'.schedAt = n + 1 ∧
      (∀ j, j ≠ i → s'.th j = s.th j) ∧ ∀ d, d ≠ c → s'.task d = s.task d) ∧
    (∀ i c, s.pick sh.val p.val 1 (s.routeSlots e 1) = none → s.pick sh.val p.val 2 (s.routeSlots e 2) = some (i, c) →
      Runs (.grant sh p) s fun s' =>
      s'.th i = { s.th i with phase := .quiesce (some c) } ∧ (s'.task c).paging = true ∧ s'.mem = s.mem ∧
      s'.ctxReads = ports ++ [s.eclk + 8] ∧ s'.schedAt = n + 1 ∧ (∀ j, j ≠ i → s'.th j = s.th j)) ∧
    (∀ i c, s.pick sh.val p.val 1 (s.routeSlots e 1) = none → s.pick sh.val p.val 2 (s.routeSlots e 2) = none →
      s.roundStart = true → s.pick sh.val p.val 3 (s.routeSlots e 3) = some (i, c) → Runs (.grant sh p) s fun s' =>
      s'.th i = { s.th i with phase := .quiesce (some c) } ∧ (s'.task c).paging = true ∧ s'.mem = s.mem ∧
      s'.ctxReads = ports ++ [s.eclk + 8] ∧ s'.schedAt = n + 1 ∧ (∀ j, j ≠ i → s'.th j = s.th j))) ∧
  (∀ (s : State) (sh : Fin 12) (p : Fin 8),
    8 * sh.val + p.val < s.schedAt ∨ 2 ≤ (busyPorts s.eclk s.ctxReads).length → exec (.grant sh p) s = .next s) ∧
  (∀ (s : State) (a b : Nat),
    let x := s.task a
    let y := s.task b
    let longer := s.waitOf y < s.waitOf x ∨ s.waitOf x = s.waitOf y ∧ a < b
    (x.urgent = true → y.urgent = false → s.prefers a b = true ∧ s.prefers b a = false) ∧
    (x.urgent = true → y.urgent = true → (s.prefers a b = true ↔ longer)) ∧
    (x.urgent = false → y.urgent = false → (s.prefers a b = true ↔ y.eprio < x.eprio ∨ x.eprio = y.eprio ∧ longer))) ∧
  (∀ (s : State) (sh p j : Nat),
    let here := fun t : TaskRec => t.pinned = true ∧ t.sheaf = sh ∧ t.engine = p ∧ t.slot = j
    let eligible := fun id : Nat => (s.task id).state = .ready ∧ (s.task id).inSlot = false ∧ (s.task id).paging = false ∧
      (here (s.task id) ∨ (s.task id).pinned = false ∧ (s.task id).affinity.getLsbD sh = true ∧
        ∀ q, here (s.task q) → (s.task q).state ≠ .ready ∧ (s.task q).state ≠ .asleep)
    s.Inv →
    (∀ c, s.bestFor sh p j = some c → eligible c ∧ ∀ d, eligible d → d ≠ c → s.prefers c d = true) ∧
    (s.bestFor sh p j = none → ∀ d, ¬eligible d)) ∧
  (∀ (s : State) (e i : Nat),
    let asleep := fun k : Nat => (s.task (s.th k).task).state = .asleep
    let ready := fun k : Nat => (s.task (s.th k).task).state = .ready
    let prio := fun k : Nat => (s.task (s.th k).task).eprio
    let run := fun k : Nat => (s.th k).lastRun
    (i ∈ s.routeSlots e 1 ↔ i ∈ slotsOf e ∧ (s.th i).phase = .empty) ∧
    (i ∈ s.routeSlots e 2 ↔ i ∈ slotsOf e ∧ (s.th i).phase = .run ∧ asleep i ∧ s.savable i = true) ∧
    (i ∈ s.routeSlots e 3 ↔ i ∈ slotsOf e ∧ (s.th i).phase = .run ∧ ready i ∧ s.savable i = true) ∧
    (s.routeSlots e 1).Pairwise (· < ·) ∧
    (s.routeSlots e 2).Pairwise (fun a b => run a < run b ∨ run a = run b ∧ a < b) ∧
    ((∀ k, run k < 2 ^ 64) → (s.routeSlots e 3).Pairwise (fun a b => prio a < prio b ∨ prio a = prio b ∧
      (run a < run b ∨ run a = run b ∧ a < b)))) ∧
  (∀ (s : State) (c i : Nat),
    let x := s.task c
    let y := s.task (s.th i).task
    s.displaces c i = true ↔ y.eprio < x.eprio ∨
      (x.eprio = y.eprio ∧ y.expired = true ∧ s.rf (aGrn 0x10) 0 16 ≤ s.eclk - (s.th i).pageInAt) ∨
      (x.urgent = true ∧ y.eprio < 7)) ∧
  (∀ (s : State) (sh p r : Nat) (l : List Nat),
    let takes := fun i c : Nat => s.bestFor sh p (slotOf i) = some c ∧ (r = 3 → s.displaces c i = true)
    (∀ (pre post : List Nat) (i c : Nat), l = pre ++ i :: post → (∀ k ∈ pre, ∀ d, ¬takes k d) → takes i c →
      s.pick sh p r l = some (i, c)) ∧
    ((∀ k ∈ l, ∀ d, ¬takes k d) → s.pick sh p r l = none))

/-- A quiesced slot whose task can be saved sends its context to the store, keeps its EVT for the next page-in and passes to its
candidate (R56, R109, R203, R208); the context then stands in the Granary's store, every other byte as before, and the task counts
as paged out, and no word of it is poisoned any more (R344); page-outs are served in the order in which their quiesces ended, through two write ports (R206, R208). A page-in of
the right context puts the task in the slot with that EVT, and of another marks the task LOST (R207, R209); none lands while the
brace handler runs (R146). The slot of an ended task empties once nothing of it is under way (R210). -/
def Obligations.Paging : Prop :=
  (∀ (s : State) (t : Th) (c : Option Nat),
    let i := thIx t
    let th := s.th i
    let r := s.task th.task
    s.sleeping = false → th.phase = .quiesce c → r.state ≠ .ended → s.inBrace (engOf i) = false →
    s.locked (engOf i) = false → s.savable i = true → th.drained = true → s.Inv →
    Runs (.quiesceComplete t) s fun s' =>
      s'.pageOuts = s.pageOuts ++
        [⟨i, s.eclk, (s.posOf (engOf i / 9) (engOf i % 9)).getD 8, th.task, ctxWords th⟩] ∧
      (s'.task th.task).paging = true ∧ (s'.task th.task).evt = th.evt ∧
      (s'.task th.task).eprio = r.prio ∧ (s'.task th.task).urgent = false ∧ (s'.task th.task).state = r.state ∧
      s'.th i = { Thread.init with phase := match c with
        | some c => .incoming c
        | none => .empty } ∧ s'.mem = s.mem ∧ s'.regs = s.regs ∧ ∀ j, j ≠ i → s'.th j = s.th j) ∧
  (∀ (s : State) (t : Th) (p : PageOut) (l : List PageOut),
    let r := s.task p.task
    let ports := busyPorts s.eclk s.ctxWrites
    s.sleeping = false → takePageOut (thIx t) s.pageOuts = some (p, l) →
    ((∀ x ∈ l, x.before p = false) → ports.length < 2 → p.ctx.length = 64 → r.state = .ready → s.Inv →
      Runs (.pageOutComplete t) s fun s' =>
      s'.words (ctxKey p.task) 64 = p.ctx ∧ s'.pageOuts = l ∧ s'.ctxWrites = ports ++ [s.eclk + 8] ∧
      (∀ a, a < ctxKey p.task ∨ ctxKey p.task + 512 ≤ a → s'.byte a = s.byte a) ∧
      s'.task p.task = { r with inSlot := false, paging := false, stamp := s.grnTime } ∧
      s'.rd (aGrn 0x44) = s.rd (aGrn 0x44) + 1 ∧ s'.ths = s.ths ∧
      ∀ k, k < 64 → s'.wordPois (ctxWord0 + 64 * p.task + k) = false) ∧
    ((∃ x ∈ l, x.before p = true) ∨ 2 ≤ ports.length → exec (.pageOutComplete t) s = .next s)) ∧
  (∀ a b : PageOut, a.q < b.q → a.before b = true ∧ b.before a = false) ∧
  (∀ (s : State) (t : Th) (c : Nat),
    let i := thIx t
    let w := s.words (ctxKey c) 64
    s.sleeping = false → (s.th i).phase = .incoming c → s.Inv →
    (s.inBrace (engOf i) = true → exec (.pageInComplete t) s = .next s) ∧
    (s.inBrace (engOf i) = false → ctxTask w = c → Runs (.pageInComplete t) s fun s' =>
      s'.th i = { threadOfCtx c (s.task c).evt s.eclk w with stores := (s.th i).stores } ∧ (s'.task c).inSlot = true ∧
      (s'.task c).paging = false ∧ (s'.task c).evt = 0 ∧
      (s'.task c).state = (s.task c).state ∧ s'.rd (aGrn 0x40) = s.rd (aGrn 0x40) + 1 ∧ s'.mem = s.mem ∧
      ∀ j, j ≠ i → s'.th j = s.th j) ∧
    (s.inBrace (engOf i) = false → ctxTask w ≠ c → Runs (.pageInComplete t) s fun s' =>
      s'.th i = { Thread.init with stores := (s.th i).stores } ∧ (s'.task c).state = .lost ∧ s'.bit (aGrn 0x18) 2 = true ∧
      s'.mem = s.mem)) ∧
  (∀ (s : State) (t : Th),
    let i := thIx t
    let th := s.th i
    let s1 := s.setTask th.task { s.task th.task with inSlot := false }
    s.sleeping = false → (s.task th.task).state = .ended → th.quiet = true → th.sel ≠ .brace →
    (th.phase = .run ∨ th.phase = .quiesce none → exec (.slotEmpties t) s = .next (s1.setTh i Thread.init)) ∧
    (∀ c, th.phase = .quiesce (some c) →
      exec (.slotEmpties t) s = .next (s1.setTh i { Thread.init with phase := .incoming c })))

/-- The operation at the head of the task operation queue is performed in an ECLK cycle in which none has been (R212; log entry 140):
KILL ends a ready or sleeping task (R210), RAISE posts its
class for the task (R187), SET_PRIO and SET_AFFINITY change those fields, READ copies the 24 bytes of the record to QUERY (R212, R213).
One that R212 refuses changes nothing but LAST_REFUSED, which every other operation clears, and a RAISE of class 31 sets SIGNAL_31 (R187). Host commands that waited for the
operation go on (`poll`, R421). -/
def Obligations.TaskOperations : Prop :=
  (∀ (s : State) (o : TaskOp) (l : List TaskOp),
    let r := s.task o.task
    s.sleeping = false → s.opFree ≤ s.eclk → s.taskOps = o :: l → s.opRefused o = false →
    (o.op = 1 → r.state = .ready ∨ r.state = .asleep →
      exec .kill s = .next ((s.setTask o.task { r with state := .ended }).opDone false).poll) ∧
    (o.op = 1 → r.state = .ended ∨ r.state = .lost → exec .kill s = .next (s.opDone false).poll) ∧
    (o.op = 2 → exec .raise s = .next ((s.post rkRaise (some o.task) (field o.arg 0 5) 0).opDone false).poll) ∧
    (o.op = 3 → exec .setPrio s = .next ((s.setTask o.task { r with
      prio := field o.arg 0 3
      eprio := if r.urgent = true ∨ r.inSlot = true then r.eprio else field o.arg 0 3 }).opDone false).poll) ∧
    (o.op = 4 → exec .setAffinity s = .next ((s.setTask o.task { r with
      affinity := BitVec.ofNat 12 o.arg.toNat }).opDone false).poll) ∧
    (o.op = 5 → exec .read s =
      .next (((s.wrWords (aGrn 0x70) (recWords r)).setB (aGrn 0x68) 9).opDone false).poll)) ∧
  (∀ (s : State) (o : TaskOp) (l : List TaskOp),
    s.sleeping = false → s.opFree ≤ s.eclk → s.taskOps = o :: l → s.opRefused o = true →
    (o.op ≠ 2 ∨ field o.arg 0 5 ≠ 31 → exec .refusedOperation s = .next (s.opDone true).poll) ∧
    (o.op = 2 → field o.arg 0 5 = 31 → exec .refusedOperation s = .next ((s.setB (aGrn 0x18) 1).opDone true).poll)) ∧
  (∀ s : State, s.sleeping = false → s.eclk < s.opFree ∨ s.taskOps = [] → ∀ c ∈ [Instr.kill, .raise, .setPrio, .setAffinity, .read, .refusedOperation],
    exec c s = .next s.poll) ∧
  (∀ (s : State) (refused : Bool), s.Inv → (s.opDone refused).bit (aGrn 0x68) 8 = refused ∧
    (s.opDone refused).taskOps = s.taskOps.drop 1 ∧ (s.opDone refused).tasks = s.tasks ∧ (s.opDone refused).opFree = s.eclk + 1 ∧
    ∀ a, a ≠ aGrn 0x68 → (s.opDone refused).rd a = s.rd a) ∧
  (∀ s : State, s.sleeping = false → s.Inv → Runs .grnCntClear s fun s' =>
    s' = { s with regs := s'.regs, bus := s'.bus } ∧ (∀ k : Fin 12, s'.rd (aGrn (0x20 + 4 * k.val)) = 0) ∧ s'.rd (aGrn 0x54) = 0 ∧
    ∀ a, ¬(aGrn 0x20 ≤ a ∧ a ≤ aGrn 0x4C) → a ≠ aGrn 0x54 → s'.rd a = s.rd a)
/- Pattern expanders ---------------------------------------------------------------------------------- -/

/-- An entry that has crossed enters the queue's end, if its clock runs and the queue has room, and waits there while the clock
stands; in fetch mode it moves FETCH_PUT (R228, R230, R231). Between bursts a
good OPERAND at the head is taken and applied, an entry that is neither it nor a BURST is taken and sets BAD_ENTRY, and a BURST
stays (R236). In fetch mode an entry read from the ring joins the queue and FETCH_GET advances; a read that fails stops the fetch
(R229). FLUSH empties the queue of an idle expander only; STOP disarms, empties the queue and ends an armed state at once; of a burst
it first lets the frame of the last edge be delivered (the model's reading, log entry 150), and then ends it with cause 7, or the lower
cause 6 where the burst beside it turns VOID with it and both are linked (R255, R256), unless its next frame is VOID already (R237, R254).
QUEUE_LOW is raised at an edge that has taken QCOUNT from LOWWATER or more to below it (R231, R232). -/
def Obligations.ExpanderQueues : Prop :=
  ∀ (s : State) (n : Fin 16),
    let p := s.pxs n.val
    let run := (s.pgs (n.val / 2)).run
    (∀ (e : W128) (rest : List W128), p.cross = e :: rest → run = true →
      (s.bit (aPx n.val 8) 0 = false → p.queue.length < 512 → s.pxState n.val ≠ 4 → s.Inv →
        exec (.queueEntry n) s = .next (s.setPx n.val { p with cross := rest, queue := p.queue ++ [e] })) ∧
      (s.bit (aPx n.val 8) 0 = false → 512 ≤ p.queue.length → exec (.queueEntry n) s = .next s) ∧
      (s.bit (aPx n.val 8) 0 = true →
        exec (.queueEntry n) s = .next ((s.setPx n.val { p with cross := rest }).fetchPush n.val (fld e 0 20)).clearWaits)) ∧
    (run = false → exec (.queueEntry n) s = .next (s.setPx n.val { p with here := min (p.here + 1) p.cross.length })) ∧
    (∀ (e : W128) (q : List W128), p.queue = e :: q → p.burst = none → s.pxState n.val ≠ 4 → run = true →
      (burstOk e = true → exec (.idleEntry n) s = .next s) ∧
      (operandOk e = true → exec (.idleEntry n) s =
        .next (((s.setQueue n.val q).applyOperand n.val e).queueLow n.val)) ∧
      (burstOk e = false → operandOk e = false →
        exec (.idleEntry n) s = .next (((s.setQueue n.val q).setB (aPx n.val 0x28) 3).queueLow n.val))) ∧
    (∀ x : Xfer, s.sleeping = false → s.xferOf (.fetch n.val) = some x →
      let get := s.rf (aPx n.val 0x20) 0 20 % s.ringSize n.val
      let t := s.dropXfer (.fetch n.val)
      ((x.over && run) = false → exec (.fetchReturn n ()) s = .next s) ∧
      (x.over = true → run = true → x.err = none → s.pxState n.val ≠ 4 → exec (.fetchReturn n ()) s =
        .next ((t.wr (aPx n.val 0x20) (BitVec.ofNat 32 ((get + 1) % s.ringSize n.val))).setPx n.val
          { p with queue := p.queue ++ [BitVec.ofNat 128 (leNat x.got)] })) ∧
      (x.over = true → run = true → x.err ≠ none → exec (.fetchReturn n ()) s =
        .next ((t.setPx n.val { p with fetchErr := true }).setB (aPx n.val 0x28) 2))) ∧
    (s.sleeping = false → s.pxState n.val = 0 → exec (.flush n) s =
      .next (((s.mgmtIn (aPx n.val 0) true).setQueue n.val []).fetchReset n.val)) ∧
    (s.sleeping = false → s.pxState n.val ≠ 0 → exec (.flush n) s = .next (s.mgmtIn (aPx n.val 0) true)) ∧
    (s.sleeping = false → s.pxState n.val ≤ 2 → p.burst = none → s.Inv → Runs (.stop n) s fun s' =>
      s'.pxState n.val = 0 ∧ s'.isArmed n.val = false ∧ (s'.pxs n.val).queue = [] ∧ s'.mem = s.mem ∧ s'.tasks = s.tasks) ∧
    (s.sleeping = false → p.lastEdge ≠ (s.pgs (n.val / 2)).started →
      exec (.stop n) s = .next (((s.mgmtIn (aPx n.val 0) true).frame n.val).stopNow n.val)) ∧
    (∀ (b : Burst) (c : Nat), s.sleeping = false → p.lastEdge = (s.pgs (n.val / 2)).started → s.pxState n.val = 3 →
      p.burst = some b → b.next = .void c → s.Inv → Runs (.stop n) s fun s' =>
      (s'.pxs n.val).burst = some b ∧ (s'.pxs n.val).queue = [] ∧ (s'.pxs n.val).ends = p.ends ∧ s'.isArmed n.val = false ∧
      s'.mem = s.mem) ∧
    (let m := min 512 (s.rf (aPx n.val 8) 16 10)
     let t := s.setPx n.val { p with low := p.queue.length }
     (m ≠ 0 → m ≤ p.low → p.queue.length < m →
       s.queueLow n.val = t.post (rkPx n.val) (some (s.rf (aPx n.val 0xC) 0 16)) 2 n.val) ∧
     (m = 0 ∨ p.low < m ∨ m ≤ p.queue.length → s.queueLow n.val = t)) ∧
    (∀ b : Burst, s.sleeping = false → p.lastEdge = (s.pgs (n.val / 2)).started → s.pxState n.val = 3 → p.burst = some b →
      (∀ c, b.next ≠ .void c) → s.Inv →
      let o := s.pxs (otherPx n.val)
      let both := b.link = true ∧ o.lastEdge = (s.pgs (n.val / 2)).started ∧ ∃ d, o.burst = some d ∧
        (d.link = true ∨ ∃ c, d.next = .void c)
      let ended := fun c : Nat => p.ends ++ [Ending.mk b.task b.fetched b.link c (s.pgs (n.val / 2)).started
        ((s.pgs (n.val / 2)).started + 1 + (31 + s.rf (aPg (n.val / 2) 8) 0 16) / 32)]
      Runs (.stop n) s fun s' =>
      (s'.pxs n.val).burst = none ∧ (s'.pxs n.val).queue = [] ∧ s'.isArmed n.val = false ∧ s'.mem = s.mem ∧
      (¬both → (s'.pxs n.val).ends = ended 7 ∧ s'.pxState n.val = 3) ∧
      (both → (s'.pxs n.val).ends = ended 6 ∧ s'.pxState n.val = 4))

/-- A qualified start request releases the start, or on a joined module pulls in the others by PENDING; the release sets every
armed site running and lets the armed expanders begin (R17, R234, R289). A BURST entry that may start begins its burst: state
BURST, its mode, link and task, the program counter of the entry (R233, R235); a vector stream of no frame ends it at once with cause 0
(R250, R253). On a lane in training it is stopped before its first frame (R276). -/
def Obligations.StartsOfBursts : Prop :=
  (∀ s : State,
    (s.startQualified = false → exec .startRelease s = .next s.poll) ∧
    (s.startQualified = true → s.joined = true → exec .startRelease s = .next (s.setB (aSyn 0x108) 17).poll) ∧
    (s.startQualified = true → s.joined = false → exec .startRelease s =
      .next (s.releaseStart.completeAll (fun c => c.wait == .release) 0 1).poll)) ∧
  (∀ s : State, s.Inv → s.releaseStart.startReq = false ∧
    (∀ i : Fin 256, s.siteState i.val = 1 → s.releaseStart.siteState i.val = 2) ∧
    (∀ i : Fin 256, s.siteState i.val ≠ 1 → s.releaseStart.rd (aSite i.val 0x14) = s.rd (aSite i.val 0x14)) ∧
    (∀ n : Fin 16, s.isArmed n.val = true → (s.releaseStart.pxs n.val).take = true)) ∧
  (∀ (s : State) (n : Fin 16) (e : W128) (q : List W128),
    (s.pxs n.val).queue = e :: q →
    (s.mayStart n.val = false → exec (.burstStart n) s = .next s) ∧
    (s.mayStart n.val = true → s.trainsOn n.val = true → s.Inv → ∃ t : State,
      exec (.burstStart n) s = .next (t.stopNow n.val) ∧ t.pxState n.val = 3 ∧ t.mem = s.mem) ∧
    (s.mayStart n.val = true → s.trainsOn n.val = false → s.Inv → Runs (.burstStart n) s fun s' =>
      ((∃ b, (s'.pxs n.val).burst = some b ∧ b.mode = fld e 12 2 ∧ b.link = e.getLsbD 14 ∧ b.task = fld e 96 16) ∨
       (fld e 12 2 ≠ 0 ∧ (s'.pxs n.val).burst = none ∧ ∃ x, (s'.pxs n.val).ends = (s.pxs n.val).ends ++ [x] ∧
         x.cause = 0 ∧ x.task = fld e 96 16)) ∧ s'.rf (aPx n.val 4) 4 2 = fld e 12 2 ∧
      s'.pxState n.val = 3 ∧ s'.rd (aPx n.val 0x50) = BitVec.ofNat 32 (fld e 0 12) ∧ (s'.pxs n.val).take = false ∧
      s'.mem = s.mem))

/-- A frame of a burst is delivered at the edge of its pin group, which counts it once for both expanders (R215, R259). A burst
that is VOID at the frame ends with its cause, 1 to 6, and the expander discards up to its next BURST (R254, R256); UNDERRUN is set for
causes 1 and 2 alike (the model's reading, log entry 44). The LINK = 1 burst beside it turns VOID at the same frame, with cause 6 or a
lower one, also where a STOP has just ended it there (R255, R256). BURST_END is raised
for the burst's task when its frames have been judged; BURST_STATUS tells how it ended and counts it (R235). -/
def Obligations.FramesAndBurstEnd : Prop :=
  (∀ (s : State) (n : Fin 16) (b : Burst),
    let g := n.val / 2
    let k := (s.pgs g).started + (if (s.pxs n.val).lastEdge = (s.pgs g).started then 1 else 0)
    (s.pxs n.val).burst = some b → s.mayFrame n.val = true → 0 < k → s.Inv →
    (Runs (.frame n) s fun s' => (s'.pgs g).started = k ∧ (s'.pxs n.val).lastEdge = k ∧ s'.mem = s.mem ∧
      s'.tasks = s.tasks) ∧
    (∀ c, b.next = .void c → 1 ≤ c → c ≤ 6 → Runs (.frame n) s fun s' =>
      (s'.pxs n.val).burst = none ∧ s'.pxState n.val = 4 ∧ (s'.pxs n.val).ends = (s.pxs n.val).ends ++
        [Ending.mk b.task b.fetched b.link c (k - 1) (k + (31 + s.rf (aPg g 8) 0 16) / 32)] ∧
      (c ≤ 2 → s'.bit (aPx n.val 0x28) 0 = true))) ∧
  (∀ (s : State) (n : Fin 16), s.mayFrame n.val = false → exec (.frame n) s = .next s) ∧
  (∀ (s : State) (n : Fin 16),
    let m := otherPx n.val
    let q := s.pxs m
    let k := (s.pgs (m / 2)).started
    (∀ b : Burst, q.burst = some b → b.link = false → s.linkVoid n.val = s) ∧
    (∀ b : Burst, q.burst = some b → b.link = true → q.lastEdge = k →
      ((∀ c, b.next ≠ .void c) → s.linkVoid n.val = s.setPx m { q with burst := some { b with next := .void 6 } }) ∧
      (∀ c, b.next = .void c → s.linkVoid n.val = s.setPx m { q with burst := some { b with next := .void (min c 6) } })) ∧
    (∀ b : Burst, q.burst = some b → b.link = true → q.lastEdge ≠ k →
      s.linkVoid n.val = s.setPx m { q with burst := some { b with linkDue := true } }) ∧
    (∀ (l : List Ending) (e : Ending), q.burst = none → q.ends = l ++ [e] → s.Inv →
      (e.link = true → e.cause = 7 → e.first = k → ((s.linkVoid n.val).pxs m).ends = l ++ [{ e with cause := 6 }] ∧
        (s.linkVoid n.val).pxState m = 4) ∧
      (e.link = false ∨ e.cause ≠ 7 ∨ e.first ≠ k → s.linkVoid n.val = s))) ∧
  (∀ (s : State) (n : Fin 16) (e : Ending) (rest : List Ending),
    let task := if e.fetched then s.rf (aPx n.val 0xC) 0 16 else e.task
    (s.pxs n.val).ends = e :: rest → e.due ≤ (s.pgs (n.val / 2)).started → s.pxState n.val ≠ 4 → s.Inv →
    Runs (.burstEnd n) s fun s' =>
      (s'.pxs n.val).ends = rest ∧ s'.evq = s.evq ++ [EvReq.mk (rkPx n.val) (some task) 3 (BitVec.ofNat 32 n.val)] ∧
      s'.rd (aPx n.val 0x24) = BitVec.ofNat 32 ((if e.cause = 0 then 1 else 2) + e.cause * 16 +
        (s.rf (aPx n.val 0x24) 16 16 + 1) % 65536 * 65536) ∧
      (e.cause ≠ 0 → s'.bit (aPx n.val 0x28) 1 = true) ∧ s'.mem = s.mem ∧ s'.ths = s.ths) ∧
  (∀ (s : State) (n : Fin 16) (e : Ending) (rest : List Ending), (s.pxs n.val).ends = e :: rest →
    (s.pgs (n.val / 2)).started < e.due → exec (.burstEnd n) s = .next s)
/- Compare, fail records and the Threshers -------------------------------------------------------------- -/

/-- The next expected frame that is due is judged: without a failing UI it leaves the line and nothing else changes; with one a
record is formed with its frame, pin group, P, tag and fail mask (R296, R297). An NRZ lane decides 1 at a level that reaches its
threshold and 0 below; a UI in EDGE mode fails exactly if its sample decides another symbol than expected (R292, R293; that a level
at a threshold reaches it is a reading, log entry 129; levels are counted in thirds of a millivolt). With a peaking of 0 dB the level
at a sample position is the wave's, less what the DFE takes: 4 mV for each unit of a tap and each of -1, -1/3, 1/3 and 1 that the
symbol before weighs (R269; readings of the model, log entry 151). A record enters the intake queue if it has a place
and no episode is open, and is otherwise diverted: it is counted, the episode grows and OVERFLOW is set (R300, R301); both count
in REC_CNT (R299). The summary of an episode ends it and stands in the queue ahead of close marks (R302, R309). CNT_CLEAR clears
the counters (R6); a read of FRAME_LO holds FRAME_HI (R259). -/
def Obligations.FailRecords : Prop :=
  (∀ (s : State) (g : Fin 8) (rx : List LaneSamples) (e : ExpFrame) (rest : List ExpFrame),
    let p := s.pgs g.val
    let s1 := s.setPg g.val { p with line := rest }
    let m := s1.failMask g.val e rx
    p.line.dropWhile ExpFrame.quiet = e :: rest →
    (p.started < e.due ∨ s.covered g.val e rx = false → exec (.failRecord g rx) s = .next s) ∧
    (e.due ≤ p.started → s.covered g.val e rx = true → m = [] → exec (.failRecord g rx) s = .next s1) ∧
    (e.due ≤ p.started → s.covered g.val e rx = true → m ≠ [] → exec (.failRecord g rx) s =
      .next (s1.record g.val ⟨e.idx % 2 ^ 48, g.val, e.p, e.tagv, e.tag, m⟩))) ∧
  (∀ (s : State) (g l : Fin 8) (f : Nat) (v : Int) (exp : BitVec 2), s.pam4 g.val l.val = false →
    let th := s.threshold (8 * g.val + l.val) 0 f
    s.decideSym g.val l.val f v = (if 3 * th ≤ v then 1 else 0) ∧
    (s.rf (aPg g.val (0x40 + 4 * l.val)) 0 2 = 0 →
      (s.uiFails g.val l.val f exp [v] = true ↔ exp ≠ (if 3 * th ≤ v then 1 else 0)))) ∧
  (∀ (s : State) (g l : Fin 8) (f k b : Nat) (wave : List (Int × Int)) (hist : List (BitVec 2)),
    let a := s.rxAt g.val l.val f b
    let tap := fun i => (BitVec.ofNat 5 (field a.2 (5 * i) 5)).toInt * (if hist.getD i 0 = 0 then -3 else 3)
    field a.1 0 5 = 0 → s.pam4 g.val l.val = false →
    let at_ := (s.positions g.val l.val f k b).filterMap fun p => levelAt (s.facing (8 * g.val + l.val) wave) p
    (a.1.getLsbD 8 = false → s.beatLevels g.val l.val f k b wave hist = at_.map fun v => 3 * v) ∧
    (a.1.getLsbD 8 = true → s.beatLevels g.val l.val f k b wave hist = at_.map fun v =>
      3 * v - 4 * (tap 0 + tap 1 + tap 2 + tap 3 + tap 4 + tap 5))) ∧
  (∀ (s : State) (g : Fin 8) (r : FailRec), s.Inv → (∀ x ∈ r.mask, x.1 < 8) →
    let t := s.record g.val r
    t.rd (aPg g.val 0x80) = s.rd (aPg g.val 0x80) + 1 ∧ t.mem = s.mem ∧ t.ths = s.ths ∧
    ((s.pgs g.val).ep = none → s.hasPlace g.val = true → t.intakeOf g.val = s.intakeOf g.val ++ [.fail r] ∧
      t.rd (aPg g.val 0x84) = s.rd (aPg g.val 0x84) ∧ t.pg = s.pg) ∧
    ((s.pgs g.val).ep ≠ none ∨ s.hasPlace g.val = false → t.intakeOf g.val = s.intakeOf g.val ∧
      t.rd (aPg g.val 0x84) = s.rd (aPg g.val 0x84) + 1 ∧ t.bit (aPg g.val 0x88) 0 = true ∧
      ∃ e, (t.pgs g.val).ep = some e ∧
        e.records = min 0xFFFFFFFF ((((s.pgs g.val).ep.map (·.records)).getD 0) + 1))) ∧
  (∀ (s : State) (g : Fin 8) (e : Episode), (s.pgs g.val).ep = some e → s.hasPlace g.val = true →
    exec (.overflowSummary g) s = .next ((s.setPg g.val { s.pgs g.val with ep := none }).enqueue g.val (.summary g.val e))) ∧
  (∀ (s : State) (g : Fin 8) (i : Nat) (rest : List Nat), (s.pgs g.val).marks = i :: rest → s.hasPlace g.val = true →
    ((s.pgs g.val).ep = none → exec (.closeMark g) s =
      .next ((s.setPg g.val { s.pgs g.val with marks := rest }).enqueue g.val (.mark g.val i))) ∧
    ((s.pgs g.val).ep ≠ none → exec (.closeMark g) s = .next s)) ∧
  (∀ (s : State) (g : Fin 8), s.sleeping = false → s.Inv →
    (Runs (.pgCntClear g) s fun s' => OnlyRegs (s.mgmtIn (aPg g.val 0x8C) true) s' (([0x60, 0x64, 0x68, 0x6C, 0x70, 0x74, 0x78, 0x7C, 0x80, 0x84]).map
      (aPg g.val)) ∧ ∀ o ∈ [0x60, 0x64, 0x68, 0x6C, 0x70, 0x74, 0x78, 0x7C, 0x80, 0x84], s'.rd (aPg g.val o) = 0) ∧
    (Runs (.pgFrameLo g) s fun s' => s'.busOut = BitVec.ofNat 32 ((s.pgs g.val).started - 1) ∧
      s'.rd (aPg g.val 0x14) = BitVec.ofNat 32 (((s.pgs g.val).started - 1) / 2 ^ 32 % 2 ^ 16) ∧
      s' = { s.mgmtIn (aPg g.val 0x10) false with regs := s'.regs, busOut := s'.busOut }))

/-- A Thresher takes the items of its two intake queues in turn (R300), but not while an assist operation writes memory or has its
turn, 64 intake times after the last (R314), and not while it releases pages (the model's choice, log entry 125). An untagged record counts as UNTAGGED; a tagged one counts its unmapped UIs, and its
distinct cells apply in order of region, row and column, 64 of them in each intake time (R300, R305, R306). A summary counts its
records and UIs, sets the OVERFLOW bit, and every region in its ranges that is not IDLE becomes INCOMPLETE and BITMAP_INCOMPLETE
(R303, R317). A close mark waits for those of the other pin groups that queued one for the site (R309). CNT_CLEAR clears the
counters (R6). -/
def Obligations.ThresherIntake : Prop :=
  (∀ (s : State) (n : Fin 4) (q : Bool) (r : FailRec),
    let t := s.thrs n.val
    let c := if r.tagv then s.recordCells n.val r else ([], 0)
    let s1 := (s.setThr n.val (t.taken q (max 1 ((c.1.length + 63) / 64)))).bump (aThr n.val 0x10) 1
    s.sleeping = false → s.xferOf (.assist n.val) = none → t.job = none → t.assist = [] ∨ 64 ≤ t.out.length ∨ t.times < 64 →
    t.nextItem = some (q, .fail r) →
    (r.tagv = false → exec (.recordIntake n) s = .next (s1.bump (aThr n.val 0x24) 1)) ∧
    (r.tagv = true → c.2 = 0 → exec (.recordIntake n) s = .next (c.1.foldl State.applyCell s1)) ∧
    (r.tagv = true → 0 < c.2 → exec (.recordIntake n) s =
      .next (c.1.foldl State.applyCell ((s1.bump (aThr n.val 0x20) c.2).setB (aThr n.val 4) 3)))) ∧
  (∀ (s : State) (n : Fin 4) (q : Bool) (g : Nat) (e : Episode),
    let t := s.thrs n.val
    s.sleeping = false → s.xferOf (.assist n.val) = none → t.job = none → t.assist = [] ∨ 64 ≤ t.out.length ∨ t.times < 64 →
    t.nextItem = some (q, .summary g e) → s.Inv → Runs (.summaryIntake n) s fun s' =>
      s'.rd (aThr n.val 0x18) = s.rd (aThr n.val 0x18) + BitVec.ofNat 32 e.records ∧
      s'.rd (aThr n.val 0x1C) = s.rd (aThr n.val 0x1C) + BitVec.ofNat 32 e.ui ∧ s'.bit (aThr n.val 4) 0 = true ∧
      s'.thrs n.val = t.taken q 1 ∧ s'.mem = s.mem ∧
      (∀ (lane lo hi k : Nat), (lane, lo, hi) ∈ e.ranges → lo ≤ k → k ≤ hi →
        (s.region (4096 * n.val + k)).st ≠ .idle →
        (s'.region (4096 * n.val + k)).inc = true ∧ (s'.region (4096 * n.val + k)).binc = true) ∧
      ∀ k, (s.region k).st = .idle → s'.region k = s.region k) ∧
  (∀ (s : State) (n : Fin 4) (q : Bool) (g i : Nat),
    let t := s.thrs n.val
    let t1 := t.taken q 1
    let marks := (g, i) :: t1.marks
    let need := [2 * n.val, 2 * n.val + 1].filter fun g => (s.site i).groups.contains g
    s.sleeping = false → s.xferOf (.assist n.val) = none → t.job = none → t.assist = [] ∨ 64 ≤ t.out.length ∨ t.times < 64 →
    t.nextItem = some (q, .mark g i) →
    ((need.all fun g => marks.contains (g, i)) = false → exec (.closeMarkIntake n) s =
      .next (s.setThr n.val { t1 with marks := marks }).poll) ∧
    ((need.all fun g => marks.contains (g, i)) = true → exec (.closeMarkIntake n) s =
      .next ((s.setThr n.val { t1 with marks := marks.filter fun m => m.2 != i }).thrCloses n.val i).poll)) ∧
  (∀ (s : State) (n : Fin 4),
    let t := s.thrs n.val
    s.xferOf (.assist n.val) ≠ none ∨ t.job ≠ none ∨ (t.assist ≠ [] ∧ t.out.length < 64 ∧ 64 ≤ t.times) →
    exec (.recordIntake n) s = .next s ∧ exec (.summaryIntake n) s = .next s) ∧
  (∀ (s : State) (n : Fin 4), s.sleeping = false → s.Inv → Runs (.thrCntClear n) s fun s' =>
    OnlyRegs (s.mgmtIn (aThr n.val 0x2C) true) s' ([0x10, 0x14, 0x18, 0x1C, 0x20, 0x24, 0x28].map (aThr n.val)) ∧
    ∀ o ∈ [0x10, 0x14, 0x18, 0x1C, 0x20, 0x24, 0x28], s'.rd (aThr n.val o) = 0)

/-- A cell of an open region counts as an update; a new uncovered one is entered once, and the analysis spends spares and never
gains any; a cell for a closed region makes it LATE and INCOMPLETE and enters nothing (R304, R310, R311). A bitmap write reads the
directory entry of its cell and writes the byte with the cell's bit in the page it names; for a directory or a page that is missing it
reads a page number at FL_GET, fills that page with zeros and links it; when neither page nor free page exists, or an access fails,
the bitmap is incomplete (R315 to R317). A waiting region reset
leaves the region open, empty and with its spares, once the pages of its bitmap, read from its directory page, are on the free list
(R308, R316). A page pushed to the free list is written at FL_PUT and counted when the write is answered (R316, R317). The order of the
accesses, and what an unreadable entry names, are the model's choices (log entry 125). -/
def Obligations.RegionsAndBitmaps : Prop :=
  (∀ (s : State) (g x y : Nat), s.Inv →
    let r := s.region g
    let r' := (s.openCell g x y).region g
    (r.unrep = true ∨ covers r.lines (x, y) = true ∨ (x, y) ∈ r.cells →
      s.openCell g x y = s.bump (aThr (thrOf g) 0x14) 1) ∧
    (r.unrep = false → covers r.lines (x, y) = false → (x, y) ∉ r.cells → s.tableUse (thrOf g) + 2 ≤ 65536 →
      s.sparseUse (thrOf g) < 131072 → r'.entered = r.entered + 1 ∧ r'.rows ≤ r.rows ∧ r'.cols ≤ r.cols ∧
      r'.rows + r'.cols + r'.lines.length = r.rows + r.cols + r.lines.length ∧ r'.st = r.st) ∧
    (s.lateCell g).region g = { r with late := true, inc := true, notice :=
      if r.inc then r.notice else r.notice ||| 4 } ∧
    (s.lateCell g).bit (aThr (thrOf g) 4) 4 = true) ∧
  (∀ (s : State) (n : Fin 4) (g x y : Nat) (rest : List (Nat × Nat × Nat)),
    let t := s.thrs n.val
    let done := { t with bmq := rest, walk := none }
    let count := s.rf (aThr n.val 0x114) 0 19
    s.sleeping = false → t.bmq = (g, x, y) :: rest → thrOf g = n.val →
    (t.walk = none →
      ((s.region g).dir ≠ none → exec (.bitmapWrite n ()) s = .next (s.walkTo n.val g x y .entry)) ∧
      ((s.region g).dir = none → count = 0 → exec (.bitmapWrite n ()) s =
        .next (((s.setThr n.val done).setRegion g { s.region g with binc := true }).setB (aThr n.val 4) 5)) ∧
      ((s.region g).dir = none → count ≠ 0 → exec (.bitmapWrite n ()) s = .next (s.walkTo n.val g x y (.take true)))) ∧
    (∀ (w : Walk) (q : Xfer), t.walk = some w → s.xferOf (.bitmap n.val) = some q →
      let s1 := s.dropXfer (.bitmap n.val)
      (q.over = false → exec (.bitmapWrite n ()) s = .next s) ∧
      (q.over = true → q.err ≠ none → exec (.bitmapWrite n ()) s =
        .next (((s1.setThr n.val done).setRegion g { s.region g with binc := true }).setB (aThr n.val 4) 7)) ∧
      (q.over = true → q.err = none →
        (w = .entry → leNat q.got ≠ 0 → exec (.bitmapWrite n ()) s = .next (s1.walkTo n.val g x y (.cell (leNat q.got - 1)))) ∧
        (w = .entry → leNat q.got = 0 → count ≠ 0 → exec (.bitmapWrite n ()) s = .next (s1.walkTo n.val g x y (.take false))) ∧
        (w = .entry → leNat q.got = 0 → count = 0 → exec (.bitmapWrite n ()) s =
          .next (((s1.setThr n.val done).setRegion g { s.region g with binc := true }).setB (aThr n.val 4) 5)) ∧
        (∀ k, w = .zero true k → exec (.bitmapWrite n ()) s =
          .next ((s1.setRegion g { s.region g with dir := some k }).walkTo n.val g x y .entry)) ∧
        (∀ k, w = .zero false k → exec (.bitmapWrite n ()) s = .next (s1.walkTo n.val g x y (.link k))) ∧
        (∀ k, w = .link k → exec (.bitmapWrite n ()) s = .next (s1.walkTo n.val g x y (.cell k))) ∧
        (∀ k, w = .cell k → exec (.bitmapWrite n ()) s = .next (s1.setThr n.val done)) ∧
        (∀ d, w = .take d → s.Inv → ∃ s2 : State,
          exec (.bitmapWrite n ()) s = .next (s2.walkTo n.val g x y (.zero d (leNat q.got % 2 ^ 19))) ∧
          s2.rd (aThr n.val 0x10C) = BitVec.ofNat 32 ((s.rf (aThr n.val 0x10C) 0 18 + 1) % s.flSize n.val) ∧
          s2.rd (aThr n.val 0x114) = BitVec.ofNat 32 (count - 1) ∧ s2 = { s1 with regs := s2.regs })))) ∧
  (∀ (s : State) (n : Fin 4) (g x y d k : Nat), (s.region g).dir = some d →
    let entry := pageAddr d + 4 * (x / 256 * pagesAcross (s.rdescOf g) + y / 2048)
    let byte := pageAddr k + x % 256 * 256 + y % 2048 / 8
    s.walkAccess n.val g x y .entry = (entry, 4, none) ∧
    s.walkAccess n.val g x y (.link k) = (entry, 4, some (natLe 4 (k + 1))) ∧
    s.walkAccess n.val g x y (.zero true k) = (pageAddr k, 65536, some (List.replicate 65536 0)) ∧
    s.walkAccess n.val g x y (.zero false k) = (pageAddr k, 65536, some (List.replicate 65536 0)) ∧
    s.walkAccess n.val g x y (.take false) = (s.flAddr n.val (s.rf (aThr n.val 0x10C) 0 18), 4, none) ∧
    s.walkAccess n.val g x y (.cell k) =
      (byte, 1, some [s.dramSeen (byte - 0x1000000000) ||| BitVec.ofNat 8 (2 ^ (y % 8))])) ∧
  (∀ (s : State) (n : Fin 4) (g : Nat) (rest : List Nat),
    let t := s.thrs n.val
    let fresh := { Region_.init with st := .isOpen, rows := fld (s.rdescOf g) 32 6, cols := fld (s.rdescOf g) 40 6 }
    s.sleeping = false → t.resets = g :: rest → s.xferOf (.assist n.val) = none →
    (t.job = none → (s.region g).dir = none → exec (.regionReset n) s =
      .next ((s.setThr n.val { t with resets := rest }).setRegion g fresh).poll) ∧
    (∀ d, t.job = none → (s.region g).dir = some d → s.walksIn n.val g = true → exec (.regionReset n) s = .next s.poll) ∧
    (∀ d, t.job = none → (s.region g).dir = some d → s.walksIn n.val g = false → s.xferOf (.release n.val) = none →
      exec (.regionReset n) s = .next ((s.setThr n.val { t with job := some (true, none) }).xferStart (.release n.val) (14 + n.val)
        0 256 false (pageAddr d) (4 * s.dirSize g) none).poll) ∧
    (∀ (d : Nat) (q : Xfer), t.job = some (true, none) → (s.region g).dir = some d → s.walksIn n.val g = false →
      s.xferOf (.release n.val) = some q → q.over = true → exec (.regionReset n) s =
        .next (((s.setThr n.val { t with job := some (true, none) }).dropXfer (.release n.val)).releasePages n.val g true
          (dirPages (s.dirSize g) q.got ++ [d])).poll) ∧
    (∀ k, t.job = some (true, some k) → t.toFree ≠ [] → exec (.regionReset n) s = .next s.poll) ∧
    (∀ k, t.job = some (true, some k) → t.toFree = [] → exec (.regionReset n) s =
      .next (((s.setThr n.val { t with job := none }).setThr n.val { t with job := none, resets := rest }).setRegion g fresh).poll) ∧
    (∀ k, t.job = some (false, k) → exec (.regionReset n) s = .next s.poll)) ∧
  (∀ (f : Nat) (l : List Byte), dirPages f l =
    (((List.range f).map fun i => leNat ((l.drop (4 * i)).take 4)).filter fun e => e != 0).map fun e => e - 1) ∧
  (∀ (s : State) (n : Fin 4) (g : Nat) (reset : Bool) (l : List Nat), s.Inv →
    let t := s.thrs n.val
    let s' := s.releasePages n.val g reset l
    (s'.region g).dir = none ∧ (s'.thrs n.val).job = some (reset, some l.length) ∧
    (t.freeing = true → (s'.thrs n.val).toFree = t.toFree ++ l) ∧
    (t.freeing = false → t.toFree = [] → (s'.thrs n.val).toFree =
      if s.flSize n.val ≤ s.rf (aThr n.val 0x114) 0 19 then [] else l)) ∧
  (∀ (s : State) (n : Fin 4) (page : BitVec 19),
    let t := s.thrs n.val
    let b := s.mgmtIn (aThr n.val 0x118) true
    let k := s.rf (aThr n.val 0x114) 0 19
    let p := s.rf (aThr n.val 0x110) 0 18
    s.sleeping = false →
    (t.freeing = true → exec (.flPush n page) s = .next (b.setThr n.val { t with toFree := t.toFree ++ [page.toNat] })) ∧
    (t.freeing = false → t.toFree = [] → s.flSize n.val ≤ k → exec (.flPush n page) s =
      .next ((b.flag (aThr n.val 4) 8).setThr n.val { t with toFree := [], freeing := false })) ∧
    (t.freeing = false → t.toFree = [] → k < s.flSize n.val → exec (.flPush n page) s =
      .next { b.setThr n.val { t with toFree := [page.toNat], freeing := true } with
        mtxq := insTxn ⟨14 + n.val, .freed n.val, s.flAddr n.val p, 4, some (natLe 4 page.toNat), s.mqos (14 + n.val) true, 0,
          s.eclk, 0⟩ s.mtxq })) ∧
  (∀ (s : State) (x : Txn) (n k : Nat) (l : List Byte), x.for_ = .freed n →
    s.respond x (.ok l) = s.flDone n true ∧ s.respond x (.error k) = s.flDone n false) ∧
  (∀ (s : State) (n : Fin 4) (p : Nat) (l : List Nat),
    let k := s.rf (aThr n.val 0x114) 0 19
    let t := s.flDone n.val true
    let e := s.flDone n.val false
    (s.thrs n.val).toFree = p :: l → s.Inv →
    t.rd (aThr n.val 0x110) = BitVec.ofNat 32 ((s.rf (aThr n.val 0x110) 0 18 + 1) % s.flSize n.val) ∧
    t.rd (aThr n.val 0x114) = BitVec.ofNat 32 (k + 1) ∧
    (l = [] → (t.thrs n.val).toFree = [] ∧ (t.thrs n.val).freeing = false) ∧
    (k + 1 < s.flSize n.val → l ≠ [] → (t.thrs n.val).toFree = l ∧ (t.thrs n.val).freeing = true) ∧
    e.bit (aThr n.val 4) 7 = true ∧ e.rd (aThr n.val 0x114) = s.rd (aThr n.val 0x114) ∧
    e.rd (aThr n.val 0x110) = s.rd (aThr n.val 0x110))

/-- Assist operations (R322, R323). Each takes the entry at the head of its queue, when no memory write of an assist operation is
under way, no pages are being released (the model's choice, log entry 125), the output queue has room, and no intake item waits or 64
intake times have passed (R314, R319), and answers one output
word with the lowest status that applies. QUERY and COST give the region's state word, and the owner's QUERY clears the notice
bits; SCAN names the first region of the task, from REGION on, with a notice; TENTATIVE assigns a line of a closed region with a
spare left, and UNDO takes back the latest tentative one; CLOSE closes; RESET opens the region afresh and keeps its directory;
RELEASE reads the directory page and gives the pages of the bitmap back, the data pages in order and the directory last, and answers
their number once all are on the free list (R316). A region that is not valid or IDLE answers BAD_REGION, one of another task NOT_OWNER, an entry outside
the table BAD_OP. -/
def Obligations.AssistOperations : Prop :=
  (∀ (s : State) (n : Fin 4) (e : W128) (rest : List W128),
    let t := s.thrs n.val
    let g := assistRegion n.val e
    let r := s.region g
    let d := s.rdescOf g
    let op := fld e 124 4
    let task := fld e 96 16
    let absent := !d.getLsbD 47 || decide (r.st = .idle)
    let stranger := fld d 48 16 != task
    let col := e.getLsbD 16
    let ix := fld e 32 16
    s.sleeping = false → s.xferOf (.assist n.val) = none → t.job = none → t.assist = e :: rest → t.out.length < 64 →
    (t.q0 = [] ∧ t.q1 = []) ∨ 64 ≤ t.times →
    (op = 0 ∨ 10 < op ∨ assistOk e = false → exec (.badOp n) s = .next (s.reply n.val e 1 0)) ∧
    (assistOk e = true →
      (op = 1 → exec (.query n) s = .next (if absent then s.reply n.val e 2 0
        else (if stranger then s else s.setRegion g { r with notice := 0 }).reply n.val e 0 (stateWord r r.notice))) ∧
      (let hit := fun k => fld e 0 12 ≤ k ∧ (s.region (4096 * n.val + k)).notice ≠ 0 ∧
          fld (s.rdescOf (4096 * n.val + k)) 48 16 = task
       op = 2 → (∀ k < 4096, hit k → (∀ j < k, ¬hit j) → exec (.scan n) s = .next (s.reply n.val e 0 (k + 2 ^ 12))) ∧
         ((∀ k < 4096, ¬hit k) → exec (.scan n) s = .next (s.reply n.val e 0 0))) ∧
      (let r1 := { r with lines := r.lines ++ [LineRec.mk col ix .tent], rows := if col then r.rows else r.rows - 1
                          cols := if col then r.cols - 1 else r.cols }
       op = 4 → exec (.tentative n) s = .next (if absent then s.reply n.val e 2 0 else if stranger then s.reply n.val e 3 0
         else if r.st ≠ .closed then s.reply n.val e 4 0
         else if (if col then r.cols else r.rows) = 0 then s.reply n.val e 5 0
         else if ∃ x ∈ r.lines, x.col = col ∧ x.index = ix then s.reply n.val e 6 0
         else if r.unrep then s.reply n.val e 8 0
         else if (if col then fld d 16 16 else fld d 0 16) < ix then s.reply n.val e 0xB 0
         else (s.setRegion g r1).reply n.val e 0 (stateWord r1 r.notice))) ∧
      (op = 5 → (∀ x ∈ r.lines, x.tag ≠ .tent) → exec (.undo n) s = .next (if absent then s.reply n.val e 2 0
        else if stranger then s.reply n.val e 3 0 else if r.st ≠ .closed then s.reply n.val e 4 0 else s.reply n.val e 7 0)) ∧
      (∀ (a b : List LineRec) (x : LineRec), op = 5 → r.lines = a ++ x :: b → x.tag = .tent → (∀ y ∈ b, y.tag ≠ .tent) →
        let r1 := { r with lines := a ++ b, rows := if x.col then r.rows else r.rows + 1
                           cols := if x.col then r.cols + 1 else r.cols }
        exec (.undo n) s = .next (if absent then s.reply n.val e 2 0 else if stranger then s.reply n.val e 3 0
          else if r.st ≠ .closed then s.reply n.val e 4 0 else if r.unrep then s.reply n.val e 8 0
          else (s.setRegion g r1).reply n.val e 0 (stateWord r1 r.notice))) ∧
      (op = 6 → exec (.cost n) s = .next (if absent then s.reply n.val e 2 0
        else s.reply n.val e 0 (stateWord r r.notice))) ∧
      (op = 8 → s.Inv → exec (.close n) s = .next (if absent then s.reply n.val e 2 0 else if stranger then s.reply n.val e 3 0
        else if r.st ≠ .isOpen then s.reply n.val e 4 0
        else (s.closeRegion g).reply n.val e 0 (stateWord { r with st := .closed } r.notice))) ∧
      (op = 9 → exec (.reset n) s = .next (if absent then s.reply n.val e 2 0 else if stranger then s.reply n.val e 3 0
        else (s.setRegion g { Region_.init with st := .isOpen, rows := fld d 32 6, cols := fld d 40 6, dir := r.dir }).reply
          n.val e 0 0)) ∧
      (op = 10 → s.xferOf (.release n.val) = none → exec (.release n) s = .next (if absent then s.reply n.val e 2 0
        else if stranger then s.reply n.val e 3 0
        else match r.dir with
          | none => s.reply n.val e 0 0
          | some d => if s.walksIn n.val g then s
            else (s.setThr n.val { t with job := some (false, none) }).xferStart (.release n.val) (14 + n.val) 0 256 false
              (pageAddr d) (4 * s.dirSize g) none)))) ∧
  (∀ (s : State) (n : Fin 4) (e : W128) (rest : List W128),
    let t := s.thrs n.val
    let g := assistRegion n.val e
    s.sleeping = false → t.assist = e :: rest → fld e 124 4 = 10 → assistOk e = true →
    (∀ (d : Nat) (q : Xfer), t.job = some (false, none) → (s.region g).dir = some d → s.walksIn n.val g = false →
      s.xferOf (.release n.val) = some q →
      (q.over = false → exec (.release n) s = .next (s.setThr n.val { t with job := some (false, none) })) ∧
      (q.over = true → exec (.release n) s =
        .next (((s.setThr n.val { t with job := some (false, none) }).dropXfer (.release n.val)).releasePages n.val g false
          (dirPages (s.dirSize g) q.got ++ [d])))) ∧
    (∀ k, t.job = some (false, some k) → t.toFree ≠ [] → exec (.release n) s = .next s) ∧
    (∀ k, t.job = some (false, some k) → t.toFree = [] →
      exec (.release n) s = .next ((s.setThr n.val { t with job := none }).reply n.val e 0 k))) ∧
  (∀ (s : State) (n : Fin 4),
    let t := s.thrs n.val
    s.xferOf (.assist n.val) = none → t.job.any (fun j => !j.1) = false →
    t.assist = [] ∨ t.job ≠ none ∨ 64 ≤ t.out.length ∨ ((t.q0 ≠ [] ∨ t.q1 ≠ []) ∧ t.times < 64) →
    ∀ c ∈ [Instr.query n, .scan n, .fetch n (), .tentative n, .undo n, .cost n, .commit n (), .close n, .reset n, .release n, .badOp n],
      exec c s = .next s) ∧
  (∀ (s : State) (g : Nat), s.Inv → (s.region g).st = .isOpen →
    let r := s.region g
    let k := if r.cells = [] then 4 else 3
    let s' := s.closeRegion g
    s'.region g = { r with st := .closed, notice := if r.unrep then r.notice else r.notice ||| (1 <<< k) } ∧
    (∀ j, j ≠ g → s'.region j = s.region j) ∧ s'.mem = s.mem ∧
    s'.evq = s.evq ++ (if r.unrep = false ∧ r.notice.getLsbD k = false ∧ (s.rdescOf g).getLsbD (96 + k) = true
      then [EvReq.mk (rkThr (thrOf g)) (some (fld (s.rdescOf g) 48 16)) 4 (BitVec.ofNat 32 g)] else []))

/-- FETCH writes the row and column of every uncovered cell to DEST, and COMMIT a repair record that lists the region's lines, as
one-beat writes that start when every check holds; nothing is written where DEST leaves one bank or DRAM (MEM_ERR, sticky) or is no
multiple of 16 (RANGE). When the writes are acknowledged the reply follows, and COMMIT makes tentative lines final; an error
response answers MEM_ERR with the bytes written before it (R319, R322, R323, R324, R355). A reply is one word that names the
operation, status, region and sequence number, counted once; the first word into an empty output queue raises its event, and the
64 intake times of R314 count afresh (R319, R320). -/
def Obligations.AssistStores : Prop :=
  (∀ (s : State) (n : Fin 4) (e : W128) (rest : List W128),
    let t := s.thrs n.val
    let g := assistRegion n.val e
    let r := s.region g
    let op := fld e 124 4
    let dest := fld e 56 40
    let cells := r.open_.flatMap fun c => natLe 4 (c.1 + c.2 * 65536)
    let lines := repairRecord g r
    let away := s.assistCheck n.val e true
    s.sleeping = false → t.assist = e :: rest → assistOk e = true →
    (s.xferOf (.assist n.val) = none → t.job = none → t.out.length < 64 → (t.q0 = [] ∧ t.q1 = []) ∨ 64 ≤ t.times →
      (op = 3 → away = 0 →
        (destRange dest cells.length = false →
          exec (.fetch n ()) s = .next ((s.setB (aThr n.val 4) 7).reply n.val e 0xA 0)) ∧
        (destRange dest cells.length = true → s.destOwned n.val dest = true → dest % 16 ≠ 0 →
          exec (.fetch n ()) s = .next (s.reply n.val e 0xB 0)) ∧
        (destRange dest cells.length = true → s.destOwned n.val dest = true → dest % 16 = 0 → cells = [] →
          exec (.fetch n ()) s = .next (s.reply n.val e 0 0)) ∧
        (destRange dest cells.length = true → dest % 16 = 0 → cells ≠ [] → exec (.fetch n ()) s =
          .next (s.xferStart (.assist n.val) (14 + n.val) 0 32 false dest cells.length (some cells)))) ∧
      (op = 3 → away ≠ 0 → exec (.fetch n ()) s = .next (s.reply n.val e away 0)) ∧
      (op = 7 → away ≠ 0 → exec (.commit n ()) s = .next (s.reply n.val e away 0)) ∧
      (op = 7 → away = 0 →
        (r.st ≠ .closed → exec (.commit n ()) s = .next (s.reply n.val e 4 0)) ∧
        (r.st = .closed → r.unrep = true → exec (.commit n ()) s = .next (s.reply n.val e 8 0)) ∧
        (r.st = .closed → r.unrep = false → r.open_ ≠ [] → exec (.commit n ()) s = .next (s.reply n.val e 9 0)) ∧
        (r.st = .closed → r.unrep = false → r.open_ = [] →
          (destRange dest lines.length = false →
            exec (.commit n ()) s = .next ((s.setB (aThr n.val 4) 7).reply n.val e 0xA 0)) ∧
          (destRange dest lines.length = true → s.destOwned n.val dest = true → dest % 16 ≠ 0 →
            exec (.commit n ()) s = .next (s.reply n.val e 0xB 0)) ∧
          (destRange dest lines.length = true → dest % 16 = 0 → exec (.commit n ()) s =
            .next (s.xferStart (.assist n.val) (14 + n.val) 0 32 false dest lines.length (some lines)))))) ∧
    (∀ x : Xfer, s.xferOf (.assist n.val) = some x →
      let s1 := s.dropXfer (.assist n.val)
      (op = 3 → cells ≠ [] →
        (x.over = false → exec (.fetch n ()) s = .next s) ∧
        (x.over = true → x.err = none → exec (.fetch n ()) s = .next (s1.reply n.val e 0 r.open_.length)) ∧
        (x.over = true → x.err ≠ none → exec (.fetch n ()) s =
          .next ((s1.setB (aThr n.val 4) 7).reply n.val e 0xA x.moved))) ∧
      (op = 7 →
        (x.over = false → exec (.commit n ()) s = .next s) ∧
        (x.over = true → x.err = none → exec (.commit n ()) s =
          .next ((s1.setRegion g (committed r)).reply n.val e 0 lines.length)) ∧
        (x.over = true → x.err ≠ none → exec (.commit n ()) s =
          .next ((s1.setB (aThr n.val 4) 7).reply n.val e 0xA x.moved))))) ∧
  (∀ r : Region_,
    (committed r).lines.length = r.lines.length ∧ (∀ l ∈ (committed r).lines, l.tag ≠ .tent) ∧
    (∀ c, c ∈ (committed r).cells ↔ c ∈ r.cells ∧ covers r.lines c = false) ∧ (committed r).st = r.st) ∧
  (∀ (s : State) (n : Fin 4) (e : W128) (status value : Nat), s.Inv →
    let t := s.thrs n.val
    let s' := s.reply n.val e status value
    (s'.thrs n.val).assist = t.assist.drop 1 ∧ (s'.thrs n.val).seq = t.seq + 1 ∧ (s'.thrs n.val).times = 0 ∧
    (∃ w : W64, (s'.thrs n.val).out = t.out ++ [w] ∧ w.toNat % 16 = fld e 124 4 ∧ w.toNat / 16 % 16 = status % 16 ∧
      w.toNat / 256 % 4096 = fld e 0 12 ∧ w.toNat / 2 ^ 20 % 16 = t.seq.toNat ∧ w.toNat / 2 ^ 24 = value % 2 ^ 39) ∧
    s'.rd (aThr n.val 0x28) = s.rd (aThr n.val 0x28) + 1 ∧
    (t.out = [] → s'.evq = s.evq ++ [EvReq.mk (rkThr n.val) none 5 (BitVec.ofNat 32 n.val)]) ∧
    (t.out ≠ [] → s'.evq = s.evq) ∧ s'.mem = s.mem ∧ s'.regions = s.regions)
/- Sites, clocks, lanes and sync ------------------------------------------------------------------------ -/

/-- FINISH of a running site waits for the bursts on its lanes (R17), and for the frames of those expanders that compare has
still to judge (R11; that these hold it is the model's reading, log entry 149); of any other site it does nothing. Once nothing holds it the
site is done, and a site that no Thresher holds a region of is FINAL at once, with the result VOID over INCOMPLETE over FAIL over
PASS of its SAW bits (R17, R20). -/
def Obligations.SitesFinish : Prop :=
  (∀ (s : State) (i : Fin 256), s.sleeping = false →
    let b := s.mgmtIn (aSite i.val 0x10) true
    (s.siteState i.val = 2 → (s.site i.val).finish = none → exec (.finish i) s = .next (b.setSite i.val
      { s.site i.val with finish := some ((List.range 16).filterMap (s.holdOf i.val)) })) ∧
    (s.siteState i.val ≠ 2 ∨ (s.site i.val).finish ≠ none → exec (.finish i) s = .next b) ∧
    (∀ l, (s.site i.val).finish = some l → s.siteState i.val = 2 → l.all s.holdOver = true →
      exec (.siteDone i) s = .next (s.siteToDone i.val).poll) ∧
    (∀ l, (s.site i.val).finish = some l → l.all s.holdOver = false → exec (.siteDone i) s = .next s.poll)) ∧
  (∀ (s : State) (i : Fin 256) (n : Fin 16),
    let line := (s.pgs (n.val / 2)).line
    let mine := fun e : ExpFrame => ∃ x ∈ e.lanes, s.owns n.val x.1 = true ∧ ∃ u ∈ x.2.2, u ≠ none
    (∀ e ∈ line, mine e →
      (meets (s.siteLanes i.val) (laneMask (n.val / 2) (s.ownLanes n.val true)) = true →
        ∃ h, s.holdOf i.val n.val = some h ∧ h.px = n.val ∧ e.due ≤ h.due) ∧
      ∀ h : Hold, h.px = n.val → e.due ≤ h.due → s.holdOver h = false) ∧
    ((s.pxs n.val).burst = none → (s.pxs n.val).ends = [] → s.pxState n.val ≠ 2 → (∀ e ∈ line, ¬mine e) →
      s.holdOf i.val n.val = none)) ∧
  (∀ (s : State) (i : Fin 256), s.Inv → (∀ n < 4, s.siteUses i.val n = false) →
    let v := s.rd (aSite i.val 0x14)
    let t := s.siteToDone i.val
    t.siteState i.val = 3 ∧ t.siteFinal i.val = true ∧
    t.rf (aSite i.val 0x14) 4 2 = (if v.getLsbD 10 then 3 else if v.getLsbD 9 then 2 else if v.getLsbD 8 then 1 else 0) ∧
    (s.bit (aSite i.val 0x10) 0 = true → i.val ∈ t.unreported) ∧ t.mem = s.mem ∧ t.ths = s.ths ∧
    ∀ j : Fin 256, j ≠ i → t.rd (aSite j.val 0x14) = s.rd (aSite j.val 0x14))

/-- A relock is refused with its code and BAD_RELOCK while an expander of the group is not idle (1) or the rate is out of range
(2); accepted, it stops the frame clock and clears LOCKED until the PLL locks, when the clock restarts at frame 0 (R261, R262).
A loss of lock stops the group's expanders; the loss of TREF does so in every group (R263). A frame edge with no burst counts a
frame (R259). MEAS_KHZ takes the count of a whole window while TREF is present (R519). -/
def Obligations.PinGroupClocks : Prop :=
  (∀ (s : State) (g : Fin 8),
    let st := aSyn (0x18 + 0x10 * g.val)
    s.sleeping = false →
    (s.relockCode g.val ≠ 0 → exec (.relock g) s =
      .next (((s.mgmtIn (aSyn (0x14 + 0x10 * g.val)) true).wf st 4 4 (s.relockCode g.val)).flag (aSyn 0x110) 5)) ∧
    (s.pxState (2 * g.val) ≠ 0 ∨ s.pxState (2 * g.val + 1) ≠ 0 → s.relockCode g.val = 1) ∧
    (s.pxState (2 * g.val) = 0 → s.pxState (2 * g.val + 1) = 0 → rateOk (s.rateRegs g.val) = false →
      s.relockCode g.val = 2) ∧
    (s.relockCode g.val = 0 → s.Inv → Runs (.relock g) s fun s' =>
      s'.bit st 0 = false ∧ s'.bit st 1 = true ∧ (s'.pgs g.val).run = false ∧
      (s'.pgs g.val).rate = some (s.rateRegs g.val) ∧ s'.mem = s.mem ∧ s'.px = s.px ∧ s'.ths = s.ths)) ∧
  (∀ (s : State) (g : Fin 8),
    let st := aSyn (0x18 + 0x10 * g.val)
    exec (.pllLock g) s = .next (s.pllLock g.val).poll ∧
    (s.bit st 1 = false → s.pllLock g.val = s) ∧
    (s.bit st 1 = true → s.Inv → (s.pllLock g.val).bit st 0 = true ∧ (s.pllLock g.val).bit st 1 = false ∧
      ((s.pllLock g.val).pgs g.val).run = true ∧ ((s.pllLock g.val).pgs g.val).started = 1)) ∧
  (∀ (s : State) (g : Fin 8), s.Inv →
    (s.pgLocked g.val = true → Runs (.lossOfLock g) s fun s' =>
      s'.pgLocked g.val = false ∧ s'.bit (aSyn 0x110) 3 = true ∧ (s'.pxs (2 * g.val)).queue = [] ∧
      (s'.pxs (2 * g.val + 1)).queue = [] ∧ s'.isArmed (2 * g.val) = false ∧ s'.isArmed (2 * g.val + 1) = false ∧
      s'.mem = s.mem) ∧
    (s.pgLocked g.val = false → exec (.lossOfLock g) s = .next s) ∧
    ((s.pgs g.val).run = true → (s.pxs (2 * g.val)).burst = none → (s.pxs (2 * g.val + 1)).burst = none →
      Runs (.frameEdge g) s fun s' => (s'.pgs g.val).started = (s.pgs g.val).started + 1 ∧ s'.mem = s.mem ∧
        s'.ths = s.ths ∧ (∀ h : Fin 8, h ≠ g → s'.pgs h.val = s.pgs h.val)) ∧
    ((s.pgs g.val).run = false → exec (.frameEdge g) s = .next s)) ∧
  (∀ s : State,
    (s.bit (aSyn 4) 31 = true → s.Inv → Runs .trefAbsent s fun s' => s'.bit (aSyn 4) 31 = false ∧
      s'.bit (aSyn 0x110) 4 = true ∧ (∀ g : Fin 8, s'.pgLocked g.val = false) ∧ s'.mem = s.mem) ∧
    (s.bit (aSyn 4) 31 = false → exec .trefAbsent s = .next s) ∧
    (exec .trefPresent s = .next (s.setB (aSyn 4) 31)) ∧
    (∀ e : BitVec 20, s.bit (aSyn 4) 31 = true → exec (.measWindow e) s = .next (s.wf (aSyn 4) 0 20 e.toNat)) ∧
    (∀ e : BitVec 20, s.bit (aSyn 4) 31 = false → exec (.measWindow e) s = .next s))

/-- A GO fails at once with its code and TRAIN_FAIL, unless group, expander and partner allow it; then the lane trains, its partner
serving it (R275, R276). A running training stays at its step or goes on to the next, up to its last; when it moves on is a free value
(log entry 120). A step that may fail and that training has not passed ends it with that step and the step's code, and leaves the
baselines; a CTLE setting already kept stays, those of steps not reached do not change. Training that succeeds has cleared TX_TRIM,
takes the transmit baseline and, with SRC not 0, the CTLE setting, the taps, the strobe and the thresholds, with RX_TRIM and TH_TRIM
cleared (R275, R283; the order of the checks of a GO and what a failing GO and a short sweep leave are readings, log entries 53, 54
and 55; the CTLE setting and the taps found are free values, log entry 120). A correction opportunity before UPDATE_MIN, or on a lane that is not trained, does
nothing; a wanted change is applied within the trim's limit (R279 to R282). TX_ERR, its failure and a monitor sweep update their
registers (R277, R278). -/
def Obligations.LaneTraining : Prop :=
  (∀ (s : State) (n : Fin 64) (v : W32),
    let s1 := (s.mgmtIn (aLn n.val 0x10) true).wr (aLn n.val 0x10) (v &&& 0x777)
    let t := ((s1.wf (aLn n.val 0x14) 0 2 1).wf (aLn n.val 0x14) 4 3 1).wf (aLn n.val 0x14) 8 4 0
    s.sleeping = false →
    (v.getLsbD 31 = false → exec (.train n v) s = .next s1) ∧
    (v.getLsbD 31 = true → s1.trainCode n.val ≠ 0 → exec (.train n v) s =
      .next ((s1.wf (aLn n.val 0x14) 8 4 (s1.trainCode n.val)).flag (aLn n.val 0x50) 3)) ∧
    (v.getLsbD 31 = true → s1.trainCode n.val = 0 → s1.usesPartner n.val = false → exec (.train n v) s = .next t) ∧
    (v.getLsbD 31 = true → s1.pgLocked (n.val / 8) = false → s1.trainCode n.val = 2)) ∧
  (∀ (s : State) (n : Fin 64) (r : TrainResult), s.Inv →
    let t := s.trainEnd n.val r
    exec (.trainingComplete n r) s = .next t.poll ∧
    (s.tstate n.val ≠ 1 → t = s) ∧
    let k := s.rf (aLn n.val 0x14) 4 3
    (∀ step : BitVec 3, r = .fail step → s.tstate n.val = 1 → step.toNat < 3 ∨ step.toNat < k ∨ s.trainLast n.val < step.toNat →
      t = s) ∧
    (∀ step : BitVec 3, r = .fail step → s.tstate n.val = 1 → 3 ≤ step.toNat → k ≤ step.toNat → step.toNat ≤ s.trainLast n.val →
      t.tstate n.val = 3 ∧ t.rf (aLn n.val 0x14) 4 3 = step.toNat ∧
      t.rf (aLn n.val 0x14) 8 4 = (if step = 3 then 3 else if step = 7 then 5 else 4) ∧ t.bit (aLn n.val 0x50) 3 = true ∧
      (t.lane n.val).tx = (s.lane n.val).tx ∧ (t.lane n.val).rx = (s.lane n.val).rx ∧
      (k ≤ 2 → t.rd (aLn n.val 0x30) = 0) ∧ (step.toNat ≤ 4 → t.rd (aLn n.val 8) = s.rd (aLn n.val 8)) ∧
      (k ≤ 4 → 4 < step.toNat → t.rf (aLn n.val 8) 0 5 < 19) ∧ (step.toNat ≤ 5 → t.rd (aLn n.val 0xC) = s.rd (aLn n.val 0xC)) ∧
      (k ≤ 6 → step.toNat = 7 → t.rd (aLn n.val 0x34) = 0 ∧ t.rd (aLn n.val 0x38) = 0)) ∧
    (∀ tx strobe t0 t1 t2 trip, r = .done tx strobe t0 t1 t2 trip → s.tstate n.val = 1 →
      t.tstate n.val = 2 ∧ t.rf (aLn n.val 0x14) 4 3 = s.trainLast n.val ∧ (k ≤ 2 → t.rd (aLn n.val 0x30) = 0) ∧
      (t.lane n.val).tx = some tx ∧
      (s.rf (aLn n.val 0x10) 0 2 ≠ 0 → (k ≤ 4 → t.rf (aLn n.val 8) 0 5 < 19) ∧
        (k ≤ 6 → t.rd (aLn n.val 0x34) = 0 ∧ t.rd (aLn n.val 0x38) = 0) ∧ (t.lane n.val).rx = some (strobe, #v[t0, t1, t2])) ∧
      (s.rf (aLn n.val 0x10) 0 2 ≠ 0 → s.bit (aLn n.val 0x10) 2 = true →
        t.rd (aLn n.val 0x18) = BitVec.ofNat 32 (trip.toNat + 2 ^ 31)) ∧
      (s.rf (aLn n.val 0x10) 0 2 = 0 → t.rd (aLn n.val 8) = s.rd (aLn n.val 8) ∧
        t.rd (aLn n.val 0xC) = s.rd (aLn n.val 0xC)) ∧
      (s.rf (aLn n.val 0x10) 0 2 = 0 → (t.lane n.val).rx = (s.lane n.val).rx ∧ t.rd (aLn n.val 0x34) = 0 ∧
        t.rd (aLn n.val 0x38) = 0))) ∧
  (∀ (s : State) (n : Fin 64),
    let k := s.rf (aLn n.val 0x14) 4 3
    let t := s.trainStep n.val
    s.Inv →
    (s.tstate n.val ≠ 1 → t = s) ∧
    (s.tstate n.val = 1 → t.tstate n.val = 1 ∧
      (t.rf (aLn n.val 0x14) 4 3 = k ∨ (t.rf (aLn n.val 0x14) 4 3 = k + 1 ∧ k < s.trainLast n.val)) ∧
      (∀ a, a ∉ [0x14, 0x30, 0x34, 0x38, 8, 0xC].map (aLn n.val) → t.rd a = s.rd a) ∧ t.mem = s.mem ∧
      (t.lane n.val).tx = (s.lane n.val).tx ∧ (t.lane n.val).rx = (s.lane n.val).rx ∧
      ∀ m, m ≠ n.val → t.lane m = s.lane m)) ∧
  (∀ (s : State) (n : Fin 64),
    (∀ e : BitVec 13, exec (.txErrUpdate n e) s = .next (s.wr (aLn n.val 0x3C) (BitVec.ofNat 32 (e.toNat + 2 ^ 31)))) ∧
    (s.bit (aLn n.val 0x20) 1 = true → exec (.measFail n) s =
      .next (((s.clrB (aLn n.val 0x3C) 31).setB (aLn n.val 0x50) 2).calAlarm n.val)) ∧
    (s.bit (aLn n.val 0x20) 1 = false → exec (.measFail n) s = .next s) ∧
    (∀ r : Sweep, (s.lane n.val).scan = false → r.transitions < 65536 → exec (.sweepEnd n r) s =
      .next ((s.clrB (aLn n.val 0x40) 31).setLane n.val { s.lane n.val with therr := none })) ∧
    (∀ r : Sweep, (s.lane n.val).scan = false → 65536 ≤ r.transitions → exec (.sweepEnd n r) s =
      .next (((s.wr (aLn n.val 0x40) (BitVec.ofNat 32 (r.rxErr.toNat + 2 ^ 31))).wr (aLn n.val 0x1C)
        (BitVec.ofNat 32 (r.width.toNat + r.height.toNat * 256 + 2 ^ 31))).setLane n.val
        { s.lane n.val with therr := some #v[r.th0, r.th1, r.th2] }))) ∧
  (∀ (s : State) (n : Fin 64) (now : Nat),
    (s.tstate n.val ≠ 2 ∨ now - (s.lane n.val).applied < s.rf (aLn n.val 0x20) 16 12 →
      exec (.correctionOpportunity n now) s = .next s) ∧
    (∀ (w : Nat) (d : Int), s.opportunity n.val = true → s.bit (aLn n.val 0x20) 0 = true → s.tstate n.val = 2 →
      s.rf (aLn n.val 0x20) 16 12 ≤ now - (s.lane n.val).applied → s.wanted n.val = [(w, d)] →
      let q := s.adjust n.val w d
      exec (.correctionOpportunity n now) s =
        .next (if q.2 then q.1.setLane n.val { q.1.lane n.val with applied := now } else q.1))) ∧
  (∀ (s : State) (n : Fin 64) (w : Fin 5) (d : Int), s.Inv →
    let x := s.trim n.val w.val
    let lim := (s.trimLimit n.val w.val).1
    (2 ≤ w.val → lim ≤ 127) → d ≠ 0 →
    ((x + d).natAbs ≤ lim → (s.adjust n.val w.val d).1.trim n.val w.val = x + d) ∧
    (lim < (x + d).natAbs → (s.adjust n.val w.val d).1.trim n.val w.val = (if x + d < 0 then -(lim : Int) else lim) ∧
      (s.adjust n.val w.val d).1.bit (aLn n.val 0x50) 1 = true))

/-- Eye scans, PRBS checking, boundary scan and the contacts: GO starts a scan and clears DONE, its end gives the errors with DONE (R286). The checker locks,
counts errors saturating at 32 bits while locked, and loses lock with its sticky bit (R274); PRBS_CLEAR clears the counts, and a
read of PRBS_BITS_LO holds the high half. Each EXTEST instruction stops every expander and gives the contacts to the boundary cells, which
show the levels of their update; another instruction leaves every lane untrained and electrically idle if it leaves an EXTEST, else it touches
the test access port alone; SAMPLE/PRELOAD updates the cells (R291). The test receivers keep to the levels and the hysteresis of R509, and
TDO drives in Shift-DR and Shift-IR alone (R499). How the controller steps, its PRELOAD and what a command brings are readings of IEEE 1149.1
(log entry 137). A driving lane carries its swing, shaped by the three weights of its equalizer with the symbols
of the UI before and of the UI after (R267; which of the two each weight takes is a reading, log entry 151); electrical idle, driver off
and a device without power carry what R268 and R432 say, and without power the sync, AVSBus and TDO outputs are high impedance. -/
def Obligations.LaneMonitors : Prop :=
  (∀ (s : State) (n : Fin 64),
    (∀ v : W32, s.sleeping = false → v.getLsbD 31 = false →
      exec (.eyeScan n v) s = .next ((s.mgmtIn (aLn n.val 0x80) true).wr (aLn n.val 0x80) (v &&& 0x33FFFF))) ∧
    (∀ v : W32, s.sleeping = false → v.getLsbD 31 = true → exec (.eyeScan n v) s =
      .next ((((s.mgmtIn (aLn n.val 0x80) true).wr (aLn n.val 0x80) (v &&& 0x33FFFF)).clrB (aLn n.val 0x84) 31).setLane n.val
        { s.lane n.val with scan := true })) ∧
    (∀ e : BitVec 24, (s.lane n.val).scan = true → exec (.eyeScanDone n e) s =
      .next ((s.wr (aLn n.val 0x84) (BitVec.ofNat 32 (e.toNat + 2 ^ 31))).setLane n.val
        { s.lane n.val with scan := false }).poll) ∧
    (s.checks n.val = true → exec (.prbsLock n) s = .next (s.setB (aLn n.val 0x14) 12)) ∧
    (s.checks n.val = false → exec (.prbsLock n) s = .next s) ∧
    (∀ bits errors, s.checks n.val = true → s.bit (aLn n.val 0x14) 12 = true → s.Inv →
      Runs (.prbsLockLost n bits errors) s fun s' =>
        s'.bit (aLn n.val 0x14) 12 = false ∧ s'.bit (aLn n.val 0x50) 4 = true ∧
        (s'.rd (aLn n.val 0x64)).toNat = min ((s.rd (aLn n.val 0x64)).toNat + errors) 0xFFFFFFFF ∧
        (s'.lane n.val).bits = ((s.lane n.val).bits + bits) % 2 ^ 48 ∧ s'.mem = s.mem ∧ s'.px = s.px) ∧
    (∀ bits errors, s.bit (aLn n.val 0x14) 12 = false → exec (.prbsLockLost n bits errors) s = .next s) ∧
    (s.sleeping = false → s.Inv → Runs (.prbsClear n) s fun s' => (s'.lane n.val).bits = 0 ∧ s'.rd (aLn n.val 0x64) = 0 ∧
      (∀ a, a ≠ aLn n.val 0x64 → a ≠ aLn n.val 0x68 → a ≠ aLn n.val 0x6C → s'.rd a = s.rd a) ∧ s'.mem = s.mem) ∧
    (∀ bits errors, s.sleeping = false → s.Inv → s.checks n.val = true → s.bit (aLn n.val 0x14) 12 = true →
      Runs (.prbsBitsLo n bits errors) s fun s' =>
        let c := ((s.lane n.val).bits + bits) % 2 ^ 48
        s'.busOut = BitVec.ofNat 32 c ∧ s'.rd (aLn n.val 0x6C) = BitVec.ofNat 32 (c / 2 ^ 32) ∧ (s'.lane n.val).bits = c)) ∧
  (∀ (s : State) (d : ScanData), (∀ k : ExtestKind, exec (.extest k d) s =
      .next (d.tms.foldl State.tapEdge { s.stopAll with tap := { s.tap with instr := extestInstr k }.update d })) ∧
    (∀ k : OtherScan, s.extest = true → s.Inv → Runs (.extestExit k d) s fun s' => s'.extest = false ∧ s'.mem = s.mem ∧
      (∀ n : Fin 64, s'.tstate n.val = 0 ∧ s'.rd (aLn n.val 0x30) = 0) ∧
      ∀ g : Fin 8, (s'.pgs g.val).ei = Vector.replicate 8 true) ∧
    (∀ k : OtherScan, s.extest = false → Runs (.extestExit k d) s fun s' =>
      s'.extest = false ∧ s' = { s with tap := s'.tap } ∧ (k = .samplePreload → s'.tap.cells = d.cells) ∧
      (k ≠ .samplePreload → s'.tap.cells = s.tap.cells))) ∧
  (∀ (old : Bool) (v0 v : Int),
    (150 ≤ v - v0 → testRx true old v0 v = true) ∧ (v - v0 ≤ -150 → testRx true old v0 v = false) ∧
    (50 < v → testRx false old v0 v = true) ∧ (v < -50 → testRx false old v0 v = false) ∧
    (-25 ≤ v → v ≤ 25 → testRx false old v0 v = old)) ∧
  (∀ (s : State) (n : Fin 64) (tx : W32) (a u b : UiOut), s.power ≠ .off →
    let w := fun v : BitVec 2 => s.symWeight (n.val / 8) (n.val % 8) v
    let pre : Int := (field tx 8 5 : Nat)
    let post : Int := (field tx 16 5 : Nat)
    let swing : Int := (field tx 0 7 : Nat)
    (s.extest = true → s.contactOf n.val tx a u b = .boundary s.tap.instr (s.tap.cells.getLsbD n.val)) ∧
    (s.extest = false → u.idle = true → s.contactOf n.val tx a u b = .idle) ∧
    (s.extest = false → u.idle = false → u.on = true → s.bit (aLn n.val 0) 2 = false →
      s.contactOf n.val tx a u b = .level (10 * swing * ((64 - pre - post) * w u.sym - pre * w b.sym - post * w a.sym))) ∧
    (s.extest = false → u.idle = false → u.on = true → s.bit (aLn n.val 0) 2 = true →
      s.contactOf n.val tx a u b = .level (-(10 * swing * ((64 - pre - post) * w u.sym - pre * w b.sym - post * w a.sym)))) ∧
    (s.extest = false → u.idle = false → u.on = false → s.contactOf n.val tx a u b =
      .off (if s.rf (aLn n.val 0) 4 2 = 3 then 0 else s.rf (aLn n.val 0) 4 2) (min 10 (s.rf (aLn n.val 0) 8 4)))) ∧
  (∀ s : State,
    (s.power = .off → s.syncPin = .highZ ∧ s.avsPins = .highZ ∧ s.tdoPin = .highZ ∧
      ∀ (n : Nat) (tx : W32) (a u b : UiOut), s.contactOf n tx a u b = .unpowered) ∧
    (s.power ≠ .off → s.syncPin = .sent s.syncOut ∧ s.avsPins = .sent s.avsOut ∧
      (s.tdoPin = .sent () ↔ s.tap.st = .shiftDr ∨ s.tap.st = .shiftIr)))

/-- A sync word with a bad top nibble or parity sets PARITY_ERR, one of an unknown code its own bit; an accepted one is recorded
and acts later (R288). EPOCH restarts the frame clocks of locked groups, and with an expander not idle only sets its sticky bit;
START releases a pending start and otherwise sets its bit; STOP stops every expander (R288, R289). A leader sends EPOCH and STOP
words, and START with the next sequence count once its request is pending and SYNC_RDY_N is high (R289). A start that waits past
START_TIMEOUT sets its bit. Words sent have even parity. That a module which has not joined takes no word at all is a reading (log
entry 57). -/
def Obligations.Synchronization : Prop :=
  (∀ (s : State) (w : BitVec 16),
    let code := w.toNat / 2 ^ 8 % 16
    (s.joined = false → exec (.syncWord w) s = .next s) ∧
    (s.joined = true → w.toNat / 2 ^ 12 ≠ 0xB ∨ ones16 w % 2 ≠ 0 → exec (.syncWord w) s = .next (s.setB (aSyn 0x110) 0)) ∧
    (s.joined = true → w.toNat / 2 ^ 12 = 0xB → ones16 w % 2 = 0 → code = 0 ∨ 3 < code →
      exec (.syncWord w) s = .next (s.setB (aSyn 0x110) 1)) ∧
    (s.joined = true → w.toNat / 2 ^ 12 = 0xB → ones16 w % 2 = 0 → 1 ≤ code → code ≤ 3 → s.Inv →
      Runs (.syncWord w) s fun s' => s'.syncq = s.syncq ++ [BitVec.ofNat 4 code] ∧ s'.rf (aSyn 0x108) 0 4 = code ∧
        s'.rf (aSyn 0x108) 8 7 = w.toNat / 2 % 128 ∧ ∀ a, a ≠ aSyn 0x108 → s'.rd a = s.rd a)) ∧
  (∀ (s : State) (l : List (BitVec 4)),
    let s1 := { s with syncq := l }
    (s.syncq = 1 :: l → (∃ n : Fin 16, s.pxState n.val ≠ 0) → exec .epoch s = .next (s1.setB (aSyn 0x110) 6)) ∧
    (s.syncq = 1 :: l → (∀ n : Fin 16, s.pxState n.val = 0) → s.Inv → Runs .epoch s fun s' =>
      s'.syncq = l ∧ (∀ g : Fin 8, s.pgLocked g.val = true →
        (s'.pgs g.val).started = 1 ∧ (s'.pgs g.val).run = true ∧ s'.bit (aSyn (0x18 + 0x10 * g.val)) 2 = true) ∧
      (∀ g : Fin 8, s.pgLocked g.val = false → s'.pgs g.val = s.pgs g.val) ∧ s'.mem = s.mem) ∧
    (s.syncq = 2 :: l → s1.startPending = false → exec .startWord s = .next (s1.setB (aSyn 0x110) 1).poll) ∧
    (s.syncq = 2 :: l → s1.startPending = true → exec .startWord s =
      .next (({ s1.startNow with startSent := false }.clrB (aSyn 0x108) 17).post rkOther none 12 0).poll) ∧
    (s.syncq = 3 :: l → exec .stopWord s = .next s1.stopAll) ∧
    (s.syncq = [] → exec .epoch s = .next s ∧ exec .startWord s = .next s.poll ∧ exec .stopWord s = .next s)) ∧
  (∀ s : State,
    (∀ arg : BitVec 7, s.sleeping = false → s.rf (aSyn 0x100) 0 2 = 2 →
      exec (.sendEpoch arg) s = .next { s.mgmtIn (aSyn 0x104) true with syncOut := some (syncWordOf 1 arg.toNat) } ∧
      exec (.sendStop arg) s = .next { s.mgmtIn (aSyn 0x104) true with syncOut := some (syncWordOf 3 arg.toNat) }) ∧
    (∀ arg : BitVec 7, s.sleeping = false → s.rf (aSyn 0x100) 0 2 ≠ 2 →
      exec (.sendEpoch arg) s = .next ((s.mgmtIn (aSyn 0x104) true).flag (aSyn 0x110) 7) ∧
      exec (.sendStop arg) s = .next ((s.mgmtIn (aSyn 0x104) true).flag (aSyn 0x110) 7)) ∧
    (s.rf (aSyn 0x100) 0 2 = 2 → s.joined = true → s.startPending = true → s.startSent = false →
      exec (.leaderStart true) s = .next { s.setB (aSyn 0x108) 16 with
        syncOut := some (syncWordOf 2 s.startSeq.toNat), startSeq := s.startSeq + 1, startSent := true }) ∧
    (exec (.leaderStart false) s = .next (s.clrB (aSyn 0x108) 16)) ∧
    (s.startReq = true → s.joined = true → s.rf (aSyn 0x10C) 0 24 ≠ 0 →
      exec .startTimeout s = .next (s.setB (aSyn 0x110) 2)) ∧
    (s.startReq = false → exec .startTimeout s = .next s)) ∧
  (∀ code arg : Nat, code < 16 → arg < 128 → ones16 (syncWordOf code arg) % 2 = 0 ∧
    (syncWordOf code arg).toNat / 2 ^ 12 = 0xB ∧ (syncWordOf code arg).toNat / 2 ^ 8 % 16 = code ∧
    (syncWordOf code arg).toNat / 2 % 128 = arg)

/- Banks, repair, matrix and DMA -------------------------------------------------------------------------- -/

/-- OWNER is written by the management controller, by the Sheaf that owns the bank, and by the STEWARD of a stewarded bank; a write
begins a handover, and any other write, one with another code or one during a handover is refused (R332, R334). Of several writes in
one PCLK cycle the one that stays is judged alone, so that what an earlier one did is taken back (R333). A write of ring-0 code goes
to its bridge as a transaction (R365). The handover ends once no delivered access waits that the owner rule admits, those of the debug port included (so the model
reads R334's accepted accesses of the old owner, log entry 70), at once if it names the owner itself: the owner changes, HANDOVER
clears and BANK is raised (R334, R336). The owner admits its own master code, and 0x41 and
0x42 always pass; during a handover the new owner's accesses wait at their port and those of others are refused (R329, R334). An
AWAKE bank performs the oldest delivered access, those of one master in the order in which its group took them (R361), and answers
it; what it reads and corrects counts, an uncorrectable or poisoned word that it reads answers an error and changes nothing; a read
and an alias write read all words, another write those it covers in part (R327, R328, R344). An access that arrives while the bank
is not AWAKE is held under AUTOWAKE, which clears SLEEP, or behind one that is held (a reading, log entry 168), and is otherwise to be
refused (R340, R341); an access of a non-owner is refused (R330). Retention is entered and left one STATUS.POWER value at a time, and
not while the Gleaner holds a row of the bank (R339, R340, R345). -/
def Obligations.Banks : Prop :=
  (∀ (s : State) (b : Fin 48) (a : Agent) (v : W32),
    let c := field v 0 8
    let s' := s.bridgeWrite a (aBnk b.val 0) v
    s.sleeping = false →
    exec (.ownerWrite b .mgmt v) s = .next (s.bridgeWrite .mgmt (aBnk b.val 0) v) ∧
    exec (.ownerWrite b .dma v) s = .next (s.bridgeWrite .dma (aBnk b.val 0) v) ∧
    (∀ k : Fin 12, exec (.ownerWrite b (.engine k) v) s = .next { s with
      mtxq := insTxn ⟨k.val, .lone, 0x80000000 + aBnk b.val 0, 4, some (natLe 4 v.toNat), s.mqos k.val true, 0, s.eclk, 0⟩ s.mtxq }) ∧
    (s.bus = [] → s.bankWriter b.val a = true → ownerCode c = true → s.bit (aBnk b.val 8) 4 = false →
      s' = { (s.setBank b.val { s.bank b.val with next := some (BitVec.ofNat 8 c) }).setB (aBnk b.val 8) 4 with bus := s'.bus }) ∧
    (s.bus = [] → s.bankWriter b.val a = false ∨ ownerCode c = false ∨ s.bit (aBnk b.val 8) 4 = true →
      s' = { s.setB (aBnk b.val 0xC) 2 with bus := s'.bus }) ∧
    s.bankWriter b.val .mgmt = true ∧ s.bankWriter b.val .dma = false ∧
    (∀ k : Fin 12, s.bankWriter b.val (.engine k) = true ↔
      s.owner b.val = k.val ∨ (stewarded (s.owner b.val) = true ∧ s.rf (aBnk b.val 4) 8 4 = k.val))) ∧
  (∀ (s : State) (b : Fin 48) (a : Agent) (v : W32) (asked : Bool), s.Inv →
    (s.busCycle 0).own.find? (fun p => p.1 == b.val) = some (b.val, asked) →
    asked = true ∨ s.bit (aBnk b.val 8) 4 = false →
    let c := field v 0 8
    let s' := s.ownerBus b.val a v
    (s.bankWriter b.val a = true → ownerCode c = true →
      (s'.bank b.val).next = some (BitVec.ofNat 8 c) ∧ s'.bit (aBnk b.val 8) 4 = true ∧
      (asked = false → s'.bit (aBnk b.val 0xC) 2 = false)) ∧
    (s.bankWriter b.val a = false ∨ ownerCode c = false →
      (asked = true → (s'.bank b.val).next = none) ∧ s'.bit (aBnk b.val 8) 4 = false ∧ s'.bit (aBnk b.val 0xC) 2 = true)) ∧
  (∀ (s : State) (b : Fin 48), s.sleeping = false →
    (∀ n, (s.bank b.val).next = some n → n.toNat = s.owner b.val ∨ (s.bank b.val).acc.any (·.allow) = false →
      exec (.handoverComplete b) s = .next ((((s.setBank b.val { s.bank b.val with next := none }).wf (aBnk b.val 0) 0 8
        n.toNat).clrB (aBnk b.val 8) 4).post rkOther none 14 b.val).poll) ∧
    (∀ n, (s.bank b.val).next = some n → n.toNat ≠ s.owner b.val → (s.bank b.val).acc.any (·.allow) = true →
      exec (.handoverComplete b) s = .next s.poll) ∧
    ((s.bank b.val).next = none → exec (.handoverComplete b) s = .next s.poll)) ∧
  (∀ (s : State) (b : Fin 48) (m : Nat),
    (m = 0x41 ∨ m = 0x42 → s.admission b.val m = some true) ∧
    (m ≠ 0x41 → m ≠ 0x42 → (s.bank b.val).next = none → s.admission b.val m =
      some (decide (s.owner b.val = m ∨ (s.owner b.val = 0x10 ∧ m = 0x40)))) ∧
    (∀ n, m ≠ 0x41 → m ≠ 0x42 → (s.bank b.val).next = some n → n.toNat ≠ s.owner b.val → s.admission b.val m =
      (if n.toNat = m ∨ (n.toNat = 0x10 ∧ m = 0x40) then none else some false))) ∧
  (∀ (s : State) (b : Fin 48) (x : BankAcc) (rest : List BankAcc) (ecc : Ecc),
    let s1 := s.setBank b.val { s.bank b.val with acc := rest }
    let m := masterCode x.txn.master
    let o := (bankPlace x.txn.addr).2.1
    let al := (bankPlace x.txn.addr).2.2
    let q := s1.bankDo m b.val o x.txn.size al x.txn.data ecc
    s.sleeping = false → (s.bank b.val).acc = x :: rest →
    (s.bankBehind b.val x = true → exec (.bankAccess b ecc) s = .next s ∧ exec (.nonowner b) s = .next s) ∧
    (s.bankBehind b.val x = false →
      (x.allow = true → x.asleep = false → s.awake b.val = true → exec (.bankAccess b ecc) s = .next (q.1.answer x.txn q.2)) ∧
      (x.allow = true → x.asleep = true → exec (.bankAccess b ecc) s =
        .next ((s1.bankErr b.val m o x.txn.data.isSome 1).answer x.txn (.err 1))) ∧
      (x.allow = true → x.asleep = false → s.awake b.val = false → exec (.bankAccess b ecc) s = .next (s.clrB (aBnk b.val 4) 0)) ∧
      (x.allow = false → exec (.nonowner b) s =
        .next ((s1.bankErr b.val m o x.txn.data.isSome 0).answer x.txn (.err 0))) ∧
      (x.allow = true → exec (.nonowner b) s = .next s))) ∧
  (∀ (s : State) (x : Txn),
    let b := x.bank
    let put := fun (t : State) (ok asleep : Bool) => { t.setBank b { s.bank b with
      acc := (s.bank b).acc ++ x.beats.map fun y => BankAcc.mk y ok asleep s.nextId } with nextId := s.nextId + 1 }
    (s.admission b (masterCode x.master) ≠ some true → s.toBank x = put s false false) ∧
    (s.admission b (masterCode x.master) = some true →
      (s.awake b = true → s.toBank x = put s true false) ∧
      (s.awake b = false → s.bit (aBnk b 4) 1 = true ∨ s.wakeWanted b = true →
        s.toBank x = put (s.clrB (aBnk b 4) 0) true false) ∧
      (s.awake b = false → s.bit (aBnk b 4) 1 = false → s.wakeWanted b = false → s.toBank x = put s true true))) ∧
  (∀ (s : State) (m b o n : Nat) (al : Alias) (ecc : Ecc), 0 < n →
    let c := if s.inSaveBuffer b o then s else s.bankCe b ecc.ce
    let bad := fun ws : List Nat => ecc.ue = true ∨ ∃ k ∈ ws, s.wordPois k = true
    (¬ bad (bankWords b o n) → s.bankDo m b o n al none ecc = (c, .ok)) ∧
    (bad (bankWords b o n) → s.bankDo m b o n al none ecc = (c.bankErr b m o false 2, .err 2)) ∧
    (∀ l : List Byte,
      let put := fun t : State => (bankWords b o n).foldl (fun t k => t.setWordPois k false) (t.aliasWrite al (bankKey b o) l)
      let part := (if o % 8 = 0 then [] else [bankWord b o]) ++ if (o + n) % 8 = 0 then [] else [bankWord b (o + n - 1)]
      (al = .normal → part = [] → s.bankDo m b o n al (some l) ecc = (put s, .ok)) ∧
      (al = .normal → part ≠ [] → ¬ bad part → s.bankDo m b o n al (some l) ecc = (put c, .ok)) ∧
      (al = .normal → part ≠ [] → bad part → s.bankDo m b o n al (some l) ecc = (c.bankErr b m o true 2, .err 2)) ∧
      (al ≠ .normal → ¬ bad (bankWords b o n) → s.bankDo m b o n al (some l) ecc = (put c, .ok)) ∧
      (al ≠ .normal → bad (bankWords b o n) → s.bankDo m b o n al (some l) ecc = (c.bankErr b m o true 2, .err 2)))) ∧
  (∀ (s : State) (b : Nat) (m o kind : Nat) (w : Bool), s.Inv → kind ≤ 2 →
    let s' := s.bankErr b m o w kind
    s'.bit (aBnk b 0xC) (if kind = 2 then 4 else kind) = true ∧ s'.mem = s.mem ∧
    (s.rf (aBnk b 0xC) 0 2 ≠ 0 ∨ s.bit (aBnk b 0xC) 4 = true → s'.rd (aBnk b 0x10) = s.rd (aBnk b 0x10)) ∧
    (s.rf (aBnk b 0xC) 0 2 = 0 → s.bit (aBnk b 0xC) 4 = false →
      s'.rd (aBnk b 0x10) = BitVec.ofNat 32 (o % 2 ^ 22 + 2 ^ 31))) ∧
  (∀ (s : State) (al : Alias) (key : Nat) (l : List Byte), s.Inv →
    (∀ i < l.length, (s.aliasWrite al key l).byte (key + i) = match al with
      | .normal => l.getD i 0
      | .set => s.byte (key + i) ||| l.getD i 0
      | .clear => s.byte (key + i) &&& ~~~(l.getD i 0)) ∧
    (∀ a, a < key ∨ key + l.length ≤ a → (s.aliasWrite al key l).byte a = s.byte a)) ∧
  (∀ (s : State) (b : Fin 48), s.sleeping = false →
    (s.power_ b.val = 0 → s.bit (aBnk b.val 4) 0 = true → s.bit (aBnk b.val 8) 5 = false → (s.bank b.val).acc = [] →
      exec (.retentionEntry b) s = .next (s.wf (aBnk b.val 8) 0 2 1)) ∧
    (s.power_ b.val ≠ 0 ∨ s.bit (aBnk b.val 4) 0 = false ∨ s.bit (aBnk b.val 8) 5 = true ∨ (s.bank b.val).acc ≠ [] →
      exec (.retentionEntry b) s = .next s) ∧
    (s.power_ b.val = 1 → exec (.retentionEntered b) s = .next (s.wf (aBnk b.val 8) 0 2 2)) ∧
    (s.power_ b.val ≠ 1 → exec (.retentionEntered b) s = .next s) ∧
    (s.power_ b.val = 2 → s.bit (aBnk b.val 4) 0 = false ∨ s.wakeWanted b.val = true → s.Inv → Runs (.bankWake b) s fun s' =>
      s'.power_ b.val = 3 ∧ s'.bit (aBnk b.val 4) 0 = false ∧ OnlyRegs s s' [aBnk b.val 4, aBnk b.val 8]) ∧
    (s.power_ b.val ≠ 2 → s.wakeWanted b.val = false → exec (.bankWake b) s = .next s) ∧
    (s.power_ b.val = 3 → exec (.bankAwake b) s = .next (s.wf (aBnk b.val 8) 0 2 0)) ∧
    (s.power_ b.val ≠ 3 → exec (.bankAwake b) s = .next s))

/-- Once its interval has passed, the Gleaner copies the next row of the pass into its save buffer, names it and shows ACTIVE and the
bank's GLEANING, counts what the copy corrected, and from then on carries the words it could not correct as poisoned; the end of the row
repairs a row whose March test failed, clears both bits and goes on (that a row is two commands, the copy and its end, is the model's
choice, log entries 67 and 126; that a poisoned word of the state store stays so until what it holds changes is a reading, log entry
152); the last row of a pass starts the next and counts PASSES; with EN 0 no row begins (R328, R331, R343 to R345). A row that fails takes the lowest unused spare of its bank and queues a repair record; with none
left it reports exhaustion (R346). Queued records are appended to the NV map while it has room (R347, R479). A DRAM controller
performs the oldest access of its channel, those of one master in order (R361): a poisoned or uncorrectable burst that is read
answers an error, is recorded and captured (that a poisoned one counts as well is a reading, log entry 36), a corrected one is counted, a whole burst is written without a read (R350, R352); an offset is
stored at the place of the stacks that MAP.MODE gives it (R349). Scrub reads each burst once in a pass and counts the passes (R351).
Soft repair takes the oldest candidate of its channel and carries its unreadable bursts as poisoned, or reports that spares ran out
(R352, R479). -/
def Obligations.RepairAndDram : Prop :=
  (∀ (s : State) (r : MarchResult),
    ((s.bit (aGln 0) 0 = false ∨ s.eclk < s.glnDue) ∧ s.bit (aGln 4) 31 = false ∨ s.sleeping = true →
      exec (.gleanerRow r) s = .next s) ∧
    (s.bit (aGln 4) 31 = true → s.sleeping = false → exec (.gleanerRow r) s = .next (s.gleanEnd r)) ∧
    (s.bit (aGln 0) 0 = true → s.glnDue ≤ s.eclk → s.bit (aGln 4) 31 = false → s.sleeping = false → s.Inv →
      let p := s.glnSkip 48 s.glnPos % glnRows
      let t := glnTarget p
      Runs (.gleanerRow r) s fun s' =>
        s'.glnPos = p ∧ s'.mem = s.mem ∧ s'.ths = s.ths ∧ s'.bit (aGln 4) 31 = true ∧
        s'.rd (aGln 4) = BitVec.ofNat 32 (t.1 + t.2.1 % 64 * 2 ^ 4 + t.2.2 % 2 ^ 17 * 2 ^ 12 + 2 ^ 31) ∧
        (∀ w ∈ r.poisoned, s'.wordBad (glnWord t.1 t.2.1 t.2.2 w.val) = true) ∧
        (∀ k, (∀ w ∈ r.poisoned, k ≠ glnWord t.1 t.2.1 t.2.2 w.val) → s'.wordBad k = s.wordBad k) ∧
        ((∃ w : Fin 32, s'.wordBad (glnWord t.1 t.2.1 t.2.2 w.val) = true) → s'.bit (aGln 0x10) 2 = true) ∧
        (t.1 = 0 → s'.bit (aBnk t.2.1 8) 5 = true ∧
          (s'.rd (aBnk t.2.1 0x18)).toNat = min ((s.rd (aBnk t.2.1 0x18)).toNat + r.corrected) 0xFFFFFFFF ∧
          (r.poisoned ≠ [] → s'.bit (aBnk t.2.1 0xC) 4 = true)))) ∧
  (∀ (s : State) (r : MarchResult), s.Inv → s.glnPos < glnRows →
    let t := glnTarget s.glnPos
    let s' := s.gleanEnd r
    s'.bit (aGln 4) 31 = false ∧ s'.mem = s.mem ∧ s'.ths = s.ths ∧
    (s.glnPos + 1 < glnRows → s'.glnPos = s.glnPos + 1 ∧ s'.rd (aGln 8) = s.rd (aGln 8)) ∧
    (glnRows ≤ s.glnPos + 1 → s'.glnPos = 0 ∧ s'.rd (aGln 8) = s.rd (aGln 8) + 1) ∧
    s'.glnDue = s.eclk + 125 * s.rf (aGln 0) 8 16 * s.rf 0x40 16 5 ∧ (∀ k, s'.wordBad k = s.wordBad k) ∧
    (r.mismatch = true → s'.bit (aGln 0x10) 0 = true) ∧
    (r.mismatch = false → s.glnPos + 1 < glnRows → s'.repairQ = s.repairQ) ∧
    (t.1 = 0 → s'.bit (aBnk t.2.1 8) 5 = false)) ∧
  (∀ inst row w : Nat, glnWord 0 inst row w = inst * 0x80000 + 32 * row + w ∧
    glnWord 1 inst row w = progWord0 + inst * 0x40000 + 32 * row + w ∧
    glnWord 2 inst row w = ctxWord0 + 32 * row + w ∧ glnWord 3 inst row w = recWord0 + 32 * row + w) ∧
  (∀ (s : State) (k : Nat) (v : TaskRec) (j : Nat), s.Inv → j < 3 → s.wordBad (recWord0 + (3 * k + j)) = true →
    let s' := s.setTask k v
    s'.wordBad (recWord0 + (3 * k + j)) = decide (s'.recWord (3 * k + j) = s.recWord (3 * k + j)) ∧
    ∀ i, i / 3 ≠ k → s'.wordBad (recWord0 + i) = s.wordBad (recWord0 + i)) ∧
  (∀ (s : State) (inst : Fin 48) (row : Nat), s.Inv → row < 2 ^ 14 →
    (∀ i, s.freeSpare inst.val = some i → let s' := s.softRepair 0 inst.val row
      s'.rd (aBnk inst.val (0x100 + 4 * i)) = BitVec.ofNat 32 (row + 2 * 2 ^ 28 + 2 ^ 31) ∧
      s'.repairQ = s.repairQ ++ [⟨1, 1, inst.val, row⟩] ∧ s'.bit (aGln 0x10) 0 = true ∧
      s'.rd (aGln 0xC) = s.rd (aGln 0xC) + 1 ∧ s'.mem = s.mem ∧
      ∀ j < 32, j ≠ i → s'.rd (aBnk inst.val (0x100 + 4 * j)) = s.rd (aBnk inst.val (0x100 + 4 * j))) ∧
    (s.freeSpare inst.val = none → let s' := s.softRepair 0 inst.val row
      s'.repairQ = s.repairQ ∧ s'.bit (aGln 0x10) 1 = true ∧ s'.bit (aBnk inst.val 0xC) 5 = true)) ∧
  (∀ (s : State) (r : Repair) (rest : List Repair),
    (s.repairQ = r :: rest → s.nv.repairs.length < 4096 → exec .repairMapWrite s =
      .next (({ s with repairQ := rest }.wf (aNvc 4) 0 13 (s.nv.repairs.length + 1)).nvPut
        { s.nv with repairs := s.nv.repairs ++ [r] })) ∧
    (s.repairQ = r :: rest → 4096 ≤ s.nv.repairs.length → exec .repairMapWrite s =
      .next (({ s with repairQ := rest }.setB (aNvc 8) 0).setB (aHlt 0) 10)) ∧
    (s.repairQ = [] → exec .repairMapWrite s = .next s)) ∧
  (∀ (s : State) (k : Fin 16) (ecc : Ecc) (t : Txn) (rest : List (Nat × Txn)),
    let q := { s with dramq := rest }.dramDo (t.addr - 0x1000000000) t.size t.data ecc
    (s.sleeping = false → takeChan k.val s.dramq = some (t, rest) →
      (s.dramBehind k.val t.master = false → exec (.dramAccess k ecc) s = .next (q.1.answer t q.2)) ∧
      (s.dramBehind k.val t.master = true → exec (.dramAccess k ecc) s = .next s)) ∧
    (takeChan k.val s.dramq = none → exec (.dramAccess k ecc) s = .next s)) ∧
  (∀ (s : State) (o n : Nat) (ecc : Ecc),
    let bad := ecc.ue = true ∨ s.isPoison (s.burstOf o) = true
    (bad → s.dramDo o n none ecc = (s.dramUe o, .err 2)) ∧
    (¬bad → s.dramDo o n none ecc = (if ecc.ce = 0 then s else s.dramCe o, .ok)) ∧
    (∀ l, (n = 32 → s.dramDo o n (some l) ecc = ((s.setDram o l).setPoison (s.burstOf o) false, .ok)) ∧
      (n ≠ 32 → bad → s.dramDo o n (some l) ecc = (s.dramUe o, .err 2)) ∧
      (n ≠ 32 → ¬bad → s.dramDo o n (some l) ecc =
        (((if ecc.ce = 0 then s else s.dramCe o).setDram o l).setPoison (s.burstOf o) false, .ok)) ∧
      (s.Inv → o + l.length ≤ 2 ^ 35 →
        ∀ i < l.length, (s.setDram o l).byte (0x1000000000 + s.dramCell (o + i)) = l.getD i 0)) ∧
    (s.Inv → let ch := s.dramChan o
      (s.dramUe o).rd (aDrcCh ch 4) = BitVec.ofNat 32 (min ((s.rd (aDrcCh ch 4)).toNat + 1) 0xFFFFFFFF) ∧
      (s.dramUe o).bit (aDrc 0xC) 1 = true ∧
      (s.dramCe o).rd (aDrcCh ch 0) = BitVec.ofNat 32 (min ((s.rd (aDrcCh ch 0)).toNat + 1) 0xFFFFFFFF) ∧
      (s.dramCe o).bit (aDrc 0xC) 0 = true ∧ (s.dramCe o).mem = s.mem ∧ (s.dramUe o).mem = s.mem)) ∧
  (∀ (s : State) (k : Fin 16) (burst : BitVec 26) (ecc : Ecc),
    let t := (s.dramDo (s.dramOffset k.val (32 * burst.toNat)) 32 none ecc).1
    let c := k.val * 2 ^ 26 + burst.toNat
    let l := spSet (fun _ => false) s.scrubbed c true
    (s.rf (aDrc 4) 0 16 = 0 ∨ s.sleeping = true ∨ spGet (fun _ => false) s.scrubbed c = true →
      exec (.scrubRead k burst ecc ()) s = .next s) ∧
    (s.rf (aDrc 4) 0 16 ≠ 0 → s.sleeping = false → spGet (fun _ => false) s.scrubbed c = false →
      (l.length < 2 ^ 30 → exec (.scrubRead k burst ecc ()) s = .next { t with scrubbed := l }) ∧
      (2 ^ 30 ≤ l.length → exec (.scrubRead k burst ecc ()) s =
        .next ({ t with scrubbed := [], rowCe := [] }.bump (aDrc 0x10) 1)))) ∧
  (∀ (s : State) (k : Fin 16) (c : Nat) (rest : List Nat) (bad : BitVec 32),
    let s1 := { s with pprq := rest }
    let s2 := ((List.range 32).filter fun i => bad.getLsbD i).foldl (fun t i => t.setPoison (32 * c + i) true) s1
    let s3 := (s2.wf (aDrcCh k.val 0x10) 0 16 (s.rf (aDrcCh k.val 0x10) 0 16 + 1)).setB (aDrc 0xC) 2
    s.bit (aDrc 8) 8 = true → s.sleeping = false → takeCand k.val s.pprq = some (c, rest) →
    (s.bit (aDrc 8) 9 = true → exec (.softPpr k ⟨true, bad⟩) s =
      .next { s3 with repairQ := s3.repairQ ++ [⟨5, 1, k.val, c % 2 ^ 21⟩] }) ∧
    (s.bit (aDrc 8) 9 = false → exec (.softPpr k ⟨true, bad⟩) s = .next s3) ∧
    exec (.softPpr k ⟨false, bad⟩) s = .next ((s1.setB (aDrc 0xC) 3).setB (aHlt 0) 10)) ∧
  (∀ (s : State) (k : Fin 16) (left : Bool) (bad : BitVec 32),
    s.bit (aDrc 8) 8 = false ∨ takeCand k.val s.pprq = none → exec (.softPpr k ⟨left, bad⟩) s = .next s)

/-- A port is occupied for as many cycles as its last grant has beats; then it grants the head with the highest effective QoS among
those its target can take, the first master after RR_PTR among equals (R358); the grant leaves the queue and reaches its target;
without a head that can be granted nothing is granted. A register access granted at port 15 or 16 is made by its bridge for the
agent behind the master (R365); one of another size or alignment gets an error and changes no register (R4). CNT_CLEAR makes every WAIT_MAX read 0. A DMA channel is enabled if its
configuration passes the checks, and else reports a bad one (R368; that EN = 1 written to an enabled channel changes nothing is a
reading, log entry 72). A trigger starts a block of a waiting channel; during a block it
pends once and then overruns (R369). ABORT stops a channel, after the element in progress (R373). An element moves from its source
to its destination, in memory as a read and then a write of the DMA's matrix port (R371), and counts when both are done; an error on
either side stops the channel and captures the address (R370, R373; that an element is a read and then a write transaction, one at a
time, and when PENDING clears are readings, log entries 74 and 73). The end of a block counts it, and ends the channel, waits for a
trigger, or starts the pending block (R372). -/
def Obligations.MatrixAndDma : Prop :=
  (∀ (s : State) (t : Fin 17) (n : Nat), s.sleeping = false →
    let s1 := (s.decodeErr.ageHeads t.val n).fetchAll
    (n < s.portBusy t.val → exec (.transactionGrant t n) s = .next (s1.occupy t.val (s.portBusy t.val - n)).poll) ∧
    (∀ x, s.portBusy t.val ≤ n → s1.winner t.val = some x → exec (.transactionGrant t n) s =
      .next ((({ s1 with mtxq := dropTxn x s1.mtxq }.granted_ t.val x).occupy t.val x.beats.length).toTarget t.val x).poll) ∧
    (s.portBusy t.val ≤ n → s1.winner t.val = none → exec (.transactionGrant t n) s = .next (s1.occupy t.val 0).poll)) ∧
  (∀ (s : State) (t : Fin 17),
    let step := s.rf (aMtx (0x80 + 4 * t.val)) 0 8
    (∀ x, s.winner t.val = some x → (∃ m < 22, s.headAt t.val m = some x) ∧ s.grantable t.val x = true ∧
      ∀ m < 22, ∀ y, s.headAt t.val m = some y → s.grantable t.val y = true →
        effQos step y.qos y.wait ≤ effQos step x.qos x.wait) ∧
    (s.winner t.val = none ↔ ∀ m < 22, ∀ y, s.headAt t.val m = some y → s.grantable t.val y = false)) ∧
  (∀ step q w : Nat, effQos step 15 w = 15 ∧ (q ≠ 15 → effQos 0 q w = q) ∧
    (q ≠ 15 → 0 < step → effQos step q w = min 14 (q + w / step))) ∧
  (∀ s : State, s.sleeping = false → s.Inv → Runs .mtxCntClear s fun s' =>
    (∀ a, aMtx 0x100 ≤ a → a < aMtx 0x180 → s'.rd a = regReset a) ∧
    (∀ a, a < aMtx 0x100 ∨ aMtx 0x180 ≤ a → s'.rd a = s.rd a) ∧ s' = { s.mgmtIn (aMtx 0x18C) true with regs := s'.regs }) ∧
  (∀ (s : State) (t : Fin 17) (x : Txn), 15 ≤ t.val →
    let g := busAgent x.master
    let a := x.addr - 0x80000000
    (x.size ≠ 4 ∨ a % 4 ≠ 0 → s.toTarget t.val x = s.respond x (.error 3)) ∧
    (∀ l, x.size = 4 → a % 4 = 0 → x.data = some l → x.for_ = .lone → s.toTarget t.val x = s.bridgeWrite g a (BitVec.ofNat 32 (leNat l))) ∧
    (x.size = 4 → a % 4 = 0 → x.data = none → s.toTarget t.val x =
      (s.bridgeRead g a).1.respond x (.ok (natLe 4 (s.bridgeRead g a).2.toNat)))) ∧
  (∀ (s : State) (c : Fin 8),
    let good := s.dmaSideOk c.val false = true ∧ s.dmaSideOk c.val true = true ∧ trigCode (s.rf (aDma c.val 0x18) 0 7) = true
    let b := s.mgmtIn (aDma c.val 0x1C) true
    s.sleeping = false →
    (s.bit (aDma c.val 0x1C) 0 = false → good → exec (.dmaEnable c) s =
      .next ((((b.setB (aDma c.val 0x1C) 0).wf (aDma c.val 0x20) 0 3 1).wf (aDma c.val 0x20) 16 16 0).setDma c.val ⟨0, 0, none, false⟩)) ∧
    (s.bit (aDma c.val 0x1C) 0 = false → ¬good → exec (.dmaEnable c) s = .next (b.flag (aDma c.val 0x24) 2)) ∧
    (s.bit (aDma c.val 0x1C) 0 = true → exec (.dmaEnable c) s = .next b) ∧
    (s.dmaState c.val = 1 → exec (.dmaGo c) s = .next ((b.wf (aDma c.val 0x20) 0 3 2).setDma c.val
      { s.dmaCh c.val with left := s.dmaBlock c.val })) ∧
    (s.dmaState c.val = 2 → s.bit (aDma c.val 0x20) 4 = false → exec (.dmaGo c) s = .next (b.setB (aDma c.val 0x20) 4)) ∧
    (s.dmaState c.val = 2 → s.bit (aDma c.val 0x20) 4 = true → exec (.dmaGo c) s = .next (b.flag (aDma c.val 0x24) 0)) ∧
    (s.dmaState c.val ≠ 1 → s.dmaState c.val ≠ 2 → exec (.dmaGo c) s = .next b) ∧
    (s.dmaBusy c.val = true → exec (.dmaAbort c) s = .next (b.setDma c.val { s.dmaCh c.val with stop := true })) ∧
    (s.dmaBusy c.val = false → exec (.dmaAbort c) s = .next ((((b.clrB (aDma c.val 0x1C) 0).wf (aDma c.val 0x20) 0 3 0).clrB
      (aDma c.val 0x20) 4).setDma c.val { s.dmaCh c.val with stop := false }))) ∧
  (∀ (s : State) (src : BitVec 7) (l : List Nat), s.sleeping = false →
    (takeNat src.toNat s.dmaq = some l → exec (.dmaTrigger src) s =
      .next (((List.range 8).filter fun c => s.rf (aDma c 0x18) 0 7 == src.toNat).foldl State.dmaTrigger { s with dmaq := l })) ∧
    (src.toNat ∉ s.dmaq → exec (.dmaTrigger src) s = .next s)) ∧
  (∀ (s s1 : State) (c : Nat) (l : List Byte) (k : Nat),
    let s0 := { s with dmaLast := c }
    let d := s.dmaCh c
    let src := s.dmaAddr c false d.moved
    let dst := s.dmaAddr c true d.moved
    let read := s0.dmaRead c src (s.dmaElem c)
    s.sleeping = false → s.dmaServes = some c →
    (d.elem = none →
      (read = (s1, none) → exec (.dmaElement () ()) s = .next s1.poll) ∧
      (read = (s1, some (.error k)) → exec (.dmaElement () ()) s = .next (s1.dmaError c src).poll) ∧
      (read = (s1, some (.ok l)) → exec (.dmaElement () ()) s =
        .next ((s1.setDma c { s1.dmaCh c with elem := some l }).dmaStore c l).poll)) ∧
    (d.elem = some l →
      (s0.dmaPut c dst l = (s1, none) → exec (.dmaElement () ()) s = .next s1.poll) ∧
      (s0.dmaPut c dst l = (s1, some false) → exec (.dmaElement () ()) s = .next (s1.dmaError c dst).poll) ∧
      (s0.dmaPut c dst l = (s1, some true) →
        let e := s1.dmaCh c
        let s2 := s1.setDma c ⟨e.moved + 1, e.left - 1, none, e.stop⟩
        exec (.dmaElement () ()) s = .next (if e.stop then s2.dmaIdle c else s2).poll))) ∧
  (∀ (s : State) (c a n : Nat), s.xferOf (.dma c) = none → 0 < n → (∀ o, regionOf a ≠ .ctrl o) →
    s.dmaRead c a n = (s.xferStart (.dma c) 20 0 32 false a n none, none) ∧
    ∀ l : List Byte, l.length = n → s.dmaPut c a l = (s.xferStart (.dma c) 20 0 32 false a n (some l), none)) ∧
  (∀ (s : State) (c a : Nat), s.Inv →
    let t := s.dmaError c a
    t.dmaState c = 4 ∧ t.bit (aDma c 0x1C) 0 = false ∧ t.bit (aDma c 0x24) 1 = true ∧
    t.rd (aDma c 0x28) = BitVec.ofNat 32 a ∧ t.rd (aDma c 0x2C) = BitVec.ofNat 32 (a / 2 ^ 32 % 256) ∧ t.mem = s.mem ∧
    t.evq = s.evq ++ [EvReq.mk rkDma none 9 (BitVec.ofNat 32 c)]) ∧
  (∀ s : State, s.dmaServes = none → exec (.dmaElement () ()) s = .next s) ∧
  (∀ (s : State) (c : Nat), s.dmaServes = some c → s.dmaBusy c = true ∨ (s.dmaState c = 2 ∧ 0 < (s.dmaCh c).left)) ∧
  (∀ (s : State) (c : Fin 8),
    let n := (s.rf (aDma c.val 0x20) 16 16 + 1) % 2 ^ 16
    let total := s.rf (aDma c.val 0x14) 16 16
    let s1 := s.wf (aDma c.val 0x20) 16 16 n
    let s2 := if s.bit (aDma c.val 0x10) 20 then s1.post rkDma none 9 c.val else s1
    s.sleeping = false →
    (s.dmaState c.val ≠ 2 ∨ (s.dmaCh c.val).left ≠ 0 ∨ s.dmaBusy c.val = true → exec (.blockEnd c) s = .next s) ∧
    (s.dmaState c.val = 2 → (s.dmaCh c.val).left = 0 → s.dmaBusy c.val = false → total ≠ 0 → n = total → s.Inv → Runs (.blockEnd c) s fun s' =>
      s'.dmaState c.val = 3 ∧ s'.bit (aDma c.val 0x1C) 0 = false ∧ s'.rf (aDma c.val 0x20) 16 16 = n ∧
      s'.evq = s.evq ++ [EvReq.mk rkDma none 9 (BitVec.ofNat 32 c.val)] ∧ s'.dmaq = s.dmaq ++ [0x28 + c.val] ∧
      s'.mem = s.mem) ∧
    (s.dmaState c.val = 2 → (s.dmaCh c.val).left = 0 → s.dmaBusy c.val = false → total = 0 ∨ n ≠ total →
      (s.bit (aDma c.val 0x20) 4 = true → exec (.blockEnd c) s = .next ((s2.clrB (aDma c.val 0x20) 4).dmaBegin c.val)) ∧
      (s.bit (aDma c.val 0x20) 4 = false → exec (.blockEnd c) s = .next (s2.wf (aDma c.val 0x20) 0 3 1))))

/-- Where CLK names TREF a channel's divider passes every DIV-th edge, at least every 16th, while TREF is present (R374). A tick of a
running channel counts, gated or not, from 0 to RELOAD; it wraps at RELOAD and matches at CMP (R375, R377, R380). MATCH and WRAP are
such ticks. The gate input passes two flip-flops that the ticks clock, so that a level takes effect at the second or third tick
after it (R380, R381). A gate that stays active for MAXGATE ticks raises its sticky bit and the event once (R382). Two moves of a raw
gate between ticks set TOO_FAST, of a channel that ticks (R381). Actions load, stop or start their channel at the edge after the
one that raised them, after its ticks (R388); ACTION ends an edge, and so does a tick or a slow step of a channel not above the last,
which finds what those actions left; a tick, a slow step and ACTION end the PCLK cycle of the bus (the model's choices, log entry 130; MAXGATE counts ticks whatever GATED says, MATCH and WRAP are ticks, and slow mode is entered and left at SCLK
edges by readings, log entries 75, 76, 77, 83 and 131). A group start loads the count of every channel of the mask with its phase and starts it; SPREAD spaces the phases
of the unlinked ones evenly (R389, R390). In slow mode, entered and left at an SCLK edge, a step adds STEP modulo RELOAD + 1 (R391).
A read of a linked pair's COUNT holds the high word; both words are those before the writes of the PCLK cycle (R376, R385). -/
def Obligations.Timers : Prop :=
  (∀ (s : State) (c : Fin 32),
    let k := spGet (fun _ => 0) s.tmrDiv c.val + 1
    let put := fun n : Nat => { s with tmrDiv := spSet (fun _ => 0) s.tmrDiv c.val n }
    (s.rf (aTmr c.val 4) 0 2 ≠ 1 → s.divided c.val = (s, true)) ∧
    (s.rf (aTmr c.val 4) 0 2 = 1 → s.bit (aSyn 4) 31 = false → s.divided c.val = (s, false)) ∧
    (s.rf (aTmr c.val 4) 0 2 = 1 → s.bit (aSyn 4) 31 = true →
      (k < max 16 (s.rf (aTmr c.val 8) 0 16) → s.divided c.val = (put k, false)) ∧
      (max 16 (s.rf (aTmr c.val 8) 0 16) ≤ k → s.divided c.val = (put 0, true)))) ∧
  (∀ (s : State) (c : Fin 32) (pin : Bool),
    let d := s.divided c.val
    let t := d.1.edgeOf c.val
    let ticks := d.2 && t.ticks c.val
    (ticks = false → exec (.tick c pin) s = .next d.1) ∧
    (ticks = true → exec (.tick c pin) s = .next (t.tickRun c.val pin)) ∧
    (s.counts c.val = false → s.tickRun c.val pin = s.gateTick c.val pin) ∧
    (s.counts c.val = true → s.tickRun c.val pin =
      ((s.gateTick c.val pin).setTmrVal c.val 0x14 (s.tmrNext c.val)).tmrEvents c.val (s.matches c.val) (s.wraps c.val)) ∧
    (c.val < s.tmrEdge → ∃ u, exec .action s = .next u ∧ s.edgeOf c.val = { u with tmrEdge := c.val + 1, bus := [] }) ∧
    (s.tmrEdge ≤ c.val → s.edgeOf c.val = { s with tmrEdge := c.val + 1, bus := [] }) ∧
    (ticks = true → t.counts c.val = true → s.Inv → Runs (.tick c pin) s fun s' =>
      s'.tmrVal c.val 0x14 = (if t.tmrVal c.val 0xC ≤ t.tmrVal c.val 0x14 then 0 else t.tmrVal c.val 0x14 + 1) ∧
      s'.mem = s.mem ∧ s'.ths = s.ths ∧ s'.bus = [] ∧
      (∀ k : Fin 32, k.val ≠ c.val → k.val ≠ c.val + 1 → s'.rd (aTmr k.val 0x14) = t.rd (aTmr k.val 0x14))) ∧
    (ticks = true → t.counts c.val = true → t.matches c.val = true → exec (.match c pin) s = exec (.tick c pin) s) ∧
    (ticks = false ∨ t.counts c.val = false ∨ t.matches c.val = false → exec (.match c pin) s = .next s) ∧
    (ticks = true → t.counts c.val = true → t.wraps c.val = true → exec (.wrap c pin) s = exec (.tick c pin) s) ∧
    (ticks = false ∨ t.counts c.val = false ∨ t.wraps c.val = false → exec (.wrap c pin) s = .next s) ∧
    (ticks = true → t.gateAt c.val = true → t.gateMaxed c.val = true → s.Inv → Runs (.maxgate c pin) s fun s' =>
      s'.bit (aTmr c.val 0x2C) 1 = true ∧ s'.bit (aTmr c.val 0x30) 1 = true ∧
      EvReq.mk rkTmr none 6 (BitVec.ofNat 32 c.val) ∈ s'.evq ∧ s'.mem = s.mem) ∧
    (ticks = false ∨ t.gateAt c.val = false ∨ t.gateMaxed c.val = false → exec (.maxgate c pin) s = .next s) ∧
    (s.ticks c.val = true → gateSource (s.rf (aTmr c.val 4) 8 7) = true →
      exec (.tooFast c) s = .next (s.setB (aTmr c.val 0x30) 0)) ∧
    (s.ticks c.val = false ∨ gateSource (s.rf (aTmr c.val 4) 8 7) = false → exec (.tooFast c) s = .next s)) ∧
  (∀ (s : State) (c : Fin 32) (pin : Bool),
    let g := s.rf (aTmr c.val 4) 8 7
    let high := s.bit (aTmr c.val 4) 4
    let x := s.gateIn c.val pin
    let f := s.gateFf c.val
    (g < 4 → x = (pin == high)) ∧
    (0x20 ≤ g → g < 0x40 → x = (s.bit (aHlt (0x300 + 4 * (g - 0x20))) 31 == high)) ∧
    (0x40 ≤ g → x = (s.bit (aLn (g - 0x40) 0x14) 14 == high)) ∧ (4 ≤ g → g < 0x20 → x = false) ∧
    ∃ v fresh, s.gateSample c.val pin = { s with
        fresh := fresh, tmrGate := spSet (fun _ => (false, false, false)) s.tmrGate c.val (x, v, f.2.1) } ∧
      (x = f.1 → v = x) ∧ (v = x ∨ v = f.1)) ∧
  (∀ s : State,
    let due := s.tmrDue
    let s1 := { s with tmrDue := s.tmrActs, tmrActs := [], tmrEdge := 0, bus := [] }
    (due = [] → exec .action s = .next s1) ∧
    ∀ k : Fin 32, let b := s.tmrBase k.val
      (due = [(k.val, 1)] → exec .action s = .next (s1.setB (aTmr b 0) 0)) ∧
      (due = [(k.val, 2)] → exec .action s = .next (s1.clrB (aTmr b 0) 0)) ∧
      (due = [(k.val, 1), (k.val, 2)] → exec .action s = .next (s1.clrB (aTmr b 0) 0)) ∧
      (due = [(k.val, 3)] → exec .action s = .next (s1.setTmrVal b 0x14 (s.tmrVal b 0x1C)))) ∧
  (∀ (s : State) (spread : Bool), s.sleeping = false → s.Inv → Runs (.groupStart spread) s fun s' =>
    let un := s.groupChans.filter fun c => !s.tmrLinked c
    (∀ c ∈ s.groupChans, s'.bit (aTmr c 0) 0 = true ∧ s'.tmrVal c 0x14 = s'.tmrVal c 0x1C) ∧
    (∀ c : Fin 32, c.val ∉ s.groupChans → s'.bit (aTmr c.val 0) 0 = s.bit (aTmr c.val 0) 0) ∧
    (spread = false → ∀ c : Fin 32, s'.rd (aTmr c.val 0x1C) = s.rd (aTmr c.val 0x1C)) ∧
    (spread = true → ∀ i c, un[i]? = some c → s'.rd (aTmr c 0x1C) =
      BitVec.ofNat 32 (i * ((s.rd (aTmr c 0xC)).toNat + 1) / un.length)) ∧ s' = { s.mgmtIn (aTmrBlk 0x1004) true with regs := s'.regs }) ∧
  (∀ old step r cmp : Nat, (slowStep old step r cmp).1 = (old + step) % (r + 1) ∧
    (slowStep old step r cmp).2.1 = decide (r < old + step)) ∧
  (∀ (s : State) (c : Fin 32),
    let s1 := s.edgeOf c.val
    let st := s1.rf (aTmr c.val 0x28) 0 24
    let q := slowStep (s1.tmrVal c.val 0x14) st (s1.tmrVal c.val 0xC) (s1.tmrVal c.val 0x10)
    let mode := fun t : State =>
      { t with tmrSlow := spSet (fun _ => false) t.tmrSlow c.val (s.bit aDbgHalt 0 || s.sleeping) }
    (s.tmrBase c.val = c.val → s.inSlow c.val = true → s1.bit (aTmr c.val 0) 0 = true → st ≤ s1.tmrVal c.val 0xC + 1 →
      exec (.slowStep c) s = .next (mode ((s1.setTmrVal c.val 0x14 q.1).tmrEvents c.val q.2.2 q.2.1))) ∧
    (s.tmrBase c.val = c.val → s.inSlow c.val = true → s1.bit (aTmr c.val 0) 0 = true → s1.tmrVal c.val 0xC + 1 < st →
      exec (.slowStep c) s =
        .next (mode (((s1.setB (aTmr c.val 0x30) 2).setTmrVal c.val 0x14 q.1).tmrEvents c.val q.2.2 q.2.1))) ∧
    (s.tmrBase c.val = c.val → s.inSlow c.val = false ∨ s1.bit (aTmr c.val 0) 0 = false → exec (.slowStep c) s = .next (mode s)) ∧
    (s.tmrBase c.val ≠ c.val → exec (.slowStep c) s = .next s)) ∧
  (∀ (s : State) (p : Fin 16), s.sleeping = false →
    let b := s.mgmtIn (aTmr (2 * p.val) 0x14) false
    let now := fun c => b.busWord (aTmr c 0x14) (s.rd (aTmr c 0x14))
    (s.bus = [] → ∀ c, now c = s.rd (aTmr c 0x14)) ∧
    (s.tmrLinked (2 * p.val) = true → exec (.tmrCountRead p) s =
      .next { b.wr (aTmr (2 * p.val) 0x18) (now (2 * p.val + 1)) with busOut := now (2 * p.val) }) ∧
    (s.tmrLinked (2 * p.val) = false → exec (.tmrCountRead p) s = .next { b with busOut := now (2 * p.val) })) ∧
  (∀ (s : State) (a : Nat) (v w : W32), (s.busCycle (busOf a)).before.find? (fun p => p.1 == a) = some (a, w) →
    s.busWord a v = w)

/- The host link and its commands ------------------------------------------------------------------------- -/

/-- Enabling a queue pair with both sizes at least 2 starts it empty and ACTIVE, one of another size stops it with error 5;
disabling stops it (R394). A doorbell in range moves SQ_TAIL or CQ_HEAD, one out of range stops the queue with error 1 or 2, and
that of a queue not in use is ignored (R395, R396; the last is the model's reading, log entry 4). A vector with a message
to send sends it unless it or the function is masked or MSI-X is off (R397). A completion is 16 bytes at the completion tail, which
advances with its phase, and is counted; with interrupts on it gives the vector a message (R395, R397, R400). The end of a link clears
the queues, configuration space, the MSI-X table and what waits to be sent, and discards completions to come (R393); PERST_N holds the
endpoint in that state while it is asserted (R437); a link that comes up shows its speed and width (R392). The layout of the MSI-X
table and of configuration space is the base specification's (PRESUMED, log entry 61); that a new start of a queue clears its ERR, and
what the end of a link keeps, are readings (log entries 60 and 101). -/
def Obligations.HostQueues : Prop :=
  (∀ (s : State) (q : Fin 16) (v : W32) (speed : BitVec 3) (width : BitVec 4), s.perst = true →
    exec (.queueEnable q v) s = .next s ∧ exec (.queueDisable q v) s = .next s ∧ exec (.sqTail q v) s = .next s ∧
    exec (.cqHead q v) s = .next s ∧ exec (.linkUp speed width) s = .next s) ∧
  (∀ (s : State) (q : Fin 16) (v : W32), s.perst = false →
    let s1 := s.wrB (aQ q.val 0x14) ((v ||| 0x100) &&& 0x71F)
    let s2 := s.wrB (aQ q.val 0x14) ((v &&& ~~~(0x100 : W32)) &&& 0x71F)
    let sq := s.rfB (aQ q.val 0x10) 0 12
    let cq := s.rfB (aQ q.val 0x10) 16 12
    (s.qEnabled q.val = false → 1 ≤ sq → 1 ≤ cq → exec (.queueEnable q v) s =
      .next ((s1.setQp q.val ⟨0, 0, 0, 0, true⟩).wrB (aQ q.val 0x18) 1)) ∧
    (s.qEnabled q.val = false → sq = 0 ∨ cq = 0 → exec (.queueEnable q v) s =
      .next (((s1.wfB (aQ q.val 0x18) 1 1 1).wfB (aQ q.val 0x18) 4 4 5).qSettle q.val)) ∧
    (s.qEnabled q.val = true → exec (.queueEnable q v) s = .next s1 ∧ exec (.queueDisable q v) s = .next (s2.qStop q.val)) ∧
    (s.qEnabled q.val = false → exec (.queueDisable q v) s = .next s2)) ∧
  (∀ (s : State) (q : Fin 16) (v : W32), s.perst = false →
    let i := field v 0 12
    let p := s.qp q.val
    let n := s.cqLen q.val
    let ahead := n ≤ i ∨ (p.ctail + n - p.chead) % n < (i + n - p.chead) % n
    (s.qEnabled q.val = true → s.qFailed q.val = false →
      (i < s.sqLen q.val → exec (.sqTail q v) s = .next (s.setQp q.val { p with tail := i })) ∧
      (s.sqLen q.val ≤ i → exec (.sqTail q v) s = .next (s.qError q.val 1)) ∧
      (¬ahead → exec (.cqHead q v) s = .next (s.setQp q.val { p with chead := i })) ∧
      (ahead → exec (.cqHead q v) s = .next (s.qError q.val 2))) ∧
    (s.qEnabled q.val = false ∨ s.qFailed q.val = true →
      exec (.sqTail q v) s = .next s ∧ exec (.cqHead q v) s = .next s)) ∧
  (∀ (s : State) (q : Fin 16) (e : Nat), s.Inv → e < 16 →
    let s' := s.qError q.val e
    s'.qFailed q.val = true ∧ s'.rfB (aQ q.val 0x18) 4 4 = e ∧ s'.bit (aCmd 8) (if e ≤ 2 then 1 else 2) = true ∧
    s'.hostMem = s.hostMem ∧ s'.mem = s.mem ∧ (s.qBusy q.val = false → s'.bitB (aQ q.val 0x18) 0 = false) ∧
    (∀ c ∈ s'.inprog, c.pkt.q = q → c.live = false) ∧ s'.inprog.map (·.id) = s.inprog.map (·.id)) ∧
  (∀ (s : State) (v : Fin 32),
    let on := (s.rdCfg 0x40).getLsbD 31 = true ∧ (s.rdCfg 0x40).getLsbD 30 = false
    (s.msixPend.getLsbD v.val = true → on → (s.rd2 (16 * v.val + 12)).getLsbD 0 = false → exec (.msixMessage v) s =
      .next { s with msixPend := s.msixPend &&& ~~~(BitVec.ofNat 32 (2 ^ v.val)),
                     msixSent := spSet (fun _ => 0) s.msixSent v.val (spGet (fun _ => 0) s.msixSent v.val + 1) }) ∧
    (s.msixPend.getLsbD v.val = false ∨ ¬on ∨ (s.rd2 (16 * v.val + 12)).getLsbD 0 = true →
      exec (.msixMessage v) s = .next s)) ∧
  (∀ (s : State) (c : Cur) (st r0 r1 : Nat), s.Inv → c.live = true → c.pkt.cplErr = false →
    let q := c.pkt.q.val
    let p := s.qp q
    let s' := s.complete c st r0 r1
    let base := s.rfB (aQ q 8) 12 20 * 2 ^ 12 + (s.rdB (aQ q 0xC)).toNat * 2 ^ 32
    let k := decide (st = 0 ∨ st = 5 ∨ st = 6 ∨ st = 7 ∨ st = 0xC ∨ st = 0xD)
    (∀ i < 16, spGet memUnwritten s'.hostMem ((base + 16 * p.ctail + i) % 2 ^ 64) =
      (completionBytes (if k then r0 else 0) (if k then r1 else 0) c.head q c.pkt.tag.toNat st p.phase).getD i 0) ∧
    (s'.qp q).ctail = (p.ctail + 1) % s.cqLen q ∧
    (s'.qp q).phase = (if (p.ctail + 1) % s.cqLen q = 0 then !p.phase else p.phase) ∧
    s'.inprog = s.inprog.filter (fun x => x.id != c.id) ∧ s'.rd (aCmd 0xC) = s.rd (aCmd 0xC) + 1 ∧ s'.mem = s.mem ∧
    s'.msixPend = (if s.bitB (aQ q 0x14) 9 && !c.pkt.flags.getLsbD 1 then
      s.msixPend ||| BitVec.ofNat 32 (2 ^ s.rfB (aQ q 0x14) 0 5) else s.msixPend)) ∧
  (∀ (s : State) (c : Cur) (st r0 r1 : Nat), c.live = false → (s.complete c st r0 r1).hostMem = s.hostMem) ∧
  (∀ (s : State) (why : LinkEnd),
    (why = .perst false → exec (.linkReset why) s = .next { s with perst := false }) ∧
    (why = .perst true → s.power = .off → exec (.linkReset why) s = .next { s with perst := true }) ∧
    ((∀ b, why ≠ .perst b) → s.power = .off → exec (.linkReset why) s = .next s) ∧
    (why ≠ .perst false → s.power ≠ .off → s.Inv → Runs (.linkReset why) s fun s' => s'.queues = [] ∧ s'.cfgSpace = [] ∧
      s'.bar2 = [] ∧ s'.msixPend = 0 ∧ s'.rd (aCmd 0) = 0 ∧ s'.bit (aCmd 8) 0 = true ∧ (∀ a, s'.bar0View a = bar0Reset a) ∧
      (∀ a, a ≠ 8 → s'.rdB a = bar0Reset a) ∧ s'.rdB 8 = s.rdB 8 ∧ (∀ c ∈ s'.inprog, c.live = false) ∧ s'.mem = s.mem ∧
      s'.hostMem = s.hostMem ∧ s'.perst = (s.perst || why == .perst true))) ∧
  (∀ (s : State) (speed : BitVec 3) (width : BitVec 4),
    let good := 1 ≤ speed.toNat ∧ speed.toNat ≤ 5 ∧ (width = 1 ∨ width = 2 ∨ width = 4 ∨ width = 8)
    (s.power = .up → s.perst = false → good → exec (.linkUp speed width) s =
      .next (s.wr (aCmd 0) (BitVec.ofNat 32 (speed.toNat + width.toNat * 2 ^ 4 + 2 ^ 8)))) ∧
    (s.power ≠ .up ∨ ¬good → exec (.linkUp speed width) s = .next s) ∧
    (s.power = .up → s.perst = false → good → s.Inv → Runs (.linkUp speed width) s fun s' =>
      (s'.cfgView 0x60).toNat = speed.toNat * 2 ^ 16 + width.toNat * 2 ^ 20))

/-- A host command is taken only from the queue that is next, which is eligible and of the high class if any of that class is
(R404); taken, it joins the commands in progress and runs, and then every waiting command goes on (R405). A failing fetch takes
nothing and stops its queue (R396). The checks come in order: LENGTH, the commands that a prepared device permits, the bits that no field names (R403).
NOP and FENCE complete at once; an opcode that no table lists completes BAD_OPCODE; IDENTIFY writes the identity page; ABORT ends
the wait of the command it names; NOTICE_WAIT waits, and a fifth is refused BUSY (R402, R410 to R413). That ABORT names the oldest
command of its queue and tag and never itself, that a held command waits its turn and that a newer notice replaces an older one are
readings (log entries 109, 63 and 62). In sleep no
waiting command but NOTICE_WAIT goes on (R27). A command of 64 bytes that joins the queue runs as the row of its OPCODE with the header and
parameters in its packet, one of no listed code as BAD_OPCODE (R398). -/
def Obligations.HostCommands : Prop :=
  (∀ (s : State) (w : BitVec 512) (p : Packet), s.pending = [] →
    let rows : List (Nat × (Packet → Instr)) := [(0x00, .nop), (0x01, .identify), (0x02, .abort), (0x03, .fence), (0x04, .noticeWait),
      (0x10, .imageErase), (0x11, .imageStage), (0x12, .imageCommit), (0x13, .imageActivate), (0x14, .imageRead),
      (0x15, .keyProvision), (0x16, .keyRevoke), (0x17, .sigPolicy), (0x18, .imageActivateHost), (0x20, .regRead), (0x21, .regWrite),
      (0x22, .regBlockRead), (0x30, .memRead), (0x31, .memWrite), (0x32, .bankOwner), (0x33, .siteResults), (0x40, .siteArm),
      (0x41, .testStart), (0x42, .testStop), (0x43, .siteDisarm), (0x44, .siteWait), (0x45, .doorbell), (0x46, .siteSignal),
      (0x50, .taskQuery), (0x51, .taskSignal), (0x52, .taskKill), (0x53, .taskSetPrio), (0x54, .taskSetAffinity), (0x55, .taskList),
      (0x60, .laneTrain), (0x61, .laneCal), (0x62, .laneEyeScan), (0x63, .lanePrbs), (0x70, .healthRead), (0x71, .stickyRead),
      (0x72, .stickyClear), (0x73, .spareMapRead), (0x80, .syncConfig), (0x81, .syncSend), (0x82, .pgRelock), (0x90, .prepareRemoval),
      (0x91, .deviceReset), (0x92, .resume)]
    let op := w.extractLsb' 0 8
    (∀ x ∈ rows, op.toNat = x.1 → step (s.submit w p) = exec (x.2 (packetOf w p)) s) ∧
    ((∀ x ∈ rows, op.toNat ≠ x.1) → step (s.submit w p) = exec (.badOpcode op (packetOf w p)) s)) ∧
  (∀ (s : State) (op : Nat) (p : Packet) (run : State → Cur → State),
    (s.Starts op p → s.hostCmd op p run = (run (s.begun op p) (s.curOf op p)).poll) ∧
    (s.qBusy p.q.val = false → s.takes = false ∨ s.pickQ ≠ some p.q.val → s.hostCmd op p run = s) ∧
    (s.takes = true → s.pickQ = some p.q.val → p.fetchErr = true →
      s.hostCmd op p run = s.qError p.q.val 3)) ∧
  (∀ (s : State) (q : Nat), s.pickQ = some q → q < 16 ∧ s.eligible q = true ∧
    ((∃ k < 16, s.eligible k = true ∧ s.bitB (aQ k 0x14) 10 = true) → s.bitB (aQ q 0x14) 10 = true)) ∧
  (∀ s : State, (s.pickQ = none ↔ ∀ q < 16, s.eligible q = false) ∧
    ((∀ c ∈ s.inprog, c.wait = .held ∨ c.wait = .data) → s.poll = s) ∧
    (s.sleeping = true → (∀ c ∈ s.inprog, ∀ k, c.wait ≠ .notice k) → s.poll = s)) ∧
  (∀ (s : State) (op : Nat) (p : Packet) (len named : Nat),
    let odd := 4 ≤ p.flags.toNat ∨ p.rsvd ≠ 0 ∨ ∃ i, p.params.toNat.testBit i = true ∧ named.testBit i = false
    (p.length.toNat ≠ len → s.precheck op p len named = 2) ∧
    (p.length.toNat = len → s.bitB 8 1 = true → permitted op = false → s.precheck op p len named = 0xE) ∧
    (p.length.toNat = len → s.bitB 8 1 = false ∨ permitted op = true → odd → s.precheck op p len named = 3) ∧
    (p.length.toNat = len → s.bitB 8 1 = false ∨ permitted op = true → ¬odd → s.precheck op p len named = 0)) ∧
  (∀ (s : State) (p : Packet), s.Starts 0 p → exec (.nop p) s =
    .next ((s.begun 0 p).complete (s.curOf 0 p) (s.precheck 0 p 0 0) 0 0).poll) ∧
  (∀ (s : State) (p : Packet), s.Starts 3 p → exec (.fence p) s =
    .next ((s.begun 3 p).complete (s.curOf 3 p) (s.precheck 3 p 0 0) 0 0).poll) ∧
  (∀ (s : State) (op : BitVec 8) (p : Packet),
    (op.toNat ∉ opcodes → s.Starts op.toNat p → exec (.badOpcode op p) s =
      .next ((s.begun op.toNat p).complete (s.curOf op.toNat p) 1 0 0).poll) ∧
    (op.toNat ∈ opcodes → exec (.badOpcode op p) s = .next s)) ∧
  (∀ (s : State) (p : Packet), s.Starts 1 p → s.precheck 1 p 12 (namedBits bufFields) = 0 → dataOk p dlenMax = true →
    (256 ≤ pdlen p → exec (.identify p) s =
      .next ((s.begun 1 p).toBuffer (s.curOf 1 p) (s.begun 1 p).identity (s.rd 8).toNat 0).poll) ∧
    (pdlen p < 256 → exec (.identify p) s = .next ((s.begun 1 p).complete (s.curOf 1 p) 3 0 0).poll)) ∧
  (∀ s : State, s.image = none → s.identity.length = 256) ∧
  (∀ (s : State) (c : Cur) (l : List Byte) (r0 r1 : Nat),
    (c.pkt.hostErr = none → s.toBuffer c l r0 r1 = (s.toHostMem (pdptr c.pkt) l).complete c 0 r0 r1) ∧
    (∀ k, c.pkt.hostErr = some k → k < l.length →
      s.toBuffer c l r0 r1 = (s.toHostMem (pdptr c.pkt) (l.take k)).complete c 5 k 0)) ∧
  (∀ (s : State) (p : Packet), s.Starts 2 p → s.precheck 2 p 4 (namedBits [(8, 0, 4), (8, 16, 16)]) = 0 →
    let named := s.inprog.find? fun x => x.pkt.q.val == pfld p 8 0 4 && x.pkt.tag.toNat == pfld p 8 16 16
    (∀ x, named = some x → x.wait.abortable = true → exec (.abort p) s =
      .next (((s.begun 2 p).complete x 0xA 0 0).complete (s.curOf 2 p) 0 1 0).poll) ∧
    (∀ x, named = some x → x.wait.abortable = false → exec (.abort p) s =
      .next ((s.begun 2 p).complete (s.curOf 2 p) 0 0 0).poll) ∧
    (named = none → exec (.abort p) s = .next ((s.begun 2 p).complete (s.curOf 2 p) 0 0 0).poll)) ∧
  (∀ (s : State) (p : Packet), s.Starts 4 p → s.precheck 4 p 4 (namedBits [(8, 0, 3)]) = 0 →
    let n := (s.inprog.filter fun x => x.wait.isNotice).length
    (n < 4 → exec (.noticeWait p) s =
      .next ((s.begun 4 p).setWait (s.curOf 4 p) (.notice (BitVec.ofNat 3 (pfld p 8 0 3)))).poll) ∧
    (4 ≤ n → exec (.noticeWait p) s = .next ((s.begun 4 p).complete (s.curOf 4 p) 9 0 0).poll)) ∧
  (∀ (s : State) (c : Cur) (k : BitVec 3) (v : W32), s.inprog = [c] → c.wait = .notice k → k.getLsbD 0 = true →
    s.stickyNote = some v → s.poll = { s with stickyNote := none }.complete c 0 0 v.toNat)

/-- Images and keys: a slot that is not active is erased, staged from the host's buffer, and committed if its image passes every
check, which makes it the boot slot (R414, R446, R447); a passing image is activated from a slot or from host memory while nothing
runs (R414, R416, R444). A key that is a point on the curve is stored in a slot that is neither present nor revoked; a slot is
revoked; the policy changes unless it is locked (R414, R415). Registers are read, written and read back, or read as a block, through
their bridges (R365, R417); memory is read and written in transactions up to the first that fails, while the command waits in its
data phase (R355, R402, R418); a bank's OWNER is written and the handover waited for;
SITE_RESULTS gives every site (R418). A check that fails completes with its status and does nothing else (R403). Staging programs its
bytes at their places; that it stops at the first place that is programmed already, with the bytes before it programmed, is a reading
of R414's NOT_ERASED (log entry 104); placement fills the program store, the channels, the gate
tables, the banks and their owners and the unit stores from the sections of the image and creates its tasks (R170 to R176, R181, R184).
That a commit which passes leaves CHECK_RESULT, and the count after a host transfer that fails, are readings (log entries 92 and
102). -/
def Obligations.ImageAndMemoryCommands : Prop :=
  (∀ (s : State) (p : Packet),
    let k := pfld p 8 0 32
    let c := s.curOf 0x10 p
    let st := firstOf [s.slotStatus 0x10 p, s.slotInUse k]
    s.Starts 0x10 p →
    (st = 0 → exec (.imageErase p) s = .next (((s.begun 0x10 p).eraseSlot k).complete c 0 0 0).poll) ∧
    (st ≠ 0 → exec (.imageErase p) s = .next ((s.begun 0x10 p).complete c st 0 0).poll)) ∧
  (∀ (s : State) (k o : Nat), k < 2 → o < imgMax → s.Inv →
    (s.eraseSlot k).programmed k o = none ∧ (s.eraseSlot k).programmed (1 - k) o = s.programmed (1 - k) o ∧
    (s.eraseSlot k).nv.slot k = 0 ∧ (s.nv.boot = k → (s.eraseSlot k).nv.boot = 3)) ∧
  (∀ (s : State) (p : Packet), s.Starts 0x11 p → s.stageStatus 0x11 p = 0 → s.slotInUse (pfld p 0x14 0 32) = 0 →
    exec (.imageStage p) s = .next ((s.begun 0x11 p).stage (s.curOf 0x11 p) (pfld p 0x14 0 32) (pfld p 0x18 0 32)
      (hostBytes p.buf (hostMoves p))).poll) ∧
  (∀ (s : State) (k o j : Nat) (l : List Byte), k < 2 → o + l.length ≤ imgMax → s.Inv →
    let q := s.program k o l 0
    q.1 = { s with flash := q.1.flash } ∧
    ((∀ i < l.length, s.programmed k (o + i) = none) → q.2 = (l.length, true) ∧
      (∀ i < l.length, q.1.programmed k (o + i) = some (l.getD i 0)) ∧
      ∀ m b, m < 2 → b < imgMax → m ≠ k ∨ b < o ∨ o + l.length ≤ b → q.1.programmed m b = s.programmed m b) ∧
    (j < l.length → (∀ i < j, s.programmed k (o + i) = none) → s.programmed k (o + j) ≠ none → q.2 = (j, false) ∧
      (∀ i < j, q.1.programmed k (o + i) = some (l.getD i 0)) ∧
      ∀ i, j ≤ i → i < l.length → q.1.programmed k (o + i) = s.programmed k (o + i))) ∧
  (∀ (s : State) (c : Cur) (k o : Nat) (l : List Byte),
    let q := (s.unboot k).program k o l 0
    let s1 := if 0 < q.2.1 then q.1.setSlot k 1 else q.1
    (q.2.2 = false → s.stage c k o l = s1.complete c 0x11 0 0) ∧
    (q.2.2 = true → c.pkt.hostErr = none → s.stage c k o l = s1.complete c 0 q.2.1 0) ∧
    (∀ n, q.2.2 = true → c.pkt.hostErr = some n → n < pdlen c.pkt → s.stage c k o l = s1.complete c 5 q.2.1 0)) ∧
  (∀ (s : State) (m : Img) (a : Nat), let t := s.place m a
    t.image = some (m.bytes 0x30 16, m.bytes 0x40 64) ∧ t.bitB 8 2 = true ∧ t.chans = [] ∧ t.flights = [] ∧ t.culmDone = 0 ∧
    t.culmStart ≠ none) ∧
  (∀ (s : State) (m : Img) (x : Sect), m.find 1 = some x → ∀ pc : Pc, (s.placeProgram m).instrAt pc =
    if pc.toNat < x.len / 16 then BitVec.ofNat 128 (m.num (x.off + 16 * pc.toNat) 16) else faultWord) ∧
  (∀ (s : State) (m : Img) (r : Rcd), s.Inv → r ∈ m.rcds 2 → ((m.rcds 2).map fun q => m.num q.off 2).Nodup →
    let t := s.placeChannels m
    t.rd (aCulm (0x8000 + 8 * m.num r.off 2)) = BitVec.ofNat 32 (m.route r) ∧
    t.rd (aCulm (0x8004 + 8 * m.num r.off 2)) = BitVec.ofNat 32 (m.bind r)) ∧
  (∀ (s : State) (m : Img) (r : Rcd) (e : Nat), s.Inv → r ∈ m.rcds 3 → ((m.rcds 3).map fun q => m.num q.off 1).Nodup → e < 108 →
    (s.placeGates m).rd (aEng e (0x100 + 4 * m.num r.off 1)) = BitVec.ofNat 32 (m.num (r.off + 4) 4)) ∧
  (∀ (s : State) (m : Img) (bs : List Blk) (b : Blk), s.Inv → m.blocks 12 = bs ++ [b] → m.blocks 13 = [] →
    ∀ i < 8 * b.cnt, (s.placeData m).byte (bankKey b.inst (8 * b.start) + i) = m.get (b.off + i)) ∧
  (∀ (s : State) (m : Img) (r : Rcd), s.Inv → r ∈ m.rcds 10 → ((m.rcds 10).map fun q => m.num q.off 1).Nodup →
    (s.placeOwners m).owner (m.num r.off 1) = m.num (r.off + 1) 1) ∧
  (∀ (s : State) (m : Img) (k n : Nat),
    (m.blocks 6 = [] → (s.placeUnits m).micro k n = 0) ∧ (m.blocks 7 = [] → (s.placeUnits m).scramble k n = scrIdent (65536 * k + n)) ∧
    (∀ i j v l, m.unitWords 6 = l ++ [(i, j, v)] → (s.placeUnits m).micro i j = BitVec.ofNat 128 v) ∧
    (∀ i j v l, m.unitWords 7 = l ++ [(i, j, v)] → (s.placeUnits m).scramble i j = BitVec.ofNat 32 v)) ∧
  (∀ q prio affinity pin mask obj : Nat, let t := newTask q prio affinity pin mask obj
    t.prio = prio ∧ t.eprio = prio ∧ t.quantum = q ∧ t.mask = BitVec.ofNat 32 mask ∧
    (mask = 0 → t.state = .ready) ∧ (mask ≠ 0 → t.state = .asleep ∧ t.obj = BitVec.ofNat 32 obj) ∧
    t.pinned = decide (pin / 2 ^ 15 % 2 = 1) ∧
    (pin / 2 ^ 15 % 2 = 1 → t.sheaf = pin / 2 ^ 8 % 16 ∧ t.engine = pin / 2 ^ 4 % 8 ∧ t.slot = pin % 8)) ∧
  (∀ id pc ring xsp : Nat, let w := newContext id pc ring xsp
    w.length = 64 ∧ w[58]? = some (BitVec.ofNat 64 (pc % 2 ^ 17 + (pc + 1) % 2 ^ 17 * 2 ^ 32)) ∧
    w[59]? = some (BitVec.ofNat 64 (ring * 2 ^ 8)) ∧ w[62]? = some (BitVec.ofNat 64 xsp) ∧
    w[63]? = some (BitVec.ofNat 64 (id * 2 ^ 32)) ∧
    ∀ i < 64, i ≠ 58 → i ≠ 59 → i ≠ 62 → i ≠ 63 → w[i]? = some 0) ∧
  (∀ (s : State) (p : Packet), s.Starts 0x12 p → s.slotStatus 0x12 p = 0 → s.slotInUse (pfld p 8 0 32) = 0 →
    let k := pfld p 8 0 32
    let b := s.begun 0x12 p
    (∀ f, (s.slotImg k).check Config.fwVersion.toNat s.nv = some f → exec (.imageCommit p) s =
      .next (((b.checkResult (some f)).setSlot k 3).imageRefused (s.curOf 0x12 p)).poll) ∧
    ((s.slotImg k).check Config.fwVersion.toNat s.nv = none → exec (.imageCommit p) s =
      .next (((b.setSlot k 2).setBoot k).complete (s.curOf 0x12 p) 0 0 0).poll)) ∧
  (∀ (s : State) (p : Packet), s.Starts 0x13 p → s.slotStatus 0x13 p = 0 →
    (s.activeStatus ≠ 0 → exec (.imageActivate p) s = .next ((s.begun 0x13 p).complete (s.curOf 0x13 p) 8 0 0).poll) ∧
    (∀ t, s.activeStatus = 0 → (s.begun 0x13 p).activateSlot (pfld p 8 0 32) = (t, true) →
      exec (.imageActivate p) s = .next (t.complete (s.curOf 0x13 p) 0 0 0).poll) ∧
    (∀ t, s.activeStatus = 0 → (s.begun 0x13 p).activateSlot (pfld p 8 0 32) = (t, false) →
      exec (.imageActivate p) s = .next (t.imageRefused (s.curOf 0x13 p)).poll)) ∧
  (∀ (s : State) (p : Packet) (t : State), s.Starts 0x18 p → s.precheck 0x18 p 12 (namedBits bufFields) = 0 →
    dataOk p imgMax = true → s.activeStatus = 0 → p.hostErr = none →
    (s.begun 0x18 p).activate (firstReading p) (secondReading p) 2 = (t, true) → exec (.imageActivateHost p) s =
      .next (t.complete (s.curOf 0x18 p) 0 0 0).poll) ∧
  (∀ (s : State) (m m2 : Img) (a : Nat),
    (∀ f, m.check Config.fwVersion.toNat s.nv = some f → s.activate m (some m2) a = (s.checkResult (some f), false)) ∧
    (m.check Config.fwVersion.toNat s.nv = none → m2.digest = m.digest →
      s.activate m (some m2) a = (((s.checkResult none).clearImage).place m2 a, true)) ∧
    (m.check Config.fwVersion.toNat s.nv = none → m2.digest ≠ m.digest → (s.activate m (some m2) a).2 = false)) ∧
  (∀ (s : State) (p : Packet), s.Starts 0x14 p → s.stageStatus 0x14 p = 0 → exec (.imageRead p) s =
    .next ((s.begun 0x14 p).toBuffer (s.curOf 0x14 p) ((List.range (pdlen p)).map fun i =>
      s.slotByte (pfld p 0x14 0 32) (pfld p 0x18 0 32 + i)) 0 0).poll) ∧
  (∀ (s : State) (p : Packet),
    let k := pfld p 0x14 0 32
    let x := beNat ((hostBytes p.buf 96).take 48)
    let y := beNat ((hostBytes p.buf 96).drop 48)
    let b := s.begun 0x15 p
    let st := firstOf [s.precheck 0x15 p 16 (namedBits (bufFields ++ [(0x14, 0, 32)])), stIf (!dataOk p dlenMax || pdlen p != 96) 3,
      stIf (decide (4 ≤ k)) 3]
    s.Starts 0x15 p → st = 0 → p.hostErr = none →
    (s.nv.keyTaken k = true → exec (.keyProvision p) s = .next (b.complete (s.curOf 0x15 p) 0x10 0 0).poll) ∧
    (s.nv.keyTaken k = false → onCurve x y = false →
      exec (.keyProvision p) s = .next (b.complete (s.curOf 0x15 p) 0x10 0 0).poll) ∧
    (s.nv.keyTaken k = false → onCurve x y = true → exec (.keyProvision p) s =
      .next ((b.setNv { s.nv with keys := s.nv.keys.setIfInBounds k (some (x, y)) }).complete (s.curOf 0x15 p) 0 0 0).poll)) ∧
  (∀ (s : State) (p : Packet), s.Starts 0x16 p → s.precheck 0x16 p 4 (namedBits [(8, 0, 32)]) = 0 → pfld p 8 0 32 < 4 →
    exec (.keyRevoke p) s = .next (((s.begun 0x16 p).setNv { s.nv with
      revoked := s.nv.revoked ||| BitVec.ofNat 4 (2 ^ pfld p 8 0 32) }).complete (s.curOf 0x16 p) 0 0 0).poll) ∧
  (∀ (s : State) (p : Packet),
    let req := pfld p 8 0 1 == 1
    let lock := pfld p 8 1 1 == 1
    s.Starts 0x17 p → s.precheck 0x17 p 4 (namedBits [(8, 0, 2)]) = 0 →
    (s.nv.lock = true → req ≠ s.nv.require → exec (.sigPolicy p) s =
      .next ((s.begun 0x17 p).complete (s.curOf 0x17 p) 0xD 0 0).poll) ∧
    (s.nv.lock = false ∨ req = s.nv.require → exec (.sigPolicy p) s =
      .next (((s.begun 0x17 p).setNv { s.nv with require := req, lock := s.nv.lock || lock }).complete
        (s.curOf 0x17 p) 0 0 0).poll)) ∧
  (∀ (s : State) (p : Packet),
    let a := pfld p 8 0 32
    let b := s.begun 0x20 p
    s.Starts 0x20 p → s.precheck 0x20 p 4 (namedBits [(8, 0, 32)]) = 0 →
    (a < 2 ^ 31 → a % 4 = 0 → exec (.regRead p) s =
      .next ((b.bridgeRead .mgmt a).1.complete (s.curOf 0x20 p) 0 (b.bridgeRead .mgmt a).2.toNat 0).poll) ∧
    (a < 2 ^ 31 → a % 4 ≠ 0 → exec (.regRead p) s = .next (b.complete (s.curOf 0x20 p) 4 0 0).poll) ∧
    (2 ^ 31 ≤ a → exec (.regRead p) s = .next (b.complete (s.curOf 0x20 p) 3 0 0).poll)) ∧
  (∀ (s : State) (p : Packet),
    let a := pfld p 8 0 32
    let w := (s.begun 0x21 p).bridgeWrite .mgmt a (BitVec.ofNat 32 (pfld p 0xC 0 32))
    s.Starts 0x21 p → s.precheck 0x21 p 8 (namedBits [(8, 0, 32), (0xC, 0, 32)]) = 0 → a < 2 ^ 31 → a % 4 = 0 →
    exec (.regWrite p) s = .next ((w.bridgeRead .mgmt a).1.complete (s.curOf 0x21 p) 0 (w.bridgeRead .mgmt a).2.toNat 0).poll) ∧
  (∀ (s : State) (p : Packet),
    let a := pfld p 0x14 0 32
    let q := (s.begun 0x22 p).readBlock a (pdlen p / 4)
    s.Starts 0x22 p → s.precheck 0x22 p 16 (namedBits (bufFields ++ [(0x14, 0, 32)])) = 0 → dataOk p 0x4000 = true →
    0 < pdlen p → a < 2 ^ 31 → a % 4 = 0 →
    exec (.regBlockRead p) s = .next (q.1.toBuffer (s.curOf 0x22 p) (wordBytes q.2) 0 0).poll) ∧
  (∀ (s : State) (p : Packet), s.Starts 0x30 p → s.memStatus 0x30 p false = 0 →
    (∀ x ∈ s.xfers, x.key ≠ .host s.nextId) → 0 < hostMoves p →
    exec (.memRead p) s = .next ((s.begun 0x30 p).xferStart (.host s.nextId) 13 0 256 false (daddr p) (hostMoves p) none).poll) ∧
  (∀ (s : State) (p : Packet), s.Starts 0x31 p → s.memStatus 0x31 p true = 0 →
    (∀ x ∈ s.xfers, x.key ≠ .host s.nextId) → 0 < hostMoves p →
    exec (.memWrite p) s = .next ((s.begun 0x31 p).xferStart (.host s.nextId) 13 0 256 false (daddr p) (hostMoves p)
      (some (hostBytes p.buf (hostMoves p)))).poll) ∧
  (∀ (s : State) (p : Packet) (c : Cur) (x : Xfer), s.inprog = [c] → c.pkt = p → c.wait = .data → s.sleeping = false →
    s.xferOf (.host c.id) = some x →
    let d := s.dropXfer (.host c.id)
    (c.op = 0x30 → s.memStatus 0x30 p false = 0 →
      (x.over = false → exec (.memRead p) s = .next s.poll) ∧
      (x.over = true → x.err = none → exec (.memRead p) s =
        .next ((d.toHostMem (pdptr p) x.got).complete c (if hostMoves p < pdlen p then 5 else 0) (hostMoves p) 0).poll) ∧
      (∀ e, x.over = true → x.err = some e → exec (.memRead p) s =
        .next ((d.toHostMem (pdptr p) (x.got.take x.last)).complete c (if e = 0 then 6 else 7) x.last 0).poll)) ∧
    (c.op = 0x31 → s.memStatus 0x31 p true = 0 →
      (x.over = false → exec (.memWrite p) s = .next s.poll) ∧
      (x.over = true → x.err = none → exec (.memWrite p) s =
        .next (d.complete c (if hostMoves p < pdlen p then 5 else 0) (hostMoves p) 0).poll) ∧
      (∀ e, x.over = true → x.err = some e → exec (.memWrite p) s =
        .next (d.complete c (if e = 0 then 6 else 7) x.last 0).poll))) ∧
  (∀ (s : State) (x : Xfer), x.blk = 256 → x.sent < x.len → let t := s.xferTxn x
    t.addr = x.addr + x.sent ∧ 0 < t.size ∧ x.sent + t.size ≤ x.len ∧ t.addr / 256 = (t.addr + t.size - 1) / 256) ∧
  (∀ (s : State) (p : Packet),
    let b := pfld p 8 0 8
    s.Starts 0x32 p → s.precheck 0x32 p 4 (namedBits [(8, 0, 16)]) = 0 → b < 48 → ownerCode (pfld p 8 8 8) = true →
    (s.bit (aBnk b 8) 4 = false → exec (.bankOwner p) s = .next (((s.begun 0x32 p).bridgeWrite .mgmt (aBnk b 0)
      (BitVec.ofNat 32 (pfld p 8 8 8))).setWait (s.curOf 0x32 p) (.owner b (s.owner b))).poll) ∧
    (s.bit (aBnk b 8) 4 = true → exec (.bankOwner p) s = .next ((s.begun 0x32 p).complete (s.curOf 0x32 p) 9 0 0).poll)) ∧
  (∀ (s : State) (c : Cur) (b prev : Nat), s.inprog = [c] → c.wait = .owner b prev → s.sleeping = false →
    (s.bit (aBnk b 8) 4 = false → s.poll = s.complete c 0 prev 0) ∧ (s.bit (aBnk b 8) 4 = true → s.poll = s)) ∧
  (∀ (s : State) (p : Packet), s.Starts 0x33 p → s.precheck 0x33 p 12 (namedBits bufFields) = 0 → dataOk p dlenMax = true →
    2048 ≤ pdlen p → s.results.length = 2048 ∧ exec (.siteResults p) s =
      .next ((s.begun 0x33 p).toBuffer (s.curOf 0x33 p) s.results 0 0).poll)

/-- Tests: SITE_ARM arms sites that are enabled and idle or FINAL, and waits for the resets of their regions; TEST_START requests the
start, and without waiting says whether it was released; TEST_STOP stops the sites that run and withdraws a start; SITE_DISARM makes
armed sites idle; SITE_WAIT completes when its sites are FINAL or its time is up; DOORBELL raises its event; SITE_SIGNAL signals the
site's tasks (R17, R308, R419, R420). Tasks: a command on a task writes its operation as the management controller writes registers
(R406, R421; which operations write TASK_ARG first is a reading, log entry 156) and waits for it, or for the record that READ brings,
which TASK_QUERY gives alone or with the context that it reads at the Granary spill port; an error there is MEM_ERROR (R421, R364);
TASK_LIST gives a byte for every task (R421). -/
def Obligations.TestAndTaskCommands : Prop :=
  (∀ (s : State) (p : Packet), s.Starts 0x40 p → s.precheck 0x40 p 32 (namedBits maskField) = 0 →
    ((∀ i ∈ pktSites p, s.mayArm i = true) → exec (.siteArm p) s =
      .next (((s.begun 0x40 p).armSites (pktSites p)).setWait (s.curOf 0x40 p) (.arm (pfld p 8 0 256))).poll) ∧
    ((∃ i ∈ pktSites p, s.mayArm i = false) → exec (.siteArm p) s =
      .next ((s.begun 0x40 p).complete (s.curOf 0x40 p) 8 0 0).poll)) ∧
  (∀ (s : State) (l : List Nat), s.Inv → (∀ i ∈ l, i < 256) →
    (∀ i ∈ l, (s.armSites l).siteState i = 1 ∧ (s.armSites l).siteFinal i = false) ∧
    (∀ i < 256, i ∉ l → (s.armSites l).rd (aSite i 0x14) = s.rd (aSite i 0x14)) ∧
    (∀ n : Fin 16, n.val ∈ s.sitePx l → (s.armSites l).isArmed n.val = true)) ∧
  (∀ (s : State) (c : Cur) (mask : Nat), s.inprog = [c] → c.wait = .arm mask → s.sleeping = false →
    (s.armPending mask = false → s.poll = s.complete c 0 (maskSites mask).length 0) ∧
    (s.armPending mask = true → s.poll = s)) ∧
  (∀ (s : State) (p : Packet),
    let b := s.begun 0x41 p
    let c := s.curOf 0x41 p
    s.Starts 0x41 p → s.precheck 0x41 p 4 (namedBits [(8, 0, 1)]) = 0 →
    (pfld p 8 0 1 = 0 → s.armedPx ≠ [] → exec (.testStart p) s = .next (b.requestStart.complete c 0 0 0).poll) ∧
    (pfld p 8 0 1 = 1 → s.armedPx ≠ [] → exec (.testStart p) s = .next (b.requestStart.setWait c .release).poll) ∧
    (pfld p 8 0 1 = 0 → s.armedPx = [] → exec (.testStart p) s =
      .next (b.requestStart.startRelease.complete c 0 (!b.requestStart.startRelease.startReq).toNat 0).poll)) ∧
  (∀ s : State, s.startReq = false → s.requestStart.startReq = true ∧
    (s.Inv → ∀ n : Fin 16, s.isArmed n.val = true → s.pxState n.val = 1 → s.requestStart.pxState n.val = 2)) ∧
  (∀ (s : State) (p : Packet), s.Starts 0x42 p → s.precheck 0x42 p 32 (namedBits maskField) = 0 → exec (.testStop p) s =
    .next ((((s.begun 0x42 p).stopSites (pktSites p)).withdraw).complete (s.curOf 0x42 p) 0
      ((pktSites p).filter s.siteBusy).length 0).poll) ∧
  (∀ s : State, s.withdraw.startReq = false ∧ (s.startReq = false → s.withdraw = s)) ∧
  (∀ (s : State) (p : Packet), s.Starts 0x43 p → s.precheck 0x43 p 32 (namedBits maskField) = 0 →
    ((∀ i ∈ pktSites p, s.siteState i ≠ 2) → exec (.siteDisarm p) s =
      .next (((s.begun 0x43 p).disarmSites (pktSites p)).withdraw.complete (s.curOf 0x43 p) 0
        ((pktSites p).filter fun i => s.siteState i == 1).length 0).poll) ∧
    ((∃ i ∈ pktSites p, s.siteState i = 2) → exec (.siteDisarm p) s =
      .next ((s.begun 0x43 p).complete (s.curOf 0x43 p) 8 0 0).poll)) ∧
  (∀ (s : State) (p : Packet), s.Starts 0x44 p → s.precheck 0x44 p 36 (namedBits (maskField ++ [(0x28, 0, 32)])) = 0 →
    ((∀ i ∈ pktSites p, s.siteState i ≠ 0) → exec (.siteWait p) s =
      .next ((s.begun 0x44 p).setWait (s.curOf 0x44 p) (.sites (pfld p 8 0 256))).poll) ∧
    ((∃ i ∈ pktSites p, s.siteState i = 0) → exec (.siteWait p) s =
      .next ((s.begun 0x44 p).complete (s.curOf 0x44 p) 8 0 0).poll)) ∧
  (∀ (s : State) (c : Cur) (mask : Nat), s.inprog = [c] → c.wait = .sites mask →
    (s.sleeping = false → (∀ i ∈ maskSites mask, s.siteState i = 3 ∧ s.siteFinal i = true) →
      s.poll = s.complete c 0 (maskSites mask).length 0) ∧
    ((∃ i ∈ maskSites mask, s.siteState i ≠ 3 ∨ s.siteFinal i = false) → s.poll = s) ∧
    (pfld c.pkt 0x28 0 32 ≠ 0 → exec (.siteWaitTimeout c.pkt.q) s = .next (s.complete c 0xB 0 0)) ∧
    (pfld c.pkt 0x28 0 32 = 0 → exec (.siteWaitTimeout c.pkt.q) s = .next s)) ∧
  (∀ (s : State) (p : Packet), s.Starts 0x45 p → s.precheck 0x45 p 4 (namedBits [(8, 0, 8)]) = 0 → exec (.doorbell p) s =
    .next (((s.begun 0x45 p).post rkMgmt none 7 (pfld p 8 0 8)).complete (s.curOf 0x45 p) 0 0 0).poll) ∧
  (∀ (s : State) (p : Packet),
    let t := s.siteTasks (pfld p 8 0 8)
    s.Starts 0x46 p → s.precheck 0x46 p 4 (namedBits [(8, 0, 13)]) = 0 →
    (pfld p 8 8 5 ≠ 31 → exec (.siteSignal p) s = .next ((s.begun 0x46 p).setWait (s.curOf 0x46 p)
      (.ops 2 (BitVec.ofNat 32 (pfld p 8 8 5)) t.1 (t.1 + t.2) 0 0)).poll) ∧
    (pfld p 8 8 5 = 31 → exec (.siteSignal p) s = .next ((s.begun 0x46 p).complete (s.curOf 0x46 p) 3 0 0).poll)) ∧
  (∀ (s : State) (p : Packet),
    let t := pfld p 0x14 0 16
    let c := s.curOf 0x50 p
    let b := s.begun 0x50 p
    s.Starts 0x50 p → s.precheck 0x50 p 16 (namedBits (bufFields ++ [(0x14, 0, 16)])) = 0 → dataOk p dlenMax = true →
    (pdlen p = 24 ∨ pdlen p = 536) → t < 40960 →
    (s.taskOps.length < 16 → exec (.taskQuery p) s = .next ((b.hostOp c.id t 5 0).setWait c (.query t)).poll) ∧
    (16 ≤ s.taskOps.length → exec (.taskQuery p) s = .next b.poll)) ∧
  (∀ (s : State) (p : Packet),
    let t := pfld p 8 0 16
    (s.Starts 0x51 p → s.precheck 0x51 p 4 (namedBits [(8, 0, 21)]) = 0 →
      (t < 40960 → exec (.taskSignal p) s =
        .next ((s.begun 0x51 p).waitOp (s.curOf 0x51 p) 2 (pfld p 8 16 5) t).poll) ∧
      (40960 ≤ t → exec (.taskSignal p) s = .next ((s.begun 0x51 p).complete (s.curOf 0x51 p) 3 0 0).poll)) ∧
    (s.Starts 0x52 p → s.precheck 0x52 p 4 (namedBits [(8, 0, 16)]) = 0 →
      (t < 40960 → exec (.taskKill p) s = .next ((s.begun 0x52 p).waitOp (s.curOf 0x52 p) 1 0 t).poll) ∧
      (40960 ≤ t → exec (.taskKill p) s = .next ((s.begun 0x52 p).complete (s.curOf 0x52 p) 3 0 0).poll)) ∧
    (s.Starts 0x53 p → s.precheck 0x53 p 4 (namedBits [(8, 0, 19)]) = 0 →
      (t < 40960 → exec (.taskSetPrio p) s =
        .next ((s.begun 0x53 p).waitOp (s.curOf 0x53 p) 3 (pfld p 8 16 3) t).poll) ∧
      (40960 ≤ t → exec (.taskSetPrio p) s = .next ((s.begun 0x53 p).complete (s.curOf 0x53 p) 3 0 0).poll)) ∧
    (s.Starts 0x54 p → s.precheck 0x54 p 8 (namedBits [(8, 0, 16), (0xC, 0, 12)]) = 0 →
      (t < 40960 → exec (.taskSetAffinity p) s =
        .next ((s.begun 0x54 p).waitOp (s.curOf 0x54 p) 4 (pfld p 0xC 0 12) t).poll) ∧
      (40960 ≤ t → exec (.taskSetAffinity p) s =
        .next ((s.begun 0x54 p).complete (s.curOf 0x54 p) 3 0 0).poll))) ∧
  (∀ (s : State) (c : Cur) (op t : Nat) (arg : W32), s.inprog = [c] → c.wait = .ops op arg t (t + 1) 0 0 →
    (∀ d ∈ s.opsDone, d.1 ≠ c.id) → s.taskOps.length < 16 → s.sleeping = false →
    s.poll = (s.hostOp c.id t op arg).setWait c (.ops op arg (t + 1) (t + 1) 1 0)) ∧
  (∀ (s : State) (id t op : Nat) (arg : W32), s.Inv →
    (op = 2 ∨ op = 3 ∨ op = 4 → s.hostOp id t op arg =
      (((s.mgmtIn (aGrn 0x64) true).wr (aGrn 0x64) arg).mgmtIn (aGrn 0x60) true).enqueueOp t op arg (some id)) ∧
    (op ≠ 2 → op ≠ 3 → op ≠ 4 → s.hostOp id t op arg =
      (s.mgmtIn (aGrn 0x60) true).enqueueOp t op (s.rd (aGrn 0x64)) (some id))) ∧
  (∀ (s : State) (c : Cur) (t : Nat) (refused : Bool), s.inprog = [c] → c.wait = .query t → s.opsDone = [(c.id, refused)] →
    s.sleeping = false →
    let d := { s with opsDone := [] }
    let rec_ := (List.range 6).flatMap fun k => natLe 4 (s.rd (aGrn (0x70 + 4 * k))).toNat
    (refused = true → s.poll = d.complete c 0xD 0 0) ∧
    (refused = false → pdlen c.pkt ≠ 536 → s.poll = d.toBuffer c rec_ 0 0) ∧
    (refused = false → pdlen c.pkt = 536 → (∀ x ∈ s.xfers, x.key ≠ .host c.id) →
      s.poll = (d.setWait c (.context t rec_)).xferStart (.host c.id) 13 0 256 false (ctxKey t) 512 none)) ∧
  (∀ (s : State) (c : Cur) (t : Nat) (l : List Byte) (x : Xfer), s.inprog = [c] → c.wait = .context t l → s.sleeping = false →
    s.xferOf (.host c.id) = some x →
    let d := s.dropXfer (.host c.id)
    (x.over = false → s.poll = s) ∧
    (x.over = true → x.err = none → s.poll = d.toBuffer c (l ++ x.got) 0 0) ∧
    (x.over = true → x.err ≠ none → c.pkt.hostErr = none → s.poll = (d.toHostMem (pdptr c.pkt) (l ++ x.got.take x.last)).complete c 7
      (l ++ x.got.take x.last).length 0)) ∧
  (∀ (s : State) (c : Cur) (op t : Nat) (arg : W32) (refused : Bool), s.inprog = [c] →
    c.wait = .ops op arg (t + 1) (t + 1) 1 0 → s.opsDone = [(c.id, refused)] → c.op ≠ 0x46 → s.sleeping = false →
    s.poll = { s with opsDone := [] }.complete c (if refused then 0xD else 0) 0 0) ∧
  (∀ (s : State) (p : Packet), s.Starts 0x55 p → s.precheck 0x55 p 12 (namedBits bufFields) = 0 → dataOk p dlenMax = true →
    40960 ≤ pdlen p → exec (.taskList p) s = .next ((s.begun 0x55 p).toBuffer (s.curOf 0x55 p)
      ((List.range 40960).map fun t => taskByte (s.task t)) (s.tasks.filter fun q => q.2.state != .none).length 0).poll)

/-- LANE_TRAIN writes TRAIN for its lanes and waits for them; LANE_CAL turns calibration on or off and gives the calibration
registers; LANE_EYE_SCAN starts its first point; LANE_PRBS configures its lanes (R422). HEALTH_READ gives the snapshot, STICKY_READ
the registers with a sticky bit, STICKY_CLEAR clears them, SPARE_MAP_READ the repair map (R423). SYNC_CONFIG and PG_RELOCK are
refused while a site is armed or running, SYNC_SEND unless the module leads (R424). PREPARE_REMOVAL ends waits, brings everything to
rest and asserts SAFE_N; RESUME releases it; DEVICE_RESET completes, ends every other command and resets when its delay ends (R425,
R442, R458, R459). Registers are written as the management controller writes them (R406). Lanes that fail at once stand in the result
of LANE_TRAIN, the counts and records of the STICKY commands, what RESUME does after a trip and the history entry of DEVICE_RESET are
readings (log entries 105, 107 and 108). -/
def Obligations.LaneAndControlCommands : Prop :=
  (∀ (s : State) (p : Packet), s.Starts 0x60 p →
    s.precheck 0x60 p 36 (namedBits [(8, 0, 64), (0x10, 0, 3), (0x10, 8, 3), (0x14, 0, 192)]) = 0 →
    let r := (s.begun 0x60 p).trainAll p (maskLanes (pfld p 8 0 64))
    exec (.laneTrain p) s = .next (r.1.setWait (s.curOf 0x60 p) (.train (maskOf r.2.1) (maskOf r.2.2))).poll) ∧
  (∀ (s : State) (c : Cur) (mask failed : Nat), s.inprog = [c] → c.wait = .train mask failed → s.sleeping = false →
    let f := failed + maskOf ((maskLanes mask).filter fun n => s.tstate n == 3)
    ((∀ n ∈ maskLanes mask, 2 ≤ s.tstate n) → s.poll = s.complete c 0 (f % 2 ^ 32) (f / 2 ^ 32)) ∧
    ((∃ n ∈ maskLanes mask, s.tstate n < 2) → s.poll = s)) ∧
  (∀ (s : State) (p : Packet),
    let ls := maskLanes (pfld p 0x14 0 64)
    s.Starts 0x61 p → s.precheck 0x61 p 24 (namedBits (bufFields ++ [(0x14, 0, 64), (0x1C, 0, 2)])) = 0 →
    dataOk p dlenMax = true → 32 * ls.length ≤ pdlen p → exec (.laneCal p) s =
      .next ((ls.foldl (fun (t : State) n => t.calAction (pfld p 0x1C 0 2) n) (s.begun 0x61 p)).toBuffer (s.curOf 0x61 p)
        (ls.flatMap (s.begun 0x61 p).calBytes) 0 0).poll) ∧
  (∀ (s : State) (p : Packet), s.Starts 0x62 p →
    s.precheck 0x62 p 24 (namedBits (bufFields ++ [(0x14, 0, 6), (0x14, 8, 2), (0x18, 0, 24), (0x1C, 0, 10), (0x1C, 12, 16)])) = 0 →
    dataOk p dlenMax = true → 4 * pfld p 0x18 16 8 * pfld p 0x1C 20 8 ≤ pdlen p →
    (scanBad p = false → exec (.laneEyeScan p) s = .next (((s.begun 0x62 p).bridgeWrite .mgmt (aLn (pfld p 0x14 0 6) 0x80)
      (scanWord p 0)).setWait (s.curOf 0x62 p) (.scan 0 [])).poll) ∧
    (scanBad p = true → exec (.laneEyeScan p) s = .next ((s.begun 0x62 p).complete (s.curOf 0x62 p) 3 0 0).poll)) ∧
  (∀ (s : State) (p : Packet), s.Starts 0x63 p → s.precheck 0x63 p 16 (namedBits [(8, 0, 64), (0x10, 0, 9), (0x14, 0, 1)]) = 0 →
    exec (.lanePrbs p) s = .next (((maskLanes (pfld p 8 0 64)).foldl (fun (t : State) n => t.prbsSet p n)
      (s.begun 0x63 p)).complete (s.curOf 0x63 p) 0 0 0).poll) ∧
  (∀ (s : State) (p : Packet), dataOk p dlenMax = true →
    (s.Starts 0x70 p → s.precheck 0x70 p 12 (namedBits bufFields) = 0 → 256 ≤ pdlen p →
      s.snapshot.length = 256 ∧ exec (.healthRead p) s =
        .next ((s.begun 0x70 p).used.toBuffer (s.curOf 0x70 p) s.snapshot 0 0).poll) ∧
    (s.Starts 0x71 p → s.precheck 0x71 p 12 (namedBits bufFields) = 0 → exec (.stickyRead p) s =
      .next ((s.begun 0x71 p).toBuffer (s.curOf 0x71 p) (wholeRecords p s.stickyBytes) s.stickyRegs.length (s.rd 0x80).toNat).poll) ∧
    (s.Starts 0x73 p → s.precheck 0x73 p 12 (namedBits bufFields) = 0 → exec (.spareMapRead p) s =
      .next ((s.begun 0x73 p).toBuffer (s.curOf 0x73 p) (wholeRecords p (s.repairMap.flatMap Repair.bytes))
        s.repairMap.length 0).poll)) ∧
  (∀ (s : State) (p : Packet),
    let a := pfld p 8 0 32
    let b := s.begun 0x72 p
    s.Starts 0x72 p → s.precheck 0x72 p 8 (namedBits [(8, 0, 32), (0xC, 0, 32)]) = 0 →
    (a = 0xFFFFFFFF → exec (.stickyClear p) s = .next (b.clearSticky.complete (s.curOf 0x72 p) 0 0 0).poll) ∧
    (a < 2 ^ 31 → a % 4 = 0 → hasW1c a = true → exec (.stickyClear p) s =
      .next ((b.bridgeWrite .mgmt a (BitVec.ofNat 32 (pfld p 0xC 0 32))).complete (s.curOf 0x72 p) 0 0 0).poll) ∧
    (a ≠ 0xFFFFFFFF → a % 4 ≠ 0 ∨ hasW1c a = false → exec (.stickyClear p) s =
      .next (b.complete (s.curOf 0x72 p) 3 0 0).poll)) ∧
  (∀ (s : State) (p : Packet), s.Starts 0x80 p → s.precheck 0x80 p 4 (namedBits [(8, 0, 3), (8, 8, 8)]) = 0 →
    (s.siteActive = false → exec (.syncConfig p) s = .next (((s.begun 0x80 p).bridgeWrite .mgmt (aSyn 0x100)
      (BitVec.ofNat 32 (pfld p 8 0 32))).complete (s.curOf 0x80 p) 0 0 0).poll) ∧
    (s.siteActive = true → exec (.syncConfig p) s = .next ((s.begun 0x80 p).complete (s.curOf 0x80 p) 8 0 0).poll)) ∧
  (∀ (s : State) (p : Packet), s.Starts 0x81 p → s.precheck 0x81 p 4 (namedBits [(8, 0, 4), (8, 8, 7)]) = 0 →
    pfld p 8 0 4 = 1 ∨ pfld p 8 0 4 = 3 →
    (s.rf (aSyn 0x100) 0 2 = 2 →
      let t := (s.begun 0x81 p).bridgeWrite .mgmt (aSyn 0x104) (BitVec.ofNat 32 (pfld p 8 0 4 + pfld p 8 8 7 * 2 ^ 8 + 2 ^ 31))
      exec (.syncSend p) s = .next (t.complete (s.curOf 0x81 p) 0 0 0).poll ∧
      t.syncOut = some (syncWordOf (pfld p 8 0 4) (pfld p 8 8 7))) ∧
    (s.rf (aSyn 0x100) 0 2 ≠ 2 → exec (.syncSend p) s =
      .next ((s.begun 0x81 p).complete (s.curOf 0x81 p) 0xF 0 0).poll)) ∧
  (∀ (s : State) (p : Packet), s.Starts 0x82 p →
    s.precheck 0x82 p 12 (namedBits [(8, 0, 8), (0xC, 0, 11), (0xC, 16, 6), (0x10, 0, 20)]) = 0 →
    let s1 := (s.begun 0x82 p).bridgeWrite .mgmt (aSyn 0) (BitVec.ofNat 32 (pfld p 0x10 0 20))
    let r := s1.relockAll (BitVec.ofNat 32 (pfld p 0xC 0 32)) (pktGroups p)
    (s.siteActive = false → exec (.pgRelock p) s = .next (r.1.setWait (s.curOf 0x82 p) (.relock (maskOf r.2.1)
      (maskOf (r.2.2.map (·.1))) ((r.2.2.map fun q => q.2 * 2 ^ (4 * q.1)).foldl (· + ·) 0))).poll) ∧
    (s.siteActive = true → exec (.pgRelock p) s = .next ((s.begun 0x82 p).complete (s.curOf 0x82 p) 8 0 0).poll)) ∧
  (∀ (s : State) (c : Cur) (gs refused codes : Nat), s.inprog = [c] → c.wait = .relock gs refused codes → s.sleeping = false →
    ((∀ g < 8, gs.testBit g = true → s.pgLocked g = true) → s.poll = s.complete c 0 refused codes) ∧
    ((∃ g < 8, gs.testBit g = true ∧ s.pgLocked g = false) → s.poll = s)) ∧
  (∀ (s : State) (p : Packet), s.Starts 0x90 p → s.precheck 0x90 p 0 0 = 0 → exec (.prepareRemoval p) s =
    .next ((((s.begun 0x90 p).completeAll (fun x => x.wait.abortable) 0xA 0).quiesceAll.makeSafe).complete
      (s.curOf 0x90 p) 0 0 0).poll) ∧
  (∀ s : State, s.Inv → s.makeSafe.safe = true ∧ s.makeSafe.bitB 8 1 = true ∧ s.makeSafe.repairQ = [] ∧
    s.makeSafe.nv.seq = s.nv.seq + 1) ∧
  (∀ (s : State) (p : Packet), s.Starts 0x91 p → s.precheck 0x91 p 4 (namedBits [(8, 0, 32)]) = 0 →
    (1 ≤ pfld p 8 0 32 → pfld p 8 0 32 ≤ 1000 → exec (.deviceReset p) s =
      .next ((s.begun 0x91 p).resetAccepted (s.curOf 0x91 p)).poll) ∧
    (pfld p 8 0 32 = 0 ∨ 1000 < pfld p 8 0 32 → exec (.deviceReset p) s =
      .next ((s.begun 0x91 p).complete (s.curOf 0x91 p) 3 0 0).poll)) ∧
  (∀ (s : State) (c : Cur), s.Inv → c ∈ s.inprog → let t := s.resetAccepted c
    t.inprog = [] ∧ t.bitB 8 3 = true ∧ t.nv.seq = s.nv.seq + 1 ∧ t.mem = s.mem) ∧
  (∀ s : State,
    (s.bitB 8 3 = true → s.inprog = [] → s.power ≠ .off → exec .resetDelayEnd s = .next (s.fullReset 2 true)) ∧
    (s.bitB 8 3 = false → exec .resetDelayEnd s = .next s)) ∧
  (∀ (s : State) (p : Packet), s.Starts 0x92 p → s.precheck 0x92 p 0 0 = 0 →
    (s.bitB 8 1 = true → exec (.resume p) s = .next ((({ s.begun 0x92 p with
      safe := false, engStop := s.bit (aHlt 4) 2 }).wfB 8 1 1 0).complete (s.curOf 0x92 p) 0 0 0).poll) ∧
    (s.bitB 8 1 = false → exec (.resume p) s = .next ((s.begun 0x92 p).complete (s.curOf 0x92 p) 8 0 0).poll))

/- Power, management and health --------------------------------------------------------------------------- -/

/-- While the management controller runs, a read with a good PEC answers its data and the PEC of the transfer, the CRC-8 of polynomial
0x07 (presumed of SMBus 3.1, log entry 86); one with a bad PEC answers nothing and is recorded (R426). Identity and health are blocks of 32 and 16 bytes, empty before the firmware runs (R427);
the Alert Response Address answers the module's address while ALERT_N is asserted (R428). A Write that is taken becomes the
acknowledged voltage and step and awaits its read-back; one that is not is sent again up to 3 times, after which requests stop with
AVS_FAIL; a read-back more than 10 mV away does the same (R430, R431). Every frame goes out with the rail and the clock divider of
AVS_CFG, and a status alert is read and recorded, its Status Read sent again like the rest (R429, R431). The model's own: bit 0 of the
alert answer (log entry 19), the last four frames and the last answer kept (141), AVS_FAIL after a Status Read (146). -/
def Obligations.VoltageAndSmbus : Prop :=
  (∀ (s : State) (code : Nat) (data : List Byte),
    (s.power = .off → ∀ ok, s.smbServe ok code data = s) ∧
    (s.power ≠ .off → s.smbServe false code data = { s.setB (aCmd 8) 4 with smbOut := [] } ∧
      s.smbServe true code data = { s with smbOut := data ++ [pec ([BitVec.ofNat 8 (2 * s.smbAddr), BitVec.ofNat 8 code,
        BitVec.ofNat 8 (2 * s.smbAddr + 1)] ++ data)] })) ∧
  (∀ (s : State) (ok : Bool),
    exec (.smbusStatus ok) s = .next (s.smbServe ok 0 [BitVec.ofNat 8 s.smbStatusByte]) ∧
    exec (.smbusIdentity ok) s = .next (s.smbServe ok 1 (if s.power = .up then 32 :: s.smbIdentity else [0])) ∧
    s.smbAddr = 0x58 + s.straps.toNat ∧ s.smbIdentity.length = 32 ∧
    exec (.smbusHealth ok) s = .next (s.smbServe ok 2 (if s.power = .up then 16 :: s.smbHealth else [0])).used ∧
    s.smbHealth.length = 16 ∧ s.smbStatusByte < 128 ∧ (s.smbStatusByte % 2 = 1 ↔ s.bitB 8 0 = true) ∧
    (s.smbStatusByte / 64 % 2 = 1 ↔ s.safe = true)) ∧
  (∀ s : State,
    (s.power = .off ∨ s.bit 0x90 1 = false → exec .alertResponse s = .next { s with smbOut := [] }) ∧
    (s.power ≠ .off → s.bit 0x90 1 = true → Runs .alertResponse s fun s' => ∃ d e : Byte, s'.smbOut = [d, e] ∧
      d.toNat / 2 = s.smbAddr ∧ s' = { s with smbOut := s'.smbOut, fresh := s.fresh + 1 })) ∧
  (∀ (s : State) (k : AvsKind), let t := s.avsSend k
    t.avsOut.head? = some ⟨s.rf (aCmd 0x14) 0 4, s.rf (aCmd 0x14) 8 8, k⟩ ∧ t.avsOut.length ≤ 4 ∧ t = { s with avsOut := t.avsOut }) ∧
  (∀ (s : State) (r : AvsResp), (r.alert = none → s.avsAlert r = s) ∧
    let t := (s.avsSend .readStatus).setB (aCmd 8) 5
    (∀ d, r.alert = some (some d) → s.avsAlert r = t.wf (aCmd 0x18) 0 16 d.toNat) ∧
    (r.alert = some none → s.avsAlert r = { t with avs := { t.avs with status := some 0 } })) ∧
  (∀ (s : State) (mv n : Nat) (r : AvsResp), let t := (s.avsSend (.write mv)).avsAlert r
    (r.taken = true → s.avsWrite mv n r = { (t.wf (aCmd 0x10) 0 16 mv).wf (aHlt 0x604) 28 4 ((mv - 900) / 5) with
      avs := { t.avs with write := none, read := some (mv, none) } }) ∧
    (r.taken = false → n < 3 → s.avsWrite mv n r = { t with avs := { t.avs with write := some (mv, n) } }) ∧
    (r.taken = false → 3 ≤ n → s.avsWrite mv n r = { t.setB (aCmd 8) 3 with
      avs := { t.avs with goal := none, write := none, read := none, status := none, stopped := true } })) ∧
  (∀ (s : State) (mv got : Nat),
    let t := s.wf (aCmd 0x10) 16 16 got
    (got ≤ mv + 10 → mv ≤ got + 10 → s.avsRead mv got = { t with avs := { s.avs with read := none } }) ∧
    (mv + 10 < got ∨ got + 10 < mv → (s.avsRead mv got).avs.stopped = true)) ∧
  (∀ (s : State) (r next : AvsResp) (mv : Nat), s.avs.read = some (mv, none) → let t := (s.avsSend .readVoltage).avsAlert r
    (r.taken = true → exec (.avsReadback r next) s = .next ((t.avsRead mv r.mv.toNat).avsStep next)) ∧
    (r.taken = false → exec (.avsReadback r next) s = .next { t with avs := { t.avs with read := some (mv, some 0) } })) ∧
  (∀ (s : State) (r next : AvsResp),
    (∀ mv n, s.avs.read = some (mv, some n) → exec (.avsReadback r next) s = .next s) ∧
    (s.avs.read = none → s.avs.write = none → exec (.avsReadback r next) s = .next (s.avsStep next)) ∧
    (∀ x, s.avs.read = none → s.avs.write = some x → exec (.avsReadback r next) s = .next s)) ∧
  (∀ (s : State) (next : AvsResp),
    (s.avs.goal = none ∨ s.avs.stopped = true → s.avsStep next = s) ∧
    (∀ g, s.avs.goal = some g → s.avs.stopped = false →
      (s.stepNow < g → s.avsStep next = s.avsWrite (900 + 5 * (s.stepNow + 1)) 0 next) ∧
      (g < s.stepNow → s.avsStep next = s.avsWrite (900 + 5 * (s.stepNow - 1)) 0 next) ∧
      (g = s.stepNow → s.avsStep next = { s with avs := { s.avs with goal := none } }))) ∧
  (∀ (s : State) (r : AvsResp) (n : Nat), s.avs.status = some n → let t := s.avsSend .readStatus
    (r.taken = true → exec (.avsRetry r) s =
      .next { t.wf (aCmd 0x18) 0 16 r.mv.toNat with avs := { s.avs with status := none } }) ∧
    (r.taken = false → n < 2 → exec (.avsRetry r) s = .next { t with avs := { s.avs with status := some (n + 1) } }) ∧
    (r.taken = false → 2 ≤ n → exec (.avsRetry r) s = .next t.avsFail)) ∧
  (∀ (s : State) (r : AvsResp) (mv n : Nat), s.avs.status = none → let t := (s.avsSend .readVoltage).avsAlert r
    (s.avs.write = some (mv, n) → exec (.avsRetry r) s = .next (s.avsWrite mv (n + 1) r)) ∧
    (s.avs.write = none → s.avs.read = some (mv, some n) →
      (r.taken = true → exec (.avsRetry r) s = .next (t.avsRead mv r.mv.toNat)) ∧
      (r.taken = false → n < 2 → exec (.avsRetry r) s =
        .next { t with avs := { t.avs with read := some (mv, some (n + 1)) } }) ∧
      (r.taken = false → 2 ≤ n → exec (.avsRetry r) s = .next t.avsFail))) ∧
  (∀ (s : State) (r : AvsResp), s.avs.status = none → s.avs.write = none → (∀ mv n, s.avs.read ≠ some (mv, some n)) →
    exec (.avsRetry r) s = .next s)

/-- Power-good starts a full reset, its fall loses every volatile memory; RESET_N and a change of presence reset a powered module
and keep DRAM with the writes that its controllers have acknowledged; NV flash is kept throughout (R432, R433, R439 to R441). The start takes the module to READY, or stops it with a hard
fault if the firmware fails (R435, R436); it takes the SMBus address from the straps (R426), the older copy of a service record
whose newer one fails (R449), repairs the recorded DRAM rows (R352), and activates the boot slot or else the other committed one
(R438). A halt request stops the busy expanders and sets HALTED; its release clears both
(R453). Sleep is refused with the lowest code that applies, and otherwise entered; the first wake source ends it and is recorded
(R454 to R456), and what waited on it is then delivered in order (R27). SCLK's source is shown (R505); a history entry is copied into its registers and checked (R451). The model's own: when a request of
sleep acts and what waits in sleep (log entry 81), the copy of an entry (84), what a reset keeps (98), the dead state (99), the service
copies (121), the bus cycle (122), straps and what a power loss cuts off (153). -/
def Obligations.PowerAndModes : Prop :=
  (∀ s : State,
    (s.power = .off → exec .powerGood s = .next { s with power := .entry, straps := s.free.setWidth 2, fresh := s.fresh + 1 }) ∧
    (s.power ≠ .off → exec .powerGood s = .next s) ∧
    exec .powerGoodFall s = .next { s.fullReset 0 false with power := .off } ∧
    (s.power ≠ .off → exec .resetN s = .next (s.fullReset 1 false) ∧ exec .presenceReset s = .next (s.fullReset 3 false)) ∧
    (s.power = .off → exec .resetN s = .next s ∧ exec .presenceReset s = .next s)) ∧
  (∀ (s : State) (cause : Nat) (hist : Bool), cause < 4 → s.Inv → let t := s.fullReset cause hist
    t.nv = s.nv ∧ t.nvOld = s.nvOld ∧ t.perst = s.perst ∧ t.straps = s.straps ∧ t.flash = s.flash ∧ t.pending = s.pending ∧ t.ths = [] ∧ t.tasks = [] ∧ t.inprog = [] ∧ t.power = .entry ∧
    t.bitB 8 0 = false ∧ t.rf 0x60 0 2 = cause ∧ (∀ a, a ≠ 0x60 → t.rd a = regReset a) ∧
    (∀ a, inDram a = true → t.byte a = (if cause = 0 then memUnwritten a else s.dramKept.byte a)) ∧
    (∀ a, inDram a = false → t.byte a = memUnwritten a)) ∧
  (∀ (s : State) (k o : Nat) (y : Txn) (l : List Byte), (s.dramq = [] → s.dramKept = s) ∧
    (s.dramq = [(k, y)] → y.data = none → s.dramKept = s) ∧
    (s.dramq = [(k, y)] → y.data = some l → y.addr = 0x1000000000 + o → y.size = 32 →
      s.dramKept = (s.setDram o l).setPoison (s.burstOf o) false)) ∧
  (∀ (s : State) (o : BootObs),
    (s.power ≠ .entry → exec (.startSequence o) s = .next s) ∧
    (s.power = .entry → o.firmwareOk = false → exec (.startSequence o) s = .next { s with power := .dead }.hardFault) ∧
    (s.power = .entry → o.firmwareOk = true → exec (.startSequence o) s =
      .next ((((((({ s with power := .up }.wf (aCmd 0x1C) 0 7 (0x58 + s.straps.toNat)).cutOff o).loadRecords o).firstRequest
        o).hardRepair o.worn).bootImage).wfB 8 0 1 1))) ∧
  (∀ (s : State) (o : BootObs), (s.rf 0x60 0 4 ≠ 0 → s.cutOff o = s) ∧
    (s.rf 0x60 0 4 = 0 → s.Inv →
      (∀ (k : Fin 2) (i : Nat), i < imgMax → (s.cutOff o).programmed k.val i =
        if o.cutErase.any (fun c => c.1 == k && decide (i < c.2.toNat)) then none else s.programmed k.val i) ∧
      (o.cutEntry = none → (s.cutOff o).nv = s.nv) ∧
      (∀ n e l, o.cutEntry = some n → s.nv.hist = e :: l → (s.cutOff o).nv = { s.nv with hist := e.take n.toNat :: l }))) ∧
  (∀ (s : State) (r : ServiceRec) (newer : Bool), s.Inv →
    (s.loadService [(r, newer)]).nv = (if newer then s.nv.fall s.nvOld r else s.nv) ∧
    (s.loadService [(r, newer)]).bit (aNvc 8) 2 = true ∧ s.loadService [] = s) ∧
  (∀ (s : State) (v : NvSt), (s.nvPut v).nv = v ∧
    (v.repairs ≠ s.nv.repairs → (s.nvPut v).nvOld.repairs = s.nv.repairs) ∧
    (v.repairs = s.nv.repairs → (s.nvPut v).nvOld.repairs = s.nvOld.repairs)) ∧
  (∀ (s : State) (worn : List (Fin 16 × BitVec 21)), let t := s.hardRepair worn
    (∀ r ∈ t.nv.repairs, r.due = true → wornRow worn r = true) ∧
    (s.Inv → (∃ r ∈ s.nv.repairs, r.due = true ∧ wornRow worn r = true) → t.bit (aDrc 0xC) 3 = true)) ∧
  (∀ (s t : State),
    (2 ≤ s.nv.boot → s.bootImage = s.bootCause 0 3) ∧
    (s.nv.boot < 2 → s.activateSlot s.nv.boot = (t, true) → s.bootImage = t.bootCause 1 s.nv.boot) ∧
    (s.nv.boot < 2 → s.activateSlot s.nv.boot = (t, false) → t.nv.boot ≠ 1 - s.nv.boot →
      s.bootImage = (t.setB (aNvc 8) 3).bootCause 3 3)) ∧
  (∀ s t u : State, s.nv.boot < 2 → s.activateSlot s.nv.boot = (t, false) → t.nv.boot = 1 - s.nv.boot →
    ((t.setB (aNvc 8) 3).activateSlot (1 - s.nv.boot) = (u, true) → s.bootImage = u.bootCause 2 (1 - s.nv.boot)) ∧
    ((t.setB (aNvc 8) 3).activateSlot (1 - s.nv.boot) = (u, false) → s.bootImage = u.bootCause 3 3)) ∧
  (∀ s : State,
    (s.bit aDbgHalt 0 = false → exec .haltRequest s =
      .next (((s.stopBusy.setB aDbgHalt 0).setB aDbgHalt 1).wakeBy .halt).poll) ∧
    (s.bit aDbgHalt 0 = true → exec .haltRequest s = .next s.poll) ∧
    exec .haltRelease s = .next ((s.clrB aDbgHalt 0).clrB aDbgHalt 1)) ∧
  (∀ s : State, let b := s.mgmtIn 0x64 true
    (s.sleeping = false → s.sleepCode = 0 → exec .enter s = .next { b with sleepDue := true }) ∧
    (s.sleeping = false → s.sleepCode ≠ 0 → exec .enter s = .next (b.wf 0x64 4 4 s.sleepCode)) ∧
    (s.sleeping = true → exec .enter s = .next { s with late := s.late ++ [.access 0x64 (some 1)] })) ∧
  (∀ s : State,
    let site := ∃ i < 256, s.siteState i = 1 ∨ s.siteState i = 2
    let px := ∃ n < 16, s.pxState n ≠ 0
    let dma := ∃ c < 8, s.bit (aDma c 0x1C) 0 = true
    (s.sleepCode = 0 ↔ ¬site ∧ ¬px ∧ ¬dma ∧ s.bit aDbgHalt 0 = false ∧ s.bitB 8 1 = false) ∧
    (site → s.sleepCode = 1) ∧ (¬site → px → s.sleepCode = 2) ∧ (¬site → ¬px → dma → s.sleepCode = 3) ∧
    (¬site → ¬px → ¬dma → s.bit aDbgHalt 0 = true → s.sleepCode = 4) ∧
    (¬site → ¬px → ¬dma → s.bit aDbgHalt 0 = false → s.bitB 8 1 = true → s.sleepCode = 5)) ∧
  (∀ s : State,
    (s.sleepDue = true → s.sleeping = false → exec .sleepEntry s = .next
      { s.idleAll.wf 0x6C 16 16 (s.rf 0x6C 16 16 + 1) with sleeping := true, sleepDue := false, wakeDue := none }) ∧
    (s.sleepDue = false ∨ s.sleeping = true → exec .sleepEntry s = .next s)) ∧
  (∀ (s : State) (src : WakeSource),
    let t := { s with sleeping := false, wakeDue := none }
    (s.sleeping = true → s.wakeDue = some src →
      (src = .command → exec (.wake src) s = .next (t.wf 0x6C 0 2 1).lateAll.poll) ∧
      (∀ c, src = .timer c → exec (.wake src) s = .next ((t.wf 0x6C 0 2 2).wf 0x6C 8 5 c.val).lateAll.poll) ∧
      (src = .halt → exec (.wake src) s = .next (t.wf 0x6C 0 2 3).lateAll.poll)) ∧
    (s.sleeping = false ∨ s.wakeDue ≠ some src → exec (.wake src) s = .next s.poll)) ∧
  (∀ s : State,
    (s.late = [] → s.lateAll = s) ∧
    (∀ l a v, s.late = l ++ [.access a (some v)] → s.lateAll = { s with late := l }.lateAll.bridgeWrite .mgmt a v) ∧
    (∀ l a, s.late = l ++ [.access a none] → let r := { s with late := l }.lateAll.bridgeRead .mgmt a
      s.lateAll = { r.1 with busOut := r.2 }) ∧
    (∀ l c, s.late = l ++ [.adc c] → s.lateAll = { s with late := l }.lateAll.adcTimer c)) ∧
  (∀ s : State, exec .lfrefTaken s = .next ((s.setB 0x44 0).setB 0x44 1) ∧ exec .lfrefLost s = .next (s.clrB 0x44 0)) ∧
  (∀ (s : State) (age : BitVec 6), s.sleeping = false → exec (.histSel age) s =
    .next { ((s.mgmtIn (aNvc 0x10) true).wf (aNvc 0x10) 0 6 age.toNat).setB (aNvc 0x14) 0 with histCopy := some age.toNat }) ∧
  (∀ (s : State) (age : Nat) (e : List Byte), s.sleeping = false → s.histCopy = some age → s.nv.hist[age]? = some e → s.Inv →
    Runs .histCopyDone s fun s' => s'.histCopy = none ∧ s'.bit (aNvc 0x14) 0 = false ∧ s'.bit (aNvc 0x14) 1 = crcHolds e ∧
      (crcHolds e = false → s'.bit (aNvc 8) 1 = true) ∧
      (∀ i < 16, 4 * i + 4 ≤ e.length →
        s'.rd (aNvc (0x40 + 4 * i)) = BitVec.ofNat 32 (leNat ((e.drop (4 * i)).take 4))) ∧ s'.nv = s.nv) ∧
  (∀ (s : State) (age : Nat), s.sleeping = false → s.histCopy = some age → s.nv.hist[age]? = none →
    exec .histCopyDone s = .next (({ s with histCopy := none }.clrB (aNvc 0x14) 0).clrB (aNvc 0x14) 1)) ∧
  (∀ s : State, s.histCopy = none → exec .histCopyDone s = .next s)

/-- A sensor request takes the first free place of the ADC, a reserved code is recorded (R463, R464). The end of a conversion
stores the code, judges its limits and comparators, and lets the next request begin (R464 to R467). A trip stops the busy expanders,
idles every lane, stops the engines and faults (R468). An evaluation averages the windows, and asks for the steps the slow-down
needs (R469, R470). Life advances by the least integer that rounds the acceleration factor, and is written to the life record
(R473, R474). A candidate engine moves to the good spare once it is ready; one that waits while none is left sets NO_SPARE_ENG (R476
to R478). DEV_STICKY follows its sources, and a bit that rises raises HEALTH (R481 to R483). The model's own: a reserved code judged at
the request (log entry 79), the rounding of an exact half (80), the remap record and one HEALTH event an update (110), the coefficients
of a window (147). -/
def Obligations.Health : Prop :=
  (∀ (s : State) (k : BitVec 8), s.sleeping = false → let b := s.mgmtIn (aHlt 0x14) true
    (sensorCode k.toNat = false → exec (.adcGo k) s = .next (b.flag (aHlt 0) 5)) ∧
    (sensorCode k.toNat = true → s.adc.now = none → exec (.adcGo k) s =
      .next { b with adc := { s.adc with now := some (32, k.toNat) } }) ∧
    (∀ x, sensorCode k.toNat = true → s.adc.now = some x → s.adc.next = none → exec (.adcGo k) s =
      .next { b with adc := { s.adc with next := some (32, k.toNat) } }.showWaiting) ∧
    (∀ x y, sensorCode k.toNat = true → s.adc.now = some x → s.adc.next = some y → s.adc.held = none →
      exec (.adcGo k) s = .next { b with adc := { s.adc with held := some k.toNat } }) ∧
    (∀ x y z, sensorCode k.toNat = true → s.adc.now = some x → s.adc.next = some y → s.adc.held = some z →
      exec (.adcGo k) s = .next { b.flag (aHlt 0) 14 with adc := { s.adc with held := some k.toNat } })) ∧
  (∀ s : State,
    (s.sleeping = false → exec .scanRequest s = .next { s with adc := { s.adc with scan := true } }.adcScan ∧
      exec .scanStale s = .next (s.setB (aHlt 0) 4)) ∧
    (s.sleeping = true → exec .scanRequest s = .next s ∧ exec .scanStale s = .next s) ∧
    (s.adc.now = none → s.adc.scan = true → s.adc.scanAt < 72 →
      sensorCode (if s.adc.scanAt < 48 then s.adc.scanAt else s.adc.scanAt + 16) = true ∧
      s.adcScan = { s with adc := { s.adc with
        now := some (33, if s.adc.scanAt < 48 then s.adc.scanAt else s.adc.scanAt + 16), scan := false,
        scanAt := (s.adc.scanAt + 1) % 72 } })) ∧
  (∀ (s : State) (code : BitVec 12) (src k : Nat), s.sleeping = false → s.adc.now = some (src, k) → sensorCode k = true → s.Inv →
    Runs (.conversionEnd code) s fun s' =>
      s'.rf (sensorReg k) 0 12 = code.toNat ∧ s'.bit (sensorReg k) 31 = true ∧ s'.mem = s.mem ∧
      (k < 0x40 → s.rf (aHlt 0xC) 16 12 < code.toNat → s'.bit (aHlt 0) 1 = true) ∧
      (k < 0x40 → s.rf (aHlt 0xC) 0 12 < code.toNat → s'.bit (aHlt 0) 0 = true) ∧
      (src < 33 → 0x21 ∈ s'.dmaq) ∧
      (∀ i < 32, s.rf (aHlt (0x300 + 4 * i)) 0 8 = k → s'.bit (aHlt (0x300 + 4 * i)) 31 = s.cmpOut i code.toNat) ∧
      (∀ i < 32, s.rf (aHlt (0x300 + 4 * i)) 0 8 ≠ k → s'.rd (aHlt (0x300 + 4 * i)) = s.rd (aHlt (0x300 + 4 * i)))) ∧
  (∀ (s : State) (code : BitVec 12), s.sleeping = true ∨ s.adc.now = none → exec (.conversionEnd code) s = .next s) ∧
  (∀ s : State, exec .trip s =
    .next (({ s.stopBusy.idleAll with engStop := true }.setB (aHlt 4) 2).setB (aHlt 0) 2).hardFault.poll) ∧
  (∀ (s : State) (e : EngId) (count : Nat), let q := s.ageSum (engIx e)
    let f := Config.ageNorm (engIx e) count (s.rf (aHlt (0x200 + 4 * (2 * e.s.val / 3))) 0 12)
      (s.rf (aHlt (0x100 + 4 * (2 * e.s.val + (if e.k.val ≤ 4 then 0 else 1)))) 0 12)
    exec (.ageWindow e count) s = .next { s with
      age := spSet (fun _ => ((0 : Int), 0)) s.age (engIx e) (q.1 + ((ageZero (engIx e) : Int) - f), q.2 + 1) }) ∧
  (∀ (s : State) (x : W64) (e : Nat), s.Inv → e < 108 → let q := s.ageSum e
    let t := s.ageStore x e
    t.bit (aHlt (0x400 + 4 * e)) 31 = true ∧
    (q.2 ≠ 0 → ∃ v : Int, t.rf (aHlt (0x400 + 4 * e)) 0 16 = twos 16 v ∧
      (v = 10000 * q.1 / ((ageZero e : Int) * q.2) ∨ v = 10000 * q.1 / ((ageZero e : Int) * q.2) + 1)) ∧
    (q.2 = 0 → t = s.setB (aHlt (0x400 + 4 * e)) 31)) ∧
  (∀ (s : State) (r : AvsResp),
    (s.power ≠ .up → exec (.ageEvaluation r) s = .next s) ∧
    (s.power = .up → s.Inv → Runs (.ageEvaluation r) s fun s' => s'.age = [] ∧ s'.mem = s.mem ∧ s'.ths = s.ths ∧
      (∀ e : EngId, s'.bit (aHlt (0x400 + 4 * engIx e)) 31 = true) ∧
      s'.rf (aHlt 0x604) 24 4 = min ((stepsFor (BitVec.ofNat 16 (s'.rf (aHlt 0x604) 0 16)).toInt).toNat) (min 12 (s.rf (aHlt 0x608) 0 4)))) ∧
  (∀ code vcode : Nat, code < 4096 → vcode < 4096 →
    lifeReached (lifeExponent code vcode) (lifeFactor code vcode) = true ∧
    ∀ r < lifeFactor code vcode, lifeReached (lifeExponent code vcode) r = false) ∧
  (∀ (s : State) (af : Nat), s.Inv →
    let f := (s.rd (aHlt 0x614)).toNat + af
    let u := (s.rf (aHlt 0x610) 0 16 + f / 129259930) % 2 ^ 16
    (s.lifeAdd af).rf (aHlt 0x610) 0 16 = u ∧ (s.lifeAdd af).rf (aHlt 0x614) 0 27 = f % 129259930 ∧
    (s.rf (aHlt 0x618) 0 16 ≤ u → (s.lifeAdd af).bit (aHlt 0) 9 = true)) ∧
  (∀ s : State,
    let af := lifeFactor (s.rf (aHlt 8) 0 12) (s.rf (aHlt 0x250) 0 12)
    (s.power = .up → s.bit (aHlt 0x250) 31 = true → af < 2 ^ 16 → exec .lifeUpdate s =
      .next { (s.lifeAdd af).wf (aHlt 0x61C) 0 16 af with lifeTicks := s.lifeTicks + 1 }) ∧
    (s.power = .up → exec .lifeRecordWrite s = .next (s.nvPut { s.nv with
      used := s.rf (aHlt 0x610) 0 16, frac := s.rf (aHlt 0x614) 0 27, step := s.stepNow })) ∧
    (s.power ≠ .up → exec .lifeUpdate s = .next s ∧ exec .lifeRecordWrite s = .next s)) ∧
  (∀ (s : State) (sh k : BitVec 4), s.sleeping = false →
    (sh.toNat < 12 → k.toNat < 9 → s.bit (aShf sh.toNat 4) (16 + k.toNat) = false → s.bit (aShf sh.toNat 4) k.toNat = false →
      s.Inv → Runs (.spareReq sh k) s fun s' => s'.bit (aShf sh.toNat 4) (16 + k.toNat) = true ∧
        s'.repairQ = s.repairQ ++ [⟨6, 1, 16 * sh.toNat + k.toNat, 0⟩] ∧ s'.mem = s.mem) ∧
    (12 ≤ sh.toNat ∨ 9 ≤ k.toNat → exec (.spareReq sh k) s = .next (s.mgmtIn (aHlt 0x664) true))) ∧
  (∀ (s : State) (e : EngId) (p d : Nat), s.sleeping = false → s.remapReady (engIx e) = true →
    s.bit (aShf e.s.val 4) (16 + e.k.val) = true → s.posOf e.s.val e.k.val = some p → s.spareSlot e.s.val = some d → s.Inv →
    Runs (.remap e) s fun s' => s'.physOf e.s.val p = some d ∧ s'.bit (aShf e.s.val 4) e.k.val = true ∧
      s'.bit (aShf e.s.val 4) (16 + e.k.val) = false ∧ s'.mapped (engIx e) = false ∧ s'.mapped (9 * e.s.val + d) = s.mapped (engIx e) ∧
      s'.bit (aHlt 0) 11 = true ∧ s'.bit (aHlt 0) 10 = true ∧ s'.mem = s.mem ∧ s'.ths = s.ths ∧
      (s'.spareSlot e.s.val = none → (∃ k < 9, s'.bit (aShf e.s.val 4) (16 + k) = true ∧ (s'.posOf e.s.val k).isSome = true) →
        s'.bit (aHlt 0) 12 = true)) ∧
  (∀ (s : State) (e : EngId), s.remapReady (engIx e) = false → exec (.remap e) s = .next s) ∧
  (∀ (s : State), s.sleeping = false →
    let t := s.devUpdate
    exec .devStickyUpdate s = .next t.poll ∧
    (s.Inv → t.rd 0x80 = BitVec.ofNat 32 s.devSticky ∧
      ((s.rd 0x80).toNat ||| s.devSticky = (s.rd 0x80).toNat → t.evq = s.evq ∧ t.stickyNote = s.stickyNote) ∧
      ((s.rd 0x80).toNat ||| s.devSticky ≠ (s.rd 0x80).toNat → t.evq = s.evq ++ [EvReq.mk rkHealth none 13 0] ∧
        t.stickyNote = some (BitVec.ofNat 32 s.devSticky)) ∧
      t.bit 0x90 0 = (s.bit 0x90 2 || BitVec.ofNat 32 s.devSticky &&& s.rd 0x84 != 0) ∧
      t.bit 0x90 1 = (BitVec.ofNat 32 s.devSticky &&& s.rd 0x88 != 0) ∧ t.mem = s.mem)) ∧
  (∀ (s : State) (core lane hi io : BitVec 16), s.sleeping = false →
    exec .railLink s = .next (s.setB (aHlt 0) 13) ∧
    (s.Inv → Runs (.railCurrentReport core lane hi io) s fun s' =>
      s'.rf (aHlt 0x640) 0 16 = core.toNat ∧ s'.rf (aHlt 0x644) 0 16 = lane.toNat ∧ s'.rf (aHlt 0x648) 0 16 = hi.toNat ∧
      s'.rf (aHlt 0x64C) 0 16 = io.toNat ∧ s'.bit (aHlt 0x640) 31 = true ∧ s'.mem = s.mem))

/-- A write of control space changes only what the access codes let it change: an RW field takes the value written, a W1C field
that is written nonzero is cleared, RO and WO fields and triggers keep their bits, and a WL field changes only while no image is
active; a locked field given other bits sets LOCKED_WRITE (R6 to R9). A reserved address sets UNMAPPED and an access of another
alignment changes nothing (R4, R10). What an access sets in a PCLK cycle a later clear of that cycle leaves set (R7). From 0x040 on a PX
register with a field to write is locked in STARTING and BURST (R8, R258). A lane kept at idle since PREPARE_REMOVAL is freed by a write
that configures it (R459). FAULT_N and ALERT_N follow their masks (R483). Writes of one register in one PCLK cycle apply in
the order management, DMA, matrix, and a read in that cycle returns the value before it (R365 to R367); ring-0 code and the debug port
write through their matrix ports, and no agent reaches an address from 0x8000_0000 on (R353, R365, R513). In sleep the peripheral buses
stand still and the management controller's accesses wait, but a request of halt wakes the device (R27, R455, R456). The host writes
BAR0, BAR2 and configuration space, unless PERST_N holds the endpoint (R392, R437). No two fields of a register share a bit. The model's
own: the configuration and MSI-X words (log entry 61, PRESUMED), what waits in sleep (81), who writes DBG.HALT (82), the extent of a
PCLK cycle (122, 154), which writes configure a lane (155). -/
def Obligations.RegisterWrites : Prop :=
  (∀ (s : State) (a v : W32),
    (s.sleeping = false → exec (.registerWrite .mgmt a v) s = .next (s.bridgeWrite .mgmt a.toNat v).poll ∧
      exec (.registerWrite .dma a v) s = .next (s.bridgeWrite .dma a.toNat v).poll ∧
      (∀ k, exec (.registerWrite (.engine k) a v) s = .next (s.loneWrite k.val a.toNat v).poll) ∧
      exec (.registerWrite .debug a v) s = .next (s.loneWrite 21 a.toNat v).poll) ∧
    (s.sleeping = true → exec (.registerWrite .dma a v) s = .next s.poll ∧
      (∀ k, exec (.registerWrite (.engine k) a v) s = .next s.poll)) ∧
    (s.sleeping = true → a.toNat ≠ aDbgHalt →
      exec (.registerWrite .mgmt a v) s = .next ({ s with late := s.late ++ [.access a.toNat (some v)] } : State).poll ∧
      exec (.registerWrite .debug a v) s = .next (s.loneWrite 21 a.toNat v).poll)) ∧
  (∀ (s : State) (m a : Nat) (v : W32), (a % 4 ≠ 0 ∨ 2 ^ 31 ≤ a → s.loneWrite m a v = s) ∧
    (a % 4 = 0 → a < 2 ^ 31 → s.loneWrite m a v = { s with
      mtxq := insTxn ⟨m, .lone, 0x80000000 + a, 4, some (natLe 4 v.toNat), s.mqos m true, 0, s.eclk, 0⟩ s.mtxq })) ∧
  (∀ (s : State) (v : W32) (g : Agent), g = .mgmt ∨ g = .debug → s.sleeping = true →
    (v.getLsbD 0 = true → exec (.registerWrite g 0x800000 v) s = exec .haltRequest s) ∧
    (v.getLsbD 0 = false → exec (.registerWrite g 0x800000 v) s =
      .next ((s.clrB aDbgHalt 0).clrB aDbgHalt 1).poll)) ∧
  (∀ (s : State) (g : Agent) (v : W32),
    (v.getLsbD 0 = true → s.writeReg g aDbgHalt v = s.haltOn) ∧
    (v.getLsbD 0 = false → s.writeReg g aDbgHalt v = (s.clrB aDbgHalt 0).clrB aDbgHalt 1)) ∧
  (∀ (s : State) (a : Nat) (w : Bool), s.mgmtIn a w = { s with bus := (s.mgmtIn a w).bus }) ∧
  (∀ (s : State) (a v : W32),
    (s.perst = false → exec (.registerWrite .bar0 a v) s = .next (s.bar0Write a.toNat v).poll ∧
      (a.toNat % 4 = 0 → a.toNat < 0x200 → exec (.registerWrite .bar2 a v) s =
        .next { s with bar2 := spSet bar2Reset s.bar2 a.toNat v }.poll) ∧
      (a.toNat % 4 = 0 → exec (.registerWrite .cfg a v) s = .next { s with
        cfgSpace := spSet cfgReset s.cfgSpace a.toNat
          ((s.rdCfg a.toNat &&& ~~~(cfgMask a.toNat)) ||| (v &&& cfgMask a.toNat)) }.poll)) ∧
    (s.perst = true → exec (.registerWrite .bar0 a v) s = .next s.poll ∧ exec (.registerWrite .bar2 a v) s = .next s.poll ∧
      exec (.registerWrite .cfg a v) s = .next s.poll)) ∧
  (∀ (s : State) (v w : W32) (k : Fin 12), s.Inv → s.bus = [] →
    ((s.bridgeWrite .mgmt 0x84 v).bridgeWrite .dma 0x84 w).rf 0x84 0 23 = field w 0 23 ∧
    ((s.bridgeWrite .dma 0x84 w).bridgeWrite .mgmt 0x84 v).rf 0x84 0 23 = field v 0 23 ∧
    ((s.bridgeWrite .mgmt 0x84 v).bridgeWrite (.engine k) 0x84 w).rf 0x84 0 23 = field w 0 23 ∧
    field ((s.bridgeWrite .mgmt 0x84 v).bridgeRead .mgmt 0x84).2 0 23 = field v 0 23 ∧
    ((s.bridgeWrite .mgmt 0x84 v).bridgeRead (.engine k) 0x84).2 = readMask (regFields 0x84) (s.rd 0x84)) ∧
  (∀ s : State, s.sleeping = true → ∀ (n : Fin 64) (v : W32) (c : Fin 8) (k : BitVec 8) (e : EngId),
    exec (.train n v) s = .next { s with late := s.late ++ [.access (aLn n.val 0x10) (some v)] } ∧
    exec (.dmaGo c) s = .next { s with late := s.late ++ [.access (aDma c.val 0x1C) (some 3)] } ∧
    exec (.adcGo k) s = .next { s with late := s.late ++ [.access (aHlt 0x14) (some (BitVec.ofNat 32 (k.toNat + 2 ^ 31)))] } ∧
    exec (.engCntClear e) s = .next { s with late := s.late ++ [.access (aEng (engIx e) 0x20) (some 1)] } ∧
    exec .culmFrameLo s = .next { s with late := s.late ++ [.access (aCulm 0) none] }) ∧
  (∀ (s : State) (g : Agent) (a : Nat) (v : W32),
    (a % 4 ≠ 0 ∨ 2 ^ 31 ≤ a → s.writeReg g a v = s) ∧
    (a % 4 = 0 → a < 2 ^ 31 → regFields a = [] → s.writeReg g a v = s.flag 0x8C 1) ∧
    (regFields a ≠ [] → s.writeReg g a v = s.unitWrite g a v)) ∧
  (∀ (s : State) (g : Agent) (v : W32), s.unitWrite g 0x84 v = (s.plainWrite 0x84 v).pinsUpdate ∧
    s.unitWrite g 0x8C v = s.plainWrite 0x8C v ∧ s.unitWrite g 0x40 v = s.plainWrite 0x40 v ∧
    s.unitWrite g (aHlt 0xC) v = s.plainWrite (aHlt 0xC) v ∧ s.unitWrite g (aGrn 0) v = s.plainWrite (aGrn 0) v) ∧
  (∀ (s : State) (a : Nat) (v : W32) (f : Field), s.Inv → a ≠ 0x8C → f ∈ regFields a →
    let t := s.plainWrite a v
    let old := s.rf a f.lo f.w
    let new := t.rf a f.lo f.w
    let put := field v f.lo f.w
    (f.acc = .rw → new = put) ∧ (f.acc = .wl → s.wlLocked = false → new = put) ∧ (f.acc = .wl → s.wlLocked = true → new = old) ∧
    (f.acc = .wl → s.wlLocked = true → put ≠ old → t.bit 0x8C 0 = true) ∧
    (f.acc = .w1c → s.flagged a f.lo = false → new = (if put = 0 then old else 0)) ∧
    (f.acc = .w1c → s.flagged a f.lo = true → new = old) ∧ (f.acc = .ro ∨ f.acc = .wo ∨ f.acc = .trg → new = old) ∧
    (∀ b, b ≠ a → b ≠ 0x8C → t.rd b = s.rd b) ∧ t = { s with regs := t.regs, bus := t.bus }) ∧
  (∀ (s : State) (a i : Nat), s.Inv → i < 32 → let t := s.flag a i
    t.bit a i = true ∧ OnlyRegs { s with bus := t.bus } t [a] ∧ (∀ j < 32, j ≠ i → t.bit a j = s.bit a j) ∧
    ((s.busCycle (busOf a)).inputs ≠ [] → t.flagged a i = true)) ∧
  (∀ (s : State) (a : Nat) (v w : W32), s.Inv → s.bus = [] → a % 4 = 0 → a < 0x200000 → regFields a = [] → w.getLsbD 1 = true →
    ((s.bridgeWrite .mgmt a v).bridgeWrite .dma 0x8C w).bit 0x8C 1 = true ∧
    ((s.bridgeWrite .mgmt a v).busEnd.bridgeWrite .dma 0x8C w).bit 0x8C 1 = false) ∧
  (∀ (s : State) (n : Fin 16) (o : Nat) (v : W32), 0x40 ≤ o → s.pxState n.val = 2 ∨ s.pxState n.val = 3 →
    ((∃ f ∈ regFields (aPx n.val o), f.acc ≠ .ro) → s.pxWrite n.val o v = s.flag (aPx n.val 0x28) 6) ∧
    ((∀ f ∈ regFields (aPx n.val o), f.acc = .ro) → s.pxWrite n.val o v = s.plainWrite (aPx n.val o) v)) ∧
  (∀ (s : State) (n : Fin 64) (o : Nat) (v : W32), s.Inv → (s.lane n.val).kept = true →
    ((s.lnWrite n.val o v).lane n.val).kept = !s.configures n.val o v) ∧
  (∀ a : Nat, (regFields a).Pairwise (fun x y => x.lo + x.w ≤ y.lo ∨ y.lo + y.w ≤ x.lo) ∧
    ∀ f ∈ regFields a, 0 < f.w ∧ f.lo + f.w ≤ 32)
end

