-- ==== Sys2Proof/Laws/Sparse.lean ====
section
/-!
SUPPORT. What the three operations of a sparse map do: a read after a write, the other keys, and the canonical form.
-/

namespace Sys2Proof.Machine

variable {α : Type} {d : Nat → α}

theorem spGet_spIns_self (m : List (Nat × α)) (k : Nat) (v : α) : spGet d (spIns k v m) k = v := by
  induction m with
  | nil => simp [spIns, spGet]
  | cons p m ih =>
    obtain ⟨i, u⟩ := p
    simp only [spIns]
    split
    · simp [spGet]
    · split
      · simp [spGet]
      · simp only [spGet]; rw [if_neg (by omega)]; exact ih

theorem spGet_spIns_ne (m : List (Nat × α)) {k j : Nat} (v : α) (h : j ≠ k) : spGet d (spIns k v m) j = spGet d m j := by
  induction m with
  | nil => simp [spIns, spGet, h.symm]
  | cons p m ih =>
    obtain ⟨i, u⟩ := p
    simp only [spIns]
    split
    · simp [spGet, h.symm]
    · split
      · subst_vars; simp [spGet, h.symm]
      · simp only [spGet]; split
        · rfl
        · exact ih

theorem spGet_spDel_ne (m : List (Nat × α)) {k j : Nat} (h : j ≠ k) : spGet d (spDel k m) j = spGet d m j := by
  induction m with
  | nil => rfl
  | cons p m ih =>
    obtain ⟨i, u⟩ := p
    simp only [spDel]
    split
    · subst_vars; simp [spGet, h.symm]
    · simp only [spGet]; split
      · rfl
      · exact ih

variable [DecidableEq α]

/-- A write leaves every other key as it was. -/
theorem spGet_spSet_ne (m : List (Nat × α)) {k j : Nat} (v : α) (h : j ≠ k) : spGet d (spSet d m k v) j = spGet d m j := by
  unfold spSet; split
  · exact spGet_spDel_ne m h
  · exact spGet_spIns_ne m v h

theorem spOkFrom_mono {m : List (Nat × α)} {n k : Nat} (h : spOkFrom d n m = true) (hk : k ≤ n) : spOkFrom d k m = true := by
  cases m with
  | nil => rfl
  | cons p m =>
    obtain ⟨i, u⟩ := p
    simp only [spOkFrom, Bool.and_eq_true, decide_eq_true_eq] at h ⊢
    exact ⟨⟨by omega, h.1.2⟩, h.2⟩

/-- Below the bound of a canonical list every key reads as its default. -/
theorem spGet_of_lt {m : List (Nat × α)} {n k : Nat} (h : spOkFrom d n m = true) (hk : k < n) : spGet d m k = d k := by
  induction m generalizing n with
  | nil => rfl
  | cons p m ih =>
    obtain ⟨i, u⟩ := p
    simp only [spOkFrom, Bool.and_eq_true, decide_eq_true_eq] at h
    simp only [spGet]
    rw [if_neg (by omega)]
    exact ih h.2 (by omega)

theorem spGet_spDel_self {m : List (Nat × α)} {n : Nat} (h : spOkFrom d n m = true) (k : Nat) : spGet d (spDel k m) k = d k := by
  induction m generalizing n with
  | nil => rfl
  | cons p m ih =>
    obtain ⟨i, u⟩ := p
    simp only [spOkFrom, Bool.and_eq_true, decide_eq_true_eq] at h
    simp only [spDel]
    split
    · subst_vars; exact spGet_of_lt h.2 (by omega)
    · simp only [spGet]; rw [if_neg (by assumption)]; exact ih h.2

/-- A read of a canonical map after a write of the same key gives the value written. -/
theorem spGet_spSet_self {m : List (Nat × α)} (h : spOk d m = true) (k : Nat) (v : α) : spGet d (spSet d m k v) k = v := by
  unfold spSet; split
  · rw [spGet_spDel_self h]; exact (by assumption : v = d k).symm
  · exact spGet_spIns_self m k v

theorem spOkFrom_spDel {m : List (Nat × α)} {n : Nat} (h : spOkFrom d n m = true) (k : Nat) : spOkFrom d n (spDel k m) = true := by
  induction m generalizing n with
  | nil => rfl
  | cons p m ih =>
    obtain ⟨i, u⟩ := p
    simp only [spOkFrom, Bool.and_eq_true, decide_eq_true_eq] at h
    simp only [spDel]
    split
    · exact spOkFrom_mono h.2 (by omega)
    · simp only [spOkFrom, Bool.and_eq_true, decide_eq_true_eq]; exact ⟨h.1, ih h.2⟩

theorem spOkFrom_spIns {m : List (Nat × α)} {n k : Nat} {v : α} (h : spOkFrom d n m = true) (hn : n ≤ k) (hv : v ≠ d k) :
    spOkFrom d n (spIns k v m) = true := by
  induction m generalizing n with
  | nil => simp [spIns, spOkFrom, hn, hv]
  | cons p m ih =>
    obtain ⟨i, u⟩ := p
    simp only [spOkFrom, Bool.and_eq_true, decide_eq_true_eq] at h
    simp only [spIns]
    split
    · simp only [spOkFrom, Bool.and_eq_true, decide_eq_true_eq]
      exact ⟨⟨hn, hv⟩, ⟨by omega, h.1.2⟩, h.2⟩
    · split
      · simp only [spOkFrom, Bool.and_eq_true, decide_eq_true_eq]
        exact ⟨⟨hn, hv⟩, by subst_vars; exact h.2⟩
      · simp only [spOkFrom, Bool.and_eq_true, decide_eq_true_eq]
        exact ⟨h.1, ih h.2 (by omega)⟩

/-- A write keeps the canonical form. -/
theorem spOk_spSet {m : List (Nat × α)} (h : spOk d m = true) (k : Nat) (v : α) : spOk d (spSet d m k v) = true := by
  unfold spSet; split
  · exact spOkFrom_spDel h k
  · exact spOkFrom_spIns h (Nat.zero_le k) (by assumption)

theorem spOkFrom_filter {m : List (Nat × α)} {n : Nat} (h : spOkFrom d n m = true) (p : Nat × α → Bool) :
    spOkFrom d n (m.filter p) = true := by
  induction m generalizing n with
  | nil => rfl
  | cons q m ih =>
    obtain ⟨i, u⟩ := q
    simp only [spOkFrom, Bool.and_eq_true, decide_eq_true_eq] at h
    simp only [List.filter]
    split
    · simp only [spOkFrom, Bool.and_eq_true, decide_eq_true_eq]; exact ⟨h.1, ih h.2⟩
    · exact ih (spOkFrom_mono h.2 (by omega))

/-- Removing entries keeps the canonical form. -/
theorem spOk_filter {m : List (Nat × α)} (h : spOk d m = true) (p : Nat × α → Bool) : spOk d (m.filter p) = true :=
  spOkFrom_filter h p

/-- Two canonical maps that read the same from `n` on are the same list. -/
theorem spExtFrom {m₁ m₂ : List (Nat × α)} {n : Nat} (h₁ : spOkFrom d n m₁ = true) (h₂ : spOkFrom d n m₂ = true)
    (h : ∀ k, spGet d m₁ k = spGet d m₂ k) : m₁ = m₂ := by
  induction m₁ generalizing m₂ n with
  | nil =>
    cases m₂ with
    | nil => rfl
    | cons p m =>
      obtain ⟨i, u⟩ := p
      simp only [spOkFrom, Bool.and_eq_true, decide_eq_true_eq] at h₂
      have := h i
      simp [spGet] at this
      exact absurd this.symm h₂.1.2
  | cons p m ih =>
    obtain ⟨i, u⟩ := p
    have g₁ := h₁
    simp only [spOkFrom, Bool.and_eq_true, decide_eq_true_eq] at h₁
    cases m₂ with
    | nil =>
      have := h i
      simp [spGet] at this
      exact absurd this h₁.1.2
    | cons q m₂ =>
      obtain ⟨j, v⟩ := q
      have g₂ := h₂
      simp only [spOkFrom, Bool.and_eq_true, decide_eq_true_eq] at h₂
      have hij : i = j := by
        rcases Nat.lt_trichotomy i j with hlt | he | hgt
        · have := h i
          rw [spGet_of_lt (n := j) (m := (j, v) :: m₂) (by simp only [spOkFrom, Bool.and_eq_true, decide_eq_true_eq]; exact ⟨⟨Nat.le_refl j, h₂.1.2⟩, h₂.2⟩) hlt] at this
          simp [spGet] at this
          exact absurd this h₁.1.2
        · exact he
        · have := h j
          rw [spGet_of_lt (n := i) (m := (i, u) :: m) (by simp only [spOkFrom, Bool.and_eq_true, decide_eq_true_eq]; exact ⟨⟨Nat.le_refl i, h₁.1.2⟩, h₁.2⟩) hgt] at this
          simp [spGet] at this
          exact absurd this.symm h₂.1.2
      subst hij
      have huv : u = v := by simpa [spGet] using h i
      subst huv
      congr 1
      refine ih h₁.2 h₂.2 fun k => ?_
      rcases Nat.lt_trichotomy i k with hlt | he | hgt
      · have := h k; simpa [spGet, Nat.ne_of_lt hlt] using this
      · subst he; rw [spGet_of_lt h₁.2 (Nat.lt_succ_self i), spGet_of_lt h₂.2 (Nat.lt_succ_self i)]
      · rw [spGet_of_lt h₁.2 (by omega), spGet_of_lt h₂.2 (by omega)]

/-- Equal contents are equal lists. -/
theorem sp_ext {m₁ m₂ : List (Nat × α)} (h₁ : spOk d m₁ = true) (h₂ : spOk d m₂ = true)
    (h : ∀ k, spGet d m₁ k = spGet d m₂ k) : m₁ = m₂ := spExtFrom h₁ h₂ h

end Sys2Proof.Machine
end

