-- ==== Sys2Proof/Laws/State.lean ====
section
/-!
SUPPORT. What every basic update of the state leaves alone, one lemma per field, so that no later proof unfolds a record
update.
-/

namespace Sys2Proof.Machine

variable (s : State)

@[simp] theorem State.wr_pending (a : Nat) (v : W32) : (s.wr a v).pending = s.pending := rfl
@[simp] theorem State.wr_fresh (a : Nat) (v : W32) : (s.wr a v).fresh = s.fresh := rfl
@[simp] theorem State.wr_nextId (a : Nat) (v : W32) : (s.wr a v).nextId = s.nextId := rfl
@[simp] theorem State.wr_eclk (a : Nat) (v : W32) : (s.wr a v).eclk = s.eclk := rfl
@[simp] theorem State.wr_bar0 (a : Nat) (v : W32) : (s.wr a v).bar0 = s.bar0 := rfl
@[simp] theorem State.wr_mem (a : Nat) (v : W32) : (s.wr a v).mem = s.mem := rfl
@[simp] theorem State.wr_busOut (a : Nat) (v : W32) : (s.wr a v).busOut = s.busOut := rfl
@[simp] theorem State.wr_prog (a : Nat) (v : W32) : (s.wr a v).prog = s.prog := rfl
@[simp] theorem State.wr_progOn (a : Nat) (v : W32) : (s.wr a v).progOn = s.progOn := rfl
@[simp] theorem State.wr_engs (a : Nat) (v : W32) : (s.wr a v).engs = s.engs := rfl
@[simp] theorem State.wr_ths (a : Nat) (v : W32) : (s.wr a v).ths = s.ths := rfl
@[simp] theorem State.wr_chans (a : Nat) (v : W32) : (s.wr a v).chans = s.chans := rfl
@[simp] theorem State.wr_flights (a : Nat) (v : W32) : (s.wr a v).flights = s.flights := rfl
@[simp] theorem State.wr_culmStart (a : Nat) (v : W32) : (s.wr a v).culmStart = s.culmStart := rfl
@[simp] theorem State.wr_culmDone (a : Nat) (v : W32) : (s.wr a v).culmDone = s.culmDone := rfl
@[simp] theorem State.wr_tasks (a : Nat) (v : W32) : (s.wr a v).tasks = s.tasks := rfl
@[simp] theorem State.wr_evq (a : Nat) (v : W32) : (s.wr a v).evq = s.evq := rfl
@[simp] theorem State.wr_taskOps (a : Nat) (v : W32) : (s.wr a v).taskOps = s.taskOps := rfl
@[simp] theorem State.wr_opFree (a : Nat) (v : W32) : (s.wr a v).opFree = s.opFree := rfl
@[simp] theorem State.wr_pageOuts (a : Nat) (v : W32) : (s.wr a v).pageOuts = s.pageOuts := rfl
@[simp] theorem State.wr_roundStart (a : Nat) (v : W32) : (s.wr a v).roundStart = s.roundStart := rfl
@[simp] theorem State.wr_granted (a : Nat) (v : W32) : (s.wr a v).granted = s.granted := rfl
@[simp] theorem State.wr_schedAt (a : Nat) (v : W32) : (s.wr a v).schedAt = s.schedAt := rfl
@[simp] theorem State.wr_intake (a : Nat) (v : W32) : (s.wr a v).intake = s.intake := rfl
@[simp] theorem State.wr_ctxReads (a : Nat) (v : W32) : (s.wr a v).ctxReads = s.ctxReads := rfl
@[simp] theorem State.wr_ctxWrites (a : Nat) (v : W32) : (s.wr a v).ctxWrites = s.ctxWrites := rfl
@[simp] theorem State.wr_mtxq (a : Nat) (v : W32) : (s.wr a v).mtxq = s.mtxq := rfl
@[simp] theorem State.wr_xfers (a : Nat) (v : W32) : (s.wr a v).xfers = s.xfers := rfl
@[simp] theorem State.wr_mtxBusy (a : Nat) (v : W32) : (s.wr a v).mtxBusy = s.mtxBusy := rfl
@[simp] theorem State.wr_bus (a : Nat) (v : W32) : (s.wr a v).bus = s.bus := rfl
@[simp] theorem State.wr_banks (a : Nat) (v : W32) : (s.wr a v).banks = s.banks := rfl
@[simp] theorem State.wr_bankPois (a : Nat) (v : W32) : (s.wr a v).bankPois = s.bankPois := rfl
@[simp] theorem State.wr_dramq (a : Nat) (v : W32) : (s.wr a v).dramq = s.dramq := rfl
@[simp] theorem State.wr_poisoned (a : Nat) (v : W32) : (s.wr a v).poisoned = s.poisoned := rfl
@[simp] theorem State.wr_scrubbed (a : Nat) (v : W32) : (s.wr a v).scrubbed = s.scrubbed := rfl
@[simp] theorem State.wr_rowCe (a : Nat) (v : W32) : (s.wr a v).rowCe = s.rowCe := rfl
@[simp] theorem State.wr_pprq (a : Nat) (v : W32) : (s.wr a v).pprq = s.pprq := rfl
@[simp] theorem State.wr_glnPos (a : Nat) (v : W32) : (s.wr a v).glnPos = s.glnPos := rfl
@[simp] theorem State.wr_recPois (a : Nat) (v : W32) : (s.wr a v).recPois = s.recPois := rfl
@[simp] theorem State.wr_glnDue (a : Nat) (v : W32) : (s.wr a v).glnDue = s.glnDue := rfl
@[simp] theorem State.wr_grants (a : Nat) (v : W32) : (s.wr a v).grants = s.grants := rfl
@[simp] theorem State.wr_px (a : Nat) (v : W32) : (s.wr a v).px = s.px := rfl
@[simp] theorem State.wr_pg (a : Nat) (v : W32) : (s.wr a v).pg = s.pg := rfl
@[simp] theorem State.wr_lanes (a : Nat) (v : W32) : (s.wr a v).lanes = s.lanes := rfl
@[simp] theorem State.wr_tsets (a : Nat) (v : W32) : (s.wr a v).tsets = s.tsets := rfl
@[simp] theorem State.wr_pxprog (a : Nat) (v : W32) : (s.wr a v).pxprog = s.pxprog := rfl
@[simp] theorem State.wr_scr (a : Nat) (v : W32) : (s.wr a v).scr = s.scr := rfl
@[simp] theorem State.wr_startReq (a : Nat) (v : W32) : (s.wr a v).startReq = s.startReq := rfl
@[simp] theorem State.wr_thr (a : Nat) (v : W32) : (s.wr a v).thr = s.thr := rfl
@[simp] theorem State.wr_regions (a : Nat) (v : W32) : (s.wr a v).regions = s.regions := rfl
@[simp] theorem State.wr_rdesc (a : Nat) (v : W32) : (s.wr a v).rdesc = s.rdesc := rfl
@[simp] theorem State.wr_sites (a : Nat) (v : W32) : (s.wr a v).sites = s.sites := rfl
@[simp] theorem State.wr_repairQ (a : Nat) (v : W32) : (s.wr a v).repairQ = s.repairQ := rfl
@[simp] theorem State.wr_queues (a : Nat) (v : W32) : (s.wr a v).queues = s.queues := rfl
@[simp] theorem State.wr_inprog (a : Nat) (v : W32) : (s.wr a v).inprog = s.inprog := rfl
@[simp] theorem State.wr_lastQ (a : Nat) (v : W32) : (s.wr a v).lastQ = s.lastQ := rfl
@[simp] theorem State.wr_opsDone (a : Nat) (v : W32) : (s.wr a v).opsDone = s.opsDone := rfl
@[simp] theorem State.wr_hostMem (a : Nat) (v : W32) : (s.wr a v).hostMem = s.hostMem := rfl
@[simp] theorem State.wr_msixPend (a : Nat) (v : W32) : (s.wr a v).msixPend = s.msixPend := rfl
@[simp] theorem State.wr_msixSent (a : Nat) (v : W32) : (s.wr a v).msixSent = s.msixSent := rfl
@[simp] theorem State.wr_bar2 (a : Nat) (v : W32) : (s.wr a v).bar2 = s.bar2 := rfl
@[simp] theorem State.wr_cfgSpace (a : Nat) (v : W32) : (s.wr a v).cfgSpace = s.cfgSpace := rfl
@[simp] theorem State.wr_perst (a : Nat) (v : W32) : (s.wr a v).perst = s.perst := rfl
@[simp] theorem State.wr_stickyNote (a : Nat) (v : W32) : (s.wr a v).stickyNote = s.stickyNote := rfl
@[simp] theorem State.wr_faultNote (a : Nat) (v : W32) : (s.wr a v).faultNote = s.faultNote := rfl
@[simp] theorem State.wr_unreported (a : Nat) (v : W32) : (s.wr a v).unreported = s.unreported := rfl
@[simp] theorem State.wr_syncq (a : Nat) (v : W32) : (s.wr a v).syncq = s.syncq := rfl
@[simp] theorem State.wr_syncOut (a : Nat) (v : W32) : (s.wr a v).syncOut = s.syncOut := rfl
@[simp] theorem State.wr_startSeq (a : Nat) (v : W32) : (s.wr a v).startSeq = s.startSeq := rfl
@[simp] theorem State.wr_startSent (a : Nat) (v : W32) : (s.wr a v).startSent = s.startSent := rfl
@[simp] theorem State.wr_sleeping (a : Nat) (v : W32) : (s.wr a v).sleeping = s.sleeping := rfl
@[simp] theorem State.wr_tap (a : Nat) (v : W32) : (s.wr a v).tap = s.tap := rfl
@[simp] theorem State.wr_dma (a : Nat) (v : W32) : (s.wr a v).dma = s.dma := rfl
@[simp] theorem State.wr_dmaq (a : Nat) (v : W32) : (s.wr a v).dmaq = s.dmaq := rfl
@[simp] theorem State.wr_dmaLast (a : Nat) (v : W32) : (s.wr a v).dmaLast = s.dmaLast := rfl
@[simp] theorem State.wr_tmrStage (a : Nat) (v : W32) : (s.wr a v).tmrStage = s.tmrStage := rfl
@[simp] theorem State.wr_tmrRun (a : Nat) (v : W32) : (s.wr a v).tmrRun = s.tmrRun := rfl
@[simp] theorem State.wr_tmrActs (a : Nat) (v : W32) : (s.wr a v).tmrActs = s.tmrActs := rfl
@[simp] theorem State.wr_tmrDue (a : Nat) (v : W32) : (s.wr a v).tmrDue = s.tmrDue := rfl
@[simp] theorem State.wr_tmrEdge (a : Nat) (v : W32) : (s.wr a v).tmrEdge = s.tmrEdge := rfl
@[simp] theorem State.wr_tmrGate (a : Nat) (v : W32) : (s.wr a v).tmrGate = s.tmrGate := rfl
@[simp] theorem State.wr_tmrDiv (a : Nat) (v : W32) : (s.wr a v).tmrDiv = s.tmrDiv := rfl
@[simp] theorem State.wr_tmrSlow (a : Nat) (v : W32) : (s.wr a v).tmrSlow = s.tmrSlow := rfl
@[simp] theorem State.wr_adc (a : Nat) (v : W32) : (s.wr a v).adc = s.adc := rfl
@[simp] theorem State.wr_age (a : Nat) (v : W32) : (s.wr a v).age = s.age := rfl
@[simp] theorem State.wr_ageOver (a : Nat) (v : W32) : (s.wr a v).ageOver = s.ageOver := rfl
@[simp] theorem State.wr_avs (a : Nat) (v : W32) : (s.wr a v).avs = s.avs := rfl
@[simp] theorem State.wr_avsOut (a : Nat) (v : W32) : (s.wr a v).avsOut = s.avsOut := rfl
@[simp] theorem State.wr_nv (a : Nat) (v : W32) : (s.wr a v).nv = s.nv := rfl
@[simp] theorem State.wr_nvOld (a : Nat) (v : W32) : (s.wr a v).nvOld = s.nvOld := rfl
@[simp] theorem State.wr_flash (a : Nat) (v : W32) : (s.wr a v).flash = s.flash := rfl
@[simp] theorem State.wr_image (a : Nat) (v : W32) : (s.wr a v).image = s.image := rfl
@[simp] theorem State.wr_power (a : Nat) (v : W32) : (s.wr a v).power = s.power := rfl
@[simp] theorem State.wr_straps (a : Nat) (v : W32) : (s.wr a v).straps = s.straps := rfl
@[simp] theorem State.wr_histCopy (a : Nat) (v : W32) : (s.wr a v).histCopy = s.histCopy := rfl
@[simp] theorem State.wr_lifeTicks (a : Nat) (v : W32) : (s.wr a v).lifeTicks = s.lifeTicks := rfl
@[simp] theorem State.wr_sleepDue (a : Nat) (v : W32) : (s.wr a v).sleepDue = s.sleepDue := rfl
@[simp] theorem State.wr_engStop (a : Nat) (v : W32) : (s.wr a v).engStop = s.engStop := rfl
@[simp] theorem State.wr_safe (a : Nat) (v : W32) : (s.wr a v).safe = s.safe := rfl
@[simp] theorem State.wr_smbOut (a : Nat) (v : W32) : (s.wr a v).smbOut = s.smbOut := rfl
@[simp] theorem State.wr_late (a : Nat) (v : W32) : (s.wr a v).late = s.late := rfl
@[simp] theorem State.wr_wakeDue (a : Nat) (v : W32) : (s.wr a v).wakeDue = s.wakeDue := rfl

@[simp] theorem State.wrB_pending (a : Nat) (v : W32) : (s.wrB a v).pending = s.pending := rfl
@[simp] theorem State.wrB_fresh (a : Nat) (v : W32) : (s.wrB a v).fresh = s.fresh := rfl
@[simp] theorem State.wrB_nextId (a : Nat) (v : W32) : (s.wrB a v).nextId = s.nextId := rfl
@[simp] theorem State.wrB_eclk (a : Nat) (v : W32) : (s.wrB a v).eclk = s.eclk := rfl
@[simp] theorem State.wrB_regs (a : Nat) (v : W32) : (s.wrB a v).regs = s.regs := rfl
@[simp] theorem State.wrB_mem (a : Nat) (v : W32) : (s.wrB a v).mem = s.mem := rfl
@[simp] theorem State.wrB_busOut (a : Nat) (v : W32) : (s.wrB a v).busOut = s.busOut := rfl
@[simp] theorem State.wrB_prog (a : Nat) (v : W32) : (s.wrB a v).prog = s.prog := rfl
@[simp] theorem State.wrB_progOn (a : Nat) (v : W32) : (s.wrB a v).progOn = s.progOn := rfl
@[simp] theorem State.wrB_engs (a : Nat) (v : W32) : (s.wrB a v).engs = s.engs := rfl
@[simp] theorem State.wrB_ths (a : Nat) (v : W32) : (s.wrB a v).ths = s.ths := rfl
@[simp] theorem State.wrB_chans (a : Nat) (v : W32) : (s.wrB a v).chans = s.chans := rfl
@[simp] theorem State.wrB_flights (a : Nat) (v : W32) : (s.wrB a v).flights = s.flights := rfl
@[simp] theorem State.wrB_culmStart (a : Nat) (v : W32) : (s.wrB a v).culmStart = s.culmStart := rfl
@[simp] theorem State.wrB_culmDone (a : Nat) (v : W32) : (s.wrB a v).culmDone = s.culmDone := rfl
@[simp] theorem State.wrB_tasks (a : Nat) (v : W32) : (s.wrB a v).tasks = s.tasks := rfl
@[simp] theorem State.wrB_evq (a : Nat) (v : W32) : (s.wrB a v).evq = s.evq := rfl
@[simp] theorem State.wrB_taskOps (a : Nat) (v : W32) : (s.wrB a v).taskOps = s.taskOps := rfl
@[simp] theorem State.wrB_opFree (a : Nat) (v : W32) : (s.wrB a v).opFree = s.opFree := rfl
@[simp] theorem State.wrB_pageOuts (a : Nat) (v : W32) : (s.wrB a v).pageOuts = s.pageOuts := rfl
@[simp] theorem State.wrB_roundStart (a : Nat) (v : W32) : (s.wrB a v).roundStart = s.roundStart := rfl
@[simp] theorem State.wrB_granted (a : Nat) (v : W32) : (s.wrB a v).granted = s.granted := rfl
@[simp] theorem State.wrB_schedAt (a : Nat) (v : W32) : (s.wrB a v).schedAt = s.schedAt := rfl
@[simp] theorem State.wrB_intake (a : Nat) (v : W32) : (s.wrB a v).intake = s.intake := rfl
@[simp] theorem State.wrB_ctxReads (a : Nat) (v : W32) : (s.wrB a v).ctxReads = s.ctxReads := rfl
@[simp] theorem State.wrB_ctxWrites (a : Nat) (v : W32) : (s.wrB a v).ctxWrites = s.ctxWrites := rfl
@[simp] theorem State.wrB_mtxq (a : Nat) (v : W32) : (s.wrB a v).mtxq = s.mtxq := rfl
@[simp] theorem State.wrB_xfers (a : Nat) (v : W32) : (s.wrB a v).xfers = s.xfers := rfl
@[simp] theorem State.wrB_mtxBusy (a : Nat) (v : W32) : (s.wrB a v).mtxBusy = s.mtxBusy := rfl
@[simp] theorem State.wrB_bus (a : Nat) (v : W32) : (s.wrB a v).bus = s.bus := rfl
@[simp] theorem State.wrB_banks (a : Nat) (v : W32) : (s.wrB a v).banks = s.banks := rfl
@[simp] theorem State.wrB_bankPois (a : Nat) (v : W32) : (s.wrB a v).bankPois = s.bankPois := rfl
@[simp] theorem State.wrB_dramq (a : Nat) (v : W32) : (s.wrB a v).dramq = s.dramq := rfl
@[simp] theorem State.wrB_poisoned (a : Nat) (v : W32) : (s.wrB a v).poisoned = s.poisoned := rfl
@[simp] theorem State.wrB_scrubbed (a : Nat) (v : W32) : (s.wrB a v).scrubbed = s.scrubbed := rfl
@[simp] theorem State.wrB_rowCe (a : Nat) (v : W32) : (s.wrB a v).rowCe = s.rowCe := rfl
@[simp] theorem State.wrB_pprq (a : Nat) (v : W32) : (s.wrB a v).pprq = s.pprq := rfl
@[simp] theorem State.wrB_glnPos (a : Nat) (v : W32) : (s.wrB a v).glnPos = s.glnPos := rfl
@[simp] theorem State.wrB_recPois (a : Nat) (v : W32) : (s.wrB a v).recPois = s.recPois := rfl
@[simp] theorem State.wrB_glnDue (a : Nat) (v : W32) : (s.wrB a v).glnDue = s.glnDue := rfl
@[simp] theorem State.wrB_grants (a : Nat) (v : W32) : (s.wrB a v).grants = s.grants := rfl
@[simp] theorem State.wrB_px (a : Nat) (v : W32) : (s.wrB a v).px = s.px := rfl
@[simp] theorem State.wrB_pg (a : Nat) (v : W32) : (s.wrB a v).pg = s.pg := rfl
@[simp] theorem State.wrB_lanes (a : Nat) (v : W32) : (s.wrB a v).lanes = s.lanes := rfl
@[simp] theorem State.wrB_tsets (a : Nat) (v : W32) : (s.wrB a v).tsets = s.tsets := rfl
@[simp] theorem State.wrB_pxprog (a : Nat) (v : W32) : (s.wrB a v).pxprog = s.pxprog := rfl
@[simp] theorem State.wrB_scr (a : Nat) (v : W32) : (s.wrB a v).scr = s.scr := rfl
@[simp] theorem State.wrB_startReq (a : Nat) (v : W32) : (s.wrB a v).startReq = s.startReq := rfl
@[simp] theorem State.wrB_thr (a : Nat) (v : W32) : (s.wrB a v).thr = s.thr := rfl
@[simp] theorem State.wrB_regions (a : Nat) (v : W32) : (s.wrB a v).regions = s.regions := rfl
@[simp] theorem State.wrB_rdesc (a : Nat) (v : W32) : (s.wrB a v).rdesc = s.rdesc := rfl
@[simp] theorem State.wrB_sites (a : Nat) (v : W32) : (s.wrB a v).sites = s.sites := rfl
@[simp] theorem State.wrB_repairQ (a : Nat) (v : W32) : (s.wrB a v).repairQ = s.repairQ := rfl
@[simp] theorem State.wrB_queues (a : Nat) (v : W32) : (s.wrB a v).queues = s.queues := rfl
@[simp] theorem State.wrB_inprog (a : Nat) (v : W32) : (s.wrB a v).inprog = s.inprog := rfl
@[simp] theorem State.wrB_lastQ (a : Nat) (v : W32) : (s.wrB a v).lastQ = s.lastQ := rfl
@[simp] theorem State.wrB_opsDone (a : Nat) (v : W32) : (s.wrB a v).opsDone = s.opsDone := rfl
@[simp] theorem State.wrB_hostMem (a : Nat) (v : W32) : (s.wrB a v).hostMem = s.hostMem := rfl
@[simp] theorem State.wrB_msixPend (a : Nat) (v : W32) : (s.wrB a v).msixPend = s.msixPend := rfl
@[simp] theorem State.wrB_msixSent (a : Nat) (v : W32) : (s.wrB a v).msixSent = s.msixSent := rfl
@[simp] theorem State.wrB_bar2 (a : Nat) (v : W32) : (s.wrB a v).bar2 = s.bar2 := rfl
@[simp] theorem State.wrB_cfgSpace (a : Nat) (v : W32) : (s.wrB a v).cfgSpace = s.cfgSpace := rfl
@[simp] theorem State.wrB_perst (a : Nat) (v : W32) : (s.wrB a v).perst = s.perst := rfl
@[simp] theorem State.wrB_stickyNote (a : Nat) (v : W32) : (s.wrB a v).stickyNote = s.stickyNote := rfl
@[simp] theorem State.wrB_faultNote (a : Nat) (v : W32) : (s.wrB a v).faultNote = s.faultNote := rfl
@[simp] theorem State.wrB_unreported (a : Nat) (v : W32) : (s.wrB a v).unreported = s.unreported := rfl
@[simp] theorem State.wrB_syncq (a : Nat) (v : W32) : (s.wrB a v).syncq = s.syncq := rfl
@[simp] theorem State.wrB_syncOut (a : Nat) (v : W32) : (s.wrB a v).syncOut = s.syncOut := rfl
@[simp] theorem State.wrB_startSeq (a : Nat) (v : W32) : (s.wrB a v).startSeq = s.startSeq := rfl
@[simp] theorem State.wrB_startSent (a : Nat) (v : W32) : (s.wrB a v).startSent = s.startSent := rfl
@[simp] theorem State.wrB_sleeping (a : Nat) (v : W32) : (s.wrB a v).sleeping = s.sleeping := rfl
@[simp] theorem State.wrB_tap (a : Nat) (v : W32) : (s.wrB a v).tap = s.tap := rfl
@[simp] theorem State.wrB_dma (a : Nat) (v : W32) : (s.wrB a v).dma = s.dma := rfl
@[simp] theorem State.wrB_dmaq (a : Nat) (v : W32) : (s.wrB a v).dmaq = s.dmaq := rfl
@[simp] theorem State.wrB_dmaLast (a : Nat) (v : W32) : (s.wrB a v).dmaLast = s.dmaLast := rfl
@[simp] theorem State.wrB_tmrStage (a : Nat) (v : W32) : (s.wrB a v).tmrStage = s.tmrStage := rfl
@[simp] theorem State.wrB_tmrRun (a : Nat) (v : W32) : (s.wrB a v).tmrRun = s.tmrRun := rfl
@[simp] theorem State.wrB_tmrActs (a : Nat) (v : W32) : (s.wrB a v).tmrActs = s.tmrActs := rfl
@[simp] theorem State.wrB_tmrDue (a : Nat) (v : W32) : (s.wrB a v).tmrDue = s.tmrDue := rfl
@[simp] theorem State.wrB_tmrEdge (a : Nat) (v : W32) : (s.wrB a v).tmrEdge = s.tmrEdge := rfl
@[simp] theorem State.wrB_tmrGate (a : Nat) (v : W32) : (s.wrB a v).tmrGate = s.tmrGate := rfl
@[simp] theorem State.wrB_tmrDiv (a : Nat) (v : W32) : (s.wrB a v).tmrDiv = s.tmrDiv := rfl
@[simp] theorem State.wrB_tmrSlow (a : Nat) (v : W32) : (s.wrB a v).tmrSlow = s.tmrSlow := rfl
@[simp] theorem State.wrB_adc (a : Nat) (v : W32) : (s.wrB a v).adc = s.adc := rfl
@[simp] theorem State.wrB_age (a : Nat) (v : W32) : (s.wrB a v).age = s.age := rfl
@[simp] theorem State.wrB_ageOver (a : Nat) (v : W32) : (s.wrB a v).ageOver = s.ageOver := rfl
@[simp] theorem State.wrB_avs (a : Nat) (v : W32) : (s.wrB a v).avs = s.avs := rfl
@[simp] theorem State.wrB_avsOut (a : Nat) (v : W32) : (s.wrB a v).avsOut = s.avsOut := rfl
@[simp] theorem State.wrB_nv (a : Nat) (v : W32) : (s.wrB a v).nv = s.nv := rfl
@[simp] theorem State.wrB_nvOld (a : Nat) (v : W32) : (s.wrB a v).nvOld = s.nvOld := rfl
@[simp] theorem State.wrB_flash (a : Nat) (v : W32) : (s.wrB a v).flash = s.flash := rfl
@[simp] theorem State.wrB_image (a : Nat) (v : W32) : (s.wrB a v).image = s.image := rfl
@[simp] theorem State.wrB_power (a : Nat) (v : W32) : (s.wrB a v).power = s.power := rfl
@[simp] theorem State.wrB_straps (a : Nat) (v : W32) : (s.wrB a v).straps = s.straps := rfl
@[simp] theorem State.wrB_histCopy (a : Nat) (v : W32) : (s.wrB a v).histCopy = s.histCopy := rfl
@[simp] theorem State.wrB_lifeTicks (a : Nat) (v : W32) : (s.wrB a v).lifeTicks = s.lifeTicks := rfl
@[simp] theorem State.wrB_sleepDue (a : Nat) (v : W32) : (s.wrB a v).sleepDue = s.sleepDue := rfl
@[simp] theorem State.wrB_engStop (a : Nat) (v : W32) : (s.wrB a v).engStop = s.engStop := rfl
@[simp] theorem State.wrB_safe (a : Nat) (v : W32) : (s.wrB a v).safe = s.safe := rfl
@[simp] theorem State.wrB_smbOut (a : Nat) (v : W32) : (s.wrB a v).smbOut = s.smbOut := rfl
@[simp] theorem State.wrB_late (a : Nat) (v : W32) : (s.wrB a v).late = s.late := rfl
@[simp] theorem State.wrB_wakeDue (a : Nat) (v : W32) : (s.wrB a v).wakeDue = s.wakeDue := rfl

@[simp] theorem State.setByte_pending (a : Nat) (v : Byte) : (s.setByte a v).pending = s.pending := rfl
@[simp] theorem State.setByte_fresh (a : Nat) (v : Byte) : (s.setByte a v).fresh = s.fresh := rfl
@[simp] theorem State.setByte_nextId (a : Nat) (v : Byte) : (s.setByte a v).nextId = s.nextId := rfl
@[simp] theorem State.setByte_eclk (a : Nat) (v : Byte) : (s.setByte a v).eclk = s.eclk := rfl
@[simp] theorem State.setByte_regs (a : Nat) (v : Byte) : (s.setByte a v).regs = s.regs := rfl
@[simp] theorem State.setByte_bar0 (a : Nat) (v : Byte) : (s.setByte a v).bar0 = s.bar0 := rfl
@[simp] theorem State.setByte_busOut (a : Nat) (v : Byte) : (s.setByte a v).busOut = s.busOut := rfl
@[simp] theorem State.setByte_prog (a : Nat) (v : Byte) : (s.setByte a v).prog = s.prog := rfl
@[simp] theorem State.setByte_progOn (a : Nat) (v : Byte) : (s.setByte a v).progOn = s.progOn := rfl
@[simp] theorem State.setByte_engs (a : Nat) (v : Byte) : (s.setByte a v).engs = s.engs := rfl
@[simp] theorem State.setByte_ths (a : Nat) (v : Byte) : (s.setByte a v).ths = s.ths := rfl
@[simp] theorem State.setByte_chans (a : Nat) (v : Byte) : (s.setByte a v).chans = s.chans := rfl
@[simp] theorem State.setByte_flights (a : Nat) (v : Byte) : (s.setByte a v).flights = s.flights := rfl
@[simp] theorem State.setByte_culmStart (a : Nat) (v : Byte) : (s.setByte a v).culmStart = s.culmStart := rfl
@[simp] theorem State.setByte_culmDone (a : Nat) (v : Byte) : (s.setByte a v).culmDone = s.culmDone := rfl
@[simp] theorem State.setByte_tasks (a : Nat) (v : Byte) : (s.setByte a v).tasks = s.tasks := rfl
@[simp] theorem State.setByte_evq (a : Nat) (v : Byte) : (s.setByte a v).evq = s.evq := rfl
@[simp] theorem State.setByte_taskOps (a : Nat) (v : Byte) : (s.setByte a v).taskOps = s.taskOps := rfl
@[simp] theorem State.setByte_opFree (a : Nat) (v : Byte) : (s.setByte a v).opFree = s.opFree := rfl
@[simp] theorem State.setByte_pageOuts (a : Nat) (v : Byte) : (s.setByte a v).pageOuts = s.pageOuts := rfl
@[simp] theorem State.setByte_roundStart (a : Nat) (v : Byte) : (s.setByte a v).roundStart = s.roundStart := rfl
@[simp] theorem State.setByte_granted (a : Nat) (v : Byte) : (s.setByte a v).granted = s.granted := rfl
@[simp] theorem State.setByte_schedAt (a : Nat) (v : Byte) : (s.setByte a v).schedAt = s.schedAt := rfl
@[simp] theorem State.setByte_intake (a : Nat) (v : Byte) : (s.setByte a v).intake = s.intake := rfl
@[simp] theorem State.setByte_ctxReads (a : Nat) (v : Byte) : (s.setByte a v).ctxReads = s.ctxReads := rfl
@[simp] theorem State.setByte_ctxWrites (a : Nat) (v : Byte) : (s.setByte a v).ctxWrites = s.ctxWrites := rfl
@[simp] theorem State.setByte_mtxq (a : Nat) (v : Byte) : (s.setByte a v).mtxq = s.mtxq := rfl
@[simp] theorem State.setByte_xfers (a : Nat) (v : Byte) : (s.setByte a v).xfers = s.xfers := rfl
@[simp] theorem State.setByte_mtxBusy (a : Nat) (v : Byte) : (s.setByte a v).mtxBusy = s.mtxBusy := rfl
@[simp] theorem State.setByte_bus (a : Nat) (v : Byte) : (s.setByte a v).bus = s.bus := rfl
@[simp] theorem State.setByte_banks (a : Nat) (v : Byte) : (s.setByte a v).banks = s.banks := rfl
@[simp] theorem State.setByte_bankPois (a : Nat) (v : Byte) : (s.setByte a v).bankPois = s.bankPois := rfl
@[simp] theorem State.setByte_dramq (a : Nat) (v : Byte) : (s.setByte a v).dramq = s.dramq := rfl
@[simp] theorem State.setByte_poisoned (a : Nat) (v : Byte) : (s.setByte a v).poisoned = s.poisoned := rfl
@[simp] theorem State.setByte_scrubbed (a : Nat) (v : Byte) : (s.setByte a v).scrubbed = s.scrubbed := rfl
@[simp] theorem State.setByte_rowCe (a : Nat) (v : Byte) : (s.setByte a v).rowCe = s.rowCe := rfl
@[simp] theorem State.setByte_pprq (a : Nat) (v : Byte) : (s.setByte a v).pprq = s.pprq := rfl
@[simp] theorem State.setByte_glnPos (a : Nat) (v : Byte) : (s.setByte a v).glnPos = s.glnPos := rfl
@[simp] theorem State.setByte_recPois (a : Nat) (v : Byte) : (s.setByte a v).recPois = s.recPois := rfl
@[simp] theorem State.setByte_glnDue (a : Nat) (v : Byte) : (s.setByte a v).glnDue = s.glnDue := rfl
@[simp] theorem State.setByte_grants (a : Nat) (v : Byte) : (s.setByte a v).grants = s.grants := rfl
@[simp] theorem State.setByte_px (a : Nat) (v : Byte) : (s.setByte a v).px = s.px := rfl
@[simp] theorem State.setByte_pg (a : Nat) (v : Byte) : (s.setByte a v).pg = s.pg := rfl
@[simp] theorem State.setByte_lanes (a : Nat) (v : Byte) : (s.setByte a v).lanes = s.lanes := rfl
@[simp] theorem State.setByte_tsets (a : Nat) (v : Byte) : (s.setByte a v).tsets = s.tsets := rfl
@[simp] theorem State.setByte_pxprog (a : Nat) (v : Byte) : (s.setByte a v).pxprog = s.pxprog := rfl
@[simp] theorem State.setByte_scr (a : Nat) (v : Byte) : (s.setByte a v).scr = s.scr := rfl
@[simp] theorem State.setByte_startReq (a : Nat) (v : Byte) : (s.setByte a v).startReq = s.startReq := rfl
@[simp] theorem State.setByte_thr (a : Nat) (v : Byte) : (s.setByte a v).thr = s.thr := rfl
@[simp] theorem State.setByte_regions (a : Nat) (v : Byte) : (s.setByte a v).regions = s.regions := rfl
@[simp] theorem State.setByte_rdesc (a : Nat) (v : Byte) : (s.setByte a v).rdesc = s.rdesc := rfl
@[simp] theorem State.setByte_sites (a : Nat) (v : Byte) : (s.setByte a v).sites = s.sites := rfl
@[simp] theorem State.setByte_repairQ (a : Nat) (v : Byte) : (s.setByte a v).repairQ = s.repairQ := rfl
@[simp] theorem State.setByte_queues (a : Nat) (v : Byte) : (s.setByte a v).queues = s.queues := rfl
@[simp] theorem State.setByte_inprog (a : Nat) (v : Byte) : (s.setByte a v).inprog = s.inprog := rfl
@[simp] theorem State.setByte_lastQ (a : Nat) (v : Byte) : (s.setByte a v).lastQ = s.lastQ := rfl
@[simp] theorem State.setByte_opsDone (a : Nat) (v : Byte) : (s.setByte a v).opsDone = s.opsDone := rfl
@[simp] theorem State.setByte_hostMem (a : Nat) (v : Byte) : (s.setByte a v).hostMem = s.hostMem := rfl
@[simp] theorem State.setByte_msixPend (a : Nat) (v : Byte) : (s.setByte a v).msixPend = s.msixPend := rfl
@[simp] theorem State.setByte_msixSent (a : Nat) (v : Byte) : (s.setByte a v).msixSent = s.msixSent := rfl
@[simp] theorem State.setByte_bar2 (a : Nat) (v : Byte) : (s.setByte a v).bar2 = s.bar2 := rfl
@[simp] theorem State.setByte_cfgSpace (a : Nat) (v : Byte) : (s.setByte a v).cfgSpace = s.cfgSpace := rfl
@[simp] theorem State.setByte_perst (a : Nat) (v : Byte) : (s.setByte a v).perst = s.perst := rfl
@[simp] theorem State.setByte_stickyNote (a : Nat) (v : Byte) : (s.setByte a v).stickyNote = s.stickyNote := rfl
@[simp] theorem State.setByte_faultNote (a : Nat) (v : Byte) : (s.setByte a v).faultNote = s.faultNote := rfl
@[simp] theorem State.setByte_unreported (a : Nat) (v : Byte) : (s.setByte a v).unreported = s.unreported := rfl
@[simp] theorem State.setByte_syncq (a : Nat) (v : Byte) : (s.setByte a v).syncq = s.syncq := rfl
@[simp] theorem State.setByte_syncOut (a : Nat) (v : Byte) : (s.setByte a v).syncOut = s.syncOut := rfl
@[simp] theorem State.setByte_startSeq (a : Nat) (v : Byte) : (s.setByte a v).startSeq = s.startSeq := rfl
@[simp] theorem State.setByte_startSent (a : Nat) (v : Byte) : (s.setByte a v).startSent = s.startSent := rfl
@[simp] theorem State.setByte_sleeping (a : Nat) (v : Byte) : (s.setByte a v).sleeping = s.sleeping := rfl
@[simp] theorem State.setByte_tap (a : Nat) (v : Byte) : (s.setByte a v).tap = s.tap := rfl
@[simp] theorem State.setByte_dma (a : Nat) (v : Byte) : (s.setByte a v).dma = s.dma := rfl
@[simp] theorem State.setByte_dmaq (a : Nat) (v : Byte) : (s.setByte a v).dmaq = s.dmaq := rfl
@[simp] theorem State.setByte_dmaLast (a : Nat) (v : Byte) : (s.setByte a v).dmaLast = s.dmaLast := rfl
@[simp] theorem State.setByte_tmrStage (a : Nat) (v : Byte) : (s.setByte a v).tmrStage = s.tmrStage := rfl
@[simp] theorem State.setByte_tmrRun (a : Nat) (v : Byte) : (s.setByte a v).tmrRun = s.tmrRun := rfl
@[simp] theorem State.setByte_tmrActs (a : Nat) (v : Byte) : (s.setByte a v).tmrActs = s.tmrActs := rfl
@[simp] theorem State.setByte_tmrDue (a : Nat) (v : Byte) : (s.setByte a v).tmrDue = s.tmrDue := rfl
@[simp] theorem State.setByte_tmrEdge (a : Nat) (v : Byte) : (s.setByte a v).tmrEdge = s.tmrEdge := rfl
@[simp] theorem State.setByte_tmrGate (a : Nat) (v : Byte) : (s.setByte a v).tmrGate = s.tmrGate := rfl
@[simp] theorem State.setByte_tmrDiv (a : Nat) (v : Byte) : (s.setByte a v).tmrDiv = s.tmrDiv := rfl
@[simp] theorem State.setByte_tmrSlow (a : Nat) (v : Byte) : (s.setByte a v).tmrSlow = s.tmrSlow := rfl
@[simp] theorem State.setByte_adc (a : Nat) (v : Byte) : (s.setByte a v).adc = s.adc := rfl
@[simp] theorem State.setByte_age (a : Nat) (v : Byte) : (s.setByte a v).age = s.age := rfl
@[simp] theorem State.setByte_ageOver (a : Nat) (v : Byte) : (s.setByte a v).ageOver = s.ageOver := rfl
@[simp] theorem State.setByte_avs (a : Nat) (v : Byte) : (s.setByte a v).avs = s.avs := rfl
@[simp] theorem State.setByte_avsOut (a : Nat) (v : Byte) : (s.setByte a v).avsOut = s.avsOut := rfl
@[simp] theorem State.setByte_nv (a : Nat) (v : Byte) : (s.setByte a v).nv = s.nv := rfl
@[simp] theorem State.setByte_nvOld (a : Nat) (v : Byte) : (s.setByte a v).nvOld = s.nvOld := rfl
@[simp] theorem State.setByte_flash (a : Nat) (v : Byte) : (s.setByte a v).flash = s.flash := rfl
@[simp] theorem State.setByte_image (a : Nat) (v : Byte) : (s.setByte a v).image = s.image := rfl
@[simp] theorem State.setByte_power (a : Nat) (v : Byte) : (s.setByte a v).power = s.power := rfl
@[simp] theorem State.setByte_straps (a : Nat) (v : Byte) : (s.setByte a v).straps = s.straps := rfl
@[simp] theorem State.setByte_histCopy (a : Nat) (v : Byte) : (s.setByte a v).histCopy = s.histCopy := rfl
@[simp] theorem State.setByte_lifeTicks (a : Nat) (v : Byte) : (s.setByte a v).lifeTicks = s.lifeTicks := rfl
@[simp] theorem State.setByte_sleepDue (a : Nat) (v : Byte) : (s.setByte a v).sleepDue = s.sleepDue := rfl
@[simp] theorem State.setByte_engStop (a : Nat) (v : Byte) : (s.setByte a v).engStop = s.engStop := rfl
@[simp] theorem State.setByte_safe (a : Nat) (v : Byte) : (s.setByte a v).safe = s.safe := rfl
@[simp] theorem State.setByte_smbOut (a : Nat) (v : Byte) : (s.setByte a v).smbOut = s.smbOut := rfl
@[simp] theorem State.setByte_late (a : Nat) (v : Byte) : (s.setByte a v).late = s.late := rfl
@[simp] theorem State.setByte_wakeDue (a : Nat) (v : Byte) : (s.setByte a v).wakeDue = s.wakeDue := rfl

@[simp] theorem State.used_pending : (s.used).pending = s.pending := rfl
@[simp] theorem State.used_nextId : (s.used).nextId = s.nextId := rfl
@[simp] theorem State.used_eclk : (s.used).eclk = s.eclk := rfl
@[simp] theorem State.used_regs : (s.used).regs = s.regs := rfl
@[simp] theorem State.used_bar0 : (s.used).bar0 = s.bar0 := rfl
@[simp] theorem State.used_mem : (s.used).mem = s.mem := rfl
@[simp] theorem State.used_busOut : (s.used).busOut = s.busOut := rfl
@[simp] theorem State.used_prog : (s.used).prog = s.prog := rfl
@[simp] theorem State.used_progOn : (s.used).progOn = s.progOn := rfl
@[simp] theorem State.used_engs : (s.used).engs = s.engs := rfl
@[simp] theorem State.used_ths : (s.used).ths = s.ths := rfl
@[simp] theorem State.used_chans : (s.used).chans = s.chans := rfl
@[simp] theorem State.used_flights : (s.used).flights = s.flights := rfl
@[simp] theorem State.used_culmStart : (s.used).culmStart = s.culmStart := rfl
@[simp] theorem State.used_culmDone : (s.used).culmDone = s.culmDone := rfl
@[simp] theorem State.used_tasks : (s.used).tasks = s.tasks := rfl
@[simp] theorem State.used_evq : (s.used).evq = s.evq := rfl
@[simp] theorem State.used_taskOps : (s.used).taskOps = s.taskOps := rfl
@[simp] theorem State.used_opFree : (s.used).opFree = s.opFree := rfl
@[simp] theorem State.used_pageOuts : (s.used).pageOuts = s.pageOuts := rfl
@[simp] theorem State.used_roundStart : (s.used).roundStart = s.roundStart := rfl
@[simp] theorem State.used_granted : (s.used).granted = s.granted := rfl
@[simp] theorem State.used_schedAt : (s.used).schedAt = s.schedAt := rfl
@[simp] theorem State.used_intake : (s.used).intake = s.intake := rfl
@[simp] theorem State.used_ctxReads : (s.used).ctxReads = s.ctxReads := rfl
@[simp] theorem State.used_ctxWrites : (s.used).ctxWrites = s.ctxWrites := rfl
@[simp] theorem State.used_mtxq : (s.used).mtxq = s.mtxq := rfl
@[simp] theorem State.used_xfers : (s.used).xfers = s.xfers := rfl
@[simp] theorem State.used_mtxBusy : (s.used).mtxBusy = s.mtxBusy := rfl
@[simp] theorem State.used_bus : (s.used).bus = s.bus := rfl
@[simp] theorem State.used_banks : (s.used).banks = s.banks := rfl
@[simp] theorem State.used_bankPois : (s.used).bankPois = s.bankPois := rfl
@[simp] theorem State.used_dramq : (s.used).dramq = s.dramq := rfl
@[simp] theorem State.used_poisoned : (s.used).poisoned = s.poisoned := rfl
@[simp] theorem State.used_scrubbed : (s.used).scrubbed = s.scrubbed := rfl
@[simp] theorem State.used_rowCe : (s.used).rowCe = s.rowCe := rfl
@[simp] theorem State.used_pprq : (s.used).pprq = s.pprq := rfl
@[simp] theorem State.used_glnPos : (s.used).glnPos = s.glnPos := rfl
@[simp] theorem State.used_recPois : (s.used).recPois = s.recPois := rfl
@[simp] theorem State.used_glnDue : (s.used).glnDue = s.glnDue := rfl
@[simp] theorem State.used_grants : (s.used).grants = s.grants := rfl
@[simp] theorem State.used_px : (s.used).px = s.px := rfl
@[simp] theorem State.used_pg : (s.used).pg = s.pg := rfl
@[simp] theorem State.used_lanes : (s.used).lanes = s.lanes := rfl
@[simp] theorem State.used_tsets : (s.used).tsets = s.tsets := rfl
@[simp] theorem State.used_pxprog : (s.used).pxprog = s.pxprog := rfl
@[simp] theorem State.used_scr : (s.used).scr = s.scr := rfl
@[simp] theorem State.used_startReq : (s.used).startReq = s.startReq := rfl
@[simp] theorem State.used_thr : (s.used).thr = s.thr := rfl
@[simp] theorem State.used_regions : (s.used).regions = s.regions := rfl
@[simp] theorem State.used_rdesc : (s.used).rdesc = s.rdesc := rfl
@[simp] theorem State.used_sites : (s.used).sites = s.sites := rfl
@[simp] theorem State.used_repairQ : (s.used).repairQ = s.repairQ := rfl
@[simp] theorem State.used_queues : (s.used).queues = s.queues := rfl
@[simp] theorem State.used_inprog : (s.used).inprog = s.inprog := rfl
@[simp] theorem State.used_lastQ : (s.used).lastQ = s.lastQ := rfl
@[simp] theorem State.used_opsDone : (s.used).opsDone = s.opsDone := rfl
@[simp] theorem State.used_hostMem : (s.used).hostMem = s.hostMem := rfl
@[simp] theorem State.used_msixPend : (s.used).msixPend = s.msixPend := rfl
@[simp] theorem State.used_msixSent : (s.used).msixSent = s.msixSent := rfl
@[simp] theorem State.used_bar2 : (s.used).bar2 = s.bar2 := rfl
@[simp] theorem State.used_cfgSpace : (s.used).cfgSpace = s.cfgSpace := rfl
@[simp] theorem State.used_perst : (s.used).perst = s.perst := rfl
@[simp] theorem State.used_stickyNote : (s.used).stickyNote = s.stickyNote := rfl
@[simp] theorem State.used_faultNote : (s.used).faultNote = s.faultNote := rfl
@[simp] theorem State.used_unreported : (s.used).unreported = s.unreported := rfl
@[simp] theorem State.used_syncq : (s.used).syncq = s.syncq := rfl
@[simp] theorem State.used_syncOut : (s.used).syncOut = s.syncOut := rfl
@[simp] theorem State.used_startSeq : (s.used).startSeq = s.startSeq := rfl
@[simp] theorem State.used_startSent : (s.used).startSent = s.startSent := rfl
@[simp] theorem State.used_sleeping : (s.used).sleeping = s.sleeping := rfl
@[simp] theorem State.used_tap : (s.used).tap = s.tap := rfl
@[simp] theorem State.used_dma : (s.used).dma = s.dma := rfl
@[simp] theorem State.used_dmaq : (s.used).dmaq = s.dmaq := rfl
@[simp] theorem State.used_dmaLast : (s.used).dmaLast = s.dmaLast := rfl
@[simp] theorem State.used_tmrStage : (s.used).tmrStage = s.tmrStage := rfl
@[simp] theorem State.used_tmrRun : (s.used).tmrRun = s.tmrRun := rfl
@[simp] theorem State.used_tmrActs : (s.used).tmrActs = s.tmrActs := rfl
@[simp] theorem State.used_tmrDue : (s.used).tmrDue = s.tmrDue := rfl
@[simp] theorem State.used_tmrEdge : (s.used).tmrEdge = s.tmrEdge := rfl
@[simp] theorem State.used_tmrGate : (s.used).tmrGate = s.tmrGate := rfl
@[simp] theorem State.used_tmrDiv : (s.used).tmrDiv = s.tmrDiv := rfl
@[simp] theorem State.used_tmrSlow : (s.used).tmrSlow = s.tmrSlow := rfl
@[simp] theorem State.used_adc : (s.used).adc = s.adc := rfl
@[simp] theorem State.used_age : (s.used).age = s.age := rfl
@[simp] theorem State.used_ageOver : (s.used).ageOver = s.ageOver := rfl
@[simp] theorem State.used_avs : (s.used).avs = s.avs := rfl
@[simp] theorem State.used_avsOut : (s.used).avsOut = s.avsOut := rfl
@[simp] theorem State.used_nv : (s.used).nv = s.nv := rfl
@[simp] theorem State.used_nvOld : (s.used).nvOld = s.nvOld := rfl
@[simp] theorem State.used_flash : (s.used).flash = s.flash := rfl
@[simp] theorem State.used_image : (s.used).image = s.image := rfl
@[simp] theorem State.used_power : (s.used).power = s.power := rfl
@[simp] theorem State.used_straps : (s.used).straps = s.straps := rfl
@[simp] theorem State.used_histCopy : (s.used).histCopy = s.histCopy := rfl
@[simp] theorem State.used_lifeTicks : (s.used).lifeTicks = s.lifeTicks := rfl
@[simp] theorem State.used_sleepDue : (s.used).sleepDue = s.sleepDue := rfl
@[simp] theorem State.used_engStop : (s.used).engStop = s.engStop := rfl
@[simp] theorem State.used_safe : (s.used).safe = s.safe := rfl
@[simp] theorem State.used_smbOut : (s.used).smbOut = s.smbOut := rfl
@[simp] theorem State.used_late : (s.used).late = s.late := rfl
@[simp] theorem State.used_wakeDue : (s.used).wakeDue = s.wakeDue := rfl

@[simp] theorem State.busEnter_pending (a i : Nat) (o : Option W32) : (s.busEnter a i o).pending = s.pending := rfl
@[simp] theorem State.busEnter_fresh (a i : Nat) (o : Option W32) : (s.busEnter a i o).fresh = s.fresh := rfl
@[simp] theorem State.busEnter_nextId (a i : Nat) (o : Option W32) : (s.busEnter a i o).nextId = s.nextId := rfl
@[simp] theorem State.busEnter_eclk (a i : Nat) (o : Option W32) : (s.busEnter a i o).eclk = s.eclk := rfl
@[simp] theorem State.busEnter_regs (a i : Nat) (o : Option W32) : (s.busEnter a i o).regs = s.regs := rfl
@[simp] theorem State.busEnter_bar0 (a i : Nat) (o : Option W32) : (s.busEnter a i o).bar0 = s.bar0 := rfl
@[simp] theorem State.busEnter_mem (a i : Nat) (o : Option W32) : (s.busEnter a i o).mem = s.mem := rfl
@[simp] theorem State.busEnter_busOut (a i : Nat) (o : Option W32) : (s.busEnter a i o).busOut = s.busOut := rfl
@[simp] theorem State.busEnter_prog (a i : Nat) (o : Option W32) : (s.busEnter a i o).prog = s.prog := rfl
@[simp] theorem State.busEnter_progOn (a i : Nat) (o : Option W32) : (s.busEnter a i o).progOn = s.progOn := rfl
@[simp] theorem State.busEnter_engs (a i : Nat) (o : Option W32) : (s.busEnter a i o).engs = s.engs := rfl
@[simp] theorem State.busEnter_ths (a i : Nat) (o : Option W32) : (s.busEnter a i o).ths = s.ths := rfl
@[simp] theorem State.busEnter_chans (a i : Nat) (o : Option W32) : (s.busEnter a i o).chans = s.chans := rfl
@[simp] theorem State.busEnter_flights (a i : Nat) (o : Option W32) : (s.busEnter a i o).flights = s.flights := rfl
@[simp] theorem State.busEnter_culmStart (a i : Nat) (o : Option W32) : (s.busEnter a i o).culmStart = s.culmStart := rfl
@[simp] theorem State.busEnter_culmDone (a i : Nat) (o : Option W32) : (s.busEnter a i o).culmDone = s.culmDone := rfl
@[simp] theorem State.busEnter_tasks (a i : Nat) (o : Option W32) : (s.busEnter a i o).tasks = s.tasks := rfl
@[simp] theorem State.busEnter_evq (a i : Nat) (o : Option W32) : (s.busEnter a i o).evq = s.evq := rfl
@[simp] theorem State.busEnter_taskOps (a i : Nat) (o : Option W32) : (s.busEnter a i o).taskOps = s.taskOps := rfl
@[simp] theorem State.busEnter_opFree (a i : Nat) (o : Option W32) : (s.busEnter a i o).opFree = s.opFree := rfl
@[simp] theorem State.busEnter_pageOuts (a i : Nat) (o : Option W32) : (s.busEnter a i o).pageOuts = s.pageOuts := rfl
@[simp] theorem State.busEnter_roundStart (a i : Nat) (o : Option W32) : (s.busEnter a i o).roundStart = s.roundStart := rfl
@[simp] theorem State.busEnter_granted (a i : Nat) (o : Option W32) : (s.busEnter a i o).granted = s.granted := rfl
@[simp] theorem State.busEnter_schedAt (a i : Nat) (o : Option W32) : (s.busEnter a i o).schedAt = s.schedAt := rfl
@[simp] theorem State.busEnter_intake (a i : Nat) (o : Option W32) : (s.busEnter a i o).intake = s.intake := rfl
@[simp] theorem State.busEnter_ctxReads (a i : Nat) (o : Option W32) : (s.busEnter a i o).ctxReads = s.ctxReads := rfl
@[simp] theorem State.busEnter_ctxWrites (a i : Nat) (o : Option W32) : (s.busEnter a i o).ctxWrites = s.ctxWrites := rfl
@[simp] theorem State.busEnter_mtxq (a i : Nat) (o : Option W32) : (s.busEnter a i o).mtxq = s.mtxq := rfl
@[simp] theorem State.busEnter_xfers (a i : Nat) (o : Option W32) : (s.busEnter a i o).xfers = s.xfers := rfl
@[simp] theorem State.busEnter_mtxBusy (a i : Nat) (o : Option W32) : (s.busEnter a i o).mtxBusy = s.mtxBusy := rfl
@[simp] theorem State.busEnter_banks (a i : Nat) (o : Option W32) : (s.busEnter a i o).banks = s.banks := rfl
@[simp] theorem State.busEnter_bankPois (a i : Nat) (o : Option W32) : (s.busEnter a i o).bankPois = s.bankPois := rfl
@[simp] theorem State.busEnter_dramq (a i : Nat) (o : Option W32) : (s.busEnter a i o).dramq = s.dramq := rfl
@[simp] theorem State.busEnter_poisoned (a i : Nat) (o : Option W32) : (s.busEnter a i o).poisoned = s.poisoned := rfl
@[simp] theorem State.busEnter_scrubbed (a i : Nat) (o : Option W32) : (s.busEnter a i o).scrubbed = s.scrubbed := rfl
@[simp] theorem State.busEnter_rowCe (a i : Nat) (o : Option W32) : (s.busEnter a i o).rowCe = s.rowCe := rfl
@[simp] theorem State.busEnter_pprq (a i : Nat) (o : Option W32) : (s.busEnter a i o).pprq = s.pprq := rfl
@[simp] theorem State.busEnter_glnPos (a i : Nat) (o : Option W32) : (s.busEnter a i o).glnPos = s.glnPos := rfl
@[simp] theorem State.busEnter_recPois (a i : Nat) (o : Option W32) : (s.busEnter a i o).recPois = s.recPois := rfl
@[simp] theorem State.busEnter_glnDue (a i : Nat) (o : Option W32) : (s.busEnter a i o).glnDue = s.glnDue := rfl
@[simp] theorem State.busEnter_grants (a i : Nat) (o : Option W32) : (s.busEnter a i o).grants = s.grants := rfl
@[simp] theorem State.busEnter_px (a i : Nat) (o : Option W32) : (s.busEnter a i o).px = s.px := rfl
@[simp] theorem State.busEnter_pg (a i : Nat) (o : Option W32) : (s.busEnter a i o).pg = s.pg := rfl
@[simp] theorem State.busEnter_lanes (a i : Nat) (o : Option W32) : (s.busEnter a i o).lanes = s.lanes := rfl
@[simp] theorem State.busEnter_tsets (a i : Nat) (o : Option W32) : (s.busEnter a i o).tsets = s.tsets := rfl
@[simp] theorem State.busEnter_pxprog (a i : Nat) (o : Option W32) : (s.busEnter a i o).pxprog = s.pxprog := rfl
@[simp] theorem State.busEnter_scr (a i : Nat) (o : Option W32) : (s.busEnter a i o).scr = s.scr := rfl
@[simp] theorem State.busEnter_startReq (a i : Nat) (o : Option W32) : (s.busEnter a i o).startReq = s.startReq := rfl
@[simp] theorem State.busEnter_thr (a i : Nat) (o : Option W32) : (s.busEnter a i o).thr = s.thr := rfl
@[simp] theorem State.busEnter_regions (a i : Nat) (o : Option W32) : (s.busEnter a i o).regions = s.regions := rfl
@[simp] theorem State.busEnter_rdesc (a i : Nat) (o : Option W32) : (s.busEnter a i o).rdesc = s.rdesc := rfl
@[simp] theorem State.busEnter_sites (a i : Nat) (o : Option W32) : (s.busEnter a i o).sites = s.sites := rfl
@[simp] theorem State.busEnter_repairQ (a i : Nat) (o : Option W32) : (s.busEnter a i o).repairQ = s.repairQ := rfl
@[simp] theorem State.busEnter_queues (a i : Nat) (o : Option W32) : (s.busEnter a i o).queues = s.queues := rfl
@[simp] theorem State.busEnter_inprog (a i : Nat) (o : Option W32) : (s.busEnter a i o).inprog = s.inprog := rfl
@[simp] theorem State.busEnter_lastQ (a i : Nat) (o : Option W32) : (s.busEnter a i o).lastQ = s.lastQ := rfl
@[simp] theorem State.busEnter_opsDone (a i : Nat) (o : Option W32) : (s.busEnter a i o).opsDone = s.opsDone := rfl
@[simp] theorem State.busEnter_hostMem (a i : Nat) (o : Option W32) : (s.busEnter a i o).hostMem = s.hostMem := rfl
@[simp] theorem State.busEnter_msixPend (a i : Nat) (o : Option W32) : (s.busEnter a i o).msixPend = s.msixPend := rfl
@[simp] theorem State.busEnter_msixSent (a i : Nat) (o : Option W32) : (s.busEnter a i o).msixSent = s.msixSent := rfl
@[simp] theorem State.busEnter_bar2 (a i : Nat) (o : Option W32) : (s.busEnter a i o).bar2 = s.bar2 := rfl
@[simp] theorem State.busEnter_cfgSpace (a i : Nat) (o : Option W32) : (s.busEnter a i o).cfgSpace = s.cfgSpace := rfl
@[simp] theorem State.busEnter_perst (a i : Nat) (o : Option W32) : (s.busEnter a i o).perst = s.perst := rfl
@[simp] theorem State.busEnter_stickyNote (a i : Nat) (o : Option W32) : (s.busEnter a i o).stickyNote = s.stickyNote := rfl
@[simp] theorem State.busEnter_faultNote (a i : Nat) (o : Option W32) : (s.busEnter a i o).faultNote = s.faultNote := rfl
@[simp] theorem State.busEnter_unreported (a i : Nat) (o : Option W32) : (s.busEnter a i o).unreported = s.unreported := rfl
@[simp] theorem State.busEnter_syncq (a i : Nat) (o : Option W32) : (s.busEnter a i o).syncq = s.syncq := rfl
@[simp] theorem State.busEnter_syncOut (a i : Nat) (o : Option W32) : (s.busEnter a i o).syncOut = s.syncOut := rfl
@[simp] theorem State.busEnter_startSeq (a i : Nat) (o : Option W32) : (s.busEnter a i o).startSeq = s.startSeq := rfl
@[simp] theorem State.busEnter_startSent (a i : Nat) (o : Option W32) : (s.busEnter a i o).startSent = s.startSent := rfl
@[simp] theorem State.busEnter_sleeping (a i : Nat) (o : Option W32) : (s.busEnter a i o).sleeping = s.sleeping := rfl
@[simp] theorem State.busEnter_tap (a i : Nat) (o : Option W32) : (s.busEnter a i o).tap = s.tap := rfl
@[simp] theorem State.busEnter_dma (a i : Nat) (o : Option W32) : (s.busEnter a i o).dma = s.dma := rfl
@[simp] theorem State.busEnter_dmaq (a i : Nat) (o : Option W32) : (s.busEnter a i o).dmaq = s.dmaq := rfl
@[simp] theorem State.busEnter_dmaLast (a i : Nat) (o : Option W32) : (s.busEnter a i o).dmaLast = s.dmaLast := rfl
@[simp] theorem State.busEnter_tmrStage (a i : Nat) (o : Option W32) : (s.busEnter a i o).tmrStage = s.tmrStage := rfl
@[simp] theorem State.busEnter_tmrRun (a i : Nat) (o : Option W32) : (s.busEnter a i o).tmrRun = s.tmrRun := rfl
@[simp] theorem State.busEnter_tmrActs (a i : Nat) (o : Option W32) : (s.busEnter a i o).tmrActs = s.tmrActs := rfl
@[simp] theorem State.busEnter_tmrDue (a i : Nat) (o : Option W32) : (s.busEnter a i o).tmrDue = s.tmrDue := rfl
@[simp] theorem State.busEnter_tmrEdge (a i : Nat) (o : Option W32) : (s.busEnter a i o).tmrEdge = s.tmrEdge := rfl
@[simp] theorem State.busEnter_tmrGate (a i : Nat) (o : Option W32) : (s.busEnter a i o).tmrGate = s.tmrGate := rfl
@[simp] theorem State.busEnter_tmrDiv (a i : Nat) (o : Option W32) : (s.busEnter a i o).tmrDiv = s.tmrDiv := rfl
@[simp] theorem State.busEnter_tmrSlow (a i : Nat) (o : Option W32) : (s.busEnter a i o).tmrSlow = s.tmrSlow := rfl
@[simp] theorem State.busEnter_adc (a i : Nat) (o : Option W32) : (s.busEnter a i o).adc = s.adc := rfl
@[simp] theorem State.busEnter_age (a i : Nat) (o : Option W32) : (s.busEnter a i o).age = s.age := rfl
@[simp] theorem State.busEnter_ageOver (a i : Nat) (o : Option W32) : (s.busEnter a i o).ageOver = s.ageOver := rfl
@[simp] theorem State.busEnter_avs (a i : Nat) (o : Option W32) : (s.busEnter a i o).avs = s.avs := rfl
@[simp] theorem State.busEnter_avsOut (a i : Nat) (o : Option W32) : (s.busEnter a i o).avsOut = s.avsOut := rfl
@[simp] theorem State.busEnter_nv (a i : Nat) (o : Option W32) : (s.busEnter a i o).nv = s.nv := rfl
@[simp] theorem State.busEnter_nvOld (a i : Nat) (o : Option W32) : (s.busEnter a i o).nvOld = s.nvOld := rfl
@[simp] theorem State.busEnter_flash (a i : Nat) (o : Option W32) : (s.busEnter a i o).flash = s.flash := rfl
@[simp] theorem State.busEnter_image (a i : Nat) (o : Option W32) : (s.busEnter a i o).image = s.image := rfl
@[simp] theorem State.busEnter_power (a i : Nat) (o : Option W32) : (s.busEnter a i o).power = s.power := rfl
@[simp] theorem State.busEnter_straps (a i : Nat) (o : Option W32) : (s.busEnter a i o).straps = s.straps := rfl
@[simp] theorem State.busEnter_histCopy (a i : Nat) (o : Option W32) : (s.busEnter a i o).histCopy = s.histCopy := rfl
@[simp] theorem State.busEnter_lifeTicks (a i : Nat) (o : Option W32) : (s.busEnter a i o).lifeTicks = s.lifeTicks := rfl
@[simp] theorem State.busEnter_sleepDue (a i : Nat) (o : Option W32) : (s.busEnter a i o).sleepDue = s.sleepDue := rfl
@[simp] theorem State.busEnter_engStop (a i : Nat) (o : Option W32) : (s.busEnter a i o).engStop = s.engStop := rfl
@[simp] theorem State.busEnter_safe (a i : Nat) (o : Option W32) : (s.busEnter a i o).safe = s.safe := rfl
@[simp] theorem State.busEnter_smbOut (a i : Nat) (o : Option W32) : (s.busEnter a i o).smbOut = s.smbOut := rfl
@[simp] theorem State.busEnter_late (a i : Nat) (o : Option W32) : (s.busEnter a i o).late = s.late := rfl
@[simp] theorem State.busEnter_wakeDue (a i : Nat) (o : Option W32) : (s.busEnter a i o).wakeDue = s.wakeDue := rfl

@[simp] theorem State.busEnd_pending : (s.busEnd).pending = s.pending := rfl
@[simp] theorem State.busEnd_fresh : (s.busEnd).fresh = s.fresh := rfl
@[simp] theorem State.busEnd_nextId : (s.busEnd).nextId = s.nextId := rfl
@[simp] theorem State.busEnd_eclk : (s.busEnd).eclk = s.eclk := rfl
@[simp] theorem State.busEnd_regs : (s.busEnd).regs = s.regs := rfl
@[simp] theorem State.busEnd_bar0 : (s.busEnd).bar0 = s.bar0 := rfl
@[simp] theorem State.busEnd_mem : (s.busEnd).mem = s.mem := rfl
@[simp] theorem State.busEnd_busOut : (s.busEnd).busOut = s.busOut := rfl
@[simp] theorem State.busEnd_prog : (s.busEnd).prog = s.prog := rfl
@[simp] theorem State.busEnd_progOn : (s.busEnd).progOn = s.progOn := rfl
@[simp] theorem State.busEnd_engs : (s.busEnd).engs = s.engs := rfl
@[simp] theorem State.busEnd_ths : (s.busEnd).ths = s.ths := rfl
@[simp] theorem State.busEnd_chans : (s.busEnd).chans = s.chans := rfl
@[simp] theorem State.busEnd_flights : (s.busEnd).flights = s.flights := rfl
@[simp] theorem State.busEnd_culmStart : (s.busEnd).culmStart = s.culmStart := rfl
@[simp] theorem State.busEnd_culmDone : (s.busEnd).culmDone = s.culmDone := rfl
@[simp] theorem State.busEnd_tasks : (s.busEnd).tasks = s.tasks := rfl
@[simp] theorem State.busEnd_evq : (s.busEnd).evq = s.evq := rfl
@[simp] theorem State.busEnd_taskOps : (s.busEnd).taskOps = s.taskOps := rfl
@[simp] theorem State.busEnd_opFree : (s.busEnd).opFree = s.opFree := rfl
@[simp] theorem State.busEnd_pageOuts : (s.busEnd).pageOuts = s.pageOuts := rfl
@[simp] theorem State.busEnd_roundStart : (s.busEnd).roundStart = s.roundStart := rfl
@[simp] theorem State.busEnd_granted : (s.busEnd).granted = s.granted := rfl
@[simp] theorem State.busEnd_schedAt : (s.busEnd).schedAt = s.schedAt := rfl
@[simp] theorem State.busEnd_intake : (s.busEnd).intake = s.intake := rfl
@[simp] theorem State.busEnd_ctxReads : (s.busEnd).ctxReads = s.ctxReads := rfl
@[simp] theorem State.busEnd_ctxWrites : (s.busEnd).ctxWrites = s.ctxWrites := rfl
@[simp] theorem State.busEnd_mtxq : (s.busEnd).mtxq = s.mtxq := rfl
@[simp] theorem State.busEnd_xfers : (s.busEnd).xfers = s.xfers := rfl
@[simp] theorem State.busEnd_mtxBusy : (s.busEnd).mtxBusy = s.mtxBusy := rfl
@[simp] theorem State.busEnd_banks : (s.busEnd).banks = s.banks := rfl
@[simp] theorem State.busEnd_bankPois : (s.busEnd).bankPois = s.bankPois := rfl
@[simp] theorem State.busEnd_dramq : (s.busEnd).dramq = s.dramq := rfl
@[simp] theorem State.busEnd_poisoned : (s.busEnd).poisoned = s.poisoned := rfl
@[simp] theorem State.busEnd_scrubbed : (s.busEnd).scrubbed = s.scrubbed := rfl
@[simp] theorem State.busEnd_rowCe : (s.busEnd).rowCe = s.rowCe := rfl
@[simp] theorem State.busEnd_pprq : (s.busEnd).pprq = s.pprq := rfl
@[simp] theorem State.busEnd_glnPos : (s.busEnd).glnPos = s.glnPos := rfl
@[simp] theorem State.busEnd_recPois : (s.busEnd).recPois = s.recPois := rfl
@[simp] theorem State.busEnd_glnDue : (s.busEnd).glnDue = s.glnDue := rfl
@[simp] theorem State.busEnd_grants : (s.busEnd).grants = s.grants := rfl
@[simp] theorem State.busEnd_px : (s.busEnd).px = s.px := rfl
@[simp] theorem State.busEnd_pg : (s.busEnd).pg = s.pg := rfl
@[simp] theorem State.busEnd_lanes : (s.busEnd).lanes = s.lanes := rfl
@[simp] theorem State.busEnd_tsets : (s.busEnd).tsets = s.tsets := rfl
@[simp] theorem State.busEnd_pxprog : (s.busEnd).pxprog = s.pxprog := rfl
@[simp] theorem State.busEnd_scr : (s.busEnd).scr = s.scr := rfl
@[simp] theorem State.busEnd_startReq : (s.busEnd).startReq = s.startReq := rfl
@[simp] theorem State.busEnd_thr : (s.busEnd).thr = s.thr := rfl
@[simp] theorem State.busEnd_regions : (s.busEnd).regions = s.regions := rfl
@[simp] theorem State.busEnd_rdesc : (s.busEnd).rdesc = s.rdesc := rfl
@[simp] theorem State.busEnd_sites : (s.busEnd).sites = s.sites := rfl
@[simp] theorem State.busEnd_repairQ : (s.busEnd).repairQ = s.repairQ := rfl
@[simp] theorem State.busEnd_queues : (s.busEnd).queues = s.queues := rfl
@[simp] theorem State.busEnd_inprog : (s.busEnd).inprog = s.inprog := rfl
@[simp] theorem State.busEnd_lastQ : (s.busEnd).lastQ = s.lastQ := rfl
@[simp] theorem State.busEnd_opsDone : (s.busEnd).opsDone = s.opsDone := rfl
@[simp] theorem State.busEnd_hostMem : (s.busEnd).hostMem = s.hostMem := rfl
@[simp] theorem State.busEnd_msixPend : (s.busEnd).msixPend = s.msixPend := rfl
@[simp] theorem State.busEnd_msixSent : (s.busEnd).msixSent = s.msixSent := rfl
@[simp] theorem State.busEnd_bar2 : (s.busEnd).bar2 = s.bar2 := rfl
@[simp] theorem State.busEnd_cfgSpace : (s.busEnd).cfgSpace = s.cfgSpace := rfl
@[simp] theorem State.busEnd_perst : (s.busEnd).perst = s.perst := rfl
@[simp] theorem State.busEnd_stickyNote : (s.busEnd).stickyNote = s.stickyNote := rfl
@[simp] theorem State.busEnd_faultNote : (s.busEnd).faultNote = s.faultNote := rfl
@[simp] theorem State.busEnd_unreported : (s.busEnd).unreported = s.unreported := rfl
@[simp] theorem State.busEnd_syncq : (s.busEnd).syncq = s.syncq := rfl
@[simp] theorem State.busEnd_syncOut : (s.busEnd).syncOut = s.syncOut := rfl
@[simp] theorem State.busEnd_startSeq : (s.busEnd).startSeq = s.startSeq := rfl
@[simp] theorem State.busEnd_startSent : (s.busEnd).startSent = s.startSent := rfl
@[simp] theorem State.busEnd_sleeping : (s.busEnd).sleeping = s.sleeping := rfl
@[simp] theorem State.busEnd_tap : (s.busEnd).tap = s.tap := rfl
@[simp] theorem State.busEnd_dma : (s.busEnd).dma = s.dma := rfl
@[simp] theorem State.busEnd_dmaq : (s.busEnd).dmaq = s.dmaq := rfl
@[simp] theorem State.busEnd_dmaLast : (s.busEnd).dmaLast = s.dmaLast := rfl
@[simp] theorem State.busEnd_tmrStage : (s.busEnd).tmrStage = s.tmrStage := rfl
@[simp] theorem State.busEnd_tmrRun : (s.busEnd).tmrRun = s.tmrRun := rfl
@[simp] theorem State.busEnd_tmrActs : (s.busEnd).tmrActs = s.tmrActs := rfl
@[simp] theorem State.busEnd_tmrDue : (s.busEnd).tmrDue = s.tmrDue := rfl
@[simp] theorem State.busEnd_tmrEdge : (s.busEnd).tmrEdge = s.tmrEdge := rfl
@[simp] theorem State.busEnd_tmrGate : (s.busEnd).tmrGate = s.tmrGate := rfl
@[simp] theorem State.busEnd_tmrDiv : (s.busEnd).tmrDiv = s.tmrDiv := rfl
@[simp] theorem State.busEnd_tmrSlow : (s.busEnd).tmrSlow = s.tmrSlow := rfl
@[simp] theorem State.busEnd_adc : (s.busEnd).adc = s.adc := rfl
@[simp] theorem State.busEnd_age : (s.busEnd).age = s.age := rfl
@[simp] theorem State.busEnd_ageOver : (s.busEnd).ageOver = s.ageOver := rfl
@[simp] theorem State.busEnd_avs : (s.busEnd).avs = s.avs := rfl
@[simp] theorem State.busEnd_avsOut : (s.busEnd).avsOut = s.avsOut := rfl
@[simp] theorem State.busEnd_nv : (s.busEnd).nv = s.nv := rfl
@[simp] theorem State.busEnd_nvOld : (s.busEnd).nvOld = s.nvOld := rfl
@[simp] theorem State.busEnd_flash : (s.busEnd).flash = s.flash := rfl
@[simp] theorem State.busEnd_image : (s.busEnd).image = s.image := rfl
@[simp] theorem State.busEnd_power : (s.busEnd).power = s.power := rfl
@[simp] theorem State.busEnd_straps : (s.busEnd).straps = s.straps := rfl
@[simp] theorem State.busEnd_histCopy : (s.busEnd).histCopy = s.histCopy := rfl
@[simp] theorem State.busEnd_lifeTicks : (s.busEnd).lifeTicks = s.lifeTicks := rfl
@[simp] theorem State.busEnd_sleepDue : (s.busEnd).sleepDue = s.sleepDue := rfl
@[simp] theorem State.busEnd_engStop : (s.busEnd).engStop = s.engStop := rfl
@[simp] theorem State.busEnd_safe : (s.busEnd).safe = s.safe := rfl
@[simp] theorem State.busEnd_smbOut : (s.busEnd).smbOut = s.smbOut := rfl
@[simp] theorem State.busEnd_late : (s.busEnd).late = s.late := rfl
@[simp] theorem State.busEnd_wakeDue : (s.busEnd).wakeDue = s.wakeDue := rfl

@[simp] theorem State.flag_pending (a i : Nat) : (s.flag a i).pending = s.pending := rfl
@[simp] theorem State.flag_fresh (a i : Nat) : (s.flag a i).fresh = s.fresh := rfl
@[simp] theorem State.flag_nextId (a i : Nat) : (s.flag a i).nextId = s.nextId := rfl
@[simp] theorem State.flag_eclk (a i : Nat) : (s.flag a i).eclk = s.eclk := rfl
@[simp] theorem State.flag_bar0 (a i : Nat) : (s.flag a i).bar0 = s.bar0 := rfl
@[simp] theorem State.flag_mem (a i : Nat) : (s.flag a i).mem = s.mem := rfl
@[simp] theorem State.flag_busOut (a i : Nat) : (s.flag a i).busOut = s.busOut := rfl
@[simp] theorem State.flag_prog (a i : Nat) : (s.flag a i).prog = s.prog := rfl
@[simp] theorem State.flag_progOn (a i : Nat) : (s.flag a i).progOn = s.progOn := rfl
@[simp] theorem State.flag_engs (a i : Nat) : (s.flag a i).engs = s.engs := rfl
@[simp] theorem State.flag_ths (a i : Nat) : (s.flag a i).ths = s.ths := rfl
@[simp] theorem State.flag_chans (a i : Nat) : (s.flag a i).chans = s.chans := rfl
@[simp] theorem State.flag_flights (a i : Nat) : (s.flag a i).flights = s.flights := rfl
@[simp] theorem State.flag_culmStart (a i : Nat) : (s.flag a i).culmStart = s.culmStart := rfl
@[simp] theorem State.flag_culmDone (a i : Nat) : (s.flag a i).culmDone = s.culmDone := rfl
@[simp] theorem State.flag_tasks (a i : Nat) : (s.flag a i).tasks = s.tasks := rfl
@[simp] theorem State.flag_evq (a i : Nat) : (s.flag a i).evq = s.evq := rfl
@[simp] theorem State.flag_taskOps (a i : Nat) : (s.flag a i).taskOps = s.taskOps := rfl
@[simp] theorem State.flag_opFree (a i : Nat) : (s.flag a i).opFree = s.opFree := rfl
@[simp] theorem State.flag_pageOuts (a i : Nat) : (s.flag a i).pageOuts = s.pageOuts := rfl
@[simp] theorem State.flag_roundStart (a i : Nat) : (s.flag a i).roundStart = s.roundStart := rfl
@[simp] theorem State.flag_granted (a i : Nat) : (s.flag a i).granted = s.granted := rfl
@[simp] theorem State.flag_schedAt (a i : Nat) : (s.flag a i).schedAt = s.schedAt := rfl
@[simp] theorem State.flag_intake (a i : Nat) : (s.flag a i).intake = s.intake := rfl
@[simp] theorem State.flag_ctxReads (a i : Nat) : (s.flag a i).ctxReads = s.ctxReads := rfl
@[simp] theorem State.flag_ctxWrites (a i : Nat) : (s.flag a i).ctxWrites = s.ctxWrites := rfl
@[simp] theorem State.flag_mtxq (a i : Nat) : (s.flag a i).mtxq = s.mtxq := rfl
@[simp] theorem State.flag_xfers (a i : Nat) : (s.flag a i).xfers = s.xfers := rfl
@[simp] theorem State.flag_mtxBusy (a i : Nat) : (s.flag a i).mtxBusy = s.mtxBusy := rfl
@[simp] theorem State.flag_banks (a i : Nat) : (s.flag a i).banks = s.banks := rfl
@[simp] theorem State.flag_bankPois (a i : Nat) : (s.flag a i).bankPois = s.bankPois := rfl
@[simp] theorem State.flag_dramq (a i : Nat) : (s.flag a i).dramq = s.dramq := rfl
@[simp] theorem State.flag_poisoned (a i : Nat) : (s.flag a i).poisoned = s.poisoned := rfl
@[simp] theorem State.flag_scrubbed (a i : Nat) : (s.flag a i).scrubbed = s.scrubbed := rfl
@[simp] theorem State.flag_rowCe (a i : Nat) : (s.flag a i).rowCe = s.rowCe := rfl
@[simp] theorem State.flag_pprq (a i : Nat) : (s.flag a i).pprq = s.pprq := rfl
@[simp] theorem State.flag_glnPos (a i : Nat) : (s.flag a i).glnPos = s.glnPos := rfl
@[simp] theorem State.flag_recPois (a i : Nat) : (s.flag a i).recPois = s.recPois := rfl
@[simp] theorem State.flag_glnDue (a i : Nat) : (s.flag a i).glnDue = s.glnDue := rfl
@[simp] theorem State.flag_grants (a i : Nat) : (s.flag a i).grants = s.grants := rfl
@[simp] theorem State.flag_px (a i : Nat) : (s.flag a i).px = s.px := rfl
@[simp] theorem State.flag_pg (a i : Nat) : (s.flag a i).pg = s.pg := rfl
@[simp] theorem State.flag_lanes (a i : Nat) : (s.flag a i).lanes = s.lanes := rfl
@[simp] theorem State.flag_tsets (a i : Nat) : (s.flag a i).tsets = s.tsets := rfl
@[simp] theorem State.flag_pxprog (a i : Nat) : (s.flag a i).pxprog = s.pxprog := rfl
@[simp] theorem State.flag_scr (a i : Nat) : (s.flag a i).scr = s.scr := rfl
@[simp] theorem State.flag_startReq (a i : Nat) : (s.flag a i).startReq = s.startReq := rfl
@[simp] theorem State.flag_thr (a i : Nat) : (s.flag a i).thr = s.thr := rfl
@[simp] theorem State.flag_regions (a i : Nat) : (s.flag a i).regions = s.regions := rfl
@[simp] theorem State.flag_rdesc (a i : Nat) : (s.flag a i).rdesc = s.rdesc := rfl
@[simp] theorem State.flag_sites (a i : Nat) : (s.flag a i).sites = s.sites := rfl
@[simp] theorem State.flag_repairQ (a i : Nat) : (s.flag a i).repairQ = s.repairQ := rfl
@[simp] theorem State.flag_queues (a i : Nat) : (s.flag a i).queues = s.queues := rfl
@[simp] theorem State.flag_inprog (a i : Nat) : (s.flag a i).inprog = s.inprog := rfl
@[simp] theorem State.flag_lastQ (a i : Nat) : (s.flag a i).lastQ = s.lastQ := rfl
@[simp] theorem State.flag_opsDone (a i : Nat) : (s.flag a i).opsDone = s.opsDone := rfl
@[simp] theorem State.flag_hostMem (a i : Nat) : (s.flag a i).hostMem = s.hostMem := rfl
@[simp] theorem State.flag_msixPend (a i : Nat) : (s.flag a i).msixPend = s.msixPend := rfl
@[simp] theorem State.flag_msixSent (a i : Nat) : (s.flag a i).msixSent = s.msixSent := rfl
@[simp] theorem State.flag_bar2 (a i : Nat) : (s.flag a i).bar2 = s.bar2 := rfl
@[simp] theorem State.flag_cfgSpace (a i : Nat) : (s.flag a i).cfgSpace = s.cfgSpace := rfl
@[simp] theorem State.flag_perst (a i : Nat) : (s.flag a i).perst = s.perst := rfl
@[simp] theorem State.flag_stickyNote (a i : Nat) : (s.flag a i).stickyNote = s.stickyNote := rfl
@[simp] theorem State.flag_faultNote (a i : Nat) : (s.flag a i).faultNote = s.faultNote := rfl
@[simp] theorem State.flag_unreported (a i : Nat) : (s.flag a i).unreported = s.unreported := rfl
@[simp] theorem State.flag_syncq (a i : Nat) : (s.flag a i).syncq = s.syncq := rfl
@[simp] theorem State.flag_syncOut (a i : Nat) : (s.flag a i).syncOut = s.syncOut := rfl
@[simp] theorem State.flag_startSeq (a i : Nat) : (s.flag a i).startSeq = s.startSeq := rfl
@[simp] theorem State.flag_startSent (a i : Nat) : (s.flag a i).startSent = s.startSent := rfl
@[simp] theorem State.flag_sleeping (a i : Nat) : (s.flag a i).sleeping = s.sleeping := rfl
@[simp] theorem State.flag_tap (a i : Nat) : (s.flag a i).tap = s.tap := rfl
@[simp] theorem State.flag_dma (a i : Nat) : (s.flag a i).dma = s.dma := rfl
@[simp] theorem State.flag_dmaq (a i : Nat) : (s.flag a i).dmaq = s.dmaq := rfl
@[simp] theorem State.flag_dmaLast (a i : Nat) : (s.flag a i).dmaLast = s.dmaLast := rfl
@[simp] theorem State.flag_tmrStage (a i : Nat) : (s.flag a i).tmrStage = s.tmrStage := rfl
@[simp] theorem State.flag_tmrRun (a i : Nat) : (s.flag a i).tmrRun = s.tmrRun := rfl
@[simp] theorem State.flag_tmrActs (a i : Nat) : (s.flag a i).tmrActs = s.tmrActs := rfl
@[simp] theorem State.flag_tmrDue (a i : Nat) : (s.flag a i).tmrDue = s.tmrDue := rfl
@[simp] theorem State.flag_tmrEdge (a i : Nat) : (s.flag a i).tmrEdge = s.tmrEdge := rfl
@[simp] theorem State.flag_tmrGate (a i : Nat) : (s.flag a i).tmrGate = s.tmrGate := rfl
@[simp] theorem State.flag_tmrDiv (a i : Nat) : (s.flag a i).tmrDiv = s.tmrDiv := rfl
@[simp] theorem State.flag_tmrSlow (a i : Nat) : (s.flag a i).tmrSlow = s.tmrSlow := rfl
@[simp] theorem State.flag_adc (a i : Nat) : (s.flag a i).adc = s.adc := rfl
@[simp] theorem State.flag_age (a i : Nat) : (s.flag a i).age = s.age := rfl
@[simp] theorem State.flag_ageOver (a i : Nat) : (s.flag a i).ageOver = s.ageOver := rfl
@[simp] theorem State.flag_avs (a i : Nat) : (s.flag a i).avs = s.avs := rfl
@[simp] theorem State.flag_avsOut (a i : Nat) : (s.flag a i).avsOut = s.avsOut := rfl
@[simp] theorem State.flag_nv (a i : Nat) : (s.flag a i).nv = s.nv := rfl
@[simp] theorem State.flag_nvOld (a i : Nat) : (s.flag a i).nvOld = s.nvOld := rfl
@[simp] theorem State.flag_flash (a i : Nat) : (s.flag a i).flash = s.flash := rfl
@[simp] theorem State.flag_image (a i : Nat) : (s.flag a i).image = s.image := rfl
@[simp] theorem State.flag_power (a i : Nat) : (s.flag a i).power = s.power := rfl
@[simp] theorem State.flag_straps (a i : Nat) : (s.flag a i).straps = s.straps := rfl
@[simp] theorem State.flag_histCopy (a i : Nat) : (s.flag a i).histCopy = s.histCopy := rfl
@[simp] theorem State.flag_lifeTicks (a i : Nat) : (s.flag a i).lifeTicks = s.lifeTicks := rfl
@[simp] theorem State.flag_sleepDue (a i : Nat) : (s.flag a i).sleepDue = s.sleepDue := rfl
@[simp] theorem State.flag_engStop (a i : Nat) : (s.flag a i).engStop = s.engStop := rfl
@[simp] theorem State.flag_safe (a i : Nat) : (s.flag a i).safe = s.safe := rfl
@[simp] theorem State.flag_smbOut (a i : Nat) : (s.flag a i).smbOut = s.smbOut := rfl
@[simp] theorem State.flag_late (a i : Nat) : (s.flag a i).late = s.late := rfl
@[simp] theorem State.flag_wakeDue (a i : Nat) : (s.flag a i).wakeDue = s.wakeDue := rfl

@[simp] theorem State.unflag_pending (a i : Nat) : (s.unflag a i).pending = s.pending := rfl
@[simp] theorem State.unflag_fresh (a i : Nat) : (s.unflag a i).fresh = s.fresh := rfl
@[simp] theorem State.unflag_nextId (a i : Nat) : (s.unflag a i).nextId = s.nextId := rfl
@[simp] theorem State.unflag_eclk (a i : Nat) : (s.unflag a i).eclk = s.eclk := rfl
@[simp] theorem State.unflag_regs (a i : Nat) : (s.unflag a i).regs = s.regs := rfl
@[simp] theorem State.unflag_bar0 (a i : Nat) : (s.unflag a i).bar0 = s.bar0 := rfl
@[simp] theorem State.unflag_mem (a i : Nat) : (s.unflag a i).mem = s.mem := rfl
@[simp] theorem State.unflag_busOut (a i : Nat) : (s.unflag a i).busOut = s.busOut := rfl
@[simp] theorem State.unflag_prog (a i : Nat) : (s.unflag a i).prog = s.prog := rfl
@[simp] theorem State.unflag_progOn (a i : Nat) : (s.unflag a i).progOn = s.progOn := rfl
@[simp] theorem State.unflag_engs (a i : Nat) : (s.unflag a i).engs = s.engs := rfl
@[simp] theorem State.unflag_ths (a i : Nat) : (s.unflag a i).ths = s.ths := rfl
@[simp] theorem State.unflag_chans (a i : Nat) : (s.unflag a i).chans = s.chans := rfl
@[simp] theorem State.unflag_flights (a i : Nat) : (s.unflag a i).flights = s.flights := rfl
@[simp] theorem State.unflag_culmStart (a i : Nat) : (s.unflag a i).culmStart = s.culmStart := rfl
@[simp] theorem State.unflag_culmDone (a i : Nat) : (s.unflag a i).culmDone = s.culmDone := rfl
@[simp] theorem State.unflag_tasks (a i : Nat) : (s.unflag a i).tasks = s.tasks := rfl
@[simp] theorem State.unflag_evq (a i : Nat) : (s.unflag a i).evq = s.evq := rfl
@[simp] theorem State.unflag_taskOps (a i : Nat) : (s.unflag a i).taskOps = s.taskOps := rfl
@[simp] theorem State.unflag_opFree (a i : Nat) : (s.unflag a i).opFree = s.opFree := rfl
@[simp] theorem State.unflag_pageOuts (a i : Nat) : (s.unflag a i).pageOuts = s.pageOuts := rfl
@[simp] theorem State.unflag_roundStart (a i : Nat) : (s.unflag a i).roundStart = s.roundStart := rfl
@[simp] theorem State.unflag_granted (a i : Nat) : (s.unflag a i).granted = s.granted := rfl
@[simp] theorem State.unflag_schedAt (a i : Nat) : (s.unflag a i).schedAt = s.schedAt := rfl
@[simp] theorem State.unflag_intake (a i : Nat) : (s.unflag a i).intake = s.intake := rfl
@[simp] theorem State.unflag_ctxReads (a i : Nat) : (s.unflag a i).ctxReads = s.ctxReads := rfl
@[simp] theorem State.unflag_ctxWrites (a i : Nat) : (s.unflag a i).ctxWrites = s.ctxWrites := rfl
@[simp] theorem State.unflag_mtxq (a i : Nat) : (s.unflag a i).mtxq = s.mtxq := rfl
@[simp] theorem State.unflag_xfers (a i : Nat) : (s.unflag a i).xfers = s.xfers := rfl
@[simp] theorem State.unflag_mtxBusy (a i : Nat) : (s.unflag a i).mtxBusy = s.mtxBusy := rfl
@[simp] theorem State.unflag_banks (a i : Nat) : (s.unflag a i).banks = s.banks := rfl
@[simp] theorem State.unflag_bankPois (a i : Nat) : (s.unflag a i).bankPois = s.bankPois := rfl
@[simp] theorem State.unflag_dramq (a i : Nat) : (s.unflag a i).dramq = s.dramq := rfl
@[simp] theorem State.unflag_poisoned (a i : Nat) : (s.unflag a i).poisoned = s.poisoned := rfl
@[simp] theorem State.unflag_scrubbed (a i : Nat) : (s.unflag a i).scrubbed = s.scrubbed := rfl
@[simp] theorem State.unflag_rowCe (a i : Nat) : (s.unflag a i).rowCe = s.rowCe := rfl
@[simp] theorem State.unflag_pprq (a i : Nat) : (s.unflag a i).pprq = s.pprq := rfl
@[simp] theorem State.unflag_glnPos (a i : Nat) : (s.unflag a i).glnPos = s.glnPos := rfl
@[simp] theorem State.unflag_recPois (a i : Nat) : (s.unflag a i).recPois = s.recPois := rfl
@[simp] theorem State.unflag_glnDue (a i : Nat) : (s.unflag a i).glnDue = s.glnDue := rfl
@[simp] theorem State.unflag_grants (a i : Nat) : (s.unflag a i).grants = s.grants := rfl
@[simp] theorem State.unflag_px (a i : Nat) : (s.unflag a i).px = s.px := rfl
@[simp] theorem State.unflag_pg (a i : Nat) : (s.unflag a i).pg = s.pg := rfl
@[simp] theorem State.unflag_lanes (a i : Nat) : (s.unflag a i).lanes = s.lanes := rfl
@[simp] theorem State.unflag_tsets (a i : Nat) : (s.unflag a i).tsets = s.tsets := rfl
@[simp] theorem State.unflag_pxprog (a i : Nat) : (s.unflag a i).pxprog = s.pxprog := rfl
@[simp] theorem State.unflag_scr (a i : Nat) : (s.unflag a i).scr = s.scr := rfl
@[simp] theorem State.unflag_startReq (a i : Nat) : (s.unflag a i).startReq = s.startReq := rfl
@[simp] theorem State.unflag_thr (a i : Nat) : (s.unflag a i).thr = s.thr := rfl
@[simp] theorem State.unflag_regions (a i : Nat) : (s.unflag a i).regions = s.regions := rfl
@[simp] theorem State.unflag_rdesc (a i : Nat) : (s.unflag a i).rdesc = s.rdesc := rfl
@[simp] theorem State.unflag_sites (a i : Nat) : (s.unflag a i).sites = s.sites := rfl
@[simp] theorem State.unflag_repairQ (a i : Nat) : (s.unflag a i).repairQ = s.repairQ := rfl
@[simp] theorem State.unflag_queues (a i : Nat) : (s.unflag a i).queues = s.queues := rfl
@[simp] theorem State.unflag_inprog (a i : Nat) : (s.unflag a i).inprog = s.inprog := rfl
@[simp] theorem State.unflag_lastQ (a i : Nat) : (s.unflag a i).lastQ = s.lastQ := rfl
@[simp] theorem State.unflag_opsDone (a i : Nat) : (s.unflag a i).opsDone = s.opsDone := rfl
@[simp] theorem State.unflag_hostMem (a i : Nat) : (s.unflag a i).hostMem = s.hostMem := rfl
@[simp] theorem State.unflag_msixPend (a i : Nat) : (s.unflag a i).msixPend = s.msixPend := rfl
@[simp] theorem State.unflag_msixSent (a i : Nat) : (s.unflag a i).msixSent = s.msixSent := rfl
@[simp] theorem State.unflag_bar2 (a i : Nat) : (s.unflag a i).bar2 = s.bar2 := rfl
@[simp] theorem State.unflag_cfgSpace (a i : Nat) : (s.unflag a i).cfgSpace = s.cfgSpace := rfl
@[simp] theorem State.unflag_perst (a i : Nat) : (s.unflag a i).perst = s.perst := rfl
@[simp] theorem State.unflag_stickyNote (a i : Nat) : (s.unflag a i).stickyNote = s.stickyNote := rfl
@[simp] theorem State.unflag_faultNote (a i : Nat) : (s.unflag a i).faultNote = s.faultNote := rfl
@[simp] theorem State.unflag_unreported (a i : Nat) : (s.unflag a i).unreported = s.unreported := rfl
@[simp] theorem State.unflag_syncq (a i : Nat) : (s.unflag a i).syncq = s.syncq := rfl
@[simp] theorem State.unflag_syncOut (a i : Nat) : (s.unflag a i).syncOut = s.syncOut := rfl
@[simp] theorem State.unflag_startSeq (a i : Nat) : (s.unflag a i).startSeq = s.startSeq := rfl
@[simp] theorem State.unflag_startSent (a i : Nat) : (s.unflag a i).startSent = s.startSent := rfl
@[simp] theorem State.unflag_sleeping (a i : Nat) : (s.unflag a i).sleeping = s.sleeping := rfl
@[simp] theorem State.unflag_tap (a i : Nat) : (s.unflag a i).tap = s.tap := rfl
@[simp] theorem State.unflag_dma (a i : Nat) : (s.unflag a i).dma = s.dma := rfl
@[simp] theorem State.unflag_dmaq (a i : Nat) : (s.unflag a i).dmaq = s.dmaq := rfl
@[simp] theorem State.unflag_dmaLast (a i : Nat) : (s.unflag a i).dmaLast = s.dmaLast := rfl
@[simp] theorem State.unflag_tmrStage (a i : Nat) : (s.unflag a i).tmrStage = s.tmrStage := rfl
@[simp] theorem State.unflag_tmrRun (a i : Nat) : (s.unflag a i).tmrRun = s.tmrRun := rfl
@[simp] theorem State.unflag_tmrActs (a i : Nat) : (s.unflag a i).tmrActs = s.tmrActs := rfl
@[simp] theorem State.unflag_tmrDue (a i : Nat) : (s.unflag a i).tmrDue = s.tmrDue := rfl
@[simp] theorem State.unflag_tmrEdge (a i : Nat) : (s.unflag a i).tmrEdge = s.tmrEdge := rfl
@[simp] theorem State.unflag_tmrGate (a i : Nat) : (s.unflag a i).tmrGate = s.tmrGate := rfl
@[simp] theorem State.unflag_tmrDiv (a i : Nat) : (s.unflag a i).tmrDiv = s.tmrDiv := rfl
@[simp] theorem State.unflag_tmrSlow (a i : Nat) : (s.unflag a i).tmrSlow = s.tmrSlow := rfl
@[simp] theorem State.unflag_adc (a i : Nat) : (s.unflag a i).adc = s.adc := rfl
@[simp] theorem State.unflag_age (a i : Nat) : (s.unflag a i).age = s.age := rfl
@[simp] theorem State.unflag_ageOver (a i : Nat) : (s.unflag a i).ageOver = s.ageOver := rfl
@[simp] theorem State.unflag_avs (a i : Nat) : (s.unflag a i).avs = s.avs := rfl
@[simp] theorem State.unflag_avsOut (a i : Nat) : (s.unflag a i).avsOut = s.avsOut := rfl
@[simp] theorem State.unflag_nv (a i : Nat) : (s.unflag a i).nv = s.nv := rfl
@[simp] theorem State.unflag_nvOld (a i : Nat) : (s.unflag a i).nvOld = s.nvOld := rfl
@[simp] theorem State.unflag_flash (a i : Nat) : (s.unflag a i).flash = s.flash := rfl
@[simp] theorem State.unflag_image (a i : Nat) : (s.unflag a i).image = s.image := rfl
@[simp] theorem State.unflag_power (a i : Nat) : (s.unflag a i).power = s.power := rfl
@[simp] theorem State.unflag_straps (a i : Nat) : (s.unflag a i).straps = s.straps := rfl
@[simp] theorem State.unflag_histCopy (a i : Nat) : (s.unflag a i).histCopy = s.histCopy := rfl
@[simp] theorem State.unflag_lifeTicks (a i : Nat) : (s.unflag a i).lifeTicks = s.lifeTicks := rfl
@[simp] theorem State.unflag_sleepDue (a i : Nat) : (s.unflag a i).sleepDue = s.sleepDue := rfl
@[simp] theorem State.unflag_engStop (a i : Nat) : (s.unflag a i).engStop = s.engStop := rfl
@[simp] theorem State.unflag_safe (a i : Nat) : (s.unflag a i).safe = s.safe := rfl
@[simp] theorem State.unflag_smbOut (a i : Nat) : (s.unflag a i).smbOut = s.smbOut := rfl
@[simp] theorem State.unflag_late (a i : Nat) : (s.unflag a i).late = s.late := rfl
@[simp] theorem State.unflag_wakeDue (a i : Nat) : (s.unflag a i).wakeDue = s.wakeDue := rfl

@[simp] theorem State.mgmtIn_pending (a : Nat) (w : Bool) : (s.mgmtIn a w).pending = s.pending := rfl
@[simp] theorem State.mgmtIn_fresh (a : Nat) (w : Bool) : (s.mgmtIn a w).fresh = s.fresh := rfl
@[simp] theorem State.mgmtIn_nextId (a : Nat) (w : Bool) : (s.mgmtIn a w).nextId = s.nextId := rfl
@[simp] theorem State.mgmtIn_eclk (a : Nat) (w : Bool) : (s.mgmtIn a w).eclk = s.eclk := rfl
@[simp] theorem State.mgmtIn_regs (a : Nat) (w : Bool) : (s.mgmtIn a w).regs = s.regs := rfl
@[simp] theorem State.mgmtIn_bar0 (a : Nat) (w : Bool) : (s.mgmtIn a w).bar0 = s.bar0 := rfl
@[simp] theorem State.mgmtIn_mem (a : Nat) (w : Bool) : (s.mgmtIn a w).mem = s.mem := rfl
@[simp] theorem State.mgmtIn_busOut (a : Nat) (w : Bool) : (s.mgmtIn a w).busOut = s.busOut := rfl
@[simp] theorem State.mgmtIn_prog (a : Nat) (w : Bool) : (s.mgmtIn a w).prog = s.prog := rfl
@[simp] theorem State.mgmtIn_progOn (a : Nat) (w : Bool) : (s.mgmtIn a w).progOn = s.progOn := rfl
@[simp] theorem State.mgmtIn_engs (a : Nat) (w : Bool) : (s.mgmtIn a w).engs = s.engs := rfl
@[simp] theorem State.mgmtIn_ths (a : Nat) (w : Bool) : (s.mgmtIn a w).ths = s.ths := rfl
@[simp] theorem State.mgmtIn_chans (a : Nat) (w : Bool) : (s.mgmtIn a w).chans = s.chans := rfl
@[simp] theorem State.mgmtIn_flights (a : Nat) (w : Bool) : (s.mgmtIn a w).flights = s.flights := rfl
@[simp] theorem State.mgmtIn_culmStart (a : Nat) (w : Bool) : (s.mgmtIn a w).culmStart = s.culmStart := rfl
@[simp] theorem State.mgmtIn_culmDone (a : Nat) (w : Bool) : (s.mgmtIn a w).culmDone = s.culmDone := rfl
@[simp] theorem State.mgmtIn_tasks (a : Nat) (w : Bool) : (s.mgmtIn a w).tasks = s.tasks := rfl
@[simp] theorem State.mgmtIn_evq (a : Nat) (w : Bool) : (s.mgmtIn a w).evq = s.evq := rfl
@[simp] theorem State.mgmtIn_taskOps (a : Nat) (w : Bool) : (s.mgmtIn a w).taskOps = s.taskOps := rfl
@[simp] theorem State.mgmtIn_opFree (a : Nat) (w : Bool) : (s.mgmtIn a w).opFree = s.opFree := rfl
@[simp] theorem State.mgmtIn_pageOuts (a : Nat) (w : Bool) : (s.mgmtIn a w).pageOuts = s.pageOuts := rfl
@[simp] theorem State.mgmtIn_roundStart (a : Nat) (w : Bool) : (s.mgmtIn a w).roundStart = s.roundStart := rfl
@[simp] theorem State.mgmtIn_granted (a : Nat) (w : Bool) : (s.mgmtIn a w).granted = s.granted := rfl
@[simp] theorem State.mgmtIn_schedAt (a : Nat) (w : Bool) : (s.mgmtIn a w).schedAt = s.schedAt := rfl
@[simp] theorem State.mgmtIn_intake (a : Nat) (w : Bool) : (s.mgmtIn a w).intake = s.intake := rfl
@[simp] theorem State.mgmtIn_ctxReads (a : Nat) (w : Bool) : (s.mgmtIn a w).ctxReads = s.ctxReads := rfl
@[simp] theorem State.mgmtIn_ctxWrites (a : Nat) (w : Bool) : (s.mgmtIn a w).ctxWrites = s.ctxWrites := rfl
@[simp] theorem State.mgmtIn_mtxq (a : Nat) (w : Bool) : (s.mgmtIn a w).mtxq = s.mtxq := rfl
@[simp] theorem State.mgmtIn_xfers (a : Nat) (w : Bool) : (s.mgmtIn a w).xfers = s.xfers := rfl
@[simp] theorem State.mgmtIn_mtxBusy (a : Nat) (w : Bool) : (s.mgmtIn a w).mtxBusy = s.mtxBusy := rfl
@[simp] theorem State.mgmtIn_banks (a : Nat) (w : Bool) : (s.mgmtIn a w).banks = s.banks := rfl
@[simp] theorem State.mgmtIn_bankPois (a : Nat) (w : Bool) : (s.mgmtIn a w).bankPois = s.bankPois := rfl
@[simp] theorem State.mgmtIn_dramq (a : Nat) (w : Bool) : (s.mgmtIn a w).dramq = s.dramq := rfl
@[simp] theorem State.mgmtIn_poisoned (a : Nat) (w : Bool) : (s.mgmtIn a w).poisoned = s.poisoned := rfl
@[simp] theorem State.mgmtIn_scrubbed (a : Nat) (w : Bool) : (s.mgmtIn a w).scrubbed = s.scrubbed := rfl
@[simp] theorem State.mgmtIn_rowCe (a : Nat) (w : Bool) : (s.mgmtIn a w).rowCe = s.rowCe := rfl
@[simp] theorem State.mgmtIn_pprq (a : Nat) (w : Bool) : (s.mgmtIn a w).pprq = s.pprq := rfl
@[simp] theorem State.mgmtIn_glnPos (a : Nat) (w : Bool) : (s.mgmtIn a w).glnPos = s.glnPos := rfl
@[simp] theorem State.mgmtIn_recPois (a : Nat) (w : Bool) : (s.mgmtIn a w).recPois = s.recPois := rfl
@[simp] theorem State.mgmtIn_glnDue (a : Nat) (w : Bool) : (s.mgmtIn a w).glnDue = s.glnDue := rfl
@[simp] theorem State.mgmtIn_grants (a : Nat) (w : Bool) : (s.mgmtIn a w).grants = s.grants := rfl
@[simp] theorem State.mgmtIn_px (a : Nat) (w : Bool) : (s.mgmtIn a w).px = s.px := rfl
@[simp] theorem State.mgmtIn_pg (a : Nat) (w : Bool) : (s.mgmtIn a w).pg = s.pg := rfl
@[simp] theorem State.mgmtIn_lanes (a : Nat) (w : Bool) : (s.mgmtIn a w).lanes = s.lanes := rfl
@[simp] theorem State.mgmtIn_tsets (a : Nat) (w : Bool) : (s.mgmtIn a w).tsets = s.tsets := rfl
@[simp] theorem State.mgmtIn_pxprog (a : Nat) (w : Bool) : (s.mgmtIn a w).pxprog = s.pxprog := rfl
@[simp] theorem State.mgmtIn_scr (a : Nat) (w : Bool) : (s.mgmtIn a w).scr = s.scr := rfl
@[simp] theorem State.mgmtIn_startReq (a : Nat) (w : Bool) : (s.mgmtIn a w).startReq = s.startReq := rfl
@[simp] theorem State.mgmtIn_thr (a : Nat) (w : Bool) : (s.mgmtIn a w).thr = s.thr := rfl
@[simp] theorem State.mgmtIn_regions (a : Nat) (w : Bool) : (s.mgmtIn a w).regions = s.regions := rfl
@[simp] theorem State.mgmtIn_rdesc (a : Nat) (w : Bool) : (s.mgmtIn a w).rdesc = s.rdesc := rfl
@[simp] theorem State.mgmtIn_sites (a : Nat) (w : Bool) : (s.mgmtIn a w).sites = s.sites := rfl
@[simp] theorem State.mgmtIn_repairQ (a : Nat) (w : Bool) : (s.mgmtIn a w).repairQ = s.repairQ := rfl
@[simp] theorem State.mgmtIn_queues (a : Nat) (w : Bool) : (s.mgmtIn a w).queues = s.queues := rfl
@[simp] theorem State.mgmtIn_inprog (a : Nat) (w : Bool) : (s.mgmtIn a w).inprog = s.inprog := rfl
@[simp] theorem State.mgmtIn_lastQ (a : Nat) (w : Bool) : (s.mgmtIn a w).lastQ = s.lastQ := rfl
@[simp] theorem State.mgmtIn_opsDone (a : Nat) (w : Bool) : (s.mgmtIn a w).opsDone = s.opsDone := rfl
@[simp] theorem State.mgmtIn_hostMem (a : Nat) (w : Bool) : (s.mgmtIn a w).hostMem = s.hostMem := rfl
@[simp] theorem State.mgmtIn_msixPend (a : Nat) (w : Bool) : (s.mgmtIn a w).msixPend = s.msixPend := rfl
@[simp] theorem State.mgmtIn_msixSent (a : Nat) (w : Bool) : (s.mgmtIn a w).msixSent = s.msixSent := rfl
@[simp] theorem State.mgmtIn_bar2 (a : Nat) (w : Bool) : (s.mgmtIn a w).bar2 = s.bar2 := rfl
@[simp] theorem State.mgmtIn_cfgSpace (a : Nat) (w : Bool) : (s.mgmtIn a w).cfgSpace = s.cfgSpace := rfl
@[simp] theorem State.mgmtIn_perst (a : Nat) (w : Bool) : (s.mgmtIn a w).perst = s.perst := rfl
@[simp] theorem State.mgmtIn_stickyNote (a : Nat) (w : Bool) : (s.mgmtIn a w).stickyNote = s.stickyNote := rfl
@[simp] theorem State.mgmtIn_faultNote (a : Nat) (w : Bool) : (s.mgmtIn a w).faultNote = s.faultNote := rfl
@[simp] theorem State.mgmtIn_unreported (a : Nat) (w : Bool) : (s.mgmtIn a w).unreported = s.unreported := rfl
@[simp] theorem State.mgmtIn_syncq (a : Nat) (w : Bool) : (s.mgmtIn a w).syncq = s.syncq := rfl
@[simp] theorem State.mgmtIn_syncOut (a : Nat) (w : Bool) : (s.mgmtIn a w).syncOut = s.syncOut := rfl
@[simp] theorem State.mgmtIn_startSeq (a : Nat) (w : Bool) : (s.mgmtIn a w).startSeq = s.startSeq := rfl
@[simp] theorem State.mgmtIn_startSent (a : Nat) (w : Bool) : (s.mgmtIn a w).startSent = s.startSent := rfl
@[simp] theorem State.mgmtIn_sleeping (a : Nat) (w : Bool) : (s.mgmtIn a w).sleeping = s.sleeping := rfl
@[simp] theorem State.mgmtIn_tap (a : Nat) (w : Bool) : (s.mgmtIn a w).tap = s.tap := rfl
@[simp] theorem State.mgmtIn_dma (a : Nat) (w : Bool) : (s.mgmtIn a w).dma = s.dma := rfl
@[simp] theorem State.mgmtIn_dmaq (a : Nat) (w : Bool) : (s.mgmtIn a w).dmaq = s.dmaq := rfl
@[simp] theorem State.mgmtIn_dmaLast (a : Nat) (w : Bool) : (s.mgmtIn a w).dmaLast = s.dmaLast := rfl
@[simp] theorem State.mgmtIn_tmrStage (a : Nat) (w : Bool) : (s.mgmtIn a w).tmrStage = s.tmrStage := rfl
@[simp] theorem State.mgmtIn_tmrRun (a : Nat) (w : Bool) : (s.mgmtIn a w).tmrRun = s.tmrRun := rfl
@[simp] theorem State.mgmtIn_tmrActs (a : Nat) (w : Bool) : (s.mgmtIn a w).tmrActs = s.tmrActs := rfl
@[simp] theorem State.mgmtIn_tmrDue (a : Nat) (w : Bool) : (s.mgmtIn a w).tmrDue = s.tmrDue := rfl
@[simp] theorem State.mgmtIn_tmrEdge (a : Nat) (w : Bool) : (s.mgmtIn a w).tmrEdge = s.tmrEdge := rfl
@[simp] theorem State.mgmtIn_tmrGate (a : Nat) (w : Bool) : (s.mgmtIn a w).tmrGate = s.tmrGate := rfl
@[simp] theorem State.mgmtIn_tmrDiv (a : Nat) (w : Bool) : (s.mgmtIn a w).tmrDiv = s.tmrDiv := rfl
@[simp] theorem State.mgmtIn_tmrSlow (a : Nat) (w : Bool) : (s.mgmtIn a w).tmrSlow = s.tmrSlow := rfl
@[simp] theorem State.mgmtIn_adc (a : Nat) (w : Bool) : (s.mgmtIn a w).adc = s.adc := rfl
@[simp] theorem State.mgmtIn_age (a : Nat) (w : Bool) : (s.mgmtIn a w).age = s.age := rfl
@[simp] theorem State.mgmtIn_ageOver (a : Nat) (w : Bool) : (s.mgmtIn a w).ageOver = s.ageOver := rfl
@[simp] theorem State.mgmtIn_avs (a : Nat) (w : Bool) : (s.mgmtIn a w).avs = s.avs := rfl
@[simp] theorem State.mgmtIn_avsOut (a : Nat) (w : Bool) : (s.mgmtIn a w).avsOut = s.avsOut := rfl
@[simp] theorem State.mgmtIn_nv (a : Nat) (w : Bool) : (s.mgmtIn a w).nv = s.nv := rfl
@[simp] theorem State.mgmtIn_nvOld (a : Nat) (w : Bool) : (s.mgmtIn a w).nvOld = s.nvOld := rfl
@[simp] theorem State.mgmtIn_flash (a : Nat) (w : Bool) : (s.mgmtIn a w).flash = s.flash := rfl
@[simp] theorem State.mgmtIn_image (a : Nat) (w : Bool) : (s.mgmtIn a w).image = s.image := rfl
@[simp] theorem State.mgmtIn_power (a : Nat) (w : Bool) : (s.mgmtIn a w).power = s.power := rfl
@[simp] theorem State.mgmtIn_straps (a : Nat) (w : Bool) : (s.mgmtIn a w).straps = s.straps := rfl
@[simp] theorem State.mgmtIn_histCopy (a : Nat) (w : Bool) : (s.mgmtIn a w).histCopy = s.histCopy := rfl
@[simp] theorem State.mgmtIn_lifeTicks (a : Nat) (w : Bool) : (s.mgmtIn a w).lifeTicks = s.lifeTicks := rfl
@[simp] theorem State.mgmtIn_sleepDue (a : Nat) (w : Bool) : (s.mgmtIn a w).sleepDue = s.sleepDue := rfl
@[simp] theorem State.mgmtIn_engStop (a : Nat) (w : Bool) : (s.mgmtIn a w).engStop = s.engStop := rfl
@[simp] theorem State.mgmtIn_safe (a : Nat) (w : Bool) : (s.mgmtIn a w).safe = s.safe := rfl
@[simp] theorem State.mgmtIn_smbOut (a : Nat) (w : Bool) : (s.mgmtIn a w).smbOut = s.smbOut := rfl
@[simp] theorem State.mgmtIn_late (a : Nat) (w : Bool) : (s.mgmtIn a w).late = s.late := rfl
@[simp] theorem State.mgmtIn_wakeDue (a : Nat) (w : Bool) : (s.mgmtIn a w).wakeDue = s.wakeDue := rfl

@[simp] theorem State.setTh_pending (i : Nat) (v : Thread) : (s.setTh i v).pending = s.pending := rfl
@[simp] theorem State.setTh_fresh (i : Nat) (v : Thread) : (s.setTh i v).fresh = s.fresh := rfl
@[simp] theorem State.setTh_nextId (i : Nat) (v : Thread) : (s.setTh i v).nextId = s.nextId := rfl
@[simp] theorem State.setTh_eclk (i : Nat) (v : Thread) : (s.setTh i v).eclk = s.eclk := rfl
@[simp] theorem State.setTh_regs (i : Nat) (v : Thread) : (s.setTh i v).regs = s.regs := rfl
@[simp] theorem State.setTh_bar0 (i : Nat) (v : Thread) : (s.setTh i v).bar0 = s.bar0 := rfl
@[simp] theorem State.setTh_mem (i : Nat) (v : Thread) : (s.setTh i v).mem = s.mem := rfl
@[simp] theorem State.setTh_busOut (i : Nat) (v : Thread) : (s.setTh i v).busOut = s.busOut := rfl
@[simp] theorem State.setTh_prog (i : Nat) (v : Thread) : (s.setTh i v).prog = s.prog := rfl
@[simp] theorem State.setTh_progOn (i : Nat) (v : Thread) : (s.setTh i v).progOn = s.progOn := rfl
@[simp] theorem State.setTh_engs (i : Nat) (v : Thread) : (s.setTh i v).engs = s.engs := rfl
@[simp] theorem State.setTh_chans (i : Nat) (v : Thread) : (s.setTh i v).chans = s.chans := rfl
@[simp] theorem State.setTh_flights (i : Nat) (v : Thread) : (s.setTh i v).flights = s.flights := rfl
@[simp] theorem State.setTh_culmStart (i : Nat) (v : Thread) : (s.setTh i v).culmStart = s.culmStart := rfl
@[simp] theorem State.setTh_culmDone (i : Nat) (v : Thread) : (s.setTh i v).culmDone = s.culmDone := rfl
@[simp] theorem State.setTh_tasks (i : Nat) (v : Thread) : (s.setTh i v).tasks = s.tasks := rfl
@[simp] theorem State.setTh_evq (i : Nat) (v : Thread) : (s.setTh i v).evq = s.evq := rfl
@[simp] theorem State.setTh_taskOps (i : Nat) (v : Thread) : (s.setTh i v).taskOps = s.taskOps := rfl
@[simp] theorem State.setTh_opFree (i : Nat) (v : Thread) : (s.setTh i v).opFree = s.opFree := rfl
@[simp] theorem State.setTh_pageOuts (i : Nat) (v : Thread) : (s.setTh i v).pageOuts = s.pageOuts := rfl
@[simp] theorem State.setTh_roundStart (i : Nat) (v : Thread) : (s.setTh i v).roundStart = s.roundStart := rfl
@[simp] theorem State.setTh_granted (i : Nat) (v : Thread) : (s.setTh i v).granted = s.granted := rfl
@[simp] theorem State.setTh_schedAt (i : Nat) (v : Thread) : (s.setTh i v).schedAt = s.schedAt := rfl
@[simp] theorem State.setTh_intake (i : Nat) (v : Thread) : (s.setTh i v).intake = s.intake := rfl
@[simp] theorem State.setTh_ctxReads (i : Nat) (v : Thread) : (s.setTh i v).ctxReads = s.ctxReads := rfl
@[simp] theorem State.setTh_ctxWrites (i : Nat) (v : Thread) : (s.setTh i v).ctxWrites = s.ctxWrites := rfl
@[simp] theorem State.setTh_mtxq (i : Nat) (v : Thread) : (s.setTh i v).mtxq = s.mtxq := rfl
@[simp] theorem State.setTh_xfers (i : Nat) (v : Thread) : (s.setTh i v).xfers = s.xfers := rfl
@[simp] theorem State.setTh_mtxBusy (i : Nat) (v : Thread) : (s.setTh i v).mtxBusy = s.mtxBusy := rfl
@[simp] theorem State.setTh_bus (i : Nat) (v : Thread) : (s.setTh i v).bus = s.bus := rfl
@[simp] theorem State.setTh_banks (i : Nat) (v : Thread) : (s.setTh i v).banks = s.banks := rfl
@[simp] theorem State.setTh_bankPois (i : Nat) (v : Thread) : (s.setTh i v).bankPois = s.bankPois := rfl
@[simp] theorem State.setTh_dramq (i : Nat) (v : Thread) : (s.setTh i v).dramq = s.dramq := rfl
@[simp] theorem State.setTh_poisoned (i : Nat) (v : Thread) : (s.setTh i v).poisoned = s.poisoned := rfl
@[simp] theorem State.setTh_scrubbed (i : Nat) (v : Thread) : (s.setTh i v).scrubbed = s.scrubbed := rfl
@[simp] theorem State.setTh_rowCe (i : Nat) (v : Thread) : (s.setTh i v).rowCe = s.rowCe := rfl
@[simp] theorem State.setTh_pprq (i : Nat) (v : Thread) : (s.setTh i v).pprq = s.pprq := rfl
@[simp] theorem State.setTh_glnPos (i : Nat) (v : Thread) : (s.setTh i v).glnPos = s.glnPos := rfl
@[simp] theorem State.setTh_recPois (i : Nat) (v : Thread) : (s.setTh i v).recPois = s.recPois := rfl
@[simp] theorem State.setTh_glnDue (i : Nat) (v : Thread) : (s.setTh i v).glnDue = s.glnDue := rfl
@[simp] theorem State.setTh_grants (i : Nat) (v : Thread) : (s.setTh i v).grants = s.grants := rfl
@[simp] theorem State.setTh_px (i : Nat) (v : Thread) : (s.setTh i v).px = s.px := rfl
@[simp] theorem State.setTh_pg (i : Nat) (v : Thread) : (s.setTh i v).pg = s.pg := rfl
@[simp] theorem State.setTh_lanes (i : Nat) (v : Thread) : (s.setTh i v).lanes = s.lanes := rfl
@[simp] theorem State.setTh_tsets (i : Nat) (v : Thread) : (s.setTh i v).tsets = s.tsets := rfl
@[simp] theorem State.setTh_pxprog (i : Nat) (v : Thread) : (s.setTh i v).pxprog = s.pxprog := rfl
@[simp] theorem State.setTh_scr (i : Nat) (v : Thread) : (s.setTh i v).scr = s.scr := rfl
@[simp] theorem State.setTh_startReq (i : Nat) (v : Thread) : (s.setTh i v).startReq = s.startReq := rfl
@[simp] theorem State.setTh_thr (i : Nat) (v : Thread) : (s.setTh i v).thr = s.thr := rfl
@[simp] theorem State.setTh_regions (i : Nat) (v : Thread) : (s.setTh i v).regions = s.regions := rfl
@[simp] theorem State.setTh_rdesc (i : Nat) (v : Thread) : (s.setTh i v).rdesc = s.rdesc := rfl
@[simp] theorem State.setTh_sites (i : Nat) (v : Thread) : (s.setTh i v).sites = s.sites := rfl
@[simp] theorem State.setTh_repairQ (i : Nat) (v : Thread) : (s.setTh i v).repairQ = s.repairQ := rfl
@[simp] theorem State.setTh_queues (i : Nat) (v : Thread) : (s.setTh i v).queues = s.queues := rfl
@[simp] theorem State.setTh_inprog (i : Nat) (v : Thread) : (s.setTh i v).inprog = s.inprog := rfl
@[simp] theorem State.setTh_lastQ (i : Nat) (v : Thread) : (s.setTh i v).lastQ = s.lastQ := rfl
@[simp] theorem State.setTh_opsDone (i : Nat) (v : Thread) : (s.setTh i v).opsDone = s.opsDone := rfl
@[simp] theorem State.setTh_hostMem (i : Nat) (v : Thread) : (s.setTh i v).hostMem = s.hostMem := rfl
@[simp] theorem State.setTh_msixPend (i : Nat) (v : Thread) : (s.setTh i v).msixPend = s.msixPend := rfl
@[simp] theorem State.setTh_msixSent (i : Nat) (v : Thread) : (s.setTh i v).msixSent = s.msixSent := rfl
@[simp] theorem State.setTh_bar2 (i : Nat) (v : Thread) : (s.setTh i v).bar2 = s.bar2 := rfl
@[simp] theorem State.setTh_cfgSpace (i : Nat) (v : Thread) : (s.setTh i v).cfgSpace = s.cfgSpace := rfl
@[simp] theorem State.setTh_perst (i : Nat) (v : Thread) : (s.setTh i v).perst = s.perst := rfl
@[simp] theorem State.setTh_stickyNote (i : Nat) (v : Thread) : (s.setTh i v).stickyNote = s.stickyNote := rfl
@[simp] theorem State.setTh_faultNote (i : Nat) (v : Thread) : (s.setTh i v).faultNote = s.faultNote := rfl
@[simp] theorem State.setTh_unreported (i : Nat) (v : Thread) : (s.setTh i v).unreported = s.unreported := rfl
@[simp] theorem State.setTh_syncq (i : Nat) (v : Thread) : (s.setTh i v).syncq = s.syncq := rfl
@[simp] theorem State.setTh_syncOut (i : Nat) (v : Thread) : (s.setTh i v).syncOut = s.syncOut := rfl
@[simp] theorem State.setTh_startSeq (i : Nat) (v : Thread) : (s.setTh i v).startSeq = s.startSeq := rfl
@[simp] theorem State.setTh_startSent (i : Nat) (v : Thread) : (s.setTh i v).startSent = s.startSent := rfl
@[simp] theorem State.setTh_sleeping (i : Nat) (v : Thread) : (s.setTh i v).sleeping = s.sleeping := rfl
@[simp] theorem State.setTh_tap (i : Nat) (v : Thread) : (s.setTh i v).tap = s.tap := rfl
@[simp] theorem State.setTh_dma (i : Nat) (v : Thread) : (s.setTh i v).dma = s.dma := rfl
@[simp] theorem State.setTh_dmaq (i : Nat) (v : Thread) : (s.setTh i v).dmaq = s.dmaq := rfl
@[simp] theorem State.setTh_dmaLast (i : Nat) (v : Thread) : (s.setTh i v).dmaLast = s.dmaLast := rfl
@[simp] theorem State.setTh_tmrStage (i : Nat) (v : Thread) : (s.setTh i v).tmrStage = s.tmrStage := rfl
@[simp] theorem State.setTh_tmrRun (i : Nat) (v : Thread) : (s.setTh i v).tmrRun = s.tmrRun := rfl
@[simp] theorem State.setTh_tmrActs (i : Nat) (v : Thread) : (s.setTh i v).tmrActs = s.tmrActs := rfl
@[simp] theorem State.setTh_tmrDue (i : Nat) (v : Thread) : (s.setTh i v).tmrDue = s.tmrDue := rfl
@[simp] theorem State.setTh_tmrEdge (i : Nat) (v : Thread) : (s.setTh i v).tmrEdge = s.tmrEdge := rfl
@[simp] theorem State.setTh_tmrGate (i : Nat) (v : Thread) : (s.setTh i v).tmrGate = s.tmrGate := rfl
@[simp] theorem State.setTh_tmrDiv (i : Nat) (v : Thread) : (s.setTh i v).tmrDiv = s.tmrDiv := rfl
@[simp] theorem State.setTh_tmrSlow (i : Nat) (v : Thread) : (s.setTh i v).tmrSlow = s.tmrSlow := rfl
@[simp] theorem State.setTh_adc (i : Nat) (v : Thread) : (s.setTh i v).adc = s.adc := rfl
@[simp] theorem State.setTh_age (i : Nat) (v : Thread) : (s.setTh i v).age = s.age := rfl
@[simp] theorem State.setTh_ageOver (i : Nat) (v : Thread) : (s.setTh i v).ageOver = s.ageOver := rfl
@[simp] theorem State.setTh_avs (i : Nat) (v : Thread) : (s.setTh i v).avs = s.avs := rfl
@[simp] theorem State.setTh_avsOut (i : Nat) (v : Thread) : (s.setTh i v).avsOut = s.avsOut := rfl
@[simp] theorem State.setTh_nv (i : Nat) (v : Thread) : (s.setTh i v).nv = s.nv := rfl
@[simp] theorem State.setTh_nvOld (i : Nat) (v : Thread) : (s.setTh i v).nvOld = s.nvOld := rfl
@[simp] theorem State.setTh_flash (i : Nat) (v : Thread) : (s.setTh i v).flash = s.flash := rfl
@[simp] theorem State.setTh_image (i : Nat) (v : Thread) : (s.setTh i v).image = s.image := rfl
@[simp] theorem State.setTh_power (i : Nat) (v : Thread) : (s.setTh i v).power = s.power := rfl
@[simp] theorem State.setTh_straps (i : Nat) (v : Thread) : (s.setTh i v).straps = s.straps := rfl
@[simp] theorem State.setTh_histCopy (i : Nat) (v : Thread) : (s.setTh i v).histCopy = s.histCopy := rfl
@[simp] theorem State.setTh_lifeTicks (i : Nat) (v : Thread) : (s.setTh i v).lifeTicks = s.lifeTicks := rfl
@[simp] theorem State.setTh_sleepDue (i : Nat) (v : Thread) : (s.setTh i v).sleepDue = s.sleepDue := rfl
@[simp] theorem State.setTh_engStop (i : Nat) (v : Thread) : (s.setTh i v).engStop = s.engStop := rfl
@[simp] theorem State.setTh_safe (i : Nat) (v : Thread) : (s.setTh i v).safe = s.safe := rfl
@[simp] theorem State.setTh_smbOut (i : Nat) (v : Thread) : (s.setTh i v).smbOut = s.smbOut := rfl
@[simp] theorem State.setTh_late (i : Nat) (v : Thread) : (s.setTh i v).late = s.late := rfl
@[simp] theorem State.setTh_wakeDue (i : Nat) (v : Thread) : (s.setTh i v).wakeDue = s.wakeDue := rfl

@[simp] theorem State.setEng_pending (i : Nat) (v : EngSt) : (s.setEng i v).pending = s.pending := rfl
@[simp] theorem State.setEng_fresh (i : Nat) (v : EngSt) : (s.setEng i v).fresh = s.fresh := rfl
@[simp] theorem State.setEng_nextId (i : Nat) (v : EngSt) : (s.setEng i v).nextId = s.nextId := rfl
@[simp] theorem State.setEng_eclk (i : Nat) (v : EngSt) : (s.setEng i v).eclk = s.eclk := rfl
@[simp] theorem State.setEng_regs (i : Nat) (v : EngSt) : (s.setEng i v).regs = s.regs := rfl
@[simp] theorem State.setEng_bar0 (i : Nat) (v : EngSt) : (s.setEng i v).bar0 = s.bar0 := rfl
@[simp] theorem State.setEng_mem (i : Nat) (v : EngSt) : (s.setEng i v).mem = s.mem := rfl
@[simp] theorem State.setEng_busOut (i : Nat) (v : EngSt) : (s.setEng i v).busOut = s.busOut := rfl
@[simp] theorem State.setEng_prog (i : Nat) (v : EngSt) : (s.setEng i v).prog = s.prog := rfl
@[simp] theorem State.setEng_progOn (i : Nat) (v : EngSt) : (s.setEng i v).progOn = s.progOn := rfl
@[simp] theorem State.setEng_ths (i : Nat) (v : EngSt) : (s.setEng i v).ths = s.ths := rfl
@[simp] theorem State.setEng_chans (i : Nat) (v : EngSt) : (s.setEng i v).chans = s.chans := rfl
@[simp] theorem State.setEng_flights (i : Nat) (v : EngSt) : (s.setEng i v).flights = s.flights := rfl
@[simp] theorem State.setEng_culmStart (i : Nat) (v : EngSt) : (s.setEng i v).culmStart = s.culmStart := rfl
@[simp] theorem State.setEng_culmDone (i : Nat) (v : EngSt) : (s.setEng i v).culmDone = s.culmDone := rfl
@[simp] theorem State.setEng_tasks (i : Nat) (v : EngSt) : (s.setEng i v).tasks = s.tasks := rfl
@[simp] theorem State.setEng_evq (i : Nat) (v : EngSt) : (s.setEng i v).evq = s.evq := rfl
@[simp] theorem State.setEng_taskOps (i : Nat) (v : EngSt) : (s.setEng i v).taskOps = s.taskOps := rfl
@[simp] theorem State.setEng_opFree (i : Nat) (v : EngSt) : (s.setEng i v).opFree = s.opFree := rfl
@[simp] theorem State.setEng_pageOuts (i : Nat) (v : EngSt) : (s.setEng i v).pageOuts = s.pageOuts := rfl
@[simp] theorem State.setEng_roundStart (i : Nat) (v : EngSt) : (s.setEng i v).roundStart = s.roundStart := rfl
@[simp] theorem State.setEng_granted (i : Nat) (v : EngSt) : (s.setEng i v).granted = s.granted := rfl
@[simp] theorem State.setEng_schedAt (i : Nat) (v : EngSt) : (s.setEng i v).schedAt = s.schedAt := rfl
@[simp] theorem State.setEng_intake (i : Nat) (v : EngSt) : (s.setEng i v).intake = s.intake := rfl
@[simp] theorem State.setEng_ctxReads (i : Nat) (v : EngSt) : (s.setEng i v).ctxReads = s.ctxReads := rfl
@[simp] theorem State.setEng_ctxWrites (i : Nat) (v : EngSt) : (s.setEng i v).ctxWrites = s.ctxWrites := rfl
@[simp] theorem State.setEng_mtxq (i : Nat) (v : EngSt) : (s.setEng i v).mtxq = s.mtxq := rfl
@[simp] theorem State.setEng_xfers (i : Nat) (v : EngSt) : (s.setEng i v).xfers = s.xfers := rfl
@[simp] theorem State.setEng_mtxBusy (i : Nat) (v : EngSt) : (s.setEng i v).mtxBusy = s.mtxBusy := rfl
@[simp] theorem State.setEng_bus (i : Nat) (v : EngSt) : (s.setEng i v).bus = s.bus := rfl
@[simp] theorem State.setEng_banks (i : Nat) (v : EngSt) : (s.setEng i v).banks = s.banks := rfl
@[simp] theorem State.setEng_bankPois (i : Nat) (v : EngSt) : (s.setEng i v).bankPois = s.bankPois := rfl
@[simp] theorem State.setEng_dramq (i : Nat) (v : EngSt) : (s.setEng i v).dramq = s.dramq := rfl
@[simp] theorem State.setEng_poisoned (i : Nat) (v : EngSt) : (s.setEng i v).poisoned = s.poisoned := rfl
@[simp] theorem State.setEng_scrubbed (i : Nat) (v : EngSt) : (s.setEng i v).scrubbed = s.scrubbed := rfl
@[simp] theorem State.setEng_rowCe (i : Nat) (v : EngSt) : (s.setEng i v).rowCe = s.rowCe := rfl
@[simp] theorem State.setEng_pprq (i : Nat) (v : EngSt) : (s.setEng i v).pprq = s.pprq := rfl
@[simp] theorem State.setEng_glnPos (i : Nat) (v : EngSt) : (s.setEng i v).glnPos = s.glnPos := rfl
@[simp] theorem State.setEng_recPois (i : Nat) (v : EngSt) : (s.setEng i v).recPois = s.recPois := rfl
@[simp] theorem State.setEng_glnDue (i : Nat) (v : EngSt) : (s.setEng i v).glnDue = s.glnDue := rfl
@[simp] theorem State.setEng_grants (i : Nat) (v : EngSt) : (s.setEng i v).grants = s.grants := rfl
@[simp] theorem State.setEng_px (i : Nat) (v : EngSt) : (s.setEng i v).px = s.px := rfl
@[simp] theorem State.setEng_pg (i : Nat) (v : EngSt) : (s.setEng i v).pg = s.pg := rfl
@[simp] theorem State.setEng_lanes (i : Nat) (v : EngSt) : (s.setEng i v).lanes = s.lanes := rfl
@[simp] theorem State.setEng_tsets (i : Nat) (v : EngSt) : (s.setEng i v).tsets = s.tsets := rfl
@[simp] theorem State.setEng_pxprog (i : Nat) (v : EngSt) : (s.setEng i v).pxprog = s.pxprog := rfl
@[simp] theorem State.setEng_scr (i : Nat) (v : EngSt) : (s.setEng i v).scr = s.scr := rfl
@[simp] theorem State.setEng_startReq (i : Nat) (v : EngSt) : (s.setEng i v).startReq = s.startReq := rfl
@[simp] theorem State.setEng_thr (i : Nat) (v : EngSt) : (s.setEng i v).thr = s.thr := rfl
@[simp] theorem State.setEng_regions (i : Nat) (v : EngSt) : (s.setEng i v).regions = s.regions := rfl
@[simp] theorem State.setEng_rdesc (i : Nat) (v : EngSt) : (s.setEng i v).rdesc = s.rdesc := rfl
@[simp] theorem State.setEng_sites (i : Nat) (v : EngSt) : (s.setEng i v).sites = s.sites := rfl
@[simp] theorem State.setEng_repairQ (i : Nat) (v : EngSt) : (s.setEng i v).repairQ = s.repairQ := rfl
@[simp] theorem State.setEng_queues (i : Nat) (v : EngSt) : (s.setEng i v).queues = s.queues := rfl
@[simp] theorem State.setEng_inprog (i : Nat) (v : EngSt) : (s.setEng i v).inprog = s.inprog := rfl
@[simp] theorem State.setEng_lastQ (i : Nat) (v : EngSt) : (s.setEng i v).lastQ = s.lastQ := rfl
@[simp] theorem State.setEng_opsDone (i : Nat) (v : EngSt) : (s.setEng i v).opsDone = s.opsDone := rfl
@[simp] theorem State.setEng_hostMem (i : Nat) (v : EngSt) : (s.setEng i v).hostMem = s.hostMem := rfl
@[simp] theorem State.setEng_msixPend (i : Nat) (v : EngSt) : (s.setEng i v).msixPend = s.msixPend := rfl
@[simp] theorem State.setEng_msixSent (i : Nat) (v : EngSt) : (s.setEng i v).msixSent = s.msixSent := rfl
@[simp] theorem State.setEng_bar2 (i : Nat) (v : EngSt) : (s.setEng i v).bar2 = s.bar2 := rfl
@[simp] theorem State.setEng_cfgSpace (i : Nat) (v : EngSt) : (s.setEng i v).cfgSpace = s.cfgSpace := rfl
@[simp] theorem State.setEng_perst (i : Nat) (v : EngSt) : (s.setEng i v).perst = s.perst := rfl
@[simp] theorem State.setEng_stickyNote (i : Nat) (v : EngSt) : (s.setEng i v).stickyNote = s.stickyNote := rfl
@[simp] theorem State.setEng_faultNote (i : Nat) (v : EngSt) : (s.setEng i v).faultNote = s.faultNote := rfl
@[simp] theorem State.setEng_unreported (i : Nat) (v : EngSt) : (s.setEng i v).unreported = s.unreported := rfl
@[simp] theorem State.setEng_syncq (i : Nat) (v : EngSt) : (s.setEng i v).syncq = s.syncq := rfl
@[simp] theorem State.setEng_syncOut (i : Nat) (v : EngSt) : (s.setEng i v).syncOut = s.syncOut := rfl
@[simp] theorem State.setEng_startSeq (i : Nat) (v : EngSt) : (s.setEng i v).startSeq = s.startSeq := rfl
@[simp] theorem State.setEng_startSent (i : Nat) (v : EngSt) : (s.setEng i v).startSent = s.startSent := rfl
@[simp] theorem State.setEng_sleeping (i : Nat) (v : EngSt) : (s.setEng i v).sleeping = s.sleeping := rfl
@[simp] theorem State.setEng_tap (i : Nat) (v : EngSt) : (s.setEng i v).tap = s.tap := rfl
@[simp] theorem State.setEng_dma (i : Nat) (v : EngSt) : (s.setEng i v).dma = s.dma := rfl
@[simp] theorem State.setEng_dmaq (i : Nat) (v : EngSt) : (s.setEng i v).dmaq = s.dmaq := rfl
@[simp] theorem State.setEng_dmaLast (i : Nat) (v : EngSt) : (s.setEng i v).dmaLast = s.dmaLast := rfl
@[simp] theorem State.setEng_tmrStage (i : Nat) (v : EngSt) : (s.setEng i v).tmrStage = s.tmrStage := rfl
@[simp] theorem State.setEng_tmrRun (i : Nat) (v : EngSt) : (s.setEng i v).tmrRun = s.tmrRun := rfl
@[simp] theorem State.setEng_tmrActs (i : Nat) (v : EngSt) : (s.setEng i v).tmrActs = s.tmrActs := rfl
@[simp] theorem State.setEng_tmrDue (i : Nat) (v : EngSt) : (s.setEng i v).tmrDue = s.tmrDue := rfl
@[simp] theorem State.setEng_tmrEdge (i : Nat) (v : EngSt) : (s.setEng i v).tmrEdge = s.tmrEdge := rfl
@[simp] theorem State.setEng_tmrGate (i : Nat) (v : EngSt) : (s.setEng i v).tmrGate = s.tmrGate := rfl
@[simp] theorem State.setEng_tmrDiv (i : Nat) (v : EngSt) : (s.setEng i v).tmrDiv = s.tmrDiv := rfl
@[simp] theorem State.setEng_tmrSlow (i : Nat) (v : EngSt) : (s.setEng i v).tmrSlow = s.tmrSlow := rfl
@[simp] theorem State.setEng_adc (i : Nat) (v : EngSt) : (s.setEng i v).adc = s.adc := rfl
@[simp] theorem State.setEng_age (i : Nat) (v : EngSt) : (s.setEng i v).age = s.age := rfl
@[simp] theorem State.setEng_ageOver (i : Nat) (v : EngSt) : (s.setEng i v).ageOver = s.ageOver := rfl
@[simp] theorem State.setEng_avs (i : Nat) (v : EngSt) : (s.setEng i v).avs = s.avs := rfl
@[simp] theorem State.setEng_avsOut (i : Nat) (v : EngSt) : (s.setEng i v).avsOut = s.avsOut := rfl
@[simp] theorem State.setEng_nv (i : Nat) (v : EngSt) : (s.setEng i v).nv = s.nv := rfl
@[simp] theorem State.setEng_nvOld (i : Nat) (v : EngSt) : (s.setEng i v).nvOld = s.nvOld := rfl
@[simp] theorem State.setEng_flash (i : Nat) (v : EngSt) : (s.setEng i v).flash = s.flash := rfl
@[simp] theorem State.setEng_image (i : Nat) (v : EngSt) : (s.setEng i v).image = s.image := rfl
@[simp] theorem State.setEng_power (i : Nat) (v : EngSt) : (s.setEng i v).power = s.power := rfl
@[simp] theorem State.setEng_straps (i : Nat) (v : EngSt) : (s.setEng i v).straps = s.straps := rfl
@[simp] theorem State.setEng_histCopy (i : Nat) (v : EngSt) : (s.setEng i v).histCopy = s.histCopy := rfl
@[simp] theorem State.setEng_lifeTicks (i : Nat) (v : EngSt) : (s.setEng i v).lifeTicks = s.lifeTicks := rfl
@[simp] theorem State.setEng_sleepDue (i : Nat) (v : EngSt) : (s.setEng i v).sleepDue = s.sleepDue := rfl
@[simp] theorem State.setEng_engStop (i : Nat) (v : EngSt) : (s.setEng i v).engStop = s.engStop := rfl
@[simp] theorem State.setEng_safe (i : Nat) (v : EngSt) : (s.setEng i v).safe = s.safe := rfl
@[simp] theorem State.setEng_smbOut (i : Nat) (v : EngSt) : (s.setEng i v).smbOut = s.smbOut := rfl
@[simp] theorem State.setEng_late (i : Nat) (v : EngSt) : (s.setEng i v).late = s.late := rfl
@[simp] theorem State.setEng_wakeDue (i : Nat) (v : EngSt) : (s.setEng i v).wakeDue = s.wakeDue := rfl

@[simp] theorem State.setChan_pending (i : Nat) (v : Chan) : (s.setChan i v).pending = s.pending := rfl
@[simp] theorem State.setChan_fresh (i : Nat) (v : Chan) : (s.setChan i v).fresh = s.fresh := rfl
@[simp] theorem State.setChan_nextId (i : Nat) (v : Chan) : (s.setChan i v).nextId = s.nextId := rfl
@[simp] theorem State.setChan_eclk (i : Nat) (v : Chan) : (s.setChan i v).eclk = s.eclk := rfl
@[simp] theorem State.setChan_regs (i : Nat) (v : Chan) : (s.setChan i v).regs = s.regs := rfl
@[simp] theorem State.setChan_bar0 (i : Nat) (v : Chan) : (s.setChan i v).bar0 = s.bar0 := rfl
@[simp] theorem State.setChan_mem (i : Nat) (v : Chan) : (s.setChan i v).mem = s.mem := rfl
@[simp] theorem State.setChan_busOut (i : Nat) (v : Chan) : (s.setChan i v).busOut = s.busOut := rfl
@[simp] theorem State.setChan_prog (i : Nat) (v : Chan) : (s.setChan i v).prog = s.prog := rfl
@[simp] theorem State.setChan_progOn (i : Nat) (v : Chan) : (s.setChan i v).progOn = s.progOn := rfl
@[simp] theorem State.setChan_engs (i : Nat) (v : Chan) : (s.setChan i v).engs = s.engs := rfl
@[simp] theorem State.setChan_ths (i : Nat) (v : Chan) : (s.setChan i v).ths = s.ths := rfl
@[simp] theorem State.setChan_flights (i : Nat) (v : Chan) : (s.setChan i v).flights = s.flights := rfl
@[simp] theorem State.setChan_culmStart (i : Nat) (v : Chan) : (s.setChan i v).culmStart = s.culmStart := rfl
@[simp] theorem State.setChan_culmDone (i : Nat) (v : Chan) : (s.setChan i v).culmDone = s.culmDone := rfl
@[simp] theorem State.setChan_tasks (i : Nat) (v : Chan) : (s.setChan i v).tasks = s.tasks := rfl
@[simp] theorem State.setChan_evq (i : Nat) (v : Chan) : (s.setChan i v).evq = s.evq := rfl
@[simp] theorem State.setChan_taskOps (i : Nat) (v : Chan) : (s.setChan i v).taskOps = s.taskOps := rfl
@[simp] theorem State.setChan_opFree (i : Nat) (v : Chan) : (s.setChan i v).opFree = s.opFree := rfl
@[simp] theorem State.setChan_pageOuts (i : Nat) (v : Chan) : (s.setChan i v).pageOuts = s.pageOuts := rfl
@[simp] theorem State.setChan_roundStart (i : Nat) (v : Chan) : (s.setChan i v).roundStart = s.roundStart := rfl
@[simp] theorem State.setChan_granted (i : Nat) (v : Chan) : (s.setChan i v).granted = s.granted := rfl
@[simp] theorem State.setChan_schedAt (i : Nat) (v : Chan) : (s.setChan i v).schedAt = s.schedAt := rfl
@[simp] theorem State.setChan_intake (i : Nat) (v : Chan) : (s.setChan i v).intake = s.intake := rfl
@[simp] theorem State.setChan_ctxReads (i : Nat) (v : Chan) : (s.setChan i v).ctxReads = s.ctxReads := rfl
@[simp] theorem State.setChan_ctxWrites (i : Nat) (v : Chan) : (s.setChan i v).ctxWrites = s.ctxWrites := rfl
@[simp] theorem State.setChan_mtxq (i : Nat) (v : Chan) : (s.setChan i v).mtxq = s.mtxq := rfl
@[simp] theorem State.setChan_xfers (i : Nat) (v : Chan) : (s.setChan i v).xfers = s.xfers := rfl
@[simp] theorem State.setChan_mtxBusy (i : Nat) (v : Chan) : (s.setChan i v).mtxBusy = s.mtxBusy := rfl
@[simp] theorem State.setChan_bus (i : Nat) (v : Chan) : (s.setChan i v).bus = s.bus := rfl
@[simp] theorem State.setChan_banks (i : Nat) (v : Chan) : (s.setChan i v).banks = s.banks := rfl
@[simp] theorem State.setChan_bankPois (i : Nat) (v : Chan) : (s.setChan i v).bankPois = s.bankPois := rfl
@[simp] theorem State.setChan_dramq (i : Nat) (v : Chan) : (s.setChan i v).dramq = s.dramq := rfl
@[simp] theorem State.setChan_poisoned (i : Nat) (v : Chan) : (s.setChan i v).poisoned = s.poisoned := rfl
@[simp] theorem State.setChan_scrubbed (i : Nat) (v : Chan) : (s.setChan i v).scrubbed = s.scrubbed := rfl
@[simp] theorem State.setChan_rowCe (i : Nat) (v : Chan) : (s.setChan i v).rowCe = s.rowCe := rfl
@[simp] theorem State.setChan_pprq (i : Nat) (v : Chan) : (s.setChan i v).pprq = s.pprq := rfl
@[simp] theorem State.setChan_glnPos (i : Nat) (v : Chan) : (s.setChan i v).glnPos = s.glnPos := rfl
@[simp] theorem State.setChan_recPois (i : Nat) (v : Chan) : (s.setChan i v).recPois = s.recPois := rfl
@[simp] theorem State.setChan_glnDue (i : Nat) (v : Chan) : (s.setChan i v).glnDue = s.glnDue := rfl
@[simp] theorem State.setChan_grants (i : Nat) (v : Chan) : (s.setChan i v).grants = s.grants := rfl
@[simp] theorem State.setChan_px (i : Nat) (v : Chan) : (s.setChan i v).px = s.px := rfl
@[simp] theorem State.setChan_pg (i : Nat) (v : Chan) : (s.setChan i v).pg = s.pg := rfl
@[simp] theorem State.setChan_lanes (i : Nat) (v : Chan) : (s.setChan i v).lanes = s.lanes := rfl
@[simp] theorem State.setChan_tsets (i : Nat) (v : Chan) : (s.setChan i v).tsets = s.tsets := rfl
@[simp] theorem State.setChan_pxprog (i : Nat) (v : Chan) : (s.setChan i v).pxprog = s.pxprog := rfl
@[simp] theorem State.setChan_scr (i : Nat) (v : Chan) : (s.setChan i v).scr = s.scr := rfl
@[simp] theorem State.setChan_startReq (i : Nat) (v : Chan) : (s.setChan i v).startReq = s.startReq := rfl
@[simp] theorem State.setChan_thr (i : Nat) (v : Chan) : (s.setChan i v).thr = s.thr := rfl
@[simp] theorem State.setChan_regions (i : Nat) (v : Chan) : (s.setChan i v).regions = s.regions := rfl
@[simp] theorem State.setChan_rdesc (i : Nat) (v : Chan) : (s.setChan i v).rdesc = s.rdesc := rfl
@[simp] theorem State.setChan_sites (i : Nat) (v : Chan) : (s.setChan i v).sites = s.sites := rfl
@[simp] theorem State.setChan_repairQ (i : Nat) (v : Chan) : (s.setChan i v).repairQ = s.repairQ := rfl
@[simp] theorem State.setChan_queues (i : Nat) (v : Chan) : (s.setChan i v).queues = s.queues := rfl
@[simp] theorem State.setChan_inprog (i : Nat) (v : Chan) : (s.setChan i v).inprog = s.inprog := rfl
@[simp] theorem State.setChan_lastQ (i : Nat) (v : Chan) : (s.setChan i v).lastQ = s.lastQ := rfl
@[simp] theorem State.setChan_opsDone (i : Nat) (v : Chan) : (s.setChan i v).opsDone = s.opsDone := rfl
@[simp] theorem State.setChan_hostMem (i : Nat) (v : Chan) : (s.setChan i v).hostMem = s.hostMem := rfl
@[simp] theorem State.setChan_msixPend (i : Nat) (v : Chan) : (s.setChan i v).msixPend = s.msixPend := rfl
@[simp] theorem State.setChan_msixSent (i : Nat) (v : Chan) : (s.setChan i v).msixSent = s.msixSent := rfl
@[simp] theorem State.setChan_bar2 (i : Nat) (v : Chan) : (s.setChan i v).bar2 = s.bar2 := rfl
@[simp] theorem State.setChan_cfgSpace (i : Nat) (v : Chan) : (s.setChan i v).cfgSpace = s.cfgSpace := rfl
@[simp] theorem State.setChan_perst (i : Nat) (v : Chan) : (s.setChan i v).perst = s.perst := rfl
@[simp] theorem State.setChan_stickyNote (i : Nat) (v : Chan) : (s.setChan i v).stickyNote = s.stickyNote := rfl
@[simp] theorem State.setChan_faultNote (i : Nat) (v : Chan) : (s.setChan i v).faultNote = s.faultNote := rfl
@[simp] theorem State.setChan_unreported (i : Nat) (v : Chan) : (s.setChan i v).unreported = s.unreported := rfl
@[simp] theorem State.setChan_syncq (i : Nat) (v : Chan) : (s.setChan i v).syncq = s.syncq := rfl
@[simp] theorem State.setChan_syncOut (i : Nat) (v : Chan) : (s.setChan i v).syncOut = s.syncOut := rfl
@[simp] theorem State.setChan_startSeq (i : Nat) (v : Chan) : (s.setChan i v).startSeq = s.startSeq := rfl
@[simp] theorem State.setChan_startSent (i : Nat) (v : Chan) : (s.setChan i v).startSent = s.startSent := rfl
@[simp] theorem State.setChan_sleeping (i : Nat) (v : Chan) : (s.setChan i v).sleeping = s.sleeping := rfl
@[simp] theorem State.setChan_tap (i : Nat) (v : Chan) : (s.setChan i v).tap = s.tap := rfl
@[simp] theorem State.setChan_dma (i : Nat) (v : Chan) : (s.setChan i v).dma = s.dma := rfl
@[simp] theorem State.setChan_dmaq (i : Nat) (v : Chan) : (s.setChan i v).dmaq = s.dmaq := rfl
@[simp] theorem State.setChan_dmaLast (i : Nat) (v : Chan) : (s.setChan i v).dmaLast = s.dmaLast := rfl
@[simp] theorem State.setChan_tmrStage (i : Nat) (v : Chan) : (s.setChan i v).tmrStage = s.tmrStage := rfl
@[simp] theorem State.setChan_tmrRun (i : Nat) (v : Chan) : (s.setChan i v).tmrRun = s.tmrRun := rfl
@[simp] theorem State.setChan_tmrActs (i : Nat) (v : Chan) : (s.setChan i v).tmrActs = s.tmrActs := rfl
@[simp] theorem State.setChan_tmrDue (i : Nat) (v : Chan) : (s.setChan i v).tmrDue = s.tmrDue := rfl
@[simp] theorem State.setChan_tmrEdge (i : Nat) (v : Chan) : (s.setChan i v).tmrEdge = s.tmrEdge := rfl
@[simp] theorem State.setChan_tmrGate (i : Nat) (v : Chan) : (s.setChan i v).tmrGate = s.tmrGate := rfl
@[simp] theorem State.setChan_tmrDiv (i : Nat) (v : Chan) : (s.setChan i v).tmrDiv = s.tmrDiv := rfl
@[simp] theorem State.setChan_tmrSlow (i : Nat) (v : Chan) : (s.setChan i v).tmrSlow = s.tmrSlow := rfl
@[simp] theorem State.setChan_adc (i : Nat) (v : Chan) : (s.setChan i v).adc = s.adc := rfl
@[simp] theorem State.setChan_age (i : Nat) (v : Chan) : (s.setChan i v).age = s.age := rfl
@[simp] theorem State.setChan_ageOver (i : Nat) (v : Chan) : (s.setChan i v).ageOver = s.ageOver := rfl
@[simp] theorem State.setChan_avs (i : Nat) (v : Chan) : (s.setChan i v).avs = s.avs := rfl
@[simp] theorem State.setChan_avsOut (i : Nat) (v : Chan) : (s.setChan i v).avsOut = s.avsOut := rfl
@[simp] theorem State.setChan_nv (i : Nat) (v : Chan) : (s.setChan i v).nv = s.nv := rfl
@[simp] theorem State.setChan_nvOld (i : Nat) (v : Chan) : (s.setChan i v).nvOld = s.nvOld := rfl
@[simp] theorem State.setChan_flash (i : Nat) (v : Chan) : (s.setChan i v).flash = s.flash := rfl
@[simp] theorem State.setChan_image (i : Nat) (v : Chan) : (s.setChan i v).image = s.image := rfl
@[simp] theorem State.setChan_power (i : Nat) (v : Chan) : (s.setChan i v).power = s.power := rfl
@[simp] theorem State.setChan_straps (i : Nat) (v : Chan) : (s.setChan i v).straps = s.straps := rfl
@[simp] theorem State.setChan_histCopy (i : Nat) (v : Chan) : (s.setChan i v).histCopy = s.histCopy := rfl
@[simp] theorem State.setChan_lifeTicks (i : Nat) (v : Chan) : (s.setChan i v).lifeTicks = s.lifeTicks := rfl
@[simp] theorem State.setChan_sleepDue (i : Nat) (v : Chan) : (s.setChan i v).sleepDue = s.sleepDue := rfl
@[simp] theorem State.setChan_engStop (i : Nat) (v : Chan) : (s.setChan i v).engStop = s.engStop := rfl
@[simp] theorem State.setChan_safe (i : Nat) (v : Chan) : (s.setChan i v).safe = s.safe := rfl
@[simp] theorem State.setChan_smbOut (i : Nat) (v : Chan) : (s.setChan i v).smbOut = s.smbOut := rfl
@[simp] theorem State.setChan_late (i : Nat) (v : Chan) : (s.setChan i v).late = s.late := rfl
@[simp] theorem State.setChan_wakeDue (i : Nat) (v : Chan) : (s.setChan i v).wakeDue = s.wakeDue := rfl

@[simp] theorem State.setTask_pending (i : Nat) (v : TaskRec) : (s.setTask i v).pending = s.pending := rfl
@[simp] theorem State.setTask_fresh (i : Nat) (v : TaskRec) : (s.setTask i v).fresh = s.fresh := rfl
@[simp] theorem State.setTask_nextId (i : Nat) (v : TaskRec) : (s.setTask i v).nextId = s.nextId := rfl
@[simp] theorem State.setTask_eclk (i : Nat) (v : TaskRec) : (s.setTask i v).eclk = s.eclk := rfl
@[simp] theorem State.setTask_regs (i : Nat) (v : TaskRec) : (s.setTask i v).regs = s.regs := rfl
@[simp] theorem State.setTask_bar0 (i : Nat) (v : TaskRec) : (s.setTask i v).bar0 = s.bar0 := rfl
@[simp] theorem State.setTask_mem (i : Nat) (v : TaskRec) : (s.setTask i v).mem = s.mem := rfl
@[simp] theorem State.setTask_busOut (i : Nat) (v : TaskRec) : (s.setTask i v).busOut = s.busOut := rfl
@[simp] theorem State.setTask_prog (i : Nat) (v : TaskRec) : (s.setTask i v).prog = s.prog := rfl
@[simp] theorem State.setTask_progOn (i : Nat) (v : TaskRec) : (s.setTask i v).progOn = s.progOn := rfl
@[simp] theorem State.setTask_engs (i : Nat) (v : TaskRec) : (s.setTask i v).engs = s.engs := rfl
@[simp] theorem State.setTask_ths (i : Nat) (v : TaskRec) : (s.setTask i v).ths = s.ths := rfl
@[simp] theorem State.setTask_chans (i : Nat) (v : TaskRec) : (s.setTask i v).chans = s.chans := rfl
@[simp] theorem State.setTask_flights (i : Nat) (v : TaskRec) : (s.setTask i v).flights = s.flights := rfl
@[simp] theorem State.setTask_culmStart (i : Nat) (v : TaskRec) : (s.setTask i v).culmStart = s.culmStart := rfl
@[simp] theorem State.setTask_culmDone (i : Nat) (v : TaskRec) : (s.setTask i v).culmDone = s.culmDone := rfl
@[simp] theorem State.setTask_evq (i : Nat) (v : TaskRec) : (s.setTask i v).evq = s.evq := rfl
@[simp] theorem State.setTask_taskOps (i : Nat) (v : TaskRec) : (s.setTask i v).taskOps = s.taskOps := rfl
@[simp] theorem State.setTask_opFree (i : Nat) (v : TaskRec) : (s.setTask i v).opFree = s.opFree := rfl
@[simp] theorem State.setTask_pageOuts (i : Nat) (v : TaskRec) : (s.setTask i v).pageOuts = s.pageOuts := rfl
@[simp] theorem State.setTask_roundStart (i : Nat) (v : TaskRec) : (s.setTask i v).roundStart = s.roundStart := rfl
@[simp] theorem State.setTask_granted (i : Nat) (v : TaskRec) : (s.setTask i v).granted = s.granted := rfl
@[simp] theorem State.setTask_schedAt (i : Nat) (v : TaskRec) : (s.setTask i v).schedAt = s.schedAt := rfl
@[simp] theorem State.setTask_intake (i : Nat) (v : TaskRec) : (s.setTask i v).intake = s.intake := rfl
@[simp] theorem State.setTask_ctxReads (i : Nat) (v : TaskRec) : (s.setTask i v).ctxReads = s.ctxReads := rfl
@[simp] theorem State.setTask_ctxWrites (i : Nat) (v : TaskRec) : (s.setTask i v).ctxWrites = s.ctxWrites := rfl
@[simp] theorem State.setTask_mtxq (i : Nat) (v : TaskRec) : (s.setTask i v).mtxq = s.mtxq := rfl
@[simp] theorem State.setTask_xfers (i : Nat) (v : TaskRec) : (s.setTask i v).xfers = s.xfers := rfl
@[simp] theorem State.setTask_mtxBusy (i : Nat) (v : TaskRec) : (s.setTask i v).mtxBusy = s.mtxBusy := rfl
@[simp] theorem State.setTask_bus (i : Nat) (v : TaskRec) : (s.setTask i v).bus = s.bus := rfl
@[simp] theorem State.setTask_banks (i : Nat) (v : TaskRec) : (s.setTask i v).banks = s.banks := rfl
@[simp] theorem State.setTask_bankPois (i : Nat) (v : TaskRec) : (s.setTask i v).bankPois = s.bankPois := rfl
@[simp] theorem State.setTask_dramq (i : Nat) (v : TaskRec) : (s.setTask i v).dramq = s.dramq := rfl
@[simp] theorem State.setTask_poisoned (i : Nat) (v : TaskRec) : (s.setTask i v).poisoned = s.poisoned := rfl
@[simp] theorem State.setTask_scrubbed (i : Nat) (v : TaskRec) : (s.setTask i v).scrubbed = s.scrubbed := rfl
@[simp] theorem State.setTask_rowCe (i : Nat) (v : TaskRec) : (s.setTask i v).rowCe = s.rowCe := rfl
@[simp] theorem State.setTask_pprq (i : Nat) (v : TaskRec) : (s.setTask i v).pprq = s.pprq := rfl
@[simp] theorem State.setTask_glnPos (i : Nat) (v : TaskRec) : (s.setTask i v).glnPos = s.glnPos := rfl
@[simp] theorem State.setTask_recPois (i : Nat) (v : TaskRec) : (s.setTask i v).recPois = s.recPois := rfl
@[simp] theorem State.setTask_glnDue (i : Nat) (v : TaskRec) : (s.setTask i v).glnDue = s.glnDue := rfl
@[simp] theorem State.setTask_grants (i : Nat) (v : TaskRec) : (s.setTask i v).grants = s.grants := rfl
@[simp] theorem State.setTask_px (i : Nat) (v : TaskRec) : (s.setTask i v).px = s.px := rfl
@[simp] theorem State.setTask_pg (i : Nat) (v : TaskRec) : (s.setTask i v).pg = s.pg := rfl
@[simp] theorem State.setTask_lanes (i : Nat) (v : TaskRec) : (s.setTask i v).lanes = s.lanes := rfl
@[simp] theorem State.setTask_tsets (i : Nat) (v : TaskRec) : (s.setTask i v).tsets = s.tsets := rfl
@[simp] theorem State.setTask_pxprog (i : Nat) (v : TaskRec) : (s.setTask i v).pxprog = s.pxprog := rfl
@[simp] theorem State.setTask_scr (i : Nat) (v : TaskRec) : (s.setTask i v).scr = s.scr := rfl
@[simp] theorem State.setTask_startReq (i : Nat) (v : TaskRec) : (s.setTask i v).startReq = s.startReq := rfl
@[simp] theorem State.setTask_thr (i : Nat) (v : TaskRec) : (s.setTask i v).thr = s.thr := rfl
@[simp] theorem State.setTask_regions (i : Nat) (v : TaskRec) : (s.setTask i v).regions = s.regions := rfl
@[simp] theorem State.setTask_rdesc (i : Nat) (v : TaskRec) : (s.setTask i v).rdesc = s.rdesc := rfl
@[simp] theorem State.setTask_sites (i : Nat) (v : TaskRec) : (s.setTask i v).sites = s.sites := rfl
@[simp] theorem State.setTask_repairQ (i : Nat) (v : TaskRec) : (s.setTask i v).repairQ = s.repairQ := rfl
@[simp] theorem State.setTask_queues (i : Nat) (v : TaskRec) : (s.setTask i v).queues = s.queues := rfl
@[simp] theorem State.setTask_inprog (i : Nat) (v : TaskRec) : (s.setTask i v).inprog = s.inprog := rfl
@[simp] theorem State.setTask_lastQ (i : Nat) (v : TaskRec) : (s.setTask i v).lastQ = s.lastQ := rfl
@[simp] theorem State.setTask_opsDone (i : Nat) (v : TaskRec) : (s.setTask i v).opsDone = s.opsDone := rfl
@[simp] theorem State.setTask_hostMem (i : Nat) (v : TaskRec) : (s.setTask i v).hostMem = s.hostMem := rfl
@[simp] theorem State.setTask_msixPend (i : Nat) (v : TaskRec) : (s.setTask i v).msixPend = s.msixPend := rfl
@[simp] theorem State.setTask_msixSent (i : Nat) (v : TaskRec) : (s.setTask i v).msixSent = s.msixSent := rfl
@[simp] theorem State.setTask_bar2 (i : Nat) (v : TaskRec) : (s.setTask i v).bar2 = s.bar2 := rfl
@[simp] theorem State.setTask_cfgSpace (i : Nat) (v : TaskRec) : (s.setTask i v).cfgSpace = s.cfgSpace := rfl
@[simp] theorem State.setTask_perst (i : Nat) (v : TaskRec) : (s.setTask i v).perst = s.perst := rfl
@[simp] theorem State.setTask_stickyNote (i : Nat) (v : TaskRec) : (s.setTask i v).stickyNote = s.stickyNote := rfl
@[simp] theorem State.setTask_faultNote (i : Nat) (v : TaskRec) : (s.setTask i v).faultNote = s.faultNote := rfl
@[simp] theorem State.setTask_unreported (i : Nat) (v : TaskRec) : (s.setTask i v).unreported = s.unreported := rfl
@[simp] theorem State.setTask_syncq (i : Nat) (v : TaskRec) : (s.setTask i v).syncq = s.syncq := rfl
@[simp] theorem State.setTask_syncOut (i : Nat) (v : TaskRec) : (s.setTask i v).syncOut = s.syncOut := rfl
@[simp] theorem State.setTask_startSeq (i : Nat) (v : TaskRec) : (s.setTask i v).startSeq = s.startSeq := rfl
@[simp] theorem State.setTask_startSent (i : Nat) (v : TaskRec) : (s.setTask i v).startSent = s.startSent := rfl
@[simp] theorem State.setTask_sleeping (i : Nat) (v : TaskRec) : (s.setTask i v).sleeping = s.sleeping := rfl
@[simp] theorem State.setTask_tap (i : Nat) (v : TaskRec) : (s.setTask i v).tap = s.tap := rfl
@[simp] theorem State.setTask_dma (i : Nat) (v : TaskRec) : (s.setTask i v).dma = s.dma := rfl
@[simp] theorem State.setTask_dmaq (i : Nat) (v : TaskRec) : (s.setTask i v).dmaq = s.dmaq := rfl
@[simp] theorem State.setTask_dmaLast (i : Nat) (v : TaskRec) : (s.setTask i v).dmaLast = s.dmaLast := rfl
@[simp] theorem State.setTask_tmrStage (i : Nat) (v : TaskRec) : (s.setTask i v).tmrStage = s.tmrStage := rfl
@[simp] theorem State.setTask_tmrRun (i : Nat) (v : TaskRec) : (s.setTask i v).tmrRun = s.tmrRun := rfl
@[simp] theorem State.setTask_tmrActs (i : Nat) (v : TaskRec) : (s.setTask i v).tmrActs = s.tmrActs := rfl
@[simp] theorem State.setTask_tmrDue (i : Nat) (v : TaskRec) : (s.setTask i v).tmrDue = s.tmrDue := rfl
@[simp] theorem State.setTask_tmrEdge (i : Nat) (v : TaskRec) : (s.setTask i v).tmrEdge = s.tmrEdge := rfl
@[simp] theorem State.setTask_tmrGate (i : Nat) (v : TaskRec) : (s.setTask i v).tmrGate = s.tmrGate := rfl
@[simp] theorem State.setTask_tmrDiv (i : Nat) (v : TaskRec) : (s.setTask i v).tmrDiv = s.tmrDiv := rfl
@[simp] theorem State.setTask_tmrSlow (i : Nat) (v : TaskRec) : (s.setTask i v).tmrSlow = s.tmrSlow := rfl
@[simp] theorem State.setTask_adc (i : Nat) (v : TaskRec) : (s.setTask i v).adc = s.adc := rfl
@[simp] theorem State.setTask_age (i : Nat) (v : TaskRec) : (s.setTask i v).age = s.age := rfl
@[simp] theorem State.setTask_ageOver (i : Nat) (v : TaskRec) : (s.setTask i v).ageOver = s.ageOver := rfl
@[simp] theorem State.setTask_avs (i : Nat) (v : TaskRec) : (s.setTask i v).avs = s.avs := rfl
@[simp] theorem State.setTask_avsOut (i : Nat) (v : TaskRec) : (s.setTask i v).avsOut = s.avsOut := rfl
@[simp] theorem State.setTask_nv (i : Nat) (v : TaskRec) : (s.setTask i v).nv = s.nv := rfl
@[simp] theorem State.setTask_nvOld (i : Nat) (v : TaskRec) : (s.setTask i v).nvOld = s.nvOld := rfl
@[simp] theorem State.setTask_flash (i : Nat) (v : TaskRec) : (s.setTask i v).flash = s.flash := rfl
@[simp] theorem State.setTask_image (i : Nat) (v : TaskRec) : (s.setTask i v).image = s.image := rfl
@[simp] theorem State.setTask_power (i : Nat) (v : TaskRec) : (s.setTask i v).power = s.power := rfl
@[simp] theorem State.setTask_straps (i : Nat) (v : TaskRec) : (s.setTask i v).straps = s.straps := rfl
@[simp] theorem State.setTask_histCopy (i : Nat) (v : TaskRec) : (s.setTask i v).histCopy = s.histCopy := rfl
@[simp] theorem State.setTask_lifeTicks (i : Nat) (v : TaskRec) : (s.setTask i v).lifeTicks = s.lifeTicks := rfl
@[simp] theorem State.setTask_sleepDue (i : Nat) (v : TaskRec) : (s.setTask i v).sleepDue = s.sleepDue := rfl
@[simp] theorem State.setTask_engStop (i : Nat) (v : TaskRec) : (s.setTask i v).engStop = s.engStop := rfl
@[simp] theorem State.setTask_safe (i : Nat) (v : TaskRec) : (s.setTask i v).safe = s.safe := rfl
@[simp] theorem State.setTask_smbOut (i : Nat) (v : TaskRec) : (s.setTask i v).smbOut = s.smbOut := rfl
@[simp] theorem State.setTask_late (i : Nat) (v : TaskRec) : (s.setTask i v).late = s.late := rfl
@[simp] theorem State.setTask_wakeDue (i : Nat) (v : TaskRec) : (s.setTask i v).wakeDue = s.wakeDue := rfl

@[simp] theorem State.setBank_pending (i : Nat) (v : BankSt) : (s.setBank i v).pending = s.pending := rfl
@[simp] theorem State.setBank_fresh (i : Nat) (v : BankSt) : (s.setBank i v).fresh = s.fresh := rfl
@[simp] theorem State.setBank_nextId (i : Nat) (v : BankSt) : (s.setBank i v).nextId = s.nextId := rfl
@[simp] theorem State.setBank_eclk (i : Nat) (v : BankSt) : (s.setBank i v).eclk = s.eclk := rfl
@[simp] theorem State.setBank_regs (i : Nat) (v : BankSt) : (s.setBank i v).regs = s.regs := rfl
@[simp] theorem State.setBank_bar0 (i : Nat) (v : BankSt) : (s.setBank i v).bar0 = s.bar0 := rfl
@[simp] theorem State.setBank_mem (i : Nat) (v : BankSt) : (s.setBank i v).mem = s.mem := rfl
@[simp] theorem State.setBank_busOut (i : Nat) (v : BankSt) : (s.setBank i v).busOut = s.busOut := rfl
@[simp] theorem State.setBank_prog (i : Nat) (v : BankSt) : (s.setBank i v).prog = s.prog := rfl
@[simp] theorem State.setBank_progOn (i : Nat) (v : BankSt) : (s.setBank i v).progOn = s.progOn := rfl
@[simp] theorem State.setBank_engs (i : Nat) (v : BankSt) : (s.setBank i v).engs = s.engs := rfl
@[simp] theorem State.setBank_ths (i : Nat) (v : BankSt) : (s.setBank i v).ths = s.ths := rfl
@[simp] theorem State.setBank_chans (i : Nat) (v : BankSt) : (s.setBank i v).chans = s.chans := rfl
@[simp] theorem State.setBank_flights (i : Nat) (v : BankSt) : (s.setBank i v).flights = s.flights := rfl
@[simp] theorem State.setBank_culmStart (i : Nat) (v : BankSt) : (s.setBank i v).culmStart = s.culmStart := rfl
@[simp] theorem State.setBank_culmDone (i : Nat) (v : BankSt) : (s.setBank i v).culmDone = s.culmDone := rfl
@[simp] theorem State.setBank_tasks (i : Nat) (v : BankSt) : (s.setBank i v).tasks = s.tasks := rfl
@[simp] theorem State.setBank_evq (i : Nat) (v : BankSt) : (s.setBank i v).evq = s.evq := rfl
@[simp] theorem State.setBank_taskOps (i : Nat) (v : BankSt) : (s.setBank i v).taskOps = s.taskOps := rfl
@[simp] theorem State.setBank_opFree (i : Nat) (v : BankSt) : (s.setBank i v).opFree = s.opFree := rfl
@[simp] theorem State.setBank_pageOuts (i : Nat) (v : BankSt) : (s.setBank i v).pageOuts = s.pageOuts := rfl
@[simp] theorem State.setBank_roundStart (i : Nat) (v : BankSt) : (s.setBank i v).roundStart = s.roundStart := rfl
@[simp] theorem State.setBank_granted (i : Nat) (v : BankSt) : (s.setBank i v).granted = s.granted := rfl
@[simp] theorem State.setBank_schedAt (i : Nat) (v : BankSt) : (s.setBank i v).schedAt = s.schedAt := rfl
@[simp] theorem State.setBank_intake (i : Nat) (v : BankSt) : (s.setBank i v).intake = s.intake := rfl
@[simp] theorem State.setBank_ctxReads (i : Nat) (v : BankSt) : (s.setBank i v).ctxReads = s.ctxReads := rfl
@[simp] theorem State.setBank_ctxWrites (i : Nat) (v : BankSt) : (s.setBank i v).ctxWrites = s.ctxWrites := rfl
@[simp] theorem State.setBank_mtxq (i : Nat) (v : BankSt) : (s.setBank i v).mtxq = s.mtxq := rfl
@[simp] theorem State.setBank_xfers (i : Nat) (v : BankSt) : (s.setBank i v).xfers = s.xfers := rfl
@[simp] theorem State.setBank_mtxBusy (i : Nat) (v : BankSt) : (s.setBank i v).mtxBusy = s.mtxBusy := rfl
@[simp] theorem State.setBank_bus (i : Nat) (v : BankSt) : (s.setBank i v).bus = s.bus := rfl
@[simp] theorem State.setBank_bankPois (i : Nat) (v : BankSt) : (s.setBank i v).bankPois = s.bankPois := rfl
@[simp] theorem State.setBank_dramq (i : Nat) (v : BankSt) : (s.setBank i v).dramq = s.dramq := rfl
@[simp] theorem State.setBank_poisoned (i : Nat) (v : BankSt) : (s.setBank i v).poisoned = s.poisoned := rfl
@[simp] theorem State.setBank_scrubbed (i : Nat) (v : BankSt) : (s.setBank i v).scrubbed = s.scrubbed := rfl
@[simp] theorem State.setBank_rowCe (i : Nat) (v : BankSt) : (s.setBank i v).rowCe = s.rowCe := rfl
@[simp] theorem State.setBank_pprq (i : Nat) (v : BankSt) : (s.setBank i v).pprq = s.pprq := rfl
@[simp] theorem State.setBank_glnPos (i : Nat) (v : BankSt) : (s.setBank i v).glnPos = s.glnPos := rfl
@[simp] theorem State.setBank_recPois (i : Nat) (v : BankSt) : (s.setBank i v).recPois = s.recPois := rfl
@[simp] theorem State.setBank_glnDue (i : Nat) (v : BankSt) : (s.setBank i v).glnDue = s.glnDue := rfl
@[simp] theorem State.setBank_grants (i : Nat) (v : BankSt) : (s.setBank i v).grants = s.grants := rfl
@[simp] theorem State.setBank_px (i : Nat) (v : BankSt) : (s.setBank i v).px = s.px := rfl
@[simp] theorem State.setBank_pg (i : Nat) (v : BankSt) : (s.setBank i v).pg = s.pg := rfl
@[simp] theorem State.setBank_lanes (i : Nat) (v : BankSt) : (s.setBank i v).lanes = s.lanes := rfl
@[simp] theorem State.setBank_tsets (i : Nat) (v : BankSt) : (s.setBank i v).tsets = s.tsets := rfl
@[simp] theorem State.setBank_pxprog (i : Nat) (v : BankSt) : (s.setBank i v).pxprog = s.pxprog := rfl
@[simp] theorem State.setBank_scr (i : Nat) (v : BankSt) : (s.setBank i v).scr = s.scr := rfl
@[simp] theorem State.setBank_startReq (i : Nat) (v : BankSt) : (s.setBank i v).startReq = s.startReq := rfl
@[simp] theorem State.setBank_thr (i : Nat) (v : BankSt) : (s.setBank i v).thr = s.thr := rfl
@[simp] theorem State.setBank_regions (i : Nat) (v : BankSt) : (s.setBank i v).regions = s.regions := rfl
@[simp] theorem State.setBank_rdesc (i : Nat) (v : BankSt) : (s.setBank i v).rdesc = s.rdesc := rfl
@[simp] theorem State.setBank_sites (i : Nat) (v : BankSt) : (s.setBank i v).sites = s.sites := rfl
@[simp] theorem State.setBank_repairQ (i : Nat) (v : BankSt) : (s.setBank i v).repairQ = s.repairQ := rfl
@[simp] theorem State.setBank_queues (i : Nat) (v : BankSt) : (s.setBank i v).queues = s.queues := rfl
@[simp] theorem State.setBank_inprog (i : Nat) (v : BankSt) : (s.setBank i v).inprog = s.inprog := rfl
@[simp] theorem State.setBank_lastQ (i : Nat) (v : BankSt) : (s.setBank i v).lastQ = s.lastQ := rfl
@[simp] theorem State.setBank_opsDone (i : Nat) (v : BankSt) : (s.setBank i v).opsDone = s.opsDone := rfl
@[simp] theorem State.setBank_hostMem (i : Nat) (v : BankSt) : (s.setBank i v).hostMem = s.hostMem := rfl
@[simp] theorem State.setBank_msixPend (i : Nat) (v : BankSt) : (s.setBank i v).msixPend = s.msixPend := rfl
@[simp] theorem State.setBank_msixSent (i : Nat) (v : BankSt) : (s.setBank i v).msixSent = s.msixSent := rfl
@[simp] theorem State.setBank_bar2 (i : Nat) (v : BankSt) : (s.setBank i v).bar2 = s.bar2 := rfl
@[simp] theorem State.setBank_cfgSpace (i : Nat) (v : BankSt) : (s.setBank i v).cfgSpace = s.cfgSpace := rfl
@[simp] theorem State.setBank_perst (i : Nat) (v : BankSt) : (s.setBank i v).perst = s.perst := rfl
@[simp] theorem State.setBank_stickyNote (i : Nat) (v : BankSt) : (s.setBank i v).stickyNote = s.stickyNote := rfl
@[simp] theorem State.setBank_faultNote (i : Nat) (v : BankSt) : (s.setBank i v).faultNote = s.faultNote := rfl
@[simp] theorem State.setBank_unreported (i : Nat) (v : BankSt) : (s.setBank i v).unreported = s.unreported := rfl
@[simp] theorem State.setBank_syncq (i : Nat) (v : BankSt) : (s.setBank i v).syncq = s.syncq := rfl
@[simp] theorem State.setBank_syncOut (i : Nat) (v : BankSt) : (s.setBank i v).syncOut = s.syncOut := rfl
@[simp] theorem State.setBank_startSeq (i : Nat) (v : BankSt) : (s.setBank i v).startSeq = s.startSeq := rfl
@[simp] theorem State.setBank_startSent (i : Nat) (v : BankSt) : (s.setBank i v).startSent = s.startSent := rfl
@[simp] theorem State.setBank_sleeping (i : Nat) (v : BankSt) : (s.setBank i v).sleeping = s.sleeping := rfl
@[simp] theorem State.setBank_tap (i : Nat) (v : BankSt) : (s.setBank i v).tap = s.tap := rfl
@[simp] theorem State.setBank_dma (i : Nat) (v : BankSt) : (s.setBank i v).dma = s.dma := rfl
@[simp] theorem State.setBank_dmaq (i : Nat) (v : BankSt) : (s.setBank i v).dmaq = s.dmaq := rfl
@[simp] theorem State.setBank_dmaLast (i : Nat) (v : BankSt) : (s.setBank i v).dmaLast = s.dmaLast := rfl
@[simp] theorem State.setBank_tmrStage (i : Nat) (v : BankSt) : (s.setBank i v).tmrStage = s.tmrStage := rfl
@[simp] theorem State.setBank_tmrRun (i : Nat) (v : BankSt) : (s.setBank i v).tmrRun = s.tmrRun := rfl
@[simp] theorem State.setBank_tmrActs (i : Nat) (v : BankSt) : (s.setBank i v).tmrActs = s.tmrActs := rfl
@[simp] theorem State.setBank_tmrDue (i : Nat) (v : BankSt) : (s.setBank i v).tmrDue = s.tmrDue := rfl
@[simp] theorem State.setBank_tmrEdge (i : Nat) (v : BankSt) : (s.setBank i v).tmrEdge = s.tmrEdge := rfl
@[simp] theorem State.setBank_tmrGate (i : Nat) (v : BankSt) : (s.setBank i v).tmrGate = s.tmrGate := rfl
@[simp] theorem State.setBank_tmrDiv (i : Nat) (v : BankSt) : (s.setBank i v).tmrDiv = s.tmrDiv := rfl
@[simp] theorem State.setBank_tmrSlow (i : Nat) (v : BankSt) : (s.setBank i v).tmrSlow = s.tmrSlow := rfl
@[simp] theorem State.setBank_adc (i : Nat) (v : BankSt) : (s.setBank i v).adc = s.adc := rfl
@[simp] theorem State.setBank_age (i : Nat) (v : BankSt) : (s.setBank i v).age = s.age := rfl
@[simp] theorem State.setBank_ageOver (i : Nat) (v : BankSt) : (s.setBank i v).ageOver = s.ageOver := rfl
@[simp] theorem State.setBank_avs (i : Nat) (v : BankSt) : (s.setBank i v).avs = s.avs := rfl
@[simp] theorem State.setBank_avsOut (i : Nat) (v : BankSt) : (s.setBank i v).avsOut = s.avsOut := rfl
@[simp] theorem State.setBank_nv (i : Nat) (v : BankSt) : (s.setBank i v).nv = s.nv := rfl
@[simp] theorem State.setBank_nvOld (i : Nat) (v : BankSt) : (s.setBank i v).nvOld = s.nvOld := rfl
@[simp] theorem State.setBank_flash (i : Nat) (v : BankSt) : (s.setBank i v).flash = s.flash := rfl
@[simp] theorem State.setBank_image (i : Nat) (v : BankSt) : (s.setBank i v).image = s.image := rfl
@[simp] theorem State.setBank_power (i : Nat) (v : BankSt) : (s.setBank i v).power = s.power := rfl
@[simp] theorem State.setBank_straps (i : Nat) (v : BankSt) : (s.setBank i v).straps = s.straps := rfl
@[simp] theorem State.setBank_histCopy (i : Nat) (v : BankSt) : (s.setBank i v).histCopy = s.histCopy := rfl
@[simp] theorem State.setBank_lifeTicks (i : Nat) (v : BankSt) : (s.setBank i v).lifeTicks = s.lifeTicks := rfl
@[simp] theorem State.setBank_sleepDue (i : Nat) (v : BankSt) : (s.setBank i v).sleepDue = s.sleepDue := rfl
@[simp] theorem State.setBank_engStop (i : Nat) (v : BankSt) : (s.setBank i v).engStop = s.engStop := rfl
@[simp] theorem State.setBank_safe (i : Nat) (v : BankSt) : (s.setBank i v).safe = s.safe := rfl
@[simp] theorem State.setBank_smbOut (i : Nat) (v : BankSt) : (s.setBank i v).smbOut = s.smbOut := rfl
@[simp] theorem State.setBank_late (i : Nat) (v : BankSt) : (s.setBank i v).late = s.late := rfl
@[simp] theorem State.setBank_wakeDue (i : Nat) (v : BankSt) : (s.setBank i v).wakeDue = s.wakeDue := rfl

@[simp] theorem State.setPx_pending (i : Nat) (v : PxSt) : (s.setPx i v).pending = s.pending := rfl
@[simp] theorem State.setPx_fresh (i : Nat) (v : PxSt) : (s.setPx i v).fresh = s.fresh := rfl
@[simp] theorem State.setPx_nextId (i : Nat) (v : PxSt) : (s.setPx i v).nextId = s.nextId := rfl
@[simp] theorem State.setPx_eclk (i : Nat) (v : PxSt) : (s.setPx i v).eclk = s.eclk := rfl
@[simp] theorem State.setPx_regs (i : Nat) (v : PxSt) : (s.setPx i v).regs = s.regs := rfl
@[simp] theorem State.setPx_bar0 (i : Nat) (v : PxSt) : (s.setPx i v).bar0 = s.bar0 := rfl
@[simp] theorem State.setPx_mem (i : Nat) (v : PxSt) : (s.setPx i v).mem = s.mem := rfl
@[simp] theorem State.setPx_busOut (i : Nat) (v : PxSt) : (s.setPx i v).busOut = s.busOut := rfl
@[simp] theorem State.setPx_prog (i : Nat) (v : PxSt) : (s.setPx i v).prog = s.prog := rfl
@[simp] theorem State.setPx_progOn (i : Nat) (v : PxSt) : (s.setPx i v).progOn = s.progOn := rfl
@[simp] theorem State.setPx_engs (i : Nat) (v : PxSt) : (s.setPx i v).engs = s.engs := rfl
@[simp] theorem State.setPx_ths (i : Nat) (v : PxSt) : (s.setPx i v).ths = s.ths := rfl
@[simp] theorem State.setPx_chans (i : Nat) (v : PxSt) : (s.setPx i v).chans = s.chans := rfl
@[simp] theorem State.setPx_flights (i : Nat) (v : PxSt) : (s.setPx i v).flights = s.flights := rfl
@[simp] theorem State.setPx_culmStart (i : Nat) (v : PxSt) : (s.setPx i v).culmStart = s.culmStart := rfl
@[simp] theorem State.setPx_culmDone (i : Nat) (v : PxSt) : (s.setPx i v).culmDone = s.culmDone := rfl
@[simp] theorem State.setPx_tasks (i : Nat) (v : PxSt) : (s.setPx i v).tasks = s.tasks := rfl
@[simp] theorem State.setPx_evq (i : Nat) (v : PxSt) : (s.setPx i v).evq = s.evq := rfl
@[simp] theorem State.setPx_taskOps (i : Nat) (v : PxSt) : (s.setPx i v).taskOps = s.taskOps := rfl
@[simp] theorem State.setPx_opFree (i : Nat) (v : PxSt) : (s.setPx i v).opFree = s.opFree := rfl
@[simp] theorem State.setPx_pageOuts (i : Nat) (v : PxSt) : (s.setPx i v).pageOuts = s.pageOuts := rfl
@[simp] theorem State.setPx_roundStart (i : Nat) (v : PxSt) : (s.setPx i v).roundStart = s.roundStart := rfl
@[simp] theorem State.setPx_granted (i : Nat) (v : PxSt) : (s.setPx i v).granted = s.granted := rfl
@[simp] theorem State.setPx_schedAt (i : Nat) (v : PxSt) : (s.setPx i v).schedAt = s.schedAt := rfl
@[simp] theorem State.setPx_intake (i : Nat) (v : PxSt) : (s.setPx i v).intake = s.intake := rfl
@[simp] theorem State.setPx_ctxReads (i : Nat) (v : PxSt) : (s.setPx i v).ctxReads = s.ctxReads := rfl
@[simp] theorem State.setPx_ctxWrites (i : Nat) (v : PxSt) : (s.setPx i v).ctxWrites = s.ctxWrites := rfl
@[simp] theorem State.setPx_mtxq (i : Nat) (v : PxSt) : (s.setPx i v).mtxq = s.mtxq := rfl
@[simp] theorem State.setPx_xfers (i : Nat) (v : PxSt) : (s.setPx i v).xfers = s.xfers := rfl
@[simp] theorem State.setPx_mtxBusy (i : Nat) (v : PxSt) : (s.setPx i v).mtxBusy = s.mtxBusy := rfl
@[simp] theorem State.setPx_bus (i : Nat) (v : PxSt) : (s.setPx i v).bus = s.bus := rfl
@[simp] theorem State.setPx_banks (i : Nat) (v : PxSt) : (s.setPx i v).banks = s.banks := rfl
@[simp] theorem State.setPx_bankPois (i : Nat) (v : PxSt) : (s.setPx i v).bankPois = s.bankPois := rfl
@[simp] theorem State.setPx_dramq (i : Nat) (v : PxSt) : (s.setPx i v).dramq = s.dramq := rfl
@[simp] theorem State.setPx_poisoned (i : Nat) (v : PxSt) : (s.setPx i v).poisoned = s.poisoned := rfl
@[simp] theorem State.setPx_scrubbed (i : Nat) (v : PxSt) : (s.setPx i v).scrubbed = s.scrubbed := rfl
@[simp] theorem State.setPx_rowCe (i : Nat) (v : PxSt) : (s.setPx i v).rowCe = s.rowCe := rfl
@[simp] theorem State.setPx_pprq (i : Nat) (v : PxSt) : (s.setPx i v).pprq = s.pprq := rfl
@[simp] theorem State.setPx_glnPos (i : Nat) (v : PxSt) : (s.setPx i v).glnPos = s.glnPos := rfl
@[simp] theorem State.setPx_recPois (i : Nat) (v : PxSt) : (s.setPx i v).recPois = s.recPois := rfl
@[simp] theorem State.setPx_glnDue (i : Nat) (v : PxSt) : (s.setPx i v).glnDue = s.glnDue := rfl
@[simp] theorem State.setPx_grants (i : Nat) (v : PxSt) : (s.setPx i v).grants = s.grants := rfl
@[simp] theorem State.setPx_pg (i : Nat) (v : PxSt) : (s.setPx i v).pg = s.pg := rfl
@[simp] theorem State.setPx_lanes (i : Nat) (v : PxSt) : (s.setPx i v).lanes = s.lanes := rfl
@[simp] theorem State.setPx_tsets (i : Nat) (v : PxSt) : (s.setPx i v).tsets = s.tsets := rfl
@[simp] theorem State.setPx_pxprog (i : Nat) (v : PxSt) : (s.setPx i v).pxprog = s.pxprog := rfl
@[simp] theorem State.setPx_scr (i : Nat) (v : PxSt) : (s.setPx i v).scr = s.scr := rfl
@[simp] theorem State.setPx_startReq (i : Nat) (v : PxSt) : (s.setPx i v).startReq = s.startReq := rfl
@[simp] theorem State.setPx_thr (i : Nat) (v : PxSt) : (s.setPx i v).thr = s.thr := rfl
@[simp] theorem State.setPx_regions (i : Nat) (v : PxSt) : (s.setPx i v).regions = s.regions := rfl
@[simp] theorem State.setPx_rdesc (i : Nat) (v : PxSt) : (s.setPx i v).rdesc = s.rdesc := rfl
@[simp] theorem State.setPx_sites (i : Nat) (v : PxSt) : (s.setPx i v).sites = s.sites := rfl
@[simp] theorem State.setPx_repairQ (i : Nat) (v : PxSt) : (s.setPx i v).repairQ = s.repairQ := rfl
@[simp] theorem State.setPx_queues (i : Nat) (v : PxSt) : (s.setPx i v).queues = s.queues := rfl
@[simp] theorem State.setPx_inprog (i : Nat) (v : PxSt) : (s.setPx i v).inprog = s.inprog := rfl
@[simp] theorem State.setPx_lastQ (i : Nat) (v : PxSt) : (s.setPx i v).lastQ = s.lastQ := rfl
@[simp] theorem State.setPx_opsDone (i : Nat) (v : PxSt) : (s.setPx i v).opsDone = s.opsDone := rfl
@[simp] theorem State.setPx_hostMem (i : Nat) (v : PxSt) : (s.setPx i v).hostMem = s.hostMem := rfl
@[simp] theorem State.setPx_msixPend (i : Nat) (v : PxSt) : (s.setPx i v).msixPend = s.msixPend := rfl
@[simp] theorem State.setPx_msixSent (i : Nat) (v : PxSt) : (s.setPx i v).msixSent = s.msixSent := rfl
@[simp] theorem State.setPx_bar2 (i : Nat) (v : PxSt) : (s.setPx i v).bar2 = s.bar2 := rfl
@[simp] theorem State.setPx_cfgSpace (i : Nat) (v : PxSt) : (s.setPx i v).cfgSpace = s.cfgSpace := rfl
@[simp] theorem State.setPx_perst (i : Nat) (v : PxSt) : (s.setPx i v).perst = s.perst := rfl
@[simp] theorem State.setPx_stickyNote (i : Nat) (v : PxSt) : (s.setPx i v).stickyNote = s.stickyNote := rfl
@[simp] theorem State.setPx_faultNote (i : Nat) (v : PxSt) : (s.setPx i v).faultNote = s.faultNote := rfl
@[simp] theorem State.setPx_unreported (i : Nat) (v : PxSt) : (s.setPx i v).unreported = s.unreported := rfl
@[simp] theorem State.setPx_syncq (i : Nat) (v : PxSt) : (s.setPx i v).syncq = s.syncq := rfl
@[simp] theorem State.setPx_syncOut (i : Nat) (v : PxSt) : (s.setPx i v).syncOut = s.syncOut := rfl
@[simp] theorem State.setPx_startSeq (i : Nat) (v : PxSt) : (s.setPx i v).startSeq = s.startSeq := rfl
@[simp] theorem State.setPx_startSent (i : Nat) (v : PxSt) : (s.setPx i v).startSent = s.startSent := rfl
@[simp] theorem State.setPx_sleeping (i : Nat) (v : PxSt) : (s.setPx i v).sleeping = s.sleeping := rfl
@[simp] theorem State.setPx_tap (i : Nat) (v : PxSt) : (s.setPx i v).tap = s.tap := rfl
@[simp] theorem State.setPx_dma (i : Nat) (v : PxSt) : (s.setPx i v).dma = s.dma := rfl
@[simp] theorem State.setPx_dmaq (i : Nat) (v : PxSt) : (s.setPx i v).dmaq = s.dmaq := rfl
@[simp] theorem State.setPx_dmaLast (i : Nat) (v : PxSt) : (s.setPx i v).dmaLast = s.dmaLast := rfl
@[simp] theorem State.setPx_tmrStage (i : Nat) (v : PxSt) : (s.setPx i v).tmrStage = s.tmrStage := rfl
@[simp] theorem State.setPx_tmrRun (i : Nat) (v : PxSt) : (s.setPx i v).tmrRun = s.tmrRun := rfl
@[simp] theorem State.setPx_tmrActs (i : Nat) (v : PxSt) : (s.setPx i v).tmrActs = s.tmrActs := rfl
@[simp] theorem State.setPx_tmrDue (i : Nat) (v : PxSt) : (s.setPx i v).tmrDue = s.tmrDue := rfl
@[simp] theorem State.setPx_tmrEdge (i : Nat) (v : PxSt) : (s.setPx i v).tmrEdge = s.tmrEdge := rfl
@[simp] theorem State.setPx_tmrGate (i : Nat) (v : PxSt) : (s.setPx i v).tmrGate = s.tmrGate := rfl
@[simp] theorem State.setPx_tmrDiv (i : Nat) (v : PxSt) : (s.setPx i v).tmrDiv = s.tmrDiv := rfl
@[simp] theorem State.setPx_tmrSlow (i : Nat) (v : PxSt) : (s.setPx i v).tmrSlow = s.tmrSlow := rfl
@[simp] theorem State.setPx_adc (i : Nat) (v : PxSt) : (s.setPx i v).adc = s.adc := rfl
@[simp] theorem State.setPx_age (i : Nat) (v : PxSt) : (s.setPx i v).age = s.age := rfl
@[simp] theorem State.setPx_ageOver (i : Nat) (v : PxSt) : (s.setPx i v).ageOver = s.ageOver := rfl
@[simp] theorem State.setPx_avs (i : Nat) (v : PxSt) : (s.setPx i v).avs = s.avs := rfl
@[simp] theorem State.setPx_avsOut (i : Nat) (v : PxSt) : (s.setPx i v).avsOut = s.avsOut := rfl
@[simp] theorem State.setPx_nv (i : Nat) (v : PxSt) : (s.setPx i v).nv = s.nv := rfl
@[simp] theorem State.setPx_nvOld (i : Nat) (v : PxSt) : (s.setPx i v).nvOld = s.nvOld := rfl
@[simp] theorem State.setPx_flash (i : Nat) (v : PxSt) : (s.setPx i v).flash = s.flash := rfl
@[simp] theorem State.setPx_image (i : Nat) (v : PxSt) : (s.setPx i v).image = s.image := rfl
@[simp] theorem State.setPx_power (i : Nat) (v : PxSt) : (s.setPx i v).power = s.power := rfl
@[simp] theorem State.setPx_straps (i : Nat) (v : PxSt) : (s.setPx i v).straps = s.straps := rfl
@[simp] theorem State.setPx_histCopy (i : Nat) (v : PxSt) : (s.setPx i v).histCopy = s.histCopy := rfl
@[simp] theorem State.setPx_lifeTicks (i : Nat) (v : PxSt) : (s.setPx i v).lifeTicks = s.lifeTicks := rfl
@[simp] theorem State.setPx_sleepDue (i : Nat) (v : PxSt) : (s.setPx i v).sleepDue = s.sleepDue := rfl
@[simp] theorem State.setPx_engStop (i : Nat) (v : PxSt) : (s.setPx i v).engStop = s.engStop := rfl
@[simp] theorem State.setPx_safe (i : Nat) (v : PxSt) : (s.setPx i v).safe = s.safe := rfl
@[simp] theorem State.setPx_smbOut (i : Nat) (v : PxSt) : (s.setPx i v).smbOut = s.smbOut := rfl
@[simp] theorem State.setPx_late (i : Nat) (v : PxSt) : (s.setPx i v).late = s.late := rfl
@[simp] theorem State.setPx_wakeDue (i : Nat) (v : PxSt) : (s.setPx i v).wakeDue = s.wakeDue := rfl

@[simp] theorem State.setPg_pending (i : Nat) (v : PgSt) : (s.setPg i v).pending = s.pending := rfl
@[simp] theorem State.setPg_fresh (i : Nat) (v : PgSt) : (s.setPg i v).fresh = s.fresh := rfl
@[simp] theorem State.setPg_nextId (i : Nat) (v : PgSt) : (s.setPg i v).nextId = s.nextId := rfl
@[simp] theorem State.setPg_eclk (i : Nat) (v : PgSt) : (s.setPg i v).eclk = s.eclk := rfl
@[simp] theorem State.setPg_regs (i : Nat) (v : PgSt) : (s.setPg i v).regs = s.regs := rfl
@[simp] theorem State.setPg_bar0 (i : Nat) (v : PgSt) : (s.setPg i v).bar0 = s.bar0 := rfl
@[simp] theorem State.setPg_mem (i : Nat) (v : PgSt) : (s.setPg i v).mem = s.mem := rfl
@[simp] theorem State.setPg_busOut (i : Nat) (v : PgSt) : (s.setPg i v).busOut = s.busOut := rfl
@[simp] theorem State.setPg_prog (i : Nat) (v : PgSt) : (s.setPg i v).prog = s.prog := rfl
@[simp] theorem State.setPg_progOn (i : Nat) (v : PgSt) : (s.setPg i v).progOn = s.progOn := rfl
@[simp] theorem State.setPg_engs (i : Nat) (v : PgSt) : (s.setPg i v).engs = s.engs := rfl
@[simp] theorem State.setPg_ths (i : Nat) (v : PgSt) : (s.setPg i v).ths = s.ths := rfl
@[simp] theorem State.setPg_chans (i : Nat) (v : PgSt) : (s.setPg i v).chans = s.chans := rfl
@[simp] theorem State.setPg_flights (i : Nat) (v : PgSt) : (s.setPg i v).flights = s.flights := rfl
@[simp] theorem State.setPg_culmStart (i : Nat) (v : PgSt) : (s.setPg i v).culmStart = s.culmStart := rfl
@[simp] theorem State.setPg_culmDone (i : Nat) (v : PgSt) : (s.setPg i v).culmDone = s.culmDone := rfl
@[simp] theorem State.setPg_tasks (i : Nat) (v : PgSt) : (s.setPg i v).tasks = s.tasks := rfl
@[simp] theorem State.setPg_evq (i : Nat) (v : PgSt) : (s.setPg i v).evq = s.evq := rfl
@[simp] theorem State.setPg_taskOps (i : Nat) (v : PgSt) : (s.setPg i v).taskOps = s.taskOps := rfl
@[simp] theorem State.setPg_opFree (i : Nat) (v : PgSt) : (s.setPg i v).opFree = s.opFree := rfl
@[simp] theorem State.setPg_pageOuts (i : Nat) (v : PgSt) : (s.setPg i v).pageOuts = s.pageOuts := rfl
@[simp] theorem State.setPg_roundStart (i : Nat) (v : PgSt) : (s.setPg i v).roundStart = s.roundStart := rfl
@[simp] theorem State.setPg_granted (i : Nat) (v : PgSt) : (s.setPg i v).granted = s.granted := rfl
@[simp] theorem State.setPg_schedAt (i : Nat) (v : PgSt) : (s.setPg i v).schedAt = s.schedAt := rfl
@[simp] theorem State.setPg_intake (i : Nat) (v : PgSt) : (s.setPg i v).intake = s.intake := rfl
@[simp] theorem State.setPg_ctxReads (i : Nat) (v : PgSt) : (s.setPg i v).ctxReads = s.ctxReads := rfl
@[simp] theorem State.setPg_ctxWrites (i : Nat) (v : PgSt) : (s.setPg i v).ctxWrites = s.ctxWrites := rfl
@[simp] theorem State.setPg_mtxq (i : Nat) (v : PgSt) : (s.setPg i v).mtxq = s.mtxq := rfl
@[simp] theorem State.setPg_xfers (i : Nat) (v : PgSt) : (s.setPg i v).xfers = s.xfers := rfl
@[simp] theorem State.setPg_mtxBusy (i : Nat) (v : PgSt) : (s.setPg i v).mtxBusy = s.mtxBusy := rfl
@[simp] theorem State.setPg_bus (i : Nat) (v : PgSt) : (s.setPg i v).bus = s.bus := rfl
@[simp] theorem State.setPg_banks (i : Nat) (v : PgSt) : (s.setPg i v).banks = s.banks := rfl
@[simp] theorem State.setPg_bankPois (i : Nat) (v : PgSt) : (s.setPg i v).bankPois = s.bankPois := rfl
@[simp] theorem State.setPg_dramq (i : Nat) (v : PgSt) : (s.setPg i v).dramq = s.dramq := rfl
@[simp] theorem State.setPg_poisoned (i : Nat) (v : PgSt) : (s.setPg i v).poisoned = s.poisoned := rfl
@[simp] theorem State.setPg_scrubbed (i : Nat) (v : PgSt) : (s.setPg i v).scrubbed = s.scrubbed := rfl
@[simp] theorem State.setPg_rowCe (i : Nat) (v : PgSt) : (s.setPg i v).rowCe = s.rowCe := rfl
@[simp] theorem State.setPg_pprq (i : Nat) (v : PgSt) : (s.setPg i v).pprq = s.pprq := rfl
@[simp] theorem State.setPg_glnPos (i : Nat) (v : PgSt) : (s.setPg i v).glnPos = s.glnPos := rfl
@[simp] theorem State.setPg_recPois (i : Nat) (v : PgSt) : (s.setPg i v).recPois = s.recPois := rfl
@[simp] theorem State.setPg_glnDue (i : Nat) (v : PgSt) : (s.setPg i v).glnDue = s.glnDue := rfl
@[simp] theorem State.setPg_grants (i : Nat) (v : PgSt) : (s.setPg i v).grants = s.grants := rfl
@[simp] theorem State.setPg_px (i : Nat) (v : PgSt) : (s.setPg i v).px = s.px := rfl
@[simp] theorem State.setPg_lanes (i : Nat) (v : PgSt) : (s.setPg i v).lanes = s.lanes := rfl
@[simp] theorem State.setPg_tsets (i : Nat) (v : PgSt) : (s.setPg i v).tsets = s.tsets := rfl
@[simp] theorem State.setPg_pxprog (i : Nat) (v : PgSt) : (s.setPg i v).pxprog = s.pxprog := rfl
@[simp] theorem State.setPg_scr (i : Nat) (v : PgSt) : (s.setPg i v).scr = s.scr := rfl
@[simp] theorem State.setPg_startReq (i : Nat) (v : PgSt) : (s.setPg i v).startReq = s.startReq := rfl
@[simp] theorem State.setPg_thr (i : Nat) (v : PgSt) : (s.setPg i v).thr = s.thr := rfl
@[simp] theorem State.setPg_regions (i : Nat) (v : PgSt) : (s.setPg i v).regions = s.regions := rfl
@[simp] theorem State.setPg_rdesc (i : Nat) (v : PgSt) : (s.setPg i v).rdesc = s.rdesc := rfl
@[simp] theorem State.setPg_sites (i : Nat) (v : PgSt) : (s.setPg i v).sites = s.sites := rfl
@[simp] theorem State.setPg_repairQ (i : Nat) (v : PgSt) : (s.setPg i v).repairQ = s.repairQ := rfl
@[simp] theorem State.setPg_queues (i : Nat) (v : PgSt) : (s.setPg i v).queues = s.queues := rfl
@[simp] theorem State.setPg_inprog (i : Nat) (v : PgSt) : (s.setPg i v).inprog = s.inprog := rfl
@[simp] theorem State.setPg_lastQ (i : Nat) (v : PgSt) : (s.setPg i v).lastQ = s.lastQ := rfl
@[simp] theorem State.setPg_opsDone (i : Nat) (v : PgSt) : (s.setPg i v).opsDone = s.opsDone := rfl
@[simp] theorem State.setPg_hostMem (i : Nat) (v : PgSt) : (s.setPg i v).hostMem = s.hostMem := rfl
@[simp] theorem State.setPg_msixPend (i : Nat) (v : PgSt) : (s.setPg i v).msixPend = s.msixPend := rfl
@[simp] theorem State.setPg_msixSent (i : Nat) (v : PgSt) : (s.setPg i v).msixSent = s.msixSent := rfl
@[simp] theorem State.setPg_bar2 (i : Nat) (v : PgSt) : (s.setPg i v).bar2 = s.bar2 := rfl
@[simp] theorem State.setPg_cfgSpace (i : Nat) (v : PgSt) : (s.setPg i v).cfgSpace = s.cfgSpace := rfl
@[simp] theorem State.setPg_perst (i : Nat) (v : PgSt) : (s.setPg i v).perst = s.perst := rfl
@[simp] theorem State.setPg_stickyNote (i : Nat) (v : PgSt) : (s.setPg i v).stickyNote = s.stickyNote := rfl
@[simp] theorem State.setPg_faultNote (i : Nat) (v : PgSt) : (s.setPg i v).faultNote = s.faultNote := rfl
@[simp] theorem State.setPg_unreported (i : Nat) (v : PgSt) : (s.setPg i v).unreported = s.unreported := rfl
@[simp] theorem State.setPg_syncq (i : Nat) (v : PgSt) : (s.setPg i v).syncq = s.syncq := rfl
@[simp] theorem State.setPg_syncOut (i : Nat) (v : PgSt) : (s.setPg i v).syncOut = s.syncOut := rfl
@[simp] theorem State.setPg_startSeq (i : Nat) (v : PgSt) : (s.setPg i v).startSeq = s.startSeq := rfl
@[simp] theorem State.setPg_startSent (i : Nat) (v : PgSt) : (s.setPg i v).startSent = s.startSent := rfl
@[simp] theorem State.setPg_sleeping (i : Nat) (v : PgSt) : (s.setPg i v).sleeping = s.sleeping := rfl
@[simp] theorem State.setPg_tap (i : Nat) (v : PgSt) : (s.setPg i v).tap = s.tap := rfl
@[simp] theorem State.setPg_dma (i : Nat) (v : PgSt) : (s.setPg i v).dma = s.dma := rfl
@[simp] theorem State.setPg_dmaq (i : Nat) (v : PgSt) : (s.setPg i v).dmaq = s.dmaq := rfl
@[simp] theorem State.setPg_dmaLast (i : Nat) (v : PgSt) : (s.setPg i v).dmaLast = s.dmaLast := rfl
@[simp] theorem State.setPg_tmrStage (i : Nat) (v : PgSt) : (s.setPg i v).tmrStage = s.tmrStage := rfl
@[simp] theorem State.setPg_tmrRun (i : Nat) (v : PgSt) : (s.setPg i v).tmrRun = s.tmrRun := rfl
@[simp] theorem State.setPg_tmrActs (i : Nat) (v : PgSt) : (s.setPg i v).tmrActs = s.tmrActs := rfl
@[simp] theorem State.setPg_tmrDue (i : Nat) (v : PgSt) : (s.setPg i v).tmrDue = s.tmrDue := rfl
@[simp] theorem State.setPg_tmrEdge (i : Nat) (v : PgSt) : (s.setPg i v).tmrEdge = s.tmrEdge := rfl
@[simp] theorem State.setPg_tmrGate (i : Nat) (v : PgSt) : (s.setPg i v).tmrGate = s.tmrGate := rfl
@[simp] theorem State.setPg_tmrDiv (i : Nat) (v : PgSt) : (s.setPg i v).tmrDiv = s.tmrDiv := rfl
@[simp] theorem State.setPg_tmrSlow (i : Nat) (v : PgSt) : (s.setPg i v).tmrSlow = s.tmrSlow := rfl
@[simp] theorem State.setPg_adc (i : Nat) (v : PgSt) : (s.setPg i v).adc = s.adc := rfl
@[simp] theorem State.setPg_age (i : Nat) (v : PgSt) : (s.setPg i v).age = s.age := rfl
@[simp] theorem State.setPg_ageOver (i : Nat) (v : PgSt) : (s.setPg i v).ageOver = s.ageOver := rfl
@[simp] theorem State.setPg_avs (i : Nat) (v : PgSt) : (s.setPg i v).avs = s.avs := rfl
@[simp] theorem State.setPg_avsOut (i : Nat) (v : PgSt) : (s.setPg i v).avsOut = s.avsOut := rfl
@[simp] theorem State.setPg_nv (i : Nat) (v : PgSt) : (s.setPg i v).nv = s.nv := rfl
@[simp] theorem State.setPg_nvOld (i : Nat) (v : PgSt) : (s.setPg i v).nvOld = s.nvOld := rfl
@[simp] theorem State.setPg_flash (i : Nat) (v : PgSt) : (s.setPg i v).flash = s.flash := rfl
@[simp] theorem State.setPg_image (i : Nat) (v : PgSt) : (s.setPg i v).image = s.image := rfl
@[simp] theorem State.setPg_power (i : Nat) (v : PgSt) : (s.setPg i v).power = s.power := rfl
@[simp] theorem State.setPg_straps (i : Nat) (v : PgSt) : (s.setPg i v).straps = s.straps := rfl
@[simp] theorem State.setPg_histCopy (i : Nat) (v : PgSt) : (s.setPg i v).histCopy = s.histCopy := rfl
@[simp] theorem State.setPg_lifeTicks (i : Nat) (v : PgSt) : (s.setPg i v).lifeTicks = s.lifeTicks := rfl
@[simp] theorem State.setPg_sleepDue (i : Nat) (v : PgSt) : (s.setPg i v).sleepDue = s.sleepDue := rfl
@[simp] theorem State.setPg_engStop (i : Nat) (v : PgSt) : (s.setPg i v).engStop = s.engStop := rfl
@[simp] theorem State.setPg_safe (i : Nat) (v : PgSt) : (s.setPg i v).safe = s.safe := rfl
@[simp] theorem State.setPg_smbOut (i : Nat) (v : PgSt) : (s.setPg i v).smbOut = s.smbOut := rfl
@[simp] theorem State.setPg_late (i : Nat) (v : PgSt) : (s.setPg i v).late = s.late := rfl
@[simp] theorem State.setPg_wakeDue (i : Nat) (v : PgSt) : (s.setPg i v).wakeDue = s.wakeDue := rfl

@[simp] theorem State.setLane_pending (i : Nat) (v : LnSt) : (s.setLane i v).pending = s.pending := rfl
@[simp] theorem State.setLane_fresh (i : Nat) (v : LnSt) : (s.setLane i v).fresh = s.fresh := rfl
@[simp] theorem State.setLane_nextId (i : Nat) (v : LnSt) : (s.setLane i v).nextId = s.nextId := rfl
@[simp] theorem State.setLane_eclk (i : Nat) (v : LnSt) : (s.setLane i v).eclk = s.eclk := rfl
@[simp] theorem State.setLane_regs (i : Nat) (v : LnSt) : (s.setLane i v).regs = s.regs := rfl
@[simp] theorem State.setLane_bar0 (i : Nat) (v : LnSt) : (s.setLane i v).bar0 = s.bar0 := rfl
@[simp] theorem State.setLane_mem (i : Nat) (v : LnSt) : (s.setLane i v).mem = s.mem := rfl
@[simp] theorem State.setLane_busOut (i : Nat) (v : LnSt) : (s.setLane i v).busOut = s.busOut := rfl
@[simp] theorem State.setLane_prog (i : Nat) (v : LnSt) : (s.setLane i v).prog = s.prog := rfl
@[simp] theorem State.setLane_progOn (i : Nat) (v : LnSt) : (s.setLane i v).progOn = s.progOn := rfl
@[simp] theorem State.setLane_engs (i : Nat) (v : LnSt) : (s.setLane i v).engs = s.engs := rfl
@[simp] theorem State.setLane_ths (i : Nat) (v : LnSt) : (s.setLane i v).ths = s.ths := rfl
@[simp] theorem State.setLane_chans (i : Nat) (v : LnSt) : (s.setLane i v).chans = s.chans := rfl
@[simp] theorem State.setLane_flights (i : Nat) (v : LnSt) : (s.setLane i v).flights = s.flights := rfl
@[simp] theorem State.setLane_culmStart (i : Nat) (v : LnSt) : (s.setLane i v).culmStart = s.culmStart := rfl
@[simp] theorem State.setLane_culmDone (i : Nat) (v : LnSt) : (s.setLane i v).culmDone = s.culmDone := rfl
@[simp] theorem State.setLane_tasks (i : Nat) (v : LnSt) : (s.setLane i v).tasks = s.tasks := rfl
@[simp] theorem State.setLane_evq (i : Nat) (v : LnSt) : (s.setLane i v).evq = s.evq := rfl
@[simp] theorem State.setLane_taskOps (i : Nat) (v : LnSt) : (s.setLane i v).taskOps = s.taskOps := rfl
@[simp] theorem State.setLane_opFree (i : Nat) (v : LnSt) : (s.setLane i v).opFree = s.opFree := rfl
@[simp] theorem State.setLane_pageOuts (i : Nat) (v : LnSt) : (s.setLane i v).pageOuts = s.pageOuts := rfl
@[simp] theorem State.setLane_roundStart (i : Nat) (v : LnSt) : (s.setLane i v).roundStart = s.roundStart := rfl
@[simp] theorem State.setLane_granted (i : Nat) (v : LnSt) : (s.setLane i v).granted = s.granted := rfl
@[simp] theorem State.setLane_schedAt (i : Nat) (v : LnSt) : (s.setLane i v).schedAt = s.schedAt := rfl
@[simp] theorem State.setLane_intake (i : Nat) (v : LnSt) : (s.setLane i v).intake = s.intake := rfl
@[simp] theorem State.setLane_ctxReads (i : Nat) (v : LnSt) : (s.setLane i v).ctxReads = s.ctxReads := rfl
@[simp] theorem State.setLane_ctxWrites (i : Nat) (v : LnSt) : (s.setLane i v).ctxWrites = s.ctxWrites := rfl
@[simp] theorem State.setLane_mtxq (i : Nat) (v : LnSt) : (s.setLane i v).mtxq = s.mtxq := rfl
@[simp] theorem State.setLane_xfers (i : Nat) (v : LnSt) : (s.setLane i v).xfers = s.xfers := rfl
@[simp] theorem State.setLane_mtxBusy (i : Nat) (v : LnSt) : (s.setLane i v).mtxBusy = s.mtxBusy := rfl
@[simp] theorem State.setLane_bus (i : Nat) (v : LnSt) : (s.setLane i v).bus = s.bus := rfl
@[simp] theorem State.setLane_banks (i : Nat) (v : LnSt) : (s.setLane i v).banks = s.banks := rfl
@[simp] theorem State.setLane_bankPois (i : Nat) (v : LnSt) : (s.setLane i v).bankPois = s.bankPois := rfl
@[simp] theorem State.setLane_dramq (i : Nat) (v : LnSt) : (s.setLane i v).dramq = s.dramq := rfl
@[simp] theorem State.setLane_poisoned (i : Nat) (v : LnSt) : (s.setLane i v).poisoned = s.poisoned := rfl
@[simp] theorem State.setLane_scrubbed (i : Nat) (v : LnSt) : (s.setLane i v).scrubbed = s.scrubbed := rfl
@[simp] theorem State.setLane_rowCe (i : Nat) (v : LnSt) : (s.setLane i v).rowCe = s.rowCe := rfl
@[simp] theorem State.setLane_pprq (i : Nat) (v : LnSt) : (s.setLane i v).pprq = s.pprq := rfl
@[simp] theorem State.setLane_glnPos (i : Nat) (v : LnSt) : (s.setLane i v).glnPos = s.glnPos := rfl
@[simp] theorem State.setLane_recPois (i : Nat) (v : LnSt) : (s.setLane i v).recPois = s.recPois := rfl
@[simp] theorem State.setLane_glnDue (i : Nat) (v : LnSt) : (s.setLane i v).glnDue = s.glnDue := rfl
@[simp] theorem State.setLane_grants (i : Nat) (v : LnSt) : (s.setLane i v).grants = s.grants := rfl
@[simp] theorem State.setLane_px (i : Nat) (v : LnSt) : (s.setLane i v).px = s.px := rfl
@[simp] theorem State.setLane_pg (i : Nat) (v : LnSt) : (s.setLane i v).pg = s.pg := rfl
@[simp] theorem State.setLane_tsets (i : Nat) (v : LnSt) : (s.setLane i v).tsets = s.tsets := rfl
@[simp] theorem State.setLane_pxprog (i : Nat) (v : LnSt) : (s.setLane i v).pxprog = s.pxprog := rfl
@[simp] theorem State.setLane_scr (i : Nat) (v : LnSt) : (s.setLane i v).scr = s.scr := rfl
@[simp] theorem State.setLane_startReq (i : Nat) (v : LnSt) : (s.setLane i v).startReq = s.startReq := rfl
@[simp] theorem State.setLane_thr (i : Nat) (v : LnSt) : (s.setLane i v).thr = s.thr := rfl
@[simp] theorem State.setLane_regions (i : Nat) (v : LnSt) : (s.setLane i v).regions = s.regions := rfl
@[simp] theorem State.setLane_rdesc (i : Nat) (v : LnSt) : (s.setLane i v).rdesc = s.rdesc := rfl
@[simp] theorem State.setLane_sites (i : Nat) (v : LnSt) : (s.setLane i v).sites = s.sites := rfl
@[simp] theorem State.setLane_repairQ (i : Nat) (v : LnSt) : (s.setLane i v).repairQ = s.repairQ := rfl
@[simp] theorem State.setLane_queues (i : Nat) (v : LnSt) : (s.setLane i v).queues = s.queues := rfl
@[simp] theorem State.setLane_inprog (i : Nat) (v : LnSt) : (s.setLane i v).inprog = s.inprog := rfl
@[simp] theorem State.setLane_lastQ (i : Nat) (v : LnSt) : (s.setLane i v).lastQ = s.lastQ := rfl
@[simp] theorem State.setLane_opsDone (i : Nat) (v : LnSt) : (s.setLane i v).opsDone = s.opsDone := rfl
@[simp] theorem State.setLane_hostMem (i : Nat) (v : LnSt) : (s.setLane i v).hostMem = s.hostMem := rfl
@[simp] theorem State.setLane_msixPend (i : Nat) (v : LnSt) : (s.setLane i v).msixPend = s.msixPend := rfl
@[simp] theorem State.setLane_msixSent (i : Nat) (v : LnSt) : (s.setLane i v).msixSent = s.msixSent := rfl
@[simp] theorem State.setLane_bar2 (i : Nat) (v : LnSt) : (s.setLane i v).bar2 = s.bar2 := rfl
@[simp] theorem State.setLane_cfgSpace (i : Nat) (v : LnSt) : (s.setLane i v).cfgSpace = s.cfgSpace := rfl
@[simp] theorem State.setLane_perst (i : Nat) (v : LnSt) : (s.setLane i v).perst = s.perst := rfl
@[simp] theorem State.setLane_stickyNote (i : Nat) (v : LnSt) : (s.setLane i v).stickyNote = s.stickyNote := rfl
@[simp] theorem State.setLane_faultNote (i : Nat) (v : LnSt) : (s.setLane i v).faultNote = s.faultNote := rfl
@[simp] theorem State.setLane_unreported (i : Nat) (v : LnSt) : (s.setLane i v).unreported = s.unreported := rfl
@[simp] theorem State.setLane_syncq (i : Nat) (v : LnSt) : (s.setLane i v).syncq = s.syncq := rfl
@[simp] theorem State.setLane_syncOut (i : Nat) (v : LnSt) : (s.setLane i v).syncOut = s.syncOut := rfl
@[simp] theorem State.setLane_startSeq (i : Nat) (v : LnSt) : (s.setLane i v).startSeq = s.startSeq := rfl
@[simp] theorem State.setLane_startSent (i : Nat) (v : LnSt) : (s.setLane i v).startSent = s.startSent := rfl
@[simp] theorem State.setLane_sleeping (i : Nat) (v : LnSt) : (s.setLane i v).sleeping = s.sleeping := rfl
@[simp] theorem State.setLane_tap (i : Nat) (v : LnSt) : (s.setLane i v).tap = s.tap := rfl
@[simp] theorem State.setLane_dma (i : Nat) (v : LnSt) : (s.setLane i v).dma = s.dma := rfl
@[simp] theorem State.setLane_dmaq (i : Nat) (v : LnSt) : (s.setLane i v).dmaq = s.dmaq := rfl
@[simp] theorem State.setLane_dmaLast (i : Nat) (v : LnSt) : (s.setLane i v).dmaLast = s.dmaLast := rfl
@[simp] theorem State.setLane_tmrStage (i : Nat) (v : LnSt) : (s.setLane i v).tmrStage = s.tmrStage := rfl
@[simp] theorem State.setLane_tmrRun (i : Nat) (v : LnSt) : (s.setLane i v).tmrRun = s.tmrRun := rfl
@[simp] theorem State.setLane_tmrActs (i : Nat) (v : LnSt) : (s.setLane i v).tmrActs = s.tmrActs := rfl
@[simp] theorem State.setLane_tmrDue (i : Nat) (v : LnSt) : (s.setLane i v).tmrDue = s.tmrDue := rfl
@[simp] theorem State.setLane_tmrEdge (i : Nat) (v : LnSt) : (s.setLane i v).tmrEdge = s.tmrEdge := rfl
@[simp] theorem State.setLane_tmrGate (i : Nat) (v : LnSt) : (s.setLane i v).tmrGate = s.tmrGate := rfl
@[simp] theorem State.setLane_tmrDiv (i : Nat) (v : LnSt) : (s.setLane i v).tmrDiv = s.tmrDiv := rfl
@[simp] theorem State.setLane_tmrSlow (i : Nat) (v : LnSt) : (s.setLane i v).tmrSlow = s.tmrSlow := rfl
@[simp] theorem State.setLane_adc (i : Nat) (v : LnSt) : (s.setLane i v).adc = s.adc := rfl
@[simp] theorem State.setLane_age (i : Nat) (v : LnSt) : (s.setLane i v).age = s.age := rfl
@[simp] theorem State.setLane_ageOver (i : Nat) (v : LnSt) : (s.setLane i v).ageOver = s.ageOver := rfl
@[simp] theorem State.setLane_avs (i : Nat) (v : LnSt) : (s.setLane i v).avs = s.avs := rfl
@[simp] theorem State.setLane_avsOut (i : Nat) (v : LnSt) : (s.setLane i v).avsOut = s.avsOut := rfl
@[simp] theorem State.setLane_nv (i : Nat) (v : LnSt) : (s.setLane i v).nv = s.nv := rfl
@[simp] theorem State.setLane_nvOld (i : Nat) (v : LnSt) : (s.setLane i v).nvOld = s.nvOld := rfl
@[simp] theorem State.setLane_flash (i : Nat) (v : LnSt) : (s.setLane i v).flash = s.flash := rfl
@[simp] theorem State.setLane_image (i : Nat) (v : LnSt) : (s.setLane i v).image = s.image := rfl
@[simp] theorem State.setLane_power (i : Nat) (v : LnSt) : (s.setLane i v).power = s.power := rfl
@[simp] theorem State.setLane_straps (i : Nat) (v : LnSt) : (s.setLane i v).straps = s.straps := rfl
@[simp] theorem State.setLane_histCopy (i : Nat) (v : LnSt) : (s.setLane i v).histCopy = s.histCopy := rfl
@[simp] theorem State.setLane_lifeTicks (i : Nat) (v : LnSt) : (s.setLane i v).lifeTicks = s.lifeTicks := rfl
@[simp] theorem State.setLane_sleepDue (i : Nat) (v : LnSt) : (s.setLane i v).sleepDue = s.sleepDue := rfl
@[simp] theorem State.setLane_engStop (i : Nat) (v : LnSt) : (s.setLane i v).engStop = s.engStop := rfl
@[simp] theorem State.setLane_safe (i : Nat) (v : LnSt) : (s.setLane i v).safe = s.safe := rfl
@[simp] theorem State.setLane_smbOut (i : Nat) (v : LnSt) : (s.setLane i v).smbOut = s.smbOut := rfl
@[simp] theorem State.setLane_late (i : Nat) (v : LnSt) : (s.setLane i v).late = s.late := rfl
@[simp] theorem State.setLane_wakeDue (i : Nat) (v : LnSt) : (s.setLane i v).wakeDue = s.wakeDue := rfl

@[simp] theorem State.setThr_pending (i : Nat) (v : ThrSt) : (s.setThr i v).pending = s.pending := rfl
@[simp] theorem State.setThr_fresh (i : Nat) (v : ThrSt) : (s.setThr i v).fresh = s.fresh := rfl
@[simp] theorem State.setThr_nextId (i : Nat) (v : ThrSt) : (s.setThr i v).nextId = s.nextId := rfl
@[simp] theorem State.setThr_eclk (i : Nat) (v : ThrSt) : (s.setThr i v).eclk = s.eclk := rfl
@[simp] theorem State.setThr_regs (i : Nat) (v : ThrSt) : (s.setThr i v).regs = s.regs := rfl
@[simp] theorem State.setThr_bar0 (i : Nat) (v : ThrSt) : (s.setThr i v).bar0 = s.bar0 := rfl
@[simp] theorem State.setThr_mem (i : Nat) (v : ThrSt) : (s.setThr i v).mem = s.mem := rfl
@[simp] theorem State.setThr_busOut (i : Nat) (v : ThrSt) : (s.setThr i v).busOut = s.busOut := rfl
@[simp] theorem State.setThr_prog (i : Nat) (v : ThrSt) : (s.setThr i v).prog = s.prog := rfl
@[simp] theorem State.setThr_progOn (i : Nat) (v : ThrSt) : (s.setThr i v).progOn = s.progOn := rfl
@[simp] theorem State.setThr_engs (i : Nat) (v : ThrSt) : (s.setThr i v).engs = s.engs := rfl
@[simp] theorem State.setThr_ths (i : Nat) (v : ThrSt) : (s.setThr i v).ths = s.ths := rfl
@[simp] theorem State.setThr_chans (i : Nat) (v : ThrSt) : (s.setThr i v).chans = s.chans := rfl
@[simp] theorem State.setThr_flights (i : Nat) (v : ThrSt) : (s.setThr i v).flights = s.flights := rfl
@[simp] theorem State.setThr_culmStart (i : Nat) (v : ThrSt) : (s.setThr i v).culmStart = s.culmStart := rfl
@[simp] theorem State.setThr_culmDone (i : Nat) (v : ThrSt) : (s.setThr i v).culmDone = s.culmDone := rfl
@[simp] theorem State.setThr_tasks (i : Nat) (v : ThrSt) : (s.setThr i v).tasks = s.tasks := rfl
@[simp] theorem State.setThr_evq (i : Nat) (v : ThrSt) : (s.setThr i v).evq = s.evq := rfl
@[simp] theorem State.setThr_taskOps (i : Nat) (v : ThrSt) : (s.setThr i v).taskOps = s.taskOps := rfl
@[simp] theorem State.setThr_opFree (i : Nat) (v : ThrSt) : (s.setThr i v).opFree = s.opFree := rfl
@[simp] theorem State.setThr_pageOuts (i : Nat) (v : ThrSt) : (s.setThr i v).pageOuts = s.pageOuts := rfl
@[simp] theorem State.setThr_roundStart (i : Nat) (v : ThrSt) : (s.setThr i v).roundStart = s.roundStart := rfl
@[simp] theorem State.setThr_granted (i : Nat) (v : ThrSt) : (s.setThr i v).granted = s.granted := rfl
@[simp] theorem State.setThr_schedAt (i : Nat) (v : ThrSt) : (s.setThr i v).schedAt = s.schedAt := rfl
@[simp] theorem State.setThr_intake (i : Nat) (v : ThrSt) : (s.setThr i v).intake = s.intake := rfl
@[simp] theorem State.setThr_ctxReads (i : Nat) (v : ThrSt) : (s.setThr i v).ctxReads = s.ctxReads := rfl
@[simp] theorem State.setThr_ctxWrites (i : Nat) (v : ThrSt) : (s.setThr i v).ctxWrites = s.ctxWrites := rfl
@[simp] theorem State.setThr_mtxq (i : Nat) (v : ThrSt) : (s.setThr i v).mtxq = s.mtxq := rfl
@[simp] theorem State.setThr_xfers (i : Nat) (v : ThrSt) : (s.setThr i v).xfers = s.xfers := rfl
@[simp] theorem State.setThr_mtxBusy (i : Nat) (v : ThrSt) : (s.setThr i v).mtxBusy = s.mtxBusy := rfl
@[simp] theorem State.setThr_bus (i : Nat) (v : ThrSt) : (s.setThr i v).bus = s.bus := rfl
@[simp] theorem State.setThr_banks (i : Nat) (v : ThrSt) : (s.setThr i v).banks = s.banks := rfl
@[simp] theorem State.setThr_bankPois (i : Nat) (v : ThrSt) : (s.setThr i v).bankPois = s.bankPois := rfl
@[simp] theorem State.setThr_dramq (i : Nat) (v : ThrSt) : (s.setThr i v).dramq = s.dramq := rfl
@[simp] theorem State.setThr_poisoned (i : Nat) (v : ThrSt) : (s.setThr i v).poisoned = s.poisoned := rfl
@[simp] theorem State.setThr_scrubbed (i : Nat) (v : ThrSt) : (s.setThr i v).scrubbed = s.scrubbed := rfl
@[simp] theorem State.setThr_rowCe (i : Nat) (v : ThrSt) : (s.setThr i v).rowCe = s.rowCe := rfl
@[simp] theorem State.setThr_pprq (i : Nat) (v : ThrSt) : (s.setThr i v).pprq = s.pprq := rfl
@[simp] theorem State.setThr_glnPos (i : Nat) (v : ThrSt) : (s.setThr i v).glnPos = s.glnPos := rfl
@[simp] theorem State.setThr_recPois (i : Nat) (v : ThrSt) : (s.setThr i v).recPois = s.recPois := rfl
@[simp] theorem State.setThr_glnDue (i : Nat) (v : ThrSt) : (s.setThr i v).glnDue = s.glnDue := rfl
@[simp] theorem State.setThr_grants (i : Nat) (v : ThrSt) : (s.setThr i v).grants = s.grants := rfl
@[simp] theorem State.setThr_px (i : Nat) (v : ThrSt) : (s.setThr i v).px = s.px := rfl
@[simp] theorem State.setThr_pg (i : Nat) (v : ThrSt) : (s.setThr i v).pg = s.pg := rfl
@[simp] theorem State.setThr_lanes (i : Nat) (v : ThrSt) : (s.setThr i v).lanes = s.lanes := rfl
@[simp] theorem State.setThr_tsets (i : Nat) (v : ThrSt) : (s.setThr i v).tsets = s.tsets := rfl
@[simp] theorem State.setThr_pxprog (i : Nat) (v : ThrSt) : (s.setThr i v).pxprog = s.pxprog := rfl
@[simp] theorem State.setThr_scr (i : Nat) (v : ThrSt) : (s.setThr i v).scr = s.scr := rfl
@[simp] theorem State.setThr_startReq (i : Nat) (v : ThrSt) : (s.setThr i v).startReq = s.startReq := rfl
@[simp] theorem State.setThr_regions (i : Nat) (v : ThrSt) : (s.setThr i v).regions = s.regions := rfl
@[simp] theorem State.setThr_rdesc (i : Nat) (v : ThrSt) : (s.setThr i v).rdesc = s.rdesc := rfl
@[simp] theorem State.setThr_sites (i : Nat) (v : ThrSt) : (s.setThr i v).sites = s.sites := rfl
@[simp] theorem State.setThr_repairQ (i : Nat) (v : ThrSt) : (s.setThr i v).repairQ = s.repairQ := rfl
@[simp] theorem State.setThr_queues (i : Nat) (v : ThrSt) : (s.setThr i v).queues = s.queues := rfl
@[simp] theorem State.setThr_inprog (i : Nat) (v : ThrSt) : (s.setThr i v).inprog = s.inprog := rfl
@[simp] theorem State.setThr_lastQ (i : Nat) (v : ThrSt) : (s.setThr i v).lastQ = s.lastQ := rfl
@[simp] theorem State.setThr_opsDone (i : Nat) (v : ThrSt) : (s.setThr i v).opsDone = s.opsDone := rfl
@[simp] theorem State.setThr_hostMem (i : Nat) (v : ThrSt) : (s.setThr i v).hostMem = s.hostMem := rfl
@[simp] theorem State.setThr_msixPend (i : Nat) (v : ThrSt) : (s.setThr i v).msixPend = s.msixPend := rfl
@[simp] theorem State.setThr_msixSent (i : Nat) (v : ThrSt) : (s.setThr i v).msixSent = s.msixSent := rfl
@[simp] theorem State.setThr_bar2 (i : Nat) (v : ThrSt) : (s.setThr i v).bar2 = s.bar2 := rfl
@[simp] theorem State.setThr_cfgSpace (i : Nat) (v : ThrSt) : (s.setThr i v).cfgSpace = s.cfgSpace := rfl
@[simp] theorem State.setThr_perst (i : Nat) (v : ThrSt) : (s.setThr i v).perst = s.perst := rfl
@[simp] theorem State.setThr_stickyNote (i : Nat) (v : ThrSt) : (s.setThr i v).stickyNote = s.stickyNote := rfl
@[simp] theorem State.setThr_faultNote (i : Nat) (v : ThrSt) : (s.setThr i v).faultNote = s.faultNote := rfl
@[simp] theorem State.setThr_unreported (i : Nat) (v : ThrSt) : (s.setThr i v).unreported = s.unreported := rfl
@[simp] theorem State.setThr_syncq (i : Nat) (v : ThrSt) : (s.setThr i v).syncq = s.syncq := rfl
@[simp] theorem State.setThr_syncOut (i : Nat) (v : ThrSt) : (s.setThr i v).syncOut = s.syncOut := rfl
@[simp] theorem State.setThr_startSeq (i : Nat) (v : ThrSt) : (s.setThr i v).startSeq = s.startSeq := rfl
@[simp] theorem State.setThr_startSent (i : Nat) (v : ThrSt) : (s.setThr i v).startSent = s.startSent := rfl
@[simp] theorem State.setThr_sleeping (i : Nat) (v : ThrSt) : (s.setThr i v).sleeping = s.sleeping := rfl
@[simp] theorem State.setThr_tap (i : Nat) (v : ThrSt) : (s.setThr i v).tap = s.tap := rfl
@[simp] theorem State.setThr_dma (i : Nat) (v : ThrSt) : (s.setThr i v).dma = s.dma := rfl
@[simp] theorem State.setThr_dmaq (i : Nat) (v : ThrSt) : (s.setThr i v).dmaq = s.dmaq := rfl
@[simp] theorem State.setThr_dmaLast (i : Nat) (v : ThrSt) : (s.setThr i v).dmaLast = s.dmaLast := rfl
@[simp] theorem State.setThr_tmrStage (i : Nat) (v : ThrSt) : (s.setThr i v).tmrStage = s.tmrStage := rfl
@[simp] theorem State.setThr_tmrRun (i : Nat) (v : ThrSt) : (s.setThr i v).tmrRun = s.tmrRun := rfl
@[simp] theorem State.setThr_tmrActs (i : Nat) (v : ThrSt) : (s.setThr i v).tmrActs = s.tmrActs := rfl
@[simp] theorem State.setThr_tmrDue (i : Nat) (v : ThrSt) : (s.setThr i v).tmrDue = s.tmrDue := rfl
@[simp] theorem State.setThr_tmrEdge (i : Nat) (v : ThrSt) : (s.setThr i v).tmrEdge = s.tmrEdge := rfl
@[simp] theorem State.setThr_tmrGate (i : Nat) (v : ThrSt) : (s.setThr i v).tmrGate = s.tmrGate := rfl
@[simp] theorem State.setThr_tmrDiv (i : Nat) (v : ThrSt) : (s.setThr i v).tmrDiv = s.tmrDiv := rfl
@[simp] theorem State.setThr_tmrSlow (i : Nat) (v : ThrSt) : (s.setThr i v).tmrSlow = s.tmrSlow := rfl
@[simp] theorem State.setThr_adc (i : Nat) (v : ThrSt) : (s.setThr i v).adc = s.adc := rfl
@[simp] theorem State.setThr_age (i : Nat) (v : ThrSt) : (s.setThr i v).age = s.age := rfl
@[simp] theorem State.setThr_ageOver (i : Nat) (v : ThrSt) : (s.setThr i v).ageOver = s.ageOver := rfl
@[simp] theorem State.setThr_avs (i : Nat) (v : ThrSt) : (s.setThr i v).avs = s.avs := rfl
@[simp] theorem State.setThr_avsOut (i : Nat) (v : ThrSt) : (s.setThr i v).avsOut = s.avsOut := rfl
@[simp] theorem State.setThr_nv (i : Nat) (v : ThrSt) : (s.setThr i v).nv = s.nv := rfl
@[simp] theorem State.setThr_nvOld (i : Nat) (v : ThrSt) : (s.setThr i v).nvOld = s.nvOld := rfl
@[simp] theorem State.setThr_flash (i : Nat) (v : ThrSt) : (s.setThr i v).flash = s.flash := rfl
@[simp] theorem State.setThr_image (i : Nat) (v : ThrSt) : (s.setThr i v).image = s.image := rfl
@[simp] theorem State.setThr_power (i : Nat) (v : ThrSt) : (s.setThr i v).power = s.power := rfl
@[simp] theorem State.setThr_straps (i : Nat) (v : ThrSt) : (s.setThr i v).straps = s.straps := rfl
@[simp] theorem State.setThr_histCopy (i : Nat) (v : ThrSt) : (s.setThr i v).histCopy = s.histCopy := rfl
@[simp] theorem State.setThr_lifeTicks (i : Nat) (v : ThrSt) : (s.setThr i v).lifeTicks = s.lifeTicks := rfl
@[simp] theorem State.setThr_sleepDue (i : Nat) (v : ThrSt) : (s.setThr i v).sleepDue = s.sleepDue := rfl
@[simp] theorem State.setThr_engStop (i : Nat) (v : ThrSt) : (s.setThr i v).engStop = s.engStop := rfl
@[simp] theorem State.setThr_safe (i : Nat) (v : ThrSt) : (s.setThr i v).safe = s.safe := rfl
@[simp] theorem State.setThr_smbOut (i : Nat) (v : ThrSt) : (s.setThr i v).smbOut = s.smbOut := rfl
@[simp] theorem State.setThr_late (i : Nat) (v : ThrSt) : (s.setThr i v).late = s.late := rfl
@[simp] theorem State.setThr_wakeDue (i : Nat) (v : ThrSt) : (s.setThr i v).wakeDue = s.wakeDue := rfl

@[simp] theorem State.setRegion_pending (i : Nat) (v : Region_) : (s.setRegion i v).pending = s.pending := rfl
@[simp] theorem State.setRegion_fresh (i : Nat) (v : Region_) : (s.setRegion i v).fresh = s.fresh := rfl
@[simp] theorem State.setRegion_nextId (i : Nat) (v : Region_) : (s.setRegion i v).nextId = s.nextId := rfl
@[simp] theorem State.setRegion_eclk (i : Nat) (v : Region_) : (s.setRegion i v).eclk = s.eclk := rfl
@[simp] theorem State.setRegion_regs (i : Nat) (v : Region_) : (s.setRegion i v).regs = s.regs := rfl
@[simp] theorem State.setRegion_bar0 (i : Nat) (v : Region_) : (s.setRegion i v).bar0 = s.bar0 := rfl
@[simp] theorem State.setRegion_mem (i : Nat) (v : Region_) : (s.setRegion i v).mem = s.mem := rfl
@[simp] theorem State.setRegion_busOut (i : Nat) (v : Region_) : (s.setRegion i v).busOut = s.busOut := rfl
@[simp] theorem State.setRegion_prog (i : Nat) (v : Region_) : (s.setRegion i v).prog = s.prog := rfl
@[simp] theorem State.setRegion_progOn (i : Nat) (v : Region_) : (s.setRegion i v).progOn = s.progOn := rfl
@[simp] theorem State.setRegion_engs (i : Nat) (v : Region_) : (s.setRegion i v).engs = s.engs := rfl
@[simp] theorem State.setRegion_ths (i : Nat) (v : Region_) : (s.setRegion i v).ths = s.ths := rfl
@[simp] theorem State.setRegion_chans (i : Nat) (v : Region_) : (s.setRegion i v).chans = s.chans := rfl
@[simp] theorem State.setRegion_flights (i : Nat) (v : Region_) : (s.setRegion i v).flights = s.flights := rfl
@[simp] theorem State.setRegion_culmStart (i : Nat) (v : Region_) : (s.setRegion i v).culmStart = s.culmStart := rfl
@[simp] theorem State.setRegion_culmDone (i : Nat) (v : Region_) : (s.setRegion i v).culmDone = s.culmDone := rfl
@[simp] theorem State.setRegion_tasks (i : Nat) (v : Region_) : (s.setRegion i v).tasks = s.tasks := rfl
@[simp] theorem State.setRegion_evq (i : Nat) (v : Region_) : (s.setRegion i v).evq = s.evq := rfl
@[simp] theorem State.setRegion_taskOps (i : Nat) (v : Region_) : (s.setRegion i v).taskOps = s.taskOps := rfl
@[simp] theorem State.setRegion_opFree (i : Nat) (v : Region_) : (s.setRegion i v).opFree = s.opFree := rfl
@[simp] theorem State.setRegion_pageOuts (i : Nat) (v : Region_) : (s.setRegion i v).pageOuts = s.pageOuts := rfl
@[simp] theorem State.setRegion_roundStart (i : Nat) (v : Region_) : (s.setRegion i v).roundStart = s.roundStart := rfl
@[simp] theorem State.setRegion_granted (i : Nat) (v : Region_) : (s.setRegion i v).granted = s.granted := rfl
@[simp] theorem State.setRegion_schedAt (i : Nat) (v : Region_) : (s.setRegion i v).schedAt = s.schedAt := rfl
@[simp] theorem State.setRegion_intake (i : Nat) (v : Region_) : (s.setRegion i v).intake = s.intake := rfl
@[simp] theorem State.setRegion_ctxReads (i : Nat) (v : Region_) : (s.setRegion i v).ctxReads = s.ctxReads := rfl
@[simp] theorem State.setRegion_ctxWrites (i : Nat) (v : Region_) : (s.setRegion i v).ctxWrites = s.ctxWrites := rfl
@[simp] theorem State.setRegion_mtxq (i : Nat) (v : Region_) : (s.setRegion i v).mtxq = s.mtxq := rfl
@[simp] theorem State.setRegion_xfers (i : Nat) (v : Region_) : (s.setRegion i v).xfers = s.xfers := rfl
@[simp] theorem State.setRegion_mtxBusy (i : Nat) (v : Region_) : (s.setRegion i v).mtxBusy = s.mtxBusy := rfl
@[simp] theorem State.setRegion_bus (i : Nat) (v : Region_) : (s.setRegion i v).bus = s.bus := rfl
@[simp] theorem State.setRegion_banks (i : Nat) (v : Region_) : (s.setRegion i v).banks = s.banks := rfl
@[simp] theorem State.setRegion_bankPois (i : Nat) (v : Region_) : (s.setRegion i v).bankPois = s.bankPois := rfl
@[simp] theorem State.setRegion_dramq (i : Nat) (v : Region_) : (s.setRegion i v).dramq = s.dramq := rfl
@[simp] theorem State.setRegion_poisoned (i : Nat) (v : Region_) : (s.setRegion i v).poisoned = s.poisoned := rfl
@[simp] theorem State.setRegion_scrubbed (i : Nat) (v : Region_) : (s.setRegion i v).scrubbed = s.scrubbed := rfl
@[simp] theorem State.setRegion_rowCe (i : Nat) (v : Region_) : (s.setRegion i v).rowCe = s.rowCe := rfl
@[simp] theorem State.setRegion_pprq (i : Nat) (v : Region_) : (s.setRegion i v).pprq = s.pprq := rfl
@[simp] theorem State.setRegion_glnPos (i : Nat) (v : Region_) : (s.setRegion i v).glnPos = s.glnPos := rfl
@[simp] theorem State.setRegion_recPois (i : Nat) (v : Region_) : (s.setRegion i v).recPois = s.recPois := rfl
@[simp] theorem State.setRegion_glnDue (i : Nat) (v : Region_) : (s.setRegion i v).glnDue = s.glnDue := rfl
@[simp] theorem State.setRegion_grants (i : Nat) (v : Region_) : (s.setRegion i v).grants = s.grants := rfl
@[simp] theorem State.setRegion_px (i : Nat) (v : Region_) : (s.setRegion i v).px = s.px := rfl
@[simp] theorem State.setRegion_pg (i : Nat) (v : Region_) : (s.setRegion i v).pg = s.pg := rfl
@[simp] theorem State.setRegion_lanes (i : Nat) (v : Region_) : (s.setRegion i v).lanes = s.lanes := rfl
@[simp] theorem State.setRegion_tsets (i : Nat) (v : Region_) : (s.setRegion i v).tsets = s.tsets := rfl
@[simp] theorem State.setRegion_pxprog (i : Nat) (v : Region_) : (s.setRegion i v).pxprog = s.pxprog := rfl
@[simp] theorem State.setRegion_scr (i : Nat) (v : Region_) : (s.setRegion i v).scr = s.scr := rfl
@[simp] theorem State.setRegion_startReq (i : Nat) (v : Region_) : (s.setRegion i v).startReq = s.startReq := rfl
@[simp] theorem State.setRegion_thr (i : Nat) (v : Region_) : (s.setRegion i v).thr = s.thr := rfl
@[simp] theorem State.setRegion_rdesc (i : Nat) (v : Region_) : (s.setRegion i v).rdesc = s.rdesc := rfl
@[simp] theorem State.setRegion_sites (i : Nat) (v : Region_) : (s.setRegion i v).sites = s.sites := rfl
@[simp] theorem State.setRegion_repairQ (i : Nat) (v : Region_) : (s.setRegion i v).repairQ = s.repairQ := rfl
@[simp] theorem State.setRegion_queues (i : Nat) (v : Region_) : (s.setRegion i v).queues = s.queues := rfl
@[simp] theorem State.setRegion_inprog (i : Nat) (v : Region_) : (s.setRegion i v).inprog = s.inprog := rfl
@[simp] theorem State.setRegion_lastQ (i : Nat) (v : Region_) : (s.setRegion i v).lastQ = s.lastQ := rfl
@[simp] theorem State.setRegion_opsDone (i : Nat) (v : Region_) : (s.setRegion i v).opsDone = s.opsDone := rfl
@[simp] theorem State.setRegion_hostMem (i : Nat) (v : Region_) : (s.setRegion i v).hostMem = s.hostMem := rfl
@[simp] theorem State.setRegion_msixPend (i : Nat) (v : Region_) : (s.setRegion i v).msixPend = s.msixPend := rfl
@[simp] theorem State.setRegion_msixSent (i : Nat) (v : Region_) : (s.setRegion i v).msixSent = s.msixSent := rfl
@[simp] theorem State.setRegion_bar2 (i : Nat) (v : Region_) : (s.setRegion i v).bar2 = s.bar2 := rfl
@[simp] theorem State.setRegion_cfgSpace (i : Nat) (v : Region_) : (s.setRegion i v).cfgSpace = s.cfgSpace := rfl
@[simp] theorem State.setRegion_perst (i : Nat) (v : Region_) : (s.setRegion i v).perst = s.perst := rfl
@[simp] theorem State.setRegion_stickyNote (i : Nat) (v : Region_) : (s.setRegion i v).stickyNote = s.stickyNote := rfl
@[simp] theorem State.setRegion_faultNote (i : Nat) (v : Region_) : (s.setRegion i v).faultNote = s.faultNote := rfl
@[simp] theorem State.setRegion_unreported (i : Nat) (v : Region_) : (s.setRegion i v).unreported = s.unreported := rfl
@[simp] theorem State.setRegion_syncq (i : Nat) (v : Region_) : (s.setRegion i v).syncq = s.syncq := rfl
@[simp] theorem State.setRegion_syncOut (i : Nat) (v : Region_) : (s.setRegion i v).syncOut = s.syncOut := rfl
@[simp] theorem State.setRegion_startSeq (i : Nat) (v : Region_) : (s.setRegion i v).startSeq = s.startSeq := rfl
@[simp] theorem State.setRegion_startSent (i : Nat) (v : Region_) : (s.setRegion i v).startSent = s.startSent := rfl
@[simp] theorem State.setRegion_sleeping (i : Nat) (v : Region_) : (s.setRegion i v).sleeping = s.sleeping := rfl
@[simp] theorem State.setRegion_tap (i : Nat) (v : Region_) : (s.setRegion i v).tap = s.tap := rfl
@[simp] theorem State.setRegion_dma (i : Nat) (v : Region_) : (s.setRegion i v).dma = s.dma := rfl
@[simp] theorem State.setRegion_dmaq (i : Nat) (v : Region_) : (s.setRegion i v).dmaq = s.dmaq := rfl
@[simp] theorem State.setRegion_dmaLast (i : Nat) (v : Region_) : (s.setRegion i v).dmaLast = s.dmaLast := rfl
@[simp] theorem State.setRegion_tmrStage (i : Nat) (v : Region_) : (s.setRegion i v).tmrStage = s.tmrStage := rfl
@[simp] theorem State.setRegion_tmrRun (i : Nat) (v : Region_) : (s.setRegion i v).tmrRun = s.tmrRun := rfl
@[simp] theorem State.setRegion_tmrActs (i : Nat) (v : Region_) : (s.setRegion i v).tmrActs = s.tmrActs := rfl
@[simp] theorem State.setRegion_tmrDue (i : Nat) (v : Region_) : (s.setRegion i v).tmrDue = s.tmrDue := rfl
@[simp] theorem State.setRegion_tmrEdge (i : Nat) (v : Region_) : (s.setRegion i v).tmrEdge = s.tmrEdge := rfl
@[simp] theorem State.setRegion_tmrGate (i : Nat) (v : Region_) : (s.setRegion i v).tmrGate = s.tmrGate := rfl
@[simp] theorem State.setRegion_tmrDiv (i : Nat) (v : Region_) : (s.setRegion i v).tmrDiv = s.tmrDiv := rfl
@[simp] theorem State.setRegion_tmrSlow (i : Nat) (v : Region_) : (s.setRegion i v).tmrSlow = s.tmrSlow := rfl
@[simp] theorem State.setRegion_adc (i : Nat) (v : Region_) : (s.setRegion i v).adc = s.adc := rfl
@[simp] theorem State.setRegion_age (i : Nat) (v : Region_) : (s.setRegion i v).age = s.age := rfl
@[simp] theorem State.setRegion_ageOver (i : Nat) (v : Region_) : (s.setRegion i v).ageOver = s.ageOver := rfl
@[simp] theorem State.setRegion_avs (i : Nat) (v : Region_) : (s.setRegion i v).avs = s.avs := rfl
@[simp] theorem State.setRegion_avsOut (i : Nat) (v : Region_) : (s.setRegion i v).avsOut = s.avsOut := rfl
@[simp] theorem State.setRegion_nv (i : Nat) (v : Region_) : (s.setRegion i v).nv = s.nv := rfl
@[simp] theorem State.setRegion_nvOld (i : Nat) (v : Region_) : (s.setRegion i v).nvOld = s.nvOld := rfl
@[simp] theorem State.setRegion_flash (i : Nat) (v : Region_) : (s.setRegion i v).flash = s.flash := rfl
@[simp] theorem State.setRegion_image (i : Nat) (v : Region_) : (s.setRegion i v).image = s.image := rfl
@[simp] theorem State.setRegion_power (i : Nat) (v : Region_) : (s.setRegion i v).power = s.power := rfl
@[simp] theorem State.setRegion_straps (i : Nat) (v : Region_) : (s.setRegion i v).straps = s.straps := rfl
@[simp] theorem State.setRegion_histCopy (i : Nat) (v : Region_) : (s.setRegion i v).histCopy = s.histCopy := rfl
@[simp] theorem State.setRegion_lifeTicks (i : Nat) (v : Region_) : (s.setRegion i v).lifeTicks = s.lifeTicks := rfl
@[simp] theorem State.setRegion_sleepDue (i : Nat) (v : Region_) : (s.setRegion i v).sleepDue = s.sleepDue := rfl
@[simp] theorem State.setRegion_engStop (i : Nat) (v : Region_) : (s.setRegion i v).engStop = s.engStop := rfl
@[simp] theorem State.setRegion_safe (i : Nat) (v : Region_) : (s.setRegion i v).safe = s.safe := rfl
@[simp] theorem State.setRegion_smbOut (i : Nat) (v : Region_) : (s.setRegion i v).smbOut = s.smbOut := rfl
@[simp] theorem State.setRegion_late (i : Nat) (v : Region_) : (s.setRegion i v).late = s.late := rfl
@[simp] theorem State.setRegion_wakeDue (i : Nat) (v : Region_) : (s.setRegion i v).wakeDue = s.wakeDue := rfl

@[simp] theorem State.setSite_pending (i : Nat) (v : SiteSt) : (s.setSite i v).pending = s.pending := rfl
@[simp] theorem State.setSite_fresh (i : Nat) (v : SiteSt) : (s.setSite i v).fresh = s.fresh := rfl
@[simp] theorem State.setSite_nextId (i : Nat) (v : SiteSt) : (s.setSite i v).nextId = s.nextId := rfl
@[simp] theorem State.setSite_eclk (i : Nat) (v : SiteSt) : (s.setSite i v).eclk = s.eclk := rfl
@[simp] theorem State.setSite_regs (i : Nat) (v : SiteSt) : (s.setSite i v).regs = s.regs := rfl
@[simp] theorem State.setSite_bar0 (i : Nat) (v : SiteSt) : (s.setSite i v).bar0 = s.bar0 := rfl
@[simp] theorem State.setSite_mem (i : Nat) (v : SiteSt) : (s.setSite i v).mem = s.mem := rfl
@[simp] theorem State.setSite_busOut (i : Nat) (v : SiteSt) : (s.setSite i v).busOut = s.busOut := rfl
@[simp] theorem State.setSite_prog (i : Nat) (v : SiteSt) : (s.setSite i v).prog = s.prog := rfl
@[simp] theorem State.setSite_progOn (i : Nat) (v : SiteSt) : (s.setSite i v).progOn = s.progOn := rfl
@[simp] theorem State.setSite_engs (i : Nat) (v : SiteSt) : (s.setSite i v).engs = s.engs := rfl
@[simp] theorem State.setSite_ths (i : Nat) (v : SiteSt) : (s.setSite i v).ths = s.ths := rfl
@[simp] theorem State.setSite_chans (i : Nat) (v : SiteSt) : (s.setSite i v).chans = s.chans := rfl
@[simp] theorem State.setSite_flights (i : Nat) (v : SiteSt) : (s.setSite i v).flights = s.flights := rfl
@[simp] theorem State.setSite_culmStart (i : Nat) (v : SiteSt) : (s.setSite i v).culmStart = s.culmStart := rfl
@[simp] theorem State.setSite_culmDone (i : Nat) (v : SiteSt) : (s.setSite i v).culmDone = s.culmDone := rfl
@[simp] theorem State.setSite_tasks (i : Nat) (v : SiteSt) : (s.setSite i v).tasks = s.tasks := rfl
@[simp] theorem State.setSite_evq (i : Nat) (v : SiteSt) : (s.setSite i v).evq = s.evq := rfl
@[simp] theorem State.setSite_taskOps (i : Nat) (v : SiteSt) : (s.setSite i v).taskOps = s.taskOps := rfl
@[simp] theorem State.setSite_opFree (i : Nat) (v : SiteSt) : (s.setSite i v).opFree = s.opFree := rfl
@[simp] theorem State.setSite_pageOuts (i : Nat) (v : SiteSt) : (s.setSite i v).pageOuts = s.pageOuts := rfl
@[simp] theorem State.setSite_roundStart (i : Nat) (v : SiteSt) : (s.setSite i v).roundStart = s.roundStart := rfl
@[simp] theorem State.setSite_granted (i : Nat) (v : SiteSt) : (s.setSite i v).granted = s.granted := rfl
@[simp] theorem State.setSite_schedAt (i : Nat) (v : SiteSt) : (s.setSite i v).schedAt = s.schedAt := rfl
@[simp] theorem State.setSite_intake (i : Nat) (v : SiteSt) : (s.setSite i v).intake = s.intake := rfl
@[simp] theorem State.setSite_ctxReads (i : Nat) (v : SiteSt) : (s.setSite i v).ctxReads = s.ctxReads := rfl
@[simp] theorem State.setSite_ctxWrites (i : Nat) (v : SiteSt) : (s.setSite i v).ctxWrites = s.ctxWrites := rfl
@[simp] theorem State.setSite_mtxq (i : Nat) (v : SiteSt) : (s.setSite i v).mtxq = s.mtxq := rfl
@[simp] theorem State.setSite_xfers (i : Nat) (v : SiteSt) : (s.setSite i v).xfers = s.xfers := rfl
@[simp] theorem State.setSite_mtxBusy (i : Nat) (v : SiteSt) : (s.setSite i v).mtxBusy = s.mtxBusy := rfl
@[simp] theorem State.setSite_bus (i : Nat) (v : SiteSt) : (s.setSite i v).bus = s.bus := rfl
@[simp] theorem State.setSite_banks (i : Nat) (v : SiteSt) : (s.setSite i v).banks = s.banks := rfl
@[simp] theorem State.setSite_bankPois (i : Nat) (v : SiteSt) : (s.setSite i v).bankPois = s.bankPois := rfl
@[simp] theorem State.setSite_dramq (i : Nat) (v : SiteSt) : (s.setSite i v).dramq = s.dramq := rfl
@[simp] theorem State.setSite_poisoned (i : Nat) (v : SiteSt) : (s.setSite i v).poisoned = s.poisoned := rfl
@[simp] theorem State.setSite_scrubbed (i : Nat) (v : SiteSt) : (s.setSite i v).scrubbed = s.scrubbed := rfl
@[simp] theorem State.setSite_rowCe (i : Nat) (v : SiteSt) : (s.setSite i v).rowCe = s.rowCe := rfl
@[simp] theorem State.setSite_pprq (i : Nat) (v : SiteSt) : (s.setSite i v).pprq = s.pprq := rfl
@[simp] theorem State.setSite_glnPos (i : Nat) (v : SiteSt) : (s.setSite i v).glnPos = s.glnPos := rfl
@[simp] theorem State.setSite_recPois (i : Nat) (v : SiteSt) : (s.setSite i v).recPois = s.recPois := rfl
@[simp] theorem State.setSite_glnDue (i : Nat) (v : SiteSt) : (s.setSite i v).glnDue = s.glnDue := rfl
@[simp] theorem State.setSite_grants (i : Nat) (v : SiteSt) : (s.setSite i v).grants = s.grants := rfl
@[simp] theorem State.setSite_px (i : Nat) (v : SiteSt) : (s.setSite i v).px = s.px := rfl
@[simp] theorem State.setSite_pg (i : Nat) (v : SiteSt) : (s.setSite i v).pg = s.pg := rfl
@[simp] theorem State.setSite_lanes (i : Nat) (v : SiteSt) : (s.setSite i v).lanes = s.lanes := rfl
@[simp] theorem State.setSite_tsets (i : Nat) (v : SiteSt) : (s.setSite i v).tsets = s.tsets := rfl
@[simp] theorem State.setSite_pxprog (i : Nat) (v : SiteSt) : (s.setSite i v).pxprog = s.pxprog := rfl
@[simp] theorem State.setSite_scr (i : Nat) (v : SiteSt) : (s.setSite i v).scr = s.scr := rfl
@[simp] theorem State.setSite_startReq (i : Nat) (v : SiteSt) : (s.setSite i v).startReq = s.startReq := rfl
@[simp] theorem State.setSite_thr (i : Nat) (v : SiteSt) : (s.setSite i v).thr = s.thr := rfl
@[simp] theorem State.setSite_regions (i : Nat) (v : SiteSt) : (s.setSite i v).regions = s.regions := rfl
@[simp] theorem State.setSite_rdesc (i : Nat) (v : SiteSt) : (s.setSite i v).rdesc = s.rdesc := rfl
@[simp] theorem State.setSite_repairQ (i : Nat) (v : SiteSt) : (s.setSite i v).repairQ = s.repairQ := rfl
@[simp] theorem State.setSite_queues (i : Nat) (v : SiteSt) : (s.setSite i v).queues = s.queues := rfl
@[simp] theorem State.setSite_inprog (i : Nat) (v : SiteSt) : (s.setSite i v).inprog = s.inprog := rfl
@[simp] theorem State.setSite_lastQ (i : Nat) (v : SiteSt) : (s.setSite i v).lastQ = s.lastQ := rfl
@[simp] theorem State.setSite_opsDone (i : Nat) (v : SiteSt) : (s.setSite i v).opsDone = s.opsDone := rfl
@[simp] theorem State.setSite_hostMem (i : Nat) (v : SiteSt) : (s.setSite i v).hostMem = s.hostMem := rfl
@[simp] theorem State.setSite_msixPend (i : Nat) (v : SiteSt) : (s.setSite i v).msixPend = s.msixPend := rfl
@[simp] theorem State.setSite_msixSent (i : Nat) (v : SiteSt) : (s.setSite i v).msixSent = s.msixSent := rfl
@[simp] theorem State.setSite_bar2 (i : Nat) (v : SiteSt) : (s.setSite i v).bar2 = s.bar2 := rfl
@[simp] theorem State.setSite_cfgSpace (i : Nat) (v : SiteSt) : (s.setSite i v).cfgSpace = s.cfgSpace := rfl
@[simp] theorem State.setSite_perst (i : Nat) (v : SiteSt) : (s.setSite i v).perst = s.perst := rfl
@[simp] theorem State.setSite_stickyNote (i : Nat) (v : SiteSt) : (s.setSite i v).stickyNote = s.stickyNote := rfl
@[simp] theorem State.setSite_faultNote (i : Nat) (v : SiteSt) : (s.setSite i v).faultNote = s.faultNote := rfl
@[simp] theorem State.setSite_unreported (i : Nat) (v : SiteSt) : (s.setSite i v).unreported = s.unreported := rfl
@[simp] theorem State.setSite_syncq (i : Nat) (v : SiteSt) : (s.setSite i v).syncq = s.syncq := rfl
@[simp] theorem State.setSite_syncOut (i : Nat) (v : SiteSt) : (s.setSite i v).syncOut = s.syncOut := rfl
@[simp] theorem State.setSite_startSeq (i : Nat) (v : SiteSt) : (s.setSite i v).startSeq = s.startSeq := rfl
@[simp] theorem State.setSite_startSent (i : Nat) (v : SiteSt) : (s.setSite i v).startSent = s.startSent := rfl
@[simp] theorem State.setSite_sleeping (i : Nat) (v : SiteSt) : (s.setSite i v).sleeping = s.sleeping := rfl
@[simp] theorem State.setSite_tap (i : Nat) (v : SiteSt) : (s.setSite i v).tap = s.tap := rfl
@[simp] theorem State.setSite_dma (i : Nat) (v : SiteSt) : (s.setSite i v).dma = s.dma := rfl
@[simp] theorem State.setSite_dmaq (i : Nat) (v : SiteSt) : (s.setSite i v).dmaq = s.dmaq := rfl
@[simp] theorem State.setSite_dmaLast (i : Nat) (v : SiteSt) : (s.setSite i v).dmaLast = s.dmaLast := rfl
@[simp] theorem State.setSite_tmrStage (i : Nat) (v : SiteSt) : (s.setSite i v).tmrStage = s.tmrStage := rfl
@[simp] theorem State.setSite_tmrRun (i : Nat) (v : SiteSt) : (s.setSite i v).tmrRun = s.tmrRun := rfl
@[simp] theorem State.setSite_tmrActs (i : Nat) (v : SiteSt) : (s.setSite i v).tmrActs = s.tmrActs := rfl
@[simp] theorem State.setSite_tmrDue (i : Nat) (v : SiteSt) : (s.setSite i v).tmrDue = s.tmrDue := rfl
@[simp] theorem State.setSite_tmrEdge (i : Nat) (v : SiteSt) : (s.setSite i v).tmrEdge = s.tmrEdge := rfl
@[simp] theorem State.setSite_tmrGate (i : Nat) (v : SiteSt) : (s.setSite i v).tmrGate = s.tmrGate := rfl
@[simp] theorem State.setSite_tmrDiv (i : Nat) (v : SiteSt) : (s.setSite i v).tmrDiv = s.tmrDiv := rfl
@[simp] theorem State.setSite_tmrSlow (i : Nat) (v : SiteSt) : (s.setSite i v).tmrSlow = s.tmrSlow := rfl
@[simp] theorem State.setSite_adc (i : Nat) (v : SiteSt) : (s.setSite i v).adc = s.adc := rfl
@[simp] theorem State.setSite_age (i : Nat) (v : SiteSt) : (s.setSite i v).age = s.age := rfl
@[simp] theorem State.setSite_ageOver (i : Nat) (v : SiteSt) : (s.setSite i v).ageOver = s.ageOver := rfl
@[simp] theorem State.setSite_avs (i : Nat) (v : SiteSt) : (s.setSite i v).avs = s.avs := rfl
@[simp] theorem State.setSite_avsOut (i : Nat) (v : SiteSt) : (s.setSite i v).avsOut = s.avsOut := rfl
@[simp] theorem State.setSite_nv (i : Nat) (v : SiteSt) : (s.setSite i v).nv = s.nv := rfl
@[simp] theorem State.setSite_nvOld (i : Nat) (v : SiteSt) : (s.setSite i v).nvOld = s.nvOld := rfl
@[simp] theorem State.setSite_flash (i : Nat) (v : SiteSt) : (s.setSite i v).flash = s.flash := rfl
@[simp] theorem State.setSite_image (i : Nat) (v : SiteSt) : (s.setSite i v).image = s.image := rfl
@[simp] theorem State.setSite_power (i : Nat) (v : SiteSt) : (s.setSite i v).power = s.power := rfl
@[simp] theorem State.setSite_straps (i : Nat) (v : SiteSt) : (s.setSite i v).straps = s.straps := rfl
@[simp] theorem State.setSite_histCopy (i : Nat) (v : SiteSt) : (s.setSite i v).histCopy = s.histCopy := rfl
@[simp] theorem State.setSite_lifeTicks (i : Nat) (v : SiteSt) : (s.setSite i v).lifeTicks = s.lifeTicks := rfl
@[simp] theorem State.setSite_sleepDue (i : Nat) (v : SiteSt) : (s.setSite i v).sleepDue = s.sleepDue := rfl
@[simp] theorem State.setSite_engStop (i : Nat) (v : SiteSt) : (s.setSite i v).engStop = s.engStop := rfl
@[simp] theorem State.setSite_safe (i : Nat) (v : SiteSt) : (s.setSite i v).safe = s.safe := rfl
@[simp] theorem State.setSite_smbOut (i : Nat) (v : SiteSt) : (s.setSite i v).smbOut = s.smbOut := rfl
@[simp] theorem State.setSite_late (i : Nat) (v : SiteSt) : (s.setSite i v).late = s.late := rfl
@[simp] theorem State.setSite_wakeDue (i : Nat) (v : SiteSt) : (s.setSite i v).wakeDue = s.wakeDue := rfl

@[simp] theorem State.setQp_pending (i : Nat) (v : QSt) : (s.setQp i v).pending = s.pending := rfl
@[simp] theorem State.setQp_fresh (i : Nat) (v : QSt) : (s.setQp i v).fresh = s.fresh := rfl
@[simp] theorem State.setQp_nextId (i : Nat) (v : QSt) : (s.setQp i v).nextId = s.nextId := rfl
@[simp] theorem State.setQp_eclk (i : Nat) (v : QSt) : (s.setQp i v).eclk = s.eclk := rfl
@[simp] theorem State.setQp_regs (i : Nat) (v : QSt) : (s.setQp i v).regs = s.regs := rfl
@[simp] theorem State.setQp_bar0 (i : Nat) (v : QSt) : (s.setQp i v).bar0 = s.bar0 := rfl
@[simp] theorem State.setQp_mem (i : Nat) (v : QSt) : (s.setQp i v).mem = s.mem := rfl
@[simp] theorem State.setQp_busOut (i : Nat) (v : QSt) : (s.setQp i v).busOut = s.busOut := rfl
@[simp] theorem State.setQp_prog (i : Nat) (v : QSt) : (s.setQp i v).prog = s.prog := rfl
@[simp] theorem State.setQp_progOn (i : Nat) (v : QSt) : (s.setQp i v).progOn = s.progOn := rfl
@[simp] theorem State.setQp_engs (i : Nat) (v : QSt) : (s.setQp i v).engs = s.engs := rfl
@[simp] theorem State.setQp_ths (i : Nat) (v : QSt) : (s.setQp i v).ths = s.ths := rfl
@[simp] theorem State.setQp_chans (i : Nat) (v : QSt) : (s.setQp i v).chans = s.chans := rfl
@[simp] theorem State.setQp_flights (i : Nat) (v : QSt) : (s.setQp i v).flights = s.flights := rfl
@[simp] theorem State.setQp_culmStart (i : Nat) (v : QSt) : (s.setQp i v).culmStart = s.culmStart := rfl
@[simp] theorem State.setQp_culmDone (i : Nat) (v : QSt) : (s.setQp i v).culmDone = s.culmDone := rfl
@[simp] theorem State.setQp_tasks (i : Nat) (v : QSt) : (s.setQp i v).tasks = s.tasks := rfl
@[simp] theorem State.setQp_evq (i : Nat) (v : QSt) : (s.setQp i v).evq = s.evq := rfl
@[simp] theorem State.setQp_taskOps (i : Nat) (v : QSt) : (s.setQp i v).taskOps = s.taskOps := rfl
@[simp] theorem State.setQp_opFree (i : Nat) (v : QSt) : (s.setQp i v).opFree = s.opFree := rfl
@[simp] theorem State.setQp_pageOuts (i : Nat) (v : QSt) : (s.setQp i v).pageOuts = s.pageOuts := rfl
@[simp] theorem State.setQp_roundStart (i : Nat) (v : QSt) : (s.setQp i v).roundStart = s.roundStart := rfl
@[simp] theorem State.setQp_granted (i : Nat) (v : QSt) : (s.setQp i v).granted = s.granted := rfl
@[simp] theorem State.setQp_schedAt (i : Nat) (v : QSt) : (s.setQp i v).schedAt = s.schedAt := rfl
@[simp] theorem State.setQp_intake (i : Nat) (v : QSt) : (s.setQp i v).intake = s.intake := rfl
@[simp] theorem State.setQp_ctxReads (i : Nat) (v : QSt) : (s.setQp i v).ctxReads = s.ctxReads := rfl
@[simp] theorem State.setQp_ctxWrites (i : Nat) (v : QSt) : (s.setQp i v).ctxWrites = s.ctxWrites := rfl
@[simp] theorem State.setQp_mtxq (i : Nat) (v : QSt) : (s.setQp i v).mtxq = s.mtxq := rfl
@[simp] theorem State.setQp_xfers (i : Nat) (v : QSt) : (s.setQp i v).xfers = s.xfers := rfl
@[simp] theorem State.setQp_mtxBusy (i : Nat) (v : QSt) : (s.setQp i v).mtxBusy = s.mtxBusy := rfl
@[simp] theorem State.setQp_bus (i : Nat) (v : QSt) : (s.setQp i v).bus = s.bus := rfl
@[simp] theorem State.setQp_banks (i : Nat) (v : QSt) : (s.setQp i v).banks = s.banks := rfl
@[simp] theorem State.setQp_bankPois (i : Nat) (v : QSt) : (s.setQp i v).bankPois = s.bankPois := rfl
@[simp] theorem State.setQp_dramq (i : Nat) (v : QSt) : (s.setQp i v).dramq = s.dramq := rfl
@[simp] theorem State.setQp_poisoned (i : Nat) (v : QSt) : (s.setQp i v).poisoned = s.poisoned := rfl
@[simp] theorem State.setQp_scrubbed (i : Nat) (v : QSt) : (s.setQp i v).scrubbed = s.scrubbed := rfl
@[simp] theorem State.setQp_rowCe (i : Nat) (v : QSt) : (s.setQp i v).rowCe = s.rowCe := rfl
@[simp] theorem State.setQp_pprq (i : Nat) (v : QSt) : (s.setQp i v).pprq = s.pprq := rfl
@[simp] theorem State.setQp_glnPos (i : Nat) (v : QSt) : (s.setQp i v).glnPos = s.glnPos := rfl
@[simp] theorem State.setQp_recPois (i : Nat) (v : QSt) : (s.setQp i v).recPois = s.recPois := rfl
@[simp] theorem State.setQp_glnDue (i : Nat) (v : QSt) : (s.setQp i v).glnDue = s.glnDue := rfl
@[simp] theorem State.setQp_grants (i : Nat) (v : QSt) : (s.setQp i v).grants = s.grants := rfl
@[simp] theorem State.setQp_px (i : Nat) (v : QSt) : (s.setQp i v).px = s.px := rfl
@[simp] theorem State.setQp_pg (i : Nat) (v : QSt) : (s.setQp i v).pg = s.pg := rfl
@[simp] theorem State.setQp_lanes (i : Nat) (v : QSt) : (s.setQp i v).lanes = s.lanes := rfl
@[simp] theorem State.setQp_tsets (i : Nat) (v : QSt) : (s.setQp i v).tsets = s.tsets := rfl
@[simp] theorem State.setQp_pxprog (i : Nat) (v : QSt) : (s.setQp i v).pxprog = s.pxprog := rfl
@[simp] theorem State.setQp_scr (i : Nat) (v : QSt) : (s.setQp i v).scr = s.scr := rfl
@[simp] theorem State.setQp_startReq (i : Nat) (v : QSt) : (s.setQp i v).startReq = s.startReq := rfl
@[simp] theorem State.setQp_thr (i : Nat) (v : QSt) : (s.setQp i v).thr = s.thr := rfl
@[simp] theorem State.setQp_regions (i : Nat) (v : QSt) : (s.setQp i v).regions = s.regions := rfl
@[simp] theorem State.setQp_rdesc (i : Nat) (v : QSt) : (s.setQp i v).rdesc = s.rdesc := rfl
@[simp] theorem State.setQp_sites (i : Nat) (v : QSt) : (s.setQp i v).sites = s.sites := rfl
@[simp] theorem State.setQp_repairQ (i : Nat) (v : QSt) : (s.setQp i v).repairQ = s.repairQ := rfl
@[simp] theorem State.setQp_inprog (i : Nat) (v : QSt) : (s.setQp i v).inprog = s.inprog := rfl
@[simp] theorem State.setQp_lastQ (i : Nat) (v : QSt) : (s.setQp i v).lastQ = s.lastQ := rfl
@[simp] theorem State.setQp_opsDone (i : Nat) (v : QSt) : (s.setQp i v).opsDone = s.opsDone := rfl
@[simp] theorem State.setQp_hostMem (i : Nat) (v : QSt) : (s.setQp i v).hostMem = s.hostMem := rfl
@[simp] theorem State.setQp_msixPend (i : Nat) (v : QSt) : (s.setQp i v).msixPend = s.msixPend := rfl
@[simp] theorem State.setQp_msixSent (i : Nat) (v : QSt) : (s.setQp i v).msixSent = s.msixSent := rfl
@[simp] theorem State.setQp_bar2 (i : Nat) (v : QSt) : (s.setQp i v).bar2 = s.bar2 := rfl
@[simp] theorem State.setQp_cfgSpace (i : Nat) (v : QSt) : (s.setQp i v).cfgSpace = s.cfgSpace := rfl
@[simp] theorem State.setQp_perst (i : Nat) (v : QSt) : (s.setQp i v).perst = s.perst := rfl
@[simp] theorem State.setQp_stickyNote (i : Nat) (v : QSt) : (s.setQp i v).stickyNote = s.stickyNote := rfl
@[simp] theorem State.setQp_faultNote (i : Nat) (v : QSt) : (s.setQp i v).faultNote = s.faultNote := rfl
@[simp] theorem State.setQp_unreported (i : Nat) (v : QSt) : (s.setQp i v).unreported = s.unreported := rfl
@[simp] theorem State.setQp_syncq (i : Nat) (v : QSt) : (s.setQp i v).syncq = s.syncq := rfl
@[simp] theorem State.setQp_syncOut (i : Nat) (v : QSt) : (s.setQp i v).syncOut = s.syncOut := rfl
@[simp] theorem State.setQp_startSeq (i : Nat) (v : QSt) : (s.setQp i v).startSeq = s.startSeq := rfl
@[simp] theorem State.setQp_startSent (i : Nat) (v : QSt) : (s.setQp i v).startSent = s.startSent := rfl
@[simp] theorem State.setQp_sleeping (i : Nat) (v : QSt) : (s.setQp i v).sleeping = s.sleeping := rfl
@[simp] theorem State.setQp_tap (i : Nat) (v : QSt) : (s.setQp i v).tap = s.tap := rfl
@[simp] theorem State.setQp_dma (i : Nat) (v : QSt) : (s.setQp i v).dma = s.dma := rfl
@[simp] theorem State.setQp_dmaq (i : Nat) (v : QSt) : (s.setQp i v).dmaq = s.dmaq := rfl
@[simp] theorem State.setQp_dmaLast (i : Nat) (v : QSt) : (s.setQp i v).dmaLast = s.dmaLast := rfl
@[simp] theorem State.setQp_tmrStage (i : Nat) (v : QSt) : (s.setQp i v).tmrStage = s.tmrStage := rfl
@[simp] theorem State.setQp_tmrRun (i : Nat) (v : QSt) : (s.setQp i v).tmrRun = s.tmrRun := rfl
@[simp] theorem State.setQp_tmrActs (i : Nat) (v : QSt) : (s.setQp i v).tmrActs = s.tmrActs := rfl
@[simp] theorem State.setQp_tmrDue (i : Nat) (v : QSt) : (s.setQp i v).tmrDue = s.tmrDue := rfl
@[simp] theorem State.setQp_tmrEdge (i : Nat) (v : QSt) : (s.setQp i v).tmrEdge = s.tmrEdge := rfl
@[simp] theorem State.setQp_tmrGate (i : Nat) (v : QSt) : (s.setQp i v).tmrGate = s.tmrGate := rfl
@[simp] theorem State.setQp_tmrDiv (i : Nat) (v : QSt) : (s.setQp i v).tmrDiv = s.tmrDiv := rfl
@[simp] theorem State.setQp_tmrSlow (i : Nat) (v : QSt) : (s.setQp i v).tmrSlow = s.tmrSlow := rfl
@[simp] theorem State.setQp_adc (i : Nat) (v : QSt) : (s.setQp i v).adc = s.adc := rfl
@[simp] theorem State.setQp_age (i : Nat) (v : QSt) : (s.setQp i v).age = s.age := rfl
@[simp] theorem State.setQp_ageOver (i : Nat) (v : QSt) : (s.setQp i v).ageOver = s.ageOver := rfl
@[simp] theorem State.setQp_avs (i : Nat) (v : QSt) : (s.setQp i v).avs = s.avs := rfl
@[simp] theorem State.setQp_avsOut (i : Nat) (v : QSt) : (s.setQp i v).avsOut = s.avsOut := rfl
@[simp] theorem State.setQp_nv (i : Nat) (v : QSt) : (s.setQp i v).nv = s.nv := rfl
@[simp] theorem State.setQp_nvOld (i : Nat) (v : QSt) : (s.setQp i v).nvOld = s.nvOld := rfl
@[simp] theorem State.setQp_flash (i : Nat) (v : QSt) : (s.setQp i v).flash = s.flash := rfl
@[simp] theorem State.setQp_image (i : Nat) (v : QSt) : (s.setQp i v).image = s.image := rfl
@[simp] theorem State.setQp_power (i : Nat) (v : QSt) : (s.setQp i v).power = s.power := rfl
@[simp] theorem State.setQp_straps (i : Nat) (v : QSt) : (s.setQp i v).straps = s.straps := rfl
@[simp] theorem State.setQp_histCopy (i : Nat) (v : QSt) : (s.setQp i v).histCopy = s.histCopy := rfl
@[simp] theorem State.setQp_lifeTicks (i : Nat) (v : QSt) : (s.setQp i v).lifeTicks = s.lifeTicks := rfl
@[simp] theorem State.setQp_sleepDue (i : Nat) (v : QSt) : (s.setQp i v).sleepDue = s.sleepDue := rfl
@[simp] theorem State.setQp_engStop (i : Nat) (v : QSt) : (s.setQp i v).engStop = s.engStop := rfl
@[simp] theorem State.setQp_safe (i : Nat) (v : QSt) : (s.setQp i v).safe = s.safe := rfl
@[simp] theorem State.setQp_smbOut (i : Nat) (v : QSt) : (s.setQp i v).smbOut = s.smbOut := rfl
@[simp] theorem State.setQp_late (i : Nat) (v : QSt) : (s.setQp i v).late = s.late := rfl
@[simp] theorem State.setQp_wakeDue (i : Nat) (v : QSt) : (s.setQp i v).wakeDue = s.wakeDue := rfl

@[simp] theorem State.post_pending (r : Nat) (k : Option Nat) (c o : Nat) : (s.post r k c o).pending = s.pending := rfl
@[simp] theorem State.post_fresh (r : Nat) (k : Option Nat) (c o : Nat) : (s.post r k c o).fresh = s.fresh := rfl
@[simp] theorem State.post_nextId (r : Nat) (k : Option Nat) (c o : Nat) : (s.post r k c o).nextId = s.nextId := rfl
@[simp] theorem State.post_eclk (r : Nat) (k : Option Nat) (c o : Nat) : (s.post r k c o).eclk = s.eclk := rfl
@[simp] theorem State.post_regs (r : Nat) (k : Option Nat) (c o : Nat) : (s.post r k c o).regs = s.regs := rfl
@[simp] theorem State.post_bar0 (r : Nat) (k : Option Nat) (c o : Nat) : (s.post r k c o).bar0 = s.bar0 := rfl
@[simp] theorem State.post_mem (r : Nat) (k : Option Nat) (c o : Nat) : (s.post r k c o).mem = s.mem := rfl
@[simp] theorem State.post_busOut (r : Nat) (k : Option Nat) (c o : Nat) : (s.post r k c o).busOut = s.busOut := rfl
@[simp] theorem State.post_prog (r : Nat) (k : Option Nat) (c o : Nat) : (s.post r k c o).prog = s.prog := rfl
@[simp] theorem State.post_progOn (r : Nat) (k : Option Nat) (c o : Nat) : (s.post r k c o).progOn = s.progOn := rfl
@[simp] theorem State.post_engs (r : Nat) (k : Option Nat) (c o : Nat) : (s.post r k c o).engs = s.engs := rfl
@[simp] theorem State.post_ths (r : Nat) (k : Option Nat) (c o : Nat) : (s.post r k c o).ths = s.ths := rfl
@[simp] theorem State.post_chans (r : Nat) (k : Option Nat) (c o : Nat) : (s.post r k c o).chans = s.chans := rfl
@[simp] theorem State.post_flights (r : Nat) (k : Option Nat) (c o : Nat) : (s.post r k c o).flights = s.flights := rfl
@[simp] theorem State.post_culmStart (r : Nat) (k : Option Nat) (c o : Nat) : (s.post r k c o).culmStart = s.culmStart := rfl
@[simp] theorem State.post_culmDone (r : Nat) (k : Option Nat) (c o : Nat) : (s.post r k c o).culmDone = s.culmDone := rfl
@[simp] theorem State.post_tasks (r : Nat) (k : Option Nat) (c o : Nat) : (s.post r k c o).tasks = s.tasks := rfl
@[simp] theorem State.post_taskOps (r : Nat) (k : Option Nat) (c o : Nat) : (s.post r k c o).taskOps = s.taskOps := rfl
@[simp] theorem State.post_opFree (r : Nat) (k : Option Nat) (c o : Nat) : (s.post r k c o).opFree = s.opFree := rfl
@[simp] theorem State.post_pageOuts (r : Nat) (k : Option Nat) (c o : Nat) : (s.post r k c o).pageOuts = s.pageOuts := rfl
@[simp] theorem State.post_roundStart (r : Nat) (k : Option Nat) (c o : Nat) : (s.post r k c o).roundStart = s.roundStart := rfl
@[simp] theorem State.post_granted (r : Nat) (k : Option Nat) (c o : Nat) : (s.post r k c o).granted = s.granted := rfl
@[simp] theorem State.post_schedAt (r : Nat) (k : Option Nat) (c o : Nat) : (s.post r k c o).schedAt = s.schedAt := rfl
@[simp] theorem State.post_intake (r : Nat) (k : Option Nat) (c o : Nat) : (s.post r k c o).intake = s.intake := rfl
@[simp] theorem State.post_ctxReads (r : Nat) (k : Option Nat) (c o : Nat) : (s.post r k c o).ctxReads = s.ctxReads := rfl
@[simp] theorem State.post_ctxWrites (r : Nat) (k : Option Nat) (c o : Nat) : (s.post r k c o).ctxWrites = s.ctxWrites := rfl
@[simp] theorem State.post_mtxq (r : Nat) (k : Option Nat) (c o : Nat) : (s.post r k c o).mtxq = s.mtxq := rfl
@[simp] theorem State.post_xfers (r : Nat) (k : Option Nat) (c o : Nat) : (s.post r k c o).xfers = s.xfers := rfl
@[simp] theorem State.post_mtxBusy (r : Nat) (k : Option Nat) (c o : Nat) : (s.post r k c o).mtxBusy = s.mtxBusy := rfl
@[simp] theorem State.post_bus (r : Nat) (k : Option Nat) (c o : Nat) : (s.post r k c o).bus = s.bus := rfl
@[simp] theorem State.post_banks (r : Nat) (k : Option Nat) (c o : Nat) : (s.post r k c o).banks = s.banks := rfl
@[simp] theorem State.post_bankPois (r : Nat) (k : Option Nat) (c o : Nat) : (s.post r k c o).bankPois = s.bankPois := rfl
@[simp] theorem State.post_dramq (r : Nat) (k : Option Nat) (c o : Nat) : (s.post r k c o).dramq = s.dramq := rfl
@[simp] theorem State.post_poisoned (r : Nat) (k : Option Nat) (c o : Nat) : (s.post r k c o).poisoned = s.poisoned := rfl
@[simp] theorem State.post_scrubbed (r : Nat) (k : Option Nat) (c o : Nat) : (s.post r k c o).scrubbed = s.scrubbed := rfl
@[simp] theorem State.post_rowCe (r : Nat) (k : Option Nat) (c o : Nat) : (s.post r k c o).rowCe = s.rowCe := rfl
@[simp] theorem State.post_pprq (r : Nat) (k : Option Nat) (c o : Nat) : (s.post r k c o).pprq = s.pprq := rfl
@[simp] theorem State.post_glnPos (r : Nat) (k : Option Nat) (c o : Nat) : (s.post r k c o).glnPos = s.glnPos := rfl
@[simp] theorem State.post_recPois (r : Nat) (k : Option Nat) (c o : Nat) : (s.post r k c o).recPois = s.recPois := rfl
@[simp] theorem State.post_glnDue (r : Nat) (k : Option Nat) (c o : Nat) : (s.post r k c o).glnDue = s.glnDue := rfl
@[simp] theorem State.post_grants (r : Nat) (k : Option Nat) (c o : Nat) : (s.post r k c o).grants = s.grants := rfl
@[simp] theorem State.post_px (r : Nat) (k : Option Nat) (c o : Nat) : (s.post r k c o).px = s.px := rfl
@[simp] theorem State.post_pg (r : Nat) (k : Option Nat) (c o : Nat) : (s.post r k c o).pg = s.pg := rfl
@[simp] theorem State.post_lanes (r : Nat) (k : Option Nat) (c o : Nat) : (s.post r k c o).lanes = s.lanes := rfl
@[simp] theorem State.post_tsets (r : Nat) (k : Option Nat) (c o : Nat) : (s.post r k c o).tsets = s.tsets := rfl
@[simp] theorem State.post_pxprog (r : Nat) (k : Option Nat) (c o : Nat) : (s.post r k c o).pxprog = s.pxprog := rfl
@[simp] theorem State.post_scr (r : Nat) (k : Option Nat) (c o : Nat) : (s.post r k c o).scr = s.scr := rfl
@[simp] theorem State.post_startReq (r : Nat) (k : Option Nat) (c o : Nat) : (s.post r k c o).startReq = s.startReq := rfl
@[simp] theorem State.post_thr (r : Nat) (k : Option Nat) (c o : Nat) : (s.post r k c o).thr = s.thr := rfl
@[simp] theorem State.post_regions (r : Nat) (k : Option Nat) (c o : Nat) : (s.post r k c o).regions = s.regions := rfl
@[simp] theorem State.post_rdesc (r : Nat) (k : Option Nat) (c o : Nat) : (s.post r k c o).rdesc = s.rdesc := rfl
@[simp] theorem State.post_sites (r : Nat) (k : Option Nat) (c o : Nat) : (s.post r k c o).sites = s.sites := rfl
@[simp] theorem State.post_repairQ (r : Nat) (k : Option Nat) (c o : Nat) : (s.post r k c o).repairQ = s.repairQ := rfl
@[simp] theorem State.post_queues (r : Nat) (k : Option Nat) (c o : Nat) : (s.post r k c o).queues = s.queues := rfl
@[simp] theorem State.post_inprog (r : Nat) (k : Option Nat) (c o : Nat) : (s.post r k c o).inprog = s.inprog := rfl
@[simp] theorem State.post_lastQ (r : Nat) (k : Option Nat) (c o : Nat) : (s.post r k c o).lastQ = s.lastQ := rfl
@[simp] theorem State.post_opsDone (r : Nat) (k : Option Nat) (c o : Nat) : (s.post r k c o).opsDone = s.opsDone := rfl
@[simp] theorem State.post_hostMem (r : Nat) (k : Option Nat) (c o : Nat) : (s.post r k c o).hostMem = s.hostMem := rfl
@[simp] theorem State.post_msixPend (r : Nat) (k : Option Nat) (c o : Nat) : (s.post r k c o).msixPend = s.msixPend := rfl
@[simp] theorem State.post_msixSent (r : Nat) (k : Option Nat) (c o : Nat) : (s.post r k c o).msixSent = s.msixSent := rfl
@[simp] theorem State.post_bar2 (r : Nat) (k : Option Nat) (c o : Nat) : (s.post r k c o).bar2 = s.bar2 := rfl
@[simp] theorem State.post_cfgSpace (r : Nat) (k : Option Nat) (c o : Nat) : (s.post r k c o).cfgSpace = s.cfgSpace := rfl
@[simp] theorem State.post_perst (r : Nat) (k : Option Nat) (c o : Nat) : (s.post r k c o).perst = s.perst := rfl
@[simp] theorem State.post_stickyNote (r : Nat) (k : Option Nat) (c o : Nat) : (s.post r k c o).stickyNote = s.stickyNote := rfl
@[simp] theorem State.post_faultNote (r : Nat) (k : Option Nat) (c o : Nat) : (s.post r k c o).faultNote = s.faultNote := rfl
@[simp] theorem State.post_unreported (r : Nat) (k : Option Nat) (c o : Nat) : (s.post r k c o).unreported = s.unreported := rfl
@[simp] theorem State.post_syncq (r : Nat) (k : Option Nat) (c o : Nat) : (s.post r k c o).syncq = s.syncq := rfl
@[simp] theorem State.post_syncOut (r : Nat) (k : Option Nat) (c o : Nat) : (s.post r k c o).syncOut = s.syncOut := rfl
@[simp] theorem State.post_startSeq (r : Nat) (k : Option Nat) (c o : Nat) : (s.post r k c o).startSeq = s.startSeq := rfl
@[simp] theorem State.post_startSent (r : Nat) (k : Option Nat) (c o : Nat) : (s.post r k c o).startSent = s.startSent := rfl
@[simp] theorem State.post_sleeping (r : Nat) (k : Option Nat) (c o : Nat) : (s.post r k c o).sleeping = s.sleeping := rfl
@[simp] theorem State.post_tap (r : Nat) (k : Option Nat) (c o : Nat) : (s.post r k c o).tap = s.tap := rfl
@[simp] theorem State.post_dma (r : Nat) (k : Option Nat) (c o : Nat) : (s.post r k c o).dma = s.dma := rfl
@[simp] theorem State.post_dmaq (r : Nat) (k : Option Nat) (c o : Nat) : (s.post r k c o).dmaq = s.dmaq := rfl
@[simp] theorem State.post_dmaLast (r : Nat) (k : Option Nat) (c o : Nat) : (s.post r k c o).dmaLast = s.dmaLast := rfl
@[simp] theorem State.post_tmrStage (r : Nat) (k : Option Nat) (c o : Nat) : (s.post r k c o).tmrStage = s.tmrStage := rfl
@[simp] theorem State.post_tmrRun (r : Nat) (k : Option Nat) (c o : Nat) : (s.post r k c o).tmrRun = s.tmrRun := rfl
@[simp] theorem State.post_tmrActs (r : Nat) (k : Option Nat) (c o : Nat) : (s.post r k c o).tmrActs = s.tmrActs := rfl
@[simp] theorem State.post_tmrDue (r : Nat) (k : Option Nat) (c o : Nat) : (s.post r k c o).tmrDue = s.tmrDue := rfl
@[simp] theorem State.post_tmrEdge (r : Nat) (k : Option Nat) (c o : Nat) : (s.post r k c o).tmrEdge = s.tmrEdge := rfl
@[simp] theorem State.post_tmrGate (r : Nat) (k : Option Nat) (c o : Nat) : (s.post r k c o).tmrGate = s.tmrGate := rfl
@[simp] theorem State.post_tmrDiv (r : Nat) (k : Option Nat) (c o : Nat) : (s.post r k c o).tmrDiv = s.tmrDiv := rfl
@[simp] theorem State.post_tmrSlow (r : Nat) (k : Option Nat) (c o : Nat) : (s.post r k c o).tmrSlow = s.tmrSlow := rfl
@[simp] theorem State.post_adc (r : Nat) (k : Option Nat) (c o : Nat) : (s.post r k c o).adc = s.adc := rfl
@[simp] theorem State.post_age (r : Nat) (k : Option Nat) (c o : Nat) : (s.post r k c o).age = s.age := rfl
@[simp] theorem State.post_ageOver (r : Nat) (k : Option Nat) (c o : Nat) : (s.post r k c o).ageOver = s.ageOver := rfl
@[simp] theorem State.post_avs (r : Nat) (k : Option Nat) (c o : Nat) : (s.post r k c o).avs = s.avs := rfl
@[simp] theorem State.post_avsOut (r : Nat) (k : Option Nat) (c o : Nat) : (s.post r k c o).avsOut = s.avsOut := rfl
@[simp] theorem State.post_nv (r : Nat) (k : Option Nat) (c o : Nat) : (s.post r k c o).nv = s.nv := rfl
@[simp] theorem State.post_nvOld (r : Nat) (k : Option Nat) (c o : Nat) : (s.post r k c o).nvOld = s.nvOld := rfl
@[simp] theorem State.post_flash (r : Nat) (k : Option Nat) (c o : Nat) : (s.post r k c o).flash = s.flash := rfl
@[simp] theorem State.post_image (r : Nat) (k : Option Nat) (c o : Nat) : (s.post r k c o).image = s.image := rfl
@[simp] theorem State.post_power (r : Nat) (k : Option Nat) (c o : Nat) : (s.post r k c o).power = s.power := rfl
@[simp] theorem State.post_straps (r : Nat) (k : Option Nat) (c o : Nat) : (s.post r k c o).straps = s.straps := rfl
@[simp] theorem State.post_histCopy (r : Nat) (k : Option Nat) (c o : Nat) : (s.post r k c o).histCopy = s.histCopy := rfl
@[simp] theorem State.post_lifeTicks (r : Nat) (k : Option Nat) (c o : Nat) : (s.post r k c o).lifeTicks = s.lifeTicks := rfl
@[simp] theorem State.post_sleepDue (r : Nat) (k : Option Nat) (c o : Nat) : (s.post r k c o).sleepDue = s.sleepDue := rfl
@[simp] theorem State.post_engStop (r : Nat) (k : Option Nat) (c o : Nat) : (s.post r k c o).engStop = s.engStop := rfl
@[simp] theorem State.post_safe (r : Nat) (k : Option Nat) (c o : Nat) : (s.post r k c o).safe = s.safe := rfl
@[simp] theorem State.post_smbOut (r : Nat) (k : Option Nat) (c o : Nat) : (s.post r k c o).smbOut = s.smbOut := rfl
@[simp] theorem State.post_late (r : Nat) (k : Option Nat) (c o : Nat) : (s.post r k c o).late = s.late := rfl
@[simp] theorem State.post_wakeDue (r : Nat) (k : Option Nat) (c o : Nat) : (s.post r k c o).wakeDue = s.wakeDue := rfl

end Sys2Proof.Machine
end

