-- ==== Sys2Proof/Laws/Ops.lean ====
section
/-!
SUPPORT. What the named operations over registers and memory do: the value read back, every other register and byte as it was,
and the canonical forms kept.
-/

namespace Sys2Proof.Machine

variable {s : State}

/- Registers -------------------------------------------------------------------------------------- -/

theorem State.rd_wr_ne {a b : Nat} {v : W32} (h : b ≠ a) : (s.wr a v).rd b = s.rd b := spGet_spSet_ne _ _ h

theorem State.rd_wr_self (h : spOk regReset s.regs = true) (a : Nat) (v : W32) : (s.wr a v).rd a = v := spGet_spSet_self h _ _

theorem State.wr_regs_ok (h : spOk regReset s.regs = true) (a : Nat) (v : W32) : spOk regReset (s.wr a v).regs = true :=
  spOk_spSet h a v

theorem State.rd_wf_ne {a b l w x : Nat} (h : b ≠ a) : (s.wf a l w x).rd b = s.rd b := State.rd_wr_ne h

theorem State.rdB_wrB_ne {a b : Nat} {v : W32} (h : b ≠ a) : (s.wrB a v).rdB b = s.rdB b := spGet_spSet_ne _ _ h

theorem State.rdB_wrB_self (h : spOk bar0Reset s.bar0 = true) (a : Nat) (v : W32) : (s.wrB a v).rdB a = v :=
  spGet_spSet_self h _ _

theorem State.wrB_bar0_ok (h : spOk bar0Reset s.bar0 = true) (a : Nat) (v : W32) : spOk bar0Reset (s.wrB a v).bar0 = true :=
  spOk_spSet h a v

/- Accesses of the management controller ---------------------------------------------------------------- -/

/-- Awake, an access of the management controller acts in the state after its bus cycle; asleep it is kept for the wake (R27, R365). -/
theorem State.mgmtDo_awake (h : s.sleeping = false) (a : Nat) (v : Option W32) (f : State → State) :
    s.mgmtDo a v f = f (s.mgmtIn a v.isSome) := by simp [State.mgmtDo, State.lateDo, h]

theorem State.mgmtDo_asleep (h : s.sleeping = true) (a : Nat) (v : Option W32) (f : State → State) :
    s.mgmtDo a v f = { s with late := s.late ++ [.access a v] } := by simp [State.mgmtDo, State.lateDo, h]

/- Threads ------------------------------------------------------------------------------------------ -/

theorem State.th_setTh_ne {i j : Nat} {t : Thread} (h : j ≠ i) : (s.setTh i t).th j = s.th j := spGet_spSet_ne _ _ h

theorem State.th_setTh_self (h : spOk (fun _ => Thread.init) s.ths = true) (i : Nat) (t : Thread) : (s.setTh i t).th i = t :=
  spGet_spSet_self h _ _

/- Memory ------------------------------------------------------------------------------------------- -/

theorem State.byte_setByte_ne {a b : Nat} {v : Byte} (h : b ≠ a) : (s.setByte a v).byte b = s.byte b := spGet_spSet_ne _ _ h

theorem State.byte_setByte_self (h : Memory.wf s.mem = true) (a : Nat) (v : Byte) : (s.setByte a v).byte a = v :=
  spGet_spSet_self h _ _

theorem State.setByte_wf (h : Memory.wf s.mem = true) (a : Nat) (v : Byte) : Memory.wf (s.setByte a v).mem = true :=
  spOk_spSet h a v

theorem State.setBytes_wf (h : Memory.wf s.mem = true) (a n v : Nat) : Memory.wf (s.setBytes a n v).mem = true := by
  induction n generalizing s a v with
  | zero => exact h
  | succ n ih => 
    exact ih (s := s.setByte a (BitVec.ofNat 8 v)) (State.setByte_wf h a (BitVec.ofNat 8 v)) (a + 1) (v / 256)

theorem State.setByteList_wf (h : Memory.wf s.mem = true) (a : Nat) (l : List Byte) : Memory.wf (s.setByteList a l).mem = true := by
  induction l generalizing s a with
  | nil => exact h
  | cons v l ih => rw [State.setByteList]; exact ih (s := s.setByte a v) (State.setByte_wf h a v) (a + 1)

theorem State.setWords_wf (h : Memory.wf s.mem = true) (a : Nat) (l : List W64) : Memory.wf (s.setWords a l).mem = true :=
  State.setByteList_wf h a _

/-- Bytes outside the `n` from `a` keep their values. -/
theorem State.byte_setBytes_frame {a b n v : Nat} (h : b < a ∨ a + n ≤ b) : (s.setBytes a n v).byte b = s.byte b := by
  induction n generalizing s a v with
  | zero => rfl
  | succ n ih =>
    have e : (s.setBytes a (n + 1) v).byte b = ((s.setByte a (BitVec.ofNat 8 v)).setBytes (a + 1) n (v / 256)).byte b := rfl
    rw [e, ih (by omega)]
    exact State.byte_setByte_ne (by omega)

/-- Bytes outside the list from `a` keep their values. -/
theorem State.byte_setByteList_frame {a b : Nat} {l : List Byte} (h : b < a ∨ a + l.length ≤ b) :
    (s.setByteList a l).byte b = s.byte b := by
  induction l generalizing s a with
  | nil => rfl
  | cons v l ih =>
    simp only [List.length_cons] at h
    have e : (s.setByteList a (v :: l)).byte b = ((s.setByte a v).setByteList (a + 1) l).byte b := rfl
    rw [e, ih (by omega)]
    exact State.byte_setByte_ne (by omega)

end Sys2Proof.Machine
end

