-- ==== Sys2Proof/Laws/Engine.lean ====
section
/-!
SUPPORT. What a lone trigger of a unit does once its thread may trigger: the operation, or the fault recorded first.
-/

namespace Sys2Proof.Machine

/-- A lone trigger of a thread that may trigger: the checks and the effect in the state in which it acts. -/
theorem State.trigOnce_can {s : State} {i : Nat} {t : Trig} {v : W64} {p : Nat} (h : s.canTrigger i) :
    s.trigOnce i t v p = (s.atTrigger i).trigDo i t v p := by
  unfold State.trigOnce State.atTrigger
  simp only [h.1, h.2, Bool.not_true, Bool.or_false, Bool.false_eq_true, if_false]

/-- A lone trigger of a thread that may not trigger lands the short operations and does nothing more. -/
theorem State.trigOnce_cannot {s : State} {i : Nat} {t : Trig} {v : W64} {p : Nat} (h : ¬s.canTrigger i) :
    s.trigOnce i t v p = s.landShort i := by
  unfold State.trigOnce
  unfold State.canTrigger at h
  dsimp only
  split
  · rfl
  · rename_i hn
    refine absurd ?_ h
    simp_all

/-- A trigger whose unit is not busy: the fault recorded first, or the effect. -/
theorem State.trigDo_free {s : State} {i : Nat} {t : Trig} {v : W64} {p : Nat}
    (hw : (trigWait t).any (fun w => s.holds i w) = false) :
    s.trigDo i t v p =
      match worst ((s.dstFault i [] ⟨0, p, none, 0, 0, false⟩).toList ++ s.trigFaults i (s.cur i) t v p 0) with
      | some f => s.raiseFault i f.fr
      | none => s.trigEffect i t v := by
  refine (if_neg (c := ((trigWait t).any fun w => s.holds i w) = true) ?_).trans rfl
  rw [hw]
  exact Bool.false_ne_true

/-- A trigger whose unit is busy waits, without effect (R50, R119). -/
theorem State.trigDo_waits {s : State} {i : Nat} {t : Trig} {v : W64} {p : Nat}
    (hw : (trigWait t).any (fun w => s.holds i w) = true) : s.trigDo i t v p = s := by
  unfold State.trigDo
  simp only [hw, if_true]

/-- A trigger port of the command table names its trigger. -/
theorem dstPort_trigPort (t : Trig) (h : ∀ op, t ≠ .cmp op 0) : dstPort (trigPort t) = .trig t := by
  cases t with
  | alu u op => fin_cases u <;> cases op <;> rfl
  | cmp op g => fin_cases g <;> cases op <;> first | rfl | exact absurd rfl (h _)
  | sh op => cases op <;> rfl
  | mul op => cases op <;> rfl
  | div sg => cases sg <;> rfl
  | bf op => cases op <;> rfl
  | ld op => cases op <;> rfl
  | st op => cases op <;> rfl
  | jump r => cases r <;> rfl
  | call r => cases r <;> rfl
  | loop n => fin_cases n <;> rfl
  | lbreak n => fin_cases n <;> rfl
  | push n => fin_cases n <;> rfl
  | assist n => fin_cases n <;> rfl
  | pull n => fin_cases n <;> rfl
  | feed op => cases op <;> rfl
  | _ => rfl

/-- A trigger port raises a fault of its own in TRANSPORT only for SIGNAL from ring 2 or 3 (R82). -/
theorem State.dstFault_trigPort {s : State} {i : Nat} {t : Trig} (h : ∀ op, t ≠ .cmp op 0)
    (hs : t = .signal → (s.th i).ring.toNat < 2) : s.dstFault i [] ⟨0, trigPort t, none, 0, 0, false⟩ = none := by
  unfold State.dstFault
  simp only [dstPort_trigPort t h, List.any_nil, reduceCtorEq, Bool.or_false, decide_false, Bool.false_eq_true, if_false]
  cases t <;> simp_all

end Sys2Proof.Machine
end

