-- ==== Sys2Proof/WellFormed.lean ====
section
/-!
DEFINITION. Which commands a sender can form: the operands that stand for what comes from outside the block keep
the ranges of the spec. No meaning rests on these checks.
-/

namespace Sys2Proof

/-- No two elements are equal. -/
def noRepeat {α : Type} [DecidableEq α] : List α → Bool
  | [] => true
  | a :: l => !l.contains a && noRepeat l

/-- The positions of a wave rise. -/
def risingWave : List (Int × Int) → Bool
  | a :: b :: l => decide (a.1 < b.1) && risingWave (b :: l)
  | _ => true

/-- The wave of a lane has a level and rising positions, and six symbols stand before it (R269, R293). -/
def LaneSamples.wf (x : LaneSamples) : Bool := !x.wave.isEmpty && risingWave x.wave && x.prior.length == 6

/-- The operands of the command keep the ranges the spec gives them: the eight lanes of a fail record are distinct
and their waves rise (R293); a failing training step is one that can fail (R275); a link comes up at speed
1 to 5 and width 1, 2, 4 or 8 (R392). -/
def Instr.wf : Instr → Bool
  | .failRecord _ rx => noRepeat (rx.map (·.lane)) && rx.all LaneSamples.wf
  | .trainingComplete _ (.fail step) => decide (3 ≤ step.toNat)
  | .linkUp speed width => decide (1 ≤ speed.toNat) && decide (speed.toNat ≤ 5) && [1, 2, 4, 8].contains width.toNat
  | _ => true

end Sys2Proof
end

