-- ==== Sys2Proof/Tests/Slice0.lean ====
section
/-!
SUPPORT. Tests of single commands on small states, refusals of ill-formed commands, and a witness for the hypotheses
of each statement.
-/

open Sys2Proof Sys2Proof.Machine

namespace Sys2Proof.Tests

set_option Elab.async false

/- Small states ------------------------------------------------------------------------------------- -/

/-- A started device. -/
def up : State := { State.reset with power := .up, bar0 := [(8, 1)], culmStart := some 0, perst := false }
/-- Thread slot 0 of engine 0 with task 5. -/
def th0 : Thread := { Thread.init with phase := .run, task := 5 }
def task5 : TaskRec := { TaskRec.absent with state := .ready, inSlot := true }
/-- A started device whose engine 0 runs the thread `t`; `r` holds further registers of its block, above 0x101000. -/
def run (t : Thread) (r : List (Nat × W32)) : State :=
  { up with ths := [(0, t)], tasks := [(5, task5)], regs := (aEng 0 0, 1) :: r }
def slot0 : Th := ⟨0, 0, 0⟩

/- Well-formed commands ------------------------------------------------------------------------------ -/

/-- The six symbols before a frame. -/
def noSyms : List (BitVec 2) := [0, 0, 0, 0, 0, 0]
/-- A wave without a level or without the six symbols before it, one that does not rise, lanes that repeat, a training that fails at a
step that cannot fail, and a link speed or width that the standard lacks are refused (R269, R275, R293, R392). -/
theorem test_wf_empty_wave : (Instr.failRecord 0 [⟨0, noSyms, []⟩]).wf = false := by decide
theorem test_wf_prior : (Instr.failRecord 0 [⟨0, [], [(0, 0)]⟩]).wf = false := by decide
theorem test_wf_falling_wave : (Instr.failRecord 0 [⟨0, noSyms, [(5, 0), (5, 1)]⟩]).wf = false := by decide
theorem test_wf_repeated_lane :
    (Instr.failRecord 0 [⟨0, noSyms, [(0, 0)]⟩, ⟨0, noSyms, [(0, 0)]⟩]).wf = false := by decide
theorem test_wf_training_step : (Instr.trainingComplete 0 (.fail 2)).wf = false := by decide
theorem test_wf_link_speed : (Instr.linkUp 6 4).wf = false := by decide
theorem test_wf_link_width : (Instr.linkUp 5 3).wf = false := by decide
theorem test_wf_good : (Instr.linkUp 5 8).wf = true ∧ (Instr.failRecord 0 [⟨0, noSyms, [(0, 0)]⟩]).wf = true ∧
    (Instr.trainingComplete 0 (.fail 3)).wf = true := by decide

/- Witnesses: the block as a whole -------------------------------------------------------------------- -/

theorem wit_StepRunsTheFront : ({ up with pending := [.epoch] }).pending = .epoch :: [] := rfl
theorem wit_StepOnAnEmptyQueue : up.pending = [] ∧ up.stopped = false ∧ up.power = .up ∧
    { up with sleeping := true }.sleeping = true ∧ up.sleeping = false ∧ State.reset.power ≠ .up := by decide +kernel
theorem wit_CanonicalFormKept : State.reset.Inv ∧ step State.reset = .next State.reset := by
  constructor
  · constructor <;> decide +kernel
  · rfl
theorem wit_SafeOnlyWhenPrepared : ({ up with safe := true, bar0 := [(8, 3)] }).SafeInv := by
  unfold State.SafeInv; decide +kernel

/- Witnesses: function units ------------------------------------------------------------------------- -/

/-- Slot 0 may trigger. -/
abbrev canRun (s : State) : Prop := (s.landShort 0).ready 0 = true ∧ (s.landShort 0).noEntry 0 = true
theorem can_run {s : State} (h : canRun s) : s.canTrigger (thIx slot0) := h

theorem run_ready : canRun (run th0 []) := by decide +kernel
theorem wit_AluOperation : (run th0 []).canTrigger (thIx slot0) := can_run run_ready
theorem wit_ShifterOperation : canRun (run th0 []) ∧ ShOp.shl ≠ .bswap ∧ (64 : W64).toNat % 64 = 0 := ⟨run_ready, by decide, by decide⟩
/-- With the divider idle, dividing by 7 and by 0, with DZ_FAULT 0 and 1. -/
theorem wit_MultiplyAndDivide : canRun (run th0 []) ∧ ((run th0 []).atTrigger 0).unitBusy 0 .div = false ∧ (7 : W64) ≠ 0 ∧
    ((run th0 []).atTrigger 0).bit (aEng 0 0x28) 0 = false ∧ canRun (run th0 [(aEng 0 0x28, 1)]) ∧
    ((run th0 [(aEng 0 0x28, 1)]).atTrigger 0).unitBusy 0 .div = false ∧
    ((run th0 [(aEng 0 0x28, 1)]).atTrigger 0).bit (aEng 0 0x28) 0 = true := by decide +kernel
theorem wit_BitFieldOperation : canRun (run th0 []) := run_ready
/-- Guard 7 and guard 0; GLOGIC into d = 7 and d = 0 with each operation. -/
theorem wit_GuardOperations : canRun (run th0 []) ∧ (7 : Fin 8) ≠ 0 ∧ (7 : W64).toNat % 8 ≠ 0 ∧ (0x608 : W64).toNat % 8 = 0 ∧
    (0x608 : W64).toNat / 512 % 4 = 3 := ⟨run_ready, by decide⟩
/-- The CRC unit idle, and with an operation of more than one cycle running. -/
def crcRun : RunOp := ⟨.crc, false, .normal, 0, 0, none⟩
theorem wit_CrcUnit : canRun (run th0 []) ∧ ((run th0 []).atTrigger 0).unitBusy 0 .crc = false ∧
    canRun (run { th0 with ops := [crcRun] } []) ∧
    ((run { th0 with ops := [crcRun] } []).atTrigger 0).unitBusy (engOf 0) .crc = true := by decide +kernel

/- Witnesses: results, memory accesses and transfers -------------------------------------------------- -/

def aluRun : RunOp := ⟨.alu0, true, .normal, 7, 0, some true⟩
def pollRun : RunOp := ⟨.poll, false, .normal, 7, 0, none⟩
/-- A divide of 5 by zero. -/
def zeroRun : RunOp := ⟨.div, false, .normal, -1, 5, some true⟩
/-- The ALU's operation behind one of the divider and before a POLL. -/
theorem wit_UnitResult_behind : ((run { th0 with ops := [zeroRun, aluRun, pollRun] } []).th 0).ops = [zeroRun] ++ aluRun :: [pollRun] ∧
    ∀ x ∈ [zeroRun], x.unit ≠ .alu0 := by decide +kernel
theorem wit_UnitResult : up.sleeping = false ∧ ((run { th0 with ops := [aluRun] } []).th 0).ops = aluRun :: [] ∧ aluRun.unit = .alu0 ∧
    (run { th0 with ops := [aluRun] } []).locked (engOf 0) = false ∧ pollRun.unit = .poll ∧
    ({ run { th0 with ops := [aluRun] } [] with regs := [(aEng 0 0, 3)] }).locked (engOf 0) = true ∧
    ((run { th0 with ops := [zeroRun] } []).th 0).ops = zeroRun :: [] ∧ zeroRun.unit = .div ∧ zeroRun.carry = some true := by
  decide +kernel

/-- The thread of ring 0, and of ring 1, with BASE `a`. -/
def atBase (a : W64) (r : Ring) : State :=
  run { th0 with ring := r, normal := { Bank.clear with latch := Bank.clear.latch.set 14 a } } []
/-- The address that a load with offset 0 of that thread names. -/
def base (a : W64) : W64 := (((atBase a 0).atTrigger 0).cur 0).latch[14] + 0

/-- An address above the 40 bits, an address that no memory has, the window from ring 1, a misaligned address, a window access of
8 bytes, and addresses of a bank and of the window that are in order. -/
theorem wit_LoadStoreDrain : canRun (atBase 0x10000000000 0) ∧ (base 0x10000000000).toNat = 2 ^ 40 ∧
    canRun (atBase 0x40000 0) ∧ (regionOf (base 0x40000).toNat).engine = false ∧
    canRun (atBase 0x80000000 1) ∧ isWindow (base 0x80000000).toNat = true ∧
    sameRange (base 0x80000000).toNat ((base 0x80000000).toNat + 4 - 1) = true ∧ (((atBase 0x80000000 1).atTrigger 0).th 0).ring ≠ 0 ∧
    canRun (atBase 0x1000000004 0) ∧ (base 0x1000000004).toNat < 2 ^ 40 ∧ (regionOf (base 0x1000000004).toNat).engine = true ∧
    sameRange (base 0x1000000004).toNat ((base 0x1000000004).toNat + 8 - 1) = true ∧ isWindow (base 0x1000000004).toNat = false ∧
    (base 0x1000000004).toNat % ldSize .ld64 ≠ 0 ∧ (base 0x1000000004).toNat % ldSize .ld32u = 0 ∧ stSize .st32 = 4 ∧ ldSize .ld64 = 8 ∧
    (((atBase 0x80000000 0).atTrigger 0).th 0).ring = 0 ∧ (((atBase 0x80000000 0).atTrigger 0).th 0).stores.length < 4 ∧
    4 ≤ (((run { th0 with stores := List.replicate 4 ⟨0, 5, .normal, .st8, 0, 0, .held⟩ } []).atTrigger 0).th 0).stores.length := by
  decide +kernel

def scratchLoad : LoadRec := ⟨0, false, .normal, .ld32u, 0x10, .scratch 7⟩
def heldStore : StoreRec := ⟨0, 5, .normal, .st32, 0x10, 0x12345678, .held⟩
theorem wit_ScratchLoadAndStore : ((run { th0 with loads := [scratchLoad] } []).th 0).loads = scratchLoad :: [] ∧
    (run { th0 with loads := [scratchLoad] } []).locked (engOf 0) = false ∧ scratchLoad.st = .scratch 7 ∧ scratchLoad.old = false ∧
    ((run { th0 with loads := [scratchLoad] } []).bankOf 0 .normal).ldErr = none ∧
    ((run { th0 with stores := [heldStore] } []).th 0).stores = heldStore :: [] ∧ heldStore.st = .held ∧
    ((run { th0 with stores := [heldStore] } []).th 0).loads = [] := by decide +kernel
/-- A load whose bank still holds an unread error, and loads and stores of the brace handler. -/
def marked : Thread := { th0 with normal := { Bank.clear with ldErr := some (6, 0) } }
theorem wit_ScratchLoadAndStore_mark : ((run { marked with loads := [scratchLoad] } []).th 0).loads = scratchLoad :: [] ∧
    ((run { marked with loads := [scratchLoad] } []).bankOf 0 .normal).ldErr.isSome = true ∧
    ((run { th0 with loads := [{ scratchLoad with sel := .brace }] } []).th 0).loads = { scratchLoad with sel := .brace } :: [] ∧
    (run { th0 with loads := [{ scratchLoad with sel := .brace }] } []).locked (engOf 0) = false := by decide +kernel
theorem wit_ScratchLoadAndStore_inv : (run { th0 with stores := [heldStore] } []).Inv := by constructor <;> decide +kernel
def errLoad (o : Bool) : LoadRec := ⟨0, o, .normal, .ld32u, 0x100000000, .err 0x19⟩
def errStore : StoreRec := ⟨0, 5, .normal, .st32, 0x100000000, 0, .err 0x41⟩
theorem wit_MemoryErrors : ((run { th0 with loads := [errLoad true] } []).th 0).loads = errLoad true :: [] ∧ (errLoad true).old = true ∧
    (errLoad false).old = false ∧ (errLoad false).sel ≠ .brace ∧ (run { th0 with loads := [errLoad false] } []).locked (engOf 0) = false ∧
    ((run { th0 with loads := [errLoad false] } []).bankOf 0 .normal).ldErr = none ∧
    ((run { th0 with stores := [errStore] } []).th 0).stores = errStore :: [] ∧ errStore.sel ≠ .brace ∧
    ((run { th0 with stores := [errStore] } []).th 0).loads = [] ∧ ((run { th0 with stores := [errStore] } []).th 0).spill = none := by
  decide +kernel

theorem wit_MemoryErrors_brace : ((run { th0 with loads := [{ errLoad false with sel := .brace }] } []).th 0).loads =
      { errLoad false with sel := .brace } :: [] ∧
    ((run { th0 with stores := [{ errStore with sel := .brace }] } []).th 0).stores = { errStore with sel := .brace } :: [] ∧
    ((run { marked with loads := [errLoad false] } []).bankOf 0 .normal).ldErr.isSome = true ∧
    (run { th0 with stores := [errStore] } []).locked (engOf 0) = false := by decide +kernel
theorem wit_MemoryErrors_inv : (run { th0 with stores := [errStore] } []).Inv ∧
    (run { th0 with stores := [{ errStore with sel := .brace }] } []).Inv := by refine ⟨?_, ?_⟩ <;> constructor <;> decide +kernel

/-- A transfer at scratch, and one at DRAM with the store buffer empty. -/
def dramSpill : Thread := { th0 with spill := some ⟨.save 0, .normal, 0x1000000000⟩ }
theorem wit_SpillTriggers_go : regionOf 0x1000000000 = .dram 0 ∧ ((run dramSpill []).th 0).stores = [] ∧
    (run dramSpill []).xferOf (.spill 0) = none ∧ regionOf 0 = .scratch 0 ∧
    ((run { th0 with stores := [errStore] } []).th 0).resident = true ∧ ((run { th0 with stores := [errStore] } []).th 0).task = errStore.task ∧
    ((run { th0 with task := 6, stores := [errStore] } []).th 0).task ≠ errStore.task := by decide +kernel

/-- SPILL_PTR at scratch; a thread in its shadow bank with XSP 512. -/
def atSpill : Thread := { th0 with normal := { Bank.clear with spill := 0 } }
def inShadow (armed : Bool) (xsp : BitVec 40) : Thread :=
  { th0 with sel := .shadow, armed := armed, xsp := xsp, exc := { ExcRec.clear with epc := 9, enpc := 10, ring := 1 } }
/-- The factory exception spill window: scratch, open to all rings. -/
def xwin : List (Nat × W32) := []
theorem wit_SpillTriggers : canRun (run atSpill []) ∧ ((run atSpill []).atTrigger 0).spillBusy (engOf 0) = false ∧
    ((0x30000 : W64).toNat % 65536 = 0 ∧ (0x30000 : W64).toNat < 2 ^ 40) ∧ (0x30001 : W64).toNat % 65536 ≠ 0 ∧ 2 ^ 40 ≤ (0x10000000000 : W64).toNat ∧
    ((0x3FE00 : W64).toNat / 65536 % 16 < 4 ∧ (0x3FE00 : W64).toNat % 65536 % 64 = 0 ∧
      (0x3FE00 : W64).toNat % 65536 + blkBytes 3 ≤ 65536 ∧ spillRange 0xFE00 (blkBytes 3) = true) ∧
    4 ≤ (0x40000 : W64).toNat / 65536 % 16 ∧ (0x00020 : W64).toNat % 65536 % 64 ≠ 0 ∧ 65536 < (0xFFC0 : W64).toNat % 65536 + blkBytes 0 ∧
    spillRange 0x40000 (blkBytes 0) = false := by decide +kernel
theorem wit_SpillTriggers_save : canRun (run (inShadow false 0) xwin) ∧
    (((run (inShadow false 0) xwin).atTrigger 0).th 0).sel = .shadow ∧ (((run (inShadow false 0) xwin).atTrigger 0).th 0).armed = false ∧
    ((run (inShadow false 0) xwin).atTrigger 0).xspFails 0 (some 0) = 0 ∧ canRun (run (inShadow true 512) xwin) ∧
    512 ≤ (((run (inShadow true 512) xwin).atTrigger 0).th 0).xsp.toNat ∧
    ((run (inShadow true 512) xwin).atTrigger 0).xspFails 0 (some 0) = 0 := by decide +kernel

def sp (k : SpillKind) : SpillRec := ⟨k, .shadow, 0⟩
def spilling (k : SpillKind) : State := run { inShadow false 0 with spill := some (sp k), ring := 1 } xwin
theorem wit_SpillTransferEnd : (spilling .xsave).locked (engOf 0) = false ∧ ((spilling .xsave).th 0).spill = some (sp .xsave) ∧
    ((spilling .xsave).th 0).stores = [] ∧ regionOf (sp .xsave).addr = .scratch 0 ∧ (sp (.restore 0)).kind = .restore 0 ∧
    (spilling .xrestore).sleeping = false ∧
    BitVec.ofNat 2 ((spilling .xrestore).bytes (scratchKey (engOf 0) 0 + 0x1B0) 4 / 2 ^ 9) < ((spilling .xrestore).th 0).ring := by
  decide +kernel
theorem wit_SpillTransferEnd_inv : (spilling .xsave).Inv ∧ (spilling (.restore 0)).Inv ∧ (spilling .xrestore).Inv := by
  refine ⟨?_, ?_, ?_⟩ <;> constructor <;> decide +kernel

/-- The transfer of an exception save at DRAM, over without and with an error. -/
def spillXfer (err : Option Nat) : Xfer := ⟨0, .spill 0, 0, 0, 32, true, 0x1000000000, 512, none, 512, 512, 0, 0, [], err⟩
def dramSpilled (err : Option Nat) : State :=
  { run { inShadow false 0 with spill := some ⟨.xsave, .shadow, 0x1000000000⟩ } [] with xfers := [spillXfer err] }
theorem wit_SpillTransferEnd_dram : ((dramSpilled none).th 0).spill = some ⟨.xsave, .shadow, 0x1000000000⟩ ∧
    ((dramSpilled none).th 0).stores = [] ∧ regionOf 0x1000000000 = .dram 0 ∧ (dramSpilled none).sleeping = false ∧
    (dramSpilled none).xferOf (.spill 0) = some (spillXfer none) ∧ (spillXfer none).over = true ∧ (spillXfer none).err = none ∧
    (dramSpilled (some 2)).xferOf (.spill 0) = some (spillXfer (some 2)) ∧ (spillXfer (some 2)).over = true ∧
    (spillXfer (some 2)).err = some 2 := by decide +kernel
/-- A SAVE, a RESTORE of block 3, and the ends of transfers in each ring and on a locked engine. -/
theorem wit_SpillTransferEnd_kinds : ((spilling (.save 3)).th 0).spill = some (sp (.save 3)) ∧ (sp (.save 3)).kind = .save 3 ∧
    ((spilling (.save 3)).th 0).sel = .shadow ∧ th0.sel = .normal ∧ (sp (.save 3)).sel ≠ .brace ∧ AccRes.err 2 ≠ .ok ∧
    (sp (.restore 3)).kind = .restore 3 ∧ (sp .nested).kind = .nested ∧
    (excOfImage []).ring < (((spilling .nested).spillOver 0).th 0).ring ∧
    ¬ (excOfImage []).ring < (((run { inShadow false 512 with spill := some (sp .nested) } []).spillOver 0).th 0).ring ∧
    ({ spilling .xsave with regs := [(aEng 0 0, 3)] }).locked (engOf 0) = true ∧ Bank.clear.ldErr = none ∧
    Bank.clear.b.getLsbD 0 = true ∧ ExcRec.clear.depth < 64 ∧ ExcRec.clear.slot < 8 := by decide +kernel
theorem wit_SpillTransferEnd_saveInv : (spilling (.save 3)).Inv := by constructor <;> decide +kernel

/- Witnesses: control, gates and exceptions ------------------------------------------------------------ -/

def deep : Thread := { th0 with stack := List.replicate 32 ⟨3, 0⟩ }
theorem wit_JumpsCallsLoops : canRun (run th0 []) ∧ (((run th0 []).atTrigger 0).th 0).stack.length < 32 ∧
    canRun (run deep []) ∧ 32 ≤ (((run deep []).atTrigger 0).th 0).stack.length := by decide +kernel
theorem wit_JumpsCallsLoops_inv : (run th0 []).Inv := by constructor <;> decide +kernel

/-- Gate 63 is open to ring 1, gate 0 to no ring. -/
def caller : Thread := { th0 with ring := 1, stack := [⟨7, 2⟩] }
def gates : List (Nat × W32) := [(aEng 0 0x1FC, 0x82000400)]
theorem wit_GateAndReturn : canRun (run caller gates) ∧ (((run caller gates).atTrigger 0).th 0).ds = false ∧
    (((run caller gates).atTrigger 0).rd (aEng (engOf 0) (0x100 + 4 * ((63 : W64).toNat % 64)))).getLsbD 31 = true ∧
    (((run caller gates).atTrigger 0).rd (aEng (engOf 0) (0x100 + 4 * ((63 : W64).toNat % 64)))).getLsbD (24 + 1) = true ∧
    (((run caller gates).atTrigger 0).rd (aEng (engOf 0) (0x100 + 4 * ((0 : W64).toNat % 64)))).getLsbD 31 = false ∧
    (((run caller gates).atTrigger 0).th 0).stack = ⟨7, 2⟩ :: [] ∧ BitVec.ofNat 17 (7 : W64).toNat = 7 ∧ (1 : Ring) ≤ 2 ∧
    BitVec.ofNat 17 (8 : W64).toNat ≠ 7 ∧ canRun (run { caller with ring := 3 } gates) ∧ (2 : Ring) < 3 ∧
    canRun (run { caller with stack := [] } gates) ∧ canRun (run { caller with ds := true } gates) := by decide +kernel
theorem wit_GateAndReturn_full : canRun (run { caller with stack := List.replicate 32 ⟨0, 1⟩ } gates) ∧
    32 ≤ (((run { caller with stack := List.replicate 32 ⟨0, 1⟩ } gates).atTrigger 0).th 0).stack.length := by decide +kernel
theorem wit_GateAndReturn_inv : (run caller gates).Inv ∧ (run { caller with ds := true } gates).Inv ∧
    (run { caller with stack := [] } gates).Inv ∧ (run { caller with ring := 3 } gates).Inv := by
  refine ⟨?_, ?_, ?_, ?_⟩ <;> constructor <;> decide +kernel

def braced : State :=
  { run { inShadow false 0 with sel := .brace } [] with regs := [(aEng 0 0, 5)], engs := [(0, { EngSt.init with braced := some 0 })] }
def killed : State := { braced with tasks := [(5, { task5 with state := .ended })] }
theorem wit_ReturnFromException : canRun (run (inShadow false 0) []) ∧ (((run (inShadow false 0) []).atTrigger 0).th 0).ds = false ∧
    (((run (inShadow false 0) []).atTrigger 0).th 0).stack.length = (((run (inShadow false 0) []).atTrigger 0).th 0).exc.depth ∧
    canRun (run (inShadow true 512) []) ∧ canRun (run { inShadow false 0 with stack := [⟨0, 0⟩] } []) ∧ 1 ≠ ExcRec.clear.depth ∧
    canRun (run th0 []) ∧ canRun (run { inShadow false 512 with xdepth := 1 } xwin) ∧
    ((run { inShadow false 512 with xdepth := 1 } xwin).atTrigger 0).xspFails 0 (some (512 - 512)) = 0 ∧
    canRun braced ∧ ((braced.atTrigger 0).th 0).sel = .brace ∧ ((braced.atTrigger 0).task 5).state ≠ .ended ∧
    canRun killed ∧ ((killed.atTrigger 0).th 0).sel = .brace ∧ ((killed.atTrigger 0).task 5).state = .ended := by decide +kernel
/-- In a delay slot; at a depth with XSP below 512. -/
theorem wit_ReturnFromException_stops : canRun (run { inShadow false 0 with ds := true } []) ∧ canRun (run { th0 with ds := true } []) ∧
    (((run { inShadow false 0 with ds := true } []).atTrigger 0).th 0).sel ≠ .normal ∧
    canRun (run { inShadow false 0 with xdepth := 1 } xwin) ∧
    (((run { inShadow false 0 with xdepth := 1 } xwin).atTrigger 0).th 0).stack.length = ExcRec.clear.depth ∧
    ((run { inShadow false 0 with xdepth := 1 } xwin).atTrigger 0).xspFails 0 (xspBelow 0) ≠ 0 := by decide +kernel
theorem wit_ReturnFromException_inv : (run (inShadow false 0) []).Inv ∧ braced.Inv ∧ killed.Inv := by
  refine ⟨?_, ?_, ?_⟩ <;> constructor <;> decide +kernel

def faulted (t : Thread) : State := run { t with fault := some ⟨0x1B, 0, 0⟩ } []
theorem wit_ExceptionEntry : ((faulted th0).th 0).sel ≠ .brace ∧ (6 < (0x1B : BitVec 8).toNat) ∧
    ((faulted th0).atTrigger 0).selected 0 = some 0 ∧ (((faulted th0).atTrigger 0).th 0).fault = some ⟨0x1B, 0, 0⟩ ∧
    ((faulted (inShadow true 0)).atTrigger 0).selected 0 = some 0 ∧ (inShadow true 0).armed = true ∧ (inShadow true 0).xdepth < 15 ∧
    ((faulted (inShadow false 0)).atTrigger 0).selected 0 = some 0 ∧ ¬((inShadow false 0).armed = true ∧ (inShadow false 0).xdepth < 15) ∧
    ((faulted { inShadow true 0 with xdepth := 15 }).atTrigger 0).selected 0 = some 0 := by decide +kernel
theorem wit_ExceptionEntry_inv : (faulted th0).Inv ∧ (faulted (inShadow true 0)).Inv ∧ (faulted (inShadow false 0)).Inv := by
  refine ⟨?_, ?_, ?_⟩ <;> constructor <;> decide +kernel

/-- Causes 3 and 6; a fault of the brace handler; a brace entry that is due; a signal of class 0x43 among others; a signal at depth 15. -/
def signalled (t : Thread) : State := run { t with sigs := [(0x44, 1), (0x43, 2), (0x43, 3)] } []
def dueBrace : State := run { inShadow false 0 with brEntry := some ⟨0x43, 5, 7⟩ } []
theorem wit_ExceptionEntry_signals : ((3 : BitVec 8).toNat < 3 ∨ (3 : BitVec 8) = 0x03) ∧ ((braced.th 0).sel = .brace) ∧
    (dueBrace.landShort 0).selected 0 = some 0 ∧ ((dueBrace.landShort 0).th 0).fault = none ∧
    ((dueBrace.landShort 0).th 0).brEntry = some ⟨0x43, 5, 7⟩ ∧
    ((signalled th0).landShort 0).selected 0 = some 0 ∧ (((signalled th0).landShort 0).th 0).fault = none ∧
    (((signalled th0).landShort 0).th 0).brEntry = none ∧
    (((signalled th0).landShort 0).th 0).sigs = [(0x44, 1)] ++ (0x43, 2) :: [(0x43, 3)] ∧
    ([((0x44 : BitVec 8), (1 : W64))].all fun q => decide (sigPrio 0x43 < sigPrio q.1)) = true ∧
    ([((0x43 : BitVec 8), (3 : W64))].all fun q => decide (sigPrio 0x43 ≤ sigPrio q.1)) = true ∧
    ((signalled { inShadow true 0 with xdepth := 15 }).landShort 0).selected 0 = some 0 ∧ ((signalled th0).sleeping = false) := by
  decide +kernel
theorem wit_ExceptionEntry_signalsInv : (signalled th0).Inv ∧ dueBrace.Inv ∧ (signalled { inShadow true 0 with xdepth := 15 }).Inv := by
  refine ⟨?_, ?_, ?_⟩ <;> constructor <;> decide +kernel
/-- Engine 0 of tasks that are resident, and one that is locked. -/
theorem wit_ExceptionEntry_lockup : (run th0 []).locked (engIx ⟨0, 0⟩) = false ∧ 0 ∈ slotsOf (engIx ⟨0, 0⟩) ∧
    ((run th0 []).th 0).resident = true ∧ ((run th0 []).th 0).task = 5 ∧ ((run th0 []).task 5).state = .ready ∧
    ({ run th0 [] with regs := [(aEng 0 0, 3)] }).locked (engIx ⟨0, 0⟩) = true ∧ 8 ∉ slotsOf (engIx ⟨0, 0⟩) := by decide +kernel

/-- PC 0 holds the word of zeros, PC 1 and all others the fault word. -/
def program : State := { run th0 [] with prog := [(0, 0)], progOn := true }
def program1 : State := { run { th0 with pc := 1 } [] with prog := [(0, 0)], progOn := true }
theorem wit_WholeInstruction : (program.landShort 0).mayRun 0 = true ∧ (program.landShort 0).instrAt 0 = 0 ∧
    (program1.landShort 0).mayRun 0 = true ∧ (program1.landShort 0).instrAt 1 = faultWord := by decide +kernel
/-- PC 0 holds `w`; the divider is at work. -/
def runsWord (w : W128) : State := { run { th0 with ops := [zeroRun] } [] with prog := [(0, w)], progOn := true }
/-- 3 → W5; DIV.QUOT → W0, which waits; a read of a port that is none; a write to one; SETPTR 1. -/
theorem wit_WholeInstruction_moves : ((runsWord 0x803205).landShort 0).mayRun 0 = true ∧ (runsWord 0x803205).progPois 0 0 = false ∧
    movesOf 0x803205 1 = [moveAt 0x803205 0, moveAt 0x803205 1, moveAt 0x803205 2, moveAt 0x803205 3] ∧
    (((runsWord 0x141200).atTrigger 0).srcWait 0 (moveAt 0x141200 0)) = some (.result .div) ∧
    ((runsWord 0x141200).atTrigger 0).holds 0 (.result .div) = true ∧
    (((runsWord 0x1200).atTrigger 0).srcFault 0 (((runsWord 0x1200).atTrigger 0).cur 0) (moveAt 0x1200 0)).isSome = true ∧
    ((movesOf 0x803001 1).all fun m => (((runsWord 0x803001).atTrigger 0).srcFault 0 (((runsWord 0x803001).atTrigger 0).cur 0) m).isNone) = true ∧
    (((runsWord 0x803001).atTrigger 0).dstFaults 0 [] (movesOf 0x803001 1)).length = 1 ∧
    ((runsWord 0x801448).atTrigger 0).dstFaults 0 [] (movesOf 0x801448 1) = [] ∧
    (((runsWord 0x801448).atTrigger 0).trigFaults 0 (((runsWord 0x801448).atTrigger 0).cur 0) .setptr 1 0x448 0).length = 1 ∧
    ((runsWord 0x803205).atTrigger 0).dstFaults 0 [] (movesOf 0x803205 1) = [] := by decide +kernel
theorem wit_WholeInstruction_movesInv : (runsWord 0x803205).Inv ∧ (runsWord 0x141200).Inv ∧ (runsWord 0x1200).Inv ∧ (runsWord 0x803001).Inv ∧
    (runsWord 0x801448).Inv := by refine ⟨?_, ?_, ?_, ?_, ?_⟩ <;> constructor <;> decide +kernel
/-- Moves of 1 and 2 to W5, to a guard, to the mask, to a channel; ALU ADD; JUMP; loop level 0 at work. -/
def moved : List (Move × W64) := [(moveAt 0x801205 0, 1), (moveAt 0x802205 0, 2)]
def looping : Bank := { Bank.clear with loop0 := ⟨7, true, 2⟩ }
theorem wit_CommittedMoves : ((run th0 []).th 0).phase = .run ∧ moved = [(moveAt 0x801205 0, 1)] ++ (moveAt 0x802205 0, 2) :: [] ∧
    (dstPort (moveAt 0x802205 0).d matches .w 5) = true ∧ (dstPort (moveAt 0x801221 0).d matches .b 1) = true ∧
    (dstPort (moveAt 0x801228 0).d matches .bmask) = true ∧ (dstPort (moveAt 0x801040 0).d matches .latch 0) = true ∧
    dstPort (moveAt 0x803048 0).d = .trig (.alu 0 .add) ∧ dstPort (moveAt 0x803308 0).d = .trig (.jump false) ∧
    (moved.all fun p => !(dstPort p.1.d matches .trig _)) = true ∧ looping.loop1.active = false ∧ looping.loop0.active = true ∧
    looping.loop0.count ≠ 0 ∧ iwLoopend (2 ^ 127) = true ∧ iwLoopend 0x803205 = false ∧ ((run th0 []).th 0).ds = false := by decide +kernel
theorem wit_CommittedMoves_inv : (run th0 []).Inv := by constructor <;> decide +kernel
theorem wit_WholeInstruction_inv : program.Inv ∧ program1.Inv := by
  refine ⟨?_, ?_⟩ <;> constructor <;> decide +kernel
/- Witnesses: streams, events and debug ---------------------------------------------------------------- -/

def granted (g : BitVec 24) (t : Thread) : State := { run t [] with grants := [(5, g)] }
def oneWord : ThrSt := { ThrSt.init with out := [0x21] }
theorem wit_Streams : canRun (granted 0xFFFFFF th0) ∧ ((granted 0xFFFFFF th0).atTrigger 0).pxFull 15 = false ∧
    ((granted 0xFFFFFF th0).atTrigger 0).grantOf 5 15 = true ∧ (run th0 []).grantOf 5 15 = false ∧
    ((granted 0xFFFFFF th0).atTrigger 0).grantOf 5 (16 + 3) = true ∧ ((granted 0xFFFFFF th0).thrs 3).assist.length < 64 ∧
    ((granted 0xFFFFFF th0).atTrigger 0).grantOf 5 (20 + 3) = true ∧ (run th0 []).grantOf 5 (20 + 3) = false ∧
    ((granted 0xFFFFFF th0).thrs 3).pushed.2 = [] ∧
    64 ≤ ({ granted 0xFFFFFF th0 with thr := [(3, { ThrSt.init with assist := List.replicate 64 0 })] }.thrs 3).assist.length ∧
    ((run { th0 with pulls := [(3, .normal)] } []).th 0).pulls = (3, .normal) :: [] ∧
    ((run { th0 with pulls := [(3, .normal)] } []).thrs 3).out = [] ∧
    ({ run { th0 with pulls := [(3, .normal)] } [] with thr := [(3, oneWord)] }.thrs 3).out = 0x21 :: [] := by decide +kernel
/-- Engines 0 and 5 pushed in this ECLK cycle, then engine 3; pushes of a bank other than the normal one; a full queue; no grant. -/
theorem wit_Streams_more : (((9 : Nat), [0, 5]) = (9, [0] ++ [5])) ∧ ([(1 : W128), 2] = [1] ++ [2]) ∧ (∀ j ∈ [0], j ≤ 3) ∧ (∀ j ∈ [5], 3 < j) ∧
    ((9 : Nat), ([] : List Nat)).1 ≠ 10 ∧ canRun (run th0 []) ∧ ((run th0 []).atTrigger 0).grantOf 5 (16 + 3) = false ∧
    ((run { th0 with pulls := [(3, .brace)] } []).th 0).pulls = (3, .brace) :: [] ∧
    (({ granted 0xFFFFFF th0 with px := [(15, { PxSt.init with cross := List.replicate 512 0 })] }).atTrigger 0).pxFull 15 = true := by
  decide +kernel
theorem wit_Streams_inv : (run { th0 with pulls := [(3, .normal)] } []).Inv ∧
    ({ run { th0 with pulls := [(3, .normal)] } [] with thr := [(3, oneWord)] }).Inv := by
  refine ⟨?_, ?_⟩ <;> constructor <;> decide +kernel

/-- Task 5 with class 3 pending, and with none; ring 1 and ring 2. -/
def pends (r : Ring) : State := { run { th0 with ring := r } [] with tasks := [(5, { task5 with pend := 8 })] }
theorem wit_EventUnit : canRun (pends 1) ∧ BitVec.ofNat 32 (0 : W64).toNat = 0 ∧ canRun (run th0 []) ∧
    (BitVec.ofNat 32 (0x8 : W64).toNat ≠ 0 ∧ BitVec.ofNat 32 (0x8 : W64).toNat ≠ 0x80000000 ∧
      (BitVec.ofNat 32 (0x8 : W64).toNat).getLsbD 5 = false) ∧
    ((run th0 []).task 5).state = .ready ∧ ((run th0 []).task 5).pend &&& 8 = 0 ∧ (((run th0 []).atTrigger 0).th 0).sigs = [] ∧
    canRun (run { th0 with sel := .shadow, sigs := [(0x44, 0)] } []) ∧
    (((run { th0 with sel := .shadow, sigs := [(0x44, 0)] } []).atTrigger 0).th 0).sigs ≠ [] ∧
    ((pends 1).task 5).paging = false ∧ ((pends 1).task 5).pend &&& 8 ≠ 0 ∧ (((pends 1).atTrigger 0).th 0).ring.toNat < 2 ∧
    ((0x19FFF : W64).toNat % 65536 < 40960 ∧ (0x19FFF : W64).toNat / 65536 % 32 ≠ 31) ∧ 40960 ≤ (0xA000 : W64).toNat % 65536 ∧
    canRun (pends 2) ∧ 2 ≤ (((pends 2).atTrigger 0).th 0).ring.toNat := by decide +kernel
/-- The mask that ends the task; class 5 with a word in the output queue that OBJ names; class 31; a task that is not READY. -/
def eventBank (o : W64) : Bank := { Bank.clear with latch := Bank.clear.latch.set 19 o }
def withOut : State := { run { th0 with normal := eventBank 0xFFFFFFFF } [] with thr := [(3, oneWord)] }
theorem wit_EventUnit_more : BitVec.ofNat 32 (0x80000000 : W64).toNat = 0x80000000 ∧ canRun withOut ∧
    ((withOut.atTrigger 0).thrs 3).out ≠ [] ∧ BitVec.ofNat 32 ((((withOut.atTrigger 0).cur 0).latch[19]).toNat) = 0xFFFFFFFF ∧
    (BitVec.ofNat 32 (0x20 : W64).toNat).getLsbD 5 = true ∧ ((withOut.atTrigger 0).task 5).state = .ready ∧
    (0x1F0005 : W64).toNat / 65536 % 32 = 31 ∧ (0x1F0005 : W64).toNat % 65536 < 40960 ∧
    canRun killed ∧ ((killed.atTrigger 0).task 5).state ≠ .ready := by decide +kernel
theorem wit_EventUnit_moreInv : withOut.Inv := by constructor <;> decide +kernel
theorem wit_EventUnit_inv : (run th0 []).Inv ∧ (pends 1).Inv := by refine ⟨?_, ?_⟩ <;> constructor <;> decide +kernel

theorem wit_DebugAndCounters : canRun (run th0 [(aEng 0 0x28, 2)]) ∧ ((run th0 [(aEng 0 0x28, 2)]).atTrigger 0).bit (aEng 0 0x28) 1 = true ∧
    ((run th0 [(aEng 0 0x28, 2)]).atTrigger 0).bit (aEng 0 0x28) 2 = false ∧ ((run th0 []).atTrigger 0).bit (aEng 0 0x28) 1 = false ∧
    ((run th0 []).atTrigger 0).bit (aEng 0 0x28) 2 = true ∧ (run th0 []).sleeping = false := by decide +kernel

/- Witnesses: the Culm -------------------------------------------------------------------------------- -/

/-- Channel 1023 is routed in slot 0, frame 0, bound to engine 0 of Sheaf 0; `ch` are its buffers, `f` what is under way. -/
def culm (ch : Chan) (f : List Flight) (cap : W32) : State :=
  { up with regs := [(aCulm 0x18, cap), (aCulm (0x8000 + 8 * 1023), 0x80000000)].filter (fun x => x.2 ≠ regReset x.1),
            chans := [(1023, ch)].filter (fun x => x.2 ≠ Chan.init), flights := f, eclk := if f = [] then 0 else 200 }
def flying (lost : Bool) : Flight := ⟨1023, 7, 0, lost⟩
theorem wit_CulmSlot : (culm ⟨some 7, none, false, 0⟩ [] 0).slotNow 1023 = true ∧
    ((culm ⟨some 7, none, false, 0⟩ [] 0).collide.chan 1023).send = some 7 ∧ (culm Chan.init [] 0).slotNow 1023 = true ∧
    ((culm Chan.init [] 0).collide.chan 1023).send = none ∧ (culm ⟨none, none, false, 1⟩ [] 0).slotNow 1023 = false := by decide +kernel
theorem wit_CulmDelivery : (culm Chan.init [flying false] 0).collide.nclk = some 100 ∧
    (culm Chan.init [flying false] 0).collide.takeFlight 1023 100 (culm Chan.init [flying false] 0).collide.flights = some (flying false, []) ∧
    (culm Chan.init [flying false] 0).collide.physOf
      ((culm Chan.init [flying false] 0).collide.bind 1023 0 4) ((culm Chan.init [flying false] 0).collide.bind 1023 4 3) ≠ none ∧
    ((culm Chan.init [flying false] 0).collide.chan 1023).rx = none ∧ ((culm Chan.init [flying false] 0).collide.chan 1023).poison = false ∧
    (culm Chan.init [flying true] 0).collide.takeFlight 1023 100 (culm Chan.init [flying true] 0).collide.flights = some (flying true, []) ∧
    ((culm ⟨none, some 1, false, 0⟩ [flying false] 0).collide.chan 1023).rx ≠ none ∧
    ((culm ⟨none, none, true, 0⟩ [flying false] 0).collide.chan 1023).poison = true ∧
    (culm ⟨none, some 1, false, 0⟩ [flying false] 0).collide.bit (aCulm 0x18) 31 = false ∧
    (culm ⟨none, some 1, false, 0⟩ [flying false] 0x80000002).collide.bit (aCulm 0x18) 31 = true := by decide +kernel
theorem wit_CulmDelivery_inv : (culm ⟨none, some 1, false, 0⟩ [flying false] 0).Inv ∧
    (culm ⟨none, some 1, false, 0⟩ [flying false] 0x80000002).Inv := by refine ⟨?_, ?_⟩ <;> constructor <;> decide +kernel
theorem wit_CulmCounters : up.sleeping = false ∧ up.Inv := ⟨rfl, by constructor <;> decide +kernel⟩

/- Witnesses: the Granary ------------------------------------------------------------------------------ -/

def asleep5 : TaskRec := { TaskRec.absent with state := .asleep, mask := 8, inSlot := true }
def event (t : Option Nat) : EvReq := ⟨1, t, 3, 0⟩
def withTask (r : TaskRec) (t : Option Nat) : State := { run th0 [] with tasks := [(5, r)], evq := [event t] }
theorem wit_Events : nextEv (withTask asleep5 (some 6)).evq = some (event (some 6), []) ∧ ((withTask asleep5 (some 6)).task 6).state = .none ∧
    nextEv (withTask task5 (some 5)).evq = some (event (some 5), []) ∧ ((withTask task5 (some 5)).task 5).state = .ready ∧
    ((withTask asleep5 (some 5)).task 5).state = .asleep ∧
    (((withTask asleep5 (some 5)).task 5).pend ||| (1 <<< 3)) &&& ((withTask asleep5 (some 5)).task 5).mask ≠ 0 ∧
    ((withTask asleep5 (some 5)).task 5).paging = false ∧ (withTask asleep5 (some 5)).slotOfTask 5 = some 0 ∧
    ({ withTask asleep5 (some 5) with ths := [] }).slotOfTask 5 = none ∧ nextEv (withTask asleep5 none).evq = some (event none, []) ∧
    (event none).task = none ∧ (withTask asleep5 none).intakeFree = true ∧ up.evq = [] ∧
    { up with intake := [1, 1, 1, 1] }.intakeFree = false := by decide +kernel
theorem wit_Events_inv : (withTask task5 (some 5)).Inv ∧ (withTask asleep5 (some 5)).Inv := by
  refine ⟨?_, ?_⟩ <;> constructor <;> decide +kernel

/-- Task 5 waits since time 0, with GRN.TIME `t`. -/
def waiting (p : Nat) (t : W32) : State :=
  { up with tasks := [(5, { TaskRec.absent with state := .ready, prio := p, affinity := 1, urg := .idle })],
            regs := [(aGrn 0x14, t)].filter (fun x => x.2 ≠ regReset x.1) }
theorem wit_TimeAndUrgency : (waiting 6 99).culmStart ≠ none ∧ (waiting 6 99).stopped = false ∧ ((waiting 6 99).task 5).outside = true ∧
    ((waiting 6 99).task 5).urgent = false ∧ ((waiting 6 99).task 5).prio < 7 ∧ (waiting 6 99).rf (aGrn 4) 0 20 ≠ 0 ∧
    ((waiting 6 99).grnTime + 1 - ((waiting 6 99).task 5).stamp).toNat ≤ 2 ^ 23 ∧ ((waiting 6 99).task 4).outside = false ∧
    (waiting 7 2000).rf (aGrn 8) 0 20 ≠ 0 ∧ (waiting 7 2000).rf (aGrn 8) 0 20 ≤ (waiting 7 2000).waitOf ((waiting 7 2000).task 5) ∧
    (waiting 7 1999).waitOf ((waiting 7 1999).task 5) < (waiting 7 1999).rf (aGrn 8) 0 20 ∧
    ((run th0 [(aGrn 0x14, 1)]).task 5).quantum + 1 ≤ ((run th0 [(aGrn 0x14, 1)]).grnTime - ((run th0 []).task 5).runTime).toNat ∧
    ((run th0 []).grnTime - ((run th0 []).task 5).runTime).toNat < ((run th0 []).task 5).quantum + 1 := by decide +kernel
/-- Task 5 waits urgently; or with AGE_TICK 0. -/
def urgent5 : State := { up with tasks := [(5, { TaskRec.absent with state := .ready, prio := 6, affinity := 1, urgent := true })] }
def noAge : State := { waiting 6 99 with regs := [(aGrn 4, 0), (aGrn 0x14, 99)] }
theorem wit_TimeAndUrgency_held : (urgent5.task 5).outside = true ∧ (urgent5.task 5).urgent = true ∧ ((waiting 7 99).task 5).outside = true ∧
    ((waiting 7 99).task 5).prio = 7 ∧ (noAge.task 5).outside = true ∧ (noAge.task 5).urgent = false ∧ (noAge.task 5).prio ≠ 7 ∧
    noAge.rf (aGrn 4) 0 20 = 0 ∧ 2 ^ 23 < ((waiting 6 0x800001).grnTime + 1 - ((waiting 6 0x800001).task 5).stamp).toNat := by decide +kernel
theorem wit_TimeAndUrgency_inv : (waiting 6 99).Inv ∧ (waiting 7 99).Inv ∧ (waiting 6 0x800001).Inv ∧ urgent5.Inv ∧ noAge.Inv := by
  refine ⟨?_, ?_, ?_, ?_, ?_⟩ <;> constructor <;> decide +kernel

def ready6 : TaskRec := { TaskRec.absent with state := .ready, affinity := 1 }
/-- Engine 0 with all its slots empty, and with a saveable sleeper in each of them; task 6 waits. -/
def empty0 : State := { up with regs := [(aEng 0 0, 1)], tasks := [(6, ready6)] }
def sleepers : State := { up with
  regs := [(aEng 0 0, 1)], ths := (List.range 8).map fun j => (j, { th0 with task := 10 + j, asleep := true }),
  tasks := (6, ready6) :: (List.range 8).map fun j => (10 + j, { asleep5 with slot := j }) }
/-- Every slot holds a ready task below task 6. -/
def runners : State := { up with
  regs := [(aEng 0 0, 1)], ths := (List.range 8).map fun j => (j, { th0 with task := 10 + j }), roundStart := true,
  tasks := (6, { ready6 with eprio := 7 }) :: (List.range 8).map fun j => (10 + j, { task5 with slot := j, expired := true }) }
theorem wit_RoundsAndGrants : empty0.culmStart ≠ none ∧ empty0.stopped = false ∧ empty0.physOf 0 0 = some 0 ∧ empty0.inBrace 0 = false ∧
    empty0.locked 0 = false ∧ empty0.mapped 0 = true ∧ empty0.bit (aShf 0 4) 16 = false ∧
    empty0.pick 0 0 1 (empty0.routeSlots 0 1) = some (0, 6) ∧ sleepers.pick 0 0 1 (sleepers.routeSlots 0 1) = none ∧
    sleepers.pick 0 0 2 (sleepers.routeSlots 0 2) = some (0, 6) ∧ empty0.noneBefore 0 0 = true ∧ sleepers.noneBefore 0 0 = true ∧
    runners.noneBefore 0 0 = true ∧ runners.roundStart = true ∧ runners.pick 0 0 1 (runners.routeSlots 0 1) = none ∧
    runners.pick 0 0 2 (runners.routeSlots 0 2) = none ∧ runners.pick 0 0 3 (runners.routeSlots 0 3) = some (0, 6) ∧
    8 * 0 + 0 < { empty0 with schedAt := 1 }.schedAt ∧ 2 ≤ (busyPorts 0 { empty0 with ctxReads := [8, 8] }.ctxReads).length := by
  decide +kernel
theorem wit_RoundsAndGrants_inv : empty0.Inv ∧ sleepers.Inv ∧ runners.Inv := by refine ⟨?_, ?_, ?_⟩ <;> constructor <;> decide +kernel

def quiescing (c : Option Nat) : State := run { th0 with phase := .quiesce c } []
def leaving : State := { up with tasks := [(5, { task5 with paging := true })], pageOuts := [⟨0, 9, 0, 5, List.replicate 64 1⟩] }
/-- The context store holds task 5's context; a page-in of task 5, and of task 6. -/
def arriving (c : Nat) : State :=
  ({ up with ths := [(0, { Thread.init with phase := .incoming c })], tasks := [(5, ready6), (6, ready6)] } : State).setWords (ctxKey 5)
    (ctxWords th0)
theorem wit_Paging : ((quiescing (some 6)).th 0).phase = .quiesce (some 6) ∧ ((quiescing (some 6)).task 5).state ≠ .ended ∧
    (quiescing (some 6)).inBrace (engOf 0) = false ∧ (quiescing (some 6)).locked (engOf 0) = false ∧ (quiescing (some 6)).savable 0 = true ∧
    ((quiescing none).th 0).drained = true ∧ takePageOut 0 leaving.pageOuts = some (⟨0, 9, 0, 5, List.replicate 64 1⟩, []) ∧
    (leaving.task 5).state = .ready ∧ ((arriving 5).th 0).phase = .incoming 5 ∧ ctxTask ((arriving 5).words (ctxKey 5) 64) = 5 ∧
    (arriving 5).inBrace (engOf 0) = false ∧ { arriving 5 with regs := [(aEng 0 0, 5)] }.inBrace (engOf 0) = true ∧
    (busyPorts 0 leaving.ctxWrites).length < 2 ∧ 2 ≤ (busyPorts 0 { leaving with ctxWrites := [8, 8] }.ctxWrites).length ∧
    (⟨1, 8, 0, 7, []⟩ : PageOut).before ⟨0, 9, 0, 5, []⟩ = true ∧ th0.quiet = true ∧
    ctxTask ((arriving 6).words (ctxKey 6) 64) ≠ 6 ∧ ((arriving 6).task 6).state ≠ .ended ∧
    ({ run th0 [] with tasks := [(5, { task5 with state := .ended })] }.task 5).state = .ended ∧ th0.drained = true ∧ th0.sel ≠ .brace := by
  decide +kernel
theorem wit_Paging_inv : (quiescing (some 6)).Inv ∧ leaving.Inv ∧ (arriving 5).Inv ∧ (arriving 6).Inv := by
  refine ⟨?_, ?_, ?_, ?_⟩ <;> constructor <;> decide +kernel

def opFor (op : Nat) (arg : W32) (st : TState) : State :=
  { up with tasks := [(5, { ready6 with state := st })], taskOps := [⟨5, op, arg, none⟩] }
theorem wit_TaskOperations : (opFor 1 0 .asleep).opRefused ⟨5, 1, 0, none⟩ = false ∧ ((opFor 1 0 .asleep).task 5).state = .asleep ∧
    (opFor 1 0 .lost).opRefused ⟨5, 1, 0, none⟩ = false ∧ (opFor 2 30 .ready).opRefused ⟨5, 2, 30, none⟩ = false ∧
    (opFor 3 7 .ready).opRefused ⟨5, 3, 7, none⟩ = false ∧ (opFor 4 0xFFF .ready).opRefused ⟨5, 4, 0xFFF, none⟩ = false ∧
    (opFor 5 0 .none).opRefused ⟨5, 5, 0, none⟩ = false ∧ (opFor 4 0 .ready).opRefused ⟨5, 4, 0, none⟩ = true ∧
    (opFor 4 0 .ready).taskOps = ⟨5, 4, 0, none⟩ :: [] := by decide +kernel
/- Witnesses: pattern expanders ------------------------------------------------------------------------- -/

/-- A started device with registers `r`. -/
def dev (r : List (Nat × W32)) : State := { up with regs := r }
/-- A started device whose PX0 is `p`, with the frame clock of PG0 running and locked, and registers `r` of PX0. -/
def px (p : PxSt) (r : List (Nat × W32)) : State :=
  { dev ((aSyn 0x18, 1) :: r) with px := [(0, p)].filter (fun x => x.2 ≠ PxSt.init), pg := [(0, { PgSt.init with run := true })] }
def burstEntry : W128 := 1 <<< 124
def operandEntry : W128 := 2 <<< 124 ||| 0xFFFF <<< 64
def aBurst : Burst := ⟨0, false, 5, false, none, false, [], none, [], .algo none, false⟩
def fetching : List (Nat × W32) := [(aPx 0 8, 1), (aPx 0 0x14, 0x10), (aPx 0 0x1C, 1)]
/-- A fetch whose transfer has been answered. -/
def fetched : Xfer := ⟨0, .fetch 0, 12, 0, 32, false, 0x1000000000, 16, none, 16, 16, 16, 0, List.replicate 16 0, none⟩
def ringed (x : Xfer) : State := { px PxSt.init fetching with xfers := [x] }
theorem wit_ExpanderQueues : (px { PxSt.init with cross := [5] } []).pxState 0 ≠ 4 ∧
    ((px { PxSt.init with cross := [5] } []).pgs 0).run = true ∧ (px { PxSt.init with cross := [5] } []).bit (aPx 0 8) 0 = false ∧
    ((px { PxSt.init with cross := [5] } []).pxs 0).cross = 5 :: [] ∧
    ((px { PxSt.init with cross := [5], queue := List.replicate 511 5 } []).pxs 0).queue.length < 512 ∧
    burstOk burstEntry = true ∧ operandOk operandEntry = true ∧ burstOk 0 = false ∧ operandOk 0 = false ∧
    ((px { PxSt.init with queue := [0] } []).pxs 0).queue = 0 :: [] ∧ ((px { PxSt.init with queue := [0] } []).pxs 0).burst = none ∧
    (ringed fetched).xferOf (.fetch 0) = some fetched ∧
    fetched.over = true ∧ (ringed fetched).sleeping = false ∧ (ringed fetched).pxState 0 ≠ 4 ∧ fetched.err = none ∧
    { fetched with ans := 0 }.over = false ∧ { fetched with err := some 2 }.over = true ∧
    ({ px PxSt.init [] with pg := [] }.pgs 0).run = false ∧
    up.pxState 0 = 0 ∧ (dev [(aPx 0 4, 1)]).pxState 0 = 1 ∧ (dev [(aPx 0 4, 2)]).pxState 0 = 2 ∧
    (px { PxSt.init with burst := some aBurst } [(aPx 0 4, 3)]).pxState 0 = 3 ∧
    ((px { PxSt.init with burst := some aBurst } [(aPx 0 4, 3)]).pxs 0).burst = some aBurst ∧ aBurst.next = .algo none := by decide +kernel
/-- Fetch mode; a STOP at an edge not acted at, and of a burst that is VOID; QCOUNT below LOWWATER and not. -/
theorem wit_ExpanderQueues_more : (px PxSt.init fetching).bit (aPx 0 8) 0 = true ∧
    ((px { PxSt.init with lastEdge := 4 } []).pxs 0).lastEdge ≠ ((px { PxSt.init with lastEdge := 4 } []).pgs 0).started ∧
    ((px { PxSt.init with burst := some { aBurst with next := .void 2 } } [(aPx 0 4, 3)]).pxs 0).burst =
      some { aBurst with next := .void 2 } ∧
    (px { PxSt.init with burst := some { aBurst with next := .void 2 } } [(aPx 0 4, 3)]).pxState 0 = 3 ∧
    min 512 ((px { PxSt.init with low := 3 } [(aPx 0 8, 0x20000)]).rf (aPx 0 8) 16 10) = 2 ∧
    2 ≤ ((px { PxSt.init with low := 3 } [(aPx 0 8, 0x20000)]).pxs 0).low ∧ up.rf (aPx 0 8) 16 10 = 0 := by decide +kernel
theorem wit_ExpanderQueues_moreInv : (px { PxSt.init with burst := some { aBurst with next := .void 2 } } [(aPx 0 4, 3)]).Inv ∧
    (px { PxSt.init with cross := [5] } []).Inv := by refine ⟨?_, ?_⟩ <;> constructor <;> decide +kernel
theorem wit_ExpanderQueues_inv : (dev [(aPx 0 4, 1)]).Inv ∧ (px { PxSt.init with burst := some aBurst } [(aPx 0 4, 3)]).Inv := by
  refine ⟨?_, ?_⟩ <;> constructor <;> decide +kernel

def wanted : State := { up with startReq := true }
def joinedUp : State := { dev [(aSyn 0x100, 5)] with startReq := true }
/-- Site 255 is armed, site 0 is not; PX0 is armed and STARTING with a BURST at its head. -/
def armed : State := { px { PxSt.init with queue := [burstEntry] } [(aPx 0 0, 1), (aPx 0 4, 2)] with
  startReq := true, regs := [(aSite 255 0x14, 1), (aSyn 0x18, 1), (aPx 0 0, 1), (aPx 0 4, 2)] }
theorem wit_StartsOfBursts : up.startQualified = false ∧ wanted.startQualified = true ∧ wanted.joined = false ∧
    joinedUp.startQualified = true ∧ joinedUp.joined = true ∧ armed.startQualified = true ∧ armed.siteState 255 = 1 ∧
    armed.siteState 0 ≠ 1 ∧ armed.isArmed 0 = true ∧ ((px { PxSt.init with queue := [burstEntry] } []).pxs 0).queue = burstEntry :: [] ∧
    (px { PxSt.init with queue := [burstEntry] } []).mayStart 0 = true ∧ fld burstEntry 12 2 = 0 ∧
    (px { PxSt.init with queue := [burstEntry] } []).trainsOn 0 = false ∧ (px { PxSt.init with queue := [0] } []).mayStart 0 = false := by
  decide +kernel
theorem wit_StartsOfBursts_inv : armed.Inv ∧ (px { PxSt.init with queue := [burstEntry] } []).Inv := by
  refine ⟨?_, ?_⟩ <;> constructor <;> decide +kernel

def framing (b : Burst) : State := px { PxSt.init with burst := some b, lastEdge := 0 } [(aPx 0 4, 3)]
def ending : Ending := ⟨5, false, false, 2, 7, 9⟩
/-- PX1 beside PX0: in a LINK = 1 burst that has acted at this edge or not, or just stopped there. -/
def linkedBurst : Burst := { aBurst with link := true }
def stopped1 : Ending := ⟨5, false, true, 7, 0, 2⟩
def beside (q : PxSt) : State := { px PxSt.init [] with px := [(1, q)] }
theorem wit_FramesAndBurstEnd_link : otherPx 0 = 1 ∧ ((beside { PxSt.init with burst := some aBurst }).pxs 1).burst = some aBurst ∧
    aBurst.link = false ∧ ((beside { PxSt.init with burst := some linkedBurst }).pxs 1).burst = some linkedBurst ∧
    linkedBurst.link = true ∧ ((beside { PxSt.init with burst := some linkedBurst }).pxs 1).lastEdge = ((beside PxSt.init).pgs 0).started ∧
    ((beside { PxSt.init with burst := some linkedBurst, lastEdge := 3 }).pxs 1).lastEdge ≠ ((beside PxSt.init).pgs 0).started ∧
    { linkedBurst with next := .void 2 }.next = .void 2 ∧ linkedBurst.next = .algo none ∧
    ((beside { PxSt.init with ends := [stopped1] }).pxs 1).burst = none ∧
    ((beside { PxSt.init with ends := [stopped1] }).pxs 1).ends = [] ++ [stopped1] ∧ stopped1.link = true ∧ stopped1.cause = 7 ∧
    stopped1.first = ((beside PxSt.init).pgs 0).started ∧ ending.link = false := by decide +kernel
theorem wit_FramesAndBurstEnd_linkInv : (beside { PxSt.init with ends := [stopped1] }).Inv := by constructor <;> decide +kernel
/-- Both bursts of PG0 have LINK = 1, and have acted at the edge; or the other turns VOID there without LINK. -/
def pair (d : Burst) : State := { px PxSt.init [(aPx 0 4, 3), (aPx 1 4, 3)] with
  px := [(0, { PxSt.init with burst := some linkedBurst }), (1, { PxSt.init with burst := some d })] }
theorem wit_ExpanderQueues_both : (pair linkedBurst).sleeping = false ∧ ((pair linkedBurst).pxs 0).lastEdge = ((pair linkedBurst).pgs 0).started ∧
    (pair linkedBurst).pxState 0 = 3 ∧ ((pair linkedBurst).pxs 0).burst = some linkedBurst ∧ linkedBurst.next = .algo none ∧
    linkedBurst.link = true ∧ ((pair linkedBurst).pxs (otherPx 0)).lastEdge = ((pair linkedBurst).pgs 0).started ∧
    ((pair linkedBurst).pxs (otherPx 0)).burst = some linkedBurst ∧ aBurst.link = false ∧
    ((pair { aBurst with next := .void 2 }).pxs (otherPx 0)).burst = some { aBurst with next := .void 2 } := by decide +kernel
theorem wit_ExpanderQueues_bothInv : (pair linkedBurst).Inv ∧ (pair { aBurst with next := .void 2 }).Inv := by
  refine ⟨?_, ?_⟩ <;> constructor <;> decide +kernel
def ended (n : Nat) : State := { px { PxSt.init with ends := [ending] } [(aPx 0 4, 3)] with pg := [(0, { PgSt.init with run := true, started := n })] }
theorem wit_FramesAndBurstEnd : ((framing aBurst).pxs 0).burst = some aBurst ∧ (framing aBurst).mayFrame 0 = true ∧
    ((framing { aBurst with next := .void 2 }).pxs 0).burst = some { aBurst with next := .void 2 } ∧
    (framing { aBurst with next := .void 2 }).mayFrame 0 = true ∧ up.mayFrame 0 = false ∧ ((ended 9).pxs 0).ends = ending :: [] ∧
    ending.due ≤ ((ended 9).pgs (0 / 2)).started ∧ (ended 9).pxState 0 ≠ 4 ∧ ((ended 8).pgs (0 / 2)).started < ending.due := by decide +kernel
theorem wit_FramesAndBurstEnd_inv : (framing aBurst).Inv ∧ (framing { aBurst with next := .void 2 }).Inv ∧ (ended 9).Inv := by
  refine ⟨?_, ?_, ?_⟩ <;> constructor <;> decide +kernel

/- Witnesses: compare, fail records and the Threshers ---------------------------------------------------- -/

/-- One expected frame of lane 0 of PG0, whose first UI is compared with symbol `e`; the lane is trained, with a threshold of 0 mV,
and receives -200 mV. -/
def expected (e : BitVec 2) : ExpFrame := ⟨3, 4, 0, false, 0, (0, 0), [(0, 0, some e :: List.replicate 31 none)]⟩
def line (e : BitVec 2) (n : Nat) (ep : Option Episode) (marks : List Nat) : State :=
  { up with
    regs := [(aLn 0 0x14, 2)], lanes := [(0, { LnSt.init with rx := some (0, #v[0, 0, 0]), act := (80, 0, 0) })]
    pg := [(0, { PgSt.init with started := n, line := [expected e], ep := ep, marks := marks })] }
def symbols : List LaneSamples := [⟨0, noSyms, [(-4096, -200)]⟩]
def anEpisode : Episode := ⟨1, 2, 3, [(0, 4, 5)]⟩
def fullQueue : State := { up with thr := [(0, { ThrSt.init with q0 := List.replicate 32 (.mark 0 0) })] }
theorem wit_FailRecords : ((line 1 4 none []).pgs 0).line.dropWhile ExpFrame.quiet = expected 1 :: [] ∧
    ((line 1 3 none []).pgs 0).started < (expected 1).due ∧ (line 1 4 none []).covered 0 (expected 1) [] = false ∧
    (expected 1).due ≤ ((line 1 4 none []).pgs 0).started ∧ (line 1 4 none []).covered 0 (expected 1) symbols = true ∧
    ((line 1 4 none []).setPg 0 { (line 1 4 none []).pgs 0 with line := [] }).failMask 0 (expected 1) symbols ≠ [] ∧
    ((line 0 4 none []).setPg 0 { (line 0 4 none []).pgs 0 with line := [] }).failMask 0 (expected 0) symbols = [] ∧
    (line 1 4 none []).pam4 0 0 = false ∧ (line 1 4 none []).rf (aPg 0 0x40) 0 2 = 0 ∧ ((line 1 4 none []).pgs 0).ep = none ∧ (line 1 4 none []).hasPlace 0 = true ∧ fullQueue.hasPlace 0 = false ∧
    ((line 1 4 (some anEpisode) []).pgs 0).ep = some anEpisode ∧ ((line 1 4 none [7]).pgs 0).marks = 7 :: [] ∧
    ((line 1 4 (some anEpisode) [7]).pgs 0).ep ≠ none ∧ (∀ x ∈ [(7, (1 : W32))], x.1 < 8) := by decide +kernel
theorem wit_FailRecords_inv : (line 1 4 none []).Inv ∧ fullQueue.Inv := by refine ⟨?_, ?_⟩ <;> constructor <;> decide +kernel

def taking (i : Intake) : State := { up with thr := [(0, { ThrSt.init with q0 := [i] })] }
def untagged : FailRec := ⟨3, 0, 0, false, 0, [(0, 1)]⟩
def tagged : FailRec := { untagged with tagv := true }
/-- Lane map 0 of THR0 is valid and names region 0, whose descriptor is valid for task 5. -/
def desc5 : W128 := 0x0005_8202_00FF_00FF
def mapped0 (r : List (Nat × Region_)) : State := { dev [(aThr 0 0x40, 0x80000000)] with rdesc := [(0, desc5)], regions := r }
theorem wit_ThresherIntake : ((taking (.fail untagged)).thrs 0).nextItem = some (false, .fail untagged) ∧ untagged.tagv = false ∧
    tagged.tagv = true ∧ 0 < ((taking (.fail tagged)).recordCells 0 tagged).2 ∧
    (({ mapped0 [(0, { Region_.init with st := .isOpen })] with thr := [(0, { ThrSt.init with q0 := [.fail tagged] })] } : State).recordCells 0 tagged).2 = 0 ∧
    ((taking (.summary 0 anEpisode)).thrs 0).nextItem = some (false, .summary 0 anEpisode) ∧ (0, 4, 5) ∈ anEpisode.ranges ∧ 4 ≤ 5 ∧ 5 ≤ 5 ∧
    ({ Region_.init with st := .isOpen }).st ≠ .idle ∧ ((taking (.summary 0 anEpisode)).region 5).st = .idle ∧
    ((taking (.mark 0 255)).thrs 0).nextItem = some (false, .mark 0 255) ∧
    (([0, 1].filter fun g => (({ taking (.mark 0 255) with sites := [(255, ⟨none, [0], [0]⟩)] } : State).site 255).groups.contains g).all
      fun g => [(0, 255)].contains (g, 255)) = true ∧
    (([0, 1].filter fun g => (({ taking (.mark 0 255) with sites := [(255, ⟨none, [0], [0, 1]⟩)] } : State).site 255).groups.contains g).all
      fun g => [(0, 255)].contains (g, 255)) = false ∧
    (taking (.fail tagged)).xferOf (.assist 0) = none ∧ ((taking (.fail tagged)).thrs 0).assist = [] ∧
    ({ ThrSt.init with assist := [1], times := 64 }).assist ≠ [] ∧ (ThrSt.init).times < 64 := by decide +kernel
theorem wit_ThresherIntake_inv : (taking (.summary 0 anEpisode)).Inv := by constructor <;> decide +kernel

def openRegion : Region_ := { Region_.init with st := .isOpen, rows := 2, cols := 2 }
def region0 (r : Region_) : State := { mapped0 [(0, r)] with thr := [(0, { ThrSt.init with bmq := [(0, 1, 2)], resets := [0] })] }
/-- Region 0 has directory page 0, whose entry for the page of the cell names page 1. -/
def paged : State := (region0 { openRegion with dir := some 0 }).setByte (pageAddr 0) 2
/-- A bitmap write that has been acknowledged. -/
def bitDone : Xfer := ⟨0, .bitmap 0, 14, 0, 32, false, 0x1000010100, 1, some [4], 1, 1, 1, 0, [0], none⟩
theorem wit_RegionsAndBitmaps : ({ openRegion with unrep := true }).unrep = true ∧ (1, 2) ∈ ({ openRegion with cells := [(1, 2)] }).cells ∧
    ((region0 openRegion).region 0).unrep = false ∧ covers ((region0 openRegion).region 0).lines (1, 2) = false ∧
    (1, 2) ∉ ((region0 openRegion).region 0).cells ∧ (region0 openRegion).tableUse (thrOf 0) + 2 ≤ 65536 ∧
    (region0 openRegion).sparseUse (thrOf 0) < 131072 ∧ (paged.thrs 0).bmq = (0, 1, 2) :: [] ∧ thrOf 0 = 0 ∧ (paged.region 0).dir = some 0 ∧
    (paged.thrs 0).walk = none ∧ paged.xferOf (.bitmap 0) = none ∧ ({ paged with xfers := [bitDone] }).xferOf (.bitmap 0) = some bitDone ∧ bitDone.over = true ∧
    bitDone.err = none ∧ { bitDone with err := some 2 }.over = true ∧ { bitDone with ans := 0 }.over = false ∧
    ((region0 openRegion).region 0).dir = none ∧ (region0 openRegion).rf (aThr 0 0x114) 0 19 = 0 ∧
    ((region0 openRegion).thrs 0).resets = 0 :: [] ∧ (dev [(aThr 0 0x108, 4), (aThr 0 0x114, 16)]).flSize 0 ≤ 16 ∧
    (dev [(aThr 0 0x108, 4), (aThr 0 0x114, 16)]).rf (aThr 0 0x114) 0 19 = 16 ∧
    (dev [(aThr 0 0x104, 0x10), (aThr 0 0x108, 4)]).rf (aThr 0 0x114) 0 19 < (dev [(aThr 0 0x104, 0x10), (aThr 0 0x108, 4)]).flSize 0 ∧
    (region0 openRegion).xferOf (.assist 0) = none ∧ (region0 openRegion).sleeping = false := by decide +kernel
/-- Region 0 with directory page 0, its bitmap write at step `w`, an access answered `got`; with a release at `j` and pages on their
way to a free list that holds a page and has room for 16. -/
def walking (w : Option Walk) (got : List Byte) (j : Option (Bool × Option Nat)) (fr : List Nat) : State :=
  { dev [(aThr 0 0x40, 0x80000000), (aThr 0 0x104, 0x10), (aThr 0 0x114, 1)] with
    rdesc := [(0, desc5)], regions := [(0, { openRegion with dir := some 0 })]
    thr := [(0, { ThrSt.init with bmq := [(0, 1, 2)], walk := w, resets := [0], job := j, toFree := fr, freeing := !fr.isEmpty })]
    xfers := [{ bitDone with got := got }, { bitDone with id := 1, key := .release 0 }] }
theorem wit_RegionsAndBitmaps_walk : ((walking none [] none []).thrs 0).walk = none ∧ ((walking none [] none []).region 0).dir = some 0 ∧
    ((walking (some .entry) [2, 0, 0, 0] none []).thrs 0).walk = some .entry ∧
    (walking (some .entry) [2, 0, 0, 0] none []).xferOf (.bitmap 0) = some { bitDone with got := [2, 0, 0, 0] } ∧
    leNat [2, 0, 0, 0] ≠ 0 ∧ leNat [0, 0, 0, 0] = 0 ∧ (walking none [] none []).rf (aThr 0 0x114) 0 19 ≠ 0 ∧
    (region0 openRegion).rf (aThr 0 0x114) 0 19 = 0 ∧ ((walking (some (.zero true 1)) [] none []).thrs 0).walk = some (.zero true 1) ∧
    ((walking (some (.link 1)) [] none []).thrs 0).walk = some (.link 1) ∧ ((walking (some (.cell 1)) [] none []).thrs 0).walk = some (.cell 1) ∧
    ((walking (some (.take true)) [] none []).thrs 0).walk = some (.take true) ∧ (walking none [] none []).walksIn 0 0 = false ∧
    (walking (some .entry) [] none []).walksIn 0 0 = true ∧ ((walking none [] (some (true, none)) []).thrs 0).job = some (true, none) ∧
    (walking none [] (some (true, none)) []).xferOf (.release 0) = some { bitDone with id := 1, key := .release 0 } ∧
    ((walking none [] (some (true, some 2)) [3]).thrs 0).toFree = 3 :: [] ∧ ((walking none [] (some (true, some 2)) []).thrs 0).toFree = [] ∧
    ((walking none [] none [3]).thrs 0).freeing = true ∧ ((walking none [] none []).thrs 0).freeing = false ∧
    (walking none [] none []).rf (aThr 0 0x114) 0 19 + 1 < (walking none [] none []).flSize 0 := by decide +kernel
theorem wit_RegionsAndBitmaps_walkInv : (walking (some (.take true)) [] none []).Inv ∧ (walking none [] (some (true, none)) []).Inv ∧
    (walking none [] none [3]).Inv := by refine ⟨?_, ?_, ?_⟩ <;> constructor <;> decide +kernel
theorem wit_RegionsAndBitmaps_inv : (region0 openRegion).Inv := by constructor <;> decide +kernel

/-- An assist entry of task 5 for region 0 of THR0: operation `op`, more bits `b`. -/
def assist (op : Nat) (b : W128) : W128 := BitVec.ofNat 128 op <<< 124 ||| 5 <<< 96 ||| b
def helped (r : Region_) (e : W128) : State :=
  { mapped0 [(0, r)] with thr := [(0, { ThrSt.init with assist := [e] })] }
def closed0 : Region_ := { openRegion with st := .closed }
def tent0 : Region_ := { closed0 with lines := [⟨false, 7, .tent⟩], rows := 1 }
/-- An entry that runs: the queue of the Thresher holds it, nothing it waits for is there. -/
abbrev runs (s : State) (e : W128) : Prop := s.sleeping = false ∧ s.xferOf (.assist 0) = none ∧ (s.thrs 0).assist = e :: [] ∧
    (s.thrs 0).out.length < 64 ∧ (s.thrs 0).q0 = [] ∧ (s.thrs 0).q1 = []
/-- Every operation on region 0 of its own task; CLOSE of an open region, UNDO with a tentative line and with none, SCAN that finds
the highest region and one that finds none; an entry outside the table; an entry that waits for intake. -/
theorem wit_AssistOperations : runs (helped closed0 (assist 1 0)) (assist 1 0) ∧ assistOk (assist 1 0) = true ∧
    assistOk (assist 1 0x1000) = false ∧ fld (assist 1 0) 124 4 = 1 ∧ 10 < fld (assist 11 0) 124 4 ∧
    ((helped closed0 (assist 1 0)).rdescOf 0).getLsbD 47 = true ∧ closed0.st ≠ .idle ∧
    fld ((helped closed0 (assist 1 0)).rdescOf 0) 48 16 = fld (assist 1 0) 96 16 ∧ assistRegion 0 (assist 1 0) = 0 ∧
    runs (helped closed0 (assist 2 0xFFF)) (assist 2 0xFFF) ∧ assistOk (assist 2 0xFFF) = true ∧ fld (assist 2 0xFFF) 0 12 = 4095 ∧
    (∀ k < 3, ((helped closed0 (assist 2 0)).region k).notice = 0) ∧
    ((helped { closed0 with notice := 8 } (assist 2 0)).region 0).notice ≠ 0 ∧
    assistOk (assist 4 (7 <<< 32)) = true ∧ closed0.rows ≠ 0 ∧ closed0.unrep = false ∧
    fld (assist 4 (7 <<< 32)) 32 16 ≤ fld ((helped closed0 (assist 4 (7 <<< 32))).rdescOf 0) 0 16 ∧
    assistOk (assist 5 0) = true ∧ tent0.lines = [] ++ LineRec.mk false 7 .tent :: [] ∧ (∀ x ∈ closed0.lines, x.tag ≠ .tent) ∧
    assistOk (assist 6 0) = true ∧ assistOk (assist 8 0) = true ∧ openRegion.st = .isOpen ∧ assistOk (assist 9 0) = true ∧
    assistOk (assist 10 0) = true ∧ fld (assist 10 0) 124 4 = 10 ∧ (run th0 []).xferOf (.assist 0) = none ∧
    ((run th0 []).thrs 0).assist = [] ∧ ({ ThrSt.init with q0 := [.mark 0 0] }).q0 ≠ [] ∧ (ThrSt.init).times < 64 := by decide +kernel
/-- RELEASE with its directory page asked for, its answer there, and its pages freed. -/
def releasing (j : Bool × Option Nat) (fr : List Nat) (x : List Xfer) : State :=
  { helped { openRegion with dir := some 0 } (assist 10 0) with
    thr := [(0, { ThrSt.init with assist := [assist 10 0], job := some j, toFree := fr, freeing := !fr.isEmpty })], xfers := x }
theorem wit_AssistOperations_release : (helped { openRegion with dir := some 0 } (assist 10 0)).xferOf (.release 0) = none ∧
    ((releasing (false, none) [] [{ bitDone with key := .release 0 }]).thrs 0).job = some (false, none) ∧
    (releasing (false, none) [] [{ bitDone with key := .release 0 }]).xferOf (.release 0) = some { bitDone with key := .release 0 } ∧
    (releasing (false, none) [] []).walksIn 0 0 = false ∧ ((releasing (false, some 2) [3] []).thrs 0).toFree ≠ [] ∧
    ((releasing (false, some 2) [] []).thrs 0).toFree = [] ∧ fld (assist 10 0) 124 4 = 10 ∧
    ((releasing (true, none) [] []).thrs 0).job.any (fun j => !j.1) = false := by decide +kernel
theorem wit_AssistOperations_inv : (helped openRegion (assist 8 0)).Inv ∧
    ((helped openRegion (assist 8 0)).region 0).st = .isOpen ∧ ((helped { openRegion with dir := some 0 } (assist 10 0)).region 0).dir = some 0 := by
  refine ⟨?_, by decide +kernel⟩; constructor <;> decide +kernel

/-- FETCH and COMMIT with DEST at DRAM, and their writes acknowledged. -/
def toDram (op : Nat) : W128 := assist op (0x1000000000 <<< 56)
def oneCell : Region_ := { closed0 with cells := [(1, 2)] }
def stored (n : Nat) : Xfer := ⟨0, .assist 0, 14, 0, 32, false, 0x1000000000, n, some (List.replicate n 0), n, n, n, 0, List.replicate n 0, none⟩
theorem wit_AssistStores : runs (helped oneCell (toDram 3)) (toDram 3) ∧ assistOk (toDram 3) = true ∧
    (helped oneCell (toDram 3)).assistCheck 0 (toDram 3) true = 0 ∧ destRange 0x1000000000 4 = true ∧
    (helped oneCell (toDram 3)).destOwned 0 0x1000000000 = true ∧ fld (toDram 3) 56 40 % 16 = 0 ∧
    (oneCell.open_.flatMap fun c => natLe 4 (c.1 + c.2 * 65536)) ≠ [] ∧ (closed0.open_.flatMap fun c => natLe 4 (c.1 + c.2 * 65536)) = [] ∧
    destRange (fld (assist 3 0) 56 40) 4 = false ∧ destRange 0x1000000004 4 = true ∧ (0x1000000004 : Nat) % 16 ≠ 0 ∧
    (helped oneCell (3 <<< 124)).assistCheck 0 (3 <<< 124) true ≠ 0 ∧
    runs (helped closed0 (toDram 7)) (toDram 7) ∧ assistOk (toDram 7) = true ∧ closed0.unrep = false ∧ closed0.open_ = [] ∧ oneCell.open_ ≠ [] ∧
    destRange 0x1000000000 (repairRecord 0 closed0).length = true ∧
    ({ helped oneCell (toDram 3) with xfers := [stored 4] }).xferOf (.assist 0) = some (stored 4) ∧ (stored 4).over = true ∧
    (stored 4).err = none ∧ { stored 4 with err := some 0 }.over = true ∧ { stored 4 with ans := 0 }.over = false ∧
    ((helped closed0 (toDram 7)).thrs 0).out = [] ∧ oneWord.out ≠ [] := by decide +kernel
theorem wit_AssistStores_inv : (helped oneCell (toDram 3)).Inv := by constructor <;> decide +kernel
/- Witnesses: sites, clocks, lanes and sync -------------------------------------------------------------- -/

def siteRun (h : List Hold) : State := { dev [(aSite 255 0x14, 2)] with sites := [(255, { SiteSt.init with finish := some h })] }
def aHold : Hold := ⟨0, 1, false, 0⟩
theorem wit_SitesFinish : (dev [(aSite 255 0x14, 2)]).siteState 255 = 2 ∧ ((dev [(aSite 255 0x14, 2)]).site 255).finish = none ∧
    up.siteState 255 ≠ 2 ∧ ((siteRun []).site 255).finish = some [] ∧ (siteRun []).siteState 255 = 2 ∧
    ([] : List Hold).all (siteRun []).holdOver = true ∧ ((siteRun [aHold]).site 255).finish = some [aHold] ∧
    [aHold].all (siteRun [aHold]).holdOver = false ∧ (∀ n < 4, (dev [(aSite 255 0x10, 1), (aSite 255 0x14, 2)]).siteUses 255 n = false) ∧
    (dev [(aSite 255 0x10, 1), (aSite 255 0x14, 2)]).bit (aSite 255 0x10) 0 = true := by decide +kernel
/-- Site 255 has lane 0, which PX0 owns, and compare has a frame of it still to judge. -/
def judging : State := { line 1 4 none [] with regs := [(aSite 255 0, 1), (aSite 255 0x14, 2), (aLn 0 0x14, 2)] }
theorem wit_SitesFinish_line : expected 1 ∈ (judging.pgs (0 / 2)).line ∧
    (∃ x ∈ (expected 1).lanes, judging.owns 0 x.1 = true ∧ ∃ u ∈ x.2.2, u ≠ none) ∧
    (judging.pxs 1).burst = none ∧ (judging.pxs 1).ends = [] ∧ judging.pxState 1 ≠ 2 ∧
    (∀ e ∈ (judging.pgs (1 / 2)).line, ¬∃ x ∈ e.lanes, judging.owns 1 x.1 = true ∧ ∃ u ∈ x.2.2, u ≠ none) ∧
    meets (judging.siteLanes 255) (laneMask (0 / 2) (judging.ownLanes 0 true)) = true ∧ (⟨0, 0, false, 4⟩ : Hold).px = 0 ∧
    (expected 1).due ≤ (⟨0, 0, false, 4⟩ : Hold).due := by decide +kernel
theorem wit_SitesFinish_inv : (dev [(aSite 255 0x10, 1), (aSite 255 0x14, 2)]).Inv := by constructor <;> decide +kernel

/-- TREF is present, measured at 100 MHz; `r` holds further registers. -/
def tref (r : List (Nat × W32)) : State := dev ((aSyn 4, 0x800186A0) :: r)
theorem wit_PinGroupClocks : (tref []).relockCode 7 = 0 ∧ up.relockCode 7 ≠ 0 ∧ (dev [(aPx 15 4, 1)]).pxState (2 * 7 + 1) ≠ 0 ∧
    (tref []).pxState 14 = 0 ∧ (tref []).pxState 15 = 0 ∧ rateOk ((tref [(aSyn 0x80, 0)]).rateRegs 7) = false ∧
    up.bit (aSyn (0x18 + 0x10 * 7)) 1 = false ∧ (dev [(aSyn 0x88, 2)]).bit (aSyn (0x18 + 0x10 * 7)) 1 = true ∧
    (dev [(aSyn 0x88, 1)]).pgLocked 7 = true ∧ up.pgLocked 7 = false ∧ ((px PxSt.init []).pgs 0).run = true ∧
    ((px PxSt.init []).pxs 0).burst = none ∧ ((px PxSt.init []).pxs 1).burst = none ∧ (up.pgs 0).run = false ∧
    (tref []).bit (aSyn 4) 31 = true ∧ (dev [(aSyn 4, 1)]).bit (aSyn 4) 31 = false := by decide +kernel
theorem wit_PinGroupClocks_inv : (tref []).Inv ∧ (dev [(aSyn 0x88, 2)]).Inv ∧ (dev [(aSyn 0x88, 1)]).Inv ∧ (px PxSt.init []).Inv := by
  refine ⟨?_, ?_, ?_, ?_⟩ <;> constructor <;> decide +kernel

/-- Lane 63 with PG7 locked, and with registers `r`. -/
def lane63 (l : LnSt) (r : List (Nat × W32)) : State :=
  { dev ((aSyn 0x88, 1) :: r) with lanes := [(63, l)].filter (fun x => x.2 ≠ LnSt.init), pg := [(7, { PgSt.init with run := true, started := 1 })] }
/-- Lane 63 trained, CAL_CFG with the loop and the transmit measurement on and UPDATE_MIN 0, TX_ERR valid at 5. -/
def trimmed : State := lane63 LnSt.init [(aLn 63 0x14, 2), (aLn 63 0x20, 0x13), (aLn 63 0x3C, 0x80000005)]
theorem wit_LaneTraining : (0x80000000 : W32).getLsbD 31 = true ∧ (0 : W32).getLsbD 31 = false ∧
    ((lane63 LnSt.init []).wr (aLn 63 0x10) (0x80000000 &&& 0x777)).trainCode 63 = 0 ∧
    ((lane63 LnSt.init []).wr (aLn 63 0x10) (0x80000000 &&& 0x777)).usesPartner 63 = false ∧
    (up.wr (aLn 63 0x10) (0x80000000 &&& 0x777)).trainCode 63 ≠ 0 ∧ (up.wr (aLn 63 0x10) (0x80000000 &&& 0x777)).pgLocked (63 / 8) = false ∧
    up.tstate 63 ≠ 1 ∧ (lane63 LnSt.init [(aLn 63 0x14, 1)]).tstate 63 = 1 ∧
    (lane63 LnSt.init [(aLn 63 0x10, 1), (aLn 63 0x14, 1)]).rf (aLn 63 0x10) 0 2 ≠ 0 ∧ trimmed.bit (aLn 63 0x20) 1 = true ∧
    (dev [(aLn 63 0x20, 1)]).bit (aLn 63 0x20) 1 = false ∧ ((up.lane 63).scan = false) ∧ trimmed.tstate 63 = 2 ∧ trimmed.opportunity 63 = true ∧
    trimmed.bit (aLn 63 0x20) 0 = true ∧ trimmed.rf (aLn 63 0x20) 16 12 ≤ 9 - (trimmed.lane 63).applied ∧
    trimmed.wanted 63 = [(0, -1)] ∧ (-1 : Int) ≠ 0 ∧ (trimmed.trim 63 0 + -1).natAbs ≤ (trimmed.trimLimit 63 0).1 ∧
    (trimmed.trimLimit 63 2).1 ≤ 127 ∧ (trimmed.trimLimit 63 2).1 < (trimmed.trim 63 2 + 128).natAbs := by decide +kernel
/-- Lane 63 trains, with SRC 1, at step `k`: it fails at 5, at 7 or not; it cannot fail at 2 or at a step it has passed. -/
def training (k : W32) : State := lane63 LnSt.init [(aLn 63 0x10, 5), (aLn 63 0x14, 1 + k * 16)]
theorem wit_LaneTraining_steps : (training 4).tstate 63 = 1 ∧ (training 4).rf (aLn 63 0x14) 4 3 = 4 ∧ (training 4).trainLast 63 = 7 ∧
    (2 : BitVec 3).toNat < 3 ∧ (3 : BitVec 3).toNat < (training 4).rf (aLn 63 0x14) 4 3 ∧ 3 ≤ (5 : BitVec 3).toNat ∧
    (5 : BitVec 3).toNat ≤ (training 4).trainLast 63 ∧ (training 4).rf (aLn 63 0x10) 0 2 ≠ 0 ∧ (training 4).bit (aLn 63 0x10) 2 = true ∧
    (training 1).rf (aLn 63 0x14) 4 3 ≤ 2 ∧ (lane63 LnSt.init [(aLn 63 0x14, 1)]).rf (aLn 63 0x10) 0 2 = 0 ∧
    (lane63 LnSt.init [(aLn 63 0x14, 0x11)]).trainLast 63 < (3 : BitVec 3).toNat := by decide +kernel
theorem wit_LaneTraining_stepsInv : (training 4).Inv ∧ (training 1).Inv := by refine ⟨?_, ?_⟩ <;> constructor <;> decide +kernel
theorem wit_LaneTraining_inv : (lane63 LnSt.init [(aLn 63 0x14, 1)]).Inv ∧ trimmed.Inv := by
  refine ⟨?_, ?_⟩ <;> constructor <;> decide +kernel

/-- A device in EXTEST, with the cell of lane 63 high. -/
def scanned : State := { up with tap := { Tap.init with instr := .extest, cells := 1 <<< 63 } }
def scanIn (t : List Bool) : ScanData := ⟨1 <<< 63, true, [(63, 0, 150), (0, 150, 0)], t⟩
theorem wit_LaneMonitors_scan : scanned.extest = true ∧ up.extest = false ∧ OtherScan.samplePreload = .samplePreload ∧
    OtherScan.bypass ≠ .samplePreload ∧ (150 : Int) ≤ 150 - 0 ∧ (0 : Int) - 150 ≤ -150 ∧ (50 : Int) < 51 ∧ (-51 : Int) < -50 ∧
    (-25 : Int) ≤ -25 ∧ (25 : Int) ≤ 25 ∧ ({ up with tap := { Tap.init with st := .shiftDr } }).tap.st = .shiftDr ∧
    ({ up with tap := { Tap.init with st := .shiftIr } }).tap.st = .shiftIr := by decide +kernel
/-- Five edges with TMS high end EXTEST (IEEE 1149.1). -/
theorem test_extest_tms : ((up.scan .extest (scanIn [])).extest, (up.scan .extest (scanIn [true, true, true, true, true])).extest) =
    (true, false) := by decide +kernel
theorem wit_LaneMonitors : ((lane63 { LnSt.init with scan := true } []).lane 63).scan = true ∧
    (lane63 LnSt.init [(aLn 63 0x14, 0x1000), (aLn 63 0x60, 2)]).checks 63 = true ∧ up.checks 63 = false ∧
    (lane63 LnSt.init [(aLn 63 0x14, 0x1000), (aLn 63 0x60, 2)]).bit (aLn 63 0x14) 12 = true ∧ up.bit (aLn 63 0x14) 12 = false ∧
    scanned.extest = true := by decide +kernel
theorem wit_LaneMonitors_contacts : up.power ≠ .off ∧ up.extest = false ∧ up.bit (aLn 63 0) 2 = false ∧ (dev [(aLn 63 0, 4)]).bit (aLn 63 0) 2 = true ∧
    ({ up with power := .off }).power = .off := by decide +kernel
theorem wit_LaneMonitors_inv : (lane63 LnSt.init [(aLn 63 0x14, 0x1000), (aLn 63 0x60, 2)]).Inv ∧ scanned.Inv := by
  refine ⟨?_, ?_⟩ <;> constructor <;> decide +kernel

/-- The leader of a joined set with a start pending. -/
def leader : State := { dev [(aSyn 0x100, 6), (aSyn 0x108, 0x20000), (aSyn 0x10C, 1)] with startReq := true }
theorem wit_Synchronization : up.joined = false ∧ leader.joined = true ∧ (0xC000 : BitVec 16).toNat / 2 ^ 12 ≠ 0xB ∧
    ones16 0xB100 % 2 = 0 ∧ ones16 0xB101 % 2 ≠ 0 ∧ (0xB400 : BitVec 16).toNat / 2 ^ 12 = 0xB ∧ ones16 0xB400 % 2 = 0 ∧
    3 < (0xB400 : BitVec 16).toNat / 2 ^ 8 % 16 ∧ (0xB300 : BitVec 16).toNat / 2 ^ 8 % 16 = 3 ∧
    (∃ n : Fin 16, (dev [(aPx 15 4, 3)]).pxState n.val ≠ 0) ∧ (∀ n : Fin 16, up.pxState n.val = 0) ∧
    ({ leader with syncq := [] }).startPending = true ∧ ({ up with syncq := [] }).startPending = false ∧ up.syncq = [] ∧
    leader.rf (aSyn 0x100) 0 2 = 2 ∧ up.rf (aSyn 0x100) 0 2 ≠ 2 ∧ leader.startSent = false ∧ leader.startReq = true ∧
    leader.rf (aSyn 0x10C) 0 24 ≠ 0 ∧ up.startReq = false := by decide +kernel
theorem wit_Synchronization_inv : ({ up with syncq := [1] }).Inv ∧ leader.Inv := by refine ⟨?_, ?_⟩ <;> constructor <;> decide +kernel

/- Witnesses: banks, repair, matrix and DMA ---------------------------------------------------------------- -/

def bank47 (b : BankSt) (r : List (Nat × W32)) : State := { dev r with banks := [(47, b)].filter (fun x => x.2 ≠ BankSt.init) }
/-- An access to the last 8 bytes of bank 47: a read, and a write of `d`. -/
def access (d : Option (List Byte)) (allow : Bool) : BankAcc := ⟨⟨0, .load 0 0, 0x10BFFFFF8, 8, d, 0, 0, 0, 0⟩, allow, false, 9⟩
/-- Bank 47 with a read waiting, behind one of the same master in bank 46. -/
def bank46 : State := { dev [] with banks := [(46, ⟨[{ access none true with ord := 3 }], none⟩), (47, ⟨[access none true], none⟩)] }
theorem wit_Banks : up.sleeping = false ∧ up.bus = [] ∧ up.bankWriter 47 .mgmt = true ∧ ownerCode (field 0x11 0 8) = true ∧
    up.bit (aBnk 47 8) 4 = false ∧ up.bankWriter 47 .dma = false ∧ ownerCode (field 0x12 0 8) = false ∧
    (dev [(aBnk 47 8, 0x10)]).bit (aBnk 47 8) 4 = true ∧ (up.owner 47 = 0x10) ∧ (dev [(aBnk 47 0, 11)]).bankWriter 47 (.engine 11) = true ∧
    ((up.setBus 0 ⟨[], [], [(47, true)], []⟩).busCycle 0).own.find? (fun p => p.1 == 47) = some (47, true) ∧
    ((bank47 ⟨[], some 5⟩ []).bank 47).next = some 5 ∧ ((bank47 ⟨[], some 5⟩ []).bank 47).acc.any (·.allow) = false ∧
    ((bank47 ⟨[access none true], some 16⟩ []).bank 47).next = some 16 ∧ (16 : BitVec 8).toNat = (bank47 ⟨[access none true], some 16⟩ []).owner 47 ∧
    ((bank47 ⟨[access none true], some 5⟩ []).bank 47).acc.any (·.allow) = true ∧
    (5 : BitVec 8).toNat ≠ (bank47 ⟨[access none true], some 5⟩ []).owner 47 ∧ (up.bank 47).next = none ∧ (5 : Nat) ≠ 0x41 ∧ (5 : Nat) ≠ 0x42 := by
  decide +kernel
theorem wit_Banks_access : ((bank47 ⟨[access none true], none⟩ []).bank 47).acc = access none true :: [] ∧
    (bank46.bank 47).acc = access none true :: [] ∧ bank46.bankBehind 47 (access none true) = true ∧
    (bank47 ⟨[access none true], none⟩ []).bankBehind 47 (access none true) = false ∧ up.awake 47 = true ∧
    (access none true).allow = true ∧ (access none false).allow = false ∧
    (bank47 ⟨[access none false], none⟩ []).bankBehind 47 (access none false) = false ∧
    (bank47 ⟨[access none true], none⟩ [(aBnk 47 4, 0xF00), (aBnk 47 8, 2)]).awake 47 = false ∧
    ((bank47 ⟨[{ access none true with asleep := true }], none⟩ []).bank 47).acc = { access none true with asleep := true } :: [] := by
  decide +kernel
/-- A read of the last word of bank 47 by its owner, Sheaf 0, or by Sheaf 5, reaches the bank. -/
def coming (m : Nat) : Txn := ⟨m, .load 0 0, 0x10BFFFFF8, 8, none, 0, 0, 0, 0⟩
def owned47 (b : BankSt) (r : List (Nat × W32)) : State := bank47 b ((aBnk 47 0, 0) :: r)
theorem wit_Banks_arrival : (coming 0).bank = 47 ∧ (owned47 ⟨[], none⟩ []).admission 47 (masterCode 0) = some true ∧
    (owned47 ⟨[], none⟩ []).admission 47 (masterCode 5) ≠ some true ∧ (owned47 ⟨[], none⟩ []).awake 47 = true ∧
    (owned47 ⟨[], none⟩ [(aBnk 47 8, 3)]).awake 47 = false ∧ (owned47 ⟨[], none⟩ [(aBnk 47 8, 3)]).bit (aBnk 47 4) 1 = true ∧
    (owned47 ⟨[], none⟩ [(aBnk 47 4, 0xF00), (aBnk 47 8, 3)]).bit (aBnk 47 4) 1 = false ∧
    (owned47 ⟨[], none⟩ [(aBnk 47 4, 0xF00), (aBnk 47 8, 3)]).wakeWanted 47 = false ∧
    (owned47 ⟨[access none true], none⟩ [(aBnk 47 4, 0xF00), (aBnk 47 8, 3)]).wakeWanted 47 = true := by decide +kernel
/-- The last word of bank 47 is poisoned. -/
def pois47 : State := up.setWordPois (bankWord 47 0x3FFFF8) true
theorem wit_Banks_words : up.inSaveBuffer 47 0x3FFFF8 = false ∧ pois47.inSaveBuffer 47 0x3FFFF8 = false ∧ bankWord 47 (0x3FFFF9 + 2 - 1) = bankWord 47 0x3FFFF8 ∧
    pois47.wordPois (bankWord 47 0x3FFFF9) = true ∧ up.wordPois (bankWord 47 0x3FFFFC) = false ∧ (0x3FFFFC + 4) % 8 = 0 ∧ (0x3FFFF8 + 4) % 8 ≠ 0 ∧
    (∀ k ∈ bankWords 47 0x3FFFF8 8, up.wordPois k = false) ∧ (∃ k ∈ bankWords 47 0x3FFFF8 8, pois47.wordPois k = true) ∧
    Ecc.ue .ok = false ∧ Ecc.ue ⟨0, true⟩ = true ∧ 0x3FFFF8 % 8 = 0 ∧ (0 : Nat) < 8 ∧ Alias.set ≠ .normal ∧ Alias.clear ≠ .normal ∧
    (2 : Nat) ≤ 2 ∧ (dev [(aBnk 47 0xC, 1)]).rf (aBnk 47 0xC) 0 2 ≠ 0 ∧ (dev [(aBnk 47 0xC, 0x10)]).bit (aBnk 47 0xC) 4 = true ∧
    up.rf (aBnk 47 0xC) 0 2 = 0 ∧ up.bit (aBnk 47 0xC) 4 = false ∧ (0 : Nat) < [1, 2].length ∧
    up.power_ 47 = 0 ∧ (dev [(aBnk 47 4, 0xF03)]).bit (aBnk 47 4) 0 = true ∧ (dev [(aBnk 47 4, 0xF03)]).power_ 47 = 0 ∧
    up.bit (aBnk 47 8) 5 = false ∧ (up.bank 47).acc = [] ∧ (dev [(aBnk 47 8, 0x20)]).bit (aBnk 47 8) 5 = true ∧ (dev [(aBnk 47 8, 1)]).power_ 47 = 1 ∧
    (dev [(aBnk 47 8, 2)]).power_ 47 = 2 ∧ (dev [(aBnk 47 8, 2)]).bit (aBnk 47 4) 0 = false ∧
    (bank47 ⟨[access none true], none⟩ [(aBnk 47 4, 0xF03), (aBnk 47 8, 2)]).wakeWanted 47 = true ∧ (dev [(aBnk 47 8, 3)]).power_ 47 = 3 ∧
    up.wakeWanted 47 = false := by decide +kernel
/-- The Gleaner holds row 7 of bank 47. -/
def saving : State := { dev [(aGln 4, 0x800072F0), (aBnk 47 8, 0x20)] with glnPos := 47 * 16384 + 7 }
/-- A copy has found word 1 of the record of task 5 bad. -/
def recBad : State := up.poisonWord (recWord0 + 16)
theorem wit_Banks_saving : saving.inSaveBuffer 47 0x700 = true ∧ 0x700 % 8 = 0 ∧ (2 : Nat) ≤ 2 ∧
    (dev [(aBnk 47 8, 0x20)]).bit (aBnk 47 8) 5 = true ∧ (up.setBus 0 ⟨[], [], [(47, false)], []⟩).bit (aBnk 47 8) 4 = false ∧
    ((up.setBus 0 ⟨[], [], [(47, false)], []⟩).busCycle 0).own.find? (fun p => p.1 == 47) = some (47, false) := by decide +kernel
theorem wit_RepairAndDram_words : glnTarget saving.glnPos = (0, 47, 7) ∧ glnWord 0 47 7 1 = 47 * 0x80000 + 32 * 7 + 1 ∧
    recBad.wordBad (recWord0 + (3 * 5 + 1)) = true ∧ (14 : Nat) / 3 ≠ 5 ∧ up.glnDue ≤ up.eclk ∧ up.eclk < ({ up with glnDue := 1 }).glnDue ∧ ([31] : List (Fin 32)) ≠ [] := by decide +kernel
theorem wit_Banks_inv : (dev [(aBnk 47 0xC, 1)]).Inv ∧ (dev [(aBnk 47 8, 2)]).Inv ∧ up.Inv ∧ (up.setBus 0 ⟨[], [], [(47, true)], []⟩).Inv ∧ recBad.Inv := by
  refine ⟨?_, ?_, ?_, ?_, ?_⟩ <;> constructor <;> decide +kernel

def march (bad : Bool) (p : List (Fin 32)) : MarchResult := ⟨0, p, bad, []⟩
def gleaning (p : Nat) : State := { dev [(aGln 0, 1), (aGln 4, 0x80000000)] with glnPos := p }
def noSpares : State := dev ((List.range 32).map fun i => (aBnk 47 (0x100 + 4 * i), 0x80000000))
def dramRead (m : Nat) : Txn := ⟨m, .load 0 0, 0x1000000000, 8, none, 0, 0, 0, 0⟩
def cand : Nat := 15 * 2 ^ 21 + 7
theorem wit_RepairAndDram : (dev [(aGln 0, 0)]).bit (aGln 0) 0 = false ∧ (dev [(aGln 0, 0)]).bit (aGln 4) 31 = false ∧
    up.bit (aGln 0) 0 = true ∧ up.bit (aGln 4) 31 = false ∧ up.sleeping = false ∧ (gleaning 5).bit (aGln 4) 31 = true ∧
    (glnTarget (up.glnSkip 48 up.glnPos % glnRows)).1 = 0 ∧ (gleaning 5).glnPos + 1 < glnRows ∧ (gleaning 970751).glnPos < glnRows ∧
    glnRows ≤ (gleaning 970751).glnPos + 1 ∧ (march false [31]).poisoned ≠ [] ∧ (march true []).mismatch = true ∧
    (march false []).mismatch = false ∧ (glnTarget 5).1 = 0 ∧ (16383 : Nat) < 2 ^ 14 ∧ up.freeSpare 47 = some 0 ∧ (31 : Nat) ≠ 0 ∧
    noSpares.freeSpare 47 = none ∧ ({ up with repairQ := [⟨1, 1, 47, 3⟩] }).nv.repairs.length < 4096 ∧
    4096 ≤ ({ up.nv with repairs := List.replicate 4096 ⟨1, 1, 47, 3⟩ } : NvSt).repairs.length ∧ up.repairQ = [] := by decide +kernel
theorem wit_RepairAndDram_dram : takeChan 7 [(0, dramRead 2), (7, dramRead 1)] = some (dramRead 1, [(0, dramRead 2)]) ∧
    ({ up with dramq := [(0, dramRead 2), (7, dramRead 1)] }).dramBehind 7 1 = false ∧
    ({ up with dramq := [(0, dramRead 1), (7, dramRead 1)] }).dramBehind 7 1 = true ∧
    takeChan 15 ({ up with dramq := [(0, dramRead 1)] }).dramq = none ∧
    up.isPoison (up.burstOf 64) = false ∧ (up.setPoison (up.burstOf 64) true).isPoison (up.burstOf 64) = true ∧ Ecc.ue ⟨0, true⟩ = true ∧
    (8 : Nat) ≠ 32 ∧ 2 ^ 35 - 32 + 32 ≤ 2 ^ 35 ∧
    (dev [(aDrc 4, 0)]).rf (aDrc 4) 0 16 = 0 ∧ up.rf (aDrc 4) 0 16 ≠ 0 ∧ spGet (fun _ => false) up.scrubbed (2 ^ 26) = false ∧
    spGet (fun _ => false) ({ up with scrubbed := [(2 ^ 26, true)] }).scrubbed (1 * 2 ^ 26 + 0) = true ∧
    (spSet (fun _ => false) up.scrubbed (2 ^ 26) true).length < 2 ^ 30 ∧ up.bit (aDrc 8) 8 = true ∧ up.bit (aDrc 8) 9 = true ∧
    takeCand 15 [5, cand] = some (cand, [5]) ∧ (dev [(aDrc 8, 0x104)]).bit (aDrc 8) 9 = false ∧
    (dev [(aDrc 8, 0x104)]).bit (aDrc 8) 8 = true ∧ takeCand 1 [5, cand] = none ∧ (dev [(aDrc 8, 4)]).bit (aDrc 8) 8 = false := by decide +kernel
/-- The list of a pass that ends with the next burst: its length is a fact about `List.range`. -/
theorem wit_RepairAndDram_pass : 2 ^ 30 ≤ (((List.range (2 ^ 30 - 1)).map fun i => (i, true)) ++ [(2 ^ 30 - 1, true)]).length := by simp
theorem wit_RepairAndDram_inv : up.Inv ∧ noSpares.Inv ∧ (gleaning 5).Inv := by refine ⟨?_, ?_, ?_⟩ <;> constructor <;> decide +kernel

/-- The port of an address, and a read of master 0 waiting for bank 47. -/
def portOf (a : Nat) : Option Nat := up.targetOf a
def matrix : State := { up with mtxq := [(access none true).txn] }
/-- DMA channel 7: DRAM to DRAM, elements of 8 bytes, 64 in a block, further registers `r`, state `d`. -/
def dma7 (d : DmaSt) (r : List (Nat × W32)) : State :=
  { dev ([(aDma 7 4, 0x10), (aDma 7 0xC, 0x10), (aDma 7 0x10, 1), (aDma 7 0x14, 64)] ++ r) with dma := [(7, d)] }
def dma0 : DmaSt := ⟨0, 1, none, false⟩
/-- A transfer of channel 7 of 8 bytes that is over, with the error `e`. -/
def xfer7 (e : Option Nat) (data : Option (List Byte)) : Xfer :=
  ⟨0, .dma 7, 20, 0, 32, false, 0x1000000000, 8, data, 8, 8, 8, 0, List.replicate 8 7, e⟩
/-- Channel 7 in a block, its read or its write over. -/
def dmaOver (e : Option Nat) (elem : Option (List Byte)) : State :=
  { dma7 ⟨0, 1, elem, false⟩ [(aDma 7 0x20, 2)] with xfers := [xfer7 e elem] }
theorem wit_MatrixAndDma : up.portBusy 16 ≤ 3 ∧ 3 < ({ up with mtxBusy := [(16, 7)] }).portBusy 16 ∧
    (((matrix.decodeErr.ageHeads ((portOf 0x10BFFFFF8).getD 0) 3).fetchAll).winner ((portOf 0x10BFFFFF8).getD 0) ≠ none) ∧
    ((up.decodeErr.ageHeads 16 3).fetchAll).winner 16 = none ∧ matrix.winner ((portOf 0x10BFFFFF8).getD 0) ≠ none ∧ (3 : Nat) ≠ 15 ∧
    (dma7 dma0 []).bit (aDma 7 0x1C) 0 = false ∧
    ((dma7 dma0 []).dmaSideOk 7 false = true ∧ (dma7 dma0 []).dmaSideOk 7 true = true ∧ trigCode ((dma7 dma0 []).rf (aDma 7 0x18) 0 7) = true) ∧
    (dma7 dma0 [(aDma 7 0x18, 0x22)]).rf (aDma 7 0x18) 0 7 = 0x22 ∧ trigCode 0x22 = false ∧ (dma7 dma0 [(aDma 7 0x20, 1)]).dmaState 7 = 1 ∧
    (dma7 dma0 [(aDma 7 0x20, 2)]).dmaState 7 = 2 ∧ (dma7 dma0 [(aDma 7 0x20, 2)]).bit (aDma 7 0x20) 4 = false ∧
    (dma7 dma0 [(aDma 7 0x20, 0x12)]).bit (aDma 7 0x20) 4 = true ∧ (dma7 dma0 [(aDma 7 0x20, 0x12)]).dmaState 7 = 2 ∧
    up.dmaState 7 ≠ 1 ∧ up.dmaState 7 ≠ 2 ∧ (dma7 ⟨0, 1, some [1], false⟩ []).dmaBusy 7 = true ∧ up.dmaBusy 7 = false ∧
    takeNat 0x21 [0x21] = some [] ∧ 0x21 ∉ up.dmaq := by decide +kernel
theorem wit_MatrixAndDma_element : (dma7 dma0 [(aDma 7 0x20, 2)]).dmaServes = some 7 ∧ up.dmaServes = none ∧
    ((dma7 dma0 [(aDma 7 0x20, 2)]).dmaRead 7 0x1000000000 8).2 = none ∧ (dmaOver none none).dmaServes = some 7 ∧
    (((dmaOver none none).dmaRead 7 0x1000000000 8).2.map fun r => r.toOption) = some (some (List.replicate 8 7)) ∧
    (((dmaOver (some 2) none).dmaRead 7 0x1000000000 8).2.map fun r => r.toOption) = some none ∧
    ((dmaOver none (some [1])).dmaCh 7).elem = some [1] ∧ ((dma7 ⟨0, 1, some [1], false⟩ []).dmaPut 7 0x1000000000 [1]).2 = none ∧
    ((dmaOver (some 0) (some [1])).dmaPut 7 0x1000000000 [1]).2 = some false ∧
    ((dmaOver none (some [1])).dmaPut 7 0x1000000000 [1]).2 = some true ∧ up.xferOf (.dma 7) = none ∧ (0 : Nat) < 8 ∧
    regionOf 0x1000000000 = .dram 0 := by decide +kernel
theorem wit_MatrixAndDma_block : (dma7 ⟨1, 0, none, false⟩ [(aDma 7 0x20, 2)]).dmaState 7 = 2 ∧
    ((dma7 ⟨1, 0, none, false⟩ [(aDma 7 0x20, 2)]).dmaCh 7).left = 0 ∧ (dma7 ⟨1, 0, none, false⟩ [(aDma 7 0x20, 2)]).dmaBusy 7 = false ∧
    ((dev [(aDma 7 0x14, 0x10001), (aDma 7 0x20, 2)]).rf (aDma 7 0x20) 16 16 + 1) % 2 ^ 16 =
      (dev [(aDma 7 0x14, 0x10001), (aDma 7 0x20, 2)]).rf (aDma 7 0x14) 16 16 ∧
    (dev [(aDma 7 0x14, 0x10001), (aDma 7 0x20, 2)]).rf (aDma 7 0x14) 16 16 ≠ 0 ∧
    (dma7 ⟨1, 0, none, false⟩ [(aDma 7 0x20, 2)]).rf (aDma 7 0x14) 16 16 = 0 ∧
    (dma7 ⟨1, 0, none, false⟩ [(aDma 7 0x20, 0x12)]).bit (aDma 7 0x20) 4 = true := by decide +kernel
/-- A lone write of master 3 and a read, both of a register, on their way to port 15. -/
def loneTxn : Txn := ⟨3, .lone, 0x80000084, 4, some [1, 0, 0, 0], 0, 0, 0, 0⟩
theorem wit_MatrixAndDma_bridge : loneTxn.data = some [1, 0, 0, 0] ∧ loneTxn.for_ = .lone ∧ { loneTxn with data := none }.data = none ∧
    loneTxn.size = 4 ∧ (loneTxn.addr - 0x80000000) % 4 = 0 ∧ { loneTxn with size := 16 }.size ≠ 4 ∧
    (15 : Nat) ≤ 15 := by decide +kernel
theorem wit_MatrixAndDma_inv : ({ dev [(aDma 7 0x14, 0x10001), (aDma 7 0x20, 2)] with dma := [(7, ⟨1, 0, none, false⟩)] }).Inv := by
  constructor <;> decide +kernel

/-- Timer 31 runs with registers `r`. -/
def tmr (r : List (Nat × W32)) : State := dev ((aTmr 31 0, 1) :: r)
/-- Timer 31 runs, its gate as synchronized active. -/
def gated (r : List (Nat × W32)) : State := { tmr r with tmrGate := [(31, (true, true, true))] }
def slow (r : List (Nat × W32)) : State := { dev r with tmrSlow := [(31, true)] }
/-- An edge of the count source makes channel `c` tick. -/
def willTick (s : State) (c : Nat) : Bool := (s.divided c).2 && ((s.divided c).1.edgeOf c).ticks c
theorem wit_Timers : (tmr []).rf (aTmr 31 4) 0 2 ≠ 1 ∧ (tmr [(aTmr 31 4, 1)]).rf (aTmr 31 4) 0 2 = 1 ∧
    (tmr [(aTmr 31 4, 1)]).bit (aSyn 4) 31 = false ∧ (tmr [(aSyn 4, 0x80000000), (aTmr 31 4, 1)]).bit (aSyn 4) 31 = true ∧
    spGet (fun _ => 0) ({ tmr [] with tmrDiv := [(31, 14)] }).tmrDiv 31 + 1 < max 16 ((tmr [(aTmr 31 8, 3)]).rf (aTmr 31 8) 0 16) ∧
    max 16 ((tmr [(aTmr 31 8, 16)]).rf (aTmr 31 8) 0 16) ≤ spGet (fun _ => 0) ({ tmr [] with tmrDiv := [(31, 15)] }).tmrDiv 31 + 1 ∧
    ((up.divided 31).2 && ((up.divided 31).1.edgeOf 31).ticks 31) = false ∧ willTick (tmr []) 31 = true ∧ willTick up 31 = false ∧ (tmr []).counts 31 = true ∧
    (tmr [(aTmr 31 4, 4)]).counts 31 = false ∧ willTick (tmr [(aTmr 31 4, 4)]) 31 = true ∧
    (tmr [(aTmr 31 0xC, 3), (aTmr 31 0x14, 3)]).wraps 31 = true ∧
    (tmr [(aTmr 31 0xC, 3), (aTmr 31 0x14, 2), (aTmr 31 0x10, 3)]).matches 31 = true ∧ (tmr [(aTmr 31 0xC, 3), (aTmr 31 0x10, 3)]).matches 31 = false ∧
    (tmr [(aTmr 31 0xC, 3)]).wraps 31 = false ∧ (gated [(aTmr 31 0x24, 1)]).gateAt 31 = true ∧ (gated [(aTmr 31 0x24, 1)]).gateMaxed 31 = true ∧
    willTick (gated [(aTmr 31 0x24, 1)]) 31 = true ∧ up.gateAt 31 = false ∧ up.gateMaxed 31 = false ∧ (tmr []).ticks 31 = true ∧ up.ticks 31 = false ∧
    gateSource ((tmr []).rf (aTmr 31 4) 8 7) = true ∧ gateSource ((dev [(aTmr 31 4, 0x400)]).rf (aTmr 31 4) 8 7) = false := by decide +kernel
theorem wit_Timers_more : (tmr []).rf (aTmr 31 4) 8 7 < 4 ∧ (tmr [(aTmr 31 4, 0x2000)]).rf (aTmr 31 4) 8 7 = 0x20 ∧
    (tmr [(aTmr 31 4, 0x3F00)]).rf (aTmr 31 4) 8 7 = 0x3F ∧ (tmr [(aTmr 31 4, 0x7F00)]).rf (aTmr 31 4) 8 7 = 0x7F ∧
    (tmr [(aTmr 31 4, 0x1F00)]).rf (aTmr 31 4) 8 7 = 0x1F ∧ (gated []).gateIn 31 true = ((gated []).gateFf 31).1 ∨ (gated []).gateIn 31 false = ((gated []).gateFf 31).1 := by
  decide +kernel
/-- A tick of channel 31 has come in this edge; a COUNT that this PCLK cycle has written. -/
theorem wit_Timers_edges : 30 < ({ tmr [] with tmrEdge := 32 }).tmrEdge ∧ (tmr []).tmrEdge ≤ 31 ∧ up.bus = [] ∧
    ((up.setBus 0 ⟨[0], [(aTmr 0 0x14, 5)], [], []⟩).busCycle (busOf (aTmr 0 0x14))).before.find? (fun p => p.1 == aTmr 0 0x14) =
      some (aTmr 0 0x14, 5) := by decide +kernel
theorem wit_Timers_action : (if up.tmrDue = [] then up.tmrActs else up.tmrDue) = [] ∧
    (if ({ up with tmrActs := [(31, 1), (31, 2)] }).tmrDue = [] then ({ up with tmrActs := [(31, 1), (31, 2)] }).tmrActs else []) = [(31, 1), (31, 2)] ∧
    ({ up with tmrDue := [(31, 3)], tmrActs := [(30, 1)] }).tmrDue = [(31, 3)] ∧ (dev [(aTmrBlk 0x1000, 0x80000000)]).groupChans = [31] ∧
    ((dev [(aTmrBlk 0x1000, 0x80000000)]).groupChans.filter fun c => !(dev [(aTmrBlk 0x1000, 0x80000000)]).tmrLinked c)[0]? = some 31 ∧
    31 ∉ up.groupChans ∧ (slow []).inSlow 31 = true ∧ up.inSlow 31 = false ∧ up.tmrBase 31 = 31 ∧ (dev [(aTmr 30 4, 8)]).tmrBase 31 ≠ 31 ∧
    (slow [(aTmr 31 0, 1)]).bit (aTmr 31 0) 0 = true ∧ (slow []).bit (aTmr 31 0) 0 = false ∧
    (dev [(aTmr 31 0xC, 1), (aTmr 31 0x28, 2)]).rf (aTmr 31 0x28) 0 24 ≤ (dev [(aTmr 31 0xC, 1), (aTmr 31 0x28, 2)]).tmrVal 31 0xC + 1 ∧
    (dev [(aTmr 31 0xC, 1), (aTmr 31 0x28, 3)]).tmrVal 31 0xC + 1 < (dev [(aTmr 31 0xC, 1), (aTmr 31 0x28, 3)]).rf (aTmr 31 0x28) 0 24 ∧
    (dev [(aTmr 30 4, 8)]).tmrLinked (2 * 15) = true ∧ up.tmrLinked (2 * 15) = false := by decide +kernel
theorem wit_Timers_inv : (tmr []).Inv ∧ (gated [(aTmr 31 0x24, 1)]).Inv ∧ up.Inv := by
  refine ⟨?_, ?_, ?_⟩ <;> constructor <;> decide +kernel
/- Witnesses: the host link and its commands -------------------------------------------------------------- -/

/-- A started device with one command waiting in queue 15, and more registers, queues' commands in progress and so on by update. -/
def host : State :=
  { up with bar0 := [(8, 1), (aQ 15 0x10, 0x10001), (aQ 15 0x14, 0x100)], queues := [(15, ⟨0, 1, 0, 0, true⟩)] }
/-- A command of queue 15 with LENGTH `len` and parameters `par`, byte 0x08 of the command in bits [7:0]. -/
def pk (len : Nat) (par : Nat) : Packet :=
  ⟨15, 0, 7, BitVec.ofNat 16 len, 0, BitVec.ofNat 448 par, [], none, none, false, false⟩
theorem starts {s : State} {p : Packet} (op : Nat) (h : s.pickQ = some p.q.val ∧ s.bitB 8 0 = true ∧
    p.fetchErr = false ∧ s.sleeping = false ∧ s.inprog = []) : s.Starts op p :=
  { next := h.1, ready := h.2.1, fetched := h.2.2.1, awake := fun _ => h.2.2.2.1, fence := fun _ => h.2.2.2.2
    others := by simp [h.2.2.2.2], order := by simp [h.2.2.2.2], alone := by simp [h.2.2.2.2], ids := by simp [h.2.2.2.2] }
theorem host_starts (op len par : Nat) : host.Starts op (pk len par) :=
  starts op ⟨by show host.pickQ = some 15; decide +kernel, by decide +kernel, rfl, rfl, rfl⟩
/-- Parameters of a command with a buffer: DPTR 0, DLEN `n`. -/
def buf (n : Nat) : Nat := n <<< 64
def waitsFor (w : Wait) (op : Nat) (p : Packet) : State := { host with inprog := [⟨0, op, p, 1, true, w⟩], nextId := 1 }

theorem wit_HostQueues : up.qEnabled 15 = false ∧ 1 ≤ (dev []).rfB (aQ 15 0x10) 0 12 + 1 ∧
    1 ≤ ({ up with bar0 := [(aQ 15 0x10, 0x10001)] }).rfB (aQ 15 0x10) 0 12 ∧ 1 ≤ ({ up with bar0 := [(aQ 15 0x10, 0x10001)] }).rfB (aQ 15 0x10) 16 12 ∧
    up.rfB (aQ 15 0x10) 16 12 = 0 ∧ host.qEnabled 15 = true ∧ host.qFailed 15 = false ∧ field 1 0 12 < host.sqLen 15 ∧
    host.sqLen 15 ≤ field 2 0 12 ∧ ¬(host.cqLen 15 ≤ field 0 0 12 ∨ ((host.qp 15).ctail + host.cqLen 15 - (host.qp 15).chead) % host.cqLen 15 <
      (field 0 0 12 + host.cqLen 15 - (host.qp 15).chead) % host.cqLen 15) ∧ host.cqLen 15 ≤ field 2 0 12 ∧
    ({ host with msixPend := 0x80000000, bar2 := [(16 * 31 + 12, 0)] }).msixPend.getLsbD 31 = true ∧
    (({ host with msixPend := 0x80000000, bar2 := [(16 * 31 + 12, 0)] }).rd2 (16 * 31 + 12)).getLsbD 0 = false ∧
    (host.rd2 (16 * 31 + 12)).getLsbD 0 = true ∧ (⟨0, 0, pk 0 0, 1, true, .data⟩ : Cur).live = true ∧ (pk 0 0).cplErr = false ∧
    State.reset.power ≠ .off ∧ ({ up with power := .off }).power = .off ∧ (1 ≤ (5 : BitVec 3).toNat ∧ (5 : BitVec 3).toNat ≤ 5) := by decide +kernel
theorem wit_HostQueues_inv : host.Inv := by constructor <;> decide +kernel
def msixHost (mask : W32) : State := { host with msixPend := 0x80000000, bar2 := [(16 * 31 + 12, mask)], cfgSpace := [(0x40, 0x80000000)] }
theorem wit_HostQueues_link : up.perst = false ∧ State.reset.perst = true ∧ up.qEnabled 15 = false ∧ up.rfB (aQ 15 0x10) 0 12 = 0 ∧
    ((msixHost 0).rdCfg 0x40).getLsbD 31 = true ∧ ((msixHost 0).rdCfg 0x40).getLsbD 30 = false ∧ (msixHost 0).msixPend.getLsbD 31 = true ∧
    ((msixHost 0).rd2 (16 * 31 + 12)).getLsbD 0 = false ∧ (up.rdCfg 0x40).getLsbD 31 = false ∧ (15 : Nat) < 16 ∧
    (⟨0, 0, pk 0 0, 1, false, .data⟩ : Cur).live = false ∧ LinkEnd.linkDown ≠ .perst false ∧ LinkEnd.linkDown ≠ .perst true ∧
    up.power = .up ∧ up.power ≠ .off ∧ State.reset.power ≠ .up ∧
    ({ host with inprog := [⟨0, 4, pk 4 1, 1, true, .notice 1⟩], stickyNote := some 5 }).stickyNote = some 5 ∧ (1 : BitVec 3).getLsbD 0 = true ∧
    ({ pk 12 0 with hostErr := some 3 } : Packet).hostErr = some 3 ∧ 3 < (List.replicate 8 (0 : Byte)).length ∧
    ({ pk 12 0 with fetchErr := true } : Packet).fetchErr = true ∧ (∀ c ∈ host.inprog, c.wait = .held ∨ c.wait = .data) := by decide +kernel
/-- A command of another queue that itself waits for its fence is not passed over: its start is not due yet. -/
theorem wit_Starts_order : (⟨0, 3, { pk 0 0 with q := 14 }, 1, true, .held⟩ : Cur).fenced = true := by decide +kernel
/-- NOP and an opcode of no row; a command that waits while the device sleeps. -/
theorem wit_HostCommands_words : up.pending = [] ∧ (0x07000F00 : BitVec 512).extractLsb' 0 8 = 0 ∧
    (0xFF : BitVec 512).extractLsb' 0 8 = 0xFF ∧ 0xFF ∉ opcodes ∧ (waitsFor .release 0x41 (pk 4 1)).inprog.length = 1 ∧
    ({ waitsFor .release 0x41 (pk 4 1) with sleeping := true } : State).sleeping = true ∧
    (∀ k, Wait.release ≠ .notice k) := ⟨rfl, by decide +kernel, by decide +kernel, by decide +kernel, rfl, rfl, nofun⟩
theorem wit_HostCommands_start : host.Starts 0 (pk 0 0) ∧ host.Starts 3 (pk 0 0) ∧ host.Starts 0xFF (pk 0 0) ∧ 0xFF ∉ opcodes :=
  ⟨host_starts _ _ _, host_starts _ _ _, host_starts _ _ _, by decide⟩
theorem wit_HostCommands : up.takes = true ∧ up.pickQ = none ∧ up.qBusy 15 = false ∧ host.takes = true ∧ host.pickQ = some 15 ∧
    (∃ k < 16, ({ host with bar0 := [(8, 1), (aQ 15 0x10, 0x10001), (aQ 15 0x14, 0x500)] }).eligible k = true ∧
      ({ host with bar0 := [(8, 1), (aQ 15 0x10, 0x10001), (aQ 15 0x14, 0x500)] }).bitB (aQ k 0x14) 10 = true) ∧
    (∀ q < 16, up.eligible q = false) ∧ (pk 1 0).length.toNat ≠ 0 ∧ ({ host with bar0 := [(8, 3)] }).bitB 8 1 = true ∧ permitted 0x10 = false ∧
    (pk 0 1).params.toNat.testBit 0 = true ∧ (0 : Nat).testBit 0 = false ∧ host.precheck 1 (pk 12 (buf 256)) 12 (namedBits bufFields) = 0 ∧
    dataOk (pk 12 (buf 256)) dlenMax = true ∧ 256 ≤ pdlen (pk 12 (buf 256)) ∧ pdlen (pk 12 (buf 252)) < 256 ∧ host.image = none ∧
    host.precheck 2 (pk 4 0x7000F) 4 (namedBits [(8, 0, 4), (8, 16, 16)]) = 0 ∧
    host.precheck 4 (pk 4 7) 4 (namedBits [(8, 0, 3)]) = 0 ∧ (host.inprog.filter fun x => x.wait.isNotice).length < 4 ∧
    ({ waitsFor (.notice 1) 4 (pk 4 1) with stickyNote := some 5 }).stickyNote = some 5 := by decide +kernel
/-- Queue 14 waits for sites while queue 15 aborts that command, named by queue and tag; four commands wait for notices. -/
def otherCur (i : Nat) (w : Wait) : Cur := ⟨i, 0x44, { pk 36 0 with q := 14 }, 1, true, w⟩
def otherWaits (l : List Cur) : State := { host with inprog := l, nextId := 9 }
theorem wit_HostCommands_abort : (otherWaits [otherCur 0 (.sites 1)]).Starts 2 (pk 4 0x7000E) ∧
    ((otherWaits [otherCur 0 (.sites 1)]).inprog.find? fun x => x.pkt.q.val == pfld (pk 4 0x7000E) 8 0 4 && x.pkt.tag.toNat == pfld (pk 4 0x7000E) 8 16 16)
      = some (otherCur 0 (.sites 1)) ∧ (otherCur 0 (.sites 1)).wait.abortable = true ∧ (otherCur 0 .data).wait.abortable = false :=
  ⟨{ next := by show (otherWaits _).pickQ = some 15; decide +kernel, ready := rfl, fetched := rfl, awake := fun _ => rfl,
     fence := by decide +kernel, others := by decide +kernel, order := by decide +kernel, alone := by decide +kernel, ids := by decide +kernel },
   by decide +kernel, rfl, rfl⟩
theorem wit_HostCommands_notice : (otherWaits ((List.range 4).map fun i => otherCur i (.notice 1))).Starts 4 (pk 4 7) ∧
    4 ≤ ((otherWaits ((List.range 4).map fun i => otherCur i (.notice 1))).inprog.filter fun x => x.wait.isNotice).length :=
  ⟨{ next := by show (otherWaits _).pickQ = some 15; decide +kernel, ready := rfl, fetched := rfl, awake := fun _ => rfl,
     fence := by decide +kernel, others := by decide +kernel, order := by decide +kernel, alone := by decide +kernel, ids := by decide +kernel }, by decide +kernel⟩

/-- A smallest image: two empty sections and no signature; its digest was computed outside the model. -/
def imgN : Nat := 0x90e55a8745bc10aa2c12ddaaa0048554d491c369a2ec91cfa6b55bc68ed9ec972465da2e9db711f0153a1b24e66c40470000000000000000000000000000000000000000000001400000002000000004000000000000000000000000000000000000000000000140000000000000000100000000000000000000000000000000000000000000000000000000000000000000000000000000000000000000000000000000000000000000000000000000000000000000000000000000000000000000000000000000000000000000000000000000000000000000000000000000000000000000000000000000000000000000000000000000000000000000000000000000000000000000000000000000000000000000000000000000000000000000000000000000000000000000000000000000000000000000000000000000000000000000000000009656000000000000010000000002000000000000014000000100000000010a0d474d49484354
def anImage : Img := ⟨480, fun i => BitVec.ofNat 8 (imgN / 256 ^ i)⟩
/-- Slot B holds that image, or one byte that is no MAGIC. -/
def slotB (n : Nat) (v : NvSt) : State :=
  { host with flash := (List.range' 0 n).map fun i => (flashKey 1 i, some (BitVec.ofNat 8 (if n = 480 then imgN / 256 ^ i else 0))), nv := v }
theorem test_sha384 : sha384 (anImage.bytes 0 320) = anImage.bytes 320 48 := by decide +kernel
theorem wit_ImageChecks : anImage.check Config.fwVersion.toNat host.nv = none ∧
    ((⟨480, fun _ => 0⟩ : Img).check Config.fwVersion.toNat host.nv).isSome = true := by decide +kernel
theorem wit_ImageCommit : (slotB 480 NvSt.init).slotStatus 0x12 (pk 4 1) = 0 ∧ (slotB 480 NvSt.init).slotInUse (pfld (pk 4 1) 8 0 32) = 0 ∧
    (((slotB 8 NvSt.init).slotImg 1).check Config.fwVersion.toNat NvSt.init).isSome = true := by decide +kernel
theorem get_run {α : Type} (d f : Nat → α) (a k : Nat) : ∀ n m : Nat,
    spGet d ((List.range' m n).map fun i => (a + i, f i)) (a + k) = if m ≤ k ∧ k < m + n then f k else d (a + k)
  | 0, m => by simp only [List.range', List.map_nil, spGet]; rw [if_neg (by omega)]
  | n + 1, m => by
    simp only [List.range', List.map_cons, spGet, get_run d f a k n (m + 1)]
    split
    · next h => simp [show m = k by omega]
    · next h => congr 1; simp only [eq_iff_iff]; omega
/-- What the slot holds, with the bytes after the image free. -/
theorem slotB_img (v : NvSt) : (slotB 480 v).slotImg 1 =
    ⟨imgMax, fun o => if o < 480 then BitVec.ofNat 8 (imgN / 256 ^ o) else Config.erased 1 o⟩ := by
  refine congrArg (Img.mk imgMax) (funext fun o => ?_)
  simp only [State.slotByte, State.programmed, slotB, flashKey, if_true,
    get_run (fun _ => none) (fun i => some (BitVec.ofNat 8 (imgN / 256 ^ i)))]
  by_cases h : o < 480 <;> simp [h]
theorem wit_ImageCommit_pass : ((slotB 480 NvSt.init).slotImg 1).check Config.fwVersion.toNat (slotB 480 NvSt.init).nv = none := by
  rw [slotB_img]; decide +kernel
theorem activate_passes (s : State) (k : Nat) (h : (s.slotImg k).check Config.fwVersion.toNat s.nv = none) :
    ∃ t, s.activateSlot k = (t, true) := by
  simp [State.activateSlot, State.activate, h]
theorem wit_Activate : ∃ t, ((slotB 480 NvSt.init).begun 0x13 (pk 4 1)).activateSlot 1 = (t, true) :=
  activate_passes _ 1 (show ((slotB 480 NvSt.init).slotImg 1).check Config.fwVersion.toNat (slotB 480 NvSt.init).nv = none from wit_ImageCommit_pass)

/-- Parameters of a command with a buffer of `n` bytes and `v` in the words from byte 0x14 on. -/
def bufV (n v : Nat) : Nat := n <<< 64 + v <<< 96
/-- A smallest command `op`: from the waiting queue, with LENGTH `len` and parameters `par`. -/
theorem wit_ImageAndMemory_start (op len par : Nat) : host.Starts op (pk len par) := host_starts op len par
/-- 48 bytes, the most significant first. -/
def be48 (v : Nat) : List Byte := (List.range 48).map fun i => BitVec.ofNat 8 (v / 256 ^ (47 - i))
def keyK (k : Nat) : Packet := { pk 16 (bufV 96 k) with buf := be48 p384G.1 ++ be48 p384G.2 }
def hostK (nv : NvSt) : State := { host with nv := nv }
theorem wit_ImageSlots : firstOf [host.slotStatus 0x10 (pk 4 1), host.slotInUse 1] = 0 ∧
    firstOf [host.slotStatus 0x10 (pk 4 2), host.slotInUse 2] ≠ 0 ∧ 1 < 2 ∧ imgMax - 1 < imgMax ∧
    host.stageStatus 0x11 (pk 20 (bufV 8 1)) = 0 ∧ host.slotInUse (pfld (pk 20 (bufV 8 1)) 0x14 0 32) = 0 ∧
    host.slotStatus 0x13 (pk 4 1) = 0 ∧ host.activeStatus = 0 ∧ (dev [(aSite 255 0x14, 1)]).activeStatus ≠ 0 ∧
    ((slotB 8 NvSt.init).activateSlot 1).2 = false ∧ host.precheck 0x18 (pk 12 (buf imgMax)) 12 (namedBits bufFields) = 0 ∧
    dataOk (pk 12 (buf imgMax)) imgMax = true ∧ host.stageStatus 0x14 (pk 20 (bufV 8 1)) = 0 := by decide +kernel
theorem wit_Keys : onCurve p384G.1 p384G.2 = true ∧ onCurve p384G.1 0 = false ∧
    (hostK { NvSt.init with keys := #v[none, none, none, some (1, 2)] }).nv.keyTaken 3 = true ∧ host.nv.keyTaken 3 = false ∧
    firstOf [host.precheck 0x15 (keyK 3) 16 (namedBits (bufFields ++ [(0x14, 0, 32)])), stIf (!dataOk (keyK 3) dlenMax || pdlen (keyK 3) != 96) 3,
      stIf (decide (4 ≤ (3 : Nat))) 3] = 0 ∧ host.precheck 0x16 (pk 4 3) 4 (namedBits [(8, 0, 32)]) = 0 ∧ pfld (pk 4 3) 8 0 32 < 4 ∧
    host.precheck 0x17 (pk 4 3) 4 (namedBits [(8, 0, 2)]) = 0 ∧ (hostK { NvSt.init with lock := true }).nv.lock = true ∧
    (pfld (pk 4 1) 8 0 1 == 1) ≠ (hostK { NvSt.init with lock := true }).nv.require ∧ host.nv.lock = false := by decide +kernel
theorem wit_RegCommands : host.precheck 0x20 (pk 4 0x7FFFFFFC) 4 (namedBits [(8, 0, 32)]) = 0 ∧
    pfld (pk 4 0x7FFFFFFC) 8 0 32 < 2 ^ 31 ∧ pfld (pk 4 0x7FFFFFFC) 8 0 32 % 4 = 0 ∧ pfld (pk 4 0x7FFFFFFF) 8 0 32 % 4 ≠ 0 ∧
    2 ^ 31 ≤ pfld (pk 4 0x80000000) 8 0 32 ∧ host.precheck 0x21 (pk 8 0xFFFFFFFF00000084) 8 (namedBits [(8, 0, 32), (0xC, 0, 32)]) = 0 ∧
    host.precheck 0x22 (pk 16 (bufV 0x4000 0x100000)) 16 (namedBits (bufFields ++ [(0x14, 0, 32)])) = 0 ∧
    dataOk (pk 16 (bufV 0x4000 0x100000)) 0x4000 = true ∧ 0 < pdlen (pk 16 (bufV 0x4000 0x100000)) := by decide +kernel
/-- Sixteen bytes across two blocks of 256, in DRAM. -/
def mem16 : Packet := pk 24 (16 <<< 64 + 0x10000000F8 <<< 128)
/-- The transfer of command 0, over: with no error, or with one in its second transaction. -/
def memDone (e : Option Nat) (data : Option (List Byte)) : Xfer :=
  ⟨5, .host 0, 13, 0, 256, false, 0x10000000F8, 16, data, 16, 16, (if e.isSome then 8 else 16), 8, List.replicate 16 1, e⟩
/-- MEM_READ or MEM_WRITE in its data phase. -/
def inData (op : Nat) (x : Xfer) : State := { host with inprog := [⟨0, op, mem16, 1, true, .data⟩], nextId := 6, xfers := [x] }
theorem wit_MemCommands : host.memStatus 0x30 mem16 false = 0 ∧ host.memStatus 0x31 mem16 true = 0 ∧
    (∀ x ∈ host.xfers, x.key ≠ .host host.nextId) ∧ 0 < hostMoves mem16 ∧ (inData 0x30 (memDone none none)).sleeping = false ∧
    (inData 0x30 (memDone none none)).xferOf (.host 0) = some (memDone none none) ∧ (memDone none none).over = true ∧
    (inData 0x30 (memDone none none)).memStatus 0x30 mem16 false = 0 ∧ (inData 0x31 (memDone none none)).memStatus 0x31 mem16 true = 0 ∧
    ({ memDone none none with ans := 8 } : Xfer).over = false ∧ (memDone (some 2) none).over = true ∧ (memDone (some 2) none).err = some 2 ∧
    (memDone none none).err = none ∧ (memDone none none).blk = 256 ∧ ({ memDone none none with sent := 8 } : Xfer).sent < (memDone none none).len := by
  decide +kernel
theorem wit_MemCommands_start : host.Starts 0x30 mem16 ∧ host.Starts 0x31 mem16 := ⟨host_starts _ _ _, host_starts _ _ _⟩
theorem wit_Owner : host.precheck 0x32 (pk 4 0x112F) 4 (namedBits [(8, 0, 16)]) = 0 ∧ pfld (pk 4 0x112F) 8 0 8 < 48 ∧
    ownerCode (pfld (pk 4 0x112F) 8 8 8) = true ∧ host.bit (aBnk 47 8) 4 = false ∧
    ({ host with regs := [(aBnk 47 8, 0x10)] }).bit (aBnk 47 8) 4 = true ∧
    host.precheck 0x33 (pk 12 (buf 2048)) 12 (namedBits bufFields) = 0 ∧ dataOk (pk 12 (buf 2048)) dlenMax = true ∧
    2048 ≤ pdlen (pk 12 (buf 2048)) ∧ (waitsFor (.owner 47 16) 0x32 (pk 4 0x112F)).bit (aBnk 47 8) 4 = false := by decide +kernel

/-- An image with a program word, a channel, a gate, an owner, and a block for a bank, a pattern store and a scramble table; only
the sections stand in it. -/
def placedImg : Img :=
  let e := fun i typ off len => (typ + off <<< 64 + len <<< 128) <<< (8 * (256 + 32 * i))
  let blk := fun o inst wb cnt start => (inst + wb <<< 16 + cnt <<< 32 + start <<< 64 + 7 <<< 128) <<< (8 * o)
  let n := 7 <<< (8 * 0x18) + e 0 1 512 16 + e 1 2 528 16 + e 2 3 544 8 + e 3 10 560 4 + e 4 12 576 32 + e 5 6 608 32 + e 6 7 640 32 +
    9 <<< (8 * 512) + (1023 + 0x80000000 <<< 32) <<< (8 * 528) + (63 + 0x80000000 <<< 32) <<< (8 * 544) + (47 + 0x11 <<< 8) <<< (8 * 560) +
    blk 576 47 8 1 131071 + blk 608 15 16 1 4095 + blk 640 7 4 1 65535
  ⟨672, fun i => BitVec.ofNat 8 (n / 256 ^ i)⟩
theorem wit_Placement : ((placedImg.find 1).map fun x => (x.len / 16, placedImg.num x.off 16)) = some (1, 9) ∧
    ((placedImg.rcds 2).map fun q => placedImg.num q.off 2) = [1023] ∧ ((placedImg.rcds 3).map fun q => placedImg.num q.off 1) = [63] ∧
    ((placedImg.rcds 10).map fun q => (placedImg.num q.off 1, placedImg.num (q.off + 1) 1)) = [(47, 0x11)] ∧
    (placedImg.blocks 12).map (fun b => (b.inst, b.start, b.cnt, b.ok)) = [(47, 131071, 1, true)] ∧ placedImg.blocks 13 = [] ∧
    placedImg.unitWords 6 = [(15, 4095, 7)] ∧ placedImg.unitWords 7 = [(7, 65535, 7)] ∧ anImage.blocks 6 = [] ∧ anImage.blocks 7 = [] ∧
    (0x8F77 : Nat) / 2 ^ 15 % 2 = 1 ∧ anImage.digest = anImage.digest ∧ placedImg.digest ≠ anImage.digest := by decide +kernel
/-- Staging over bytes that are erased, and up to one that is not. -/
theorem wit_Staging : (slotB 8 NvSt.init).programmed 1 8 = none ∧ (slotB 8 NvSt.init).programmed 1 7 = some 0 ∧
    host.programmed 0 (imgMax - 1) = none ∧ (imgMax - 1) + [(7 : Byte)].length ≤ imgMax ∧
    ((slotB 8 NvSt.init).program 1 8 [7] 0).2 = (1, true) ∧ ((slotB 8 NvSt.init).program 1 7 [7] 0).2 = (0, false) ∧
    ({ pk 20 (bufV 8 1) with hostErr := some 3 } : Packet).hostErr = some 3 ∧ 3 < pdlen (pk 20 (bufV 8 1)) := by decide +kernel
theorem wit_Staging_inv : (slotB 8 NvSt.init).Inv ∧ host.Inv := by refine ⟨?_, ?_⟩ <;> constructor <;> decide +kernel
/-- IMAGE_ACTIVATE_HOST with the smallest image in its buffer, read twice alike. -/
def pkImg : Packet := { pk 12 (buf 480) with buf := anImage.bytes 0 480 }
theorem wit_ActivateHost : ∃ t, (host.begun 0x18 pkImg).activate (firstReading pkImg) (secondReading pkImg) 2 = (t, true) := by
  have h : (firstReading pkImg).check Config.fwVersion.toNat (host.begun 0x18 pkImg).nv = none := by
    show (firstReading pkImg).check Config.fwVersion.toNat NvSt.init = none
    decide +kernel
  have e : ∃ m, secondReading pkImg = some m ∧ m.digest = (firstReading pkImg).digest := ⟨_, rfl, by decide +kernel⟩
  obtain ⟨m, hm, hd⟩ := e
  exact ⟨_, by simp only [State.activate, h, hm, if_pos hd]; rfl⟩

/- Witnesses: tests, tasks, lanes and control ------------------------------------------------------------- -/

/-- The waiting command of queue 15 in a device with registers `r`. -/
def hostR (r : List (Nat × W32)) : State := { host with regs := r }
theorem hostR_starts (r : List (Nat × W32)) (op len par : Nat) : (hostR r).Starts op (pk len par) :=
  starts op ⟨by
    have e : (hostR r).pickQ = host.pickQ := by
      simp only [State.pickQ, show (hostR r).eligible = host.eligible from rfl, show (hostR r).bitB = host.bitB from rfl,
        show (hostR r).lastQ = host.lastQ from rfl]
    have h : host.pickQ = some 15 := by decide +kernel
    exact e.trans h, by show host.bitB 8 0 = true; decide +kernel,
    rfl, rfl, rfl⟩
/-- Site 255 in state `st`, enabled; with `st` 11 it is done and FINAL. -/
def site255 (st : Nat) : State := hostR [(aSite 255 0x10, 1), (aSite 255 0x14, BitVec.ofNat 32 st)]
def mask255 : Nat := 2 ^ 255
/-- Region 16383 waits for its reset, in site 255. -/
def resetting : State := { hostR [(aSite 255 0xC, 0x13FFF)] with thr := [(3, { ThrSt.init with resets := [16383] })] }
theorem wit_TestCommands : host.precheck 0x40 (pk 32 mask255) 32 (namedBits maskField) = 0 ∧ pktSites (pk 32 mask255) = [255] ∧
    (site255 11).mayArm 255 = true ∧ (site255 2).mayArm 255 = false ∧ resetting.armPending mask255 = true ∧ host.armPending mask255 = false ∧
    host.precheck 0x41 (pk 4 1) 4 (namedBits [(8, 0, 1)]) = 0 ∧ pfld (pk 4 1) 8 0 1 = 1 ∧ pfld (pk 4 0) 8 0 1 = 0 ∧
    (hostR [(aPx 15 0, 1)]).armedPx ≠ [] ∧ host.armedPx = [] ∧ (hostR [(aPx 15 0, 1), (aPx 15 4, 1)]).isArmed 15 = true ∧
    (hostR [(aPx 15 0, 1), (aPx 15 4, 1)]).pxState 15 = 1 ∧ host.startReq = false ∧
    host.precheck 0x42 (pk 32 mask255) 32 (namedBits maskField) = 0 ∧ host.precheck 0x43 (pk 32 mask255) 32 (namedBits maskField) = 0 ∧
    (site255 1).siteState 255 ≠ 2 ∧ (site255 2).siteState 255 = 2 ∧
    host.precheck 0x44 (pk 36 mask255) 36 (namedBits (maskField ++ [(0x28, 0, 32)])) = 0 ∧ (site255 1).siteState 255 ≠ 0 ∧
    host.siteState 255 = 0 ∧ (site255 11).siteState 255 = 3 ∧ (site255 11).siteFinal 255 = true ∧ (site255 3).siteFinal 255 = false ∧
    maskSites mask255 = [255] ∧ pfld (pk 36 (1 <<< 256)) 0x28 0 32 ≠ 0 ∧ pfld (pk 36 mask255) 0x28 0 32 = 0 ∧
    host.precheck 0x45 (pk 4 255) 4 (namedBits [(8, 0, 8)]) = 0 := by decide +kernel
theorem wit_TestCommands_inv : (hostR [(aPx 15 0, 1), (aPx 15 4, 1)]).Inv := by constructor <;> decide +kernel
theorem wit_TaskCommands : host.precheck 0x46 (pk 4 0x1EFF) 4 (namedBits [(8, 0, 13)]) = 0 ∧ pfld (pk 4 0x1EFF) 8 8 5 ≠ 31 ∧
    pfld (pk 4 0x1FFF) 8 8 5 = 31 ∧ host.precheck 0x50 (pk 16 (bufV 536 39999)) 16 (namedBits (bufFields ++ [(0x14, 0, 16)])) = 0 ∧
    dataOk (pk 16 (bufV 536 39999)) dlenMax = true ∧ pdlen (pk 16 (bufV 24 0)) = 24 ∧ host.taskOps.length < 16 ∧
    16 ≤ ({ host with taskOps := List.replicate 16 ⟨0, 1, 0, none⟩ }).taskOps.length ∧
    host.precheck 0x51 (pk 4 0x1F9C3F) 4 (namedBits [(8, 0, 21)]) = 0 ∧ pfld (pk 4 0x1F9C3F) 8 0 16 < 40960 ∧
    40960 ≤ pfld (pk 4 0xA000) 8 0 16 ∧ host.precheck 0x52 (pk 4 0x9FFF) 4 (namedBits [(8, 0, 16)]) = 0 ∧
    host.precheck 0x53 (pk 4 0x79FFF) 4 (namedBits [(8, 0, 19)]) = 0 ∧
    host.precheck 0x54 (pk 8 0xFFF00009FFF) 8 (namedBits [(8, 0, 16), (0xC, 0, 12)]) = 0 ∧
    host.precheck 0x55 (pk 12 (buf 40960)) 12 (namedBits bufFields) = 0 ∧ dataOk (pk 12 (buf 40960)) dlenMax = true ∧
    40960 ≤ pdlen (pk 12 (buf 40960)) ∧ (∀ d ∈ host.opsDone, d.1 ≠ 0) := by decide +kernel

/-- A TASK_QUERY with a buffer of `n` bytes whose READ has been answered, and one whose read of the context is over. -/
def queried (n : Nat) (refused : Bool) : State :=
  { host with inprog := [⟨0, 0x50, pk 16 (bufV n 39999), 1, true, .query 39999⟩], nextId := 1, opsDone := [(0, refused)] }
def ctxOf (e : Option Nat) : Xfer := ⟨0, .host 0, 13, 0, 256, false, ctxKey 39999, 512, none, 512, 512, 512, 0, List.replicate 512 1, e⟩
def reading (x : Xfer) : State :=
  { host with inprog := [⟨0, 0x50, pk 16 (bufV 536 39999), 1, true, .context 39999 []⟩], nextId := 1, xfers := [x] }
theorem wit_TaskQuery : (queried 24 true).opsDone = [(0, true)] ∧ (queried 24 false).opsDone = [(0, false)] ∧ (queried 24 false).sleeping = false ∧
    pdlen (pk 16 (bufV 24 39999)) ≠ 536 ∧ pdlen (pk 16 (bufV 536 39999)) = 536 ∧ (∀ x ∈ (queried 536 false).xfers, x.key ≠ .host 0) ∧
    (reading (ctxOf none)).xferOf (.host 0) = some (ctxOf none) ∧ (ctxOf none).over = true ∧ (ctxOf none).err = none ∧
    (reading (ctxOf (some 2))).xferOf (.host 0) = some (ctxOf (some 2)) ∧ (ctxOf (some 2)).over = true ∧ (ctxOf (some 2)).err ≠ none ∧
    ({ ctxOf none with ans := 0 } : Xfer).over = false ∧ (pk 16 (bufV 536 39999)).hostErr = none := by decide +kernel

theorem wit_LaneCommands : host.precheck 0x60 (pk 36 (1 <<< 63)) 36 (namedBits [(8, 0, 64), (0x10, 0, 3), (0x10, 8, 3), (0x14, 0, 192)]) = 0 ∧
    (∀ n ∈ maskLanes (1 <<< 63), 2 ≤ (hostR [(aLn 63 0x14, 3)]).tstate n) ∧ (hostR [(aLn 63 0x14, 1)]).tstate 63 < 2 ∧ 63 ∈ maskLanes (1 <<< 63) ∧
    host.precheck 0x61 (pk 24 (bufV 32 (1 <<< 63))) 24 (namedBits (bufFields ++ [(0x14, 0, 64), (0x1C, 0, 2)])) = 0 ∧
    dataOk (pk 24 (bufV 32 (1 <<< 63))) dlenMax = true ∧ 32 * (maskLanes (pfld (pk 24 (bufV 32 (1 <<< 63))) 0x14 0 64)).length ≤ pdlen (pk 24 (bufV 32 (1 <<< 63))) ∧
    host.precheck 0x62 (pk 24 (bufV 4 (0x10000000010000 <<< 32 + 63))) 24
      (namedBits (bufFields ++ [(0x14, 0, 6), (0x14, 8, 2), (0x18, 0, 24), (0x1C, 0, 10), (0x1C, 12, 16)])) = 0 ∧
    scanBad (pk 24 (bufV 4 (0x10000000010000 <<< 32 + 63))) = false ∧ scanBad (pk 24 (bufV 0 63)) = true ∧
    host.precheck 0x63 (pk 16 (1 <<< 63)) 16 (namedBits [(8, 0, 64), (0x10, 0, 9), (0x14, 0, 1)]) = 0 := by decide +kernel
theorem wit_ReportCommands : dataOk (pk 12 (buf 256)) dlenMax = true ∧ host.precheck 0x70 (pk 12 (buf 256)) 12 (namedBits bufFields) = 0 ∧
    256 ≤ pdlen (pk 12 (buf 256)) ∧ host.precheck 0x71 (pk 12 (buf 256)) 12 (namedBits bufFields) = 0 ∧
    host.precheck 0x73 (pk 12 (buf 256)) 12 (namedBits bufFields) = 0 ∧
    host.precheck 0x72 (pk 8 0xFFFFFFFFFFFFFFFF) 8 (namedBits [(8, 0, 32), (0xC, 0, 32)]) = 0 ∧ pfld (pk 8 0xFFFFFFFFFFFFFFFF) 8 0 32 = 0xFFFFFFFF ∧
    hasW1c (pfld (pk 8 0x10000008C) 8 0 32) = true ∧ hasW1c (pfld (pk 8 0x60) 8 0 32) = false ∧
    pfld (pk 8 0x10000008D) 8 0 32 % 4 ≠ 0 ∧ pfld (pk 8 0x10000008D) 8 0 32 ≠ 0xFFFFFFFF := by decide +kernel
/-- The start of SYNC_CONFIG to RESUME. -/
theorem wit_ControlCommands : host.precheck 0x80 (pk 4 0xFF07) 4 (namedBits [(8, 0, 3), (8, 8, 8)]) = 0 ∧ host.siteActive = false ∧
    (site255 1).siteActive = true ∧ host.precheck 0x81 (pk 4 0x7F03) 4 (namedBits [(8, 0, 4), (8, 8, 7)]) = 0 ∧ pfld (pk 4 0x7F03) 8 0 4 = 3 ∧
    (hostR [(aSyn 0x100, 2)]).rf (aSyn 0x100) 0 2 = 2 ∧ host.rf (aSyn 0x100) 0 2 ≠ 2 ∧
    host.precheck 0x82 (pk 12 0x80) 12 (namedBits [(8, 0, 8), (0xC, 0, 11), (0xC, 16, 6), (0x10, 0, 20)]) = 0 ∧
    (∀ g < 8, Nat.testBit 0x80 g = true → (hostR [(aSyn 0x88, 1)]).pgLocked g = true) ∧ host.pgLocked 7 = false ∧
    host.precheck 0x90 (pk 0 0) 0 0 = 0 ∧ host.precheck 0x91 (pk 4 1000) 4 (namedBits [(8, 0, 32)]) = 0 ∧
    1 ≤ pfld (pk 4 1) 8 0 32 ∧ pfld (pk 4 1000) 8 0 32 ≤ 1000 ∧ pfld (pk 4 0) 8 0 32 = 0 ∧ 1000 < pfld (pk 4 1001) 8 0 32 ∧
    ({ up with bar0 := [(8, 9)] }).bitB 8 3 = true ∧ up.bitB 8 3 = false ∧ host.precheck 0x92 (pk 0 0) 0 0 = 0 ∧
    ({ host with bar0 := (8, 3) :: host.bar0.drop 1 }).bitB 8 1 = true ∧ host.bitB 8 1 = false := by decide +kernel
theorem wit_ControlCommands_inv : (waitsFor (.sites 1) 0x44 (pk 36 1)).Inv := by constructor <;> decide +kernel
theorem wit_Resume : ({ host with bar0 := (8, 3) :: host.bar0.drop 1 }).Starts 0x92 (pk 0 0) :=
  starts _ ⟨show State.pickQ _ = some 15 by decide +kernel, by decide +kernel, rfl, rfl, rfl⟩

/- Witnesses: power, management and health ---------------------------------------------------------------- -/

def avsIs (v : AvsSt) : State := { up with avs := v }
def taken (t : Bool) : AvsResp := ⟨t, 900, none⟩
theorem wit_VoltageAndSmbus : up.power ≠ .off ∧ up.bit 0x90 1 = false ∧ (dev [(0x90, 2)]).bit 0x90 1 = true ∧ (taken true).alert = none ∧
    ({ taken true with alert := some (some 7) }).alert = some (some 7) ∧ ({ taken true with alert := some none }).alert = some none ∧
    (avsIs ⟨none, none, none, some 2, false⟩).avs.status = some 2 ∧ up.avs.read = none ∧ up.avs.status = none ∧
    (taken true).taken = true ∧ (taken false).taken = false ∧ 909 ≤ 899 + 10 ∧ 899 ≤ 909 + 10 ∧ 899 + 10 < 910 ∧
    (avsIs ⟨none, none, some (900, none), none, false⟩).avs.read = some (900, none) ∧ up.avs.goal = none ∧
    (avsIs ⟨some 12, none, none, none, false⟩).avs.goal = some 12 ∧ (avsIs ⟨some 12, none, none, none, false⟩).stepNow < 12 ∧
    ({ avsIs ⟨some 0, none, none, none, false⟩ with regs := [(aHlt 0x604, 0x10000000)] }).stepNow = 1 ∧ up.stepNow = 0 ∧
    (avsIs ⟨none, some (905, 2), none, none, false⟩).avs.write = some (905, 2) ∧
    (avsIs ⟨none, none, some (905, some 2), none, false⟩).avs.read = some (905, some 2) ∧ up.avs.write = none := by decide +kernel

def fwGood : BootObs := ⟨true, [(.repairs, true)], 900, taken true, [(15, 7)], [(1, 5)], some 63⟩
def asleep : State := { dev [(0x64, 1)] with sleeping := true, wakeDue := some (.timer 31) }
theorem wit_PowerAndModes : ({ up with power := .off }).power = .off ∧ up.power ≠ .off ∧ State.reset.power = .entry ∧
    ({ fwGood with firmwareOk := false } : BootObs).firmwareOk = false ∧ fwGood.firmwareOk = true ∧
    2 ≤ up.nv.boot ∧ ({ NvSt.init with boot := 1 } : NvSt).boot < 2 ∧ up.bit aDbgHalt 0 = false ∧ (dev [(aDbgHalt, 3)]).bit aDbgHalt 0 = true ∧
    up.sleeping = false ∧ up.sleepCode = 0 ∧ (dev [(aSite 255 0x14, 1)]).sleepCode ≠ 0 ∧ (dev [(aPx 15 4, 4)]).pxState 15 ≠ 0 ∧
    (dev [(aDma 7 0x1C, 1)]).bit (aDma 7 0x1C) 0 = true ∧ ({ up with bar0 := [(8, 3)] }).bitB 8 1 = true ∧
    ({ up with sleepDue := true }).sleepDue = true ∧ asleep.sleeping = true ∧ asleep.wakeDue = some (.timer 31) ∧
    ({ up with histCopy := some 63 }).histCopy = some 63 ∧ up.nv.hist[63]? = none ∧
    ({ up with nv := { NvSt.init with hist := [List.replicate 64 0] } }).nv.hist[0]? = some (List.replicate 64 0) ∧
    crcHolds (List.replicate 64 0) = false := by decide +kernel
/-- A recorded row of channel 15 that the stack can no longer repair. -/
def wornNv : NvSt := { NvSt.init with repairs := [⟨5, 1, 15, 7⟩] }
theorem wit_PowerAndModes_start : (3 : Nat) < 4 ∧ inDram 0x1000000000 = true ∧ inDram 0x100000000 = false ∧ State.reset.power = .entry ∧
    wornNv.repairs ≠ up.nv.repairs ∧ up.nv.repairs = up.nv.repairs ∧ (∃ r ∈ wornNv.repairs, r.due = true ∧ wornRow fwGood.worn r = true) ∧
    up.late = [] ∧ ({ up with late := [.access 0x84 (some 1)] }).late = [] ++ [.access 0x84 (some 1)] ∧
    ({ up with late := [.access 0x84 none] }).late = [] ++ [.access 0x84 none] ∧ ({ up with late := [.adc 3] }).late = [] ++ [.adc 3] ∧ up.histCopy = none ∧
    ({ asleep with wakeDue := some .halt }).wakeDue = some .halt ∧ ({ asleep with wakeDue := some .command }).wakeDue = some .command ∧
    asleep.wakeDue ≠ some .halt := by decide +kernel
/-- A burst that was written is on its way to the stacks. -/
def queuedBurst (d : Option (List Byte)) : State := { up with dramq := [(0, ⟨15, .lone, 0x1000000020, 32, d, 0, 0, 0, 0⟩)] }
theorem wit_PowerAndModes_kept : up.dramq = [] ∧ (queuedBurst none).dramq.map (fun p => p.2.data) = [none] ∧
    (queuedBurst (some (List.replicate 32 7))).dramq.map (fun p => (p.2.data, p.2.addr, p.2.size)) =
      [(some (List.replicate 32 7), 0x1000000000 + 0x20, 32)] := by decide +kernel
theorem wit_PowerAndModes_worn : ({ up with nv := wornNv }).Inv := by constructor <;> decide +kernel
theorem wit_PowerAndModes_inv : asleep.Inv ∧ ({ up with histCopy := some 0, nv := { NvSt.init with hist := [List.replicate 64 0] } }).Inv := by
  refine ⟨?_, ?_⟩ <;> constructor <;> decide +kernel
theorem wit_BootImage : ∃ t, { slotB 480 NvSt.init with nv := { NvSt.init with boot := 1 } }.activateSlot 1 = (t, true) :=
  activate_passes _ 1 (show ((slotB 480 NvSt.init).slotImg 1).check Config.fwVersion.toNat { NvSt.init with boot := 1 } = none by
    rw [slotB_img]; decide +kernel)

/-- Slot A, the boot slot, holds no image and slot B is committed: that image, or one byte that is no MAGIC. -/
def fallback (n : Nat) : State :=
  let s := slotB n { NvSt.init with boot := 0, stA := 2, stB := 2 }
  { s with flash := (List.range 8).map (fun i => (i, some 0)) ++ s.flash }
theorem fallback_img (n : Nat) : (fallback n).slotImg 1 = (slotB n NvSt.init).slotImg 1 := by
  refine congrArg (Img.mk imgMax) (funext fun o => ?_)
  have h : ∀ a, 8 ≤ a → spGet (fun _ => none) (fallback n).flash a = spGet (fun _ => none) (slotB n NvSt.init).flash a := by
    intro a ha
    show spGet _ ((0, some 0) :: (1, some 0) :: (2, some 0) :: (3, some 0) :: (4, some 0) :: (5, some 0) :: (6, some 0) ::
      (7, some 0) :: (slotB n NvSt.init).flash) a = _
    simp only [spGet]
    repeat rw [if_neg (by omega)]
  simp only [State.slotByte, State.programmed]
  rw [h _ (by simp [flashKey, imgMax]; omega)]
/-- The state after the refusal of slot A; slot B is then the boot slot (R438). -/
theorem wit_BootFallback (n : Nat) (hn : n = 480 ∨ n = 8) : ∃ t : State, (fallback n).activateSlot 0 = (t, false) ∧ t.nv.boot = 1 ∧
    t.slotImg 1 = (slotB n NvSt.init).slotImg 1 ∧ t.nv = { NvSt.init with boot := 1, stA := 3, stB := 2 } := by
  have h : (((fallback n).slotImg 0).check Config.fwVersion.toNat (fallback n).nv).isSome = true := by
    rcases hn with rfl | rfl <;> decide +kernel
  obtain ⟨f, hf⟩ := Option.isSome_iff_exists.mp h
  refine ⟨(((fallback n).checkResult (some f)).slotRefused 0), ?_, rfl, fallback_img n, rfl⟩
  simp [State.activateSlot, State.activate, hf]
theorem wit_BootFallback_ends : (∃ t u : State, (fallback 480).activateSlot 0 = (t, false) ∧ t.nv.boot = 1 - 0 ∧
      (t.setB (aNvc 8) 3).activateSlot 1 = (u, true)) ∧
    ∃ t u : State, (fallback 8).activateSlot 0 = (t, false) ∧ t.nv.boot = 1 - 0 ∧ (t.setB (aNvc 8) 3).activateSlot 1 = (u, false) := by
  constructor
  · obtain ⟨t, h1, h2, h3, h4⟩ := wit_BootFallback 480 (.inl rfl)
    obtain ⟨u, hu⟩ := activate_passes (t.setB (aNvc 8) 3) 1 (by
      show (t.slotImg 1).check Config.fwVersion.toNat t.nv = none
      rw [h3, h4, slotB_img]; decide +kernel)
    exact ⟨t, u, h1, h2, hu⟩
  · obtain ⟨t, h1, h2, h3, h4⟩ := wit_BootFallback 8 (.inr rfl)
    have h : (((t.setB (aNvc 8) 3).slotImg 1).check Config.fwVersion.toNat (t.setB (aNvc 8) 3).nv).isSome = true := by
      show ((t.slotImg 1).check Config.fwVersion.toNat t.nv).isSome = true
      rw [h3, h4]; decide +kernel
    obtain ⟨f, hf⟩ := Option.isSome_iff_exists.mp h
    exact ⟨t, ((t.setB (aNvc 8) 3).checkResult (some f)).slotRefused 1, h1, h2, by simp [State.activateSlot, State.activate, hf]⟩
/-- What the loss of power cut off: bytes of slot B up to 5 were erased, and the newest history entry has 4 bytes. -/
def afterLoss : State := { up with nv := { NvSt.init with hist := [List.replicate 64 7] } }
theorem wit_PowerLoss : up.rf 0x60 0 4 = 0 ∧ (dev [(0x60, 1)]).rf 0x60 0 4 ≠ 0 ∧ fwGood.cutEntry = some 63 ∧ ({ fwGood with cutEntry := none } : BootObs).cutEntry = none ∧
    afterLoss.nv.hist = List.replicate 64 7 :: [] ∧ imgMax - 1 < imgMax ∧ crcHolds ((List.replicate 64 (7 : Byte)).take 63) = false ∧
    4 * 0 + 4 ≤ ((List.replicate 64 (7 : Byte)).take 63).length ∧ up.straps = 0 := by decide +kernel
theorem wit_PowerLoss_inv : afterLoss.Inv ∧ ({ afterLoss with nv := { NvSt.init with hist := [List.replicate 63 7] } }).Inv := by
  refine ⟨?_, ?_⟩ <;> constructor <;> decide +kernel

def adc (now next : Option (Nat × Nat)) : State := { up with adc := ⟨now, next, none, false, 0⟩ }
/-- Engine 8 of Sheaf 11, a candidate whose threads have no task; the spare of the Sheaf is its slot 0. -/
def sparing : State := dev [(aShf 11 0, 0x87654321), (aShf 11 4, 1 <<< 24)]
theorem wit_Health : sensorCode 0x57 = true ∧ sensorCode 0x30 = false ∧ up.adc.now = none ∧ (adc (some (32, 0x57)) none).adc.now = some (32, 0x57) ∧
    (adc (some (32, 0x57)) none).adc.next = none ∧ (adc (some (32, 0x57)) (some (32, 0))).adc.held = none ∧
    ({ up with adc := ⟨none, none, none, true, 71⟩ }).adc.scan = true ∧ 32 < 33 ∧ (dev [(aHlt 0xC, 0)]).rf (aHlt 0xC) 16 12 < 1 ∧
    up.rf (aHlt (0x300 + 4 * 31)) 0 8 = 0 ∧ (dev [(aHlt (0x300 + 4 * 31), 0x57)]).rf (aHlt (0x300 + 4 * 31)) 0 8 = 0x57 ∧
    (4095 : Nat) < 4096 ∧ up.rf (aHlt 0x618) 0 16 ≤ 65535 ∧ (dev [(aHlt 0x250, 0x80000000)]).bit (aHlt 0x250) 31 = true ∧
    lifeFactor ((dev [(aHlt 0x250, 0x80000000)]).rf (aHlt 8) 0 12) ((dev [(aHlt 0x250, 0x80000000)]).rf (aHlt 0x250) 0 12) < 2 ^ 16 ∧
    up.bit (aShf 11 4) (16 + 8) = false ∧ up.bit (aShf 11 4) 8 = false ∧ sparing.remapReady (9 * 11 + 8) = true ∧
    sparing.bit (aShf 11 4) (16 + 8) = true ∧ sparing.posOf 11 8 = some 7 ∧ sparing.spareSlot 11 = some 0 ∧
    (run th0 []).remapReady 0 = false ∧ (up.rd 0x80).toNat ||| up.devSticky = (up.rd 0x80).toNat ∧
    ((dev [(0x8C, 1)]).rd 0x80).toNat ||| (dev [(0x8C, 1)]).devSticky ≠ ((dev [(0x8C, 1)]).rd 0x80).toNat := by decide +kernel
/-- A request in each place of the ADC and another that waits; a window of engine 107; no spare left in Sheaf 11. -/
def adcFull : State := { up with adc := ⟨some (32, 0x57), some (32, 0), some 0, false, 0⟩ }
def aged : State := { up with age := [(107, ((-5 : Int), 2))] }
def noSpare : State := dev [(aShf 11 4, 1 <<< 16 + 1 <<< 17)]
theorem wit_Health_more : adcFull.adc.held = some 0 ∧ (adc (some (32, 0x57)) (some (32, 0))).adc.next = some (32, 0) ∧ (107 : Nat) < 108 ∧ (aged.ageSum 107).2 ≠ 0 ∧
    (up.ageSum 107).2 = 0 ∧ noSpare.remapReady (9 * 11 + 0) = true ∧ noSpare.bit (aShf 11 4) 16 = true ∧ noSpare.posOf 11 0 = some 0 ∧
    noSpare.spareSlot 11 = some 8 ∧ noSpare.bit (aShf 11 4) (16 + 1) = true ∧ (noSpare.posOf 11 1).isSome = true ∧
    (noSpare.remap (9 * 11)).spareSlot 11 = none ∧ (noSpare.remap (9 * 11)).bit (aHlt 0) 12 = true := by decide +kernel
theorem wit_Health_more_inv : adcFull.Inv ∧ aged.Inv ∧ noSpare.Inv := by refine ⟨?_, ?_, ?_⟩ <;> constructor <;> decide +kernel
theorem wit_Health_inv : (adc (some (32, 0x57)) none).Inv ∧ sparing.Inv ∧ (dev [(0x8C, 1)]).Inv := by
  refine ⟨?_, ?_, ?_⟩ <;> constructor <;> decide +kernel

/-- A write of a locked field while an image is active. -/
def locked : State := { up with bar0 := [(8, 5)], image := some ([], []) }
theorem wit_RegisterWrites : (Agent.mgmt ≠ .bar0 ∧ Agent.mgmt ≠ .bar2) ∧ (0x84 : W32).toNat ≠ aDbgHalt ∧ up.sleeping = false ∧ asleep.sleeping = true ∧
    (1 : W32).getLsbD 0 = true ∧ 0x1FC % 4 = 0 ∧ 0x1FC < 0x200 ∧ 0x87 % 4 ≠ 0 ∧ regFields 0x7FFFFFFC = [] ∧ regFields 0x84 ≠ [] ∧
    up.wlLocked = false ∧ locked.wlLocked = true ∧ (regFields 0x40).any (fun f => f.acc == .wl) = true ∧
    (regFields (aLn 63 0x3C)).any (fun f => f.acc == .ro) = true ∧ (regFields (0x8C)).any (fun f => f.acc == .w1c) = true ∧
    (regFields 0x84).any (fun f => f.acc == .rw) = true ∧ up.perst = false ∧ State.reset.perst = true ∧ 0x40 % 4 = 0 ∧ up.bus = [] ∧
    (1 : W32).getLsbD 0 = true ∧ (2 : W32).getLsbD 0 = false ∧ field 1 0 1 ≠ up.rf 0x40 0 1 := by decide +kernel
theorem wit_RegisterWrites_lone : 0x7FFFFFFC % 4 = 0 ∧ 0x7FFFFFFC < 2 ^ 31 ∧ 0x86 % 4 ≠ 0 ∧ 2 ^ 31 ≤ (0x80000000 : W32).toNat ∧
    (Agent.mgmt = .mgmt ∨ Agent.mgmt = .debug) ∧ asleep.sleeping = true ∧ regFields 0x7FFFFFF8 = [] ∧ (0x80000000 : W32).toNat ≠ aDbgHalt := by
  decide +kernel
/-- A bit that an access of this PCLK cycle has set; an expander at work, and a lane that a removal preparation keeps parked. -/
def busFlag : State := (up.mgmtIn 0x8C true).flag 0x8C 1
def keptLane : State := { up with lanes := [(63, { LnSt.init with kept := true })] }
theorem wit_RegisterWrites_set : busFlag.flagged 0x8C 1 = true ∧ up.flagged 0x8C 1 = false ∧
    ((up.mgmtIn 0x8C true).busCycle (busOf 0x8C)).inputs ≠ [] ∧ 0x1FFFFC % 4 = 0 ∧ 0x1FFFFC < 0x200000 ∧ regFields 0x1FFFFC = [] ∧
    (dev [(aPx 15 4, 2)]).pxState 15 = 2 ∧ (dev [(aPx 15 4, 3)]).pxState 15 = 3 ∧ 0x40 ≤ 0x50 ∧
    (regFields (aPx 15 0x40)).any (fun f => f.acc != .ro) = true ∧ (regFields (aPx 15 0x50)).all (fun f => f.acc == .ro) = true ∧
    (keptLane.lane 63).kept = true ∧ keptLane.configures 63 0x60 0 = true ∧ keptLane.configures 63 0x50 0 = false := by decide +kernel
theorem wit_RegisterWrites_setInv : keptLane.Inv ∧ busFlag.Inv := by refine ⟨?_, ?_⟩ <;> constructor <;> decide +kernel
theorem wit_RegisterWrites_mem : ∃ f ∈ regFields 0x84, f.acc = .rw := by simpa [List.any_eq_true] using (show
    (regFields 0x84).any (fun f => f.acc == .rw) = true by decide +kernel)
theorem wit_RegisterWrites_inv : locked.Inv ∧ up.Inv := by refine ⟨?_, ?_⟩ <;> constructor <;> decide +kernel

/- The worked examples of the spec -------------------------------------------------------------------- -/

def outOf (s : State) : Host.Outcome State Fault Refusal → State
  | .next t => t
  | _ => s
/-- Thread slot 0 at `pc` of a program that holds `w` there, with W1 = 100, W2 = `w2` and the guards `b`. -/
def at_ (pc : Pc) (w : W128) (w2 : W64) (b : BitVec 8) : State :=
  { run { th0 with pc := pc, npc := pc + 1, normal := { Bank.clear with w := (Bank.clear.w.set 1 100).set 2 w2, b := b } } [] with
    prog := [(pc.toNat, w)] }
def after (s : State) : Bank := ((outOf s (exec (.instruction slot0 false) s)).th 0).normal
/-- Chapter 02, "Encoded example": W1, W2 and, with B2 false, W7. -/
theorem test_encoded_example :
    let t := after (at_ 0x400 0x4000123456702802_02AFFD2070805201 0 0)
    t.w[1] = 5 ∧ t.w[2] = 0x1234567 ∧ t.w[7] = -3 := by decide +kernel
/-- With B2 true the guarded move of the same word is squashed. -/
theorem test_encoded_example_squashed :
    (after (at_ 0x400 0x4000123456702802_02AFFD2070805201 0 4)).w[7] = 0 := by decide +kernel
/-- Chapter 03, "a guarded divide": the compare writes B1; with B1 set W3 is all ones. -/
theorem test_guarded_divide :
    (after (at_ 0x400 0x00000000000000000008001C902021C0 0 0)).b = 2 ∧
    (after (at_ 0x400 0x00000000000000000008001C902021C0 7 2)).b = 0 ∧
    (after (at_ 0x401 0x00000000000128320392021489201140 0 2)).w[3] = -1 := by decide +kernel
/-- Chapter 03: CRC-8 of 0x31 is 0x97. -/
theorem test_crc8 : crcFn 0x0000000700000007 0 0x31 8 = 0x97 := by decide +kernel
/-- Chapter 10: DRAM offset 0x1_2345 is channel 3, C = 0x1245. -/
theorem test_dram_map : up.dramChan 0x12345 = 3 ∧ up.dramC 0x12345 = 0x1245 := by decide +kernel
/-- Chapter 15, "a year of service": SLOW_MAX 168 needs step 3; the life factors at 92 °C and 45 °C and 915 mV (codes of one
sixteenth of a degree from -64 °C and of half a millivolt). -/
theorem test_year_of_service : stepsFor 168 = 3 ∧ lifeFactor 2496 1830 = 1399 ∧ lifeFactor 1744 1830 = 54 := by decide +kernel

end Sys2Proof.Tests
end

section
/-!
SUPPORT. The function units that raise no fault and never wait: what a lone trigger of the ALU and of the shifter starts, what the
results are as numbers, and the proofs of the two statements about them.
-/

namespace Sys2Proof.Machine

/- A trigger that cannot fail --------------------------------------------------------------------------- -/

/-- A lone trigger for which no unit can be busy and which raises no fault acts, in the state in which the FETCH has begun. -/
theorem State.trigger_of_noFault {s : State} {t : Th} {g : Trig} {v : W64} (hc : s.canTrigger (thIx t))
    (hw : trigWait g = none) (hcmp : ∀ op, g ≠ .cmp op 0) (hsig : g ≠ .signal)
    (hf : (s.atTrigger (thIx t)).trigFaults (thIx t) ((s.atTrigger (thIx t)).cur (thIx t)) g v (trigPort g) 0 = []) :
    s.trigger t g v = (s.atTrigger (thIx t)).trigEffect (thIx t) g v := by
  have hfree : (trigWait g).any (fun w => (s.atTrigger (thIx t)).holds (thIx t) w) = false := by rw [hw]; rfl
  have hdst := State.dstFault_trigPort (s := s.atTrigger (thIx t)) (i := thIx t) hcmp fun h => absurd h hsig
  rw [State.trigger, State.trigOnce_can hc, State.trigDo_free hfree, hdst, hf]
  rfl

/-- An ALU operation starts with the result and carry of `aluFn` (R83). -/
theorem exec_aluOperation {s : State} {t : Th} (u : Fin 2) (op : AluOp) (b : W64) (hc : s.canTrigger (thIx t)) :
    exec (.aluOperation t u op b) s =
      let s0 := s.atTrigger (thIx t)
      let r := aluFn op (if u = 0 then (s0.cur (thIx t)).latch[0] else (s0.cur (thIx t)).latch[2]) b
        (if u = 0 then (s0.cur (thIx t)).c0 else (s0.cur (thIx t)).c1)
      .next (s0.start (thIx t) (if u = 0 then .alu0 else .alu1) true r.1 0 r.2) :=
  congrArg Host.Outcome.next (State.trigger_of_noFault hc rfl (fun _ => nofun) nofun rfl)

/-- A shifter operation starts with the result of `shFn` and no carry (R85). -/
theorem exec_shifterOperation {s : State} {t : Th} (op : ShOp) (b : W64) (hc : s.canTrigger (thIx t)) :
    exec (.shifterOperation t op b) s =
      let s0 := s.atTrigger (thIx t)
      .next (s0.start (thIx t) .shifter true (shFn op (s0.cur (thIx t)).latch[4] b) 0 none) :=
  congrArg Host.Outcome.next (State.trigger_of_noFault hc rfl (fun _ => nofun) nofun rfl)

/- Results of the ALU as numbers --------------------------------------------------------------------------- -/

section
variable (a b : W64) (c : Bool)

theorem aluFn_addc_toNat : (aluFn .addc a b c).1.toNat = (a.toNat + b.toNat + c.toNat) % 2 ^ 64 := by
  have hc := c.toNat_le
  simp only [aluFn, BitVec.toNat_add, BitVec.toNat_ofNat]
  omega

theorem aluFn_sub_toNat : (aluFn .sub a b c).1.toNat = (2 ^ 64 + a.toNat - b.toNat) % 2 ^ 64 := by
  have hb := b.isLt
  simp only [aluFn, BitVec.toNat_sub]
  omega

theorem aluFn_subb_toNat : (aluFn .subb a b c).1.toNat = (2 ^ 65 + a.toNat - b.toNat - c.toNat) % 2 ^ 64 := by
  have hb := b.isLt
  have hc := c.toNat_le
  simp only [aluFn, BitVec.toNat_sub, BitVec.toNat_ofNat]
  omega

theorem aluFn_min_toInt : (aluFn .min a b c).1.toInt = min a.toInt b.toInt := by
  simp only [aluFn, BitVec.slt_iff_toInt_lt]
  split <;> omega

theorem aluFn_max_toInt : (aluFn .max a b c).1.toInt = max a.toInt b.toInt := by
  simp only [aluFn, BitVec.slt_iff_toInt_lt]
  split <;> omega

theorem aluFn_minu_toNat : (aluFn .minu a b c).1.toNat = min a.toNat b.toNat := by
  simp only [aluFn, BitVec.ult_iff_toNat_lt]
  split <;> omega

theorem aluFn_maxu_toNat : (aluFn .maxu a b c).1.toNat = max a.toNat b.toNat := by
  simp only [aluFn, BitVec.ult_iff_toNat_lt]
  split <;> omega

end

/-- Settles O7: the trigger cannot fail, so the operation starts with `aluFn`, whose result is read as a number one operation
at a time. -/
theorem aluOperation : Obligations.AluOperation := by
  intro s t u op b i s0 a c hc
  refine ⟨(aluFn op a b c).1, (aluFn op a b c).2, exec_aluOperation u op b hc, ?_⟩
  cases op with
  | add => exact ⟨BitVec.toNat_add a b, rfl⟩
  | addc => exact ⟨aluFn_addc_toNat a b c, rfl⟩
  | sub => exact ⟨aluFn_sub_toNat a b c, rfl⟩
  | subb => exact ⟨aluFn_subb_toNat a b c, rfl⟩
  | and => exact ⟨rfl, rfl⟩
  | or => exact ⟨rfl, rfl⟩
  | xor => exact ⟨rfl, rfl⟩
  | andn => exact ⟨rfl, rfl⟩
  | min => exact ⟨aluFn_min_toInt a b c, rfl⟩
  | max => exact ⟨aluFn_max_toInt a b c, rfl⟩
  | minu => exact ⟨aluFn_minu_toNat a b c, rfl⟩
  | maxu => exact ⟨aluFn_maxu_toNat a b c, rfl⟩

/- Byte lists ---------------------------------------------------------------------------------------------- -/

@[simp] theorem length_natLe (n v : Nat) : (natLe n v).length = n := by
  induction n generalizing v with
  | zero => rfl
  | succ n ih => simp [natLe, ih]

/-- Byte `k` of a number's little-endian bytes. -/
theorem getElem_natLe {n k : Nat} (v : Nat) (h : k < (natLe n v).length) : (natLe n v)[k] = BitVec.ofNat 8 (v / 256 ^ k) := by
  induction n generalizing v k with
  | zero => exact absurd h (Nat.not_lt_zero k)
  | succ n ih =>
    cases k with
    | zero => simp [natLe]
    | succ k => simp only [natLe, List.getElem_cons_succ, ih, Nat.div_div_eq_div_mul, Nat.pow_succ']

theorem leNat_lt (l : List Byte) : leNat l < 256 ^ l.length := by
  induction l with
  | nil => simp [leNat]
  | cons v l ih =>
    have hv := v.isLt
    simp only [leNat, List.length_cons, Nat.pow_succ']
    omega

/-- Digit `k` to base 256 of the little-endian number of a byte list is byte `k` of the list. -/
theorem leNat_div_mod {l : List Byte} {k : Nat} (h : k < l.length) : leNat l / 256 ^ k % 256 = l[k].toNat := by
  induction l generalizing k with
  | nil => exact absurd h (Nat.not_lt_zero k)
  | cons v l ih =>
    have hv := v.isLt
    cases k with
    | zero => simp only [leNat, List.getElem_cons_zero]; omega
    | succ k =>
      have htail : leNat (v :: l) / 256 = leNat l := by simp only [leNat]; omega
      rw [Nat.pow_succ', ← Nat.div_div_eq_div_mul, htail, List.getElem_cons_succ]
      exact ih _

/-- BSWAP gives at byte `k` the byte `7 - k` of its operand. -/
theorem bswap_div_mod (b : W64) {k : Nat} (hk : k < 8) :
    (bswap b).toNat / 256 ^ k % 256 = b.toNat / 256 ^ (7 - k) % 256 := by
  have hlt : leNat (natLe 8 b.toNat).reverse < 2 ^ 64 := by simpa using leNat_lt (natLe 8 b.toNat).reverse
  have hlen : k < (natLe 8 b.toNat).reverse.length := by simpa using hk
  have hnum : (bswap b).toNat = leNat (natLe 8 b.toNat).reverse := by
    rw [bswap, BitVec.toNat_ofNat, Nat.mod_eq_of_lt hlt]
  rw [hnum, leNat_div_mod hlen, List.getElem_reverse, getElem_natLe, BitVec.toNat_ofNat, length_natLe]

/- Results of the shifter as numbers -------------------------------------------------------------------------- -/

/-- The bits of a 64-bit number that a shift to the left by `n ≤ 64` keeps. -/
theorem mul_two_pow_mod {n : Nat} (x : Nat) (hn : n ≤ 64) : x * 2 ^ n % 2 ^ 64 = 2 ^ n * (x % 2 ^ (64 - n)) := by
  rw [← Nat.sub_add_cancel hn, Nat.pow_add, Nat.mul_mod_mul_right, Nat.add_sub_cancel, Nat.mul_comm]

section
variable (a b : W64)

theorem shFn_shl_toNat : (shFn .shl a b).toNat = a.toNat * 2 ^ (b.toNat % 64) % 2 ^ 64 := by
  simp only [shFn, BitVec.toNat_shiftLeft, Nat.shiftLeft_eq]

theorem shFn_shr_toNat : (shFn .shr a b).toNat = a.toNat / 2 ^ (b.toNat % 64) := by
  simp only [shFn, BitVec.toNat_ushiftRight, Nat.shiftRight_eq_div_pow]

theorem shFn_sar_toInt : (shFn .sar a b).toInt = a.toInt / 2 ^ (b.toNat % 64) := by
  simp only [shFn, BitVec.toInt_sshiftRight, Int.shiftRight_eq_div_pow]
  norm_cast

/-- The bits that a shift of a word to the right by `n ≤ 64` keeps lie below bit `64 - n`. -/
theorem toNat_div_two_pow_lt {n : Nat} (hn : n ≤ 64) : a.toNat / 2 ^ n < 2 ^ (64 - n) := by
  rw [Nat.div_lt_iff_lt_mul (Nat.two_pow_pos n), ← Nat.pow_add, Nat.sub_add_cancel hn]
  exact a.isLt

/-- The two parts of a rotation share no bit, so joining them is adding them. -/
theorem shFn_rol_toNat :
    (shFn .rol a b).toNat = a.toNat * 2 ^ (b.toNat % 64) % 2 ^ 64 + a.toNat / 2 ^ (64 - b.toNat % 64) := by
  have hn : b.toNat % 64 ≤ 64 := by omega
  have hlow : a.toNat / 2 ^ (64 - b.toNat % 64) < 2 ^ (b.toNat % 64) := by
    simpa only [Nat.sub_sub_self hn] using toNat_div_two_pow_lt a (Nat.sub_le 64 (b.toNat % 64))
  simp only [shFn, BitVec.toNat_rotateLeft, Nat.mod_mod, Nat.shiftLeft_eq, Nat.shiftRight_eq_div_pow]
  rw [mul_two_pow_mod _ hn, Nat.two_pow_add_eq_or_of_lt hlow]

theorem shFn_ror_toNat :
    (shFn .ror a b).toNat = a.toNat / 2 ^ (b.toNat % 64) + a.toNat % 2 ^ (b.toNat % 64) * 2 ^ (64 - b.toNat % 64) := by
  have hn : b.toNat % 64 ≤ 64 := by omega
  simp only [shFn, BitVec.toNat_rotateRight, Nat.mod_mod, Nat.shiftLeft_eq, Nat.shiftRight_eq_div_pow]
  rw [mul_two_pow_mod _ (Nat.sub_le 64 _), Nat.sub_sub_self hn, Nat.or_comm,
    ← Nat.two_pow_add_eq_or_of_lt (toNat_div_two_pow_lt a hn), Nat.add_comm, Nat.mul_comm]

/-- A shift by an amount of 0 returns A (R85). -/
theorem shFn_amount_zero {op : ShOp} (hop : op ≠ .bswap) (hn : b.toNat % 64 = 0) : shFn op a b = a := by
  cases op with
  | shl | shr | sar => simp [shFn, hn]
  | rol => exact BitVec.eq_of_toNat_eq (by have ha := a.isLt; rw [shFn_rol_toNat, hn]; omega)
  | ror => exact BitVec.eq_of_toNat_eq (by rw [shFn_ror_toNat, hn]; omega)
  | bswap => exact absurd rfl hop

end

/-- Settles O8: the trigger cannot fail, so the operation starts with `shFn`, whose result is read as a number one operation
at a time. -/
theorem shifterOperation : Obligations.ShifterOperation := by
  intro s t op b i s0 a n hc
  refine ⟨shFn op a b, exec_shifterOperation op b hc, shFn_amount_zero a b, ?_⟩
  cases op with
  | shl => exact shFn_shl_toNat a b
  | shr => exact shFn_shr_toNat a b
  | sar => exact shFn_sar_toInt a b
  | rol => exact shFn_rol_toNat a b
  | ror => exact shFn_ror_toNat a b
  | bswap => exact fun k hk => bswap_div_mod b hk

end Sys2Proof.Machine
end

section
/-!
SUPPORT. The invariants of the block over every step: what a command leaves alone and keeps (`State.Keeps`), one lemma per update
of the state in the order of the model's files, and the statements about every command and every step.
-/

namespace Sys2Proof.Machine

/- The relation and the sparse maps -------------------------------------------------------------------------- -/

/-- What a command may do to the parts of the state that the invariants speak of: it leaves the queue of waiting commands alone and
keeps the canonical forms and the condition on SAFE_N. -/
structure State.Keeps (r s : State) : Prop where
  pending : s.pending = r.pending
  inv : r.Inv → s.Inv
  safe : r.SafeInv → s.SafeInv

@[simp] theorem State.Keeps.refl (s : State) : s.Keeps s := ⟨rfl, id, id⟩

theorem State.Keeps.trans {r s t : State} (h : r.Keeps s) (g : s.Keeps t) : r.Keeps t :=
  ⟨g.pending.trans h.pending, fun x => g.inv (h.inv x), fun x => g.safe (h.safe x)⟩

/-- The parts of the state that no invariant speaks of may change at will. -/
@[simp] theorem State.Keeps.frame {r s : State}
    {fresh eclk busOut flights culmStart culmDone evq taskOps opFree pageOuts roundStart granted schedAt intake
      ctxReads ctxWrites mtxq xfers dramq pprq glnPos glnDue startReq repairQ lastQ opsDone msixPend perst
      stickyNote faultNote unreported syncq syncOut startSeq startSent sleeping tap dmaq dmaLast tmrActs
      tmrDue tmrEdge adc ageOver avs avsOut nv nvOld image power straps histCopy lifeTicks sleepDue engStop
      smbOut late wakeDue}
    (h : r.Keeps s) : r.Keeps { s with
      fresh := fresh, eclk := eclk, busOut := busOut, flights := flights, culmStart := culmStart, culmDone :=
      culmDone, evq := evq, taskOps := taskOps, opFree := opFree, pageOuts := pageOuts, roundStart :=
      roundStart, granted := granted, schedAt := schedAt, intake := intake, ctxReads := ctxReads, ctxWrites :=
      ctxWrites, mtxq := mtxq, xfers := xfers, dramq := dramq, pprq := pprq, glnPos := glnPos, glnDue :=
      glnDue, startReq := startReq, repairQ := repairQ, lastQ := lastQ, opsDone := opsDone, msixPend :=
      msixPend, perst := perst, stickyNote := stickyNote, faultNote := faultNote, unreported := unreported,
      syncq := syncq, syncOut := syncOut, startSeq := startSeq, startSent := startSent, sleeping := sleeping,
      tap := tap, dmaq := dmaq, dmaLast := dmaLast, tmrActs := tmrActs, tmrDue := tmrDue, tmrEdge := tmrEdge,
      adc := adc, ageOver := ageOver, avs := avs, avsOut := avsOut, nv := nv, nvOld := nvOld, image := image,
      power := power, straps := straps, histCopy := histCopy, lifeTicks := lifeTicks, sleepDue := sleepDue,
      engStop := engStop, smbOut := smbOut, late := late, wakeDue := wakeDue } :=
  ⟨h.pending, fun x => { h.inv x with }, h.safe⟩

@[simp] theorem State.keeps_ite {r s t : State} {c : Prop} [Decidable c] :
    r.Keeps (if c then s else t) ↔ (c → r.Keeps s) ∧ (¬c → r.Keeps t) := by
  split <;> simp [*]

theorem State.Keeps.ite {r s t : State} {c : Prop} [Decidable c] (hs : r.Keeps s) (ht : r.Keeps t) : r.Keeps (if c then s else t)
    := by
  split <;> assumption

/-- A map written at successive keys stays canonical. -/
theorem spOk_foldl_spSet {α β : Type} [DecidableEq α] {d : Nat → α} {k : β → Nat} {v : β → α} {m : List (Nat × α)} (h : spOk d m =
    true)
    (l : List β) : spOk d (l.foldl (fun m x => spSet d m (k x) (v x)) m) = true := by
  induction l generalizing m with
  | nil => exact h
  | cons x l ih => exact ih (spOk_spSet h (k x) (v x))

/-- A change of every entry that gives none the value of an unlisted key. -/
theorem spOkFrom_map {α : Type} [DecidableEq α] {d : Nat → α} {f : α → α} (hf : ∀ k v, v ≠ d k → f v ≠ d k) {m : List (Nat × α)}
    {n : Nat}
    (h : spOkFrom d n m = true) : spOkFrom d n (m.map fun p => (p.1, f p.2)) = true := by
  induction m generalizing n with
  | nil => rfl
  | cons p m ih =>
    simp only [spOkFrom, Bool.and_eq_true, decide_eq_true_eq] at h
    simp only [List.map_cons, spOkFrom, Bool.and_eq_true, decide_eq_true_eq]
    exact ⟨⟨h.1.1, hf _ _ h.1.2⟩, ih h.2⟩

/-- A change of every entry that drops those that become the value of an unlisted key. -/
theorem spOk_filterMap {α : Type} [DecidableEq α] {e : α} {m : List (Nat × α)} (h : spOk (fun _ => e) m = true) (f : α → α) :
    spOk (fun _ => e) (m.filterMap fun p => if f p.2 = e then none else some (p.1, f p.2)) = true := by
  suffices ∀ n, spOkFrom (fun _ => e) n m = true →
      spOkFrom (fun _ => e) n (m.filterMap fun p => if f p.2 = e then none else some (p.1, f p.2)) = true from this 0 h
  clear h
  induction m with
  | nil => exact fun _ h => h
  | cons p m ih =>
    intro n h
    simp only [spOkFrom, Bool.and_eq_true, decide_eq_true_eq] at h
    have htail := ih (p.1 + 1) h.2
    by_cases hp : f p.2 = e
    · simpa [hp] using spOkFrom_mono htail (by omega)
    · simpa [hp, spOkFrom, h.1.1] using htail

/-- A map that keeps the entries of one key reads the same there. -/
theorem spGet_filter_key {α : Type} (d : Nat → α) (m : List (Nat × α)) (k : Nat) : spGet d (m.filter fun p => p.1 == k) k = spGet
    d m k := by
  induction m with
  | nil => rfl
  | cons p m ih => by_cases hp : p.1 = k <;> simp [spGet, hp, ih]

/-- The state after reset is in canonical form. -/
theorem State.reset_inv : State.reset.Inv := by
  constructor
  case ids => exact fun _ h => absurd h List.not_mem_nil
  all_goals rfl

/-- A site whose FINISH holds something else is a site after reset only if it was one. -/
theorem spOk_mapHolds {m : List (Nat × SiteSt)} (h : spOk (fun _ => SiteSt.init) m = true) (f : Hold → Hold) :
    spOk (fun _ => SiteSt.init) (m.map fun p => (p.1, { p.2 with finish := p.2.finish.map fun l => l.map f })) = true := by
  refine spOkFrom_map (f := fun v : SiteSt => { v with finish := v.finish.map fun l => l.map f }) (fun _ v hv hf => hv ?_) h
  obtain ⟨finish, awaits, groups⟩ := v
  simpa [SiteSt.init] using hf

section
variable {r s : State} (h : r.Keeps s)
include h

@[simp] theorem State.wr_keeps (a : Nat) (v : W32) : r.Keeps (s.wr a v) :=
  ⟨h.pending, fun x => { h.inv x with regs := spOk_spSet (h.inv x).regs a v }, h.safe⟩
@[simp] theorem State.setByte_keeps (a : Nat) (v : Byte) : r.Keeps (s.setByte a v) :=
  ⟨h.pending, fun x => { h.inv x with mem := spOk_spSet (h.inv x).mem a v }, h.safe⟩
@[simp] theorem State.zeroFill_keeps (a n : Nat) : r.Keeps (s.zeroFill a n) :=
  ⟨h.pending, fun x => { h.inv x with mem := spOk_filter (h.inv x).mem _ }, h.safe⟩
@[simp] theorem State.setTh_keeps (i : Nat) (v : Thread) : r.Keeps (s.setTh i v) :=
  ⟨h.pending, fun x => { h.inv x with ths := spOk_spSet (h.inv x).ths i v }, h.safe⟩
@[simp] theorem State.setEng_keeps (e : Nat) (v : EngSt) : r.Keeps (s.setEng e v) :=
  ⟨h.pending, fun x => { h.inv x with engs := spOk_spSet (h.inv x).engs e v }, h.safe⟩
@[simp] theorem State.setChan_keeps (c : Nat) (v : Chan) : r.Keeps (s.setChan c v) :=
  ⟨h.pending, fun x => { h.inv x with chans := spOk_spSet (h.inv x).chans c v }, h.safe⟩
@[simp] theorem State.setTask_keeps (t : Nat) (v : TaskRec) : r.Keeps (s.setTask t v) :=
  ⟨h.pending, fun x => { h.inv x with tasks := spOk_spSet (h.inv x).tasks t v }, h.safe⟩
@[simp] theorem State.setBank_keeps (b : Nat) (v : BankSt) : r.Keeps (s.setBank b v) :=
  ⟨h.pending, fun x => { h.inv x with banks := spOk_spSet (h.inv x).banks b v }, h.safe⟩
@[simp] theorem State.setPx_keeps (n : Nat) (v : PxSt) : r.Keeps (s.setPx n v) :=
  ⟨h.pending, fun x => { h.inv x with px := spOk_spSet (h.inv x).px n v }, h.safe⟩
@[simp] theorem State.setPg_keeps (g : Nat) (v : PgSt) : r.Keeps (s.setPg g v) :=
  ⟨h.pending, fun x => { h.inv x with pg := spOk_spSet (h.inv x).pg g v }, h.safe⟩
@[simp] theorem State.setLane_keeps (n : Nat) (v : LnSt) : r.Keeps (s.setLane n v) :=
  ⟨h.pending, fun x => { h.inv x with lanes := spOk_spSet (h.inv x).lanes n v }, h.safe⟩
@[simp] theorem State.setThr_keeps (n : Nat) (v : ThrSt) : r.Keeps (s.setThr n v) :=
  ⟨h.pending, fun x => { h.inv x with thr := spOk_spSet (h.inv x).thr n v }, h.safe⟩
@[simp] theorem State.setRegion_keeps (g : Nat) (v : Region_) : r.Keeps (s.setRegion g v) :=
  ⟨h.pending, fun x => { h.inv x with regions := spOk_spSet (h.inv x).regions g v }, h.safe⟩
@[simp] theorem State.setSite_keeps (n : Nat) (v : SiteSt) : r.Keeps (s.setSite n v) :=
  ⟨h.pending, fun x => { h.inv x with sites := spOk_spSet (h.inv x).sites n v }, h.safe⟩
@[simp] theorem State.setBus_keeps (k : Nat) (c : BusCycle) : r.Keeps (s.setBus k c) :=
  ⟨h.pending, fun x => { h.inv x with bus := spOk_spSet (h.inv x).bus k c }, h.safe⟩
@[simp] theorem State.setQp_keeps (q : Nat) (v : QSt) : r.Keeps (s.setQp q v) :=
  ⟨h.pending, fun x => { h.inv x with queues := spOk_spSet (h.inv x).queues q v }, h.safe⟩
@[simp] theorem State.setDma_keeps (c : Nat) (v : DmaSt) : r.Keeps (s.setDma c v) :=
  ⟨h.pending, fun x => { h.inv x with dma := spOk_spSet (h.inv x).dma c v }, h.safe⟩
@[simp] theorem State.setWordPois_keeps (k : Nat) (v : Bool) : r.Keeps (s.setWordPois k v) :=
  ⟨h.pending, fun x => { h.inv x with bankPois := spOk_spSet (h.inv x).bankPois k v }, h.safe⟩
@[simp] theorem State.setPoison_keeps (k : Nat) (v : Bool) : r.Keeps (s.setPoison k v) :=
  ⟨h.pending, fun x => { h.inv x with poisoned := spOk_spSet (h.inv x).poisoned k v }, h.safe⟩
@[simp] theorem State.setGateSpan_keeps (c n : Nat) : r.Keeps (s.setGateSpan c n) :=
  ⟨h.pending, fun x => { h.inv x with tmrRun := spOk_spSet (h.inv x).tmrRun c n }, h.safe⟩
@[simp] theorem State.occupy_keeps (t k : Nat) : r.Keeps (s.occupy t k) :=
  ⟨h.pending, fun x => { h.inv x with mtxBusy := spOk_spSet (h.inv x).mtxBusy t k }, h.safe⟩
@[simp] theorem State.busEnd_keeps : r.Keeps s.busEnd := ⟨h.pending, fun x => { h.inv x with bus := rfl }, h.safe⟩

/-- The next number is given out. -/
theorem State.nextNumber_keeps : r.Keeps { s with nextId := s.nextId + 1 } :=
  ⟨h.pending, fun x => { h.inv x with ids := fun c hc => Nat.lt_succ_of_lt ((h.inv x).ids c hc) }, h.safe⟩

theorem State.rowCe_keeps (k n : Nat) : r.Keeps { s with rowCe := spSet (fun _ => 0) s.rowCe k n } :=
  ⟨h.pending, fun x => { h.inv x with rowCe := spOk_spSet (h.inv x).rowCe k n }, h.safe⟩

theorem State.regsFilter_keeps (p : Nat × W32 → Bool) : r.Keeps { s with regs := s.regs.filter p } :=
  ⟨h.pending, fun x => { h.inv x with regs := spOk_filter (h.inv x).regs p }, h.safe⟩

/-- Commands in progress that change but for their numbers. -/
theorem State.mapInprog_keeps {f : Cur → Cur} (hf : ∀ c, (f c).id = c.id) : r.Keeps { s with inprog := s.inprog.map f } := by
  refine ⟨h.pending, fun x => { h.inv x with ids := fun y hy => ?_ }, h.safe⟩
  obtain ⟨c, hc, rfl⟩ := List.mem_map.mp hy
  exact (hf c).trans_lt ((h.inv x).ids c hc)

/-- A list of updates, each of which keeps the invariants. -/
@[simp] theorem State.foldl_keeps {α : Type} {f : State → α → State} {l : List α} (hf : ∀ (t : State) x, t.Keeps (f t x)) :
    r.Keeps (l.foldl f s) := by
  induction l generalizing s with
  | nil => exact h
  | cons x l ih => exact ih (h.trans (hf s x))

end

/- Fields of words ---------------------------------------------------------------------------------- -/

theorem testBit_field (v : W32) (lo w i : Nat) : (field v lo w).testBit i = (decide (i < w) && v.getLsbD (lo + i)) := by
  rw [field, Nat.testBit_mod_two_pow, Nat.testBit_div_two_pow, Nat.add_comm i lo, BitVec.testBit_toNat]

theorem getLsbD_putField (v : W32) (lo w x i : Nat) : (putField v lo w x).getLsbD i =
    (decide (i < 32) && if lo ≤ i ∧ i < lo + w then x.testBit (i - lo) else v.getLsbD i) := by
  have hsum : v.toNat % 2 ^ lo + x % 2 ^ w * 2 ^ lo + v.toNat / 2 ^ (lo + w) * 2 ^ (lo + w) =
      2 ^ lo * (2 ^ w * (v.toNat / 2 ^ (lo + w)) + x % 2 ^ w) + v.toNat % 2 ^ lo := by
    rw [Nat.pow_add]; ring
  rw [putField, BitVec.getLsbD_ofNat, hsum, Nat.testBit_two_pow_mul_add _ (Nat.mod_lt _ (Nat.two_pow_pos lo)),
    Nat.testBit_two_pow_mul_add _ (Nat.mod_lt _ (Nat.two_pow_pos w)), Nat.testBit_mod_two_pow, Nat.testBit_mod_two_pow,
    Nat.testBit_div_two_pow, BitVec.testBit_toNat, BitVec.testBit_toNat]
  congr 1
  split
  case isTrue h => simp [h, show ¬lo ≤ i by omega]
  case isFalse h =>
    split
    case isTrue h' => simp [show lo ≤ i ∧ i < lo + w by omega, h']
    case isFalse h' => rw [if_neg (by omega), show i - lo - w + (lo + w) = i by omega]

/-- A field reads back what was put into it. -/
theorem field_putField_self (v : W32) {lo w : Nat} (x : Nat) (hw : lo + w ≤ 32) : field (putField v lo w x) lo w = x % 2 ^ w := by
  refine Nat.eq_of_testBit_eq fun i => ?_
  rw [testBit_field, getLsbD_putField, Nat.testBit_mod_two_pow]
  by_cases hi : i < w
  · simp [hi, show lo + i < 32 by omega]
  · simp [hi]

/-- A field keeps its value when another one that shares no bit with it is written. -/
theorem field_putField_ne (v : W32) {lo w lo' w' : Nat} (x : Nat) (hd : lo' + w' ≤ lo ∨ lo + w ≤ lo') :
    field (putField v lo w x) lo' w' = field v lo' w' := by
  refine Nat.eq_of_testBit_eq fun i => ?_
  rw [testBit_field, getLsbD_putField, testBit_field]
  by_cases hi : i < w'
  · rw [if_neg (by omega)]
    by_cases h32 : lo' + i < 32
    · simp [h32]
    · simp [h32, BitVec.getLsbD_of_ge v (lo' + i) (by omega)]
  · simp [hi]

/- The status register of BAR0 -------------------------------------------------------------------------- -/

theorem spGet_spSet_of_ne {α : Type} [DecidableEq α] {d : Nat → α} {m : List (Nat × α)} {k : Nat} {v : α} (hv : v ≠ d k) :
    spGet d (spSet d m k v) k = v := by
  rw [spSet, if_neg hv, spGet_spIns_self]

/-- No value with REMOVAL_PREPARED set is what the register holds after reset. -/
theorem ne_bar0Reset_of_prepared {v : W32} (hv : field v 1 1 = 1) : v ≠ bar0Reset 8 := by
  rintro rfl
  exact absurd hv (by decide)

/-- A write of BAR0 keeps the invariants unless it clears REMOVAL_PREPARED. -/
theorem State.wrB_keeps {r s : State} (h : r.Keeps s) {a : Nat} {v : W32} (hb : a = 8 → s.bitB 8 1 = true → field v 1 1 = 1) :
    r.Keeps (s.wrB a v) := by
  refine ⟨h.pending, fun x => { h.inv x with bar0 := spOk_spSet (h.inv x).bar0 a v }, fun hs hsafe => ?_⟩
  have hold := h.safe hs hsafe
  by_cases ha : a = 8
  · subst ha
    have hv := hb rfl hold
    have hrd : (s.wrB 8 v).rdB 8 = v := spGet_spSet_of_ne (ne_bar0Reset_of_prepared hv)
    simpa [State.bitB, State.rfB, hrd] using hv
  · simpa [State.bitB, State.rfB, State.rdB_wrB_ne (Ne.symm ha)] using hold

theorem State.wfB_keeps {r s : State} (h : r.Keeps s) {a lo w x : Nat} (hb : a = 8 → 1 < lo ∨ lo + w ≤ 1) : r.Keeps (s.wfB a lo w
    x) := by
  refine State.wrB_keeps h fun ha hold => ?_
  subst ha
  have hd := hb rfl
  rw [field_putField_ne _ x (by omega)]
  simpa [State.bitB, State.rfB] using hold

/-- The registers of the queues lie behind the status register. -/
@[simp] theorem aQ_ne_eight (q o : Nat) : aQ q o = 8 ↔ False := by
  simp only [aQ, iff_false]
  omega

/- The engine, its scheduler and its memory accesses --------------------------------------------------- -/

section
variable {s₀ s : State} (hs : s₀.Keeps s)
include hs

@[simp] theorem State.wf_keeps (a lo w x : Nat) : s₀.Keeps (State.wf s a lo w x) := by simp [State.wf, hs]
@[simp] theorem State.setB_keeps (a i : Nat) : s₀.Keeps (State.setB s a i) := by simp [State.setB, hs]
@[simp] theorem State.clrB_keeps (a i : Nat) : s₀.Keeps (State.clrB s a i) := by simp [State.clrB, hs]
@[simp] theorem State.putB_keeps (a i : Nat) (v : Bool) : s₀.Keeps (State.putB s a i v) := by simp [State.putB, hs]
@[simp] theorem State.bump_keeps (a n : Nat) : s₀.Keeps (State.bump s a n) := by simp [State.bump, hs]
@[simp] theorem State.bumpSat_keeps (a n : Nat) : s₀.Keeps (State.bumpSat s a n) := by simp [State.bumpSat, hs]
@[simp] theorem State.used_keeps : s₀.Keeps (State.used s) := by simp [State.used, hs]
@[simp] theorem State.awakeDo_keeps (f : State → State) (hf : ∀ t : State, t.Keeps (f t)) : s₀.Keeps (s.awakeDo f) := by
  unfold State.awakeDo
  split
  · exact hs
  · exact hs.trans (hf s)

@[simp] theorem State.lateDo_keeps (a : Nat) (v : Option W32) (f : State → State) (hf : ∀ t : State, t.Keeps (f t)) :
    s₀.Keeps (s.lateDo a v f) := by
  unfold State.lateDo
  split
  · exact State.Keeps.frame hs
  · exact hs.trans (hf s)

@[simp] theorem State.setBytes_keeps (a n v : Nat) : s₀.Keeps (s.setBytes a n v) := by
  induction n generalizing s a v with
  | zero => exact hs
  | succ n ih => exact ih (State.setByte_keeps hs _ _) _ _

@[simp] theorem State.setByteList_keeps (a : Nat) (l : List Byte) : s₀.Keeps (s.setByteList a l) := by
  induction l generalizing s a with
  | nil => exact hs
  | cons v l ih => exact ih (State.setByte_keeps hs _ _) _

@[simp] theorem State.setWords_keeps (a : Nat) (l : List W64) : s₀.Keeps (State.setWords s a l) := by simp [State.setWords, hs]
@[simp] theorem State.modTh_keeps (i : Nat) (f : Thread → Thread) : s₀.Keeps (State.modTh s i f) := by simp [State.modTh, hs]
@[simp] theorem State.nvPut_keeps (v : NvSt) : s₀.Keeps (State.nvPut s v) := by simp [State.nvPut, hs]
@[simp] theorem State.busEnter_keeps (a i : Nat) (old : Option W32) : s₀.Keeps (State.busEnter s a i old) := by
  simp [State.busEnter, hs]
@[simp] theorem State.flag_keeps (a i : Nat) : s₀.Keeps (State.flag s a i) := by simp [State.flag, hs]
@[simp] theorem State.unflag_keeps (a i : Nat) : s₀.Keeps (State.unflag s a i) := by simp [State.unflag, hs]
@[simp] theorem State.mgmtIn_keeps (a : Nat) (w : Bool) : s₀.Keeps (State.mgmtIn s a w) := by simp [State.mgmtIn, hs]
@[simp] theorem State.mgmtDo_keeps (a : Nat) (v : Option W32) (f : State → State) (hf : ∀ t : State, t.Keeps (f t)) :
    s₀.Keeps (s.mgmtDo a v f) :=
  State.lateDo_keeps hs a v _ fun t => (State.mgmtIn_keeps (.refl t) a _).trans (hf _)

@[simp] theorem State.post_keeps (rank : Nat) (task : Option Nat) (cls obj : Nat) : s₀.Keeps (State.post s rank task cls obj) := by
  simp [State.post, hs]
@[simp] theorem State.setDram_keeps (o : Nat) (l : List Byte) : s₀.Keeps (s.setDram o l) := by
  induction l generalizing s o with
  | nil => exact hs
  | cons v l ih => exact ih (State.setByte_keeps hs _ _) _

@[simp] theorem State.issue_keeps (i : Nat) (f : TxnFor) (addr size : Nat) (data : Option (List Byte)) : s₀.Keeps (State.issue s i
    f addr size data) := by
  simp [State.issue, hs]
@[simp] theorem State.setXfer_keeps (x : Xfer) : s₀.Keeps (State.setXfer s x) := by simp [State.setXfer, hs]
@[simp] theorem State.dropXfer_keeps (k : XferKey) : s₀.Keeps (State.dropXfer s k) := by simp [State.dropXfer, hs]
@[simp] theorem State.xferIssue_keeps (x : Xfer) (n : Nat) : s₀.Keeps (s.xferIssue x n) := by
  induction n generalizing s x with
  | zero => exact hs
  | succ n ih =>
    unfold State.xferIssue
    split
    · exact hs
    · exact ih (State.Keeps.frame (State.setXfer_keeps hs _)) _

@[simp] theorem State.xferStart_keeps (k : XferKey) (port slot blk : Nat) (all : Bool) (a n : Nat) (data : Option (List Byte)) :
    s₀.Keeps (s.xferStart k port slot blk all a n data) :=
  State.xferIssue_keeps (State.Keeps.frame (State.nextNumber_keeps hs)) _ _

@[simp] theorem State.xfer_keeps (k : XferKey) (port slot blk : Nat) (all : Bool) (a n : Nat) (data : Option (List Byte)) :
    s₀.Keeps (State.xfer s k port slot blk all a n data).1 := by
  unfold State.xfer
  dsimp only
  repeat' split
  all_goals simp [hs]
@[simp] theorem State.xferBack_keeps (id a n : Nat) (r : Except Nat (List Byte)) : s₀.Keeps (s.xferBack id a n r) := by
  unfold State.xferBack
  split
  · exact hs
  · exact State.Keeps.ite (State.xferIssue_keeps (State.setXfer_keeps hs _) _ _) (State.setXfer_keeps hs _)

@[simp] theorem State.xferLate_keeps (id k : Nat) : s₀.Keeps (State.xferLate s id k) := by
  unfold State.xferLate
  split <;> simp [hs]
@[simp] theorem State.flNext_keeps (n : Nat) (l : List Nat) : s₀.Keeps (s.flNext n l) := by
  induction l generalizing s with
  | nil => exact State.setThr_keeps hs _ _
  | cons p l ih =>
    unfold State.flNext
    split
    · exact ih (State.flag_keeps hs _ _)
    · exact State.Keeps.frame (State.setThr_keeps hs _ _)

@[simp] theorem State.flPush_keeps (n : Nat) (l : List Nat) : s₀.Keeps (State.flPush s n l) := by simp [State.flPush, hs]
@[simp] theorem State.flDone_keeps (n : Nat) (ok : Bool) : s₀.Keeps (State.flDone s n ok) := by
  grind [State.flDone, State.wr_keeps, State.setB_keeps, State.flNext_keeps]
@[simp] theorem State.firstFetch_keeps (i : Nat) : s₀.Keeps (State.firstFetch s i) := by simp [State.firstFetch, hs]
@[simp] theorem State.endResidency_keeps (id : Nat) : s₀.Keeps (State.endResidency s id) := by simp [State.endResidency, hs]
@[simp] theorem State.wakeTask_keeps (id : Nat) (slot : Option Nat) : s₀.Keeps (State.wakeTask s id slot) := by
  unfold State.wakeTask
  split <;> simp [hs]
@[simp] theorem State.wakeAny_keeps (id : Nat) : s₀.Keeps (State.wakeAny s id) := by simp [State.wakeAny, hs]
@[simp] theorem State.directed_keeps (id c : Nat) : s₀.Keeps (State.directed s id c) := by simp [State.directed, hs]
@[simp] theorem State.broadcast_keeps (c : Nat) (o : W32) : s₀.Keeps (State.broadcast s c o) := by simp [State.broadcast, hs]
@[simp] theorem State.killTask_keeps (id : Nat) : s₀.Keeps (State.killTask s id) := by
  unfold State.killTask
  dsimp only
  split <;> simp [hs]
@[simp] theorem State.signalWake_keeps (i : Nat) : s₀.Keeps (State.signalWake s i) := by simp [State.signalWake, hs]
@[simp] theorem State.grnWait_keeps (i : Nat) (mask obj : W32) : s₀.Keeps (State.grnWait s i mask obj) := by
  grind [State.grnWait, State.modTh_keeps, State.killTask_keeps, State.endResidency_keeps, State.setTask_keeps,
      State.wakeTask_keeps, State.signalWake_keeps]
@[simp] theorem State.abandon_keeps (i : Nat) : s₀.Keeps (State.abandon s i) := by
  grind [State.abandon, State.modTh_keeps, State.bump_keeps, State.setTask_keeps]
@[simp] theorem State.raiseSignal_keeps (i : Nat) (cause : BitVec 8) (info : W64) : s₀.Keeps (State.raiseSignal s i cause info) :=
    by
  simp [State.raiseSignal, hs]
@[simp] theorem State.spareCheck_keeps (sh : Nat) : s₀.Keeps (State.spareCheck s sh) := by simp [State.spareCheck, hs]
@[simp] theorem State.candidate_keeps (e : Nat) : s₀.Keeps (State.candidate s e) := by
  grind [State.candidate, State.Keeps.frame, State.setB_keeps, State.spareCheck_keeps]
@[simp] theorem State.loseTask_keeps (id : Nat) : s₀.Keeps (State.loseTask s id) := by
  unfold State.loseTask
  dsimp only
  split <;> simp [hs]
@[simp] theorem State.dropCand_keeps (i : Nat) : s₀.Keeps (State.dropCand s i) := by
  unfold State.dropCand
  split <;> simp [hs]
@[simp] theorem State.hardFault_keeps : s₀.Keeps (State.hardFault s) := by simp [State.hardFault, hs]
@[simp] theorem State.lockup_keeps (e : Nat) (cause : BitVec 8) (epc : Pc) (ds : Bool) (ring : Ring) (slot : Nat) :
    s₀.Keeps (s.lockup e cause epc ds ring slot) := by
  have hlose (l : List Nat) {t : State} (ht : s₀.Keeps t) : s₀.Keeps (l.foldl State.loseTask t) :=
    State.foldl_keeps ht fun u id => State.loseTask_keeps (.refl u) id
  have hdrop (l : List Nat) {t : State} (ht : s₀.Keeps t) : s₀.Keeps (l.foldl
      (fun s i => (s.dropCand i).modTh i fun t => { t with fault := none, brEntry := none }) t) :=
    State.foldl_keeps ht fun u i => State.modTh_keeps (State.dropCand_keeps (.refl u) i) i _
  unfold State.lockup
  split
  · exact hs
  · exact State.candidate_keeps (hlose _ (hdrop _ (State.hardFault_keeps (State.wr_keeps (State.wr_keeps (State.setB_keeps
      (State.setB_keeps hs _ _) _ _) _ _) _ _)))) e

@[simp] theorem State.grantSlot_keeps (sh p r i c : Nat) : s₀.Keeps (State.grantSlot s sh p r i c) := by
  grind [State.grantSlot, State.Keeps.frame, State.bump_keeps, State.setTask_keeps, State.modTh_keeps, State.endResidency_keeps]
@[simp] theorem State.schedule_keeps (sh p : Nat) : s₀.Keeps (State.schedule s sh p) := by
  unfold State.schedule
  repeat' split
  all_goals simp [hs]
@[simp] theorem State.quiesceDone_keeps (i : Nat) : s₀.Keeps (State.quiesceDone s i) := by
  grind [State.quiesceDone, State.Keeps.frame, State.abandon_keeps, State.setTask_keeps, State.setTh_keeps]
@[simp] theorem State.pageOutDone_keeps (i : Nat) : s₀.Keeps (s.pageOutDone i) := by
  unfold State.pageOutDone
  split
  · exact hs
  · split
    · exact hs
    · refine State.wakeTask_keeps (State.bump_keeps (State.setTask_keeps (State.setWords_keeps ?_ _ _) _ _) _ _) _ _
      exact ⟨hs.pending, fun x => { hs.inv x with bankPois := spOk_filter (hs.inv x).bankPois _ }, hs.safe⟩

@[simp] theorem State.pageInDone_keeps (i : Nat) : s₀.Keeps (State.pageInDone s i) := by
  grind [State.pageInDone, State.setTh_keeps, State.setTask_keeps, State.setB_keeps, State.bump_keeps]
@[simp] theorem State.vacate_keeps (i : Nat) : s₀.Keeps (State.vacate s i) := by simp [State.vacate, hs]
@[simp] theorem State.emptySlot_keeps (i : Nat) : s₀.Keeps (State.emptySlot s i) := by simp [State.emptySlot, hs]
@[simp] theorem State.enqueueOp_keeps (task op : Nat) (arg : W32) (host : Option Nat) : s₀.Keeps (State.enqueueOp s task op arg
    host) := by
  simp [State.enqueueOp, hs]
@[simp] theorem State.opDone_keeps (refused : Bool) : s₀.Keeps (State.opDone s refused) := by simp [State.opDone, hs]
@[simp] theorem State.wrWords_keeps (a : Nat) (l : List W32) : s₀.Keeps (s.wrWords a l) := by
  induction l generalizing s a with
  | nil => exact hs
  | cons v l ih => exact ih (State.wr_keeps hs _ _) _

@[simp] theorem State.putBank_keeps (i : Nat) (sel : BankSel) (b : Bank) : s₀.Keeps (State.putBank s i sel b) := by
  unfold State.putBank
  split <;> simp [hs]
@[simp] theorem State.land_keeps (i : Nat) (o : RunOp) : s₀.Keeps (State.land s i o) := by
  unfold State.land
  split <;> simp [hs]
@[simp] theorem State.landShort_keeps (i : Nat) : s₀.Keeps (State.landShort s i) := by simp [State.landShort, hs]
@[simp] theorem State.clearWaits_keeps : s₀.Keeps (State.clearWaits s) := by simp [State.clearWaits, hs]
@[simp] theorem State.braceEntry_keeps (i : Nat) (cause : BitVec 8) : s₀.Keeps (State.braceEntry s i cause) := by
  grind [State.braceEntry, State.wr_keeps, State.setB_keeps, State.setEng_keeps, State.modTh_keeps]
@[simp] theorem State.enter_keeps (i : Nat) (cause : BitVec 8) (info : W64) (slot : Nat) : s₀.Keeps (State.enter s i cause info
    slot) := by
  unfold State.enter
  dsimp only
  split <;> simp [hs]
@[simp] theorem State.readFault_keeps (i : Nat) (cause : BitVec 8) : s₀.Keeps (State.readFault s i cause) := by
  simp [State.readFault, hs]
@[simp] theorem State.raiseFault_keeps (i : Nat) (f : FaultRec) : s₀.Keeps (State.raiseFault s i f) := by
  simp [State.raiseFault, hs]
@[simp] theorem State.entryCycle_keeps (i : Nat) : s₀.Keeps (State.entryCycle s i) := by
  grind [State.entryCycle, State.setEng_keeps, State.modTh_keeps, State.enter_keeps, State.braceEntry_keeps]
@[simp] theorem State.start_keeps (i : Nat) (u : RUnit) (short : Bool) (res rem : W64) (carry : Option Bool) : s₀.Keeps
    (State.start s i u short res rem carry) := by
  simp [State.start, hs]
@[simp] theorem State.loadAt_keeps (i : Nat) (op : LdOp) (a : Nat) : s₀.Keeps (s.loadAt i op a) := by
  have hadd (f : Thread → Thread) : s₀.Keeps (({ s with nextId := s.nextId + 1 } : State).modTh i f) := State.modTh_keeps
      (State.nextNumber_keeps hs) i f
  unfold State.loadAt
  dsimp only
  generalize  s.loadState (engOf i) (s.th i).stores a (ldSize op) = st
  cases st with
  | fwd d => exact State.bump_keeps (hadd _) _ _
  | waits l => exact State.bump_keeps (hadd _) _ _
  | issued => exact State.issue_keeps (hadd _) _ _ _ _ _
  | scratch d => exact hadd _
  | done d => exact hadd _
  | err c => exact hadd _

@[simp] theorem State.storeAt_keeps (i : Nat) (op : StOp) (a : Nat) (d : W64) : s₀.Keeps (s.storeAt i op a d) := by
  have hnext := State.nextNumber_keeps hs
  unfold State.storeAt
  dsimp only
  split <;> simp [hnext]

@[simp] theorem State.trigRun_keeps (i : Nat) (b : Bank) (t : Trig) (v : W64) : s₀.Keeps (State.trigRun s i b t v) := by
  unfold State.trigRun
  split <;> simp [hs]
@[simp] theorem State.pushRet_keeps (i : Nat) (r : Ret) : s₀.Keeps (State.pushRet s i r) := by simp [State.pushRet, hs]
@[simp] theorem State.advance_keeps (i : Nat) (loopend : Bool) (jump : Option Pc) : s₀.Keeps (State.advance s i loopend jump) := by
  unfold State.advance
  dsimp only
  repeat' split
  all_goals simp [hs]
@[simp] theorem State.goto_keeps (i : Nat) (pc npc : Pc) (ds : Bool) (ring : Ring) : s₀.Keeps (State.goto s i pc npc ds ring) := by
  simp [State.goto, hs]
@[simp] theorem State.gateRun_keeps (i : Nat) (v : W64) : s₀.Keeps (State.gateRun s i v) := by simp [State.gateRun, hs]
@[simp] theorem State.retRun_keeps (i : Nat) (v : W64) : s₀.Keeps (State.retRun s i v) := by
  grind [State.retRun, State.putBank_keeps, State.modTh_keeps, State.goto_keeps]
@[simp] theorem State.rfeRun_keeps (i : Nat) : s₀.Keeps (State.rfeRun s i) := by
  grind [State.rfeRun, State.clrB_keeps, State.setEng_keeps, State.goto_keeps, State.modTh_keeps, State.vacate_keeps]
@[simp] theorem State.sequence_keeps (i : Nat) (loopend : Bool) (x : Option (Trig × W64)) : s₀.Keeps (State.sequence s i loopend
    x) := by
  unfold State.sequence
  dsimp only
  split <;> simp [hs]
@[simp] theorem State.sends_keeps (x : List (Move × W64)) : s₀.Keeps (State.sends s x) := by
  induction x generalizing s with
  | nil => simp [State.sends, hs]
  | cons v l ih =>
    unfold State.sends
    split <;> simp [hs, ih]
@[simp] theorem State.empties_keeps (x : List Nat) : s₀.Keeps (State.empties s x) := by
  induction x generalizing s <;> simp [State.empties, *]
@[simp] theorem State.commit_keeps (i : Nat) (b : Bank) (iw : W128) (mv : List (Move × W64)) : s₀.Keeps (s.commit i b iw mv) := by
  have hrun (l : List (Trig × W64 × Move)) {t : State} (ht : s₀.Keeps t) : s₀.Keeps (l.foldl
      (fun s q => s.trigRun i (commitBank b mv) q.1 q.2.1) t) :=
    State.foldl_keeps ht fun u q => State.trigRun_keeps (.refl u) i _ _ _
  have hseq := State.sequence_keeps (hrun (trigsOf mv) (State.empties_keeps (State.sends_keeps (State.putBank_keeps hs i (s.th
      i).sel
    (commitBank b mv)) mv) (s.taken i (mv.map (·.1))))) i (iwLoopend iw)
      (((trigsOf mv).find? fun q => q.1.isXfer).map fun q => (q.1, q.2.1))
  unfold State.commit
  refine State.modTh_keeps (State.setEng_keeps ?_ _ _) i _
  split
  · exact State.putBank_keeps hseq _ _ _
  · exact hseq

@[simp] theorem State.runWord_keeps (i : Nat) (iw : W128) : s₀.Keeps (State.runWord s i iw) := by
  grind [State.runWord, State.modTh_keeps, State.bump_keeps, State.setEng_keeps, State.raiseFault_keeps, State.commit_keeps]
@[simp] theorem State.spillGo_keeps (i : Nat) : s₀.Keeps (State.spillGo s i) := by
  unfold State.spillGo
  dsimp only
  repeat' split
  all_goals simp [hs]
@[simp] theorem State.trigEffect_keeps (i : Nat) (t : Trig) (v : W64) : s₀.Keeps (State.trigEffect s i t v) := by
  unfold State.trigEffect
  repeat' split
  all_goals simp [hs]
@[simp] theorem State.trigDo_keeps (i : Nat) (t : Trig) (v : W64) (port : Nat) : s₀.Keeps (State.trigDo s i t v port) := by
  unfold State.trigDo
  repeat' split
  all_goals simp [hs]
@[simp] theorem State.trigOnce_keeps (i : Nat) (t : Trig) (v : W64) (port : Nat) : s₀.Keeps (State.trigOnce s i t v port) := by
  simp [State.trigOnce, hs]
@[simp] theorem State.bankErr_keeps (b m o : Nat) (w : Bool) (kind : Nat) : s₀.Keeps (State.bankErr s b m o w kind) := by
  grind [State.bankErr, State.wr_keeps, State.setB_keeps]
@[simp] theorem State.autoWake_keeps (b : Nat) : s₀.Keeps (State.autoWake s b) := by simp [State.autoWake, hs]
@[simp] theorem State.aliasWrite_keeps (al : Alias) (key : Nat) (l : List Byte) : s₀.Keeps (s.aliasWrite al key l) := by
  induction l generalizing s key with
  | nil => exact hs
  | cons v l ih => exact ih (State.setByte_keeps hs _ _) _

@[simp] theorem State.poisonWord_keeps (k : Nat) : s₀.Keeps (s.poisonWord k) := by
  unfold State.poisonWord
  split
  · exact State.setWordPois_keeps hs k true
  · exact ⟨hs.pending, fun x => { hs.inv x with recPois := spOk_spSet (hs.inv x).recPois (k - recWord0) (some (s.recWord (k -
      recWord0))) }, hs.safe⟩

@[simp] theorem State.bankCe_keeps (b n : Nat) : s₀.Keeps (State.bankCe s b n) := by simp [State.bankCe, hs]
@[simp] theorem State.bankDo_keeps (m b o n : Nat) (al : Alias) (w : Option (List Byte)) (ecc : Ecc) :
    s₀.Keeps (s.bankDo m b o n al w ecc).1 := by
  have hclean (l : List Nat) {t : State} (ht : s₀.Keeps t) : s₀.Keeps (l.foldl (fun t k => t.setWordPois k false) t) :=
    State.foldl_keeps ht fun u k => State.setWordPois_keeps (.refl u) k false
  have hce := State.Keeps.ite (c := ((readWords b o n al w.isSome).isEmpty || s.inSaveBuffer b o) = true) hs (State.bankCe_keeps
      hs b ecc.ce)
  unfold State.bankDo
  dsimp only
  split
  · exact State.bankErr_keeps hce _ _ _ _ _
  · cases w with
    | none => exact hce
    | some l => exact hclean _ (State.aliasWrite_keeps hce _ _ _)

@[simp] theorem State.dramCapture_keeps (k o : Nat) : s₀.Keeps (State.dramCapture s k o) := by simp [State.dramCapture, hs]
@[simp] theorem State.pprCand_keeps (o : Nat) : s₀.Keeps (State.pprCand s o) := by simp [State.pprCand, hs]
@[simp] theorem State.dramCe_keeps (o : Nat) : s₀.Keeps (s.dramCe o) := by
  have hcap := State.dramCapture_keeps (State.setB_keeps (State.bumpSat_keeps hs (aDrcCh (s.dramChan o) 0) 1) (aDrc 0xC) 0)
      (s.dramChan o) o
  have hrow (r n : Nat) := State.rowCe_keeps hcap r n
  unfold State.dramCe
  dsimp only
  split
  · exact State.pprCand_keeps (hrow _ _) o
  · exact hrow _ _

@[simp] theorem State.dramUe_keeps (o : Nat) : s₀.Keeps (State.dramUe s o) := by
  grind [State.dramUe, State.bumpSat_keeps, State.setB_keeps, State.dramCapture_keeps, State.pprCand_keeps]
@[simp] theorem State.dramDo_keeps (o n : Nat) (w : Option (List Byte)) (ecc : Ecc) : s₀.Keeps (State.dramDo s o n w ecc).1 := by
  grind [State.dramDo, State.dramUe_keeps, State.dramCe_keeps, State.setDram_keeps, State.setPoison_keeps]
@[simp] theorem State.dramFill_keeps (o : Nat) (l : List Byte) : s₀.Keeps (State.dramFill s o l) := by simp [State.dramFill, hs]
@[simp] theorem State.mtxErr_keeps (k a m : Nat) (w : Bool) : s₀.Keeps (State.mtxErr s k a m w) := by
  grind [State.mtxErr, State.wr_keeps, State.setB_keeps]
@[simp] theorem State.scratchCe_keeps (e n : Nat) : s₀.Keeps (State.scratchCe s e n) := by simp [State.scratchCe, hs]
end

/- Results, the Culm, the Granary, the Threshers and the expanders ------------------------------------- -/

section
variable {s₀ s : State} (hs : s₀.Keeps s)
include hs

@[simp] theorem State.unitDone_keeps (i : Nat) (u : RUnit) : s₀.Keeps (State.unitDone s i u) := by
  unfold State.unitDone
  split <;> simp [hs]
@[simp] theorem State.loadData_keeps (i : Nat) (l : LoadRec) (ecc : Ecc) : s₀.Keeps (State.loadData s i l ecc).1 := by
  unfold State.loadData
  repeat' split
  all_goals simp [hs]
@[simp] theorem State.loadLand_keeps (i : Nat) (l : LoadRec) (r : Except (BitVec 8) W64) : s₀.Keeps (State.loadLand s i l r) := by
  unfold State.loadLand
  split <;> simp [hs]
@[simp] theorem State.loadDone_keeps (i : Nat) (ecc : Ecc) : s₀.Keeps (State.loadDone s i ecc) := by
  grind [State.loadDone, State.modTh_keeps, State.loadData_keeps, State.loadLand_keeps, State.clearWaits_keeps]
@[simp] theorem State.startLoads_keeps (i : Nat) (l : List LoadRec) : s₀.Keeps (s.startLoads i l) := by
  induction l generalizing s with
  | nil => exact hs
  | cons x l ih =>
    unfold State.startLoads
    split
    · refine State.Keeps.ite (ih hs) (ih ?_)
      split
      · exact State.issue_keeps (State.modTh_keeps hs _ _) _ _ _ _ _
      · exact State.modTh_keeps hs _ _
    · exact ih hs

@[simp] theorem State.storeError_keeps (i task : Nat) (brace : Bool) (c : BitVec 8) (a : Nat) : s₀.Keeps (State.storeError s i
    task brace c a) := by
  simp [State.storeError, hs]
@[simp] theorem State.drainOne_keeps (i : Nat) (x : StoreRec) : s₀.Keeps (State.drainOne s i x) := by
  unfold State.drainOne
  split <;> simp [hs]
@[simp] theorem State.storeDone_keeps (i : Nat) : s₀.Keeps (State.storeDone s i) := by
  unfold State.storeDone
  split <;> grind [State.modTh_keeps, State.drainOne_keeps, State.startLoads_keeps, State.spillGo_keeps, State.clearWaits_keeps]
@[simp] theorem State.spillOver_keeps (i : Nat) : s₀.Keeps (State.spillOver s i) := by simp [State.spillOver, hs]
@[simp] theorem State.spillErr_keeps (i : Nat) (p : SpillRec) : s₀.Keeps (State.spillErr s i p) := by simp [State.spillErr, hs]
@[simp] theorem State.spillBrace_keeps (i : Nat) (p : SpillRec) (ring : Bool) : s₀.Keeps (State.spillBrace s i p ring) := by
  simp [State.spillBrace, hs]
@[simp] theorem State.takeImage_keeps (i : Nat) (p : SpillRec) (w : List W64) : s₀.Keeps (State.takeImage s i p w) := by
  unfold State.takeImage
  split <;> simp [hs]
@[simp] theorem State.spillEnd_keeps (i : Nat) (p : SpillRec) (r : AccRes) (w : List W64) : s₀.Keeps (State.spillEnd s i p r w) :=
    by
  unfold State.spillEnd
  split <;> simp [hs]
@[simp] theorem State.spillScratch_keeps (i o : Nat) (p : SpillRec) (ecc : Ecc) : s₀.Keeps (State.spillScratch s i o p ecc) := by
  unfold State.spillScratch
  split <;> simp [hs]
@[simp] theorem State.spillDone_keeps (i : Nat) (ecc : Ecc) : s₀.Keeps (State.spillDone s i ecc) := by
  unfold State.spillDone
  split <;> grind [State.landShort_keeps, State.spillScratch_keeps, State.clearWaits_keeps, State.spillGo_keeps,
      State.dropXfer_keeps, State.spillEnd_keeps]
@[simp] theorem State.pullDone_keeps (i : Nat) : s₀.Keeps (State.pullDone s i) := by
  grind [State.pullDone, State.setThr_keeps, State.modTh_keeps, State.clearWaits_keeps, State.putBank_keeps]
@[simp] theorem State.instrLoRead_keeps (e : Nat) : s₀.Keeps (State.instrLoRead s e) := by
  grind [State.instrLoRead, State.Keeps.frame, State.wr_keeps]
@[simp] theorem State.traceLoRead_keeps (e : Nat) : s₀.Keeps (State.traceLoRead s e) := by
  grind [State.traceLoRead, State.Keeps.frame, State.wr_keeps, State.setEng_keeps]
@[simp] theorem State.engClear_keeps (e : Nat) : s₀.Keeps (s.engClear e) :=
  State.wr_keeps (State.wr_keeps (State.wr_keeps (State.wr_keeps (State.wr_keeps (State.setEng_keeps hs _ _) _ _) _ _) _ _) _ _) _ _

@[simp] theorem State.collideAt_keeps (n : Nat) : s₀.Keeps (State.collideAt s n) := by
  unfold State.collideAt
  dsimp only
  split <;> simp [hs]
@[simp] theorem State.collide_keeps : s₀.Keeps (State.collide s) := by
  unfold State.collide
  split <;> simp [hs]
@[simp] theorem State.culmSlot_keeps (c : Nat) : s₀.Keeps (State.culmSlot s c) := by
  grind [State.culmSlot, State.Keeps.frame, State.collide_keeps, State.setChan_keeps, State.clearWaits_keeps, State.bump_keeps]
@[simp] theorem State.deliver_keeps (c : Nat) : s₀.Keeps (s.deliver c) := by
  have hcol := State.collide_keeps hs
  unfold State.deliver
  dsimp only
  split
  · exact hcol
  · split
    · exact hcol
    case h_2 rest _ =>
      have hfl : s₀.Keeps { s.collide with flights := rest } := State.Keeps.frame hcol
      have hset (v : Chan) := State.setChan_keeps hfl c v
      exact .ite hfl (.ite (State.clearWaits_keeps (hset _)) (.ite (State.clearWaits_keeps (.ite (State.setB_keeps (hset _) _ _)
        (State.wr_keeps (State.setB_keeps (hset _) _ _) _ _))) (State.clearWaits_keeps (State.post_keeps (hset _) _ _ _ _))))

@[simp] theorem State.rxDiscard_keeps (c : Nat) : s₀.Keeps (State.rxDiscard s c) := by simp [State.rxDiscard, hs]
@[simp] theorem State.culmClear_keeps : s₀.Keeps s.culmClear := State.regsFilter_keeps hs _

@[simp] theorem State.frameLoRead_keeps : s₀.Keeps (State.frameLoRead s) := by
  grind [State.frameLoRead, State.Keeps.frame, State.wr_keeps]
@[simp] theorem State.intakeUse_keeps (n : Nat) : s₀.Keeps (State.intakeUse s n) := by simp [State.intakeUse, hs]
@[simp] theorem State.process_keeps (e : EvReq) : s₀.Keeps (State.process s e) := by
  unfold State.process
  split <;> simp [hs]
@[simp] theorem State.takeEvent_keeps (dir : Bool) : s₀.Keeps (State.takeEvent s dir) := by
  grind [State.takeEvent, State.Keeps.frame, State.intakeUse_keeps, State.process_keeps]
@[simp] theorem State.takeDirected_keeps : s₀.Keeps (State.takeDirected s) := by simp [State.takeDirected, hs]
@[simp] theorem State.takeBroadcast_keeps : s₀.Keeps (State.takeBroadcast s) := by simp [State.takeBroadcast, hs]
@[simp] theorem State.takeAny_keeps : s₀.Keeps (State.takeAny s) := by
  unfold State.takeAny
  split <;> simp [hs]
@[simp] theorem State.grnTick_keeps : s₀.Keeps (State.grnTick s) := by simp [State.grnTick, hs]
@[simp] theorem State.makeUrgent_keeps (id : Nat) : s₀.Keeps (State.makeUrgent s id) := by simp [State.makeUrgent, hs]
@[simp] theorem State.expire_keeps (id : Nat) : s₀.Keeps (State.expire s id) := by simp [State.expire, hs]
@[simp] theorem State.judgeUrgent_keeps (id : Nat) : s₀.Keeps (State.judgeUrgent s id) := by
  grind [State.judgeUrgent, State.setTask_keeps, State.bump_keeps, State.setB_keeps]
@[simp] theorem State.evacuate_keeps (i : Nat) : s₀.Keeps (State.evacuate s i) := by simp [State.evacuate, hs]
@[simp] theorem State.roundBegin_keeps : s₀.Keeps s.roundBegin := by
  unfold State.roundBegin
  split
  · exact hs
  · exact State.Keeps.frame (State.foldl_keeps (State.foldl_keeps hs fun t i => State.judgeUrgent_keeps (.refl t) i)
      fun t i => State.evacuate_keeps (.refl t) i)

@[simp] theorem State.opKill_keeps : s₀.Keeps (State.opKill s) := by
  unfold State.opKill
  split <;> simp [hs]
@[simp] theorem State.opRaise_keeps : s₀.Keeps (State.opRaise s) := by
  unfold State.opRaise
  split <;> simp [hs]
@[simp] theorem State.opSetPrio_keeps : s₀.Keeps (State.opSetPrio s) := by
  unfold State.opSetPrio
  split <;> simp [hs]
@[simp] theorem State.opSetAffinity_keeps : s₀.Keeps (State.opSetAffinity s) := by
  unfold State.opSetAffinity
  split <;> simp [hs]
@[simp] theorem State.opRead_keeps : s₀.Keeps (State.opRead s) := by
  grind [State.opRead, State.wrWords_keeps, State.setB_keeps, State.opDone_keeps]
@[simp] theorem State.opRefuse_keeps : s₀.Keeps (State.opRefuse s) := by
  unfold State.opRefuse
  split <;> simp [hs]
@[simp] theorem State.grnClear_keeps : s₀.Keeps s.grnClear := State.regsFilter_keeps hs _

@[simp] theorem State.saw_keeps (mask k : Nat) : s₀.Keeps (State.saw s mask k) := by simp [State.saw, hs]
@[simp] theorem State.sawActive_keeps (mask k : Nat) (en : Nat → Bool) : s₀.Keeps (State.sawActive s mask k en) := by
  simp [State.sawActive, hs]
@[simp] theorem State.sawRegion_keeps (g : Nat) : s₀.Keeps (State.sawRegion s g) := by simp [State.sawRegion, hs]
@[simp] theorem State.makeFinal_keeps (i : Nat) : s₀.Keeps (State.makeFinal s i) := by
  grind [State.makeFinal, State.Keeps.frame, State.wf_keeps, State.setB_keeps]
@[simp] theorem State.notice_keeps (g k : Nat) : s₀.Keeps (State.notice s g k) := by simp [State.notice, hs]
@[simp] theorem State.incomplete_keeps (g : Nat) : s₀.Keeps (State.incomplete s g) := by
  grind [State.incomplete, State.setRegion_keeps, State.notice_keeps, State.sawRegion_keeps]
@[simp] theorem State.closeRegion_keeps (g : Nat) : s₀.Keeps (State.closeRegion s g) := by simp [State.closeRegion, hs]
@[simp] theorem State.openCell_keeps (g x y : Nat) : s₀.Keeps (State.openCell s g x y) := by
  grind [State.openCell, State.bump_keeps, State.setB_keeps, State.incomplete_keeps, State.setRegion_keeps, State.notice_keeps]
@[simp] theorem State.lateCell_keeps (g : Nat) : s₀.Keeps (State.lateCell s g) := by
  grind [State.lateCell, State.setRegion_keeps, State.setB_keeps, State.incomplete_keeps]
@[simp] theorem State.bitmapCell_keeps (g x y : Nat) : s₀.Keeps (State.bitmapCell s g x y) := by simp [State.bitmapCell, hs]
@[simp] theorem State.applyCell_keeps (c : Nat × Nat × Nat) : s₀.Keeps (State.applyCell s c) := by
  unfold State.applyCell
  dsimp only
  split <;> simp [hs]
@[simp] theorem State.takeRecord_keeps (n : Nat) : s₀.Keeps (s.takeRecord n) := by
  unfold State.takeRecord
  split
  · have htake (v : ThrSt) := State.bump_keeps (State.setThr_keeps hs n v) (aThr n 0x10) 1
    exact .ite (State.bump_keeps (htake _) _ _) (State.foldl_keeps (.ite (State.setB_keeps (State.bump_keeps (htake _) _ _) _ _)
      (htake _)) fun t c => State.applyCell_keeps (.refl t) c)
  · exact hs

@[simp] theorem State.coverRegion_keeps (g : Nat) : s₀.Keeps (State.coverRegion s g) := by simp [State.coverRegion, hs]
@[simp] theorem State.takeSummary_keeps (n : Nat) : s₀.Keeps (s.takeSummary n) := by
  unfold State.takeSummary
  split
  · exact State.foldl_keeps (State.setB_keeps (State.bump_keeps (State.bump_keeps (State.setThr_keeps hs _ _) _ _) _ _) _ _)
      fun t g => State.coverRegion_keeps (.refl t) g
  · exact hs

@[simp] theorem State.thrCloses_keeps (n i : Nat) : s₀.Keeps (s.thrCloses n i) := by
  have hclose := State.foldl_keeps (l := s.siteRegionsIn i n) hs fun t g => State.closeRegion_keeps (.refl t) g
  have hsite (v : SiteSt) := State.setSite_keeps hclose i v
  unfold State.thrCloses
  dsimp only
  exact .ite (.ite (State.makeFinal_keeps (hsite _) i) (hsite _)) hclose

@[simp] theorem State.takeMark_keeps (n : Nat) : s₀.Keeps (State.takeMark s n) := by
  unfold State.takeMark
  split <;> simp [hs]
@[simp] theorem State.siteToDone_keeps (i : Nat) : s₀.Keeps (s.siteToDone i) := by
  have hmarks (l : List Nat) := State.foldl_keeps (l := l) (f := fun t g => t.setPg g { t.pgs g with marks := (t.pgs g).marks ++
      [i] })
    (State.wf_keeps hs (aSite i 0x14) 0 3 3) fun t g => State.setPg_keeps (.refl t) g _
  have hclose (l : List Nat) {u : State} (hu : s₀.Keeps u) := State.foldl_keeps (l := l) (f := fun t n => t.thrCloses n i) hu
    fun t n => State.thrCloses_keeps (.refl t) n i
  have hdone (l m : List Nat) (v : SiteSt) := hclose l (State.setSite_keeps (hmarks m) i v)
  exact .ite (State.makeFinal_keeps (hdone _ _ _) i) (hdone _ _ _)

@[simp] theorem State.bitmapFail_keeps (g k : Nat) : s₀.Keeps (State.bitmapFail s g k) := by simp [State.bitmapFail, hs]
@[simp] theorem State.walkTo_keeps (n g x y : Nat) (w : Walk) : s₀.Keeps (State.walkTo s n g x y w) := by simp [State.walkTo, hs]
@[simp] theorem State.walkEnd_keeps (n : Nat) : s₀.Keeps (State.walkEnd s n) := by simp [State.walkEnd, hs]
@[simp] theorem State.walkTake_keeps (n g x y : Nat) (dir : Bool) : s₀.Keeps (State.walkTake s n g x y dir) := by
  simp [State.walkTake, hs]
@[simp] theorem State.flTaken_keeps (n : Nat) : s₀.Keeps (State.flTaken s n) := by simp [State.flTaken, hs]
@[simp] theorem State.walkNext_keeps (n g x y : Nat) (w : Walk) (got : List Byte) : s₀.Keeps (State.walkNext s n g x y w got) := by
  unfold State.walkNext
  split <;> simp [hs]
@[simp] theorem State.bitmapStep_keeps (n : Nat) : s₀.Keeps (State.bitmapStep s n) := by
  unfold State.bitmapStep
  split <;> grind [State.walkTo_keeps, State.walkTake_keeps, State.dropXfer_keeps, State.walkEnd_keeps, State.bitmapFail_keeps,
      State.walkNext_keeps]
@[simp] theorem State.releasePages_keeps (n g : Nat) (reset : Bool) (l : List Nat) : s₀.Keeps (State.releasePages s n g reset l)
    := by
  grind [State.releasePages, State.setRegion_keeps, State.setThr_keeps, State.flPush_keeps]
@[simp] theorem State.releaseStep_keeps (n g : Nat) (reset : Bool) : s₀.Keeps (State.releaseStep s n g reset).1 := by
  unfold State.releaseStep
  split <;> grind [State.setThr_keeps, State.xfer_keeps, State.releasePages_keeps]
@[simp] theorem State.resetNext_keeps (n : Nat) : s₀.Keeps (State.resetNext s n) := by
  grind [State.resetNext, State.releaseStep_keeps, State.setThr_keeps, State.setRegion_keeps]
@[simp] theorem State.reply_keeps (n : Nat) (e : W128) (status value : Nat) : s₀.Keeps (State.reply s n e status value) := by
  grind [State.reply, State.setThr_keeps, State.bump_keeps, State.post_keeps, State.clearWaits_keeps]
@[simp] theorem State.assistQuery_keeps (n : Nat) : s₀.Keeps (State.assistQuery s n) := by
  unfold State.assistQuery
  repeat' split
  all_goals simp [hs]
@[simp] theorem State.assistScan_keeps (n : Nat) : s₀.Keeps (State.assistScan s n) := by
  unfold State.assistScan
  split <;> simp [hs]
@[simp] theorem State.assistStore_keeps (n : Nat) (e : W128) (l : List Byte) (value : Nat) (f : State → State)
    (hf : ∀ t : State, t.Keeps (f t)) : s₀.Keeps (s.assistStore n e l value f) := by
  have hx := State.xfer_keeps hs (.assist n) (14 + n) 0 32 false (destOf e) l.length (some l)
  unfold State.assistStore
  split
  · exact State.reply_keeps (hs.trans (hf s)) _ _ _ _
  · split
    case h_1 heq => rw [heq] at hx; exact hx
    case h_2 heq =>
      rw [heq] at hx
      exact .ite (State.reply_keeps (State.setB_keeps hx _ _) _ _ _ _) (State.reply_keeps (hx.trans (hf _)) _ _ _ _)

@[simp] theorem State.assistFetch_keeps (n : Nat) : s₀.Keeps (State.assistFetch s n) := by
  unfold State.assistFetch
  dsimp only
  repeat' split
  all_goals simp [hs]
@[simp] theorem State.assistTentative_keeps (n : Nat) : s₀.Keeps (State.assistTentative s n) := by
  unfold State.assistTentative
  dsimp only
  repeat' split
  all_goals simp [hs]
@[simp] theorem State.assistUndo_keeps (n : Nat) : s₀.Keeps (State.assistUndo s n) := by
  unfold State.assistUndo
  dsimp only
  repeat' split
  all_goals simp [hs]
@[simp] theorem State.assistCost_keeps (n : Nat) : s₀.Keeps (State.assistCost s n) := by
  unfold State.assistCost
  repeat' split
  all_goals simp [hs]
@[simp] theorem State.assistCommit_keeps (n : Nat) : s₀.Keeps (State.assistCommit s n) := by
  unfold State.assistCommit
  dsimp only
  repeat' split
  all_goals simp [hs]
@[simp] theorem State.assistClose_keeps (n : Nat) : s₀.Keeps (State.assistClose s n) := by
  unfold State.assistClose
  dsimp only
  repeat' split
  all_goals simp [hs]
@[simp] theorem State.assistReset_keeps (n : Nat) : s₀.Keeps (State.assistReset s n) := by
  unfold State.assistReset
  repeat' split
  all_goals simp [hs]
@[simp] theorem State.assistRelease_keeps (n : Nat) : s₀.Keeps (State.assistRelease s n) := by
  grind [State.assistRelease, State.releaseStep_keeps, State.reply_keeps]
@[simp] theorem State.assistBad_keeps (n : Nat) : s₀.Keeps (State.assistBad s n) := by
  unfold State.assistBad
  split <;> simp [hs]
@[simp] theorem State.thrClear_keeps (n : Nat) : s₀.Keeps (s.thrClear n) :=
  State.foldl_keeps hs fun t _ => State.wr_keeps (.refl t) _ _

@[simp] theorem State.setPxState_keeps (n v : Nat) : s₀.Keeps (State.setPxState s n v) := by simp [State.setPxState, hs]
@[simp] theorem State.pxRest_keeps (n : Nat) : s₀.Keeps (State.pxRest s n) := by simp [State.pxRest, hs]
@[simp] theorem State.putTarget_keeps (n t v : Nat) : s₀.Keeps (State.putTarget s n t v) := by
  unfold State.putTarget
  split <;> simp [hs]
@[simp] theorem State.applyOperand_keeps (n : Nat) (e : W128) : s₀.Keeps (State.applyOperand s n e) := by
  simp [State.applyOperand, hs]
@[simp] theorem State.putGen_keeps (n : Nat) (g : GenSt) : s₀.Keeps (State.putGen s n g) := by
  grind [State.putGen, State.wr_keeps, State.setPx_keeps]
@[simp] theorem State.frameOps_keeps (n : Nat) (u : W128) : s₀.Keeps (State.frameOps s n u) := by
  grind [State.frameOps, State.wr_keeps, State.putGen_keeps]
@[simp] theorem State.sequenceUop_keeps (n : Nat) (u : W128) : s₀.Keeps (State.sequenceUop s n u) := by
  unfold State.sequenceUop
  dsimp only
  repeat' split
  all_goals simp [hs]
@[simp] theorem State.queueLow_keeps (n : Nat) : s₀.Keeps (State.queueLow s n) := by simp [State.queueLow, hs]
@[simp] theorem State.setQueue_keeps (n : Nat) (q : List W128) : s₀.Keeps (State.setQueue s n q) := by simp [State.setQueue, hs]
@[simp] theorem State.setDriver_keeps (g l : Nat) (on : Bool) : s₀.Keeps (State.setDriver s g l on) := by
  simp [State.setDriver, hs]
@[simp] theorem State.prbsSyms_keeps (g l poly : Nat) (inv : Bool) : s₀.Keeps (State.prbsSyms s g l poly inv).1 := by
  simp [State.prbsSyms, hs]
@[simp] theorem State.unused_keeps (g l : Nat) : s₀.Keeps (State.unused s g l).1 := by
  unfold State.unused
  dsimp only
  repeat' split
  all_goals simp [hs]
@[simp] theorem State.formed_keeps (g l : Nat) : s₀.Keeps (State.formed s g l).1 := by
  unfold State.formed
  split <;> simp [hs]
@[simp] theorem State.form_keeps (g l : Nat) : s₀.Keeps (State.form s g l) := by simp [State.form, hs]
@[simp] theorem State.carry_keeps (g l : Nat) (f : LaneFrame) : s₀.Keeps (State.carry s g l f) := by simp [State.carry, hs]
@[simp] theorem State.settle_keeps (n f : Nat) : s₀.Keeps (State.settle s n f) := by simp [State.settle, hs]
@[simp] theorem State.handOver_keeps (g : Nat) : s₀.Keeps (s.handOver g) :=
  State.foldl_keeps (State.setPg_keeps (State.foldl_keeps (State.setPg_keeps hs _ _) fun t l => State.form_keeps (.refl t) g l) _ _)
    fun t _ => State.carry_keeps (State.settle_keeps (.refl t) _ _) _ _ _

@[simp] theorem State.mapHolds_keeps (f : Hold → Hold) : s₀.Keeps (s.mapHolds f) :=
  ⟨hs.pending, fun x => { hs.inv x with sites := spOk_mapHolds (hs.inv x).sites f }, hs.safe⟩

@[simp] theorem State.fetchReset_keeps (n : Nat) : s₀.Keeps (State.fetchReset s n) := by
  grind [State.fetchReset, State.wr_keeps, State.dropXfer_keeps, State.setPx_keeps]
@[simp] theorem State.endBurst_keeps (n cause base : Nat) : s₀.Keeps (State.endBurst s n cause base) := by
  unfold State.endBurst
  dsimp only
  split <;> simp [hs]
@[simp] theorem State.sawVoid_keeps (n mode : Nat) : s₀.Keeps (State.sawVoid s n mode) := by simp [State.sawVoid, hs]
@[simp] theorem State.settleDiscard_keeps (n : Nat) : s₀.Keeps (State.settleDiscard s n) := by simp [State.settleDiscard, hs]
@[simp] theorem State.linkVoid_keeps (n : Nat) : s₀.Keeps (State.linkVoid s n) := by
  grind [State.linkVoid, State.setPx_keeps, State.setPxState_keeps, State.settleDiscard_keeps]
@[simp] theorem State.linkVoids_keeps (n : Nat) : s₀.Keeps (State.linkVoids s n) := by simp [State.linkVoids, hs]
@[simp] theorem State.takeNext_keeps (n : Nat) : s₀.Keeps (State.takeNext s n) := by
  unfold State.takeNext
  split <;> grind [State.setPx_keeps, State.setQueue_keeps, State.setB_keeps, State.linkVoids_keeps, State.endBurst_keeps]
@[simp] theorem State.stopNow_keeps (n : Nat) : s₀.Keeps (s.stopNow n) := by
  have hempty (v : PxSt) := State.setPx_keeps (State.fetchReset_keeps (State.setQueue_keeps (State.clrB_keeps hs (aPx n 0) 0) n
      []) n) n v
  unfold State.stopNow
  dsimp only
  split
  · exact State.mapHolds_keeps (State.sawActive_keeps (State.setPxState_keeps (hempty _) _ _) _ _ _) _
  · exact State.mapHolds_keeps (State.sawActive_keeps (State.setPxState_keeps (hempty _) _ _) _ _ _) _
  · split
    · exact hempty _
    · split
      · exact hempty _
      · exact State.linkVoids_keeps (State.sawVoid_keeps (State.endBurst_keeps (hempty _) _ _ _) _ _) _
  · exact .ite (State.setPxState_keeps (hempty _) _ _) (State.setPxState_keeps (hempty _) _ _)
  · exact hempty _

@[simp] theorem State.pxFlush_keeps (n : Nat) : s₀.Keeps (State.pxFlush s n) := by simp [State.pxFlush, hs]
@[simp] theorem State.fetchPush_keeps (n k : Nat) : s₀.Keeps (State.fetchPush s n k) := by simp [State.fetchPush, hs]
@[simp] theorem State.joinQueue_keeps (n : Nat) (e : W128) : s₀.Keeps (State.joinQueue s n e) := by simp [State.joinQueue, hs]
@[simp] theorem State.arrive_keeps (n : Nat) : s₀.Keeps (State.arrive s n) := by
  grind [State.arrive, State.setPx_keeps, State.fetchPush_keeps, State.clearWaits_keeps, State.joinQueue_keeps]
@[simp] theorem State.crossed_keeps (n : Nat) : s₀.Keeps (State.crossed s n) := by simp [State.crossed, hs]
@[simp] theorem State.fetchAsk_keeps (n : Nat) : s₀.Keeps (State.fetchAsk s n) := by simp [State.fetchAsk, hs]
@[simp] theorem State.fetchReturn_keeps (n : Nat) : s₀.Keeps (State.fetchReturn s n) := by
  grind [State.fetchReturn, State.dropXfer_keeps, State.setPx_keeps, State.setB_keeps, State.wr_keeps, State.joinQueue_keeps]
@[simp] theorem State.idleEntry_keeps (n : Nat) : s₀.Keeps (State.idleEntry s n) := by
  grind [State.idleEntry, State.setQueue_keeps, State.applyOperand_keeps, State.queueLow_keeps, State.setB_keeps]
@[simp] theorem State.beginBurst_keeps (n : Nat) (e : W128) (q : List W128) : s₀.Keeps (s.beginBurst n e q) := by
  have hleft : s₀.Keeps (if s.pxState n = 2 then s.mapHolds (Hold.left n true) else s) := .ite (State.mapHolds_keeps hs _) hs
  have hclr := State.Keeps.ite (c := (s.pxs n).take = true) (State.clrB_keeps hleft (aPx n 0) 0) hleft
  have hstart (v : PxSt) (w : W32) (m : Nat) := State.queueLow_keeps (State.takeNext_keeps (State.setQueue_keeps
      (State.setPxState_keeps
    (State.wf_keeps (State.wr_keeps (State.setPx_keeps hclr n v) (aPx n 0x50) w) (aPx n 4) 4 2 m) n 3) n q) n) n
  exact .ite (State.stopNow_keeps (hstart _ _ _) n) (hstart _ _ _)

@[simp] theorem State.burstStart_keeps (n : Nat) : s₀.Keeps (State.burstStart s n) := by
  unfold State.burstStart
  split <;> simp [hs]
@[simp] theorem State.releaseStart_keeps : s₀.Keeps s.releaseStart :=
  State.foldl_keeps (State.foldl_keeps (State.Keeps.frame hs) fun t _ => State.setPx_keeps (.refl t) _ _)
    fun t _ => State.post_keeps (State.wf_keeps (.refl t) _ _ _ _) _ _ _ _

@[simp] theorem State.expect_keeps (n idx : Nat) (ts : Option Nat) (tag : Option (W64 × Nat × Nat)) (ls : List (Nat × List
    LaneBeat)) : s₀.Keeps (State.expect s n idx ts tag ls) := by
  simp [State.expect, hs]
@[simp] theorem State.showFrame_keeps (n idx : Nat) (ts : Option Nat) (tag : Option (W64 × Nat × Nat)) (ls : List (Nat × List
    LaneBeat)) : s₀.Keeps (State.showFrame s n idx ts tag ls) := by
  simp [State.showFrame, hs]
@[simp] theorem State.algoFrame_keeps (n idx : Nat) (op : Option W128) : s₀.Keeps (s.algoFrame n idx op) := by
  have hop : s₀.Keeps (match op with
      | some e => s.applyOperand n e
      | none => s) := by
    cases op with
    | none => exact hs
    | some e => exact State.applyOperand_keeps hs n e
  have hshow (g : GenSt) (b ls) := State.sequenceUop_keeps (State.showFrame_keeps (State.putGen_keeps (State.frameOps_keeps hop n
    (s.micro n (s.rf (aPx n 0x50) 0 12))) n g) n idx (some (uf (s.micro n (s.rf (aPx n 0x50) 0 12)) 53 6)) b ls) n
    (s.micro n (s.rf (aPx n 0x50) 0 12))
  exact .ite (State.endBurst_keeps (hshow _ _ _) _ _ _) (State.takeNext_keeps (hshow _ _ _) _)

@[simp] theorem State.endMicro_keeps (n : Nat) : s₀.Keeps (State.endMicro s n) := by simp [State.endMicro, hs]
@[simp] theorem State.vecFrame_keeps (n idx : Nat) (b : Burst) (codes : List (BitVec 32)) (ts : Nat) (last : Bool) :
    s₀.Keeps (s.vecFrame n idx b codes ts last) := by
  have hops (c : Prop) [Decidable c] (u : W128) := State.Keeps.ite (c := c) (State.frameOps_keeps hs n u) hs
  have hput (c : Prop) [Decidable c] (u : W128) (g : GenSt) := State.Keeps.ite (c := c) (State.putGen_keeps (hops c u) n g) (hops
      c u)
  have hseq (c d : Prop) [Decidable c] [Decidable d] (u : W128) (g : GenSt) (ts tag ls) := State.Keeps.ite (c := c)
    (State.Keeps.ite (c := d) (State.endMicro_keeps (State.showFrame_keeps (hput c u g) n idx ts tag ls) n)
      (State.sequenceUop_keeps (State.showFrame_keeps (hput c u g) n idx ts tag ls) n u)) (State.showFrame_keeps (hput c u g) n
          idx ts tag ls)
  exact .ite (State.endBurst_keeps (hseq _ _ _ _ _ _ _) _ _ _) (State.takeNext_keeps (hseq _ _ _ _ _ _ _) _)

@[simp] theorem State.voidFrame_keeps (n idx : Nat) (b : Burst) (cause : Nat) : s₀.Keeps (State.voidFrame s n idx b cause) := by
  grind [State.voidFrame, State.showFrame_keeps, State.endBurst_keeps, State.setB_keeps, State.sawVoid_keeps,
      State.setPxState_keeps, State.settleDiscard_keeps]
@[simp] theorem State.newEdge_keeps (g : Nat) : s₀.Keeps (s.newEdge g) :=
  State.foldl_keeps (State.foldl_keeps (State.setPg_keeps (State.handOver_keeps hs g) _ _) fun t n => State.queueLow_keeps (.refl
      t) n)
    fun t _ => State.bump_keeps (.refl t) _ _

@[simp] theorem State.frame_keeps (n : Nat) : s₀.Keeps (State.frame s n) := by
  unfold State.frame
  split <;> grind [State.newEdge_keeps, State.setPx_keeps, State.algoFrame_keeps, State.queueLow_keeps, State.vecFrame_keeps,
      State.voidFrame_keeps]
@[simp] theorem State.pxStop_keeps (n : Nat) : s₀.Keeps (State.pxStop s n) := by simp [State.pxStop, hs]
@[simp] theorem State.frameEdge_keeps (g : Nat) : s₀.Keeps (State.frameEdge s g) := by simp [State.frameEdge, hs]
@[simp] theorem State.burstEnd_keeps (n : Nat) : s₀.Keeps (State.burstEnd s n) := by
  unfold State.burstEnd
  split <;> grind [State.setPx_keeps, State.post_keeps, State.wr_keeps, State.setB_keeps, State.mapHolds_keeps,
      State.settleDiscard_keeps, State.pxRest_keeps]
end

/- Pin groups, lanes, the host link, banks and timers -------------------------------------------------- -/

section
variable {s₀ s : State} (hs : s₀.Keeps s)
include hs

@[simp] theorem State.enqueue_keeps (g : Nat) (x : Intake) : s₀.Keeps (State.enqueue s g x) := by simp [State.enqueue, hs]
@[simp] theorem State.divert_keeps (g : Nat) (r : FailRec) : s₀.Keeps (State.divert s g r) := by
  grind [State.divert, State.setPg_keeps, State.bump_keeps, State.setB_keeps]
@[simp] theorem State.record_keeps (g : Nat) (r : FailRec) : s₀.Keeps (s.record g r) := by
  have hcount := State.foldl_keeps (l := r.mask) (f := fun t x => t.bumpSat (aPg g (0x60 + 4 * x.1)) (uisOf x.2).length)
    (State.bump_keeps hs (aPg g 0x80) 1) fun t _ => State.bumpSat_keeps (.refl t) _ _
  have hsaw := State.saw_keeps hcount (laneMask g (r.mask.map (·.1))) 8
  exact .ite (State.enqueue_keeps hsaw _ _) (State.divert_keeps hsaw _ _)

@[simp] theorem State.judge_keeps (g : Nat) (rx : List LaneSamples) : s₀.Keeps (State.judge s g rx) := by
  unfold State.judge
  dsimp only
  repeat' split
  all_goals simp [hs]
@[simp] theorem State.summarize_keeps (g : Nat) : s₀.Keeps (State.summarize s g) := by
  unfold State.summarize
  dsimp only
  split <;> simp [hs]
@[simp] theorem State.closeMarkIn_keeps (g : Nat) : s₀.Keeps (State.closeMarkIn s g) := by
  unfold State.closeMarkIn
  dsimp only
  split <;> simp [hs]
@[simp] theorem State.finish_keeps (i : Nat) : s₀.Keeps (State.finish s i) := by simp [State.finish, hs]
@[simp] theorem State.finishDone_keeps (i : Nat) : s₀.Keeps (State.finishDone s i) := by
  unfold State.finishDone
  split <;> simp [hs]
@[simp] theorem State.pgClear_keeps (g : Nat) : s₀.Keeps (s.pgClear g) :=
  State.foldl_keeps hs fun t _ => State.wr_keeps (.refl t) _ _

@[simp] theorem State.pgFrameRead_keeps (g : Nat) : s₀.Keeps (State.pgFrameRead s g) := by
  grind [State.pgFrameRead, State.Keeps.frame, State.wr_keeps]
@[simp] theorem State.idleLanes_keeps (g : Nat) : s₀.Keeps (State.idleLanes s g) := by simp [State.idleLanes, hs]
@[simp] theorem State.freePartner_keeps (n : Nat) : s₀.Keeps (s.freePartner n) := by
  have hfree (x : s₀.Inv) := spOk_filterMap (hs.inv x).lanes fun v => if v.serves = some n then { v with serves := none } else v
  exact ⟨hs.pending, fun x => { hs.inv x with lanes := hfree x }, hs.safe⟩

@[simp] theorem State.untrain_keeps (n : Nat) : s₀.Keeps (s.untrain n) :=
  State.freePartner_keeps (State.wf_keeps (State.wr_keeps (State.wr_keeps (State.wr_keeps hs _ _) _ _) _ _) _ _ _ _) n

@[simp] theorem State.relock_keeps (g : Nat) : s₀.Keeps (s.relock g) := by
  have hstop (v : PgSt) := State.setB_keeps (State.clrB_keeps (State.idleLanes_keeps (State.setPg_keeps hs g v) g)
    (aSyn (0x18 + 0x10 * g)) 0) (aSyn (0x18 + 0x10 * g)) 1
  unfold State.relock
  dsimp only
  split
  · exact .ite (State.foldl_keeps (hstop _) fun t l => State.untrain_keeps (.refl t) _) (hstop _)
  · exact State.flag_keeps (State.wf_keeps hs _ _ _ _) _ _

@[simp] theorem State.letIn_keeps (n : Nat) : s₀.Keeps (s.letIn n) :=
  State.fetchReturn_keeps (State.foldl_keeps (State.setPx_keeps hs _ _) fun t _ => State.arrive_keeps (.refl t) n) n

@[simp] theorem State.clockStart_keeps (g : Nat) : s₀.Keeps (s.clockStart g) := by
  have hrun (v : PgSt) := State.setPg_keeps (State.handOver_keeps hs g) g v
  have hlanes (l : List Nat) {t : State} (ht : s₀.Keeps t) : s₀.Keeps (l.foldl
      (fun t l => t.setLane (8 * g + l) { t.lane (8 * g + l) with trims := [], acts := [] }) t) :=
    State.foldl_keeps ht fun u _ => State.setLane_keeps (.refl u) _ _
  have hedge (l : List Nat) {t : State} (ht : s₀.Keeps t) : s₀.Keeps (l.foldl (fun t n => t.setPx n { t.pxs n with lastEdge := 0
      }) t) :=
    State.foldl_keeps ht fun u _ => State.setPx_keeps (.refl u) _ _
  unfold State.clockStart
  exact State.letIn_keeps (State.letIn_keeps (State.mapHolds_keeps (hedge _ (hlanes _ (hrun _))) _) _) _

@[simp] theorem State.pllLock_keeps (g : Nat) : s₀.Keeps (s.pllLock g) :=
  .ite (State.clockStart_keeps (State.clrB_keeps (State.clrB_keeps (State.setB_keeps hs _ _) _ _) _ _) g) hs

@[simp] theorem State.unlock_keeps (g : Nat) : s₀.Keeps (State.unlock s g) := by
  grind [State.unlock, State.pxStop_keeps, State.clrB_keeps, State.setB_keeps]
@[simp] theorem State.lossOfLock_keeps (g : Nat) : s₀.Keeps (State.lossOfLock s g) := by simp [State.lossOfLock, hs]
@[simp] theorem State.trefAbsent_keeps : s₀.Keeps s.trefAbsent :=
  .ite (State.setB_keeps (State.foldl_keeps (State.clrB_keeps hs _ _) fun t g => State.unlock_keeps (.refl t) g) _ _) hs

@[simp] theorem State.measWindow_keeps (edges : Nat) : s₀.Keeps (State.measWindow s edges) := by simp [State.measWindow, hs]
@[simp] theorem State.trainGo_keeps (n : Nat) : s₀.Keeps (State.trainGo s n) := by
  grind [State.trainGo, State.wf_keeps, State.setLane_keeps, State.flag_keeps]
@[simp] theorem State.trainWrite_keeps (n : Nat) (v : W32) : s₀.Keeps (State.trainWrite s n v) := by simp [State.trainWrite, hs]
@[simp] theorem State.trainEffect_keeps (n k : Nat) : s₀.Keeps (State.trainEffect s n k) := by
  unfold State.trainEffect
  split <;> grind [State.wr_keeps, State.wf_keeps, State.used_keeps, State.setLane_keeps]
@[simp] theorem State.trainNext_keeps (n : Nat) : s₀.Keeps (State.trainNext s n) := by simp [State.trainNext, hs]
@[simp] theorem State.trainStep_keeps (n : Nat) : s₀.Keeps (State.trainStep s n) := by simp [State.trainStep, hs]
@[simp] theorem State.trainTo_keeps (n k : Nat) : s₀.Keeps (State.trainTo s n k) := by simp [State.trainTo, hs]
@[simp] theorem State.trainFail_keeps (n k : Nat) : s₀.Keeps (s.trainFail n k) :=
  State.setB_keeps (State.wf_keeps (State.wf_keeps (State.wf_keeps (State.freePartner_keeps (State.trainTo_keeps hs n k) n) _ _ _ _)
    _ _ _ _) _ _ _ _) _ _

@[simp] theorem State.trainDone_keeps (n : Nat) (tx strobe t0 t1 t2 : Int) (rtrip : BitVec 16) : s₀.Keeps (State.trainDone s n tx
    strobe t0 t1 t2 rtrip) := by
  grind [State.trainDone, State.trainTo_keeps, State.trainEffect_keeps, State.freePartner_keeps, State.setLane_keeps,
      State.wr_keeps, State.wf_keeps]
@[simp] theorem State.trainEnd_keeps (n : Nat) (r : TrainResult) : s₀.Keeps (State.trainEnd s n r) := by
  unfold State.trainEnd
  repeat' split
  all_goals simp [hs]
@[simp] theorem State.calAlarm_keeps (n : Nat) : s₀.Keeps (State.calAlarm s n) := by
  grind [State.calAlarm, State.setB_keeps, State.post_keeps, State.sawActive_keeps]
@[simp] theorem State.setTrim_keeps (n w : Nat) (x : Int) : s₀.Keeps (State.setTrim s n w x) := by
  unfold State.setTrim
  split <;> simp [hs]
@[simp] theorem State.keepTrims_keeps (n f : Nat) : s₀.Keeps (State.keepTrims s n f) := by simp [State.keepTrims, hs]
@[simp] theorem State.adjust_keeps (n w : Nat) (d : Int) : s₀.Keeps (State.adjust s n w d).1 := by
  grind [State.adjust, State.bump_keeps, State.calAlarm_keeps, State.setB_keeps, State.keepTrims_keeps, State.wr_keeps,
      State.setTrim_keeps]
@[simp] theorem State.correct_keeps (n now : Nat) : s₀.Keeps (s.correct n now) := by
  have hadj (l : List (Nat × Int)) (acc : State × Bool) (ha : s₀.Keeps acc.1) : s₀.Keeps (l.foldl (fun acc x =>
      let q := acc.1.adjust n x.1 x.2
      (q.1, acc.2 || q.2)) acc).1 := by
    induction l generalizing acc with
    | nil => exact ha
    | cons x l ih => exact ih _ (State.adjust_keeps ha n x.1 x.2)
  exact .ite hs (.ite (State.setLane_keeps (hadj _ _ hs) _ _) (hadj _ _ hs))

@[simp] theorem State.measFail_keeps (n : Nat) : s₀.Keeps (State.measFail s n) := by
  grind [State.measFail, State.clrB_keeps, State.setB_keeps, State.calAlarm_keeps]
@[simp] theorem State.sweepEnd_keeps (n : Nat) (r : Sweep) : s₀.Keeps (s.sweepEnd n r) :=
  .ite hs (.ite (State.setLane_keeps (State.clrB_keeps hs _ _) _ _) (State.setLane_keeps (State.wr_keeps (State.wr_keeps hs _ _) _
      _) _ _))

@[simp] theorem State.eyeScanWrite_keeps (n : Nat) (v : W32) : s₀.Keeps (State.eyeScanWrite s n v) := by
  grind [State.eyeScanWrite, State.wr_keeps, State.clrB_keeps, State.setLane_keeps]
@[simp] theorem State.eyeScanEnd_keeps (n errors : Nat) : s₀.Keeps (State.eyeScanEnd s n errors) := by simp [State.eyeScanEnd, hs]
@[simp] theorem State.prbsLock_keeps (n : Nat) : s₀.Keeps (State.prbsLock s n) := by simp [State.prbsLock, hs]
@[simp] theorem State.prbsCount_keeps (n bits errors : Nat) : s₀.Keeps (State.prbsCount s n bits errors) := by
  simp [State.prbsCount, hs]
@[simp] theorem State.prbsLost_keeps (n bits errors : Nat) : s₀.Keeps (State.prbsLost s n bits errors) := by
  grind [State.prbsLost, State.prbsCount_keeps, State.clrB_keeps, State.setB_keeps]
@[simp] theorem State.prbsClear_keeps (n : Nat) : s₀.Keeps (State.prbsClear s n) := by
  grind [State.prbsClear, State.wr_keeps, State.setLane_keeps]
@[simp] theorem State.prbsBitsRead_keeps (n : Nat) : s₀.Keeps (State.prbsBitsRead s n) := by
  grind [State.prbsBitsRead, State.Keeps.frame, State.wr_keeps]
@[simp] theorem State.stopAll_keeps : s₀.Keeps (State.stopAll s) := by simp [State.stopAll, hs]
@[simp] theorem State.lanesBack_keeps : s₀.Keeps s.lanesBack :=
  State.foldl_keeps (State.foldl_keeps hs fun t g => State.idleLanes_keeps (.refl t) g) fun t n => State.untrain_keeps (.refl t) n

@[simp] theorem State.tapLoad_keeps (i : ScanInstr) : s₀.Keeps (State.tapLoad s i) := by
  grind [State.tapLoad, State.Keeps.frame, State.stopAll_keeps, State.lanesBack_keeps]
@[simp] theorem State.tapEdge_keeps (tms : Bool) : s₀.Keeps (State.tapEdge s tms) := by simp [State.tapEdge, hs]
@[simp] theorem State.scan_keeps (i : ScanInstr) (d : ScanData) : s₀.Keeps (s.scan i d) :=
  State.foldl_keeps (State.Keeps.frame (State.tapLoad_keeps hs i)) fun t e => State.tapEdge_keeps (.refl t) e

@[simp] theorem State.qSettle_keeps (q : Nat) : s₀.Keeps (State.qSettle s q) := by grind [State.qSettle, State.wfB_keeps]
@[simp] theorem State.qStop_keeps (q : Nat) : s₀.Keeps (s.qStop q) :=
  State.qSettle_keeps (State.mapInprog_keeps hs fun c => by split <;> rfl) q

@[simp] theorem State.qError_keeps (q e : Nat) : s₀.Keeps (s.qError q e) :=
  State.qStop_keeps (State.setB_keeps (State.wfB_keeps (State.wfB_keeps hs (by simp)) (by simp)) _ _) q

@[simp] theorem State.qCfgWrite_keeps (q : Nat) (v : W32) : s₀.Keeps (s.qCfgWrite q v) := by
  have hcfg := State.wrB_keeps hs (a := aQ q 0x14) (v := v &&& 0x71F) (by simp)
  exact .ite (.ite (State.wrB_keeps (State.setQp_keeps hcfg _ _) (by simp)) (State.qSettle_keeps (State.wfB_keeps
    (State.wfB_keeps hcfg (by simp)) (by simp)) q)) (.ite (State.qStop_keeps hcfg q) hcfg)

@[simp] theorem State.linkDo_keeps (f : State → State) (hf : ∀ t : State, t.Keeps (f t)) : s₀.Keeps (s.linkDo f) :=
  .ite hs (hs.trans (hf s))

@[simp] theorem State.sqTailWrite_keeps (q : Nat) (v : W32) : s₀.Keeps (State.sqTailWrite s q v) := by simp [State.sqTailWrite, hs]
@[simp] theorem State.cqHeadWrite_keeps (q : Nat) (v : W32) : s₀.Keeps (State.cqHeadWrite s q v) := by simp [State.cqHeadWrite, hs]
@[simp] theorem State.toHostMem_keeps (a : Nat) (l : List Byte) : s₀.Keeps (s.toHostMem a l) := by
  induction l generalizing s a with
  | nil => exact hs
  | cons v l ih =>
    refine ih ?_ (a + 1)
    exact ⟨hs.pending, fun x => { hs.inv x with hostMem := spOk_spSet (hs.inv x).hostMem (a % 2 ^ 64) v }, hs.safe⟩

@[simp] theorem State.cfgWrite_keeps (a : Nat) (v : W32) : s₀.Keeps (s.cfgWrite a v) := by
  refine .ite hs ?_
  exact ⟨hs.pending, fun x => { hs.inv x with
    cfgSpace := spOk_spSet (hs.inv x).cfgSpace a ((s.rdCfg a &&& ~~~(cfgMask a)) ||| (v &&& cfgMask a)) }, hs.safe⟩

@[simp] theorem State.msixSend_keeps (v : Nat) : s₀.Keeps (s.msixSend v) := by
  refine .ite ?_ hs
  exact ⟨hs.pending, fun x => { hs.inv x with
    msixSent := spOk_spSet (hs.inv x).msixSent v (spGet (fun _ => 0) s.msixSent v + 1) }, hs.safe⟩

@[simp] theorem State.postCpl_keeps (c : Cur) (st r0 r1 : Nat) : s₀.Keeps (State.postCpl s c st r0 r1) := by
  grind [State.postCpl, State.Keeps.frame, State.qError_keeps, State.toHostMem_keeps, State.setQp_keeps, State.bump_keeps]
@[simp] theorem State.complete_keeps (c : Cur) (st r0 r1 : Nat) : s₀.Keeps (s.complete c st r0 r1) := by
  have hgone : s₀.Keeps { s with inprog := s.inprog.filter fun x => x.id != c.id } :=
    ⟨hs.pending, fun x => { hs.inv x with ids := fun y hy => (hs.inv x).ids y (List.mem_of_mem_filter hy) }, hs.safe⟩
  exact State.qSettle_keeps (State.postCpl_keeps (.ite (State.setB_keeps hgone _ _) hgone) _ _ _ _) _

@[simp] theorem State.completeAll_keeps (f : Cur → Bool) (st r0 : Nat) : s₀.Keeps (State.completeAll s f st r0) := by
  simp [State.completeAll, hs]
@[simp] theorem State.setWait_keeps (c : Cur) (w : Wait) : s₀.Keeps (s.setWait c w) :=
  State.mapInprog_keeps hs fun x => by split <;> rfl

@[simp] theorem State.toBuffer_keeps (c : Cur) (l : List Byte) (r0 r1 : Nat) : s₀.Keeps (State.toBuffer s c l r0 r1) := by
  unfold State.toBuffer
  split <;> simp [hs]
@[simp] theorem State.hostOp_keeps (id task op : Nat) (arg : W32) : s₀.Keeps (State.hostOp s id task op arg) := by
  grind [State.hostOp, State.mgmtIn_keeps, State.wr_keeps, State.enqueueOp_keeps]
@[simp] theorem State.feedOps_keeps (id op : Nat) (arg : W32) (next stop : Nat) : s₀.Keeps (s.feedOps id op arg next stop).1 :=
  State.foldl_keeps hs fun t _ => State.hostOp_keeps (.refl t) _ _ _ _

@[simp] theorem State.takeOps_keeps (id : Nat) : s₀.Keeps (State.takeOps s id).2.2 := by simp [State.takeOps, hs]
@[simp] theorem State.pollOps_keeps (c : Cur) (op : Nat) (arg : W32) (next stop out refused : Nat) : s₀.Keeps (State.pollOps s c
    op arg next stop out refused) := by
  grind [State.pollOps, State.takeOps_keeps, State.feedOps_keeps, State.complete_keeps, State.setWait_keeps]
@[simp] theorem State.pollContext_keeps (c : Cur) (t : Nat) (rec_ : List Byte) : s₀.Keeps (s.pollContext c t rec_) := by
  have hx := State.xfer_keeps hs (.host c.id) 13 0 256 false (ctxKey t) 512 none
  unfold State.pollContext
  split
  case h_1 heq => rw [heq] at hx; exact hx
  case h_2 heq =>
    rw [heq] at hx
    exact .ite (State.toBuffer_keeps hx _ _ _ _) (.ite (State.toBuffer_keeps hx _ _ _ _)
      (State.complete_keeps (State.toHostMem_keeps hx _ _) _ _ _ _))

@[simp] theorem State.pollQuery_keeps (c : Cur) (t : Nat) : s₀.Keeps (State.pollQuery s c t) := by
  grind [State.pollQuery, State.takeOps_keeps, State.complete_keeps, State.setWait_keeps, State.pollContext_keeps,
      State.toBuffer_keeps]
@[simp] theorem State.pollScan_keeps (c : Cur) (k : Nat) (acc : List W32) : s₀.Keeps (s.pollScan c k acc) :=
  .ite hs (.ite (State.toBuffer_keeps hs _ _ _ _) (State.setWait_keeps (State.mgmtDo_keeps hs _ _ _
    fun t => State.eyeScanWrite_keeps (.refl t) _ _) _ _))

@[simp] theorem State.pollBus_keeps (c : Cur) : s₀.Keeps (State.pollBus s c) := by
  unfold State.pollBus
  split <;> simp [hs]
omit hs in
/-- A notice is taken from its latch, and nothing else changes. -/
theorem State.takeNotice_keeps {mask : BitVec 3} {k : Nat} {v : W32} {t : State} (hs : s₀.Keeps s) (h : s.takeNotice mask = some
    (k, v, t)) :
    s₀.Keeps t := by
  unfold State.takeNotice at h
  split at h
  · cases h
    exact State.Keeps.frame hs
  · split at h
    · cases h
      exact State.Keeps.frame hs
    · split at h
      · cases h
        exact State.Keeps.frame hs
      · cases h

@[simp] theorem State.pollCur_keeps (c : Cur) : s₀.Keeps (s.pollCur c) := by
  unfold State.pollCur
  split
  · split
    case h_1 heq => exact State.complete_keeps (State.takeNotice_keeps hs heq) _ _ _ _
    · exact hs
  · exact State.awakeDo_keeps hs _ fun t => State.pollBus_keeps (.refl t) c

@[simp] theorem State.poll_keeps : s₀.Keeps (State.poll s) := by simp [State.poll, hs]
@[simp] theorem State.take_keeps (op : Nat) (p : Packet) : s₀.Keeps (s.take op p) := by
  refine .ite hs (.ite (State.qError_keeps hs _ _) ?_)
  have hq := State.setQp_keeps hs p.q.val { s.qp p.q.val with head := ((s.qp p.q.val).head + 1) % s.sqLen p.q.val }
  refine ⟨hq.pending, fun x => { hq.inv x with ids := fun y hy => ?_ }, hq.safe⟩
  rcases List.mem_append.mp hy with hold | hnew
  · exact Nat.lt_succ_of_lt ((hq.inv x).ids y hold)
  · rw [List.mem_singleton.mp hnew]
    exact Nat.lt_succ_self _

@[simp] theorem State.wakeBy_keeps (src : WakeSource) : s₀.Keeps (State.wakeBy s src) := by simp [State.wakeBy, hs]
@[simp] theorem State.hostCmd_keeps (op : Nat) (p : Packet) (run : State → Cur → State) (hrun : ∀ (t : State) c, t.Keeps (run t
    c)) :
    s₀.Keeps (s.hostCmd op p run) := by
  have htake : s₀.Keeps (if s.qBusy p.q.val then s else s.take op p) := .ite hs (State.take_keeps hs op p)
  unfold State.hostCmd
  dsimp only
  split
  · exact htake
  · exact .ite (State.wakeBy_keeps htake _) (.ite (State.poll_keeps ((State.setWait_keeps htake _ _).trans (hrun _ _))) htake)

@[simp] theorem guarded_keeps (status : Nat) (run : State → Cur → State) (c : Cur) (hrun : ∀ (t : State) c, t.Keeps (run t c)) :
    s₀.Keeps (guarded status run s c) :=
  .ite (hs.trans (hrun s c)) (State.complete_keeps hs _ _ _ _)

@[simp] theorem State.startNow_keeps : s₀.Keeps (State.startNow s) := by simp [State.startNow, hs]
@[simp] theorem State.withdraw_keeps : s₀.Keeps s.withdraw :=
  .ite (State.completeAll_keeps (State.foldl_keeps (State.clrB_keeps (State.Keeps.frame hs) _ _)
    fun t n => .ite (State.mapHolds_keeps (State.pxRest_keeps (.refl t) n) _) (.refl t)) _ _ _) hs

@[simp] theorem State.startRelease_keeps : s₀.Keeps (State.startRelease s) := by simp [State.startRelease, hs]
@[simp] theorem State.startLate_keeps : s₀.Keeps (State.startLate s) := by simp [State.startLate, hs]
@[simp] theorem State.syncIn_keeps (w : BitVec 16) : s₀.Keeps (State.syncIn s w) := by
  grind [State.syncIn, State.Keeps.frame, State.setB_keeps, State.wf_keeps]
@[simp] theorem State.epochStart_keeps : s₀.Keeps s.epochStart :=
  .ite (State.setB_keeps hs _ _) (State.foldl_keeps hs fun t g => State.clockStart_keeps (State.setB_keeps (.refl t) _ _) g)

/-- A sync word that acts leaves its queue. -/
theorem State.syncAct_keeps {k : BitVec 4} {t : State} (h : s.syncAct k = some t) : s₀.Keeps t := by
  unfold State.syncAct at h
  split at h
  · split at h
    · cases h
      exact State.Keeps.frame hs
    · cases h
  · cases h

@[simp] theorem State.epochAct_keeps : s₀.Keeps s.epochAct := by
  unfold State.epochAct
  split
  case h_1 heq => exact State.epochStart_keeps (State.syncAct_keeps hs heq)
  · exact hs

@[simp] theorem State.startAct_keeps : s₀.Keeps s.startAct := by
  unfold State.startAct
  split
  case h_1 heq =>
    have hact := State.syncAct_keeps hs heq
    exact .ite (State.post_keeps (State.clrB_keeps (State.Keeps.frame (State.startNow_keeps hact)) _ _) _ _ _ _)
      (State.setB_keeps hact _ _)
  · exact hs

@[simp] theorem State.stopAct_keeps : s₀.Keeps s.stopAct := by
  unfold State.stopAct
  split
  case h_1 heq => exact State.stopAll_keeps (State.syncAct_keeps hs heq)
  · exact hs

@[simp] theorem State.syncSend_keeps (code arg : Nat) : s₀.Keeps (State.syncSend s code arg) := by simp [State.syncSend, hs]
@[simp] theorem State.leaderStart_keeps (rdy : Bool) : s₀.Keeps (State.leaderStart s rdy) := by simp [State.leaderStart, hs]
@[simp] theorem State.ownerWrite_keeps (b : Nat) (a : Agent) (v : W32) : s₀.Keeps (State.ownerWrite s b a v) := by
  simp [State.ownerWrite, hs]
@[simp] theorem State.ownerUndo_keeps (b : Nat) : s₀.Keeps (State.ownerUndo s b) := by
  unfold State.ownerUndo
  split <;> simp [hs]
@[simp] theorem State.ownerBus_keeps (b : Nat) (a : Agent) (v : W32) : s₀.Keeps (State.ownerBus s b a v) := by
  grind [State.ownerBus, State.ownerUndo_keeps, State.ownerWrite_keeps, State.setBus_keeps]
@[simp] theorem State.handover_keeps (b : Nat) : s₀.Keeps (State.handover s b) := by
  grind [State.handover, State.setBank_keeps, State.wf_keeps, State.clrB_keeps, State.post_keeps]
@[simp] theorem State.setPower_keeps (b v : Nat) : s₀.Keeps (State.setPower s b v) := by simp [State.setPower, hs]
@[simp] theorem State.retain_keeps (b : Nat) : s₀.Keeps (State.retain s b) := by simp [State.retain, hs]
@[simp] theorem State.retained_keeps (b : Nat) : s₀.Keeps (State.retained s b) := by simp [State.retained, hs]
@[simp] theorem State.bankWake_keeps (b : Nat) : s₀.Keeps (State.bankWake s b) := by simp [State.bankWake, hs]
@[simp] theorem State.bankAwake_keeps (b : Nat) : s₀.Keeps (State.bankAwake s b) := by simp [State.bankAwake, hs]
@[simp] theorem State.respond_keeps (x : Txn) (r : Except Nat (List Byte)) : s₀.Keeps (State.respond s x r) := by
  unfold State.respond
  repeat' split
  all_goals simp [hs]
@[simp] theorem State.answer_keeps (x : Txn) (r : AccRes) : s₀.Keeps (State.answer s x r) := by
  unfold State.answer
  split <;> simp [hs]
@[simp] theorem State.bankServe_keeps (b : Nat) (ecc : Ecc) : s₀.Keeps (State.bankServe s b ecc) := by
  grind [State.bankServe, State.autoWake_keeps, State.setBank_keeps, State.bankErr_keeps, State.bankDo_keeps, State.answer_keeps]
@[simp] theorem State.bankRefuse_keeps (b : Nat) : s₀.Keeps (State.bankRefuse s b) := by
  grind [State.bankRefuse, State.setBank_keeps, State.bankErr_keeps, State.answer_keeps]
@[simp] theorem State.dramServe_keeps (k : Nat) (ecc : Ecc) : s₀.Keeps (State.dramServe s k ecc) := by
  grind [State.dramServe, State.Keeps.frame, State.dramDo_keeps, State.answer_keeps]
@[simp] theorem State.spareLow_keeps : s₀.Keeps (State.spareLow s) := by simp [State.spareLow, hs]
@[simp] theorem State.queueRepair_keeps (r : Repair) : s₀.Keeps (State.queueRepair s r) := by simp [State.queueRepair, hs]
@[simp] theorem State.useSpare_keeps (b i row origin : Nat) : s₀.Keeps (s.useSpare b i row origin) := by
  have hset (w : W32) (k : Nat) := State.wf_keeps (State.wr_keeps hs (aBnk b (0x100 + 4 * i)) w) (aBnk b 8) 8 6 k
  exact .ite (State.spareLow_keeps (hset _ _)) (hset _ _)

@[simp] theorem State.useOther_keeps (i : Nat) : s₀.Keeps (State.useOther s i) := by simp [State.useOther, hs]
@[simp] theorem State.softRepair_keeps (tgt inst row : Nat) : s₀.Keeps (State.softRepair s tgt inst row) := by
  grind [State.softRepair, State.setB_keeps, State.bump_keeps, State.useSpare_keeps, State.queueRepair_keeps, State.useOther_keeps]
@[simp] theorem State.badSpare_keeps (m i : Nat) : s₀.Keeps (State.badSpare s m i) := by
  grind [State.badSpare, State.useSpare_keeps, State.used_keeps, State.queueRepair_keeps, State.useOther_keeps]
@[simp] theorem State.gleanCopy_keeps (tgt inst row : Nat) (r : MarchResult) : s₀.Keeps (s.gleanCopy tgt inst row r) := by
  have hpois (l : List (Fin 32)) {t : State} (ht : s₀.Keeps t) : s₀.Keeps (l.foldl (fun (t : State) w =>
      (if tgt = 0 then t.bankErr inst 0x42 (256 * row + 8 * w.val) false 2 else t).poisonWord (glnWord tgt inst row w.val)) t) :=
    State.foldl_keeps ht fun u _ => State.poisonWord_keeps (.ite (State.bankErr_keeps (.refl u) _ _ _ _ _) (.refl u)) _
  have hcopy := hpois r.poisoned (.ite (c := tgt = 0) (State.bankCe_keeps hs inst r.corrected) hs)
  exact .ite (State.setB_keeps hcopy _ _) hcopy

@[simp] theorem State.gleanBegin_keeps (r : MarchResult) : s₀.Keeps (State.gleanBegin s r) := by
  grind [State.gleanBegin, State.Keeps.frame, State.wr_keeps, State.setB_keeps, State.gleanCopy_keeps]
@[simp] theorem State.gleanEnd_keeps (r : MarchResult) : s₀.Keeps (s.gleanEnd r) := by
  have hrep := State.Keeps.ite (c := r.mismatch = true) (State.softRepair_keeps hs (glnTarget s.glnPos).1 (glnTarget s.glnPos).2.1
    (glnTarget s.glnPos).2.2) hs
  have hclr := State.clrB_keeps (State.Keeps.ite (c := (glnTarget s.glnPos).1 = 0) (State.clrB_keeps hrep
    (aBnk (glnTarget s.glnPos).2.1 8) 5) hrep) (aGln 4) 31
  unfold State.gleanEnd
  dsimp only
  refine .ite (State.Keeps.frame hclr) (State.foldl_keeps (State.bump_keeps (State.Keeps.frame hclr) _ _) fun t x =>
    State.badSpare_keeps (.refl t) _ _)

@[simp] theorem State.gleanRow_keeps (r : MarchResult) : s₀.Keeps (State.gleanRow s r) := by simp [State.gleanRow, hs]
@[simp] theorem State.mapWrite_keeps : s₀.Keeps (State.mapWrite s) := by
  grind [State.mapWrite, State.Keeps.frame, State.wf_keeps, State.nvPut_keeps, State.setB_keeps, State.spareLow_keeps]
@[simp] theorem State.scrub_keeps (k burst : Nat) (ecc : Ecc) : s₀.Keeps (s.scrub k burst ecc) := by
  have hread := State.dramDo_keeps hs (s.dramOffset k (32 * burst)) 32 none ecc
  refine .ite hs (.ite ?_ (State.bump_keeps ?_ _ _))
  · exact ⟨hread.pending, fun x => { hread.inv x with scrubbed := spOk_spSet (hs.inv x).scrubbed (k * 2 ^ 26 + burst) true },
      hread.safe⟩
  · exact ⟨hread.pending, fun x => { hread.inv x with scrubbed := rfl, rowCe := rfl }, hread.safe⟩

@[simp] theorem State.softPpr_keeps (k : Nat) (spareLeft : Bool) (bad : BitVec 32) : s₀.Keeps (s.softPpr k spareLeft bad) := by
  unfold State.softPpr
  split
  · exact hs
  · split
    · exact hs
    case h_2 c rest _ =>
      have htake : s₀.Keeps { s with pprq := rest } := State.Keeps.frame hs
      have hpois := State.setB_keeps (State.wf_keeps (State.foldl_keeps (l := (List.range 32).filter fun i => bad.getLsbD i)
        (f := fun t i => t.setPoison (32 * c + i) true) htake fun t i => State.setPoison_keeps (.refl t) _ true)
        (aDrcCh k 0x10) 0 16 (s.rf (aDrcCh k 0x10) 0 16 + 1)) (aDrc 0xC) 2
      exact .ite (.ite (State.queueRepair_keeps hpois _) hpois) (State.spareLow_keeps (State.setB_keeps htake _ _))

@[simp] theorem State.setTmrVal_keeps (b o v : Nat) : s₀.Keeps (State.setTmrVal s b o v) := by simp [State.setTmrVal, hs]
@[simp] theorem State.showWaiting_keeps : s₀.Keeps (State.showWaiting s) := by
  grind [State.showWaiting, State.clrB_keeps, State.wf_keeps, State.setB_keeps, State.used_keeps]
@[simp] theorem State.adcTimer_keeps (c : Nat) : s₀.Keeps (State.adcTimer s c) := by
  unfold State.adcTimer
  repeat' split
  all_goals simp [hs]
@[simp] theorem State.adcGo_keeps (k : Nat) : s₀.Keeps (State.adcGo s k) := by
  unfold State.adcGo
  split
  · simp [hs]
  · split
    · simp [hs]
    · simp [hs]
    · simp [hs]
@[simp] theorem State.trigAdc_keeps (b : Nat) : s₀.Keeps (State.trigAdc s b) := by simp [State.trigAdc, hs]
@[simp] theorem State.trigDma_keeps (b : Nat) : s₀.Keeps (State.trigDma s b) := by simp [State.trigDma, hs]
@[simp] theorem State.trigEvt_keeps (b : Nat) : s₀.Keeps (State.trigEvt s b) := by simp [State.trigEvt, hs]
@[simp] theorem State.trigAct_keeps (b : Nat) : s₀.Keeps (State.trigAct s b) := by simp [State.trigAct, hs]
@[simp] theorem State.tmrTrigger_keeps (b : Nat) : s₀.Keeps (State.tmrTrigger s b) := by
  grind [State.tmrTrigger, State.trigAdc_keeps, State.trigDma_keeps, State.trigEvt_keeps, State.trigAct_keeps, State.wakeBy_keeps]
@[simp] theorem State.tmrEvents_keeps (b : Nat) (matched wrapped : Bool) : s₀.Keeps (State.tmrEvents s b matched wrapped) := by
  simp [State.tmrEvents, hs]
@[simp] theorem State.divided_keeps (c : Nat) : s₀.Keeps (s.divided c).1 := by
  unfold State.divided
  split
  · exact hs
  · split
    · exact hs
    · exact ⟨hs.pending, fun x => { hs.inv x with tmrDiv := spOk_spSet (hs.inv x).tmrDiv _ _ }, hs.safe⟩

@[simp] theorem State.gateSample_keeps (c : Nat) (pin : Bool) : s₀.Keeps (s.gateSample c pin) := by
  have hfree (p : Prop) [Decidable p] := State.Keeps.ite (c := p) hs (State.used_keeps hs)
  exact ⟨(hfree _).pending, fun x => { (hfree _).inv x with tmrGate := spOk_spSet (hs.inv x).tmrGate _ _ }, (hfree _).safe⟩

@[simp] theorem State.gateTick_keeps (c : Nat) (pin : Bool) : s₀.Keeps (s.gateTick c pin) := by
  have hsam (g : Bool) := State.putB_keeps (State.gateSample_keeps hs c pin) (aTmr c 0x2C) 0 g
  have hspan (g : Bool) (n : Nat) := State.setGateSpan_keeps (hsam g) c n
  exact .ite (State.setGateSpan_keeps (State.clrB_keeps (hsam _) _ _) _ _) (.ite (State.post_keeps (State.setB_keeps
      (State.setB_keeps
    (hspan _ _) _ _) _ _) _ _ _ _) (hspan _ _))

@[simp] theorem State.tmrActOn_keeps (b : Nat) (ks : List Nat) : s₀.Keeps (State.tmrActOn s b ks) := by simp [State.tmrActOn, hs]
@[simp] theorem State.tmrApply_keeps (l : List (Nat × Nat)) : s₀.Keeps (State.tmrApply s l) := by simp [State.tmrApply, hs]
@[simp] theorem State.tmrActions_keeps : s₀.Keeps (State.tmrActions s) := by
  grind [State.tmrActions, State.Keeps.frame, State.busEnd_keeps, State.tmrApply_keeps]
@[simp] theorem State.edgeOf_keeps (c : Nat) : s₀.Keeps (State.edgeOf s c) := by
  grind [State.edgeOf, State.Keeps.frame, State.tmrActions_keeps, State.busEnd_keeps]
@[simp] theorem State.tickRun_keeps (c : Nat) (pin : Bool) : s₀.Keeps (State.tickRun s c pin) := by
  grind [State.tickRun, State.gateTick_keeps, State.setTmrVal_keeps, State.tmrEvents_keeps]
/-- A tick acts in the state after the divider and the edge. -/
theorem State.tickAt_keeps {c : Nat} {t : State} (h : s.tickAt c = some t) : s₀.Keeps t := by
  unfold State.tickAt at h
  dsimp only at h
  split at h
  · cases h
    exact State.edgeOf_keeps (State.divided_keeps hs c) c
  · cases h

@[simp] theorem State.tmrTick_keeps (c : Nat) (pin : Bool) : s₀.Keeps (s.tmrTick c pin) := by
  unfold State.tmrTick
  split
  case h_1 heq => exact State.tickRun_keeps (State.tickAt_keeps hs heq) c pin
  · exact State.divided_keeps hs c

@[simp] theorem State.tickIf_keeps (c : Nat) (pin : Bool) (p : State → Bool) : s₀.Keeps (s.tickIf c pin p) := by
  unfold State.tickIf
  split
  case h_1 heq => exact .ite (State.tickRun_keeps (State.tickAt_keeps hs heq) c pin) hs
  · exact hs

@[simp] theorem State.tickMatch_keeps (c : Nat) (pin : Bool) : s₀.Keeps (State.tickMatch s c pin) := by simp [State.tickMatch, hs]
@[simp] theorem State.tickWrap_keeps (c : Nat) (pin : Bool) : s₀.Keeps (State.tickWrap s c pin) := by simp [State.tickWrap, hs]
@[simp] theorem State.tickMaxgate_keeps (c : Nat) (pin : Bool) : s₀.Keeps (State.tickMaxgate s c pin) := by
  simp [State.tickMaxgate, hs]
@[simp] theorem State.tooFast_keeps (c : Nat) : s₀.Keeps (State.tooFast s c) := by simp [State.tooFast, hs]
@[simp] theorem State.spread_keeps (n i : Nat) (l : List Nat) : s₀.Keeps (s.spread n i l) := by
  induction l generalizing s i with
  | nil => exact hs
  | cons c l ih => exact ih (State.wr_keeps hs _ _) _

@[simp] theorem State.groupStart_keeps (spread : Bool) : s₀.Keeps (s.groupStart spread) := by
  have hput := State.putB_keeps hs (aTmrBlk 0x1004) 1 spread
  exact State.foldl_keeps (.ite (State.spread_keeps hput _ _ _) hput) fun t c =>
    State.setB_keeps (State.setTmrVal_keeps (.refl t) _ _ _) _ _

@[simp] theorem State.slowRun_keeps (c : Nat) : s₀.Keeps (State.slowRun s c) := by
  grind [State.slowRun, State.setB_keeps, State.setTmrVal_keeps, State.tmrEvents_keeps]
@[simp] theorem State.tmrSclk_keeps (c : Nat) : s₀.Keeps (s.tmrSclk c) := by
  have hrun (p : Prop) [Decidable p] := State.Keeps.ite (c := p) (State.slowRun_keeps (State.edgeOf_keeps hs c) c) hs
  refine .ite hs ?_
  exact ⟨(hrun _).pending, fun x => { (hrun _).inv x with tmrSlow := spOk_spSet ((hrun _).inv x).tmrSlow _ _ }, (hrun _).safe⟩

@[simp] theorem State.tmrCountRead_keeps (p : Nat) : s₀.Keeps (State.tmrCountRead s p) := by simp [State.tmrCountRead, hs]
end

/- DMA, health, power, registers and the matrix -------------------------------------------------------- -/

section
variable {s₀ s : State} (hs : s₀.Keeps s)
include hs

@[simp] theorem State.dmaEnable_keeps (c : Nat) : s₀.Keeps (s.dmaEnable c) :=
  .ite hs (.ite (State.setDma_keeps (State.wf_keeps (State.wf_keeps (State.setB_keeps hs _ _) _ _ _ _) _ _ _ _) _ _)
      (State.flag_keeps hs _ _))

@[simp] theorem State.dmaBegin_keeps (c : Nat) : s₀.Keeps (State.dmaBegin s c) := by simp [State.dmaBegin, hs]
@[simp] theorem State.dmaTrigger_keeps (c : Nat) : s₀.Keeps (State.dmaTrigger s c) := by simp [State.dmaTrigger, hs]
@[simp] theorem State.dmaIdle_keeps (c : Nat) : s₀.Keeps (State.dmaIdle s c) := by
  grind [State.dmaIdle, State.clrB_keeps, State.wf_keeps, State.setDma_keeps]
@[simp] theorem State.dmaAbort_keeps (c : Nat) : s₀.Keeps (State.dmaAbort s c) := by simp [State.dmaAbort, hs]
@[simp] theorem State.dmaSource_keeps (k : Nat) : s₀.Keeps (State.dmaSource s k) := by
  unfold State.dmaSource
  split <;> simp [hs]
@[simp] theorem State.dmaDone_keeps (c : Nat) : s₀.Keeps (State.dmaDone s c) := by simp [State.dmaDone, hs]
@[simp] theorem State.dmaBlockEnd_keeps (c : Nat) : s₀.Keeps (s.dmaBlockEnd c) := by
  have hcount (n : Nat) := State.wf_keeps hs (aDma c 0x20) 16 16 n
  have hdone (n : Nat) (p : Prop) [Decidable p] := State.Keeps.ite (c := p) (State.dmaDone_keeps (hcount n) c) (hcount n)
  unfold State.dmaBlockEnd
  dsimp only
  exact .ite hs (.ite (State.Keeps.frame (State.dmaDone_keeps (State.clrB_keeps (State.wf_keeps (State.clrB_keeps (hcount _) _ _)
      _ _ _ _)
    _ _) _)) (.ite (State.dmaBegin_keeps (State.clrB_keeps (hdone _ _) _ _) _) (State.wf_keeps (hdone _ _) _ _ _ _)))

@[simp] theorem State.cmpJudge_keeps (i code : Nat) : s₀.Keeps (State.cmpJudge s i code) := by simp [State.cmpJudge, hs]
@[simp] theorem State.judgeAll_keeps (k code : Nat) : s₀.Keeps (State.judgeAll s k code) := by simp [State.judgeAll, hs]
@[simp] theorem State.oneOf_keeps (l : List Nat) : s₀.Keeps (State.oneOf s l).2 := by
  unfold State.oneOf
  split <;> simp [hs]
@[simp] theorem State.hottest_keeps : s₀.Keeps (State.hottest s) := by
  grind [State.hottest, State.oneOf_keeps, State.wr_keeps, State.wf_keeps]
@[simp] theorem State.thermal_keeps (code : Nat) : s₀.Keeps (State.thermal s code) := by
  grind [State.thermal, State.hottest_keeps, State.setB_keeps]
@[simp] theorem State.powerSum_keeps : s₀.Keeps (State.powerSum s) := by simp [State.powerSum, hs]
@[simp] theorem State.voltage_keeps (v code : Nat) : s₀.Keeps (State.voltage s v code) := by simp [State.voltage, hs]
@[simp] theorem State.adcAdvance_keeps : s₀.Keeps (State.adcAdvance s) := by simp [State.adcAdvance, hs]
@[simp] theorem State.adcScan_keeps : s₀.Keeps (State.adcScan s) := by simp [State.adcScan, hs]
@[simp] theorem State.converted_keeps (code : Nat) : s₀.Keeps (s.converted code) := by
  unfold State.converted
  split
  · exact hs
  · split
    · exact hs
    case h_2 src k _ _ =>
      have hlast (v w : W32) := State.wr_keeps (State.wr_keeps hs (sensorReg k) v) (aHlt 0x18) w
      have hdma (v w : W32) : s₀.Keeps (if src < 33 then
          { (s.wr (sensorReg k) v).wr (aHlt 0x18) w with dmaq := ((s.wr (sensorReg k) v).wr (aHlt 0x18) w).dmaq ++ [0x21] }
          else (s.wr (sensorReg k) v).wr (aHlt 0x18) w) := .ite (State.Keeps.frame (hlast v w)) (hlast v w)
      exact State.adcScan_keeps (State.adcAdvance_keeps (State.judgeAll_keeps (.ite (State.thermal_keeps (hdma _ _) _)
        (State.voltage_keeps (hdma _ _) _ _)) _ _))

@[simp] theorem State.scanRequest_keeps : s₀.Keeps (State.scanRequest s) := by simp [State.scanRequest, hs]
@[simp] theorem State.scanStale_keeps : s₀.Keeps (State.scanStale s) := by simp [State.scanStale, hs]
@[simp] theorem State.stopBusy_keeps : s₀.Keeps (State.stopBusy s) := by simp [State.stopBusy, hs]
@[simp] theorem State.idleAll_keeps : s₀.Keeps (State.idleAll s) := by simp [State.idleAll, hs]
@[simp] theorem State.trip_keeps : s₀.Keeps s.trip :=
  State.hardFault_keeps (State.setB_keeps (State.setB_keeps (State.Keeps.frame (State.idleAll_keeps (State.stopBusy_keeps hs))) _
      _) _ _)

@[simp] theorem State.avsSend_keeps (k : AvsKind) : s₀.Keeps (State.avsSend s k) := by simp [State.avsSend, hs]
@[simp] theorem State.avsAlert_keeps (r : AvsResp) : s₀.Keeps (State.avsAlert s r) := by
  grind [State.avsAlert, State.Keeps.frame, State.avsSend_keeps, State.setB_keeps, State.wf_keeps]
@[simp] theorem State.avsFail_keeps : s₀.Keeps (State.avsFail s) := by simp [State.avsFail, hs]
@[simp] theorem State.avsWrite_keeps (mv n : Nat) (r : AvsResp) : s₀.Keeps (State.avsWrite s mv n r) := by
  grind [State.avsWrite, State.Keeps.frame, State.avsSend_keeps, State.avsAlert_keeps, State.wf_keeps, State.avsFail_keeps]
@[simp] theorem State.avsStep_keeps (r : AvsResp) : s₀.Keeps (State.avsStep s r) := by
  unfold State.avsStep
  split <;> simp [hs]
@[simp] theorem State.avsRead_keeps (mv got : Nat) : s₀.Keeps (State.avsRead s mv got) := by
  grind [State.avsRead, State.Keeps.frame, State.wf_keeps, State.avsFail_keeps]
@[simp] theorem State.avsReadback_keeps (r next : AvsResp) : s₀.Keeps (State.avsReadback s r next) := by
  grind [State.avsReadback, State.Keeps.frame, State.avsSend_keeps, State.avsAlert_keeps, State.avsRead_keeps, State.avsStep_keeps]
@[simp] theorem State.statusRetry_keeps (n : Nat) (r : AvsResp) : s₀.Keeps (State.statusRetry s n r) := by
  grind [State.statusRetry, State.Keeps.frame, State.avsSend_keeps, State.wf_keeps, State.avsFail_keeps]
@[simp] theorem State.requestRetry_keeps (r : AvsResp) : s₀.Keeps (State.requestRetry s r) := by
  grind [State.requestRetry, State.Keeps.frame, State.avsWrite_keeps, State.avsSend_keeps, State.avsAlert_keeps,
      State.avsRead_keeps, State.avsFail_keeps]
@[simp] theorem State.avsRetry_keeps (r : AvsResp) : s₀.Keeps (State.avsRetry s r) := by
  unfold State.avsRetry
  split <;> simp [hs]
@[simp] theorem State.ageWindow_keeps (e count : Nat) : s₀.Keeps (s.ageWindow e count) :=
  ⟨hs.pending, fun x => { hs.inv x with age := spOk_spSet (hs.inv x).age e _ }, hs.safe⟩

@[simp] theorem State.ageStore_keeps (x : W64) (e : Nat) : s₀.Keeps (State.ageStore s x e) := by simp [State.ageStore, hs]
@[simp] theorem State.ageMax_keeps : s₀.Keeps (State.ageMax s) := by
  grind [State.ageMax, State.used_keeps, State.wf_keeps, State.oneOf_keeps]
@[simp] theorem State.ageRequest_keeps (need : Nat) (r : AvsResp) : s₀.Keeps (State.ageRequest s need r) := by
  simp [State.ageRequest, hs]
theorem State.ageEmpty_keeps : s₀.Keeps { s with age := [] } :=
  ⟨hs.pending, fun x => { hs.inv x with age := rfl }, hs.safe⟩

@[simp] theorem State.ageEvaluate_keeps (r : AvsResp) : s₀.Keeps (s.ageEvaluate r) := by
  have hstore := State.foldl_keeps (l := List.range 108) (f := fun (t : State) e => t.ageStore s.free e) (State.used_keeps hs)
    fun t e => State.ageStore_keeps (.refl t) _ e
  have hneed (n : Nat) := State.wf_keeps (State.ageMax_keeps (State.ageEmpty_keeps hstore)) (aHlt 0x604) 24 4 n
  have hover (n : Nat) (p : Prop) [Decidable p] := State.Keeps.ite (c := p) (State.setB_keeps (hneed n) (aHlt 0) 7) (hneed n)
  have hpast (n : Nat) (p q : Prop) [Decidable p] [Decidable q] := State.Keeps.ite (c := q) (State.setB_keeps (hover n p) (aHlt 0)
      6) (hover n p)
  have hbad (l : List Nat) {t : State} (ht : s₀.Keeps t) : s₀.Keeps (l.foldl State.candidate t) :=
    State.foldl_keeps ht fun u e => State.candidate_keeps (.refl u) e
  unfold State.ageEvaluate
  dsimp only
  refine State.ageRequest_keeps (State.Keeps.frame (hbad _ ?_)) _ _
  refine .ite ?_ (State.setB_keeps ?_ _ _)
  · exact hpast _ _ _
  · exact hpast _ _ _

@[simp] theorem State.lifeAdd_keeps (af : Nat) : s₀.Keeps (State.lifeAdd s af) := by
  grind [State.lifeAdd, State.wf_keeps, State.setB_keeps]
@[simp] theorem State.lifeUpdate_keeps : s₀.Keeps (State.lifeUpdate s) := by
  grind [State.lifeUpdate, State.Keeps.frame, State.used_keeps, State.lifeAdd_keeps, State.wf_keeps]
@[simp] theorem State.lifeRecord_keeps : s₀.Keeps (State.lifeRecord s) := by simp [State.lifeRecord, hs]
@[simp] theorem State.railReport_keeps (l : List (BitVec 16)) : s₀.Keeps (s.railReport l) :=
  State.powerSum_keeps (State.foldl_keeps hs fun t _ => State.wr_keeps (.refl t) _ _)

@[simp] theorem State.spareReq_keeps (sh k : Nat) : s₀.Keeps (State.spareReq s sh k) := by simp [State.spareReq, hs]
@[simp] theorem State.copyReg_keeps (a b : Nat) : s₀.Keeps (State.copyReg s a b) := by simp [State.copyReg, hs]
@[simp] theorem State.copyEngine_keeps (e d : Nat) : s₀.Keeps (s.copyEngine e d) :=
  State.foldl_keeps hs fun t _ => State.copyReg_keeps (.refl t) _ _

@[simp] theorem State.remap_keeps (e : Nat) : s₀.Keeps (s.remap e) := by
  unfold State.remap
  dsimp only
  split
  · exact State.spareCheck_keeps (State.spareLow_keeps (State.putB_keeps (State.clrB_keeps (State.clrB_keeps (State.setB_keeps
      (State.setB_keeps (State.wf_keeps (State.copyEngine_keeps hs _ _) _ _ _ _) _ _) _ _) _ _) _ _) _ _ _)) _
  · exact hs

@[simp] theorem State.sumUpdate_keeps : s₀.Keeps (State.sumUpdate s) := by grind [State.sumUpdate, State.wr_keeps]
@[simp] theorem State.pinsUpdate_keeps : s₀.Keeps (State.pinsUpdate s) := by
  grind [State.pinsUpdate, State.Keeps.frame, State.putB_keeps]
@[simp] theorem State.devUpdate_keeps : s₀.Keeps (State.devUpdate s) := by
  grind [State.devUpdate, State.Keeps.frame, State.wr_keeps, State.sumUpdate_keeps, State.post_keeps, State.pinsUpdate_keeps]
@[simp] theorem State.haltOn_keeps : s₀.Keeps (State.haltOn s) := by
  grind [State.haltOn, State.stopBusy_keeps, State.setB_keeps, State.wakeBy_keeps]
@[simp] theorem State.haltOff_keeps : s₀.Keeps (State.haltOff s) := by simp [State.haltOff, hs]
@[simp] theorem State.sleepAsk_keeps : s₀.Keeps (State.sleepAsk s) := by simp [State.sleepAsk, hs]
@[simp] theorem State.sleepEntry_keeps : s₀.Keeps (State.sleepEntry s) := by
  grind [State.sleepEntry, State.Keeps.frame, State.idleAll_keeps, State.wf_keeps]
@[simp] theorem State.histCount_keeps : s₀.Keeps (State.histCount s) := by simp [State.histCount, hs]
@[simp] theorem State.writeHistory_keeps (kind : Nat) : s₀.Keeps (State.writeHistory s kind) := by
  grind [State.writeHistory, State.Keeps.frame, State.used_keeps, State.lifeRecord_keeps, State.take_keeps, State.histCount_keeps]
@[simp] theorem State.histSel_keeps (age : Nat) : s₀.Keeps (State.histSel s age) := by
  grind [State.histSel, State.Keeps.frame, State.wf_keeps, State.setB_keeps]
@[simp] theorem State.histDone_keeps : s₀.Keeps s.histDone := by
  have hclr : s₀.Keeps (({ s with histCopy := none } : State).clrB (aNvc 0x14) 0) := State.clrB_keeps (State.Keeps.frame hs) _ _
  have hcopy (e : List Byte) {t : State} (ht : s₀.Keeps t) : s₀.Keeps ((List.range 16).foldl
      (fun t i => t.wr (aNvc (0x40 + 4 * i)) (s.histWord e i)) t) := State.foldl_keeps ht fun u _ => State.wr_keeps (.refl u) _ _
  unfold State.histDone
  split
  · exact hs
  · split
    · exact State.clrB_keeps hclr _ _
    · exact .ite (State.setB_keeps (hcopy _ (State.Keeps.frame hclr)) _ _)
        (State.setB_keeps (State.clrB_keeps (hcopy _ (State.Keeps.frame hclr)) _ _) _ _)

@[simp] theorem State.smbAnswer_keeps (code : Nat) (data : List Byte) : s₀.Keeps (State.smbAnswer s code data) := by
  simp [State.smbAnswer, hs]
@[simp] theorem State.smbBad_keeps : s₀.Keeps (State.smbBad s) := by simp [State.smbBad, hs]
@[simp] theorem State.smbServe_keeps (pecOk : Bool) (code : Nat) (data : List Byte) : s₀.Keeps (State.smbServe s pecOk code data)
    := by
  simp [State.smbServe, hs]
@[simp] theorem State.alertAnswer_keeps : s₀.Keeps (State.alertAnswer s) := by simp [State.alertAnswer, hs]
@[simp] theorem State.readReg_keeps (a : Nat) : s₀.Keeps (State.readReg s a).1 := by
  unfold State.readReg
  repeat' split
  all_goals simp [hs]
@[simp] theorem State.plainWrite_keeps (a : Nat) (v : W32) : s₀.Keeps (State.plainWrite s a v) := by simp [State.plainWrite, hs]
@[simp] theorem State.siteWrite_keeps (i o : Nat) (v : W32) : s₀.Keeps (State.siteWrite s i o v) := by
  grind [State.siteWrite, State.putB_keeps, State.flag_keeps, State.finish_keeps, State.plainWrite_keeps]
/-- A staged write of a high channel is stored or dropped. -/
theorem State.tmrStage_keeps (k : Nat) (v : Option W32) : s₀.Keeps { s with tmrStage := spSet (fun _ => none) s.tmrStage k v } :=
  ⟨hs.pending, fun x => { hs.inv x with tmrStage := spOk_spSet (hs.inv x).tmrStage k v }, hs.safe⟩

@[simp] theorem State.tmrValueWrite_keeps (c o : Nat) (v : W32) : s₀.Keeps (s.tmrValueWrite c o v) := by
  have hlow := State.wr_keeps hs (aTmr c o) v
  unfold State.tmrValueWrite
  dsimp only
  refine .ite (.ite (State.tmrStage_keeps hs _ _) ?_) hlow
  split
  · exact State.tmrStage_keeps (s := (s.wr (aTmr c o) v).wr (aTmr (c + 1) o) _) (State.wr_keeps hlow _ _) _ none
  · exact hlow

@[simp] theorem State.tmrWrite_keeps (c o : Nat) (v : W32) : s₀.Keeps (State.tmrWrite s c o v) := by
  grind [State.tmrWrite, State.flag_keeps, State.plainWrite_keeps, State.putB_keeps, State.tmrValueWrite_keeps]
@[simp] theorem State.dmaWrite_keeps (c o : Nat) (v : W32) : s₀.Keeps (State.dmaWrite s c o v) := by
  grind [State.dmaWrite, State.flag_keeps, State.plainWrite_keeps, State.dmaEnable_keeps, State.dmaAbort_keeps,
      State.dmaTrigger_keeps]
@[simp] theorem State.bnkWrite_keeps (g : Agent) (b o : Nat) (v : W32) : s₀.Keeps (State.bnkWrite s g b o v) := by
  grind [State.bnkWrite, State.ownerBus_keeps, State.plainWrite_keeps, State.flag_keeps, State.land_keeps, State.wr_keeps]
@[simp] theorem State.grnWrite_keeps (o : Nat) (v : W32) : s₀.Keeps (State.grnWrite s o v) := by simp [State.grnWrite, hs]
@[simp] theorem State.culmWrite_keeps (o : Nat) (v : W32) : s₀.Keeps (State.culmWrite s o v) := by
  grind [State.culmWrite, State.plainWrite_keeps, State.wr_keeps, State.rxDiscard_keeps, State.culmClear_keeps]
@[simp] theorem State.synWrite_keeps (o : Nat) (v : W32) : s₀.Keeps (State.synWrite s o v) := by simp [State.synWrite, hs]
@[simp] theorem State.pxCtrlWrite_keeps (n : Nat) (v : W32) : s₀.Keeps (State.pxCtrlWrite s n v) := by
  grind [State.pxCtrlWrite, State.pxStop_keeps, State.putB_keeps, State.take_keeps, State.pxRest_keeps, State.mapHolds_keeps,
      State.pxFlush_keeps]
@[simp] theorem State.pxWrite_keeps (n o : Nat) (v : W32) : s₀.Keeps (State.pxWrite s n o v) := by simp [State.pxWrite, hs]
@[simp] theorem State.pgWrite_keeps (g o : Nat) (v : W32) : s₀.Keeps (State.pgWrite s g o v) := by simp [State.pgWrite, hs]
@[simp] theorem State.lnCfgWrite_keeps (n : Nat) (v : W32) : s₀.Keeps (State.lnCfgWrite s n v) := by
  grind [State.lnCfgWrite, State.plainWrite_keeps, State.putB_keeps, State.flag_keeps]
@[simp] theorem State.lnPrbsWrite_keeps (n : Nat) (v : W32) : s₀.Keeps (State.lnPrbsWrite s n v) := by
  grind [State.lnPrbsWrite, State.plainWrite_keeps, State.setLane_keeps, State.clrB_keeps]
@[simp] theorem State.lnApply_keeps (n o : Nat) (v : W32) : s₀.Keeps (State.lnApply s n o v) := by simp [State.lnApply, hs]
@[simp] theorem State.lnWrite_keeps (n o : Nat) (v : W32) : s₀.Keeps (State.lnWrite s n o v) := by simp [State.lnWrite, hs]
@[simp] theorem State.thrWrite_keeps (n o : Nat) (v : W32) : s₀.Keeps (State.thrWrite s n o v) := by simp [State.thrWrite, hs]
@[simp] theorem State.drcStickyWrite_keeps (v : W32) : s₀.Keeps (State.drcStickyWrite s v) := by simp [State.drcStickyWrite, hs]
@[simp] theorem State.mtxClear_keeps : s₀.Keeps s.mtxClear := State.regsFilter_keeps hs _

@[simp] theorem State.mtxWrite_keeps (o : Nat) (v : W32) : s₀.Keeps (State.mtxWrite s o v) := by
  grind [State.mtxWrite, State.land_keeps, State.plainWrite_keeps, State.wr_keeps, State.mtxClear_keeps]
@[simp] theorem State.trigWrite_keeps (a : Nat) (v : W32) : s₀.Keeps (State.trigWrite s a v) := by simp [State.trigWrite, hs]
@[simp] theorem State.haltWrite_keeps (v : W32) : s₀.Keeps (State.haltWrite s v) := by simp [State.haltWrite, hs]
@[simp] theorem State.unitWrite_keeps (g : Agent) (a : Nat) (v : W32) : s₀.Keeps (State.unitWrite s g a v) := by
  simp [State.unitWrite, hs]
@[simp] theorem State.writeReg_keeps (g : Agent) (a : Nat) (v : W32) : s₀.Keeps (State.writeReg s g a v) := by
  simp [State.writeReg, hs]
@[simp] theorem State.bridgeWrite_keeps (g : Agent) (a : Nat) (v : W32) : s₀.Keeps (State.bridgeWrite s g a v) := by
  simp [State.bridgeWrite, hs]
@[simp] theorem State.bridgeRead_keeps (g : Agent) (a : Nat) : s₀.Keeps (State.bridgeRead s g a).1 := by
  simp [State.bridgeRead, hs]
@[simp] theorem State.loneWrite_keeps (m a : Nat) (v : W32) : s₀.Keeps (State.loneWrite s m a v) := by simp [State.loneWrite, hs]
@[simp] theorem State.sendWrite_keeps (g : Agent) (a : Nat) (v : W32) : s₀.Keeps (State.sendWrite s g a v) := by
  unfold State.sendWrite
  split <;> simp [hs]
@[simp] theorem State.lateOne_keeps (x : LateReq) : s₀.Keeps (State.lateOne s x) := by
  unfold State.lateOne
  split <;> simp [hs]
@[simp] theorem State.lateAll_keeps : s₀.Keeps (State.lateAll s) := by simp [State.lateAll, hs]
@[simp] theorem State.wake_keeps (src : WakeSource) : s₀.Keeps (State.wake s src) := by
  grind [State.wake, State.Keeps.frame, State.wf_keeps, State.lateAll_keeps]
@[simp] theorem State.bar0Write_keeps (a : Nat) (v : W32) : s₀.Keeps (State.bar0Write s a v) := by
  grind [State.bar0Write, State.sqTailWrite_keeps, State.cqHeadWrite_keeps, State.qCfgWrite_keeps, State.wrB_keeps]
@[simp] theorem State.bar2Write_keeps (a : Nat) (v : W32) : s₀.Keeps (s.bar2Write a v) := by
  refine .ite ?_ hs
  exact ⟨hs.pending, fun x => { hs.inv x with bar2 := spOk_spSet (hs.inv x).bar2 a v }, hs.safe⟩

@[simp] theorem State.busWrite_keeps (g : Agent) (a : Nat) (v : W32) : s₀.Keeps (State.busWrite s g a v) := by
  unfold State.busWrite
  split <;> simp [hs]
@[simp] theorem State.ageHeads_keeps (t n : Nat) : s₀.Keeps (State.ageHeads s t n) := by simp [State.ageHeads, hs]
@[simp] theorem State.bridge_keeps (x : Txn) : s₀.Keeps (State.bridge s x) := by
  unfold State.bridge
  split <;> simp [hs]
@[simp] theorem State.toBank_keeps (x : Txn) : s₀.Keeps (s.toBank x) := by
  have hnum {t : State} (ht : s₀.Keeps t) (hid : t.nextId = s.nextId) : s₀.Keeps { t with nextId := s.nextId + 1 } :=
    hid ▸ State.nextNumber_keeps ht
  unfold State.toBank
  refine hnum (State.setBank_keeps (.ite (State.autoWake_keeps hs x.bank) hs) _ _) ?_
  split <;> rfl

@[simp] theorem State.toDram_keeps (y : Txn) : s₀.Keeps (State.toDram s y) := by simp [State.toDram, hs]
@[simp] theorem State.toSpillPort_keeps (x : Txn) : s₀.Keeps (State.toSpillPort s x) := by simp [State.toSpillPort, hs]
@[simp] theorem State.toTarget_keeps (t : Nat) (x : Txn) : s₀.Keeps (State.toTarget s t x) := by simp [State.toTarget, hs]
@[simp] theorem State.grantedTo_keeps (t : Nat) (x : Txn) : s₀.Keeps (State.granted_ s t x) := by simp [State.granted_, hs]
@[simp] theorem State.decodeErr_keeps : s₀.Keeps (State.decodeErr s) := by
  grind [State.decodeErr, State.Keeps.frame, State.mtxErr_keeps, State.respond_keeps]
@[simp] theorem State.fetchAll_keeps : s₀.Keeps (State.fetchAll s) := by simp [State.fetchAll, hs]
@[simp] theorem State.grantPort_keeps (t n : Nat) : s₀.Keeps (s.grantPort t n) := by
  have hage := State.fetchAll_keeps (State.ageHeads_keeps (State.decodeErr_keeps hs) t n)
  unfold State.grantPort
  dsimp only
  split
  · exact State.occupy_keeps hage _ _
  · split
    · exact State.toTarget_keeps (State.occupy_keeps (State.grantedTo_keeps (State.Keeps.frame hage) _ _) _ _) _ _
    · exact State.occupy_keeps hage _ _

@[simp] theorem State.dmaRead_keeps (c a n : Nat) : s₀.Keeps (State.dmaRead s c a n).1 := by
  grind [State.dmaRead, State.bridgeRead_keeps, State.xfer_keeps]
@[simp] theorem State.dmaPut_keeps (c a : Nat) (l : List Byte) : s₀.Keeps (State.dmaPut s c a l).1 := by
  grind [State.dmaPut, State.bridgeWrite_keeps, State.xfer_keeps]
@[simp] theorem State.dmaError_keeps (c a : Nat) : s₀.Keeps (State.dmaError s c a) := by
  grind [State.dmaError, State.clrB_keeps, State.wf_keeps, State.setB_keeps, State.setDma_keeps, State.wr_keeps,
      State.dmaDone_keeps]
@[simp] theorem State.dmaNextElem_keeps (c : Nat) : s₀.Keeps (State.dmaNextElem s c) := by simp [State.dmaNextElem, hs]
@[simp] theorem State.dmaStore_keeps (c : Nat) (l : List Byte) : s₀.Keeps (State.dmaStore s c l) := by
  grind [State.dmaStore, State.dmaPut_keeps, State.dmaNextElem_keeps, State.dmaError_keeps]
@[simp] theorem State.dmaMove_keeps (c : Nat) : s₀.Keeps (State.dmaMove s c) := by
  grind [State.dmaMove, State.Keeps.frame, State.dmaStore_keeps, State.dmaRead_keeps, State.setDma_keeps, State.dmaError_keeps]
@[simp] theorem State.times_keeps (f : State → State) (n : Nat) (hf : ∀ t : State, t.Keeps (f t)) : s₀.Keeps (s.times f n) := by
  induction n generalizing s with
  | zero => exact hs
  | succ n ih => exact ih (hs.trans (hf s))

@[simp] theorem State.bankAny_keeps (b : Nat) : s₀.Keeps (State.bankAny s b) := by
  unfold State.bankAny
  split <;> simp [hs]
@[simp] theorem State.bankQuiet_keeps (b : Nat) : s₀.Keeps (s.bankQuiet b) := by
  have hany {t : State} (ht : s₀.Keeps t) (n : Nat) := State.times_keeps ht (fun t => t.bankAny b) n fun u => State.bankAny_keeps
      (.refl u) b
  exact State.handover_keeps (hany (State.bankAwake_keeps (State.bankWake_keeps (State.retained_keeps (hany hs _) b) b) b) _) b

@[simp] theorem State.banksQuiet_keeps : s₀.Keeps (State.banksQuiet s) := by simp [State.banksQuiet, hs]
@[simp] theorem State.memRound_keeps : s₀.Keeps s.memRound :=
  State.times_keeps (State.times_keeps (State.foldl_keeps hs fun t p => State.times_keeps (.refl t) _ _ fun u =>
    State.grantPort_keeps (.refl u) p 8) _ _ fun u => State.banksQuiet_keeps (.refl u)) _ _ fun t =>
    State.foldl_keeps (.refl t) fun u k => State.dramServe_keeps (.refl u) k .ok

@[simp] theorem State.drainRound_keeps : s₀.Keeps s.drainRound :=
  State.memRound_keeps (State.foldl_keeps hs fun t p => State.storeDone_keeps (.refl t) p.1)

@[simp] theorem State.drainStores_keeps : s₀.Keeps (State.drainStores s) := by simp [State.drainStores, hs]
@[simp] theorem State.opAny_keeps : s₀.Keeps s.opAny :=
  State.opRead_keeps (State.opSetAffinity_keeps (State.opSetPrio_keeps (State.opRaise_keeps (State.opKill_keeps
      (State.opRefuse_keeps hs)))))

@[simp] theorem State.granaryQuiet_keeps : s₀.Keeps s.granaryQuiet :=
  State.times_keeps (State.times_keeps hs _ _ fun t => State.poll_keeps (State.opAny_keeps (.refl t))) _ _ fun t =>
      State.takeAny_keeps (.refl t)

@[simp] theorem State.pgQuiet_keeps (g : Nat) : s₀.Keeps (State.pgQuiet s g) := by simp [State.pgQuiet, hs]
@[simp] theorem State.intakeAny_keeps (n : Nat) : s₀.Keeps (State.intakeAny s n) := by
  grind [State.intakeAny, State.takeRecord_keeps, State.takeSummary_keeps, State.takeMark_keeps]
@[simp] theorem State.assistAny_keeps (n : Nat) : s₀.Keeps (s.assistAny n) :=
  State.assistBad_keeps (State.assistRelease_keeps (State.assistReset_keeps (State.assistClose_keeps (State.assistCommit_keeps
    (State.assistCost_keeps (State.assistUndo_keeps (State.assistTentative_keeps (State.assistFetch_keeps (State.assistScan_keeps
      (State.assistQuery_keeps hs n) n) n) n) n) n) n) n) n) n) n

@[simp] theorem State.thrQuiet_keeps (n : Nat) : s₀.Keeps (s.thrQuiet n) :=
  State.times_keeps (State.times_keeps (State.times_keeps (State.times_keeps (State.pgQuiet_keeps (State.pgQuiet_keeps hs _) _) _ _
    fun t => State.pgQuiet_keeps (State.pgQuiet_keeps (State.intakeAny_keeps (.refl t) n) _) _) _ _
    fun t => State.memRound_keeps (State.assistAny_keeps (.refl t) n)) _ _
    fun t => State.memRound_keeps (State.bitmapStep_keeps (.refl t) n)) _ _ fun t => State.memRound_keeps (.refl t)

@[simp] theorem State.thrsQuiet_keeps : s₀.Keeps s.thrsQuiet :=
  State.poll_keeps (State.foldl_keeps hs fun t n => State.thrQuiet_keeps (.refl t) n)

@[simp] theorem State.dmaEnd_keeps (c : Nat) : s₀.Keeps (s.dmaEnd c) :=
  State.times_keeps (State.dmaAbort_keeps hs c) _ _ fun t => .ite (State.memRound_keeps (State.dmaMove_keeps (.refl t) c)) (.refl t)

@[simp] theorem State.dmaFinish_keeps (c : Nat) : s₀.Keeps (s.dmaFinish c) := by
  have hmove (n : Nat) := State.times_keeps hs (fun t => if (t.dmaBusy c || decide (0 < (t.dmaCh c).left)) && t.dmaState c == 2 then
    (t.dmaMove c).memRound else t) n fun t => .ite (State.memRound_keeps (State.dmaMove_keeps (.refl t) c)) (.refl t)
  have hend (n : Nat) := State.dmaBlockEnd_keeps (hmove n) c
  exact .ite (.ite (State.dmaAbort_keeps (hend _) c) (hend _)) (.ite (State.dmaAbort_keeps hs c) hs)

@[simp] theorem State.checkResult_keeps (r : Option CheckFail) : s₀.Keeps (State.checkResult s r) := by
  grind [State.checkResult, State.used_keeps, State.wr_keeps]
end

/- Images, activation, reset and host commands --------------------------------------------------------- -/

section
variable {s₀ s : State} (hs : s₀.Keeps s)
include hs

@[simp] theorem State.showSlots_keeps (a : Nat) : s₀.Keeps (State.showSlots s a) := by simp [State.showSlots, hs]
@[simp] theorem State.setSlot_keeps (k st : Nat) : s₀.Keeps (State.setSlot s k st) := by simp [State.setSlot, hs]
@[simp] theorem State.setBoot_keeps (b : Nat) : s₀.Keeps (State.setBoot s b) := by simp [State.setBoot, hs]
@[simp] theorem State.unboot_keeps (k : Nat) : s₀.Keeps (State.unboot s k) := by simp [State.unboot, hs]
@[simp] theorem State.slotRefused_keeps (k : Nat) : s₀.Keeps (State.slotRefused s k) := by simp [State.slotRefused, hs]
theorem State.emptyThreads_keeps : s₀.Keeps { s with ths := [] } :=
  ⟨hs.pending, fun x => { hs.inv x with ths := rfl }, hs.safe⟩

@[simp] theorem State.emptyEngines_keeps : s₀.Keeps s.emptyEngines := by
  unfold State.emptyEngines
  exact State.foldl_keeps (State.Keeps.frame (State.emptyThreads_keeps hs)) fun t e => State.setEng_keeps (State.clrB_keeps (.refl
      t) _ _) _ _

@[simp] theorem State.stopImage_keeps : s₀.Keeps s.stopImage := by
  have hkill := State.foldl_keeps (l := s.tasks.map (·.1)) hs fun t i => State.killTask_keeps (.refl t) i
  have hdma (l : List Nat) {u : State} (hu : s₀.Keeps u) : s₀.Keeps (l.foldl State.dmaEnd u) :=
    State.foldl_keeps hu fun t c => State.dmaEnd_keeps (.refl t) c
  have hthr (l : List Nat) {u : State} (hu : s₀.Keeps u) : s₀.Keeps (l.foldl (fun (t : State) n => t.setThr n { t.thrs n with
      q0 := [], q1 := [], assist := [], resets := [], walk := none, toFree := [], freeing := false, job := none }) u) :=
    State.foldl_keeps hu fun t _ => State.setThr_keeps (.refl t) _ _
  unfold State.stopImage
  exact State.emptyEngines_keeps (hthr _ (State.granaryQuiet_keeps (State.thrsQuiet_keeps (State.drainStores_keeps (hdma _
      hkill)))))

theorem State.emptyTasks_keeps (p : Nat × Bool → Bool) :
    s₀.Keeps { s with tasks := [], grants := [], recPois := [], bankPois := s.bankPois.filter p } :=
  ⟨hs.pending, fun x => { hs.inv x with tasks := rfl, grants := rfl, recPois := rfl, bankPois := spOk_filter (hs.inv x).bankPois p
      }, hs.safe⟩

theorem State.factoryLast_keeps (p : Nat × Bool → Bool) : s₀.Keeps ((({ s with
      tasks := [], grants := [], image := none, culmStart := none, recPois := [], bankPois := s.bankPois.filter p }.zeroFill
          (ctxKey 0)
        (512 * 40960)).wfB 8 2 1 0).showSlots 3).pinsUpdate :=
  State.pinsUpdate_keeps (State.showSlots_keeps (State.wfB_keeps (State.zeroFill_keeps (State.Keeps.frame (State.emptyTasks_keeps
      hs p)) _ _)
    (by omega)) 3)

@[simp] theorem State.toFactory_keeps : s₀.Keeps s.toFactory := by
  have hregs := State.foldl_keeps (l := s.regs) (f := fun (t : State) p => t.wr p.1 (factoryWord p.1 p.2)) hs
    fun t _ => State.wr_keeps (.refl t) _ _
  have hmapped (l : List Nat) {u : State} (hu : s₀.Keeps u) : s₀.Keeps (l.foldl (fun (t : State) e => t.clrB (aEng e 0) 0) u) :=
    State.foldl_keeps hu fun t _ => State.clrB_keeps (.refl t) _ _
  exact State.factoryLast_keeps (hmapped _ hregs) _

@[simp] theorem State.placeClock_keeps (m : Img) : s₀.Keeps (State.placeClock s m) := by simp [State.placeClock, hs]
theorem State.emptyProgram_keeps (p : Nat × Bool → Bool) :
    s₀.Keeps { s with prog := [], progOn := true, bankPois := s.bankPois.filter p } :=
  ⟨hs.pending, fun x => { hs.inv x with prog := rfl, bankPois := spOk_filter (hs.inv x).bankPois p }, hs.safe⟩

/-- Once an activation has filled the program stores, an instruction of the program is written over the fault word. -/
theorem State.placeInstr_keeps (hon : s.progOn = true) (n : Nat) (v : W128) :
    s₀.Keeps { s with prog := spSet (fun _ => faultWord) s.prog n v } := by
  refine ⟨hs.pending, fun x => { hs.inv x with prog := ?_ }, hs.safe⟩
  have hrest : s.progRest = faultWord := if_pos hon
  have hok := (hs.inv x).prog
  rw [hrest] at hok
  exact (congrArg (fun r => spOk (fun _ => r) _ = true) hrest).mpr (spOk_spSet hok n v)

@[simp] theorem State.placeProgram_keeps (m : Img) : s₀.Keeps (s.placeProgram m) := by
  have hfill (f : Nat → W128) (l : List Nat) {t : State} (ht : s₀.Keeps t) (hon : t.progOn = true) : s₀.Keeps (l.foldl
      (fun (t : State) n => { t with prog := spSet (fun _ => faultWord) t.prog n (f n) }) t) := by
    induction l generalizing t with
    | nil => exact ht
    | cons n l ih => exact ih (State.placeInstr_keeps ht hon n (f n)) hon
  have hempty := State.emptyProgram_keeps hs fun p => decide (p.1 < progWord0) || decide (ctxWord0 ≤ p.1)
  unfold State.placeProgram
  dsimp only
  split
  · exact hempty
  · exact hfill _ _ hempty rfl

@[simp] theorem State.placeChannels_keeps (m : Img) : s₀.Keeps (s.placeChannels m) :=
  State.foldl_keeps hs fun t _ => State.wr_keeps (State.wr_keeps (.refl t) _ _) _ _

@[simp] theorem State.placeGates_keeps (m : Img) : s₀.Keeps (s.placeGates m) :=
  State.foldl_keeps hs fun t _ => State.foldl_keeps (.refl t) fun u _ => State.wr_keeps (.refl u) _ _

@[simp] theorem State.placeData_keeps (m : Img) : s₀.Keeps (s.placeData m) :=
  State.foldl_keeps (State.foldl_keeps hs fun t _ => State.foldl_keeps (State.setByteList_keeps (.refl t) _ _) fun u _ =>
    State.setWordPois_keeps (.refl u) _ _) fun t _ => State.dramFill_keeps (.refl t) _ _

theorem State.units_keeps {a d : List (Nat × W128)} {b : List (Nat × W32)} {c : List (Nat × BitVec 1152)} (ha : spOk (fun _ => (0
    : W128)) a = true)
    (hb : spOk scrIdent b = true) (hc : spOk (fun _ => (0 : BitVec 1152)) c = true) (hd : spOk (fun _ => (0 : W128)) d = true) :
    s₀.Keeps { s with pxprog := a, scr := b, tsets := c, rdesc := d, regions := [] } :=
  ⟨hs.pending, fun x => { hs.inv x with pxprog := ha, scr := hb, tsets := hc, rdesc := hd, regions := rfl }, hs.safe⟩

@[simp] theorem State.placeUnits_keeps (m : Img) : s₀.Keeps (s.placeUnits m) :=
  State.units_keeps hs (spOk_foldl_spSet (by rfl) _) (spOk_foldl_spSet (by rfl) _) (spOk_foldl_spSet (by rfl) _) (spOk_foldl_spSet
      (by rfl) _)

@[simp] theorem State.placeOwners_keeps (m : Img) : s₀.Keeps (State.placeOwners s m) := by simp [State.placeOwners, hs]
@[simp] theorem State.placeReg_keeps (a : Nat) (v : W32) : s₀.Keeps (State.placeReg s a v) := by simp [State.placeReg, hs]
@[simp] theorem State.placeRegs_keeps (m : Img) : s₀.Keeps (s.placeRegs m) := by
  unfold State.placeRegs
  refine State.Keeps.frame (State.foldl_keeps hs fun t r => ?_)
  split
  · exact State.placeReg_keeps (.refl t) _ _
  · exact .refl t

@[simp] theorem State.placeTask_keeps (m : Img) (r : Rcd) : s₀.Keeps (State.placeTask s m r) := by simp [State.placeTask, hs]
@[simp] theorem State.losePinned_keeps : s₀.Keeps (State.losePinned s) := by simp [State.losePinned, hs]
theorem State.grants_keeps {g : List (Nat × BitVec 24)} (hg : spOk (fun _ => (0 : BitVec 24)) g = true) : s₀.Keeps { s with grants
    := g } :=
  ⟨hs.pending, fun x => { hs.inv x with grants := hg }, hs.safe⟩

@[simp] theorem State.placeTasks_keeps (m : Img) : s₀.Keeps (s.placeTasks m) := by
  have htasks := State.foldl_keeps (l := m.rcds 4) (f := fun (t : State) r => t.placeTask m r) hs fun t r => State.placeTask_keeps
      (.refl t) m r
  have hgrants (l : List Rcd) {g : List (Nat × BitVec 24)} (hg : spOk (fun _ => (0 : BitVec 24)) g = true) :
      spOk (fun _ => (0 : BitVec 24)) (l.foldl (fun l r =>
        let id := m.num r.off 2
        spSet (fun _ => (0 : BitVec 24)) l id
          (spGet (fun _ => (0 : BitVec 24)) l id ||| BitVec.ofNat 24 (2 ^ m.num (r.off + 2) 1))) g) = true := by
    induction l generalizing g with
    | nil => exact hg
    | cons r l ih => exact ih (spOk_spSet hg _ _)
  unfold State.placeTasks
  exact State.losePinned_keeps (State.grants_keeps htasks (hgrants _ rfl))

@[simp] theorem State.startCulm_keeps : s₀.Keeps s.startCulm :=
  ⟨hs.pending, fun x => { hs.inv x with chans := rfl, regs := spOk_filter (hs.inv x).regs _ }, hs.safe⟩

@[simp] theorem State.imageOn_keeps (m : Img) (a : Nat) : s₀.Keeps (s.imageOn m a) := by
  have hmap (l : List Nat) : s₀.Keeps (l.foldl (fun (t : State) i =>
      match t.physOf (i / 8) (i % 8) with
      | some k => t.setB (aEng (9 * (i / 8) + k) 0) 0
      | none => t) s) := by
    refine State.foldl_keeps hs fun t i => ?_
    split
    · exact State.setB_keeps (.refl t) _ _
    · exact .refl t
  unfold State.imageOn
  exact State.wfB_keeps (State.Keeps.frame (State.showSlots_keeps (hmap _) a)) (by omega)

@[simp] theorem State.place_keeps (m : Img) (a : Nat) : s₀.Keeps (s.place m a) := by
  have hremap (l : List Nat) : s₀.Keeps (l.foldl State.remap (s.placeClock m)) :=
    State.foldl_keeps (State.placeClock_keeps hs m) fun t e => State.remap_keeps (.refl t) e
  unfold State.place
  exact State.imageOn_keeps (State.startCulm_keeps (State.placeTasks_keeps (State.placeRegs_keeps (State.placeOwners_keeps
    (State.placeUnits_keeps (State.placeData_keeps (State.placeGates_keeps (State.placeChannels_keeps (State.placeProgram_keeps
      (hremap _) m) m) m) m) m) m) m) m)) m a

@[simp] theorem State.clearImage_keeps : s₀.Keeps (State.clearImage s) := by simp [State.clearImage, hs]
@[simp] theorem State.activate_keeps (m : Img) (again : Option Img) (a : Nat) : s₀.Keeps (State.activate s m again a).1 := by
  grind [State.activate, State.checkResult_keeps, State.clearImage_keeps, State.place_keeps]
@[simp] theorem State.activateSlot_keeps (k : Nat) : s₀.Keeps (State.activateSlot s k).1 := by
  grind [State.activateSlot, State.activate_keeps, State.setSlot_keeps, State.slotRefused_keeps]
@[simp] theorem State.applyRepair_keeps (r : Repair) : s₀.Keeps (State.applyRepair s r) := by
  unfold State.applyRepair
  repeat' split
  all_goals simp [hs]
@[simp] theorem State.mapSheaf_keeps (sh : Nat) : s₀.Keeps (State.mapSheaf s sh) := by
  grind [State.mapSheaf, State.wr_keeps, State.take_keeps, State.spareLow_keeps]
@[simp] theorem State.showKeys_keeps : s₀.Keeps (State.showKeys s) := by simp [State.showKeys, hs]
@[simp] theorem State.loadService_keeps (bad : List (ServiceRec × Bool)) : s₀.Keeps (State.loadService s bad) := by
  simp [State.loadService, hs]
theorem State.flashFilter_keeps (p : Nat × Option Byte → Bool) : s₀.Keeps { s with flash := s.flash.filter p } :=
  ⟨hs.pending, fun x => { hs.inv x with flash := spOk_filter (hs.inv x).flash p }, hs.safe⟩

@[simp] theorem State.cutOff_keeps (o : BootObs) : s₀.Keeps (s.cutOff o) := by
  have hflash := State.flashFilter_keeps hs fun p =>
    !(o.cutErase.any fun c => p.1 / imgMax == c.1.val && decide (p.1 % imgMax < c.2.toNat))
  unfold State.cutOff
  dsimp only
  split
  · exact hs
  · split
    · exact hflash
    · exact State.Keeps.frame hflash

@[simp] theorem State.loadRecords_keeps (o : BootObs) : s₀.Keeps (s.loadRecords o) := by
  have hserial (l : List Nat) {u : State} (hu : s₀.Keeps u) : s₀.Keeps (l.foldl
      (fun (t : State) i => t.wr (0x10 + 4 * i) (Config.serial (Fin.ofNat 4 i))) u) :=
    State.foldl_keeps hu fun t _ => State.wr_keeps (.refl t) _ _
  have hmap (l : List Nat) {u : State} (hu : s₀.Keeps u) : s₀.Keeps (l.foldl State.mapSheaf u) :=
    State.foldl_keeps hu fun t i => State.mapSheaf_keeps (.refl t) i
  have hrep (l : List Repair) {u : State} (hu : s₀.Keeps u) : s₀.Keeps (l.foldl State.applyRepair u) :=
    State.foldl_keeps hu fun t r => State.applyRepair_keeps (.refl t) r
  unfold State.loadRecords
  exact hmap _ (hrep _ (State.wf_keeps (State.wf_keeps (State.histCount_keeps (State.wf_keeps (State.showKeys_keeps
      (State.showSlots_keeps
    (hserial _ (State.wr_keeps (State.loadService_keeps hs _) _ _)) 3)) _ _ _ _)) _ _ _ _) _ _ _ _))

@[simp] theorem State.hardRepair_keeps (worn : List (Fin 16 × BitVec 21)) : s₀.Keeps (s.hardRepair worn) := by
  have hcount (f : Nat → Nat) (l : List Nat) (v : NvSt) : s₀.Keeps (l.foldl (fun (t : State) k => t.wf (aDrcCh k 0x10) 16 16 (f k))
      (s.nvPut v)) := State.foldl_keeps (State.nvPut_keeps hs v) fun t _ => State.wf_keeps (.refl t) _ _ _ _
  unfold State.hardRepair
  exact .ite (State.spareLow_keeps (State.setB_keeps (hcount _ _ _) _ _)) (hcount _ _ _)

@[simp] theorem State.firstRequest_keeps (o : BootObs) : s₀.Keeps (State.firstRequest s o) := by
  grind [State.firstRequest, State.Keeps.frame, State.avsSend_keeps, State.avsWrite_keeps]
@[simp] theorem State.bootCause_keeps (boot slot : Nat) : s₀.Keeps (State.bootCause s boot slot) := by simp [State.bootCause, hs]
@[simp] theorem State.bootImage_keeps : s₀.Keeps (State.bootImage s) := by
  grind [State.bootImage, State.bootCause_keeps, State.activateSlot_keeps, State.setB_keeps]
@[simp] theorem State.startUp_keeps (o : BootObs) : s₀.Keeps (s.startUp o) :=
  .ite hs (.ite (State.hardFault_keeps (State.Keeps.frame hs)) (State.wfB_keeps (State.bootImage_keeps (State.hardRepair_keeps
    (State.firstRequest_keeps (State.loadRecords_keeps (State.cutOff_keeps (State.wf_keeps (State.Keeps.frame hs) _ _ _ _) o) o)
        o) _))
    (by omega)))

@[simp] theorem State.dramKept_keeps : s₀.Keeps s.dramKept := by
  refine State.foldl_keeps hs fun t p => ?_
  split
  · exact State.dramDo_keeps (.refl t) _ _ _ _
  · exact .refl t

/-- After a full reset every part is empty but what NV flash, the host and, unless power was lost, DRAM hold. -/
@[simp] theorem State.fullReset_keeps (cause : Nat) (hist : Bool) : s₀.Keeps (s.fullReset cause hist) := by
  have hdram := State.dramKept_keeps hs
  unfold State.fullReset
  refine State.wr_keeps ?_ _ _
  refine ⟨hs.pending, fun x => ?_, fun _ h => absurd h Bool.false_ne_true⟩
  have hmem : Memory.wf (if (cause != 0) = true then s.dramKept.mem.filter fun p => inDram p.1 else []) = true := by
    split
    · exact spOk_filter (hdram.inv x).mem _
    · rfl
  have hpois : spOk (fun _ => false) (if (cause != 0) = true then s.dramKept.poisoned else []) = true := by
    split
    · exact (hdram.inv x).poisoned
    · rfl
  exact { State.reset_inv with
    mem := hmem, poisoned := hpois, hostMem := (hs.inv x).hostMem, flash := (hs.inv x).flash, msixSent := (hs.inv x).msixSent }

@[simp] theorem State.powerRise_keeps : s₀.Keeps (State.powerRise s) := by simp [State.powerRise, hs]
@[simp] theorem State.powerFall_keeps : s₀.Keeps (State.powerFall s) := by simp [State.powerFall, hs]
@[simp] theorem State.poweredReset_keeps (cause : Nat) (hist : Bool) : s₀.Keeps (State.poweredReset s cause hist) := by
  simp [State.poweredReset, hs]
@[simp] theorem State.resetDelayEnd_keeps : s₀.Keeps (State.resetDelayEnd s) := by simp [State.resetDelayEnd, hs]
@[simp] theorem State.badOpcode_keeps (c : Cur) : s₀.Keeps (State.badOpcode s c) := by simp [State.badOpcode, hs]
@[simp] theorem runNop_keeps (p : Packet) (c : Cur) : s₀.Keeps (runNop p s c) := by simp [runNop, hs]
@[simp] theorem runIdentify_keeps (p : Packet) (c : Cur) : s₀.Keeps (runIdentify p s c) := by simp [runIdentify, hs]
@[simp] theorem State.abortCmd_keeps (c : Cur) (q tag : Nat) : s₀.Keeps (State.abortCmd s c q tag) := by
  unfold State.abortCmd
  split <;> simp [hs]
@[simp] theorem runAbort_keeps (p : Packet) (c : Cur) : s₀.Keeps (runAbort p s c) := by simp [runAbort, hs]
@[simp] theorem runFence_keeps (p : Packet) (c : Cur) : s₀.Keeps (runFence p s c) := by simp [runFence, hs]
@[simp] theorem runNoticeWait_keeps (p : Packet) (c : Cur) : s₀.Keeps (runNoticeWait p s c) := by simp [runNoticeWait, hs]
@[simp] theorem State.eraseSlot_keeps (k : Nat) : s₀.Keeps (s.eraseSlot k) :=
  State.setSlot_keeps (State.unboot_keeps (State.flashFilter_keeps hs _) k) k 0

@[simp] theorem runImageErase_keeps (p : Packet) (c : Cur) : s₀.Keeps (runImageErase p s c) := by
  unfold runImageErase
  exact guarded_keeps hs _ _ c fun t _ => State.complete_keeps (State.eraseSlot_keeps (.refl t) _) _ _ _ _

@[simp] theorem State.program_keeps (k o : Nat) (l : List Byte) (n : Nat) : s₀.Keeps (s.program k o l n).1 := by
  induction l generalizing s o n with
  | nil => exact hs
  | cons v l ih =>
    unfold State.program
    split
    · exact hs
    · refine ih ?_ (o + 1) (n + 1)
      exact ⟨hs.pending, fun x => { hs.inv x with flash := spOk_spSet (hs.inv x).flash (flashKey k o) (some v) }, hs.safe⟩

@[simp] theorem State.stage_keeps (c : Cur) (k o : Nat) (l : List Byte) : s₀.Keeps (State.stage s c k o l) := by
  grind [State.stage, State.unboot_keeps, State.program_keeps, State.setSlot_keeps, State.complete_keeps]
@[simp] theorem runImageStage_keeps (p : Packet) (c : Cur) : s₀.Keeps (runImageStage p s c) := by simp [runImageStage, hs]
@[simp] theorem State.imageRefused_keeps (c : Cur) : s₀.Keeps (State.imageRefused s c) := by simp [State.imageRefused, hs]
@[simp] theorem State.commitSlot_keeps (c : Cur) (k : Nat) : s₀.Keeps (State.commitSlot s c k) := by
  grind [State.commitSlot, State.setSlot_keeps, State.setBoot_keeps, State.complete_keeps, State.checkResult_keeps,
      State.imageRefused_keeps]
@[simp] theorem runImageCommit_keeps (p : Packet) (c : Cur) : s₀.Keeps (runImageCommit p s c) := by simp [runImageCommit, hs]
@[simp] theorem State.activateCmd_keeps (c : Cur) (k : Nat) : s₀.Keeps (State.activateCmd s c k) := by
  grind [State.activateCmd, State.activateSlot_keeps, State.complete_keeps, State.imageRefused_keeps]
@[simp] theorem runImageActivate_keeps (p : Packet) (c : Cur) : s₀.Keeps (runImageActivate p s c) := by simp [runImageActivate, hs]
@[simp] theorem State.activateHost_keeps (c : Cur) : s₀.Keeps (State.activateHost s c) := by
  grind [State.activateHost, State.complete_keeps, State.activate_keeps, State.imageRefused_keeps]
@[simp] theorem runImageActivateHost_keeps (p : Packet) (c : Cur) : s₀.Keeps (runImageActivateHost p s c) := by
  simp [runImageActivateHost, hs]
@[simp] theorem runImageRead_keeps (p : Packet) (c : Cur) : s₀.Keeps (runImageRead p s c) := by simp [runImageRead, hs]
@[simp] theorem State.setNv_keeps (v : NvSt) : s₀.Keeps (State.setNv s v) := by simp [State.setNv, hs]
@[simp] theorem State.provision_keeps (c : Cur) (k : Nat) (l : List Byte) : s₀.Keeps (State.provision s c k l) := by
  simp [State.provision, hs]
@[simp] theorem runKeyProvision_keeps (p : Packet) (c : Cur) : s₀.Keeps (runKeyProvision p s c) := by simp [runKeyProvision, hs]
@[simp] theorem runKeyRevoke_keeps (p : Packet) (c : Cur) : s₀.Keeps (runKeyRevoke p s c) := by
  unfold runKeyRevoke
  exact guarded_keeps hs _ _ c fun t _ => State.complete_keeps (State.setNv_keeps (.refl t) _) _ _ _ _

@[simp] theorem State.policy_keeps (c : Cur) (require lock : Bool) : s₀.Keeps (State.policy s c require lock) := by
  simp [State.policy, hs]
@[simp] theorem runSigPolicy_keeps (p : Packet) (c : Cur) : s₀.Keeps (runSigPolicy p s c) := by simp [runSigPolicy, hs]
@[simp] theorem State.readCmd_keeps (c : Cur) (a : Nat) : s₀.Keeps (State.readCmd s c a) := by simp [State.readCmd, hs]
@[simp] theorem runRegRead_keeps (p : Packet) (c : Cur) : s₀.Keeps (runRegRead p s c) := by simp [runRegRead, hs]
@[simp] theorem runRegWrite_keeps (p : Packet) (c : Cur) : s₀.Keeps (runRegWrite p s c) := by
  unfold runRegWrite
  exact guarded_keeps hs _ _ c fun t c => State.readCmd_keeps (State.bridgeWrite_keeps (.refl t) _ _ _) c _

@[simp] theorem State.readBlock_keeps (a n : Nat) : s₀.Keeps (s.readBlock a n).1 := by
  induction n generalizing s a with
  | zero => exact hs
  | succ n ih => exact ih (State.bridgeRead_keeps hs .mgmt a) (a + 4)

@[simp] theorem runRegBlockRead_keeps (p : Packet) (c : Cur) : s₀.Keeps (runRegBlockRead p s c) := by
  unfold runRegBlockRead
  exact guarded_keeps hs _ _ c fun t c => State.toBuffer_keeps (State.readBlock_keeps (.refl t) _ _) c _ _ _

@[simp] theorem State.hostXfer_keeps (c : Cur) (n : Nat) (data : Option (List Byte)) : s₀.Keeps (State.hostXfer s c n data).1 := by
  simp [State.hostXfer, hs]
@[simp] theorem State.memReadCmd_keeps (c : Cur) : s₀.Keeps (State.memReadCmd s c) := by
  grind [State.memReadCmd, State.hostXfer_keeps, State.toHostMem_keeps, State.complete_keeps, State.take_keeps]
@[simp] theorem State.memWriteCmd_keeps (c : Cur) : s₀.Keeps (State.memWriteCmd s c) := by
  grind [State.memWriteCmd, State.hostXfer_keeps, State.complete_keeps]
@[simp] theorem runMemRead_keeps (p : Packet) (c : Cur) : s₀.Keeps (runMemRead p s c) := by simp [runMemRead, hs]
@[simp] theorem runMemWrite_keeps (p : Packet) (c : Cur) : s₀.Keeps (runMemWrite p s c) := by simp [runMemWrite, hs]
@[simp] theorem runBankOwner_keeps (p : Packet) (c : Cur) : s₀.Keeps (runBankOwner p s c) := by
  unfold runBankOwner
  exact guarded_keeps hs _ _ c fun t c => State.setWait_keeps (State.bridgeWrite_keeps (.refl t) _ _ _) c _

@[simp] theorem runSiteResults_keeps (p : Packet) (c : Cur) : s₀.Keeps (runSiteResults p s c) := by simp [runSiteResults, hs]
@[simp] theorem State.armSite_keeps (i : Nat) : s₀.Keeps (State.armSite s i) := by simp [State.armSite, hs]
@[simp] theorem State.queueResets_keeps (sites : List Nat) (n : Nat) : s₀.Keeps (State.queueResets s sites n) := by
  simp [State.queueResets, hs]
@[simp] theorem State.armSites_keeps (sites : List Nat) : s₀.Keeps (s.armSites sites) :=
  State.foldl_keeps (State.foldl_keeps (State.foldl_keeps hs fun t i => State.armSite_keeps (.refl t) i)
    fun t _ => State.bridgeWrite_keeps (.refl t) _ _ _) fun t n => State.queueResets_keeps (.refl t) sites n

@[simp] theorem runSiteArm_keeps (p : Packet) (c : Cur) : s₀.Keeps (runSiteArm p s c) := by
  unfold runSiteArm
  exact guarded_keeps hs _ _ c fun t c => State.setWait_keeps (State.armSites_keeps (.refl t) _) c _

@[simp] theorem State.requestStart_keeps : s₀.Keeps (State.requestStart s) := by simp [State.requestStart, hs]
@[simp] theorem State.testStart_keeps (c : Cur) (wait : Bool) : s₀.Keeps (State.testStart s c wait) := by
  grind [State.testStart, State.requestStart_keeps, State.setWait_keeps, State.startRelease_keeps, State.complete_keeps]
@[simp] theorem runTestStart_keeps (p : Packet) (c : Cur) : s₀.Keeps (runTestStart p s c) := by simp [runTestStart, hs]
@[simp] theorem State.stopSite_keeps (i : Nat) : s₀.Keeps (State.stopSite s i) := by simp [State.stopSite, hs]
@[simp] theorem State.stopSites_keeps (sites : List Nat) : s₀.Keeps (s.stopSites sites) :=
  State.foldl_keeps (State.foldl_keeps (State.foldl_keeps hs fun t _ => State.setB_keeps (.refl t) _ _)
    fun t _ => State.bridgeWrite_keeps (.refl t) _ _ _) fun t i => State.stopSite_keeps (.refl t) i

@[simp] theorem runTestStop_keeps (p : Packet) (c : Cur) : s₀.Keeps (runTestStop p s c) := by
  unfold runTestStop
  exact guarded_keeps hs _ _ c fun t _ => State.complete_keeps (State.withdraw_keeps (State.stopSites_keeps (.refl t) _)) _ _ _ _

@[simp] theorem State.disarmSites_keeps (sites : List Nat) : s₀.Keeps (s.disarmSites sites) :=
  State.foldl_keeps (State.foldl_keeps hs fun t _ => State.wf_keeps (.refl t) _ _ _ _) fun t _ => State.bridgeWrite_keeps (.refl
      t) _ _ _

@[simp] theorem runSiteDisarm_keeps (p : Packet) (c : Cur) : s₀.Keeps (runSiteDisarm p s c) := by
  unfold runSiteDisarm
  exact guarded_keeps hs _ _ c fun t _ => State.complete_keeps (State.withdraw_keeps (State.disarmSites_keeps (.refl t) _)) _ _ _ _

@[simp] theorem runSiteWait_keeps (p : Packet) (c : Cur) : s₀.Keeps (runSiteWait p s c) := by simp [runSiteWait, hs]
@[simp] theorem State.siteTimeout_keeps (q : Nat) : s₀.Keeps (State.siteTimeout s q) := by simp [State.siteTimeout, hs]
@[simp] theorem runDoorbell_keeps (p : Packet) (c : Cur) : s₀.Keeps (runDoorbell p s c) := by
  unfold runDoorbell
  exact guarded_keeps hs _ _ c fun t _ => State.complete_keeps (State.post_keeps (.refl t) _ _ _ _) _ _ _ _

@[simp] theorem runSiteSignal_keeps (p : Packet) (c : Cur) : s₀.Keeps (runSiteSignal p s c) := by simp [runSiteSignal, hs]
@[simp] theorem State.waitOp_keeps (c : Cur) (op arg t : Nat) : s₀.Keeps (State.waitOp s c op arg t) := by simp [State.waitOp, hs]
@[simp] theorem State.queryStart_keeps (c : Cur) (t : Nat) : s₀.Keeps (State.queryStart s c t) := by simp [State.queryStart, hs]
@[simp] theorem runTaskQuery_keeps (p : Packet) (c : Cur) : s₀.Keeps (runTaskQuery p s c) := by simp [runTaskQuery, hs]
@[simp] theorem runTaskSignal_keeps (p : Packet) (c : Cur) : s₀.Keeps (runTaskSignal p s c) := by simp [runTaskSignal, hs]
@[simp] theorem runTaskKill_keeps (p : Packet) (c : Cur) : s₀.Keeps (runTaskKill p s c) := by simp [runTaskKill, hs]
@[simp] theorem runTaskSetPrio_keeps (p : Packet) (c : Cur) : s₀.Keeps (runTaskSetPrio p s c) := by simp [runTaskSetPrio, hs]
@[simp] theorem runTaskSetAffinity_keeps (p : Packet) (c : Cur) : s₀.Keeps (runTaskSetAffinity p s c) := by
  simp [runTaskSetAffinity, hs]
@[simp] theorem runTaskList_keeps (p : Packet) (c : Cur) : s₀.Keeps (runTaskList p s c) := by simp [runTaskList, hs]
@[simp] theorem State.trainAll_keeps (p : Packet) (l : List Nat) : s₀.Keeps (s.trainAll p l).1 := by
  induction l generalizing s with
  | nil => exact hs
  | cons n l ih =>
    have hrest := ih (State.bridgeWrite_keeps hs .mgmt (aLn n 0x10) (trainWord p n))
    simp only [State.trainAll]
    split <;> exact hrest

@[simp] theorem runLaneTrain_keeps (p : Packet) (c : Cur) : s₀.Keeps (runLaneTrain p s c) := by
  unfold runLaneTrain
  exact guarded_keeps hs _ _ c fun t c => State.setWait_keeps (State.trainAll_keeps (.refl t) p _) c _

@[simp] theorem State.calAction_keeps (action n : Nat) : s₀.Keeps (State.calAction s action n) := by simp [State.calAction, hs]
@[simp] theorem runLaneCal_keeps (p : Packet) (c : Cur) : s₀.Keeps (runLaneCal p s c) := by
  unfold runLaneCal
  exact guarded_keeps hs _ _ c fun t c => State.toBuffer_keeps (State.foldl_keeps (.refl t) fun u n => State.calAction_keeps
      (.refl u) _ n) c _ _ _

@[simp] theorem runLaneEyeScan_keeps (p : Packet) (c : Cur) : s₀.Keeps (runLaneEyeScan p s c) := by
  unfold runLaneEyeScan
  exact guarded_keeps hs _ _ c fun t c => State.setWait_keeps (State.bridgeWrite_keeps (.refl t) _ _ _) c _

@[simp] theorem State.prbsSet_keeps (p : Packet) (n : Nat) : s₀.Keeps (State.prbsSet s p n) := by simp [State.prbsSet, hs]
@[simp] theorem runLanePrbs_keeps (p : Packet) (c : Cur) : s₀.Keeps (runLanePrbs p s c) := by
  unfold runLanePrbs
  exact guarded_keeps hs _ _ c fun t _ => State.complete_keeps (State.foldl_keeps (.refl t) fun u n => State.prbsSet_keeps (.refl
      u) p n) _ _ _ _

@[simp] theorem runHealthRead_keeps (p : Packet) (c : Cur) : s₀.Keeps (runHealthRead p s c) := by
  unfold runHealthRead
  exact guarded_keeps hs _ _ c fun t c => State.toBuffer_keeps (State.used_keeps (.refl t)) c _ _ _

@[simp] theorem runStickyRead_keeps (p : Packet) (c : Cur) : s₀.Keeps (runStickyRead p s c) := by simp [runStickyRead, hs]
@[simp] theorem State.clearSticky_keeps : s₀.Keeps (State.clearSticky s) := by simp [State.clearSticky, hs]
@[simp] theorem runStickyClear_keeps (p : Packet) (c : Cur) : s₀.Keeps (runStickyClear p s c) := by
  unfold runStickyClear
  exact guarded_keeps hs _ _ c fun t _ => State.complete_keeps (.ite (State.clearSticky_keeps (.refl t)) (State.bridgeWrite_keeps
      (.refl t) _ _ _))
    _ _ _ _

@[simp] theorem runSpareMapRead_keeps (p : Packet) (c : Cur) : s₀.Keeps (runSpareMapRead p s c) := by simp [runSpareMapRead, hs]
@[simp] theorem runSyncConfig_keeps (p : Packet) (c : Cur) : s₀.Keeps (runSyncConfig p s c) := by
  unfold runSyncConfig
  exact guarded_keeps hs _ _ c fun t _ => State.complete_keeps (State.bridgeWrite_keeps (.refl t) _ _ _) _ _ _ _

@[simp] theorem runSyncSend_keeps (p : Packet) (c : Cur) : s₀.Keeps (runSyncSend p s c) := by
  unfold runSyncSend
  exact guarded_keeps hs _ _ c fun t _ => State.complete_keeps (State.bridgeWrite_keeps (.refl t) _ _ _) _ _ _ _

@[simp] theorem State.relockAll_keeps (rate : W32) (l : List Nat) : s₀.Keeps (s.relockAll rate l).1 := by
  induction l generalizing s with
  | nil => exact hs
  | cons g l ih =>
    have hrest := ih (State.bridgeWrite_keeps (State.bridgeWrite_keeps hs .mgmt (aSyn (0x10 + 0x10 * g)) rate) .mgmt
      (aSyn (0x14 + 0x10 * g)) 1)
    unfold State.relockAll
    dsimp only
    split <;> exact hrest

@[simp] theorem runPgRelock_keeps (p : Packet) (c : Cur) : s₀.Keeps (runPgRelock p s c) := by
  unfold runPgRelock
  exact guarded_keeps hs _ _ c fun t c => State.setWait_keeps (State.relockAll_keeps (State.bridgeWrite_keeps (.refl t) _ _ _) _
      _) c _

@[simp] theorem State.keepIdle_keeps : s₀.Keeps (State.keepIdle s) := by simp [State.keepIdle, hs]
@[simp] theorem State.quiesceAll_keeps : s₀.Keeps s.quiesceAll := by
  have hdma (l : List Nat) {u : State} (hu : s₀.Keeps u) : s₀.Keeps (l.foldl State.dmaFinish u) :=
    State.foldl_keeps hu fun t c => State.dmaFinish_keeps (.refl t) c
  unfold State.quiesceAll
  exact State.drainStores_keeps (State.thrsQuiet_keeps (hdma _ (State.drainStores_keeps (State.keepIdle_keeps (State.Keeps.frame
    (State.idleAll_keeps (State.withdraw_keeps (State.stopSites_keeps hs _))))))))

/-- SAFE_N is asserted together with REMOVAL_PREPARED. -/
theorem State.assertSafe_keeps : s₀.Keeps ({ s with safe := true }.wfB 8 1 1 1) := by
  refine ⟨hs.pending, fun x => { hs.inv x with bar0 := spOk_spSet (hs.inv x).bar0 _ _ }, fun _ _ => ?_⟩
  have hset : field (putField (s.rdB 8) 1 1 1) 1 1 = 1 := field_putField_self _ 1 (by omega)
  have hrd : ({ s with safe := true }.wfB 8 1 1 1).rdB 8 = putField (s.rdB 8) 1 1 1 := spGet_spSet_of_ne (ne_bar0Reset_of_prepared
      hset)
  simp [State.bitB, State.rfB, hrd, hset]

@[simp] theorem State.makeSafe_keeps : s₀.Keeps s.makeSafe :=
  State.assertSafe_keeps (State.writeHistory_keeps (State.times_keeps hs _ _ fun t => State.mapWrite_keeps (.refl t)) 2)

@[simp] theorem runPrepareRemoval_keeps (p : Packet) (c : Cur) : s₀.Keeps (runPrepareRemoval p s c) := by
  unfold runPrepareRemoval
  exact guarded_keeps hs _ _ c fun t _ => State.complete_keeps (State.makeSafe_keeps (State.quiesceAll_keeps
    (State.completeAll_keeps (.refl t) _ _ _))) _ _ _ _

@[simp] theorem State.resetAccepted_keeps (c : Cur) : s₀.Keeps (State.resetAccepted s c) := by
  grind [State.resetAccepted, State.wfB_keeps, State.completeAll_keeps, State.complete_keeps, State.writeHistory_keeps]
@[simp] theorem runDeviceReset_keeps (p : Packet) (c : Cur) : s₀.Keeps (runDeviceReset p s c) := by simp [runDeviceReset, hs]
/-- SAFE_N is released together with REMOVAL_PREPARED. -/
@[simp] theorem State.resume_keeps : s₀.Keeps s.resume :=
  ⟨hs.pending, fun x => { hs.inv x with bar0 := spOk_spSet (hs.inv x).bar0 _ _ }, fun _ h => absurd h Bool.false_ne_true⟩

@[simp] theorem runResume_keeps (p : Packet) (c : Cur) : s₀.Keeps (runResume p s c) := by
  unfold runResume
  exact guarded_keeps hs _ _ c fun t _ => State.complete_keeps (State.resume_keeps (.refl t)) _ _ _ _

/-- The end of a link keeps of BAR0 the status register alone. -/
theorem State.linkLost_keeps : s₀.Keeps { s with
    bar0 := s.bar0.filter (fun p => p.1 == 8), bar2 := [], cfgSpace := [], msixPend := 0, queues := []
    inprog := s.inprog.map fun (c : Cur) => { c with live := false } } := by
  have hids := State.mapInprog_keeps (f := fun c => { c with live := false }) hs fun _ => rfl
  refine ⟨hs.pending, fun x => { hids.inv x with
    bar0 := spOk_filter (hs.inv x).bar0 _, bar2 := rfl, cfgSpace := rfl, queues := rfl }, fun h hsafe => ?_⟩
  have hrd := spGet_filter_key bar0Reset s.bar0 8
  simpa [State.bitB, State.rfB, State.rdB, hrd] using hs.safe h hsafe

@[simp] theorem State.linkDown_keeps : s₀.Keeps s.linkDown :=
  .ite hs (State.wr_keeps (State.setB_keeps (State.linkLost_keeps hs) _ _) _ _)

@[simp] theorem State.linkEnd_keeps (x : LinkEnd) : s₀.Keeps (State.linkEnd s x) := by
  unfold State.linkEnd
  split <;> simp [hs]
@[simp] theorem State.linkTrained_keeps (speed width : Nat) : s₀.Keeps (State.linkTrained s speed width) := by
  simp [State.linkTrained, hs]
@[simp] theorem State.trigger_keeps (t : Th) (g : Trig) (b : W64) : s₀.Keeps (State.trigger s t g b) := by simp [State.trigger, hs]
@[simp] theorem State.tickIdle_keeps (e : Nat) : s₀.Keeps (State.tickIdle s e) := by simp [State.tickIdle, hs]
@[simp] theorem State.trainTick_keeps : s₀.Keeps (State.trainTick s) := by simp [State.trainTick, hs]
theorem State.cycleEnd_keeps (n : Nat) :
    s₀.Keeps { s with eclk := n, roundStart := false, granted := [], schedAt := 0, bus := [] } :=
  State.Keeps.frame (State.busEnd_keeps hs)

@[simp] theorem State.tick_keeps : s₀.Keeps s.tick := by
  have hidle (l : List Nat) : s₀.Keeps (l.foldl State.tickIdle s) := State.foldl_keeps hs fun t e => State.tickIdle_keeps (.refl
      t) e
  have hwait (l : List Nat) {u : State} (hu : s₀.Keeps u) : s₀.Keeps (l.foldl (fun s c => s.bump (aCulm (0x6000 + 4 * c)) 1) u) :=
    State.foldl_keeps hu fun t _ => State.bump_keeps (.refl t) _ _
  unfold State.tick
  exact .ite hs (State.trainTick_keeps (State.cycleEnd_keeps (hwait _ (hidle _)) _))

end

/- Commands ------------------------------------------------------------------------------------------------ -/

/-- An instruction completes, whether its thread may run, its word holds an error or not. -/
theorem execInstruction_keeps (t : Th) (ue : Bool) (s : State) : ∃ u, execInstruction t ue s = .next u ∧ s.Keeps u := by
  have hland := State.landShort_keeps (.refl s) (thIx t)
  have hfetch := State.firstFetch_keeps hland (thIx t)
  unfold execInstruction
  dsimp only
  split
  · exact ⟨_, rfl, hland⟩
  · split
    · exact ⟨_, rfl, State.spillGo_keeps (State.runWord_keeps (State.setB_keeps hfetch _ _) _ _) _⟩
    · exact ⟨_, rfl, State.spillGo_keeps (State.runWord_keeps hfetch _ _) _⟩

theorem execExceptionEntry_keeps (t : Th) (s : State) : ∃ u, execExceptionEntry t s = .next u ∧ s.Keeps u :=
  ⟨_, rfl, State.awakeDo_keeps (.refl s) _ fun u => .ite (State.entryCycle_keeps (State.landShort_keeps (.refl u) _) _)
    (State.landShort_keeps (.refl u) _)⟩

theorem execDmaElement_keeps (x y : Unit) (s : State) : ∃ u, execDmaElement x y s = .next u ∧ s.Keeps u := by
  refine ⟨_, rfl, State.awakeDo_keeps (.refl s) _ fun u => ?_⟩
  split
  · exact State.poll_keeps (State.dmaMove_keeps (.refl u) _)
  · exact .refl u

/-- What a command does while the device is awake, after which the commands of the host go on. -/
@[simp] theorem State.awakePoll_keeps {s₀ s : State} (hs : s₀.Keeps s) (f : State → State) (hf : ∀ t : State, t.Keeps (f t)) :
    s₀.Keeps (s.awakeDo fun s => (f s).poll) :=
  State.awakeDo_keeps hs _ fun t => State.poll_keeps (hf t)

/-- Every command completes, in a state that keeps the queue and the invariants: of each command the effect is an update of the
    state
whose lemma stands above. -/
theorem exec_keeps (c : Instr) (s : State) : ∃ t, exec c s = .next t ∧ s.Keeps t := by
  cases c
  case instruction t ue => exact execInstruction_keeps t ue s
  case exceptionEntry t => exact execExceptionEntry_keeps t s
  case dmaElement x y => exact execDmaElement_keeps x y s
  all_goals exact ⟨_, rfl, by simp⟩

/-- A step of the block keeps the invariants: it takes a command from the front of the queue, where no invariant looks, or is a
    cycle. -/
theorem step_keeps {s t : State} (h : step s = .next t) : (s.Inv → t.Inv) ∧ (s.SafeInv → t.SafeInv) := by
  unfold step at h
  split at h
  case h_1 c rest _ =>
    obtain ⟨u, hu, hk⟩ := exec_keeps c { s with pending := rest }
    obtain rfl : u = t := by simpa [hu] using h
    exact ⟨fun hi => hk.inv { hi with }, fun hsafe => hk.safe hsafe⟩
  case h_2 =>
    cases h
    have hk := State.tick_keeps (.refl s)
    exact ⟨hk.inv, hk.safe⟩

/-- Settles O4: every update of the state keeps the canonical forms, and a command is a composition of updates. -/
theorem canonicalFormKept : Obligations.CanonicalFormKept := fun _ _ hinv hstep => (step_keeps hstep).1 hinv

/-- Settles O5: SAFE_N is asserted and released together with REMOVAL_PREPARED, and nothing else clears that bit. -/
theorem safeOnlyWhenPrepared : Obligations.SafeOnlyWhenPrepared := fun _ _ hsafe hstep => (step_keeps hstep).2 hsafe

/-- Settles O3: no command stops, and every update of the state leaves the queue of waiting commands alone. -/
theorem everyCommandCompletes : Obligations.EveryCommandCompletes := fun c s =>
  let ⟨t, ht, hk⟩ := exec_keeps c s
  ⟨t, ht, hk.pending⟩

end Sys2Proof.Machine
end

section
/-!
SUPPORT. The block as a whole: the front of the queue, the state after reset, and a step on an empty queue.
-/

namespace Sys2Proof.Machine

open Sys2Proof

/-- Settles O1: the step takes the command at the front. -/
theorem stepRunsTheFront : Obligations.StepRunsTheFront := by
  intro s c rest h
  simp only [step, h]

/-- After reset no slot holds a thread, so none is ready. -/
theorem State.reset_slotReady (i : Nat) : State.reset.slotReady i = false := by
  rfl

/-- After reset no engine is mapped to a position. -/
theorem State.reset_mapped (e : EngId) : State.reset.mapped (engIx e) = false := by
  have h : ∀ (k : Fin 12) (j : Fin 9), State.reset.mapped (engIx ⟨k, j⟩) = false := by decide
  exact h e.s e.k

/-- Settles O6: the empty maps of the state after reset are canonical, and a slot that holds no thread is not ready. -/
theorem afterReset : Obligations.AfterReset :=
  ⟨State.reset_inv, nofun, rfl, rfl, rfl, rfl, rfl, rfl, State.reset_mapped, fun t => by
    simp only [State.ready, State.reset_slotReady, Bool.false_and]⟩

/-- The registers of the ECLK domain, the lanes' trims and the free values are all that differs. -/
def TrainFrame (s t : State) : Prop := t = { s with fresh := t.fresh, regs := t.regs, lanes := t.lanes }

theorem TrainFrame.refl (s : State) : TrainFrame s s := rfl

theorem TrainFrame.trans {s t u : State} (h₁ : TrainFrame s t) (h₂ : TrainFrame t u) : TrainFrame s u := by
  unfold TrainFrame at *
  rw [h₂, h₁]

theorem TrainFrame.foldl {α : Type} {f : State → α → State} (h : ∀ s x, TrainFrame s (f s x)) (l : List α) (s : State) :
    TrainFrame s (l.foldl f s) := by
  induction l generalizing s with
  | nil => exact .refl s
  | cons x l ih => exact (h s x).trans (ih _)

/-- The end of an ECLK cycle: it is counted, and the scheduling round's cycle and the bus cycles end with it. -/
def State.cycleEnd (s : State) (e : Nat) : State :=
  { s with eclk := e, roundStart := false, granted := [], schedAt := 0, bus := [] }

theorem TrainFrame.cycleEnd {s u : State} (h : TrainFrame s u) (e : Nat) : TrainFrame (s.cycleEnd e) (u.cycleEnd e) := by
  unfold TrainFrame State.cycleEnd at *
  rw [h]

theorem State.bump_trainFrame (s : State) (a n : Nat) : TrainFrame s (s.bump a n) := rfl

theorem State.tickIdle_trainFrame (s : State) (e : Nat) : TrainFrame s (s.tickIdle e) := by
  unfold State.tickIdle; split
  · exact s.bump_trainFrame _ _
  · exact .refl s

theorem State.trainEffect_trainFrame (s : State) (n k : Nat) : TrainFrame s (s.trainEffect n k) := by
  unfold State.trainEffect; split <;> rfl

theorem State.trainStep_trainFrame (s : State) (n : Nat) : TrainFrame s (s.trainStep n) := by
  unfold State.trainStep; split
  · exact .refl s
  · dsimp only; split
    · exact TrainFrame.trans (t := s.used) rfl (TrainFrame.trans (s.used.trainEffect_trainFrame n _) rfl)
    · rfl

theorem State.trainTick_trainFrame (s : State) : TrainFrame s s.trainTick := TrainFrame.foldl State.trainStep_trainFrame _ s

/-- The state with the idle and waiting counters of a cycle counted. -/
def State.tickCount (s : State) : State :=
  let s1 := (List.range 108).foldl State.tickIdle s
  s.rxWaited.foldl (fun s c => s.bump (aCulm (0x6000 + 4 * c)) 1) s1

theorem State.tickCount_trainFrame (s : State) : TrainFrame s s.tickCount :=
  (TrainFrame.foldl State.tickIdle_trainFrame _ s).trans (TrainFrame.foldl (fun s _ => s.bump_trainFrame _ 1) _ _)

theorem State.tick_eq {s : State} (h₁ : s.sleeping = false) (h₂ : s.power = .up) :
    s.tick = (s.tickCount.cycleEnd (s.eclk + 1)).trainTick := by
  unfold State.tick
  rw [if_neg (by simp [h₁, h₂])]
  rfl

/-- In sleep and before the start the engine clock stands. -/
theorem State.tick_stands {s : State} (h : s.sleeping = true ∨ s.power ≠ .up) : s.tick = s := by
  unfold State.tick
  rw [if_pos]
  rcases h with h | h <;> simp [h]

/-- A cycle of a running engine clock, up to registers, trims and free values. -/
theorem State.tick_runs {s : State} (h₁ : s.sleeping = false) (h₂ : s.power = .up) :
    TrainFrame (s.cycleEnd (s.eclk + 1)) s.tick := by
  rw [State.tick_eq h₁ h₂]
  exact (s.tickCount_trainFrame.cycleEnd _).trans (State.trainTick_trainFrame _)

/-- Settles O2: a cycle counts, ends the round's cycle and the bus cycles, and touches registers and lanes alone. -/
theorem stepOnAnEmptyQueue : Obligations.StepOnAnEmptyQueue := by
  intro s hp
  have hstep : step s = .next s.tick := by simp only [step, hp]
  refine ⟨fun h₁ h₂ => ⟨s.tick, hstep, ?_⟩, fun h => by rw [hstep, State.tick_stands h]⟩
  have h := State.tick_runs h₁ h₂
  exact ⟨congrArg State.eclk h, congrArg State.roundStart h, congrArg State.granted h, congrArg State.schedAt h,
    congrArg State.bus h, (congrArg State.mem h).trans rfl, (congrArg State.ths h).trans rfl, (congrArg State.tasks h).trans rfl,
    (congrArg State.evq h).trans rfl, (congrArg State.pending h).trans hp⟩

end Sys2Proof.Machine
end

section
/-!
SUPPORT. The lone triggers that may wait or fault, and the results of the multiplier, the divider, the bit-field unit, the guard
unit and the CRC/LFSR unit as numbers and bits.
-/

namespace Sys2Proof.Machine

open Sys2Proof

/- Lone triggers ------------------------------------------------------------------------------------------- -/

section
variable {s : State} {t : Th} {g : Trig} {v : W64} (hc : s.canTrigger (thIx t)) (hcmp : ∀ op, g ≠ .cmp op 0)
  (hsig : g = .signal → ((s.atTrigger (thIx t)).th (thIx t)).ring.toNat < 2)
  (hfree : (trigWait g).any (fun w => (s.atTrigger (thIx t)).holds (thIx t) w) = false)
include hc hcmp hsig hfree

/-- A lone trigger whose unit is free acts or raises the fault of its TRIGGER checks that R130 names. -/
theorem State.trigger_free :
    s.trigger t g v =
      match worst ((s.atTrigger (thIx t)).trigFaults (thIx t) ((s.atTrigger (thIx t)).cur (thIx t)) g v (trigPort g) 0) with
      | some f => (s.atTrigger (thIx t)).raiseFault (thIx t) f.fr
      | none => (s.atTrigger (thIx t)).trigEffect (thIx t) g v := by
  rw [State.trigger, State.trigOnce_can hc, State.trigDo_free hfree, State.dstFault_trigPort hcmp hsig]
  rfl

/-- A lone trigger whose unit is free and whose checks pass acts. -/
theorem State.trigger_acts
    (hf : (s.atTrigger (thIx t)).trigFaults (thIx t) ((s.atTrigger (thIx t)).cur (thIx t)) g v (trigPort g) 0 = []) :
    s.trigger t g v = (s.atTrigger (thIx t)).trigEffect (thIx t) g v := by
  rw [State.trigger_free hc hcmp hsig hfree, hf]
  rfl

/-- A lone trigger whose unit is free and one of whose checks fails raises that fault. -/
theorem State.trigger_faults {f : Flt} (hf : worst ((s.atTrigger (thIx t)).trigFaults (thIx t)
      ((s.atTrigger (thIx t)).cur (thIx t)) g v (trigPort g) 0) = some f) :
    s.trigger t g v = (s.atTrigger (thIx t)).raiseFault (thIx t) f.fr := by
  rw [State.trigger_free hc hcmp hsig hfree, hf]

end

/-- A lone trigger whose unit is busy waits without effect (R50, R119). -/
theorem State.trigger_waits {s : State} {t : Th} {g : Trig} {v : W64} (hc : s.canTrigger (thIx t))
    (hw : (trigWait g).any (fun w => (s.atTrigger (thIx t)).holds (thIx t) w) = true) :
    s.trigger t g v = s.atTrigger (thIx t) := by
  rw [State.trigger, State.trigOnce_can hc, State.trigDo_waits hw]

/- Multiplier and divider ----------------------------------------------------------------------------------- -/

section
variable (a b : W64)

theorem mulFn_mulhu_toNat : (mulFn .mulhu a b).toNat = a.toNat * b.toNat / 2 ^ 64 := by
  have h : a.toNat * b.toNat < 2 ^ 64 * 2 ^ 64 := Nat.mul_lt_mul'' a.isLt b.isLt
  rw [mulFn, BitVec.toNat_ofNat, Nat.mod_eq_of_lt (Nat.div_lt_of_lt_mul h)]

theorem mulFn_mulhs_toInt : (mulFn .mulhs a b).toInt = a.toInt * b.toInt / 2 ^ 64 := by
  have hhi := BitVec.toInt_mul_toInt_le (x := a) (y := b)
  have hlo := BitVec.le_toInt_mul_toInt (x := a) (y := b)
  rw [mulFn, BitVec.toInt_ofInt]
  norm_num at hhi hlo ⊢
  exact Int.bmod_eq_of_le (by omega) (by omega)

variable {a b} (hb : b ≠ 0)
include hb

theorem divFn_unsigned : divFn false a b = (a / b, a % b) := (if_neg hb).trans rfl

theorem divFn_signed : divFn true a b = (a.sdiv b, a.srem b) := (if_neg hb).trans rfl

end

theorem sdiv_eq_ofInt (a b : W64) : a.sdiv b = BitVec.ofInt 64 (a.toInt.tdiv b.toInt) :=
  BitVec.eq_of_toInt_eq (by rw [BitVec.toInt_sdiv, BitVec.toInt_ofInt])

/-- A multiplication starts with `mulFn`. -/
theorem exec_multiply {s : State} {t : Th} (op : MulOp) (b : W64) (hc : s.canTrigger (thIx t)) :
    exec (.multiply t op b) s = .next ((s.atTrigger (thIx t)).start (thIx t) .mul false
      (mulFn op ((s.atTrigger (thIx t)).cur (thIx t)).latch[6] b) 0 none) :=
  congrArg Host.Outcome.next (State.trigger_of_noFault hc rfl (fun _ => nofun) nofun rfl)

/-- The divider's only TRIGGER fault is a zero divisor with DZ_FAULT (R88). -/
theorem State.trigFaults_div (s : State) (i : Nat) (c : Bank) (sg : Bool) (b : W64) (port slot : Nat) :
    s.trigFaults i c (.div sg) b port slot =
      if b = 0 ∧ s.bit (aEng (engOf i) 0x28) 0 = true then [flt 13 0x1B 0 slot] else [] := by
  simp [State.trigFaults]

/-- A division starts with `divFn` unless its divisor is zero and DZ_FAULT is 1. -/
theorem exec_divide {s : State} {t : Th} (sg : Bool) (b : W64) (hc : s.canTrigger (thIx t))
    (hfree : (s.atTrigger (thIx t)).unitBusy (engOf (thIx t)) .div = false)
    (hz : ¬(b = 0 ∧ (s.atTrigger (thIx t)).bit (aEng (engOf (thIx t)) 0x28) 0 = true)) :
    exec (.divide t sg b) s = .next ((s.atTrigger (thIx t)).start (thIx t) .div false
      (divFn sg ((s.atTrigger (thIx t)).cur (thIx t)).latch[8] b).1
      (divFn sg ((s.atTrigger (thIx t)).cur (thIx t)).latch[8] b).2 (some (b == 0))) :=
  congrArg Host.Outcome.next (State.trigger_acts hc (fun _ => nofun) nofun hfree
    ((State.trigFaults_div _ _ _ _ _ _ _).trans (if_neg hz)))

theorem exec_divide_fault {s : State} {t : Th} (sg : Bool) (b : W64) (hc : s.canTrigger (thIx t))
    (hfree : (s.atTrigger (thIx t)).unitBusy (engOf (thIx t)) .div = false)
    (hz : b = 0 ∧ (s.atTrigger (thIx t)).bit (aEng (engOf (thIx t)) 0x28) 0 = true) :
    exec (.divide t sg b) s = .next ((s.atTrigger (thIx t)).raiseFault (thIx t) ⟨0x1B, 0, 0⟩) :=
  congrArg Host.Outcome.next (State.trigger_faults (g := .div sg) (f := flt 13 0x1B 0 0) hc (fun _ => nofun) nofun hfree
    (by rw [State.trigFaults_div, if_pos hz]; rfl))

/-- Settles O9: products through `mulFn`; a divide faults exactly if the divisor is zero and DZ_FAULT is 1, and else starts
with `divFn`. -/
theorem multiplyAndDivide : Obligations.MultiplyAndDivide := by
  constructor
  · intro s t op b i s0 a hc
    refine ⟨mulFn op a b, exec_multiply op b hc, ?_⟩
    cases op with
    | mul => exact BitVec.toNat_mul a b
    | mulhu => exact mulFn_mulhu_toNat a b
    | mulhs => exact mulFn_mulhs_toInt a b
  intro s t sg b i e s0 a hc hfree
  refine ⟨fun hb => ?_, fun hb hdz => ?_, fun hb hdz => ?_⟩
  · refine ⟨(divFn sg a b).1, (divFn sg a b).2, ?_, ?_, ?_⟩
    · rw [exec_divide sg b hc hfree fun h => hb h.1, beq_false_of_ne hb]
    · rintro rfl
      rw [divFn_unsigned hb]
      exact ⟨BitVec.toNat_udiv, BitVec.toNat_umod⟩
    · rintro rfl
      rw [divFn_signed hb]
      exact ⟨sdiv_eq_ofInt a b, BitVec.toInt_srem a b⟩
  · subst hb
    exact exec_divide sg 0 hc hfree fun h => Bool.false_ne_true (hdz.symm.trans h.2)
  · exact exec_divide_fault sg b hc hfree ⟨hb, hdz⟩

/- Bit fields --------------------------------------------------------------------------------------------------- -/

/-- Bit `k` of a word is bit `k` of its number. -/
theorem getLsbD_ofNat_of_lt {x k : Nat} (hk : k < 64) : (BitVec.ofNat 64 x).getLsbD k = x.testBit k := by
  rw [BitVec.getLsbD_ofNat, decide_eq_true hk, Bool.true_and]

/-- The width of a field cut at bit 63 (R89). -/
theorem fieldWidth_eq (lsb m : Nat) (h : lsb < 64) : min 63 (lsb + m) - lsb + 1 = min (m + 1) (64 - lsb) := by omega

/-- A field read as a signed number is the sign extension of its bits. -/
theorem ofInt_field_eq_signExtend {n f : Nat} (hn : 0 < n) (hf : f < 2 ^ n) :
    BitVec.ofInt 64 (if f < 2 ^ (n - 1) then (f : Int) else (f : Int) - 2 ^ n) = (BitVec.ofNat n f).signExtend 64 := by
  have hp : 2 ^ n = 2 * 2 ^ (n - 1) := by rw [← Nat.pow_succ', Nat.succ_eq_add_one, Nat.sub_add_cancel hn]
  have hint : (BitVec.ofNat n f).toInt = if f < 2 ^ (n - 1) then (f : Int) else (f : Int) - 2 ^ n := by
    rw [BitVec.toInt_eq_toNat_cond, BitVec.toNat_ofNat, Nat.mod_eq_of_lt hf]
    have : (2 * f < 2 ^ n) ↔ f < 2 ^ (n - 1) := by omega
    simp only [this, Nat.cast_pow, Nat.cast_ofNat]
  rw [BitVec.signExtend, hint]

section
variable (a b : W64)

theorem bfFn_extu_toNat {lsb n : Nat} (hl : lsb = b.toNat % 64) (hn : n = min (b.toNat / 64 % 64 + 1) (64 - lsb)) :
    (bfFn .extu a b).toNat = a.toNat / 2 ^ lsb % 2 ^ n := by
  subst hl
  have ha : a.toNat / 2 ^ (b.toNat % 64) % 2 ^ n < 2 ^ 64 :=
    (Nat.mod_le _ _).trans_lt ((Nat.div_le_self _ _).trans_lt a.isLt)
  simp only [bfFn, fieldWidth_eq _ _ (Nat.mod_lt b.toNat (by decide : 0 < 64)), ← hn, BitVec.toNat_ofNat]
  exact Nat.mod_eq_of_lt ha

theorem bfFn_exts_getLsbD {lsb n : Nat} (hl : lsb = b.toNat % 64) (hn : n = min (b.toNat / 64 % 64 + 1) (64 - lsb))
    {k : Nat} (hk : k < 64) : (bfFn .exts a b).getLsbD k = a.getLsbD (lsb + min k (n - 1)) := by
  subst hl
  have hpos : 0 < n := by omega
  simp only [bfFn, fieldWidth_eq _ _ (Nat.mod_lt b.toNat (by decide : 0 < 64)), ← hn]
  rw [ofInt_field_eq_signExtend hpos (Nat.mod_lt _ (Nat.two_pow_pos n)), BitVec.getLsbD_signExtend]
  have hbit : ∀ j < n, (BitVec.ofNat n (a.toNat / 2 ^ (b.toNat % 64) % 2 ^ n)).getLsbD j = a.getLsbD (b.toNat % 64 + j) := by
    intro j hj
    simp [hj, Nat.testBit_mod_two_pow, Nat.testBit_div_two_pow, BitVec.getLsbD, Nat.add_comm]
  by_cases h : k < n
  · rw [if_pos h, hbit k h, Nat.min_eq_left (by omega)]
    simp [hk]
  · rw [if_neg h, BitVec.msb_eq_getLsbD_last, hbit _ (by omega), Nat.min_eq_right (by omega)]
    simp [hk]

theorem bfFn_dep_getLsbD {lsb n : Nat} (hl : lsb = b.toNat % 64) (hn : n = min (b.toNat / 64 % 64 + 1) (64 - lsb))
    {k : Nat} (hk : k < 64) :
    (bfFn .dep a b).getLsbD k = (decide (lsb ≤ k) && decide (k < lsb + n) && a.getLsbD (k - lsb)) := by
  subst hl
  simp only [bfFn, fieldWidth_eq _ _ (Nat.mod_lt b.toNat (by decide : 0 < 64)), ← hn]
  rw [getLsbD_ofNat_of_lt hk, Nat.testBit_mul_two_pow, Nat.testBit_mod_two_pow, BitVec.getLsbD]
  by_cases h : b.toNat % 64 ≤ k
  · simp only [h, decide_true, Bool.true_and]
    congr 2
    simp only [eq_iff_iff]
    omega
  · simp [h]

end

/-- Leading zeros: all bits above the count are clear and the next is set. -/
theorem zerosDown_spec (a : W64) (n : Nat) :
    zerosDown a n ≤ n ∧ (∀ k < n, n - zerosDown a n ≤ k → a.getLsbD k = false) ∧
      (zerosDown a n < n → a.getLsbD (n - 1 - zerosDown a n) = true) := by
  induction n with
  | zero => simp [zerosDown]
  | succ n ih =>
    obtain ⟨hle, hz, ho⟩ := ih
    simp only [zerosDown]
    split
    next h => exact ⟨Nat.zero_le _, fun k hk hk' => absurd hk' (by omega), fun _ => h⟩
    next h =>
      refine ⟨by omega, fun k hk hk' => ?_, fun hlt => ?_⟩
      · rcases Nat.lt_or_ge k n with hkn | hkn
        · exact hz k hkn (by omega)
        · rw [Nat.le_antisymm (Nat.lt_succ_iff.mp hk) hkn]
          simpa using h
      · have := ho (by omega)
        rwa [show n + 1 - 1 - (1 + zerosDown a n) = n - 1 - zerosDown a n by omega]

/-- Trailing zeros from bit `i`: all bits below the count are clear and the next is set. -/
theorem zerosUp_spec (a : W64) (i n : Nat) :
    zerosUp a i n ≤ n ∧ (∀ k < zerosUp a i n, a.getLsbD (i + k) = false) ∧
      (zerosUp a i n < n → a.getLsbD (i + zerosUp a i n) = true) := by
  induction n generalizing i with
  | zero => simp [zerosUp]
  | succ n ih =>
    obtain ⟨hle, hz, ho⟩ := ih (i + 1)
    simp only [zerosUp]
    split
    next h => exact ⟨Nat.zero_le _, fun k hk => absurd hk (Nat.not_lt_zero k), fun _ => h⟩
    next h =>
      refine ⟨by omega, fun k hk => ?_, fun hlt => ?_⟩
      · cases k with
        | zero => simpa using h
        | succ k => rw [← Nat.add_assoc, Nat.add_right_comm]; exact hz k (by omega)
      · rw [← Nat.add_assoc]
        exact ho (by omega)

theorem popCount_eq_length (a : W64) (n : Nat) : popCount a n = ((List.range n).filter fun k => a.getLsbD k).length := by
  induction n with
  | zero => rfl
  | succ n ih =>
    rw [popCount, ih, List.range_succ, List.filter_append, List.length_append, Nat.add_comm]
    cases h : a.getLsbD n <;> simp [h]

/-- A search finds the first bit of the value from `n` on, or gives 64. -/
theorem findBit_spec (a : W64) (v : Bool) (n k : Nat) :
    (findBit a v n k = 64 ∧ (∀ j, n ≤ j → j < n + k → a.getLsbD j = !v)) ∨
      (n ≤ findBit a v n k ∧ findBit a v n k < n + k ∧ a.getLsbD (findBit a v n k) = v ∧
        ∀ j, n ≤ j → j < findBit a v n k → a.getLsbD j = !v) := by
  induction k generalizing n with
  | zero => exact .inl ⟨rfl, fun j h h' => absurd h' (by omega)⟩
  | succ k ih =>
    simp only [findBit]
    split
    next h => exact .inr ⟨Nat.le_refl n, by omega, by simpa using h, fun j h h' => absurd h' (by omega)⟩
    next h =>
      have hn : a.getLsbD n = !v := by simpa [Bool.eq_not] using h
      have hstep : ∀ {m : Nat}, (∀ j, n + 1 ≤ j → j < m → a.getLsbD j = !v) → ∀ j, n ≤ j → j < m → a.getLsbD j = !v := by
        intro m hm j hj hj'
        rcases Nat.eq_or_lt_of_le hj with rfl | hlt
        · exact hn
        · exact hm j hlt hj'
      rcases ih (n + 1) with ⟨h64, hall⟩ | ⟨hle, hlt, hv, hall⟩
      · exact .inl ⟨h64, hstep fun j hj hj' => hall j hj (by omega)⟩
      · exact .inr ⟨by omega, by omega, hv, hstep hall⟩

/-- A search over the bits from `n` to 63 and its result as a word. -/
theorem findBit_word (a : W64) (v : Bool) {n : Nat} (hn : n < 64) :
    let r := BitVec.ofNat 64 (findBit a v n (64 - n))
    (∀ k < 64, n ≤ k → k < r.toNat → a.getLsbD k = !v) ∧
      (r.toNat = 64 ∨ n ≤ r.toNat ∧ r.toNat < 64 ∧ a.getLsbD r.toNat = v) := by
  intro r
  have hspec := findBit_spec a v n (64 - n)
  have hr : r.toNat = findBit a v n (64 - n) := by
    rw [BitVec.toNat_ofNat]
    exact Nat.mod_eq_of_lt (by omega)
  rw [hr]
  rcases hspec with ⟨h64, hall⟩ | ⟨hle, hlt, hv, hall⟩
  · exact ⟨fun k hk hnk _ => hall k hnk (by omega), .inl h64⟩
  · exact ⟨fun k _ hnk hk => hall k hnk hk, .inr ⟨hle, by omega, hv⟩⟩

/-- Whether a bit-field operation has latency 1. -/
def bfShort : BfOp → Bool
  | .extu | .exts | .dep => true
  | _ => false

/-- A bit-field operation starts with `bfFn`. -/
theorem exec_bitFieldOperation {s : State} {t : Th} (op : BfOp) (b : W64) (hc : s.canTrigger (thIx t)) :
    exec (.bitFieldOperation t op b) s = .next ((s.atTrigger (thIx t)).start (thIx t) .bf (bfShort op)
      (bfFn op ((s.atTrigger (thIx t)).cur (thIx t)).latch[11] b) 0 none) :=
  congrArg Host.Outcome.next ((State.trigger_of_noFault (g := .bf op) hc rfl (fun _ => nofun) nofun rfl).trans (by cases op <;> rfl))

/-- Settles O10: each operation of `bfFn` by the bits of its result. -/
theorem bitFieldOperation : Obligations.BitFieldOperation := by
  intro s t op b i s0 a lsb n hc
  have hlsb : lsb < 64 := Nat.mod_lt _ (by decide)
  refine ⟨bfFn op a b, bfShort op, exec_bitFieldOperation op b hc, ?_⟩
  cases op with
  | extu => exact ⟨rfl, bfFn_extu_toNat a b rfl rfl⟩
  | exts => exact ⟨rfl, fun k hk => bfFn_exts_getLsbD a b rfl rfl hk⟩
  | dep => exact ⟨rfl, fun k hk => bfFn_dep_getLsbD a b rfl rfl hk⟩
  | clz =>
    obtain ⟨hle, hz, ho⟩ := zerosDown_spec b 64
    have hr : (bfFn .clz a b).toNat = zerosDown b 64 := Nat.mod_eq_of_lt (by omega)
    rw [hr]
    exact ⟨rfl, hle, hz, ho⟩
  | ctz =>
    obtain ⟨hle, hz, ho⟩ := zerosUp_spec b 0 64
    have hr : (bfFn .ctz a b).toNat = zerosUp b 0 64 := Nat.mod_eq_of_lt (by omega)
    rw [hr]
    exact ⟨rfl, hle, fun k hk => by simpa using hz k hk, fun h => by simpa using ho h⟩
  | popc =>
    have hle : popCount b 64 ≤ 64 := by
      rw [popCount_eq_length]
      exact (List.length_filter_le _ _).trans_eq (List.length_range (n := 64))
    have hr : (bfFn .popc a b).toNat = popCount b 64 := Nat.mod_eq_of_lt (by omega)
    rw [hr]
    exact ⟨rfl, popCount_eq_length b 64⟩
  | find1 => exact ⟨rfl, findBit_word a true hlsb⟩
  | find0 => exact ⟨rfl, findBit_word a false hlsb⟩

/- Guards ------------------------------------------------------------------------------------------------------- -/

/-- A guard write changes that guard alone, and B0 not at all (R55). -/
theorem getLsbD_setGuard (b : BitVec 8) (g : Nat) (v : Bool) {k : Nat} (hk : k < 8) :
    (setGuard b g v).getLsbD k = if k = g % 8 ∧ g % 8 ≠ 0 then v else b.getLsbD k := by
  have hg : g % 8 < 8 := Nat.mod_lt _ (by decide)
  unfold setGuard
  generalize g % 8 = m at hg ⊢
  revert b
  interval_cases m <;> interval_cases k <;> cases v <;> decide

/-- The relation of a compare (R90). -/
theorem cmpFn_iff (op : CmpOp) (a b : W64) : cmpFn op a b = true ↔ match op with
    | .eq => a = b
    | .lt => a.toInt < b.toInt
    | .ltu => a.toNat < b.toNat
    | .le => a.toInt ≤ b.toInt
    | .leu => a.toNat ≤ b.toNat
    | .test => a &&& b ≠ 0
    | .bit => a.getLsbD (b.toNat % 64) = true := by
  cases op with
  | eq => exact beq_iff_eq
  | lt => exact BitVec.slt_iff_toInt_lt
  | ltu => exact BitVec.ult_iff_toNat_lt
  | le => exact BitVec.sle_iff_toInt_le
  | leu => exact BitVec.ule_iff_toNat_le
  | test => exact bne_iff_ne
  | bit => exact Iff.rfl

/-- What GLOGIC writes to its guard (R91). -/
def glogicVal (old : BitVec 8) (v : W64) : Bool :=
  let x := guardOf old (v.toNat / 8)
  let y := guardOf old (v.toNat / 64)
  match v.toNat / 512 % 4 with
  | 0 => x && y
  | 1 => x || y
  | 2 => x ^^ y
  | _ => x && !y

theorem glogicFn_eq (old b : BitVec 8) (v : W64) : glogicFn old b v = setGuard b (v.toNat % 8) (glogicVal old v) := rfl

theorem glogicVal_eq (old : BitVec 8) (v : W64) :
    glogicVal old v =
      let x := decide (v.toNat / 8 % 8 = 0) || old.getLsbD (v.toNat / 8 % 8)
      let y := decide (v.toNat / 64 % 8 = 0) || old.getLsbD (v.toNat / 64 % 8)
      if v.toNat / 512 % 4 = 0 then x && y else if v.toNat / 512 % 4 = 1 then x || y
      else if v.toNat / 512 % 4 = 2 then x ^^ y else x && !y := by
  have h4 : v.toNat / 512 % 4 < 4 := Nat.mod_lt _ (by decide)
  simp only [glogicVal, guardOf, beq_eq_decide]
  generalize v.toNat / 512 % 4 = m at h4 ⊢
  interval_cases m <;> rfl

/-- A compare on another guard than B0 writes that guard. -/
theorem exec_guardCompare {s : State} {t : Th} (op : CmpOp) {g : Fin 8} (b : W64) (hg : g ≠ 0) (hc : s.canTrigger (thIx t)) :
    exec (.guardCompare t op g b) s =
      let s0 := s.atTrigger (thIx t)
      .next (s0.putBank (thIx t) (s0.th (thIx t)).sel { s0.cur (thIx t) with
        b := setGuard (s0.cur (thIx t)).b g.val (cmpFn op (s0.cur (thIx t)).latch[13] b) }) :=
  congrArg Host.Outcome.next (State.trigger_of_noFault (g := .cmp op g) hc rfl
    (fun _ h => hg (Trig.cmp.inj h).2) nofun rfl)

/-- B0 has no compare port (R90). -/
theorem dstPort_cmp_zero (op : CmpOp) : dstPort (trigPort (.cmp op 0)) = .bad := by cases op <;> rfl

theorem exec_guardCompare_zero {s : State} {t : Th} (op : CmpOp) (b : W64) (hc : s.canTrigger (thIx t)) :
    exec (.guardCompare t op 0 b) s =
      .next ((s.atTrigger (thIx t)).raiseFault (thIx t) ⟨0x01, BitVec.ofNat 64 (trigPort (.cmp op 0)), 0⟩) := by
  have hd : (s.atTrigger (thIx t)).dstFault (thIx t) [] ⟨0, trigPort (.cmp op 0), none, 0, 0, false⟩ =
      some (fltPort (trigPort (.cmp op 0)) 0) := by
    unfold State.dstFault
    simp only [dstPort_cmp_zero, decide_true, Bool.true_or, if_true]
  refine congrArg Host.Outcome.next ?_
  rw [State.trigger, State.trigOnce_can hc, State.trigDo_free rfl, hd]
  rfl

theorem exec_glogic {s : State} {t : Th} (b : W64) (hc : s.canTrigger (thIx t)) :
    exec (.glogic t b) s =
      let s0 := s.atTrigger (thIx t)
      .next (s0.putBank (thIx t) (s0.th (thIx t)).sel { s0.cur (thIx t) with
        b := glogicFn (s0.cur (thIx t)).b (s0.cur (thIx t)).b b }) :=
  congrArg Host.Outcome.next (State.trigger_of_noFault (g := .glogic) hc rfl (fun _ => nofun) nofun rfl)

/-- Settles O11: both operations write through `setGuard`; B0 has no compare port. -/
theorem guardOperations : Obligations.GuardOperations := by
  constructor
  · intro s t op g b i s0 a hc
    constructor
    · intro hg
      have hg8 : g.val % 8 = g.val := Nat.mod_eq_of_lt g.isLt
      have hg0 : g.val ≠ 0 := fun h => hg (Fin.ext h)
      refine ⟨setGuard (s0.cur i).b g.val (cmpFn op a b), exec_guardCompare op b hg hc, fun k hk hkg => ?_, ?_⟩
      · rw [getLsbD_setGuard _ _ _ hk, if_neg (by omega)]
      · rw [getLsbD_setGuard _ _ _ g.isLt, if_pos (by omega)]
        exact cmpFn_iff op a b
    · rintro rfl
      exact exec_guardCompare_zero op b hc
  · intro s t b i s0 old d x y hc
    have hd : d < 8 := Nat.mod_lt _ (by decide)
    have hd8 : d % 8 = d := Nat.mod_eq_of_lt hd
    refine ⟨glogicFn old old b, exec_glogic b hc, fun h0 => ?_, fun k hk hkd => ?_, fun h0 => ?_⟩
    · rw [glogicFn_eq, show b.toNat % 8 = 0 from h0]
      rfl
    · rw [glogicFn_eq, getLsbD_setGuard _ _ _ hk, if_neg (by omega)]
    · rw [glogicFn_eq, getLsbD_setGuard _ _ _ hd, if_pos (by omega), glogicVal_eq]

/- The CRC and LFSR unit ------------------------------------------------------------------------------------------ -/

/-- The polynomial's low `w` bits reversed, as a sum over its bits. -/
theorem revBits_eq_sum (x w : Nat) :
    revBits x w = ((List.range w).map fun k => if Nat.testBit x k then 2 ^ (w - 1 - k) else 0).sum := by
  induction w generalizing x with
  | zero => rfl
  | succ w ih =>
    rw [revBits, ih, List.range_succ_eq_map, List.map_cons, List.sum_cons, List.map_map]
    congr 1
    · rw [Nat.testBit_zero]
      rcases Nat.mod_two_eq_zero_or_one x with h | h <;> simp [h]
    · congr 1
      refine List.map_congr_left fun k _ => ?_
      simp only [Function.comp_apply, Nat.testBit_succ, Nat.succ_eq_add_one]
      congr 2
      omega

theorem revBits_lt (x w : Nat) : revBits x w < 2 ^ w := by
  induction w generalizing x with
  | zero => exact Nat.one_pos
  | succ w ih =>
    have h := ih (x / 2)
    have hm : x % 2 * 2 ^ w ≤ 1 * 2 ^ w := Nat.mul_le_mul_right _ (by omega)
    rw [revBits, Nat.pow_succ]
    omega

/-- Only the low `w` bits count. -/
theorem revBits_mod (x w : Nat) : revBits (x % 2 ^ w) w = revBits x w := by
  rw [revBits_eq_sum, revBits_eq_sum]
  congr 1
  refine List.map_congr_left fun k hk => ?_
  simp [Nat.testBit_mod_two_pow, List.mem_range.mp hk]

theorem foldl_add_eq_sum (f : Nat → Nat) (l : List Nat) (x : Nat) : l.foldl (fun x k => x + f k) x = x + (l.map f).sum := by
  induction l generalizing x with
  | nil => rfl
  | cons k l ih => rw [List.foldl_cons, ih, List.map_cons, List.sum_cons, Nat.add_assoc]

/-- One step of R112 by its feedback bit, most significant bit first. -/
theorem crcStep_eq (w poly x : Nat) (d : Bool) :
    crcStep w poly x d = if Nat.testBit x (w - 1) = d then x * 2 % 2 ^ w else (x * 2 % 2 ^ w) ^^^ (poly % 2 ^ w) := by
  have hb : (x / 2 ^ (w - 1) % 2 == 1) = Nat.testBit x (w - 1) := by
    rw [Nat.testBit_eq_decide_div_mod_eq, beq_eq_decide]
  simp only [crcStep, hb]
  cases Nat.testBit x (w - 1) <;> cases d <;> rfl

/-- One step of R112 by its feedback bit, least significant bit first on the reversed polynomial. -/
theorem crcStepR_eq (w poly x : Nat) (d : Bool) :
    crcStepR w poly x d = if Nat.testBit x 0 = d then x / 2 else (x / 2) ^^^ revBits poly w := by
  have hb : (x % 2 == 1) = Nat.testBit x 0 := by rw [Nat.testBit_zero, beq_eq_decide]
  simp only [crcStepR, hb, revBits_mod]
  cases Nat.testBit x 0 <;> cases d <;> rfl

/-- A feed is one step for each data bit, most significant first. -/
theorem crcFeed_eq_foldl (w poly x v n : Nat) :
    crcFeed w poly x v n = (List.range n).foldl (fun x k => crcStep w poly x (v.testBit (n - 1 - k))) x := by
  induction n generalizing x with
  | zero => rfl
  | succ n ih =>
    rw [crcFeed, ih, List.range_succ_eq_map, List.foldl_cons, List.foldl_map]
    congr 1
    · funext x k
      rw [show n + 1 - 1 - k.succ = n - 1 - k by omega]
    · rw [Nat.testBit_eq_decide_div_mod_eq, beq_eq_decide]
      rfl

/-- A reflected feed is one step for each data bit, least significant first. -/
theorem crcFeedR_eq_foldl (w poly x v n : Nat) :
    crcFeedR w poly x v n = (List.range n).foldl (fun x k => crcStepR w poly x (v.testBit k)) x := by
  induction n generalizing x v with
  | zero => rfl
  | succ n ih =>
    rw [crcFeedR, ih, List.range_succ_eq_map, List.foldl_cons, List.foldl_map]
    congr 1
    · funext x k
      rw [Nat.testBit_succ]
    · rw [Nat.testBit_zero, beq_eq_decide]

/-- A fold keeps a bound that each of its steps keeps. -/
theorem foldl_lt {f : Nat → Nat → Nat} {m : Nat} (hf : ∀ x k, x < m → f x k < m) (l : List Nat) {x : Nat} (hx : x < m) :
    l.foldl f x < m := by
  induction l generalizing x with
  | nil => exact hx
  | cons k l ih => exact ih (hf x k hx)

theorem crcStep_lt {w poly x : Nat} (d : Bool) : crcStep w poly x d < 2 ^ w := by
  rw [crcStep_eq]
  split
  · exact Nat.mod_lt _ (Nat.two_pow_pos w)
  · exact Nat.xor_lt_two_pow (Nat.mod_lt _ (Nat.two_pow_pos w)) (Nat.mod_lt _ (Nat.two_pow_pos w))

theorem crcStepR_lt {w poly x : Nat} (d : Bool) (hx : x < 2 ^ w) : crcStepR w poly x d < 2 ^ w := by
  have hx2 : x / 2 < 2 ^ w := (Nat.div_le_self x 2).trans_lt hx
  rw [crcStepR_eq]
  split
  · exact hx2
  · exact Nat.xor_lt_two_pow hx2 (revBits_lt poly w)

/-- One step of R112 under POLY on data bit `d`. -/
def crcOne (poly x : Nat) (d : Bool) : Nat :=
  let w := poly / 2 ^ 32 % 32 + 1
  if Nat.testBit poly 40 then
    (if Nat.testBit x 0 = d then x / 2
     else (x / 2) ^^^ (List.range w).foldl (fun x k => x + if Nat.testBit poly k then 2 ^ (w - 1 - k) else 0) 0)
  else if Nat.testBit x (w - 1) = d then x * 2 % 2 ^ w else (x * 2 % 2 ^ w) ^^^ (poly % 2 ^ w)

/-- The width of POLY is at most 32, so its coefficients lie in its low word. -/
theorem mod_two_pow_crcWidth (poly : W64) : poly.toNat % 2 ^ 32 % 2 ^ crcWidth poly = poly.toNat % 2 ^ crcWidth poly :=
  Nat.mod_mod_of_dvd _ (Nat.pow_dvd_pow 2 (Nat.mod_lt _ (by decide)))

theorem two_pow_crcWidth_le (poly : W64) : 2 ^ crcWidth poly ≤ 2 ^ 64 :=
  Nat.pow_le_pow_right (by decide) ((Nat.mod_lt (poly.toNat / 2 ^ 32) (by decide : 0 < 32)).trans_le (by decide))

/-- STATE after a feed (R112): one step for each data bit. -/
theorem crcFn_toNat (poly st v : W64) (n : Nat) :
    (crcFn poly st v n).toNat = (List.range n).foldl
      (fun x k => crcOne poly.toNat x (v.getLsbD (if Nat.testBit poly.toNat 40 then k else n - 1 - k)))
      (st.toNat % 2 ^ crcWidth poly) := by
  have hst : st.toNat % 2 ^ crcWidth poly < 2 ^ crcWidth poly := Nat.mod_lt _ (Nat.two_pow_pos _)
  have hw := two_pow_crcWidth_le poly
  simp only [crcFn, BitVec.toNat_ofNat]
  change (if Nat.testBit poly.toNat 40 = true then _ else _) % _ = _
  by_cases h40 : Nat.testBit poly.toNat 40 = true
  · rw [if_pos h40, crcFeedR_eq_foldl,
      Nat.mod_eq_of_lt ((foldl_lt (fun x k hx => crcStepR_lt _ hx) _ hst).trans_le hw)]
    congr 1
    funext x k
    rw [crcStepR_eq, ← revBits_mod, mod_two_pow_crcWidth, revBits_mod, revBits_eq_sum]
    simp only [crcOne, h40, if_true, foldl_add_eq_sum, Nat.zero_add]
    rfl
  · rw [if_neg h40, crcFeed_eq_foldl,
      Nat.mod_eq_of_lt ((foldl_lt (fun x k _ => crcStep_lt _) _ hst).trans_le hw)]
    congr 1
    funext x k
    rw [crcStep_eq, mod_two_pow_crcWidth]
    simp only [crcOne, h40]
    rfl

section
variable {s : State} {t : Th} (b : W64) (hc : s.canTrigger (thIx t))
  (hfree : (s.atTrigger (thIx t)).unitBusy (engOf (thIx t)) .crc = false)
include hc hfree

theorem exec_setstate :
    exec (.setstate t b) s = .next ((s.atTrigger (thIx t)).start (thIx t) .crc true
      (BitVec.ofNat 64 (b.toNat % 2 ^ crcWidth ((s.atTrigger (thIx t)).cur (thIx t)).latch[21])) 0 none) :=
  congrArg Host.Outcome.next (State.trigger_acts (g := .setstate) hc (fun _ => nofun) nofun hfree rfl)

theorem exec_feed (op : FeedOp) :
    exec (.feed t op b) s = .next ((s.atTrigger (thIx t)).start (thIx t) .crc (op == .feed8)
      (crcFn ((s.atTrigger (thIx t)).cur (thIx t)).latch[21] ((s.atTrigger (thIx t)).cur (thIx t)).latch[20] b (feedBits op))
      0 none) :=
  congrArg Host.Outcome.next (State.trigger_acts (g := .feed op) hc (fun _ => nofun) nofun hfree rfl)

theorem exec_lfsr :
    exec (.lfsr t b) s = .next ((s.atTrigger (thIx t)).start (thIx t) .crc (decide (lfsrSteps b ≤ 8))
      (crcFn ((s.atTrigger (thIx t)).cur (thIx t)).latch[21] ((s.atTrigger (thIx t)).cur (thIx t)).latch[20] 0 (lfsrSteps b))
      0 none) :=
  congrArg Host.Outcome.next (State.trigger_acts (g := .lfsr) hc (fun _ => nofun) nofun hfree rfl)

end

/-- Settles O12: every operation of the free unit starts with `crcFn`, a fold of single steps; with the unit busy it waits. -/
theorem crcUnit : Obligations.CrcUnit := by
  intro s t b i s0 poly w refl rpoly one fed steps hc
  constructor
  · intro hfree
    have hfed : ∀ v n, (crcFn (s0.cur i).latch[21] (s0.cur i).latch[20] v n).toNat = fed v n := fun v n => crcFn_toNat _ _ v n
    refine ⟨⟨_, exec_setstate b hc hfree, ?_⟩, ⟨_, exec_feed b hc hfree .feed8, hfed b 8⟩,
      ⟨_, exec_feed b hc hfree .feed16, hfed b 16⟩, ⟨_, exec_feed b hc hfree .feed32, hfed b 32⟩,
      ⟨_, exec_feed b hc hfree .feed64, hfed b 64⟩, ⟨_, exec_lfsr b hc hfree, hfed 0 steps⟩⟩
    rw [BitVec.toNat_ofNat]
    exact Nat.mod_eq_of_lt ((Nat.mod_lt _ (Nat.two_pow_pos _)).trans_le (two_pow_crcWidth_le _))
  · intro hbusy
    exact ⟨congrArg Host.Outcome.next (State.trigger_waits (g := .setstate) hc hbusy),
      congrArg Host.Outcome.next (State.trigger_waits (g := .lfsr) hc hbusy),
      fun op => congrArg Host.Outcome.next (State.trigger_waits (g := .feed op) hc hbusy)⟩

/- The end of an operation ------------------------------------------------------------------------------------------ -/

/-- The oldest operation of a unit stands before every other of that unit. -/
theorem takeOp_append {u : RUnit} {pre post : List RunOp} {o : RunOp} (hpre : ∀ x ∈ pre, x.unit ≠ u) (ho : o.unit = u) :
    takeOp u (pre ++ o :: post) = some (o, pre ++ post) := by
  induction pre with
  | nil => simp [takeOp, ho]
  | cons x pre ih =>
    simp only [List.cons_append, takeOp]
    rw [if_neg (hpre x List.mem_cons_self), ih fun y hy => hpre y (List.mem_cons_of_mem x hy)]
    rfl

/-- The oldest operation of a unit leaves the list and, unless the engine is locked, lands (R53, R148). -/
theorem exec_unitResult {s : State} {t : Th} {u : RUnit} {o : RunOp} {pre post : List RunOp} (hs : s.sleeping = false)
    (hops : (s.th (thIx t)).ops = pre ++ o :: post) (ho : o.unit = u) (hpre : ∀ x ∈ pre, x.unit ≠ u) :
    exec (.unitResult t u) s =
      let s1 := s.setTh (thIx t) { s.th (thIx t) with ops := pre ++ post }
      .next (if s.locked (engOf (thIx t)) then s1 else s1.land (thIx t) o).clearWaits := by
  change Host.Outcome.next (s.awakeDo _) = _
  rw [State.awakeDo, hs, if_neg Bool.false_ne_true, State.unitDone, hops, takeOp_append hpre ho]
  rfl

/-- What a result leaves of its bank (R53, R78): its own latches, and the carry of an ALU. -/
theorem landBank_spec (b : Bank) (o : RunOp) :
    let n := landBank b o
    let only := fun l : List Nat => ∀ j : Fin 22, j.val ∉ l → n.latch[j] = b.latch[j]
    n = { b with latch := n.latch, c0 := n.c0, c1 := n.c1 } ∧
      (o.unit ≠ .alu0 → n.c0 = b.c0) ∧ (o.unit ≠ .alu1 → n.c1 = b.c1) ∧
      (o.unit = .alu0 → n.latch[1] = o.res ∧ n.c0 = o.carry.getD b.c0 ∧ only [1]) ∧
      (o.unit = .alu1 → n.latch[3] = o.res ∧ n.c1 = o.carry.getD b.c1 ∧ only [3]) ∧
      (o.unit = .shifter → n.latch[5] = o.res ∧ only [5]) ∧ (o.unit = .mul → n.latch[7] = o.res ∧ only [7]) ∧
      (o.unit = .div → n.latch[9] = o.res ∧ n.latch[10] = o.rem ∧ only [9, 10]) ∧
      (o.unit = .bf → n.latch[12] = o.res ∧ only [12]) ∧ (o.unit = .crc → n.latch[20] = o.res ∧ only [20]) := by
  obtain ⟨u, sh, sel, res, rem, carry⟩ := o
  have hne : ∀ {k : Nat} {v : W64} {l : Vector W64 22} (hk : k < 22) (j : Fin 22), j.val ≠ k → (l.set k v)[j] = l[j] := by
    intro k v l hk j hj
    exact Vector.getElem_set_ne _ _ (Ne.symm hj)
  cases u <;> simp +contextual [landBank, hne]

/-- A result other than a POLL's lands in its bank; a divide by zero sets DIV_ZERO (R53, R88). -/
theorem State.land_of_ne_poll {s : State} {i : Nat} {o : RunOp} (h : o.unit ≠ .poll) :
    s.land i o = (if o.unit = .div ∧ o.carry = some true then s.setB (aEng (engOf i) 0x2C) 0 else s).putBank i o.sel
      (landBank (s.bankOf i o.sel) o) := by
  unfold State.land
  cases hu : o.unit with
  | poll => exact absurd hu h
  | div => simp
  | _ => simp

/-- Settles O13: the operation is taken out of the list and lands in its bank, which `landBank_spec` describes. -/
theorem unitResult : Obligations.UnitResult := by
  intro s t u o pre post i hs hops ho hpre s1
  have hex : exec (.unitResult t u) s = .next (if s.locked (engOf i) then s1 else s1.land i o).clearWaits :=
    exec_unitResult hs hops ho hpre
  subst ho
  refine ⟨fun hl => by rw [hex, if_pos hl], fun hl => ?_⟩
  rw [hex, if_neg (by rw [hl]; exact Bool.false_ne_true)]
  refine ⟨fun hp => ?_, fun hp => ⟨landBank (s1.bankOf i o.sel) o, ?_, landBank_spec _ o⟩⟩
  · rw [State.land, hp]
  · rw [State.land_of_ne_poll hp]

end Sys2Proof.Machine
end

section
/-!
SUPPORT. The load-store unit and the spill unit: which address faults a trigger raises, what a load or store brings back, and the
proofs of the statements about loads, stores and spill triggers.
-/

namespace Sys2Proof.Machine

open Sys2Proof

/- Addresses ------------------------------------------------------------------------------------------------ -/

/-- The regions that are control-window addresses. -/
def Region.isCtrl : Region → Bool
  | .ctrl _ => true
  | _ => false

theorem isWindow_eq (a : Nat) : isWindow a = (regionOf a).isCtrl := rfl

theorem bankRegion_isCtrl (o : Nat) (al : Alias) : (bankRegion o al).isCtrl = false := by
  unfold bankRegion
  split <;> rfl

/-- The control window is one range of addresses (R67). -/
theorem isWindow_iff (a : Nat) : isWindow a = true ↔ 0x80000000 ≤ a ∧ a < 0x100000000 := by
  rw [isWindow_eq, regionOf]
  by_cases hlo : a < 0x80000000
  · have hs : (if a < 0x40000 then Region.scratch a else .unmapped).isCtrl = false := by split <;> rfl
    simp only [hlo, if_true, hs, Bool.false_eq_true, false_iff]
    omega
  · rw [if_neg (by omega), if_neg hlo]
    by_cases hhi : a < 0x100000000
    · rw [if_pos hhi]
      exact iff_of_true rfl ⟨by omega, hhi⟩
    · rw [if_neg hhi]
      have hrest : ∀ {p : Prop} [Decidable p] {x y : Region}, x.isCtrl = false → y.isCtrl = false →
          (if p then x else y).isCtrl = false := by
        intro p _ x y hx hy
        split
        · exact hx
        · exact hy
      refine iff_of_false (Bool.not_eq_true _ ▸ ?_) (by omega)
      exact hrest (bankRegion_isCtrl _ _) (hrest (bankRegion_isCtrl _ _) (hrest (bankRegion_isCtrl _ _)
        (hrest rfl (hrest rfl (hrest rfl (hrest rfl (hrest rfl rfl)))))))

/-- The window is one of the ranges that an engine may name. -/
theorem isWindow_engine {a : Nat} (h : isWindow a = true) : (regionOf a).engine = true := by
  unfold isWindow at h
  cases hr : regionOf a <;> simp_all [Region.engine]

theorem accessFault_eq (sum : W64) (n : Nat) (ring : Ring) (slot : Nat) :
    accessFault sum n ring slot =
      if 2 ^ 40 ≤ sum.toNat || !(regionOf sum.toNat).engine || !sameRange sum.toNat (sum.toNat + n - 1)
      then [flt 7 0x15 (BitVec.ofNat 64 (sum.toNat % 2 ^ 40)) slot]
      else
        (if isWindow sum.toNat && ring ≠ 0 then [flt 8 0x16 (BitVec.ofNat 64 (sum.toNat % 2 ^ 40)) slot] else []) ++
          (if sum.toNat % n ≠ 0 || (isWindow sum.toNat && n ≠ 4)
           then [flt 9 0x17 (BitVec.ofNat 64 (sum.toNat % 2 ^ 40)) slot] else []) := rfl

section
variable {sum : W64} {n : Nat} {ring : Ring} {slot : Nat}

/-- Bits above 39, an address that names nothing, or an access over the end of its range: the unmapped-address fault (R67). -/
theorem accessFault_unmapped (h : 2 ^ 40 ≤ sum.toNat ∨ (regionOf sum.toNat).engine = false ∨
      sameRange sum.toNat (sum.toNat + n - 1) = false) :
    worst (accessFault sum n ring slot) = some (flt 7 0x15 (BitVec.ofNat 64 (sum.toNat % 2 ^ 40)) slot) := by
  rw [accessFault_eq, if_pos (by simpa [or_assoc] using h)]
  rfl

section
variable (ha : sum.toNat < 2 ^ 40) (he : (regionOf sum.toNat).engine = true)
  (hr : sameRange sum.toNat (sum.toNat + n - 1) = true)
include ha he hr

theorem accessFault_mapped :
    accessFault sum n ring slot =
      (if isWindow sum.toNat && ring ≠ 0 then [flt 8 0x16 (BitVec.ofNat 64 sum.toNat) slot] else []) ++
        (if sum.toNat % n ≠ 0 || (isWindow sum.toNat && n ≠ 4)
         then [flt 9 0x17 (BitVec.ofNat 64 sum.toNat) slot] else []) := by
  rw [accessFault_eq, if_neg (by simp only [he, hr]; simpa using ha), Nat.mod_eq_of_lt ha]

/-- A misaligned access, or one to the window of other than 4 bytes, is the misalignment fault (R69). -/
theorem accessFault_misaligned (hw : isWindow sum.toNat = true → ring = 0)
    (hm : sum.toNat % n ≠ 0 ∨ isWindow sum.toNat = true ∧ n ≠ 4) :
    worst (accessFault sum n ring slot) = some (flt 9 0x17 (BitVec.ofNat 64 sum.toNat) slot) := by
  rw [accessFault_mapped ha he hr, if_neg (by simpa using hw), if_pos (by simpa using hm)]
  rfl

/-- An aligned access of a listed range passes every check. -/
theorem accessFault_none (hm : sum.toNat % n = 0) (hw : isWindow sum.toNat = true → ring = 0 ∧ n = 4) :
    accessFault sum n ring slot = [] := by
  rw [accessFault_mapped ha he hr, if_neg (by simpa using fun h => (hw h).1),
    if_neg (by simpa [hm] using fun h => (hw h).2)]
  rfl

end

/-- The control window from a ring above 0 is the ring violation (R68). -/
theorem accessFault_ring (hw : isWindow sum.toNat = true) (hr : sameRange sum.toNat (sum.toNat + n - 1) = true)
    (hring : ring ≠ 0) :
    worst (accessFault sum n ring slot) = some (flt 8 0x16 (BitVec.ofNat 64 sum.toNat) slot) := by
  have ha : sum.toNat < 2 ^ 40 := ((isWindow_iff _).mp hw).2.trans_le (by decide)
  rw [accessFault_mapped ha (isWindow_engine hw) hr, if_pos (by simpa [hw] using hring)]
  split <;> rfl

end

/- Loads and stores start ---------------------------------------------------------------------------------------- -/

section
variable {s : State} {t : Th} (b : W64) (hc : s.canTrigger (thIx t))
include hc

theorem exec_drain : exec (.drain t) s =
    .next ((s.atTrigger (thIx t)).modTh (thIx t) fun th => { th with drainIds := th.stores.map (·.id) }) :=
  congrArg Host.Outcome.next (State.trigger_of_noFault (g := .drain) hc rfl (fun _ => nofun) nofun rfl)

/-- A load whose address checks pass starts. -/
theorem exec_load (op : LdOp)
    (hf : accessFault (((s.atTrigger (thIx t)).cur (thIx t)).latch[14] + b) (ldSize op)
      ((s.atTrigger (thIx t)).th (thIx t)).ring 0 = []) :
    exec (.load t op b) s = .next ((s.atTrigger (thIx t)).loadAt (thIx t) op
      (((s.atTrigger (thIx t)).cur (thIx t)).latch[14] + b).toNat) :=
  congrArg Host.Outcome.next (State.trigger_acts (g := .ld op) hc (fun _ => nofun) nofun rfl hf)

/-- A load one of whose address checks fails raises that fault. -/
theorem exec_load_fault (op : LdOp) {f : Flt}
    (hf : worst (accessFault (((s.atTrigger (thIx t)).cur (thIx t)).latch[14] + b) (ldSize op)
      ((s.atTrigger (thIx t)).th (thIx t)).ring 0) = some f) :
    exec (.load t op b) s = .next ((s.atTrigger (thIx t)).raiseFault (thIx t) f.fr) :=
  congrArg Host.Outcome.next (State.trigger_faults (g := .ld op) hc (fun _ => nofun) nofun rfl hf)

/-- A store into a full buffer waits (R72, R119). -/
theorem exec_store_waits (op : StOp) (hfull : 4 ≤ ((s.atTrigger (thIx t)).th (thIx t)).stores.length) :
    exec (.store t op b) s = .next (s.atTrigger (thIx t)) :=
  congrArg Host.Outcome.next (State.trigger_waits (g := .st op) hc (decide_eq_true hfull))

section
variable (hroom : ((s.atTrigger (thIx t)).th (thIx t)).stores.length < 4)
include hroom

/-- A store whose address checks pass enters the buffer. -/
theorem exec_store (op : StOp)
    (hf : accessFault (((s.atTrigger (thIx t)).cur (thIx t)).latch[14] + b) (stSize op)
      ((s.atTrigger (thIx t)).th (thIx t)).ring 0 = []) :
    exec (.store t op b) s = .next ((s.atTrigger (thIx t)).storeAt (thIx t) op
      (((s.atTrigger (thIx t)).cur (thIx t)).latch[14] + b).toNat ((s.atTrigger (thIx t)).cur (thIx t)).latch[15]) :=
  congrArg Host.Outcome.next (State.trigger_acts (g := .st op) hc (fun _ => nofun) nofun
    (decide_eq_false (Nat.not_le.mpr hroom)) hf)

theorem exec_store_fault (op : StOp) {f : Flt}
    (hf : worst (accessFault (((s.atTrigger (thIx t)).cur (thIx t)).latch[14] + b) (stSize op)
      ((s.atTrigger (thIx t)).th (thIx t)).ring 0) = some f) :
    exec (.store t op b) s = .next ((s.atTrigger (thIx t)).raiseFault (thIx t) f.fr) :=
  congrArg Host.Outcome.next (State.trigger_faults (g := .st op) hc (fun _ => nofun) nofun
    (decide_eq_false (Nat.not_le.mpr hroom)) hf)

end
end

/-- Settles O14: the four outcomes of the address checks, for loads and for stores into a buffer with room. -/
theorem loadStoreDrain : Obligations.LoadStoreDrain := by
  intro s t b i s0 sum a ring hc
  refine ⟨exec_drain hc, fun op => ⟨fun h => ?_, fun hw hr hring => ?_, fun ha he hr hw hm => ?_, fun ha he hr hm hw => ?_⟩,
    fun op hroom => ⟨fun h => ?_, fun hw hr hring => ?_, fun ha he hr hw hm => ?_, fun ha he hr hm hw => ?_⟩,
    fun op hfull => exec_store_waits b hc op hfull⟩
  · exact exec_load_fault b hc op (accessFault_unmapped h)
  · exact exec_load_fault b hc op (accessFault_ring hw hr hring)
  · exact exec_load_fault b hc op (accessFault_misaligned ha he hr hw hm)
  · exact exec_load b hc op (accessFault_none ha he hr hm hw)
  · exact exec_store_fault b hc hroom op (accessFault_unmapped h)
  · exact exec_store_fault b hc hroom op (accessFault_ring hw hr hring)
  · exact exec_store_fault b hc hroom op (accessFault_misaligned ha he hr hw hm)
  · exact exec_store b hc hroom op (accessFault_none ha he hr hm hw)

/- The spill unit ---------------------------------------------------------------------------------------------------- -/

/-- A write of a thread that differs from the one after reset is read back. -/
theorem State.th_setTh_of_ne_init (s : State) (i : Nat) {t : Thread} (h : t ≠ Thread.init) : (s.setTh i t).th i = t := by
  change spGet _ (spSet (fun _ => Thread.init) s.ths i t) i = t
  rw [spSet, if_neg h]
  exact spGet_spIns_self _ _ _

/-- A thread in its run phase is not the one after reset. -/
theorem Thread.ne_init_of_run {t : Thread} (h : t.phase = .run) : t ≠ Thread.init := by
  rintro rfl
  exact absurd h (by decide)

/-- The threads depend on their part of the state alone. -/
theorem State.th_congr {s u : State} (h : u.ths = s.ths) (i : Nat) : u.th i = s.th i := by
  rw [State.th, h]
  rfl

/-- Slot `i` runs and waits for no transfer of the spill unit. -/
def State.SpillFree (s : State) (i : Nat) : Prop := (s.th i).phase = .run ∧ (s.th i).spill = none

/-- A trigger acts in a thread that waits for no transfer. -/
theorem State.spillFree_of_canTrigger {s : State} {i : Nat} (hc : s.canTrigger i) : (s.atTrigger i).SpillFree i := by
  have hths : (s.atTrigger i).ths = (s.landShort i).ths := by
    unfold State.atTrigger State.firstFetch
    dsimp only
    split <;> rfl
  have hth : (s.atTrigger i).th i = (s.landShort i).th i := by rw [State.th, hths]; rfl
  have hr := hc.1
  simp only [State.ready, State.slotReady, Bool.and_eq_true, decide_eq_true_eq, Option.isNone_iff_eq_none] at hr
  rw [State.SpillFree, hth]
  exact ⟨hr.1.1.1.1.1.1.1.1.1, hr.1.1.1.1.2⟩

theorem State.SpillFree.congr {s u : State} {i : Nat} (h : s.SpillFree i) (hths : u.ths = s.ths) : u.SpillFree i := by
  have hth := State.th_congr hths i
  rwa [State.SpillFree, hth]

/-- An update of any slot keeps it, if it keeps the phase and the transfer of this one. -/
theorem State.SpillFree.modTh {s : State} {i : Nat} (h : s.SpillFree i) (j : Nat) {f : Thread → Thread}
    (hf : j = i → (f (s.th i)).phase = .run ∧ (f (s.th i)).spill = none) : (s.modTh j f).SpillFree i := by
  rcases eq_or_ne j i with rfl | hj
  · have hself : (s.modTh j f).th j = f (s.th j) := State.th_setTh_of_ne_init s j (Thread.ne_init_of_run (hf rfl).1)
    rw [State.SpillFree, hself]
    exact hf rfl
  · have hother : (s.modTh j f).th i = s.th i := State.th_setTh_ne hj.symm
    rwa [State.SpillFree, hother]

theorem State.spareCheck_ths (s : State) (sh : Nat) : (s.spareCheck sh).ths = s.ths := by
  unfold State.spareCheck
  split <;> rfl

theorem State.candidate_ths (s : State) (e : Nat) : (s.candidate e).ths = s.ths := by
  unfold State.candidate
  dsimp only
  split
  · rfl
  · rw [State.spareCheck_ths]
    rfl

theorem State.loseTask_ths (s : State) (id : Nat) : (s.loseTask id).ths = s.ths := by
  unfold State.loseTask
  dsimp only
  split <;> rfl

theorem State.foldl_loseTask_ths (l : List Nat) (s : State) : (l.foldl State.loseTask s).ths = s.ths := by
  induction l generalizing s with
  | nil => rfl
  | cons id l ih => rw [List.foldl_cons, ih, State.loseTask_ths]

theorem State.hardFault_ths (s : State) : s.hardFault.ths = s.ths := by
  unfold State.hardFault
  dsimp only
  split <;> rfl

theorem State.SpillFree.dropCand {s : State} {i : Nat} (h : s.SpillFree i) (j : Nat) : (s.dropCand j).SpillFree i := by
  unfold State.dropCand
  split
  next c hq =>
    refine State.SpillFree.modTh (h.congr (u := s.setTask c _) rfl) j fun hj => ?_
    rw [hj, h.1] at hq
    cases hq
  next c hq =>
    refine State.SpillFree.modTh (h.congr (u := s.setTask c _) rfl) j fun hj => ?_
    rw [hj, h.1] at hq
    cases hq
  next => exact h

section
variable {s : State} {i : Nat} (h : s.SpillFree i)
include h

theorem State.SpillFree.wr (a : Nat) (v : W32) : (s.wr a v).SpillFree i := h.congr rfl

theorem State.SpillFree.setB (a k : Nat) : (s.setB a k).SpillFree i := h.congr rfl

theorem State.SpillFree.hardFault : s.hardFault.SpillFree i := h.congr s.hardFault_ths

theorem State.SpillFree.candidate (e : Nat) : (s.candidate e).SpillFree i := h.congr (s.candidate_ths e)

theorem State.SpillFree.foldl_loseTask (l : List Nat) : (l.foldl State.loseTask s).SpillFree i :=
  h.congr (State.foldl_loseTask_ths l s)

theorem State.SpillFree.foldl_dropCand (l : List Nat) : (l.foldl (fun s j => (s.dropCand j).modTh j fun t =>
    { t with fault := none, brEntry := none }) s).SpillFree i := by
  induction l generalizing s with
  | nil => exact h
  | cons j l ih => exact ih ((h.dropCand j).modTh j fun _ => h.dropCand j)

theorem State.SpillFree.lockup (e : Nat) (c : BitVec 8) (epc : Pc) (ds : Bool) (ring : Ring) (slot : Nat) :
    (s.lockup e c epc ds ring slot).SpillFree i := by
  unfold State.lockup
  split
  · exact h
  · exact (((((((h.setB _ _).setB _ _).wr _ _).wr _ _).hardFault).foldl_dropCand _).foldl_loseTask _).candidate e

end

/-- A fault that is no fault in READ leaves the slot without a transfer. -/
theorem State.SpillFree.raiseFault {s : State} {i : Nat} (h : s.SpillFree i) {f : FaultRec}
    (hf : f.cause ≠ 0x03 ∧ f.cause ≠ 0x04 ∧ f.cause ≠ 0x05 ∧ f.cause ≠ 0x06) : (s.raiseFault i f).SpillFree i := by
  have hread : s.readFault i f.cause = s := by
    unfold State.readFault
    rw [if_neg hf.1, if_neg (by simpa using hf.2)]
  unfold State.raiseFault
  dsimp only
  rw [hread]
  split
  · exact h.lockup _ _ _ _ _ _
  · exact h.modTh i fun _ => h

/-- A slot that waits for no transfer starts none. -/
theorem State.SpillFree.spillGo {s : State} {i : Nat} (h : s.SpillFree i) : s.spillGo i = s := by
  unfold State.spillGo
  dsimp only
  rw [h.2]

/-- The number of a block depends on its low bits alone. -/
theorem finOfNat_block (n : Nat) : Fin.ofNat 4 (n / 65536) = Fin.ofNat 4 (n / 65536 % 16) := by
  apply Fin.ext
  simp only [Fin.val_ofNat]
  omega

/-- The checks of SAVE and RESTORE (R115, R116). -/
def spillBad (ptr off k : Nat) : Prop :=
  4 ≤ k ∨ off % 64 ≠ 0 ∨ 65536 < off + blkBytes k ∨ spillRange (ptr * 65536 + off) (blkBytes k) = false

theorem State.trigFaults_save (s : State) (i : Nat) (c : Bank) (v : W64) (port slot : Nat) {g : Trig}
    (hg : g = .save ∨ g = .restore) :
    (spillBad c.spill.toNat (v.toNat % 65536) (v.toNat / 65536 % 16) → worst (s.trigFaults i c g v port slot) =
      some (flt 12 0x1A (BitVec.ofNat 64 (v.toNat % 2 ^ 20)) slot)) ∧
    (¬spillBad c.spill.toNat (v.toNat % 65536) (v.toNat / 65536 % 16) → s.trigFaults i c g v port slot = []) := by
  have heq : s.trigFaults i c g v port slot =
      if 3 < v.toNat / 65536 % 16 || v.toNat % 65536 % 64 ≠ 0 || 65536 < v.toNat % 65536 + blkBytes (v.toNat / 65536 % 16) ||
        !spillRange (c.spill.toNat * 65536 + v.toNat % 65536) (blkBytes (v.toNat / 65536 % 16))
      then [flt 12 0x1A (BitVec.ofNat 64 (v.toNat % 2 ^ 20)) slot] else [] := by
    rcases hg with rfl | rfl <;> rfl
  have hiff : (3 < v.toNat / 65536 % 16 || v.toNat % 65536 % 64 ≠ 0 ||
      65536 < v.toNat % 65536 + blkBytes (v.toNat / 65536 % 16) ||
        !spillRange (c.spill.toNat * 65536 + v.toNat % 65536) (blkBytes (v.toNat / 65536 % 16))) = true ↔
      spillBad c.spill.toNat (v.toNat % 65536) (v.toNat / 65536 % 16) := by
    simp only [spillBad, Bool.or_eq_true, decide_eq_true_eq, Bool.not_eq_true', Nat.succ_le_iff, or_assoc]
  rw [heq]
  exact ⟨fun h => by rw [if_pos (hiff.mpr h)]; rfl, fun h => if_neg fun h' => h (hiff.mp h')⟩

/-- SETPTR faults exactly on a value that is no multiple of 65,536 below 2^40 (R114). -/
theorem State.trigFaults_setptr (s : State) (i : Nat) (c : Bank) (v : W64) (port slot : Nat) :
    s.trigFaults i c .setptr v port slot =
      if v.toNat % 65536 ≠ 0 ∨ 2 ^ 40 ≤ v.toNat then [flt 9 0x17 v slot] else [] := by
  simp only [State.trigFaults, Bool.or_eq_true, decide_eq_true_eq]

/-- What the checks of XSAVE or XRESTORE find: XSP_INVALID before the spill fault (R129, R139, R141, R142). -/
theorem worst_xspFaults {legal : Prop} [Decidable legal] (fails : Nat) (x : W64) :
    worst ((if legal then [] else [flt 12 0x1A x 0]) ++ xspFlt fails 0) =
      if fails ≠ 0 then some (flt 11 0x19 (BitVec.ofNat 64 fails) 0) else if legal then none else some (flt 12 0x1A x 0) := by
  unfold xspFlt
  by_cases hf : fails = 0 <;> by_cases hl : legal <;> simp [hf, hl, worst, flt]

theorem State.trigFaults_xsave (s : State) (i : Nat) (c : Bank) (port : Nat) :
    s.trigFaults i c .xsave 0 port 0 =
      (if ((s.th i).sel = .shadow && !(s.th i).armed) = true then [] else [flt 12 0x1A 0 0]) ++
        xspFlt (s.xspFails i (some (s.th i).xsp.toNat)) 0 := rfl

theorem State.trigFaults_xrestore (s : State) (i : Nat) (c : Bank) (port : Nat) :
    s.trigFaults i c .xrestore 0 port 0 =
      (if ((s.th i).sel = .shadow && (s.th i).armed) = true then [] else [flt 12 0x1A 0 0]) ++
        xspFlt (s.xspFails i (xspBelow (s.th i).xsp)) 0 := rfl

section
variable {s : State} {t : Th} {g : Trig} {v : W64} (hc : s.canTrigger (thIx t))
include hc

/-- A fault of a spill trigger leaves no transfer to start. -/
theorem State.spillTrigger_faults (hcmp : ∀ op, g ≠ .cmp op 0) (hsig : g ≠ .signal)
    (hfree : (trigWait g).any (fun w => (s.atTrigger (thIx t)).holds (thIx t) w) = false) {f : Flt}
    (cause : BitVec 8) (hcause : f.fr.cause = cause) (hread : cause ≠ 0x03 ∧ cause ≠ 0x04 ∧ cause ≠ 0x05 ∧ cause ≠ 0x06)
    (hf : worst ((s.atTrigger (thIx t)).trigFaults (thIx t) ((s.atTrigger (thIx t)).cur (thIx t)) g v (trigPort g) 0) = some f) :
    (s.trigger t g v).spillGo (thIx t) = (s.atTrigger (thIx t)).raiseFault (thIx t) f.fr := by
  rw [State.trigger_faults hc hcmp (fun h => absurd h hsig) hfree hf]
  exact ((State.spillFree_of_canTrigger hc).raiseFault (hcause ▸ hread)).spillGo

/-- A spill trigger of a busy unit starts nothing. -/
theorem State.spillTrigger_waits (hw : (trigWait g).any (fun w => (s.atTrigger (thIx t)).holds (thIx t) w) = true) :
    (s.trigger t g v).spillGo (thIx t) = s.atTrigger (thIx t) := by
  rw [State.trigger_waits hc hw]
  exact (State.spillFree_of_canTrigger hc).spillGo

end

section
variable {s : State} {t : Th} (b : W64) (hc : s.canTrigger (thIx t))
  (hfree : (s.atTrigger (thIx t)).spillBusy (engOf (thIx t)) = false)
include hc hfree

theorem exec_setptr (h0 : b.toNat % 65536 = 0) (h1 : b.toNat < 2 ^ 40) :
    exec (.setptr t b) s = .next ((s.atTrigger (thIx t)).putBank (thIx t) ((s.atTrigger (thIx t)).th (thIx t)).sel
      { (s.atTrigger (thIx t)).cur (thIx t) with spill := BitVec.ofNat 24 (b.toNat / 65536) }) :=
  congrArg Host.Outcome.next (State.trigger_acts (g := .setptr) hc (fun _ => nofun) nofun hfree
    (by rw [State.trigFaults_setptr, if_neg (by omega)]))

theorem exec_setptr_fault (h : b.toNat % 65536 ≠ 0 ∨ 2 ^ 40 ≤ b.toNat) :
    exec (.setptr t b) s = .next ((s.atTrigger (thIx t)).raiseFault (thIx t) ⟨0x17, b, 0⟩) :=
  congrArg Host.Outcome.next (State.trigger_faults (g := .setptr) (f := flt 9 0x17 b 0) hc (fun _ => nofun) nofun hfree
    (by rw [State.trigFaults_setptr, if_pos h]; rfl))

theorem exec_setxsp :
    exec (.setxsp t b) s = .next ((s.atTrigger (thIx t)).setTh (thIx t)
      { (s.atTrigger (thIx t)).th (thIx t) with xsp := BitVec.ofNat 40 b.toNat }) :=
  congrArg Host.Outcome.next (State.trigger_acts (g := .setxsp) hc (fun _ => nofun) nofun hfree rfl)

/-- A SAVE or RESTORE whose checks pass starts its transfer (R117). -/
theorem exec_save
    (hok : ¬spillBad ((s.atTrigger (thIx t)).cur (thIx t)).spill.toNat (b.toNat % 65536) (b.toNat / 65536 % 16)) :
    let th := (s.atTrigger (thIx t)).th (thIx t)
    let a := ((s.atTrigger (thIx t)).cur (thIx t)).spill.toNat * 65536 + b.toNat % 65536
    let k : Fin 4 := Fin.ofNat 4 (b.toNat / 65536 % 16)
    exec (.save t b) s = .next (((s.atTrigger (thIx t)).setTh (thIx t)
      { th with spill := some ⟨.save k, th.sel, a⟩ }).spillGo (thIx t)) ∧
    exec (.restore t b) s = .next (((s.atTrigger (thIx t)).setTh (thIx t)
      { th with spill := some ⟨.restore k, th.sel, a⟩ }).spillGo (thIx t)) := by
  intro th a k
  have hk : Fin.ofNat 4 (b.toNat / 65536) = k := finOfNat_block b.toNat
  constructor
  · have h := State.trigger_acts (g := .save) hc (fun _ => nofun) nofun hfree
      ((State.trigFaults_save _ _ _ b _ _ (.inl rfl)).2 hok)
    rw [← hk]
    exact congrArg (fun u => Host.Outcome.next (State.spillGo u (thIx t))) h
  · have h := State.trigger_acts (g := .restore) hc (fun _ => nofun) nofun hfree
      ((State.trigFaults_save _ _ _ b _ _ (.inr rfl)).2 hok)
    rw [← hk]
    exact congrArg (fun u => Host.Outcome.next (State.spillGo u (thIx t))) h

theorem exec_save_fault
    (hbad : spillBad ((s.atTrigger (thIx t)).cur (thIx t)).spill.toNat (b.toNat % 65536) (b.toNat / 65536 % 16)) :
    let r := (s.atTrigger (thIx t)).raiseFault (thIx t) ⟨0x1A, BitVec.ofNat 64 (b.toNat % 2 ^ 20), 0⟩
    exec (.save t b) s = .next r ∧ exec (.restore t b) s = .next r :=
  ⟨congrArg Host.Outcome.next (State.spillTrigger_faults (g := .save) hc (fun _ => nofun) nofun hfree 0x1A rfl (by decide)
      ((State.trigFaults_save _ _ _ b _ _ (.inl rfl)).1 hbad)),
    congrArg Host.Outcome.next (State.spillTrigger_faults (g := .restore) hc (fun _ => nofun) nofun hfree 0x1A rfl (by decide)
      ((State.trigFaults_save _ _ _ b _ _ (.inr rfl)).1 hbad))⟩

end
section
variable {s : State} {t : Th} (hc : s.canTrigger (thIx t))
  (hfree : (s.atTrigger (thIx t)).spillBusy (engOf (thIx t)) = false)
include hc hfree

/-- XSAVE in the shadow bank unarmed starts its transfer when the checks of R139 hold (R141). -/
theorem exec_xsave (hsel : ((s.atTrigger (thIx t)).th (thIx t)).sel = .shadow)
    (harm : ((s.atTrigger (thIx t)).th (thIx t)).armed = false)
    (h0 : (s.atTrigger (thIx t)).xspFails (thIx t) (some ((s.atTrigger (thIx t)).th (thIx t)).xsp.toNat) = 0) :
    let th := (s.atTrigger (thIx t)).th (thIx t)
    exec (.xsave t) s = .next (((s.atTrigger (thIx t)).setTh (thIx t)
      { th with spill := some ⟨.xsave, .shadow, th.xsp.toNat⟩ }).spillGo (thIx t)) := by
  intro th
  have h := State.trigger_acts (g := .xsave) (v := 0) hc (fun _ => nofun) nofun hfree
    (by rw [State.trigFaults_xsave, h0, hsel, harm]; rfl)
  rw [← show th.sel = BankSel.shadow from hsel]
  exact congrArg (fun u => Host.Outcome.next (State.spillGo u (thIx t))) h

/-- A failed check of XSAVE is XSP_INVALID with the checks that failed (R139, R141). -/
theorem exec_xsave_invalid
    (h : (s.atTrigger (thIx t)).xspFails (thIx t) (some ((s.atTrigger (thIx t)).th (thIx t)).xsp.toNat) ≠ 0) :
    exec (.xsave t) s = .next ((s.atTrigger (thIx t)).raiseFault (thIx t) ⟨0x19, BitVec.ofNat 64
      ((s.atTrigger (thIx t)).xspFails (thIx t) (some ((s.atTrigger (thIx t)).th (thIx t)).xsp.toNat)), 0⟩) :=
  congrArg Host.Outcome.next (State.spillTrigger_faults (g := .xsave) hc (fun _ => nofun) nofun hfree 0x19 rfl (by decide)
    (by rw [State.trigFaults_xsave, worst_xspFaults, if_pos h]))

/-- XSAVE anywhere else is the spill fault (R141). -/
theorem exec_xsave_illegal
    (hbad : ((s.atTrigger (thIx t)).th (thIx t)).sel ≠ .shadow ∨ ((s.atTrigger (thIx t)).th (thIx t)).armed = true)
    (h0 : (s.atTrigger (thIx t)).xspFails (thIx t) (some ((s.atTrigger (thIx t)).th (thIx t)).xsp.toNat) = 0) :
    exec (.xsave t) s = .next ((s.atTrigger (thIx t)).raiseFault (thIx t) ⟨0x1A, 0, 0⟩) := by
  refine congrArg Host.Outcome.next (State.spillTrigger_faults (g := .xsave) (f := flt 12 0x1A 0 0) hc (fun _ => nofun) nofun
    hfree 0x1A rfl (by decide) ?_)
  rw [State.trigFaults_xsave, worst_xspFaults, if_neg (not_not.mpr h0), if_neg]
  rcases hbad with h | h <;> simp [h]

/-- XRESTORE in the shadow bank armed starts its transfer when the checks of R139 hold (R142). -/
theorem exec_xrestore (hsel : ((s.atTrigger (thIx t)).th (thIx t)).sel = .shadow)
    (harm : ((s.atTrigger (thIx t)).th (thIx t)).armed = true)
    (h0 : (s.atTrigger (thIx t)).xspFails (thIx t) (xspBelow ((s.atTrigger (thIx t)).th (thIx t)).xsp) = 0) :
    let th := (s.atTrigger (thIx t)).th (thIx t)
    exec (.xrestore t) s = .next (((s.atTrigger (thIx t)).setTh (thIx t)
      { th with spill := some ⟨.xrestore, .shadow, th.xsp.toNat - 512⟩ }).spillGo (thIx t)) := by
  intro th
  have h := State.trigger_acts (g := .xrestore) (v := 0) hc (fun _ => nofun) nofun hfree
    (by rw [State.trigFaults_xrestore, h0, hsel, harm]; rfl)
  rw [← show th.sel = BankSel.shadow from hsel]
  exact congrArg (fun u => Host.Outcome.next (State.spillGo u (thIx t))) h

theorem exec_xrestore_invalid
    (h : (s.atTrigger (thIx t)).xspFails (thIx t) (xspBelow ((s.atTrigger (thIx t)).th (thIx t)).xsp) ≠ 0) :
    exec (.xrestore t) s = .next ((s.atTrigger (thIx t)).raiseFault (thIx t) ⟨0x19, BitVec.ofNat 64
      ((s.atTrigger (thIx t)).xspFails (thIx t) (xspBelow ((s.atTrigger (thIx t)).th (thIx t)).xsp)), 0⟩) :=
  congrArg Host.Outcome.next (State.spillTrigger_faults (g := .xrestore) hc (fun _ => nofun) nofun hfree 0x19 rfl (by decide)
    (by rw [State.trigFaults_xrestore, worst_xspFaults, if_pos h]))

theorem exec_xrestore_illegal
    (hbad : ((s.atTrigger (thIx t)).th (thIx t)).sel ≠ .shadow ∨ ((s.atTrigger (thIx t)).th (thIx t)).armed = false)
    (h0 : (s.atTrigger (thIx t)).xspFails (thIx t) (xspBelow ((s.atTrigger (thIx t)).th (thIx t)).xsp) = 0) :
    exec (.xrestore t) s = .next ((s.atTrigger (thIx t)).raiseFault (thIx t) ⟨0x1A, 0, 0⟩) := by
  refine congrArg Host.Outcome.next (State.spillTrigger_faults (g := .xrestore) (f := flt 12 0x1A 0 0) hc (fun _ => nofun)
    nofun hfree 0x1A rfl (by decide) ?_)
  rw [State.trigFaults_xrestore, worst_xspFaults, if_neg (not_not.mpr h0), if_neg]
  rcases hbad with h | h <;> simp [h]

end

/-- A transfer in local scratch issues nothing (R117). -/
theorem State.spillGo_scratch {u : State} {j : Nat} {p : SpillRec} {o : Nat} (hp : (u.th j).spill = some p)
    (ho : regionOf p.addr = .scratch o) : u.spillGo j = u := by
  unfold State.spillGo
  dsimp only
  rw [hp]
  dsimp only
  rw [ho]

/-- A transfer outside scratch issues its beats once the store buffer is empty (R117, R355). -/
theorem State.spillGo_issues {u : State} {j : Nat} {p : SpillRec} (hp : (u.th j).spill = some p)
    (ho : ∀ o, regionOf p.addr ≠ .scratch o) (hst : (u.th j).stores = []) (hx : u.xferOf (.spill j) = none) :
    u.spillGo j = u.xferStart (.spill j) (engOf j / 9) j 32 true p.addr p.len
      (((u.th j).spillWords p).map fun l => l.flatMap fun v => natLe 8 v.toNat) := by
  unfold State.spillGo
  dsimp only
  rw [hp]
  dsimp only
  split
  next o h => exact absurd h (ho o)
  next => rw [hst, hx]; rfl

/-- Settles O17: the triggers of the free unit by their checks, of the busy unit, and the start of a transfer. -/
theorem spillTriggers : Obligations.SpillTriggers := by
  refine ⟨?_, ?_, fun u j p o hp ho => State.spillGo_scratch hp ho, fun u j p hp ho hst hx => State.spillGo_issues hp ho hst hx⟩
  · intro s t b i s0 th off k a saveFails backFails hc hfree
    refine ⟨exec_setptr b hc hfree, exec_setptr_fault b hc hfree, exec_setxsp b hc hfree, fun hk h64 hlen hr => ?_,
      exec_save_fault b hc hfree, exec_xsave hc hfree, exec_xsave_invalid hc hfree, exec_xsave_illegal hc hfree,
      fun hsel harm _ => exec_xrestore hc hfree hsel harm, exec_xrestore_invalid hc hfree, exec_xrestore_illegal hc hfree⟩
    refine exec_save b hc hfree ?_
    rintro (h | h | h | h)
    · exact absurd hk (Nat.not_lt.mpr h)
    · exact h h64
    · exact absurd hlen (Nat.not_le.mpr h)
    · exact Bool.false_ne_true (h.symm.trans hr)
  · intro s t b i s0 hc hbusy
    have hplain : ∀ g, trigWait g = some .spillBusy → s.trigger t g b = s0 := fun g hg =>
      State.trigger_waits hc (by rw [hg]; exact hbusy)
    have hxfer : ∀ g v, trigWait g = some .spillBusy → (s.trigger t g v).spillGo i = s0 := fun g v hg =>
      State.spillTrigger_waits hc (by rw [hg]; exact hbusy)
    exact ⟨congrArg Host.Outcome.next (hplain .setptr rfl), congrArg Host.Outcome.next (hplain .setxsp rfl),
      congrArg Host.Outcome.next (hxfer .save b rfl), congrArg Host.Outcome.next (hxfer .restore b rfl),
      congrArg Host.Outcome.next (hxfer .xsave 0 rfl), congrArg Host.Outcome.next (hxfer .xrestore 0 rfl)⟩

/- What loads and stores bring back -------------------------------------------------------------------------------------- -/

/-- Scratch addresses name scratch (R67). -/
theorem regionOf_scratch {a : Nat} (h : a < 0x40000) : regionOf a = .scratch a := by rw [regionOf, if_pos h]

theorem plainAddr_scratch {a : Nat} (h : a < 0x40000) : plainAddr a = a := by rw [plainAddr, regionOf_scratch h]

theorem overlapping_eq_nil {st : List StoreRec} {a n : Nat}
    (h : ∀ x ∈ st, plainAddr x.addr + stSize x.op ≤ a ∨ a + n ≤ plainAddr x.addr) : overlapping st a n = [] := by
  rw [overlapping, List.filter_eq_nil_iff]
  intro x hx
  have := h x (List.mem_reverse.mp hx)
  simp only [Bool.and_eq_true, decide_eq_true_eq]
  omega

/-- A load of local scratch that no buffered store overlaps reads the bytes there (R73, R96, R342). -/
theorem State.loadState_scratch (s : State) (e : Nat) {a n : Nat} {st : List StoreRec} (ha : a + n ≤ 0x40000) (hn : 0 < n)
    (h : ∀ x ∈ st, plainAddr x.addr + stSize x.op ≤ a ∨ a + n ≤ plainAddr x.addr) :
    s.loadState e st a n = .scratch (s.bytes (scratchKey e a) n) := by
  have hlt : a < 0x40000 := by omega
  have hwin : isWindow a = false := by rw [isWindow_eq, regionOf_scratch hlt]; rfl
  unfold State.loadState
  rw [hwin, if_neg Bool.false_ne_true, plainAddr_scratch hlt, overlapping_eq_nil h, regionOf_scratch hlt]

/-- The oldest load that is back is delivered (R98). -/
theorem exec_loadResult {s : State} {t : Th} {l : LoadRec} {rest : List LoadRec} (ecc : Ecc) (hs : s.sleeping = false)
    (hl : (s.th (thIx t)).loads = l :: rest) (hb : l.back = true) :
    exec (.loadResult t ecc) s =
      let s1 := s.setTh (thIx t) { s.th (thIx t) with loads := rest }
      .next ((s1.loadData (thIx t) l ecc).1.loadLand (thIx t) l (s1.loadData (thIx t) l ecc).2).clearWaits := by
  change Host.Outcome.next (s.awakeDo _) = _
  rw [State.awakeDo, hs, if_neg Bool.false_ne_true, State.loadDone, hl, takeLoad, if_pos hb]
  rfl

section
variable {u : State} {i : Nat} {l : LoadRec} (hlock : u.locked (engOf i) = false)
include hlock

/-- A good result of the newest load: the latch, and no error mark (R98, R99). -/
theorem State.loadLand_ok (v : W64) (hold : l.old = false) :
    let b := u.bankOf i l.sel
    u.loadLand i l (.ok v) = (if b.ldErr.isSome then u.setB (aEng (engOf i) 0x2C) 1 else u).putBank i l.sel
      { b with latch := b.latch.set 16 v, ldErr := none } := by
  unfold State.loadLand
  dsimp only
  rw [hlock, if_neg Bool.false_ne_true, hold, if_neg Bool.false_ne_true]

/-- An error of the newest load marks the latch (R71, R98). -/
theorem State.loadLand_error (c : BitVec 8) (hsel : l.sel ≠ .brace) (hold : l.old = false) :
    let b := u.bankOf i l.sel
    u.loadLand i l (.error c) = (if b.ldErr.isSome then u.setB (aEng (engOf i) 0x2C) 1 else u).used.putBank i l.sel
      { b with latch := b.latch.set 16 u.free, ldErr := some (c, BitVec.ofNat 64 l.addr) } := by
  unfold State.loadLand
  dsimp only
  rw [hlock, if_neg Bool.false_ne_true, if_neg hsel, hold, if_neg Bool.false_ne_true]

/-- An error that a newer load of the bank replaces is lost (R98, R99). -/
theorem State.loadLand_error_old (c : BitVec 8) (hsel : l.sel ≠ .brace) (hold : l.old = true) :
    u.loadLand i l (.error c) = u.setB (aEng (engOf i) 0x2C) 1 := by
  unfold State.loadLand
  dsimp only
  rw [hlock, if_neg Bool.false_ne_true, if_neg hsel, hold, if_pos rfl]

/-- An error of a load of the brace handler locks the engine up (R148). -/
theorem State.loadLand_error_brace (c : BitVec 8) (hsel : l.sel = .brace) :
    u.loadLand i l (.error c) =
      u.lockup (engOf i) c (u.th i).pc (u.th i).ds (u.th i).ring (slotOf i) := by
  unfold State.loadLand
  dsimp only
  rw [hlock, if_neg Bool.false_ne_true, if_pos hsel]

end

/-- The data of a load of scratch without a corrected error (R342). -/
theorem State.loadData_scratch (u : State) (i : Nat) {l : LoadRec} {d : Nat} {ecc : Ecc} (hst : l.st = .scratch d)
    (hce : ecc.ce = 0) :
    u.loadData i l ecc = (u, if ecc.ue then .error 0x06 else .ok (ldExtend l.op d)) := by
  unfold State.loadData
  rw [hst, hce]
  dsimp only [State.scratchCe]
  cases ecc.ue <;> rfl

theorem State.loadData_err (u : State) (i : Nat) {l : LoadRec} {c : BitVec 8} (ecc : Ecc) (hst : l.st = .err c) :
    u.loadData i l ecc = (u, .error c) := by
  unfold State.loadData
  rw [hst]

/- The waits that clear ----------------------------------------------------------------------------------------------- -/

/-- Threads in canonical form, of which some no longer wait: nothing else differs. -/
def WaitFrame (s t : State) : Prop :=
  t = { s with ths := t.ths } ∧ (spOk (fun _ => Thread.init) s.ths = true → spOk (fun _ => Thread.init) t.ths = true ∧
    ∀ i, t.th i = { s.th i with wait := (t.th i).wait })

theorem WaitFrame.refl (s : State) : WaitFrame s s := ⟨rfl, fun h => ⟨h, fun _ => rfl⟩⟩

theorem WaitFrame.trans {s t u : State} (h₁ : WaitFrame s t) (h₂ : WaitFrame t u) : WaitFrame s u := by
  obtain ⟨e₁, f₁⟩ := h₁
  obtain ⟨e₂, f₂⟩ := h₂
  refine ⟨by rw [e₂, e₁], fun h => ⟨(f₂ (f₁ h).1).1, fun i => ?_⟩⟩
  rw [(f₂ (f₁ h).1).2 i, (f₁ h).2 i]

theorem State.clearWait_frame (s : State) (j : Nat) : WaitFrame s (s.modTh j fun t => { t with wait := none }) := by
  refine ⟨rfl, fun h => ⟨spOk_spSet h _ _, fun i => ?_⟩⟩
  rcases eq_or_ne i j with rfl | hij
  · rw [State.modTh, State.th_setTh_self h]
  · rw [State.modTh, State.th_setTh_ne hij]

theorem State.foldl_clearWait_frame (l : List (Nat × Thread)) (s : State) :
    WaitFrame s (l.foldl (fun s p => s.modTh p.1 fun t => { t with wait := none }) s) := by
  induction l generalizing s with
  | nil => exact .refl s
  | cons p l ih => exact (s.clearWait_frame p.1).trans (ih _)

theorem State.clearWaits_frame (s : State) : WaitFrame s s.clearWaits := State.foldl_clearWait_frame _ s

section
variable (s : State)

@[simp] theorem State.clearWaits_mem : s.clearWaits.mem = s.mem := (congrArg State.mem s.clearWaits_frame.1).trans rfl
@[simp] theorem State.clearWaits_regs : s.clearWaits.regs = s.regs := (congrArg State.regs s.clearWaits_frame.1).trans rfl
@[simp] theorem State.clearWaits_engs : s.clearWaits.engs = s.engs := (congrArg State.engs s.clearWaits_frame.1).trans rfl
@[simp] theorem State.clearWaits_tasks : s.clearWaits.tasks = s.tasks := (congrArg State.tasks s.clearWaits_frame.1).trans rfl

end

/- Drained stores --------------------------------------------------------------------------------------------------------- -/

/-- Bytes written touch memory alone. -/
theorem State.setBytes_eq (s : State) (a n v : Nat) : s.setBytes a n v = { s with mem := (s.setBytes a n v).mem } := by
  induction n generalizing s a v with
  | zero => rfl
  | succ n ih =>
    have hstep : s.setBytes a (n + 1) v = (s.setByte a (BitVec.ofNat 8 v)).setBytes (a + 1) n (v / 256) := rfl
    rw [hstep, ih]
    rfl

section
variable (s : State) (a n v : Nat)

@[simp] theorem State.setBytes_ths : (s.setBytes a n v).ths = s.ths := (congrArg State.ths (s.setBytes_eq a n v)).trans rfl
@[simp] theorem State.setBytes_regs : (s.setBytes a n v).regs = s.regs := (congrArg State.regs (s.setBytes_eq a n v)).trans rfl
@[simp] theorem State.setBytes_engs : (s.setBytes a n v).engs = s.engs := (congrArg State.engs (s.setBytes_eq a n v)).trans rfl
@[simp] theorem State.setBytes_tasks : (s.setBytes a n v).tasks = s.tasks := (congrArg State.tasks (s.setBytes_eq a n v)).trans rfl

end

/-- Bytes written are read back (R72). -/
theorem State.bytes_setBytes_self {s : State} (h : Memory.wf s.mem = true) (a n v : Nat) :
    (s.setBytes a n v).bytes a n = v % 256 ^ n := by
  induction n generalizing s a v with
  | zero => rw [Nat.pow_zero, Nat.mod_one]; rfl
  | succ n ih =>
    have hstep : s.setBytes a (n + 1) v = (s.setByte a (BitVec.ofNat 8 v)).setBytes (a + 1) n (v / 256) := rfl
    rw [hstep, State.bytes, ih (State.setByte_wf h a _), State.byte_setBytes_frame (Or.inl (Nat.lt_succ_self a)),
      State.byte_setByte_self h, BitVec.toNat_ofNat, show 256 ^ (n + 1) = 256 * 256 ^ n from Nat.pow_succ', Nat.mod_mul]

theorem State.byte_congr {s u : State} (h : u.mem = s.mem) (a : Nat) : u.byte a = s.byte a := by
  rw [State.byte, h]
  rfl

/-- The bytes of memory depend on memory alone. -/
theorem State.bytes_congr {s u : State} (h : u.mem = s.mem) (a n : Nat) : u.bytes a n = s.bytes a n := by
  induction n generalizing a with
  | zero => rfl
  | succ n ih => rw [State.bytes, State.bytes, ih, State.byte_congr h]

/-- No load of slot `i` is under way and no transfer of its spill unit. -/
def State.MemIdle (s : State) (i : Nat) : Prop :=
  spOk (fun _ => Thread.init) s.ths = true ∧ (s.th i).loads = [] ∧ (s.th i).spill = none

theorem State.MemIdle.congr {s u : State} {i : Nat} (h : s.MemIdle i) (hths : u.ths = s.ths) : u.MemIdle i := by
  have hth := State.th_congr hths i
  rwa [State.MemIdle, hth, hths]

theorem State.MemIdle.setTh {s : State} {i : Nat} (h : s.MemIdle i) (j : Nat) {x : Thread}
    (hx : j = i → x.loads = [] ∧ x.spill = none) : (s.setTh j x).MemIdle i := by
  refine ⟨spOk_spSet h.1 _ _, ?_⟩
  rcases eq_or_ne j i with rfl | hj
  · rw [State.th_setTh_self h.1]
    exact hx rfl
  · rw [State.th_setTh_ne hj.symm]
    exact h.2

section
variable {s : State} {i : Nat} (h : s.MemIdle i)
include h

/-- An update of a thread that keeps its loads and its transfer. -/
theorem State.MemIdle.modTh (j : Nat) {f : Thread → Thread} (hf : ∀ x, (f x).loads = x.loads ∧ (f x).spill = x.spill) :
    (s.modTh j f).MemIdle i :=
  h.setTh j fun hj => by subst hj; exact ⟨(hf _).1.trans h.2.1, (hf _).2.trans h.2.2⟩

theorem State.MemIdle.dropCand (j : Nat) : (s.dropCand j).MemIdle i := by
  unfold State.dropCand
  split
  next c _ => exact State.MemIdle.modTh (h.congr (u := s.setTask c _) rfl) j fun _ => ⟨rfl, rfl⟩
  next c _ => exact State.MemIdle.modTh (h.congr (u := s.setTask c _) rfl) j fun _ => ⟨rfl, rfl⟩
  next => exact h

theorem State.MemIdle.foldl_dropCand (l : List Nat) : (l.foldl (fun s j => (s.dropCand j).modTh j fun t =>
    { t with fault := none, brEntry := none }) s).MemIdle i := by
  induction l generalizing s with
  | nil => exact h
  | cons j l ih => exact ih ((h.dropCand j).modTh j fun _ => ⟨rfl, rfl⟩)

theorem State.MemIdle.wr (a : Nat) (v : W32) : (s.wr a v).MemIdle i := h.congr rfl

theorem State.MemIdle.setB (a k : Nat) : (s.setB a k).MemIdle i := h.congr rfl

theorem State.MemIdle.hardFault : s.hardFault.MemIdle i := h.congr s.hardFault_ths

theorem State.MemIdle.candidate (e : Nat) : (s.candidate e).MemIdle i := h.congr (s.candidate_ths e)

theorem State.MemIdle.foldl_loseTask (l : List Nat) : (l.foldl State.loseTask s).MemIdle i :=
  h.congr (State.foldl_loseTask_ths l s)

theorem State.MemIdle.lockup (e : Nat) (c : BitVec 8) (epc : Pc) (ds : Bool) (ring : Ring) (slot : Nat) :
    (s.lockup e c epc ds ring slot).MemIdle i := by
  unfold State.lockup
  split
  · exact h
  · exact (((((((h.setB _ _).setB _ _).wr _ _).wr _ _).hardFault).foldl_dropCand _).foldl_loseTask _).candidate e

theorem State.MemIdle.signalWake (j : Nat) : (s.signalWake j).MemIdle i := by
  unfold State.signalWake
  dsimp only
  split
  · exact State.MemIdle.modTh (h.congr (u := s.setTask _ _) rfl) j fun _ => ⟨rfl, rfl⟩
  · exact h

theorem State.MemIdle.setTask (k : Nat) (v : TaskRec) : (s.setTask k v).MemIdle i := h.congr rfl

theorem State.MemIdle.bump (a n : Nat) : (s.bump a n).MemIdle i := h.congr rfl

theorem State.MemIdle.abandon (j : Nat) : (s.abandon j).MemIdle i := by
  have hrun : ((s.modTh j fun th => { th with phase := .run }).bump (aGrn 0x48) 1).MemIdle i := by
    refine State.MemIdle.bump (State.MemIdle.modTh h j ?_) _ _
    exact fun _ => ⟨rfl, rfl⟩
  unfold State.abandon
  split
  next c _ =>
    cases c with
    | none => exact hrun
    | some c => exact hrun.setTask c _
  next => exact h

theorem State.MemIdle.raiseSignal (c : BitVec 8) (x : W64) : (s.raiseSignal i c x).MemIdle i := by
  have hset : (s.setTh i { s.th i with sigs := (s.th i).sigs ++ [(c, x)] }).MemIdle i := h.setTh i fun _ => h.2
  unfold State.raiseSignal
  dsimp only
  split
  · exact h.setB _ _
  · split
    · exact hset.signalWake i
    · exact (hset.signalWake i).abandon i

theorem State.MemIdle.spillGo : s.spillGo i = s := by
  unfold State.spillGo
  dsimp only
  rw [h.2.2]

end

/-- A drained store of a thread with no load and no transfer under way (R72, R75). -/
theorem exec_storeDrain {s : State} {t : Th} {x : StoreRec} {rest : List StoreRec} (hs : s.sleeping = false)
    (hst : (s.th (thIx t)).stores = x :: rest) (hb : x.back = true) {u : State}
    (hu : (s.setTh (thIx t) { s.th (thIx t) with stores := rest }).drainOne (thIx t) x = u) (hidle : u.MemIdle (thIx t)) :
    exec (.storeDrain t) s = .next u.clearWaits := by
  change Host.Outcome.next (s.awakeDo _) = _
  rw [State.awakeDo, hs, if_neg Bool.false_ne_true, State.storeDone, hst, takeStore, if_pos hb]
  change Host.Outcome.next ((State.startLoads (State.drainOne _ _ _) _ _).spillGo _).clearWaits = _
  rw [State.modTh, hu, hidle.2.1]
  exact congrArg (fun v => Host.Outcome.next (State.clearWaits v)) hidle.spillGo

section
variable {u : State} {i k : Nat} (hlock : u.locked (engOf i) = false)
include hlock

/-- A refused store of a task that is still resident raises its signal (R75). -/
theorem State.storeError_signal {brace : Bool} (hb : brace = false) (hres : (u.th i).resident = true) (hk : (u.th i).task = k)
    (c : BitVec 8) (a : Nat) : u.storeError i k brace c a = u.raiseSignal i c (BitVec.ofNat 64 a) := by
  unfold State.storeError
  dsimp only
  rw [hlock, if_neg Bool.false_ne_true, hb, if_neg Bool.false_ne_true, if_pos (by simp [hres, hk])]

/-- A refused store of a task that has left raises nothing (R75). -/
theorem State.storeError_gone {brace : Bool} (hb : brace = false) (hgone : (u.th i).resident = false ∨ (u.th i).task ≠ k)
    (c : BitVec 8) (a : Nat) : u.storeError i k brace c a = u := by
  unfold State.storeError
  dsimp only
  rw [hlock, if_neg Bool.false_ne_true, hb, if_neg Bool.false_ne_true, if_neg]
  rcases hgone with h | h <;> simp [h]

/-- A refused store of the brace handler locks the engine up (R148). -/
theorem State.storeError_brace (c : BitVec 8) (a : Nat) :
    u.storeError i k true c a = u.lockup (engOf i) c (u.th i).pc (u.th i).ds (u.th i).ring (slotOf i) := by
  unfold State.storeError
  dsimp only
  rw [hlock, if_neg Bool.false_ne_true, if_pos rfl]

end

/-- Settles O15: a load of scratch reads, its result lands, and a held store writes its bytes when it drains. -/
theorem scratchLoadAndStore : Obligations.ScratchLoadAndStore := by
  refine ⟨fun s e a n st ha hn h => State.loadState_scratch s e ha hn h, ?_, ?_⟩
  · intro s t l rest d ecc i s1 b s2 hs hlock hl hst hold hce
    have hex := exec_loadResult ecc hs hl (by rw [LoadRec.back, hst])
    dsimp only at hex
    rw [State.loadData_scratch s1 i hst hce] at hex
    refine ⟨fun hue => ?_, fun hue hsel => ?_, fun hue hsel => ?_⟩
    · rw [hue, if_neg Bool.false_ne_true] at hex
      rw [hex, State.loadLand_ok (u := s1) hlock _ hold]
    · rw [hue, if_pos rfl] at hex
      rw [hex, State.loadLand_error (u := s1) hlock _ hsel hold]
      cases hb : b.ldErr.isSome <;> simp only [s2, hb, if_true, if_false, Bool.false_eq_true] <;> rfl
    · rw [hue, if_pos rfl] at hex
      rw [hex, State.loadLand_error_brace (u := s1) hlock _ hsel]
  · intro s t x rest i k hs hst hheld hloads hspill hinv
    have hself : ∀ y, (s.setTh i y).th i = y := State.th_setTh_self hinv.ths i
    have hdrain : (s.setTh i { s.th i with stores := rest }).drainOne i x =
        (s.setTh i { s.th i with stores := rest }).setBytes k (stSize x.op) x.data.toNat := by rw [State.drainOne, hheld]
    have hidle : State.MemIdle ((s.setTh i { s.th i with stores := rest }).setBytes k (stSize x.op) x.data.toNat) i := by
      exact State.MemIdle.congr (s := s.setTh i { s.th i with stores := rest })
        ⟨spOk_spSet hinv.ths _ _, by rw [hself]; exact hloads, by rw [hself]; exact hspill⟩ (State.setBytes_ths _ _ _ _)
    refine ⟨_, exec_storeDrain hs hst (by rw [StoreRec.back, hheld]) hdrain hidle, ?_, fun a ha => ?_, ?_, ?_, ?_, ?_⟩
    · rw [State.bytes_congr (State.clearWaits_mem _)]
      exact State.bytes_setBytes_self (s := s.setTh i { s.th i with stores := rest }) hinv.mem _ _ _
    · rw [State.byte_congr (State.clearWaits_mem _), State.byte_setBytes_frame ha]
      rfl
    · rw [State.clearWaits_regs, State.setBytes_regs]
      rfl
    · rw [((State.clearWaits_frame _).2 hidle.1).2 i, State.th_congr (State.setBytes_ths _ _ _ _), hself]
    · rw [State.clearWaits_engs, State.setBytes_engs]
      rfl
    · rw [State.clearWaits_tasks, State.setBytes_tasks]
      rfl

/-- Settles O16: error results mark, are lost or lock the engine up; a refused store raises its signal. -/
theorem memoryErrors : Obligations.MemoryErrors := by
  constructor
  · intro s t l rest c ecc i s1 b lost hs hlock hl hst
    have hex := exec_loadResult ecc hs hl (by rw [LoadRec.back, hst])
    dsimp only at hex
    rw [State.loadData_err s1 i ecc hst] at hex
    refine ⟨fun hsel hold => ?_, fun hsel hold => ?_, fun hsel => ?_⟩
    · rw [hex, State.loadLand_error_old (u := s1) hlock _ hsel hold]
    · rw [hex, State.loadLand_error (u := s1) hlock _ hsel hold]
      rfl
    · rw [hex, State.loadLand_error_brace (u := s1) hlock _ hsel]
  · intro s t x rest c i s1 hinv hs hlock hst herr hloads hspill
    have hself : s1.th i = { s.th i with stores := rest } := State.th_setTh_self hinv.ths i _
    have hidle : s1.MemIdle i :=
      ⟨spOk_spSet hinv.ths _ _, by rw [hself]; exact hloads, by rw [hself]; exact hspill⟩
    have hback : x.back = true := by rw [StoreRec.back, herr]
    have hlock1 : s1.locked (engOf i) = false := hlock
    have hdrain : s1.drainOne i x = s1.storeError i x.task (x.sel == .brace) c x.addr := by rw [State.drainOne, herr]
    have hex := fun u (hu : s1.drainOne i x = u) => exec_storeDrain hs hst hback hu
    refine ⟨fun hsel hres htask => hex _ ?_ (hidle.raiseSignal c _), fun hsel hres => hex _ ?_ hidle,
      fun hsel => hex _ ?_ (hidle.lockup _ _ _ _ _ _)⟩
    · exact hdrain.trans (State.storeError_signal hlock1 (beq_eq_false_iff_ne.mpr hsel)
        (by rw [hself]; exact hres) (by rw [hself]; exact htask) c _)
    · exact hdrain.trans (State.storeError_gone hlock1 (beq_eq_false_iff_ne.mpr hsel) (by rw [hself]; exact hres) c _)
    · rw [hdrain, beq_iff_eq.mpr hsel, State.storeError_brace hlock1, hself]

end Sys2Proof.Machine
end

section
/-!
SUPPORT. Threads and banks after an update, what a trigger's state shares with the state before it, and the proofs of the statements
about jumps, gates, returns from exceptions and streams.
-/

namespace Sys2Proof.Machine

open Sys2Proof

/- The state in which a trigger acts ------------------------------------------------------------------------- -/

/-- Only threads, engines and registers differ. -/
def EngFrame (s t : State) : Prop := t = { s with ths := t.ths, engs := t.engs, regs := t.regs }

theorem EngFrame.trans {s t u : State} (h₁ : EngFrame s t) (h₂ : EngFrame t u) : EngFrame s u := by
  unfold EngFrame at *
  rw [h₂, h₁]

theorem State.putBank_engFrame (s : State) (i : Nat) (sel : BankSel) (b : Bank) : EngFrame s (s.putBank i sel b) := by
  cases sel <;> rfl

theorem State.land_engFrame (s : State) (i : Nat) (o : RunOp) : EngFrame s (s.land i o) := by
  unfold State.land
  split
  · rfl
  · refine EngFrame.trans ?_ (State.putBank_engFrame _ _ _ _)
    split <;> rfl
  · exact State.putBank_engFrame _ _ _ _

theorem State.foldl_land_engFrame (i : Nat) (l : List RunOp) (s : State) : EngFrame s (l.foldl (fun s o => s.land i o) s) := by
  induction l generalizing s with
  | nil => rfl
  | cons o l ih => exact (s.land_engFrame i o).trans (ih _)

theorem State.landShort_engFrame (s : State) (i : Nat) : EngFrame s (s.landShort i) := by
  have hmod : ∀ f, EngFrame s (s.modTh i f) := fun _ => rfl
  unfold State.landShort
  dsimp only
  split
  · exact hmod _
  · exact (hmod _).trans (State.foldl_land_engFrame i _ _)

section
variable (s : State) (i : Nat)

@[simp] theorem State.landShort_mem : (s.landShort i).mem = s.mem := (congrArg State.mem (s.landShort_engFrame i)).trans rfl
@[simp] theorem State.landShort_sleeping : (s.landShort i).sleeping = s.sleeping :=
  (congrArg State.sleeping (s.landShort_engFrame i)).trans rfl
@[simp] theorem State.landShort_tasks : (s.landShort i).tasks = s.tasks :=
  (congrArg State.tasks (s.landShort_engFrame i)).trans rfl

@[simp] theorem State.firstFetch_mem : (s.firstFetch i).mem = s.mem := by
  unfold State.firstFetch
  dsimp only
  split <;> rfl

@[simp] theorem State.firstFetch_ths : (s.firstFetch i).ths = s.ths := by
  unfold State.firstFetch
  dsimp only
  split <;> rfl

@[simp] theorem State.atTrigger_mem : (s.atTrigger i).mem = s.mem := by
  rw [State.atTrigger, State.firstFetch_mem, State.landShort_mem]

end

/-- The state in which a trigger acts keeps the canonical forms. -/
theorem State.Inv.atTrigger {s : State} (h : s.Inv) (i : Nat) : (s.atTrigger i).Inv :=
  (State.firstFetch_keeps (State.landShort_keeps (.refl s) i) i).inv h

theorem State.Inv.landShort {s : State} (h : s.Inv) (i : Nat) : (s.landShort i).Inv :=
  (State.landShort_keeps (.refl s) i).inv h

/- Threads and banks ------------------------------------------------------------------------------------------- -/

/-- The thread with another bank; the bank of the brace handler is the engine's. -/
def Thread.withBank (t : Thread) (sel : BankSel) (b : Bank) : Thread :=
  match sel with
  | .normal => { t with normal := b }
  | .shadow => { t with shadow := b }
  | .brace => t

section
variable (t : Thread) (sel : BankSel) (b : Bank)

theorem Thread.withBank_eq : t.withBank sel b =
    { t with normal := (t.withBank sel b).normal, shadow := (t.withBank sel b).shadow } := by cases sel <;> rfl

@[simp] theorem Thread.withBank_phase : (t.withBank sel b).phase = t.phase := by cases sel <;> rfl
@[simp] theorem Thread.withBank_task : (t.withBank sel b).task = t.task := by cases sel <;> rfl
@[simp] theorem Thread.withBank_sel : (t.withBank sel b).sel = t.sel := by cases sel <;> rfl
@[simp] theorem Thread.withBank_pc : (t.withBank sel b).pc = t.pc := by cases sel <;> rfl
@[simp] theorem Thread.withBank_npc : (t.withBank sel b).npc = t.npc := by cases sel <;> rfl
@[simp] theorem Thread.withBank_ds : (t.withBank sel b).ds = t.ds := by cases sel <;> rfl
@[simp] theorem Thread.withBank_ring : (t.withBank sel b).ring = t.ring := by cases sel <;> rfl
@[simp] theorem Thread.withBank_stack : (t.withBank sel b).stack = t.stack := by cases sel <;> rfl
@[simp] theorem Thread.withBank_ops : (t.withBank sel b).ops = t.ops := by cases sel <;> rfl
@[simp] theorem Thread.withBank_pulls : (t.withBank sel b).pulls = t.pulls := by cases sel <;> rfl

end

section
variable {s : State} (h : s.Inv)
include h

theorem State.th_modTh_self (i : Nat) (f : Thread → Thread) : (s.modTh i f).th i = f (s.th i) :=
  State.th_setTh_self h.ths i _

theorem State.Inv.setTh (i : Nat) (t : Thread) : (s.setTh i t).Inv := (State.setTh_keeps (.refl s) i t).inv h

theorem State.Inv.modTh (i : Nat) (f : Thread → Thread) : (s.modTh i f).Inv := h.setTh i _

theorem State.Inv.putBank (i : Nat) (sel : BankSel) (b : Bank) : (s.putBank i sel b).Inv :=
  (State.putBank_keeps (.refl s) i sel b).inv h

theorem State.th_putBank (i : Nat) (sel : BankSel) (b : Bank) : (s.putBank i sel b).th i = (s.th i).withBank sel b := by
  cases sel with
  | normal => exact State.th_modTh_self h i _
  | shadow => exact State.th_modTh_self h i _
  | brace => rfl

theorem State.eng_setEng_self (e : Nat) (g : EngSt) : (s.setEng e g).eng e = g := spGet_spSet_self h.engs _ _

/-- A bank written is read back, and the others keep their contents. -/
theorem State.bankOf_putBank (i : Nat) (sel other : BankSel) (b : Bank) :
    (s.putBank i sel b).bankOf i other = if other = sel then b else s.bankOf i other := by
  have hth := State.th_putBank h i sel b
  cases sel <;> cases other <;> simp only [State.bankOf, hth, Thread.withBank, reduceCtorEq, if_true, if_false]
  · rfl
  · rfl
  · exact congrArg EngSt.brace (State.eng_setEng_self h _ _)

/-- An update of a thread that leaves its banks alone. -/
theorem State.bankOf_modTh (i : Nat) {f : Thread → Thread} (hn : (f (s.th i)).normal = (s.th i).normal)
    (hs : (f (s.th i)).shadow = (s.th i).shadow) (sel : BankSel) : (s.modTh i f).bankOf i sel = s.bankOf i sel := by
  have hth := State.th_modTh_self h i f
  cases sel with
  | normal => simp only [State.bankOf, hth, hn]
  | shadow => simp only [State.bankOf, hth, hs]
  | brace => rfl

theorem State.cur_modTh (i : Nat) {f : Thread → Thread} (hn : (f (s.th i)).normal = (s.th i).normal)
    (hs : (f (s.th i)).shadow = (s.th i).shadow) (hsel : (f (s.th i)).sel = (s.th i).sel) : (s.modTh i f).cur i = s.cur i := by
  rw [State.cur, State.th_modTh_self h, hsel, State.bankOf_modTh h i hn hs]
  rfl

end

section
variable (s : State) (i : Nat) (sel : BankSel) (b : Bank)

@[simp] theorem State.putBank_mem : (s.putBank i sel b).mem = s.mem := by cases sel <;> rfl
@[simp] theorem State.putBank_regs : (s.putBank i sel b).regs = s.regs := by cases sel <;> rfl
@[simp] theorem State.putBank_tasks : (s.putBank i sel b).tasks = s.tasks := by cases sel <;> rfl
@[simp] theorem State.putBank_chans : (s.putBank i sel b).chans = s.chans := by cases sel <;> rfl
@[simp] theorem State.putBank_thr : (s.putBank i sel b).thr = s.thr := by cases sel <;> rfl
@[simp] theorem State.putBank_eclk : (s.putBank i sel b).eclk = s.eclk := by cases sel <;> rfl

theorem State.th_putBank_ne {j : Nat} (h : j ≠ i) : (s.putBank i sel b).th j = s.th j := by
  cases sel with
  | normal => exact State.th_setTh_ne h
  | shadow => exact State.th_setTh_ne h
  | brace => rfl

end

/-- A field of a word read as a bit vector. -/
theorem ofNat_field (v : W32) (lo w : Nat) : BitVec.ofNat w (field v lo w) = BitVec.ofNat w (v.toNat / 2 ^ lo) := by
  apply BitVec.eq_of_toNat_eq
  rw [field, BitVec.toNat_ofNat, BitVec.toNat_ofNat, Nat.mod_mod]

/- Jumps, calls and loops ------------------------------------------------------------------------------------- -/

/-- A return pushed on the shadow stack and into the link register (R125). -/
theorem State.pushRet_spec {s : State} (h : s.Inv) (i : Nat) (r : Ret) :
    (s.pushRet i r).th i = { (s.th i).withBank (s.th i).sel { s.cur i with link := r } with stack := r :: (s.th i).stack } ∧
      (s.pushRet i r).cur i = { s.cur i with link := r } ∧ (s.pushRet i r).mem = s.mem ∧ (s.pushRet i r).regs = s.regs ∧
      (s.pushRet i r).Inv := by
  have hput := h.putBank i (s.th i).sel { s.cur i with link := r }
  have hth : (s.pushRet i r).th i =
      { (s.th i).withBank (s.th i).sel { s.cur i with link := r } with stack := r :: (s.th i).stack } := by
    rw [State.pushRet, State.th_modTh_self hput, State.th_putBank h, Thread.withBank_stack]
  refine ⟨hth, ?_, ?_, ?_, hput.modTh i fun t => { t with stack := r :: t.stack }⟩
  · rw [State.cur, hth]
    refine (State.bankOf_modTh hput i rfl rfl _).trans ?_
    rw [State.bankOf_putBank h]
    exact if_pos (Thread.withBank_sel _ _ _)
  · exact State.putBank_mem _ _ _ _
  · exact State.putBank_regs _ _ _ _

/-- The target of a jump or call (R101). -/
def jumpTarget (rel : Bool) (pc : Pc) (b : W64) : Pc := (if rel then pc else 0) + BitVec.ofNat 17 b.toNat

theorem State.trigFaults_call (s : State) (i : Nat) (c : Bank) (rel : Bool) (v : W64) (port slot : Nat) :
    s.trigFaults i c (.call rel) v port slot = if 32 ≤ (s.th i).stack.length then [flt 6 0x14 0 slot] else [] := rfl

section
variable {s : State} {t : Th} (b : W64) (hc : s.canTrigger (thIx t))
include hc

theorem exec_jump (rel : Bool) : exec (.jump t rel b) s =
    let th := (s.atTrigger (thIx t)).th (thIx t)
    .next ((s.atTrigger (thIx t)).setTh (thIx t) { th with pc := th.npc, npc := jumpTarget rel th.pc b, ds := true }) :=
  congrArg Host.Outcome.next (State.trigger_of_noFault (g := .jump rel) hc rfl (fun _ => nofun) nofun rfl)

theorem exec_call (rel : Bool) (hroom : ((s.atTrigger (thIx t)).th (thIx t)).stack.length < 32) :
    exec (.call t rel b) s =
      let s0 := s.atTrigger (thIx t)
      let th := s0.th (thIx t)
      .next ((s0.pushRet (thIx t) ⟨th.pc + 2, th.ring⟩).modTh (thIx t) fun u =>
        { u with pc := u.npc, npc := jumpTarget rel th.pc b, ds := true }) :=
  congrArg Host.Outcome.next (State.trigger_of_noFault (g := .call rel) hc rfl (fun _ => nofun) nofun
    ((State.trigFaults_call _ _ _ _ _ _ _).trans (if_neg (Nat.not_le.mpr hroom))))

theorem exec_call_overflow (rel : Bool) (hfull : 32 ≤ ((s.atTrigger (thIx t)).th (thIx t)).stack.length) :
    exec (.call t rel b) s = .next ((s.atTrigger (thIx t)).raiseFault (thIx t) ⟨0x14, 0, 0⟩) :=
  congrArg Host.Outcome.next (State.trigger_faults (g := .call rel) (f := flt 6 0x14 0 0) hc (fun _ => nofun) nofun rfl
    (by rw [State.trigFaults_call, if_pos hfull]; rfl))

theorem exec_loop (n : Fin 2) : exec (.loop t n b) s =
    .next ((s.atTrigger (thIx t)).putBank (thIx t) ((s.atTrigger (thIx t)).th (thIx t)).sel
      (loopRun ((s.atTrigger (thIx t)).cur (thIx t)) (.loop n) b ((s.atTrigger (thIx t)).th (thIx t)).pc)) :=
  congrArg Host.Outcome.next (State.trigger_of_noFault (g := .loop n) hc rfl (fun _ => nofun) nofun rfl)

theorem exec_lbreak (n : Fin 2) : exec (.lbreak t n) s =
    .next ((s.atTrigger (thIx t)).putBank (thIx t) ((s.atTrigger (thIx t)).th (thIx t)).sel
      (loopRun ((s.atTrigger (thIx t)).cur (thIx t)) (.lbreak n) 0 ((s.atTrigger (thIx t)).th (thIx t)).pc)) :=
  congrArg Host.Outcome.next (State.trigger_of_noFault (g := .lbreak n) hc rfl (fun _ => nofun) nofun rfl)

end

/-- Settles O19: a call is a push and a jump; the loop triggers write their level. -/
theorem jumpsCallsLoops : Obligations.JumpsCallsLoops := by
  intro s t b i s0 th tgt hc
  refine ⟨exec_jump b hc, fun rel hroom hinv => ⟨_, exec_call b hc rel hroom, ?_⟩, exec_call_overflow b hc,
    exec_loop b hc 0, exec_loop b hc 1, exec_lbreak hc 0, exec_lbreak hc 1⟩
  obtain ⟨hth, hcur, hmem, hregs, hpush⟩ := State.pushRet_spec (hinv.atTrigger i) i ⟨th.pc + 2, th.ring⟩
  rw [State.th_modTh_self hpush, hth]
  refine ⟨?_, rfl, rfl, ?_, rfl, ?_, ?_, hmem.trans (s.atTrigger_mem i), hregs⟩
  · exact Thread.withBank_npc _ _ _
  · exact Thread.withBank_ring _ _ _
  all_goals rw [State.cur_modTh hpush i rfl rfl rfl, hcur]

/- Gates and returns ----------------------------------------------------------------------------------------------- -/

/-- The faults of a gate call (R104, R125, R130). -/
theorem State.trigFaults_gate (s : State) (i : Nat) (c : Bank) (v : W64) (port slot : Nat) :
    s.trigFaults i c .gate v port slot =
      (if (s.th i).ds then [flt 2 0x10 (BitVec.ofNat 64 port) slot] else []) ++
      (if 32 ≤ (s.th i).stack.length then [flt 6 0x14 0 slot] else []) ++
      (if (s.rd (aEng (engOf i) (0x100 + 4 * (v.toNat % 64)))).getLsbD 31 &&
          (s.rd (aEng (engOf i) (0x100 + 4 * (v.toNat % 64)))).getLsbD (24 + (s.th i).ring.toNat) then []
        else [flt 3 0x11 (BitVec.ofNat 64 (v.toNat % 64)) slot]) := rfl

/-- The faults of a RETURN in a delay slot or on an empty shadow stack (R104, R127). -/
theorem State.trigFaults_ret_nil {s : State} {i : Nat} (hst : (s.th i).stack = []) (c : Bank) (v : W64) (port slot : Nat) :
    s.trigFaults i c .ret v port slot =
      (if (s.th i).ds then [flt 2 0x10 (BitVec.ofNat 64 port) slot] else []) ++ [flt 5 0x13 0 slot] := by
  simp only [State.trigFaults, dsFlt, hst]

/-- The faults of a RETURN to a shadow stack with an entry (R104, R127). -/
theorem State.trigFaults_ret_cons {s : State} {i : Nat} {top : Ret} {rest : List Ret} (hst : (s.th i).stack = top :: rest)
    (c : Bank) (v : W64) (port slot : Nat) :
    s.trigFaults i c .ret v port slot =
      (if (s.th i).ds then [flt 2 0x10 (BitVec.ofNat 64 port) slot] else []) ++
      (if BitVec.ofNat 17 v.toNat ≠ top.pc ∨ top.ring < (s.th i).ring
       then [flt 4 0x12 (BitVec.ofNat 64 (v.toNat % 2 ^ 17 + top.pc.toNat * 2 ^ 32)) slot] else []) := by
  simp only [State.trigFaults, dsFlt, hst, Bool.or_eq_true, decide_eq_true_eq]

/-- A fault of a lone trigger in a delay slot comes before those of a higher priority number (R129, R130). -/
theorem worst_cons {f : Flt} {l : List Flt} (h : ∀ g ∈ l, f.prio < g.prio) : worst (f :: l) = some f := by
  have hmem : ∀ {l : List Flt} {g : Flt}, worst l = some g → g ∈ l := by
    intro l
    induction l with
    | nil => exact nofun
    | cons x l ih =>
      intro g hg
      rw [worst] at hg
      cases hw : worst l with
      | none => rw [hw] at hg; exact List.mem_cons.mpr (.inl (Option.some.inj hg).symm)
      | some y =>
        rw [hw] at hg
        dsimp only at hg
        split at hg
        · exact List.mem_cons_of_mem _ (Option.some.inj hg ▸ ih hw)
        · exact List.mem_cons.mpr (.inl (Option.some.inj hg).symm)
  rw [worst]
  cases hw : worst l with
  | none => rfl
  | some g =>
    have hlt := h g (hmem hw)
    dsimp only
    rw [if_neg (by simp only [Bool.or_eq_true, Bool.and_eq_true, decide_eq_true_eq, beq_iff_eq]; omega)]

section
variable {s : State} {t : Th} (b : W64) (hc : s.canTrigger (thIx t))
include hc

/-- A gate call whose checks pass commits (R126). -/
theorem exec_gate (hds : ((s.atTrigger (thIx t)).th (thIx t)).ds = false)
    (hroom : ((s.atTrigger (thIx t)).th (thIx t)).stack.length < 32)
    (hval : ((s.atTrigger (thIx t)).rd (aEng (engOf (thIx t)) (0x100 + 4 * (b.toNat % 64)))).getLsbD 31 = true)
    (hring : ((s.atTrigger (thIx t)).rd (aEng (engOf (thIx t)) (0x100 + 4 * (b.toNat % 64)))).getLsbD
      (24 + ((s.atTrigger (thIx t)).th (thIx t)).ring.toNat) = true) :
    exec (.gate t b) s = .next ((s.atTrigger (thIx t)).gateRun (thIx t) b) :=
  congrArg Host.Outcome.next (State.trigger_of_noFault (g := .gate) hc rfl (fun _ => nofun) nofun
    (by rw [State.trigFaults_gate, hds, hval, hring, if_neg (Nat.not_le.mpr hroom)]; rfl))

/-- A gate whose entry is not valid or does not allow the ring is GATE_MASK (R126, R130). -/
theorem exec_gate_masked (hds : ((s.atTrigger (thIx t)).th (thIx t)).ds = false)
    (hbad : ((s.atTrigger (thIx t)).rd (aEng (engOf (thIx t)) (0x100 + 4 * (b.toNat % 64)))).getLsbD 31 = false ∨
      ((s.atTrigger (thIx t)).rd (aEng (engOf (thIx t)) (0x100 + 4 * (b.toNat % 64)))).getLsbD
        (24 + ((s.atTrigger (thIx t)).th (thIx t)).ring.toNat) = false) :
    exec (.gate t b) s = .next ((s.atTrigger (thIx t)).raiseFault (thIx t) ⟨0x11, BitVec.ofNat 64 (b.toNat % 64), 0⟩) := by
  refine congrArg Host.Outcome.next (State.trigger_faults (g := .gate) (f := flt 3 0x11 (BitVec.ofNat 64 (b.toNat % 64)) 0) hc
    (fun _ => nofun) nofun rfl ?_)
  rw [State.trigFaults_gate, hds, if_neg Bool.false_ne_true, if_neg (c := (_ && _) = true) fun h => ?_]
  · split <;> rfl
  · obtain ⟨hval, hring⟩ := Bool.and_eq_true_iff.mp h
    rcases hbad with hbad | hbad
    · exact Bool.false_ne_true (hbad.symm.trans hval)
    · exact Bool.false_ne_true (hbad.symm.trans hring)

/-- A gate call on a full shadow stack is SS_OVERFLOW (R125). -/
theorem exec_gate_overflow (hds : ((s.atTrigger (thIx t)).th (thIx t)).ds = false)
    (hfull : 32 ≤ ((s.atTrigger (thIx t)).th (thIx t)).stack.length)
    (hval : ((s.atTrigger (thIx t)).rd (aEng (engOf (thIx t)) (0x100 + 4 * (b.toNat % 64)))).getLsbD 31 = true)
    (hring : ((s.atTrigger (thIx t)).rd (aEng (engOf (thIx t)) (0x100 + 4 * (b.toNat % 64)))).getLsbD
      (24 + ((s.atTrigger (thIx t)).th (thIx t)).ring.toNat) = true) :
    exec (.gate t b) s = .next ((s.atTrigger (thIx t)).raiseFault (thIx t) ⟨0x14, 0, 0⟩) :=
  congrArg Host.Outcome.next (State.trigger_faults (g := .gate) (f := flt 6 0x14 0 0) hc (fun _ => nofun) nofun rfl
    (by rw [State.trigFaults_gate, hds, hval, hring, if_pos hfull]; rfl))

/-- A gate call in a delay slot (R104). -/
theorem exec_gate_delaySlot (hds : ((s.atTrigger (thIx t)).th (thIx t)).ds = true) :
    exec (.gate t b) s = .next ((s.atTrigger (thIx t)).raiseFault (thIx t) ⟨0x10, 0x348, 0⟩) := by
  refine congrArg Host.Outcome.next (State.trigger_faults (g := .gate) (f := flt 2 0x10 0x348 0) hc (fun _ => nofun) nofun rfl ?_)
  rw [State.trigFaults_gate, hds, if_pos rfl, List.append_assoc, List.singleton_append]
  refine worst_cons fun g hg => ?_
  rcases List.mem_append.mp hg with h | h
  · split at h
    · rw [List.mem_singleton.mp h]; exact (by decide : 2 < 6)
    · cases h
  · split at h
    · cases h
    · rw [List.mem_singleton.mp h]; exact (by decide : 2 < 3)

variable {top : Ret} {rest : List Ret}

/-- A RETURN to the top of the shadow stack commits (R127). -/
theorem exec_ret (hds : ((s.atTrigger (thIx t)).th (thIx t)).ds = false)
    (hst : ((s.atTrigger (thIx t)).th (thIx t)).stack = top :: rest) (hpc : BitVec.ofNat 17 b.toNat = top.pc)
    (hring : ((s.atTrigger (thIx t)).th (thIx t)).ring ≤ top.ring) :
    exec (.ret t b) s = .next ((s.atTrigger (thIx t)).retRun (thIx t) b) := by
  refine congrArg Host.Outcome.next (State.trigger_of_noFault (g := .ret) hc rfl (fun _ => nofun) nofun ?_)
  rw [State.trigFaults_ret_cons hst, hds, if_neg Bool.false_ne_true, if_neg]
  · rfl
  · rintro (h | h)
    · exact h hpc
    · exact absurd hring (BitVec.not_le.mpr h)

/-- A RETURN to another address or inward is the control-flow fault (R127). -/
theorem exec_ret_mismatch (hds : ((s.atTrigger (thIx t)).th (thIx t)).ds = false)
    (hst : ((s.atTrigger (thIx t)).th (thIx t)).stack = top :: rest)
    (hbad : BitVec.ofNat 17 b.toNat ≠ top.pc ∨ top.ring < ((s.atTrigger (thIx t)).th (thIx t)).ring) :
    exec (.ret t b) s = .next ((s.atTrigger (thIx t)).raiseFault (thIx t)
      ⟨0x12, BitVec.ofNat 64 (b.toNat % 2 ^ 17 + top.pc.toNat * 2 ^ 32), 0⟩) := by
  refine congrArg Host.Outcome.next (State.trigger_faults (g := .ret)
    (f := flt 4 0x12 (BitVec.ofNat 64 (b.toNat % 2 ^ 17 + top.pc.toNat * 2 ^ 32)) 0) hc (fun _ => nofun) nofun rfl ?_)
  rw [State.trigFaults_ret_cons hst, hds, if_neg Bool.false_ne_true, if_pos hbad]
  rfl

/-- A RETURN on an empty shadow stack is the underflow fault (R127). -/
theorem exec_ret_underflow (hds : ((s.atTrigger (thIx t)).th (thIx t)).ds = false)
    (hst : ((s.atTrigger (thIx t)).th (thIx t)).stack = []) :
    exec (.ret t b) s = .next ((s.atTrigger (thIx t)).raiseFault (thIx t) ⟨0x13, 0, 0⟩) :=
  congrArg Host.Outcome.next (State.trigger_faults (g := .ret) (f := flt 5 0x13 0 0) hc (fun _ => nofun) nofun rfl
    (by rw [State.trigFaults_ret_nil hst, hds]; rfl))

/-- A RETURN in a delay slot (R104). -/
theorem exec_ret_delaySlot (hds : ((s.atTrigger (thIx t)).th (thIx t)).ds = true) :
    exec (.ret t b) s = .next ((s.atTrigger (thIx t)).raiseFault (thIx t) ⟨0x10, 0x349, 0⟩) := by
  refine congrArg Host.Outcome.next (State.trigger_faults (g := .ret) (f := flt 2 0x10 0x349 0) hc (fun _ => nofun) nofun rfl ?_)
  cases hst : ((s.atTrigger (thIx t)).th (thIx t)).stack with
  | nil => rw [State.trigFaults_ret_nil hst, hds]; rfl
  | cons top rest =>
    rw [State.trigFaults_ret_cons hst, hds, if_pos rfl]
    refine worst_cons fun g hg => ?_
    split at hg
    · rw [List.mem_singleton.mp hg]; exact (by decide : 2 < 4)
    · cases hg

end

/-- What a gate call leaves (R126). -/
theorem State.gateRun_spec {s : State} (h : s.Inv) (i : Nat) (v : W64) :
    let th := s.th i
    let g := s.rd (aEng (engOf i) (0x100 + 4 * (v.toNat % 64)))
    let s' := s.gateRun i v
    (s'.th i).ring = BitVec.ofNat 2 (g.toNat / 2 ^ 20) ∧ (s'.th i).pc = BitVec.ofNat 17 g.toNat ∧
      (s'.th i).npc = BitVec.ofNat 17 g.toNat + 1 ∧ (s'.th i).ds = false ∧
      (s'.th i).stack = ⟨th.pc + 1, th.ring⟩ :: th.stack ∧ s'.mem = s.mem ∧ s'.regs = s.regs := by
  intro th g s'
  obtain ⟨hth, -, hmem, hregs, hpush⟩ := State.pushRet_spec h i ⟨th.pc + 1, th.ring⟩
  have hs' : s'.th i = { (s.pushRet i ⟨th.pc + 1, th.ring⟩).th i with
      pc := BitVec.ofNat 17 g.toNat, npc := BitVec.ofNat 17 g.toNat + 1, ds := false, ring := BitVec.ofNat 2 (field g 20 2) } :=
    State.th_modTh_self hpush i _
  rw [hs', hth]
  exact ⟨ofNat_field g 20 2, rfl, rfl, rfl, rfl, hmem, hregs⟩

/-- What a RETURN leaves (R127). -/
theorem State.retRun_spec {s : State} (h : s.Inv) {i : Nat} {top : Ret} {rest : List Ret} (hst : (s.th i).stack = top :: rest)
    (v : W64) :
    let s' := s.retRun i v
    (s'.th i).pc = BitVec.ofNat 17 v.toNat ∧ (s'.th i).npc = BitVec.ofNat 17 v.toNat + 1 ∧ (s'.th i).ds = false ∧
      (s'.th i).ring = top.ring ∧ (s'.th i).stack = rest ∧ (s'.cur i).link = rest.headD ⟨0, 0⟩ ∧ s'.mem = s.mem ∧
      s'.regs = s.regs := by
  intro s'
  have hput := h.putBank i (s.th i).sel { s.cur i with link := rest.headD ⟨0, 0⟩ }
  have hpop := hput.modTh i fun t => { t with stack := rest }
  have hs' : s' = ((s.putBank i (s.th i).sel { s.cur i with link := rest.headD ⟨0, 0⟩ }).modTh i
      fun t => { t with stack := rest }).goto i (BitVec.ofNat 17 v.toNat) (BitVec.ofNat 17 v.toNat + 1) false top.ring := by
    simp only [s', State.retRun, hst]
  have hth : s'.th i = { (s.th i).withBank (s.th i).sel { s.cur i with link := rest.headD ⟨0, 0⟩ } with
      stack := rest, pc := BitVec.ofNat 17 v.toNat, npc := BitVec.ofNat 17 v.toNat + 1, ds := false, ring := top.ring } := by
    rw [hs', State.goto, State.th_modTh_self hpop, State.th_modTh_self hput, State.th_putBank h]
  refine ⟨by rw [hth], by rw [hth], by rw [hth], by rw [hth], by rw [hth], ?_, ?_, ?_⟩
  · rw [hs', State.goto, State.cur_modTh hpop i rfl rfl rfl, State.cur_modTh hput i rfl rfl rfl, State.cur, State.th_putBank h,
      Thread.withBank_sel, State.bankOf_putBank h, if_pos rfl]
  · rw [hs']
    exact State.putBank_mem _ _ _ _
  · rw [hs']
    exact State.putBank_regs _ _ _ _

/-- Settles O20: each outcome of the checks, and what the two transfers leave. -/
theorem gateAndReturn : Obligations.GateAndReturn := by
  intro s t b i s0 th g hinv hc
  have hinv0 := hinv.atTrigger i
  have hmem := s.atTrigger_mem i
  refine ⟨fun hds hroom hval hring => ⟨_, exec_gate b hc hds hroom hval hring, ?_⟩, exec_gate_masked b hc,
    fun hds hfull hval hring => exec_gate_overflow b hc hds hfull hval hring,
    fun top rest hds hst hpc hring => ⟨_, exec_ret b hc hds hst hpc hring, ?_⟩,
    fun top rest hds hst hbad => exec_ret_mismatch b hc hds hst hbad, exec_ret_underflow b hc,
    fun hds => ⟨exec_gate_delaySlot b hc hds, exec_ret_delaySlot b hc hds⟩⟩
  · obtain ⟨h1, h2, h3, h4, h5, h6, h7⟩ := State.gateRun_spec hinv0 i b
    exact ⟨h1, h2, h3, h4, h5, h6.trans hmem, h7⟩
  · obtain ⟨h1, h2, h3, h4, h5, h6, h7, h8⟩ := State.retRun_spec hinv0 hst b
    rw [hpc] at h1 h2
    exact ⟨h1, h2, h3, h4, h5, h6, h7.trans hmem, h8⟩

end Sys2Proof.Machine
end

section
/-!
SUPPORT. Returns from exceptions and streams: the checks, what the transfers leave, and the proofs of the two statements.
-/

namespace Sys2Proof.Machine

open Sys2Proof

/- Returns from exceptions ------------------------------------------------------------------------------------------- -/

theorem State.trigFaults_rfe_brace {s : State} {i : Nat} (hsel : (s.th i).sel = .brace) (c : Bank) (v : W64) (port slot : Nat) :
    s.trigFaults i c .rfe v port slot = if (s.th i).ds then [flt 2 0x10 (BitVec.ofNat 64 port) slot] else [] := by
  simp only [State.trigFaults, dsFlt, hsel, List.append_nil]

theorem State.trigFaults_rfe_normal {s : State} {i : Nat} (hsel : (s.th i).sel = .normal) (c : Bank) (v : W64) (port slot : Nat) :
    s.trigFaults i c .rfe v port slot =
      (if (s.th i).ds then [flt 2 0x10 (BitVec.ofNat 64 port) slot] else []) ++ [fltPort port slot] := by
  simp only [State.trigFaults, dsFlt, hsel]

theorem State.trigFaults_rfe_shadow {s : State} {i : Nat} (hsel : (s.th i).sel = .shadow) (c : Bank) (v : W64) (port slot : Nat) :
    s.trigFaults i c .rfe v port slot =
      (if (s.th i).ds then [flt 2 0x10 (BitVec.ofNat 64 port) slot] else []) ++
      (if (s.th i).armed then [flt 4 0x12 1 slot]
       else if (s.th i).stack.length ≠ (s.th i).exc.depth then [flt 4 0x12 2 slot]
       else if 0 < (s.th i).xdepth then xspFlt (s.xspFails i (xspBelow (s.th i).xsp)) slot else []) := by
  simp only [State.trigFaults, dsFlt, hsel]

section
variable {s : State} {t : Th} (hc : s.canTrigger (thIx t))
include hc

/-- An RFE whose checks pass commits, and starts the read of a nested return (R136, R139). -/
theorem exec_rfe (hf : (s.atTrigger (thIx t)).trigFaults (thIx t) ((s.atTrigger (thIx t)).cur (thIx t)) .rfe 0
      (trigPort .rfe) 0 = []) :
    exec (.rfe t) s = .next (((s.atTrigger (thIx t)).rfeRun (thIx t)).spillGo (thIx t)) :=
  congrArg (fun u => Host.Outcome.next (State.spillGo u (thIx t)))
    (State.trigger_of_noFault (g := .rfe) hc rfl (fun _ => nofun) nofun hf)

/-- An RFE one of whose checks fails raises that fault. -/
theorem exec_rfe_fault {f : Flt} (cause : BitVec 8) (hcause : f.fr.cause = cause)
    (hread : cause ≠ 0x03 ∧ cause ≠ 0x04 ∧ cause ≠ 0x05 ∧ cause ≠ 0x06)
    (hf : worst ((s.atTrigger (thIx t)).trigFaults (thIx t) ((s.atTrigger (thIx t)).cur (thIx t)) .rfe 0
      (trigPort .rfe) 0) = some f) :
    exec (.rfe t) s = .next ((s.atTrigger (thIx t)).raiseFault (thIx t) f.fr) :=
  congrArg Host.Outcome.next (State.spillTrigger_faults (g := .rfe) hc (fun _ => nofun) nofun rfl cause hcause hread hf)

end

/-- In a delay slot an RFE outside the normal bank is the gate-in-delay-slot fault (R104). -/
theorem State.worst_rfe_delaySlot {s : State} {i : Nat} (hds : (s.th i).ds = true) (hsel : (s.th i).sel ≠ .normal) (c : Bank)
    (v : W64) : worst (s.trigFaults i c .rfe v 0x34A 0) = some (flt 2 0x10 0x34A 0) := by
  cases hs : (s.th i).sel with
  | normal => exact absurd hs hsel
  | brace => rw [State.trigFaults_rfe_brace hs, hds]; rfl
  | shadow =>
    rw [State.trigFaults_rfe_shadow hs, hds, if_pos rfl, List.singleton_append]
    refine worst_cons fun g hg => ?_
    have h4 : ∀ x : W64, 2 < (flt 4 0x12 x 0).prio := fun _ => (by decide : 2 < 4)
    split_ifs at hg
    · exact List.mem_singleton.mp hg ▸ h4 1
    · exact List.mem_singleton.mp hg ▸ h4 2
    · unfold xspFlt at hg
      split at hg
      · cases hg
      · rw [List.mem_singleton.mp hg]
        exact (by decide : 2 < 11)
    · cases hg

/-- The checks of an RFE in the shadow bank outside a delay slot (R136, R139). -/
theorem State.worst_rfe_shadow {s : State} {i : Nat} (hds : (s.th i).ds = false) (hsel : (s.th i).sel = .shadow) (c : Bank)
    (v : W64) : worst (s.trigFaults i c .rfe v 0x34A 0) =
      if (s.th i).armed then some (flt 4 0x12 1 0)
      else if (s.th i).stack.length ≠ (s.th i).exc.depth then some (flt 4 0x12 2 0)
      else if 0 < (s.th i).xdepth ∧ s.xspFails i (xspBelow (s.th i).xsp) ≠ 0
      then some (flt 11 0x19 (BitVec.ofNat 64 (s.xspFails i (xspBelow (s.th i).xsp))) 0) else none := by
  rw [State.trigFaults_rfe_shadow hsel, hds]
  unfold xspFlt
  split_ifs <;> simp_all [worst]

/- Registers ------------------------------------------------------------------------------------------------------- -/

section
variable {s : State} (h : spOk regReset s.regs = true)
include h

/-- A field written is read back. -/
theorem State.rf_wf_self (a : Nat) {lo w : Nat} (x : Nat) (hw : lo + w ≤ 32) : (s.wf a lo w x).rf a lo w = x % 2 ^ w := by
  rw [State.rf, State.wf, State.rd_wr_self h, field_putField_self _ _ hw]

/-- A write of a field leaves the others of its register alone. -/
theorem State.rf_wf_disjoint (a : Nat) {lo w lo' w' : Nat} (x : Nat) (hd : lo' + w' ≤ lo ∨ lo + w ≤ lo') :
    (s.wf a lo w x).rf a lo' w' = s.rf a lo' w' := by
  rw [State.rf, State.wf, State.rd_wr_self h, field_putField_ne _ _ hd]
  rfl

theorem State.bit_setB_self (a : Nat) {i : Nat} (hi : i < 32) : (s.setB a i).bit a i = true := by
  rw [State.bit, State.setB, State.rf_wf_self h a 1 (by omega)]
  rfl

theorem State.bit_clrB_self (a : Nat) {i : Nat} (hi : i < 32) : (s.clrB a i).bit a i = false := by
  rw [State.bit, State.clrB, State.rf_wf_self h a 0 (by omega)]
  rfl

theorem State.bit_setB_ne (a : Nat) {i j : Nat} (hij : j ≠ i) : (s.setB a i).bit a j = s.bit a j := by
  rw [State.bit, State.setB, State.rf_wf_disjoint h a 1 (by omega)]
  rfl

end

/-- A write of one register leaves the fields of the others alone. -/
theorem State.rf_wr_ne {s : State} {a b : Nat} (v : W32) (lo w : Nat) (hab : b ≠ a) : (s.wr a v).rf b lo w = s.rf b lo w := by
  rw [State.rf, State.rd_wr_ne hab]
  rfl

theorem State.bit_wr_ne {s : State} {a b : Nat} (v : W32) (i : Nat) (hab : b ≠ a) : (s.wr a v).bit b i = s.bit b i := by
  rw [State.bit, State.rf_wr_ne v i 1 hab]
  rfl

/-- The registers of a state depend on its register map alone. -/
theorem State.rd_congr {s u : State} (h : u.regs = s.regs) (a : Nat) : u.rd a = s.rd a := by
  rw [State.rd, h]
  rfl

theorem State.rf_congr {s u : State} (h : u.regs = s.regs) (a lo w : Nat) : u.rf a lo w = s.rf a lo w := by
  rw [State.rf, State.rd_congr h]
  rfl

theorem State.bit_congr {s u : State} (h : u.regs = s.regs) (a i : Nat) : u.bit a i = s.bit a i := by
  rw [State.bit, State.rf_congr h]
  rfl

section
variable {s : State} (h : s.Inv)
include h

theorem State.Inv.wr (a : Nat) (v : W32) : (s.wr a v).Inv := (State.wr_keeps (.refl s) a v).inv h

theorem State.Inv.setB (a i : Nat) : (s.setB a i).Inv := h.wr a _

theorem State.Inv.setEng (e : Nat) (g : EngSt) : (s.setEng e g).Inv := (State.setEng_keeps (.refl s) e g).inv h

theorem State.Inv.setTask (k : Nat) (v : TaskRec) : (s.setTask k v).Inv := (State.setTask_keeps (.refl s) k v).inv h

theorem State.task_setTask_self (k : Nat) (v : TaskRec) : (s.setTask k v).task k = v := spGet_spSet_self h.tasks _ _

end

theorem State.task_setTask_ne {s : State} {k j : Nat} (v : TaskRec) (hj : j ≠ k) : (s.setTask k v).task j = s.task j :=
  spGet_spSet_ne _ _ hj

/- What an RFE leaves ------------------------------------------------------------------------------------------------- -/

/-- The state after the return from the brace bank, the slot still resident (R147). -/
def State.leaveBrace (s : State) (i : Nat) : State :=
  let e := engOf i
  let s1 := (s.clrB (aEng e 0) 2).setEng e { s.eng e with braced := none }
  (s1.goto i (BitVec.ofNat 17 (s.rf (aEng e 0x60) 0 17)) (BitVec.ofNat 17 (s.rf (aEng e 0x64) 0 17))
    (s.bit (aEng e 0x5C) 8) (BitVec.ofNat 2 (s.rf (aEng e 0x5C) 9 2))).modTh i fun t => { t with sel := .shadow }

theorem State.rfeRun_brace {s : State} {i : Nat} (hsel : (s.th i).sel = .brace) :
    s.rfeRun i = if (s.leaveBrace i).endedIn i then (s.leaveBrace i).vacate i else s.leaveBrace i := by
  simp only [State.rfeRun, hsel]
  rfl

theorem State.rfeRun_nested {s : State} {i : Nat} (hsel : (s.th i).sel = .shadow) (h0 : 0 < (s.th i).xdepth) :
    s.rfeRun i = s.modTh i fun t => { t with spill := some ⟨.nested, .shadow, t.xsp.toNat - 512⟩ } := by
  simp only [State.rfeRun, hsel]
  exact if_neg (by omega)

theorem State.leaveBrace_spec {s : State} (h : s.Inv) (i : Nat) :
    let u := s.leaveBrace i
    u.th i = { s.th i with
      pc := BitVec.ofNat 17 (s.rd (aEng (engOf i) 0x60)).toNat, npc := BitVec.ofNat 17 (s.rd (aEng (engOf i) 0x64)).toNat
      ds := s.bit (aEng (engOf i) 0x5C) 8, ring := BitVec.ofNat 2 ((s.rd (aEng (engOf i) 0x5C)).toNat / 2 ^ 9)
      sel := .shadow } ∧
    u.inBrace (engOf i) = false ∧ (u.eng (engOf i)).braced = none ∧ u.tasks = s.tasks ∧ u.mem = s.mem ∧ u.Inv := by
  have h1 : (s.clrB (aEng (engOf i) 0) 2).Inv := h.wr _ _
  have h2 : ((s.clrB (aEng (engOf i) 0) 2).setEng (engOf i) { s.eng (engOf i) with braced := none }).Inv := h1.setEng _ _
  have h3 := h2.modTh i fun t => { t with
    pc := BitVec.ofNat 17 (s.rf (aEng (engOf i) 0x60) 0 17), npc := BitVec.ofNat 17 (s.rf (aEng (engOf i) 0x64) 0 17)
    ds := s.bit (aEng (engOf i) 0x5C) 8, ring := BitVec.ofNat 2 (s.rf (aEng (engOf i) 0x5C) 9 2) }
  refine ⟨?_, State.bit_clrB_self h.regs _ (by decide), congrArg EngSt.braced (State.eng_setEng_self h1 _ _), rfl, rfl,
    h3.modTh i fun t => { t with sel := .shadow }⟩
  refine (State.th_modTh_self h3 i _).trans ?_
  rw [State.th_modTh_self h2]
  simp only [State.rf, ofNat_field, Nat.pow_zero, Nat.div_one]
  rfl

/-- The state after a slot was emptied (R210). -/
theorem State.vacate_spec {s : State} (h : s.Inv) {i : Nat} (hrun : (s.th i).phase = .run) :
    let u := s.vacate i
    u.th i = { Thread.init with stores := (s.th i).stores } ∧ (u.task (s.th i).task).inSlot = false ∧ u.mem = s.mem ∧
      u.regs = s.regs ∧ u.engs = s.engs := by
  have h1 := h.setTask (s.th i).task { s.task (s.th i).task with inSlot := false }
  have heq : s.vacate i = (s.setTask (s.th i).task { s.task (s.th i).task with inSlot := false }).setTh i
      { Thread.init with stores := (s.th i).stores } := by
    simp only [State.vacate, hrun]
    rfl
  dsimp only
  rw [heq]
  exact ⟨State.th_setTh_self h1.ths i _, congrArg TaskRec.inSlot (State.task_setTask_self h _ _), rfl, rfl, rfl⟩

/-- The checks of an RFE in the brace bank outside a delay slot pass (R147). -/
theorem State.trigFaults_rfe_brace_free {s : State} {i : Nat} (hds : (s.th i).ds = false) (hsel : (s.th i).sel = .brace)
    (c : Bank) (v : W64) (port slot : Nat) : s.trigFaults i c .rfe v port slot = [] := by
  rw [State.trigFaults_rfe_brace hsel, hds]
  rfl

section
variable {s : State} {t : Th} (hc : s.canTrigger (thIx t)) (hds : ((s.atTrigger (thIx t)).th (thIx t)).ds = false)
  (hsel : ((s.atTrigger (thIx t)).th (thIx t)).sel = .shadow) (harm : ((s.atTrigger (thIx t)).th (thIx t)).armed = false)
  (hdepth : ((s.atTrigger (thIx t)).th (thIx t)).stack.length = ((s.atTrigger (thIx t)).th (thIx t)).exc.depth)
include hc hds hsel harm hdepth

/-- A return at depth 0 resumes the thread at its record (R136). -/
theorem exec_rfe_outermost (h0 : ((s.atTrigger (thIx t)).th (thIx t)).xdepth = 0) :
    let th := (s.atTrigger (thIx t)).th (thIx t)
    exec (.rfe t) s = .next (((s.atTrigger (thIx t)).goto (thIx t) th.exc.epc th.exc.enpc th.exc.ds th.exc.ring).modTh (thIx t)
      fun t => { t with sel := .normal }) := by
  have hf : (s.atTrigger (thIx t)).trigFaults (thIx t) ((s.atTrigger (thIx t)).cur (thIx t)) .rfe 0 (trigPort .rfe) 0 = [] := by
    rw [State.trigFaults_rfe_shadow hsel, hds, harm, if_neg Bool.false_ne_true, if_neg Bool.false_ne_true,
      if_neg (not_not.mpr hdepth), if_neg (by omega)]
    rfl
  have hfree := State.spillFree_of_canTrigger hc
  rw [exec_rfe hc hf, State.rfeRun]
  dsimp only
  rw [hsel, h0]
  dsimp only
  rw [if_pos rfl]
  refine congrArg Host.Outcome.next (State.SpillFree.spillGo ?_)
  have hgoto : ∀ pc npc ds ring, ((s.atTrigger (thIx t)).goto (thIx t) pc npc ds ring).SpillFree (thIx t) :=
    fun pc npc ds ring => hfree.modTh _ fun _ => hfree
  exact (hgoto _ _ _ _).modTh _ fun _ => hgoto _ _ _ _

/-- A return at a greater depth starts the read of the image below XSP (R139). -/
theorem exec_rfe_nested (h0 : 0 < ((s.atTrigger (thIx t)).th (thIx t)).xdepth)
    (hx : (s.atTrigger (thIx t)).xspFails (thIx t) (xspBelow ((s.atTrigger (thIx t)).th (thIx t)).xsp) = 0) :
    let th := (s.atTrigger (thIx t)).th (thIx t)
    exec (.rfe t) s = .next (((s.atTrigger (thIx t)).setTh (thIx t)
      { th with spill := some ⟨.nested, .shadow, th.xsp.toNat - 512⟩ }).spillGo (thIx t)) := by
  have hf : (s.atTrigger (thIx t)).trigFaults (thIx t) ((s.atTrigger (thIx t)).cur (thIx t)) .rfe 0 (trigPort .rfe) 0 = [] := by
    rw [State.trigFaults_rfe_shadow hsel, hds, harm, if_neg Bool.false_ne_true, if_neg Bool.false_ne_true,
      if_neg (not_not.mpr hdepth), if_pos h0, hx]
    rfl
  rw [exec_rfe hc hf, State.rfeRun_nested hsel h0]
  rfl

/-- A failed check of a nested return is XSP_INVALID with the checks that failed (R139). -/
theorem exec_rfe_invalid (h0 : 0 < ((s.atTrigger (thIx t)).th (thIx t)).xdepth)
    (hx : (s.atTrigger (thIx t)).xspFails (thIx t) (xspBelow ((s.atTrigger (thIx t)).th (thIx t)).xsp) ≠ 0) :
    exec (.rfe t) s = .next ((s.atTrigger (thIx t)).raiseFault (thIx t) ⟨0x19, BitVec.ofNat 64
      ((s.atTrigger (thIx t)).xspFails (thIx t) (xspBelow ((s.atTrigger (thIx t)).th (thIx t)).xsp)), 0⟩) :=
  exec_rfe_fault hc 0x19 rfl (by decide) ((State.worst_rfe_shadow hds hsel _ _).trans
    (by rw [harm, if_neg Bool.false_ne_true, if_neg (not_not.mpr hdepth), if_pos ⟨h0, hx⟩]))

end

/-- Settles O21: the checks of an RFE bank by bank, and what each return leaves. -/
theorem returnFromException : Obligations.ReturnFromException := by
  intro s t i s0 th hc
  have hmem := s.atTrigger_mem i
  have hrun : th.phase = .run := (State.spillFree_of_canTrigger hc).1
  have hspill : th.spill = none := (State.spillFree_of_canTrigger hc).2
  refine ⟨fun hds hsel => exec_rfe_fault hc 0x10 rfl (by decide) (State.worst_rfe_delaySlot hds hsel _ _), fun hds hsel => ?_,
    fun hds => ⟨fun hsel harm hdepth h0 hinv => ?_, fun hsel harm => ?_, fun hsel harm hdepth => ?_, fun hsel => ?_,
      fun hsel harm hdepth h0 hxsp hx => exec_rfe_nested hc hds hsel harm hdepth h0 (by rw [xspBelow, if_pos hxsp]; exact hx),
      fun hsel harm hdepth h0 hx => exec_rfe_invalid hc hds hsel harm hdepth h0 hx,
      fun hsel hst hinv => ?_, fun hsel hst hinv => ?_⟩⟩
  · exact exec_rfe_fault (f := fltPort 0x34A 0) hc 0x01 rfl (by decide) (by rw [State.trigFaults_rfe_normal hsel, hds]; rfl)
  · have hinv0 := hinv.atTrigger i
    have hgoto : (s0.goto i th.exc.epc th.exc.enpc th.exc.ds th.exc.ring).Inv :=
      hinv0.modTh i fun t => { t with pc := th.exc.epc, npc := th.exc.enpc, ds := th.exc.ds, ring := th.exc.ring }
    refine ⟨_, exec_rfe_outermost hc hds hsel harm hdepth h0, ⟨rfl, fun j hj => ?_⟩, ?_⟩
    · exact (State.th_setTh_ne hj).trans (State.th_setTh_ne hj)
    · rw [State.th_modTh_self hgoto, State.goto, State.th_modTh_self hinv0]
  · exact exec_rfe_fault (f := flt 4 0x12 1 0) hc 0x12 rfl (by decide)
      ((State.worst_rfe_shadow hds hsel _ _).trans (by rw [harm, if_pos rfl]))
  · exact exec_rfe_fault (f := flt 4 0x12 2 0) hc 0x12 rfl (by decide)
      ((State.worst_rfe_shadow hds hsel _ _).trans (by rw [harm, if_neg Bool.false_ne_true, if_pos hdepth]))
  · exact exec_rfe_fault (f := fltPort 0x34A 0) hc 0x01 rfl (by decide) (by rw [State.trigFaults_rfe_normal hsel, hds]; rfl)
  all_goals
    obtain ⟨hth, hbrace, hbraced, htasks, hmem', hinvL⟩ := State.leaveBrace_spec (s := s0) (hinv.atTrigger i) i
    have hex : exec (.rfe t) s = .next ((s0.rfeRun i).spillGo i) :=
      exec_rfe hc (State.trigFaults_rfe_brace_free hds hsel _ _ _ _)
    have htask : ∀ k, (s0.leaveBrace i).task k = s0.task k := fun k => congrArg (fun m => spGet _ m k) htasks
    have hended : (s0.leaveBrace i).endedIn i = ((s0.task th.task).state == .ended) := by
      simp only [State.endedIn, hth, Thread.resident, htask]
      rw [show (s0.th i).phase = .run from hrun]
      rfl
    rw [State.rfeRun_brace hsel] at hex
  · have hne : (s0.leaveBrace i).endedIn i = false := hended.trans (beq_eq_false_iff_ne.mpr hst)
    have hfree : (s0.leaveBrace i).SpillFree i := by rw [State.SpillFree, hth]; exact ⟨hrun, hspill⟩
    refine ⟨s0.leaveBrace i, hex.trans ?_, ?_⟩
    · rw [hne, if_neg Bool.false_ne_true, hfree.spillGo]
    · dsimp only
      rw [hth]
      exact ⟨rfl, rfl, rfl, rfl, rfl, hbrace, hbraced, hmem'.trans hmem⟩
  · have he : (s0.leaveBrace i).endedIn i = true := hended.trans (beq_iff_eq.mpr hst)
    have hrunL : ((s0.leaveBrace i).th i).phase = .run := by rw [hth]; exact hrun
    obtain ⟨hthV, hslot, hmemV, hregs, hengs⟩ := State.vacate_spec (s := s0.leaveBrace i) hinvL hrunL
    refine ⟨(s0.leaveBrace i).vacate i, hex.trans ?_, ?_⟩
    · rw [he, if_pos rfl]
      refine congrArg Host.Outcome.next ?_
      unfold State.spillGo
      dsimp only
      rw [hthV]
      rfl
    · dsimp only
      rw [hthV]
      refine ⟨rfl, by rw [hth], ?_, ?_, ?_, hmemV.trans (hmem'.trans hmem)⟩
      · rw [hth] at hslot
        exact hslot
      · exact (State.bit_congr hregs _ _).trans hbrace
      · exact (congrArg (fun m => (spGet (fun _ => EngSt.init) m (engOf i)).braced) hengs).trans hbraced

end Sys2Proof.Machine
end

section

/-! SUPPORT. The stream ports: pushes behind their grants, and pulls (O25). -/

namespace Sys2Proof.Machine

/- Pushes ------------------------------------------------------------------------------------------------------ -/

/-- The first push of a queue in an ECLK cycle goes to its end. -/
theorem pushIn_first {p : Nat × List Nat} {now : Nat} (h : p.1 ≠ now) (e held : Nat) (l : List W128) (x : W128) :
    pushIn p now e held l x = (l ++ [x], (now, [e])) := by
  unfold pushIn
  rw [if_neg h]
  simp only [List.filter_nil, List.length_nil, Nat.sub_zero, List.take_length, List.drop_length, List.nil_append]

/-- A later push of a cycle goes before what higher engines pushed in it (R106). -/
theorem pushIn_ranked (now e held : Nat) {a c : List Nat} {pre post : List W128} (x : W128) (hlen : c.length = post.length)
    (hheld : held ≤ pre.length) (ha : ∀ j ∈ a, j ≤ e) (hc : ∀ j ∈ c, e < j) :
    pushIn (now, a ++ c) now e held (pre ++ post) x =
      (pre ++ x :: post, (now, a.drop (a.length - (pre.length - held)) ++ e :: c)) := by
  have hdrop : (a ++ c).drop ((a ++ c).length - ((pre ++ post).length - held)) = a.drop (a.length - (pre.length - held)) ++ c := by
    have hk : (a ++ c).length - ((pre ++ post).length - held) = a.length - (pre.length - held) := by
      simp only [List.length_append]
      omega
    rw [hk, List.drop_append_of_le_length (Nat.sub_le _ _)]
  have haD : ∀ j ∈ a.drop (a.length - (pre.length - held)), j ≤ e := fun j hj => ha j (List.mem_of_mem_drop hj)
  have hhigh : (a.drop (a.length - (pre.length - held)) ++ c).filter (fun j => decide (e < j)) = c := by
    rw [List.filter_append, List.filter_eq_nil_iff.mpr fun j hj => by simpa using haD j hj,
      List.filter_eq_self.mpr fun j hj => decide_eq_true (hc j hj), List.nil_append]
  have hlow : (a.drop (a.length - (pre.length - held)) ++ c).filter (fun j => decide (j ≤ e)) =
      a.drop (a.length - (pre.length - held)) := by
    rw [List.filter_append, List.filter_eq_self.mpr fun j hj => decide_eq_true (haD j hj),
      List.filter_eq_nil_iff.mpr fun j hj => by simpa using hc j hj, List.append_nil]
  have hn : (pre ++ post).length - c.length = pre.length := by
    rw [List.length_append, hlen, Nat.add_sub_cancel]
  unfold pushIn
  dsimp only
  rw [if_pos rfl, hdrop, hhigh, hlow, hn, List.take_left, List.drop_left]

/-- A task with the grant passes the check of R105. -/
theorem State.grantFlt_granted {s : State} {i q : Nat} (h : s.grantOf (s.th i).task q = true) (port slot : Nat) :
    s.grantFlt i q port slot = [] := if_pos h

theorem State.worst_grantFlt {s : State} {i q : Nat} (h : s.grantOf (s.th i).task q = false) (port slot : Nat) :
    worst (s.grantFlt i q port slot) = some (flt 10 0x18 (BitVec.ofNat 64 port) slot) := by
  rw [State.grantFlt, h, if_neg Bool.false_ne_true]
  rfl

section
variable {s : State} {t : Th} (hc : s.canTrigger (thIx t))
include hc

theorem exec_push {n : Fin 16} (b : W64) (hroom : (s.atTrigger (thIx t)).pxFull n.val = false)
    (hg : (s.atTrigger (thIx t)).grantOf ((s.atTrigger (thIx t)).th (thIx t)).task n.val = true) :
    exec (.push t n b) s = .next ((s.atTrigger (thIx t)).trigEffect (thIx t) (.push n) b) :=
  congrArg Host.Outcome.next (State.trigger_acts (g := .push n) hc (fun _ => nofun) nofun hroom (State.grantFlt_granted hg _ _))

theorem exec_push_ungranted {n : Fin 16} (b : W64) (hroom : (s.atTrigger (thIx t)).pxFull n.val = false)
    (hg : (s.atTrigger (thIx t)).grantOf ((s.atTrigger (thIx t)).th (thIx t)).task n.val = false) :
    exec (.push t n b) s = .next ((s.atTrigger (thIx t)).raiseFault (thIx t) ⟨0x18, BitVec.ofNat 64 (0x390 + n.val), 0⟩) :=
  congrArg Host.Outcome.next (State.trigger_faults (g := .push n) (f := flt 10 0x18 (BitVec.ofNat 64 (0x390 + n.val)) 0) hc
    (fun _ => nofun) nofun hroom (State.worst_grantFlt hg _ _))

theorem exec_push_waits {n : Fin 16} (b : W64) (hfull : (s.atTrigger (thIx t)).pxFull n.val = true) :
    exec (.push t n b) s = .next (s.atTrigger (thIx t)) :=
  congrArg Host.Outcome.next (State.trigger_waits (g := .push n) hc hfull)

section
variable {n : Fin 4} (b : W64) (hroom : ((s.atTrigger (thIx t)).thrs n.val).assist.length < 64)
include hroom

theorem exec_assistPush (hg : (s.atTrigger (thIx t)).grantOf ((s.atTrigger (thIx t)).th (thIx t)).task (16 + n.val) = true) :
    exec (.assistPush t n b) s = .next ((s.atTrigger (thIx t)).trigEffect (thIx t) (.assist n) b) :=
  congrArg Host.Outcome.next (State.trigger_acts (g := .assist n) hc (fun _ => nofun) nofun
    (decide_eq_false (Nat.not_le.mpr hroom)) (State.grantFlt_granted hg _ _))

theorem exec_assistPush_ungranted
    (hg : (s.atTrigger (thIx t)).grantOf ((s.atTrigger (thIx t)).th (thIx t)).task (16 + n.val) = false) :
    exec (.assistPush t n b) s =
      .next ((s.atTrigger (thIx t)).raiseFault (thIx t) ⟨0x18, BitVec.ofNat 64 (0x3A0 + n.val), 0⟩) :=
  congrArg Host.Outcome.next (State.trigger_faults (g := .assist n) (f := flt 10 0x18 (BitVec.ofNat 64 (0x3A0 + n.val)) 0) hc
    (fun _ => nofun) nofun (decide_eq_false (Nat.not_le.mpr hroom)) (State.worst_grantFlt hg _ _))

end

theorem exec_assistPush_waits {n : Fin 4} (b : W64) (hfull : 64 ≤ ((s.atTrigger (thIx t)).thrs n.val).assist.length) :
    exec (.assistPush t n b) s = .next (s.atTrigger (thIx t)) :=
  congrArg Host.Outcome.next (State.trigger_waits (g := .assist n) hc (decide_eq_true hfull))

theorem exec_pull {n : Fin 4}
    (hg : (s.atTrigger (thIx t)).grantOf ((s.atTrigger (thIx t)).th (thIx t)).task (20 + n.val) = true) :
    exec (.pull t n) s = .next ((s.atTrigger (thIx t)).modTh (thIx t) fun t => { t with pulls := t.pulls ++ [(n.val, t.sel)] }) :=
  congrArg Host.Outcome.next (State.trigger_acts (g := .pull n) hc (fun _ => nofun) nofun rfl (State.grantFlt_granted hg _ _))

theorem exec_pull_ungranted {n : Fin 4}
    (hg : (s.atTrigger (thIx t)).grantOf ((s.atTrigger (thIx t)).th (thIx t)).task (20 + n.val) = false) :
    exec (.pull t n) s = .next ((s.atTrigger (thIx t)).raiseFault (thIx t) ⟨0x18, BitVec.ofNat 64 (0x3A8 + n.val), 0⟩) :=
  congrArg Host.Outcome.next (State.trigger_faults (g := .pull n) (f := flt 10 0x18 (BitVec.ofNat 64 (0x3A8 + n.val)) 0) hc
    (fun _ => nofun) nofun rfl (State.worst_grantFlt hg _ _))

end

/- Answers to pulls ------------------------------------------------------------------------------------------------ -/

/-- What a pull of a Thresher with the output words `out` answers (R107). -/
def pullAnswer (out : List W64) : W64 :=
  match out with
  | [] => 0x8000000000000000
  | x :: _ => x &&& 0x7FFFFFFFFFFFFFFF

theorem exec_pullReply {s : State} {t : Th} {n : Nat} {sel : BankSel} {rest : List (Nat × BankSel)} (hs : s.sleeping = false)
    (hlock : s.locked (engOf (thIx t)) = false) (hp : (s.th (thIx t)).pulls = (n, sel) :: rest) :
    exec (.pullReply t) s =
      let s1 := (s.setThr n { s.thrs n with out := (s.thrs n).out.drop 1 }).modTh (thIx t) fun t => { t with pulls := rest }
      let b := s1.bankOf (thIx t) sel
      .next (s1.putBank (thIx t) sel { b with latch := b.latch.set 18 (pullAnswer (s.thrs n).out) }).clearWaits := by
  change Host.Outcome.next (s.awakeDo _) = _
  rw [State.awakeDo, hs, if_neg Bool.false_ne_true, State.pullDone, hp]
  dsimp only
  rw [hlock, if_neg Bool.false_ne_true]
  rfl

@[simp] theorem State.clearWaits_thr (s : State) : s.clearWaits.thr = s.thr :=
  (congrArg State.thr s.clearWaits_frame.1).trans rfl

/-- The end of a wait leaves every bank. -/
theorem State.bankOf_clearWaits {s : State} (h : s.Inv) (i : Nat) (sel : BankSel) : s.clearWaits.bankOf i sel = s.bankOf i sel := by
  have hth := (s.clearWaits_frame.2 h.ths).2 i
  cases sel
  · exact (congrArg Thread.normal hth).trans rfl
  · exact (congrArg Thread.shadow hth).trans rfl
  · exact congrArg (fun m => (spGet (fun _ => EngSt.init) m (engOf i)).brace) s.clearWaits_engs

/-- Settles O25: where pushes go and when they fault or wait, and what a pull answers. -/
theorem streams : Obligations.Streams := by
  refine ⟨fun p now e held l x => ⟨fun h => pushIn_first h e held l x, ?_⟩, ?_, ?_, ?_⟩
  · rintro a c pre post rfl rfl hlen hheld ha hc
    rw [pushIn_ranked now e held x hlen hheld ha hc]
    exact ⟨rfl, _, List.drop_suffix _ _, rfl⟩
  · intro s t n b i s0 p q hc
    exact ⟨fun hroom hg => exec_push hc b hroom hg, fun hroom hg => exec_push_ungranted hc b hroom hg,
      fun hfull => exec_push_waits hc b hfull⟩
  · intro s t n b i s0 p inWork q hc
    refine ⟨fun hg hroom => (exec_assistPush hc b hroom hg).trans ?_, fun hg hroom => exec_assistPush_ungranted hc b hroom hg,
      fun hfull => exec_assistPush_waits hc b hfull, fun hg => exec_pull hc hg, fun hg => exec_pull_ungranted hc hg⟩
    have hbit : (if inWork = true then 1 else 0) = inWork.toNat := by cases inWork <;> rfl
    simp only [q, hbit]
    rfl
  · intro s t n sel rest i hinv hs hlock hp
    have hthr : (s.setThr n { s.thrs n with out := (s.thrs n).out.drop 1 }).Inv :=
      (State.setThr_keeps (.refl s) n { s.thrs n with out := (s.thrs n).out.drop 1 }).inv hinv
    obtain ⟨s1, hs1⟩ : ∃ s1, s1 = (s.setThr n { s.thrs n with out := (s.thrs n).out.drop 1 }).modTh i fun t => { t with pulls := rest } :=
      ⟨_, rfl⟩
    have hs1Inv : s1.Inv := hs1 ▸ hthr.modTh i fun t => { t with pulls := rest }
    have hbank1 : ∀ other, s1.bankOf i other = s.bankOf i other := fun other => by
      rw [hs1, State.bankOf_modTh hthr]
      · cases other <;> rfl
      all_goals rfl
    have hpulls1 : (s1.th i).pulls = rest := by rw [hs1, State.th_modTh_self hthr]
    have hout1 : (s1.thrs n).out = (s.thrs n).out.drop 1 := by
      rw [hs1]
      exact congrArg ThrSt.out (spGet_spSet_self hinv.thr _ _)
    obtain ⟨s2, hs2⟩ : ∃ s2, s2 = s1.putBank i sel
        { s1.bankOf i sel with latch := (s1.bankOf i sel).latch.set 18 (pullAnswer (s.thrs n).out) } := ⟨_, rfl⟩
    have hs2Inv : s2.Inv := hs2 ▸ hs1Inv.putBank i sel _
    have hbank : ∀ other, s2.clearWaits.bankOf i other =
        if other = sel then { s1.bankOf i sel with latch := (s1.bankOf i sel).latch.set 18 (pullAnswer (s.thrs n).out) }
        else s1.bankOf i other := fun other => by
      rw [State.bankOf_clearWaits hs2Inv, hs2, State.bankOf_putBank hs1Inv]
    have hlatch : (s2.clearWaits.bankOf i sel).latch[18] = pullAnswer (s.thrs n).out := by
      rw [hbank, if_pos rfl]
      simp
    refine ⟨s2.clearWaits, ?_, fun hout => by rw [hlatch, hout]; rfl, fun w l hout => ⟨by rw [hlatch, hout]; rfl, ?_⟩,
      fun other hne => by rw [hbank, if_neg hne, hbank1], ?_, ?_, ?_⟩
    · rw [hs2, hs1]
      exact exec_pullReply hs hlock hp
    · have hthrs : s2.clearWaits.thr = s1.thr := by rw [State.clearWaits_thr, hs2, State.putBank_thr]
      rw [State.thrs, hthrs]
      exact hout1.trans (by rw [hout]; rfl)
    · rw [(s2.clearWaits_frame.2 hs2Inv.ths).2 i]
      refine Eq.trans ?_ hpulls1
      rw [hs2, State.th_putBank hs1Inv]
      cases sel <;> rfl
    · rw [State.clearWaits_mem, hs2, State.putBank_mem, hs1]
      rfl
    · rw [State.clearWaits_regs, hs2, State.putBank_regs, hs1]
      rfl

end Sys2Proof.Machine
end

section

/-! SUPPORT. The event unit: WAIT, SIGNAL and POLL (O26). -/

namespace Sys2Proof.Machine

/- WAIT ------------------------------------------------------------------------------------------------------ -/

/-- A WAIT for class 5 finds a word in an output queue that its object names (R192). -/
def State.outputWaits (s : State) (mask obj : W32) : Bool :=
  mask.getLsbD 5 && [0, 1, 2, 3].any fun n => !(s.thrs n).out.isEmpty && (obj == BitVec.ofNat 32 n || obj == 0xFFFFFFFF)

theorem State.outputWaits_iff (s : State) (mask obj : W32) : s.outputWaits mask obj = true ↔
    mask.getLsbD 5 = true ∧ ∃ n, n < 4 ∧ (s.thrs n).out ≠ [] ∧ (obj = BitVec.ofNat 32 n ∨ obj = 0xFFFFFFFF) := by
  have hmem : ∀ n, n ∈ [0, 1, 2, 3] ↔ n < 4 := fun n => by
    simp only [List.mem_cons, List.not_mem_nil, or_false]
    omega
  simp only [State.outputWaits, Bool.and_eq_true, List.any_eq_true, hmem, Bool.or_eq_true, beq_iff_eq, Bool.not_eq_true',
    List.isEmpty_eq_false_iff, ne_eq]

/-- The pending classes a WAIT finds (R192). -/
def State.waitPend (s : State) (mask obj pend : W32) : W32 := if s.outputWaits mask obj then pend ||| 0x20 else pend

/-- The record of a task that goes to sleep by WAIT (R108, R191). -/
def State.sleepRec (s : State) (id : Nat) (mask obj : W32) : TaskRec :=
  let t := (s.endResidency id).task id
  { t with state := .asleep, mask := mask, obj := obj, pend := s.waitPend mask obj t.pend, eprio := t.prio, urgent := false,
           urg := .idle }

/-- The task of slot `i` asleep with the record `r`. -/
def State.sleepIn (s : State) (i : Nat) (r : TaskRec) : State :=
  ((s.endResidency (s.th i).task).setTask (s.th i).task r).modTh i fun th => { th with asleep := true }

theorem State.grnWait_zero (s : State) (i : Nat) (obj : W32) :
    s.grnWait i 0 obj = s.modTh i fun th => { th with evt := 0 } := by
  rw [State.grnWait]
  exact if_pos rfl

section
variable {s : State} {i : Nat} {mask : W32} (obj : W32) (hm : mask ≠ 0)
include hm

theorem State.grnWait_not_ready (hr : (s.task (s.th i).task).state ≠ .ready) : s.grnWait i mask obj = s := by
  rw [State.grnWait]
  dsimp only
  rw [if_neg hm, if_pos hr]

variable (hr : (s.task (s.th i).task).state = .ready)
include hr

theorem State.grnWait_end (h : mask = 0x80000000) :
    s.grnWait i mask obj = s.setTask (s.th i).task { s.task (s.th i).task with state := .ended } := by
  rw [State.grnWait]
  dsimp only
  rw [if_neg hm, if_neg (not_not.mpr hr), if_pos h, State.killTask, hr]

theorem State.grnWait_sleeps (h : mask ≠ 0x80000000) :
    s.grnWait i mask obj = ((s.sleepIn i (s.sleepRec (s.th i).task mask obj)).wakeTask (s.th i).task (some i)).signalWake i := by
  rw [State.grnWait]
  dsimp only
  rw [if_neg hm, if_neg (not_not.mpr hr), if_neg h]
  rfl

end

/-- What stands in the slot and record of a task that a WAIT has put to sleep. -/
theorem State.sleepIn_spec {s : State} (h : s.Inv) (i : Nat) (r : TaskRec) :
    let u := s.sleepIn i r
    u.Inv ∧ u.th i = { s.th i with asleep := true } ∧ u.task (s.th i).task = r ∧ u.mem = s.mem ∧ u.regs = s.regs := by
  have h1 : (s.endResidency (s.th i).task).Inv := h.setTask _ _
  have h2 := h1.setTask (s.th i).task r
  exact ⟨h2.modTh i fun th => { th with asleep := true }, State.th_modTh_self h2 i fun th => { th with asleep := true },
    State.task_setTask_self h1 _ _, rfl, rfl⟩

/-- The end of a residency leaves what a WAIT looks at. -/
theorem State.endResidency_task {s : State} (h : s.Inv) (id : Nat) :
    ((s.endResidency id).task id).pend = (s.task id).pend ∧ ((s.endResidency id).task id).paging = (s.task id).paging := by
  rw [State.endResidency, State.task_setTask_self h]
  exact ⟨rfl, rfl⟩

/- Wakes -------------------------------------------------------------------------------------------------------- -/

/-- Task `id` runs again in slot `i` with `evt` in EVT. -/
def State.resumeTask (s : State) (i id : Nat) (r : TaskRec) (evt : W32) : State :=
  (s.setTask id r.fresh).modTh i fun th => { th with asleep := false, evt := evt }

theorem State.resumeTask_spec {s : State} (h : s.Inv) (i id : Nat) (r : TaskRec) (evt : W32) :
    let u := s.resumeTask i id r evt
    u.th i = { s.th i with asleep := false, evt := evt } ∧ u.task id = r.fresh ∧ u.mem = s.mem ∧ u.regs = s.regs :=
  ⟨State.th_modTh_self (h.setTask id r.fresh) i fun th => { th with asleep := false, evt := evt },
    State.task_setTask_self h _ _, rfl, rfl⟩

theorem State.wakeTask_stays {s : State} {id : Nat} (h : (s.task id).pend &&& (s.task id).mask = 0) (slot : Option Nat) :
    s.wakeTask id slot = s := if_neg fun hw => hw.2.1 h

theorem State.wakeTask_wakes {s : State} {id : Nat} (hst : (s.task id).state = .asleep)
    (he : (s.task id).pend &&& (s.task id).mask ≠ 0) (hp : (s.task id).paging = false) (i : Nat) :
    s.wakeTask id (some i) =
      s.resumeTask i id { s.task id with state := .ready, pend := (s.task id).pend &&& ~~~(s.task id).mask }
        ((s.task id).pend &&& (s.task id).mask) := if_pos ⟨hst, he, hp⟩

theorem State.signalWake_awake {s : State} {i : Nat} (h : (s.th i).asleep = false) : s.signalWake i = s := by
  rw [State.signalWake]
  dsimp only
  rw [h]
  exact if_neg Bool.false_ne_true

theorem State.signalWake_no_signal {s : State} {i : Nat} (h : (s.th i).sigs = []) : s.signalWake i = s := by
  rw [State.signalWake]
  dsimp only
  rw [h]
  exact if_neg (by simp)

theorem State.signalWake_wakes {s : State} {i : Nat} (ha : (s.th i).asleep = true) (hr : (s.th i).phase = .run)
    (hst : (s.task (s.th i).task).state = .asleep) (hsig : (s.th i).sigs ≠ []) :
    s.signalWake i = s.resumeTask i (s.th i).task { s.task (s.th i).task with state := .ready } 0 := by
  rw [State.signalWake]
  refine if_pos ?_
  rw [ha, Thread.resident, hr, hst]
  cases hs : (s.th i).sigs with
  | nil => exact absurd hs hsig
  | cons p l => rfl

/- The three ends of a WAIT that is taken ------------------------------------------------------------------------ -/

section
variable {s : State} (h : s.Inv) {i : Nat} {mask obj : W32} (hm : mask ≠ 0) (hend : mask ≠ 0x80000000)
  (hr : (s.task (s.th i).task).state = .ready)
include h hm hend hr

/-- With no class of the mask pending and no signal the task sleeps. -/
theorem State.grnWait_asleep (hpend : s.waitPend mask obj (s.task (s.th i).task).pend &&& mask = 0) (hsig : (s.th i).sigs = []) :
    let u := s.grnWait i mask obj
    (u.th i).asleep = true ∧ (u.task (s.th i).task).state = .asleep ∧ (u.task (s.th i).task).mask = mask ∧
      (u.task (s.th i).task).obj = obj ∧ u.mem = s.mem ∧ u.regs = s.regs := by
  obtain ⟨hinv, hth, htask, hmem, hregs⟩ := State.sleepIn_spec h i (s.sleepRec (s.th i).task mask obj)
  have hstay := State.wakeTask_stays (s := s.sleepIn i (s.sleepRec (s.th i).task mask obj)) (id := (s.th i).task) (by
    rw [htask, State.sleepRec, (State.endResidency_task h _).1]; exact hpend) (some i)
  intro u
  have hu : u = s.sleepIn i (s.sleepRec (s.th i).task mask obj) := by
    rw [show u = _ from State.grnWait_sleeps obj hm hr hend, hstay, State.signalWake_no_signal (by rw [hth]; exact hsig)]
  rw [hu, hth, htask]
  exact ⟨rfl, rfl, rfl, rfl, hmem, hregs⟩

/-- With no class pending but a signal the WAIT is complete at once (R132). -/
theorem State.grnWait_signal (hph : (s.th i).phase = .run)
    (hpend : s.waitPend mask obj (s.task (s.th i).task).pend &&& mask = 0) (hsig : (s.th i).sigs ≠ []) :
    let u := s.grnWait i mask obj
    (u.th i).asleep = false ∧ (u.th i).evt = 0 ∧ (u.task (s.th i).task).state = .ready ∧ u.mem = s.mem ∧ u.regs = s.regs := by
  obtain ⟨hinv, hth, htask, hmem, hregs⟩ := State.sleepIn_spec h i (s.sleepRec (s.th i).task mask obj)
  have hstay := State.wakeTask_stays (s := s.sleepIn i (s.sleepRec (s.th i).task mask obj)) (id := (s.th i).task) (by
    rw [htask, State.sleepRec, (State.endResidency_task h _).1]; exact hpend) (some i)
  have hwake := State.signalWake_wakes (s := s.sleepIn i (s.sleepRec (s.th i).task mask obj)) (i := i) (by rw [hth])
    (by rw [hth]; exact hph) (by rw [hth, htask]; rfl) (by rw [hth]; exact hsig)
  obtain ⟨h1, h2, h3, h4⟩ := State.resumeTask_spec hinv i (s.th i).task { s.sleepRec (s.th i).task mask obj with state := .ready } 0
  rw [show ((s.sleepIn i (s.sleepRec (s.th i).task mask obj)).th i).task = (s.th i).task by rw [hth], htask] at hwake
  intro u
  rw [show u = _ from (State.grnWait_sleeps obj hm hr hend).trans (by rw [hstay, hwake]), h1, h2]
  exact ⟨rfl, rfl, rfl, h3.trans hmem, h4.trans hregs⟩

/-- With a class of the mask pending the WAIT is complete at once with those classes (R108). -/
theorem State.grnWait_pending (hpage : (s.task (s.th i).task).paging = false)
    (hpend : s.waitPend mask obj (s.task (s.th i).task).pend &&& mask ≠ 0) :
    let u := s.grnWait i mask obj
    let p := s.waitPend mask obj (s.task (s.th i).task).pend
    (u.th i).asleep = false ∧ (u.th i).evt = p &&& mask ∧ (u.task (s.th i).task).state = .ready ∧
      (u.task (s.th i).task).pend = p &&& ~~~mask ∧ u.mem = s.mem ∧ u.regs = s.regs := by
  obtain ⟨hinv, hth, htask, hmem, hregs⟩ := State.sleepIn_spec h i (s.sleepRec (s.th i).task mask obj)
  obtain ⟨hp, hg⟩ := State.endResidency_task h (s.th i).task
  have hwake := State.wakeTask_wakes (s := s.sleepIn i (s.sleepRec (s.th i).task mask obj)) (id := (s.th i).task)
    (by rw [htask]; rfl) (by rw [htask, State.sleepRec, hp]; exact hpend) (by rw [htask]; exact hg.trans hpage) i
  rw [htask] at hwake
  obtain ⟨h1, h2, h3, h4⟩ := State.resumeTask_spec hinv i (s.th i).task { s.sleepRec (s.th i).task mask obj with
    state := .ready, pend := (s.sleepRec (s.th i).task mask obj).pend &&& ~~~(s.sleepRec (s.th i).task mask obj).mask }
    ((s.sleepRec (s.th i).task mask obj).pend &&& (s.sleepRec (s.th i).task mask obj).mask)
  have hpr : (s.sleepRec (s.th i).task mask obj).pend = s.waitPend mask obj (s.task (s.th i).task).pend :=
    congrArg (s.waitPend mask obj) hp
  intro u p
  rw [show u = _ from (State.grnWait_sleeps obj hm hr hend).trans (by rw [hwake, State.signalWake_awake (by rw [h1])]), h1, h2]
  exact ⟨rfl, congrArg (· &&& mask) hpr, rfl, congrArg (· &&& ~~~mask) hpr, h3.trans hmem, h4.trans hregs⟩

end

/- The lone triggers of the event unit --------------------------------------------------------------------------- -/

section
variable {s : State} {t : Th} (hc : s.canTrigger (thIx t)) (b : W64)
include hc

theorem exec_wait : exec (.wait t b) s = .next ((s.atTrigger (thIx t)).grnWait (thIx t) (BitVec.ofNat 32 b.toNat)
    (BitVec.ofNat 32 (((s.atTrigger (thIx t)).cur (thIx t)).latch[19]).toNat)) :=
  congrArg Host.Outcome.next (State.trigger_of_noFault (g := .wait) hc rfl (fun _ => nofun) nofun rfl)

theorem exec_poll : exec (.poll t b) s = .next ((s.atTrigger (thIx t)).trigRun (thIx t) ((s.atTrigger (thIx t)).cur (thIx t)) .poll b) :=
  congrArg Host.Outcome.next (State.trigger_of_noFault (g := .poll) hc rfl (fun _ => nofun) nofun rfl)

/-- SIGNAL from ring 0 or 1 (R110). -/
theorem exec_signal (hring : ((s.atTrigger (thIx t)).th (thIx t)).ring.toNat < 2) : exec (.signal t b) s =
    .next (if 40960 ≤ b.toNat % 65536 then (s.atTrigger (thIx t)).setB (aEng (engOf (thIx t)) 0x2C) 2
      else if b.toNat / 65536 % 32 = 31 then (s.atTrigger (thIx t)).setB (aGrn 0x18) 1
      else (s.atTrigger (thIx t)).post (rkSignal (thIx t)) (some (b.toNat % 65536)) (b.toNat / 65536 % 32)
        (((s.atTrigger (thIx t)).cur (thIx t)).latch[19]).toNat) :=
  congrArg Host.Outcome.next (State.trigger_acts (g := .signal) hc (fun _ => nofun) (fun _ => hring) rfl rfl)

/-- SIGNAL from ring 2 or 3 is the ring violation (R82). -/
theorem exec_signal_ring (hring : 2 ≤ ((s.atTrigger (thIx t)).th (thIx t)).ring.toNat) :
    exec (.signal t b) s = .next ((s.atTrigger (thIx t)).raiseFault (thIx t) ⟨0x02, 0x3C9, 0⟩) := by
  have hdst : (s.atTrigger (thIx t)).dstFault (thIx t) [] ⟨0, trigPort .signal, none, 0, 0, false⟩ =
      some (flt 2 0x02 0x3C9 0) := by
    unfold State.dstFault
    rw [dstPort_trigPort .signal fun _ => nofun]
    exact if_pos hring
  change Host.Outcome.next (s.trigger t .signal b) = _
  rw [State.trigger, State.trigOnce_can hc, State.trigDo_free rfl, hdst]
  rfl

end

/-- Settles O26: what WAIT, SIGNAL and POLL do, case by case. -/
theorem eventUnit : Obligations.EventUnit := by
  intro s t b i s0 th r m obj out hc
  have hmem : s0.mem = s.mem := s.atTrigger_mem i
  have hph : th.phase = .run := (State.spillFree_of_canTrigger hc).1
  have hex : exec (.wait t b) s = .next (s0.grnWait i m obj) := exec_wait hc b
  have hnoout : ¬out → ∀ p, s0.waitPend m obj p = p := fun ho p => if_neg (mt (s0.outputWaits_iff m obj).mp ho)
  have hout : out → ∀ p, s0.waitPend m obj p = p ||| 0x20 := fun ho p => if_pos ((s0.outputWaits_iff m obj).mpr ho)
  refine ⟨fun hm => ?_, fun hm hr => ?_, fun hm hr => ?_, fun hm hend ho hr hpend hsig hinv => ?_,
    fun hm hend ho hr hpend hsig hinv => ?_, fun hm hend ho hr hpage hpend hinv => ?_, fun hm hend ho hr hpage hinv => ?_,
    fun hring hid hcls => ?_, fun hring hid => ?_, fun hring hid hcls => ?_, exec_signal_ring hc b, exec_poll hc b⟩
  · rw [hex, hm]
    exact congrArg Host.Outcome.next (State.grnWait_zero s0 i obj)
  · exact hex.trans (congrArg Host.Outcome.next (State.grnWait_not_ready obj hm hr))
  · exact hex.trans (congrArg Host.Outcome.next (State.grnWait_end obj (by rw [hm]; decide) hr hm))
  · obtain ⟨h1, h2, h3, h4, h5, h6⟩ := State.grnWait_asleep (hinv.atTrigger i) hm hend hr (obj := obj)
      (by rw [hnoout ho]; exact hpend) hsig
    exact ⟨_, hex, h1, h2, h3, h4, h5.trans hmem, h6⟩
  · obtain ⟨h1, h2, h3, h4, h5⟩ := State.grnWait_signal (hinv.atTrigger i) hm hend hr (obj := obj) hph
      (by rw [hnoout ho]; exact hpend) hsig
    exact ⟨_, hex, h1, h2, h3, h4.trans hmem, h5⟩
  · have hw := State.grnWait_pending (hinv.atTrigger i) hm hend hr (obj := obj) hpage (by rw [hnoout ho]; exact hpend)
    rw [hnoout ho] at hw
    obtain ⟨h1, h2, h3, h4, h5, h6⟩ := hw
    exact ⟨_, hex, h1, h2, h3, h4, h5.trans hmem, h6⟩
  · have hbit : (r.pend ||| 0x20) &&& m ≠ 0 := fun h0 => by
      have h5 := congrArg (fun x => x.getLsbD 5) h0
      rw [BitVec.getLsbD_and, BitVec.getLsbD_or, ho.1] at h5
      simp at h5
    have hw := State.grnWait_pending (hinv.atTrigger i) hm hend hr (obj := obj) hpage (by rw [hout ho]; exact hbit)
    rw [hout ho] at hw
    obtain ⟨h1, h2, h3, h4, h5, h6⟩ := hw
    exact ⟨_, hex, h1, h2, h3, h4, h5.trans hmem, h6⟩
  · rw [exec_signal hc b hring, if_neg (Nat.not_le.mpr hid), if_neg hcls]
  · rw [exec_signal hc b hring, if_pos hid]
  · rw [exec_signal hc b hring, if_neg (Nat.not_le.mpr hid), if_pos hcls]

end Sys2Proof.Machine
end

section

/-! SUPPORT. Breakpoints, trace and the counters of an engine (O27). -/

namespace Sys2Proof.Machine

/- Accesses of the management controller --------------------------------------------------------------------- -/

theorem State.awakeDo_awake {s : State} (hs : s.sleeping = false) (f : State → State) : s.awakeDo f = f s := by
  rw [State.awakeDo, hs, if_neg Bool.false_ne_true]

theorem State.Inv.mgmtIn {s : State} (h : s.Inv) (a : Nat) (w : Bool) : (s.mgmtIn a w).Inv :=
  (State.mgmtIn_keeps (.refl s) a w).inv h

/- Registers set to zero ----------------------------------------------------------------------------------------- -/

/-- The registers of `l` are written 0. -/
def State.wrZeros (s : State) (l : List Nat) : State := l.foldl (fun s a => s.wr a 0) s

theorem State.wrZeros_eq (s : State) (l : List Nat) : s.wrZeros l = { s with regs := (s.wrZeros l).regs } := by
  induction l generalizing s with
  | nil => rfl
  | cons a l ih => exact (ih (s.wr a 0)).trans rfl

theorem State.Inv.wrZeros {s : State} (h : s.Inv) (l : List Nat) : (s.wrZeros l).Inv := by
  induction l generalizing s with
  | nil => exact h
  | cons a l ih => exact ih (h.wr a 0)

theorem State.rd_wrZeros_ne {s : State} {l : List Nat} {a : Nat} (ha : a ∉ l) : (s.wrZeros l).rd a = s.rd a := by
  induction l generalizing s with
  | nil => rfl
  | cons b l ih =>
    rw [List.mem_cons, not_or] at ha
    exact (ih ha.2).trans (State.rd_wr_ne ha.1)

theorem State.rd_wrZeros_mem {s : State} (h : s.Inv) {l : List Nat} {a : Nat} (ha : a ∈ l) : (s.wrZeros l).rd a = 0 := by
  induction l generalizing s with
  | nil => exact absurd ha List.not_mem_nil
  | cons b l ih =>
    by_cases hl : a ∈ l
    · exact ih (h.wr b 0) hl
    · obtain rfl : a = b := (List.mem_cons.mp ha).resolve_right hl
      exact (State.rd_wrZeros_ne hl).trans (State.rd_wr_self h.regs a 0)

/-- The offsets of the counters that CNT_CLEAR of an engine clears (R518). -/
def engCounters : List Nat := [0xC, 0x10, 0x14, 0x18, 0x1C]

theorem State.engClear_eq (s : State) (e : Nat) :
    s.engClear e = (s.setEng e { s.eng e with instr := 0 }).wrZeros (engCounters.map (aEng e)) := rfl

theorem not_mem_engCounters {e a : Nat} (ha : ∀ o ∈ engCounters, a ≠ aEng e o) : a ∉ engCounters.map (aEng e) := fun h => by
  obtain ⟨o, ho, rfl⟩ := List.mem_map.mp h
  exact ha o ho rfl

/- The lone triggers ---------------------------------------------------------------------------------------------- -/

section
variable {s : State} {t : Th} (hc : s.canTrigger (thIx t)) (b : W64)
include hc

theorem exec_bkpt : exec (.bkpt t b) s =
    .next (if (s.atTrigger (thIx t)).bit (aEng (engOf (thIx t)) 0x28) 1
      then (s.atTrigger (thIx t)).raiseSignal (thIx t) 0x44 (BitVec.ofNat 64 (b.toNat % 65536))
      else (s.atTrigger (thIx t)).setB (aEng (engOf (thIx t)) 0x2C) 3) :=
  congrArg Host.Outcome.next (State.trigger_of_noFault (g := .bkpt) hc rfl (fun _ => nofun) nofun rfl)

theorem exec_trace : exec (.trace t b) s =
    .next ((s.atTrigger (thIx t)).trigRun (thIx t) ((s.atTrigger (thIx t)).cur (thIx t)) .trace b) :=
  congrArg Host.Outcome.next (State.trigger_of_noFault (g := .trace) hc rfl (fun _ => nofun) nofun rfl)

end

/-- TRACE without TRACE_EN does nothing (R120). -/
theorem State.trigRun_trace_off {s : State} {i : Nat} (h : s.bit (aEng (engOf i) 0x28) 2 = false) (c : Bank) (v : W64) :
    s.trigRun i c .trace v = s := by
  simp only [State.trigRun, h]
  exact if_neg Bool.false_ne_true

/-- TRACE records its value and thread slot under the next sequence number (R120). -/
theorem State.trigRun_trace_on {s : State} {i : Nat} (h : s.bit (aEng (engOf i) 0x28) 2 = true) (c : Bank) (v : W64) :
    s.trigRun i c .trace v =
      (if (s.eng (engOf i)).trValid then s.setB (aEng (engOf i) 0x2C) 4 else s).setEng (engOf i)
        { s.eng (engOf i) with trVal := v, trSlot := slotOf i, trValid := true, trSeq := (s.eng (engOf i)).trSeq + 1 } := by
  simp only [State.trigRun, h, if_true]

theorem slotOf_thIx (t : Th) : slotOf (thIx t) = t.j.val := by
  have hj := t.j.isLt
  unfold slotOf thIx
  omega

/-- Settles O27: the debug triggers, and the counter and trace registers of an engine. -/
theorem debugAndCounters : Obligations.DebugAndCounters := by
  refine ⟨fun s t b => ?_, fun s e hs hinv => ?_⟩
  · intro i e s0 g hc
    refine ⟨fun h => ?_, fun h => ?_, fun h => ?_, fun h => ?_⟩
    · rw [exec_bkpt hc, if_neg (by rw [show (s.atTrigger (thIx t)).bit _ _ = false from h]; exact Bool.false_ne_true)]
    · rw [exec_bkpt hc, if_pos h]
    · rw [exec_trace hc, State.trigRun_trace_off h]
    · rw [exec_trace hc, State.trigRun_trace_on h, slotOf_thIx]
  · intro n
    refine ⟨⟨_, congrArg Host.Outcome.next (State.mgmtDo_awake hs _ _ _), ?_⟩,
      ⟨_, congrArg Host.Outcome.next (State.mgmtDo_awake hs _ _ _), ?_⟩,
      ⟨_, congrArg Host.Outcome.next (State.mgmtDo_awake hs _ _ _), ?_⟩⟩
    · exact ⟨rfl, State.rd_wr_self hinv.regs _ _, rfl, rfl, fun a ha => State.rd_wr_ne ha⟩
    · have hin := (hinv.mgmtIn (aEng n 0x30) false).wr (aEng n 0x34) (BitVec.ofNat 32 ((s.eng n).trVal.toNat / 2 ^ 32))
      have hne : aEng n 0x34 ≠ aEng n 0x38 := by unfold aEng; omega
      refine ⟨rfl, ?_, ?_, ?_, fun a h1 h2 => (State.rd_wr_ne h2).trans (State.rd_wr_ne h1)⟩
      · exact (State.rd_wr_ne hne).trans (State.rd_wr_self hinv.regs _ _)
      · exact congrArg EngSt.trValid (State.eng_setEng_self (hin.wr _ _) _ _)
      · exact (congrArg EngSt.instr (State.eng_setEng_self (hin.wr _ _) _ _)).trans rfl
    · have hin := (hinv.mgmtIn (aEng n 0x20) true).setEng n { s.eng n with instr := 0 }
      have heq := State.wrZeros_eq ((s.mgmtIn (aEng n 0x20) true).setEng n { s.eng n with instr := 0 }) (engCounters.map (aEng n))
      refine ⟨?_, fun o ho => State.rd_wrZeros_mem hin (List.mem_map_of_mem ho), ?_, ?_,
        fun a ha => State.rd_wrZeros_ne (not_mem_engCounters ha)⟩
      · refine (congrArg (fun u : State => (u.eng n).instr) heq).trans ?_
        exact congrArg EngSt.instr (State.eng_setEng_self (hinv.mgmtIn (aEng n 0x20) true) n _)
      · exact (congrArg State.ths heq).trans rfl
      · exact (congrArg State.mem heq).trans rfl

end Sys2Proof.Machine
end

section

/-! SUPPORT. The Culm network: slots, deliveries and its counters (O28, O29). -/

namespace Sys2Proof.Machine

/- Slots -------------------------------------------------------------------------------------------------------- -/

theorem exec_culmSlot {s : State} {c : Fin 1024} (h : s.slotNow c.val = true) :
    exec (.culmSlot c) s =
      let s1 := s.collide
      let n := s1.nclk.getD 0
      .next (match (s1.chan c.val).send with
        | some v => ({ s1.setChan c.val { s1.chan c.val with send := none, served := n + 1 } with
            flights := s1.flights ++ [Flight.mk c.val v n false] }).clearWaits
        | none => (s1.setChan c.val { s1.chan c.val with served := n + 1 }).bump (aCulm (0x4000 + 4 * c.val)) 1) := by
  change Host.Outcome.next (s.culmSlot c.val) = _
  rw [State.culmSlot, h]
  rfl

/-- Settles O28: a word or chaff at the slot of a channel, nothing away from it. -/
theorem culmSlot : Obligations.CulmSlot := by
  intro s c s1 n
  refine ⟨fun h v hv => ?_, fun h hv => ?_, fun h => ?_⟩
  · rw [exec_culmSlot h]
    dsimp only
    rw [hv]
  · rw [exec_culmSlot h]
    dsimp only
    rw [hv]
  · change Host.Outcome.next (s.culmSlot c.val) = _
    rw [State.culmSlot, h]
    rfl

/- Deliveries ------------------------------------------------------------------------------------------------------ -/

/-- A state that differs from `s` at most in what judging collisions may touch: registers, words under way, the cycle judged. -/
def State.JudgeFrame (s t : State) : Prop :=
  ∃ (regs : List (Nat × W32)) (flights : List Flight) (done : Nat), t = { s with regs := regs, flights := flights, culmDone := done }

theorem State.JudgeFrame.trans {s t u : State} (h : s.JudgeFrame t) (h' : t.JudgeFrame u) : s.JudgeFrame u := by
  obtain ⟨_, _, _, rfl⟩ := h
  obtain ⟨r, f, d, rfl⟩ := h'
  exact ⟨r, f, d, rfl⟩

/-- A register written at most once. -/
theorem State.ite_wr_frame (s : State) (b : Bool) (a : Nat) (v : W32) : ∃ regs, (if b then s else s.wr a v) = { s with regs := regs } := by
  cases b
  · exact ⟨_, rfl⟩
  · exact ⟨_, rfl⟩

theorem State.collideAt_frame (s : State) (n : Nat) : s.JudgeFrame (s.collideAt n) := by
  unfold State.collideAt
  dsimp only
  split
  · exact ⟨_, _, _, rfl⟩
  · obtain ⟨regs, h⟩ := (s.setB (aCulm 0x10) 0).ite_wr_frame ((s.setB (aCulm 0x10) 0).bit (aCulm 0x14) 31) (aCulm 0x14) _
    rw [h]
    exact ⟨_, _, _, rfl⟩

theorem State.foldl_collideAt_frame (f : Nat → Nat) (l : List Nat) (s : State) :
    s.JudgeFrame (l.foldl (fun t k => t.collideAt (f k)) s) := by
  induction l generalizing s with
  | nil => exact ⟨_, _, _, rfl⟩
  | cons k l ih => exact (s.collideAt_frame (f k)).trans (ih _)

theorem State.collide_frame (s : State) : s.JudgeFrame s.collide := by
  rw [State.collide]
  split
  · exact ⟨_, _, _, rfl⟩
  · exact State.foldl_collideAt_frame _ _ s

@[simp] theorem State.collide_evq (s : State) : s.collide.evq = s.evq := by
  obtain ⟨_, _, _, h⟩ := s.collide_frame
  exact (congrArg State.evq h).trans rfl

@[simp] theorem State.clearWaits_evq (s : State) : s.clearWaits.evq = s.evq :=
  (congrArg State.evq s.clearWaits_frame.1).trans rfl

@[simp] theorem State.clearWaits_chans (s : State) : s.clearWaits.chans = s.chans :=
  (congrArg State.chans s.clearWaits_frame.1).trans rfl

theorem State.Inv.collide {s : State} (h : s.Inv) : s.collide.Inv := (State.collide_keeps (.refl s)).inv h

theorem State.chan_setChan_self {s : State} (h : s.Inv) (c : Nat) (v : Chan) : (s.setChan c v).chan c = v :=
  spGet_spSet_self h.chans _ _

/-- What a delivery does with the word `f` at the receive buffer of channel `c`, the others `rest` still under way (R158 to R160). -/
def State.landWord (s2 : State) (c : Nat) (f : Flight) : State :=
  let ch := s2.chan c
  if f.lost then (s2.setChan c { ch with rx := none, poison := true }).clearWaits
  else if ch.rx.isSome || ch.poison then
    let s3 := (s2.setChan c { ch with rx := none, poison := true }).setB (aCulm 0x10) 1
    (if s3.bit (aCulm 0x18) 31 then s3 else s3.wr (aCulm 0x18) (BitVec.ofNat 32 (c + 2 ^ 31))).clearWaits
  else ((s2.setChan c { ch with rx := some f.word }).post rkOther none 8 c).clearWaits

theorem exec_wordDelivery {s : State} {c : Fin 1024} {n : Nat} {f : Flight} {rest : List Flight}
    (hn : s.collide.nclk = some n) (hf : s.collide.takeFlight c.val n s.collide.flights = some (f, rest))
    (hp : ({ s.collide with flights := rest } : State).physOf (({ s.collide with flights := rest } : State).bind c.val 0 4)
      (({ s.collide with flights := rest } : State).bind c.val 4 3) ≠ none) :
    exec (.wordDelivery c) s = .next (({ s.collide with flights := rest } : State).landWord c.val f) := by
  change Host.Outcome.next (s.deliver c.val) = _
  rw [State.deliver]
  dsimp only
  rw [hn]
  dsimp only
  rw [hf]
  dsimp only
  rw [if_neg (mt Option.isNone_iff_eq_none.mp hp)]
  rfl

/-- An overrun loses both words, poisons the buffer and captures the first channel (R159). -/
theorem State.landWord_overrun {s : State} (h : s.Inv) {c : Nat} {f : Flight} (hf : f.lost = false)
    (hfull : (s.chan c).rx ≠ none ∨ (s.chan c).poison = true) :
    let u := s.landWord c f
    (u.chan c).rx = none ∧ (u.chan c).poison = true ∧ u.bit (aCulm 0x10) 1 = true ∧
      u.rd (aCulm 0x18) = (if s.bit (aCulm 0x18) 31 then s.rd (aCulm 0x18) else BitVec.ofNat 32 (c + 2 ^ 31)) ∧ u.evq = s.evq := by
  obtain ⟨s3, hs3⟩ : ∃ s3, s3 = (s.setChan c { s.chan c with rx := none, poison := true }).setB (aCulm 0x10) 1 := ⟨_, rfl⟩
  have hchan : (s.setChan c { s.chan c with rx := none, poison := true }).Inv := (State.setChan_keeps (.refl s) _ _).inv h
  have hinv : s3.Inv := hs3 ▸ hchan.setB _ _
  have hc3 : s3.chan c = { s.chan c with rx := none, poison := true } := hs3 ▸ State.chan_setChan_self h c _
  have hb3 : s3.bit (aCulm 0x10) 1 = true := hs3 ▸ State.bit_setB_self hchan.regs _ (by decide)
  have hr3 : s3.rd (aCulm 0x18) = s.rd (aCulm 0x18) := hs3 ▸ State.rd_wr_ne (by decide)
  have hbit3 : s3.bit (aCulm 0x18) 31 = s.bit (aCulm 0x18) 31 := hs3 ▸ State.bit_wr_ne _ _ (by decide)
  have he3 : s3.evq = s.evq := hs3 ▸ rfl
  have hfull' : ((s.chan c).rx.isSome || (s.chan c).poison) = true := by
    rw [Bool.or_eq_true, Option.isSome_iff_ne_none]
    exact hfull
  have hu : s.landWord c f = (if s3.bit (aCulm 0x18) 31 then s3 else s3.wr (aCulm 0x18) (BitVec.ofNat 32 (c + 2 ^ 31))).clearWaits := by
    rw [State.landWord, hf, if_neg Bool.false_ne_true]
    dsimp only
    rw [if_pos hfull', hs3]
  intro u
  rw [show u = _ from hu, State.chan, State.clearWaits_chans, State.bit_congr (State.clearWaits_regs _),
    State.rd_congr (State.clearWaits_regs _), State.clearWaits_evq, hbit3]
  cases s.bit (aCulm 0x18) 31 with
  | true =>
    rw [if_pos rfl, if_pos rfl]
    exact ⟨congrArg Chan.rx hc3, congrArg Chan.poison hc3, hb3, hr3, he3⟩
  | false =>
    rw [if_neg Bool.false_ne_true, if_neg Bool.false_ne_true, State.wr_chans, State.wr_evq]
    exact ⟨congrArg Chan.rx hc3, congrArg Chan.poison hc3, (State.bit_wr_ne (s := s3) (a := aCulm 0x18) _ _ (by decide)).trans hb3,
      State.rd_wr_self hinv.regs _ _, he3⟩

/- Counters ---------------------------------------------------------------------------------------------------------- -/

/-- A sparse table without the entries of some keys reads its default there. -/
theorem spGet_filter {α : Type} (d : Nat → α) (keep : Nat → Bool) (m : List (Nat × α)) (k : Nat) :
    spGet d (m.filter fun p => keep p.1) k = if keep k then spGet d m k else d k := by
  induction m with
  | nil => simp [spGet]
  | cons p m ih =>
    obtain ⟨i, v⟩ := p
    rw [List.filter_cons]
    by_cases hik : i = k
    · subst hik
      cases hk : keep i <;> simp only [hk, spGet, if_true, if_false, Bool.false_eq_true, ih]
    · cases keep i <;> simp only [spGet, if_true, if_false, Bool.false_eq_true, ih, if_neg hik]

/-- A table whose registers all reset to 0 holds none that does not. -/
theorem fieldsReset_tabFind {t : List RegArr} (h : ∀ r ∈ t, ∀ i, fieldsReset (r.fields i) = 0) (o : Nat) :
    fieldsReset (tabFind t o) = 0 := by
  induction t with
  | nil => rfl
  | cons r t ih =>
    rw [tabFind]
    split
    · exact h r (List.mem_cons_self ..) _
    · exact ih fun r' hr' => h r' (List.mem_cons_of_mem _ hr')

theorem regReset_aCulm {o : Nat} (ho : o < 0x10000) : regReset (aCulm o) = 0 := by
  have htab : ∀ r ∈ tabCulm, ∀ i, fieldsReset (r.fields i) = 0 := by
    unfold tabCulm
    repeat' refine List.forall_mem_cons.mpr ⟨fun _ => rfl, ?_⟩
    exact nofun
  have hzero : fieldsReset (regFields (aCulm o)) = 0 := by
    unfold regFields aCulm
    by_cases h4 : (0xA0000 + o) % 4 = 0
    · rw [if_neg (not_not.mpr h4), if_neg (by omega), if_neg (by omega), if_neg (by omega), if_neg (by omega), if_neg (by omega), if_neg (by omega),
        if_neg (by omega), if_neg (by omega), if_neg (by omega), if_neg (by omega), if_neg (by omega), if_neg (by omega),
        if_pos (by omega)]
      exact fieldsReset_tabFind htab _
    · rw [if_pos h4]
      rfl
  rw [regReset, hzero]
  rfl

/-- The registers that CNT_CLEAR of the Culm keeps. -/
def culmKeeps (a : Nat) : Bool := !(aCulm 0x4000 ≤ a && a < aCulm 0x5000 || aCulm 0x6000 ≤ a && a < aCulm 0x7000)

theorem State.rd_culmClear (s : State) (a : Nat) : s.culmClear.rd a = if culmKeeps a then s.rd a else regReset a :=
  spGet_filter regReset culmKeeps s.regs a

theorem culmKeeps_eq_true_iff {a : Nat} : culmKeeps a = true ↔ ∀ o < 0x1000, a ≠ aCulm (0x4000 + o) ∧ a ≠ aCulm (0x6000 + o) := by
  simp only [culmKeeps, Bool.not_eq_true', Bool.or_eq_false_iff, Bool.and_eq_false_iff, decide_eq_false_iff_not]
  unfold aCulm
  constructor
  · intro h o ho
    omega
  · intro h
    have h1 := h (a - 0xA4000)
    have h2 := h (a - 0xA6000)
    omega

/-- Settles O29: deliveries, overruns and collided words, RX_DISCARD, and the counters and frame count of the Culm. -/
theorem culmDelivery : Obligations.CulmDelivery := by
  refine ⟨fun s c n f rest => ?_, fun s c hs => ?_, fun s hs hinv => ⟨?_, ?_⟩⟩
  · intro s1 s2 ch hn hf hp
    have hex : exec (.wordDelivery c) s = .next (s2.landWord c.val f) := exec_wordDelivery hn hf hp
    refine ⟨fun hl hrx hpo => ?_, fun hl hfull hinv => ?_, fun hl => ?_⟩
    · have hfree : ¬((s2.chan c.val).rx.isSome || (s2.chan c.val).poison) = true := by
        rw [show (s2.chan c.val).rx = none from hrx, show (s2.chan c.val).poison = false from hpo]
        exact Bool.false_ne_true
      rw [hex, State.landWord, hl, if_neg Bool.false_ne_true]
      dsimp only
      rw [if_neg hfree]
    · have hinv2 : s2.Inv := (State.Keeps.frame (State.collide_keeps (.refl s))).inv hinv
      obtain ⟨h1, h2, h3, h4, h5⟩ := State.landWord_overrun hinv2 (c := c.val) hl hfull
      refine ⟨_, hex, h1, h2, h3, fun hb => ?_, fun hb => ?_, h5.trans s.collide_evq⟩
      · rw [h4, if_neg (by rw [show s2.bit (aCulm 0x18) 31 = false from hb]; exact Bool.false_ne_true)]
      · rw [h4, if_pos (show s2.bit (aCulm 0x18) 31 = true from hb)]
        rfl
    · rw [hex, State.landWord, hl, if_pos rfl]
  · exact congrArg Host.Outcome.next ((State.mgmtDo_awake hs _ _ _).trans rfl)
  · refine ⟨_, congrArg Host.Outcome.next (State.mgmtDo_awake hs _ _ _), rfl, fun c => ⟨?_, ?_⟩, fun a ha => ?_⟩
    · rw [State.rd_culmClear, if_neg (by rw [culmKeeps_eq_true_iff]; exact fun h => (h (4 * c.val) (by omega)).1 rfl),
        regReset_aCulm (by omega)]
    · rw [State.rd_culmClear, if_neg (by rw [culmKeeps_eq_true_iff]; exact fun h => (h (4 * c.val) (by omega)).2 rfl),
        regReset_aCulm (by omega)]
    · rw [State.rd_culmClear, if_pos (culmKeeps_eq_true_iff.mpr ha)]
      rfl
  · exact ⟨_, congrArg Host.Outcome.next (State.mgmtDo_awake hs _ _ _), rfl, State.rd_wr_self hinv.regs _ _, rfl,
      fun a ha => State.rd_wr_ne ha⟩

end Sys2Proof.Machine
end

section

/-! SUPPORT. The Granary's events, its time, ageing and urgency, and the task operation queue (O30, O31, O34). -/

namespace Sys2Proof.Machine

/- The order of events ------------------------------------------------------------------------------------------- -/

theorem leastRank_le {l : List EvReq} {r : Nat} (h : leastRank l = some r) : ∀ x ∈ l, r ≤ x.rank := by
  induction l generalizing r with
  | nil => exact nofun
  | cons e l ih =>
    simp only [leastRank, Option.some.injEq] at h
    intro x hx
    cases hl : leastRank l with
    | none =>
      rw [hl] at h
      obtain rfl : l = [] := by cases l with
        | nil => rfl
        | cons _ _ => cases hl
      obtain rfl : x = e := by simpa using hx
      exact h.ge
    | some q =>
      rw [hl] at h
      rcases List.mem_cons.mp hx with rfl | hx
      · exact h ▸ Nat.min_le_left _ _
      · exact (h ▸ Nat.min_le_right _ _ : r ≤ q).trans (ih hl x hx)

theorem takeEv_mem {r : Nat} {l rest : List EvReq} {e : EvReq} (h : takeEv r l = some (e, rest)) : e ∈ l ∧ e.rank = r := by
  induction l generalizing rest with
  | nil => cases h
  | cons x l ih =>
    rw [takeEv] at h
    split at h
    · next hx =>
      cases h
      exact ⟨List.mem_cons_self .., hx⟩
    · obtain ⟨⟨y, m⟩, hy, he⟩ := Option.map_eq_some_iff.mp h
      cases he
      exact ⟨List.mem_cons_of_mem _ (ih hy).1, (ih hy).2⟩

/-- The Granary takes an event of the lowest rank (R193). -/
theorem nextEv_least {l rest : List EvReq} {e : EvReq} (h : nextEv l = some (e, rest)) : e ∈ l ∧ ∀ x ∈ l, e.rank ≤ x.rank := by
  rw [nextEv] at h
  split at h
  · cases h
  · next r hr =>
    obtain ⟨hmem, hrank⟩ := takeEv_mem h
    exact ⟨hmem, fun x hx => hrank ▸ leastRank_le hr x hx⟩

/- Events and their tasks ------------------------------------------------------------------------------------------ -/

theorem State.wakeTask_asleep {s : State} {id : Nat} {slot : Option Nat}
    (h : (s.task id).state ≠ .asleep ∨ (s.task id).pend &&& (s.task id).mask = 0 ∨ (s.task id).paging = true) :
    s.wakeTask id slot = s := by
  refine if_neg fun ⟨hst, he, hp⟩ => ?_
  rcases h with h | h | h
  · exact h hst
  · exact he h
  · rw [hp] at h
    cases h

theorem State.wakeTask_outside {s : State} {id : Nat} (hst : (s.task id).state = .asleep)
    (he : (s.task id).pend &&& (s.task id).mask ≠ 0) (hp : (s.task id).paging = false) :
    s.wakeTask id none = s.setTask id { s.task id with
      state := .ready, pend := (s.task id).pend &&& ~~~(s.task id).mask, evt := (s.task id).pend &&& (s.task id).mask
      stamp := s.grnTime, urg := .idle } := if_pos ⟨hst, he, hp⟩

theorem State.resumeTask_task_ne {s : State} {i id k : Nat} (r : TaskRec) (evt : W32) (hk : k ≠ id) :
    (s.resumeTask i id r evt).task k = s.task k := State.task_setTask_ne _ hk

theorem State.directed_recorded {s : State} {id : Nat} (c : Nat) (h : (s.task id).state ≠ .none) :
    s.directed id c = (s.setTask id { s.task id with pend := (s.task id).pend ||| (1 <<< c) }).wakeTask id (s.slotOfTask id) :=
  if_neg h

section
variable {s : State} {id c : Nat} (h : s.Inv)
include h

/-- A directed event of a class that wakes nothing sets the pending bit alone (R188). -/
theorem State.directed_pends (hr : (s.task id).state ≠ .none)
    (hstay : (s.task id).state ≠ .asleep ∨ ((s.task id).pend ||| (1 <<< c)) &&& (s.task id).mask = 0 ∨ (s.task id).paging = true) :
    s.directed id c = s.setTask id { s.task id with pend := (s.task id).pend ||| (1 <<< c) } := by
  rw [State.directed_recorded c hr, State.wakeTask_asleep]
  rw [State.task_setTask_self h]
  exact hstay

/-- A directed event of a class that the task sleeps on wakes it (R190). -/
theorem State.directed_wakes (hr : (s.task id).state = .asleep)
    (he : ((s.task id).pend ||| (1 <<< c)) &&& (s.task id).mask ≠ 0) (hp : (s.task id).paging = false) :
    let u := s.directed id c
    let p := (s.task id).pend ||| (1 <<< c)
    (u.task id).state = .ready ∧ (u.task id).pend = p &&& ~~~(s.task id).mask ∧ u.evq = s.evq ∧ u.mem = s.mem ∧ u.regs = s.regs ∧
      (∀ k, k ≠ id → u.task k = s.task k) ∧
      (s.slotOfTask id = none → (u.task id).evt = p &&& (s.task id).mask ∧ (u.task id).stamp = s.grnTime ∧ u.ths = s.ths) ∧
      (∀ i, s.slotOfTask id = some i → (u.th i).asleep = false ∧ (u.th i).evt = p &&& (s.task id).mask) := by
  intro u p
  obtain ⟨v, hv⟩ : ∃ v, v = s.setTask id { s.task id with pend := p } := ⟨_, rfl⟩
  have hvI : v.Inv := hv ▸ h.setTask _ _
  have hself : v.task id = { s.task id with pend := p } := hv ▸ State.task_setTask_self h _ _
  have hu : u = v.wakeTask id (s.slotOfTask id) := hv ▸ State.directed_recorded c (by rw [hr]; exact nofun)
  have hst : (v.task id).state = .asleep := hself ▸ hr
  have hcls : (v.task id).pend &&& (v.task id).mask ≠ 0 := by rw [hself]; exact he
  have hpg : (v.task id).paging = false := hself ▸ hp
  rw [hu]
  cases hslot : s.slotOfTask id with
  | none =>
    rw [State.wakeTask_outside hst hcls hpg, State.task_setTask_self hvI, hself]
    refine ⟨rfl, rfl, hv ▸ rfl, hv ▸ rfl, hv ▸ rfl, fun k hk => ?_, fun _ => ⟨rfl, hv ▸ rfl, hv ▸ rfl⟩, nofun⟩
    rw [State.task_setTask_ne _ hk, hv, State.task_setTask_ne _ hk]
  | some i =>
    rw [State.wakeTask_wakes hst hcls hpg, hself]
    obtain ⟨hth, htask, hmem, hregs⟩ := State.resumeTask_spec hvI i id
      { s.task id with pend := p &&& ~~~(s.task id).mask, state := .ready } (p &&& (s.task id).mask)
    rw [htask]
    refine ⟨rfl, rfl, hv ▸ rfl, hmem.trans (hv ▸ rfl), hregs.trans (hv ▸ rfl), fun k hk => ?_, nofun, fun j hj => ?_⟩
    · rw [State.resumeTask_task_ne _ _ hk, hv, State.task_setTask_ne _ hk]
    · cases hj
      rw [hth]
      exact ⟨rfl, rfl⟩

end

/-- An event of the form that is next takes a free intake position and reaches its tasks (R193). -/
theorem State.takeEvent_takes {s : State} {dir : Bool} {e : EvReq} {l : List EvReq} (h : nextEv s.evq = some (e, l))
    (hd : e.task.isSome = dir) (hf : s.intakeFree = true) :
    s.takeEvent dir = ({ s with evq := l }.intakeUse (1 + s.wokenBy e)).process e := by
  rw [State.takeEvent, h]
  exact if_pos ⟨hd, hf⟩

/-- Without an event or a free position nothing is taken. -/
theorem State.takeEvent_idle {s : State} (dir : Bool) (h : s.evq = [] ∨ s.intakeFree = false) : s.takeEvent dir = s := by
  rw [State.takeEvent]
  split
  · next e l hn =>
    rcases h with h | h
    · rw [h] at hn
      cases hn
    · exact if_neg fun hf => Bool.false_ne_true (h.symm.trans hf.2)
  · rfl

/-- Settles O30: the order and intake of events, and what a directed and a broadcast event do. -/
theorem events : Obligations.Events := by
  refine ⟨fun s e l id => ?_, fun s e l => ?_, fun s h => ?_, fun l rest e h => nextEv_least h⟩
  · intro s1 r p hs hn ht hf
    have hex : exec .directedEvent s = .next (s1.directed id e.cls) := by
      refine congrArg Host.Outcome.next ((State.awakeDo_awake hs _).trans ?_)
      rw [State.takeDirected, State.takeEvent_takes hn (by rw [ht]; rfl) hf, State.wokenBy, State.process, ht]
      rfl
    have hinv1 : s.Inv → s1.Inv := fun h => (State.Keeps.frame (.refl s)).inv h
    refine ⟨fun hr => hex.trans (congrArg Host.Outcome.next (if_pos hr)), fun hr hstay hinv => ?_, fun hr he hp hinv => ?_⟩
    · exact hex.trans (congrArg Host.Outcome.next (State.directed_pends (hinv1 hinv) hr hstay))
    · exact ⟨_, hex, State.directed_wakes (hinv1 hinv) hr he hp⟩
  · intro woken hs hn ht hf
    refine congrArg Host.Outcome.next ((State.awakeDo_awake hs _).trans ?_)
    rw [State.takeBroadcast, State.takeEvent_takes hn (by rw [ht]; rfl) hf, State.wokenBy, State.process, ht]
    rfl
  · refine ⟨congrArg Host.Outcome.next ?_, congrArg Host.Outcome.next ?_⟩ <;> rw [State.awakeDo] <;> split
    · rfl
    · exact State.takeEvent_idle true h
    · rfl
    · exact State.takeEvent_idle false h

end Sys2Proof.Machine
end

section

/-! SUPPORT. The Granary's time, ageing and urgency, and the task operation queue (O31, O34). -/

namespace Sys2Proof.Machine

/- Every entry of a table ------------------------------------------------------------------------------------------ -/

theorem le_of_mem_spOkFrom {α : Type} [DecidableEq α] {d : Nat → α} {l : List (Nat × α)} {n : Nat} (h : spOkFrom d n l = true)
    {p : Nat × α} (hp : p ∈ l) : n ≤ p.1 := by
  induction l generalizing n with
  | nil => cases hp
  | cons q l ih =>
    simp only [spOkFrom, Bool.and_eq_true, decide_eq_true_eq] at h
    rcases List.mem_cons.mp hp with rfl | hp
    · exact h.1.1
    · exact (Nat.le_succ_of_le h.1.1).trans (ih h.2 hp)

theorem spGet_of_not_mem {α : Type} {d : Nat → α} {m : List (Nat × α)} {k : Nat} (h : k ∉ m.map Prod.fst) : spGet d m k = d k := by
  induction m with
  | nil => rfl
  | cons p m ih =>
    rw [List.map_cons, List.mem_cons, not_or] at h
    rw [spGet, if_neg (Ne.symm h.1), ih h.2]

/-- Storing `f` of every entry of `l` in a table gives `f` there and leaves the rest. -/
theorem spGet_foldl_spSet {α : Type} [DecidableEq α] {d : Nat → α} (f : α → α) {l : List (Nat × α)} {n : Nat}
    (hl : spOkFrom d n l = true) {m : List (Nat × α)} (hm : spOk d m = true) (k : Nat) :
    spOk d (l.foldl (fun m p => spSet d m p.1 (f p.2)) m) = true ∧
      spGet d (l.foldl (fun m p => spSet d m p.1 (f p.2)) m) k =
        if k ∈ l.map Prod.fst then f (spGet d l k) else spGet d m k := by
  induction l generalizing n m with
  | nil => exact ⟨hm, rfl⟩
  | cons p l ih =>
    obtain ⟨i, v⟩ := p
    simp only [spOkFrom, Bool.and_eq_true] at hl
    obtain ⟨hok, hget⟩ := ih hl.2 (spOk_spSet hm i (f v))
    refine ⟨hok, hget.trans ?_⟩
    simp only [List.map_cons, List.mem_cons, spGet]
    by_cases hk : k = i
    · subst hk
      have hnot : k ∉ l.map Prod.fst := fun hmem => by
        obtain ⟨q, hq, rfl⟩ := List.mem_map.mp hmem
        exact absurd (le_of_mem_spOkFrom hl.2 hq) (Nat.not_succ_le_self _)
      rw [if_neg hnot, spGet_spSet_self hm, if_pos (Or.inl rfl), if_pos rfl]
    · rw [spGet_spSet_ne _ _ hk, if_neg (Ne.symm hk)]
      simp only [hk, false_or]

/-- A table whose every entry is replaced by `f` of it, where `f` keeps the default. -/
theorem spGet_foldl_spSet_all {α : Type} [DecidableEq α] {d : Nat → α} (f : α → α) {m : List (Nat × α)} (hm : spOk d m = true)
    (hf : ∀ k, f (d k) = d k) (k : Nat) :
    spGet d (m.foldl (fun m p => spSet d m p.1 (f p.2)) m) k = f (spGet d m k) := by
  rw [(spGet_foldl_spSet f hm hm k).2]
  by_cases hk : k ∈ m.map Prod.fst
  · rw [if_pos hk]
  · rw [if_neg hk, spGet_of_not_mem hk, hf]

/- GRN.TIME ---------------------------------------------------------------------------------------------------------- -/

/-- Every task is stored again as `f` of its record. -/
theorem State.foldl_setTask (f : State → TaskRec → TaskRec) (hf : ∀ (u : State) m, f { u with tasks := m } = f u)
    (l : List (Nat × TaskRec)) (s : State) (m : List (Nat × TaskRec)) :
    l.foldl (fun s p => s.setTask p.1 (f s p.2)) { s with tasks := m } =
      { s with tasks := l.foldl (fun m p => spSet (fun _ => TaskRec.absent) m p.1 (f s p.2)) m } := by
  induction l generalizing m with
  | nil => rfl
  | cons p l ih =>
    rw [List.foldl_cons, List.foldl_cons, hf]
    exact ih (spSet (fun _ => TaskRec.absent) m p.1 (f s p.2))

/-- The state in which GRN.TIME has advanced and no task has aged yet. -/
def State.grnNext (s : State) : State := s.wr (aGrn 0x14) (BitVec.ofNat 32 ((s.grnTime + 1).toNat))

theorem State.grnTick_runs {s : State} (hst : s.culmStart ≠ none) (hrun : s.stopped = false) :
    s.grnTick = { s.grnNext with
      tasks := s.tasks.foldl (fun m p => spSet (fun _ => TaskRec.absent) m p.1 (s.grnNext.ageTask p.2)) s.tasks } := by
  rw [State.grnTick, hrun, Bool.or_false, if_neg (mt Option.isNone_iff_eq_none.mp hst)]
  exact State.foldl_setTask State.ageTask (fun _ _ => rfl) s.tasks s.grnNext s.tasks

theorem State.grnTick_task {s : State} (h : s.Inv) (hst : s.culmStart ≠ none) (hrun : s.stopped = false) (id : Nat) :
    s.grnTick.task id = s.grnNext.ageTask (s.task id) := by
  rw [State.grnTick_runs hst hrun]
  exact spGet_foldl_spSet_all _ h.tasks (fun _ => rfl) id

theorem State.grnTime_grnNext {s : State} (h : s.Inv) : s.grnNext.grnTime = s.grnTime + 1 := by
  have hlt : (s.grnTime + 1).toNat < 2 ^ 24 := (s.grnTime + 1).isLt
  rw [State.grnTime, State.grnNext, State.rd_wr_self h.regs, BitVec.toNat_ofNat, Nat.mod_eq_of_lt (by omega)]
  rw [BitVec.ofNat_toNat, BitVec.setWidth_eq]

/-- What the ageing of R196 sees of a held wait (R185). -/
theorem State.waitOf_held {s : State} (t : TaskRec) :
    s.waitOf (if 2 ^ 23 < s.waitOf t then { t with stamp := t.stamp + 1 } else t) =
      min (s.waitOf t) (max (2 ^ 23) (s.waitOf t - 1)) := by
  by_cases hw : 2 ^ 23 < s.waitOf t
  · rw [if_pos hw]
    unfold State.waitOf at hw ⊢
    dsimp only
    bv_omega
  · rw [if_neg hw]
    omega

/-- An ageing task (R196): its wait is held, and its EPRIO follows its PRIO and the wait held. -/
theorem State.ageTask_outside {s : State} {t : TaskRec} (h : t.outside = true) :
    s.ageTask t = { (if 2 ^ 23 < s.waitOf t then { t with stamp := t.stamp + 1 } else t) with
      eprio := if t.urgent || t.prio == 7 then 7
        else if s.rf (aGrn 4) 0 20 = 0 then t.prio
        else min 6 (t.prio + min (s.waitOf t) (max (2 ^ 23) (s.waitOf t - 1)) / s.rf (aGrn 4) 0 20) } := by
  rw [State.ageTask, if_pos h, ← State.waitOf_held]
  dsimp only
  rw [State.ageOf]
  split <;> rfl

/- The task operation queue -------------------------------------------------------------------------------------------- -/

section
variable {s : State} {o : TaskOp} {l : List TaskOp} (hfree : s.opFree ≤ s.eclk) (ho : s.taskOps = o :: l)
include hfree ho

theorem State.opNext_head : s.opNext = some o := by rw [State.opNext, if_pos hfree, ho]; rfl

/-- The operation at the head of the queue, not refused, is the one performed (R212). -/
theorem State.headOp_head (hr : s.opRefused o = false) : s.headOp o.op = some o := by
  rw [State.headOp, State.opNext_head hfree ho, Option.filter_some, if_pos]
  rw [hr]
  simp

end

theorem State.opNext_none {s : State} (h : s.eclk < s.opFree ∨ s.taskOps = []) : s.opNext = none := by
  rw [State.opNext]
  split
  · rw [h.resolve_left (by omega)]
    rfl
  · rfl

theorem State.headOp_none {s : State} (h : s.opNext = none) (op : Nat) : s.headOp op = none := by
  rw [State.headOp, h]
  rfl

/-- A KILL of a task that has ended or is lost changes nothing (R210). -/
theorem State.killTask_gone {s : State} {id : Nat} (h : (s.task id).state = .ended ∨ (s.task id).state = .lost) :
    s.killTask id = s := by
  rcases h with h | h <;> rw [State.killTask, h]

theorem State.killTask_kills {s : State} {id : Nat} (h : (s.task id).state = .ready ∨ (s.task id).state = .asleep) :
    s.killTask id = s.setTask id { s.task id with state := .ended } := by
  rcases h with h | h <;> rw [State.killTask, h]

/-- The registers of the Granary that CNT_CLEAR keeps (R518). -/
def grnKeeps (a : Nat) : Bool := !(aGrn 0x20 ≤ a && a ≤ aGrn 0x4C || a == aGrn 0x54)

theorem State.rd_grnClear (s : State) (a : Nat) : s.grnClear.rd a = if grnKeeps a then s.rd a else regReset a :=
  spGet_filter regReset grnKeeps s.regs a

theorem grnKeeps_eq_true_iff {a : Nat} : grnKeeps a = true ↔ ¬(aGrn 0x20 ≤ a ∧ a ≤ aGrn 0x4C) ∧ a ≠ aGrn 0x54 := by
  simp only [grnKeeps, Bool.not_eq_true', Bool.or_eq_false_iff, ← Bool.decide_and, decide_eq_false_iff_not, beq_eq_false_iff_ne, ne_eq]

/-- The counters of the Granary reset to 0. -/
theorem regReset_grnCounter (k : Fin 12) : regReset (aGrn (0x20 + 4 * k.val)) = 0 := by decide +revert

/-- Settles O34: every operation of the queue, the refused ones, and the counters. -/
theorem taskOperations : Obligations.TaskOperations := by
  refine ⟨fun s o l => ?_, fun s o l => ?_, fun s hs h c hc => ?_, fun s refused hinv => ?_, fun s hs hinv => ?_⟩
  · intro r hs hfree ho hr
    have hhead := State.headOp_head hfree ho hr
    have hdo : ∀ f : State → State, s.awakeDo f = f s := State.awakeDo_awake hs
    refine ⟨fun hop hst => ?_, fun hop hst => ?_, fun hop => ?_, fun hop => ?_, fun hop => ?_, fun hop => ?_⟩ <;> rw [hop] at hhead
    · refine congrArg Host.Outcome.next ((hdo _).trans ?_)
      rw [State.opKill, hhead]
      exact congrArg (fun u => (State.opDone u false).poll) (State.killTask_kills hst)
    · refine congrArg Host.Outcome.next ((hdo _).trans ?_)
      rw [State.opKill, hhead]
      exact congrArg (fun u => (State.opDone u false).poll) (State.killTask_gone hst)
    · refine congrArg Host.Outcome.next ((hdo _).trans ?_)
      rw [State.opRaise, hhead]
    · refine congrArg Host.Outcome.next ((hdo _).trans ?_)
      rw [State.opSetPrio, hhead]
      dsimp only
      simp only [Bool.or_eq_true]
      rfl
    · refine congrArg Host.Outcome.next ((hdo _).trans ?_)
      rw [State.opSetAffinity, hhead]
      dsimp only
      rw [ofNat_field, Nat.pow_zero, Nat.div_one]
    · refine congrArg Host.Outcome.next ((hdo _).trans ?_)
      rw [State.opRead, hhead]
  · intro hs hfree ho hr
    have hex : exec .refusedOperation s =
        .next ((if o.op = 2 && field o.arg 0 5 = 31 then s.setB (aGrn 0x18) 1 else s).opDone true).poll := by
      refine congrArg Host.Outcome.next ((State.awakeDo_awake hs _).trans ?_)
      rw [State.opRefuse, State.opNext_head hfree ho]
      dsimp only
      rw [if_pos hr]
    refine ⟨fun hop => ?_, fun hop hc => ?_⟩
    · rw [hex, if_neg (by simpa [imp_iff_not_or] using hop)]
    · rw [hex, if_pos (by simp [hop, hc])]
  · have hnone := State.opNext_none h
    have hhead := State.headOp_none hnone
    have hdo : ∀ f : State → State, s.awakeDo f = f s := State.awakeDo_awake hs
    simp only [List.mem_cons, List.not_mem_nil, or_false] at hc
    rcases hc with rfl | rfl | rfl | rfl | rfl | rfl <;> refine congrArg Host.Outcome.next ((hdo _).trans ?_)
    · rw [State.opKill, hhead]
    · rw [State.opRaise, hhead]
    · rw [State.opSetPrio, hhead]
    · rw [State.opSetAffinity, hhead]
    · rw [State.opRead, hhead]
    · rw [State.opRefuse, hnone]
  · refine ⟨?_, rfl, rfl, rfl, fun a ha => State.rd_wr_ne ha⟩
    rw [State.bit, show (s.opDone refused).rf (aGrn 0x68) 8 1 = refused.toNat % 2 ^ 1 from State.rf_wf_self hinv.regs _ _ (by decide)]
    cases refused <;> rfl
  · refine ⟨_, congrArg Host.Outcome.next (State.mgmtDo_awake hs _ _ _), rfl, fun k => ?_, ?_, fun a h1 h2 => ?_⟩
    · rw [State.rd_grnClear, if_neg, regReset_grnCounter]
      rw [grnKeeps_eq_true_iff]
      unfold aGrn
      omega
    · rw [State.rd_grnClear, if_neg (by decide)]
      decide
    · rw [State.rd_grnClear, if_pos (grnKeeps_eq_true_iff.mpr ⟨h1, h2⟩)]
      rfl

/-- Settles O31: an advance of GRN.TIME, urgency and the end of a quantum. -/
theorem timeAndUrgency : Obligations.TimeAndUrgency := by
  refine ⟨fun s hs hst hrun hinv => ?_, fun s id => ?_⟩
  · have htask := State.grnTick_task hinv hst hrun
    have hw : ∀ t, s.grnNext.waitOf t = (s.grnTime + 1 - t.stamp).toNat := fun t => by
      rw [State.waitOf, State.grnTime_grnNext hinv]
    have htick : s.grnNext.rf (aGrn 4) 0 20 = s.rf (aGrn 4) 0 20 := State.rf_wr_ne _ _ _ (by decide)
    have heq := State.grnTick_runs hst hrun
    refine ⟨s.grnTick, congrArg Host.Outcome.next (State.awakeDo_awake hs _), ?_, ?_, ?_, fun a ha => ?_, fun id hid => ?_, fun id => ?_⟩
    · rw [heq]
      exact State.rd_wr_self hinv.regs _ _
    · exact (congrArg State.mem heq).trans rfl
    · exact (congrArg State.ths heq).trans rfl
    · rw [heq]
      exact State.rd_wr_ne ha
    · rw [htask, State.ageTask, if_neg (by rw [hid]; exact Bool.false_ne_true)]
    · intro t w held aged tick hout
      have hage : s.grnTick.task id = { held with
          eprio := if t.urgent || t.prio == 7 then 7 else if tick = 0 then t.prio else min 6 (t.prio + aged / tick) } := by
        rw [htask, State.ageTask_outside hout, hw, htick]
      refine ⟨fun h => ?_, fun hu hp ht => ?_, fun hu hp ht => ?_⟩ <;>
        refine hage.trans (congrArg (fun e => { held with eprio := e }) ?_)
      · exact if_pos (by simpa using h)
      · rw [hu, if_neg (by simpa using hp), if_pos ht]
      · rw [hu, if_neg (by simpa using hp), if_neg ht]
  · intro t bound hs
    have hdo : ∀ f : State → State, s.awakeDo f = f s := State.awakeDo_awake hs
    refine ⟨fun hout hu hb hw => ?_, fun h => ?_, fun hr hin hran hq => ?_, fun h => ?_⟩ <;>
      refine congrArg Host.Outcome.next ((hdo _).trans ?_)
    · rw [State.makeUrgent]
      refine if_pos ?_
      rw [show (s.task id.val).outside = true from hout, show (s.task id.val).urgent = false from hu, decide_eq_true hw]
      simpa using hb
    · rw [State.makeUrgent]
      refine if_neg fun hc => ?_
      simp only [Bool.and_eq_true, Bool.not_eq_true', bne_iff_ne, decide_eq_true_eq] at hc
      obtain ⟨⟨⟨h1, h2⟩, h3⟩, h4⟩ := hc
      rcases h with h | h | h | h
      · exact Bool.false_ne_true (h.symm.trans h1)
      · exact Bool.false_ne_true (h2.symm.trans h)
      · exact h3 h
      · exact absurd h4 (Nat.not_le.mpr h)
    · rw [State.expire]
      refine if_pos ?_
      rw [show (s.task id.val).state = .ready from hr, show (s.task id.val).inSlot = true from hin,
        show (s.task id.val).ran = true from hran, decide_eq_true hq]
      rfl
    · rw [State.expire]
      refine if_neg fun hc => ?_
      simp only [Bool.and_eq_true, decide_eq_true_eq] at hc
      obtain ⟨⟨-, h1⟩, h2⟩ := hc
      rcases h with h | h
      · exact Bool.false_ne_true (h.symm.trans h1)
      · exact absurd h2 (Nat.not_le.mpr h)

end Sys2Proof.Machine
end

section

/-! SUPPORT. Scheduling rounds: round boundaries, the order of tasks and of slots, and grants (O32). -/

namespace Sys2Proof.Machine

/- Round boundaries ------------------------------------------------------------------------------------------------ -/

/-- Engine `e` is a mapped candidate for sparing (R476). -/
def State.candBit (s : State) (e : Nat) : Bool := s.bit (aShf (e / 9) 4) (16 + e % 9)

/-- What a round boundary may touch: records, registers other than a Sheaf's, and threads of engines that are candidates. -/
def State.RoundFrame (s u : State) : Prop :=
  (∃ (regs : List (Nat × W32)) (tasks : List (Nat × TaskRec)) (ths : List (Nat × Thread)),
    u = { s with regs := regs, tasks := tasks, ths := ths }) ∧
  (∀ e, u.candBit e = s.candBit e) ∧ ∀ i, s.candBit (engOf i) = false → u.th i = s.th i

theorem State.RoundFrame.refl (s : State) : s.RoundFrame s := ⟨⟨_, _, _, rfl⟩, fun _ => rfl, fun _ _ => rfl⟩

theorem State.RoundFrame.trans {s u v : State} (h : s.RoundFrame u) (h' : u.RoundFrame v) : s.RoundFrame v := by
  obtain ⟨⟨_, _, _, heq⟩, hb, ht⟩ := h
  obtain ⟨⟨r, k, t, heq'⟩, hb', ht'⟩ := h'
  exact ⟨⟨r, k, t, by rw [heq', heq]⟩, fun e => (hb' e).trans (hb e),
    fun i hi => (ht' i ((hb _).trans hi)).trans (ht i hi)⟩

theorem State.RoundFrame.foldl {f : State → Nat → State} (hf : ∀ (s : State) k, s.RoundFrame (f s k)) (l : List Nat) (s : State) :
    s.RoundFrame (l.foldl f s) := by
  induction l generalizing s with
  | nil => exact .refl s
  | cons k l ih => exact (hf s k).trans (ih _)

theorem State.judgeUrgent_frame (s : State) (id : Nat) : s.RoundFrame (s.judgeUrgent id) := by
  have hne : ∀ e, aShf (e / 9) 4 ≠ aGrn 0x3C ∧ aShf (e / 9) 4 ≠ aGrn 0x18 := fun e => by
    unfold aShf aGrn
    omega
  unfold State.judgeUrgent
  dsimp only
  split
  · exact ⟨⟨_, _, _, rfl⟩, fun _ => rfl, fun _ _ => rfl⟩
  · exact ⟨⟨_, _, _, rfl⟩, fun e => (State.bit_wr_ne _ _ (hne e).2).trans (State.bit_wr_ne _ _ (hne e).1), fun _ _ => rfl⟩
  · exact .refl s

theorem State.evacuate_frame (s : State) (i : Nat) : s.RoundFrame (s.evacuate i) := by
  unfold State.evacuate
  dsimp only
  split
  · next h =>
    simp only [Bool.and_eq_true] at h
    have hth : ∀ j, s.candBit (engOf j) = false → j ≠ i := fun j hj hji => by
      subst hji
      exact Bool.false_ne_true (hj.symm.trans h.1.1.2)
    split
    · exact ⟨⟨_, _, _, rfl⟩, fun _ => rfl, fun j hj => State.th_setTh_ne (hth j hj)⟩
    · exact ⟨⟨_, _, _, rfl⟩, fun _ => rfl, fun j hj => State.th_setTh_ne (hth j hj)⟩
  · exact .refl s

/-- The state in which a round boundary has judged the urgent tasks and evacuated the candidates. -/
def State.boundary (s : State) : State :=
  let s1 := ((s.tasks.filter fun p => p.2.urgent && p.2.waiting).map (·.1)).foldl State.judgeUrgent s
  (s1.ths.map (·.1)).foldl State.evacuate s1

theorem State.boundary_frame (s : State) : s.RoundFrame s.boundary :=
  (State.RoundFrame.foldl State.judgeUrgent_frame _ s).trans (State.RoundFrame.foldl State.evacuate_frame _ _)

theorem State.roundBegin_runs {s : State} (hst : s.culmStart ≠ none) (hrun : s.stopped = false) :
    s.roundBegin = { s.boundary with roundStart := true } := by
  rw [State.roundBegin, hrun, Bool.or_false, if_neg (mt Option.isNone_iff_eq_none.mp hst)]
  rfl

/- The order of tasks (R198) ------------------------------------------------------------------------------------------ -/

/-- Task `a` waits longer than `b`, or as long with the lower ID. -/
def State.longer (s : State) (a b : Nat) : Prop :=
  s.waitOf (s.task b) < s.waitOf (s.task a) ∨ s.waitOf (s.task a) = s.waitOf (s.task b) ∧ a < b

theorem State.prefers_iff (s : State) (a b : Nat) : s.prefers a b = true ↔
    ((s.task a).urgent = true ∧ (s.task b).urgent = false) ∨
      ((s.task a).urgent = true ∧ (s.task b).urgent = true ∧ s.longer a b) ∨
      ((s.task a).urgent = false ∧ (s.task b).urgent = false ∧
        ((s.task b).eprio < (s.task a).eprio ∨ (s.task a).eprio = (s.task b).eprio ∧ s.longer a b)) := by
  unfold State.prefers State.longer
  dsimp only
  cases (s.task a).urgent <;> cases (s.task b).urgent
  · by_cases he : (s.task a).eprio = (s.task b).eprio
    · simp [he]
    · have hne : ((s.task a).eprio != (s.task b).eprio) = true := bne_iff_ne.mpr he
      simp [he]
  · simp
  · simp
  · simp

theorem State.prefers_trans {s : State} {a b c : Nat} (h : s.prefers a b = true) (h' : s.prefers b c = true) :
    s.prefers a c = true := by
  rw [State.prefers_iff] at h h' ⊢
  unfold State.longer at *
  rcases h with ⟨h1, h2⟩ | ⟨h1, h2, h3⟩ | ⟨h1, h2, h3⟩ <;> rcases h' with ⟨k1, k2⟩ | ⟨k1, k2, k3⟩ | ⟨k1, k2, k3⟩ <;>
    simp only [h1, h2, k2, true_and, false_and, and_true, and_false, or_false, false_or, Bool.true_eq_false,
      Bool.false_eq_true] at *
  all_goals omega

theorem State.prefers_total {s : State} {a b : Nat} (hne : a ≠ b) (h : s.prefers a b = false) : s.prefers b a = true := by
  have h' : ¬(s.prefers a b = true) := by rw [h]; exact Bool.false_ne_true
  rw [State.prefers_iff] at h' ⊢
  unfold State.longer at *
  cases h1 : (s.task a).urgent <;> cases h2 : (s.task b).urgent <;>
    simp only [h1, h2, true_and, false_and, and_true, and_false, or_false, false_or, Bool.true_eq_false, Bool.false_eq_true,
      not_true_eq_false, not_or] at *
  · omega
  · omega

/-- The preferred task of a list is in it and preferred to every other. -/
theorem State.bestOf_spec {s : State} {l : List Nat} {c : Nat} (h : s.bestOf l = some c) :
    c ∈ l ∧ ∀ d ∈ l, d ≠ c → s.prefers c d = true := by
  induction l generalizing c with
  | nil => cases h
  | cons a l ih =>
    rw [State.bestOf] at h
    split at h
    · next hl =>
      cases h
      have hnil : l = [] := by
        cases l with
        | nil => rfl
        | cons b l =>
          rw [State.bestOf] at hl
          split at hl
          · cases hl
          · split at hl <;> cases hl
      subst hnil
      exact ⟨List.mem_cons_self .., fun d hd hne => absurd (List.mem_singleton.mp hd) hne⟩
    · next b hb =>
      obtain ⟨hmem, hbest⟩ := ih hb
      split at h
      · next hab =>
        cases h
        refine ⟨List.mem_cons_self .., fun d hd hne => ?_⟩
        have hd := (List.mem_cons.mp hd).resolve_left hne
        by_cases hdb : d = b
        · exact hdb ▸ hab
        · exact State.prefers_trans hab (hbest d hd hdb)
      · next hab =>
        cases h
        refine ⟨List.mem_cons_of_mem _ hmem, fun d hd hne => ?_⟩
        rcases List.mem_cons.mp hd with rfl | hd
        · exact State.prefers_total hne (Bool.eq_false_iff.mpr hab)
        · exact hbest d hd hne

theorem State.bestOf_none {s : State} {l : List Nat} (h : s.bestOf l = none) : l = [] := by
  cases l with
  | nil => rfl
  | cons a l =>
    rw [State.bestOf] at h
    split at h
    · cases h
    · split at h <;> cases h

/- Tasks that may have a slot (R202) ------------------------------------------------------------------------------------- -/

theorem spGet_of_mem {α : Type} [DecidableEq α] {d : Nat → α} {m : List (Nat × α)} {n : Nat} (h : spOkFrom d n m = true)
    {p : Nat × α} (hp : p ∈ m) : spGet d m p.1 = p.2 := by
  induction m generalizing n with
  | nil => cases hp
  | cons q m ih =>
    simp only [spOkFrom, Bool.and_eq_true, decide_eq_true_eq] at h
    rcases List.mem_cons.mp hp with rfl | hp
    · exact if_pos rfl
    · rw [spGet, if_neg, ih h.2 hp]
      have := le_of_mem_spOkFrom h.2 hp
      omega

theorem mem_of_spGet_ne {α : Type} {d : Nat → α} {m : List (Nat × α)} {k : Nat} (h : spGet d m k ≠ d k) : (k, spGet d m k) ∈ m := by
  induction m with
  | nil => exact absurd rfl h
  | cons p m ih =>
    obtain ⟨i, v⟩ := p
    rw [spGet] at h ⊢
    split
    · next hik => exact hik ▸ List.mem_cons_self ..
    · next hik =>
      rw [if_neg hik] at h
      exact List.mem_cons_of_mem _ (ih h)

section
variable {s : State} (h : s.Inv)
include h

/-- The IDs of the tasks whose record passes a test that no absent task passes. -/
theorem State.mem_tasks_filter (q : TaskRec → Bool) (hq : q TaskRec.absent = false) (id : Nat) :
    id ∈ (s.tasks.filter fun p => q p.2).map (·.1) ↔ q (s.task id) = true := by
  simp only [List.mem_map, List.mem_filter]
  constructor
  · rintro ⟨p, ⟨hp, hqp⟩, rfl⟩
    rw [State.task, spGet_of_mem h.tasks hp]
    exact hqp
  · intro hqi
    refine ⟨(id, s.task id), ⟨mem_of_spGet_ne fun heq => ?_, hqi⟩, rfl⟩
    rw [show s.task id = TaskRec.absent from heq, hq] at hqi
    cases hqi

theorem State.slotUnpinned_iff (sh p j : Nat) : s.slotUnpinned sh p j = true ↔
    ∀ q, (s.task q).pinned = true ∧ (s.task q).sheaf = sh ∧ (s.task q).engine = p ∧ (s.task q).slot = j →
      (s.task q).state ≠ .ready ∧ (s.task q).state ≠ .asleep := by
  rw [State.slotUnpinned, Bool.not_eq_true', List.any_eq_false]
  simp only [Bool.and_eq_true, Bool.or_eq_true, beq_iff_eq, not_and, not_or]
  constructor
  · rintro hall q ⟨h1, h2, h3, h4⟩
    by_cases ha : s.task q = TaskRec.absent
    · rw [ha] at h1
      cases h1
    · exact hall (q, s.task q) (mem_of_spGet_ne ha) ⟨⟨⟨h1, h2⟩, h3⟩, h4⟩
  · rintro hall p hp ⟨⟨⟨h1, h2⟩, h3⟩, h4⟩
    have heq : s.task p.1 = p.2 := spGet_of_mem h.tasks hp
    rw [← heq]
    exact hall p.1 (by rw [heq]; exact ⟨h1, h2, h3, h4⟩)

/-- The tasks that `bestFor` weighs are those eligible for the slot (R202). -/
theorem State.mem_bestFor (sh p j id : Nat) : id ∈ ((s.tasks.filter fun q => q.2.waiting && s.fits q.2 sh p j).map (·.1)) ↔
    (s.task id).state = .ready ∧ (s.task id).inSlot = false ∧ (s.task id).paging = false ∧
      (((s.task id).pinned = true ∧ (s.task id).sheaf = sh ∧ (s.task id).engine = p ∧ (s.task id).slot = j) ∨
        (s.task id).pinned = false ∧ (s.task id).affinity.getLsbD sh = true ∧
          ∀ q, (s.task q).pinned = true ∧ (s.task q).sheaf = sh ∧ (s.task q).engine = p ∧ (s.task q).slot = j →
            (s.task q).state ≠ .ready ∧ (s.task q).state ≠ .asleep) := by
  rw [State.mem_tasks_filter h (fun r => r.waiting && s.fits r sh p j) rfl, ← State.slotUnpinned_iff h]
  simp only [TaskRec.waiting, TaskRec.outside, State.fits, Bool.and_eq_true, decide_eq_true_eq, Bool.not_eq_true', and_assoc]
  cases (s.task id).pinned <;> simp [and_assoc]

end

/- The order of slots (R202) ------------------------------------------------------------------------------------------------ -/

/-- Slot `a` precedes `b` by a key, the lower slot among equals. -/
def byKey (key : Nat → Nat) (a b : Nat) : Prop := key a < key b ∨ key a = key b ∧ a < b

theorem mem_insBy {key : Nat → Nat} {i k : Nat} {l : List Nat} : k ∈ insBy key i l ↔ k = i ∨ k ∈ l := by
  induction l with
  | nil => exact List.mem_cons
  | cons j l ih =>
    rw [insBy]
    split
    · exact List.mem_cons
    · rw [List.mem_cons, ih, List.mem_cons]
      exact or_left_comm

/-- A slot above all of an ordered list goes behind those of equal key. -/
theorem insBy_pairwise {key : Nat → Nat} {i : Nat} {l : List Nat} (hl : l.Pairwise (byKey key)) (hi : ∀ k ∈ l, k < i) :
    (insBy key i l).Pairwise (byKey key) := by
  induction l with
  | nil => exact List.pairwise_singleton ..
  | cons j l ih =>
    rw [List.pairwise_cons] at hl
    rw [insBy]
    split
    · next hlt =>
      refine List.pairwise_cons.mpr ⟨fun k hk => Or.inl ?_, List.pairwise_cons.mpr hl⟩
      rcases List.mem_cons.mp hk with rfl | hk
      · exact hlt
      · have := hl.1 k hk
        unfold byKey at this
        omega
    · next hge =>
      refine List.pairwise_cons.mpr ⟨fun k hk => ?_, ih hl.2 fun k hk => hi k (List.mem_cons_of_mem _ hk)⟩
      rcases mem_insBy.mp hk with rfl | hk
      · have := hi j (List.mem_cons_self ..)
        unfold byKey
        omega
      · exact hl.1 k hk

theorem foldl_insBy {key : Nat → Nat} {l acc : List Nat} (hacc : acc.Pairwise (byKey key)) (hl : l.Pairwise (· < ·))
    (hlt : ∀ k ∈ acc, ∀ i ∈ l, k < i) :
    (l.foldl (fun acc i => insBy key i acc) acc).Pairwise (byKey key) ∧
      ∀ k, k ∈ l.foldl (fun acc i => insBy key i acc) acc ↔ k ∈ acc ∨ k ∈ l := by
  induction l generalizing acc with
  | nil => exact ⟨hacc, fun k => by simp⟩
  | cons i l ih =>
    rw [List.pairwise_cons] at hl
    obtain ⟨hp, hm⟩ := ih (insBy_pairwise hacc fun k hk => hlt k hk i (List.mem_cons_self ..)) hl.2 fun k hk j hj => by
      rcases mem_insBy.mp hk with rfl | hk
      · exact hl.1 j hj
      · exact hlt k hk j (List.mem_cons_of_mem _ hj)
    refine ⟨hp, fun k => (hm k).trans ?_⟩
    rw [mem_insBy, List.mem_cons]
    tauto

/-- Slots in ascending order are sorted by the key, the lower slot first among equals. -/
theorem sortBy_spec (key : Nat → Nat) {l : List Nat} (hl : l.Pairwise (· < ·)) :
    (sortBy key l).Pairwise (byKey key) ∧ ∀ k, k ∈ sortBy key l ↔ k ∈ l := by
  obtain ⟨hp, hm⟩ := foldl_insBy (key := key) List.Pairwise.nil hl nofun
  exact ⟨hp, fun k => (hm k).trans (by simp)⟩

theorem slotsOf_pairwise (e : Nat) : (slotsOf e).Pairwise (· < ·) :=
  List.Pairwise.map _ (fun _ _ hab => Nat.add_lt_add_left hab _) List.pairwise_lt_range

/- The slot of a route (R202) -------------------------------------------------------------------------------------------------- -/

/-- Route `r` gives slot `i` the task `c`. -/
def State.takesSlot (s : State) (sh p r i c : Nat) : Prop :=
  s.bestFor sh p (slotOf i) = some c ∧ (r = 3 → s.displaces c i = true)

section
variable {s : State} {sh p r i : Nat} {l : List Nat}

theorem State.pick_takes {c : Nat} (h : s.takesSlot sh p r i c) : s.pick sh p r (i :: l) = some (i, c) := by
  rw [State.pick, h.1]
  refine if_neg fun hc => ?_
  simp only [Bool.and_eq_true, decide_eq_true_eq, Bool.not_eq_true'] at hc
  exact Bool.false_ne_true (hc.2.symm.trans (h.2 hc.1))

theorem State.pick_skips (h : ∀ d, ¬s.takesSlot sh p r i d) : s.pick sh p r (i :: l) = s.pick sh p r l := by
  rw [State.pick]
  split
  · next c hc =>
    refine if_pos ?_
    by_contra hn
    refine h c ⟨hc, fun hr => ?_⟩
    by_contra hd
    exact hn (by rw [decide_eq_true hr, Bool.eq_false_iff.mpr hd]; rfl)
  · rfl

theorem State.pick_skip_all (post : List Nat) (h : ∀ k ∈ l, ∀ d, ¬s.takesSlot sh p r k d) :
    s.pick sh p r (l ++ post) = s.pick sh p r post := by
  induction l with
  | nil => rfl
  | cons k l ih =>
    rw [List.cons_append, State.pick_skips (h k (List.mem_cons_self ..)), ih fun k hk => h k (List.mem_cons_of_mem _ hk)]

end

/- Grants (R202, R204) ------------------------------------------------------------------------------------------------------------ -/

section
variable {s : State} {sh p r i c : Nat}

/-- The scheduler at the position whose turn it is makes the grant that is due there. -/
theorem State.schedule_grants (hrun : s.stopped = false) (hat : s.schedAt ≤ 8 * sh + p)
    (hports : (busyPorts s.eclk s.ctxReads).length < 2) (hnone : s.noneBefore s.schedAt (8 * sh + p) = true)
    (hg : s.grantAt sh p = some (r, i, c)) : s.schedule sh p = { s.grantSlot sh p r i c with schedAt := 8 * sh + p + 1 } := by
  have hstop : (s.bit 0x800000 0 || s.sleeping || s.engStop) = false := hrun
  rw [State.schedule, hstop, decide_eq_false (Nat.not_lt.mpr hat), decide_eq_false (Nat.not_le.mpr hports), hnone]
  rw [if_neg (by decide), hg]

theorem State.schedule_passed (h : 8 * sh + p < s.schedAt ∨ 2 ≤ (busyPorts s.eclk s.ctxReads).length) :
    s.schedule sh p = s := by
  refine if_pos ?_
  rcases h with h | h
  · rw [decide_eq_true h]
    simp
  · rw [decide_eq_true h]
    simp

/-- Task `c` is granted slot `i`: its record, the grants of the cycle and the read port taken (R204, R206). -/
def State.reserve (s : State) (sh p i c : Nat) : State :=
  { s.setTask c { s.task c with paging := true, sheaf := sh, engine := p, slot := slotOf i, urg := .idle } with
    granted := s.granted ++ [c], ctxReads := busyPorts s.eclk s.ctxReads ++ [s.eclk + 8] }

/-- The first choice of slot `i` was granted earlier in the cycle (R205). -/
def State.lostFirst (s : State) (sh p i c : Nat) : Bool :=
  match s.firstChoice sh p (slotOf i) with
  | some f => decide (f ≠ c)
  | none => false

/-- The state in which a grant has counted that the first choice of the slot was taken earlier in the cycle (R205). -/
def State.countLost (s : State) (sh p i c : Nat) : State :=
  if s.lostFirst sh p i c then s.bump (aGrn 0x4C) 1 else s

theorem State.grantSlot_eq (s : State) (sh p r i c : Nat) :
    s.grantSlot sh p r i c =
      let s2 := (s.countLost sh p i c).reserve sh p i c
      if r = 1 then s2.modTh i fun th => { th with phase := .incoming c }
      else (if r = 3 then s2.endResidency (s2.th i).task else s2).modTh i fun th => { th with phase := .quiesce (some c) } := rfl

theorem State.countLost_frame (s : State) (sh p i c : Nat) : ∃ regs, s.countLost sh p i c = { s with regs := regs } := by
  rw [State.countLost]
  split
  · exact ⟨_, rfl⟩
  · exact ⟨s.regs, rfl⟩

theorem State.Inv.countLost {s : State} (h : s.Inv) (sh p i c : Nat) : (s.countLost sh p i c).Inv := by
  rw [State.countLost]
  split
  · exact h.wr _ _
  · exact h

theorem State.reserve_spec {s : State} (h : s.Inv) (sh p i c : Nat) :
    let v := (s.countLost sh p i c).reserve sh p i c
    v.Inv ∧ v.ths = s.ths ∧ v.granted = s.granted ++ [c] ∧ v.mem = s.mem ∧
      v.ctxReads = busyPorts s.eclk s.ctxReads ++ [s.eclk + 8] ∧
      v.task c = { s.task c with paging := true, sheaf := sh, engine := p, slot := slotOf i, urg := .idle } ∧
      ∀ d, d ≠ c → v.task d = s.task d := by
  have h0 := h.countLost sh p i c
  obtain ⟨regs, hr⟩ := s.countLost_frame sh p i c
  intro v
  have hv : v.Inv := (State.Keeps.frame (State.setTask_keeps (.refl _) c _)).inv h0
  refine ⟨hv, ?_⟩
  rw [show v = ({ s with regs := regs } : State).reserve sh p i c from congrArg (fun u => State.reserve u sh p i c) hr]
  exact ⟨rfl, rfl, rfl, rfl, spGet_spSet_self h.tasks _ _, fun d hd => spGet_spSet_ne _ _ hd⟩

theorem State.endResidency_paging {s : State} (h : s.Inv) (id c : Nat) :
    ((s.endResidency id).task c).paging = (s.task c).paging := by
  by_cases hc : c = id
  · rw [hc, (State.endResidency_task h id).2]
  · rw [State.endResidency, State.task_setTask_ne _ hc]

theorem State.modTh_task (s : State) (i : Nat) (f : Thread → Thread) (k : Nat) : (s.modTh i f).task k = s.task k := rfl

/-- What a grant leaves, whatever its route. -/
theorem State.grantSlot_spec (h : s.Inv) :
    let u := s.grantSlot sh p r i c
    u.th i = { s.th i with phase := if r = 1 then .incoming c else .quiesce (some c) } ∧ (u.task c).paging = true ∧
      u.granted = s.granted ++ [c] ∧ u.mem = s.mem ∧ u.ctxReads = busyPorts s.eclk s.ctxReads ++ [s.eclk + 8] ∧
      (∀ j, j ≠ i → u.th j = s.th j) ∧
      (r = 1 → (u.task c).sheaf = sh ∧ (u.task c).engine = p ∧ (u.task c).slot = slotOf i ∧ ∀ d, d ≠ c → u.task d = s.task d) := by
  obtain ⟨hv, hths, hgr, hmem, hports, htask, hother⟩ := State.reserve_spec h sh p i c
  obtain ⟨v, hveq⟩ : ∃ v, v = (s.countLost sh p i c).reserve sh p i c := ⟨_, rfl⟩
  rw [← hveq] at hv hths hgr hmem hports htask hother
  have hth : ∀ j, v.th j = s.th j := fun j => congrArg (fun m => spGet (fun _ => Thread.init) m j) hths
  have hu := s.grantSlot_eq sh p r i c
  rw [← hveq] at hu
  dsimp only at hu
  intro u
  rw [show u = _ from hu]
  by_cases h1 : r = 1
  · rw [if_pos h1, if_pos h1, State.th_modTh_self hv, hth, State.modTh_task, htask]
    exact ⟨rfl, rfl, hgr, hmem, hports, fun j hj => (State.th_setTh_ne hj).trans (hth j),
      fun _ => ⟨rfl, rfl, rfl, fun d hd => hother d hd⟩⟩
  · rw [if_neg h1, if_neg h1]
    by_cases h3 : r = 3
    · have hend : (v.endResidency (v.th i).task).Inv := hv.setTask _ _
      rw [if_pos h3, State.th_modTh_self hend, State.modTh_task, State.endResidency_paging hv, htask]
      refine ⟨?_, rfl, hgr, hmem, hports, fun j hj => (State.th_setTh_ne hj).trans (hth j), fun hr => absurd hr h1⟩
      rw [show (v.endResidency (v.th i).task).th i = s.th i from hth i]
    · rw [if_neg h3, State.th_modTh_self hv, hth, State.modTh_task, htask]
      exact ⟨rfl, rfl, hgr, hmem, hports, fun j hj => (State.th_setTh_ne hj).trans (hth j), fun hr => absurd hr h1⟩

/-- The route by which a position that may be granted a task is granted one: 1, then 2, then 3 in the cycle of a round start (R202). -/
theorem State.grantAt_eq {k : Nat} (hp : s.physOf sh p = some k) (hb : s.inBrace (9 * sh + k) = false)
    (hl : s.locked (9 * sh + k) = false) (hm : s.mapped (9 * sh + k) = true) (hc : s.bit (aShf sh 4) (16 + k) = false) :
    s.grantAt sh p =
      match s.pick sh p 1 (s.routeSlots (9 * sh + k) 1) with
      | some q => some (1, q.1, q.2)
      | none => match s.pick sh p 2 (s.routeSlots (9 * sh + k) 2) with
        | some q => some (2, q.1, q.2)
        | none => if s.roundStart then (s.pick sh p 3 (s.routeSlots (9 * sh + k) 3)).map fun q => (3, q.1, q.2) else none := by
  rw [State.grantAt, hp]
  dsimp only
  rw [hb, hl, hm, hc, if_neg (by decide)]
  cases s.pick sh p 1 (s.routeSlots (9 * sh + k) 1) with
  | some q => rfl
  | none =>
    cases s.pick sh p 2 (s.routeSlots (9 * sh + k) 2) with
    | some q => rfl
    | none => rfl

end

/-- Settles O32: round boundaries, the grants of the three routes, and the order of tasks and slots behind them. -/
theorem roundsAndGrants : Obligations.RoundsAndGrants := by
  refine ⟨fun s hs hst hrun => ?_, fun s sh p k => ?_, fun s sh p h => ?_, fun s a b => ?_, fun s sh p j => ?_, fun s e i => ?_,
    fun s c i => ?_, fun s sh p r l => ⟨fun pre post i c hl hpre hc => ?_, fun h => ?_⟩⟩
  · obtain ⟨⟨regs, tasks, ths, heq⟩, -, hth⟩ := s.boundary_frame
    refine ⟨{ s.boundary with roundStart := true }, congrArg Host.Outcome.next ((State.awakeDo_awake hs _).trans
      (State.roundBegin_runs hst hrun)), rfl, ?_, ?_, ?_, hth⟩
    · exact (congrArg State.granted heq).trans rfl
    · exact (congrArg State.mem heq).trans rfl
    · exact (congrArg State.engs heq).trans rfl
  · intro e n ports hs hrun hp hb hl hm hc hat hports hnone hinv
    have hgrant := State.grantAt_eq hp hb hl hm hc
    have hex : ∀ r i c, s.grantAt sh.val p.val = some (r, i, c) → exec (.grant sh p) s =
        .next { s.grantSlot sh.val p.val r i c with schedAt := n + 1 } := fun r i c hg =>
      congrArg Host.Outcome.next ((State.awakeDo_awake hs _).trans (State.schedule_grants hrun hat hports hnone hg))
    refine ⟨fun i c h1 => ?_, fun i c h1 h2 => ?_, fun i c h1 h2 hround h3 => ?_⟩
    · obtain ⟨hth, hpg, hgr, hmem, hrd, hoth, h1spec⟩ :=
        State.grantSlot_spec (s := s) (sh := sh.val) (p := p.val) (r := 1) (i := i) (c := c) hinv
      obtain ⟨hsh, heng, hslot, hother⟩ := h1spec rfl
      exact ⟨_, hex 1 i c (by rw [hgrant, h1]), hth, hpg, hsh, heng, hslot, hgr, hmem, hrd, rfl, hoth, hother⟩
    · obtain ⟨hth, hpg, hgr, hmem, hrd, hoth, -⟩ :=
        State.grantSlot_spec (s := s) (sh := sh.val) (p := p.val) (r := 2) (i := i) (c := c) hinv
      exact ⟨_, hex 2 i c (by rw [hgrant, h1, h2]), hth, hpg, hmem, hrd, rfl, hoth⟩
    · obtain ⟨hth, hpg, hgr, hmem, hrd, hoth, -⟩ :=
        State.grantSlot_spec (s := s) (sh := sh.val) (p := p.val) (r := 3) (i := i) (c := c) hinv
      exact ⟨_, hex 3 i c (by rw [hgrant, h1, h2, hround, h3]; rfl), hth, hpg, hmem, hrd, rfl, hoth⟩
  · refine congrArg Host.Outcome.next ?_
    rw [State.awakeDo]
    split
    · rfl
    · exact State.schedule_passed h
  · intro x y longer
    have hab := s.prefers_iff a b
    have hba := s.prefers_iff b a
    refine ⟨fun hx hy => ?_, fun hx hy => ?_, fun hx hy => ?_⟩ <;>
      rw [show (s.task a).urgent = _ from hx, show (s.task b).urgent = _ from hy] at hab hba
    · exact ⟨hab.mpr (Or.inl ⟨rfl, rfl⟩), Bool.eq_false_iff.mpr fun h => by simpa using hba.mp h⟩
    · rw [hab]
      simp only [Bool.true_eq_false, and_false, true_and, false_and, or_false, false_or]
      rfl
    · rw [hab]
      simp only [Bool.false_eq_true, and_false, true_and, false_and, false_or]
      rfl
  · intro here eligible hinv
    have hmem := State.mem_bestFor hinv sh p j
    refine ⟨fun c hc => ?_, fun hn d hd => ?_⟩
    · obtain ⟨hin, hbest⟩ := State.bestOf_spec hc
      exact ⟨(hmem c).mp hin, fun d hd hne => hbest d ((hmem d).mpr hd) hne⟩
    · have hd' := (hmem d).mpr hd
      rw [State.bestOf_none hn] at hd'
      cases hd'
  · intro asleep ready prio run
    have hord : ∀ q : Nat → Bool, ((slotsOf e).filter q).Pairwise (· < ·) := fun q => (slotsOf_pairwise e).filter q
    obtain ⟨hp2, hm2⟩ := sortBy_spec (fun i => (s.th i).lastRun) (hord fun i =>
      decide ((s.th i).phase = .run) && (s.task (s.th i).task).state == .asleep && s.savable i)
    obtain ⟨hp3, hm3⟩ := sortBy_spec (fun i => (s.task (s.th i).task).eprio * 2 ^ 64 + (s.th i).lastRun) (hord fun i =>
      decide ((s.th i).phase = .run) && (s.task (s.th i).task).state == .ready && s.savable i)
    refine ⟨?_, (hm2 i).trans ?_, (hm3 i).trans ?_, hord fun i => decide ((s.th i).phase = .empty), hp2, fun hlt => hp3.imp fun {a b} hab => ?_⟩
    · exact List.mem_filter.trans (and_congr_right fun _ => decide_eq_true_iff)
    · rw [List.mem_filter]
      simp only [Bool.and_eq_true, decide_eq_true_eq, beq_iff_eq, and_assoc]
      rfl
    · rw [List.mem_filter]
      simp only [Bool.and_eq_true, decide_eq_true_eq, beq_iff_eq, and_assoc]
      rfl
    · have ha := hlt a
      have hb := hlt b
      unfold byKey at hab
      dsimp only [prio, run] at hab ha hb ⊢
      omega
  · intro x y
    simp only [State.displaces, Bool.or_eq_true, Bool.and_eq_true, decide_eq_true_eq, beq_iff_eq, and_assoc, or_assoc]
    rfl
  · rw [hl, State.pick_skip_all _ hpre, State.pick_takes hc]
  · have := State.pick_skip_all (s := s) (sh := sh) (p := p) (r := r) [] h
    rw [List.append_nil] at this
    exact this

end Sys2Proof.Machine
end

section

/-! SUPPORT. Words of memory written and read back; page-outs, page-ins and the slots they leave (O33). -/

namespace Sys2Proof.Machine

/- Words of memory ---------------------------------------------------------------------------------------------------- -/

theorem State.setByteList_append (s : State) (a : Nat) (l m : List Byte) :
    s.setByteList a (l ++ m) = (s.setByteList a l).setByteList (a + l.length) m := by
  induction l generalizing s a with
  | nil => rfl
  | cons v l ih =>
    rw [List.cons_append, State.setByteList, ih, State.setByteList, List.length_cons, Nat.add_right_comm, Nat.add_assoc a]

/-- A number stored as its bytes is the number stored. -/
theorem State.setByteList_natLe (s : State) (a n v : Nat) : s.setByteList a (natLe n v) = s.setBytes a n v := by
  induction n generalizing s a v with
  | zero => rfl
  | succ n ih => exact ih _ _ _

theorem State.setWords_cons (s : State) (a : Nat) (v : W64) (l : List W64) :
    s.setWords a (v :: l) = (s.setBytes a 8 v.toNat).setWords (a + 8) l := by
  rw [State.setWords, List.flatMap_cons, State.setByteList_append, State.setByteList_natLe]
  rfl

/-- Bytes read depend on those bytes alone. -/
theorem State.bytes_congr_on {s u : State} {a n : Nat} (h : ∀ b, a ≤ b → b < a + n → u.byte b = s.byte b) :
    u.bytes a n = s.bytes a n := by
  induction n generalizing a with
  | zero => rfl
  | succ n ih =>
    rw [State.bytes, State.bytes, h a (Nat.le_refl a) (by omega), ih fun b h1 h2 => h b (by omega) (by omega)]

theorem length_flatMap_natLe (l : List W64) : (l.flatMap fun v => natLe 8 v.toNat).length = 8 * l.length := by
  induction l with
  | nil => rfl
  | cons v l ih =>
    rw [List.flatMap_cons, List.length_append, ih, List.length_cons]
    exact Nat.add_comm 8 _

theorem State.byte_setWords_frame {s : State} {a b : Nat} {l : List W64} (h : b < a ∨ a + 8 * l.length ≤ b) :
    (s.setWords a l).byte b = s.byte b :=
  State.byte_setByteList_frame (by rw [length_flatMap_natLe]; exact h)

theorem State.words_succ (s : State) (a n : Nat) : s.words a (n + 1) = BitVec.ofNat 64 (s.bytes a 8) :: s.words (a + 8) n := by
  rw [State.words, List.range_succ_eq_map, List.map_cons, List.map_map]
  refine congrArg₂ List.cons rfl (List.map_congr_left fun i _ => ?_)
  simp only [Function.comp_apply]
  rw [show a + 8 * (i + 1) = a + 8 + 8 * i by omega]

/-- Words written are read back (R57, R141). -/
theorem State.words_setWords_self {s : State} (h : Memory.wf s.mem = true) (a : Nat) (l : List W64) :
    (s.setWords a l).words a l.length = l := by
  induction l generalizing s a with
  | nil => rfl
  | cons v l ih =>
    have hwf : Memory.wf (s.setBytes a 8 v.toNat).mem = true := State.setBytes_wf h a 8 _
    rw [State.setWords_cons, List.length_cons, State.words_succ, ih hwf]
    refine congrArg₂ List.cons ?_ rfl
    rw [State.bytes_congr_on (s := s.setBytes a 8 v.toNat) fun b _ hb => State.byte_setWords_frame (Or.inl hb),
      State.bytes_setBytes_self h]
    have hv := v.isLt
    rw [Nat.mod_eq_of_lt (by omega), BitVec.ofNat_toNat, BitVec.setWidth_eq]

/-- Bytes stored touch memory alone. -/
theorem State.setByteList_eq (s : State) (a : Nat) (l : List Byte) : ∃ mem, s.setByteList a l = { s with mem := mem } := by
  induction l generalizing s a with
  | nil => exact ⟨s.mem, rfl⟩
  | cons v l ih =>
    obtain ⟨mem, hm⟩ := ih (s.setByte a v) (a + 1)
    exact ⟨mem, hm.trans rfl⟩

theorem State.setWords_eq (s : State) (a : Nat) (l : List W64) : ∃ mem, s.setWords a l = { s with mem := mem } :=
  s.setByteList_eq a _

/- Page-outs ------------------------------------------------------------------------------------------------------------- -/

/-- The slot that a task leaves for candidate `c`, or for nobody. -/
def slotFor (c : Option Nat) : Thread :=
  { Thread.init with phase := match c with
    | some c => .incoming c
    | none => .empty }

/-- The quiesce of a slot that can be saved and has nothing under way completes (R203, R208). -/
theorem State.quiesceDone_leaves {s : State} {i : Nat} {c : Option Nat} (hph : (s.th i).phase = .quiesce c)
    (hst : (s.task (s.th i).task).state ≠ .ended) (hb : s.inBrace (engOf i) = false) (hl : s.locked (engOf i) = false)
    (hsav : s.savable i = true) (hdr : (s.th i).drained = true) :
    s.quiesceDone i =
      (({ s with pageOuts := s.pageOuts ++
          [⟨i, s.eclk, (s.posOf (engOf i / 9) (engOf i % 9)).getD 8, (s.th i).task, ctxWords (s.th i)⟩] } : State).setTask (s.th i).task
        { s.task (s.th i).task with
          paging := true, eprio := (s.task (s.th i).task).prio, urgent := false, urg := .idle, evt := (s.th i).evt }).setTh i
        (slotFor c) := by
  rw [State.quiesceDone]
  dsimp only
  rw [hph]
  dsimp only
  rw [hb, hl, Bool.or_false, Bool.or_false, if_neg (by simpa using hst), hsav, hdr]
  rfl

/-- Word `k` is none of the context of task `id`. -/
def outsideCtx (id k : Nat) : Bool := !decide (ctxWord0 + 64 * id ≤ k ∧ k < ctxWord0 + 64 * id + 64)

/-- The state in which the context of page-out `p` stands in the store (R208). -/
def State.takeOut (s : State) (p : PageOut) (l : List PageOut) : State :=
  { s with pageOuts := l, ctxWrites := busyPorts s.eclk s.ctxWrites ++ [s.eclk + 8]
           bankPois := s.bankPois.filter fun x => !decide (ctxWord0 + 64 * p.task ≤ x.1 ∧ x.1 < ctxWord0 + 64 * p.task + 64)
    }.setWords (ctxKey p.task) p.ctx

/-- Task `id` stands in the store, counted as paged out (R208). -/
def State.leaveSlot (u : State) (id : Nat) : State :=
  let t := u.task id
  let t1 := { t with inSlot := false, paging := false }
  let t2 := if t.state = .ready then { t1 with stamp := u.grnTime } else t1
  ((u.setTask id t2).bump (aGrn 0x44) 1).wakeTask id none

theorem State.leaveSlot_ready {u : State} (h : u.Inv) {id : Nat} (hr : (u.task id).state = .ready) :
    u.leaveSlot id =
      (u.setTask id { u.task id with inSlot := false, paging := false, stamp := u.grnTime }).bump (aGrn 0x44) 1 := by
  rw [State.leaveSlot, if_pos hr]
  refine State.wakeTask_asleep (Or.inl ?_)
  rw [show ((u.setTask id _).bump (aGrn 0x44) 1).task id = _ from State.task_setTask_self h id _]
  exact fun ha => TState.noConfusion (hr.symm.trans ha)

theorem State.Inv.takeOut {s : State} (h : s.Inv) (p : PageOut) (l : List PageOut) : (s.takeOut p l).Inv := by
  refine (State.setWords_keeps (.refl _) _ _).inv ?_
  exact { h with bankPois := spOk_filter h.bankPois _ }

theorem State.takeOut_spec {s : State} (h : s.Inv) (p : PageOut) (l : List PageOut) :
    let u := s.takeOut p l
    (u.tasks = s.tasks ∧ u.regs = s.regs ∧ u.ths = s.ths ∧ u.pageOuts = l ∧ u.ctxWrites = busyPorts s.eclk s.ctxWrites ++ [s.eclk + 8]) ∧
      (u.words (ctxKey p.task) p.ctx.length = p.ctx) ∧
      (∀ a, a < ctxKey p.task ∨ ctxKey p.task + 8 * p.ctx.length ≤ a → u.byte a = s.byte a) ∧
      ∀ k, k < 64 → u.wordPois (ctxWord0 + 64 * p.task + k) = false := by
  obtain ⟨mem, hm⟩ := State.setWords_eq { s with
    pageOuts := l, ctxWrites := busyPorts s.eclk s.ctxWrites ++ [s.eclk + 8]
    bankPois := s.bankPois.filter fun x => !decide (ctxWord0 + 64 * p.task ≤ x.1 ∧ x.1 < ctxWord0 + 64 * p.task + 64) }
    (ctxKey p.task) p.ctx
  refine ⟨?_, State.words_setWords_self (by exact h.mem) _ _, fun a ha => (State.byte_setWords_frame ha).trans rfl, fun k hk => ?_⟩
  · rw [State.takeOut, hm]
    exact ⟨rfl, rfl, rfl, rfl, rfl⟩
  · rw [State.takeOut, hm]
    have hk' : outsideCtx p.task (ctxWord0 + 64 * p.task + k) = false := by
      rw [outsideCtx, Bool.not_eq_false', decide_eq_true_eq]
      omega
    have hget := spGet_filter (fun _ => false) (outsideCtx p.task) s.bankPois (ctxWord0 + 64 * p.task + k)
    rw [hk', if_neg Bool.false_ne_true] at hget
    exact hget

section
variable {s : State} {i : Nat} {p : PageOut} {l : List PageOut} (hp : takePageOut i s.pageOuts = some (p, l))
include hp

theorem State.pageOutDone_waits (h : (∃ x ∈ l, x.before p = true) ∨ 2 ≤ (busyPorts s.eclk s.ctxWrites).length) :
    s.pageOutDone i = s := by
  rw [State.pageOutDone, hp]
  refine if_pos ?_
  rw [Bool.or_eq_true, List.any_eq_true, decide_eq_true_eq]
  exact h

theorem State.pageOutDone_first (hfirst : ∀ x ∈ l, x.before p = false) (hports : (busyPorts s.eclk s.ctxWrites).length < 2) :
    s.pageOutDone i = (s.takeOut p l).leaveSlot p.task := by
  have hany : (l.any (fun x => x.before p) || decide (2 ≤ (busyPorts s.eclk s.ctxWrites).length)) = false := by
    rw [decide_eq_false (Nat.not_le.mpr hports), Bool.or_false, List.any_eq_false]
    exact fun x hx => by rw [hfirst x hx]; exact Bool.false_ne_true
  rw [State.pageOutDone, hp]
  dsimp only
  rw [hany, if_neg Bool.false_ne_true]
  rfl

end

theorem PageOut.before_of_lt {a b : PageOut} (h : a.q < b.q) : a.before b = true ∧ b.before a = false := by
  simp only [PageOut.before, Bool.or_eq_true, decide_eq_true_eq, Bool.or_eq_false_iff, decide_eq_false_iff_not, Bool.and_eq_false_iff,
    beq_eq_false_iff_ne]
  omega

/- Page-ins ------------------------------------------------------------------------------------------------------------------ -/

section
variable {s : State} {i c : Nat} (hph : (s.th i).phase = .incoming c)
include hph

/-- None lands while the brace handler runs (R146). -/
theorem State.pageInDone_brace (hb : s.inBrace (engOf i) = true) : s.pageInDone i = s := by
  rw [State.pageInDone, hph]
  exact if_pos hb

variable (hb : s.inBrace (engOf i) = false)
include hb

theorem State.pageInDone_lands (hid : ctxTask (s.words (ctxKey c) 64) = c) :
    s.pageInDone i = ((s.setTh i { threadOfCtx c (s.task c).evt s.eclk (s.words (ctxKey c) 64) with stores := (s.th i).stores }).setTask c
      { s.task c with inSlot := true, paging := false, evt := 0, waited := min 255 (s.waitOf (s.task c) / 4) }.fresh).bump
        (aGrn 0x40) 1 := by
  rw [State.pageInDone, hph]
  dsimp only
  rw [hb, if_neg Bool.false_ne_true, if_neg (not_not.mpr hid)]

theorem State.pageInDone_lost (hid : ctxTask (s.words (ctxKey c) 64) ≠ c) :
    s.pageInDone i = ((s.setTh i { Thread.init with stores := (s.th i).stores }).setTask c
      { s.task c with state := .lost, paging := false }).setB (aGrn 0x18) 2 := by
  rw [State.pageInDone, hph]
  dsimp only
  rw [hb, if_neg Bool.false_ne_true, if_pos hid]

end

/- Slots that empty -------------------------------------------------------------------------------------------------------------- -/

/-- The slot of a task that has ended, with nothing of it under way, empties or passes on (R210). -/
theorem State.emptySlot_empties {s : State} {i : Nat} {c : Option Nat} (hst : (s.task (s.th i).task).state = .ended)
    (hq : (s.th i).quiet = true) (hsel : (s.th i).sel ≠ .brace)
    (hph : (s.th i).phase = .quiesce c ∨ c = none ∧ (s.th i).phase = .run) :
    s.emptySlot i = (s.setTask (s.th i).task { s.task (s.th i).task with inSlot := false }).setTh i (slotFor c) := by
  have hres : s.endedIn i = true := by
    rw [State.endedIn, hst, Thread.resident]
    rcases hph with h | ⟨-, h⟩ <;> rw [h] <;> rfl
  have hstores : (s.th i).stores = [] := by
    simp only [Thread.quiet, Bool.and_eq_true, List.isEmpty_iff] at hq
    exact hq.1.1.2
  rw [State.emptySlot, hres, hq, decide_eq_true hsel, if_pos (by decide), State.vacate]
  dsimp only
  rw [hstores]
  rcases hph with h | ⟨rfl, h⟩ <;> rw [h] <;> rfl

/-- Settles O33: the ends of quiesces, page-outs and page-ins, and the slots of ended tasks. -/
theorem paging : Obligations.Paging := by
  refine ⟨fun s t c => ?_, fun s t p l => ?_, fun a b h => PageOut.before_of_lt h, fun s t c => ?_, fun s t => ?_⟩
  · intro i th r hs hph hst hb hl hsav hdr hinv
    obtain ⟨r2, hr2⟩ : ∃ r2, r2 = { r with paging := true, eprio := r.prio, urgent := false, urg := .idle, evt := th.evt } := ⟨_, rfl⟩
    have hquiet := State.quiesceDone_leaves hph hst hb hl hsav hdr
    rw [← hr2] at hquiet
    have htask : spGet (fun _ => TaskRec.absent) (spSet (fun _ => TaskRec.absent) s.tasks th.task r2) th.task = r2 :=
      spGet_spSet_self hinv.tasks _ _
    refine ⟨_, congrArg Host.Outcome.next ((State.awakeDo_awake hs _).trans hquiet), rfl, (congrArg TaskRec.paging htask).trans ?_, (congrArg TaskRec.evt htask).trans ?_,
      (congrArg TaskRec.eprio htask).trans ?_, (congrArg TaskRec.urgent htask).trans ?_, (congrArg TaskRec.state htask).trans ?_,
      State.th_setTh_self hinv.ths i _, rfl, rfl, fun j hj => State.th_setTh_ne hj⟩ <;> rw [hr2]
  · intro r ports hs hp
    refine ⟨fun hfirst hports hlen hr hinv => ?_, fun h => ?_⟩
    · obtain ⟨⟨htasks, hregs, hths, houts, hwr⟩, hwords, hbytes, hpois⟩ := State.takeOut_spec hinv p l
      have htask : ∀ k, (s.takeOut p l).task k = s.task k := fun k => congrArg (fun m => spGet (fun _ => TaskRec.absent) m k) htasks
      have hrd : ∀ a, (s.takeOut p l).rd a = s.rd a := State.rd_congr hregs
      have hI := hinv.takeOut p l
      have heq := State.leaveSlot_ready hI (id := p.task) (by rw [htask]; exact hr)
      rw [htask, show (s.takeOut p l).grnTime = s.grnTime by rw [State.grnTime, hrd]; rfl] at heq
      rw [hlen] at hwords hbytes
      refine ⟨_, congrArg Host.Outcome.next ((State.awakeDo_awake hs _).trans
        ((State.pageOutDone_first hp hfirst hports).trans heq)), hwords, houts, hwr, hbytes, State.task_setTask_self hI _ _, ?_, hths,
        hpois⟩
      refine (State.rd_wr_self hI.regs _ _).trans ?_
      rw [show ((s.takeOut p l).setTask p.task _).rd (aGrn 0x44) = s.rd (aGrn 0x44) from hrd _]
      rfl
    · exact congrArg Host.Outcome.next ((State.awakeDo_awake hs _).trans (State.pageOutDone_waits hp h))
  · intro i w hs hph hinv
    have hdo : ∀ {u : State}, s.pageInDone i = u → exec (.pageInComplete t) s = .next u := fun hu =>
      congrArg Host.Outcome.next ((State.awakeDo_awake hs _).trans hu)
    refine ⟨fun hb => hdo (State.pageInDone_brace hph hb), fun hb hid => ?_, fun hb hid => ?_⟩
    · obtain ⟨x, hx⟩ : ∃ x, x = { threadOfCtx c (s.task c).evt s.eclk w with stores := (s.th i).stores } := ⟨_, rfl⟩
      obtain ⟨r, hr⟩ : ∃ r, r =
        { s.task c with inSlot := true, paging := false, evt := 0, waited := min 255 (s.waitOf (s.task c) / 4) }.fresh := ⟨_, rfl⟩
      have heq := State.pageInDone_lands hph hb hid
      rw [← hx, ← hr] at heq
      have hth : ((s.setTh i x).setTask c r).th i = x := State.th_setTh_self hinv.ths i x
      have hne : ∀ j, j ≠ i → ((s.setTh i x).setTask c r).th j = s.th j := fun j hj => State.th_setTh_ne (t := x) hj
      have htask : ((s.setTh i x).setTask c r).task c = r := State.task_setTask_self (hinv.setTh i x) c r
      refine ⟨_, hdo heq, hth.trans hx, (congrArg TaskRec.inSlot htask).trans ?_, (congrArg TaskRec.paging htask).trans ?_,
        (congrArg TaskRec.evt htask).trans ?_, (congrArg TaskRec.state htask).trans ?_, State.rd_wr_self hinv.regs _ _, rfl, hne⟩ <;>
        rw [hr] <;> rfl
    · have hI := hinv.setTh i { Thread.init with stores := (s.th i).stores }
      have htask := State.task_setTask_self hI c { s.task c with state := .lost, paging := false }
      exact ⟨_, hdo (State.pageInDone_lost hph hb hid), State.th_setTh_self hinv.ths i _, congrArg TaskRec.state htask,
        State.bit_setB_self hinv.regs _ (by decide), rfl⟩
  · intro i th s1 hs hst hq hsel
    have hdo : ∀ {u : State}, s.emptySlot i = u → exec (.slotEmpties t) s = .next u := fun hu =>
      congrArg Host.Outcome.next ((State.awakeDo_awake hs _).trans hu)
    refine ⟨fun hph => hdo ?_, fun c hph => hdo (State.emptySlot_empties hst hq hsel (Or.inl hph))⟩
    exact State.emptySlot_empties (c := none) hst hq hsel (hph.elim (fun h => Or.inr ⟨rfl, h⟩) Or.inl)

end Sys2Proof.Machine
end

section

/-! SUPPORT. A fault in a state whose thread table is not canonical (O22). -/

namespace Sys2Proof.Machine

/-- A load-error mark and nothing else: reading it leaves the thread of the reset. -/
def markedThread : Thread := { Thread.init with normal := { Bank.clear with ldErr := some (0x04, 0) } }

/-- A state whose table lists slot 0 twice, the second time in the brace bank. -/
def doubledSlot : State := { State.reset with ths := [(0, markedThread), (0, { Thread.init with sel := .brace })] }

/-- The read of the mark uncovers the second entry, in whose brace bank the fault locks the engine up: no fault waits. -/
theorem raiseFault_doubledSlot : ((doubledSlot.raiseFault 0 ⟨0x04, 0, 0⟩).th 0).fault = none := by decide +kernel

theorem faultWaits_doubledSlot : (((doubledSlot.putBank 0 (doubledSlot.th 0).sel { doubledSlot.cur 0 with ldErr := none }).modTh 0
    fun th => { th with fault := some ⟨0x04, 0, 0⟩ }).th 0).fault = some ⟨0x04, 0, 0⟩ := by decide +kernel

/-- Refutes O22: its first part holds of canonical states alone. In a state whose thread table lists slot 0 twice, the read of a
load error empties the first entry, and the second, in the brace bank, locks the engine up instead of waiting for its ENTRY cycle. -/
theorem not_exceptionEntry : ¬ Obligations.ExceptionEntry := by
  intro h
  have hwait := (h.1 doubledSlot 0 ⟨0x04, 0, 0⟩ (by decide)).2.2 (Or.inl rfl)
  have hfault := congrArg (fun u => (State.th u 0).fault) hwait
  dsimp only at hfault
  rw [raiseFault_doubledSlot, faultWaits_doubledSlot] at hfault
  cases hfault

end Sys2Proof.Machine
end

section

/-! SUPPORT. Contexts and shadow bank images as words, and the ends of spill transfers (O18). -/

namespace Sys2Proof.Machine

/- Fields of words ---------------------------------------------------------------------------------------------------- -/

theorem getLsbD_ofNat_div (n i : Nat) (hi : i < 64) : (BitVec.ofNat 64 n).getLsbD i = decide (n / 2 ^ i % 2 = 1) := by
  rw [BitVec.getLsbD_ofNat, decide_eq_true hi, Bool.true_and, Nat.testBit_eq_decide_div_mod_eq]

theorem wordLoop_loopWord (l : LoopSt) : wordLoop (loopWord l) = l := by
  obtain ⟨start, active, count⟩ := l
  have hs := start.isLt
  have hc := count.isLt
  have ha : active.toNat ≤ 1 := Bool.toNat_le active
  simp only [wordLoop, loopWord, getLsbD_ofNat_div _ 31 (by decide), LoopSt.mk.injEq]
  refine ⟨BitVec.eq_of_toNat_eq ?_, ?_, BitVec.eq_of_toNat_eq ?_⟩
  · simp only [BitVec.toNat_ofNat]
    omega
  · cases active
    · refine decide_eq_false ?_
      simp only [Bool.toNat_false]
      omega
    · refine decide_eq_true ?_
      simp only [Bool.toNat_true]
      omega
  · simp only [BitVec.toNat_ofNat]
    omega

/-- The flag word as a number (R60). -/
theorem toNat_flagWord (b : Bank) : (flagWord b 0 0).toNat =
    (b.b ||| 1).toNat + b.c0.toNat * 2 ^ 16 + b.c1.toNat * 2 ^ 17 + b.link.pc.toNat * 2 ^ 32 + b.link.ring.toNat * 2 ^ 56 := by
  have hb := (b.b ||| 1).isLt
  have hp := b.link.pc.isLt
  have hr := b.link.ring.isLt
  have h0 : b.c0.toNat ≤ 1 := Bool.toNat_le _
  have h1 : b.c1.toNat ≤ 1 := Bool.toNat_le _
  have hz : (0 : Ring).toNat = 0 := rfl
  simp only [flagWord, BitVec.toNat_ofNat, hz]
  omega

/-- What `bankOfCtl` takes from the control words of a bank: the bank's own (R60, R115). -/
theorem flagWord_fields (b : Bank) :
    BitVec.ofNat 8 (flagWord b 0 0).toNat ||| 1 = b.b ||| 1 ∧ (flagWord b 0 0).getLsbD 16 = b.c0 ∧ (flagWord b 0 0).getLsbD 17 = b.c1 ∧
      (⟨BitVec.ofNat 17 ((flagWord b 0 0).toNat / 2 ^ 32), BitVec.ofNat 2 ((flagWord b 0 0).toNat / 2 ^ 56)⟩ : Ret) = b.link := by
  have hb := (b.b ||| 1).isLt
  have hp := b.link.pc.isLt
  have hr := b.link.ring.isLt
  have h0 : b.c0.toNat ≤ 1 := Bool.toNat_le _
  have h1 : b.c1.toNat ≤ 1 := Bool.toNat_le _
  have hbit : ∀ i, (flagWord b 0 0).getLsbD i = decide ((flagWord b 0 0).toNat / 2 ^ i % 2 = 1) := fun i => by
    rw [BitVec.getLsbD, Nat.testBit_eq_decide_div_mod_eq]
  rw [hbit, hbit, toNat_flagWord]
  refine ⟨?_, ?_, ?_, ?_⟩
  · have hlow : BitVec.ofNat 8 ((b.b ||| 1).toNat + b.c0.toNat * 2 ^ 16 + b.c1.toNat * 2 ^ 17 + b.link.pc.toNat * 2 ^ 32 +
        b.link.ring.toNat * 2 ^ 56) = b.b ||| 1 := BitVec.eq_of_toNat_eq (by
      rw [BitVec.toNat_ofNat]
      omega)
    rw [hlow, BitVec.or_assoc, BitVec.or_self]
  · cases hc : b.c0 <;> simp only [hc, Bool.toNat_false, Bool.toNat_true, decide_eq_true_eq, decide_eq_false_iff_not] at h0 ⊢ <;> omega
  · cases hc : b.c1 <;> simp only [hc, Bool.toNat_false, Bool.toNat_true, decide_eq_true_eq, decide_eq_false_iff_not] at h1 ⊢ <;> omega
  · refine congrArg₂ Ret.mk (y' := b.link.ring) (x' := b.link.pc) (BitVec.eq_of_toNat_eq ?_) (BitVec.eq_of_toNat_eq ?_) <;>
      rw [BitVec.toNat_ofNat] <;> omega

theorem toNat_excWord {x : ExcRec} (hd : x.depth < 64) (hs : x.slot < 8) : (excWord x).toNat =
    x.cause.toNat + x.ds.toNat * 2 ^ 8 + x.ring.toNat * 2 ^ 9 + x.depth * 2 ^ 16 + x.slot * 2 ^ 24 + x.epc.toNat * 2 ^ 32 := by
  have hc := x.cause.isLt
  have he := x.epc.isLt
  have hr := x.ring.isLt
  have h0 : x.ds.toNat ≤ 1 := Bool.toNat_le _
  simp only [excWord, BitVec.toNat_ofNat]
  omega

/- Images ----------------------------------------------------------------------------------------------------------------- -/

/-- A vector taken from a list that begins with it, behind `l`. -/
theorem vecFrom_append {n : Nat} (l : List W64) (v : Vector W64 n) (r : List W64) : vecFrom (l ++ v.toList ++ r) l.length n = v := by
  refine Vector.ext fun k hk => ?_
  simp only [vecFrom, Vector.getElem_ofFn, List.getD_eq_getElem?_getD]
  rw [List.append_assoc, List.getElem?_append_right (Nat.le_add_right _ _), Nat.add_sub_cancel_left,
    List.getElem?_append_left (by simpa using hk)]
  simp [hk]

/-- The words behind the registers and latches of an image. -/
def imageTail (b : Bank) (x : ExcRec) : List W64 :=
  [ excWord x, BitVec.ofNat 64 x.enpc.toNat, x.info, 0, 0, flagWord b 0 0, loopWord b.loop0, loopWord b.loop1,
    BitVec.ofNat 64 (b.spill.toNat * 2 ^ 40), BitVec.ofNat 64 b.limm.toNat ]

theorem imageWords_getD_tail (b : Bank) (x : ExcRec) (n : Nat) : (imageWords b x).getD (54 + n) 0 = (imageTail b x).getD n 0 := by
  have hlen : (b.w.toList ++ b.latch.toList).length = 54 := by simp
  rw [show imageWords b x = (b.w.toList ++ b.latch.toList) ++ imageTail b x from rfl, List.getD_append_right _ _ _ _ (by omega), hlen,
    Nat.add_sub_cancel_left]

theorem imageWords_drop (b : Bank) (x : ExcRec) : (imageWords b x).drop 58 = (imageTail b x).drop 4 := by
  have hlen : (b.w.toList ++ b.latch.toList).length = 54 := by simp
  rw [show imageWords b x = (b.w.toList ++ b.latch.toList) ++ imageTail b x from rfl, List.drop_append, hlen,
    List.drop_eq_nil_of_le (by omega), List.nil_append]

/-- Read back, an image gives the bank it was written from (R141). -/
theorem bankOfImage_imageWords {b : Bank} (x : ExcRec) (hld : b.ldErr = none) (hb0 : b.b.getLsbD 0 = true) :
    bankOfImage (imageWords b x) = b := by
  have hw : vecFrom (imageWords b x) 0 32 = b.w := by
    have := vecFrom_append [] b.w (b.latch.toList ++ imageTail b x)
    rw [List.nil_append, ← List.append_assoc] at this
    exact this
  have hlatch : vecFrom (imageWords b x) 32 22 = b.latch := by
    have := vecFrom_append b.w.toList b.latch (imageTail b x)
    rw [Vector.length_toList] at this
    exact this
  have hlimm : BitVec.ofNat 28 ((imageWords b x).getD 63 0).toNat = b.limm := by
    have hl := b.limm.isLt
    rw [imageWords_getD_tail b x 9]
    refine BitVec.eq_of_toNat_eq ?_
    simp only [imageTail, List.getD_cons_succ, List.getD_cons_zero, BitVec.toNat_ofNat]
    omega
  have hspill : BitVec.ofNat 24 (((imageWords b x).getD 62 0).toNat / 2 ^ 40) = b.spill := by
    have hl := b.spill.isLt
    rw [imageWords_getD_tail b x 8]
    refine BitVec.eq_of_toNat_eq ?_
    simp only [imageTail, List.getD_cons_succ, List.getD_cons_zero, BitVec.toNat_ofNat]
    omega
  have hbb : b.b ||| 1 = b.b := by
    refine BitVec.eq_of_getLsbD_eq fun i hi => ?_
    rw [BitVec.getLsbD_or]
    cases i with
    | zero => rw [hb0]; rfl
    | succ i => simp [BitVec.getLsbD_one]
  obtain ⟨h1, h2, h3, h4⟩ := flagWord_fields b
  rw [bankOfImage, imageWords_drop, hw, hlatch, hlimm, hspill, bankOfCtl]
  simp only [imageTail, List.drop_succ_cons, List.drop_zero, List.getD_cons_succ, List.getD_cons_zero, h1, h2, h3, h4, hbb,
    wordLoop_loopWord]
  exact congrArg (fun e => { b with ldErr := e }) hld.symm

/-- Read back, an image gives the record it was written from (R141). -/
theorem excOfImage_imageWords (b : Bank) {x : ExcRec} (hd : x.depth < 64) (hs : x.slot < 8) :
    excOfImage (imageWords b x) = x := by
  have hc := x.cause.isLt
  have he := x.epc.isLt
  have hr := x.ring.isLt
  have h0 : x.ds.toNat ≤ 1 := Bool.toNat_le _
  have hn := x.enpc.isLt
  have hv := toNat_excWord hd hs
  have hds : (excWord x).getLsbD 8 = x.ds := by
    rw [BitVec.getLsbD, Nat.testBit_eq_decide_div_mod_eq, hv]
    cases hx : x.ds <;> simp only [hx, Bool.toNat_false, Bool.toNat_true, decide_eq_true_eq, decide_eq_false_iff_not] at h0 ⊢ <;> omega
  rw [excOfImage, imageWords_getD_tail b x 0, imageWords_getD_tail b x 1, imageWords_getD_tail b x 2]
  simp only [imageTail, List.getD_cons_succ, List.getD_cons_zero, hv, hds]
  obtain ⟨cause, epc, enpc, ds, ring, depth, slot, info⟩ := x
  simp only [ExcRec.mk.injEq, true_and, and_true] at *
  refine ⟨BitVec.eq_of_toNat_eq ?_, BitVec.eq_of_toNat_eq ?_, BitVec.eq_of_toNat_eq ?_, BitVec.eq_of_toNat_eq ?_, by omega, by omega⟩ <;>
    simp only [BitVec.toNat_ofNat] <;> omega

/- Contexts (R60, R115) ---------------------------------------------------------------------------------------------------- -/

theorem length_stackWords (st : List Ret) : (stackWords st).length = 4 := rfl

/-- The thread whose context a SAVE stores: outside the normal bank with the resume point of its record (R137). -/
def Thread.saved (t : Thread) : Thread :=
  match t.sel with
  | .normal => t
  | _ => { t with pc := t.exc.epc, npc := t.exc.enpc, ds := t.exc.ds, ring := t.exc.ring }

theorem Thread.saveWords_eq (t : Thread) (k : Fin 4) :
    t.saveWords k = ((ctxWords t.saved).drop (blkWords k).1).take (blkWords k).2 := by
  rw [Thread.saveWords, Thread.saved]
  cases t.sel <;> rfl

theorem Thread.saved_normal (t : Thread) : t.saved.normal = t.normal := by
  rw [Thread.saved]
  cases t.sel <;> rfl

theorem length_ctxWords (t : Thread) : (ctxWords t).length = 64 := by
  simp [ctxWords, length_stackWords, ctlWords]

theorem Thread.length_saveWords (t : Thread) (k : Fin 4) : (t.saveWords k).length = (blkWords k).2 := by
  rw [t.saveWords_eq, List.length_take, List.length_drop, length_ctxWords]
  fin_cases k <;> rfl

theorem ctxWords_getElem_w (t : Thread) {n : Nat} (h : n < 32) : (ctxWords t)[n]? = some t.normal.w[n] := by
  rw [ctxWords, List.append_assoc, List.append_assoc, List.getElem?_append_left (by simpa using h)]
  simp [h]

theorem ctxWords_getElem_latch (t : Thread) {n : Nat} (h : n < 22) : (ctxWords t)[32 + n]? = some t.normal.latch[n] := by
  have hlen : t.normal.w.toList.length = 32 := by simp
  rw [ctxWords, List.append_assoc, List.append_assoc, List.getElem?_append_right (by omega), hlen, Nat.add_sub_cancel_left,
    List.getElem?_append_left (by simpa using h)]
  simp [h]

/-- The control words stand at the end of a context (R60). -/
theorem ctxWords_control (t : Thread) : ((ctxWords t).drop 58).take 6 =
    ctlWords t.normal t.pc t.npc t.ds t.ring t.stack.length t.xsp t.task := by
  have hlen : (t.normal.w.toList ++ t.normal.latch.toList ++ stackWords t.stack).length = 58 := by simp [length_stackWords]
  rw [ctxWords, List.drop_append, hlen, List.drop_eq_nil_of_le (by omega), List.nil_append]
  rfl

theorem Thread.saveWords_getElem (t : Thread) {k : Fin 4} {n : Nat} (h : n < (blkWords k).2) :
    (t.saveWords k)[n]? = (ctxWords t.saved)[(blkWords k).1 + n]? := by
  rw [t.saveWords_eq, List.getElem?_take_of_lt h, List.getElem?_drop]

/- The start of the end of a transfer ------------------------------------------------------------------------------------------ -/

/-- What operations that land leave of a thread and of its engine's state. -/
def State.LandFrame (s u : State) (i : Nat) : Prop :=
  (u.th i).spill = (s.th i).spill ∧ (u.th i).stores = (s.th i).stores ∧ ∀ e, u.locked e = s.locked e

theorem State.locked_setB_sticky (s : State) (e e' k : Nat) : (s.setB (aEng e 0x2C) k).locked e' = s.locked e' :=
  State.bit_wr_ne _ _ (by unfold aEng; omega)

theorem State.putBank_landFrame {s : State} (h : s.Inv) (i : Nat) (sel : BankSel) (b : Bank) : s.LandFrame (s.putBank i sel b) i := by
  rw [State.LandFrame, State.th_putBank h]
  exact ⟨by cases sel <;> rfl, by cases sel <;> rfl, fun e => State.bit_congr (State.putBank_regs _ _ _ _) _ _⟩

theorem State.land_landFrame {s : State} (h : s.Inv) (i : Nat) (o : RunOp) : s.LandFrame (s.land i o) i := by
  unfold State.land
  split
  · rw [State.LandFrame, State.th_modTh_self h]
    exact ⟨rfl, rfl, fun e => rfl⟩
  · split
    · obtain ⟨h1, h2, h3⟩ := State.putBank_landFrame (h.setB (aEng (engOf i) 0x2C) 0) i o.sel (landBank (s.bankOf i o.sel) o)
      exact ⟨h1, h2, fun e => (h3 e).trans (State.locked_setB_sticky ..)⟩
    · exact State.putBank_landFrame h i _ _
  · exact State.putBank_landFrame h i _ _

theorem State.foldl_land_landFrame (i : Nat) (l : List RunOp) {s : State} (h : s.Inv) :
    s.LandFrame (l.foldl (fun s o => s.land i o) s) i := by
  induction l generalizing s with
  | nil => exact ⟨rfl, rfl, fun _ => rfl⟩
  | cons o l ih =>
    obtain ⟨h1, h2, h3⟩ := State.land_landFrame h i o
    obtain ⟨k1, k2, k3⟩ := ih ((State.land_keeps (.refl s) i o).inv h)
    exact ⟨k1.trans h1, k2.trans h2, fun e => (k3 e).trans (h3 e)⟩

theorem State.landShort_landFrame {s : State} (h : s.Inv) (i : Nat) : s.LandFrame (s.landShort i) i := by
  have hmod : ∀ ops, s.LandFrame (s.modTh i fun t => { t with ops := ops }) i := fun ops => by
    rw [State.LandFrame, State.th_modTh_self h]
    exact ⟨rfl, rfl, fun _ => rfl⟩
  unfold State.landShort
  dsimp only
  split
  · exact hmod _
  · obtain ⟨h1, h2, h3⟩ := hmod (supersede ((s.th i).ops.filter (·.short)) ((s.th i).ops.filter fun o => !o.short))
    obtain ⟨k1, k2, k3⟩ := State.foldl_land_landFrame i ((s.th i).ops.filter (·.short))
      (h.modTh i fun t => { t with ops := supersede ((s.th i).ops.filter (·.short)) ((s.th i).ops.filter fun o => !o.short) })
    exact ⟨k1.trans h1, k2.trans h2, fun e => (k3 e).trans (h3 e)⟩

/-- A transfer in local scratch ends once the store buffer is empty. -/
theorem exec_spillTransferEnd_scratch {s : State} {t : Th} {p : SpillRec} {o : Nat} (ecc : Ecc) (hs : s.sleeping = false)
    (hp : (s.th (thIx t)).spill = some p) (hst : (s.th (thIx t)).stores = []) (ho : regionOf p.addr = .scratch o) :
    exec (.spillTransferEnd t ecc) s = .next (((s.landShort (thIx t)).spillScratch (thIx t) o p ecc).clearWaits) := by
  refine congrArg Host.Outcome.next ((State.awakeDo_awake hs _).trans ?_)
  rw [State.spillDone, hp]
  dsimp only
  rw [hst]
  dsimp only [List.isEmpty_nil]
  rw [if_neg (by decide), ho]

/-- A transfer elsewhere ends when its last beat has been answered. -/
theorem exec_spillTransferEnd_matrix {s : State} {t : Th} {p : SpillRec} {x : Xfer} (ecc : Ecc) (hs : s.sleeping = false)
    (hp : (s.th (thIx t)).spill = some p) (hst : (s.th (thIx t)).stores = []) (ho : ∀ o, regionOf p.addr ≠ .scratch o)
    (hx : s.xferOf (.spill (thIx t)) = some x) (hover : x.over = true) :
    exec (.spillTransferEnd t ecc) s = .next (((s.landShort (thIx t)).dropXfer (.spill (thIx t))).spillEnd (thIx t) p
      (match x.err with
        | some k => .err k
        | none => .ok) (wordsOf x.got)).clearWaits := by
  refine congrArg Host.Outcome.next ((State.awakeDo_awake hs _).trans ?_)
  rw [State.spillDone, hp]
  dsimp only
  rw [hst]
  dsimp only [List.isEmpty_nil]
  rw [if_neg (by decide)]
  split
  · next o h => exact absurd h (ho o)
  · rw [hx]
    exact if_pos hover

/- The end of a transfer ----------------------------------------------------------------------------------------------------------- -/

/-- What the end of a transfer `p` of some kind does to a thread that has left its spill wait, on an engine that runs (R117, R136,
R142). -/
def State.spillEffect (v : State) (i : Nat) (p : SpillRec) (w : List W64) (kind : SpillKind) (r : AccRes) : State :=
  match kind, r with
  | .save _, .ok => v
  | .save _, _ => v.spillErr i p
  | .restore k, .ok => v.modTh i fun t => { t with normal := restoreBank t.normal k w }
  | .restore _, _ => v.spillErr i p
  | .xsave, .ok => v.modTh i fun t => { t with xsp := t.xsp + 512, armed := true }
  | .xsave, _ => v.spillBrace i p false
  | _, .ok => v.takeImage i p w
  | _, _ => v.spillBrace i p false

section
variable {u : State} {i : Nat} {p : SpillRec} {w : List W64}

theorem State.spillEnd_locked (hl : u.locked (engOf i) = true) (r : AccRes) : u.spillEnd i p r w = u.spillOver i := by
  unfold State.spillEnd
  exact if_pos hl

theorem State.spillEnd_unlocked (hl : u.locked (engOf i) = false) {kind : SpillKind} (hk : p.kind = kind) (r : AccRes) :
    u.spillEnd i p r w = (u.spillOver i).spillEffect i p w kind r := by
  subst hk
  unfold State.spillEnd
  refine (if_neg (c := (u.spillOver i).locked (engOf i) = true) ?_).trans ?_
  · rw [show (u.spillOver i).locked (engOf i) = false from hl]
    exact Bool.false_ne_true
  · rfl

end

theorem State.spillErr_signal {v : State} {i : Nat} {p : SpillRec} (hl : v.locked (engOf i) = false) (hsel : p.sel ≠ .brace) :
    v.spillErr i p = v.raiseSignal i 0x43 (BitVec.ofNat 64 p.addr) := by
  rw [State.spillErr, hl, if_neg Bool.false_ne_true, if_neg hsel]

/-- A stored ring below the ring in force makes a brace entry due (R142). -/
theorem State.takeImage_ring {v : State} {i : Nat} {p : SpillRec} {w : List W64} (h : (excOfImage w).ring < (v.th i).ring) :
    v.takeImage i p w = v.spillBrace i p true := by
  rw [State.takeImage]
  exact if_pos h

/-- Block 3 gives B1 to B7, the carries, the link register and the loops (R115). -/
theorem restoreBank_control (b : Bank) (w : List W64) :
    restoreBank b 3 w = { b with
      b := BitVec.ofNat 8 (w.getD 1 0).toNat ||| 1, c0 := (w.getD 1 0).getLsbD 16, c1 := (w.getD 1 0).getLsbD 17
      link := ⟨(w.getD 1 0).extractLsb' 32 17, (w.getD 1 0).extractLsb' 56 2⟩, loop0 := wordLoop (w.getD 2 0)
      loop1 := wordLoop (w.getD 3 0) } := by
  have hx : ∀ k n, (w.getD 1 0).extractLsb' k n = BitVec.ofNat n ((w.getD 1 0).toNat / 2 ^ k) := fun k n => by
    rw [BitVec.extractLsb', Nat.shiftRight_eq_div_pow]
  rw [hx, hx]
  rfl

/-- An update of a thread depends on what it makes of that thread alone. -/
theorem State.modTh_congr {s : State} {i : Nat} {f g : Thread → Thread} (h : f (s.th i) = g (s.th i)) : s.modTh i f = s.modTh i g := by
  rw [State.modTh, State.modTh, h]

section
variable {u : State} {i : Nat} {p : SpillRec} {w : List W64} (hl : u.locked (engOf i) = false)
include hl

/-- A SAVE or RESTORE that fails raises the spill signal (R117). -/
theorem State.spillEnd_signal {k : Fin 4} (hk : p.kind = .save k ∨ p.kind = .restore k) (hsel : p.sel ≠ .brace) {r : AccRes}
    (hr : r ≠ .ok) : u.spillEnd i p r w = (u.spillOver i).raiseSignal i 0x43 (BitVec.ofNat 64 p.addr) := by
  have herr := State.spillErr_signal (v := u.spillOver i) (i := i) hl hsel
  cases r with
  | ok => exact absurd rfl hr
  | err c =>
    rcases hk with hk | hk
    · exact (State.spillEnd_unlocked hl hk (.err c)).trans herr
    · exact (State.spillEnd_unlocked hl hk (.err c)).trans herr

/-- An exception transfer that fails makes a brace entry due (R143). -/
theorem State.spillEnd_brace (hk : p.kind = .xsave ∨ p.kind = .xrestore ∨ p.kind = .nested) {r : AccRes} (hr : r ≠ .ok) :
    u.spillEnd i p r w = (u.spillOver i).spillBrace i p false := by
  cases r with
  | ok => exact absurd rfl hr
  | err c =>
    rcases hk with hk | hk | hk
    · exact State.spillEnd_unlocked hl hk (.err c)
    · exact State.spillEnd_unlocked hl hk (.err c)
    · exact State.spillEnd_unlocked hl hk (.err c)

/-- A RESTORE gives the normal bank its block (R115). -/
theorem State.spillEnd_restore {k : Fin 4} (hk : p.kind = .restore k) :
    u.spillEnd i p .ok w = (u.spillOver i).modTh i fun t => { t with normal := restoreBank ((u.spillOver i).th i).normal k w } :=
  (State.spillEnd_unlocked hl hk .ok).trans
    (State.modTh_congr (s := u.spillOver i) (i := i) (f := fun t => { t with normal := restoreBank t.normal k w }) rfl)

/-- An image that arrives is judged by its ring (R142). -/
theorem State.spillEnd_image (hk : p.kind = .xrestore ∨ p.kind = .nested) :
    u.spillEnd i p .ok w = (u.spillOver i).takeImage i p w := by
  rcases hk with hk | hk
  · exact State.spillEnd_unlocked hl hk .ok
  · exact State.spillEnd_unlocked hl hk .ok

end

/-- A RESTORE of a block writes its registers and leaves the others (R115). -/
theorem restoreBank_block (b : Bank) (w : List W64) (k : Fin 4) :
    (k = 0 → restoreBank b k w = { b with w := (restoreBank b k w).w } ∧
      ∀ n : Fin 32, (restoreBank b k w).w[n] = if n.val < 16 then w.getD n.val 0 else b.w[n]) ∧
    (k = 1 → restoreBank b k w = { b with w := (restoreBank b k w).w } ∧
      ∀ n : Fin 32, (restoreBank b k w).w[n] = if n.val < 16 then b.w[n] else w.getD (n.val - 16) 0) ∧
    (k = 2 → restoreBank b k w = { b with latch := (restoreBank b k w).latch, ldErr := none } ∧
      ∀ n : Fin 22, (restoreBank b k w).latch[n] = w.getD n.val 0) := by
  refine ⟨?_, ?_, ?_⟩ <;> rintro rfl <;> refine ⟨rfl, fun n => ?_⟩ <;> simp [restoreBank, vecFrom]

/- Transfers in scratch ------------------------------------------------------------------------------------------------------------- -/

theorem State.words_congr {s u : State} (h : u.mem = s.mem) (a n : Nat) : u.words a n = s.words a n :=
  List.map_congr_left fun _ _ => congrArg (BitVec.ofNat 64) (State.bytes_congr h _ _)

section
variable {u : State} {i o : Nat} {p : SpillRec} (ecc : Ecc)

theorem State.spillScratch_writes {w : List W64} (h : (u.th i).spillWords p = some w) :
    u.spillScratch i o p ecc = (u.setWords (scratchKey (engOf i) o) w).spillEnd i p .ok [] := by
  rw [State.spillScratch, h]

theorem State.spillScratch_reads (h : (u.th i).spillWords p = none) (hce : ecc.ce = 0) :
    u.spillScratch i o p ecc =
      u.spillEnd i p (if ecc.ue then .err 2 else .ok) (u.words (scratchKey (engOf i) o) (p.len / 8)) := by
  rw [State.spillScratch, h]
  dsimp only
  rw [hce]
  rfl

end

/-- What a transfer that has written `w` leaves, its thread `x` but for the wait. -/
theorem State.wrote_spec {u y : State} (h : u.Inv) (hy : y.Inv) {i key : Nat} {w : List W64} (hmem : y.mem = (u.setWords key w).mem)
    (hregs : y.regs = u.regs) :
    y.clearWaits.words key w.length = w ∧ y.clearWaits.regs = u.regs ∧
      (∀ a, a < key ∨ key + 8 * w.length ≤ a → y.clearWaits.byte a = u.byte a) ∧
      y.clearWaits.th i = { y.th i with wait := (y.clearWaits.th i).wait } := by
  have hm : y.clearWaits.mem = (u.setWords key w).mem := (y.clearWaits_mem).trans hmem
  refine ⟨?_, (y.clearWaits_regs).trans hregs, fun a ha => ?_, (y.clearWaits_frame.2 hy.ths).2 i⟩
  · rw [State.words_congr hm, State.words_setWords_self h.mem]
  · rw [State.byte_congr hm, State.byte_setWords_frame ha]

section
variable {u : State} (h : u.Inv) {i key : Nat} (w : List W64)
include h

theorem State.setWords_spec : (u.setWords key w).Inv ∧ (u.setWords key w).th i = u.th i ∧ (u.setWords key w).regs = u.regs := by
  obtain ⟨mem, hm⟩ := u.setWords_eq key w
  rw [hm]
  exact ⟨hm ▸ (State.setWords_keeps (.refl u) key w).inv h, rfl, rfl⟩

/-- The thread has left its spill wait after writing `w`. -/
theorem State.spillOver_setWords : ((u.setWords key w).spillOver i).Inv ∧
    ((u.setWords key w).spillOver i).th i = { u.th i with spill := none } := by
  obtain ⟨hI, hth, -⟩ := State.setWords_spec h (i := i) (key := key) w
  refine ⟨hI.modTh i fun t => { t with spill := none }, ?_⟩
  rw [State.spillOver, State.th_modTh_self hI, hth]

omit w in
/-- An update `f` of a thread that has left its spill wait, and the waits that then clear. -/
theorem State.spillOver_modTh_clearWaits (f : Thread → Thread) :
    let s' := ((u.spillOver i).modTh i f).clearWaits
    s'.mem = u.mem ∧ ∃ x, s'.th i = { f { u.th i with spill := none } with wait := x } := by
  have hI : (u.spillOver i).Inv := h.modTh i fun t => { t with spill := none }
  have hth := ((((u.spillOver i).modTh i f).clearWaits_frame).2 (hI.modTh i f).ths).2 i
  rw [State.th_modTh_self hI, State.spillOver, State.th_modTh_self h] at hth
  exact ⟨(State.clearWaits_mem _).trans rfl, _, hth⟩

variable {p : SpillRec} (hl : u.locked (engOf i) = false)
include hl

theorem State.setWords_locked : (u.setWords key w).locked (engOf i) = false := by
  rw [State.locked, State.bit_congr (State.setWords_spec h (i := i) (key := key) w).2.2]
  exact hl

/-- An XSAVE leaves the image behind XSP, the thread armed (R141). -/
theorem State.xsave_ends (hk : p.kind = .xsave) :
    let s' := ((u.setWords key w).spillEnd i p .ok []).clearWaits
    s'.words key w.length = w ∧ s'.regs = u.regs ∧ (∀ a, a < key ∨ key + 8 * w.length ≤ a → s'.byte a = u.byte a) ∧
      ∃ x, s'.th i = { u.th i with spill := none, xsp := (u.th i).xsp + 512, armed := true, wait := x } := by
  obtain ⟨hI, hth⟩ := State.spillOver_setWords h (i := i) (key := key) w
  have hend := State.spillEnd_unlocked (w := []) (State.setWords_locked h (key := key) w hl) hk .ok
  intro s'
  obtain ⟨h1, h2, h3, h4⟩ := State.wrote_spec (i := i) (key := key) (w := w)
    (y := ((u.setWords key w).spillOver i).modTh i fun t => { t with xsp := t.xsp + 512, armed := true }) h
    (hI.modTh i fun t => { t with xsp := t.xsp + 512, armed := true }) rfl (State.setWords_spec h (i := i) (key := key) w).2.2
  rw [State.th_modTh_self hI, hth] at h4
  rw [show s' = _ from congrArg State.clearWaits hend]
  exact ⟨h1, h2, h3, _, h4⟩

/-- A SAVE leaves its words, the thread as it was (R115). -/
theorem State.save_ends {k : Fin 4} (hk : p.kind = .save k) :
    let s' := ((u.setWords key w).spillEnd i p .ok []).clearWaits
    s'.words key w.length = w ∧ s'.regs = u.regs ∧ (∀ a, a < key ∨ key + 8 * w.length ≤ a → s'.byte a = u.byte a) ∧
      ∃ x, s'.th i = { u.th i with spill := none, wait := x } := by
  obtain ⟨hI, hth⟩ := State.spillOver_setWords h (i := i) (key := key) w
  have hend := State.spillEnd_unlocked (w := []) (State.setWords_locked h (key := key) w hl) hk .ok
  intro s'
  obtain ⟨h1, h2, h3, h4⟩ := State.wrote_spec (i := i) (key := key) (w := w) (y := (u.setWords key w).spillOver i) h hI rfl
    (State.setWords_spec h (i := i) (key := key) w).2.2
  rw [hth] at h4
  rw [show s' = _ from congrArg State.clearWaits hend]
  exact ⟨h1, h2, h3, _, h4⟩

end

theorem State.words_getD (s : State) (a : Nat) {n m : Nat} (h : n < m) :
    (s.words a m).getD n 0 = BitVec.ofNat 64 (s.bytes (a + 8 * n) 8) := by
  rw [State.words, List.getD_eq_getElem?_getD, List.getElem?_map, List.getElem?_range h]
  rfl

theorem State.bytes_eight (s : State) (a : Nat) : s.bytes a 8 = s.bytes a 4 + 2 ^ 32 * s.bytes (a + 4) 4 := by
  simp only [State.bytes, Nat.add_assoc, Nat.reduceAdd]
  omega

/-- The ring of a stored image stands in its low half word (R141). -/
theorem excOfImage_words_ring (s : State) (key : Nat) :
    (excOfImage (s.words key 64)).ring = BitVec.ofNat 2 (s.bytes (key + 0x1B0) 4 / 2 ^ 9) := by
  have hw := s.words_getD key (n := 54) (m := 64) (by decide)
  rw [excOfImage]
  dsimp only
  rw [hw, State.bytes_eight, show key + 8 * 54 = key + 0x1B0 from rfl]
  refine BitVec.eq_of_toNat_eq ?_
  simp only [BitVec.toNat_ofNat]
  omega

section
variable {u : State} (h : u.Inv) {i : Nat} {p : SpillRec} (hl : u.locked (engOf i) = false)
include h hl

/-- A RESTORE of block 0 gives W0 to W15 their words (R115). -/
theorem State.restore_ends (hk : p.kind = .restore 0) (w : List W64) :
    let s' := (u.spillEnd i p .ok w).clearWaits
    s'.mem = u.mem ∧ ∃ (b : Bank) (x : Option WaitCond), s'.th i = { u.th i with spill := none, normal := b, wait := x } ∧
      b.latch = (u.th i).normal.latch ∧ ∀ n : Fin 32, b.w[n] = if n.val < 16 then w.getD n.val 0 else (u.th i).normal.w[n] := by
  have hnorm : ((u.spillOver i).th i).normal = (u.th i).normal := by rw [State.spillOver, State.th_modTh_self h]
  obtain ⟨hfield, hget⟩ := (restoreBank_block (u.th i).normal w 0).1 rfl
  have hend := State.spillEnd_restore (w := w) hl hk
  rw [hnorm] at hend
  generalize restoreBank (u.th i).normal 0 w = b at hfield hget hend
  obtain ⟨hm, x, hx⟩ := State.spillOver_modTh_clearWaits h (i := i) fun t => { t with normal := b }
  intro s'
  rw [show s' = _ from congrArg State.clearWaits hend]
  exact ⟨hm, b, x, hx, (congrArg Bank.latch hfield).trans rfl, hget⟩

/-- A stored ring below the ring in force leaves the thread but for the brace entry that is due (R142). -/
theorem State.ringCheck_ends (hk : p.kind = .xrestore ∨ p.kind = .nested) {w : List W64} (hr : (excOfImage w).ring < (u.th i).ring) :
    let s' := (u.spillEnd i p .ok w).clearWaits
    s'.mem = u.mem ∧ ∃ x : Option WaitCond, s'.th i =
      { u.th i with spill := none, brEntry := some ⟨0x43, BitVec.ofNat 64 (p.addr + 2 ^ 63), 7⟩, wait := x } := by
  have hring : (excOfImage w).ring < ((u.spillOver i).th i).ring := by
    rw [State.spillOver, State.th_modTh_self h]
    exact hr
  obtain ⟨hm, x, hx⟩ := State.spillOver_modTh_clearWaits h (i := i) fun t =>
    { t with brEntry := some ⟨0x43, BitVec.ofNat 64 (p.addr + true.toNat * 2 ^ 63), 7⟩ }
  intro s'
  rw [show s' = _ from congrArg State.clearWaits ((State.spillEnd_image hl hk).trans (State.takeImage_ring hring))]
  exact ⟨hm, x, hx⟩

end

/-- Settles O18: images and contexts read back, and what each end of a transfer leaves. -/
theorem spillTransferEnd : Obligations.SpillTransferEnd := by
  refine ⟨fun b x hld hb hd hs => ⟨bankOfImage_imageWords x hld hb, excOfImage_imageWords b hd hs⟩, fun th k n => ?_,
    fun s t p o ecc => ?_, fun s t p x ecc => ?_, fun u i p r w => ?_⟩
  · refine ⟨?_, ?_, ?_, ?_, ?_⟩
    · rintro rfl h
      rw [th.saveWords_getElem h, show (blkWords 0).1 + n = n from Nat.zero_add n, ctxWords_getElem_w _ (by omega)]
      simp only [Thread.saved_normal]
    · rintro rfl h
      rw [th.saveWords_getElem h, show (blkWords 1).1 + n = 16 + n from rfl, ctxWords_getElem_w _ (by omega)]
      simp only [Thread.saved_normal]
    · rintro rfl h
      rw [th.saveWords_getElem h, show (blkWords 2).1 + n = 32 + n from rfl, ctxWords_getElem_latch _ h]
      simp only [Thread.saved_normal]
    · rintro rfl h
      rw [th.saveWords_eq, show th.saved = th by rw [Thread.saved, h]]
      exact ctxWords_control th
    · rintro rfl h
      rw [th.saveWords_eq, show th.saved = { th with
        pc := th.exc.epc, npc := th.exc.enpc, ds := th.exc.ds, ring := th.exc.ring } by rw [Thread.saved, h]]
      exact ctxWords_control _
  · intro i u th key hce hinv hs hlock hp hst ho
    obtain ⟨hsp, hstores, hlocked⟩ := State.landShort_landFrame hinv i
    have hu : u.Inv := hinv.landShort i
    have hlu : u.locked (engOf i) = false := (hlocked _).trans hlock
    have hex : exec (.spillTransferEnd t ecc) s = .next (u.spillScratch i o p ecc).clearWaits :=
      exec_spillTransferEnd_scratch ecc hs (hsp.symm.trans hp) (hstores.symm.trans hst) ho
    have hmem : u.mem = s.mem := s.landShort_mem i
    have hbyte : ∀ a, u.byte a = s.byte a := State.byte_congr hmem
    refine ⟨fun hk => ?_, fun k hk => ?_, fun hk hue => ?_, fun hk hue hring => ?_, fun hx hsv => ?_⟩
    · have hw : (u.th i).spillWords p = some (imageWords th.shadow th.exc) := by rw [Thread.spillWords, hk]
      rw [State.spillScratch_writes ecc hw] at hex
      obtain ⟨h1, h2, h3, x, h4⟩ := State.xsave_ends hu (key := key) (imageWords th.shadow th.exc) hlu hk
      rw [show (imageWords th.shadow th.exc).length = 64 by simp [imageWords]] at h1 h3
      refine ⟨_, hex, h1, ?_, ?_, ?_, ?_, h2, fun a ha => (h3 a ha).trans (hbyte a)⟩ <;> rw [h4]
    · have hw : (u.th i).spillWords p = some (th.saveWords k) := by rw [Thread.spillWords, hk]
      rw [State.spillScratch_writes ecc hw] at hex
      obtain ⟨h1, h2, h3, x, h4⟩ := State.save_ends hu (key := key) (th.saveWords k) hlu hk
      rw [th.length_saveWords] at h1 h3
      refine ⟨_, hex, h1, ?_, ?_, ?_, h2, fun a ha => (h3 a ha).trans (hbyte a)⟩ <;> rw [h4]
    · have hw : (u.th i).spillWords p = none := by rw [Thread.spillWords, hk]
      have hlen : p.len / 8 = 16 := by rw [SpillRec.len, hk]; rfl
      rw [State.spillScratch_reads ecc hw hce, hue, if_neg Bool.false_ne_true, hlen] at hex
      obtain ⟨hm, b, x, hx, hlatch, hget⟩ := State.restore_ends hu hlu hk (u.words key 16)
      refine ⟨_, hex, fun n hn => ?_, fun n hn => ?_, ?_, ?_, ?_, hm.trans hmem⟩ <;> rw [hx]
      · rw [hget, if_pos hn, State.words_getD _ _ hn, State.bytes_congr hmem]
      · rw [hget, if_neg (Nat.not_lt.mpr hn)]
      · rw [hlatch]
    · have hw : (u.th i).spillWords p = none := by rw [Thread.spillWords, hk]
      have hlen : p.len / 8 = 64 := by rw [SpillRec.len, hk]; rfl
      have hr : (excOfImage (u.words key 64)).ring < (u.th i).ring := by
        rw [excOfImage_words_ring, State.bytes_congr hmem]
        exact hring
      rw [State.spillScratch_reads ecc hw hce, hue, if_neg Bool.false_ne_true, hlen] at hex
      obtain ⟨hm, x, hx⟩ := State.ringCheck_ends hu hlu (Or.inl hk) hr
      refine ⟨_, hex, ?_, ?_, ?_, ?_, ?_, hm.trans hmem⟩ <;> rw [hx]
    · have hw : (u.th i).spillWords p = none := by
        rw [Thread.spillWords]
        cases hkind : p.kind with
        | save k => exact absurd hkind (hsv k)
        | xsave => exact absurd hkind hx
        | _ => rfl
      rw [hex, State.spillScratch_reads ecc hw hce]
  · intro i hs hp hst ho hx hover
    have hex := exec_spillTransferEnd_matrix ecc hs hp hst ho hx hover
    refine ⟨fun he => ?_, fun k he => ?_⟩ <;> rw [he] at hex <;> exact hex
  · intro v th x
    refine ⟨fun hl => State.spillEnd_locked hl r, fun hl => ?_⟩
    refine ⟨fun k hk => State.spillEnd_unlocked hl hk .ok, fun k hk hsel hr => State.spillEnd_signal hl hk hsel hr, fun k hk => ?_,
      fun hk => State.spillEnd_unlocked hl hk .ok, fun hk hr => State.spillEnd_brace hl hk hr,
      fun hk hx => (State.spillEnd_image hl hk).trans (State.takeImage_ring hx), fun hk hx => ?_, fun hk hx => ?_⟩
    · obtain ⟨h0, h1, h2⟩ := restoreBank_block th.normal w k
      refine ⟨restoreBank th.normal k w, State.spillEnd_restore hl hk, h0, h1, h2, ?_⟩
      rintro rfl
      rw [restoreBank_control]
      refine ⟨rfl, by simp, fun n h1 h8 => ?_⟩
      simp only [BitVec.getLsbD_or, BitVec.getLsbD_ofNat, decide_eq_true h8, BitVec.testBit_toNat]
      simp [show n ≠ 0 by omega]
    · rw [State.spillEnd_image hl (Or.inl hk), State.takeImage, if_neg hx, hk]
    · rw [State.spillEnd_image hl (Or.inr hk), State.takeImage, if_neg hx, hk]

end Sys2Proof.Machine
end

section

/-! SUPPORT. The fault that R130 names among those of a word, the moves of the fixed words, and what the commit of a word without
a trigger leaves (O23, O24). -/

namespace Sys2Proof.Machine

/- The fault that is raised ------------------------------------------------------------------------------------- -/

/-- `f` comes before `g` in the order of R130. -/
def Flt.Le (f g : Flt) : Prop := f.prio < g.prio ∨ f.prio = g.prio ∧ f.fr.slot ≤ g.fr.slot

/-- The recorded fault is one of those raised, and comes before every other. -/
theorem worst_least {l : List Flt} (hl : l ≠ []) : ∃ f, worst l = some f ∧ f ∈ l ∧ ∀ g ∈ l, f.Le g := by
  induction l with
  | nil => exact absurd rfl hl
  | cons x l ih =>
    rw [worst]
    rcases eq_or_ne l [] with rfl | hne
    · exact ⟨x, rfl, List.mem_cons_self, fun g hg => by rw [List.mem_singleton.mp hg]; exact .inr ⟨rfl, le_rfl⟩⟩
    · obtain ⟨g, hw, hg, hmin⟩ := ih hne
      rw [hw]
      dsimp only
      by_cases hlt : g.prio < x.prio || (g.prio == x.prio && g.fr.slot < x.fr.slot)
      · rw [if_pos hlt]
        simp only [Bool.or_eq_true, Bool.and_eq_true, decide_eq_true_eq, beq_iff_eq] at hlt
        refine ⟨g, rfl, List.mem_cons_of_mem _ hg, fun y hy => ?_⟩
        rcases List.mem_cons.mp hy with rfl | hy
        · rcases hlt with h | ⟨h₁, h₂⟩
          · exact .inl h
          · exact .inr ⟨h₁, h₂.le⟩
        · exact hmin y hy
      · rw [if_neg hlt]
        simp only [Bool.or_eq_true, Bool.and_eq_true, decide_eq_true_eq, beq_iff_eq] at hlt
        refine ⟨x, rfl, List.mem_cons_self, fun y hy => ?_⟩
        rcases List.mem_cons.mp hy with rfl | hy
        · exact .inr ⟨rfl, le_rfl⟩
        · have hy' := hmin y hy
          unfold Flt.Le at *
          omega

/-- Faults of equal priority and slot are one fault. -/
def Distinct (l : List Flt) : Prop := ∀ f ∈ l, ∀ g ∈ l, f.prio = g.prio → f.fr.slot = g.fr.slot → f = g

/-- Where priority and slot tell the faults apart, the least one is the one recorded. -/
theorem worst_eq_of_least {l : List Flt} (hd : Distinct l) {f : Flt} (hf : f ∈ l) (hmin : ∀ g ∈ l, f.Le g) :
    worst l = some f := by
  obtain ⟨g, hw, hg, hg'⟩ := worst_least (List.ne_nil_of_mem hf)
  have hfg := hmin g hg
  have hgf := hg' f hf
  unfold Flt.Le at hfg hgf
  rw [hw, hd g hg f hf (by omega) (by omega)]

/-- Lists of faults of one slot each, of distinct slots. -/
theorem Distinct.flatMap {α : Type} {l : List α} {slot : α → Nat} {F : α → List Flt} (hnd : (l.map slot).Nodup)
    (hslot : ∀ x ∈ l, ∀ f ∈ F x, f.fr.slot = slot x) (hd : ∀ x ∈ l, Distinct (F x)) : Distinct (l.flatMap F) := by
  intro f hf g hg hp hs
  obtain ⟨x, hx, hfx⟩ := List.mem_flatMap.mp hf
  obtain ⟨y, hy, hgy⟩ := List.mem_flatMap.mp hg
  have hxy : x = y := List.inj_on_of_nodup_map hnd hx hy (by rw [← hslot x hx f hfx, ← hslot y hy g hgy, hs])
  subst hxy
  exact hd x hx f hfx g hgy hp hs

theorem Distinct.toList (o : Option Flt) : Distinct o.toList := by
  intro f hf g hg _ _
  rw [Option.mem_toList] at hf hg
  exact Option.some.inj (hf.symm.trans hg)

/- The faults of a move have its slot --------------------------------------------------------------------------- -/

section
variable {s : State} {i : Nat} {b : Bank} {f : Flt}

theorem State.srcFault_slot {m : Move} (h : s.srcFault i b m = some f) : f.fr.slot = m.slot := by
  unfold State.srcFault at h
  split at h
  · cases h
  · split at h
    · cases h; rfl
    · split at h
      · cases h; rfl
      · split at h
        · cases h; rfl
        · cases h
    · obtain ⟨e, -, rfl⟩ := Option.map_eq_some_iff.mp h
      rfl
    · cases h

theorem State.dstFault_slot {before : List Move} {m : Move} (h : s.dstFault i before m = some f) : f.fr.slot = m.slot := by
  unfold State.dstFault at h
  dsimp only at h
  split at h
  · cases h; rfl
  · split at h
    · split at h
      · cases h; rfl
      · cases h
    · split at h
      · cases h
      · cases h; rfl
    · cases h

/-- Faults of one slot, of which no two have the same priority. -/
def OfSlot (slot : Nat) (l : List Flt) : Prop := (∀ f ∈ l, f.fr.slot = slot) ∧ (l.map Flt.prio).Nodup

theorem OfSlot.distinct {slot : Nat} {l : List Flt} (h : OfSlot slot l) : Distinct l :=
  fun _ hf _ hg hp _ => List.inj_on_of_nodup_map h.2 hf hg hp

theorem OfSlot.nil (slot : Nat) : OfSlot slot [] := ⟨nofun, List.nodup_nil⟩

theorem OfSlot.single (p : Nat) (c : BitVec 8) (x : W64) (slot : Nat) : OfSlot slot [flt p c x slot] :=
  ⟨fun f hf => by rw [List.mem_singleton.mp hf]; rfl, List.nodup_singleton _⟩

theorem OfSlot.ite {slot : Nat} {l l' : List Flt} (c : Prop) [Decidable c] (h : OfSlot slot l) (h' : OfSlot slot l') :
    OfSlot slot (if c then l else l') := by
  split
  · exact h
  · exact h'

/-- Faults of other priorities may stand in front. -/
theorem OfSlot.append {slot : Nat} {l l' : List Flt} (h : OfSlot slot l) (h' : OfSlot slot l')
    (hp : ∀ f ∈ l, ∀ g ∈ l', f.prio ≠ g.prio) : OfSlot slot (l ++ l') := by
  refine ⟨fun f hf => (List.mem_append.mp hf).elim (h.1 f) (h'.1 f), ?_⟩
  rw [List.map_append, List.nodup_append]
  refine ⟨h.2, h'.2, fun a ha b hb => ?_⟩
  obtain ⟨f, hf, rfl⟩ := List.mem_map.mp ha
  obtain ⟨g, hg, rfl⟩ := List.mem_map.mp hb
  exact hp f hf g hg

theorem mem_dsFlt_prio {t : Thread} {port slot : Nat} (h : f ∈ dsFlt t port slot) : f.prio = 2 := by
  unfold dsFlt at h
  split at h
  · rw [List.mem_singleton.mp h]; rfl
  · cases h

theorem mem_xspFlt_prio {fails slot : Nat} (h : f ∈ xspFlt fails slot) : f.prio = 11 := by
  unfold xspFlt at h
  split at h
  · cases h
  · rw [List.mem_singleton.mp h]; rfl

theorem mem_overflowFlt_prio {t : Thread} {slot : Nat} (h : f ∈ overflowFlt t slot) : f.prio = 6 := by
  unfold overflowFlt at h
  split at h
  · rw [List.mem_singleton.mp h]; rfl
  · cases h

theorem ofSlot_dsFlt (t : Thread) (port slot : Nat) : OfSlot slot (dsFlt t port slot) := (OfSlot.single ..).ite _ (.nil _)

theorem ofSlot_overflowFlt (t : Thread) (slot : Nat) : OfSlot slot (overflowFlt t slot) := (OfSlot.single ..).ite _ (.nil _)

theorem ofSlot_xspFlt (fails slot : Nat) : OfSlot slot (xspFlt fails slot) := (OfSlot.nil _).ite _ (.single ..)

theorem mem_ite_single {c : Prop} [Decidable c] {x : Flt} (h : f ∈ if c then [] else [x]) : f = x := by
  split at h
  · cases h
  · exact List.mem_singleton.mp h

theorem ofSlot_accessFault (sum : W64) (n : Nat) (ring : Ring) (slot : Nat) : OfSlot slot (accessFault sum n ring slot) := by
  unfold accessFault
  refine (OfSlot.single ..).ite _ (OfSlot.append ((OfSlot.single ..).ite _ (.nil _)) ((OfSlot.single ..).ite _ (.nil _)) ?_)
  intro f hf g hg
  rw [List.mem_ite_nil_right] at hf hg
  rw [List.mem_singleton.mp hf.2, List.mem_singleton.mp hg.2]
  exact show (8 : Nat) ≠ 9 by decide

/-- The faults of a trigger have its slot, and no two of them the same priority (R130). -/
theorem State.ofSlot_trigFaults (t : Trig) (v : W64) (port slot : Nat) : OfSlot slot (s.trigFaults i b t v port slot) := by
  have hoff : ∀ (c : Prop) [Decidable c] (fails : Nat), OfSlot slot
      ((if c then [] else [flt 12 0x1A (BitVec.ofNat 64 (v.toNat % 2 ^ 20)) slot]) ++ xspFlt fails slot) := by
    intro c _ fails
    refine ((OfSlot.nil _).ite _ (.single ..)).append (ofSlot_xspFlt _ _) fun f hf g hg => ?_
    rw [mem_ite_single hf, mem_xspFlt_prio hg]
    exact show (12 : Nat) ≠ 11 by decide
  unfold State.trigFaults
  dsimp only
  split
  case h_1 => exact (OfSlot.single ..).ite _ (.nil _)
  case h_2 => exact ofSlot_accessFault ..
  case h_3 => exact ofSlot_accessFault ..
  case h_4 => exact ofSlot_overflowFlt ..
  case h_5 =>
    refine OfSlot.append (OfSlot.append (ofSlot_dsFlt ..) (ofSlot_overflowFlt ..) fun f hf g hg => ?_)
      ((OfSlot.nil _).ite _ (.single ..)) fun f hf g hg => ?_
    · rw [mem_dsFlt_prio hf, mem_overflowFlt_prio hg]; decide
    · rw [mem_ite_single hg]
      rcases List.mem_append.mp hf with hf | hf
      · rw [mem_dsFlt_prio hf]; exact show (2 : Nat) ≠ 3 by decide
      · rw [mem_overflowFlt_prio hf]; exact show (6 : Nat) ≠ 3 by decide
  case h_6 =>
    refine (ofSlot_dsFlt ..).append ?_ fun f hf g hg => ?_
    · split
      · exact .single ..
      · exact (OfSlot.single ..).ite _ (.nil _)
    · rw [mem_dsFlt_prio hf]
      split at hg
      · rw [List.mem_singleton.mp hg]; exact show (2 : Nat) ≠ 5 by decide
      · rw [List.mem_ite_nil_right] at hg
        rw [List.mem_singleton.mp hg.2]; exact show (2 : Nat) ≠ 4 by decide
  case h_7 =>
    refine (ofSlot_dsFlt ..).append ?_ fun f hf g hg => ?_
    · split
      · exact .nil _
      · exact .single ..
      · exact (OfSlot.single ..).ite _ ((OfSlot.single ..).ite _ ((ofSlot_xspFlt ..).ite _ (.nil _)))
    · rw [mem_dsFlt_prio hf]
      split at hg
      · cases hg
      · rw [List.mem_singleton.mp hg]; exact show (2 : Nat) ≠ 1 by decide
      · split at hg
        · rw [List.mem_singleton.mp hg]; exact show (2 : Nat) ≠ 4 by decide
        · split at hg
          · rw [List.mem_singleton.mp hg]; exact show (2 : Nat) ≠ 4 by decide
          · rw [List.mem_ite_nil_right] at hg
            rw [mem_xspFlt_prio hg.2]; decide
  case h_8 => exact (OfSlot.nil _).ite _ (.single ..)
  case h_9 => exact (OfSlot.nil _).ite _ (.single ..)
  case h_10 => exact (OfSlot.nil _).ite _ (.single ..)
  case h_11 => exact (OfSlot.single ..).ite _ (.nil _)
  case h_12 => exact (OfSlot.single ..).ite _ (.nil _)
  case h_13 => exact (OfSlot.single ..).ite _ (.nil _)
  case h_14 => exact hoff ..
  case h_15 => exact hoff ..
  case h_16 => exact .nil _

end

/- The faults of a word ------------------------------------------------------------------------------------------- -/

/-- The executing moves stand in slot order. -/
theorem movesOf_nodup (iw : W128) (g : BitVec 8) : ((movesOf iw g).map Move.slot).Nodup := by
  refine (List.filter_sublist.map _).nodup ?_
  rw [List.map_map]
  exact (List.map_id' _).symm ▸ List.nodup_range

theorem mem_movesOf {iw : W128} {g : BitVec 8} {m : Move} : m ∈ movesOf iw g ↔
    ∃ k, k < (if iwLimm iw then 3 else 4) ∧ m = moveAt iw k ∧ (m.inv = false ↔ m.g = 0 ∨ g.getLsbD m.g = true) := by
  have hguard : ∀ k, (guardOf g (moveAt iw k).g ^^ (moveAt iw k).inv) = true ↔
      ((moveAt iw k).inv = false ↔ (moveAt iw k).g = 0 ∨ g.getLsbD (moveAt iw k).g = true) := by
    intro k
    have hg : (moveAt iw k).g % 8 = (moveAt iw k).g := Nat.mod_eq_of_lt (Nat.mod_lt _ (by decide))
    unfold guardOf
    rw [hg]
    cases (moveAt iw k).inv <;> simp
  simp only [movesOf, List.mem_filter, List.mem_map, List.mem_range]
  constructor
  · rintro ⟨⟨k, hk, rfl⟩, hg⟩
    exact ⟨k, hk, rfl, (hguard k).mp hg⟩
  · rintro ⟨k, hk, rfl, hg⟩
    exact ⟨⟨k, hk, rfl⟩, (hguard k).mpr hg⟩

section
variable (s : State) (i : Nat) (b : Bank) {ms : List Move} (hms : (ms.map Move.slot).Nodup)
include hms

theorem State.distinct_srcFaults : Distinct (ms.filterMap fun m => s.srcFault i b m) := by
  rw [List.filterMap_eq_flatMap_toList]
  refine Distinct.flatMap hms (fun m _ f hf => ?_) fun m _ => .toList _
  exact State.srcFault_slot (Option.mem_toList.mp hf)

theorem State.distinct_dstFaults (before : List Move) :
    (∀ f ∈ s.dstFaults i before ms, f.fr.slot ∈ ms.map Move.slot) ∧ Distinct (s.dstFaults i before ms) := by
  induction ms generalizing before with
  | nil => exact ⟨nofun, nofun⟩
  | cons m l ih =>
    rw [List.map_cons, List.nodup_cons] at hms
    obtain ⟨hin, hd⟩ := ih hms.2 (before ++ [m])
    have hm : ∀ f ∈ (s.dstFault i before m).toList, f.fr.slot = m.slot := fun f hf =>
      State.dstFault_slot (Option.mem_toList.mp hf)
    rw [State.dstFaults, List.map_cons]
    refine ⟨fun f hf => ?_, fun f hf g hg hp hs => ?_⟩
    · rcases List.mem_append.mp hf with hf | hf
      · exact List.mem_cons.mpr (.inl (hm f hf))
      · exact List.mem_cons_of_mem _ (hin f hf)
    · rcases List.mem_append.mp hf with hf | hf <;> rcases List.mem_append.mp hg with hg | hg
      · exact Distinct.toList _ f hf g hg hp hs
      · exact absurd (by rw [← hm f hf, hs]; exact hin g hg) hms.1
      · exact absurd (by rw [← hm g hg, ← hs]; exact hin f hf) hms.1
      · exact hd f hf g hg hp hs

/-- The triggers of a word stand in distinct slots. -/
theorem trigsOf_nodup (val : Move → W64) :
    ((trigsOf (ms.map fun m => (m, val m))).map fun q => q.2.2.slot).Nodup := by
  unfold trigsOf
  dsimp only
  refine ((List.filter_append_perm _ _).map _).nodup_iff.mpr ?_
  rw [List.map_filterMap, List.filterMap_map]
  refine List.Sublist.nodup ?_ hms
  clear hms
  induction ms with
  | nil => exact .slnil
  | cons m l ih =>
    rw [List.filterMap_cons, List.map_cons]
    dsimp only [Function.comp]
    split
    · exact ih.cons _
    · next x hx =>
      split at hx
      · cases hx
        exact ih.cons_cons _
      · cases hx

theorem State.distinct_trigFaults (val : Move → W64) :
    Distinct ((trigsOf (ms.map fun m => (m, val m))).flatMap fun q =>
      s.trigFaults i b q.1 q.2.1 q.2.2.d q.2.2.slot) :=
  Distinct.flatMap (trigsOf_nodup hms val) (fun q _ => (State.ofSlot_trigFaults q.1 _ _ _).1) fun q _ =>
    (State.ofSlot_trigFaults q.1 _ _ _).distinct

end

/- The writes of a word to its bank -------------------------------------------------------------------------------- -/

/-- What one move writes to the bank. -/
def writeLatch (b : Bank) (p : Move × W64) : Bank :=
  match dstPort p.1.d with
  | .latch n => { b with latch := b.latch.set n p.2 }
  | .w n => { b with w := b.w.set n p.2 }
  | .carry u => if u = 0 then { b with c0 := p.2.getLsbD 0 } else { b with c1 := p.2.getLsbD 0 }
  | _ => b

theorem writeLatches_eq_foldl (b : Bank) (mv : List (Move × W64)) : writeLatches b mv = mv.foldl writeLatch b := by
  induction mv generalizing b with
  | nil => rfl
  | cons p l ih => exact ih _

/-- What one move writes to the guards; `a` is the first operand of a compare, `old` the guards before the word. -/
def writeGuard (a : W64) (old g : BitVec 8) (p : Move × W64) : BitVec 8 :=
  match dstPort p.1.d with
  | .b n => setGuard g n.val (p.2.getLsbD 0)
  | .bmask => BitVec.ofNat 8 p.2.toNat ||| 1
  | .trig (.cmp op n) => setGuard g n.val (cmpFn op a p.2)
  | .trig .glogic => glogicFn old g p.2
  | _ => g

theorem writeGuards_eq_foldl (a : W64) (old g : BitVec 8) (mv : List (Move × W64)) :
    writeGuards a old g mv = mv.foldl (writeGuard a old) g := by
  induction mv generalizing g with
  | nil => rfl
  | cons p l ih => exact ih _

/-- What no element of a list changes, the list does not change. -/
theorem foldl_keeps {α β γ : Type} (f : α → γ) {step : α → β → α} {l : List β}
    (h : ∀ p ∈ l, ∀ x, f (step x p) = f x) (x : α) : f (l.foldl step x) = f x := by
  induction l generalizing x with
  | nil => rfl
  | cons p l ih =>
    rw [List.foldl_cons, ih fun q hq => h q (List.mem_cons_of_mem _ hq), h p List.mem_cons_self]

/-- What one element of a list sets and no later one changes. -/
theorem foldl_sets {α β γ : Type} (f : α → γ) {step : α → β → α} {pre post : List β} {p : β} {v : γ}
    (hp : ∀ x, f (step x p) = v) (h : ∀ q ∈ post, ∀ x, f (step x q) = f x) (x : α) :
    f ((pre ++ p :: post).foldl step x) = v := by
  rw [List.foldl_append, List.foldl_cons, foldl_keeps f h, hp]

section
variable (b : Bank) (p : Move × W64)

theorem writeLatch_latch_ne {n : Fin 22} (h : dstPort p.1.d ≠ .latch n) : (writeLatch b p).latch[n] = b.latch[n] := by
  unfold writeLatch
  split
  next k hk =>
    have hkn : k ≠ n := fun e => h (e ▸ hk)
    exact Vector.getElem_set_ne k.isLt n.isLt fun e => hkn (Fin.ext e)
  · rfl
  · split <;> rfl
  · rfl

theorem writeLatch_w_ne {n : Fin 32} (h : dstPort p.1.d ≠ .w n) : (writeLatch b p).w[n] = b.w[n] := by
  unfold writeLatch
  split
  · rfl
  next k hk =>
    have hkn : k ≠ n := fun e => h (e ▸ hk)
    exact Vector.getElem_set_ne k.isLt n.isLt fun e => hkn (Fin.ext e)
  · split <;> rfl
  · rfl

theorem writeLatch_c0_ne (h : dstPort p.1.d ≠ .carry 0) : (writeLatch b p).c0 = b.c0 := by
  unfold writeLatch
  split
  · rfl
  · rfl
  next u hu =>
    rw [if_neg fun e : u = 0 => h (hu.trans (congrArg Dst.carry e))]
  · rfl

theorem writeLatch_c1_ne (h : dstPort p.1.d ≠ .carry 1) : (writeLatch b p).c1 = b.c1 := by
  unfold writeLatch
  split
  · rfl
  · rfl
  next u hu =>
    have hu0 : u = 0 := by
      have : u ≠ 1 := fun e => h (hu.trans (congrArg Dst.carry e))
      omega
    rw [if_pos hu0]
  · rfl

/-- A move changes no other part of the bank. -/
theorem writeLatch_frame : writeLatch b p =
    { b with latch := (writeLatch b p).latch, w := (writeLatch b p).w, c0 := (writeLatch b p).c0, c1 := (writeLatch b p).c1 } := by
  unfold writeLatch
  split
  · rfl
  · rfl
  · split <;> rfl
  · rfl

theorem writeGuard_ne {a : W64} {old g : BitVec 8} {n : Fin 8} (hplain : ∀ t, dstPort p.1.d ≠ .trig t)
    (h : dstPort p.1.d ≠ .b n) (hm : dstPort p.1.d ≠ .bmask) : (writeGuard a old g p).getLsbD n.val = g.getLsbD n.val := by
  unfold writeGuard
  split
  next k hk =>
    have hkn : k ≠ n := fun e => h (e ▸ hk)
    rw [getLsbD_setGuard _ _ _ n.isLt, if_neg]
    rw [Nat.mod_eq_of_lt k.isLt]
    exact fun e => hkn (Fin.ext e.1.symm)
  next hk => exact absurd hk hm
  next hk => exact absurd hk (hplain _)
  next hk => exact absurd hk (hplain _)
  next => rfl

end

/-- A word changes no other part of its bank. -/
theorem commitBank_frame (b : Bank) (mv : List (Move × W64)) :
    ∃ w g c0 c1 latch, commitBank b mv = { b with w := w, b := g, c0 := c0, c1 := c1, latch := latch } := by
  have hrest : ∃ w c0 c1 latch, mv.foldl writeLatch b = { b with w := w, c0 := c0, c1 := c1, latch := latch } := by
    induction mv generalizing b with
    | nil => exact ⟨_, _, _, _, rfl⟩
    | cons p l ih =>
      obtain ⟨w, c0, c1, latch, h⟩ := ih (writeLatch b p)
      rw [List.foldl_cons, h, writeLatch_frame]
      exact ⟨_, _, _, _, rfl⟩
  obtain ⟨w, c0, c1, latch, h⟩ := hrest
  unfold commitBank
  rw [writeLatches_eq_foldl, h]
  exact ⟨_, _, _, _, _, rfl⟩

section
variable (b : Bank) (mv : List (Move × W64))

theorem commitBank_latch : (commitBank b mv).latch = (mv.foldl writeLatch b).latch := by
  rw [← writeLatches_eq_foldl]; rfl

theorem commitBank_w : (commitBank b mv).w = (mv.foldl writeLatch b).w := by rw [← writeLatches_eq_foldl]; rfl

theorem commitBank_c0 : (commitBank b mv).c0 = (mv.foldl writeLatch b).c0 := by rw [← writeLatches_eq_foldl]; rfl

theorem commitBank_c1 : (commitBank b mv).c1 = (mv.foldl writeLatch b).c1 := by rw [← writeLatches_eq_foldl]; rfl

theorem commitBank_b : ∃ a, (commitBank b mv).b = mv.foldl (writeGuard a b.b) b.b := by
  have hb : (writeLatches b mv).b = b.b := by
    rw [writeLatches_eq_foldl]
    exact foldl_keeps Bank.b (fun p _ x => by rw [writeLatch_frame]) b
  refine ⟨(writeLatches b mv).latch[13], ?_⟩
  rw [← writeGuards_eq_foldl]
  unfold commitBank
  dsimp only
  rw [hb]

end

/- Sends and takes ------------------------------------------------------------------------------------------------- -/

/-- A send fills its buffer. -/
def State.sendOne (s : State) (p : Move × W64) : State :=
  match dstPort p.1.d with
  | .send c => s.setChan c { s.chan c with send := some p.2 }
  | _ => s

theorem State.sends_eq_foldl (s : State) (mv : List (Move × W64)) : s.sends mv = mv.foldl State.sendOne s := by
  induction mv generalizing s with
  | nil => rfl
  | cons p l ih =>
    have hcons : s.sends (p :: l) = (s.sendOne p).sends l := by
      cases hd : dstPort p.1.d <;> simp only [State.sends, State.sendOne, hd]
    rw [List.foldl_cons, ← ih, hcons]

/-- Only the channels differ. -/
def ChanFrame (s t : State) : Prop := t = { s with chans := t.chans }

theorem ChanFrame.trans {s t u : State} (h₁ : ChanFrame s t) (h₂ : ChanFrame t u) : ChanFrame s u := by
  unfold ChanFrame at *
  rw [h₂, h₁]

theorem State.sends_chanFrame (s : State) (mv : List (Move × W64)) : ChanFrame s (s.sends mv) := by
  induction mv generalizing s with
  | nil => rfl
  | cons p l ih =>
    rw [State.sends]
    split
    next c _ => exact ChanFrame.trans (t := s.setChan c _) rfl (ih _)
    next => exact ih s

theorem State.empties_chanFrame (s : State) (l : List Nat) : ChanFrame s (s.empties l) := by
  induction l generalizing s with
  | nil => rfl
  | cons c l ih => exact ChanFrame.trans (t := s.setChan c _) rfl (ih _)

theorem State.chan_setChan_ne {s : State} {c d : Nat} (h : d ≠ c) (v : Chan) : (s.setChan c v).chan d = s.chan d :=
  spGet_spSet_ne _ _ h

theorem State.Inv.setChan {s : State} (h : s.Inv) (c : Nat) (v : Chan) : (s.setChan c v).Inv :=
  (State.setChan_keeps (.refl s) c v).inv h

theorem State.sendOne_chan_ne (s : State) {p : Move × W64} {c : Nat} (hp : dstPort p.1.d ≠ .send c) : (s.sendOne p).chan c = s.chan c := by
  unfold State.sendOne
  split
  next d hd => exact State.chan_setChan_ne (fun e : c = d => hp (hd.trans (congrArg Dst.send e.symm))) _
  next => rfl

section
variable {s : State} (h : s.Inv)
include h

/-- A word taken empties its receive buffer, and no send buffer. -/
theorem State.chan_empties (l : List Nat) (c : Nat) :
    (s.empties l).chan c = if c ∈ l then { s.chan c with rx := none } else s.chan c := by
  induction l generalizing s with
  | nil => rfl
  | cons d l ih =>
    rw [State.empties, ih (h.setChan d _)]
    rcases eq_or_ne c d with rfl | hcd
    · rw [State.chan_setChan_self h, if_pos List.mem_cons_self]
      split <;> rfl
    · rw [State.chan_setChan_ne hcd]
      simp only [List.mem_cons, hcd, false_or]

theorem State.Inv.sendOne (p : Move × W64) : (s.sendOne p).Inv := by
  unfold State.sendOne
  split
  · exact h.setChan _ _
  · exact h

theorem State.sendOne_chan_rx (p : Move × W64) (c : Nat) : ((s.sendOne p).chan c).rx = (s.chan c).rx := by
  unfold State.sendOne
  split
  next d hd =>
    rcases eq_or_ne c d with rfl | hcd
    · rw [State.chan_setChan_self h]
    · rw [State.chan_setChan_ne hcd]
  next => rfl

theorem State.chan_sends_rx (mv : List (Move × W64)) (c : Nat) : ((s.sends mv).chan c).rx = (s.chan c).rx := by
  rw [State.sends_eq_foldl]
  induction mv generalizing s with
  | nil => rfl
  | cons p l ih => rw [List.foldl_cons, ih (h.sendOne p), State.sendOne_chan_rx h]

theorem State.chan_sends_ne (mv : List (Move × W64)) (c : Nat) (hc : ∀ p ∈ mv, dstPort p.1.d ≠ .send c) :
    (s.sends mv).chan c = s.chan c := by
  rw [State.sends_eq_foldl]
  induction mv generalizing s with
  | nil => rfl
  | cons p l ih =>
    rw [List.foldl_cons, ih (h.sendOne p) fun q hq => hc q (List.mem_cons_of_mem _ hq),
      State.sendOne_chan_ne s (hc p List.mem_cons_self)]

/-- Of the sends to one channel the last fills the buffer (R156). -/
theorem State.chan_sends_last (pre post : List (Move × W64)) (m : Move) (v : W64) (c : Nat) (hm : dstPort m.d = .send c)
    (hpost : ∀ q ∈ post, dstPort q.1.d ≠ .send c) : ((s.sends (pre ++ (m, v) :: post)).chan c).send = some v := by
  have hpre : (s.sends pre).Inv := by
    rw [State.sends_eq_foldl]
    clear hpost
    induction pre generalizing s with
    | nil => exact h
    | cons p l ih => exact ih (h.sendOne p)
  have hstep : (s.sends (pre ++ (m, v) :: post)) = ((s.sends pre).sendOne (m, v)).sends post := by
    simp only [State.sends_eq_foldl, List.foldl_append, List.foldl_cons]
  rw [hstep, State.chan_sends_ne (hpre.sendOne _) post c hpost, State.sendOne]
  rw [hm]
  dsimp only
  rw [State.chan_setChan_self hpre]

end

/- Sequencing without a transfer ------------------------------------------------------------------------------------- -/

/-- `v` is `u` with slot `i` at another instruction and with loop levels `l0` and `l1`. -/
def Moved (u v : State) (i : Nat) (l0 l1 : LoopSt) (pc npc : Pc) (ds : Bool) : Prop :=
  v.th i = { (u.th i).withBank (u.th i).sel { u.cur i with loop0 := l0, loop1 := l1 } with pc := pc, npc := npc, ds := ds } ∧
  v.bankOf i (u.th i).sel = { u.cur i with loop0 := l0, loop1 := l1 } ∧
  (∃ ths engs regs, v = { u with ths := ths, engs := engs, regs := regs }) ∧
  (∀ j, j ≠ i → v.th j = u.th j) ∧ (∀ e, (v.eng e).instr = (u.eng e).instr) ∧ v.Inv

theorem State.withBank_cur (u : State) (i : Nat) : (u.th i).withBank (u.th i).sel (u.cur i) = u.th i := by
  unfold State.cur
  generalize (u.th i).sel = sel
  cases sel <;> rfl

section
variable {u : State} (h : u.Inv) (i : Nat)
include h

theorem Moved.step (pc npc : Pc) (ds : Bool) :
    Moved u (u.modTh i fun t => { t with pc := pc, npc := npc, ds := ds }) i (u.cur i).loop0 (u.cur i).loop1 pc npc ds := by
  refine ⟨?_, State.bankOf_modTh h i rfl rfl _, ⟨_, _, _, rfl⟩, fun j hj => State.th_setTh_ne hj, fun _ => rfl, h.modTh i _⟩
  rw [State.th_modTh_self h, show { u.cur i with loop0 := (u.cur i).loop0, loop1 := (u.cur i).loop1 } = u.cur i from rfl,
    State.withBank_cur]

theorem State.eng_putBank_instr (sel : BankSel) (b : Bank) (e : Nat) : ((u.putBank i sel b).eng e).instr = (u.eng e).instr := by
  cases sel with
  | normal => rfl
  | shadow => rfl
  | brace =>
    rcases eq_or_ne e (engOf i) with rfl | he
    · have hself := State.eng_setEng_self h (engOf i) { u.eng (engOf i) with brace := b }
      have hinstr := congrArg EngSt.instr hself
      exact hinstr
    · exact congrArg EngSt.instr (spGet_spSet_ne _ _ he)

/-- A step of a loop level. -/
theorem Moved.loop (l0 l1 : LoopSt) (pc npc : Pc) (ds : Bool) :
    Moved u ((u.putBank i (u.th i).sel { u.cur i with loop0 := l0, loop1 := l1 }).modTh i fun t =>
      { t with pc := pc, npc := npc, ds := ds }) i l0 l1 pc npc ds := by
  have hput := h.putBank i (u.th i).sel { u.cur i with loop0 := l0, loop1 := l1 }
  refine ⟨?_, ?_, ?_, fun j hj => ?_, fun e => ?_, hput.modTh i _⟩
  · rw [State.th_modTh_self hput, State.th_putBank h]
  · exact (State.bankOf_modTh hput i rfl rfl _).trans ((State.bankOf_putBank h i _ _ _).trans (if_pos rfl))
  · generalize (u.th i).sel = sel
    cases sel <;> exact ⟨_, _, _, rfl⟩
  · exact (State.th_setTh_ne hj).trans (State.th_putBank_ne _ _ _ _ hj)
  · exact State.eng_putBank_instr h i _ _ e

/-- The end of a loop level. -/
theorem Moved.loopEnd (l0 l1 : LoopSt) :
    Moved u ((u.putBank i (u.th i).sel { u.cur i with loop0 := l0, loop1 := l1 }).modTh i fun t =>
      { t with pc := t.npc, npc := t.npc + 1, ds := false }) i l0 l1 (u.th i).npc ((u.th i).npc + 1) false := by
  have hloop := Moved.loop h i l0 l1 (u.th i).npc ((u.th i).npc + 1) false
  have hth := State.th_putBank h i (u.th i).sel { u.cur i with loop0 := l0, loop1 := l1 }
  have heq : ∀ x : State, x.th i = (u.th i).withBank (u.th i).sel { u.cur i with loop0 := l0, loop1 := l1 } →
      (x.modTh i fun t => { t with pc := t.npc, npc := t.npc + 1, ds := false }) =
      x.modTh i fun t => { t with pc := (u.th i).npc, npc := (u.th i).npc + 1, ds := false } := by
    intro x hx
    exact State.modTh_congr (by rw [hx, Thread.withBank_npc])
  rw [heq _ hth]
  exact hloop

end

/-- A sticky bit set besides. -/
theorem Moved.setB {u v : State} {i : Nat} {l0 l1 : LoopSt} {pc npc : Pc} {ds : Bool} (h : Moved u v i l0 l1 pc npc ds)
    (a k : Nat) : Moved u (v.setB a k) i l0 l1 pc npc ds := by
  obtain ⟨hth, hbank, ⟨ths, engs, regs, hv⟩, hne, hinstr, hinv⟩ := h
  exact ⟨hth, hbank, ⟨ths, engs, (v.setB a k).regs, by rw [hv]; rfl⟩, hne, hinstr, hinv.setB _ _⟩

section
variable {u : State} (h : u.Inv) (i : Nat)
include h

/-- Without LOOPEND, in a delay slot, or with no loop active, PC goes on to NPC (R46, R47). -/
theorem State.advance_onward (le : Bool)
    (hle : le = false ∨ (u.th i).ds = true ∨ (u.cur i).loop1.active = false ∧ (u.cur i).loop0.active = false) :
    let v := u.advance i le none
    Moved u v i (u.cur i).loop0 (u.cur i).loop1 (u.th i).npc ((u.th i).npc + 1) false ∧
      (le = false → v.regs = u.regs) ∧ (le = true → v.bit (aEng (engOf i) 0x24) 1 = true) := by
  have hadv : u.advance i le none = if le then (u.modTh i fun t => { t with pc := t.npc, npc := t.npc + 1, ds := false }).setB
      (aEng (engOf i) 0x24) 1 else u.modTh i fun t => { t with pc := t.npc, npc := t.npc + 1, ds := false } := by
    unfold State.advance
    dsimp only
    rcases hle with rfl | hds | ⟨h1, h0⟩
    · rfl
    · rw [hds, Bool.not_true, Bool.and_false]
    · rw [h1, h0]
      cases le && !(u.th i).ds <;> rfl
  have hstep := Moved.step h i (u.th i).npc ((u.th i).npc + 1) false
  intro v
  have hv : v = _ := hadv
  rw [hv]
  cases le with
  | false => exact ⟨hstep, fun _ => rfl, nofun⟩
  | true => exact ⟨hstep.setB _ _, nofun, fun _ => State.bit_setB_self hstep.2.2.2.2.2.regs _ (by decide)⟩

/-- LOOPEND of an active level: back to its start while the count is not 0, else the level ends (R47). -/
theorem State.advance_loop1 (hds : (u.th i).ds = false) (h1 : (u.cur i).loop1.active = true) :
    let v := u.advance i true none
    let l := (u.cur i).loop1
    v.regs = u.regs ∧
    (l.count ≠ 0 → Moved u v i (u.cur i).loop0 { l with count := l.count - 1 } l.start (l.start + 1) false) ∧
    (l.count = 0 → Moved u v i (u.cur i).loop0 { l with active := false } (u.th i).npc ((u.th i).npc + 1) false) := by
  have hadv : u.advance i true none = if (u.cur i).loop1.count ≠ 0 then
      (u.putBank i (u.th i).sel { u.cur i with
        loop1 := { (u.cur i).loop1 with count := (u.cur i).loop1.count - 1 } }).modTh i fun t =>
          { t with pc := (u.cur i).loop1.start, npc := (u.cur i).loop1.start + 1, ds := false }
      else (u.putBank i (u.th i).sel { u.cur i with loop1 := { (u.cur i).loop1 with active := false } }).modTh i fun t =>
          { t with pc := t.npc, npc := t.npc + 1, ds := false } := by
    unfold State.advance
    dsimp only
    simp only [hds, h1, Bool.not_false, Bool.and_self, if_true]
  intro v l
  have hv : v = _ := hadv
  rw [hv]
  have hregs : ∀ b f, ((u.putBank i (u.th i).sel b).modTh i f).regs = u.regs := fun b _ => State.putBank_regs u i _ b
  refine ⟨?_, fun hc => ?_, fun hc => ?_⟩
  · split <;> exact hregs _ _
  · rw [if_pos hc]
    exact Moved.loop h i _ _ _ _ _
  · rw [if_neg (not_not.mpr hc)]
    exact Moved.loopEnd h i _ _

/-- The same of level 0, which comes after level 1. -/
theorem State.advance_loop0 (hds : (u.th i).ds = false) (h1 : (u.cur i).loop1.active = false) (h0 : (u.cur i).loop0.active = true) :
    let v := u.advance i true none
    let l := (u.cur i).loop0
    v.regs = u.regs ∧
    (l.count ≠ 0 → Moved u v i { l with count := l.count - 1 } (u.cur i).loop1 l.start (l.start + 1) false) ∧
    (l.count = 0 → Moved u v i { l with active := false } (u.cur i).loop1 (u.th i).npc ((u.th i).npc + 1) false) := by
  have hadv : u.advance i true none = if (u.cur i).loop0.count ≠ 0 then
      (u.putBank i (u.th i).sel { u.cur i with
        loop0 := { (u.cur i).loop0 with count := (u.cur i).loop0.count - 1 } }).modTh i fun t =>
          { t with pc := (u.cur i).loop0.start, npc := (u.cur i).loop0.start + 1, ds := false }
      else (u.putBank i (u.th i).sel { u.cur i with loop0 := { (u.cur i).loop0 with active := false } }).modTh i fun t =>
          { t with pc := t.npc, npc := t.npc + 1, ds := false } := by
    unfold State.advance
    dsimp only
    simp only [hds, h1, h0, Bool.false_eq_true, if_false, Bool.not_false, Bool.and_self, if_true]
  intro v l
  have hv : v = _ := hadv
  rw [hv]
  have hregs : ∀ b f, ((u.putBank i (u.th i).sel b).modTh i f).regs = u.regs := fun b _ => State.putBank_regs u i _ b
  refine ⟨?_, fun hc => ?_, fun hc => ?_⟩
  · split <;> exact hregs _ _
  · rw [if_pos hc]
    exact Moved.loop h i _ _ _ _ _
  · rw [if_neg (not_not.mpr hc)]
    exact Moved.loopEnd h i _ _

end

/- The commit of a word ------------------------------------------------------------------------------------------- -/

/-- The state in which a committed word's operations start: its bank is written, its sends filled, its takes emptied. -/
def State.moved (s : State) (i : Nat) (b : Bank) (mv : List (Move × W64)) : State :=
  ((s.putBank i (s.th i).sel (commitBank b mv)).sends mv).empties (s.taken i (mv.map (·.1)))

/-- The instruction counted. -/
def State.counted (s : State) (i : Nat) : State :=
  (s.setEng (engOf i) { s.eng (engOf i) with instr := (s.eng (engOf i)).instr + 1, last := slotOf i }).modTh i fun t =>
    { t with lastRun := s.eclk }

theorem State.commit_eq (s : State) (i : Nat) (b : Bank) (iw : W128) {mv : List (Move × W64)}
    (hloop : (trigsOf mv).find? (fun q => q.1.isLoop) = none) : s.commit i b iw mv =
      (((trigsOf mv).foldl (fun s q => s.trigRun i (commitBank b mv) q.1 q.2.1) (s.moved i b mv)).sequence i (iwLoopend iw)
        (((trigsOf mv).find? fun q => q.1.isXfer).map fun q => (q.1, q.2.1))).counted i := by
  unfold State.commit
  dsimp only
  rw [hloop]
  rfl

section
variable {s : State} (h : s.Inv) (i : Nat) (b : Bank) (mv : List (Move × W64))
include h

theorem State.Inv.moved : (s.moved i b mv).Inv :=
  (State.empties_keeps (State.sends_keeps (State.putBank_keeps (.refl s) _ _ _) _) _).inv h

omit h in
theorem State.moved_chanFrame : ChanFrame (s.putBank i (s.th i).sel (commitBank b mv)) (s.moved i b mv) :=
  (State.sends_chanFrame _ _).trans (State.empties_chanFrame _ _)

theorem State.th_moved : (s.moved i b mv).th i = (s.th i).withBank (s.th i).sel (commitBank b mv) := by
  rw [State.th_congr (congrArg State.ths (State.moved_chanFrame i b mv)), ← State.th_putBank h]
  rfl

theorem State.cur_moved : (s.moved i b mv).cur i = commitBank b mv := by
  have hbank := State.bankOf_putBank h i (s.th i).sel (s.th i).sel (commitBank b mv)
  rw [if_pos rfl] at hbank
  have hframe : ∀ u v : State, ChanFrame u v → ∀ sel, v.bankOf i sel = u.bankOf i sel := by
    intro u v huv sel
    rw [huv]
    rfl
  rw [State.cur, State.th_moved h, Thread.withBank_sel, hframe _ _ (State.moved_chanFrame i b mv), hbank]

theorem State.chan_moved (c : Nat) :
    ((s.moved i b mv).chan c).rx = (if c ∈ s.taken i (mv.map (·.1)) then none else (s.chan c).rx) ∧
    ((s.moved i b mv).chan c).send = (((s.putBank i (s.th i).sel (commitBank b mv)).sends mv).chan c).send := by
  have hput := h.putBank i (s.th i).sel (commitBank b mv)
  have hsends := (State.sends_keeps (.refl _) mv).inv hput
  have hchan : ∀ c, (s.putBank i (s.th i).sel (commitBank b mv)).chan c = s.chan c := fun c => by
    rw [State.chan, State.putBank_chans]; rfl
  rw [State.moved, State.chan_empties hsends]
  split
  · exact ⟨rfl, rfl⟩
  · exact ⟨by rw [State.chan_sends_rx hput, hchan], rfl⟩

end

/-- What a counted instruction shares with the state before. -/
theorem State.counted_spec {u : State} (h : u.Inv) (i : Nat) :
    (u.counted i).th i = { u.th i with lastRun := u.eclk } ∧ (∀ sel, (u.counted i).bankOf i sel = u.bankOf i sel) ∧
    (u.counted i).eng (engOf i) = { u.eng (engOf i) with instr := (u.eng (engOf i)).instr + 1, last := slotOf i } ∧
    (∀ j, j ≠ i → (u.counted i).th j = u.th j) ∧ ∃ ths engs, u.counted i = { u with ths := ths, engs := engs } := by
  have hset := h.setEng (engOf i) { u.eng (engOf i) with instr := (u.eng (engOf i)).instr + 1, last := slotOf i }
  have heng := State.eng_setEng_self h (engOf i) { u.eng (engOf i) with instr := (u.eng (engOf i)).instr + 1, last := slotOf i }
  refine ⟨State.th_modTh_self hset i _, fun sel => (State.bankOf_modTh hset i rfl rfl sel).trans ?_, heng,
    fun j hj => State.th_setTh_ne hj, _, _, rfl⟩
  cases sel with
  | normal => rfl
  | shadow => rfl
  | brace =>
    have hbrace := congrArg EngSt.brace heng
    exact hbrace

/-- `s'` is what a word committed in `s` leaves: bank `c`, PC, NPC and DS, the operations `ops`, and its channels. -/
structure Committed (s s' : State) (i : Nat) (c : Bank) (pc npc : Pc) (ds : Bool) (ops : List RunOp) (mv : List (Move × W64)) : Prop where
  th : s'.th i = { (s.th i).withBank (s.th i).sel c with pc := pc, npc := npc, ds := ds, ops := ops, lastRun := s.eclk }
  bank : s'.bankOf i (s.th i).sel = c
  instr : (s'.eng (engOf i)).instr = (s.eng (engOf i)).instr + 1
  last : (s'.eng (engOf i)).last = slotOf i
  mem : s'.mem = s.mem
  tasks : s'.tasks = s.tasks
  others : ∀ j, j ≠ i → s'.th j = s.th j
  rx : ∀ c, (s'.chan c).rx = if c ∈ s.taken i (mv.map (·.1)) then none else (s.chan c).rx
  send : ∀ c, ∃ u : State, u.Inv ∧ u.chans = s.chans ∧ (s'.chan c).send = ((u.sends mv).chan c).send

/-- `u` is the state of a word's moves with the operations of slot `i` started. -/
structure Started (s u : State) (i : Nat) (b : Bank) (mv : List (Move × W64)) (ops : List RunOp) : Prop where
  inv : u.Inv
  th : u.th i = { (s.th i).withBank (s.th i).sel (commitBank b mv) with ops := ops }
  cur : u.cur i = commitBank b mv
  frame : ∃ ths, u = { s.moved i b mv with ths := ths }
  others : ∀ j, j ≠ i → u.th j = s.th j

section
variable {s : State} (h : s.Inv) {i : Nat} {b : Bank} {mv : List (Move × W64)}
include h

theorem started_moved : Started s (s.moved i b mv) i b mv (s.th i).ops where
  inv := h.moved i b mv
  th := by
    rw [State.th_moved h]
    generalize (s.th i).sel = sel
    cases sel <;> rfl
  cur := State.cur_moved h i b mv
  frame := ⟨_, rfl⟩
  others j hj := by
    rw [State.th_congr (congrArg State.ths (State.moved_chanFrame i b mv)), ← State.th_putBank_ne s i _ _ hj]
    rfl

theorem started_start (unit : RUnit) (short : Bool) (res rem : W64) (carry : Option Bool) :
    Started s ((s.moved i b mv).start i unit short res rem carry) i b mv
      ((s.th i).ops ++ [RunOp.mk unit short (s.th i).sel res rem carry]) where
  inv := (h.moved i b mv).modTh i _
  th := by
    unfold State.start
    rw [State.th_modTh_self (h.moved i b mv), State.th_moved h]
    have hops : ((s.th i).withBank (s.th i).sel (commitBank b mv)).ops ++ [RunOp.mk unit short
        ((s.th i).withBank (s.th i).sel (commitBank b mv)).sel res rem carry] =
        (s.th i).ops ++ [RunOp.mk unit short (s.th i).sel res rem carry] := by
      rw [Thread.withBank_ops, Thread.withBank_sel]
    exact congrArg (fun ops => { (s.th i).withBank (s.th i).sel (commitBank b mv) with ops := ops }) hops
  cur := by
    unfold State.start
    rw [State.cur_modTh (h.moved i b mv) i rfl rfl rfl, State.cur_moved h]
  frame := ⟨_, rfl⟩
  others j hj := (State.th_setTh_ne hj).trans ((started_moved h).others j hj)

/-- The sequencing and the count of a word. -/
theorem Started.committed {u v : State} {ops : List RunOp} {l0 l1 : LoopSt} {pc npc : Pc} {ds : Bool}
    (hu : Started s u i b mv ops) (hv : Moved u v i l0 l1 pc npc ds) :
    Committed s (v.counted i) i { commitBank b mv with loop0 := l0, loop1 := l1 } pc npc ds ops mv := by
  obtain ⟨hth, hbank, ⟨vths, vengs, vregs, hveq⟩, hne, hinstr, hvinv⟩ := hv
  obtain ⟨hcth, hcbank, hceng, hcne, cths, cengs, hceq⟩ := State.counted_spec hvinv i
  obtain ⟨uths, hueq⟩ := hu.frame
  have hmeq := State.moved_chanFrame (s := s) i b mv
  have hsel : (u.th i).sel = (s.th i).sel := by rw [hu.th]; exact Thread.withBank_sel _ _ _
  have heclk : v.eclk = s.eclk := by rw [hveq, hueq, hmeq]; exact State.putBank_eclk _ _ _ _
  have hchan : ∀ c, (v.counted i).chan c = (s.moved i b mv).chan c := fun c => by rw [hceq, hveq, hueq]; rfl
  have hinstr' : (v.eng (engOf i)).instr = (s.eng (engOf i)).instr := by
    rw [hinstr, hueq, ← State.eng_putBank_instr h i (s.th i).sel (commitBank b mv), hmeq]
    rfl
  refine { th := ?_, bank := ?_, instr := ?_, last := ?_, mem := ?_, tasks := ?_, others := fun j hj => ?_, rx := fun c => ?_,
           send := fun c => ?_ }
  · rw [hcth, hth, hsel, hu.th, hu.cur, heclk]
    generalize (s.th i).sel = sel
    cases sel <;> rfl
  · rw [hcbank, ← hsel, hbank, hu.cur]
  · rw [hceng, hinstr']
  · rw [hceng]
  · rw [hceq, hveq, hueq, hmeq]
    exact State.putBank_mem _ _ _ _
  · rw [hceq, hveq, hueq, hmeq]
    exact State.putBank_tasks _ _ _ _
  · rw [hcne j hj, hne j hj, hu.others j hj]
  · rw [hchan, (State.chan_moved h i b mv c).1]
  · exact ⟨_, h.putBank i (s.th i).sel (commitBank b mv), State.putBank_chans _ _ _ _,
      by rw [hchan, (State.chan_moved h i b mv c).2]⟩

end

/-- The trigger of a move, if it names one. -/
def trigOf (p : Move × W64) : Option (Trig × W64 × Move) :=
  match dstPort p.1.d with
  | .trig t => some (t, p.2, p.1)
  | _ => none

/-- The trigger is a load. -/
def isLoad (q : Trig × W64 × Move) : Bool :=
  match q.1 with
  | .ld _ => true
  | _ => false

theorem trigsOf_eq (mv : List (Move × W64)) :
    trigsOf mv = (mv.filterMap trigOf).filter isLoad ++ (mv.filterMap trigOf).filter fun q => !isLoad q := rfl

theorem filterMap_trigOf_plain {mv : List (Move × W64)} (hp : ∀ p ∈ mv, ∀ g, dstPort p.1.d ≠ .trig g) :
    mv.filterMap trigOf = [] := by
  rw [List.filterMap_eq_nil_iff]
  intro p hmem
  unfold trigOf
  split
  next g hg => exact absurd hg (hp p hmem g)
  next => rfl

/-- A word of plain moves has no trigger. -/
theorem trigsOf_plain {mv : List (Move × W64)} (hp : ∀ p ∈ mv, ∀ g, dstPort p.1.d ≠ .trig g) : trigsOf mv = [] := by
  rw [trigsOf_eq, filterMap_trigOf_plain hp]
  rfl

/-- A word with one trigger. -/
theorem trigsOf_one {pre post : List (Move × W64)} {m : Move} {v : W64} {g : Trig} (hm : dstPort m.d = .trig g)
    (hp : ∀ p ∈ pre ++ post, ∀ g, dstPort p.1.d ≠ .trig g) : trigsOf (pre ++ (m, v) :: post) = [(g, v, m)] := by
  have htrig : trigOf (m, v) = some (g, v, m) := by unfold trigOf; rw [hm]
  rw [trigsOf_eq, List.filterMap_append, List.filterMap_cons, htrig,
    filterMap_trigOf_plain fun p hmem => hp p (List.mem_append_left _ hmem),
    filterMap_trigOf_plain fun p hmem => hp p (List.mem_append_right _ hmem)]
  cases g <;> rfl

theorem State.commit_plain (s : State) (i : Nat) (b : Bank) {mv : List (Move × W64)} (iw : W128)
    (hplain : ∀ p ∈ mv, ∀ g, dstPort p.1.d ≠ .trig g) :
    s.commit i b iw mv = ((s.moved i b mv).advance i (iwLoopend iw) none).counted i := by
  have htr := trigsOf_plain hplain
  rw [State.commit_eq s i b iw (by rw [htr]; rfl), htr]
  rfl

theorem commitBank_loops (b : Bank) (mv : List (Move × W64)) : (commitBank b mv).loop0 = b.loop0 ∧ (commitBank b mv).loop1 = b.loop1 := by
  obtain ⟨w, g, c0, c1, latch, hc⟩ := commitBank_frame b mv
  rw [hc]
  exact ⟨rfl, rfl⟩

/-- What a move of one word writes to its bank is found there, if no later move writes it (R44, R45). -/
theorem commitBank_last {pre post : List (Move × W64)} {m : Move} {v : W64} (b : Bank)
    (hpost : ∀ q ∈ post, dstPort q.1.d ≠ dstPort m.d) :
    let c := commitBank b (pre ++ (m, v) :: post)
    (∀ n, dstPort m.d = .w n → c.w[n] = v) ∧ (∀ n, dstPort m.d = .latch n → c.latch[n] = v) ∧
    (dstPort m.d = .carry 0 → c.c0 = v.getLsbD 0) ∧ (dstPort m.d = .carry 1 → c.c1 = v.getLsbD 0) := by
  intro c
  refine ⟨fun n hn => ?_, fun n hn => ?_, fun hn => ?_, fun hn => ?_⟩
  · rw [hn] at hpost
    rw [commitBank_w]
    refine foldl_sets (fun x : Bank => x.w[n]) (fun x => ?_) (fun q hq x => writeLatch_w_ne x q (hpost q hq)) b
    simp only [writeLatch, hn]
    exact Vector.getElem_set_self n.isLt
  · rw [hn] at hpost
    rw [commitBank_latch]
    refine foldl_sets (fun x : Bank => x.latch[n]) (fun x => ?_) (fun q hq x => writeLatch_latch_ne x q (hpost q hq)) b
    simp only [writeLatch, hn]
    exact Vector.getElem_set_self n.isLt
  · rw [hn] at hpost
    rw [commitBank_c0]
    refine foldl_sets Bank.c0 (fun x => ?_) (fun q hq x => writeLatch_c0_ne x q (hpost q hq)) b
    simp only [writeLatch, hn, if_true]
  · rw [hn] at hpost
    rw [commitBank_c1]
    refine foldl_sets Bank.c1 (fun x => ?_) (fun q hq x => writeLatch_c1_ne x q (hpost q hq)) b
    simp only [writeLatch, hn]
    rfl

section
variable {pre post : List (Move × W64)} {m : Move} {v : W64} (b : Bank)
  (hplain : ∀ p ∈ pre ++ (m, v) :: post, ∀ g, dstPort p.1.d ≠ .trig g)
  (hpost : ∀ q ∈ post, dstPort q.1.d ≠ dstPort m.d)
include hplain hpost

/-- A guard that a move writes, if no later one does. -/
theorem commitBank_guard {n : Fin 8} (hn : dstPort m.d = .b n) (h0 : n ≠ 0) (hm : ∀ q ∈ post, dstPort q.1.d ≠ .bmask) :
    (commitBank b (pre ++ (m, v) :: post)).b.getLsbD n.val = v.getLsbD 0 := by
  rw [hn] at hpost
  obtain ⟨a, hb⟩ := commitBank_b b (pre ++ (m, v) :: post)
  rw [hb]
  refine foldl_sets (fun x : BitVec 8 => x.getLsbD n.val) (fun x => ?_) (fun q hq x => ?_) b.b
  · have hmod : n.val % 8 = n.val := Nat.mod_eq_of_lt n.isLt
    simp only [writeGuard, hn]
    rw [getLsbD_setGuard _ _ _ n.isLt, if_pos ⟨hmod.symm, by rw [hmod]; exact fun e => h0 (Fin.ext e)⟩]
  · exact writeGuard_ne q (hplain q (List.mem_append_right _ (List.mem_cons_of_mem _ hq))) (hpost q hq) (hm q hq)

/-- All guards written at once, if no later move writes one. -/
theorem commitBank_mask (hn : dstPort m.d = .bmask) (hm : ∀ q ∈ post, ∀ n, dstPort q.1.d ≠ .b n) :
    (commitBank b (pre ++ (m, v) :: post)).b = BitVec.ofNat 8 v.toNat ||| 1 := by
  rw [hn] at hpost
  obtain ⟨a, hb⟩ := commitBank_b b (pre ++ (m, v) :: post)
  rw [hb]
  refine foldl_sets id (fun x => ?_) (fun q hq x => ?_) b.b
  · simp only [writeGuard, hn, id]
  · refine BitVec.eq_of_getLsbD_eq fun k hk => ?_
    exact writeGuard_ne q (n := ⟨k, hk⟩) (hplain q (List.mem_append_right _ (List.mem_cons_of_mem _ hq))) (hm q hq _) (hpost q hq)

end

/-- What no move names keeps its value. -/
theorem commitBank_unnamed (b : Bank) {mv : List (Move × W64)} (hplain : ∀ p ∈ mv, ∀ g, dstPort p.1.d ≠ .trig g) :
    (∀ n : Fin 32, (∀ p ∈ mv, dstPort p.1.d ≠ .w n) → (commitBank b mv).w[n] = b.w[n]) ∧
    (∀ n : Fin 22, (∀ p ∈ mv, dstPort p.1.d ≠ .latch n) → (commitBank b mv).latch[n] = b.latch[n]) ∧
    (∀ n : Fin 8, (∀ p ∈ mv, dstPort p.1.d ≠ .b n ∧ dstPort p.1.d ≠ .bmask) →
      (commitBank b mv).b.getLsbD n.val = b.b.getLsbD n.val) := by
  refine ⟨fun n hn => ?_, fun n hn => ?_, fun n hn => ?_⟩
  · rw [commitBank_w]
    exact foldl_keeps (fun x : Bank => x.w[n]) (fun p hp x => writeLatch_w_ne x p (hn p hp)) b
  · rw [commitBank_latch]
    exact foldl_keeps (fun x : Bank => x.latch[n]) (fun p hp x => writeLatch_latch_ne x p (hn p hp)) b
  · obtain ⟨a, hb⟩ := commitBank_b b mv
    rw [hb]
    exact foldl_keeps (fun x : BitVec 8 => x.getLsbD n.val)
      (fun p hp x => writeGuard_ne p (hplain p hp) (hn p hp).1 (hn p hp).2) b.b

end Sys2Proof.Machine
end

section

/-! SUPPORT. What a committed word leaves (O24). -/

namespace Sys2Proof.Machine

/-- Sequencing without a transfer leaves some loop levels and some next instruction. -/
theorem State.advance_moved {u : State} (h : u.Inv) (i : Nat) (le : Bool) :
    ∃ l0 l1 pc npc ds, Moved u (u.advance i le none) i l0 l1 pc npc ds := by
  by_cases hle : le = false ∨ (u.th i).ds = true ∨ (u.cur i).loop1.active = false ∧ (u.cur i).loop0.active = false
  · exact ⟨_, _, _, _, _, (State.advance_onward h i le hle).1⟩
  · simp only [not_or, not_and, Bool.not_eq_false, Bool.not_eq_true] at hle
    obtain ⟨rfl, hds, hact⟩ := hle
    by_cases h1 : (u.cur i).loop1.active = true
    · obtain ⟨-, hback, hover⟩ := State.advance_loop1 h i hds h1
      by_cases hc : (u.cur i).loop1.count = 0
      · exact ⟨_, _, _, _, _, hover hc⟩
      · exact ⟨_, _, _, _, _, hback hc⟩
    · rw [Bool.not_eq_true] at h1
      obtain ⟨-, hback, hover⟩ := State.advance_loop0 h i hds h1 (hact h1)
      by_cases hc : (u.cur i).loop0.count = 0
      · exact ⟨_, _, _, _, _, hover hc⟩
      · exact ⟨_, _, _, _, _, hback hc⟩

section
variable {s : State} (h : s.Inv) (i : Nat) (b : Bank) {mv : List (Move × W64)} (iw : W128)
  (hplain : ∀ p ∈ mv, ∀ g, dstPort p.1.d ≠ .trig g)
include h hplain

/-- Without LOOPEND, in a delay slot or with no active loop a word of plain moves goes on to NPC (R46, R47). -/
theorem State.commit_onward
    (hle : iwLoopend iw = false ∨ (s.th i).ds = true ∨ b.loop1.active = false ∧ b.loop0.active = false) :
    Committed s (s.commit i b iw mv) i { commitBank b mv with loop0 := b.loop0, loop1 := b.loop1 } (s.th i).npc
      ((s.th i).npc + 1) false (s.th i).ops mv ∧
    (iwLoopend iw = false → (s.commit i b iw mv).regs = s.regs) ∧
    (iwLoopend iw = true → (s.commit i b iw mv).bit (aEng (engOf i) 0x24) 1 = true) := by
  have hst := started_moved h (i := i) (b := b) (mv := mv)
  obtain ⟨hl0, hl1⟩ := commitBank_loops b mv
  have hds : ((s.moved i b mv).th i).ds = (s.th i).ds := by rw [hst.th]; exact Thread.withBank_ds _ _ _
  have hnpc : ((s.moved i b mv).th i).npc = (s.th i).npc := by rw [hst.th]; exact Thread.withBank_npc _ _ _
  obtain ⟨hmoved, hregs, hbit⟩ := State.advance_onward hst.inv i (iwLoopend iw) (by rw [hds, hst.cur, hl0, hl1]; exact hle)
  rw [hst.cur, hl0, hl1, hnpc] at hmoved
  rw [State.commit_plain s i b iw hplain]
  refine ⟨hst.committed h hmoved, fun hle => ?_, hbit⟩
  have hframe := congrArg State.regs (State.moved_chanFrame (s := s) i b mv)
  exact (hregs hle).trans (hframe.trans (State.putBank_regs _ _ _ _))

/-- LOOPEND with level 1 active (R47). -/
theorem State.commit_loop1 (hle : iwLoopend iw = true) (hds : (s.th i).ds = false) (h1 : b.loop1.active = true) :
    (s.commit i b iw mv).regs = s.regs ∧
    (b.loop1.count ≠ 0 → Committed s (s.commit i b iw mv) i { commitBank b mv with
      loop0 := b.loop0, loop1 := { b.loop1 with count := b.loop1.count - 1 } } b.loop1.start (b.loop1.start + 1) false (s.th i).ops mv) ∧
    (b.loop1.count = 0 → Committed s (s.commit i b iw mv) i { commitBank b mv with
      loop0 := b.loop0, loop1 := { b.loop1 with active := false } } (s.th i).npc ((s.th i).npc + 1) false (s.th i).ops mv) := by
  have hst := started_moved h (i := i) (b := b) (mv := mv)
  obtain ⟨hl0, hl1⟩ := commitBank_loops b mv
  have hds' : ((s.moved i b mv).th i).ds = false := by rw [hst.th, ← hds]; exact Thread.withBank_ds _ _ _
  have hnpc : ((s.moved i b mv).th i).npc = (s.th i).npc := by rw [hst.th]; exact Thread.withBank_npc _ _ _
  obtain ⟨hregs, hback, hend⟩ := State.advance_loop1 hst.inv i hds' (by rw [hst.cur, hl1]; exact h1)
  rw [hst.cur, hl0, hl1] at hback hend
  rw [hnpc] at hend
  rw [State.commit_plain s i b iw hplain, hle]
  have hframe := congrArg State.regs (State.moved_chanFrame (s := s) i b mv)
  exact ⟨hregs.trans (hframe.trans (State.putBank_regs _ _ _ _)), fun hc => hst.committed h (hback hc),
    fun hc => hst.committed h (hend hc)⟩

/-- LOOPEND with level 0 alone active (R47). -/
theorem State.commit_loop0 (hle : iwLoopend iw = true) (hds : (s.th i).ds = false) (h1 : b.loop1.active = false)
    (h0 : b.loop0.active = true) :
    (s.commit i b iw mv).regs = s.regs ∧
    (b.loop0.count ≠ 0 → Committed s (s.commit i b iw mv) i { commitBank b mv with
      loop0 := { b.loop0 with count := b.loop0.count - 1 }, loop1 := b.loop1 } b.loop0.start (b.loop0.start + 1) false (s.th i).ops mv) ∧
    (b.loop0.count = 0 → Committed s (s.commit i b iw mv) i { commitBank b mv with
      loop0 := { b.loop0 with active := false }, loop1 := b.loop1 } (s.th i).npc ((s.th i).npc + 1) false (s.th i).ops mv) := by
  have hst := started_moved h (i := i) (b := b) (mv := mv)
  obtain ⟨hl0, hl1⟩ := commitBank_loops b mv
  have hds' : ((s.moved i b mv).th i).ds = false := by rw [hst.th, ← hds]; exact Thread.withBank_ds _ _ _
  have hnpc : ((s.moved i b mv).th i).npc = (s.th i).npc := by rw [hst.th]; exact Thread.withBank_npc _ _ _
  obtain ⟨hregs, hback, hend⟩ := State.advance_loop0 hst.inv i hds' (by rw [hst.cur, hl1]; exact h1) (by rw [hst.cur, hl0]; exact h0)
  rw [hst.cur, hl0, hl1] at hback hend
  rw [hnpc] at hend
  rw [State.commit_plain s i b iw hplain, hle]
  have hframe := congrArg State.regs (State.moved_chanFrame (s := s) i b mv)
  exact ⟨hregs.trans (hframe.trans (State.putBank_regs _ _ _ _)), fun hc => hst.committed h (hback hc),
    fun hc => hst.committed h (hend hc)⟩

/-- Every word of plain moves commits with some loop levels, at some next instruction. -/
theorem State.commit_committed : ∃ l0 l1 pc npc ds,
    Committed s (s.commit i b iw mv) i { commitBank b mv with loop0 := l0, loop1 := l1 } pc npc ds (s.th i).ops mv := by
  have hst := started_moved h (i := i) (b := b) (mv := mv)
  obtain ⟨l0, l1, pc, npc, ds, hmoved⟩ := State.advance_moved hst.inv i (iwLoopend iw)
  rw [State.commit_plain s i b iw hplain]
  exact ⟨l0, l1, pc, npc, ds, hst.committed h hmoved⟩

end

/-- A JUMP goes on to NPC and from there to its target (R46). -/
theorem State.sequence_jump {u : State} (h : u.Inv) (i : Nat) (le rel : Bool) (v : W64) :
    Moved u (u.sequence i le (some (.jump rel, v))) i (u.cur i).loop0 (u.cur i).loop1 (u.th i).npc
      ((if rel then (u.th i).pc else 0) + BitVec.ofNat 17 v.toNat) true := by
  have hstep := Moved.step h i (u.th i).npc ((if rel then (u.th i).pc else 0) + BitVec.ofNat 17 v.toNat) true
  have hbit := hstep.setB (aEng (engOf i) 0x24) 1
  cases le with
  | false => exact hstep
  | true => exact hbit

/-- The last send of a word to a channel fills its buffer. -/
theorem Committed.send_last {s s' : State} {i : Nat} {c : Bank} {pc npc : Pc} {ds : Bool} {ops : List RunOp}
    {pre post : List (Move × W64)} {m : Move} {v : W64} (hc : Committed s s' i c pc npc ds ops (pre ++ (m, v) :: post)) {n : Nat}
    (hn : dstPort m.d = .send n) (hpost : ∀ q ∈ post, dstPort q.1.d ≠ .send n) : (s'.chan n).send = some v := by
  obtain ⟨u, hu, -, hsend⟩ := hc.send n
  rw [hsend, State.chan_sends_last hu pre post m v n hn hpost]

/-- A channel to which no move sends keeps its buffer. -/
theorem Committed.send_unnamed {s s' : State} {i : Nat} {c : Bank} {pc npc : Pc} {ds : Bool} {ops : List RunOp}
    {mv : List (Move × W64)} (hc : Committed s s' i c pc npc ds ops mv) {n : Nat}
    (hn : ∀ p ∈ mv, dstPort p.1.d ≠ .send n) : (s'.chan n).send = (s.chan n).send := by
  obtain ⟨u, hu, hchans, hsend⟩ := hc.send n
  rw [hsend, State.chan_sends_ne hu mv n hn, State.chan, hchans]
  rfl

section
variable {s : State} (h : s.Inv) (i : Nat) (b : Bank) {pre post : List (Move × W64)} {m : Move} {v : W64} (iw : W128)
  (hplain : ∀ p ∈ pre ++ post, ∀ g, dstPort p.1.d ≠ .trig g)
include h hplain

/-- A word with one ALU addition starts it on the operand latch that the word leaves (R79). -/
theorem State.commit_aluAdd (hm : dstPort m.d = .trig (.alu 0 .add)) :
    ∃ l0 l1 pc npc ds, Committed s (s.commit i b iw (pre ++ (m, v) :: post)) i
      { commitBank b (pre ++ (m, v) :: post) with loop0 := l0, loop1 := l1 } pc npc ds ((s.th i).ops ++ [RunOp.mk .alu0 true
        (s.th i).sel ((commitBank b (pre ++ (m, v) :: post)).latch[0] + v) 0 (some (decide
          (2 ^ 64 ≤ (commitBank b (pre ++ (m, v) :: post)).latch[0].toNat + v.toNat)))]) (pre ++ (m, v) :: post) := by
  have htr := trigsOf_one (v := v) hm hplain
  have hst := started_start h (i := i) (b := b) (mv := pre ++ (m, v) :: post) .alu0 true
    ((commitBank b (pre ++ (m, v) :: post)).latch[0] + v) 0
    (some (decide (2 ^ 64 ≤ (commitBank b (pre ++ (m, v) :: post)).latch[0].toNat + v.toNat)))
  obtain ⟨l0, l1, pc, npc, ds, hmoved⟩ := State.advance_moved hst.inv i (iwLoopend iw)
  rw [State.commit_eq s i b iw (by rw [htr]; rfl), htr]
  exact ⟨l0, l1, pc, npc, ds, hst.committed h hmoved⟩

/-- A word with one JUMP goes on to NPC and from there to its target (R46). -/
theorem State.commit_jump {rel : Bool} (hm : dstPort m.d = .trig (.jump rel)) :
    ∃ l0 l1, Committed s (s.commit i b iw (pre ++ (m, v) :: post)) i
      { commitBank b (pre ++ (m, v) :: post) with loop0 := l0, loop1 := l1 } (s.th i).npc
        ((if rel then (s.th i).pc else 0) + BitVec.ofNat 17 v.toNat) true (s.th i).ops (pre ++ (m, v) :: post) := by
  have htr := trigsOf_one (v := v) hm hplain
  have hst := started_moved h (i := i) (b := b) (mv := pre ++ (m, v) :: post)
  have hpc : ((s.moved i b (pre ++ (m, v) :: post)).th i).pc = (s.th i).pc := by rw [hst.th]; exact Thread.withBank_pc _ _ _
  have hnpc : ((s.moved i b (pre ++ (m, v) :: post)).th i).npc = (s.th i).npc := by rw [hst.th]; exact Thread.withBank_npc _ _ _
  have hmoved := State.sequence_jump hst.inv i (iwLoopend iw) rel v
  rw [hpc, hnpc] at hmoved
  rw [State.commit_eq s i b iw (by rw [htr]; rfl), htr]
  exact ⟨_, _, hst.committed h hmoved⟩

end

/-- The parts of a bank that no word writes. -/
theorem commitBank_rest (b : Bank) (mv : List (Move × W64)) : (commitBank b mv).limm = b.limm ∧
    (commitBank b mv).link = b.link ∧ (commitBank b mv).spill = b.spill := by
  obtain ⟨w, g, c0, c1, latch, hc⟩ := commitBank_frame b mv
  rw [hc]
  exact ⟨rfl, rfl, rfl⟩

section
variable {s s' : State} {i : Nat} {c : Bank} {pc npc : Pc} {ds : Bool} {ops : List RunOp} {mv : List (Move × W64)}
  (h : Committed s s' i c pc npc ds ops mv)
include h

theorem Committed.loops : (s'.bankOf i (s.th i).sel).loop0 = c.loop0 ∧ (s'.bankOf i (s.th i).sel).loop1 = c.loop1 := by
  rw [h.bank]
  exact ⟨rfl, rfl⟩

theorem Committed.latch : (s'.bankOf i (s.th i).sel).latch = c.latch := by rw [h.bank]

theorem Committed.next : (s'.th i).pc = pc ∧ (s'.th i).npc = npc ∧ (s'.th i).ds = ds := by rw [h.th]; exact ⟨rfl, rfl, rfl⟩

theorem Committed.rest : (s'.th i).lastRun = s.eclk ∧ (s'.th i).ring = (s.th i).ring ∧ (s'.th i).stack = (s.th i).stack ∧
    (s'.th i).ops = ops := by
  rw [h.th]
  exact ⟨rfl, Thread.withBank_ring _ _ _, Thread.withBank_stack _ _ _, rfl⟩

end

/-- Settles O24: a word of plain moves commits to the bank that its moves leave, and of the moves to one place the last determines it;
an ALU addition takes that bank's operand, and a JUMP takes effect after NPC. -/
theorem committedMoves : Obligations.CommittedMoves := by
  unfold Obligations.CommittedMoves
  intro s t b iw mv i e th s' b' plain onward h hrun
  refine ⟨fun hplain => ?_, fun pre post m v hmv hplain => ⟨fun hm => ?_, fun rel hm => ?_⟩⟩
  · obtain ⟨l0, l1, pc, npc, ds, hc⟩ := State.commit_committed h i b iw hplain
    obtain ⟨hlimm, hlink, hspill⟩ := commitBank_rest b mv
    obtain ⟨hw, hlatch, hguard⟩ := commitBank_unnamed b hplain
    obtain ⟨hlast, hring, hstack, -⟩ := hc.rest
    have hb : b' = { commitBank b mv with loop0 := l0, loop1 := l1 } := hc.bank
    refine ⟨fun pre post m v hmv hpost => ?_, fun n hn => ?_, fun n hn => ?_, fun n hn => ?_, fun c hn => hc.send_unnamed hn, hc.rx,
      ?_, ?_, ?_, hc.instr, hc.last.trans (slotOf_thIx t), hlast, hring, hstack, hc.mem, hc.tasks, hc.others, fun hle => ?_,
      fun hle hor => ?_, fun hle hds h1 => ?_, fun hle hds h1 h0 => ?_⟩
    · subst hmv
      obtain ⟨hw, hlatch, hc0, hc1⟩ := commitBank_last (v := v) (pre := pre) b hpost
      rw [hb]
      exact ⟨hw, hlatch, hc0, hc1, fun n hn h0 hm => commitBank_guard b hplain hpost hn h0 hm,
        fun hn hm => commitBank_mask b hplain hpost hn hm, fun n hn => hc.send_last hn (hn ▸ hpost)⟩
    · rw [hb]; exact hw n hn
    · rw [hb]; exact hlatch n hn
    · rw [hb]; exact hguard n hn
    · rw [hb]; exact hlimm
    · rw [hb]; exact hlink
    · rw [hb]; exact hspill
    · obtain ⟨hc, hregs, -⟩ := State.commit_onward h i b iw hplain (.inl hle)
      exact ⟨hc.next, hc.loops.1, hc.loops.2, hregs hle⟩
    · obtain ⟨hc, -, hbit⟩ := State.commit_onward h i b iw hplain (.inr hor)
      exact ⟨hc.next, hc.loops.1, hc.loops.2, hbit hle⟩
    · obtain ⟨hregs, hback, hover⟩ := State.commit_loop1 h i b iw hplain hle hds h1
      refine ⟨?_, hregs, fun hcount => ?_, fun hcount => ?_⟩
      · by_cases hcount : b.loop1.count = 0
        · exact (hover hcount).loops.1
        · exact (hback hcount).loops.1
      · obtain ⟨hpc, hnpc, hds⟩ := (hback hcount).next
        exact ⟨hpc, hnpc, hds, (hback hcount).loops.2⟩
      · exact ⟨(hover hcount).next, (hover hcount).loops.2⟩
    · obtain ⟨hregs, hback, hover⟩ := State.commit_loop0 h i b iw hplain hle hds h1 h0
      refine ⟨?_, hregs, fun hcount => ?_, fun hcount => ?_⟩
      · by_cases hcount : b.loop0.count = 0
        · exact (hover hcount).loops.2
        · exact (hback hcount).loops.2
      · obtain ⟨hpc, hnpc, hds⟩ := (hback hcount).next
        exact ⟨hpc, hnpc, hds, (hback hcount).loops.1⟩
      · exact ⟨(hover hcount).next, (hover hcount).loops.1⟩
  · subst hmv
    obtain ⟨l0, l1, pc, npc, ds, hc⟩ := State.commit_aluAdd h i b iw (v := v) hplain hm
    have hlatch : b'.latch = (commitBank b (pre ++ (m, v) :: post)).latch := hc.latch
    obtain ⟨-, -, -, hops⟩ := hc.rest
    rw [hlatch]
    exact ⟨_, hops, rfl⟩
  · subst hmv
    obtain ⟨l0, l1, hc⟩ := State.commit_jump h i b iw (v := v) hplain hm
    obtain ⟨hpc, hnpc, hds⟩ := hc.next
    exact ⟨hpc, hds, hnpc⟩

end Sys2Proof.Machine
end

section

/-! SUPPORT. A whole instruction: waits, faults and the fixed words (O23). -/

namespace Sys2Proof.Machine

/-- A slot that may run an instruction runs and waits for no transfer. -/
theorem State.spillFree_of_mayRun {s : State} {i : Nat} (h : (s.landShort i).mayRun i = true) : (s.atTrigger i).SpillFree i := by
  have hth : (s.atTrigger i).th i = (s.landShort i).th i := State.th_congr (State.firstFetch_ths _ i) i
  unfold State.mayRun at h
  simp only [Bool.and_eq_true, beq_iff_eq, Option.isNone_iff_eq_none] at h
  obtain ⟨⟨⟨hsel, hfault⟩, -⟩, -⟩ := h
  have hready : (s.landShort i).ready i = true := by
    unfold State.selected at hsel
    split at hsel
    next j hj =>
      have hj' := List.find?_some hj
      rw [Option.some.inj hsel, hfault] at hj'
      cases hj'
    next =>
      have hfound := List.find?_some hsel
      exact hfound
  simp only [State.ready, State.slotReady, Bool.and_eq_true, decide_eq_true_eq, Option.isNone_iff_eq_none] at hready
  obtain ⟨⟨⟨⟨⟨⟨⟨⟨⟨hrun, -⟩, -⟩, -⟩, -⟩, hspill⟩, -⟩, -⟩, -⟩, -⟩ := hready
  rw [State.SpillFree, hth]
  exact ⟨hrun, hspill⟩

/-- Every fault leaves the slot without a transfer. -/
theorem State.SpillFree.raiseAny {s : State} {i : Nat} (h : s.SpillFree i) (f : FaultRec) : (s.raiseFault i f).SpillFree i := by
  have hread : (s.readFault i f.cause).SpillFree i := by
    unfold State.readFault
    split
    · exact h.setB _ _
    · split
      · unfold State.putBank
        split
        · exact h.modTh i fun _ => h
        · exact h.modTh i fun _ => h
        · exact h.congr rfl
      · exact h
  unfold State.raiseFault
  dsimp only
  split
  · exact hread.lockup _ _ _ _ _ _
  · exact hread.modTh i fun _ => hread

section
variable {s : State} {i : Nat} {iw : W128}

/-- What a move waits for. -/
def State.moveWaits (s : State) (i : Nat) (m : Move) : List WaitCond := (s.srcWait i m).toList ++ (dstWait m).toList

/-- A word whose moves wait for nothing. -/
def State.NoWait (s : State) (i : Nat) (iw : W128) : Prop :=
  ∀ m ∈ movesOf iw (s.cur i).b, ∀ v ∈ s.moveWaits i m, s.holds i v = false

theorem State.runWord_waits {pre post : List Move} {m : Move} {w : WaitCond} (hms : movesOf iw (s.cur i).b = pre ++ m :: post)
    (hpre : ∀ x ∈ pre, ∀ v ∈ s.moveWaits i x, s.holds i v = false)
    (hm : (s.moveWaits i m).find? (fun v => s.holds i v) = some w) :
    s.runWord i iw = ((s.modTh i fun th => { th with wait := some w }).bump (aEng (engOf i) 0x10) 1).setEng (engOf i)
      { s.eng (engOf i) with last := slotOf i } := by
  have hnone : pre.findSome? (fun x => (s.moveWaits i x).find? fun w => s.holds i w) = none := by
    rw [List.findSome?_eq_none_iff]
    intro x hx
    rw [List.find?_eq_none]
    exact fun v hv => Bool.eq_false_iff.mp (hpre x hx v hv)
  have hfirst : (movesOf iw (s.cur i).b).findSome? (fun x => (s.moveWaits i x).find? fun w => s.holds i w) = some w := by
    rw [hms, List.findSome?_append, hnone, List.findSome?_cons, hm]
    rfl
  unfold State.moveWaits at hfirst
  unfold State.runWord
  dsimp only
  rw [hfirst]

/-- A word that does not wait: the faults of READ, of TRANSPORT and of TRIGGER in this order, else it commits (R41). -/
theorem State.runWord_free (hw : s.NoWait i iw) :
    let b := if iwLimm iw then { s.cur i with limm := iwLong iw } else s.cur i
    let ms := movesOf iw (s.cur i).b
    let mv := ms.map fun m => (m, s.srcVal i b m)
    s.runWord i iw = match worst (ms.filterMap fun m => s.srcFault i b m) with
      | some f => s.raiseFault i f.fr
      | none => match worst (s.dstFaults i [] ms) with
        | some f => s.raiseFault i f.fr
        | none => match worst ((trigsOf mv).flatMap fun q =>
            s.trigFaults i (commitBank b mv) q.1 q.2.1 q.2.2.d q.2.2.slot) with
          | some f => s.raiseFault i f.fr
          | none => s.commit i b iw mv := by
  have hnone : (movesOf iw (s.cur i).b).findSome? (fun x => (s.moveWaits i x).find? fun w => s.holds i w) = none := by
    rw [List.findSome?_eq_none_iff]
    intro x hx
    rw [List.find?_eq_none]
    exact fun v hv => Bool.eq_false_iff.mp (hw x hx v hv)
  intro b ms mv
  unfold State.moveWaits at hnone
  unfold State.runWord
  dsimp only
  rw [hnone] <;> rfl

end

/- The fixed words --------------------------------------------------------------------------------------------------- -/

/-- The empty move of slot `k`. -/
def noMove (k : Nat) : Move := ⟨k, 0, none, 0, 0, false⟩

theorem movesOf_zero (g : BitVec 8) : movesOf 0 g = [noMove 0, noMove 1, noMove 2, noMove 3] := rfl

theorem movesOf_faultWord (g : BitVec 8) :
    movesOf faultWord g = [⟨0, 0xFFF, none, 0, 0, false⟩, noMove 1, noMove 2, noMove 3] := rfl

section
variable (s : State) (i : Nat)

theorem State.moveWaits_noMove (k : Nat) : s.moveWaits i (noMove k) = [] := rfl

theorem State.srcFault_noMove (b : Bank) (k : Nat) : s.srcFault i b (noMove k) = none := rfl

theorem State.dstFault_noMove (before : List Move) (k : Nat) : s.dstFault i before (noMove k) = none := by
  have hclash : before.any (fun x => dstClash (dstPort x.d) (dstPort (noMove k).d)) = false := by
    rw [List.any_eq_false]
    intro x _
    rw [Bool.not_eq_true]
    generalize dstPort x.d = d
    cases d <;> rfl
  unfold State.dstFault
  dsimp only
  rw [hclash]
  rfl

/-- The fault word raises the illegal-port fault at the null instruction's PC and has no other effect (R65). -/
theorem State.runWord_faultWord : s.runWord i faultWord = s.raiseFault i ⟨0x01, 0xFFF, 0⟩ := by
  have hnw : s.NoWait i faultWord := by
    rw [State.NoWait, movesOf_faultWord]
    simp only [List.forall_mem_cons]
    exact ⟨nofun, nofun, nofun, nofun, nofun⟩
  have hdst : s.dstFaults i [] (movesOf faultWord (s.cur i).b) = [fltPort 0xFFF 0] := by
    rw [movesOf_faultWord]
    simp only [State.dstFaults, State.dstFault_noMove]
    rfl
  rw [State.runWord_free hnw, hdst, movesOf_faultWord]
  rfl

end

/-- A bank put back leaves the engine as it was. -/
theorem State.eng_putBank_cur {s : State} (h : s.Inv) (i : Nat) :
    (s.putBank i (s.th i).sel (s.cur i)).eng (engOf i) = s.eng (engOf i) := by
  unfold State.cur
  cases (s.th i).sel with
  | normal => rfl
  | shadow => rfl
  | brace => exact State.eng_setEng_self h (engOf i) (s.eng (engOf i))

/-- The word of zeros commits and advances (R41, R46). -/
theorem State.runWord_zero {s : State} (h : s.Inv) (i : Nat) :
    let u := s.runWord i 0
    u.th i = { s.th i with pc := (s.th i).npc, npc := (s.th i).npc + 1, ds := false, lastRun := s.eclk } ∧
    u.eng (engOf i) = { s.eng (engOf i) with instr := (s.eng (engOf i)).instr + 1, last := slotOf i } ∧
    u.mem = s.mem ∧ u.regs = s.regs ∧ u.chans = s.chans ∧ ∀ j, j ≠ i → u.th j = s.th j := by
  have hnw : s.NoWait i 0 := by
    rw [State.NoWait, movesOf_zero]
    simp only [List.forall_mem_cons]
    exact ⟨nofun, nofun, nofun, nofun, nofun⟩
  have hdst : s.dstFaults i [] (movesOf 0 (s.cur i).b) = [] := by
    rw [movesOf_zero]
    simp only [State.dstFaults, State.dstFault_noMove]
    rfl
  have hrun : s.runWord i 0 = (((s.putBank i (s.th i).sel (s.cur i)).modTh i fun t =>
      { t with pc := t.npc, npc := t.npc + 1, ds := false })).counted i := by
    have hplain : ∀ p ∈ [(noMove 0, (0 : W64)), (noMove 1, 0), (noMove 2, 0), (noMove 3, 0)], ∀ g, dstPort p.1.d ≠ .trig g := by
      simp only [List.forall_mem_cons]
      exact ⟨nofun, nofun, nofun, nofun, nofun⟩
    have hlimm : iwLimm 0 = false := by decide
    have hloop : iwLoopend 0 = false := by decide
    have hsrc : (movesOf 0 (s.cur i).b).filterMap (fun m => s.srcFault i (s.cur i) m) = [] := rfl
    have hval : (movesOf 0 (s.cur i).b).map (fun m => (m, s.srcVal i (s.cur i) m)) =
        [(noMove 0, 0), (noMove 1, 0), (noMove 2, 0), (noMove 3, 0)] := rfl
    rw [State.runWord_free hnw, hlimm, if_neg (by decide), hdst, hsrc, hval, trigsOf_plain hplain]
    refine (State.commit_plain s i (s.cur i) 0 hplain).trans ?_
    rw [hloop]
    rfl
  have hput := h.putBank i (s.th i).sel (s.cur i)
  have hth : (s.putBank i (s.th i).sel (s.cur i)).th i = s.th i := (State.th_putBank h i _ _).trans (State.withBank_cur s i)
  have heng := State.eng_putBank_cur h i
  have hother := fun j (hj : j ≠ i) => State.th_putBank_ne s i (s.th i).sel (s.cur i) hj
  have hmem := State.putBank_mem s i (s.th i).sel (s.cur i)
  have hregs := State.putBank_regs s i (s.th i).sel (s.cur i)
  have hchans := State.putBank_chans s i (s.th i).sel (s.cur i)
  have heclk := State.putBank_eclk s i (s.th i).sel (s.cur i)
  intro u
  have hu : u = _ := hrun
  clear_value u
  subst hu
  generalize s.putBank i (s.th i).sel (s.cur i) = x at *
  obtain ⟨hcth, -, hceng, hcne, ths, engs, hceq⟩ := State.counted_spec (hput.modTh i fun t =>
    { t with pc := t.npc, npc := t.npc + 1, ds := false }) i
  refine ⟨?_, ?_, ?_, ?_, ?_, fun j hj => ?_⟩
  · rw [hcth, State.th_modTh_self hput, hth]
    exact congrArg (fun c => { s.th i with pc := (s.th i).npc, npc := (s.th i).npc + 1, ds := false, lastRun := c }) heclk
  · rw [hceng, State.eng, State.modTh, State.setTh_engs, ← State.eng, heng]
  · rw [hceq]; exact hmem
  · rw [hceq]; exact hregs
  · rw [hceq]; exact hchans
  · rw [hcne j hj]
    exact (State.th_setTh_ne hj).trans (hother j hj)

/- The whole instruction ---------------------------------------------------------------------------------------------- -/

section
variable {s : State} {t : Th} (hrun : (s.landShort (thIx t)).mayRun (thIx t) = true)
include hrun

theorem exec_instruction_fixed {ue : Bool}
    (hue : ue = true ∨ (s.atTrigger (thIx t)).progPois (engOf (thIx t)) ((s.atTrigger (thIx t)).th (thIx t)).pc = true) :
    exec (.instruction t ue) s = .next (((s.atTrigger (thIx t)).setB (aEng (engOf (thIx t)) 0x24) 0).raiseFault (thIx t)
      ⟨0x01, 0xFFF, 0⟩) := by
  have hfree := ((State.spillFree_of_mayRun hrun).setB (aEng (engOf (thIx t)) 0x24) 0).raiseAny ⟨0x01, 0xFFF, 0⟩
  rw [← hfree.spillGo, ← State.runWord_faultWord]
  show execInstruction t ue s = _
  unfold execInstruction
  dsimp only
  rw [hrun, if_neg (by decide), if_pos (by rw [Bool.or_eq_true]; exact hue)]
  rfl

theorem exec_instruction_word (hp : (s.atTrigger (thIx t)).progPois (engOf (thIx t)) ((s.atTrigger (thIx t)).th (thIx t)).pc = false) :
    exec (.instruction t false) s = .next (((s.atTrigger (thIx t)).runWord (thIx t)
      ((s.atTrigger (thIx t)).instrAt ((s.atTrigger (thIx t)).th (thIx t)).pc)).spillGo (thIx t)) := by
  unfold State.atTrigger at hp ⊢
  show execInstruction t false s = _
  unfold execInstruction
  dsimp only
  rw [hrun, if_neg (by decide), hp]
  rfl

end

/-- Settles O23: the word is taken apart as `runWord_waits` and `runWord_free` say; the fault that R130 names is the only least one,
because the faults of one slot have different priorities. -/
theorem wholeInstruction : Obligations.WholeInstruction := by
  unfold Obligations.WholeInstruction
  intro s t i e s0 th iw g0 ms b mv waits trig least h hmay
  have hfree := State.spillFree_of_mayRun hmay
  have hinv : s0.Inv := h.atTrigger i
  refine ⟨fun ue hue => exec_instruction_fixed hmay hue, fun hp => ?_⟩
  have hword : exec (.instruction t false) s = .next ((s0.runWord i iw).spillGo i) := exec_instruction_word hmay hp
  have hnodup : (ms.map Move.slot).Nodup := movesOf_nodup iw g0
  refine ⟨fun hzero => ?_, fun hfault => ?_, fun m => mem_movesOf, fun pre post m w hms hpre hm => ?_, fun hnw => ?_⟩
  · obtain ⟨hth, heng, hmem, hregs, hchans, hother⟩ := State.runWord_zero hinv i
    have hrun : (s0.runWord i 0).SpillFree i := by
      rw [State.SpillFree, hth]
      exact hfree
    rw [hzero, hrun.spillGo] at hword
    exact ⟨_, hword, hth, heng.trans (by rw [slotOf_thIx]), hmem.trans (State.atTrigger_mem s i), hregs, hchans, hother⟩
  · rw [hfault, State.runWord_faultWord, (hfree.raiseAny _).spillGo] at hword
    exact hword
  · have hwait : ((s0.modTh i fun th => { th with wait := some w }).SpillFree i) := hfree.modTh i fun _ => hfree
    rw [State.runWord_waits hms hpre hm, slotOf_thIx] at hword
    exact hword.trans (congrArg Host.Outcome.next (State.SpillFree.spillGo (hwait.congr rfl)))
  · have hsrcs : Distinct (ms.filterMap fun m => s0.srcFault i b m) := s0.distinct_srcFaults i b hnodup
    have hdsts : Distinct (s0.dstFaults i [] ms) := (s0.distinct_dstFaults i hnodup []).2
    have htrigs : Distinct trig := s0.distinct_trigFaults i (commitBank b mv) hnodup fun m => s0.srcVal i b m
    have hcases : s0.runWord i iw = match worst (ms.filterMap fun m => s0.srcFault i b m) with
        | some f => s0.raiseFault i f.fr
        | none => match worst (s0.dstFaults i [] ms) with
          | some f => s0.raiseFault i f.fr
          | none => match worst trig with
            | some f => s0.raiseFault i f.fr
            | none => s0.commit i b iw mv := State.runWord_free hnw
    have hraise : ∀ f : Flt, s0.runWord i iw = s0.raiseFault i f.fr →
        exec (.instruction t false) s = .next (s0.raiseFault i f.fr) := fun f hf => by
      rw [hword, hf, (hfree.raiseAny _).spillGo]
    refine ⟨fun f hf => hraise f ?_, fun hsrc => ?_⟩
    · rw [hcases, worst_eq_of_least hsrcs hf.1 hf.2]
    · rw [List.filterMap_eq_nil_iff.mpr hsrc] at hcases
      refine ⟨fun f hf => hraise f ?_, fun hdst => ?_⟩
      · rw [hcases, worst_eq_of_least hdsts hf.1 hf.2]
        rfl
      · rw [hdst] at hcases
        refine ⟨fun f hf => hraise f ?_, fun htrig => ?_⟩
        · rw [hcases, worst_eq_of_least htrigs hf.1 hf.2]
          rfl
        · rw [htrig] at hcases
          rw [hword, hcases]
          rfl

end Sys2Proof.Machine
end

section

/-! SUPPORT. Canonical tables with equal contents are equal; the state of an expander after a STOP; the queue of an expander (O35). -/

namespace Sys2Proof.Machine

/- Canonical tables ------------------------------------------------------------------------------------------------- -/

/-- The head of a canonical table. -/
theorem spOkFrom_cons {α : Type} [DecidableEq α] {d : Nat → α} {n i : Nat} {v : α} {m : List (Nat × α)}
    (h : spOkFrom d n ((i, v) :: m) = true) : n ≤ i ∧ v ≠ d i ∧ spOkFrom d (i + 1) m = true := by
  simp only [spOkFrom, Bool.and_eq_true, decide_eq_true_eq] at h
  exact ⟨h.1.1, h.1.2, h.2⟩

/-- Canonical tables with equal contents are equal. -/
theorem spOk_ext {α : Type} [DecidableEq α] {d : Nat → α} {m m' : List (Nat × α)} {n n' : Nat} (h : spOkFrom d n m = true)
    (h' : spOkFrom d n' m' = true) (heq : ∀ k, spGet d m k = spGet d m' k) : m = m' := by
  induction m generalizing n n' m' with
  | nil =>
    cases m' with
    | nil => rfl
    | cons q m' =>
      have hq := heq q.1
      rw [spGet, spGet, if_pos rfl] at hq
      exact absurd hq.symm (spOkFrom_cons h').2.1
  | cons p m ih =>
    obtain ⟨-, hv, hm⟩ := spOkFrom_cons h
    cases m' with
    | nil =>
      have hp := heq p.1
      rw [spGet, spGet, if_pos rfl] at hp
      exact absurd hp hv
    | cons q m' =>
      obtain ⟨i, v⟩ := p
      obtain ⟨j, w⟩ := q
      obtain ⟨-, hw, hm'⟩ := spOkFrom_cons h'
      have hi := heq i
      have hj := heq j
      rw [spGet, spGet, if_pos rfl] at hi
      rw [spGet, spGet, if_pos rfl] at hj
      have hij : i = j := by
        by_contra hne
        rcases lt_or_gt_of_ne hne with hlt | hgt
        · rw [if_neg (Ne.symm hne), spGet_of_lt hm' (by omega)] at hi
          exact hv hi
        · rw [if_neg hne, spGet_of_lt hm (by omega)] at hj
          exact hw hj.symm
      subst hij
      rw [if_pos rfl] at hi
      subst hi
      refine congrArg ((i, v) :: ·) (ih hm hm' fun k => ?_)
      by_cases hk : i = k
      · rw [← hk, spGet_of_lt hm (Nat.lt_succ_self i), spGet_of_lt hm' (Nat.lt_succ_self i)]
      · have hrest := heq k
        rw [spGet, spGet, if_neg hk, if_neg hk] at hrest
        exact hrest

/-- Of two writes of one entry the second stays. -/
theorem spSet_spSet {α : Type} [DecidableEq α] {d : Nat → α} {m : List (Nat × α)} (h : spOk d m = true) (k : Nat) (v w : α) :
    spSet d (spSet d m k v) k w = spSet d m k w := by
  have h₁ := spOk_spSet h k v
  refine spOk_ext (spOk_spSet h₁ k w) (spOk_spSet h k w) fun j => ?_
  rcases eq_or_ne j k with rfl | hj
  · rw [spGet_spSet_self h₁, spGet_spSet_self h]
  · rw [spGet_spSet_ne _ _ hj, spGet_spSet_ne _ _ hj, spGet_spSet_ne _ _ hj]

/-- The entry that stands in a table written again. -/
theorem spSet_spGet {α : Type} [DecidableEq α] {d : Nat → α} {m : List (Nat × α)} (h : spOk d m = true) (k : Nat) :
    spSet d m k (spGet d m k) = m := by
  refine spOk_ext (spOk_spSet h k _) h fun j => ?_
  rcases eq_or_ne j k with rfl | hj
  · rw [spGet_spSet_self h]
  · rw [spGet_spSet_ne _ _ hj]

/- Expanders ---------------------------------------------------------------------------------------------------------- -/

theorem State.pxs_setPx_ne {s : State} {n m : Nat} (h : m ≠ n) (v : PxSt) : (s.setPx n v).pxs m = s.pxs m := spGet_spSet_ne _ _ h

theorem State.pxs_congr {s u : State} (h : u.px = s.px) (n : Nat) : u.pxs n = s.pxs n := by rw [State.pxs, h]; rfl

theorem State.pgs_congr {s u : State} (h : u.pg = s.pg) (g : Nat) : u.pgs g = s.pgs g := by rw [State.pgs, h]; rfl

section
variable {s : State} (h : s.Inv)
include h

theorem State.pxs_setPx_self (n : Nat) (v : PxSt) : (s.setPx n v).pxs n = v := spGet_spSet_self h.px _ _

theorem State.setPx_setPx (n : Nat) (v w : PxSt) : (s.setPx n v).setPx n w = s.setPx n w := by
  unfold State.setPx
  dsimp only
  rw [spSet_spSet h.px]

theorem State.Inv.setPx (n : Nat) (v : PxSt) : (s.setPx n v).Inv := (State.setPx_keeps (.refl s) n v).inv h

theorem State.Inv.setQueue (n : Nat) (q : List W128) : (s.setQueue n q).Inv := (State.setQueue_keeps (.refl s) n q).inv h

end

/-- A queue written: one expander and waits of threads. -/
theorem State.setQueue_eq (s : State) (n : Nat) (q : List W128) :
    ∃ ths, s.setQueue n q = { s.setPx n { s.pxs n with queue := q } with ths := ths } :=
  ⟨_, (State.clearWaits_frame _).1⟩

theorem State.rf_of_rd {s u : State} {a : Nat} (h : u.rd a = s.rd a) (lo w : Nat) : u.rf a lo w = s.rf a lo w := by
  rw [State.rf, h]
  rfl

theorem State.bit_of_rd {s u : State} {a : Nat} (h : u.rd a = s.rd a) (i : Nat) : u.bit a i = s.bit a i := by
  rw [State.bit, State.rf_of_rd h]
  rfl

/-- Only expanders, registers, waits of threads, reads of entries and sites' holds differ. -/
def ExpandFrame (s t : State) : Prop :=
  t = { s with px := t.px, regs := t.regs, ths := t.ths, xfers := t.xfers, sites := t.sites }

theorem ExpandFrame.trans {s t u : State} (h₁ : ExpandFrame s t) (h₂ : ExpandFrame t u) : ExpandFrame s u := by
  unfold ExpandFrame at *
  rw [h₂, h₁]

theorem State.setQueue_expFrame (s : State) (n : Nat) (q : List W128) : ExpandFrame s (s.setQueue n q) := by
  obtain ⟨ths, hq⟩ := s.setQueue_eq n q
  rw [hq]
  rfl

theorem State.fetchReset_expFrame (s : State) (n : Nat) : ExpandFrame s (s.fetchReset n) := by
  unfold State.fetchReset
  dsimp only
  split <;> rfl

theorem State.rd_fetchReset {s : State} {n a : Nat} (ha : a ≠ aPx n 0x20) : (s.fetchReset n).rd a = s.rd a := by
  unfold State.fetchReset
  dsimp only
  split
  · exact (State.rd_congr (s := s.wr (aPx n 0x20) (s.rd (aPx n 0x1C))) rfl a).trans (State.rd_wr_ne ha)
  · exact State.rd_congr rfl a

theorem State.pxs_fetchReset {s : State} (h : s.Inv) (n m : Nat) :
    (s.fetchReset n).pxs m = if m = n then { s.pxs n with fetchErr := false } else s.pxs m := by
  have hpx : (s.fetchReset n).px = (s.setPx n { s.pxs n with fetchErr := false }).px := by
    unfold State.fetchReset
    dsimp only
    split <;> rfl
  rw [State.pxs_congr hpx]
  split
  next hm => rw [hm, State.pxs_setPx_self h]
  next hm => exact State.pxs_setPx_ne hm _

/-- A STOP before it looks at the state of the expander: disarmed, its queue empty, its fetch reset (R237). -/
def State.quieted (s : State) (n : Nat) : State :=
  (((s.clrB (aPx n 0) 0).setQueue n []).fetchReset n).setPx n
    { (((s.clrB (aPx n 0) 0).setQueue n []).fetchReset n).pxs n with take := false }

/-- What `quieted` leaves. -/
structure Quieted (s u : State) (n : Nat) : Prop where
  inv : u.Inv
  self : u.pxs n = { s.pxs n with queue := [], fetchErr := false, take := false }
  others : ∀ m, m ≠ n → u.pxs m = s.pxs m
  frame : ExpandFrame s u
  rd : ∀ a, a ≠ aPx n 0 → a ≠ aPx n 0x20 → u.rd a = s.rd a
  disarmed : u.isArmed n = false

theorem State.quieted_spec {s : State} (h : s.Inv) (n : Nat) : Quieted s (s.quieted n) n := by
  have hclr : (s.clrB (aPx n 0) 0).Inv := (State.clrB_keeps (.refl s) _ _).inv h
  have hqueue : ((s.clrB (aPx n 0) 0).setQueue n []).Inv := hclr.setQueue n []
  have hreset : (((s.clrB (aPx n 0) 0).setQueue n []).fetchReset n).Inv := (State.fetchReset_keeps (.refl _) n).inv hqueue
  obtain ⟨ths, hq⟩ := (s.clrB (aPx n 0) 0).setQueue_eq n []
  have hqs : ∀ m, ((s.clrB (aPx n 0) 0).setQueue n []).pxs m = if m = n then { s.pxs n with queue := [] } else s.pxs m := by
    intro m
    rw [hq]
    split
    next hm => rw [hm]; exact State.pxs_setPx_self hclr n _
    next hm => exact State.pxs_setPx_ne hm _
  have hqrd : ∀ a, ((s.clrB (aPx n 0) 0).setQueue n []).rd a = (s.clrB (aPx n 0) 0).rd a := fun a => by
    rw [hq]
    rfl
  have hrd : ∀ a, a ≠ aPx n 0x20 → (s.quieted n).rd a = (s.clrB (aPx n 0) 0).rd a := fun a ha =>
    (State.rd_fetchReset ha).trans (hqrd a)
  refine { inv := hreset.setPx n _, self := ?_, others := fun m hm => ?_, frame := ?_, rd := fun a h0 h20 => ?_, disarmed := ?_ }
  · unfold State.quieted
    rw [State.pxs_setPx_self hreset, State.pxs_fetchReset hqueue, if_pos rfl, hqs, if_pos rfl]
  · unfold State.quieted
    rw [State.pxs_setPx_ne hm, State.pxs_fetchReset hqueue, if_neg hm, hqs, if_neg hm]
  · refine ExpandFrame.trans (t := s.clrB (aPx n 0) 0) rfl (ExpandFrame.trans (State.setQueue_expFrame _ n []) ?_)
    exact ExpandFrame.trans (State.fetchReset_expFrame _ n) rfl
  · rw [hrd a h20]
    exact State.rd_wf_ne h0
  · rw [State.isArmed, State.bit_of_rd (hrd (aPx n 0) (by unfold aPx; omega)), State.bit_clrB_self h.regs _ (by decide)]

/- Registers of sites ------------------------------------------------------------------------------------------------- -/

/-- Only registers below 0x10000 differ, those of the sites among them. -/
def LowRegs (s t : State) : Prop := t = { s with regs := t.regs } ∧ ∀ a, 0x10000 ≤ a → t.rd a = s.rd a

theorem LowRegs.foldl_setB (k : Nat) {l : List Nat} (hl : ∀ i ∈ l, i < 256) (s : State) :
    LowRegs s (l.foldl (fun t i => t.setB (aSite i 0x14) k) s) := by
  induction l generalizing s with
  | nil => exact ⟨rfl, fun _ _ => rfl⟩
  | cons i l ih =>
    obtain ⟨hframe, hrd⟩ := ih (fun j hj => hl j (List.mem_cons_of_mem _ hj)) (s.setB (aSite i 0x14) k)
    refine ⟨by rw [List.foldl_cons, hframe]; rfl, fun a ha => ?_⟩
    have hi := hl i List.mem_cons_self
    rw [List.foldl_cons, hrd a ha]
    exact State.rd_wf_ne (by unfold aSite; omega)

theorem State.saw_lowRegs (s : State) (mask k : Nat) : LowRegs s (s.saw mask k) :=
  .foldl_setB k (fun _ hi => List.mem_range.mp (List.mem_filter.mp hi).1) s

theorem State.sawActive_lowRegs (s : State) (mask k : Nat) (en : Nat → Bool) : LowRegs s (s.sawActive mask k en) :=
  .foldl_setB k (fun _ hi => List.mem_range.mp (List.mem_filter.mp hi).1) s

/- STOP ---------------------------------------------------------------------------------------------------------------- -/

theorem State.rf_setPxState_self {s : State} (h : s.Inv) (n : Nat) {v : Nat} (hv : v < 8) : (s.setPxState n v).pxState n = v := by
  rw [State.pxState, State.setPxState, State.rf_wf_self h.regs (aPx n 4) v (by decide), Nat.mod_eq_of_lt (by omega)]

/-- A STOP between bursts (R237). -/
theorem State.stopNow_idle {s : State} (h : s.Inv) {n : Nat} (hst : s.pxState n ≤ 2) :
    let u := s.stopNow n
    u.pxState n = 0 ∧ u.isArmed n = false ∧ (u.pxs n).queue = [] ∧ u.mem = s.mem ∧ u.tasks = s.tasks := by
  have hq := State.quieted_spec h n
  have hself : (s.quieted n).pxState n = s.pxState n := State.rf_of_rd (hq.rd _ (by unfold aPx; omega) (by unfold aPx; omega)) _ _
  have hmem : (s.quieted n).mem = s.mem := by rw [hq.frame]
  have htasks : (s.quieted n).tasks = s.tasks := by rw [hq.frame]
  intro u
  rcases Nat.eq_zero_or_pos (s.pxState n) with h0 | hpos
  · have hu : u = s.quieted n := by
      unfold u State.stopNow
      dsimp only
      rw [h0]
      rfl
    rw [hu, hself, h0, hq.self]
    exact ⟨rfl, hq.disarmed, rfl, hmem, htasks⟩
  · have hu : u = (((s.quieted n).setPxState n 0).sawActive (laneMask (n / 2) (s.ownLanes n false)) 10 fun _ => true).mapHolds
        (Hold.left n false) := by
      have h12 : s.pxState n = 1 ∨ s.pxState n = 2 := by omega
      unfold u State.stopNow
      dsimp only
      rcases h12 with h1 | h2
      · rw [h1]; rfl
      · rw [h2]; rfl
    obtain ⟨hframe, hrd⟩ := State.sawActive_lowRegs ((s.quieted n).setPxState n 0) (laneMask (n / 2) (s.ownLanes n false)) 10
      fun _ => true
    rw [hu]
    generalize State.sawActive _ _ _ _ = v at hframe hrd
    have hstate : v.pxState n = 0 := by
      rw [State.pxState, State.rf_of_rd (hrd (aPx n 4) (by unfold aPx; omega))]
      exact State.rf_setPxState_self hq.inv n (by decide)
    have harm : v.isArmed n = false := by
      have hbit : ((s.quieted n).setPxState n 0).bit (aPx n 0) 0 = (s.quieted n).bit (aPx n 0) 0 :=
        State.bit_of_rd (State.rd_wf_ne (by unfold aPx; omega)) 0
      rw [State.isArmed, State.bit_of_rd (hrd (aPx n 0) (by unfold aPx; omega)), hbit]
      exact hq.disarmed
    have hpx : v.px = (s.quieted n).px := by rw [hframe]; rfl
    have hvmem : v.mem = (s.quieted n).mem := by rw [hframe]; rfl
    have hvtasks : v.tasks = (s.quieted n).tasks := by rw [hframe]; rfl
    have hqueue : (v.pxs n).queue = [] := by rw [State.pxs_congr hpx, hq.self]
    exact ⟨hstate, harm, hqueue, hvmem.trans hmem, hvtasks.trans htasks⟩

/-- A burst ended by a STOP, and SAW_VOID set for its lanes (R237, R257). -/
def State.stopEnd (s : State) (n : Nat) (b : Burst) : State :=
  ((s.quieted n).endBurst n 7 (((s.quieted n).pgs (n / 2)).started + 1)).sawVoid n b.mode

/-- A STOP of a burst: one whose next frame is VOID goes on to it, another ends (R237, R254). -/
theorem State.stopNow_burst {s : State} (h : s.Inv) {n : Nat} {b : Burst} (hst : s.pxState n = 3)
    (hb : (s.pxs n).burst = some b) : s.stopNow n = match b.next with
      | .void _ => s.quieted n
      | _ => (s.stopEnd n b).linkVoids n := by
  have hburst : ((s.quieted n).pxs n).burst = some b := by rw [(State.quieted_spec h n).self]; exact hb
  have hstop : s.stopNow n = match ((s.quieted n).pxs n).burst with
      | none => s.quieted n
      | some b => match b.next with
        | .void _ => s.quieted n
        | _ => (s.stopEnd n b).linkVoids n := by
    unfold State.stopNow
    rw [hst] <;> rfl
  rw [hstop, hburst]

/-- How burst `b` of expander `n` ends after the frame of the last edge, with cause `c` (R235). -/
def State.stopEnding (s : State) (n : Nat) (b : Burst) (c : Nat) : Ending :=
  ⟨b.task, b.fetched, b.link, c, (s.pgs (n / 2)).started, (s.pgs (n / 2)).started + 1 + (31 + s.rf (aPg (n / 2) 8) 0 16) / 32⟩

/-- An expander whose burst a STOP has ended. -/
def PxSt.stopped (p : PxSt) (e : Ending) : PxSt :=
  { p with queue := [], fetchErr := false, take := false, burst := none, ends :=
      p.ends ++ [e] }

/-- What a STOP of a burst has done before it looks at the burst beside it. -/
structure Stopped (s u : State) (n : Nat) (b : Burst) : Prop where
  inv : u.Inv
  self : u.pxs n = (s.pxs n).stopped (s.stopEnding n b 7)
  pgs : ∀ g, u.pgs g = s.pgs g
  mem : u.mem = s.mem
  state : u.pxState n = 3
  disarmed : u.isArmed n = false

theorem State.stopEnd_spec {s : State} (h : s.Inv) {n : Nat} (hn : n < 16) {b : Burst} (hst : s.pxState n = 3)
    (hb : (s.pxs n).burst = some b) :
    Stopped s (s.stopEnd n b) n b ∧ ∀ m, m ≠ n → (s.stopEnd n b).pxs m = s.pxs m := by
  have hq := State.quieted_spec h n
  have hburst : ((s.quieted n).pxs n).burst = some b := by rw [hq.self]; exact hb
  have hpgs : ∀ g, (s.quieted n).pgs g = s.pgs g := fun g => State.pgs_congr (by rw [hq.frame]) g
  have hdelay : (s.quieted n).rf (aPg (n / 2) 8) 0 16 = s.rf (aPg (n / 2) 8) 0 16 :=
    State.rf_of_rd (hq.rd _ (by unfold aPx aPg; omega) (by unfold aPx aPg; omega)) _ _
  have hend : (s.quieted n).endBurst n 7 (((s.quieted n).pgs (n / 2)).started + 1) = (s.quieted n).setPx n
      ((s.pxs n).stopped (s.stopEnding n b 7)) := by
    unfold State.endBurst
    dsimp only
    rw [hburst, hdelay, hpgs, hq.self]
    rfl
  have hinv : (s.stopEnd n b).Inv := (State.sawVoid_keeps (State.endBurst_keeps (.refl _) _ _ _) _ _).inv hq.inv
  obtain ⟨hframe, hrd⟩ : LowRegs ((s.quieted n).endBurst n 7 (((s.quieted n).pgs (n / 2)).started + 1)) (s.stopEnd n b) :=
    State.saw_lowRegs _ _ _
  rw [hend] at hframe hrd
  generalize s.stopEnd n b = u at *
  have hpx : u.px = ((s.quieted n).setPx n ((s.pxs n).stopped (s.stopEnding n b 7))).px := by
    rw [hframe]
  have hpg : u.pg = (s.quieted n).pg := by rw [hframe]; rfl
  have hmem : u.mem = (s.quieted n).mem := by rw [hframe]; rfl
  refine ⟨{ inv := hinv, self := ?_, pgs := fun g => ?_, mem := ?_, state := ?_, disarmed := ?_ }, fun m hm => ?_⟩
  rotate_right
  · rw [State.pxs_congr hpx, State.pxs_setPx_ne hm, hq.others m hm]
  · rw [State.pxs_congr hpx, State.pxs_setPx_self hq.inv]
  · rw [State.pgs_congr hpg, hpgs]
  · rw [hmem, hq.frame]
  · rw [State.pxState, State.rf_of_rd (hrd (aPx n 4) (by unfold aPx; omega))]
    have hq4 := State.rf_of_rd (hq.rd (aPx n 4) (by unfold aPx; omega) (by unfold aPx; omega)) 0 3
    exact hq4.trans hst
  · rw [State.isArmed, State.bit_of_rd (hrd (aPx n 0) (by unfold aPx; omega))]
    exact hq.disarmed

/- The burst beside it ------------------------------------------------------------------------------------------------- -/

/-- Expander `n`, the pin groups and memory are as they were. -/
structure Beside (s t : State) (n : Nat) : Prop where
  inv : t.Inv
  px : t.pxs n = s.pxs n
  pgs : ∀ g, t.pgs g = s.pgs g
  mem : t.mem = s.mem
  tasks : t.tasks = s.tasks
  rd : ∀ o < 0x10000, t.rd (aPx n o) = s.rd (aPx n o)
  far : ∀ a, 0x300000 ≤ a → t.rd a = s.rd a
  lanes : t.lanes = s.lanes

theorem Beside.state {s t : State} {n : Nat} (h : Beside s t n) : t.pxState n = s.pxState n := State.rf_of_rd (h.rd 4 (by decide)) _ _

theorem Beside.armed {s t : State} {n : Nat} (h : Beside s t n) : t.isArmed n = s.isArmed n := State.bit_of_rd (h.rd 0 (by decide)) _

theorem Beside.refl {s : State} (h : s.Inv) (n : Nat) : Beside s s n := ⟨h, rfl, fun _ => rfl, rfl, rfl, fun _ _ => rfl, fun _ _ => rfl, rfl⟩

theorem Beside.trans {s t u : State} {n : Nat} (h₁ : Beside s t n) (h₂ : Beside t u n) : Beside s u n :=
  ⟨h₂.inv, h₂.px.trans h₁.px, fun g => (h₂.pgs g).trans (h₁.pgs g), h₂.mem.trans h₁.mem, h₂.tasks.trans h₁.tasks,
    fun o ho => (h₂.rd o ho).trans (h₁.rd o ho), fun a ha => (h₂.far a ha).trans (h₁.far a ha), h₂.lanes.trans h₁.lanes⟩

/-- Back to IDLE, ARMED or STARTING, where the wait is cleared. -/
theorem State.pxRest_eq (s : State) (m : Nat) :
    ∃ v, s.pxRest m = s.setPxState m v ∨ s.pxRest m = (s.wr (aPx m 0x2C) 0).setPxState m v := by
  unfold State.pxRest
  generalize (if s.isArmed m then (if s.startReq then 2 else 1) else 0) = v
  refine ⟨v, ?_⟩
  dsimp only
  split
  · exact .inr rfl
  · exact .inl rfl

section
variable {s : State} (h : s.Inv) {m n : Nat} (hmn : n ≠ m) (hm : m < 16)
include h hmn hm

omit hm in
theorem Beside.setPx (v : PxSt) : Beside s (s.setPx m v) n :=
  ⟨h.setPx m v, State.pxs_setPx_ne hmn v, fun _ => rfl, rfl, rfl, fun _ _ => rfl, fun _ _ => rfl, rfl⟩

omit hm in
theorem Beside.setQueue (q : List W128) : Beside s (s.setQueue m q) n := by
  have hinv := h.setQueue m q
  obtain ⟨ths, hq⟩ := s.setQueue_eq m q
  rw [hq] at hinv ⊢
  exact ⟨hinv, State.pxs_setPx_ne hmn _, fun _ => rfl, rfl, rfl, fun _ _ => rfl, fun _ _ => rfl, rfl⟩

theorem Beside.wr {o : Nat} (ho : o < 0x10000) (v : W32) : Beside s (s.wr (aPx m o) v) n := by
  have hrd : ∀ o' < 0x10000, (s.wr (aPx m o) v).rd (aPx n o') = s.rd (aPx n o') := fun o' ho' =>
    State.rd_wr_ne (by unfold aPx; omega)
  exact ⟨(State.wr_keeps (.refl s) _ _).inv h, rfl, fun _ => rfl, rfl, rfl, hrd,
    fun a ha => State.rd_wr_ne (by unfold aPx; omega), rfl⟩

theorem Beside.setPxState (v : Nat) : Beside s (s.setPxState m v) n := Beside.wr h hmn hm (o := 4) (by decide) _

theorem Beside.pxRest : Beside s (s.pxRest m) n := by
  have hwr := Beside.wr h hmn hm (o := 0x2C) (by decide) 0
  obtain ⟨v, hv | hv⟩ := s.pxRest_eq m
  · rw [hv]
    exact Beside.setPxState h hmn hm v
  · rw [hv]
    exact hwr.trans (Beside.setPxState hwr.inv hmn hm v)

theorem Beside.settleDiscard : Beside s (s.settleDiscard m) n := by
  unfold State.settleDiscard
  dsimp only
  have hq := Beside.setQueue h hmn ((s.pxs m).queue.dropWhile fun e => entType e != 1)
  split
  · split
    · exact hq.trans (Beside.pxRest hq.inv hmn hm)
    · exact hq
  · exact .refl h n

end

/-- What leaves DISCARD keeps its burst. -/
theorem State.settleDiscard_burst {s : State} (h : s.Inv) (m : Nat) : ((s.settleDiscard m).pxs m).burst = (s.pxs m).burst := by
  have hq : ((s.setQueue m ((s.pxs m).queue.dropWhile fun e => entType e != 1)).pxs m).burst = (s.pxs m).burst := by
    obtain ⟨ths, hq⟩ := s.setQueue_eq m ((s.pxs m).queue.dropWhile fun e => entType e != 1)
    rw [hq]
    have hself := congrArg PxSt.burst (State.pxs_setPx_self h m { s.pxs m with
      queue := (s.pxs m).queue.dropWhile fun e => entType e != 1 })
    exact hself
  have hrest : ∀ u : State, (u.pxRest m).px = u.px := fun u => by
    obtain ⟨v, hv | hv⟩ := u.pxRest_eq m
    · rw [hv]; rfl
    · rw [hv]; rfl
  unfold State.settleDiscard
  dsimp only
  split
  · split
    · rw [State.pxs_congr (hrest _), hq]
    · exact hq
  · rfl

theorem otherPx_otherPx (n : Nat) : otherPx (otherPx n) = n := by
  unfold otherPx
  split
  · rw [if_neg (by omega)]; omega
  · rw [if_pos (by omega)]; omega

theorem otherPx_ne (n : Nat) : n ≠ otherPx n := by
  unfold otherPx
  split <;> omega

theorem otherPx_lt {n : Nat} (h : n < 16) : otherPx n < 16 := by
  unfold otherPx
  split <;> omega

theorem otherPx_half (n : Nat) : otherPx n / 2 = n / 2 := by
  unfold otherPx
  split <;> omega

/-- The burst beside one that turns VOID turns VOID with it if it is linked, or is to turn VOID at that frame anyway (R255). -/
def State.alsoVoid (s : State) (n : Nat) : Prop :=
  (s.pxs (otherPx n)).lastEdge = (s.pgs (n / 2)).started ∧
    ∃ d, (s.pxs (otherPx n)).burst = some d ∧ (d.link = true ∨ ∃ c, d.next = .void c)

/-- The first half of `linkVoids`: expander `n` stays as it is, and the burst beside it turns VOID or does not. -/
theorem State.linkVoid_spec {s : State} (h : s.Inv) {n : Nat} (hn : n < 16) :
    Beside s (s.linkVoid n) n ∧ ((s.linkVoid n).turnsVoid (otherPx n) = true ↔ s.alsoVoid n) := by
  have hmn := otherPx_ne n
  have hm := otherPx_lt hn
  have hturns : ∀ t : State, Beside s t n → (t.turnsVoid (otherPx n) = true ↔
      (t.pxs (otherPx n)).lastEdge = (s.pgs (n / 2)).started ∧ ∃ d c, (t.pxs (otherPx n)).burst = some d ∧ d.next = .void c) := by
    intro t ht
    unfold State.turnsVoid
    rw [otherPx_half, ht.pgs, Bool.and_eq_true, beq_iff_eq, Option.any_eq_true]
    refine and_congr_right fun _ => ⟨fun ⟨d, hd, hv⟩ => ?_, fun ⟨d, c, hd, hc⟩ => ⟨d, hd, by rw [hc]⟩⟩
    split at hv
    next c hc => exact ⟨d, c, hd, hc⟩
    next => cases hv
  unfold State.linkVoid State.alsoVoid
  dsimp only
  rw [otherPx_half]
  cases hb : (s.pxs (otherPx n)).burst with
  | none =>
    dsimp only
    have hfalse : ∀ t : State, Beside s t n → (t.pxs (otherPx n)).burst = none → (t.turnsVoid (otherPx n) = true ↔
        (s.pxs (otherPx n)).lastEdge = (s.pgs (n / 2)).started ∧ ∃ d : Burst, (none : Option Burst) = some d ∧ (d.link = true ∨ ∃ c, d.next = .void c)) := by
      intro t ht hnone
      rw [hturns t ht, hnone]
      constructor
      · rintro ⟨-, d, c, hd, -⟩
        cases hd
      · rintro ⟨-, d, hd, -⟩
        cases hd
    split
    next e _ =>
      split
      · have h₁ := Beside.setPx h hmn { s.pxs (otherPx n) with
          burst := none, ends := (s.pxs (otherPx n)).ends.dropLast ++ [{ e with cause := 6 }] }
        have h₂ := h₁.trans (Beside.setPxState h₁.inv hmn hm 4)
        have h₃ := h₂.trans (Beside.settleDiscard h₂.inv hmn hm)
        refine ⟨h₃, hfalse _ h₃ ?_⟩
        rw [State.settleDiscard_burst h₂.inv]
        exact congrArg PxSt.burst (State.pxs_setPx_self h (otherPx n) { s.pxs (otherPx n) with
          burst := none, ends := (s.pxs (otherPx n)).ends.dropLast ++ [{ e with cause := 6 }] })
      · exact ⟨.refl h n, hfalse s (.refl h n) hb⟩
    next => exact ⟨.refl h n, hfalse s (.refl h n) hb⟩
  | some d =>
    dsimp only
    cases hl : d.link with
    | false =>
      refine ⟨.refl h n, (hturns s (.refl h n)).trans (and_congr_right fun _ => ?_)⟩
      rw [hb]
      constructor
      · rintro ⟨d', c, hd, hc⟩
        cases hd
        exact ⟨d, rfl, .inr ⟨c, hc⟩⟩
      · rintro ⟨d', hd, hor⟩
        cases hd
        rcases hor with h' | ⟨c, hc⟩
        · rw [hl] at h'; cases h'
        · exact ⟨d, c, rfl, hc⟩
    | true =>
      rw [Bool.not_true, if_neg (by decide)]
      split
      next he =>
        have hself := State.pxs_setPx_self h (otherPx n)
        refine ⟨Beside.setPx h hmn _, (hturns _ (Beside.setPx h hmn _)).trans ?_⟩
        rw [hself]
        exact ⟨fun _ => ⟨he, d, rfl, .inl hl⟩, fun _ => ⟨he, _, _, rfl, rfl⟩⟩
      next he =>
        have hself := State.pxs_setPx_self h (otherPx n)
        refine ⟨Beside.setPx h hmn _, (hturns _ (Beside.setPx h hmn _)).trans ?_⟩
        rw [hself]
        exact ⟨fun ⟨he', _⟩ => absurd he' he, fun ⟨he', _⟩ => absurd he' he⟩

/-- The second half: a linked burst that a STOP has just ended ends with the lower cause 6 and discards (R255, R256). -/
theorem State.linkVoid_stopped {s t : State} {n : Nat} {b : Burst} (hu : Stopped s t n b) :
    let v := t.linkVoid (otherPx n)
    (b.link = false → v = t) ∧
    (b.link = true → (v.pxs n).burst = none ∧ (v.pxs n).queue = [] ∧ v.isArmed n = false ∧ v.mem = s.mem ∧ v.pxState n = 4 ∧
      (v.pxs n).ends = (s.pxs n).ends ++ [s.stopEnding n b 6]) := by
  intro v
  have hlast : (t.pxs n).ends.getLast? = some (s.stopEnding n b 7) := by
    rw [hu.self]
    exact List.getLast?_concat
  have hburst : (t.pxs n).burst = none := by rw [hu.self]; rfl
  have hv : v = if b.link then ((t.setPx n { t.pxs n with
      ends := (t.pxs n).ends.dropLast ++ [s.stopEnding n b 6] }).setPxState n 4).settleDiscard n
      else t := by
    unfold v State.linkVoid
    rw [otherPx_otherPx]
    dsimp only
    rw [hburst]
    dsimp only
    rw [hlast]
    dsimp only
    have hcond : ((s.stopEnding n b 7).link && (s.stopEnding n b 7).cause == 7 &&
        (s.stopEnding n b 7).first == (s.pgs (n / 2)).started) = b.link := by
      simp only [State.stopEnding, beq_self_eq_true, Bool.and_true]
    rw [hu.pgs, hcond]
    rfl
  refine ⟨fun hl => by rw [hv, hl]; rfl, fun hl => ?_⟩
  rw [hv, if_pos hl]
  have hdrop : (t.pxs n).ends.dropLast = (s.pxs n).ends := by rw [hu.self]; exact List.dropLast_concat
  have hqueue : (t.pxs n).queue = [] := by rw [hu.self]; rfl
  rw [hdrop]
  obtain ⟨p, hp⟩ : ∃ p, p = { t.pxs n with ends := (s.pxs n).ends ++ [s.stopEnding n b 6] } := ⟨_, rfl⟩
  rw [← hp]
  have hpx := hu.inv.setPx n p
  have hself := State.pxs_setPx_self hu.inv n p
  have hstate : ((t.setPx n p).setPxState n 4).pxState n = 4 := State.rf_setPxState_self hpx n (by decide)
  have hx : (((t.setPx n p).setPxState n 4).pxs n) = p := hself
  have hempty : p.queue = [] := by rw [hp]; exact hqueue
  have hsettle : ((t.setPx n p).setPxState n 4).settleDiscard n = ((t.setPx n p).setPxState n 4).setQueue n [] := by
    unfold State.settleDiscard
    rw [if_pos hstate]
    dsimp only
    rw [hx, hempty]
    rfl
  have hfour : ((t.setPx n p).setPxState n 4).Inv := (State.setPxState_keeps (.refl _) n 4).inv hpx
  obtain ⟨ths, hq⟩ := ((t.setPx n p).setPxState n 4).setQueue_eq n []
  rw [hsettle, hq]
  have harmed : ((t.setPx n p).setPxState n 4).isArmed n = false := by
    have hbit : ((t.setPx n p).setPxState n 4).bit (aPx n 0) 0 = (t.setPx n p).bit (aPx n 0) 0 :=
      State.bit_of_rd (State.rd_wf_ne (by unfold aPx; omega)) 0
    exact hbit.trans hu.disarmed
  have hfin := State.pxs_setPx_self hfour n { ((t.setPx n p).setPxState n 4).pxs n with queue := [] }
  rw [hx] at hfin ⊢
  have hnone : p.burst = none := by rw [hp]; exact hburst
  have hends := congrArg PxSt.ends hp
  exact ⟨(congrArg PxSt.burst hfin).trans hnone, congrArg PxSt.queue hfin, harmed, hu.mem, hstate,
    (congrArg PxSt.ends hfin).trans hends⟩

/-- A STOP of a burst ends it with cause 7, or with 6 where it turns VOID with the burst beside it (R237, R255, R256). -/
theorem State.stopNow_ends {s : State} (h : s.Inv) {n : Nat} (hn : n < 16) {b : Burst} (hst : s.pxState n = 3)
    (hb : (s.pxs n).burst = some b) (hv : ∀ c, b.next ≠ .void c) :
    let u := s.stopNow n
    let ended := fun c : Nat => (s.pxs n).ends ++ [s.stopEnding n b c]
    (u.pxs n).burst = none ∧ (u.pxs n).queue = [] ∧ u.isArmed n = false ∧ u.mem = s.mem ∧
    (¬(b.link = true ∧ s.alsoVoid n) → (u.pxs n).ends = ended 7 ∧ u.pxState n = 3) ∧
    (b.link = true ∧ s.alsoVoid n → (u.pxs n).ends = ended 6 ∧ u.pxState n = 4) := by
  intro u ended
  obtain ⟨hu, hothers⟩ := State.stopEnd_spec h hn hst hb
  obtain ⟨hbeside, hturns⟩ := State.linkVoid_spec hu.inv hn
  have hlinked : Stopped s ((s.stopEnd n b).linkVoid n) n b :=
    ⟨hbeside.inv, hbeside.px.trans hu.self, fun g => (hbeside.pgs g).trans (hu.pgs g), hbeside.mem.trans hu.mem,
      hbeside.state.trans hu.state, hbeside.armed.trans hu.disarmed⟩
  have halso : (s.stopEnd n b).alsoVoid n ↔ s.alsoVoid n := by
    unfold State.alsoVoid
    rw [hothers _ (otherPx_ne n).symm, hu.pgs]
  have hstop : u = if ((s.stopEnd n b).linkVoid n).turnsVoid (otherPx n) then
      ((s.stopEnd n b).linkVoid n).linkVoid (otherPx n) else (s.stopEnd n b).linkVoid n := by
    unfold u
    rw [State.stopNow_burst h hst hb]
    cases hnext : b.next with
    | algo op => rfl
    | vec codes ts last => rfl
    | void c => exact absurd hnext (hv c)
  obtain ⟨halone, hboth⟩ := State.linkVoid_stopped hlinked
  have hseven : u = (s.stopEnd n b).linkVoid n → (u.pxs n).burst = none ∧ (u.pxs n).queue = [] ∧ u.isArmed n = false ∧
      u.mem = s.mem ∧ (u.pxs n).ends = ended 7 ∧ u.pxState n = 3 := by
    intro h7
    rw [h7, hlinked.self]
    exact ⟨rfl, rfl, hlinked.disarmed, hlinked.mem, rfl, hlinked.state⟩
  by_cases ha : s.alsoVoid n
  · rw [if_pos (hturns.mpr (halso.mpr ha))] at hstop
    cases hl : b.link with
    | false =>
      obtain ⟨h₁, h₂, h₃, h₄, h₅⟩ := hseven (hstop.trans (halone hl))
      exact ⟨h₁, h₂, h₃, h₄, fun _ => h₅, fun hlink => by cases hlink.1⟩
    | true =>
      rw [← hstop] at hboth
      obtain ⟨h₁, h₂, h₃, h₄, h₅, h₆⟩ := hboth hl
      exact ⟨h₁, h₂, h₃, h₄, fun hn => absurd ⟨rfl, ha⟩ hn, fun _ => ⟨h₆, h₅⟩⟩
  · rw [if_neg fun ht => ha (halso.mp (hturns.mp ht))] at hstop
    obtain ⟨h₁, h₂, h₃, h₄, h₅⟩ := hseven hstop
    exact ⟨h₁, h₂, h₃, h₄, fun _ => h₅, fun hlink => absurd hlink.2 ha⟩

end Sys2Proof.Machine
end

section

/-! SUPPORT. Entries, fetch and STOP of an expander (O35). -/

namespace Sys2Proof.Machine

section
variable {s : State} {n : Fin 16}

/-- An entry that has crossed (R228, R230, R231). -/
theorem exec_queueEntry_run {e : W128} {rest : List W128} (hc : (s.pxs n.val).cross = e :: rest)
    (hrun : (s.pgs (n.val / 2)).run = true) : exec (.queueEntry n) s = .next (
      if s.bit (aPx n.val 8) 0 then
        ((s.setPx n.val { s.pxs n.val with cross := rest }).fetchPush n.val (fld e 0 20)).clearWaits
      else if 512 ≤ (s.pxs n.val).queue.length then s
      else (s.setPx n.val { s.pxs n.val with cross := rest }).joinQueue n.val e) := by
  refine congrArg Host.Outcome.next ?_
  unfold State.crossed
  rw [if_pos hrun]
  unfold State.arrive
  dsimp only
  rw [hc, hrun]
  rfl

/-- An entry joins the queue of an expander that does not discard (R231). -/
theorem State.joinQueue_keep {s : State} {n : Nat} (hst : s.pxState n ≠ 4) (e : W128) :
    s.joinQueue n e = s.setPx n { s.pxs n with queue := (s.pxs n).queue ++ [e] } := by
  unfold State.joinQueue
  rw [if_neg hst]

/-- The entry at the head between bursts (R236). -/
theorem exec_idleEntry {e : W128} {q : List W128} (hq : (s.pxs n.val).queue = e :: q) (hb : (s.pxs n.val).burst = none)
    (hst : s.pxState n.val ≠ 4) (hrun : (s.pgs (n.val / 2)).run = true) : exec (.idleEntry n) s = .next (
      if burstOk e then s
      else if operandOk e then ((s.setQueue n.val q).applyOperand n.val e).queueLow n.val
      else ((s.setQueue n.val q).setB (aPx n.val 0x28) 3).queueLow n.val) := by
  refine congrArg Host.Outcome.next ?_
  unfold State.idleEntry
  dsimp only
  rw [hq, hb, hrun]
  simp only [hst, Option.isSome_none, decide_false, Bool.not_true, Bool.false_or]

/-- An OPERAND entry is no BURST entry. -/
theorem burstOk_of_operandOk {e : W128} (h : operandOk e = true) : burstOk e = false := by
  unfold operandOk at h
  unfold burstOk
  simp only [Bool.and_eq_true, beq_iff_eq] at h
  have htype : (entType e == 1) = false := by
    rw [h.1.1.1.1]
    rfl
  rw [htype]
  rfl

/-- The end of a read of the fetch ring (R229). -/
theorem exec_fetchReturn {x : Xfer} (hs : s.sleeping = false) (hx : s.xferOf (.fetch n.val) = some x) :
    exec (.fetchReturn n ()) s = .next (
      if x.over && (s.pgs (n.val / 2)).run then
        if x.err.isSome then ((s.dropXfer (.fetch n.val)).setPx n.val { s.pxs n.val with fetchErr := true }).setB (aPx n.val 0x28) 2
        else ((s.dropXfer (.fetch n.val)).wr (aPx n.val 0x20)
          (BitVec.ofNat 32 ((s.rf (aPx n.val 0x20) 0 20 % s.ringSize n.val + 1) % s.ringSize n.val))).joinQueue n.val
            (BitVec.ofNat 128 (leNat x.got))
      else s) := by
  refine congrArg Host.Outcome.next ((State.awakeDo_awake hs _).trans ?_)
  unfold State.fetchReturn
  dsimp only
  rw [hx] <;> rfl

/-- An expander without a burst delivers no frame. -/
theorem State.frame_idle {s : State} {n : Nat} (hb : (s.pxs n).burst = none) : s.frame n = s := by
  have hmay : s.mayFrame n = false := by
    unfold State.mayFrame
    dsimp only
    rw [hb, Option.isSome_none, Bool.and_false, Bool.false_and]
  unfold State.frame
  rw [hmay, Bool.not_false, if_pos rfl]

theorem exec_flush (hs : s.sleeping = false) :
    exec (.flush n) s = .next ((s.mgmtIn (aPx n.val 0) true).pxFlush n.val) :=
  congrArg Host.Outcome.next (State.mgmtDo_awake hs _ _ _)

theorem exec_stop (hs : s.sleeping = false) :
    exec (.stop n) s = .next ((s.mgmtIn (aPx n.val 0) true).pxStop n.val) :=
  congrArg Host.Outcome.next (State.mgmtDo_awake hs _ _ _)

end

/-- Settles O35: entries and fetches act as their equations say, and a STOP ends what it finds, the burst beside it included. -/
theorem expanderQueues : Obligations.ExpanderQueues := by
  unfold Obligations.ExpanderQueues
  intro s n p run
  have hn := n.isLt
  have hpst : (s.mgmtIn (aPx n.val 0) true).pxState n.val = s.pxState n.val := State.rf_congr (State.mgmtIn_regs _ _ _) _ _ _
  have hpxs : (s.mgmtIn (aPx n.val 0) true).pxs n.val = s.pxs n.val := rfl
  have hpx : ((s.mgmtIn (aPx n.val 0) true).pxs n.val).burst = p.burst := rfl
  refine ⟨fun e rest hc hrun => ⟨fun hmode hroom hst h => ?_, fun hmode hfull => ?_, fun hmode => ?_⟩, fun hrun => ?_,
    fun e q hq hb hst hrun => ⟨fun hok => ?_, fun hop => ?_, fun hnb hno => ?_⟩, fun x hs hx => ?_, fun hs hst => ?_,
    fun hs hst => ?_, fun hs hst hb h => ?_, fun hs hedge => ?_, fun b c hs hedge hst hb hv h => ?_, ?_,
    fun b hs hedge hst hb hv h => ?_⟩
  · have hroom' : ¬512 ≤ (s.pxs n.val).queue.length := Nat.not_le.mpr hroom
    rw [exec_queueEntry_run hc hrun, hmode, if_neg (by decide), if_neg hroom']
    have hst' : (s.setPx n.val { p with cross := rest }).pxState n.val ≠ 4 := hst
    rw [State.joinQueue_keep hst', State.pxs_setPx_self h, State.setPx_setPx h]
  · rw [exec_queueEntry_run hc hrun, hmode, if_neg (by decide), if_pos hfull]
  · rw [exec_queueEntry_run hc hrun, hmode, if_pos rfl]
  · refine congrArg Host.Outcome.next ?_
    unfold State.crossed
    rw [show (s.pgs (n.val / 2)).run = false from hrun]
    rfl
  · rw [exec_idleEntry hq hb hst hrun, if_pos hok]
  · rw [exec_idleEntry hq hb hst hrun, burstOk_of_operandOk hop, if_neg (by decide), if_pos hop]
  · rw [exec_idleEntry hq hb hst hrun, hnb, hno]
    rfl
  · intro get t
    rw [exec_fetchReturn hs hx]
    refine ⟨fun hover => by rw [if_neg (by rw [hover]; decide)], fun hover hrun herr hst => ?_, fun hover hrun herr => ?_⟩
    · have hst' : (t.wr (aPx n.val 0x20) (BitVec.ofNat 32 ((get + 1) % s.ringSize n.val))).pxState n.val ≠ 4 := by
        rw [State.pxState, State.rf_of_rd (s := t) (State.rd_wr_ne (by unfold aPx; omega))]
        exact hst
      rw [if_pos (by rw [hover]; exact hrun), herr, if_neg (by decide), State.joinQueue_keep hst']
      rfl
    · rw [if_pos (by rw [hover]; exact hrun), if_pos (Option.isSome_iff_ne_none.mpr herr)]
  · rw [exec_flush hs, State.pxFlush, if_pos (hpst.trans hst)]
  · rw [exec_flush hs, State.pxFlush, if_neg (fun h0 => hst (hpst.symm.trans h0))]
  · have hidle := State.stopNow_idle (State.Inv.mgmtIn h (aPx n.val 0) true) (n := n.val) (by rw [hpst]; exact hst)
    refine ⟨_, exec_stop hs, ?_⟩
    rw [State.pxStop, State.frame_idle (hpx.trans hb), ite_self]
    exact hidle
  · rw [exec_stop hs, State.pxStop, if_neg (by rw [hpxs]; exact hedge)]
  · obtain hq := State.quieted_spec (State.Inv.mgmtIn h (aPx n.val 0) true) n.val
    refine ⟨_, exec_stop hs, ?_⟩
    rw [State.pxStop, if_pos (by rw [hpxs]; exact hedge), State.stopNow_burst (State.Inv.mgmtIn h _ _) (hpst.trans hst) (hpx.trans hb), hv]
    refine ⟨?_, ?_, ?_, hq.disarmed, ?_⟩
    · rw [hq.self, hpxs]; exact hb
    · rw [hq.self]
    · rw [hq.self, hpxs]
    · rw [hq.frame]; rfl
  · intro m t
    have hlow : s.queueLow n.val = if m != 0 && decide (m ≤ p.low) && decide (p.queue.length < m) then
        t.post (rkPx n.val) (some (t.rf (aPx n.val 0xC) 0 16)) 2 n.val else t := rfl
    rw [hlow]
    refine ⟨fun h0 hle hlt => ?_, fun hor => ?_⟩
    · rw [if_pos (by simp only [bne_iff_ne, Bool.and_eq_true, decide_eq_true_eq]; exact ⟨⟨h0, hle⟩, hlt⟩)]
      rfl
    · rw [if_neg]
      simp only [bne_iff_ne, Bool.and_eq_true, decide_eq_true_eq]
      omega
  · intro o both ended
    obtain ⟨h₁, h₂, h₃, h₄, h₅, h₆⟩ := State.stopNow_ends (State.Inv.mgmtIn h (aPx n.val 0) true) hn (hpst.trans hst)
      (hpx.trans hb) hv
    have halso : b.link = true ∧ (s.mgmtIn (aPx n.val 0) true).alsoVoid n.val ↔ both := Iff.rfl
    refine ⟨_, exec_stop hs, ?_⟩
    rw [State.pxStop, if_pos (by rw [hpxs]; exact hedge)]
    exact ⟨h₁, h₂, h₃, h₄, fun hboth => h₅ fun hl => hboth (halso.mp hl), fun hboth => h₆ (halso.mpr hboth)⟩

end Sys2Proof.Machine
end

section

/-! SUPPORT. The frame that a burst takes next, and the start of a burst (O36). -/

namespace Sys2Proof.Machine

/-- Two bursts of the same entry. -/
def Burst.Same (b b' : Burst) : Prop :=
  b'.mode = b.mode ∧ b'.link = b.link ∧ b'.task = b.task ∧ b'.fetched = b.fetched

theorem Burst.Same.trans {a b c : Burst} (h₁ : a.Same b) (h₂ : b.Same c) : a.Same c :=
  ⟨h₂.1.trans h₁.1, h₂.2.1.trans h₁.2.1, h₂.2.2.1.trans h₁.2.2.1, h₂.2.2.2.trans h₁.2.2.2⟩

/-- Everything but expander `n`, and the registers of expanders from 0x28 on, is as it was. -/
structure Around (s t : State) (n : Nat) : Prop where
  inv : t.Inv
  pgs : ∀ g, t.pgs g = s.pgs g
  mem : t.mem = s.mem
  tasks : t.tasks = s.tasks
  rd : ∀ o < 0x10000, o ≠ 0x28 → t.rd (aPx n o) = s.rd (aPx n o)
  far : ∀ a, 0x300000 ≤ a → t.rd a = s.rd a
  lanes : t.lanes = s.lanes

theorem Around.refl {s : State} (h : s.Inv) (n : Nat) : Around s s n :=
  ⟨h, fun _ => rfl, rfl, rfl, fun _ _ _ => rfl, fun _ _ => rfl, rfl⟩

theorem Around.trans {s t u : State} {n : Nat} (h₁ : Around s t n) (h₂ : Around t u n) : Around s u n :=
  ⟨h₂.inv, fun g => (h₂.pgs g).trans (h₁.pgs g), h₂.mem.trans h₁.mem, h₂.tasks.trans h₁.tasks,
    fun o ho h28 => (h₂.rd o ho h28).trans (h₁.rd o ho h28), fun a ha => (h₂.far a ha).trans (h₁.far a ha), h₂.lanes.trans h₁.lanes⟩

theorem Beside.around {s t : State} {n : Nat} (h : Beside s t n) : Around s t n :=
  ⟨h.inv, h.pgs, h.mem, h.tasks, fun o ho _ => h.rd o ho, h.far, h.lanes⟩

section
variable {s : State} (h : s.Inv) {n : Nat}
include h

theorem Around.setPx (v : PxSt) : Around s (s.setPx n v) n :=
  ⟨h.setPx n v, fun _ => rfl, rfl, rfl, fun _ _ _ => rfl, fun _ _ => rfl, rfl⟩

theorem Around.setQueue (q : List W128) : Around s (s.setQueue n q) n := by
  have hinv := h.setQueue n q
  obtain ⟨ths, hq⟩ := s.setQueue_eq n q
  rw [hq] at hinv ⊢
  exact ⟨hinv, fun _ => rfl, rfl, rfl, fun _ _ _ => rfl, fun _ _ => rfl, rfl⟩

theorem Around.setSticky (hn : n < 16) (k : Nat) : Around s (s.setB (aPx n 0x28) k) n :=
  ⟨(State.setB_keeps (.refl s) _ _).inv h, fun _ => rfl, rfl, rfl, fun o ho h28 => State.rd_wf_ne (by unfold aPx; omega),
    fun a ha => State.rd_wf_ne (by unfold aPx; omega), rfl⟩

theorem State.pxs_setQueue_self (q : List W128) : (s.setQueue n q).pxs n = { s.pxs n with queue := q } := by
  obtain ⟨ths, hq⟩ := s.setQueue_eq n q
  rw [hq]
  exact State.pxs_setPx_self h n _

theorem Around.queueLow : Around s (s.queueLow n) n := by
  unfold State.queueLow
  dsimp only
  have hset := Around.setPx h (n := n) { s.pxs n with low := (s.pxs n).queue.length }
  split
  · exact hset.trans ⟨(State.post_keeps (.refl _) _ _ _ _).inv hset.inv, fun _ => rfl, rfl, rfl, fun _ _ _ => rfl, fun _ _ => rfl, rfl⟩
  · exact hset

theorem State.pxs_queueLow_self : (s.queueLow n).pxs n = { s.pxs n with low := (s.pxs n).queue.length } := by
  have hself := State.pxs_setPx_self h n { s.pxs n with low := (s.pxs n).queue.length }
  unfold State.queueLow
  dsimp only
  split
  · exact hself
  · exact hself

end

/- A burst beside another ------------------------------------------------------------------------------------------------- -/

/-- A burst that goes on, of an expander of which nothing else changes. -/
def GoesOn (s t : State) (n : Nat) (b : Burst) : Prop :=
  Around s t n ∧ ∃ b', b.Same b' ∧ t.pxs n = { s.pxs n with burst := some b' }

/-- The burst beside one that turns VOID goes on, as the same burst (R255). -/
theorem State.linkVoid_goesOn {s : State} (h : s.Inv) {n m : Nat} (hm : otherPx m = n) {b : Burst}
    (hb : (s.pxs n).burst = some b) : GoesOn s (s.linkVoid m) n b := by
  have hset : ∀ b' : Burst, b.Same b' → GoesOn s (s.setPx n { s.pxs n with burst := some b' }) n b := fun b' hsame =>
    ⟨Around.setPx h _, b', hsame, State.pxs_setPx_self h n _⟩
  have hsame : b.Same b := ⟨rfl, rfl, rfl, rfl⟩
  have hstay : GoesOn s s n b := ⟨.refl h n, b, hsame, by rw [← hb]⟩
  unfold State.linkVoid
  rw [hm]
  dsimp only
  rw [hb]
  dsimp only
  split
  · exact hstay
  · split
    · exact hset _ hsame
    · exact hset _ hsame

/-- Both directions of a link leave a burst that goes on (R255, R256). -/
theorem State.linkVoids_goesOn {s : State} (h : s.Inv) {n : Nat} (hn : n < 16) {b : Burst} (hb : (s.pxs n).burst = some b) :
    GoesOn s (s.linkVoids n) n b := by
  have hbeside := (State.linkVoid_spec h hn).1
  have hfirst : GoesOn s (s.linkVoid n) n b :=
    ⟨hbeside.around, b, ⟨rfl, rfl, rfl, rfl⟩, by rw [hbeside.px, ← hb]⟩
  unfold State.linkVoids
  dsimp only
  split
  · obtain ⟨haround, b', hsame, hpx⟩ := State.linkVoid_goesOn hbeside.inv (otherPx_otherPx n) (hbeside.px ▸ hb)
    exact ⟨hbeside.around.trans haround, b', hsame, hpx.trans (by rw [hbeside.px])⟩
  · exact hfirst

/- The next frame --------------------------------------------------------------------------------------------------------- -/

/-- What a burst takes for its next frame leaves it the same burst; only a vector stream can be over (R253). -/
theorem State.nextOf_same (s : State) (n : Nat) (b : Burst) :
    b.Same (s.nextOf n b).1 ∧ (∀ codes ts last, (s.nextOf n b).1.next = .vec codes ts last → b.mode ≠ 0) := by
  unfold State.nextOf
  by_cases hm : b.mode = 0
  · rw [if_pos hm]
    refine ⟨⟨rfl, rfl, rfl, rfl⟩, fun codes ts last hv => ?_⟩
    have hne : ∀ (c : Prop) [Decidable c] (op : Option W128) (k : Nat),
        (if c then NextFrame.algo op else .void k) ≠ .vec codes ts last := by
      intro c _ op k
      split <;> exact nofun
    exact absurd hv (hne _ _ _)
  · rw [if_neg hm]
    exact ⟨⟨rfl, rfl, rfl, rfl⟩, fun _ _ _ _ => hm⟩

/-- The entries of the next frame are taken: the burst goes on, or a vector stream of no further frame has ended with cause 0. -/
def TookNext (s t : State) (n : Nat) (b : Burst) : Prop :=
  Around s t n ∧ ∃ q x e, t.pxs n = { s.pxs n with queue := q, burst := x, ends := e } ∧
    ((∃ b', x = some b' ∧ b.Same b' ∧ e = (s.pxs n).ends) ∨
     (b.mode ≠ 0 ∧ x = none ∧ ∃ y : Ending, e = (s.pxs n).ends ++ [y] ∧ y.cause = 0 ∧ y.task = b.task))

theorem State.takeNext_spec {s : State} (h : s.Inv) {n : Nat} (hn : n < 16) {b : Burst} (hb : (s.pxs n).burst = some b) :
    TookNext s (s.takeNext n) n b := by
  obtain ⟨hsame, hmode⟩ := s.nextOf_same n b
  obtain ⟨q, hq⟩ : ∃ q, q = s.nextOf n b := ⟨_, rfl⟩
  rw [← hq] at hsame hmode
  have hset := Around.setPx h (n := n) { s.pxs n with burst := some q.1 }
  have hqueue := hset.trans (Around.setQueue hset.inv q.2.1)
  have hpx : ((s.setPx n { s.pxs n with burst := some q.1 }).setQueue n q.2.1).pxs n =
      { s.pxs n with burst := some q.1, queue := q.2.1 } := by
    rw [State.pxs_setQueue_self hset.inv, State.pxs_setPx_self h]
  obtain ⟨s2, hs2⟩ : ∃ s2, s2 = if q.2.2 then ((s.setPx n { s.pxs n with burst := some q.1 }).setQueue n q.2.1).setB (aPx n 0x28) 4
      else (s.setPx n { s.pxs n with burst := some q.1 }).setQueue n q.2.1 := ⟨_, rfl⟩
  have htake : s.takeNext n = match q.1.next with
      | .void _ => s2.linkVoids n
      | .vec [] _ true => s2.endBurst n 0 ((s2.pgs (n / 2)).started + 1)
      | _ => s2 := by
    unfold State.takeNext
    rw [hb]
    dsimp only
    rw [← hq, ← hs2] <;> rfl
  have hs2' : Around s s2 n ∧ s2.pxs n = { s.pxs n with burst := some q.1, queue := q.2.1 } := by
    rw [hs2]
    split
    · exact ⟨hqueue.trans (Around.setSticky hqueue.inv hn 4), hpx⟩
    · exact ⟨hqueue, hpx⟩
  obtain ⟨haround, hpx2⟩ := hs2'
  have hgo : TookNext s s2 n b := ⟨haround, q.2.1, some q.1, _, hpx2, .inl ⟨q.1, rfl, hsame, rfl⟩⟩
  rw [htake]
  split
  · have hburst : (s2.pxs n).burst = some q.1 := by rw [hpx2]
    obtain ⟨hlink, b', hsame', hpx'⟩ := State.linkVoids_goesOn haround.inv hn hburst
    refine ⟨haround.trans hlink, q.2.1, some b', (s.pxs n).ends, ?_, .inl ⟨b', rfl, hsame.trans hsame', rfl⟩⟩
    rw [hpx', hpx2]
  next ts hnext =>
    have hburst : (s2.pxs n).burst = some q.1 := by rw [hpx2]
    obtain ⟨y, hy⟩ : ∃ y : Ending, y = ⟨q.1.task, q.1.fetched, q.1.link, 0, (s2.pgs (n / 2)).started + 1 - 1,
      (s2.pgs (n / 2)).started + 1 + (31 + s2.rf (aPg (n / 2) 8) 0 16) / 32⟩ := ⟨_, rfl⟩
    have hend : s2.endBurst n 0 ((s2.pgs (n / 2)).started + 1) =
        s2.setPx n { s2.pxs n with burst := none, ends := (s2.pxs n).ends ++ [y] } := by
      unfold State.endBurst
      dsimp only
      rw [hburst, hy]
    rw [hend]
    refine ⟨haround.trans (Around.setPx haround.inv _), q.2.1, none, (s.pxs n).ends ++ [y], ?_,
      .inr ⟨hmode _ _ _ hnext, rfl, y, rfl, by rw [hy], by rw [hy]; exact hsame.2.2.1⟩⟩
    rw [State.pxs_setPx_self haround.inv, hpx2]
  · exact hgo

/- The start of a burst ----------------------------------------------------------------------------------------------------- -/

/-- The burst of entry `e`, before its first frame is taken. -/
def State.newBurst (s : State) (n : Nat) (e : W128) : Burst :=
  { mode := fld e 12 2, link := e.getLsbD 14, task := fld e 96 16, fetched := s.bit (aPx n 8) 0, rep := none, seqEnd := false,
    segs := [], vloop := none, hist := [], next := .algo none, linkDue := false }

/-- The state in which the first frame of a new burst is taken: state BURST, the mode and the program counter of its entry (R233). -/
def State.inBurst (s : State) (n : Nat) (e : W128) (q : List W128) : State :=
  let p := s.pxs n
  let s1 := if s.pxState n = 2 then s.mapHolds (Hold.left n true) else s
  let s2 := if p.take then s1.clrB (aPx n 0) 0 else s1
  let s3 := s2.setPx n { p with burst := some (s.newBurst n e), dbi := 0, take := false, lastEdge := (s.pgs (n / 2)).started }
  (((s3.wr (aPx n 0x50) (BitVec.ofNat 32 (fld e 0 12))).wf (aPx n 4) 4 2 (fld e 12 2)).setPxState n 3).setQueue n q

theorem State.beginBurst_eq (s : State) (n : Nat) (e : W128) (q : List W128) : s.beginBurst n e q =
    if (((s.inBurst n e q).takeNext n).queueLow n).trainsOn n then (((s.inBurst n e q).takeNext n).queueLow n).stopNow n
    else ((s.inBurst n e q).takeNext n).queueLow n := rfl

/-- What `inBurst` leaves. -/
structure InBurst (s t : State) (n : Nat) (e : W128) (q : List W128) : Prop where
  inv : t.Inv
  px : t.pxs n = { s.pxs n with queue := q, burst := some (s.newBurst n e), dbi := 0, take := false, lastEdge := (s.pgs (n / 2)).started }
  mem : t.mem = s.mem
  far : ∀ a, 0x300000 ≤ a → t.rd a = s.rd a
  lanes : t.lanes = s.lanes
  mode : t.rf (aPx n 4) 4 2 = fld e 12 2
  state : t.pxState n = 3
  pc : t.rd (aPx n 0x50) = BitVec.ofNat 32 (fld e 0 12)

theorem State.inBurst_spec {s : State} (h : s.Inv) {n : Nat} (hn : n < 16) (e : W128) (q : List W128) :
    InBurst s (s.inBurst n e q) n e q := by
  obtain ⟨s1, hs1⟩ : ∃ s1, s1 = if s.pxState n = 2 then s.mapHolds (Hold.left n true) else s := ⟨_, rfl⟩
  obtain ⟨s2, hs2⟩ : ∃ s2, s2 = if (s.pxs n).take then s1.clrB (aPx n 0) 0 else s1 := ⟨_, rfl⟩
  have hk1 : s1.Inv ∧ s1.mem = s.mem ∧ (∀ a, s1.rd a = s.rd a) ∧ s1.lanes = s.lanes := by
    rw [hs1]
    split
    · exact ⟨(State.mapHolds_keeps (.refl s) _).inv h, rfl, fun _ => rfl, rfl⟩
    · exact ⟨h, rfl, fun _ => rfl, rfl⟩
  obtain ⟨hinv1, hmem1, hrd1, hlanes1⟩ := hk1
  have hk2 : s2.Inv ∧ s2.mem = s.mem ∧ (∀ a, 0x300000 ≤ a → s2.rd a = s.rd a) ∧ s2.lanes = s.lanes := by
    rw [hs2]
    split
    · exact ⟨(State.clrB_keeps (.refl s1) _ _).inv hinv1, hmem1,
        fun a ha => (State.rd_wf_ne (by unfold aPx; omega)).trans (hrd1 a), hlanes1⟩
    · exact ⟨hinv1, hmem1, fun a _ => hrd1 a, hlanes1⟩
  obtain ⟨hinv2, hmem2, hfar2, hlanes2⟩ := hk2
  obtain ⟨p, hp⟩ : ∃ p : PxSt, p = { s.pxs n with
    burst := some (s.newBurst n e), dbi := 0, take := false, lastEdge := (s.pgs (n / 2)).started } := ⟨_, rfl⟩
  have hinv3 := hinv2.setPx n p
  have hpx3 := State.pxs_setPx_self hinv2 n p
  obtain ⟨s4, hs4⟩ : ∃ s4, s4 = ((s2.setPx n p).wr (aPx n 0x50) (BitVec.ofNat 32 (fld e 0 12))).wf (aPx n 4) 4 2 (fld e 12 2) := ⟨_, rfl⟩
  have hinv50 : ((s2.setPx n p).wr (aPx n 0x50) (BitVec.ofNat 32 (fld e 0 12))).Inv := (State.wr_keeps (.refl _) _ _).inv hinv3
  have hinv4 : s4.Inv := by rw [hs4]; exact (State.wf_keeps (.refl _) _ _ _ _).inv hinv50
  have hmode4 : s4.rf (aPx n 4) 4 2 = fld e 12 2 := by
    rw [hs4, State.rf_wf_self hinv50.regs (aPx n 4) _ (by decide)]
    exact Nat.mod_eq_of_lt (Nat.mod_lt _ (by decide))
  have hpc4 : s4.rd (aPx n 0x50) = BitVec.ofNat 32 (fld e 0 12) := by
    rw [hs4, State.rd_wf_ne (by unfold aPx; omega), State.rd_wr_self hinv3.regs]
  have hfar4 : ∀ a, 0x300000 ≤ a → s4.rd a = s.rd a := fun a ha => by
    rw [hs4, State.rd_wf_ne (by unfold aPx; omega), State.rd_wr_ne (by unfold aPx; omega)]
    exact hfar2 a ha
  have hpx4 : s4.pxs n = p := by rw [hs4]; exact hpx3
  have hmem4 : s4.mem = s.mem := by rw [hs4]; exact hmem2
  have hlanes4 : s4.lanes = s.lanes := by rw [hs4]; exact hlanes2
  have hbegun : s.inBurst n e q = (s4.setPxState n 3).setQueue n q := by
    rw [hs4, hp, hs2, hs1]
    rfl
  have hinv5 : (s4.setPxState n 3).Inv := (State.setPxState_keeps (.refl _) n 3).inv hinv4
  have haround := Around.setQueue hinv5 (n := n) q
  rw [hbegun]
  refine ⟨haround.inv, ?_, haround.mem.trans hmem4, fun a ha => (haround.far a ha).trans ?_, haround.lanes.trans hlanes4, ?_, ?_, ?_⟩
  · rw [State.pxs_setQueue_self hinv5, show (s4.setPxState n 3).pxs n = s4.pxs n from rfl, hpx4, hp]
  · rw [State.setPxState, State.rd_wf_ne (by unfold aPx; omega)]
    exact hfar4 a ha
  · rw [State.rf_of_rd (haround.rd 4 (by decide) (by decide)), State.setPxState, State.rf_wf_disjoint hinv4.regs _ _ (by decide)]
    exact hmode4
  · rw [State.pxState, State.rf_of_rd (haround.rd 4 (by decide) (by decide))]
    exact State.rf_setPxState_self hinv4 n (by decide)
  · rw [haround.rd 0x50 (by decide) (by decide), State.setPxState, State.rd_wf_ne (by unfold aPx; omega)]
    exact hpc4

end Sys2Proof.Machine
end

section

/-! SUPPORT. The release of a test start (O36). -/

namespace Sys2Proof.Machine

/- The release ------------------------------------------------------------------------------------------------------------- -/

/-- A released site runs, and START is raised for it (R17, R186). -/
def State.runSite (s : State) (i : Nat) : State := (s.wf (aSite i 0x14) 0 3 2).post rkSite none 0 i

/-- An armed expander may take its BURST (R234). -/
def State.letBegin (s : State) (n : Nat) : State := s.setPx n { s.pxs n with take := true }

theorem State.releaseStart_eq (s : State) : s.releaseStart = ((List.range 256).filter fun i => s.siteState i == 1).foldl
    State.runSite (s.armedPx.foldl State.letBegin { s with startReq := false }) := rfl

theorem State.foldl_letBegin_frame (l : List Nat) (s : State) :
    l.foldl State.letBegin s = { s with px := (l.foldl State.letBegin s).px } := by
  induction l generalizing s with
  | nil => rfl
  | cons n l ih => rw [List.foldl_cons, ih]; rfl

theorem State.foldl_runSite_frame (l : List Nat) (s : State) :
    l.foldl State.runSite s = { s with regs := (l.foldl State.runSite s).regs, evq := (l.foldl State.runSite s).evq } := by
  induction l generalizing s with
  | nil => rfl
  | cons i l ih => rw [List.foldl_cons, ih]; rfl

/-- The expanders that are let begin have `take`. -/
theorem State.foldl_letBegin_take {s : State} (h : s.Inv) {l : List Nat} {n : Nat} (hn : n ∈ l ∨ (s.pxs n).take = true) :
    ((l.foldl State.letBegin s).pxs n).take = true := by
  induction l generalizing s with
  | nil => exact hn.resolve_left List.not_mem_nil
  | cons m l ih =>
    rw [List.foldl_cons]
    refine ih (h.setPx m _) ?_
    rcases eq_or_ne n m with rfl | hnm
    · exact .inr (congrArg PxSt.take (State.pxs_setPx_self h n { s.pxs n with take := true }))
    · rcases hn with hn | hn
      · exact .inl ((List.mem_cons.mp hn).resolve_left hnm)
      · exact .inr ((congrArg PxSt.take (State.pxs_setPx_ne hnm _)).trans hn)

theorem State.rd_runSite (s : State) (i a : Nat) : (s.runSite i).rd a = (s.wf (aSite i 0x14) 0 3 2).rd a :=
  State.rd_congr (by rw [State.runSite, State.post_regs]) a

/-- The sites that are released run, and no other is touched. -/
theorem State.foldl_runSite_state {s : State} (h : s.Inv) (l : List Nat) (i : Nat) :
    (i ∈ l → (l.foldl State.runSite s).siteState i = 2) ∧
    (i ∉ l → (l.foldl State.runSite s).rd (aSite i 0x14) = s.rd (aSite i 0x14)) := by
  induction l generalizing s with
  | nil => exact ⟨nofun, fun _ => rfl⟩
  | cons j l ih =>
    have hone : (s.runSite j).Inv := (State.post_keeps (State.wf_keeps (.refl s) _ _ _ _) _ _ _ _).inv h
    obtain ⟨hin, hout⟩ := ih hone
    have hself : (s.runSite i).siteState i = 2 := by
      rw [State.siteState, State.rf_of_rd (s.rd_runSite i _), State.rf_wf_self h.regs (aSite i 0x14) 2 (by decide)]
      decide
    rw [List.foldl_cons]
    refine ⟨fun hi => ?_, fun hi => ?_⟩
    · by_cases hil : i ∈ l
      · exact hin hil
      · have hij : i = j := (List.mem_cons.mp hi).resolve_right hil
        subst hij
        exact (State.rf_of_rd (hout hil) 0 3).trans hself
    · rw [List.mem_cons, not_or] at hi
      have hij := hi.1
      rw [hout hi.2, s.rd_runSite, State.rd_wf_ne (by unfold aSite; omega)]

/-- The release withdraws the request, runs the armed sites and lets the armed expanders begin. -/
theorem State.releaseStart_spec {s : State} (h : s.Inv) : s.releaseStart.startReq = false ∧
    (∀ i : Fin 256, s.siteState i.val = 1 → s.releaseStart.siteState i.val = 2) ∧
    (∀ i : Fin 256, s.siteState i.val ≠ 1 → s.releaseStart.rd (aSite i.val 0x14) = s.rd (aSite i.val 0x14)) ∧
    (∀ n : Fin 16, s.isArmed n.val = true → (s.releaseStart.pxs n.val).take = true) := by
  have hreq : ({ s with startReq := false } : State).Inv := (State.Keeps.frame (.refl s)).inv h
  have hframe := State.foldl_letBegin_frame s.armedPx { s with startReq := false }
  have hpx : (s.armedPx.foldl State.letBegin { s with startReq := false }).Inv := by
    have hall : ∀ (l : List Nat) (u : State), u.Inv → (l.foldl State.letBegin u).Inv := by
      intro l
      induction l with
      | nil => exact fun _ hu => hu
      | cons n l ih => exact fun u hu => ih _ (hu.setPx n _)
    exact hall _ _ hreq
  have htake := fun n hn => State.foldl_letBegin_take hreq (l := s.armedPx) (n := n) (.inl hn)
  rw [State.releaseStart_eq]
  obtain ⟨u, hu⟩ : ∃ u, u = s.armedPx.foldl State.letBegin { s with startReq := false } := ⟨_, rfl⟩
  rw [← hu] at hframe hpx htake ⊢
  have hsites := State.foldl_runSite_state hpx ((List.range 256).filter fun i => s.siteState i == 1)
  have hrframe := State.foldl_runSite_frame ((List.range 256).filter fun i => s.siteState i == 1) u
  have hmem : ∀ i : Fin 256, i.val ∈ (List.range 256).filter (fun i => s.siteState i == 1) ↔ s.siteState i.val = 1 := fun i => by
    rw [List.mem_filter, List.mem_range, beq_iff_eq]
    exact and_iff_right i.isLt
  refine ⟨?_, fun i hi => (hsites i.val).1 ((hmem i).mpr hi), fun i hi => ?_, fun n hn => ?_⟩
  · rw [hrframe, hframe]
  · refine ((hsites i.val).2 fun hi' => hi ((hmem i).mp hi')).trans ?_
    rw [hframe]
    rfl
  · have hin : n.val ∈ s.armedPx := List.mem_filter.mpr ⟨List.mem_range.mpr n.isLt, hn⟩
    have htake' := htake n.val hin
    rw [State.pxs_congr (s := u) (by rw [hrframe])]
    exact htake'

/-- Whether a lane of an expander trains depends on the lanes, their registers and the group's alone. -/
theorem State.trainsOn_congr {s t : State} {n : Nat} (hfar : ∀ a, 0x300000 ≤ a → t.rd a = s.rd a) (hl : t.lanes = s.lanes) :
    t.trainsOn n = s.trainsOn n := by
  have howns : t.ownLanes n true = s.ownLanes n true := by
    have hl : ∀ l, t.owns n l = s.owns n l := fun l => by
      rw [State.owns, State.bit_of_rd (hfar (aPg (n / 2) 0) (by unfold aPg; omega))]
      rfl
    simp only [State.ownLanes, hl, Bool.true_or, Bool.and_true]
  unfold State.trainsOn
  rw [howns]
  refine congrArg (fun f => List.any _ f) (funext fun l => ?_)
  have hlane : t.lane (8 * (n / 2) + l) = s.lane (8 * (n / 2) + l) := by rw [State.lane, hl]; rfl
  rw [hlane, State.rf_of_rd (hfar (aLn (8 * (n / 2) + l) 0x14) (by unfold aLn; omega))]

/-- Settles O36: the release runs over the armed sites and expanders; a burst that begins is the burst of its entry, whatever its first
frame turns out to be. -/
theorem startsOfBursts : Obligations.StartsOfBursts := by
  unfold Obligations.StartsOfBursts
  refine ⟨fun s => ⟨fun hq => ?_, fun hq hj => ?_, fun hq hj => ?_⟩, fun s h => State.releaseStart_spec h, fun s n e q hq => ?_⟩
  · refine congrArg (fun u => Host.Outcome.next (State.poll u)) ?_
    rw [State.startRelease, hq, Bool.not_false, if_pos rfl]
  · refine congrArg (fun u => Host.Outcome.next (State.poll u)) ?_
    rw [State.startRelease, hq, hj, Bool.not_true, if_neg (by decide), if_pos rfl]
  · refine congrArg (fun u => Host.Outcome.next (State.poll u)) ?_
    rw [State.startRelease, hq, hj, Bool.not_true, if_neg (by decide), if_neg (by decide)]
    rfl
  · have hn := n.isLt
    have hexec : exec (.burstStart n) s = .next (if s.mayStart n.val then s.beginBurst n.val e q else s) := by
      refine congrArg Host.Outcome.next ?_
      unfold State.burstStart
      rw [hq]
    obtain ⟨t, ht⟩ : ∃ t, t = ((s.inBurst n.val e q).takeNext n.val).queueLow n.val := ⟨_, rfl⟩
    have hbegun : s.Inv → InBurst s (s.inBurst n.val e q) n.val e q := fun h => State.inBurst_spec h hn e q
    have htook : s.Inv → TookNext (s.inBurst n.val e q) ((s.inBurst n.val e q).takeNext n.val) n.val (s.newBurst n.val e) := fun h =>
      State.takeNext_spec (hbegun h).inv hn (by rw [(hbegun h).px])
    have haround : s.Inv → Around (s.inBurst n.val e q) t n.val := fun h => by
      rw [ht]
      exact (htook h).1.trans (Around.queueLow (htook h).1.inv)
    have htrains : s.Inv → t.trainsOn n.val = s.trainsOn n.val := fun h =>
      State.trainsOn_congr (fun a ha => ((haround h).far a ha).trans ((hbegun h).far a ha)) ((haround h).lanes.trans (hbegun h).lanes)
    have hstate : s.Inv → t.pxState n.val = 3 := fun h =>
      (State.rf_of_rd ((haround h).rd 4 (by decide) (by decide)) _ _).trans (hbegun h).state
    have hfirst : s.Inv → ((∃ b', (t.pxs n.val).burst = some b' ∧ (s.newBurst n.val e).Same b') ∨
        ((s.newBurst n.val e).mode ≠ 0 ∧ (t.pxs n.val).burst = none ∧ ∃ y : Ending, (t.pxs n.val).ends = (s.pxs n.val).ends ++ [y] ∧
          y.cause = 0 ∧ y.task = (s.newBurst n.val e).task)) ∧ (t.pxs n.val).take = false := fun h => by
      obtain ⟨haround', q', x, ends, hpx, hor⟩ := htook h
      rw [ht, State.pxs_queueLow_self haround'.inv, hpx, (hbegun h).px]
      rw [(hbegun h).px] at hor
      refine ⟨?_, rfl⟩
      rcases hor with ⟨b', hx, hsame, -⟩ | hend
      · exact .inl ⟨b', hx, hsame⟩
      · exact .inr hend
    refine ⟨fun hmay => by rw [hexec, hmay]; rfl, fun hmay htr h => ⟨t, ?_, hstate h, (haround h).mem.trans (hbegun h).mem⟩,
      fun hmay htr h => ⟨t, ?_, ?_, ?_, hstate h, ?_, ?_, (haround h).mem.trans (hbegun h).mem⟩⟩
    · rw [hexec, hmay, if_pos rfl, State.beginBurst_eq, ← ht, htrains h, htr, if_pos rfl]
    · rw [hexec, hmay, if_pos rfl, State.beginBurst_eq, ← ht, htrains h, htr, if_neg (by decide)]
    · rcases (hfirst h).1 with ⟨b', hx, hmode, hlink, htask, -⟩ | hend
      · exact .inl ⟨b', hx, hmode, hlink, htask⟩
      · exact .inr hend
    · exact (State.rf_of_rd ((haround h).rd 4 (by decide) (by decide)) _ _).trans (hbegun h).mode
    · exact ((haround h).rd 0x50 (by decide) (by decide)).trans (hbegun h).pc
    · exact (hfirst h).2

end Sys2Proof.Machine
end

section

/-! SUPPORT. Frame edges and the frames of a burst (O37). -/

namespace Sys2Proof.Machine

/- The formatter at an edge --------------------------------------------------------------------------------------------------- -/

/-- Only pin groups, lanes and registers of lanes differ, and pin group `g` counts as many frames as before. -/
structure Handed (s t : State) (g : Nat) : Prop where
  inv : t.Inv
  frame : t = { s with pg := t.pg, lanes := t.lanes, regs := t.regs }
  started : (t.pgs g).started = (s.pgs g).started
  rd : ∀ a < 0x400000, t.rd a = s.rd a
  others : ∀ k, k ≠ g → t.pgs k = s.pgs k

theorem Handed.refl {s : State} (h : s.Inv) (g : Nat) : Handed s s g := ⟨h, rfl, rfl, fun _ _ => rfl, fun _ _ => rfl⟩

theorem Handed.trans {s t u : State} {g : Nat} (h₁ : Handed s t g) (h₂ : Handed t u g) : Handed s u g :=
  ⟨h₂.inv, by rw [h₂.frame, h₁.frame], h₂.started.trans h₁.started, fun a ha => (h₂.rd a ha).trans (h₁.rd a ha),
    fun k hk => (h₂.others k hk).trans (h₁.others k hk)⟩

theorem State.pgs_setPg_self {s : State} (h : s.Inv) (g : Nat) (v : PgSt) : (s.setPg g v).pgs g = v := spGet_spSet_self h.pg _ _

theorem State.Inv.setPg {s : State} (h : s.Inv) (g : Nat) (v : PgSt) : (s.setPg g v).Inv := (State.setPg_keeps (.refl s) g v).inv h

section
variable {s : State} (h : s.Inv) (g : Nat)
include h

theorem Handed.setPg (v : PgSt) (hv : v.started = (s.pgs g).started) : Handed s (s.setPg g v) g :=
  ⟨h.setPg g v, rfl, by rw [State.pgs_setPg_self h, hv], fun _ _ => rfl, fun _ hk => spGet_spSet_ne _ _ hk⟩

theorem Handed.setLane (n : Nat) (v : LnSt) : Handed s (s.setLane n v) g :=
  ⟨(State.setLane_keeps (.refl s) n v).inv h, rfl, rfl, fun _ _ => rfl, fun _ _ => rfl⟩

theorem Handed.setDriver (l : Nat) (on : Bool) : Handed s (s.setDriver g l on) g :=
  ⟨(State.setDriver_keeps (.refl s) g l on).inv h, rfl, rfl, fun a ha => State.rd_wf_ne (by unfold aLn; omega),
    fun _ _ => rfl⟩

theorem Handed.formed (l : Nat) : Handed s (s.formed g l).1 g := by
  have hprbs : ∀ poly inv, Handed s (s.prbsSyms g l poly inv).1 g := fun poly inv => Handed.setLane h g _ _
  unfold State.formed
  split
  · exact Handed.setLane h g _ _
  · unfold State.unused
    dsimp only
    split
    · exact hprbs _ false
    · split
      · exact .refl h g
      · split
        · exact hprbs _ ((s.rd (aLn (8 * g + l) 0x60)).getLsbD 8)
        · exact .refl h g

theorem Handed.form (l : Nat) : Handed s (s.form g l) g := by
  have hf := Handed.formed h g l
  exact hf.trans (Handed.setPg hf.inv g _ rfl)

theorem Handed.carry (l : Nat) (f : LaneFrame) : Handed s (s.carry g l f) g := by
  unfold State.carry
  dsimp only
  refine Handed.trans (t := s.setPg g _) (Handed.setPg h g _ ?_) (Handed.setDriver (h.setPg g _) g _ _)
  rfl

theorem Handed.settleCarry (l k : Nat) (f : LaneFrame) : Handed s ((s.settle (8 * g + l) k).carry g l f) g := by
  have hsettle : Handed s (s.settle (8 * g + l) k) g := Handed.setLane h g _ _
  exact hsettle.trans (Handed.carry hsettle.inv g l f)

end

theorem Handed.foldl {g : Nat} {f : State → Nat → State} (hf : ∀ (s : State) (l : Nat), s.Inv → Handed s (f s l) g)
    (l : List Nat) {s : State} (h : s.Inv) : Handed s (l.foldl f s) g := by
  induction l generalizing s with
  | nil => exact .refl h g
  | cons x l ih => exact (hf s x h).trans (ih (hf s x h).inv)

theorem State.handOver_spec {s : State} (h : s.Inv) (g : Nat) : Handed s (s.handOver g) g := by
  have h₁ := Handed.setPg h g { s.pgs g with fmt1 := [] } rfl
  have h₂ := h₁.trans (Handed.foldl (f := fun t l => t.form g l) (fun t l ht => Handed.form ht g l) (List.range 8) h₁.inv)
  unfold State.handOver
  dsimp only
  generalize (List.range 8).foldl (fun t l => t.form g l) (s.setPg g { s.pgs g with fmt1 := [] }) = u at h₂ ⊢
  have h₃ := h₂.trans (Handed.setPg h₂.inv g { u.pgs g with fmt := [], out := [], before := (s.pgs g).out } rfl)
  exact h₃.trans (Handed.foldl (fun t l ht => Handed.settleCarry ht g l _ _) (List.range 8) h₃.inv)

/- A frame edge ------------------------------------------------------------------------------------------------------------- -/

/-- A frame edge as an expander in a burst sees it: one frame more has started (R259). -/
structure NewEdge (s t : State) (n : Nat) : Prop where
  inv : t.Inv
  px : t.pxs n = s.pxs n
  started : (t.pgs (n / 2)).started = (s.pgs (n / 2)).started + 1
  mem : t.mem = s.mem
  tasks : t.tasks = s.tasks
  rd : ∀ a < 0x400000, (∀ m, a ≠ aPx m 0x2C) → t.rd a = s.rd a

theorem Beside.queueLow {s : State} (h : s.Inv) {m n : Nat} (hmn : n ≠ m) : Beside s (s.queueLow m) n := by
  have hset := Beside.setPx h hmn { s.pxs m with low := (s.pxs m).queue.length }
  unfold State.queueLow
  dsimp only
  split
  · exact hset.trans ⟨(State.post_keeps (.refl _) _ _ _ _).inv hset.inv, rfl, fun _ => rfl, rfl, rfl, fun _ _ => rfl, fun _ _ => rfl, rfl⟩
  · exact hset

theorem State.queueLow_regs (s : State) (m : Nat) : (s.queueLow m).regs = s.regs := by
  unfold State.queueLow
  dsimp only
  split <;> rfl

theorem Beside.foldl_queueLow {n : Nat} {l : List Nat} (hl : n ∉ l) {s : State} (h : s.Inv) :
    Beside s (l.foldl State.queueLow s) n ∧ (l.foldl State.queueLow s).regs = s.regs := by
  induction l generalizing s with
  | nil => exact ⟨.refl h n, rfl⟩
  | cons m l ih =>
    rw [List.mem_cons, not_or] at hl
    have hone := Beside.queueLow h hl.1
    obtain ⟨hrest, hregs⟩ := ih hl.2 hone.inv
    exact ⟨hone.trans hrest, hregs.trans (s.queueLow_regs m)⟩

theorem State.foldl_bump_wait (l : List Nat) (s : State) (h : s.Inv) :
    (l.foldl (fun t n => t.bump (aPx n 0x2C) 1) s).Inv ∧
    l.foldl (fun t n => t.bump (aPx n 0x2C) 1) s = { s with regs := (l.foldl (fun t n => t.bump (aPx n 0x2C) 1) s).regs } ∧
    ∀ a, (∀ m, a ≠ aPx m 0x2C) → (l.foldl (fun t n => t.bump (aPx n 0x2C) 1) s).rd a = s.rd a := by
  induction l generalizing s with
  | nil => exact ⟨h, rfl, fun _ _ => rfl⟩
  | cons m l ih =>
    obtain ⟨hinv, hframe, hrd⟩ := ih (s.bump (aPx m 0x2C) 1) ((State.bump_keeps (.refl s) _ _).inv h)
    rw [List.foldl_cons]
    exact ⟨hinv, by rw [hframe]; rfl, fun a ha => (hrd a ha).trans (State.rd_wr_ne (ha m))⟩

/-- Another started frame of a group. -/
theorem State.started_setPg {s : State} (h : s.Inv) (g k : Nat) : ((s.setPg g { s.pgs g with started := k }).pgs g).started = k :=
  congrArg PgSt.started (State.pgs_setPg_self h g _)

theorem State.newEdge_spec {s : State} (h : s.Inv) {n : Nat} (hb : (s.pxs n).burst.isSome = true) :
    NewEdge s (s.newEdge (n / 2)) n := by
  have h₀ := State.handOver_spec h (n / 2)
  have hnot : n ∉ [2 * (n / 2), 2 * (n / 2) + 1].filter fun m => (s.pxs m).burst.isNone := by
    rw [List.mem_filter]
    rintro ⟨-, hnone⟩
    rw [Option.isNone_iff_eq_none] at hnone
    rw [hnone] at hb
    cases hb
  have hedge : s.newEdge (n / 2) = ([2 * (n / 2), 2 * (n / 2) + 1].filter fun m => s.pxState m == 2).foldl
      (fun t n => t.bump (aPx n 0x2C) 1) (([2 * (n / 2), 2 * (n / 2) + 1].filter fun m => (s.pxs m).burst.isNone).foldl State.queueLow
        ((s.handOver (n / 2)).setPg (n / 2) { (s.handOver (n / 2)).pgs (n / 2) with
          started := ((s.handOver (n / 2)).pgs (n / 2)).started + 1 })) := rfl
  rw [hedge]
  clear hedge
  generalize s.handOver (n / 2) = x at h₀ ⊢
  have hset := h₀.inv.setPg (n / 2) { x.pgs (n / 2) with started := (x.pgs (n / 2)).started + 1 }
  have hstarted := State.started_setPg h₀.inv (n / 2) ((x.pgs (n / 2)).started + 1)
  rw [h₀.started] at hstarted hset ⊢
  have hpx₀ : x.px = s.px := by rw [h₀.frame]
  have hmem₀ : x.mem = s.mem := by rw [h₀.frame]
  have htasks₀ : x.tasks = s.tasks := by rw [h₀.frame]
  obtain ⟨hlow, hlowregs⟩ := Beside.foldl_queueLow hnot hset
  generalize List.foldl State.queueLow _ _ = u at hlow hlowregs ⊢
  obtain ⟨hbinv, hbframe, hbrd⟩ := State.foldl_bump_wait ([2 * (n / 2), 2 * (n / 2) + 1].filter fun m => s.pxState m == 2) _ hlow.inv
  generalize List.foldl _ u _ = v at hbinv hbframe hbrd ⊢
  refine ⟨hbinv, ?_, ?_, ?_, ?_, fun a ha hne => ?_⟩
  · rw [State.pxs_congr (s := u) (by rw [hbframe]), hlow.px, State.pxs_congr (State.setPg_px _ _ _), State.pxs_congr hpx₀]
  · rw [State.pgs_congr (s := u) (by rw [hbframe]), hlow.pgs, hstarted]
  · rw [hbframe]; exact hlow.mem.trans ((State.setPg_mem _ _ _).trans hmem₀)
  · rw [hbframe]; exact hlow.tasks.trans ((State.setPg_tasks _ _ _).trans htasks₀)
  · rw [hbrd a hne, State.rd_congr hlowregs, State.rd_congr (State.setPg_regs _ _ _), h₀.rd a ha]

end Sys2Proof.Machine
end

section

/-! SUPPORT. Frames of a burst, VOID bursts and BURST_END (O37). -/

namespace Sys2Proof.Machine

/-- A step within a frame of expander `n`: no frame starts, and the expander has delivered as many. -/
structure Within (s t : State) (n : Nat) : Prop where
  inv : t.Inv
  started : (t.pgs (n / 2)).started = (s.pgs (n / 2)).started
  lastEdge : (t.pxs n).lastEdge = (s.pxs n).lastEdge
  mem : t.mem = s.mem
  tasks : t.tasks = s.tasks

theorem Within.refl {s : State} (h : s.Inv) (n : Nat) : Within s s n := ⟨h, rfl, rfl, rfl, rfl⟩

theorem Within.trans {s t u : State} {n : Nat} (h₁ : Within s t n) (h₂ : Within t u n) : Within s u n :=
  ⟨h₂.inv, h₂.started.trans h₁.started, h₂.lastEdge.trans h₁.lastEdge, h₂.mem.trans h₁.mem, h₂.tasks.trans h₁.tasks⟩

theorem Around.within {s t : State} {n : Nat} (h : Around s t n) (he : (t.pxs n).lastEdge = (s.pxs n).lastEdge) : Within s t n :=
  ⟨h.inv, congrArg PgSt.started (h.pgs _), he, h.mem, h.tasks⟩

section
variable {s : State} (h : s.Inv) (n : Nat)
include h

theorem Within.wr (a : Nat) (v : W32) : Within s (s.wr a v) n := ⟨(State.wr_keeps (.refl s) a v).inv h, rfl, rfl, rfl, rfl⟩

theorem Within.setPx (v : PxSt) (hv : v.lastEdge = (s.pxs n).lastEdge) : Within s (s.setPx n v) n :=
  (Around.setPx h v).within (by rw [State.pxs_setPx_self h, hv])

theorem Within.setPg (v : PgSt) (hv : v.started = (s.pgs (n / 2)).started) : Within s (s.setPg (n / 2) v) n :=
  ⟨h.setPg _ v, by rw [State.pgs_setPg_self h, hv], rfl, rfl, rfl⟩

theorem Within.queueLow : Within s (s.queueLow n) n :=
  (Around.queueLow h).within (by rw [State.pxs_queueLow_self h])

theorem Within.putTarget (t v : Nat) : Within s (s.putTarget n t v) n := by
  unfold State.putTarget
  split
  · exact Within.wr h n _ _
  · exact .refl h n

theorem Within.applyOperand (e : W128) : Within s (s.applyOperand n e) n :=
  (Within.putTarget h n _ _).trans (Within.putTarget (Within.putTarget h n _ _).inv n _ _)

theorem Within.putGen (g : GenSt) : Within s (s.putGen n g) n := by
  unfold State.putGen
  dsimp only
  have h₁ := Within.wr h n (aPx n 0x48) (BitVec.ofNat 32 g.x)
  have h₂ := h₁.trans (Within.wr h₁.inv n (aPx n 0x4C) (BitVec.ofNat 32 g.y))
  have h₃ := h₂.trans (Within.wr h₂.inv n (aPx n 0x20C) (BitVec.ofNat 32 g.lfsr))
  exact h₃.trans (Within.setPx h₃.inv n _ rfl)

omit h in
theorem Within.thenIteWr {t : State} {n : Nat} (ht : Within s t n) (c : Prop) [Decidable c] (a : Nat) (v : W32) :
    Within s (if c then t.wr a v else t) n := by
  split
  · exact ht.trans (Within.wr ht.inv n _ _)
  · exact ht

omit h in
theorem Within.thenPutGen {t : State} {n : Nat} (ht : Within s t n) (g : GenSt) : Within s (t.putGen n g) n :=
  ht.trans (Within.putGen ht.inv n g)

theorem Within.frameOps (u : W128) : Within s (s.frameOps n u) n :=
  (((Within.refl h n).thenIteWr _ _ _).thenIteWr _ _ _).thenPutGen _

theorem Within.setBurst (x : Option Burst) : Within s (s.setPx n { s.pxs n with burst := x }) n := Within.setPx h n _ rfl

theorem Within.endBurst (c k : Nat) : Within s (s.endBurst n c k) n := by
  unfold State.endBurst
  dsimp only
  split
  · exact .refl h n
  · exact Within.setPx h n _ rfl

theorem Within.endMicro : Within s (s.endMicro n) n := Within.setPx h n _ rfl

theorem Within.expect (idx : Nat) (ts : Option Nat) (tag : Option (W64 × Nat × Nat)) (ls : List (Nat × List LaneBeat)) :
    Within s (s.expect n idx ts tag ls) n := by
  unfold State.expect
  exact Within.setPg h n _ rfl

theorem Within.showFrame (idx : Nat) (ts : Option Nat) (tag : Option (W64 × Nat × Nat)) (ls : List (Nat × List LaneBeat)) :
    Within s (s.showFrame n idx ts tag ls) n := by
  unfold State.showFrame
  dsimp only
  have h₁ := fun fmt => Within.setPg h n { s.pgs (n / 2) with fmt := fmt } rfl
  exact (h₁ _).trans (Within.expect (h₁ _).inv n _ _ _ _)

theorem Within.sequenceUop (u : W128) : Within s (s.sequenceUop n u) n := by
  have hgo : ∀ {t : State} (_ : t.Inv) (v : W32), Within t (t.wr (aPx n 0x50) v) n := fun ht v => Within.wr ht n _ v
  unfold State.sequenceUop
  dsimp only
  split
  · exact hgo h _
  · split
    · exact hgo h _
    · exact (Within.wr h n _ _).trans (hgo (Within.wr h n _ _).inv _)
  · exact (Within.wr h n _ _).trans (hgo (Within.wr h n _ _).inv _)
  · split
    · split
      · exact (Within.setBurst h n _).trans (hgo (Within.setBurst h n _).inv _)
      · exact Within.setBurst h n _
    · exact hgo h _
  · exact .refl h n
  · exact hgo h _

theorem Within.takeNext (hn : n < 16) : Within s (s.takeNext n) n := by
  cases hb : (s.pxs n).burst with
  | none =>
    have hstay : s.takeNext n = s := by
      unfold State.takeNext
      rw [hb]
    rw [hstay]
    exact .refl h n
  | some b =>
    obtain ⟨haround, q, x, e, hpx, -⟩ := State.takeNext_spec h hn hb
    exact haround.within (by rw [hpx])

omit h in
theorem Within.ite {t u : State} {n : Nat} (c : Prop) [Decidable c] (ht : Within s t n) (hu : Within s u n) :
    Within s (if c then t else u) n := by
  split
  · exact ht
  · exact hu

section
variable {t : State} {n : Nat} (ht : Within s t n)
omit h
include ht

theorem Within.thenApply (e : W128) : Within s (t.applyOperand n e) n := ht.trans (Within.applyOperand ht.inv n e)
theorem Within.thenOps (u : W128) : Within s (t.frameOps n u) n := ht.trans (Within.frameOps ht.inv n u)
theorem Within.thenEnd (c k : Nat) : Within s (t.endBurst n c k) n := ht.trans (Within.endBurst ht.inv n c k)
theorem Within.thenEndMicro : Within s (t.endMicro n) n := ht.trans (Within.endMicro ht.inv n)
theorem Within.thenSequence (u : W128) : Within s (t.sequenceUop n u) n := ht.trans (Within.sequenceUop ht.inv n u)
theorem Within.thenShow (idx : Nat) (ts : Option Nat) (tag : Option (W64 × Nat × Nat)) (ls : List (Nat × List LaneBeat)) :
    Within s (t.showFrame n idx ts tag ls) n := ht.trans (Within.showFrame ht.inv n idx ts tag ls)
theorem Within.thenTake (hn : n < 16) : Within s (t.takeNext n) n := ht.trans (Within.takeNext ht.inv n hn)

end

theorem Within.algoFrame (hn : n < 16) (idx : Nat) (op : Option W128) : Within s (s.algoFrame n idx op) n := by
  have h₁ : Within s (match op with
    | some e => s.applyOperand n e
    | none => s) n := by
    cases op with
    | none => exact .refl h n
    | some e => exact (Within.refl h n).thenApply e
  unfold State.algoFrame
  have h₂ := fun u g idx ts tag ls => (((h₁.thenOps u).thenPutGen g).thenShow idx ts tag ls).thenSequence u
  exact .ite _ ((h₂ _ _ _ _ _ _).thenEnd _ _) ((h₂ _ _ _ _ _ _).thenTake hn)

theorem Within.vecFrame (hn : n < 16) (idx : Nat) (b : Burst) (codes : List (BitVec 32)) (ts : Nat) (last : Bool) :
    Within s (s.vecFrame n idx b codes ts last) n := by
  unfold State.vecFrame
  dsimp only
  have h₁ := fun (c : Prop) [Decidable c] u => Within.ite c ((Within.refl h n).thenOps u) (Within.refl h n)
  have h₂ := fun (c d : Prop) [Decidable c] [Decidable d] u g => Within.ite d ((h₁ c u).thenPutGen g) (h₁ c u)
  have h₃ := fun (c d : Prop) [Decidable c] [Decidable d] u g idx ts tag ls => (h₂ c d u g).thenShow idx ts tag ls
  have h₄ := fun (c d e f : Prop) [Decidable c] [Decidable d] [Decidable e] [Decidable f] u g idx ts tag ls v =>
    Within.ite e (Within.ite f (h₃ c d u g idx ts tag ls).thenEndMicro ((h₃ c d u g idx ts tag ls).thenSequence v)) (h₃ c d u g idx ts tag ls)
  exact .ite _ ((h₄ _ _ _ _ _ _ _ _ _ _ _).thenEnd _ _) ((h₄ _ _ _ _ _ _ _ _ _ _ _).thenTake hn)

end

/- VOID ------------------------------------------------------------------------------------------------------------------------- -/

/-- A burst that turns VOID at frame `idx`: its end, the state DISCARD, and UNDERRUN for the causes 1 and 2 (R254, R256). -/
structure Voided (s t : State) (n idx c : Nat) (b : Burst) : Prop where
  within : Within s t n
  burst : (t.pxs n).burst = none
  ends : (t.pxs n).ends = (s.pxs n).ends ++ [Ending.mk b.task b.fetched b.link c idx (idx + 1 + (31 + s.rf (aPg (n / 2) 8) 0 16) / 32)]
  state : t.pxState n = 4
  underrun : c ≤ 2 → t.bit (aPx n 0x28) 0 = true

theorem State.showFrame_frame (s : State) (n idx : Nat) (ts : Option Nat) (tag : Option (W64 × Nat × Nat))
    (ls : List (Nat × List LaneBeat)) : s.showFrame n idx ts tag ls = { s with pg := (s.showFrame n idx ts tag ls).pg } := rfl

theorem LowRegs.within {s t : State} {n : Nat} (hinv : t.Inv) (h : LowRegs s t) : Within s t n :=
  ⟨hinv, by rw [h.1]; rfl, by rw [h.1]; rfl, by rw [h.1], by rw [h.1]⟩

theorem State.endBurst_some {s : State} {n c k : Nat} {b : Burst} (hb : (s.pxs n).burst = some b) :
    s.endBurst n c k = s.setPx n { s.pxs n with burst := none, ends := (s.pxs n).ends ++
      [⟨b.task, b.fetched, b.link, c, k - 1, k + (31 + s.rf (aPg (n / 2) 8) 0 16) / 32⟩] } := by
  unfold State.endBurst
  dsimp only
  rw [hb]

/-- In DISCARD with an ending to come the entries ahead of the first BURST leave, and nothing else changes (R254). -/
theorem State.settleDiscard_stays {s : State} {n : Nat} (hst : s.pxState n = 4) (he : (s.pxs n).ends ≠ []) :
    s.settleDiscard n = s.setQueue n ((s.pxs n).queue.dropWhile fun e => entType e != 1) := by
  have hempty : (s.pxs n).ends.isEmpty = false := by simpa using he
  unfold State.settleDiscard
  rw [if_pos hst]
  dsimp only
  rw [hempty, Bool.and_false, if_neg (by decide)]

theorem State.voidFrame_spec {s : State} (h : s.Inv) {n idx c : Nat} {b : Burst} (hb : (s.pxs n).burst = some b) :
    Voided s (s.voidFrame n idx b c) n idx c b := by
  have hshow := (Within.refl h n).thenShow idx none none []
  obtain ⟨s0, hs0⟩ : ∃ s0, s0 = s.showFrame n idx none none [] := ⟨_, rfl⟩
  have hframe0 := s.showFrame_frame n idx none none []
  rw [← hs0] at hshow hframe0
  have hpx0 : s0.pxs n = s.pxs n := State.pxs_congr (by rw [hframe0]) n
  have hregs0 : s0.regs = s.regs := by rw [hframe0]
  have hend := hshow.thenEnd c (idx + 1)
  obtain ⟨s1, hs1⟩ : ∃ s1, s1 = s0.endBurst n c (idx + 1) := ⟨_, rfl⟩
  have hs1' := hs1
  rw [State.endBurst_some (hpx0 ▸ hb), hpx0, State.rf_congr hregs0] at hs1'
  rw [← hs1] at hend
  have hpx1 : s1.pxs n = { s.pxs n with burst := none, ends := (s.pxs n).ends ++
      [⟨b.task, b.fetched, b.link, c, idx, idx + 1 + (31 + s.rf (aPg (n / 2) 8) 0 16) / 32⟩] } := by
    rw [hs1', State.pxs_setPx_self hshow.inv]
    rfl
  obtain ⟨s2, hs2⟩ : ∃ s2, s2 = if c ≤ 2 then s1.setB (aPx n 0x28) 0 else s1 := ⟨_, rfl⟩
  have hkeep2 : Within s s2 n ∧ s2.px = s1.px ∧ (c ≤ 2 → s2.bit (aPx n 0x28) 0 = true) := by
    rw [hs2]
    split
    · exact ⟨hend.trans (Within.wr hend.inv n _ _), rfl, fun _ => State.bit_setB_self hend.inv.regs _ (by decide)⟩
    next hc => exact ⟨hend, rfl, fun hc' => absurd hc' hc⟩
  obtain ⟨hw2, hpx2, hbit2⟩ := hkeep2
  obtain ⟨s3, hs3⟩ : ∃ s3, s3 = s2.sawVoid n b.mode := ⟨_, rfl⟩
  have hlow : LowRegs s2 s3 := hs3 ▸ State.saw_lowRegs _ _ _
  have hinv3 : s3.Inv := hs3 ▸ (State.sawVoid_keeps (.refl _) _ _).inv hw2.inv
  have hw3 := hw2.trans (hlow.within hinv3)
  have hpx3 : s3.px = s2.px := by rw [hlow.1]
  have hw4 : Within s (s3.setPxState n 4) n := hw3.trans (Within.wr hinv3 n _ _)
  have hstate4 : (s3.setPxState n 4).pxState n = 4 := State.rf_setPxState_self hinv3 n (by decide)
  have hpx4 : (s3.setPxState n 4).pxs n = s1.pxs n := by
    have hset : (s3.setPxState n 4).px = s3.px := rfl
    exact State.pxs_congr (hset.trans (hpx3.trans hpx2)) n
  have hends4 : ((s3.setPxState n 4).pxs n).ends ≠ [] := by rw [hpx4, hpx1]; exact List.concat_ne_nil _ _
  have hresult : s.voidFrame n idx b c = (s3.setPxState n 4).setQueue n ((s1.pxs n).queue.dropWhile fun e => entType e != 1) := by
    rw [← hpx4, ← State.settleDiscard_stays hstate4 hends4, hs3, hs2, hs1, hs0]
    rfl
  have hqueue := Around.setQueue hw4.inv (n := n) ((s1.pxs n).queue.dropWhile fun e => entType e != 1)
  have hpx5 := State.pxs_setQueue_self hw4.inv (n := n) ((s1.pxs n).queue.dropWhile fun e => entType e != 1)
  rw [hpx4, hpx1] at hpx5
  rw [hpx1] at hresult hqueue
  have hlast : (s.pxs n).lastEdge = ((s3.setPxState n 4).pxs n).lastEdge := by rw [hpx4, hpx1]
  rw [hresult]
  refine ⟨hw4.trans (hqueue.within ?_), ?_, ?_, ?_, fun hc => ?_⟩
  · rw [hpx5, ← hlast]
  · rw [hpx5]
  · rw [hpx5]
  · exact (State.rf_of_rd (hqueue.rd 4 (by decide) (by decide)) _ _).trans hstate4
  · have hq28 : ((s3.setPxState n 4).setQueue n ((s.pxs n).queue.dropWhile fun e => entType e != 1)).regs = (s3.setPxState n 4).regs := by
      obtain ⟨ths, hq⟩ := (s3.setPxState n 4).setQueue_eq n ((s.pxs n).queue.dropWhile fun e => entType e != 1)
      rw [hq]
      rfl
    have h4 : (s3.setPxState n 4).rd (aPx n 0x28) = s3.rd (aPx n 0x28) := State.rd_wf_ne (by unfold aPx; omega)
    exact (State.bit_of_rd ((State.rd_congr hq28 _).trans (h4.trans (hlow.2 _ (by unfold aPx; omega)))) 0).trans (hbit2 hc)

/- A frame ---------------------------------------------------------------------------------------------------------------------- -/

/-- The number of frames that have started when the burst of expander `n` delivers its next one. -/
def State.nextEdge (s : State) (n : Nat) : Nat :=
  (s.pgs (n / 2)).started + (if (s.pxs n).lastEdge = (s.pgs (n / 2)).started then 1 else 0)

/-- The state in which a burst delivers its frame: the edge has begun, if this expander is the first to deliver it (R259). -/
def State.atFrame (s : State) (n : Nat) : State :=
  let s1 := if (s.pxs n).lastEdge = (s.pgs (n / 2)).started then s.newEdge (n / 2) else s
  s1.setPx n { s1.pxs n with lastEdge := (s1.pgs (n / 2)).started }

theorem State.frame_eq {s : State} (h : s.Inv) {n : Nat} (hmay : s.mayFrame n = true) {b : Burst} (hb : (s.pxs n).burst = some b) :
    s.frame n = match b.next with
      | .algo op => ((s.atFrame n).algoFrame n (s.nextEdge n - 1) op).queueLow n
      | .vec codes ts last => ((s.atFrame n).vecFrame n (s.nextEdge n - 1) b codes ts last).queueLow n
      | .void c => ((s.atFrame n).voidFrame n (s.nextEdge n - 1) b c).queueLow n := by
  have hedge := State.newEdge_spec h (n := n) (by rw [hb]; rfl)
  have hburst : ((if (s.pxs n).lastEdge = (s.pgs (n / 2)).started then s.newEdge (n / 2) else s).pxs n).burst = some b := by
    split
    · rw [hedge.px, hb]
    · exact hb
  have hstarted : ((if (s.pxs n).lastEdge = (s.pgs (n / 2)).started then s.newEdge (n / 2) else s).pgs (n / 2)).started = s.nextEdge n := by
    unfold State.nextEdge
    split
    · exact hedge.started
    · rfl
  unfold State.frame State.atFrame
  rw [hmay, Bool.not_true, if_neg (by decide)]
  dsimp only
  rw [hburst, hstarted] <;> rfl

/-- What `atFrame` leaves. -/
structure AtFrame (s t : State) (n : Nat) : Prop where
  inv : t.Inv
  px : t.pxs n = { s.pxs n with lastEdge := s.nextEdge n }
  started : (t.pgs (n / 2)).started = s.nextEdge n
  mem : t.mem = s.mem
  tasks : t.tasks = s.tasks
  delay : t.rf (aPg (n / 2) 8) 0 16 = s.rf (aPg (n / 2) 8) 0 16

theorem State.atFrame_spec {s : State} (h : s.Inv) {n : Nat} (hn : n < 16) (hb : (s.pxs n).burst.isSome = true) :
    AtFrame s (s.atFrame n) n := by
  have hedge := State.newEdge_spec h hb
  obtain ⟨s1, hs1⟩ : ∃ s1, s1 = if (s.pxs n).lastEdge = (s.pgs (n / 2)).started then s.newEdge (n / 2) else s := ⟨_, rfl⟩
  have hone : s1.Inv ∧ s1.pxs n = s.pxs n ∧ (s1.pgs (n / 2)).started = s.nextEdge n ∧ s1.mem = s.mem ∧ s1.tasks = s.tasks ∧
      s1.rd (aPg (n / 2) 8) = s.rd (aPg (n / 2) 8) := by
    rw [hs1]
    unfold State.nextEdge
    split
    · exact ⟨hedge.inv, hedge.px, hedge.started, hedge.mem, hedge.tasks,
        hedge.rd _ (by unfold aPg; omega) fun m => by unfold aPg aPx; omega⟩
    · exact ⟨h, rfl, rfl, rfl, rfl, rfl⟩
  obtain ⟨hinv, hpx, hstarted, hmem, htasks, hdelay⟩ := hone
  have hat : s.atFrame n = s1.setPx n { s.pxs n with lastEdge := s.nextEdge n } := by
    rw [← hpx, ← hstarted, hs1]
    rfl
  rw [hat]
  exact ⟨hinv.setPx n _, State.pxs_setPx_self hinv n _, hstarted, hmem, htasks, State.rf_of_rd hdelay _ _⟩

/-- A frame is delivered: the edge that the group counts is the expander's last (R215, R259). -/
theorem State.frame_spec {s : State} (h : s.Inv) {n : Nat} (hn : n < 16) (hmay : s.mayFrame n = true) {b : Burst}
    (hb : (s.pxs n).burst = some b) :
    ((s.frame n).pgs (n / 2)).started = s.nextEdge n ∧ ((s.frame n).pxs n).lastEdge = s.nextEdge n ∧ (s.frame n).mem = s.mem ∧
      (s.frame n).tasks = s.tasks := by
  have hat := State.atFrame_spec h hn (by rw [hb]; rfl)
  have hwithin : Within (s.atFrame n) (s.frame n) n := by
    have hlow : ∀ t, Within (s.atFrame n) t n → Within (s.atFrame n) (t.queueLow n) n := fun t ht => ht.trans (Within.queueLow ht.inv n)
    rw [State.frame_eq h hmay hb]
    split
    · exact hlow _ (Within.algoFrame hat.inv n hn _ _)
    · exact hlow _ (Within.vecFrame hat.inv n hn _ _ _ _ _)
    · exact hlow _ (State.voidFrame_spec hat.inv (by rw [hat.px]; exact hb)).within
  exact ⟨hwithin.started.trans hat.started, by rw [hwithin.lastEdge, hat.px], hwithin.mem.trans hat.mem, hwithin.tasks.trans hat.tasks⟩

/-- A frame at which the burst turns VOID (R254, R256). -/
theorem State.frame_void {s : State} (h : s.Inv) {n : Nat} (hn : n < 16) (hmay : s.mayFrame n = true) {b : Burst} {c : Nat}
    (hb : (s.pxs n).burst = some b) (hv : b.next = .void c) (hk : 0 < s.nextEdge n) :
    ((s.frame n).pxs n).burst = none ∧ (s.frame n).pxState n = 4 ∧ ((s.frame n).pxs n).ends = (s.pxs n).ends ++
      [Ending.mk b.task b.fetched b.link c (s.nextEdge n - 1) (s.nextEdge n + (31 + s.rf (aPg (n / 2) 8) 0 16) / 32)] ∧
    (c ≤ 2 → (s.frame n).bit (aPx n 0x28) 0 = true) := by
  have hat := State.atFrame_spec h hn (by rw [hb]; rfl)
  have hvoid := State.voidFrame_spec hat.inv (n := n) (idx := s.nextEdge n - 1) (c := c) (b := b) (by rw [hat.px]; exact hb)
  have hframe : s.frame n = ((s.atFrame n).voidFrame n (s.nextEdge n - 1) b c).queueLow n := by rw [State.frame_eq h hmay hb, hv]
  have hends := hvoid.ends
  rw [hat.px, hat.delay, Nat.sub_add_cancel hk] at hends
  rw [hframe, State.pxs_queueLow_self hvoid.within.inv]
  exact ⟨hvoid.burst, (State.rf_congr (State.queueLow_regs _ _) _ _ _).trans hvoid.state, hends,
    fun hc => (State.bit_congr (State.queueLow_regs _ _) _ _).trans (hvoid.underrun hc)⟩

end Sys2Proof.Machine
end

section

/-! SUPPORT. Linked bursts and BURST_END (O37). -/

namespace Sys2Proof.Machine

/- Linked bursts (R255, R256) ---------------------------------------------------------------------------------------------------- -/

section
variable {s : State} {n : Nat}

theorem State.linkVoid_unlinked {b : Burst} (hb : (s.pxs (otherPx n)).burst = some b) (hl : b.link = false) : s.linkVoid n = s := by
  unfold State.linkVoid
  dsimp only
  rw [hb]
  dsimp only
  rw [hl, Bool.not_false, if_pos rfl]

theorem State.linkVoid_linked {b : Burst} (hb : (s.pxs (otherPx n)).burst = some b) (hl : b.link = true) : s.linkVoid n =
    if (s.pxs (otherPx n)).lastEdge = (s.pgs (otherPx n / 2)).started then
      s.setPx (otherPx n) { s.pxs (otherPx n) with burst := some { b with next := .void (match b.next with
        | .void c => min c 6
        | _ => 6) } }
    else s.setPx (otherPx n) { s.pxs (otherPx n) with burst := some { b with linkDue := true } } := by
  unfold State.linkVoid
  dsimp only
  rw [hb]
  dsimp only
  rw [hl, Bool.not_true, if_neg (by decide)] <;> rfl

theorem State.linkVoid_ended {l : List Ending} {e : Ending} (hb : (s.pxs (otherPx n)).burst = none)
    (he : (s.pxs (otherPx n)).ends = l ++ [e]) : s.linkVoid n =
    if e.link && e.cause == 7 && e.first == (s.pgs (otherPx n / 2)).started then
      ((s.setPx (otherPx n) { s.pxs (otherPx n) with ends := l ++ [{ e with cause := 6 }] }).setPxState (otherPx n) 4).settleDiscard
        (otherPx n)
    else s := by
  have hlast : (s.pxs (otherPx n)).ends.getLast? = some e := by rw [he]; exact List.getLast?_concat
  have hdrop : (s.pxs (otherPx n)).ends.dropLast = l := by rw [he]; exact List.dropLast_concat
  unfold State.linkVoid
  dsimp only
  rw [hb]
  dsimp only
  rw [hlast]
  dsimp only
  rw [hdrop]

/-- An ending with cause 7 at this frame of a linked burst gets the lower cause 6, and its expander discards. -/
theorem State.linkVoid_lowers (h : s.Inv) {l : List Ending} {e : Ending} (hb : (s.pxs (otherPx n)).burst = none)
    (he : (s.pxs (otherPx n)).ends = l ++ [e]) (hl : e.link = true) (hc : e.cause = 7)
    (hf : e.first = (s.pgs (otherPx n / 2)).started) :
    ((s.linkVoid n).pxs (otherPx n)).ends = l ++ [{ e with cause := 6 }] ∧ (s.linkVoid n).pxState (otherPx n) = 4 := by
  obtain ⟨m, hm⟩ : ∃ m, m = otherPx n := ⟨_, rfl⟩
  have hcond : (e.link && e.cause == 7 && e.first == (s.pgs (otherPx n / 2)).started) = true := by
    rw [hl, hc, hf, beq_self_eq_true, beq_self_eq_true]
    rfl
  rw [State.linkVoid_ended hb he, if_pos hcond, ← hm]
  obtain ⟨p, hp⟩ : ∃ p : PxSt, p = { s.pxs m with ends := l ++ [{ e with cause := 6 }] } := ⟨_, rfl⟩
  rw [← hp]
  have hset := h.setPx m p
  have hpx : ((s.setPx m p).setPxState m 4).pxs m = p := State.pxs_setPx_self h m p
  have hinv : ((s.setPx m p).setPxState m 4).Inv := (State.setPxState_keeps (.refl _) m 4).inv hset
  have hstate : ((s.setPx m p).setPxState m 4).pxState m = 4 := State.rf_setPxState_self hset m (by decide)
  have hends : (((s.setPx m p).setPxState m 4).pxs m).ends ≠ [] := by rw [hpx, hp]; exact List.concat_ne_nil _ _
  rw [State.settleDiscard_stays hstate hends, State.pxs_setQueue_self hinv]
  have haround := Around.setQueue hinv (n := m) ((((s.setPx m p).setPxState m 4).pxs m).queue.dropWhile fun e => entType e != 1)
  refine ⟨?_, (State.rf_of_rd (haround.rd 4 (by decide) (by decide)) _ _).trans hstate⟩
  rw [hpx, hp]

end

/- BURST_END (R235) ---------------------------------------------------------------------------------------------------------------- -/

/-- What BURST_STATUS shows after an ending with cause `c`, the count of endings included. -/
def State.burstStatus (s : State) (n c : Nat) : W32 :=
  BitVec.ofNat 32 ((if c = 0 then 1 else 2) + c * 16 + (s.rf (aPx n 0x24) 16 16 + 1) % 65536 * 65536)

/-- The task for which an ending raises BURST_END. -/
def State.endTask (s : State) (n : Nat) (e : Ending) : Nat := if e.fetched then s.rf (aPx n 0xC) 0 16 else e.task

/-- An ending that is due, recorded; the expander has not yet left BURST. -/
def State.recorded (s : State) (n : Nat) (e : Ending) (rest : List Ending) : State :=
  let s2 := ((s.setPx n { s.pxs n with ends := rest }).post (rkPx n) (some (s.endTask n e)) 3 n).wr (aPx n 0x24) (s.burstStatus n e.cause)
  (if e.cause = 0 then s2 else s2.setB (aPx n 0x28) 1).mapHolds (Hold.ended n (s.pgs (n / 2)).started)

theorem State.burstEnd_due {s : State} {n : Nat} {e : Ending} {rest : List Ending} (he : (s.pxs n).ends = e :: rest)
    (hdue : e.due ≤ (s.pgs (n / 2)).started) (hst : s.pxState n ≠ 4) : s.burstEnd n =
      if (s.pxs n).burst.isSome || !rest.isEmpty then s.recorded n e rest else (s.recorded n e rest).pxRest n := by
  unfold State.burstEnd
  dsimp only
  rw [he]
  dsimp only
  rw [if_neg (Nat.not_lt.mpr hdue), if_neg hst]
  rfl

/-- What `recorded` leaves. -/
structure Recorded (s t : State) (n : Nat) (e : Ending) (rest : List Ending) : Prop where
  ends : (t.pxs n).ends = rest
  evq : t.evq = s.evq ++ [EvReq.mk (rkPx n) (some (s.endTask n e)) 3 (BitVec.ofNat 32 n)]
  status : t.rd (aPx n 0x24) = s.burstStatus n e.cause
  sticky : e.cause ≠ 0 → t.bit (aPx n 0x28) 1 = true
  mem : t.mem = s.mem
  ths : t.ths = s.ths

theorem State.recorded_spec {s : State} (h : s.Inv) (n : Nat) (e : Ending) (rest : List Ending) :
    Recorded s (s.recorded n e rest) n e rest := by
  obtain ⟨s1, hs1⟩ : ∃ s1, s1 = (s.setPx n { s.pxs n with ends := rest }).post (rkPx n) (some (s.endTask n e)) 3 n := ⟨_, rfl⟩
  have hinv1 : s1.Inv := hs1 ▸ (State.post_keeps (.refl _) _ _ _ _).inv (h.setPx n _)
  have hends1 : (s1.pxs n).ends = rest := by
    have hself := congrArg PxSt.ends (State.pxs_setPx_self h n { s.pxs n with ends := rest })
    rw [hs1]
    exact hself
  have hevq1 : s1.evq = s.evq ++ [EvReq.mk (rkPx n) (some (s.endTask n e)) 3 (BitVec.ofNat 32 n)] := by rw [hs1]; rfl
  have hmem1 : s1.mem = s.mem := by rw [hs1]; rfl
  have hths1 : s1.ths = s.ths := by rw [hs1]; rfl
  have hrec : s.recorded n e rest = (if e.cause = 0 then s1.wr (aPx n 0x24) (s.burstStatus n e.cause)
      else (s1.wr (aPx n 0x24) (s.burstStatus n e.cause)).setB (aPx n 0x28) 1).mapHolds (Hold.ended n (s.pgs (n / 2)).started) := by
    rw [hs1]
    rfl
  have hinv2 : (s1.wr (aPx n 0x24) (s.burstStatus n e.cause)).Inv := (State.wr_keeps (.refl _) _ _).inv hinv1
  have hstatus : (s1.wr (aPx n 0x24) (s.burstStatus n e.cause)).rd (aPx n 0x24) = s.burstStatus n e.cause :=
    State.rd_wr_self hinv1.regs _ _
  obtain ⟨v, hv⟩ : ∃ v, v = s.burstStatus n e.cause := ⟨_, rfl⟩
  rw [← hv] at hrec hinv2 hstatus
  rw [hrec]
  split
  next h0 =>
    exact ⟨hends1, hevq1, hstatus.trans hv, fun hc => absurd h0 hc, hmem1, hths1⟩
  next h0 =>
    have hrd : ((s1.wr (aPx n 0x24) v).setB (aPx n 0x28) 1).rd (aPx n 0x24) = (s1.wr (aPx n 0x24) v).rd (aPx n 0x24) :=
      State.rd_wf_ne (by unfold aPx; omega)
    have hbit : ((s1.wr (aPx n 0x24) v).setB (aPx n 0x28) 1).bit (aPx n 0x28) 1 = true := State.bit_setB_self hinv2.regs _ (by decide)
    exact ⟨hends1, hevq1, hrd.trans (hstatus.trans hv), fun _ => hbit, hmem1, hths1⟩

/-- Leaving BURST writes two registers of the expander. -/
theorem State.pxRest_frame (t : State) (n : Nat) : t.pxRest n = { t with regs := (t.pxRest n).regs } ∧
    ∀ a, a ≠ aPx n 4 → a ≠ aPx n 0x2C → (t.pxRest n).rd a = t.rd a := by
  obtain ⟨v, hv | hv⟩ := t.pxRest_eq n
  · rw [hv]
    exact ⟨rfl, fun a h4 _ => State.rd_wf_ne h4⟩
  · rw [hv]
    exact ⟨rfl, fun a h4 h2C => (State.rd_wf_ne h4).trans (State.rd_wr_ne h2C)⟩

/-- An expander that leaves BURST keeps what was recorded. -/
theorem Recorded.pxRest {s t : State} {n : Nat} {e : Ending} {rest : List Ending} (h : Recorded s t n e rest) :
    Recorded s (t.pxRest n) n e rest := by
  obtain ⟨hframe, hrd⟩ := t.pxRest_frame n
  refine ⟨?_, ?_, ?_, fun hc => ?_, ?_, ?_⟩
  · rw [State.pxs_congr (s := t) (by rw [hframe]), h.ends]
  · rw [hframe]; exact h.evq
  · rw [hrd _ (by unfold aPx; omega) (by unfold aPx; omega), h.status]
  · rw [State.bit_of_rd (hrd _ (by unfold aPx; omega) (by unfold aPx; omega)), h.sticky hc]
  · rw [hframe]; exact h.mem
  · rw [hframe]; exact h.ths

/-- Settles O37: a frame is judged at its edge, and `Within` says that what the burst does in it keeps the edge; a VOID frame ends the
burst; the endings follow in order. -/
theorem framesAndBurstEnd : Obligations.FramesAndBurstEnd := by
  unfold Obligations.FramesAndBurstEnd
  refine ⟨?_, fun s n hmay => ?_, ?_, ?_, fun s n e rest he hdue => ?_⟩
  · intro s n b g k hb hmay hk h
    exact ⟨⟨_, rfl, State.frame_spec h n.isLt hmay hb⟩, fun c hv _ _ => ⟨_, rfl, State.frame_void h n.isLt hmay hb hv hk⟩⟩
  · refine congrArg Host.Outcome.next ?_
    unfold State.frame
    rw [hmay, Bool.not_false, if_pos rfl]
  · intro s n m q k
    refine ⟨fun b hb hl => State.linkVoid_unlinked hb hl, fun b hb hl he => ⟨fun hv => ?_, fun c hv => ?_⟩, fun b hb hl he => ?_,
      fun l e hb he h => ⟨fun hl hc hf => State.linkVoid_lowers h hb he hl hc hf, fun hor => ?_⟩⟩
    · rw [State.linkVoid_linked hb hl, if_pos he]
      cases hnext : b.next with
      | algo op => rfl
      | vec codes ts last => rfl
      | void c => exact absurd hnext (hv c)
    · rw [State.linkVoid_linked hb hl, if_pos he, hv]
    · rw [State.linkVoid_linked hb hl, if_neg he]
    · rw [State.linkVoid_ended hb he, if_neg]
      simp only [Bool.and_eq_true, beq_iff_eq, not_and]
      rintro ⟨hl, hc⟩
      rcases hor with hl' | hc' | hf
      · rw [hl] at hl'; cases hl'
      · exact absurd hc hc'
      · exact hf
  · intro s n e rest task he hdue hst h
    have hrec := State.recorded_spec h n.val e rest
    have hend : Recorded s (s.burstEnd n.val) n.val e rest := by
      rw [State.burstEnd_due he hdue hst]
      split
      · exact hrec
      · exact hrec.pxRest
    exact ⟨_, rfl, hend.ends, hend.evq, hend.status, hend.sticky, hend.mem, hend.ths⟩
  · refine congrArg Host.Outcome.next ?_
    unfold State.burstEnd
    dsimp only
    rw [he]
    dsimp only
    rw [if_pos hdue]

end Sys2Proof.Machine
end

section

/-! SUPPORT. Compare, fail records, diversion and counters of a pin group (O38). -/

namespace Sys2Proof.Machine

/- Compare (R292, R293) ------------------------------------------------------------------------------------------------------------ -/

section
variable {s : State} {g l : Nat} (hnrz : s.pam4 g l = false)
include hnrz

/-- An NRZ lane decides 1 at a level that reaches its threshold (R292). -/
theorem State.decideSym_nrz (f : Nat) (v : Int) :
    s.decideSym g l f v = if 3 * s.threshold (8 * g + l) 0 f ≤ v then 1 else 0 := by
  unfold State.decideSym
  simp only [hnrz, Bool.false_eq_true, if_false]
  rw [show List.range 1 = [0] from rfl, List.filter_singleton]
  by_cases hv : 3 * s.threshold (8 * g + l) 0 f ≤ v
  · simp [hv]
  · simp [hv]

/-- In EDGE mode a UI fails exactly if its sample decides another symbol than expected (R293). -/
theorem State.uiFails_edge (hedge : s.rf (aPg g (0x40 + 4 * l)) 0 2 = 0) (f : Nat) (v : Int) (exp : BitVec 2) :
    s.uiFails g l f exp [v] = true ↔ exp ≠ if 3 * s.threshold (8 * g + l) 0 f ≤ v then 1 else 0 := by
  unfold State.uiFails
  rw [hedge, show ((0 : Nat) == 2) = false from rfl, Bool.false_and, Bool.or_false, ← State.decideSym_nrz hnrz f v]
  simp only [List.any_cons, List.any_nil, Bool.or_false, bne_iff_ne]
  exact ne_comm

/-- What the DFE takes from a level of an NRZ lane (R269). -/
theorem State.dfe_nrz (rx taps : W32) (hist : List (BitVec 2)) (hon : rx.getLsbD 8 = true) :
    let tap := fun i => (BitVec.ofNat 5 (field taps (5 * i) 5)).toInt * (if hist.getD i 0 = 0 then -3 else 3)
    s.dfe g l rx taps hist = 4 * (tap 0 + tap 1 + tap 2 + tap 3 + tap 4 + tap 5) := by
  intro tap
  have hw : ∀ v, s.symWeight g l v = if v = 0 then -3 else 3 := fun v => by
    unfold State.symWeight
    rw [hnrz, if_neg Bool.false_ne_true]
  unfold State.dfe
  rw [if_pos hon]
  simp only [hw, show List.range 6 = [0, 1, 2, 3, 4, 5] from rfl, List.foldl_cons, List.foldl_nil]
  unfold tap
  ring

omit hnrz in
/-- With a peaking of 0 dB the level is the wave's, less what the DFE takes (R269). -/
theorem State.beatLevels_flat (f k b : Nat) (wave : List (Int × Int)) (hist : List (BitVec 2))
    (h0 : field (s.rxAt g l f b).1 0 5 = 0) :
    s.beatLevels g l f k b wave hist =
      ((s.positions g l f k b).filterMap fun p => levelAt (s.facing (8 * g + l) wave) p).map fun v =>
        3 * v - s.dfe g l (s.rxAt g l f b).1 (s.rxAt g l f b).2 hist := by
  have hctle : ∀ p, ctleLevel (s.rxAt g l f b).1 (s.facing (8 * g + l) wave) p = levelAt (s.facing (8 * g + l) wave) p := by
    intro p
    unfold ctleLevel
    rw [h0]
    exact Option.map_id'
  unfold State.beatLevels
  simp only [hctle]
  rw [List.map_filterMap]

end

/- Records (R298 to R301) ------------------------------------------------------------------------------------------------------------ -/

/-- Registers differ, but none of pin group `g` at offsets from 0x80 on. -/
structure Counted (s t : State) (g : Nat) : Prop where
  inv : t.Inv
  frame : t = { s with regs := t.regs }
  rd : ∀ o, 0x80 ≤ o → o < 0x10000 → t.rd (aPg g o) = s.rd (aPg g o)

theorem Counted.foldl_bumpSat {s : State} (h : s.Inv) {g : Nat} {l : List (Nat × W32)} (hl : ∀ x ∈ l, x.1 < 8) :
    Counted s (l.foldl (fun t x => t.bumpSat (aPg g (0x60 + 4 * x.1)) (uisOf x.2).length) s) g := by
  induction l generalizing s with
  | nil => exact ⟨h, rfl, fun _ _ _ => rfl⟩
  | cons x l ih =>
    have hx := hl x List.mem_cons_self
    obtain ⟨hinv, hframe, hrd⟩ := ih ((State.bumpSat_keeps (.refl s) (aPg g (0x60 + 4 * x.1)) (uisOf x.2).length).inv h)
      fun y hy => hl y (List.mem_cons_of_mem _ hy)
    rw [List.foldl_cons]
    exact ⟨hinv, by rw [hframe]; rfl, fun o h80 ho => (hrd o h80 ho).trans (State.rd_wr_ne (by unfold aPg; omega))⟩

/-- A fail record counted in FAIL_UI and REC_CNT, and SAW_FAIL of its sites (R298, R299). -/
def State.countRecord (s : State) (g : Nat) (r : FailRec) : State :=
  (r.mask.foldl (fun t x => t.bumpSat (aPg g (0x60 + 4 * x.1)) (uisOf x.2).length) (s.bump (aPg g 0x80) 1)).saw
    (laneMask g (r.mask.map (·.1))) 8

/-- What `countRecord` leaves. -/
structure RecordCounted (s t : State) (g : Nat) : Prop where
  inv : t.Inv
  frame : t = { s with regs := t.regs }
  count : t.rd (aPg g 0x80) = s.rd (aPg g 0x80) + 1
  rd : ∀ o, 0x80 < o → o < 0x10000 → t.rd (aPg g o) = s.rd (aPg g o)

theorem State.countRecord_spec {s : State} (h : s.Inv) {g : Nat} {r : FailRec} (hm : ∀ x ∈ r.mask, x.1 < 8) :
    RecordCounted s (s.countRecord g r) g := by
  have hcount := Counted.foldl_bumpSat (g := g) ((State.bump_keeps (.refl s) (aPg g 0x80) 1).inv h) hm
  have hinv : (s.countRecord g r).Inv := (State.saw_keeps (.refl _) _ _).inv hcount.inv
  obtain ⟨hframe, hlow⟩ := State.saw_lowRegs (r.mask.foldl (fun t x => t.bumpSat (aPg g (0x60 + 4 * x.1)) (uisOf x.2).length)
    (s.bump (aPg g 0x80) 1)) (laneMask g (r.mask.map (·.1))) 8
  have hbump : (s.bump (aPg g 0x80) 1).rd (aPg g 0x80) = s.rd (aPg g 0x80) + 1 := State.rd_wr_self h.regs _ _
  refine ⟨hinv, ?_, ?_, fun o h80 ho => ?_⟩
  · rw [State.countRecord, hframe, hcount.frame]
    rfl
  · rw [State.countRecord, hlow _ (by unfold aPg; omega), hcount.rd 0x80 (by decide) (by decide), hbump]
  · rw [State.countRecord, hlow _ (by unfold aPg; omega), hcount.rd o (by omega) ho]
    exact State.rd_wr_ne (by unfold aPg; omega)

theorem State.thrs_setThr_self {s : State} (h : s.Inv) (n : Nat) (v : ThrSt) : (s.setThr n v).thrs n = v := spGet_spSet_self h.thr _ _

/-- An item put into an intake queue stands at its end (R300). -/
theorem State.intakeOf_enqueue {s : State} (h : s.Inv) (g : Nat) (x : Intake) :
    (s.enqueue g x).intakeOf g = s.intakeOf g ++ [x] := by
  unfold State.enqueue State.intakeOf
  dsimp only
  rw [State.thrs_setThr_self h]
  split <;> rfl

/-- A diverted record grows the episode (R301). -/
theorem State.divert_spec {s : State} (h : s.Inv) (g : Nat) (r : FailRec) :
    let t := s.divert g r
    t.rd (aPg g 0x80) = s.rd (aPg g 0x80) ∧ t.mem = s.mem ∧ t.ths = s.ths ∧ t.thr = s.thr ∧
    t.rd (aPg g 0x84) = s.rd (aPg g 0x84) + 1 ∧ t.bit (aPg g 0x88) 0 = true ∧
    ∃ e, (t.pgs g).ep = some e ∧ e.records = min 0xFFFFFFFF (((s.pgs g).ep.map (·.records)).getD 0 + 1) := by
  intro t
  obtain ⟨e, he, hrec⟩ : ∃ e : Episode, t = (((s.setPg g { s.pgs g with ep := some e }).bump (aPg g 0x84) 1).setB (aPg g 0x88) 0) ∧
      e.records = min 0xFFFFFFFF (((s.pgs g).ep.map (·.records)).getD 0 + 1) := by
    refine ⟨_, rfl, ?_⟩
    dsimp only
    cases (s.pgs g).ep <;> rfl
  have hset := h.setPg g { s.pgs g with ep := some e }
  have hbump := (State.bump_keeps (.refl _) (aPg g 0x84) 1).inv hset
  have hpg := congrArg PgSt.ep (State.pgs_setPg_self h g { s.pgs g with ep := some e })
  have h80 : t.rd (aPg g 0x80) = s.rd (aPg g 0x80) := by
    rw [he]
    exact (State.rd_wf_ne (by unfold aPg; omega)).trans (State.rd_wr_ne (by unfold aPg; omega))
  have h84 : t.rd (aPg g 0x84) = s.rd (aPg g 0x84) + 1 := by
    rw [he]
    exact (State.rd_wf_ne (by unfold aPg; omega)).trans (State.rd_wr_self hset.regs _ _)
  have h88 : t.bit (aPg g 0x88) 0 = true := by
    rw [he]
    exact State.bit_setB_self hbump.regs _ (by decide)
  refine ⟨h80, by rw [he]; rfl, by rw [he]; rfl, by rw [he]; rfl, h84, h88, e, ?_, hrec⟩
  rw [he]
  exact hpg

/-- A record is counted; it enters the intake queue, or is diverted (R299 to R301). -/
theorem State.record_spec {s : State} (h : s.Inv) (g : Nat) (r : FailRec) (hm : ∀ x ∈ r.mask, x.1 < 8) :
    let t := s.record g r
    t.rd (aPg g 0x80) = s.rd (aPg g 0x80) + 1 ∧ t.mem = s.mem ∧ t.ths = s.ths ∧
    ((s.pgs g).ep = none → s.hasPlace g = true → t.intakeOf g = s.intakeOf g ++ [.fail r] ∧
      t.rd (aPg g 0x84) = s.rd (aPg g 0x84) ∧ t.pg = s.pg) ∧
    ((s.pgs g).ep ≠ none ∨ s.hasPlace g = false → t.intakeOf g = s.intakeOf g ∧
      t.rd (aPg g 0x84) = s.rd (aPg g 0x84) + 1 ∧ t.bit (aPg g 0x88) 0 = true ∧
      ∃ e, (t.pgs g).ep = some e ∧ e.records = min 0xFFFFFFFF ((((s.pgs g).ep.map (·.records)).getD 0) + 1)) := by
  have hc := State.countRecord_spec h (g := g) hm
  intro t
  have ht : t = if ((s.countRecord g r).pgs g).ep.isNone && (s.countRecord g r).hasPlace g
      then (s.countRecord g r).enqueue g (.fail r) else (s.countRecord g r).divert g r := rfl
  clear_value t
  generalize s.countRecord g r = u at hc ht
  have hpg : u.pgs g = s.pgs g := State.pgs_congr (by rw [hc.frame]) g
  have hin : u.intakeOf g = s.intakeOf g := by rw [hc.frame]; rfl
  have hplace : u.hasPlace g = s.hasPlace g := by rw [State.hasPlace, hin]; rfl
  have hmem : u.mem = s.mem := by rw [hc.frame]
  have hths : u.ths = s.ths := by rw [hc.frame]
  have hthr : u.thr = s.thr := by rw [hc.frame]
  have hupg : u.pg = s.pg := by rw [hc.frame]
  have h84 := hc.rd 0x84 (by decide) (by decide)
  rw [hpg, hplace] at ht
  by_cases hplaced : (s.pgs g).ep = none ∧ s.hasPlace g = true
  · rw [hplaced.1, hplaced.2] at ht
    have ht' : t = u.enqueue g (.fail r) := ht
    rw [ht']
    refine ⟨hc.count, hmem, hths, fun _ _ => ⟨?_, h84, hupg⟩, fun hor => ?_⟩
    · rw [State.intakeOf_enqueue hc.inv, hin]
    · rcases hor with hep | hpl
      · exact absurd hplaced.1 hep
      · rw [hplaced.2] at hpl; cases hpl
  · have hcond : ((s.pgs g).ep.isNone && s.hasPlace g) = false := by
      rw [Bool.eq_false_iff]
      intro hb
      rw [Bool.and_eq_true, Option.isNone_iff_eq_none] at hb
      exact hplaced hb
    rw [hcond, if_neg Bool.false_ne_true] at ht
    obtain ⟨h80, hdmem, hdths, hdthr, hd84, hd88, e, hep, hrec⟩ := State.divert_spec hc.inv g r
    rw [← ht] at h80 hdmem hdths hdthr hd84 hd88 hep
    rw [hpg] at hrec
    refine ⟨h80.trans hc.count, hdmem.trans hmem, hdths.trans hths, fun hep' hpl => absurd ⟨hep', hpl⟩ hplaced, fun _ => ⟨?_, ?_, hd88, e, hep, hrec⟩⟩
    · rw [← hin, State.intakeOf, State.intakeOf, State.thrs, State.thrs, hdthr]
    · rw [hd84, h84]

/-- The expected frame that is judged next (R296). -/
theorem State.judge_eq {s : State} {g : Nat} {rx : List LaneSamples} {e : ExpFrame} {rest : List ExpFrame}
    (he : (s.pgs g).line.dropWhile ExpFrame.quiet = e :: rest) : s.judge g rx =
      if decide ((s.pgs g).started < e.due) || !s.covered g e rx then s
      else match (s.setPg g { s.pgs g with line := rest }).failMask g e rx with
        | [] => s.setPg g { s.pgs g with line := rest }
        | m => (s.setPg g { s.pgs g with line := rest }).record g ⟨e.idx % 2 ^ 48, g, e.p, e.tagv, e.tag, m⟩ := by
  unfold State.judge
  dsimp only
  rw [he] <;> rfl

/-- The offsets of the counters of a pin group. -/
def pgCounters : List Nat := [0x60, 0x64, 0x68, 0x6C, 0x70, 0x74, 0x78, 0x7C, 0x80, 0x84]

theorem State.pgClear_eq (s : State) (g : Nat) : s.pgClear g = s.wrZeros (pgCounters.map (aPg g)) := rfl

/-- Settles O38: a due frame is judged by its fail mask, and a record is counted, then queued or diverted. -/
theorem failRecords : Obligations.FailRecords := by
  unfold Obligations.FailRecords
  refine ⟨?_, ?_, ?_, fun s g r h hm => State.record_spec h g.val r hm, fun s g e he hp => ?_, fun s g i rest hmk hp => ⟨fun he => ?_, fun he => ?_⟩,
    fun s g hs h => ⟨?_, ?_⟩⟩
  · intro s g rx e rest p s1 m hline
    have hexec : ∀ t, s.judge g.val rx = t → exec (.failRecord g rx) s = .next t := fun t ht => congrArg Host.Outcome.next ht
    have hjudge := State.judge_eq (rx := rx) hline
    refine ⟨fun hor => hexec _ ?_, fun hdue hcov hm => hexec _ ?_, fun hdue hcov hm => hexec _ ?_⟩
    · rw [hjudge, if_pos]
      rw [Bool.or_eq_true, decide_eq_true_eq, Bool.not_eq_true']
      exact hor
    · rw [hjudge, hcov, decide_eq_false (Nat.not_lt.mpr hdue), if_neg (by decide), show State.failMask _ g.val e rx = [] from hm]
    · rw [hjudge, hcov, decide_eq_false (Nat.not_lt.mpr hdue), if_neg (by decide)]
      split
      next hnil => exact absurd hnil hm
      next => rfl
  · intro s g l f v exp hnrz th
    exact ⟨State.decideSym_nrz hnrz f v, fun hedge => State.uiFails_edge hnrz hedge f v exp⟩
  · intro s g l f k b wave hist a tap h0 hnrz at_
    refine ⟨fun hoff => ?_, fun hon => ?_⟩
    · rw [State.beatLevels_flat f k b wave hist h0]
      have hdfe : s.dfe g.val l.val a.1 a.2 hist = 0 := by
        unfold State.dfe
        rw [hoff, if_neg Bool.false_ne_true]
      simp only [show s.dfe g.val l.val (s.rxAt g.val l.val f b).1 (s.rxAt g.val l.val f b).2 hist = 0 from hdfe, sub_zero]
      rfl
    · rw [State.beatLevels_flat f k b wave hist h0, State.dfe_nrz hnrz _ _ hist hon]
  · refine congrArg Host.Outcome.next ?_
    unfold State.summarize
    dsimp only
    rw [he]
    dsimp only
    rw [if_pos hp]
  · refine congrArg Host.Outcome.next ?_
    unfold State.closeMarkIn
    dsimp only
    rw [hmk]
    dsimp only
    rw [he, hp]
    rfl
  · refine congrArg Host.Outcome.next ?_
    unfold State.closeMarkIn
    dsimp only
    rw [hmk]
    dsimp only
    rw [if_neg]
    rw [Bool.and_eq_true, Option.isNone_iff_eq_none]
    exact fun hand => he hand.1
  · refine ⟨_, congrArg Host.Outcome.next (State.mgmtDo_awake hs _ _ _), ⟨?_, fun a ha => ?_⟩, fun o ho => ?_⟩
    · exact State.wrZeros_eq (s.mgmtIn (aPg g.val 0x8C) true) (pgCounters.map (aPg g.val))
    · exact State.rd_wrZeros_ne ha
    · exact State.rd_wrZeros_mem (h.mgmtIn _ _) (List.mem_map_of_mem ho)
  · have hinv := (h.mgmtIn (aPg g.val 0x10) false).wr (aPg g.val 0x10) (BitVec.ofNat 32 ((s.pgs g.val).started - 1))
    refine ⟨_, congrArg Host.Outcome.next (State.mgmtDo_awake hs _ _ _), rfl, ?_, rfl⟩
    exact State.rd_wr_self hinv.regs _ _

end Sys2Proof.Machine
end

section

/-! Repair regions: notices, incompleteness and closing; the intake of the Threshers (O39). -/

namespace Sys2Proof.Machine

/- Regions ---------------------------------------------------------------------------------------------------------- -/

theorem State.region_setRegion_self {s : State} (h : s.Inv) (g : Nat) (v : Region_) : (s.setRegion g v).region g = v :=
  spGet_spSet_self h.regions _ _

theorem State.region_setRegion_ne {s : State} {g j : Nat} (hj : j ≠ g) (v : Region_) : (s.setRegion g v).region j = s.region j :=
  spGet_spSet_ne _ _ hj

theorem State.Inv.setRegion {s : State} (h : s.Inv) (g : Nat) (v : Region_) : (s.setRegion g v).Inv :=
  (State.setRegion_keeps (.refl s) g v).inv h

theorem State.Inv.setThr {s : State} (h : s.Inv) (n : Nat) (v : ThrSt) : (s.setThr n v).Inv := (State.setThr_keeps (.refl s) n v).inv h

theorem State.Inv.bump {s : State} (h : s.Inv) (a n : Nat) : (s.bump a n).Inv := h.wr a _

theorem State.sawRegion_lowRegs (s : State) (g : Nat) : LowRegs s (s.sawRegion g) :=
  .foldl_setB 9 (fun _ hi => List.mem_range.mp (List.mem_filter.mp hi).1) s

/-- What concerns region `g` alone: its entry, registers of sites and events. -/
structure AtRegion (s t : State) (g : Nat) : Prop where
  inv : t.Inv
  frame : t = { s with regions := t.regions, regs := t.regs, evq := t.evq }
  rd : ∀ a, 0x10000 ≤ a → t.rd a = s.rd a
  other : ∀ j, j ≠ g → t.region j = s.region j

theorem AtRegion.refl {s : State} (h : s.Inv) (g : Nat) : AtRegion s s g := ⟨h, rfl, fun _ _ => rfl, fun _ _ => rfl⟩

theorem AtRegion.trans {s t u : State} {g : Nat} (h₁ : AtRegion s t g) (h₂ : AtRegion t u g) : AtRegion s u g where
  inv := h₂.inv
  frame := by rw [h₂.frame, h₁.frame]
  rd a ha := (h₂.rd a ha).trans (h₁.rd a ha)
  other j hj := (h₂.other j hj).trans (h₁.other j hj)

theorem AtRegion.setRegion {s : State} (h : s.Inv) (g : Nat) (v : Region_) : AtRegion s (s.setRegion g v) g :=
  ⟨h.setRegion g v, rfl, fun _ _ => rfl, fun _ hj => State.region_setRegion_ne hj v⟩

theorem AtRegion.post {s : State} (h : s.Inv) (g rank : Nat) (task : Option Nat) (cls obj : Nat) :
    AtRegion s (s.post rank task cls obj) g :=
  ⟨(State.post_keeps (.refl s) rank task cls obj).inv h, rfl, fun _ _ => rfl, fun _ _ => rfl⟩

theorem LowRegs.atRegion {s t : State} (g : Nat) (ht : t.Inv) (h : LowRegs s t) : AtRegion s t g :=
  ⟨ht, by rw [h.1], h.2, fun _ _ => by rw [h.1]; rfl⟩

/-- A bit that is set already stays. -/
theorem or_shift_of_getLsbD {x : BitVec 5} {k : Nat} (h : x.getLsbD k = true) : x ||| (1 <<< k) = x := by
  refine BitVec.eq_of_getLsbD_eq fun i hi => ?_
  rw [BitVec.getLsbD_or, BitVec.natCast_eq_ofNat, BitVec.getLsbD_ofNat, Nat.one_shiftLeft, Nat.testBit_two_pow]
  by_cases hik : k = i
  · rw [← hik, h, Bool.true_or]
  · rw [decide_eq_false hik, Bool.and_false, Bool.or_false]

/-- The event that a new notice raises (R313). -/
def State.noticeEvent (s : State) (g k : Nat) : List EvReq :=
  if (s.region g).notice.getLsbD k = false ∧ (s.rdescOf g).getLsbD (96 + k) = true then
    [⟨rkThr (thrOf g), some (fld (s.rdescOf g) 48 16), 4, BitVec.ofNat 32 g⟩] else []

/-- A notice reason of a region (R313). -/
theorem State.notice_spec {s : State} (h : s.Inv) (g k : Nat) :
    AtRegion s (s.notice g k) g ∧
    (s.notice g k).region g = { s.region g with notice := (s.region g).notice ||| (1 <<< k) } ∧
    (s.notice g k).evq = s.evq ++ s.noticeEvent g k := by
  unfold State.notice State.noticeEvent
  dsimp only
  by_cases hk : (s.region g).notice.getLsbD k = true
  · rw [if_pos hk, if_neg (by rw [hk]; exact fun hc => absurd hc.1 (by decide))]
    exact ⟨.refl h g, by rw [or_shift_of_getLsbD hk], (List.append_nil _).symm⟩
  · have hk' := Bool.eq_false_iff.mpr hk
    rw [if_neg hk]
    have hset := AtRegion.setRegion h g { s.region g with notice := (s.region g).notice ||| (1 <<< k) }
    have hself := State.region_setRegion_self h g { s.region g with notice := (s.region g).notice ||| (1 <<< k) }
    by_cases he : (s.rdescOf g).getLsbD (96 + k) = true
    · rw [if_pos he, if_pos ⟨hk', he⟩]
      exact ⟨hset.trans (.post hset.inv g _ _ _ _), hself, rfl⟩
    · rw [if_neg he, if_neg fun hc => he hc.2]
      exact ⟨hset, hself, (List.append_nil _).symm⟩

/-- A region that becomes INCOMPLETE (R304, R313). -/
theorem State.incomplete_spec {s : State} (h : s.Inv) (g : Nat) :
    AtRegion s (s.incomplete g) g ∧
    (s.incomplete g).region g = { s.region g with
      inc := true, notice := if (s.region g).inc then (s.region g).notice else (s.region g).notice ||| 4 } := by
  unfold State.incomplete
  have hsaw : ∀ {t : State}, AtRegion s t g → AtRegion s (t.sawRegion g) g ∧ (t.sawRegion g).region g = t.region g := by
    intro t ht
    have hlow := State.sawRegion_lowRegs t g
    exact ⟨ht.trans (hlow.atRegion g ((State.sawRegion_keeps (.refl t) g).inv ht.inv)), by rw [hlow.1]; rfl⟩
  cases hinc : (s.region g).inc with
  | true =>
    obtain ⟨hat, hself⟩ := hsaw (.refl h g)
    refine ⟨hat, hself.trans ?_⟩
    rw [if_pos rfl, ← hinc]
  | false =>
    have hset := AtRegion.setRegion h g { s.region g with inc := true }
    obtain ⟨hnot, hreg, -⟩ := State.notice_spec hset.inv g 2
    obtain ⟨hat, hself⟩ := hsaw (hset.trans hnot)
    rw [if_neg Bool.false_ne_true, if_neg Bool.false_ne_true]
    refine ⟨hat, hself.trans (hreg.trans ?_)⟩
    rw [State.region_setRegion_self h]
    rfl

/-- What several regions of a Thresher concerns: their entries, registers of sites and events. -/
structure AtRegions (s t : State) : Prop where
  inv : t.Inv
  frame : t = { s with regions := t.regions, regs := t.regs, evq := t.evq }
  rd : ∀ a, 0x10000 ≤ a → t.rd a = s.rd a

theorem AtRegions.refl {s : State} (h : s.Inv) : AtRegions s s := ⟨h, rfl, fun _ _ => rfl⟩

theorem AtRegions.then {s t u : State} {g : Nat} (h₁ : AtRegions s t) (h₂ : AtRegion t u g) : AtRegions s u where
  inv := h₂.inv
  frame := by rw [h₂.frame, h₁.frame]
  rd a ha := (h₂.rd a ha).trans (h₁.rd a ha)

/-- A region that an overflow summary covers (R303, R317). -/
theorem State.coverRegion_spec {s : State} (h : s.Inv) (g : Nat) :
    AtRegion s (s.coverRegion g) g ∧ ((s.coverRegion g).region g).st = (s.region g).st ∧
    ((s.region g).st ≠ .idle → ((s.coverRegion g).region g).inc = true ∧ ((s.coverRegion g).region g).binc = true) ∧
    ((s.region g).st = .idle → (s.coverRegion g).region g = s.region g) := by
  unfold State.coverRegion
  dsimp only
  by_cases hi : (s.region g).st = .idle
  · rw [if_pos hi]
    exact ⟨.refl h g, rfl, fun hn => absurd hi hn, fun _ => rfl⟩
  · rw [if_neg hi]
    have hset := AtRegion.setRegion h g { s.region g with binc := true }
    obtain ⟨hinc, hreg⟩ := State.incomplete_spec hset.inv g
    rw [State.region_setRegion_self h] at hreg
    exact ⟨hset.trans hinc, by rw [hreg], fun _ => ⟨by rw [hreg], by rw [hreg]⟩, fun hc => absurd hc hi⟩

/-- The regions that an overflow summary covers (R303, R317). -/
theorem State.coverRegions_spec {s : State} (h : s.Inv) (l : List Nat) :
    let t := l.foldl State.coverRegion s
    AtRegions s t ∧
    (∀ k, (t.region k).st = (s.region k).st) ∧
    (∀ k, (s.region k).st ≠ .idle → (k ∈ l ∨ ((s.region k).inc = true ∧ (s.region k).binc = true)) →
      (t.region k).inc = true ∧ (t.region k).binc = true) ∧
    ∀ k, (s.region k).st = .idle → t.region k = s.region k := by
  induction l generalizing s with
  | nil => exact ⟨.refl h, fun _ => rfl, fun k _ hk => hk.resolve_left List.not_mem_nil, fun _ _ => rfl⟩
  | cons g l ih =>
    obtain ⟨hat, hst, hset, hidle⟩ := State.coverRegion_spec h g
    obtain ⟨hall, hsts, hsets, hidles⟩ := ih hat.inv
    have hkst : ∀ k, ((s.coverRegion g).region k).st = (s.region k).st := fun k => by
      by_cases hk : k = g
      · rw [hk, hst]
      · rw [hat.other k hk]
    refine ⟨?_, fun k => (hsts k).trans (hkst k), fun k hk hor => hsets k ?_ ?_, fun k hk => ?_⟩
    · exact { inv := hall.inv, frame := by rw [List.foldl_cons, hall.frame, hat.frame], rd := fun a ha => (hall.rd a ha).trans (hat.rd a ha) }
    · rwa [hkst]
    · by_cases hkg : k = g
      · rw [hkg]
        exact .inr (hset (hkg ▸ hk))
      · rw [hat.other k hkg]
        exact hor.imp_left fun hm => (List.mem_cons.mp hm).resolve_left hkg
    · have hrest := hidles k (by rwa [hkst])
      refine hrest.trans ?_
      by_cases hkg : k = g
      · rw [hkg]
        exact hidle (hkg ▸ hk)
      · exact hat.other k hkg

/- Intake ------------------------------------------------------------------------------------------------------------- -/

/-- Intake goes on when no assist operation is in progress or has its turn (R314). -/
theorem State.intakeItem_eq {s : State} {n : Nat} {x : Bool × Intake} (hx : s.xferOf (.assist n) = none) (hj : (s.thrs n).job = none)
    (hfree : (s.thrs n).assist = [] ∨ 64 ≤ (s.thrs n).out.length ∨ (s.thrs n).times < 64)
    (hi : (s.thrs n).nextItem = some x) : s.intakeItem n = some x := by
  have hturn : ((s.thrs n).wantsAssist && (s.thrs n).assistTurn) = false := by
    unfold ThrSt.wantsAssist ThrSt.assistTurn
    rcases hfree with h | h | h
    · rw [h]
      rfl
    · rw [decide_eq_false (Nat.not_lt.mpr h), Bool.and_false, Bool.false_and]
    · have hq : ((s.thrs n).q0.isEmpty && (s.thrs n).q1.isEmpty) = false := by
        unfold ThrSt.nextItem at hi
        cases h0 : (s.thrs n).q0 with
        | cons a l => rfl
        | nil =>
          cases h1 : (s.thrs n).q1 with
          | cons b l => rfl
          | nil =>
            rw [h0, h1] at hi
            exact absurd hi nofun
      rw [hq, decide_eq_false (Nat.not_le.mpr h), Bool.or_false, Bool.and_false]
  unfold State.intakeItem
  dsimp only
  rw [hx, hj, hturn, if_neg (by decide), hi]

/-- Intake waits for an assist operation in progress, a release of pages or an assist operation that has its turn (R314). -/
theorem State.intakeItem_none {s : State} {n : Nat} (hw : s.xferOf (.assist n) ≠ none ∨ (s.thrs n).job ≠ none ∨
    ((s.thrs n).assist ≠ [] ∧ (s.thrs n).out.length < 64 ∧ 64 ≤ (s.thrs n).times)) : s.intakeItem n = none := by
  unfold State.intakeItem
  refine if_pos ?_
  rw [Bool.or_eq_true, Bool.or_eq_true]
  rcases hw with h | h | ⟨ha, ho, ht⟩
  · exact .inl (.inl (Option.isSome_iff_ne_none.mpr h))
  · exact .inl (.inr (Option.isSome_iff_ne_none.mpr h))
  · refine .inr ?_
    unfold ThrSt.wantsAssist ThrSt.assistTurn
    rw [decide_eq_true ho, decide_eq_true ht, List.isEmpty_eq_false_iff.mpr ha, Bool.or_true]
    rfl

/-- The offsets of the counters of a Thresher (R6). -/
def thrCounters : List Nat := [0x10, 0x14, 0x18, 0x1C, 0x20, 0x24, 0x28]

theorem State.thrClear_eq (s : State) (n : Nat) : s.thrClear n = s.wrZeros (thrCounters.map (aThr n)) := rfl

/-- An overflow summary is taken (R303). -/
theorem State.takeSummary_eq {s : State} {n g : Nat} {q : Bool} {e : Episode} (hi : s.intakeItem n = some (q, .summary g e)) :
    s.takeSummary n = (e.ranges.flatMap fun r => (List.range (r.2.2 + 1 - r.2.1)).map fun k => 4096 * n + r.2.1 + k).foldl
      State.coverRegion ((((s.setThr n ((s.thrs n).taken q 1)).bump (aThr n 0x18) e.records).bump (aThr n 0x1C) e.ui).setB (aThr n 4) 0) := by
  unfold State.takeSummary
  rw [hi]

/-- Settles O39: the item that is next is taken unless an assist operation holds the Thresher; a summary covers its regions one by one. -/
theorem thresherIntake : Obligations.ThresherIntake := by
  unfold Obligations.ThresherIntake
  refine ⟨?_, ?_, ?_, fun s n hw => ?_, fun s n hs h => ?_⟩
  · intro s n q r t c s1 hs hx hj hfree hi
    have hitem := State.intakeItem_eq hx hj hfree hi
    have hexec : ∀ u, s.takeRecord n.val = u → exec (.recordIntake n) s = .next u := fun u hu =>
      congrArg Host.Outcome.next ((State.awakeDo_awake hs _).trans hu)
    refine ⟨fun htag => hexec _ ?_, fun htag hc => hexec _ ?_, fun htag hc => hexec _ ?_⟩
    · unfold State.takeRecord
      rw [hitem]
      exact if_pos (by rw [htag]; rfl)
    · unfold State.takeRecord
      rw [hitem]
      refine (if_neg (by rw [htag]; decide)).trans ?_
      exact congrArg (List.foldl State.applyCell · c.1) (if_neg (Nat.not_lt.mpr (Nat.le_of_eq hc)))
    · unfold State.takeRecord
      rw [hitem]
      refine (if_neg (by rw [htag]; decide)).trans ?_
      exact congrArg (List.foldl State.applyCell · c.1) (if_pos hc)
  · intro s n q g e t hs hx hj hfree hi h
    have heq := State.takeSummary_eq (State.intakeItem_eq hx hj hfree hi)
    have ht0 := h.setThr n.val (t.taken q 1)
    have ht1 := ht0.bump (aThr n.val 0x18) e.records
    have ht2 := ht1.bump (aThr n.val 0x1C) e.ui
    obtain ⟨hall, -, hset, hidle⟩ := State.coverRegions_spec (ht2.setB (aThr n.val 4) 0)
      (e.ranges.flatMap fun r => (List.range (r.2.2 + 1 - r.2.1)).map fun k => 4096 * n.val + r.2.1 + k)
    refine ⟨_, congrArg Host.Outcome.next ((State.awakeDo_awake hs _).trans heq), ?_, ?_, ?_, ?_, ?_, fun lane lo hi' k hm hlo hhi hne => hset _ hne (.inl ?_), hidle⟩
    · rw [hall.rd _ (by unfold aThr; omega)]
      refine (State.rd_wf_ne (by unfold aThr; omega)).trans ((State.rd_wr_ne (by unfold aThr; omega)).trans ?_)
      exact State.rd_wr_self ht0.regs _ _
    · rw [hall.rd _ (by unfold aThr; omega)]
      refine (State.rd_wf_ne (by unfold aThr; omega)).trans ((State.rd_wr_self ht1.regs _ _).trans ?_)
      refine congrArg (· + BitVec.ofNat 32 e.ui) ?_
      exact State.rd_wr_ne (by unfold aThr; omega)
    · rw [State.bit_of_rd (hall.rd _ (by unfold aThr; omega))]
      exact State.bit_setB_self ht2.regs _ (by decide)
    · rw [hall.frame]
      exact State.thrs_setThr_self h n.val (t.taken q 1)
    · rw [hall.frame]
      rfl
    · rw [List.mem_flatMap]
      refine ⟨(lane, lo, hi'), hm, List.mem_map.mpr ⟨k - lo, List.mem_range.mpr ?_, ?_⟩⟩
      · dsimp only; omega
      · dsimp only; omega
  · intro s n q g i t t1 marks need hs hx hj hfree hi
    have hitem := State.intakeItem_eq hx hj hfree hi
    have hexec : ∀ u, s.takeMark n.val = u → exec (.closeMarkIntake n) s = .next u.poll := fun u hu =>
      congrArg Host.Outcome.next ((State.awakeDo_awake hs _).trans (congrArg State.poll hu))
    refine ⟨fun hall => hexec _ ?_, fun hall => hexec _ ?_⟩
    · unfold State.takeMark
      rw [hitem]
      exact if_neg (by rw [hall]; decide)
    · unfold State.takeMark
      rw [hitem]
      exact if_pos hall
  · have hnone := State.intakeItem_none hw
    have hrec : s.takeRecord n.val = s := by
      unfold State.takeRecord
      rw [hnone]
    have hsum : s.takeSummary n.val = s := by
      unfold State.takeSummary
      rw [hnone]
    refine ⟨congrArg Host.Outcome.next ?_, congrArg Host.Outcome.next ?_⟩
    · exact (congrArg (fun t => if s.sleeping = true then s else t) hrec).trans (ite_self s)
    · exact (congrArg (fun t => if s.sleeping = true then s else t) hsum).trans (ite_self s)
  · refine ⟨_, congrArg Host.Outcome.next (State.mgmtDo_awake hs _ _ _), ⟨?_, fun a ha => ?_⟩, fun o ho => ?_⟩
    · exact State.wrZeros_eq (s.mgmtIn (aThr n.val 0x2C) true) (thrCounters.map (aThr n.val))
    · exact State.rd_wrZeros_ne ha
    · exact State.rd_wrZeros_mem (h.mgmtIn _ _) (List.mem_map_of_mem ho)

end Sys2Proof.Machine
end

section

/-! The cells of regions, bitmap writes, region resets and the free list (O40). -/

namespace Sys2Proof.Machine

/- Must-repair analysis --------------------------------------------------------------------------------------------- -/

/-- The analysis turns spares into lines and leaves the state of the region and the count of its cells (R311). -/
structure Spent (r r' : Region_) : Prop where
  rows : r'.rows ≤ r.rows
  cols : r'.cols ≤ r.cols
  sum : r'.rows + r'.cols + r'.lines.length = r.rows + r.cols + r.lines.length
  entered : r'.entered = r.entered
  st : r'.st = r.st

theorem Spent.refl (r : Region_) : Spent r r := ⟨le_refl _, le_refl _, rfl, rfl, rfl⟩

theorem Spent.trans {r₁ r₂ r₃ : Region_} (h₁ : Spent r₁ r₂) (h₂ : Spent r₂ r₃) : Spent r₁ r₃ :=
  ⟨h₂.rows.trans h₁.rows, h₂.cols.trans h₁.cols, h₂.sum.trans h₁.sum, h₂.entered.trans h₁.entered, h₂.st.trans h₁.st⟩

/-- A line that has a spare. -/
theorem spent_assignLine {r : Region_} {col : Bool} (h : (if col then r.cols else r.rows) ≠ 0) (i : Nat) (tag : LineTag) :
    Spent r (assignLine r col i tag) := by
  have hlen : (assignLine r col i tag).lines.length = r.lines.length + 1 := List.length_append
  have hrows : (assignLine r col i tag).rows = if col then r.rows else r.rows - 1 := rfl
  have hcols : (assignLine r col i tag).cols = if col then r.cols - 1 else r.cols := rfl
  cases col with
  | false =>
    rw [if_neg Bool.false_ne_true] at h hrows hcols
    exact ⟨by omega, by omega, by omega, rfl, rfl⟩
  | true =>
    rw [if_pos rfl] at h hrows hcols
    exact ⟨by omega, by omega, by omega, rfl, rfl⟩

theorem spent_settleLines (col : Bool) (r : Region_) (l : List Nat) : Spent r (settleLines col r l) := by
  induction l generalizing r with
  | nil => exact .refl r
  | cons i l ih =>
    unfold settleLines
    by_cases h : (if col then r.cols else r.rows) = 0
    · rw [if_pos h]
      exact ⟨le_refl _, le_refl _, rfl, rfl, rfl⟩
    · rw [if_neg h]
      exact (spent_assignLine h i .must).trans (ih _)

theorem spent_settle (n : Nat) (r : Region_) : Spent r (settle n r) := by
  induction n generalizing r with
  | zero => exact .refl r
  | succ n ih =>
    have hrows := spent_settleLines false r (demanded false r)
    have hcols := hrows.trans (spent_settleLines true _ (demanded true (settleLines false r (demanded false r))))
    unfold settle
    dsimp only
    split
    next => exact hrows
    next =>
      split
      next => exact hcols
      next =>
        split
        next => exact hcols
        next => exact hcols.trans (ih _)

/-- A new uncovered cell of an OPEN region, where the tables have room (R310, R311). -/
theorem State.openCell_enters {s : State} (h : s.Inv) {g x y : Nat} (hu : (s.region g).unrep = false)
    (hcov : covers (s.region g).lines (x, y) = false) (hnew : (x, y) ∉ (s.region g).cells)
    (ht : s.tableUse (thrOf g) + 2 ≤ 65536) (hs : s.sparseUse (thrOf g) < 131072) :
    ∃ k, (s.openCell g x y).region g =
      { Machine.settle 66 { s.region g with cells := insCell (x, y) (s.region g).cells, entered := (s.region g).entered + 1 } with
        notice := k } := by
  have hneed : ∀ a b : Bool, ¬65536 < s.tableUse (thrOf g) + (a.toNat + b.toNat) := fun a b => by
    have := Bool.toNat_le a
    have := Bool.toNat_le b
    omega
  unfold State.openCell
  dsimp only
  rw [if_neg, decide_eq_false (hneed _ _), decide_eq_false (by omega), if_neg (by decide)]
  · generalize Machine.settle 66 { s.region g with cells := insCell (x, y) (s.region g).cells, entered := (s.region g).entered + 1 } = r1
    have hb := h.bump (aThr (thrOf g) 0x14) 1
    have h1 := hb.setRegion g r1
    have hself := State.region_setRegion_self hb g r1
    have hnotice : ∀ {t : State} {c : Prop} [Decidable c] (j : Nat), t.Inv → (∃ k, t.region g = { r1 with notice := k }) →
        (if c then t.notice g j else t).Inv ∧ ∃ k, (if c then t.notice g j else t).region g = { r1 with notice := k } := by
      intro t c _ j hinv ⟨k, hk⟩
      split
      next =>
        obtain ⟨hat, hreg, -⟩ := State.notice_spec hinv g j
        exact ⟨hat.inv, _, hreg.trans (by rw [hk])⟩
      next => exact ⟨hinv, k, hk⟩
    obtain ⟨hinv, hreg⟩ := hnotice (c := (s.region g).lines.length < r1.lines.length) 0 h1 ⟨r1.notice, hself⟩
    exact (hnotice 1 hinv hreg).2
  · rw [hu, hcov, List.contains_eq_mem, decide_eq_false hnew]
    decide

/-- A cell for a CLOSED region (R304). -/
theorem State.lateCell_spec {s : State} (h : s.Inv) (g : Nat) :
    (s.lateCell g).region g = { s.region g with
      late := true, inc := true, notice := if (s.region g).inc then (s.region g).notice else (s.region g).notice ||| 4 } ∧
    (s.lateCell g).bit (aThr (thrOf g) 4) 4 = true := by
  have hr := h.setRegion g { s.region g with late := true }
  obtain ⟨hat, hreg⟩ := State.incomplete_spec (hr.setB (aThr (thrOf g) 4) 4) g
  have hself : ((s.setRegion g { s.region g with late := true }).setB (aThr (thrOf g) 4) 4).region g =
      { s.region g with late := true } := State.region_setRegion_self h g _
  rw [hself] at hreg
  refine ⟨hreg, (State.bit_of_rd (hat.rd _ (by unfold aThr; omega)) 4).trans (State.bit_setB_self hr.regs _ (by decide))⟩

/- Transfers ------------------------------------------------------------------------------------------------------------ -/

/-- A transfer that has just begun is not over: its first transaction awaits its answer (R355). -/
theorem State.xferOf_xferStart {s : State} {k : XferKey} (hk : s.xferOf k = none) (port slot : Nat) {blk : Nat} (hblk : 0 < blk)
    (a : Nat) {n : Nat} (hn : 0 < n) (data : Option (List Byte)) :
    ∃ x, (s.xferStart k port slot blk false a n data).xferOf k = some x ∧ x.over = false := by
  obtain ⟨x, hx⟩ : ∃ x : Xfer, x = ⟨s.nextId, k, port, slot, blk, false, a, n, data, 0, 0, 0, 0, List.replicate n 0, none⟩ := ⟨_, rfl⟩
  have hsize : 0 < min (blk - a % blk) n := lt_min (Nat.sub_pos_of_lt (Nat.mod_lt _ hblk)) hn
  obtain ⟨y, hy⟩ : ∃ y : Xfer, y = { x with sent := 0 + min (blk - a % blk) n, last := 0 } := ⟨_, rfl⟩
  have hxfers : (s.xferStart k port slot blk false a n data).xfers = (s.xfers ++ [x]).map fun z => if z.id = y.id then y else z := by
    unfold State.xferStart
    dsimp only
    rw [← hx, if_neg Bool.false_ne_true, State.xferIssue, if_neg (by rw [hx]; exact Nat.not_le.mpr hn)]
    subst hy hx
    rfl
  have hkey : y.key = k := by rw [hy, hx]
  have hover : y.over = false := by
    unfold Xfer.over
    rw [hy, hx]
    dsimp only
    rw [beq_eq_false_iff_ne.mpr (by omega), Bool.false_and]
  have hall : ∀ z ∈ s.xfers, z.key ≠ k := fun z hz hc => by
    have := List.find?_eq_none.mp hk z hz
    exact this (beq_iff_eq.mpr hc)
  cases hf : (s.xferStart k port slot blk false a n data).xferOf k with
  | none =>
    have hmem : y ∈ (s.xferStart k port slot blk false a n data).xfers := by
      rw [hxfers, List.mem_map]
      exact ⟨x, List.mem_append_right _ (List.mem_singleton.mpr rfl), if_pos (by rw [hy])⟩
    exact absurd (beq_iff_eq.mpr hkey) (List.find?_eq_none.mp hf y hmem)
  | some z =>
    have hz := List.mem_of_find?_eq_some hf
    have hzk := eq_of_beq (List.find?_some (p := fun z : Xfer => z.key == k) hf)
    rw [hxfers, List.mem_map] at hz
    obtain ⟨w, hw, hwz⟩ := hz
    refine ⟨z, rfl, ?_⟩
    by_cases hid : w.id = y.id
    · rw [if_pos hid] at hwz
      rw [← hwz, hover]
    · rw [if_neg hid] at hwz
      rcases List.mem_append.mp hw with hold | hnew
      · exact absurd (hwz ▸ hzk) (hall w hold)
      · rw [List.mem_singleton.mp hnew, hy] at hid
        exact absurd rfl hid

/-- A transfer as its master sees it begins. -/
theorem State.xfer_begins {s : State} {k : XferKey} (hk : s.xferOf k = none) (port slot : Nat) {blk : Nat} (hblk : 0 < blk)
    (a : Nat) {n : Nat} (hn : 0 < n) (data : Option (List Byte)) :
    s.xfer k port slot blk false a n data = (s.xferStart k port slot blk false a n data, none) := by
  obtain ⟨x, hx, hover⟩ := State.xferOf_xferStart hk port slot hblk a hn data
  unfold State.xfer
  rw [hk]
  dsimp only [Option.isSome_none]
  rw [if_neg Bool.false_ne_true, hx]
  dsimp only
  rw [hover, if_neg Bool.false_ne_true]

/-- A transfer that goes on. -/
theorem State.xfer_waits {s : State} {k : XferKey} {x : Xfer} (hk : s.xferOf k = some x) (hover : x.over = false) (port slot blk : Nat)
    (all : Bool) (a n : Nat) (data : Option (List Byte)) : s.xfer k port slot blk all a n data = (s, none) := by
  unfold State.xfer
  rw [hk]
  dsimp only [Option.isSome_some]
  rw [if_pos rfl, hk]
  dsimp only
  rw [hover, if_neg Bool.false_ne_true]

/-- A transfer that is over leaves the list. -/
theorem State.xfer_ends {s : State} {k : XferKey} {x : Xfer} (hk : s.xferOf k = some x) (hover : x.over = true) (port slot blk : Nat)
    (all : Bool) (a n : Nat) (data : Option (List Byte)) : s.xfer k port slot blk all a n data = (s.dropXfer k, some x) := by
  unfold State.xfer
  rw [hk]
  dsimp only [Option.isSome_some]
  rw [if_pos rfl, hk]
  dsimp only
  rw [hover, if_pos rfl]

end Sys2Proof.Machine
end

section

/-! The free list, bitmap writes and region resets (O40). -/

namespace Sys2Proof.Machine

/- The free list -------------------------------------------------------------------------------------------------------- -/

/-- The ring of Thresher `n` is full (R316). -/
def State.flFull (s : State) (n : Nat) : Prop := s.flSize n ≤ s.rf (aThr n 0x114) 0 19

theorem State.flFull_iff_of_rd {s t : State} {n : Nat} (h : ∀ a, a ≠ aThr n 4 → t.rd a = s.rd a) : t.flFull n ↔ s.flFull n := by
  unfold State.flFull State.flSize
  rw [State.rf_of_rd (h (aThr n 0x108) (by unfold aThr; omega)), State.rf_of_rd (h (aThr n 0x114) (by unfold aThr; omega))]

theorem State.Inv.flag {s : State} (h : s.Inv) (a i : Nat) : (s.flag a i).Inv := (State.flag_keeps (.refl s) a i).inv h

theorem State.flag_regs (s : State) (a i : Nat) : (s.flag a i).regs = (s.setB a i).regs := by
  unfold State.flag
  rfl

theorem State.rd_flag_ne {s : State} {a b : Nat} (i : Nat) (h : b ≠ a) : (s.flag a i).rd b = s.rd b :=
  (State.rd_congr (State.flag_regs s a i) b).trans (State.rd_wr_ne h)

theorem State.bit_flag_ne {s : State} (h : s.Inv) (a : Nat) {i j : Nat} (hij : j ≠ i) : (s.flag a i).bit a j = s.bit a j :=
  (State.bit_congr (State.flag_regs s a i) a j).trans (State.bit_setB_ne h.regs a hij)

/-- The pages that go to the free list next: the first that the ring has room for is written, those before it are dropped (R316). -/
structure FlNext (s t : State) (n : Nat) (l : List Nat) : Prop where
  regions : t.regions = s.regions
  rd : ∀ a, a ≠ aThr n 4 → t.rd a = s.rd a
  bit : t.bit (aThr n 4) 7 = s.bit (aThr n 4) 7
  full : s.flFull n → t.thrs n = { s.thrs n with toFree := [], freeing := false }
  room : ¬s.flFull n → t.thrs n = { s.thrs n with toFree := l, freeing := !l.isEmpty }

theorem State.flNext_spec {s : State} (h : s.Inv) (n : Nat) (l : List Nat) : FlNext s (s.flNext n l) n l := by
  induction l generalizing s with
  | nil =>
    have hself := State.thrs_setThr_self h n { s.thrs n with toFree := [], freeing := false }
    exact ⟨rfl, fun _ _ => rfl, rfl, fun _ => hself, fun _ => hself⟩
  | cons p l ih =>
    unfold State.flNext
    by_cases hf : s.flFull n
    · rw [if_pos (show s.flSize n ≤ _ from hf)]
      have hrd : ∀ a, a ≠ aThr n 4 → (s.flag (aThr n 4) 8).rd a = s.rd a := fun a ha => State.rd_flag_ne 8 ha
      have hstep := ih (h.flag (aThr n 4) 8)
      refine ⟨hstep.regions, fun a ha => (hstep.rd a ha).trans (hrd a ha), hstep.bit.trans (State.bit_flag_ne h _ (by decide)),
        fun _ => hstep.full ((State.flFull_iff_of_rd hrd).mpr hf), fun hn => absurd hf hn⟩
    · rw [if_neg (show ¬s.flSize n ≤ _ from hf)]
      exact ⟨rfl, fun _ _ => rfl, rfl, fun hc => absurd hc hf,
        fun _ => State.thrs_setThr_self h n { s.thrs n with toFree := p :: l, freeing := true }⟩

/-- The write of the oldest page was answered (R316, R317). -/
theorem State.flDone_spec {s : State} (h : s.Inv) {n p : Nat} {l : List Nat} (hl : (s.thrs n).toFree = p :: l) :
    let k := s.rf (aThr n 0x114) 0 19
    let t := s.flDone n true
    let e := s.flDone n false
    t.rd (aThr n 0x110) = BitVec.ofNat 32 ((s.rf (aThr n 0x110) 0 18 + 1) % s.flSize n) ∧
    t.rd (aThr n 0x114) = BitVec.ofNat 32 (k + 1) ∧
    (l = [] → (t.thrs n).toFree = [] ∧ (t.thrs n).freeing = false) ∧
    (k + 1 < s.flSize n → l ≠ [] → (t.thrs n).toFree = l ∧ (t.thrs n).freeing = true) ∧
    e.bit (aThr n 4) 7 = true ∧ e.rd (aThr n 0x114) = s.rd (aThr n 0x114) ∧ e.rd (aThr n 0x110) = s.rd (aThr n 0x110) := by
  intro k t e
  obtain ⟨v, hv⟩ : ∃ v, v = BitVec.ofNat 32 ((s.rf (aThr n 0x110) 0 18 + 1) % s.flSize n) := ⟨_, rfl⟩
  obtain ⟨s1, hs1⟩ : ∃ s1, s1 = (s.wr (aThr n 0x110) v).wr (aThr n 0x114) (BitVec.ofNat 32 (k + 1)) := ⟨_, rfl⟩
  have hinv : s1.Inv := hs1 ▸ (h.wr _ _).wr _ _
  have ht : t = s1.flNext n l := by
    have hrest : (s1.thrs n).toFree.drop 1 = l := by
      rw [hs1, show (((s.wr (aThr n 0x110) v).wr (aThr n 0x114) (BitVec.ofNat 32 (k + 1))).thrs n) = s.thrs n from rfl, hl,
        List.drop_one, List.tail_cons]
    rw [← hrest, hs1, hv]
    rfl
  have he : e = (s.setB (aThr n 4) 7).flNext n l := by
    have hrest : ((s.setB (aThr n 4) 7).thrs n).toFree.drop 1 = l := by
      rw [show (s.setB (aThr n 4) 7).thrs n = s.thrs n from rfl, hl, List.drop_one, List.tail_cons]
    rw [← hrest]
    rfl
  have hts := State.flNext_spec hinv n l
  have hes := State.flNext_spec (h.setB (aThr n 4) 7) n l
  have hput : s1.rd (aThr n 0x110) = v := by
    rw [hs1, State.rd_wr_ne (by unfold aThr; omega), State.rd_wr_self h.regs]
  have hcount : s1.rd (aThr n 0x114) = BitVec.ofNat 32 (k + 1) := by rw [hs1, State.rd_wr_self (h.wr _ _).regs]
  rw [ht, he]
  refine ⟨(hts.rd _ (by unfold aThr; omega)).trans (hput.trans hv), (hts.rd _ (by unfold aThr; omega)).trans hcount, fun hnil => ?_,
    fun hk hne => ?_, hes.bit.trans (State.bit_setB_self h.regs _ (by decide)), ?_, ?_⟩
  · by_cases hf : s1.flFull n
    · rw [hts.full hf]
      exact ⟨rfl, rfl⟩
    · rw [hts.room hf, hnil]
      exact ⟨rfl, rfl⟩
  · have hsize : s1.flSize n = s.flSize n := by
      unfold State.flSize
      rw [hs1, State.rf_wr_ne _ _ _ (by unfold aThr; omega), State.rf_wr_ne _ _ _ (by unfold aThr; omega)]
    have hle : s.flSize n ≤ 2 ^ 18 := Nat.pow_le_pow_right (by decide) (min_le_left _ _)
    have hrf : s1.rf (aThr n 0x114) 0 19 = k + 1 := by
      unfold State.rf
      rw [hcount, field, BitVec.toNat_ofNat]
      omega
    have hroom : ¬s1.flFull n := by
      unfold State.flFull
      rw [hsize, hrf]
      omega
    rw [hts.room hroom]
    exact ⟨rfl, by rw [List.isEmpty_eq_false_iff.mpr hne]; rfl⟩
  · exact (hes.rd _ (by unfold aThr; omega)).trans (State.rd_wf_ne (by unfold aThr; omega))
  · exact (hes.rd _ (by unfold aThr; omega)).trans (State.rd_wf_ne (by unfold aThr; omega))

/-- The pages of a region go back to the free list (R316). -/
theorem State.releasePages_spec {s : State} (h : s.Inv) (n g : Nat) (reset : Bool) (l : List Nat) :
    let t := s.thrs n
    let s' := s.releasePages n g reset l
    (s'.region g).dir = none ∧ (s'.thrs n).job = some (reset, some l.length) ∧
    (t.freeing = true → (s'.thrs n).toFree = t.toFree ++ l) ∧
    (t.freeing = false → t.toFree = [] → (s'.thrs n).toFree = if s.flSize n ≤ s.rf (aThr n 0x114) 0 19 then [] else l) := by
  intro t s'
  obtain ⟨s1, hs1⟩ : ∃ s1, s1 = s.setRegion g { s.region g with dir := none } := ⟨_, rfl⟩
  obtain ⟨t1, ht1⟩ : ∃ t1 : ThrSt, t1 = { t with job := some (reset, some l.length) } := ⟨_, rfl⟩
  have hdir : (s1.region g).dir = none := by rw [hs1, State.region_setRegion_self h]
  have hinv : s1.Inv := hs1 ▸ h.setRegion _ _
  have hs' : s' = (s1.setThr n t1).flPush n l := by
    rw [ht1, hs1]
    rfl
  have hthr := State.thrs_setThr_self hinv n t1
  have hfl : (s1.setThr n t1).flFull n ↔ s.flFull n := State.flFull_iff_of_rd fun a _ => by rw [hs1]; rfl
  rw [hs', State.flPush, hthr]
  by_cases hf : t1.freeing = true
  · have hself := State.thrs_setThr_self (hinv.setThr n t1) n { t1 with toFree := t1.toFree ++ l }
    rw [if_pos hf, hself]
    refine ⟨hdir, by rw [ht1], fun _ => by rw [ht1], fun hc => ?_⟩
    rw [ht1, hc] at hf
    exact absurd hf Bool.false_ne_true
  · have hnext := State.flNext_spec (hinv.setThr n t1) n (t1.toFree ++ l)
    rw [if_neg hf]
    have hjob : (((s1.setThr n t1).flNext n (t1.toFree ++ l)).thrs n).job = some (reset, some l.length) := by
      by_cases hfull : (s1.setThr n t1).flFull n
      · rw [hnext.full hfull, hthr, ht1]
      · rw [hnext.room hfull, hthr, ht1]
    refine ⟨?_, hjob, fun hc => absurd (by rw [ht1]; exact hc) hf, fun _ hnil => ?_⟩
    · rw [State.region, hnext.regions]
      exact hdir
    · by_cases hfull : (s1.setThr n t1).flFull n
      · rw [hnext.full hfull, if_pos (show s.flSize n ≤ _ from hfl.mp hfull)]
      · rw [hnext.room hfull, if_neg (show ¬s.flSize n ≤ _ from fun hc => hfull (hfl.mpr hc)), ht1]
        exact congrArg (· ++ l) hnil

/-- The page numbers in a directory page (R315). -/
theorem dirPages_eq (f : Nat) (l : List Byte) : dirPages f l =
    (((List.range f).map fun i => leNat ((l.drop (4 * i)).take 4)).filter fun e => e != 0).map fun e => e - 1 := by
  induction f generalizing l with
  | zero => rfl
  | succ f ih =>
    have hrest : ((List.range f).map fun i => leNat ((l.drop (4 * (i + 1))).take 4)) =
        (List.range f).map fun i => leNat (((l.drop 4).drop (4 * i)).take 4) := by
      refine List.map_congr_left fun i _ => ?_
      rw [List.drop_drop, Nat.mul_succ, Nat.add_comm]
    rw [List.range_succ_eq_map, List.map_cons, List.map_map]
    unfold dirPages
    have hcomp : ((fun i => leNat ((l.drop (4 * i)).take 4)) ∘ Nat.succ) = fun i => leNat ((l.drop (4 * (i + 1))).take 4) := rfl
    rw [hcomp, hrest, ih, Nat.mul_zero, List.drop_zero]
    by_cases h0 : leNat (l.take 4) = 0
    · rw [if_pos h0, List.filter_cons, if_neg (by rw [h0]; decide)]
    · rw [if_neg h0, List.filter_cons, if_pos (bne_iff_ne.mpr h0), List.map_cons]

end Sys2Proof.Machine
end

section

/-! Bitmap writes, region resets and the statement on them (O40). -/

namespace Sys2Proof.Machine

/- Bitmap writes ---------------------------------------------------------------------------------------------------------- -/

section
variable {s : State} {n g x y : Nat} {rest : List (Nat × Nat × Nat)} (hb : (s.thrs n).bmq = (g, x, y) :: rest)
include hb

theorem State.walkEnd_eq : s.walkEnd n = s.setThr n { s.thrs n with bmq := rest, walk := none } := by
  unfold State.walkEnd
  rw [hb, List.drop_one, List.tail_cons]

/-- The oldest bitmap write fails (R317). -/
theorem State.walkEnd_bitmapFail (hg : thrOf g = n) (k : Nat) : (s.walkEnd n).bitmapFail g k =
    ((s.setThr n { s.thrs n with bmq := rest, walk := none }).setRegion g { s.region g with binc := true }).setB (aThr n 4) k := by
  rw [State.walkEnd_eq hb, State.bitmapFail, hg]
  rfl

/-- The oldest bitmap write needs a page and there is none (R317). -/
theorem State.walkTake_none (hg : thrOf g = n) (hcount : s.rf (aThr n 0x114) 0 19 = 0) (d : Bool) : s.walkTake n g x y d =
    ((s.setThr n { s.thrs n with bmq := rest, walk := none }).setRegion g { s.region g with binc := true }).setB (aThr n 4) 5 := by
  rw [State.walkTake, if_pos hcount, State.walkEnd_bitmapFail hb hg]

/-- The oldest bitmap write begins (R315). -/
theorem State.bitmapStep_begins (hw : (s.thrs n).walk = none) :
    s.bitmapStep n = if (s.region g).dir.isSome then s.walkTo n g x y .entry else s.walkTake n g x y true := by
  unfold State.bitmapStep
  rw [hb]
  dsimp only
  rw [hw]

/-- The oldest bitmap write awaits or takes the answer to its access (R315). -/
theorem State.bitmapStep_goesOn {w : Walk} {q : Xfer} (hw : (s.thrs n).walk = some w) (hq : s.xferOf (.bitmap n) = some q) :
    s.bitmapStep n = if !q.over then s else if q.err.isSome then ((s.dropXfer (.bitmap n)).walkEnd n).bitmapFail g 7
      else (s.dropXfer (.bitmap n)).walkNext n g x y w q.got := by
  unfold State.bitmapStep
  rw [hb]
  dsimp only
  rw [hw]
  dsimp only
  rw [hq]

end

/-- A page that has left the ring (R316). -/
theorem State.flTaken_spec {s : State} (h : s.Inv) (n : Nat) :
    (s.flTaken n).rd (aThr n 0x10C) = BitVec.ofNat 32 ((s.rf (aThr n 0x10C) 0 18 + 1) % s.flSize n) ∧
    (s.flTaken n).rd (aThr n 0x114) = BitVec.ofNat 32 (s.rf (aThr n 0x114) 0 19 - 1) ∧
    s.flTaken n = { s with regs := (s.flTaken n).regs } := by
  refine ⟨?_, State.rd_wr_self (h.wr _ _).regs _ _, rfl⟩
  exact (State.rd_wr_ne (by unfold aThr; omega)).trans (State.rd_wr_self h.regs _ _)

theorem State.Inv.dropXfer {s : State} (h : s.Inv) (k : XferKey) : (s.dropXfer k).Inv := (State.dropXfer_keeps (.refl s) k).inv h

/- Region resets ---------------------------------------------------------------------------------------------------------- -/

section
variable {s s1 : State} {n g : Nat} {rest : List Nat} (hr : (s.thrs n).resets = g :: rest)
  (hx : s.xferOf (.assist n) = none) (hj : ((s.thrs n).job.any fun j => !j.1) = false)
include hr hx hj

/-- The next waiting reset goes on (R308). -/
theorem State.resetNext_waits (hstep : s.releaseStep n g true = (s1, none)) : s.resetNext n = s1 := by
  unfold State.resetNext
  dsimp only
  rw [hx, hj, hr, if_neg (by decide)]
  dsimp only
  rw [hstep]

/-- The next waiting reset ends (R308). -/
theorem State.resetNext_ends {k : Nat} (hstep : s.releaseStep n g true = (s1, some k)) :
    s.resetNext n = (s1.setThr n { s1.thrs n with resets := rest }).setRegion g (freshRegion (s.rdescOf g)) := by
  unfold State.resetNext
  dsimp only
  rw [hx, hj, hr, if_neg (by decide)]
  dsimp only
  rw [hstep]

end

/-- A release of a region without bitmap is over at once (R316). -/
theorem State.releaseStep_none {s : State} {n g : Nat} {reset : Bool} (hj : (s.thrs n).job = none ∨ (s.thrs n).job = some (reset, none))
    (hd : (s.region g).dir = none) : s.releaseStep n g reset = (s, some 0) := by
  unfold State.releaseStep
  dsimp only
  rcases hj with hj | hj <;> rw [hj] <;> dsimp only <;> rw [hd]

/-- A release waits for a bitmap write of its region (R316). -/
theorem State.releaseStep_walks {s : State} {n g d : Nat} {reset : Bool}
    (hj : (s.thrs n).job = none ∨ (s.thrs n).job = some (reset, none)) (hd : (s.region g).dir = some d) (hw : s.walksIn n g = true) :
    s.releaseStep n g reset = (s, none) := by
  unfold State.releaseStep
  dsimp only
  rcases hj with hj | hj <;> rw [hj] <;> dsimp only <;> rw [hd] <;> dsimp only <;> rw [hw, if_pos rfl]

section
variable {s s1 : State} {n g d : Nat} {reset : Bool}
  (hj : (s.thrs n).job = none ∨ (s.thrs n).job = some (reset, none)) (hd : (s.region g).dir = some d) (hw : s.walksIn n g = false)
include hj hd hw

/-- A release reads the directory page (R316). -/
theorem State.releaseStep_reads (hr : (s.setThr n { s.thrs n with job := some (reset, none) }).xfer (.release n) (14 + n) 0 256 false
    (pageAddr d) (4 * s.dirSize g) none = (s1, none)) : s.releaseStep n g reset = (s1, none) := by
  unfold State.releaseStep
  dsimp only
  rcases hj with hj | hj <;> rw [hj] <;> dsimp only <;> rw [hd] <;> dsimp only <;> rw [hw, if_neg Bool.false_ne_true, hr]

/-- The directory page has been read (R316). -/
theorem State.releaseStep_read {q : Xfer} (hr : (s.setThr n { s.thrs n with job := some (reset, none) }).xfer (.release n) (14 + n) 0
    256 false (pageAddr d) (4 * s.dirSize g) none = (s1, some q)) :
    s.releaseStep n g reset = (s1.releasePages n g reset (dirPages (s.dirSize g) q.got ++ [d]), none) := by
  unfold State.releaseStep
  dsimp only
  rcases hj with hj | hj <;> rw [hj] <;> dsimp only <;> rw [hd] <;> dsimp only <;> rw [hw, if_neg Bool.false_ne_true, hr]

end

/-- A release waits until its pages are on the free list (R316). -/
theorem State.releaseStep_frees {s : State} {n g k : Nat} {reset reset' : Bool} (hj : (s.thrs n).job = some (reset', some k)) :
    s.releaseStep n g reset =
      if (s.thrs n).toFree.isEmpty then (s.setThr n { s.thrs n with job := none }, some k) else (s, none) := by
  unfold State.releaseStep
  dsimp only
  rw [hj]

/-- A directory page has entries. -/
theorem State.dirSize_pos (s : State) (g : Nat) : 0 < s.dirSize g := by
  unfold State.dirSize pagesAcross
  exact Nat.mul_pos (by omega) (by omega)

end Sys2Proof.Machine
end

section

/-! The statement on regions and bitmaps (O40). -/

namespace Sys2Proof.Machine

/-- BITMAP_WRITE (R315 to R317). -/
theorem exec_bitmapWrite {s u : State} {n : Fin 4} (hs : s.sleeping = false) (h : s.bitmapStep n.val = u) :
    exec (.bitmapWrite n ()) s = .next u := congrArg Host.Outcome.next ((State.awakeDo_awake hs _).trans h)

/-- REGION_RESET (R308). -/
theorem exec_regionReset {s u : State} {n : Fin 4} (hs : s.sleeping = false) (h : s.resetNext n.val = u) :
    exec (.regionReset n) s = .next u.poll := congrArg Host.Outcome.next ((State.awakeDo_awake hs _).trans (congrArg State.poll h))

/-- FL_PUSH (R316). -/
theorem exec_flPush {s u : State} {n : Fin 4} {page : BitVec 19} (hs : s.sleeping = false)
    (h : (s.mgmtIn (aThr n.val 0x118) true).flPush n.val [page.toNat] = u) : exec (.flPush n page) s = .next u :=
  congrArg Host.Outcome.next ((State.mgmtDo_awake hs _ _ _).trans h)

section
variable {s : State} {n : Nat} (hf : (s.thrs n).freeing = false) (hnil : (s.thrs n).toFree = [])
include hf hnil

/-- A page pushed to a full ring (R317). -/
theorem State.flPush_full (hfull : s.flFull n) (p : Nat) :
    s.flPush n [p] = (s.flag (aThr n 4) 8).setThr n { s.thrs n with toFree := [], freeing := false } := by
  have hflag : (s.flag (aThr n 4) 8).thrs n = s.thrs n := congrArg (spGet (fun _ => ThrSt.init) · n) (State.flag_thr s _ 8)
  unfold State.flPush
  dsimp only
  rw [hf, if_neg Bool.false_ne_true, hnil, List.nil_append, State.flNext, if_pos (show s.flSize n ≤ _ from hfull), State.flNext, hflag]

/-- A page pushed to a ring with room (R316). -/
theorem State.flPush_room (hroom : ¬s.flFull n) (p : Nat) :
    s.flPush n [p] = { s.setThr n { s.thrs n with toFree := [p], freeing := true } with
      mtxq := insTxn ⟨14 + n, .freed n, s.flAddr n (s.rf (aThr n 0x110) 0 18), 4, some (natLe 4 p), s.mqos (14 + n) true, 0,
        s.eclk, 0⟩ s.mtxq } := by
  unfold State.flPush
  dsimp only
  rw [hf, if_neg Bool.false_ne_true, hnil, List.nil_append, State.flNext, if_neg (show ¬s.flSize n ≤ _ from hroom)]

end

/-- Settles O40: the analysis turns spares into lines, a bitmap write goes on access by access, and pages come from and go to the ring. -/
theorem regionsAndBitmaps : Obligations.RegionsAndBitmaps := by
  unfold Obligations.RegionsAndBitmaps
  refine ⟨?_, ?_, ?_, ?_, dirPages_eq, fun s n g reset l h => State.releasePages_spec h n.val g reset l, ?_, ?_,
    fun s n p l hl h => State.flDone_spec h hl⟩
  · intro s g x y h r r'
    refine ⟨fun hor => ?_, fun hu hcov hnew ht hs => ?_, (State.lateCell_spec h g).1, (State.lateCell_spec h g).2⟩
    · unfold State.openCell
      refine if_pos ?_
      rw [Bool.or_eq_true, Bool.or_eq_true, or_assoc, List.contains_eq_mem, decide_eq_true_eq]
      exact hor
    · obtain ⟨k, hk⟩ := State.openCell_enters h hu hcov hnew ht hs
      have hspent := spent_settle 66 { s.region g with cells := insCell (x, y) (s.region g).cells, entered := (s.region g).entered + 1 }
      rw [show r' = _ from hk]
      exact ⟨hspent.entered, hspent.rows, hspent.cols, hspent.sum, hspent.st⟩
  · intro s n g x y rest t done count hs hb hg
    refine ⟨fun hw => ?_, ?_⟩
    · have hstep := State.bitmapStep_begins hb hw
      refine ⟨fun hd => exec_bitmapWrite hs (hstep.trans (if_pos (Option.isSome_iff_ne_none.mpr hd))), fun hd hc => exec_bitmapWrite hs ?_,
        fun hd hc => exec_bitmapWrite hs ?_⟩
      · rw [hstep, hd, Option.isSome_none, if_neg Bool.false_ne_true, State.walkTake_none hb hg hc]
      · rw [hstep, hd, Option.isSome_none, if_neg Bool.false_ne_true, State.walkTake, if_neg hc]
    · intro w q hw hq s1
      have hstep := State.bitmapStep_goesOn hb hw hq
      have hb1 : (s1.thrs n.val).bmq = (g, x, y) :: rest := hb
      refine ⟨fun hover => exec_bitmapWrite hs ?_, fun hover he => exec_bitmapWrite hs ?_, fun hover he => ?_⟩
      · rw [hstep, hover]
        rfl
      · rw [hstep, hover, if_neg (by decide), if_pos (Option.isSome_iff_ne_none.mpr he), State.walkEnd_bitmapFail hb1 hg]
        rfl
      · have hnext : s.bitmapStep n.val = s1.walkNext n.val g x y w q.got := by
          rw [hstep, hover, he]
          rfl
        refine ⟨fun hwe hne => exec_bitmapWrite hs (hnext.trans ?_), fun hwe h0 hc => exec_bitmapWrite hs (hnext.trans ?_),
          fun hwe h0 hc => exec_bitmapWrite hs (hnext.trans ?_), fun k hwk => exec_bitmapWrite hs (hnext.trans ?_),
          fun k hwk => exec_bitmapWrite hs (hnext.trans ?_), fun k hwk => exec_bitmapWrite hs (hnext.trans ?_),
          fun k hwk => exec_bitmapWrite hs (hnext.trans ?_), fun d hwd h => ?_⟩
        · rw [hwe]
          exact if_neg hne
        · rw [hwe]
          exact (if_pos h0).trans (if_neg hc)
        · rw [hwe]
          exact (if_pos h0).trans (State.walkTake_none hb1 hg hc false)
        · rw [hwk]
          rfl
        · rw [hwk]
          rfl
        · rw [hwk]
          rfl
        · rw [hwk]
          exact State.walkEnd_eq hb1
        · obtain ⟨hget, hcount, hframe⟩ := State.flTaken_spec (h.dropXfer (.bitmap n.val)) n.val
          exact ⟨s1.flTaken n.val, exec_bitmapWrite hs (hnext.trans (by rw [hwd]; rfl)), hget, hcount, hframe⟩
  · intro s n g x y d k hd entry byte
    have hentry : pageAddr ((s.region g).dir.getD 0) + 4 * s.dirIndex g x y = entry := by
      rw [hd]
      rfl
    refine ⟨?_, ?_, rfl, rfl, rfl, rfl⟩
    · exact congrArg (fun a => (a, 4, none)) hentry
    · exact congrArg (fun a => (a, 4, some (natLe 4 (k + 1)))) hentry
  · intro s n g rest t fresh hs hr hx
    have hany : ∀ {j : Option (Bool × Option Nat)}, t.job = j → (j.any fun j => !j.1) = false → (t.job.any fun j => !j.1) = false :=
      fun hj hf => by rw [hj, hf]
    refine ⟨fun hj hd => exec_regionReset hs ?_, fun d hj hd hw => exec_regionReset hs ?_, fun d hj hd hw hrel => exec_regionReset hs ?_,
      fun d q hj hd hw hq hover => exec_regionReset hs ?_, fun k hj hf => exec_regionReset hs ?_,
      fun k hj hf => exec_regionReset hs ?_, fun k hj => exec_regionReset hs ?_⟩
    · exact State.resetNext_ends hr hx (hany hj rfl) (State.releaseStep_none (.inl hj) hd)
    · exact State.resetNext_waits hr hx (hany hj rfl) (State.releaseStep_walks (.inl hj) hd hw)
    · refine State.resetNext_waits hr hx (hany hj rfl) (State.releaseStep_reads (.inl hj) hd hw ?_)
      exact State.xfer_begins (s := s.setThr n.val { t with job := some (true, none) }) hrel _ _ (by decide) _
        (Nat.mul_pos (by decide) (s.dirSize_pos g)) _
    · refine State.resetNext_waits hr hx (hany hj rfl) (State.releaseStep_read (.inr hj) hd hw ?_)
      exact State.xfer_ends (s := s.setThr n.val { t with job := some (true, none) }) hq hover _ _ _ _ _ _ _
    · refine State.resetNext_waits hr hx (hany hj rfl) ((State.releaseStep_frees hj).trans (if_neg ?_))
      rw [List.isEmpty_iff]
      exact hf
    · have hself : (s.setThr n.val { t with job := none }).thrs n.val = { t with job := none } :=
        spGet_spSet_of_ne fun hc => by
          have hnil : t.resets = [] := congrArg ThrSt.resets hc
          rw [hnil] at hr
          exact absurd hr nofun
      rw [State.resetNext_ends hr hx (hany hj rfl) ((State.releaseStep_frees hj).trans (if_pos (List.isEmpty_iff.mpr hf))), hself]
      rfl
    · unfold State.resetNext
      refine if_pos ?_
      rw [hj, hx]
      rfl
  · intro s n page t b k p hs
    have hthr : b.thrs n.val = t := congrArg (spGet (fun _ => ThrSt.init) · n.val) (State.mgmtIn_thr s _ true)
    have hregs : b.regs = s.regs := State.mgmtIn_regs _ _ _
    have hfull : b.flFull n.val ↔ s.flFull n.val := State.flFull_iff_of_rd fun a _ => State.rd_congr (State.mgmtIn_regs _ _ _) a
    refine ⟨fun hf => exec_flPush hs ((if_pos (hthr ▸ hf)).trans ?_), fun hf hnil hle => exec_flPush hs ?_,
      fun hf hnil hlt => exec_flPush hs ?_⟩
    · rw [show State.thrs (s.mgmtIn (aThr n.val 0x118) true) n.val = t from hthr]
    · rw [State.flPush_full (s := b) (hthr ▸ hf) (hthr ▸ hnil) (hfull.mpr hle), hthr]
    · have hqos : b.mqos (14 + n.val) true = s.mqos (14 + n.val) true := by
        unfold State.mqos
        rw [State.rf_congr hregs]
      have haddr : b.flAddr n.val (b.rf (aThr n.val 0x110) 0 18) = s.flAddr n.val p := by
        unfold State.flAddr
        rw [State.rf_congr hregs, State.rf_congr hregs, State.rf_congr hregs]
      rw [State.flPush_room (s := b) (hthr ▸ hf) (hthr ▸ hnil) (fun hc => Nat.not_le.mpr hlt (hfull.mp hc)), hthr, hqos, haddr,
        State.mgmtIn_eclk, State.mgmtIn_mtxq]
  · intro s x n k l hx
    unfold State.respond
    rw [hx]
    exact ⟨rfl, rfl⟩

end Sys2Proof.Machine
end

section

/-! Assist operations (O41). -/

namespace Sys2Proof.Machine

/- The head entry ----------------------------------------------------------------------------------------------------- -/

/-- An assist entry that has its turn (R314, R319). -/
theorem State.assistHead_turn {s : State} {n : Nat} {e : W128} {rest : List W128} (hx : s.xferOf (.assist n) = none)
    (hj : (s.thrs n).job = none) (ha : (s.thrs n).assist = e :: rest) (ho : (s.thrs n).out.length < 64)
    (ht : ((s.thrs n).q0 = [] ∧ (s.thrs n).q1 = []) ∨ 64 ≤ (s.thrs n).times) : s.assistHead n = some e := by
  have hturn : (s.thrs n).assistTurn = true := by
    unfold ThrSt.assistTurn
    rw [Bool.or_eq_true, Bool.and_eq_true, List.isEmpty_iff, List.isEmpty_iff, decide_eq_true_eq]
    exact ht
  have hwants : (s.thrs n).wantsAssist = true := by
    unfold ThrSt.wantsAssist
    rw [ha, decide_eq_true ho]
    rfl
  unfold State.assistHead
  dsimp only
  rw [hx, hj, hturn, hwants, ha]
  rfl

/-- An assist entry whose release of pages is under way (R319). -/
theorem State.assistHead_job {s : State} {n : Nat} {e : W128} {rest : List W128} {k : Option Nat}
    (hj : (s.thrs n).job = some (false, k)) (ha : (s.thrs n).assist = e :: rest) : s.assistHead n = some e := by
  unfold State.assistHead
  dsimp only
  rw [hj, ha, Option.any_some, Bool.not_false, Bool.or_true, Bool.true_or, if_pos rfl, List.head?_cons]

/-- An assist entry whose memory accesses are under way (R319). -/
theorem State.assistHead_xfer {s : State} {n : Nat} {e : W128} {rest : List W128} {x : Xfer}
    (hx : s.xferOf (.assist n) = some x) (ha : (s.thrs n).assist = e :: rest) : s.assistHead n = some e := by
  unfold State.assistHead
  dsimp only
  rw [hx, ha, Option.isSome_some, Bool.true_or, Bool.true_or, if_pos rfl, List.head?_cons]

/-- No assist entry is to perform (R314, R319). -/
theorem State.assistHead_none {s : State} {n : Nat} (hx : s.xferOf (.assist n) = none)
    (hj : ((s.thrs n).job.any fun j => !j.1) = false)
    (hw : (s.thrs n).assist = [] ∨ (s.thrs n).job ≠ none ∨ 64 ≤ (s.thrs n).out.length ∨
      (((s.thrs n).q0 ≠ [] ∨ (s.thrs n).q1 ≠ []) ∧ (s.thrs n).times < 64)) : s.assistHead n = none := by
  have hidle : ((s.thrs n).job.isNone && (s.thrs n).wantsAssist && (s.thrs n).assistTurn) = false := by
    unfold ThrSt.wantsAssist ThrSt.assistTurn
    rcases hw with ha | hj | ho | ⟨hq, ht⟩
    · rw [ha, List.isEmpty_nil, Bool.not_true, Bool.false_and, Bool.and_false, Bool.false_and]
    · rw [Option.isNone_eq_false_iff.mpr (Option.isSome_iff_ne_none.mpr hj), Bool.false_and, Bool.false_and]
    · rw [decide_eq_false (Nat.not_lt.mpr ho), Bool.and_false, Bool.and_false, Bool.false_and]
    · have hempty : ((s.thrs n).q0.isEmpty && (s.thrs n).q1.isEmpty) = false := by
        rcases hq with h | h
        · rw [List.isEmpty_eq_false_iff.mpr h, Bool.false_and]
        · rw [List.isEmpty_eq_false_iff.mpr h, Bool.and_false]
      rw [hempty, decide_eq_false (Nat.not_le.mpr ht), Bool.or_false, Bool.and_false]
  unfold State.assistHead
  dsimp only
  rw [hx, hj, hidle, if_neg (by decide)]

/-- The head entry names the operation (R318). -/
theorem State.assistOp_eq {s : State} {n op : Nat} {e : W128} (hh : s.assistHead n = some e) (hop : fld e 124 4 = op)
    (hok : assistOk e = true) : s.assistOp n op = some e := by
  unfold State.assistOp
  rw [hh, Option.filter_some, hop, hok, beq_self_eq_true, Bool.and_self, if_pos rfl]

theorem State.assistOp_none {s : State} {n : Nat} (hh : s.assistHead n = none) (op : Nat) : s.assistOp n op = none := by
  unfold State.assistOp
  rw [hh, Option.filter_none]

/-- BAD_REGION, NOT_OWNER or neither (R322, R323). -/
theorem State.assistCheck_eq (s : State) (n : Nat) (e : W128) (owner : Bool) : s.assistCheck n e owner =
    if (!(s.rdescOf (assistRegion n e)).getLsbD 47 || decide ((s.region (assistRegion n e)).st = .idle)) = true then 2
    else if (owner && fld (s.rdescOf (assistRegion n e)) 48 16 != fld e 96 16) = true then 3 else 0 := rfl

/- Closing ---------------------------------------------------------------------------------------------------------------- -/

/-- An OPEN region closes (R309, R313). -/
theorem State.closeRegion_spec {s : State} (h : s.Inv) {g : Nat} (ho : (s.region g).st = .isOpen) :
    let r := s.region g
    let k := if r.cells = [] then 4 else 3
    let s' := s.closeRegion g
    AtRegion s s' g ∧
    s'.region g = { r with st := .closed, notice := if r.unrep then r.notice else r.notice ||| (1 <<< k) } ∧
    s'.evq = s.evq ++ (if r.unrep = false ∧ r.notice.getLsbD k = false ∧ (s.rdescOf g).getLsbD (96 + k) = true
      then [EvReq.mk (rkThr (thrOf g)) (some (fld (s.rdescOf g) 48 16)) 4 (BitVec.ofNat 32 g)] else []) := by
  intro r k s'
  obtain ⟨r1, hr1⟩ : ∃ r1 : Region_, r1 = { r with st := .closed } := ⟨_, rfl⟩
  have hk : (if r.cells.isEmpty then 4 else 3) = k := if_congr List.isEmpty_iff rfl rfl
  have hset := AtRegion.setRegion h g r1
  have hself := State.region_setRegion_self h g r1
  have hs' : s' = if r.unrep then s.setRegion g r1 else (s.setRegion g r1).notice g k := by
    rw [hr1, ← hk]
    exact if_pos ho
  rw [hs']
  by_cases hu : r.unrep = true
  · rw [if_pos hu, if_pos hu, if_neg fun hc => absurd (hu.symm.trans hc.1) (by decide)]
    exact ⟨hset, hself.trans hr1, (List.append_nil _).symm⟩
  · have hu' := Bool.eq_false_iff.mpr hu
    obtain ⟨hat, hreg, hev⟩ := State.notice_spec hset.inv g k
    rw [if_neg hu, if_neg hu]
    refine ⟨hset.trans hat, hreg.trans (by rw [hself, hr1]), hev.trans (congrArg (s.evq ++ ·) ?_)⟩
    unfold State.noticeEvent
    rw [hself, hr1]
    exact if_congr ⟨fun hc => ⟨hu', hc⟩, fun hc => hc.2⟩ rfl rfl

/-- The state word does not show the notice bits of the region itself. -/
theorem stateWord_notice (r : Region_) (k notice : BitVec 5) : stateWord { r with notice := k } notice = stateWord r notice := rfl

/- Tentative lines ------------------------------------------------------------------------------------------------------------ -/

theorem popTent_none {l : List LineRec} (h : ∀ x ∈ l, x.tag ≠ .tent) : popTent l = none := by
  induction l with
  | nil => rfl
  | cons x l ih =>
    unfold popTent
    rw [ih fun y hy => h y (List.mem_cons_of_mem _ hy)]
    dsimp only
    rw [if_neg (h x List.mem_cons_self)]

/-- The latest tentative line is the one behind which none stands (R322). -/
theorem popTent_split (a : List LineRec) {b : List LineRec} {x : LineRec} (hx : x.tag = .tent) (h : ∀ y ∈ b, y.tag ≠ .tent) :
    popTent (a ++ x :: b) = some (a ++ b, x) := by
  induction a with
  | nil =>
    rw [List.nil_append]
    unfold popTent
    rw [popTent_none h]
    dsimp only
    rw [if_pos hx, List.nil_append]
  | cons y a ih =>
    rw [List.cons_append]
    unfold popTent
    rw [ih]
    rfl

/-- A line that is assigned already. -/
theorem assigned_iff {r : Region_} {col : Bool} {i : Nat} : assigned r col i = true ↔ ∃ x ∈ r.lines, x.col = col ∧ x.index = i := by
  unfold assigned
  rw [List.any_eq_true]
  exact exists_congr fun x => and_congr_right fun _ => by rw [Bool.and_eq_true, beq_iff_eq, beq_iff_eq]

end Sys2Proof.Machine
end

section

/-! The statement on assist operations (O41). -/

namespace Sys2Proof.Machine

/-- The first status of a list whose head reports `k` under a condition. -/
theorem firstStatus_ite {c : Prop} [Decidable c] {k : Nat} (hk : k ≠ 0) (l : List Nat) :
    firstStatus ((if c then k else 0) :: l) = if c then k else firstStatus l := by
  by_cases h : c
  · rw [if_pos h, if_pos h, firstStatus, if_neg hk]
  · rw [if_neg h, if_neg h, firstStatus, if_pos rfl]

/-- The first status of a list whose head reports `k` unless a condition holds. -/
theorem firstStatus_ite_not {c : Prop} [Decidable c] {k : Nat} (hk : k ≠ 0) (l : List Nat) :
    firstStatus ((if c then 0 else k) :: l) = if c then firstStatus l else k := by
  by_cases h : c
  · rw [if_pos h, if_pos h, firstStatus, if_pos rfl]
  · rw [if_neg h, if_neg h, firstStatus, if_neg hk]

/-- The first status of a list that begins with BAD_REGION and NOT_OWNER (R323). -/
theorem State.firstStatus_assistCheck (s : State) (n : Nat) (e : W128) (l : List Nat) : firstStatus (s.assistCheck n e true :: l) =
    if (!(s.rdescOf (assistRegion n e)).getLsbD 47 || decide ((s.region (assistRegion n e)).st = .idle)) = true then 2
    else if (fld (s.rdescOf (assistRegion n e)) 48 16 != fld e 96 16) = true then 3 else firstStatus l := by
  rw [State.assistCheck_eq, Bool.true_and]
  split
  next => rfl
  next =>
    split
    next => rfl
    next => rfl

section
variable {s : State} {n : Nat} {e : W128} {op : Nat} (h : s.assistOp n op = some e)
include h

/-- QUERY (R322). -/
theorem State.assistQuery_eq (hop : op = 1) :
    let g := assistRegion n e
    let r := s.region g
    s.assistQuery n = if !(s.rdescOf g).getLsbD 47 || decide (r.st = .idle) then s.reply n e 2 0
      else (if fld (s.rdescOf g) 48 16 != fld e 96 16 then s else s.setRegion g { r with notice := 0 }).reply n e 0
        (stateWord r r.notice) := by
  intro g r
  subst hop
  unfold State.assistQuery
  rw [h]
  dsimp only
  rw [State.assistCheck_eq, Bool.false_and, if_neg Bool.false_ne_true]
  by_cases ha : (!(s.rdescOf g).getLsbD 47 || decide (r.st = .idle)) = true
  · rw [if_pos ha, if_pos ha]
    rfl
  rw [if_neg ha, if_neg ha]
  refine congrArg (State.reply · n e 0 (stateWord r r.notice)) ?_
  by_cases ho : fld (s.rdescOf g) 48 16 = fld e 96 16
  · rw [if_pos ho, if_neg (by rw [bne_iff_ne]; exact fun hc => hc ho)]
  · rw [if_neg ho, if_pos (bne_iff_ne.mpr ho)]

/-- SCAN that finds a region (R322). -/
theorem State.assistScan_hit (hop : op = 2) {k : Nat} (hf : ((List.range 4096).find? fun k => decide (fld e 0 12 ≤ k)
    && (s.region (4096 * n + k)).notice != 0 && fld (s.rdescOf (4096 * n + k)) 48 16 == fld e 96 16) = some k) :
    s.assistScan n = s.reply n e 0 (k + 2 ^ 12) := by
  subst hop
  unfold State.assistScan
  rw [h]
  dsimp only
  rw [hf]

/-- SCAN that finds none (R322). -/
theorem State.assistScan_none (hop : op = 2) (hf : ((List.range 4096).find? fun k => decide (fld e 0 12 ≤ k)
    && (s.region (4096 * n + k)).notice != 0 && fld (s.rdescOf (4096 * n + k)) 48 16 == fld e 96 16) = none) :
    s.assistScan n = s.reply n e 0 0 := by
  subst hop
  unfold State.assistScan
  rw [h]
  dsimp only
  rw [hf]

/-- COST (R322). -/
theorem State.assistCost_eq (hop : op = 6) :
    let g := assistRegion n e
    let r := s.region g
    s.assistCost n = if !(s.rdescOf g).getLsbD 47 || decide (r.st = .idle) then s.reply n e 2 0
      else s.reply n e 0 (stateWord r r.notice) := by
  intro g r
  subst hop
  unfold State.assistCost
  rw [h]
  dsimp only
  rw [State.assistCheck_eq, Bool.false_and, if_neg Bool.false_ne_true]
  by_cases ha : (!(s.rdescOf g).getLsbD 47 || decide (r.st = .idle)) = true
  · rw [if_pos ha, if_pos ha]
    rfl
  · rw [if_neg ha, if_neg ha]
    rfl

/-- TENTATIVE (R322). -/
theorem State.assistTentative_eq (hop : op = 4) :
    let g := assistRegion n e
    let r := s.region g
    let d := s.rdescOf g
    let col := e.getLsbD 16
    let ix := fld e 32 16
    s.assistTentative n = if !d.getLsbD 47 || decide (r.st = .idle) then s.reply n e 2 0
      else if fld d 48 16 != fld e 96 16 then s.reply n e 3 0
      else if r.st ≠ .closed then s.reply n e 4 0
      else if (if col then r.cols else r.rows) = 0 then s.reply n e 5 0
      else if ∃ x ∈ r.lines, x.col = col ∧ x.index = ix then s.reply n e 6 0
      else if r.unrep then s.reply n e 8 0
      else if (if col then fld d 16 16 else fld d 0 16) < ix then s.reply n e 0xB 0
      else (s.setRegion g (assignLine r col ix .tent)).reply n e 0 (stateWord (assignLine r col ix .tent) r.notice) := by
  intro g r d col ix
  subst hop
  unfold State.assistTentative
  rw [h]
  dsimp only
  rw [State.firstStatus_assistCheck, firstStatus_ite_not (by decide), firstStatus_ite (by decide), firstStatus_ite (by decide),
    firstStatus_ite (by decide), firstStatus_ite (by decide), firstStatus]
  by_cases ha : (!d.getLsbD 47 || decide (r.st = .idle)) = true
  · rw [if_pos ha, if_pos ha]
    rfl
  rw [if_neg ha, if_neg ha]
  by_cases ho : (fld d 48 16 != fld e 96 16) = true
  · rw [if_pos ho, if_pos ho]
    rfl
  rw [if_neg ho, if_neg ho]
  by_cases hc : r.st = .closed
  swap
  · rw [if_neg hc, if_pos hc]
    rfl
  rw [if_pos hc, if_neg (not_not.mpr hc)]
  by_cases hsp : (if col = true then r.cols else r.rows) = 0
  · rw [if_pos hsp, if_pos hsp]
    rfl
  rw [if_neg hsp, if_neg hsp]
  by_cases has : assigned r col ix = true
  · rw [if_pos has, if_pos (assigned_iff.mp has)]
    rfl
  rw [if_neg has, if_neg (fun hx => has (assigned_iff.mpr hx))]
  by_cases hu : r.unrep = true
  · rw [if_pos hu, if_pos hu]
    rfl
  rw [if_neg hu, if_neg hu]
  by_cases hix : (if col = true then fld d 16 16 else fld d 0 16) < ix
  · rw [if_pos hix, if_pos hix]
    rfl
  rw [if_neg hix, if_neg hix]
  rfl

/-- UNDO without a tentative line (R322). -/
theorem State.assistUndo_none (hop : op = 5) :
    let g := assistRegion n e
    let r := s.region g
    let d := s.rdescOf g
    popTent r.lines = none →
    s.assistUndo n = if !d.getLsbD 47 || decide (r.st = .idle) then s.reply n e 2 0
      else if fld d 48 16 != fld e 96 16 then s.reply n e 3 0
      else if r.st ≠ .closed then s.reply n e 4 0 else s.reply n e 7 0 := by
  intro g r d hp
  subst hop
  unfold State.assistUndo
  rw [h]
  dsimp only
  rw [State.firstStatus_assistCheck, firstStatus_ite_not (by decide), firstStatus_ite (by decide), hp, Option.isNone_none, if_pos rfl]
  by_cases ha : (!d.getLsbD 47 || decide (r.st = .idle)) = true
  · rw [if_pos ha, if_pos ha]
    rfl
  rw [if_neg ha, if_neg ha]
  by_cases ho : (fld d 48 16 != fld e 96 16) = true
  · rw [if_pos ho, if_pos ho]
    rfl
  rw [if_neg ho, if_neg ho]
  by_cases hc : r.st = .closed
  · rw [if_pos hc, if_neg (not_not.mpr hc)]
    rfl
  · rw [if_neg hc, if_pos hc]
    rfl

/-- UNDO of the latest tentative line (R322). -/
theorem State.assistUndo_some (hop : op = 5) {l : List LineRec} {x : LineRec} :
    let g := assistRegion n e
    let r := s.region g
    let d := s.rdescOf g
    let r1 := { r with lines := l, rows := if x.col then r.rows else r.rows + 1, cols := if x.col then r.cols + 1 else r.cols }
    popTent r.lines = some (l, x) →
    s.assistUndo n = if !d.getLsbD 47 || decide (r.st = .idle) then s.reply n e 2 0
      else if fld d 48 16 != fld e 96 16 then s.reply n e 3 0
      else if r.st ≠ .closed then s.reply n e 4 0 else if r.unrep then s.reply n e 8 0
      else (s.setRegion g r1).reply n e 0 (stateWord r1 r.notice) := by
  intro g r d r1 hp
  subst hop
  unfold State.assistUndo
  rw [h]
  dsimp only
  rw [State.firstStatus_assistCheck, firstStatus_ite_not (by decide), firstStatus_ite (by decide), firstStatus_ite (by decide), hp,
    Option.isNone_some, if_neg Bool.false_ne_true, firstStatus]
  by_cases ha : (!d.getLsbD 47 || decide (r.st = .idle)) = true
  · rw [if_pos ha, if_pos ha]
    rfl
  rw [if_neg ha, if_neg ha]
  by_cases ho : (fld d 48 16 != fld e 96 16) = true
  · rw [if_pos ho, if_pos ho]
    rfl
  rw [if_neg ho, if_neg ho]
  by_cases hc : r.st = .closed
  swap
  · rw [if_neg hc, if_pos hc]
    rfl
  rw [if_pos hc, if_neg (not_not.mpr hc)]
  by_cases hu : r.unrep = true
  · rw [if_pos hu, if_pos hu]
    rfl
  rw [if_neg hu, if_neg hu]
  rfl

/-- CLOSE (R322). -/
theorem State.assistClose_eq (hop : op = 8) (hinv : s.Inv) :
    let g := assistRegion n e
    let r := s.region g
    let d := s.rdescOf g
    s.assistClose n = if !d.getLsbD 47 || decide (r.st = .idle) then s.reply n e 2 0
      else if fld d 48 16 != fld e 96 16 then s.reply n e 3 0
      else if r.st ≠ .isOpen then s.reply n e 4 0
      else (s.closeRegion g).reply n e 0 (stateWord { r with st := .closed } r.notice) := by
  intro g r d
  subst hop
  unfold State.assistClose
  rw [h]
  dsimp only
  rw [State.firstStatus_assistCheck, firstStatus_ite_not (by decide), firstStatus]
  by_cases ha : (!d.getLsbD 47 || decide (r.st = .idle)) = true
  · rw [if_pos ha, if_pos ha]
    rfl
  rw [if_neg ha, if_neg ha]
  by_cases ho : (fld d 48 16 != fld e 96 16) = true
  · rw [if_pos ho, if_pos ho]
    rfl
  rw [if_neg ho, if_neg ho]
  by_cases hc : r.st = .isOpen
  swap
  · rw [if_neg hc, if_pos hc]
    rfl
  rw [if_pos hc, if_neg (not_not.mpr hc), (State.closeRegion_spec hinv hc).2.1]
  exact congrArg (State.reply (s.closeRegion g) n e 0) (stateWord_notice { r with st := .closed } _ r.notice)

/-- RESET (R322). -/
theorem State.assistReset_eq (hop : op = 9) :
    let g := assistRegion n e
    let r := s.region g
    let d := s.rdescOf g
    s.assistReset n = if !d.getLsbD 47 || decide (r.st = .idle) then s.reply n e 2 0
      else if fld d 48 16 != fld e 96 16 then s.reply n e 3 0
      else (s.setRegion g { freshRegion d with dir := r.dir }).reply n e 0 0 := by
  intro g r d
  subst hop
  unfold State.assistReset
  rw [h]
  dsimp only
  rw [State.assistCheck_eq, Bool.true_and]
  by_cases ha : (!d.getLsbD 47 || decide (r.st = .idle)) = true
  · rw [if_pos ha, if_pos ha]
    rfl
  rw [if_neg ha, if_neg ha]
  by_cases ho : (fld d 48 16 != fld e 96 16) = true
  · rw [if_pos ho, if_pos ho]
    rfl
  rw [if_neg ho, if_neg ho]
  rfl

/-- RELEASE begins, for a region with a bitmap that no bitmap write holds (R316). -/
theorem State.assistRelease_begins (hop : op = 10) (hj : (s.thrs n).job = none) (hrel : s.xferOf (.release n) = none) :
    let g := assistRegion n e
    let d := s.rdescOf g
    s.assistRelease n = if !d.getLsbD 47 || decide ((s.region g).st = .idle) then s.reply n e 2 0
      else if fld d 48 16 != fld e 96 16 then s.reply n e 3 0
      else match (s.region g).dir with
        | none => s.reply n e 0 0
        | some k => if s.walksIn n g then s
          else (s.setThr n { s.thrs n with job := some (false, none) }).xferStart (.release n) (14 + n) 0 256 false
            (pageAddr k) (4 * s.dirSize g) none := by
  intro g d
  subst hop
  unfold State.assistRelease
  rw [h]
  dsimp only
  rw [hj, Option.isSome_none, if_neg Bool.false_ne_true, State.assistCheck_eq, Bool.true_and]
  by_cases ha : (!d.getLsbD 47 || decide ((s.region g).st = .idle)) = true
  · rw [if_pos ha, if_pos ha]
    rfl
  rw [if_neg ha, if_neg ha]
  by_cases ho : (fld d 48 16 != fld e 96 16) = true
  · rw [if_pos ho, if_pos ho]
    rfl
  rw [if_neg ho, if_neg ho]
  change (match s.releaseStep n g false with
    | (s1, none) => s1
    | (s1, some k) => s1.reply n e 0 k) = _
  cases hd : (s.region g).dir with
  | none => rw [State.releaseStep_none (.inl hj) hd]
  | some k =>
    dsimp only
    cases hw : s.walksIn n g with
    | true => rw [State.releaseStep_walks (.inl hj) hd hw, if_pos rfl]
    | false =>
      rw [State.releaseStep_reads (.inl hj) hd hw (State.xfer_begins (s := s.setThr n { s.thrs n with job := some (false, none) })
        hrel _ _ (by decide) _ (Nat.mul_pos (by decide) (s.dirSize_pos g)) _), if_neg Bool.false_ne_true]

/-- RELEASE goes on (R316). -/
theorem State.assistRelease_goesOn (hop : op = 10) {k : Option Nat} (hj : (s.thrs n).job = some (false, k)) {s1 : State} :
    (s.releaseStep n (assistRegion n e) false = (s1, none) → s.assistRelease n = s1) ∧
    ∀ v, s.releaseStep n (assistRegion n e) false = (s1, some v) → s.assistRelease n = s1.reply n e 0 v := by
  subst hop
  unfold State.assistRelease
  rw [h]
  dsimp only
  rw [hj, Option.isSome_some, if_pos rfl]
  change (s.releaseStep n (assistRegion n e) false = (s1, none) → (match s.releaseStep n (assistRegion n e) false with
    | (s1, none) => s1
    | (s1, some k) => s1.reply n e 0 k) = s1) ∧ ∀ v, s.releaseStep n (assistRegion n e) false = (s1, some v) →
    (match s.releaseStep n (assistRegion n e) false with
    | (s1, none) => s1
    | (s1, some k) => s1.reply n e 0 k) = s1.reply n e 0 v
  exact ⟨fun hr => by rw [hr], fun v hr => by rw [hr]⟩

end

/-- Settles O41: the head entry that has its turn is answered with the lowest status that applies; a release goes on until its pages are free. -/
theorem assistOperations : Obligations.AssistOperations := by
  unfold Obligations.AssistOperations
  refine ⟨?_, ?_, ?_, fun s g h ho => ?_⟩
  · intro s n e rest t g r d op task absent stranger col ix hs hx hj ha ho ht
    have hhead := State.assistHead_turn hx hj ha ho ht
    have hdo : ∀ {f : State → State} {u : State}, f s = u → (s.awakeDo f) = u := fun hf => (State.awakeDo_awake hs _).trans hf
    refine ⟨fun hbad => congrArg Host.Outcome.next (hdo ?_), fun hok => ?_⟩
    · unfold State.assistBad
      rw [hhead]
      refine if_pos ?_
      rw [Bool.or_eq_true, Bool.or_eq_true, decide_eq_true_eq, decide_eq_true_eq, Bool.not_eq_true', or_assoc]
      exact hbad
    · have hop : ∀ k, op = k → s.assistOp n.val k = some e := fun k hk => State.assistOp_eq hhead hk hok
      refine ⟨fun h1 => congrArg Host.Outcome.next (hdo ?_), ?_, ?_, fun h5 hnone => congrArg Host.Outcome.next (hdo ?_), ?_,
        fun h6 => congrArg Host.Outcome.next (hdo ?_), fun h8 hinv => congrArg Host.Outcome.next (hdo ?_),
        fun h9 => congrArg Host.Outcome.next (hdo ?_), fun h10 hrel => congrArg Host.Outcome.next (hdo ?_)⟩
      · exact State.assistQuery_eq (hop 1 h1) rfl
      · intro hit h2
        have hiff : ∀ k, (decide (fld e 0 12 ≤ k) && (s.region (4096 * n.val + k)).notice != 0
            && fld (s.rdescOf (4096 * n.val + k)) 48 16 == fld e 96 16) = true ↔ hit k := fun k => by
          rw [Bool.and_eq_true, Bool.and_eq_true, decide_eq_true_eq, bne_iff_ne, beq_iff_eq, and_assoc]
        refine ⟨fun k hk hitk hfirst => congrArg Host.Outcome.next (hdo ?_),
          fun hno => congrArg Host.Outcome.next (hdo ?_)⟩
        · refine State.assistScan_hit (hop 2 h2) rfl (List.find?_range_eq_some.mpr ⟨(hiff k).mpr hitk, List.mem_range.mpr hk, fun j hj => ?_⟩)
          rw [Bool.not_eq_true', Bool.eq_false_iff]
          exact fun hc => hfirst j hj ((hiff j).mp hc)
        · refine State.assistScan_none (hop 2 h2) rfl (List.find?_range_eq_none.mpr fun j hj => ?_)
          rw [Bool.not_eq_true', Bool.eq_false_iff]
          exact fun hc => hno j hj ((hiff j).mp hc)
      · intro r1 h4
        exact congrArg Host.Outcome.next (hdo (State.assistTentative_eq (hop 4 h4) rfl))
      · exact State.assistUndo_none (hop 5 h5) rfl (popTent_none hnone)
      · intro a b x h5 hl hx htail r1
        refine congrArg Host.Outcome.next (hdo (State.assistUndo_some (hop 5 h5) rfl ?_))
        rw [hl]
        exact popTent_split a hx htail
      · exact State.assistCost_eq (hop 6 h6) rfl
      · exact State.assistClose_eq (hop 8 h8) rfl hinv
      · exact State.assistReset_eq (hop 9 h9) rfl
      · exact State.assistRelease_begins (hop 10 h10) rfl hj hrel
  · intro s n e rest t g hs ha hop hok
    have hdo : ∀ {u : State}, s.assistRelease n.val = u → exec (.release n) s = .next u := fun hf =>
      congrArg Host.Outcome.next ((State.awakeDo_awake hs _).trans hf)
    have hhead : ∀ {k}, t.job = some (false, k) → s.assistOp n.val 10 = some e := fun hj =>
      State.assistOp_eq (State.assistHead_job hj ha) hop hok
    refine ⟨fun d q hj hd hw hq => ⟨fun hover => hdo ?_, fun hover => hdo ?_⟩, fun k hj hf => hdo ?_, fun k hj hf => hdo ?_⟩
    · exact (State.assistRelease_goesOn (hhead hj) rfl hj).1 (State.releaseStep_reads (.inr hj) hd hw
        (State.xfer_waits (s := s.setThr n.val { t with job := some (false, none) }) hq hover _ _ _ _ _ _ _))
    · exact (State.assistRelease_goesOn (hhead hj) rfl hj).1 (State.releaseStep_read (.inr hj) hd hw
        (State.xfer_ends (s := s.setThr n.val { t with job := some (false, none) }) hq hover _ _ _ _ _ _ _))
    · refine (State.assistRelease_goesOn (hhead hj) rfl hj).1 ((State.releaseStep_frees hj).trans (if_neg ?_))
      rw [List.isEmpty_iff]
      exact hf
    · exact (State.assistRelease_goesOn (hhead hj) rfl hj).2 k ((State.releaseStep_frees hj).trans (if_pos (List.isEmpty_iff.mpr hf)))
  · intro s n t hx hj hw c hc
    have hnone := State.assistHead_none hx hj hw
    have hop := State.assistOp_none hnone
    have hdo : ∀ {f : State → State}, f s = s → s.awakeDo f = s := fun hf => by
      unfold State.awakeDo
      rw [hf, ite_self]
    simp only [List.mem_cons, List.not_mem_nil, or_false] at hc
    rcases hc with rfl | rfl | rfl | rfl | rfl | rfl | rfl | rfl | rfl | rfl | rfl <;> refine congrArg Host.Outcome.next (hdo ?_)
    · unfold State.assistQuery
      rw [hop]
    · unfold State.assistScan
      rw [hop]
    · unfold State.assistFetch
      rw [hop]
    · unfold State.assistTentative
      rw [hop]
    · unfold State.assistUndo
      rw [hop]
    · unfold State.assistCost
      rw [hop]
    · unfold State.assistCommit
      rw [hop]
    · unfold State.assistClose
      rw [hop]
    · unfold State.assistReset
      rw [hop]
    · unfold State.assistRelease
      rw [hop]
    · unfold State.assistBad
      rw [hnone]
  · obtain ⟨hat, hreg, hev⟩ := State.closeRegion_spec h ho
    exact ⟨hreg, hat.other, by rw [hat.frame], hev⟩

end Sys2Proof.Machine
end

section

/-! FETCH and COMMIT, and the replies of assist operations (O42). -/

namespace Sys2Proof.Machine

/- The target range -------------------------------------------------------------------------------------------------------- -/

theorem State.destStatus_away {s : State} {n dest len : Nat} (h : destRange dest len = false) : s.destStatus n dest len = 0xA := by
  rw [State.destStatus, h]
  rfl

theorem State.destStatus_odd {s : State} {n dest len : Nat} (h : destRange dest len = true) (ho : s.destOwned n dest = true)
    (hodd : dest % 16 ≠ 0) : s.destStatus n dest len = 0xB := by
  rw [State.destStatus, h, if_neg (by decide), if_pos (.inl hodd), ho, if_neg (by decide), if_pos hodd]

theorem State.destStatus_empty {s : State} {n dest : Nat} (h : destRange dest 0 = true) (ho : s.destOwned n dest = true)
    (heven : dest % 16 = 0) : s.destStatus n dest 0 = 0 := by
  rw [State.destStatus, h, if_neg (by decide), if_pos (.inr rfl), ho, if_neg (by decide), if_neg (not_not.mpr heven)]

theorem State.destStatus_good {s : State} {n dest len : Nat} (h : destRange dest len = true) (heven : dest % 16 = 0) (hlen : len ≠ 0) :
    s.destStatus n dest len = 0 := by
  rw [State.destStatus, h, if_neg (by decide), if_neg (fun hc => hc.elim (fun hodd => hodd heven) hlen)]

theorem State.storeStatus_first {s : State} {n : Nat} (hx : s.xferOf (.assist n) = none) (l : List Nat) :
    s.storeStatus n l = firstStatus l := by
  rw [State.storeStatus, hx]
  rfl

theorem State.storeStatus_underWay {s : State} {n : Nat} {x : Xfer} (hx : s.xferOf (.assist n) = some x) (l : List Nat) :
    s.storeStatus n l = 0 := by
  rw [State.storeStatus, hx]
  rfl

theorem firstStatus_zero (l : List Nat) : firstStatus (0 :: l) = firstStatus l := if_pos rfl

theorem firstStatus_pos {k : Nat} (h : k ≠ 0) (l : List Nat) : firstStatus (k :: l) = k := if_neg h

theorem firstStatus_singleton (k : Nat) : firstStatus [k] = k := by
  unfold firstStatus
  split
  next h => exact h.symm
  next => rfl

/-- BAD_REGION, NOT_OWNER or neither: the status is 0, 2 or 3 (R323). -/
theorem State.assistCheck_le (s : State) (n : Nat) (e : W128) (owner : Bool) : s.assistCheck n e owner ≤ 3 := by
  rw [State.assistCheck_eq]
  split
  next => decide
  next => split <;> decide

/- The memory writes ------------------------------------------------------------------------------------------------------------ -/

section
variable {s : State} {n : Nat} {e : W128} {l : List Byte} (value : Nat) (f : State → State)

theorem State.assistStore_nil : s.assistStore n e [] value f = (f s).reply n e 0 value := rfl

theorem State.assistStore_begins (hl : l ≠ []) (hx : s.xferOf (.assist n) = none) : s.assistStore n e l value f =
    s.xferStart (.assist n) (14 + n) 0 32 false (destOf e) l.length (some l) := by
  unfold State.assistStore
  rw [List.isEmpty_eq_false_iff.mpr hl, if_neg Bool.false_ne_true,
    State.xfer_begins hx _ _ (by decide) _ (List.length_pos_iff.mpr hl)]

variable {x : Xfer} (hl : l ≠ []) (hx : s.xferOf (.assist n) = some x)
include hl hx

theorem State.assistStore_waits (hover : x.over = false) : s.assistStore n e l value f = s := by
  unfold State.assistStore
  rw [List.isEmpty_eq_false_iff.mpr hl, if_neg Bool.false_ne_true, State.xfer_waits hx hover]

theorem State.assistStore_done (hover : x.over = true) (he : x.err = none) : s.assistStore n e l value f =
    (f (s.dropXfer (.assist n))).reply n e 0 value := by
  unfold State.assistStore
  rw [List.isEmpty_eq_false_iff.mpr hl, if_neg Bool.false_ne_true, State.xfer_ends hx hover]
  dsimp only
  rw [he]
  rfl

theorem State.assistStore_fails (hover : x.over = true) (he : x.err ≠ none) : s.assistStore n e l value f =
    ((s.dropXfer (.assist n)).setB (aThr n 4) 7).reply n e 0xA x.moved := by
  unfold State.assistStore
  rw [List.isEmpty_eq_false_iff.mpr hl, if_neg Bool.false_ne_true, State.xfer_ends hx hover]
  dsimp only
  rw [if_pos (Option.isSome_iff_ne_none.mpr he)]

end

/-- The statuses of a FETCH, in order (R322). -/
def State.fetchStatus (s : State) (n : Nat) (e : W128) : List Nat :=
  [s.assistCheck n e true, s.destStatus n (destOf e) (fetchBytes (s.region (assistRegion n e))).length]

/-- The statuses of a COMMIT, in order (R322). -/
def State.commitStatus (s : State) (n : Nat) (e : W128) : List Nat :=
  let r := s.region (assistRegion n e)
  [s.assistCheck n e true, if r.st = .closed then 0 else 4, if r.unrep then 8 else 0, if r.open_.isEmpty then 0 else 9,
    s.destStatus n (destOf e) (repairRecord (assistRegion n e) r).length]

section
variable {s : State} {n : Nat} {e : W128}

/-- FETCH whose checks hold (R322). -/
theorem State.assistFetch_ok (h : s.assistOp n 3 = some e) (hst : s.storeStatus n (s.fetchStatus n e) = 0) :
    let r := s.region (assistRegion n e)
    s.assistFetch n = s.assistStore n e (fetchBytes r) r.open_.length id := by
  intro r
  unfold State.assistFetch
  rw [h]
  dsimp only
  unfold State.fetchStatus at hst
  rw [hst]
  rfl

/-- FETCH refused (R322). -/
theorem State.assistFetch_refused (h : s.assistOp n 3 = some e) {k : Nat} (hst : s.storeStatus n (s.fetchStatus n e) = k + 1) :
    s.assistFetch n = (if k + 1 = 0xA then s.setB (aThr n 4) 7 else s).reply n e (k + 1) 0 := by
  unfold State.assistFetch
  rw [h]
  dsimp only
  unfold State.fetchStatus at hst
  rw [hst]
  rfl

/-- COMMIT whose checks hold (R322). -/
theorem State.assistCommit_ok (h : s.assistOp n 7 = some e) (hst : s.storeStatus n (s.commitStatus n e) = 0) :
    let g := assistRegion n e
    let l := repairRecord g (s.region g)
    s.assistCommit n = s.assistStore n e l l.length fun t => t.setRegion g (committed (s.region g)) := by
  intro g l
  unfold State.assistCommit
  rw [h]
  dsimp only
  unfold State.commitStatus at hst
  dsimp only at hst
  rw [hst]
  rfl

/-- COMMIT refused (R322). -/
theorem State.assistCommit_refused (h : s.assistOp n 7 = some e) {k : Nat} (hst : s.storeStatus n (s.commitStatus n e) = k + 1) :
    s.assistCommit n = (if k + 1 = 0xA then s.setB (aThr n 4) 7 else s).reply n e (k + 1) 0 := by
  unfold State.assistCommit
  rw [h]
  dsimp only
  unfold State.commitStatus at hst
  dsimp only at hst
  rw [hst]
  rfl

end

/-- The bytes of a fetch: none without uncovered cells. -/
theorem fetchBytes_eq_nil {r : Region_} (h : fetchBytes r = []) : r.open_ = [] := by
  unfold fetchBytes at h
  cases ho : r.open_ with
  | nil => rfl
  | cons c l =>
    rw [ho, List.flatMap_cons] at h
    exact absurd (List.append_eq_nil_iff.mp h).1 (by unfold natLe; simp)

/-- A repair record is at least its header (R324). -/
theorem repairRecord_ne_nil (g : Nat) (r : Region_) : repairRecord g r ≠ [] := by
  intro h
  have hlen := congrArg List.length h
  unfold repairRecord natLe at hlen
  simp at hlen

/- Commit and reply ------------------------------------------------------------------------------------------------------------------ -/

/-- A region after COMMIT (R322). -/
theorem committed_spec (r : Region_) :
    (committed r).lines.length = r.lines.length ∧ (∀ l ∈ (committed r).lines, l.tag ≠ .tent) ∧
    (∀ c, c ∈ (committed r).cells ↔ c ∈ r.cells ∧ covers r.lines c = false) ∧ (committed r).st = r.st := by
  refine ⟨List.length_map .., fun l hl => ?_, fun c => ?_, rfl⟩
  · obtain ⟨x, -, hx⟩ := List.mem_map.mp hl
    rw [← hx]
    split
    next => exact nofun
    next h => exact h
  · rw [show (committed r).cells = r.cells.filter fun c => !covers r.lines c from rfl, List.mem_filter, Bool.not_eq_true']

/-- The reply word of an assist entry (R319). -/
def replyWord (e : W128) (seq : BitVec 4) (status value : Nat) : Nat :=
  fld e 124 4 + status % 16 * 2 ^ 4 + fld e 0 12 * 2 ^ 8 + seq.toNat * 2 ^ 20 + value % 2 ^ 39 * 2 ^ 24

theorem replyWord_fields (e : W128) (seq : BitVec 4) (status value : Nat) :
    let w := (BitVec.ofNat 64 (replyWord e seq status value)).toNat
    w % 16 = fld e 124 4 ∧ w / 16 % 16 = status % 16 ∧ w / 256 % 4096 = fld e 0 12 ∧ w / 2 ^ 20 % 16 = seq.toNat ∧
    w / 2 ^ 24 = value % 2 ^ 39 := by
  intro w
  have hop : fld e 124 4 < 16 := Nat.mod_lt _ (by decide)
  have hreg : fld e 0 12 < 4096 := Nat.mod_lt _ (by decide)
  have hseq : seq.toNat < 16 := seq.isLt
  have hw : w = replyWord e seq status value := by
    unfold w
    rw [BitVec.toNat_ofNat]
    unfold replyWord
    omega
  rw [hw]
  unfold replyWord
  generalize fld e 124 4 = a at *
  generalize fld e 0 12 = b at *
  generalize seq.toNat = c at *
  omega

/-- A reply (R319, R320). -/
theorem State.reply_spec {s : State} (h : s.Inv) (n : Nat) (e : W128) (status value : Nat) :
    let t := s.thrs n
    let s' := s.reply n e status value
    s'.thrs n = { t with
      assist := t.assist.drop 1, seq := t.seq + 1, times := 0, out := t.out ++ [BitVec.ofNat 64 (replyWord e t.seq status value)] } ∧
    s'.rd (aThr n 0x28) = s.rd (aThr n 0x28) + 1 ∧
    s'.evq = (if t.out.isEmpty then s.evq ++ [EvReq.mk (rkThr n) none 5 (BitVec.ofNat 32 n)] else s.evq) ∧
    s'.mem = s.mem ∧ s'.regions = s.regions := by
  intro t s'
  obtain ⟨t1, ht1⟩ : ∃ t1 : ThrSt, t1 = { t with
    assist := t.assist.drop 1, seq := t.seq + 1, times := 0, out := t.out ++ [BitVec.ofNat 64 (replyWord e t.seq status value)] } := ⟨_, rfl⟩
  have hself := State.thrs_setThr_self h n t1
  obtain ⟨s1, hs1⟩ : ∃ s1, s1 = (s.setThr n t1).bump (aThr n 0x28) 1 := ⟨_, rfl⟩
  have hcount : s1.rd (aThr n 0x28) = s.rd (aThr n 0x28) + 1 := by
    rw [hs1]
    exact State.rd_wr_self (h.setThr n t1).regs _ _
  have hs' : s' = (if t.out.isEmpty then s1.post (rkThr n) none 5 n else s1).clearWaits := by
    rw [hs1, ht1]
    rfl
  rw [← ht1]
  obtain ⟨s2, hs2⟩ : ∃ s2, s2 = if t.out.isEmpty then s1.post (rkThr n) none 5 n else s1 := ⟨_, rfl⟩
  have hframe : s' = { s2 with ths := s'.ths } := by
    rw [hs2, hs']
    exact (State.clearWaits_frame _).1
  have hthr : s2.thr = s1.thr ∧ s2.regs = s1.regs ∧ s2.mem = s1.mem ∧ s2.regions = s1.regions ∧
      s2.evq = if t.out.isEmpty then s1.evq ++ [EvReq.mk (rkThr n) none 5 (BitVec.ofNat 32 n)] else s1.evq := by
    rw [hs2]
    split <;> exact ⟨rfl, rfl, rfl, rfl, rfl⟩
  obtain ⟨hthr, hregs, hmem, hregions, hevq⟩ := hthr
  rw [hframe]
  refine ⟨?_, (State.rd_congr hregs _).trans hcount, ?_, ?_, ?_⟩
  · show spGet _ s2.thr n = t1
    rw [hthr, hs1]
    exact hself
  · show s2.evq = _
    rw [hevq, hs1]
    rfl
  · show s2.mem = _
    rw [hmem, hs1]
    rfl
  · show s2.regions = _
    rw [hregions, hs1]
    rfl

end Sys2Proof.Machine
end

section

/-! The statement on the memory writes and replies of assist operations (O42). -/

namespace Sys2Proof.Machine

/-- A status other than MEM_ERR is answered as it is (R323). -/
theorem State.assistFetch_answers {s : State} {n k : Nat} {e : W128} (h : s.assistOp n 3 = some e)
    (hst : s.storeStatus n (s.fetchStatus n e) = k) (h0 : k ≠ 0) (hA : k ≠ 0xA) : s.assistFetch n = s.reply n e k 0 := by
  obtain ⟨j, rfl⟩ := Nat.exists_eq_succ_of_ne_zero h0
  rw [State.assistFetch_refused h hst, if_neg hA]

theorem State.assistFetch_memErr {s : State} {n : Nat} {e : W128} (h : s.assistOp n 3 = some e)
    (hst : s.storeStatus n (s.fetchStatus n e) = 0xA) : s.assistFetch n = (s.setB (aThr n 4) 7).reply n e 0xA 0 := by
  rw [State.assistFetch_refused h hst, if_pos rfl]

theorem State.assistCommit_answers {s : State} {n k : Nat} {e : W128} (h : s.assistOp n 7 = some e)
    (hst : s.storeStatus n (s.commitStatus n e) = k) (h0 : k ≠ 0) (hA : k ≠ 0xA) : s.assistCommit n = s.reply n e k 0 := by
  obtain ⟨j, rfl⟩ := Nat.exists_eq_succ_of_ne_zero h0
  rw [State.assistCommit_refused h hst, if_neg hA]

theorem State.assistCommit_memErr {s : State} {n : Nat} {e : W128} (h : s.assistOp n 7 = some e)
    (hst : s.storeStatus n (s.commitStatus n e) = 0xA) : s.assistCommit n = (s.setB (aThr n 4) 7).reply n e 0xA 0 := by
  rw [State.assistCommit_refused h hst, if_pos rfl]

section
variable {s : State} {n : Nat} {e : W128}

/-- The status of a FETCH of a region that is the task's (R322). -/
theorem State.fetchStatus_owner (h : s.assistCheck n e true = 0) : firstStatus (s.fetchStatus n e) =
    s.destStatus n (destOf e) (fetchBytes (s.region (assistRegion n e))).length := by
  rw [State.fetchStatus, h, firstStatus_zero, firstStatus_singleton]

/-- The status of a COMMIT of a region that is the task's (R322). -/
theorem State.commitStatus_owner (h : s.assistCheck n e true = 0) : firstStatus (s.commitStatus n e) =
    if (s.region (assistRegion n e)).st = .closed then
      if (s.region (assistRegion n e)).unrep then 8
      else if (s.region (assistRegion n e)).open_.isEmpty then
        s.destStatus n (destOf e) (repairRecord (assistRegion n e) (s.region (assistRegion n e))).length
      else 9
    else 4 := by
  unfold State.commitStatus
  dsimp only
  rw [h, firstStatus_zero, firstStatus_ite_not (by decide), firstStatus_ite (by decide), firstStatus_ite_not (by decide),
    firstStatus_singleton]

end

/-- Settles O42: the checks come before the first write, and a transfer that is over is answered by its outcome. -/
theorem assistStores : Obligations.AssistStores := by
  unfold Obligations.AssistStores
  refine ⟨?_, committed_spec, ?_⟩
  · intro s n e rest t g r op dest cells lines away hs ha hok
    have hfetch : ∀ {u : State}, s.assistFetch n.val = u → exec (.fetch n ()) s = .next u := fun hf =>
      congrArg Host.Outcome.next ((State.awakeDo_awake hs _).trans hf)
    have hcommit : ∀ {u : State}, s.assistCommit n.val = u → exec (.commit n ()) s = .next u := fun hf =>
      congrArg Host.Outcome.next ((State.awakeDo_awake hs _).trans hf)
    have hle : away ≤ 3 := s.assistCheck_le n.val e true
    refine ⟨fun hx hj ho ht => ?_, ?_⟩
    · have hhead := State.assistHead_turn hx hj ha ho ht
      have hfirst : ∀ l, s.storeStatus n.val l = firstStatus l := fun l => State.storeStatus_first hx l
      refine ⟨fun hop h0 => ?_, fun hop h0 => hfetch ?_, fun hop h0 => hcommit ?_, fun hop h0 => ?_⟩
      · have hop3 := State.assistOp_eq hhead hop hok
        have hst : s.storeStatus n.val (s.fetchStatus n.val e) = s.destStatus n.val dest cells.length :=
          (hfirst _).trans (State.fetchStatus_owner h0)
        refine ⟨fun hd => hfetch ?_, fun hd hown hodd => hfetch ?_, fun hd hown heven hnil => hfetch ?_, fun hd heven hne => hfetch ?_⟩
        · exact State.assistFetch_memErr hop3 (hst.trans (State.destStatus_away hd))
        · exact State.assistFetch_answers hop3 (hst.trans (State.destStatus_odd hd hown hodd)) (by decide) (by decide)
        · have hzero : s.destStatus n.val dest cells.length = 0 := by
            rw [hnil] at hd ⊢
            exact State.destStatus_empty hd hown heven
          rw [State.assistFetch_ok hop3 (hst.trans hzero), show fetchBytes (s.region (assistRegion n.val e)) = [] from hnil,
            State.assistStore_nil, show (s.region (assistRegion n.val e)).open_ = [] from fetchBytes_eq_nil hnil]
          rfl
        · exact (State.assistFetch_ok hop3 (hst.trans (State.destStatus_good hd heven
            (fun hc => hne (List.length_eq_zero_iff.mp hc))))).trans (State.assistStore_begins _ _ hne hx)
      · have hop3 := State.assistOp_eq hhead hop hok
        exact State.assistFetch_answers hop3 ((hfirst _).trans (firstStatus_pos h0 _)) h0 (by omega)
      · have hop7 := State.assistOp_eq hhead hop hok
        exact State.assistCommit_answers hop7 ((hfirst _).trans (firstStatus_pos h0 _)) h0 (by omega)
      · have hop7 := State.assistOp_eq hhead hop hok
        have hst := (hfirst (s.commitStatus n.val e)).trans (State.commitStatus_owner h0)
        refine ⟨fun hc => hcommit ?_, fun hc hu => hcommit ?_, fun hc hu hne => hcommit ?_, fun hc hu hnil => ?_⟩
        · exact State.assistCommit_answers hop7 (hst.trans (if_neg hc)) (by decide) (by decide)
        · exact State.assistCommit_answers hop7 (hst.trans ((if_pos hc).trans (if_pos hu))) (by decide) (by decide)
        · refine State.assistCommit_answers hop7 (hst.trans ((if_pos hc).trans ((if_neg ?_).trans (if_neg ?_)))) (by decide) (by decide)
          · rw [show (s.region (assistRegion n.val e)).unrep = false from hu]
            decide
          · rw [List.isEmpty_iff]
            exact hne
        · have hst' : s.storeStatus n.val (s.commitStatus n.val e) = s.destStatus n.val dest lines.length := by
            refine hst.trans ((if_pos hc).trans ((if_neg ?_).trans (if_pos ?_)))
            · rw [show (s.region (assistRegion n.val e)).unrep = false from hu]
              decide
            · rw [List.isEmpty_iff]
              exact hnil
          have hlen : lines.length ≠ 0 := fun hc => repairRecord_ne_nil g r (List.length_eq_zero_iff.mp hc)
          refine ⟨fun hd => hcommit ?_, fun hd hown hodd => hcommit ?_, fun hd heven => hcommit ?_⟩
          · exact State.assistCommit_memErr hop7 (hst'.trans (State.destStatus_away hd))
          · exact State.assistCommit_answers hop7 (hst'.trans (State.destStatus_odd hd hown hodd)) (by decide) (by decide)
          · exact (State.assistCommit_ok hop7 (hst'.trans (State.destStatus_good hd heven hlen))).trans
              (State.assistStore_begins _ _ (repairRecord_ne_nil _ _) hx)
    · intro x hx s1
      have hhead := State.assistHead_xfer hx ha
      have hzero : ∀ l, s.storeStatus n.val l = 0 := fun l => State.storeStatus_underWay hx l
      refine ⟨fun hop hne => ?_, fun hop => ?_⟩
      · have hok3 := State.assistFetch_ok (State.assistOp_eq hhead hop hok) (hzero _)
        exact ⟨fun hover => hfetch (hok3.trans (State.assistStore_waits _ _ hne hx hover)),
          fun hover he => hfetch (hok3.trans (State.assistStore_done _ _ hne hx hover he)),
          fun hover he => hfetch (hok3.trans (State.assistStore_fails _ _ hne hx hover he))⟩
      · have hok7 := State.assistCommit_ok (State.assistOp_eq hhead hop hok) (hzero _)
        have hne := repairRecord_ne_nil (assistRegion n.val e) (s.region (assistRegion n.val e))
        exact ⟨fun hover => hcommit (hok7.trans (State.assistStore_waits _ _ hne hx hover)),
          fun hover he => hcommit (hok7.trans (State.assistStore_done _ _ hne hx hover he)),
          fun hover he => hcommit (hok7.trans (State.assistStore_fails _ _ hne hx hover he))⟩
  · intro s n e status value h t s'
    obtain ⟨hthr, hcount, hevq, hmem, hregions⟩ := State.reply_spec h n.val e status value
    refine ⟨by rw [hthr], by rw [hthr], by rw [hthr], ⟨_, by rw [hthr], replyWord_fields e _ status value⟩, hcount,
      fun hnil => ?_, fun hne => ?_, hmem, hregions⟩
    · rw [hevq, if_pos (List.isEmpty_iff.mpr hnil)]
    · rw [hevq, if_neg (by rw [List.isEmpty_iff]; exact hne)]

end Sys2Proof.Machine
end

section

/-! FINISH and done (O43). -/

namespace Sys2Proof.Machine

/-- What holds a FINISH depends on the expanders, the pin groups and the registers alone. -/
theorem State.holdOf_congr {s u : State} (hpx : u.px = s.px) (hpg : u.pg = s.pg) (hregs : u.regs = s.regs) (i n : Nat) :
    u.holdOf i n = s.holdOf i n := by
  unfold State.holdOf State.frameOf State.ownLanes State.owns State.kind State.siteLanes State.pxState State.pxs State.pgs State.bit
    State.rf State.rd
  rw [hpx, hpg, hregs]

/-- The longest wait of a list of frames is at least that of each. -/
theorem due_le_foldl {l : List ExpFrame} {e : ExpFrame} (he : e ∈ l) (d : Nat) : e.due ≤ l.foldl (fun d e => max d e.due) d := by
  have hmono : ∀ (l : List ExpFrame) (d : Nat), d ≤ l.foldl (fun d e => max d e.due) d := by
    intro l
    induction l with
    | nil => exact le_refl
    | cons x l ih => exact fun d => (le_max_left _ _).trans (ih _)
  induction l generalizing d with
  | nil => exact absurd he List.not_mem_nil
  | cons x l ih =>
    rcases List.mem_cons.mp he with rfl | hl
    · exact (le_max_right _ _).trans (hmono l _)
    · exact ih hl _

/-- A frame that expander `n` has still to compare (R11). -/
theorem State.frameOf_iff {s : State} {n : Nat} {e : ExpFrame} :
    s.frameOf n e = true ↔ ∃ x ∈ e.lanes, s.owns n x.1 = true ∧ ∃ u ∈ x.2.2, u ≠ none := by
  unfold State.frameOf
  rw [List.any_eq_true]
  refine exists_congr fun x => and_congr_right fun _ => ?_
  rw [Bool.and_eq_true, List.any_eq_true]
  exact and_congr_right fun _ => exists_congr fun u => and_congr_right fun _ => Option.isSome_iff_ne_none

theorem mem_insNat_self (a : Nat) (l : List Nat) : a ∈ insNat a l := by
  induction l with
  | nil => exact List.mem_singleton.mpr rfl
  | cons b l ih =>
    unfold insNat
    split
    next => exact List.mem_cons_self
    next =>
      split
      next h => exact h ▸ List.mem_cons_self
      next => exact List.mem_cons_of_mem _ ih

theorem siteResult_lt (v : W32) : siteResult v < 4 := by
  unfold siteResult
  split_ifs <;> decide

/-- The result of a site depends on its SAW bits alone (R20). -/
theorem siteResult_putField_state (v : W32) (x : Nat) : siteResult (putField v 0 3 x) = siteResult v := by
  unfold siteResult
  rw [getLsbD_putField, getLsbD_putField, getLsbD_putField]
  rfl

/-- A site becomes FINAL (R17, R20). -/
theorem State.makeFinal_spec {s : State} (h : s.Inv) (i : Nat) :
    let t := s.makeFinal i
    t = { s with regs := t.regs, unreported := t.unreported } ∧
    (∀ a, a ≠ aSite i 0x14 → t.rd a = s.rd a) ∧
    t.siteState i = s.siteState i ∧ t.siteFinal i = true ∧
    t.rf (aSite i 0x14) 4 2 = siteResult (s.rd (aSite i 0x14)) ∧
    (s.bit (aSite i 0x10) 0 = true → i ∈ t.unreported) := by
  intro t
  obtain ⟨s1, hs1⟩ : ∃ s1, s1 = (s.wf (aSite i 0x14) 4 2 (siteResult (s.rd (aSite i 0x14)))).setB (aSite i 0x14) 3 := ⟨_, rfl⟩
  have hw : (s.wf (aSite i 0x14) 4 2 (siteResult (s.rd (aSite i 0x14)))).Inv := h.wr _ _
  have ht : t = if s.bit (aSite i 0x10) 0 then { s1 with unreported := insNat i s1.unreported } else s1 := by
    rw [hs1]
    rfl
  have hregs : t.regs = s1.regs := by
    rw [ht]
    split <;> rfl
  refine ⟨?_, fun a ha => ?_, ?_, ?_, ?_, fun hb => ?_⟩
  · rw [ht, hs1]
    split <;> rfl
  · rw [State.rd_congr hregs, hs1]
    exact (State.rd_wf_ne ha).trans (State.rd_wf_ne ha)
  · rw [State.siteState, State.rf_congr hregs, hs1, State.setB, State.rf_wf_disjoint hw.regs _ _ (.inl (by decide)),
      State.rf_wf_disjoint h.regs _ _ (.inl (by decide))]
    rfl
  · rw [State.siteFinal, State.bit_congr hregs, hs1, State.bit_setB_self hw.regs _ (by decide)]
  · rw [State.rf_congr hregs, hs1, State.setB, State.rf_wf_disjoint hw.regs _ _ (.inr (by decide)),
      State.rf_wf_self h.regs _ _ (by decide)]
    exact Nat.mod_eq_of_lt (siteResult_lt _)
  · rw [ht, if_pos hb]
    exact mem_insNat_self i _

/-- The pin groups of a site queue their close marks (R309). -/
theorem State.foldl_marks (i : Nat) (l : List Nat) (s : State) :
    let t := l.foldl (fun t g => t.setPg g { t.pgs g with marks := (t.pgs g).marks ++ [i] }) s
    t = { s with pg := t.pg } ∧ (s.Inv → t.Inv) := by
  induction l generalizing s with
  | nil => exact ⟨rfl, id⟩
  | cons g l ih =>
    obtain ⟨hframe, hinv⟩ := ih (s.setPg g { s.pgs g with marks := (s.pgs g).marks ++ [i] })
    exact ⟨hframe, fun h => hinv (h.setPg g _)⟩

/-- A site that no Thresher holds a region of is done and FINAL at once (R17). -/
theorem State.siteToDone_free {s : State} {i : Nat} (hfree : ∀ n < 4, s.siteUses i n = false) : ∃ pg sites,
    s.siteToDone i = State.makeFinal { s.wf (aSite i 0x14) 0 3 3 with pg := pg, sites := sites } i ∧
    (s.Inv → State.Inv { s.wf (aSite i 0x14) 0 3 3 with pg := pg, sites := sites }) := by
  have hts : ((List.range 4).filter fun n => s.siteUses i n) = [] := by
    rw [List.filter_eq_nil_iff]
    intro n hn
    rw [hfree n (List.mem_range.mp hn)]
    exact Bool.false_ne_true
  obtain ⟨gs, hgs⟩ : ∃ gs, gs = (List.range 8).filter fun g => s.siteHasPg i g := ⟨_, rfl⟩
  obtain ⟨s2, hs2⟩ : ∃ s2, s2 = gs.foldl (fun t g => t.setPg g { t.pgs g with marks := (t.pgs g).marks ++ [i] })
    (s.wf (aSite i 0x14) 0 3 3) := ⟨_, rfl⟩
  obtain ⟨hframe, hinv⟩ := State.foldl_marks i gs (s.wf (aSite i 0x14) 0 3 3)
  have h0inv : s.Inv → (s.wf (aSite i 0x14) 0 3 3).Inv := fun h => h.wr _ _
  have hdone : s.siteToDone i = (s2.setSite i ⟨none, [], gs⟩).makeFinal i := by
    rw [hs2, hgs]
    unfold State.siteToDone
    dsimp only
    rw [hts, List.filter_nil, List.filter_nil, List.foldl_nil, List.isEmpty_nil, if_pos rfl]
  rw [← hs2] at hframe hinv
  clear hs2
  generalize s.wf (aSite i 0x14) 0 3 3 = s0 at *
  have hset : s2.setSite i ⟨none, [], gs⟩ = { s0 with pg := s2.pg, sites := (s0.setSite i ⟨none, [], gs⟩).sites } := by
    conv_lhs => rw [hframe]
    rfl
  refine ⟨s2.pg, (s0.setSite i ⟨none, [], gs⟩).sites, hdone.trans (congrArg (State.makeFinal · i) hset), fun h => ?_⟩
  rw [← hset]
  exact (State.setSite_keeps (.refl s2) i _).inv (hinv (h0inv h))

/-- Settles O43: FINISH records what holds the site; a site that nothing holds is done, and FINAL when no Thresher is awaited. -/
theorem sitesFinish : Obligations.SitesFinish := by
  unfold Obligations.SitesFinish
  refine ⟨?_, ?_, ?_⟩
  · intro s i hs b
    have hregs : b.regs = s.regs := State.mgmtIn_regs _ _ _
    have hst : b.siteState i.val = s.siteState i.val := State.rf_congr hregs _ _ _
    have hsite : b.site i.val = s.site i.val := congrArg (spGet (fun _ => SiteSt.init) · i.val) (State.mgmtIn_sites s _ true)
    have hhold : b.holdOf i.val = s.holdOf i.val := funext fun n =>
      State.holdOf_congr (State.mgmtIn_px s _ true) (State.mgmtIn_pg s _ true) hregs i.val n
    have hexec : ∀ {u : State}, b.finish i.val = u → exec (.finish i) s = .next u := fun hu =>
      congrArg Host.Outcome.next ((State.mgmtDo_awake hs _ _ _).trans hu)
    have hdone : ∀ {u : State}, s.finishDone i.val = u → exec (.siteDone i) s = .next u.poll := fun hu =>
      congrArg Host.Outcome.next ((State.awakeDo_awake hs _).trans (congrArg State.poll hu))
    refine ⟨fun h2 hf => hexec ?_, fun hor => hexec ?_, fun l hf h2 hall => hdone ?_, fun l hf hall => hdone ?_⟩
    · unfold State.finish
      dsimp only
      rw [hst, hsite, h2, hf, hhold, if_pos (by decide)]
    · unfold State.finish
      dsimp only
      rw [hst, hsite, if_neg]
      rw [Bool.and_eq_true, decide_eq_true_eq, Option.isNone_iff_eq_none]
      exact fun hc => hor.elim (fun h => h hc.1) (fun h => h hc.2)
    · unfold State.finishDone
      rw [hf]
      dsimp only
      rw [h2, hall, if_pos (by decide)]
    · unfold State.finishDone
      rw [hf]
      dsimp only
      rw [hall, Bool.and_false, if_neg Bool.false_ne_true]
  · intro s i n line mine
    refine ⟨fun e he hmine => ⟨fun hmeets => ?_, fun h hpx hdue => ?_⟩, fun hb he hst hno => ?_⟩
    · have hin : e ∈ line.filter (s.frameOf n.val) := List.mem_filter.mpr ⟨he, State.frameOf_iff.mpr hmine⟩
      refine ⟨⟨n.val, (s.pxs n.val).ends.length + (s.pxs n.val).burst.isSome.toNat, s.pxState n.val == 2,
        (line.filter (s.frameOf n.val)).foldl (fun d e => max d e.due) 0⟩, ?_, rfl, due_le_foldl hin 0⟩
      unfold State.holdOf
      refine if_pos ?_
      rw [hmeets, Bool.true_and, Bool.or_eq_true, Bool.not_eq_true', List.isEmpty_eq_false_iff]
      exact .inr (List.ne_nil_of_mem hin)
    · unfold State.holdOver
      rw [hpx, Bool.and_eq_false_iff]
      refine .inr (Bool.eq_false_iff.mpr fun hall => ?_)
      have hone := List.all_eq_true.mp hall e he
      rw [State.frameOf_iff.mpr hmine, decide_eq_false (Nat.not_lt.mpr hdue)] at hone
      exact absurd hone (by decide)
    · have hnone : line.filter (s.frameOf n.val) = [] := List.filter_eq_nil_iff.mpr fun e hm hf => hno e hm (State.frameOf_iff.mp hf)
      unfold State.holdOf
      dsimp only
      rw [show ((s.pgs (n.val / 2)).line.filter (s.frameOf n.val)) = [] from hnone, hb, he, beq_eq_false_iff_ne.mpr hst,
        if_neg]
      rw [show (false || decide (0 < [].length + (none : Option Burst).isSome.toNat) || !([] : List ExpFrame).isEmpty) = false from rfl,
        Bool.and_false]
      exact Bool.false_ne_true
  · intro s i h hfree v t
    obtain ⟨pg, sites, hdone, hinv⟩ := State.siteToDone_free hfree
    obtain ⟨s1, hs1⟩ : ∃ s1 : State, s1 = { s.wf (aSite i.val 0x14) 0 3 3 with pg := pg, sites := sites } := ⟨_, rfl⟩
    rw [← hs1] at hdone hinv
    have hregs : s1.regs = (s.wf (aSite i.val 0x14) 0 3 3).regs := by rw [hs1]
    obtain ⟨hframe, hrd, hst, hfin, hres, hrep⟩ := State.makeFinal_spec (hinv h) i.val
    rw [show t = _ from hdone]
    refine ⟨?_, hfin, ?_, fun hb => hrep ?_, ?_, ?_, fun j hj => ?_⟩
    · rw [hst, State.siteState, State.rf_congr hregs, State.rf_wf_self h.regs _ _ (by decide)]
      rfl
    · rw [hres, State.rd_congr hregs, State.wf, State.rd_wr_self h.regs]
      exact siteResult_putField_state v 3
    · rw [State.bit_congr hregs]
      exact (State.bit_of_rd (State.rd_wf_ne (by unfold aSite; omega)) 0).trans hb
    · rw [hframe, hs1]
      rfl
    · rw [hframe, hs1]
      rfl
    · have hne : aSite j.val 0x14 ≠ aSite i.val 0x14 := by
        have := fun hc => hj (Fin.ext hc)
        unfold aSite
        omega
      rw [hrd _ hne, State.rd_congr hregs]
      exact State.rd_wf_ne hne

end Sys2Proof.Machine
end

section

/-! SUPPORT. What a stop of an expander leaves of the others, of memory and of the registers of sync and clocks (O44). -/

namespace Sys2Proof.Machine

/-- Memory and the registers of sync and clocks are the same, and no expander that was at rest has an entry or is armed. -/
structure Still (s t : State) : Prop where
  inv : t.Inv
  mem : t.mem = s.mem
  queue : ∀ m, (s.pxs m).queue = [] → (t.pxs m).queue = []
  armed : ∀ m, s.isArmed m = false → t.isArmed m = false
  sync : ∀ a, 0xB0000 ≤ a → a < 0xC0000 → t.rd a = s.rd a

theorem Still.refl {s : State} (h : s.Inv) : Still s s := ⟨h, rfl, fun _ hq => hq, fun _ ha => ha, fun _ _ _ => rfl⟩

theorem Still.trans {s t u : State} (h₁ : Still s t) (h₂ : Still t u) : Still s u :=
  ⟨h₂.inv, h₂.mem.trans h₁.mem, fun m hq => h₂.queue m (h₁.queue m hq), fun m ha => h₂.armed m (h₁.armed m ha),
    fun a hl hu => (h₂.sync a hl hu).trans (h₁.sync a hl hu)⟩

/-- A step that changes neither memory, expanders nor registers. -/
theorem Still.of_same {s t : State} (ht : t.Inv) (hpx : t.px = s.px) (hregs : t.regs = s.regs) (hmem : t.mem = s.mem) : Still s t :=
  ⟨ht, hmem, fun m hq => by rw [State.pxs_congr hpx, hq], fun m ha => by rw [State.isArmed, State.bit_congr hregs]; exact ha,
    fun a _ _ => State.rd_congr hregs a⟩

/-- The offset of a register of an expander other than CTRL. -/
def PxOffset (o : Nat) : Prop := 0 < o ∧ o < 0x10000

theorem opTarget_offset {t o : Nat} (h : opTarget t = some (some o)) : PxOffset o := by
  unfold opTarget at h
  unfold PxOffset
  split_ifs at h <;> simp only [Option.some.injEq, reduceCtorEq] at h <;> omega

section
variable {s : State} (h : s.Inv)
include h

theorem Still.wr {a : Nat} (ha : a < 0xB0000 ∨ 0xC0000 ≤ a) (hp : ∀ m, a ≠ aPx m 0) (v : W32) : Still s (s.wr a v) :=
  ⟨h.wr a v, rfl, fun _ hq => hq, fun m hm => by
    rw [State.isArmed, State.bit_wr_ne _ _ (Ne.symm (hp m))]
    exact hm, fun b hl hu => State.rd_wr_ne (by omega)⟩

theorem Still.wrPx (n : Nat) {o : Nat} (ho : PxOffset o) (v : W32) : Still s (s.wr (aPx n o) v) := by
  obtain ⟨h0, h1⟩ := ho
  exact Still.wr h (.inr (by unfold aPx; omega)) (fun m => by unfold aPx; omega) v

theorem Still.wrLane (n : Nat) {o : Nat} (ho : 0 < o ∧ o < 0x1000) (v : W32) : Still s (s.wr (aLn n o) v) :=
  Still.wr h (.inr (by unfold aLn; omega)) (fun m => by unfold aLn aPx; omega) v

theorem Still.setPx (n : Nat) (v : PxSt) (hv : (s.pxs n).queue = [] → v.queue = []) : Still s (s.setPx n v) :=
  ⟨h.setPx n v, rfl, fun m hq => by
    by_cases hm : m = n
    · rw [hm, State.pxs_setPx_self h]
      exact hv (hm ▸ hq)
    · rw [State.pxs_setPx_ne hm, hq], fun _ ha => ha, fun _ _ _ => rfl⟩

theorem Still.setPg (g : Nat) (v : PgSt) : Still s (s.setPg g v) := .of_same (h.setPg g v) rfl rfl rfl

theorem Still.setLane (n : Nat) (v : LnSt) : Still s (s.setLane n v) := .of_same ((State.setLane_keeps (.refl s) n v).inv h) rfl rfl rfl

theorem Still.mapHolds (f : Hold → Hold) : Still s (s.mapHolds f) := .of_same ((State.mapHolds_keeps (.refl s) f).inv h) rfl rfl rfl

theorem Still.clearWaits : Still s s.clearWaits := by
  have hframe := s.clearWaits_frame.1
  exact .of_same ((State.clearWaits_keeps (.refl s)).inv h) (by rw [hframe]) (by rw [hframe]) (by rw [hframe])

theorem Still.setQueue (n : Nat) {q : List W128} (hq : (s.pxs n).queue = [] → q = []) : Still s (s.setQueue n q) := by
  have h₁ := Still.setPx h n { s.pxs n with queue := q } hq
  exact h₁.trans (Still.clearWaits h₁.inv)

theorem Still.queueLow (n : Nat) : Still s (s.queueLow n) := by
  unfold State.queueLow
  dsimp only
  have h₁ := Still.setPx h n { s.pxs n with low := (s.pxs n).queue.length } id
  split
  · exact h₁.trans (.of_same ((State.post_keeps (.refl _) _ _ _ _).inv h₁.inv) rfl rfl rfl)
  · exact h₁

theorem Still.fetchReset (n : Nat) : Still s (s.fetchReset n) := by
  have h₁ : Still s (if s.bit (aPx n 8) 0 then s.wr (aPx n 0x20) (s.rd (aPx n 0x1C)) else s) := by
    split
    · exact Still.wrPx h n (o := 0x20) (by unfold PxOffset; decide) _
    · exact .refl h
  have h₂ := h₁.trans (.of_same ((State.dropXfer_keeps (.refl _) (.fetch n)).inv h₁.inv) rfl rfl rfl)
  unfold State.fetchReset
  dsimp only
  exact h₂.trans (Still.setPx h₂.inv n _ id)

theorem Still.disarm (n : Nat) : Still s (s.clrB (aPx n 0) 0) ∧ (s.clrB (aPx n 0) 0).isArmed n = false := by
  refine ⟨⟨h.wr _ _, rfl, fun _ hq => hq, fun m ha => ?_, fun a _ _ => State.rd_wr_ne (by unfold aPx; omega)⟩,
    State.bit_clrB_self h.regs _ (by decide)⟩
  by_cases hm : m = n
  · rw [hm]
    exact State.bit_clrB_self h.regs _ (by decide)
  · rw [State.isArmed, State.clrB, State.wf, State.bit_wr_ne _ _ (by unfold aPx; omega)]
    exact ha

theorem Still.setPxState (n v : Nat) : Still s (s.setPxState n v) := Still.wrPx h n (o := 4) (by unfold PxOffset; decide) _

theorem Still.foldl_siteSetB (k : Nat) (l : List Nat) (hl : ∀ i ∈ l, i < 256) :
    Still s (l.foldl (fun t i => t.setB (aSite i 0x14) k) s) := by
  induction l generalizing s with
  | nil => exact .refl h
  | cons i l ih =>
    have hi := hl i List.mem_cons_self
    have h₁ : Still s (s.setB (aSite i 0x14) k) := Still.wr h (.inl (by unfold aSite; omega)) (fun m => by unfold aSite aPx; omega) _
    exact h₁.trans (ih h₁.inv fun j hj => hl j (List.mem_cons_of_mem _ hj))

theorem Still.saw (mask k : Nat) : Still s (s.saw mask k) :=
  Still.foldl_siteSetB h k _ fun _ hi => List.mem_range.mp (List.mem_filter.mp hi).1

theorem Still.sawActive (mask k : Nat) (en : Nat → Bool) : Still s (s.sawActive mask k en) :=
  Still.foldl_siteSetB h k _ fun _ hi => List.mem_range.mp (List.mem_filter.mp hi).1

theorem Still.pxRest (n : Nat) : Still s (s.pxRest n) := by
  obtain ⟨v, hv | hv⟩ := s.pxRest_eq n
  · rw [hv]
    exact Still.setPxState h n v
  · have h₁ := Still.wrPx h n (o := 0x2C) (by unfold PxOffset; decide) 0
    rw [hv]
    exact h₁.trans (Still.setPxState h₁.inv n v)

theorem Still.settleDiscard (n : Nat) : Still s (s.settleDiscard n) := by
  unfold State.settleDiscard
  dsimp only
  split
  · have h₁ := Still.setQueue h n (q := (s.pxs n).queue.dropWhile fun e => entType e != 1) fun hq => by rw [hq]; rfl
    split
    · exact h₁.trans (Still.pxRest h₁.inv n)
    · exact h₁
  · exact .refl h

theorem Still.endBurst (n c k : Nat) : Still s (s.endBurst n c k) := by
  unfold State.endBurst
  dsimp only
  split
  · exact .refl h
  · exact Still.setPx h n _ id

theorem Still.linkVoid (n : Nat) : Still s (s.linkVoid n) := by
  unfold State.linkVoid
  dsimp only
  split
  · split
    · exact .refl h
    · split <;> exact Still.setPx h _ _ id
  · split
    · split
      · next e _ _ =>
        have h₁ := Still.setPx h (otherPx n) { s.pxs (otherPx n) with
          ends := (s.pxs (otherPx n)).ends.dropLast ++ [{ e with cause := 6 }] } id
        have h₂ := h₁.trans (Still.setPxState h₁.inv (otherPx n) 4)
        exact h₂.trans (Still.settleDiscard h₂.inv _)
      · exact .refl h
    · exact .refl h

theorem Still.linkVoids (n : Nat) : Still s (s.linkVoids n) := by
  have h₁ := Still.linkVoid h n
  unfold State.linkVoids
  dsimp only
  split
  · exact h₁.trans (Still.linkVoid h₁.inv _)
  · exact h₁

end

/-- The records of a vector stream come from the queue (R250). -/
theorem vecFill_queue (per : Nat → Nat) (ferr : Bool) (k : Nat) {v : VecFill} (hv : v.queue = []) : (vecFill per ferr k v).queue = [] := by
  induction k generalizing v with
  | zero => exact hv
  | succ k ih =>
    unfold vecFill
    dsimp only
    split <;> split
    case isTrue => exact hv
    case isTrue => exact hv
    all_goals
      split
      · exact ih hv
      · split
        · exact ih hv
        · rw [hv]

theorem State.nextOf_queue (s : State) (n : Nat) (b : Burst) (hq : (s.pxs n).queue = []) : (s.nextOf n b).2.1 = [] := by
  unfold State.nextOf
  dsimp only
  split
  · simp only [hq, List.drop_nil, ite_self]
  · exact vecFill_queue _ _ _ hq

section
variable {s : State} (h : s.Inv)
include h

theorem Still.takeNext (n : Nat) : Still s (s.takeNext n) := by
  unfold State.takeNext
  split
  · exact .refl h
  · next b _ =>
    dsimp only
    have h₁ := Still.setPx h n { s.pxs n with burst := some (s.nextOf n b).1 } id
    have h₂ := h₁.trans (Still.setQueue h₁.inv n (q := (s.nextOf n b).2.1) fun hq => by
      rw [State.pxs_setPx_self h] at hq
      exact s.nextOf_queue n b hq)
    have h₃ : Still s (if (s.nextOf n b).2.2 then ((s.setPx n { s.pxs n with burst := some (s.nextOf n b).1 }).setQueue n
        (s.nextOf n b).2.1).setB (aPx n 0x28) 4 else (s.setPx n { s.pxs n with burst := some (s.nextOf n b).1 }).setQueue n
        (s.nextOf n b).2.1) := by
      split
      · exact h₂.trans (Still.wrPx h₂.inv n (o := 0x28) (by unfold PxOffset; decide) _)
      · exact h₂
    split
    · exact h₃.trans (Still.linkVoids h₃.inv n)
    · exact h₃.trans (Still.endBurst h₃.inv n _ _)
    · exact h₃

end

end Sys2Proof.Machine
end

section

/-! SUPPORT. Frames and stops as the other expanders, memory and the clocks see them (O44). -/

namespace Sys2Proof.Machine

section
variable {s : State} (h : s.Inv)
include h

theorem Still.putTarget (n t v : Nat) : Still s (s.putTarget n t v) := by
  unfold State.putTarget
  split
  · next o ho => exact Still.wrPx h n (opTarget_offset ho) _
  · exact .refl h

theorem Still.applyOperand (n : Nat) (e : W128) : Still s (s.applyOperand n e) :=
  (Still.putTarget h n _ _).trans (Still.putTarget (Still.putTarget h n _ _).inv n _ _)

theorem Still.putGen (n : Nat) (g : GenSt) : Still s (s.putGen n g) := by
  unfold State.putGen
  dsimp only
  have h₁ := Still.wrPx h n (o := 0x48) (by unfold PxOffset; decide) (BitVec.ofNat 32 g.x)
  have h₂ := h₁.trans (Still.wrPx h₁.inv n (o := 0x4C) (by unfold PxOffset; decide) (BitVec.ofNat 32 g.y))
  have h₃ := h₂.trans (Still.wrPx h₂.inv n (o := 0x20C) (by unfold PxOffset; decide) (BitVec.ofNat 32 g.lfsr))
  exact h₃.trans (Still.setPx h₃.inv n _ id)

theorem Still.expect (n idx : Nat) (ts : Option Nat) (tag : Option (W64 × Nat × Nat)) (ls : List (Nat × List LaneBeat)) :
    Still s (s.expect n idx ts tag ls) := by
  unfold State.expect
  exact Still.setPg h _ _

theorem Still.showFrame (n idx : Nat) (ts : Option Nat) (tag : Option (W64 × Nat × Nat)) (ls : List (Nat × List LaneBeat)) :
    Still s (s.showFrame n idx ts tag ls) := by
  unfold State.showFrame
  dsimp only
  have h₁ := fun fmt => Still.setPg h (n / 2) { s.pgs (n / 2) with fmt := fmt }
  exact (h₁ _).trans (Still.expect (h₁ _).inv n _ _ _ _)

theorem Still.setDriver (g l : Nat) (on : Bool) : Still s (s.setDriver g l on) := Still.wrLane h _ (o := 0x14) (by decide) _

theorem Still.formed (g l : Nat) : Still s (s.formed g l).1 := by
  have hprbs : ∀ poly inv, Still s (s.prbsSyms g l poly inv).1 := fun poly inv => Still.setLane h _ _
  unfold State.formed
  split
  · exact Still.setLane h _ _
  · unfold State.unused
    dsimp only
    split
    · exact hprbs _ false
    · split
      · exact .refl h
      · split
        · exact hprbs _ ((s.rd (aLn (8 * g + l) 0x60)).getLsbD 8)
        · exact .refl h

theorem Still.form (g l : Nat) : Still s (s.form g l) := by
  have hf := Still.formed h g l
  exact hf.trans (Still.setPg hf.inv g _)

theorem Still.carry (g l : Nat) (f : LaneFrame) : Still s (s.carry g l f) := by
  unfold State.carry
  dsimp only
  exact (Still.setPg h g _).trans (Still.setDriver (h.setPg g _) g l _)

end

section
variable {s t : State} (ht : Still s t)
include ht

theorem Still.thenPx (n : Nat) {o : Nat} (ho : PxOffset o) (v : W32) : Still s (t.wr (aPx n o) v) := ht.trans (Still.wrPx ht.inv n ho v)
theorem Still.thenApply (n : Nat) (e : W128) : Still s (t.applyOperand n e) := ht.trans (Still.applyOperand ht.inv n e)
theorem Still.thenPutGen (n : Nat) (g : GenSt) : Still s (t.putGen n g) := ht.trans (Still.putGen ht.inv n g)
theorem Still.thenEnd (n c k : Nat) : Still s (t.endBurst n c k) := ht.trans (Still.endBurst ht.inv n c k)
theorem Still.thenShow (n idx : Nat) (ts : Option Nat) (tag : Option (W64 × Nat × Nat)) (ls : List (Nat × List LaneBeat)) :
    Still s (t.showFrame n idx ts tag ls) := ht.trans (Still.showFrame ht.inv n idx ts tag ls)
theorem Still.thenTake (n : Nat) : Still s (t.takeNext n) := ht.trans (Still.takeNext ht.inv n)
theorem Still.thenSetPg (g : Nat) (v : PgSt) : Still s (t.setPg g v) := ht.trans (Still.setPg ht.inv g v)
theorem Still.thenSawVoid (n mode : Nat) : Still s (t.sawVoid n mode) := ht.trans (Still.saw ht.inv _ _)
theorem Still.thenState (n v : Nat) : Still s (t.setPxState n v) := ht.trans (Still.setPxState ht.inv n v)
theorem Still.thenSettle (n : Nat) : Still s (t.settleDiscard n) := ht.trans (Still.settleDiscard ht.inv n)
theorem Still.thenLow (n : Nat) : Still s (t.queueLow n) := ht.trans (Still.queueLow ht.inv n)

end

theorem Still.ite {s t u : State} (c : Prop) [Decidable c] (ht : Still s t) (hu : Still s u) : Still s (if c then t else u) := by
  split
  · exact ht
  · exact hu

theorem Still.foldl {α : Type} {f : State → α → State} (hf : ∀ (s : State) (x : α), s.Inv → Still s (f s x)) (l : List α) {s : State}
    (h : s.Inv) : Still s (l.foldl f s) := by
  induction l generalizing s with
  | nil => exact .refl h
  | cons x l ih => exact (hf s x h).trans (ih (hf s x h).inv)

section
variable {s : State} (h : s.Inv) (n : Nat)
include h

theorem Still.frameOps (u : W128) : Still s (s.frameOps n u) := by
  have hx : ∀ (b : Bool) (r : Nat), r < 8 → PxOffset (0x80 + 0x40 * b.toNat + 4 * r) := fun b r hr => by
    have := Bool.toNat_le b
    unfold PxOffset
    omega
  have hr : ∀ k, uf u k 3 < 8 := fun k => Nat.mod_lt _ (by decide)
  unfold State.frameOps
  exact (Still.ite _ ((Still.ite _ ((Still.refl h).thenPx n (hx _ _ (hr _)) _) (.refl h)).thenPx n (hx _ _ (hr _)) _)
    (Still.ite _ ((Still.refl h).thenPx n (hx _ _ (hr _)) _) (.refl h))).thenPutGen n _

theorem Still.sequenceUop (u : W128) : Still s (s.sequenceUop n u) := by
  have hgo : ∀ {t : State} (_ : Still s t) (v : W32), Still s (t.wr (aPx n 0x50) v) := fun ht v =>
    ht.thenPx n (o := 0x50) (by unfold PxOffset; decide) v
  have hlc : PxOffset (0x140 + 4 * uf u 15 4) := by
    have : uf u 15 4 < 16 := Nat.mod_lt _ (by decide)
    unfold PxOffset
    omega
  have hset : ∀ x, Still s (s.setPx n { s.pxs n with burst := x }) := fun x => Still.setPx h n _ id
  unfold State.sequenceUop
  dsimp only
  split
  · exact hgo (.refl h) _
  · split
    · exact hgo (.refl h) _
    · exact hgo (Still.wrPx h n hlc _) _
  · exact hgo (Still.wrPx h n hlc _) _
  · split
    · split
      · exact hgo (hset _) _
      · exact hset _
    · exact hgo (.refl h) _
  · exact .refl h
  · exact hgo (.refl h) _

theorem Still.algoFrame (idx : Nat) (op : Option W128) : Still s (s.algoFrame n idx op) := by
  have h₁ : Still s (match op with
    | some e => s.applyOperand n e
    | none => s) := by
    cases op with
    | none => exact .refl h
    | some e => exact (Still.refl h).thenApply n e
  unfold State.algoFrame
  have h₂ := fun u => h₁.trans (Still.frameOps h₁.inv n u)
  have h₃ := fun u g idx ts tag ls => (((h₂ u).thenPutGen n g).thenShow n idx ts tag ls)
  have h₄ := fun u g idx ts tag ls => (h₃ u g idx ts tag ls).trans (Still.sequenceUop (h₃ u g idx ts tag ls).inv n u)
  exact .ite _ ((h₄ _ _ _ _ _ _).thenEnd n _ _) ((h₄ _ _ _ _ _ _).thenTake n)

theorem Still.vecFrame (idx : Nat) (b : Burst) (codes : List (BitVec 32)) (ts : Nat) (last : Bool) :
    Still s (s.vecFrame n idx b codes ts last) := by
  unfold State.vecFrame
  dsimp only
  have h₁ := fun (c : Prop) [Decidable c] u => Still.ite c (Still.frameOps h n u) (.refl h)
  have h₂ := fun (c d : Prop) [Decidable c] [Decidable d] u g => Still.ite d ((h₁ c u).thenPutGen n g) (h₁ c u)
  have h₃ := fun (c d : Prop) [Decidable c] [Decidable d] u g idx ts tag ls => (h₂ c d u g).thenShow n idx ts tag ls
  have hmicro : ∀ {t : State}, Still s t → Still s (t.endMicro n) := fun ht => ht.trans (Still.setPx ht.inv n _ id)
  have hseq : ∀ {t : State} (v : W128), Still s t → Still s (t.sequenceUop n v) := fun v ht => ht.trans (Still.sequenceUop ht.inv n v)
  have h₄ := fun (c d e f : Prop) [Decidable c] [Decidable d] [Decidable e] [Decidable f] u g idx ts tag ls v =>
    Still.ite e (Still.ite f (hmicro (h₃ c d u g idx ts tag ls)) (hseq v (h₃ c d u g idx ts tag ls))) (h₃ c d u g idx ts tag ls)
  exact .ite _ ((h₄ _ _ _ _ _ _ _ _ _ _ _).thenEnd n _ _) ((h₄ _ _ _ _ _ _ _ _ _ _ _).thenTake n)

theorem Still.voidFrame (idx : Nat) (b : Burst) (c : Nat) : Still s (s.voidFrame n idx b c) := by
  unfold State.voidFrame
  dsimp only
  have h₁ := ((Still.refl h).thenShow n idx none none []).thenEnd n c (idx + 1)
  have h₂ := Still.ite (c ≤ 2) (h₁.thenPx n (o := 0x28) (by unfold PxOffset; decide)
    (putField (((s.showFrame n idx none none []).endBurst n c (idx + 1)).rd (aPx n 0x28)) 0 1 1)) h₁
  exact ((h₂.thenSawVoid n b.mode).thenState n 4).thenSettle n

theorem Still.handOver (g : Nat) : Still s (s.handOver g) := by
  have h₁ := Still.setPg h g { s.pgs g with fmt1 := [] }
  have h₂ := h₁.trans (Still.foldl (f := fun t l => t.form g l) (fun t l ht => Still.form ht g l) (List.range 8) h₁.inv)
  unfold State.handOver
  dsimp only
  refine (h₂.thenSetPg g _).trans (Still.foldl (fun t l ht => ?_) (List.range 8) (h₂.thenSetPg g _).inv)
  have hset := Still.setLane ht (8 * g + l)
  exact (hset _).trans (Still.carry (hset _).inv g l _)

theorem Still.newEdge (g : Nat) : Still s (s.newEdge g) := by
  have h₁ := Still.handOver h g
  unfold State.newEdge
  dsimp only
  have h₂ := h₁.trans (Still.setPg h₁.inv g { (s.handOver g).pgs g with started := ((s.handOver g).pgs g).started + 1 })
  have h₃ := h₂.trans (Still.foldl (fun t m ht => Still.queueLow ht m)
    ([2 * g, 2 * g + 1].filter fun n => (s.pxs n).burst.isNone) h₂.inv)
  exact h₃.trans (Still.foldl (fun t m ht => Still.wrPx ht m (o := 0x2C) (by unfold PxOffset; decide) _)
    ([2 * g, 2 * g + 1].filter fun n => s.pxState n == 2) h₃.inv)

theorem Still.frame : Still s (s.frame n) := by
  unfold State.frame
  dsimp only
  split
  · exact .refl h
  · have h₁ : Still s (if (s.pxs n).lastEdge = (s.pgs (n / 2)).started then s.newEdge (n / 2) else s) :=
      .ite _ (Still.newEdge h (n / 2)) (.refl h)
    split
    · exact .refl h
    · have h₂ := fun k => h₁.trans (Still.setPx h₁.inv n { State.pxs _ n with lastEdge := k } id)
      split
      · exact ((h₂ _).trans (Still.algoFrame (h₂ _).inv n _ _)).thenLow n
      · exact ((h₂ _).trans (Still.vecFrame (h₂ _).inv n _ _ _ _ _)).thenLow n
      · exact ((h₂ _).trans (Still.voidFrame (h₂ _).inv n _ _ _)).thenLow n

end

end Sys2Proof.Machine
end

section

/-! The clocks of the pin groups (O44). -/

namespace Sys2Proof.Machine

/- Stops --------------------------------------------------------------------------------------------------------------------- -/

/-- A STOP as the others see it: the expander is disarmed and its queue empty (R237). -/
structure Halted (s t : State) (n : Nat) : Prop where
  still : Still s t
  queue : (t.pxs n).queue = []
  disarmed : t.isArmed n = false

theorem Halted.then {s t u : State} {n : Nat} (h₁ : Halted s t n) (h₂ : Still t u) : Halted s u n :=
  ⟨h₁.still.trans h₂, h₂.queue n h₁.queue, h₂.armed n h₁.disarmed⟩

theorem Still.thenHalted {s t u : State} {n : Nat} (h₁ : Still s t) (h₂ : Halted t u n) : Halted s u n :=
  ⟨h₁.trans h₂.still, h₂.queue, h₂.disarmed⟩

theorem State.quieted_halted {s : State} (h : s.Inv) (n : Nat) : Halted s (s.quieted n) n := by
  have hq := State.quieted_spec h n
  obtain ⟨hd, harm⟩ := Still.disarm h n
  have h₁ := Still.setQueue hd.inv n (q := []) fun _ => rfl
  have h₂ := h₁.trans (Still.fetchReset h₁.inv n)
  have h₃ := h₂.trans (Still.setPx h₂.inv n { (((s.clrB (aPx n 0) 0).setQueue n []).fetchReset n).pxs n with take := false } id)
  exact ⟨hd.trans h₃, by rw [hq.self], hq.disarmed⟩

theorem State.stopNow_halted {s : State} (h : s.Inv) (n : Nat) : Halted s (s.stopNow n) n := by
  have hq := State.quieted_halted h n
  have hinv := hq.still.inv
  refine hq.then ?_
  unfold State.stopNow
  dsimp only
  have hidle := fun mask => (Still.setPxState hinv n 0).trans (Still.sawActive (Still.setPxState hinv n 0).inv mask 10 fun _ => true)
  split
  · exact (hidle _).trans (Still.mapHolds (hidle _).inv _)
  · exact (hidle _).trans (Still.mapHolds (hidle _).inv _)
  · split
    · exact .refl hinv
    · next b _ =>
      split
      · exact .refl hinv
      · have h₁ := ((Still.refl hinv).thenEnd n 7 (((s.quieted n).pgs (n / 2)).started + 1)).thenSawVoid n b.mode
        exact h₁.trans (Still.linkVoids h₁.inv n)
  · exact .ite _ (Still.setPxState hinv n 0) (Still.setPxState hinv n 3)
  · exact .refl hinv

theorem State.pxStop_halted {s : State} (h : s.Inv) (n : Nat) : Halted s (s.pxStop n) n := by
  have h₁ : Still s (if (s.pxs n).lastEdge = (s.pgs (n / 2)).started then s else s.frame n) := .ite _ (.refl h) (Still.frame h n)
  exact h₁.thenHalted (State.stopNow_halted h₁.inv n)

/-- A loss of lock (R263). -/
structure Unlocked (s t : State) (g : Nat) : Prop where
  inv : t.Inv
  mem : t.mem = s.mem
  locked : t.pgLocked g = false
  others : ∀ k < 8, k ≠ g → t.pgLocked k = s.pgLocked k
  lost : t.bit (aSyn 0x110) 3 = true
  queues : (t.pxs (2 * g)).queue = [] ∧ (t.pxs (2 * g + 1)).queue = []
  disarmed : t.isArmed (2 * g) = false ∧ t.isArmed (2 * g + 1) = false

theorem State.unlock_spec {s : State} (h : s.Inv) {g : Nat} (hg : g < 8) : Unlocked s (s.unlock g) g := by
  have h₁ := State.pxStop_halted h (2 * g)
  have h₂ := State.pxStop_halted h₁.still.inv (2 * g + 1)
  have hboth := h₁.then h₂.still
  obtain ⟨u, hu⟩ : ∃ u, u = (s.pxStop (2 * g)).pxStop (2 * g + 1) := ⟨_, rfl⟩
  rw [← hu] at h₂ hboth
  have hinv := h₂.still.inv
  have hc := hinv.wr (aSyn (0x18 + 0x10 * g)) (putField (u.rd (aSyn (0x18 + 0x10 * g))) 0 1 0)
  have hun : s.unlock g = (u.clrB (aSyn (0x18 + 0x10 * g)) 0).setB (aSyn 0x110) 3 := by
    rw [hu]
    rfl
  have hpx : ∀ n, ((u.clrB (aSyn (0x18 + 0x10 * g)) 0).setB (aSyn 0x110) 3).pxs n = u.pxs n := fun _ => rfl
  have harm : ∀ n, ((u.clrB (aSyn (0x18 + 0x10 * g)) 0).setB (aSyn 0x110) 3).isArmed n = u.isArmed n := fun n =>
    State.bit_of_rd ((State.rd_wr_ne (by unfold aPx aSyn; omega)).trans (State.rd_wr_ne (by unfold aPx aSyn; omega))) 0
  rw [hun]
  refine ⟨hc.setB _ _, hboth.still.mem, ?_, fun k hk8 hk => ?_, State.bit_setB_self hc.regs _ (by decide),
    ⟨(congrArg PxSt.queue (hpx _)).trans hboth.queue, (congrArg PxSt.queue (hpx _)).trans h₂.queue⟩,
    ⟨(harm _).trans hboth.disarmed, (harm _).trans h₂.disarmed⟩⟩
  · rw [State.pgLocked, State.setB, State.wf, State.bit_wr_ne _ _ (by unfold aSyn; omega)]
    exact State.bit_clrB_self hinv.regs _ (by decide)
  · rw [State.pgLocked, State.setB, State.wf, State.bit_wr_ne _ _ (by unfold aSyn; omega), State.clrB, State.wf,
      State.bit_wr_ne _ _ (by unfold aSyn; omega)]
    exact State.bit_of_rd (hboth.still.sync _ (by unfold aSyn; omega) (by unfold aSyn; omega)) 0

/-- The loss of lock of every group of a list (R263). -/
theorem State.foldl_unlock {s : State} (h : s.Inv) {l : List Nat} (hl : ∀ g ∈ l, g < 8) :
    let t := l.foldl State.unlock s
    t.Inv ∧ t.mem = s.mem ∧ ∀ k < 8, k ∈ l ∨ s.pgLocked k = false → t.pgLocked k = false := by
  induction l generalizing s with
  | nil => exact ⟨h, rfl, fun k _ hk => hk.resolve_left List.not_mem_nil⟩
  | cons g l ih =>
    have hg := State.unlock_spec h (hl g List.mem_cons_self)
    obtain ⟨hinv, hmem, hlocked⟩ := ih hg.inv fun k hk => hl k (List.mem_cons_of_mem _ hk)
    refine ⟨hinv, hmem.trans hg.mem, fun k hk8 hk => hlocked k hk8 ?_⟩
    by_cases hkg : k = g
    · exact .inr (hkg ▸ hg.locked)
    · refine hk.imp (fun hm => (List.mem_cons.mp hm).resolve_left hkg) fun hf => ?_
      rw [hg.others k hk8 hkg, hf]

/-- Registers of sync stay through a loss of lock, but for LOCKED and the sticky bit (R263). -/
theorem State.foldl_unlock_rd {s : State} (h : s.Inv) (l : List Nat) :
    (l.foldl State.unlock s).rd (aSyn 4) = s.rd (aSyn 4) := by
  induction l generalizing s with
  | nil => rfl
  | cons g l ih =>
    have h₁ := (State.pxStop_halted h (2 * g)).still
    have h₂ := h₁.trans (State.pxStop_halted h₁.inv (2 * g + 1)).still
    have hun : (s.unlock g).Inv := (State.unlock_keeps (.refl s) g).inv h
    refine (ih hun).trans ?_
    refine (State.rd_wr_ne (by unfold aSyn; omega)).trans ((State.rd_wr_ne (by unfold aSyn; omega)).trans ?_)
    exact h₂.sync _ (by unfold aSyn; omega) (by unfold aSyn; omega)

/- The frame clock ----------------------------------------------------------------------------------------------------------------- -/

/-- Pin groups and the registers of sync and clocks are the same. -/
structure Clocked (s t : State) : Prop where
  inv : t.Inv
  pg : t.pg = s.pg
  mem : t.mem = s.mem
  syncq : t.syncq = s.syncq
  sync : ∀ a, 0xB0000 ≤ a → a < 0xC0000 → t.rd a = s.rd a

theorem Clocked.refl {s : State} (h : s.Inv) : Clocked s s := ⟨h, rfl, rfl, rfl, fun _ _ _ => rfl⟩

theorem Clocked.trans {s t u : State} (h₁ : Clocked s t) (h₂ : Clocked t u) : Clocked s u :=
  ⟨h₂.inv, h₂.pg.trans h₁.pg, h₂.mem.trans h₁.mem, h₂.syncq.trans h₁.syncq, fun a hl hu => (h₂.sync a hl hu).trans (h₁.sync a hl hu)⟩

theorem Clocked.of_same {s t : State} (ht : t.Inv) (hpg : t.pg = s.pg) (hmem : t.mem = s.mem) (hsyncq : t.syncq = s.syncq)
    (hregs : t.regs = s.regs) : Clocked s t :=
  ⟨ht, hpg, hmem, hsyncq, fun a _ _ => State.rd_congr hregs a⟩

theorem Clocked.foldl {α : Type} {f : State → α → State} (hf : ∀ (s : State) (x : α), s.Inv → Clocked s (f s x)) (l : List α)
    {s : State} (h : s.Inv) : Clocked s (l.foldl f s) := by
  induction l generalizing s with
  | nil => exact .refl h
  | cons x l ih => exact (hf s x h).trans (ih (hf s x h).inv)

section
variable {s : State} (h : s.Inv)
include h

theorem Clocked.setPx (n : Nat) (v : PxSt) : Clocked s (s.setPx n v) := .of_same (h.setPx n v) rfl rfl rfl rfl

theorem Clocked.wrPx (n o : Nat) (v : W32) : Clocked s (s.wr (aPx n o) v) :=
  ⟨h.wr _ v, rfl, rfl, rfl, fun a _ _ => State.rd_wr_ne (by unfold aPx; omega)⟩

theorem Clocked.clearWaits : Clocked s s.clearWaits :=
  .of_same ((State.clearWaits_keeps (.refl s)).inv h) (by rw [s.clearWaits_frame.1]) (by rw [s.clearWaits_frame.1])
    (by rw [s.clearWaits_frame.1]) (by rw [s.clearWaits_frame.1])

theorem Clocked.setQueue (n : Nat) (q : List W128) : Clocked s (s.setQueue n q) :=
  (Clocked.setPx h n _).trans (Clocked.clearWaits (h.setPx n _))

theorem Clocked.settleDiscard (n : Nat) : Clocked s (s.settleDiscard n) := by
  have hrest : ∀ {t : State}, t.Inv → Clocked t (t.pxRest n) := fun {t} ht => by
    obtain ⟨v, hv | hv⟩ := t.pxRest_eq n
    · rw [hv]
      exact Clocked.wrPx ht n 4 _
    · rw [hv]
      exact (Clocked.wrPx ht n 0x2C 0).trans (Clocked.wrPx (ht.wr _ _) n 4 _)
  unfold State.settleDiscard
  dsimp only
  have hq := Clocked.setQueue h n ((s.pxs n).queue.dropWhile fun e => entType e != 1)
  split
  · split
    · exact hq.trans (hrest hq.inv)
    · exact hq
  · exact .refl h

theorem Clocked.joinQueue (n : Nat) (e : W128) : Clocked s (s.joinQueue n e) := by
  unfold State.joinQueue
  dsimp only
  split
  · have hq := Clocked.setQueue h n (((s.pxs n).queue ++ [e]).dropWhile fun e => entType e != 1)
    exact hq.trans (Clocked.settleDiscard hq.inv n)
  · exact Clocked.setPx h n _

theorem Clocked.fetchPush (n k : Nat) : Clocked s (s.fetchPush n k) := by
  unfold State.fetchPush
  dsimp only
  split
  · exact Clocked.wrPx h n 0x28 _
  · exact Clocked.wrPx h n 0x1C _

theorem Clocked.arrive (n : Nat) : Clocked s (s.arrive n) := by
  unfold State.arrive
  dsimp only
  split
  · exact .refl h
  · next e rest _ =>
    have h₁ := Clocked.setPx h n { s.pxs n with cross := rest }
    split
    · exact .refl h
    · split
      · have h₂ := h₁.trans (Clocked.fetchPush h₁.inv n (fld e 0 20))
        exact h₂.trans (Clocked.clearWaits h₂.inv)
      · split
        · exact .refl h
        · exact h₁.trans (Clocked.joinQueue h₁.inv n e)

theorem Clocked.fetchReturn (n : Nat) : Clocked s (s.fetchReturn n) := by
  unfold State.fetchReturn
  split
  · exact .refl h
  · dsimp only
    have h₁ : Clocked s (s.dropXfer (.fetch n)) := .of_same (h.dropXfer _) rfl rfl rfl rfl
    split
    · split
      · have h₂ := h₁.trans (Clocked.setPx h₁.inv n { (s.dropXfer (.fetch n)).pxs n with fetchErr := true })
        exact h₂.trans (Clocked.wrPx h₂.inv n 0x28 _)
      · have h₂ := fun v => h₁.trans (Clocked.wrPx h₁.inv n 0x20 v)
        exact (h₂ _).trans (Clocked.joinQueue (h₂ _).inv n _)
    · exact .refl h

theorem Clocked.letIn (n : Nat) : Clocked s (s.letIn n) := by
  have h₁ := Clocked.setPx h n { s.pxs n with here := 0 }
  have h₂ := h₁.trans (Clocked.foldl (fun t _ ht => Clocked.arrive ht n) (List.range (s.pxs n).here) h₁.inv)
  exact h₂.trans (Clocked.fetchReturn h₂.inv n)

end

/-- What a clock that starts does to lanes, expanders and holds (R231, R262). -/
def State.clockRest (s : State) (g : Nat) : State :=
  let s2 := (List.range 8).foldl (fun t l => t.setLane (8 * g + l) { t.lane (8 * g + l) with trims := [], acts := [] }) s
  let s3 := [2 * g, 2 * g + 1].foldl (fun t n => t.setPx n { t.pxs n with lastEdge := 0 }) s2
  ((s3.mapHolds fun h => if h.px / 2 = g then { h with due := 0 } else h).letIn (2 * g)).letIn (2 * g + 1)

/-- The group whose clock starts: frame 0, with its first edge (R262). -/
def PgSt.begun (p : PgSt) : PgSt := { p with run := true, started := 1, line := p.line.map fun e => { e with due := 0 } }

theorem State.clockStart_eq (s : State) (g : Nat) :
    s.clockStart g = ((s.handOver g).setPg g ((s.handOver g).pgs g).begun).clockRest g := rfl

theorem Clocked.clockRest {s : State} (h : s.Inv) (g : Nat) : Clocked s (s.clockRest g) := by
  have h₂ := Clocked.foldl (f := fun t l => t.setLane (8 * g + l) { t.lane (8 * g + l) with trims := [], acts := [] })
    (fun t l ht => .of_same ((State.setLane_keeps (.refl t) _ _).inv ht) rfl rfl rfl rfl) (List.range 8) h
  have h₃ := h₂.trans (Clocked.foldl (f := fun t n => t.setPx n { t.pxs n with lastEdge := 0 })
    (fun t n ht => Clocked.setPx ht n _) [2 * g, 2 * g + 1] h₂.inv)
  unfold State.clockRest
  dsimp only
  generalize List.foldl (fun t n => State.setPx t n _) _ _ = z at h₃ ⊢
  have h₄ := h₃.trans (.of_same ((State.mapHolds_keeps (.refl z) fun h => if h.px / 2 = g then { h with due := 0 } else h).inv h₃.inv)
    rfl rfl rfl rfl)
  have h₅ := h₄.trans (Clocked.letIn h₄.inv (2 * g))
  exact h₅.trans (Clocked.letIn h₅.inv (2 * g + 1))

/-- The frame clock of a group starts at frame 0 (R262). -/
theorem State.clockStart_spec {s : State} (h : s.Inv) (g : Nat) :
    ((s.clockStart g).pgs g).run = true ∧ ((s.clockStart g).pgs g).started = 1 ∧
    ∀ a, 0xB0000 ≤ a → a < 0xC0000 → (s.clockStart g).rd a = s.rd a := by
  have h₀ := State.handOver_spec h g
  rw [State.clockStart_eq]
  generalize s.handOver g = x at h₀ ⊢
  have hself := State.pgs_setPg_self h₀.inv g (x.pgs g).begun
  have hregs := State.setPg_regs x g (x.pgs g).begun
  have hrest := Clocked.clockRest (h₀.inv.setPg g (x.pgs g).begun) g
  generalize x.setPg g (x.pgs g).begun = y at hself hregs hrest ⊢
  rw [State.pgs_congr hrest.pg, hself]
  exact ⟨rfl, rfl, fun a hl hu => (hrest.sync a hl hu).trans ((State.rd_congr hregs a).trans (h₀.rd a (by omega)))⟩

/- Relocks --------------------------------------------------------------------------------------------------------------------------- -/

/-- Only lanes and their registers differ. -/
structure LaneOnly (s t : State) : Prop where
  inv : t.Inv
  frame : t = { s with regs := t.regs, lanes := t.lanes }
  rd : ∀ a, a < 0x400000 → t.rd a = s.rd a

theorem LaneOnly.refl {s : State} (h : s.Inv) : LaneOnly s s := ⟨h, rfl, fun _ _ => rfl⟩

theorem LaneOnly.trans {s t u : State} (h₁ : LaneOnly s t) (h₂ : LaneOnly t u) : LaneOnly s u :=
  ⟨h₂.inv, by rw [h₂.frame, h₁.frame], fun a ha => (h₂.rd a ha).trans (h₁.rd a ha)⟩

theorem LaneOnly.foldl {α : Type} {f : State → α → State} (hf : ∀ (s : State) (x : α), s.Inv → LaneOnly s (f s x)) (l : List α)
    {s : State} (h : s.Inv) : LaneOnly s (l.foldl f s) := by
  induction l generalizing s with
  | nil => exact .refl h
  | cons x l ih => exact (hf s x h).trans (ih (hf s x h).inv)

theorem LaneOnly.wr {s : State} (h : s.Inv) (n o : Nat) (v : W32) : LaneOnly s (s.wr (aLn n o) v) :=
  ⟨h.wr _ v, rfl, fun a _ => State.rd_wr_ne (by unfold aLn; omega)⟩

theorem LaneOnly.thenWr {s t : State} (h : LaneOnly s t) (n o : Nat) (v : W32) : LaneOnly s (t.wr (aLn n o) v) :=
  h.trans (LaneOnly.wr h.inv n o v)

theorem LaneOnly.freePartner {s : State} (h : s.Inv) (n : Nat) : LaneOnly s (s.freePartner n) :=
  ⟨(State.freePartner_keeps (.refl s) n).inv h, rfl, fun _ _ => rfl⟩

/-- A lane becomes untrained (R261). -/
theorem LaneOnly.untrain {s : State} (h : s.Inv) (n : Nat) : LaneOnly s (s.untrain n) := by
  have h₄ := fun v => (((LaneOnly.wr h n 0x30 0).thenWr n 0x34 0).thenWr n 0x38 0).thenWr n 0x14 v
  exact (h₄ _).trans (LaneOnly.freePartner (h₄ _).inv n)

end Sys2Proof.Machine
end

section

/-! The statement on the clocks of the pin groups (O44). -/

namespace Sys2Proof.Machine

theorem State.Inv.wf {s : State} (h : s.Inv) (a lo w x : Nat) : (s.wf a lo w x).Inv := h.wr a _

theorem State.Inv.clrB {s : State} (h : s.Inv) (a i : Nat) : (s.clrB a i).Inv := h.wf a i 1 0

theorem State.bit_clrB_ne {s : State} (h : s.Inv) (a : Nat) {i j : Nat} (hij : j ≠ i) : (s.clrB a i).bit a j = s.bit a j := by
  rw [State.bit, State.clrB, State.rf_wf_disjoint h.regs a 0 (by omega)]
  rfl

/-- The bits of a group's STATUS when its PLL locks (R262). -/
theorem State.lockBits {s : State} (h : s.Inv) (a : Nat) :
    (((s.setB a 0).clrB a 1).clrB a 2).Inv ∧ (((s.setB a 0).clrB a 1).clrB a 2).bit a 0 = true ∧
    (((s.setB a 0).clrB a 1).clrB a 2).bit a 1 = false := by
  have h₁ := h.setB a 0
  have h₂ := h₁.clrB a 1
  refine ⟨h₂.clrB a 2, ?_, ?_⟩
  · rw [State.bit_clrB_ne h₂ a (by decide), State.bit_clrB_ne h₁ a (by decide), State.bit_setB_self h.regs a (by decide)]
  · rw [State.bit_clrB_ne h₂ a (by decide), State.bit_clrB_self h₁.regs a (by decide)]

/-- The code of a relock depends on the registers alone (R261). -/
theorem State.relockCode_congr {s u : State} (h : u.regs = s.regs) (g : Nat) : u.relockCode g = s.relockCode g := by
  unfold State.relockCode State.rateRegs State.pxState State.pam4 State.bit State.rf State.rd
  rw [h]

/-- Lanes that stand in electrical idle: the group runs at the same rate as before (R268). -/
theorem State.idleLanes_spec {s : State} (h : s.Inv) (g : Nat) :
    let t := s.idleLanes g
    t.Inv ∧ t = { s with pg := t.pg, regs := t.regs, lanes := t.lanes } ∧ (∀ a < 0x400000, t.rd a = s.rd a) ∧
    (t.pgs g).run = (s.pgs g).run ∧ (t.pgs g).rate = (s.pgs g).rate := by
  intro t
  obtain ⟨p, hp⟩ : ∃ p : PgSt, p = { s.pgs g with
    den := Vector.replicate 8 true, ei := Vector.replicate 8 true, fmt := [], fmt1 := [], out := [] } := ⟨_, rfl⟩
  have hset := h.setPg g p
  have hself := State.pgs_setPg_self h g p
  have hregs := State.setPg_regs s g p
  have ht : t = (List.range 8).foldl (fun t l => t.setDriver g l true) (s.setPg g p) := by
    rw [hp]
    rfl
  have hlane := LaneOnly.foldl (f := fun t l => t.setDriver g l true) (fun t l hi => LaneOnly.wr hi (8 * g + l) 0x14 _) (List.range 8) hset
  rw [← ht] at hlane
  have hpgs : t.pgs g = p := by rw [State.pgs_congr (s := s.setPg g p) (by rw [hlane.frame]), hself]
  refine ⟨hlane.inv, ?_, fun a ha => (hlane.rd a ha).trans (State.rd_congr hregs a), by rw [hpgs, hp], by rw [hpgs, hp]⟩
  rw [hlane.frame]
  rfl

/-- A relock that is accepted (R261). -/
theorem State.relock_accepted {s : State} (h : s.Inv) {g : Nat} (hg : g < 8) (hcode : s.relockCode g = 0) :
    let st := aSyn (0x18 + 0x10 * g)
    let t := s.relock g
    t.bit st 0 = false ∧ t.bit st 1 = true ∧ (t.pgs g).run = false ∧ (t.pgs g).rate = some (s.rateRegs g) ∧
    t.mem = s.mem ∧ t.px = s.px ∧ t.ths = s.ths := by
  intro st t
  obtain ⟨p, hp⟩ : ∃ p : PgSt, p = { s.pgs g with run := false, rate := some (s.rateRegs g) } := ⟨_, rfl⟩
  obtain ⟨s1, hs1⟩ : ∃ s1, s1 = (s.setPg g p).idleLanes g := ⟨_, rfl⟩
  obtain ⟨hinv1, hframe1, -, hrun, hrate⟩ := State.idleLanes_spec (h.setPg g p) g
  rw [← hs1] at hinv1 hframe1 hrun hrate
  rw [State.pgs_setPg_self h] at hrun hrate
  obtain ⟨s2, hs2⟩ : ∃ s2, s2 = (s1.clrB st 0).setB st 1 := ⟨_, rfl⟩
  have hclr := hinv1.clrB st 0
  have hinv2 : s2.Inv := hs2 ▸ hclr.setB st 1
  have hlane : LaneOnly s2 t := by
    have ht : t = if (s.pgs g).rate.any (fun q => q.1 != (s.rateRegs g).1 || q.2.1 != (s.rateRegs g).2.1) then
        (List.range 8).foldl (fun t l => t.untrain (8 * g + l)) s2 else s2 := by
      unfold t State.relock
      dsimp only
      rw [hcode, hs2, hs1, hp]
      rfl
    rw [ht]
    split
    · exact LaneOnly.foldl (fun t l hi => LaneOnly.untrain hi _) (List.range 8) hinv2
    · exact .refl hinv2
  have hst : st < 0x400000 := by unfold st aSyn; omega
  have hpgs : t.pgs g = s1.pgs g := State.pgs_congr (by rw [hlane.frame, hs2]; rfl) g
  have hs2frame : s2 = { s1 with regs := s2.regs } := by rw [hs2]; rfl
  refine ⟨(State.bit_of_rd (hlane.rd st hst) 0).trans ?_, (State.bit_of_rd (hlane.rd st hst) 1).trans ?_, ?_, ?_, ?_, ?_, ?_⟩
  · rw [hs2, State.bit_setB_ne hclr.regs _ (by decide)]
    exact State.bit_clrB_self hinv1.regs _ (by decide)
  · rw [hs2]
    exact State.bit_setB_self hclr.regs _ (by decide)
  · rw [hpgs, hrun, hp]
  · rw [hpgs, hrate, hp]
  · rw [hlane.frame, hs2frame, hframe1]
    rfl
  · rw [hlane.frame, hs2frame, hframe1]
    rfl
  · rw [hlane.frame, hs2frame, hframe1]
    rfl

theorem State.relock_refused {s : State} {g k : Nat} (hk : s.relockCode g = k) (h0 : k ≠ 0) :
    s.relock g = (s.wf (aSyn (0x18 + 0x10 * g)) 4 4 k).flag (aSyn 0x110) 5 := by
  obtain ⟨j, rfl⟩ := Nat.exists_eq_succ_of_ne_zero h0
  unfold State.relock
  dsimp only
  rw [hk]
  rfl

/-- A frame edge of a group without a burst (R259). -/
theorem State.newEdge_idle {s : State} (h : s.Inv) (g : Nat) :
    let t := s.newEdge g
    (t.pgs g).started = (s.pgs g).started + 1 ∧ t.mem = s.mem ∧ t.ths = s.ths ∧ ∀ k, k ≠ g → t.pgs k = s.pgs k := by
  intro t
  have h₀ := State.handOver_spec h g
  have hlow : ∀ (l : List Nat) (u : State), (l.foldl State.queueLow u).pg = u.pg ∧ (l.foldl State.queueLow u).mem = u.mem ∧
      (l.foldl State.queueLow u).ths = u.ths := by
    intro l
    induction l with
    | nil => exact fun u => ⟨rfl, rfl, rfl⟩
    | cons n l ih =>
      intro u
      obtain ⟨hpg, hmem, hths⟩ := ih (u.queueLow n)
      have hone : (u.queueLow n).pg = u.pg ∧ (u.queueLow n).mem = u.mem ∧ (u.queueLow n).ths = u.ths := by
        unfold State.queueLow
        dsimp only
        split <;> exact ⟨rfl, rfl, rfl⟩
      exact ⟨hpg.trans hone.1, hmem.trans hone.2.1, hths.trans hone.2.2⟩
  have hbump : ∀ (l : List Nat) (u : State), l.foldl (fun t n => t.bump (aPx n 0x2C) 1) u =
      { u with regs := (l.foldl (fun t n => t.bump (aPx n 0x2C) 1) u).regs } := by
    intro l
    induction l with
    | nil => exact fun u => rfl
    | cons n l ih => exact fun u => (ih (u.bump (aPx n 0x2C) 1)).trans rfl
  have ht : t = ([2 * g, 2 * g + 1].filter fun n => s.pxState n == 2).foldl (fun t n => t.bump (aPx n 0x2C) 1)
      (([2 * g, 2 * g + 1].filter fun n => (s.pxs n).burst.isNone).foldl State.queueLow
        ((s.handOver g).setPg g { (s.handOver g).pgs g with started := ((s.handOver g).pgs g).started + 1 })) := rfl
  rw [ht]
  clear ht
  have hmem : (s.handOver g).mem = s.mem := by rw [h₀.frame]
  have hths : (s.handOver g).ths = s.ths := by rw [h₀.frame]
  generalize s.handOver g = x at h₀ hmem hths ⊢
  have hstarted := State.started_setPg h₀.inv g ((x.pgs g).started + 1)
  have hothers : ∀ k, k ≠ g → (x.setPg g { x.pgs g with started := (x.pgs g).started + 1 }).pgs k = x.pgs k := fun k hk =>
    spGet_spSet_ne _ _ hk
  have hymem := State.setPg_mem x g { x.pgs g with started := (x.pgs g).started + 1 }
  have hyths := State.setPg_ths x g { x.pgs g with started := (x.pgs g).started + 1 }
  generalize x.setPg g { x.pgs g with started := (x.pgs g).started + 1 } = y at hstarted hothers hymem hyths ⊢
  obtain ⟨hpgl, hmeml, hthsl⟩ := hlow ([2 * g, 2 * g + 1].filter fun n => (s.pxs n).burst.isNone) y
  generalize List.foldl State.queueLow y _ = z at hpgl hmeml hthsl ⊢
  have hframe := hbump ([2 * g, 2 * g + 1].filter fun n => s.pxState n == 2) z
  generalize List.foldl _ z _ = w at hframe ⊢
  have hpg : w.pg = y.pg := by rw [hframe]; exact hpgl
  refine ⟨?_, ?_, ?_, fun k hk => ?_⟩
  · rw [State.pgs_congr hpg, hstarted, h₀.started]
  · rw [hframe]
    exact hmeml.trans (hymem.trans hmem)
  · rw [hframe]
    exact hthsl.trans (hyths.trans hths)
  · rw [State.pgs_congr hpg, hothers k hk, h₀.others k hk]

/-- The loss of TREF (R263). -/
theorem State.trefLost {s : State} (h : s.Inv) :
    let t := ((List.range 8).foldl State.unlock (s.clrB (aSyn 4) 31)).setB (aSyn 0x110) 4
    t.bit (aSyn 4) 31 = false ∧ t.bit (aSyn 0x110) 4 = true ∧ (∀ g < 8, t.pgLocked g = false) ∧ t.mem = s.mem := by
  have hclr := h.clrB (aSyn 4) 31
  have hbit : (s.clrB (aSyn 4) 31).bit (aSyn 4) 31 = false := State.bit_clrB_self h.regs _ (by decide)
  have hclrmem : (s.clrB (aSyn 4) 31).mem = s.mem := State.wr_mem _ _ _
  generalize s.clrB (aSyn 4) 31 = u at hclr hbit hclrmem ⊢
  obtain ⟨hinv, hmem, hlocked⟩ := State.foldl_unlock hclr (l := List.range 8) fun g hg => List.mem_range.mp hg
  have hrd := State.foldl_unlock_rd hclr (List.range 8)
  generalize List.foldl State.unlock u _ = v at hinv hmem hlocked hrd ⊢
  refine ⟨?_, State.bit_setB_self hinv.regs _ (by decide), fun g hg => ?_, ?_⟩
  · exact (State.bit_of_rd ((State.rd_wf_ne (by unfold aSyn; omega)).trans hrd) 31).trans hbit
  · rw [State.pgLocked, State.setB, State.wf, State.bit_wr_ne _ _ (by unfold aSyn; omega)]
    exact hlocked g hg (.inl (List.mem_range.mpr hg))
  · exact hmem.trans hclrmem

/-- Settles O44: a relock that is refused shows its code, an accepted one stops the clock until the PLL locks; a loss of lock stops the expanders. -/
theorem pinGroupClocks : Obligations.PinGroupClocks := by
  unfold Obligations.PinGroupClocks
  refine ⟨?_, ?_, ?_, ?_⟩
  · intro s g st hs
    have hregs := State.mgmtIn_regs s (aSyn (0x14 + 0x10 * g.val)) true
    have hcode := State.relockCode_congr hregs g.val
    refine ⟨fun hne => ?_, fun hor => ?_, fun h0 h1 hrate => ?_, fun h0 h => ?_⟩
    · exact congrArg Host.Outcome.next ((State.mgmtDo_awake hs _ _ _).trans (State.relock_refused hcode hne))
    · unfold State.relockCode
      refine if_pos ?_
      rw [Bool.or_eq_true, bne_iff_ne, bne_iff_ne]
      exact hor
    · unfold State.relockCode
      refine (if_neg ?_).trans (if_pos ?_)
      · rw [h0, h1]
        decide
      · rw [hrate]
        rfl
    · obtain ⟨hl, hr, hrun, hrt, hmem, hpx, hths⟩ := State.relock_accepted (h.mgmtIn (aSyn (0x14 + 0x10 * g.val)) true) g.isLt (hcode.trans h0)
      have hrates : (s.mgmtIn (aSyn (0x14 + 0x10 * g.val)) true).rateRegs g.val = s.rateRegs g.val := by
        unfold State.rateRegs
        rw [State.rf_congr hregs, State.rf_congr hregs, State.rf_congr hregs]
      exact ⟨_, congrArg Host.Outcome.next (State.mgmtDo_awake hs _ _ _), hl, hr, hrun, hrt.trans (congrArg some hrates),
        hmem.trans (State.mgmtIn_mem _ _ _), hpx.trans (State.mgmtIn_px _ _ _), hths.trans (State.mgmtIn_ths _ _ _)⟩
  · intro s g st
    refine ⟨rfl, fun hb => if_neg (by rw [hb]; exact Bool.false_ne_true), fun hb h => ?_⟩
    obtain ⟨hinv, h0, h1⟩ := State.lockBits h st
    have hlock : s.pllLock g.val = (((s.setB st 0).clrB st 1).clrB st 2).clockStart g.val := if_pos hb
    obtain ⟨hrun, hstarted, hsync⟩ := State.clockStart_spec hinv g.val
    have hrd := hsync st (by unfold st aSyn; omega) (by unfold st aSyn; omega)
    rw [hlock]
    exact ⟨(State.bit_of_rd hrd 0).trans h0, (State.bit_of_rd hrd 1).trans h1, hrun, hstarted⟩
  · intro s g h
    have hun := State.unlock_spec h g.isLt
    refine ⟨fun hl => ⟨_, congrArg Host.Outcome.next (if_pos hl), hun.locked, hun.lost, hun.queues.1, hun.queues.2, hun.disarmed.1,
      hun.disarmed.2, hun.mem⟩, fun hl => congrArg Host.Outcome.next (if_neg (by rw [hl]; exact Bool.false_ne_true)), fun hrun h0 h1 => ?_,
      fun hrun => congrArg Host.Outcome.next (if_neg ?_)⟩
    · obtain ⟨hstarted, hmem, hths, hothers⟩ := State.newEdge_idle h g.val
      refine ⟨_, congrArg Host.Outcome.next (if_pos ?_), hstarted, hmem, hths, fun k hk => hothers _ fun hc => hk (Fin.ext hc)⟩
      rw [hrun, h0, h1]
      rfl
    · rw [hrun, Bool.false_and, Bool.false_and]
      exact Bool.false_ne_true
  · intro s
    refine ⟨fun hb h => ?_, fun hb => congrArg Host.Outcome.next (if_neg (by rw [hb]; exact Bool.false_ne_true)), rfl,
      fun e hb => congrArg Host.Outcome.next (if_pos hb), fun e hb => congrArg Host.Outcome.next (if_neg (by rw [hb]; exact Bool.false_ne_true))⟩
    obtain ⟨hpresent, hlost, hlocked, hmem⟩ := State.trefLost h
    exact ⟨_, congrArg Host.Outcome.next (if_pos hb), hpresent, hlost, fun g => hlocked g.val g.isLt, hmem⟩

end Sys2Proof.Machine
end

section

/-! SUPPORT. The steps of a lane's training (O45). -/

namespace Sys2Proof.Machine

/-- What a table reads after a change of every entry. -/
theorem spGet_filterMap {α : Type} [DecidableEq α] {e : α} {m : List (Nat × α)} {n : Nat} (h : spOkFrom (fun _ => e) n m = true)
    {f : α → α} (hf : f e = e) (k : Nat) :
    spGet (fun _ => e) (m.filterMap fun p => if f p.2 = e then none else some (p.1, f p.2)) k = f (spGet (fun _ => e) m k) := by
  induction m generalizing n with
  | nil => exact hf.symm
  | cons p m ih =>
    obtain ⟨i, v⟩ := p
    obtain ⟨-, -, hm⟩ := spOkFrom_cons h
    have hrest := ih hm
    rw [List.filterMap_cons]
    by_cases hv : f v = e
    · rw [if_pos hv]
      dsimp only
      rw [hrest]
      by_cases hk : i = k
      · rw [← hk, spGet_of_lt hm (Nat.lt_succ_self i), spGet, if_pos rfl, hf, hv]
      · rw [spGet, if_neg hk]
    · rw [if_neg hv]
      dsimp only
      by_cases hk : i = k
      · rw [spGet, if_pos hk, spGet, if_pos hk]
      · rw [spGet, if_neg hk, spGet, if_neg hk, hrest]

section
variable {s : State} (h : s.Inv)
include h

theorem State.lane_setLane_self (n : Nat) (v : LnSt) : (s.setLane n v).lane n = v := spGet_spSet_self h.lanes _ _

theorem State.Inv.setLane (n : Nat) (v : LnSt) : (s.setLane n v).Inv := (State.setLane_keeps (.refl s) n v).inv h

theorem State.Inv.freePartner (n : Nat) : (s.freePartner n).Inv := (State.freePartner_keeps (.refl s) n).inv h

theorem State.Inv.used : s.used.Inv := (State.used_keeps (.refl s)).inv h

/-- A lane that served the training serves none; the others stay. -/
theorem State.lane_freePartner (n k : Nat) : (s.freePartner n).lane k =
    if (s.lane k).serves = some n then { s.lane k with serves := none } else s.lane k :=
  spGet_filterMap h.lanes (f := fun v => if v.serves = some n then { v with serves := none } else v) rfl k

end

theorem State.lane_setLane_ne {s : State} {n k : Nat} (hk : k ≠ n) (v : LnSt) : (s.setLane n v).lane k = s.lane k :=
  spGet_spSet_ne _ _ hk

/-- The registers that steps of a training write (R275). -/
def trainRegs : List Nat := [0x14, 0x30, 0x34, 0x38, 8, 0xC]

/-- Steps `k` to `j - 1` of lane `n`'s training are over (R275). -/
structure Passed (s t : State) (n k j : Nat) : Prop where
  inv : t.Inv
  mem : t.mem = s.mem
  rd : ∀ a, a ∉ trainRegs.map (aLn n) → t.rd a = s.rd a
  tstate : t.tstate n = s.tstate n
  tx : (t.lane n).tx = (s.lane n).tx
  rx : (t.lane n).rx = (s.lane n).rx
  others : ∀ m, m ≠ n → t.lane m = s.lane m
  txTrim : k ≤ 2 → 2 < j → t.rd (aLn n 0x30) = 0
  rxKept : j ≤ 4 → t.rd (aLn n 8) = s.rd (aLn n 8)
  ctle : k ≤ 4 → 4 < j → t.rf (aLn n 8) 0 5 < 19
  taps : j ≤ 5 → t.rd (aLn n 0xC) = s.rd (aLn n 0xC)
  trims : k ≤ 6 → 6 < j → t.rd (aLn n 0x34) = 0 ∧ t.rd (aLn n 0x38) = 0

theorem aLn_inj {n o o' : Nat} (h : o ≠ o') : aLn n o ≠ aLn n o' := by unfold aLn; omega

theorem aLn_not_mem {n a : Nat} (h : a ∉ trainRegs.map (aLn n)) {o : Nat} (ho : o ∈ trainRegs) : a ≠ aLn n o := fun hc =>
  h (List.mem_map.mpr ⟨o, ho, hc.symm⟩)

theorem Passed.refl {s : State} (h : s.Inv) (n : Nat) {k j : Nat} (hj : j ≤ k) : Passed s s n k j where
  inv := h
  mem := rfl
  rd _ _ := rfl
  tstate := rfl
  tx := rfl
  rx := rfl
  others _ _ := rfl
  txTrim hk h2 := absurd hk (by omega)
  rxKept _ := rfl
  ctle hk h4 := absurd hk (by omega)
  taps _ := rfl
  trims hk h6 := absurd hk (by omega)

/-- A write of STATUS other than TSTATE. -/
theorem Passed.status {s t : State} {n k j : Nat} (h : Passed s t n k j) {lo : Nat} (hlo : 2 ≤ lo) (w x : Nat) :
    Passed s (t.wf (aLn n 0x14) lo w x) n k j := by
  have hne : ∀ {o}, o ≠ 0x14 → (t.wf (aLn n 0x14) lo w x).rd (aLn n o) = t.rd (aLn n o) := fun ho => State.rd_wf_ne (aLn_inj ho)
  exact {
    inv := h.inv.wf _ _ _ _
    mem := h.mem
    rd := fun a ha => (State.rd_wf_ne (aLn_not_mem ha (by decide))).trans (h.rd a ha)
    tstate := (State.rf_wf_disjoint h.inv.regs _ _ (.inl (by omega))).trans h.tstate
    tx := h.tx
    rx := h.rx
    others := h.others
    txTrim := fun hk h2 => (hne (by decide)).trans (h.txTrim hk h2)
    rxKept := fun hj => (hne (by decide)).trans (h.rxKept hj)
    ctle := fun hk h4 => (State.rf_of_rd (hne (by decide)) 0 5).trans_lt (h.ctle hk h4)
    taps := fun hj => (hne (by decide)).trans (h.taps hj)
    trims := fun hk h6 => ⟨(hne (by decide)).trans (h.trims hk h6).1, (hne (by decide)).trans (h.trims hk h6).2⟩ }

/-- What a step leaves depends on the step alone; the other registers and baselines stay (R275). -/
structure Effect (t u : State) (n j : Nat) : Prop where
  inv : u.Inv
  mem : u.mem = t.mem
  rd : ∀ a, a ∉ trainRegs.map (aLn n) → u.rd a = t.rd a
  status : u.rd (aLn n 0x14) = t.rd (aLn n 0x14)
  tx : (u.lane n).tx = (t.lane n).tx
  rx : (u.lane n).rx = (t.lane n).rx
  others : ∀ m, m ≠ n → u.lane m = t.lane m
  txTrim : if j = 2 then u.rd (aLn n 0x30) = 0 else u.rd (aLn n 0x30) = t.rd (aLn n 0x30)
  rxSet : if j = 4 then u.rf (aLn n 8) 0 5 < 19 else u.rd (aLn n 8) = t.rd (aLn n 8)
  taps : j ≠ 5 → u.rd (aLn n 0xC) = t.rd (aLn n 0xC)
  trims : if j = 6 then u.rd (aLn n 0x34) = 0 ∧ u.rd (aLn n 0x38) = 0
    else u.rd (aLn n 0x34) = t.rd (aLn n 0x34) ∧ u.rd (aLn n 0x38) = t.rd (aLn n 0x38)

theorem State.trainEffect_other {j : Nat} (t : State) (n : Nat) (h2 : j ≠ 2) (h4 : j ≠ 4) (h5 : j ≠ 5) (h6 : j ≠ 6) :
    t.trainEffect n j = t := by
  unfold State.trainEffect
  split
  next => exact absurd rfl h2
  next => exact absurd rfl h4
  next => exact absurd rfl h5
  next => exact absurd rfl h6
  next => rfl

theorem State.trainEffect_spec {t : State} (h : t.Inv) (n j : Nat) : Effect t (t.trainEffect n j) n j := by
  have hne : ∀ {o : Nat} {v : W32} {o' : Nat}, o' ≠ o → (t.wr (aLn n o) v).rd (aLn n o') = t.rd (aLn n o') := fun ho =>
    State.rd_wr_ne (aLn_inj ho)
  have hout : ∀ {o : Nat} {v : W32}, o ∈ trainRegs → ∀ a, a ∉ trainRegs.map (aLn n) → (t.wr (aLn n o) v).rd a = t.rd a :=
    fun ho a ha => State.rd_wr_ne (aLn_not_mem ha ho)
  by_cases h2 : j = 2
  · subst h2
    exact ⟨h.wr _ _, rfl, hout (by decide), hne (by decide), rfl, rfl, fun _ _ => rfl, State.rd_wr_self h.regs _ _, hne (by decide),
      fun _ => hne (by decide), hne (by decide), hne (by decide)⟩
  by_cases h4 : j = 4
  · subst h4
    refine ⟨(h.wf _ _ _ _).used, rfl, hout (by decide), hne (by decide), rfl, rfl, fun _ _ => rfl, hne (by decide), ?_,
      fun _ => hne (by decide), hne (by decide), hne (by decide)⟩
    have hlt : t.free.toNat % 19 < 19 := Nat.mod_lt _ (by decide)
    have hself : (t.wf (aLn n 8) 0 5 (t.free.toNat % 19)).rf (aLn n 8) 0 5 < 19 := by
      rw [State.rf_wf_self h.regs _ _ (by decide)]
      omega
    exact hself
  by_cases h5 : j = 5
  · subst h5
    exact ⟨(h.wr _ _).used, rfl, hout (by decide), hne (by decide), rfl, rfl, fun _ _ => rfl, hne (by decide), hne (by decide),
      fun hc => absurd rfl hc, hne (by decide), hne (by decide)⟩
  by_cases h6 : j = 6
  · subst h6
    obtain ⟨u, hu⟩ : ∃ u, u = (t.wr (aLn n 0x34) 0).wr (aLn n 0x38) 0 := ⟨_, rfl⟩
    have hinv : u.Inv := hu ▸ (h.wr _ _).wr _ _
    have hrd : ∀ a, a ≠ aLn n 0x34 → a ≠ aLn n 0x38 → u.rd a = t.rd a := fun a h34 h38 => by
      rw [hu, State.rd_wr_ne h38, State.rd_wr_ne h34]
    have hlane : ∀ m, u.lane m = t.lane m := fun m => by
      rw [hu]
      rfl
    have hself := State.lane_setLane_self hinv n { u.lane n with trims := [] }
    have heff : t.trainEffect n 6 = u.setLane n { u.lane n with trims := [] } := by
      rw [hu]
      rfl
    have hregs : ∀ a, (t.trainEffect n 6).rd a = u.rd a := fun a => by
      rw [heff]
      rfl
    have h34 : u.rd (aLn n 0x34) = 0 := by rw [hu, State.rd_wr_ne (aLn_inj (by decide)), State.rd_wr_self h.regs]
    have h38 : u.rd (aLn n 0x38) = 0 := by rw [hu, State.rd_wr_self (h.wr _ _).regs]
    have hoff : ∀ {o : Nat}, o ≠ 0x34 → o ≠ 0x38 → (t.trainEffect n 6).rd (aLn n o) = t.rd (aLn n o) := fun ha hb =>
      (hregs _).trans (hrd _ (aLn_inj ha) (aLn_inj hb))
    refine ⟨heff ▸ hinv.setLane _ _, ?_, fun a ha => (hregs a).trans (hrd a (aLn_not_mem ha (by decide)) (aLn_not_mem ha (by decide))),
      hoff (by decide) (by decide), ?_, ?_, fun m hm => ?_, hoff (by decide) (by decide), hoff (by decide) (by decide),
      fun _ => hoff (by decide) (by decide), (hregs _).trans h34, (hregs _).trans h38⟩
    · rw [heff, hu]
      rfl
    · rw [heff, hself, hlane]
    · rw [heff, hself, hlane]
    · rw [heff, State.lane_setLane_ne hm, hlane]
  · rw [State.trainEffect_other t n h2 h4 h5 h6]
    exact ⟨h, rfl, fun _ _ => rfl, rfl, rfl, rfl, fun _ _ => rfl, by rw [if_neg h2], by rw [if_neg h4], fun _ => rfl,
      by rw [if_neg h6]; exact ⟨rfl, rfl⟩⟩

/-- A step is over (R275). -/
theorem Passed.effect {s t : State} {n k j : Nat} (h : Passed s t n k j) : Passed s (t.trainEffect n j) n k (j + 1) := by
  have he := State.trainEffect_spec h.inv n j
  have htx := he.txTrim
  have hrx := he.rxSet
  have htr := he.trims
  refine {
    inv := he.inv
    mem := he.mem.trans h.mem
    rd := fun a ha => (he.rd a ha).trans (h.rd a ha)
    tstate := (State.rf_of_rd he.status 0 2).trans h.tstate
    tx := he.tx.trans h.tx
    rx := he.rx.trans h.rx
    others := fun m hm => (he.others m hm).trans (h.others m hm)
    txTrim := fun hk h2 => ?_
    rxKept := fun hj => ?_
    ctle := fun hk h4 => ?_
    taps := fun hj => (he.taps (by omega)).trans (h.taps (by omega))
    trims := fun hk h6 => ?_ }
  · by_cases hj : j = 2
    · rwa [if_pos hj] at htx
    · rw [if_neg hj] at htx
      exact htx.trans (h.txTrim hk (by omega))
  · rw [if_neg (by omega)] at hrx
    exact hrx.trans (h.rxKept (by omega))
  · by_cases hj : j = 4
    · rwa [if_pos hj] at hrx
    · rw [if_neg hj] at hrx
      rw [State.rf_of_rd hrx]
      exact h.ctle hk (by omega)
  · by_cases hj : j = 6
    · rwa [if_pos hj] at htr
    · rw [if_neg hj] at htr
      exact ⟨htr.1.trans (h.trims hk (by omega)).1, htr.2.trans (h.trims hk (by omega)).2⟩

/-- Training runs on to step `j` (R275). -/
theorem State.trainTo_spec {s : State} (h : s.Inv) {n j : Nat} (hj : j < 8) :
    Passed s (s.trainTo n j) n (s.rf (aLn n 0x14) 4 3) j ∧
    (s.trainTo n j).rf (aLn n 0x14) 4 3 = max (s.rf (aLn n 0x14) 4 3) j := by
  obtain ⟨k, hk⟩ : ∃ k, k = s.rf (aLn n 0x14) 4 3 := ⟨_, rfl⟩
  have hrun : ∀ i, k + i < 8 → Passed s ((List.range i).foldl (fun t _ => t.trainNext n) s) n k (k + i) ∧
      ((List.range i).foldl (fun t _ => t.trainNext n) s).rf (aLn n 0x14) 4 3 = k + i := by
    intro i
    induction i with
    | zero => exact fun _ => ⟨.refl h n (Nat.le_refl k), hk.symm⟩
    | succ i ih =>
      intro hi
      obtain ⟨hp, hf⟩ := ih (by omega)
      rw [List.range_succ, List.foldl_append, List.foldl_cons, List.foldl_nil]
      generalize List.foldl _ s _ = t at hp hf ⊢
      have heff : t.trainNext n = (t.trainEffect n (k + i)).wf (aLn n 0x14) 4 3 (k + i + 1) := by
        unfold State.trainNext
        dsimp only
        rw [hf]
      rw [heff]
      refine ⟨hp.effect.status (by decide) 3 _, ?_⟩
      rw [State.rf_wf_self hp.effect.inv.regs _ _ (by decide)]
      exact Nat.mod_eq_of_lt hi
  unfold State.trainTo
  rw [← hk]
  by_cases hle : k ≤ j
  · have := hrun (j - k) (by omega)
    rw [show k + (j - k) = j by omega] at this
    rwa [Nat.max_eq_right hle]
  · rw [show j - k = 0 by omega, Nat.max_eq_left (by omega)]
    exact ⟨.refl h n (by omega), hk.symm⟩

end Sys2Proof.Machine
end

section

/-! The end of a lane's training (O45). -/

namespace Sys2Proof.Machine

theorem State.rf_setB_ne {s : State} {a b : Nat} (i lo w : Nat) (hab : b ≠ a) : (s.setB a i).rf b lo w = s.rf b lo w :=
  State.rf_wr_ne _ lo w hab

theorem State.trainLast_lt (s : State) (n : Nat) : s.trainLast n < 8 := by
  unfold State.trainLast
  split_ifs <;> decide

theorem State.trainLast_src0 {s : State} {n : Nat} (h : s.rf (aLn n 0x10) 0 2 = 0) : s.trainLast n = 2 := if_pos h

theorem State.trainLast_src {s : State} {n : Nat} (h : s.rf (aLn n 0x10) 0 2 ≠ 0) : 6 ≤ s.trainLast n := by
  unfold State.trainLast
  rw [if_neg h]
  split_ifs <;> decide

theorem State.trainLast_rtrip {s : State} {n : Nat} (h : s.rf (aLn n 0x10) 0 2 ≠ 0) (hr : s.bit (aLn n 0x10) 2 = true) :
    s.trainLast n = 7 := by
  unfold State.trainLast
  rw [if_neg h, if_pos hr]

theorem stepCode_eq {k : Nat} (h3 : 3 ≤ k) (h7 : k < 8) : stepCode k = if k = 3 then 3 else if k = 7 then 5 else 4 := by
  have hk : k = 3 ∨ k = 4 ∨ k = 5 ∨ k = 6 ∨ k = 7 := by omega
  rcases hk with rfl | rfl | rfl | rfl | rfl <;> rfl

theorem stepCode_zero {k : Nat} (h : k < 3) : stepCode k = 0 := by
  have hk : k = 0 ∨ k = 1 ∨ k = 2 := by omega
  rcases hk with rfl | rfl | rfl <;> rfl

/-- A partner that is free again keeps its baselines. -/
theorem State.freePartner_lane {s : State} (h : s.Inv) (n k : Nat) :
    ((s.freePartner n).lane k).tx = (s.lane k).tx ∧ ((s.freePartner n).lane k).rx = (s.lane k).rx := by
  rw [State.lane_freePartner h]
  split <;> exact ⟨rfl, rfl⟩

/-- Training that fails at step `j` (R275). -/
theorem State.trainFail_spec {s : State} (h : s.Inv) {n j : Nat} (hj : j < 8) :
    let k := s.rf (aLn n 0x14) 4 3
    let t := s.trainFail n j
    t.tstate n = 3 ∧ t.rf (aLn n 0x14) 4 3 = j ∧ t.rf (aLn n 0x14) 8 4 = stepCode j % 16 ∧ t.bit (aLn n 0x50) 3 = true ∧
    (t.lane n).tx = (s.lane n).tx ∧ (t.lane n).rx = (s.lane n).rx ∧ (k ≤ 2 → 2 < j → t.rd (aLn n 0x30) = 0) ∧
    (j ≤ 4 → t.rd (aLn n 8) = s.rd (aLn n 8)) ∧ (k ≤ 4 → 4 < j → t.rf (aLn n 8) 0 5 < 19) ∧
    (j ≤ 5 → t.rd (aLn n 0xC) = s.rd (aLn n 0xC)) ∧ (k ≤ 6 → 6 < j → t.rd (aLn n 0x34) = 0 ∧ t.rd (aLn n 0x38) = 0) := by
  intro k t
  obtain ⟨hp, -⟩ := State.trainTo_spec h (n := n) hj
  have hlane := State.freePartner_lane hp.inv n n
  have hfree := hp.inv.freePartner n
  have hfregs : ((s.trainTo n j).freePartner n).regs = (s.trainTo n j).regs := rfl
  have ht : t = (((((s.trainTo n j).freePartner n).wf (aLn n 0x14) 0 2 3).wf (aLn n 0x14) 4 3 j).wf (aLn n 0x14) 8 4 (stepCode j)).setB
      (aLn n 0x50) 3 := rfl
  rw [ht]
  generalize (s.trainTo n j).freePartner n = u at hlane hfree hfregs ⊢
  have h₁ := hfree.wf (aLn n 0x14) 0 2 3
  have h₂ := h₁.wf (aLn n 0x14) 4 3 j
  have h₃ := h₂.wf (aLn n 0x14) 8 4 (stepCode j)
  have hoff : ∀ {o : Nat}, o ≠ 0x14 → o ≠ 0x50 → ((((u.wf (aLn n 0x14) 0 2 3).wf (aLn n 0x14) 4 3 j).wf (aLn n 0x14) 8 4
      (stepCode j)).setB (aLn n 0x50) 3).rd (aLn n o) = (s.trainTo n j).rd (aLn n o) := fun h14 h50 =>
    (State.rd_wf_ne (aLn_inj h50)).trans ((State.rd_wf_ne (aLn_inj h14)).trans ((State.rd_wf_ne (aLn_inj h14)).trans
      ((State.rd_wf_ne (aLn_inj h14)).trans (State.rd_congr hfregs _))))
  refine ⟨?_, ?_, ?_, State.bit_setB_self h₃.regs _ (by decide), hlane.1.trans hp.tx, hlane.2.trans hp.rx,
    fun hk hj => (hoff (by decide) (by decide)).trans (hp.txTrim hk hj), fun hj => (hoff (by decide) (by decide)).trans (hp.rxKept hj),
    fun hk hj => (State.rf_of_rd (hoff (by decide) (by decide)) 0 5).trans_lt (hp.ctle hk hj),
    fun hj => (hoff (by decide) (by decide)).trans (hp.taps hj),
    fun hk hj => ⟨(hoff (by decide) (by decide)).trans (hp.trims hk hj).1, (hoff (by decide) (by decide)).trans (hp.trims hk hj).2⟩⟩
  · rw [State.tstate, State.rf_setB_ne _ _ _ (aLn_inj (by decide)), State.rf_wf_disjoint h₂.regs _ _ (.inl (by decide)), State.rf_wf_disjoint h₁.regs _ _ (.inl (by decide)),
      State.rf_wf_self hfree.regs _ _ (by decide)]
    rfl
  · rw [State.rf_setB_ne _ _ _ (aLn_inj (by decide)), State.rf_wf_disjoint h₂.regs _ _ (.inl (by decide)), State.rf_wf_self h₁.regs _ _ (by decide)]
    exact Nat.mod_eq_of_lt hj
  · rw [State.rf_setB_ne _ _ _ (aLn_inj (by decide)), State.rf_wf_self h₂.regs _ _ (by decide)]
    rfl

/-- The steps of a training that ends well are over (R275). -/
theorem State.trainRest_spec {s : State} (h : s.Inv) (n : Nat) :
    Passed s ((s.trainTo n (s.trainLast n)).trainEffect n (s.trainLast n)) n (s.rf (aLn n 0x14) 4 3) (s.trainLast n + 1) :=
  (State.trainTo_spec h (s.trainLast_lt n)).1.effect

/-- The baselines that a training leaves (R275). -/
def LnSt.trained (v : LnSt) (tx : Int) (rx : Option (Int × Vector Int 3)) : LnSt := { v with tx := some tx, rx := rx }

/-- Training that succeeds (R275, R283). -/
theorem State.trainDone_spec {s : State} (h : s.Inv) (n : Nat) (tx strobe t0 t1 t2 : Int) (trip : BitVec 16) :
    let k := s.rf (aLn n 0x14) 4 3
    let t := s.trainDone n tx strobe t0 t1 t2 trip
    t.tstate n = 2 ∧ t.rf (aLn n 0x14) 4 3 = s.trainLast n ∧ (k ≤ 2 → t.rd (aLn n 0x30) = 0) ∧
    (t.lane n).tx = some tx ∧
    (t.lane n).rx = (if 2 < s.trainLast n then some (strobe, #v[t0, t1, t2]) else (s.lane n).rx) ∧
    (s.trainLast n = 7 → t.rd (aLn n 0x18) = BitVec.ofNat 32 (trip.toNat + 2 ^ 31)) ∧
    (6 ≤ s.trainLast n → (k ≤ 4 → t.rf (aLn n 8) 0 5 < 19) ∧ (k ≤ 6 → t.rd (aLn n 0x34) = 0 ∧ t.rd (aLn n 0x38) = 0)) ∧
    (s.trainLast n = 2 → t.rd (aLn n 8) = s.rd (aLn n 8) ∧ t.rd (aLn n 0xC) = s.rd (aLn n 0xC) ∧ t.rd (aLn n 0x34) = 0 ∧
      t.rd (aLn n 0x38) = 0) := by
  intro k t
  have hlast := s.trainLast_lt n
  have hp := State.trainRest_spec h n
  obtain ⟨s0, hs0⟩ : ∃ s0, s0 = (s.trainTo n (s.trainLast n)).trainEffect n (s.trainLast n) := ⟨_, rfl⟩
  rw [← hs0] at hp
  have he := State.trainEffect_spec hp.inv n 6
  obtain ⟨s1, hs1⟩ : ∃ s1, s1 = if s.trainLast n < 6 then s0.trainEffect n 6 else s0 := ⟨_, rfl⟩
  have hinv1 : s1.Inv := by
    rw [hs1]
    split
    · exact he.inv
    · exact hp.inv
  have hlane1 : (s1.lane n).tx = (s.lane n).tx ∧ (s1.lane n).rx = (s.lane n).rx := by
    rw [hs1]
    split
    · exact ⟨he.tx.trans hp.tx, he.rx.trans hp.rx⟩
    · exact ⟨hp.tx, hp.rx⟩
  have hkeep1 : ∀ {o : Nat}, o ≠ 0x34 → o ≠ 0x38 → s1.rd (aLn n o) = s0.rd (aLn n o) := fun {o} h34 h38 => by
    rw [hs1]
    split
    · by_cases ho : o ∈ trainRegs
      · have htx := he.txTrim
        have hrx := he.rxSet
        rw [if_neg (by decide)] at htx hrx
        rcases List.mem_cons.mp ho with rfl | ho
        · exact he.status
        rcases List.mem_cons.mp ho with rfl | ho
        · exact htx
        rcases List.mem_cons.mp ho with rfl | ho
        · exact absurd rfl h34
        rcases List.mem_cons.mp ho with rfl | ho
        · exact absurd rfl h38
        rcases List.mem_cons.mp ho with rfl | ho
        · exact hrx
        · rw [List.mem_singleton.mp ho]
          exact he.taps (by decide)
      · refine he.rd _ fun hm => ?_
        obtain ⟨o', ho', heq⟩ := List.mem_map.mp hm
        exact ho (by rwa [show o = o' by unfold aLn at heq; omega])
    · rfl
  have htrims1 : (s.trainLast n = 2 → s1.rd (aLn n 0x34) = 0 ∧ s1.rd (aLn n 0x38) = 0) ∧
      (6 ≤ s.trainLast n → s1.rd (aLn n 0x34) = s0.rd (aLn n 0x34) ∧ s1.rd (aLn n 0x38) = s0.rd (aLn n 0x38)) := by
    refine ⟨fun h2 => ?_, fun h6 => ?_⟩
    · have htr := he.trims
      rw [if_pos rfl] at htr
      rwa [hs1, if_pos (by omega)]
    · rw [hs1, if_neg (by omega)]
      exact ⟨rfl, rfl⟩
  have hlane2 := State.freePartner_lane hinv1 n n
  have hfree := hinv1.freePartner n
  have hfregs : (s1.freePartner n).regs = s1.regs := rfl
  have ht : t = ((if s.trainLast n = 7 then ((s1.freePartner n).setLane n (((s1.freePartner n).lane n).trained tx
      (if 2 < s.trainLast n then some (strobe, #v[t0, t1, t2]) else ((s1.freePartner n).lane n).rx))).wr (aLn n 0x18)
        (BitVec.ofNat 32 (trip.toNat + 2 ^ 31))
      else (s1.freePartner n).setLane n (((s1.freePartner n).lane n).trained tx
        (if 2 < s.trainLast n then some (strobe, #v[t0, t1, t2]) else ((s1.freePartner n).lane n).rx))).wf (aLn n 0x14) 0 2 2).wf
      (aLn n 0x14) 4 3 (s.trainLast n) := by
    rw [hs1, hs0]
    rfl
  rw [ht]
  generalize s1.freePartner n = u at hlane2 hfree hfregs ⊢
  have hself := State.lane_setLane_self hfree n ((u.lane n).trained tx
    (if 2 < s.trainLast n then some (strobe, #v[t0, t1, t2]) else (u.lane n).rx))
  have hset := hfree.setLane n ((u.lane n).trained tx (if 2 < s.trainLast n then some (strobe, #v[t0, t1, t2]) else (u.lane n).rx))
  have hsregs : (u.setLane n ((u.lane n).trained tx (if 2 < s.trainLast n then some (strobe, #v[t0, t1, t2]) else
    (u.lane n).rx))).regs = u.regs := rfl
  generalize u.setLane n _ = x at hself hset hsregs ⊢
  obtain ⟨y, hy⟩ : ∃ y, y = if s.trainLast n = 7 then x.wr (aLn n 0x18) (BitVec.ofNat 32 (trip.toNat + 2 ^ 31)) else x := ⟨_, rfl⟩
  rw [← hy]
  have hyinv : y.Inv := by
    rw [hy]
    split
    · exact hset.wr _ _
    · exact hset
  have hylane : y.lane n = x.lane n := by
    rw [hy]
    split
    · exact congrArg (spGet (fun _ => LnSt.init) · n) (State.wr_lanes _ _ _)
    · rfl
  have hyrd : ∀ {o : Nat}, o ≠ 0x18 → y.rd (aLn n o) = s1.rd (aLn n o) := fun {o} ho => by
    have hx : x.rd (aLn n o) = s1.rd (aLn n o) := (State.rd_congr hsregs _).trans (State.rd_congr hfregs _)
    rw [hy]
    split
    · exact (State.rd_wr_ne (aLn_inj ho)).trans hx
    · exact hx
  have hoff : ∀ {o : Nat}, o ≠ 0x14 → ((y.wf (aLn n 0x14) 0 2 2).wf (aLn n 0x14) 4 3 (s.trainLast n)).rd (aLn n o) = y.rd (aLn n o) :=
    fun ho => (State.rd_wf_ne (aLn_inj ho)).trans (State.rd_wf_ne (aLn_inj ho))
  have hrd : ∀ {o : Nat}, o ≠ 0x14 → o ≠ 0x18 → o ≠ 0x34 → o ≠ 0x38 →
      ((y.wf (aLn n 0x14) 0 2 2).wf (aLn n 0x14) 4 3 (s.trainLast n)).rd (aLn n o) = s0.rd (aLn n o) := fun h14 h18 h34 h38 =>
    (hoff h14).trans ((hyrd h18).trans (hkeep1 h34 h38))
  have hlane : ((y.wf (aLn n 0x14) 0 2 2).wf (aLn n 0x14) 4 3 (s.trainLast n)).lane n = _ := hylane.trans hself
  have h₁ := hyinv.wf (aLn n 0x14) 0 2 2
  refine ⟨?_, ?_, fun hk => ?_, by rw [hlane]; rfl, ?_, fun h7 => ?_, fun h6 => ⟨fun hk => ?_, fun hk => ?_⟩, fun h2 => ⟨?_, ?_, ?_, ?_⟩⟩
  · rw [State.tstate, State.rf_wf_disjoint h₁.regs _ _ (.inl (by decide)), State.rf_wf_self hyinv.regs _ _ (by decide)]
    rfl
  · rw [State.rf_wf_self h₁.regs _ _ (by decide)]
    exact Nat.mod_eq_of_lt hlast
  · refine (hrd (by decide) (by decide) (by decide) (by decide)).trans (hp.txTrim hk ?_)
    by_cases h0 : s.rf (aLn n 0x10) 0 2 = 0
    · rw [State.trainLast_src0 h0]
      decide
    · have := State.trainLast_src h0
      omega
  · rw [hlane]
    exact congrArg (fun r => if 2 < s.trainLast n then some (strobe, #v[t0, t1, t2]) else r) (hlane2.2.trans hlane1.2)
  · rw [hoff (by decide), hy, if_pos h7]
    exact State.rd_wr_self hset.regs _ _
  · exact (State.rf_of_rd (hrd (by decide) (by decide) (by decide) (by decide)) 0 5).trans_lt (hp.ctle hk (by omega))
  · obtain ⟨ha, hb⟩ := hp.trims hk (by omega)
    obtain ⟨ha1, hb1⟩ := htrims1.2 h6
    exact ⟨(hoff (by decide)).trans ((hyrd (by decide)).trans (ha1.trans ha)), (hoff (by decide)).trans ((hyrd (by decide)).trans (hb1.trans hb))⟩
  · exact (hrd (by decide) (by decide) (by decide) (by decide)).trans (hp.rxKept (by omega))
  · exact (hrd (by decide) (by decide) (by decide) (by decide)).trans (hp.taps (by omega))
  · exact (hoff (by decide)).trans ((hyrd (by decide)).trans (htrims1.1 h2).1)
  · exact (hoff (by decide)).trans ((hyrd (by decide)).trans (htrims1.1 h2).2)

end Sys2Proof.Machine
end

section

/-! The trims of a lane, and the statement on training (O45). -/

namespace Sys2Proof.Machine

/- Trims ------------------------------------------------------------------------------------------------------------------ -/

/-- A number stored in `w` bits in two's complement reads back. -/
theorem toInt_twos {w : Nat} (hw : 0 < w) {x : Int} (hx : x.natAbs < 2 ^ (w - 1)) : (BitVec.ofNat w (twos w x)).toInt = x := by
  have hcast : (twos w x : Int) = x % ((2 ^ w : Nat) : Int) := by
    unfold twos
    rw [Nat.cast_pow, Nat.cast_ofNat]
    exact Int.toNat_of_nonneg (Int.emod_nonneg _ (by positivity))
  have hpow : 2 ^ w = 2 * 2 ^ (w - 1) := by rw [← Nat.pow_succ', Nat.succ_eq_add_one, Nat.sub_add_cancel hw]
  rw [BitVec.toInt_ofNat', hcast, Int.emod_bmod]
  exact Int.bmod_eq_of_le_mul_two (by omega) (by omega)

theorem twos_lt (w : Nat) (x : Int) : twos w x < 2 ^ w := by
  have h : (twos w x : Int) = x % 2 ^ w := by
    unfold twos
    exact Int.toNat_of_nonneg (Int.emod_nonneg _ (by positivity))
  have hlt : x % (2 ^ w : Int) < 2 ^ w := Int.emod_lt_of_pos _ (by positivity)
  have hpn : ((2 ^ w : Nat) : Int) = 2 ^ w := by rw [Nat.cast_pow, Nat.cast_ofNat]
  omega

/-- The register and the bits of a trim. -/
theorem State.trim_of_rd {s t : State} {n : Nat} (h30 : t.rd (aLn n 0x30) = s.rd (aLn n 0x30)) (h34 : t.rd (aLn n 0x34) = s.rd (aLn n 0x34))
    (h38 : t.rd (aLn n 0x38) = s.rd (aLn n 0x38)) (w : Nat) : t.trim n w = s.trim n w := by
  unfold State.trim State.srf
  rw [State.rf_of_rd h30, State.rf_of_rd h34]
  split
  · rfl
  · rfl
  · rw [State.rf_of_rd h38]

/-- A register of its own for a trim (R279). -/
theorem State.srf_wr_twos {s : State} (h : s.Inv) (a : Nat) {x : Int} (hx : x.natAbs < 2 ^ (13 - 1)) :
    (s.wr a (BitVec.ofNat 32 (twos 13 x))).srf a 0 13 = x := by
  have htw : twos 13 x < 2 ^ 13 := twos_lt 13 x
  have hfield : field (BitVec.ofNat 32 (twos 13 x)) 0 13 = twos 13 x := by
    generalize twos 13 x = y at htw
    rw [field, BitVec.toNat_ofNat]
    omega
  unfold State.srf State.rf
  rw [State.rd_wr_self h.regs, hfield, toInt_twos (by decide) hx]

/-- A byte of a register for a trim (R279). -/
theorem State.srf_wf_twos {s : State} (h : s.Inv) (a : Nat) {lo : Nat} (hlo : lo + 8 ≤ 32) {x : Int} (hx : x.natAbs < 2 ^ (8 - 1)) :
    (s.wf a lo 8 (twos 8 x)).srf a lo 8 = x := by
  unfold State.srf
  rw [State.rf_wf_self h.regs _ _ hlo, Nat.mod_eq_of_lt (twos_lt 8 x), toInt_twos (by decide) hx]

/-- The registers of the trims of a lane (R279). -/
theorem State.trim_zero (s : State) (n : Nat) : s.trim n 0 = s.srf (aLn n 0x30) 0 13 := rfl
theorem State.trim_one (s : State) (n : Nat) : s.trim n 1 = s.srf (aLn n 0x34) 0 13 := rfl
theorem State.trim_byte (s : State) (n k : Nat) : s.trim n (k + 2) = s.srf (aLn n 0x38) (8 * k) 8 := rfl
theorem State.setTrim_zero (s : State) (n : Nat) (x : Int) :
    s.setTrim n 0 x = s.wr (aLn n 0x30) (BitVec.ofNat 32 (twos 13 x)) := rfl
theorem State.setTrim_one (s : State) (n : Nat) (x : Int) :
    s.setTrim n 1 x = s.wr (aLn n 0x34) (BitVec.ofNat 32 (twos 13 x)) := rfl
theorem State.setTrim_byte (s : State) (n k : Nat) (x : Int) :
    s.setTrim n (k + 2) x = s.wf (aLn n 0x38) (8 * k) 8 (twos 8 x) := rfl

/-- A trim that is stored reads back, if it fits (R279). -/
theorem State.trim_setTrim {s : State} (h : s.Inv) (n : Nat) {w : Nat} (hw : w < 5) {x : Int}
    (hword : w < 2 → x.natAbs < 2 ^ (13 - 1)) (hbyte : 2 ≤ w → x.natAbs < 2 ^ (8 - 1)) : (s.setTrim n w x).trim n w = x := by
  match w with
  | 0 => rw [State.setTrim_zero, State.trim_zero, State.srf_wr_twos h _ (hword (by decide))]
  | 1 => rw [State.setTrim_one, State.trim_one, State.srf_wr_twos h _ (hword (by decide))]
  | k + 2 => rw [State.setTrim_byte, State.trim_byte, State.srf_wf_twos h _ (by omega) (hbyte (by omega))]

/-- Trims and lanes' registers as they were; only events, lanes and other registers may differ. -/
structure TrimsKept (s t : State) (n : Nat) : Prop where
  inv : t.Inv
  trim : ∀ w, t.trim n w = s.trim n w

theorem TrimsKept.wr {s t : State} {n : Nat} (h : TrimsKept s t n) {a : Nat} (ha : ∀ o ∈ [0x30, 0x34, 0x38], a ≠ aLn n o) (v : W32) :
    TrimsKept s (t.wr a v) n :=
  ⟨h.inv.wr _ _, fun w => (State.trim_of_rd (State.rd_wr_ne (ha 0x30 (by decide)).symm) (State.rd_wr_ne (ha 0x34 (by decide)).symm)
    (State.rd_wr_ne (ha 0x38 (by decide)).symm) w).trans (h.trim w)⟩

theorem aLn_ne_trims {n o : Nat} (h : o ∉ [0x30, 0x34, 0x38]) : ∀ o' ∈ [0x30, 0x34, 0x38], aLn n o ≠ aLn n o' := fun _ ho' =>
  aLn_inj fun hc => h (hc ▸ ho')

/-- A calibration alarm (R282). -/
theorem State.calAlarm_spec {s : State} (h : s.Inv) (n : Nat) :
    (s.calAlarm n).Inv ∧ (s.calAlarm n).bit (aLn n 0x50) 1 = true ∧
    ∀ o, o ≠ 0x50 → (s.calAlarm n).rd (aLn n o) = s.rd (aLn n o) := by
  have hset := h.setB (aLn n 0x50) 1
  have hbit := State.bit_setB_self h.regs (aLn n 0x50) (i := 1) (by decide)
  have hrd : ∀ o, o ≠ 0x50 → (s.setB (aLn n 0x50) 1).rd (aLn n o) = s.rd (aLn n o) := fun o ho => State.rd_wf_ne (aLn_inj ho)
  unfold State.calAlarm
  generalize s.setB (aLn n 0x50) 1 = u at hset hbit hrd ⊢
  have hpost := (State.post_keeps (.refl u) rkLane none 10 n).inv hset
  have hlow := State.sawActive_lowRegs (u.post rkLane none 10 n) (2 ^ n) 12 fun i => s.bit (aSite i 0x10) 1
  have hfar : ∀ o, (State.sawActive (u.post rkLane none 10 n) (2 ^ n) 12 fun i => s.bit (aSite i 0x10) 1).rd (aLn n o) = u.rd (aLn n o) :=
    fun o => (hlow.2 _ (by unfold aLn; omega)).trans (State.rd_congr (State.post_regs _ _ _ _ _) _)
  exact ⟨(State.sawActive_keeps (.refl _) _ _ _).inv hpost, (State.bit_of_rd (hfar 0x50) 1).trans hbit,
    fun o ho => (hfar o).trans (hrd o ho)⟩

theorem State.keepTrims_spec {s : State} (h : s.Inv) (n f : Nat) : (s.keepTrims n f).Inv ∧ (s.keepTrims n f).regs = s.regs := by
  unfold State.keepTrims
  dsimp only
  split
  · exact ⟨h, rfl⟩
  · exact ⟨h.setLane _ _, rfl⟩

/-- What a correction wants of a trim: within the limit, or the limit (R279). -/
def trimGoal (lim : Nat) (x : Int) : Int := if lim < x.natAbs then (if x < 0 then -(lim : Int) else lim) else x

theorem trimGoal_le (lim : Nat) (x : Int) : (trimGoal lim x).natAbs ≤ lim := by
  unfold trimGoal
  split_ifs <;> omega

/-- A change of a trim (R279, R282). -/
theorem State.adjust_spec {s : State} (h : s.Inv) {n w : Nat} (hw : w < 5) (hlim : 2 ≤ w → (s.trimLimit n w).1 ≤ 127) {d : Int}
    (hd : d ≠ 0) :
    (s.adjust n w d).1.trim n w = trimGoal (s.trimLimit n w).1 (s.trim n w + d) ∧
    ((s.trimLimit n w).1 < (s.trim n w + d).natAbs → (s.adjust n w d).1.bit (aLn n 0x50) 1 = true) := by
  obtain ⟨lim, hl⟩ : ∃ lim, lim = (s.trimLimit n w).1 := ⟨_, rfl⟩
  obtain ⟨x, hx⟩ : ∃ x, x = s.trim n w := ⟨_, rfl⟩
  obtain ⟨new, hnew⟩ : ∃ new, new = trimGoal lim (x + d) := ⟨_, rfl⟩
  obtain ⟨s1, hs1⟩ : ∃ s1, s1 = if decide (lim < (x + d).natAbs) then (s.bump (aLn n 0x48) 1).calAlarm n else s := ⟨_, rfl⟩
  have hbump := h.bump (aLn n 0x48) 1
  obtain ⟨hainv, habit, hard⟩ := State.calAlarm_spec hbump n
  have hbrd : ∀ o, o ≠ 0x48 → (s.bump (aLn n 0x48) 1).rd (aLn n o) = s.rd (aLn n o) := fun o ho => State.rd_wr_ne (aLn_inj ho)
  have h1 : TrimsKept s s1 n ∧ (lim < (x + d).natAbs → s1.bit (aLn n 0x50) 1 = true) := by
    by_cases hp : lim < (x + d).natAbs
    · rw [hs1, decide_eq_true hp, if_pos rfl]
      refine ⟨⟨hainv, fun w => State.trim_of_rd ?_ ?_ ?_ w⟩, fun _ => habit⟩
      · exact (hard _ (by decide)).trans (hbrd _ (by decide))
      · exact (hard _ (by decide)).trans (hbrd _ (by decide))
      · exact (hard _ (by decide)).trans (hbrd _ (by decide))
    · rw [hs1, decide_eq_false hp, if_neg Bool.false_ne_true]
      exact ⟨⟨h, fun _ => rfl⟩, fun hc => absurd hc hp⟩
  obtain ⟨s2, hs2⟩ : ∃ s2, s2 = if (s.trimLimit n w).2 ≤ new.natAbs then s1.setB (aLn n 0x50) 0 else s1 := ⟨_, rfl⟩
  have h2 : TrimsKept s s2 n ∧ (lim < (x + d).natAbs → s2.bit (aLn n 0x50) 1 = true) := by
    rw [hs2]
    split
    · exact ⟨h1.1.wr (aLn_ne_trims (by decide)) _, fun hp => (State.bit_setB_ne h1.1.inv.regs _ (by decide)).trans (h1.2 hp)⟩
    · exact h1
  have hadj : s.adjust n w d = if new = x then (s2, false) else
      (((((if w = 0 then s2 else s2.keepTrims n ((s.pgs (pgOf n)).started - 1)).wr (aLn n 0x4C)
        (BitVec.ofNat 32 (w + twos 9 (new - x) * 16 + ((s.pgs (pgOf n)).started - 1) % 65536 * 65536))).bump (aLn n 0x44) 1).setTrim n w new),
        true) := by
    rw [hs2, hs1, hnew, trimGoal, hx, hl]
    unfold State.adjust
    simp only [if_neg hd, decide_eq_true_eq]
  have hle := trimGoal_le lim (x + d)
  rw [← hx, ← hl, ← hnew, hadj]
  rw [← hnew] at hle
  by_cases hsame : new = x
  · rw [if_pos hsame]
    exact ⟨(h2.1.trim w).trans (hx.symm.trans hsame.symm), h2.2⟩
  rw [if_neg hsame]
  obtain ⟨s3, hs3⟩ : ∃ s3, s3 = if w = 0 then s2 else s2.keepTrims n ((s.pgs (pgOf n)).started - 1) := ⟨_, rfl⟩
  have h3 : s3.Inv ∧ s3.regs = s2.regs := by
    rw [hs3]
    split
    · exact ⟨h2.1.inv, rfl⟩
    · exact State.keepTrims_spec h2.1.inv n _
  rw [← hs3]
  have h4 : ∀ v, (((s3.wr (aLn n 0x4C) v).bump (aLn n 0x44) 1)).Inv ∧
      (((s3.wr (aLn n 0x4C) v).bump (aLn n 0x44) 1)).bit (aLn n 0x50) 1 = s2.bit (aLn n 0x50) 1 := fun v =>
    ⟨(h3.1.wr _ _).bump _ _, (State.bit_wr_ne _ _ (aLn_inj (by decide))).trans ((State.bit_wr_ne _ _ (aLn_inj (by decide))).trans
      (State.bit_congr h3.2 _ _))⟩
  generalize BitVec.ofNat 32 (w + twos 9 (new - x) * 16 + ((s.pgs (pgOf n)).started - 1) % 65536 * 65536) = v
  obtain ⟨h4inv, h4bit⟩ := h4 v
  generalize (s3.wr (aLn n 0x4C) v).bump (aLn n 0x44) 1 = s4 at h4inv h4bit ⊢
  have hword : w < 2 → new.natAbs < 2 ^ (13 - 1) := fun h2w => by
    have hfield : lim < 2 ^ 12 := by
      rw [hl, State.trimLimit, if_pos h2w]
      exact Nat.mod_lt _ (by decide)
    omega
  have hbyte : 2 ≤ w → new.natAbs < 2 ^ (8 - 1) := fun h2w => by
    have := hlim h2w
    omega
  refine ⟨State.trim_setTrim h4inv n hw hword hbyte, fun hp => ?_⟩
  · refine Eq.trans ?_ (h4bit.trans (h2.2 hp))
    unfold State.setTrim
    split
    · exact State.bit_wr_ne _ _ (aLn_inj (by decide))
    · exact State.bit_wr_ne _ _ (aLn_inj (by decide))
    · exact State.bit_wr_ne _ _ (aLn_inj (by decide))

end Sys2Proof.Machine
end

section

/-! Training, correction and monitor sweeps: the statement (O45). -/

namespace Sys2Proof.Machine

/-- A write of TRAIN (R275). -/
theorem State.trainWrite_eq (s : State) (n : Nat) (v : W32) :
    let s1 := s.wr (aLn n 0x10) (v &&& 0x777)
    s.trainWrite n v = if v.getLsbD 31 then s1.trainGo n else s1 := rfl

theorem State.trainGo_refused {s : State} {n : Nat} (h : s.trainCode n ≠ 0) :
    s.trainGo n = (s.wf (aLn n 0x14) 8 4 (s.trainCode n)).flag (aLn n 0x50) 3 := by
  unfold State.trainGo
  split
  next h0 => exact absurd h0 h
  next => rfl

theorem State.trainGo_accepted {s : State} {n : Nat} (h : s.trainCode n = 0) (hu : s.usesPartner n = false) :
    s.trainGo n = ((s.wf (aLn n 0x14) 0 2 1).wf (aLn n 0x14) 4 3 1).wf (aLn n 0x14) 8 4 0 := by
  unfold State.trainGo
  rw [h]
  exact if_neg (hu ▸ Bool.false_ne_true)

theorem State.trainCode_unlocked {s : State} {n : Nat} (h : s.pgLocked (n / 8) = false) : s.trainCode n = 2 :=
  if_pos (by rw [pgOf, h]; rfl)

/-- When training ends (R275). -/
theorem State.trainEnd_idle {s : State} {n : Nat} (h : s.tstate n ≠ 1) (r : TrainResult) : s.trainEnd n r = s :=
  if_pos (bne_iff_ne.mpr h)

theorem State.trainEnd_fail {s : State} {n : Nat} (h : s.tstate n = 1) {step : BitVec 3} (h3 : 3 ≤ step.toNat)
    (hk : s.rf (aLn n 0x14) 4 3 ≤ step.toNat) (hl : step.toNat ≤ s.trainLast n) :
    s.trainEnd n (.fail step) = s.trainFail n step.toNat := by
  have hcode : stepCode step.toNat ≠ 0 := by
    rw [stepCode_eq h3 step.isLt]
    split_ifs <;> decide
  refine (if_neg (by simp [h])).trans (if_pos ?_)
  simp [hcode, hk, hl]

theorem State.trainEnd_ignored {s : State} {n : Nat} {step : BitVec 3}
    (h : step.toNat < 3 ∨ step.toNat < s.rf (aLn n 0x14) 4 3 ∨ s.trainLast n < step.toNat) : s.trainEnd n (.fail step) = s := by
  unfold State.trainEnd
  split
  · rfl
  · refine if_neg fun hc => ?_
    rw [Bool.and_eq_true, Bool.and_eq_true, bne_iff_ne, decide_eq_true_eq, decide_eq_true_eq] at hc
    obtain ⟨⟨h0, hk⟩, hl⟩ := hc
    rcases h with h | h | h
    · exact h0 (stepCode_zero h)
    · omega
    · omega

theorem State.trainEnd_done {s : State} {n : Nat} (h : s.tstate n = 1) (tx strobe t0 t1 t2 : Int) (trip : BitVec 16) :
    s.trainEnd n (.done tx strobe t0 t1 t2 trip) = s.trainDone n tx strobe t0 t1 t2 trip := if_neg (by simp [h])

/-- A step of training (R275). -/
theorem State.trainStep_spec {s : State} (h : s.Inv) (n : Nat) (hts : s.tstate n = 1) :
    let k := s.rf (aLn n 0x14) 4 3
    ∃ j, Passed s (s.trainStep n) n k j ∧
      ((s.trainStep n).rf (aLn n 0x14) 4 3 = k ∨ ((s.trainStep n).rf (aLn n 0x14) 4 3 = k + 1 ∧ k < s.trainLast n)) := by
  intro k
  have hused : Passed s s.used n k k := { Passed.refl h n (Nat.le_refl k) with inv := h.used }
  have hstep : s.trainStep n = if s.free.getLsbD 0 && decide (k < s.trainLast n) then s.used.trainNext n else s.used :=
    if_neg (by simp [hts])
  rw [hstep]
  by_cases hc : (s.free.getLsbD 0 && decide (k < s.trainLast n)) = true
  · rw [if_pos hc]
    have hlt : k < s.trainLast n := of_decide_eq_true (Bool.and_eq_true _ _ ▸ hc).2
    have heff : Passed s (s.used.trainEffect n k) n k (k + 1) := hused.effect
    refine ⟨k + 1, heff.status (by decide) 3 (k + 1), .inr ⟨(State.rf_wf_self heff.inv.regs _ _ (by decide)).trans ?_, hlt⟩⟩
    have hlast := s.trainLast_lt n
    have hk8 : k + 1 < 2 ^ 3 := by omega
    exact Nat.mod_eq_of_lt hk8
  · rw [if_neg hc]
    exact ⟨k, hused, .inl rfl⟩

/-- A correction opportunity (R280 to R282). -/
theorem State.correct_none {s : State} {n now : Nat} (h : s.tstate n ≠ 2 ∨ now - (s.lane n).applied < s.rf (aLn n 0x20) 16 12) :
    s.correct n now = s := by
  refine if_pos ?_
  rcases h with h | h
  · simp [h]
  · simp [h]

theorem State.correct_one {s : State} {n now w : Nat} {d : Int} (ho : s.opportunity n = true) (hb : s.bit (aLn n 0x20) 0 = true)
    (ht : s.tstate n = 2) (hm : s.rf (aLn n 0x20) 16 12 ≤ now - (s.lane n).applied) (hw : s.wanted n = [(w, d)]) :
    let q := s.adjust n w d
    s.correct n now = if q.2 then q.1.setLane n { q.1.lane n with applied := now } else q.1 := by
  intro q
  unfold State.correct
  dsimp only
  rw [if_neg (by simp [ho, hb, ht, hm]), hw]
  simp only [List.foldl_cons, List.foldl_nil, Bool.false_or]
  rfl

theorem trimGoal_within {lim : Nat} {x : Int} (h : x.natAbs ≤ lim) : trimGoal lim x = x := if_neg (by omega)

theorem trimGoal_beyond {lim : Nat} {x : Int} (h : lim < x.natAbs) : trimGoal lim x = if x < 0 then -(lim : Int) else lim := if_pos h

/-- Settles O45: training by the steps that a partial run has passed, correction by what a trim may become. -/
theorem laneTraining : Obligations.LaneTraining := by
  unfold Obligations.LaneTraining
  refine ⟨?_, ?_, ?_, ?_, ?_, ?_⟩
  · intro s n v s1 t hs
    have hexec : ∀ {u}, (s.mgmtIn (aLn n.val 0x10) true).trainWrite n.val v = u → exec (.train n v) s = .next u := fun hu =>
      congrArg Host.Outcome.next ((State.mgmtDo_awake hs _ _ _).trans hu)
    refine ⟨fun hv => hexec (if_neg (hv ▸ Bool.false_ne_true)), fun hv hc => hexec ?_, fun hv hc hu => hexec ?_,
      fun _ hl => State.trainCode_unlocked hl⟩
    · exact (if_pos hv).trans (State.trainGo_refused hc)
    · exact (if_pos hv).trans (State.trainGo_accepted hc hu)
  · intro s n r hinv t
    refine ⟨rfl, fun hts => State.trainEnd_idle hts r, ?_⟩
    intro k
    refine ⟨fun step hr _ hstep => ?_, fun step hr hts h3 hk hl => ?_, fun tx strobe t0 t1 t2 trip hr hts => ?_⟩
    · exact (congrArg (s.trainEnd n.val) hr).trans (State.trainEnd_ignored hstep)
    · have ht : t = s.trainFail n.val step.toNat := (congrArg (s.trainEnd n.val) hr).trans (State.trainEnd_fail hts h3 hk hl)
      obtain ⟨hts', hat, hcode, hflag, htx, hrx, htrim, hctle, hset, htaps, htrims⟩ :=
        State.trainFail_spec hinv (n := n.val) step.isLt
      rw [ht]
      refine ⟨hts', hat, ?_, hflag, htx, hrx, fun h2 => htrim h2 (by omega), hctle, hset, htaps, fun h6 h7 => htrims h6 (by omega)⟩
      have h3' : (step.toNat = 3) = (step = 3) := propext (BitVec.toNat_inj (y := (3 : BitVec 3)))
      have h7' : (step.toNat = 7) = (step = 7) := propext (BitVec.toNat_inj (y := (7 : BitVec 3)))
      rw [hcode, stepCode_eq h3 step.isLt]
      simp only [h3', h7']
      split_ifs <;> rfl
    · have ht : t = s.trainDone n.val tx strobe t0 t1 t2 trip := (congrArg (s.trainEnd n.val) hr).trans (State.trainEnd_done hts ..)
      obtain ⟨hts', hat, htrim, htx, hrx, htrip, hfull, hshort⟩ := State.trainDone_spec hinv n.val tx strobe t0 t1 t2 trip
      rw [ht]
      refine ⟨hts', hat, htrim, htx, fun h0 => ?_, fun h0 hb => htrip (State.trainLast_rtrip h0 hb), fun h0 => ?_, fun h0 => ?_⟩
      · have hlast := State.trainLast_src h0
        obtain ⟨hc, htr⟩ := hfull hlast
        exact ⟨hc, htr, hrx.trans (if_pos (by omega))⟩
      · obtain ⟨h8, hC, -, -⟩ := hshort (State.trainLast_src0 h0)
        exact ⟨h8, hC⟩
      · have hlast := State.trainLast_src0 h0
        obtain ⟨-, -, h34, h38⟩ := hshort hlast
        exact ⟨hrx.trans (if_neg (by omega)), h34, h38⟩
  · intro s n k t hinv
    refine ⟨fun hts => if_pos (bne_iff_ne.mpr hts), fun hts => ?_⟩
    obtain ⟨j, hp, hstep⟩ := State.trainStep_spec hinv n.val hts
    exact ⟨hp.tstate.trans hts, hstep, hp.rd, hp.mem, hp.tx, hp.rx, hp.others⟩
  · intro s n
    refine ⟨fun e => rfl, fun hb => congrArg Host.Outcome.next (if_pos hb),
      fun hb => congrArg Host.Outcome.next (if_neg (hb ▸ Bool.false_ne_true)), fun r hs ht => congrArg Host.Outcome.next ?_,
      fun r hs ht => congrArg Host.Outcome.next ?_⟩
    · exact (if_neg (hs ▸ Bool.false_ne_true)).trans (if_pos ht)
    · exact (if_neg (hs ▸ Bool.false_ne_true)).trans (if_neg (Nat.not_lt.mpr ht))
  · intro s n now
    refine ⟨fun h => congrArg Host.Outcome.next (State.correct_none h), fun w d ho hb ht hm hw => ?_⟩
    exact congrArg Host.Outcome.next (State.correct_one ho hb ht hm hw)
  · intro s n w d hinv x lim hlim hd
    obtain ⟨hgoal, halarm⟩ := State.adjust_spec hinv w.isLt hlim hd
    exact ⟨fun hle => hgoal.trans (trimGoal_within hle), fun hlt => ⟨hgoal.trans (trimGoal_beyond hlt), halarm hlt⟩⟩

end Sys2Proof.Machine
end

section

/-! Eye scans, PRBS checkers, boundary scan and contacts: the statement (O46). -/

namespace Sys2Proof.Machine

/- PRBS (R274) ------------------------------------------------------------------------------------------------------------ -/

/-- A checker that counts (R274). -/
theorem State.prbsCount_spec {s : State} (h : s.Inv) {n : Nat} (hc : s.checks n = true) (hl : s.bit (aLn n 0x14) 12 = true)
    (bits errors : Nat) :
    let t := s.prbsCount n bits errors
    t.Inv ∧ t = { s with regs := t.regs, lanes := t.lanes } ∧ (t.lane n).bits = ((s.lane n).bits + bits) % 2 ^ 48 ∧
    (t.rd (aLn n 0x64)).toNat = min ((s.rd (aLn n 0x64)).toNat + errors) 0xFFFFFFFF := by
  intro t
  obtain ⟨m, hm⟩ : ∃ m, m = min ((s.rd (aLn n 0x64)).toNat + errors) 0xFFFFFFFF := ⟨_, rfl⟩
  obtain ⟨v, hv⟩ : ∃ v : LnSt, v = { s.lane n with bits := ((s.lane n).bits + bits) % 2 ^ 48 } := ⟨_, rfl⟩
  have ht : t = (s.wr (aLn n 0x64) (BitVec.ofNat 32 m)).setLane n v := by
    rw [hm, hv]
    exact if_pos (by rw [hc, hl]; rfl)
  have hwr := h.wr (aLn n 0x64) (BitVec.ofNat 32 m)
  have hself := State.rd_wr_self h.regs (aLn n 0x64) (BitVec.ofNat 32 m)
  have hmod : (BitVec.ofNat 32 m).toNat = m := by
    rw [BitVec.toNat_ofNat]
    omega
  rw [ht, ← hm]
  generalize BitVec.ofNat 32 m = w at hwr hself hmod ⊢
  refine ⟨hwr.setLane n v, rfl, ?_, ?_⟩
  · rw [State.lane_setLane_self hwr, hv]
  · exact (congrArg BitVec.toNat ((State.rd_congr (State.setLane_regs _ _ _) _).trans hself)).trans hmod

/-- Lock is lost (R274). -/
theorem State.prbsLost_spec {s : State} (h : s.Inv) {n : Nat} (hc : s.checks n = true) (hl : s.bit (aLn n 0x14) 12 = true)
    (bits errors : Nat) :
    let t := s.prbsLost n bits errors
    t.bit (aLn n 0x14) 12 = false ∧ t.bit (aLn n 0x50) 4 = true ∧
    (t.rd (aLn n 0x64)).toNat = min ((s.rd (aLn n 0x64)).toNat + errors) 0xFFFFFFFF ∧
    (t.lane n).bits = ((s.lane n).bits + bits) % 2 ^ 48 ∧ t.mem = s.mem ∧ t.px = s.px := by
  intro t
  have ht : t = ((s.prbsCount n bits errors).clrB (aLn n 0x14) 12).setB (aLn n 0x50) 4 := if_pos (by rw [hc, hl]; rfl)
  obtain ⟨hinv, hframe, hbits, hrd⟩ := State.prbsCount_spec h hc hl bits errors
  rw [ht]
  generalize s.prbsCount n bits errors = u at hinv hframe hbits hrd ⊢
  have hclr := hinv.clrB (aLn n 0x14) 12
  refine ⟨?_, State.bit_setB_self hclr.regs _ (by decide), ?_, hbits, ?_, ?_⟩
  · exact (State.bit_wr_ne _ _ (aLn_inj (by decide))).trans (State.bit_clrB_self hinv.regs _ (by decide))
  · refine Eq.trans ?_ hrd
    exact congrArg BitVec.toNat ((State.rd_wf_ne (aLn_inj (by decide))).trans (State.rd_wf_ne (aLn_inj (by decide))))
  · rw [hframe]
    rfl
  · rw [hframe]
    rfl

/-- PRBS_CLEAR (R274). -/
theorem State.prbsClear_spec {s : State} (h : s.Inv) (n : Nat) :
    let t := s.prbsClear n
    (t.lane n).bits = 0 ∧ t.rd (aLn n 0x64) = 0 ∧
    (∀ a, a ≠ aLn n 0x64 → a ≠ aLn n 0x68 → a ≠ aLn n 0x6C → t.rd a = s.rd a) ∧ t.mem = s.mem := by
  intro t
  obtain ⟨u, hu⟩ : ∃ u, u = ((s.wr (aLn n 0x64) 0).wr (aLn n 0x68) 0).wr (aLn n 0x6C) 0 := ⟨_, rfl⟩
  have hinv : u.Inv := hu ▸ (((h.wr _ _).wr _ _).wr _ _)
  obtain ⟨v, hv⟩ : ∃ v : LnSt, v = { s.lane n with bits := 0 } := ⟨_, rfl⟩
  have hlane : t = u.setLane n v := by
    rw [hu, hv]
    rfl
  have hrd : ∀ a, t.rd a = u.rd a := fun a => hlane ▸ State.rd_congr (State.setLane_regs _ _ _) a
  have hmem : u.mem = s.mem := hu ▸ rfl
  refine ⟨by rw [hlane, State.lane_setLane_self hinv, hv], ?_, fun a h64 h68 h6C => ?_, by rw [hlane, State.setLane_mem, hmem]⟩
  · rw [hrd, hu, State.rd_wr_ne (aLn_inj (by decide)), State.rd_wr_ne (aLn_inj (by decide)), State.rd_wr_self h.regs]
  · rw [hrd, hu, State.rd_wr_ne h6C, State.rd_wr_ne h68, State.rd_wr_ne h64]

/-- A read of PRBS_BITS_LO (R274). -/
theorem State.prbsBitsRead_spec {s : State} (h : s.Inv) (n : Nat) (hb : (s.lane n).bits < 2 ^ 48) :
    let t := s.prbsBitsRead n
    t.busOut = BitVec.ofNat 32 (s.lane n).bits ∧ t.rd (aLn n 0x6C) = BitVec.ofNat 32 ((s.lane n).bits / 2 ^ 32) ∧
    t.lanes = s.lanes := by
  intro t
  obtain ⟨c, hc⟩ : ∃ c, c = (s.lane n).bits := ⟨_, rfl⟩
  have hhi : c / 2 ^ 32 % 2 ^ 16 = c / 2 ^ 32 := by
    rw [← hc] at hb
    omega
  obtain ⟨lo, hlo⟩ : ∃ lo, lo = BitVec.ofNat 32 c := ⟨_, rfl⟩
  obtain ⟨hi, hhi'⟩ : ∃ hi, hi = BitVec.ofNat 32 (c / 2 ^ 32) := ⟨_, rfl⟩
  have ht : t = { (s.wr (aLn n 0x68) lo).wr (aLn n 0x6C) hi with busOut := lo } := by
    rw [hlo, hhi', ← hhi, hc]
    rfl
  rw [ht, ← hc, ← hlo, ← hhi']
  exact ⟨rfl, State.rd_wr_self (h.wr _ _).regs _ _, rfl⟩

/- Boundary scan (R291) --------------------------------------------------------------------------------------------------- -/

/-- Lanes that have been given back (R291). -/
def State.Back (s : State) (n : Nat) : Prop := s.tstate n = 0 ∧ s.rd (aLn n 0x30) = 0

theorem aLn_ne {n k : Nat} (h : n ≠ k) {o o' : Nat} (ho : o < 0x1000) (ho' : o' < 0x1000) : aLn n o ≠ aLn k o' := by
  unfold aLn
  omega

/-- A lane that becomes untrained is given back, and stays so while others do (R291). -/
theorem State.untrain_back {s : State} (h : s.Inv) (n k : Nat) (hk : k = n ∨ s.Back k) : (s.untrain n).Back k := by
  obtain ⟨u, hu⟩ : ∃ u, u = ((s.wr (aLn n 0x30) 0).wr (aLn n 0x34) 0).wr (aLn n 0x38) 0 := ⟨_, rfl⟩
  have hinv : u.Inv := hu ▸ (((h.wr _ _).wr _ _).wr _ _)
  have hun : s.untrain n = (u.wf (aLn n 0x14) 0 2 0).freePartner n := by
    rw [hu]
    rfl
  have hrd : ∀ a, (s.untrain n).rd a = (u.wf (aLn n 0x14) 0 2 0).rd a := fun a => by
    rw [hun]
    exact State.rd_congr (s := u.wf (aLn n 0x14) 0 2 0) rfl a
  by_cases hkn : k = n
  · subst hkn
    refine ⟨?_, ?_⟩
    · rw [State.tstate, State.rf_of_rd (hrd _), State.rf_wf_self hinv.regs _ _ (by decide), Nat.zero_mod]
    · rw [hrd, State.rd_wf_ne (aLn_inj (by decide)), hu, State.rd_wr_ne (aLn_inj (by decide)), State.rd_wr_ne (aLn_inj (by decide)),
        State.rd_wr_self h.regs]
  · obtain ⟨hts, htrim⟩ := hk.resolve_left hkn
    have hoff : ∀ {o}, o < 0x1000 → (s.untrain n).rd (aLn k o) = s.rd (aLn k o) := fun ho => by
      rw [hrd, State.rd_wf_ne (aLn_ne hkn ho (by decide)), hu, State.rd_wr_ne (aLn_ne hkn ho (by decide)),
        State.rd_wr_ne (aLn_ne hkn ho (by decide)), State.rd_wr_ne (aLn_ne hkn ho (by decide))]
    exact ⟨(State.rf_of_rd (hoff (by decide)) 0 2).trans hts, (hoff (by decide)).trans htrim⟩

theorem State.untrainAll_back (l : List Nat) {s : State} (h : s.Inv) (k : Nat) (hk : k ∈ l ∨ s.Back k) :
    (l.foldl State.untrain s).Back k := by
  induction l generalizing s with
  | nil =>
    rcases hk with hk | hk
    · exact absurd hk List.not_mem_nil
    · exact hk
  | cons n l ih =>
    have hinv := (LaneOnly.untrain h n).inv
    have hback := State.untrain_back h n k
    rw [List.foldl_cons]
    generalize s.untrain n = u at hinv hback ⊢
    refine ih hinv ?_
    rcases hk with hk | hk
    · exact (List.mem_cons.mp hk).elim (fun hkn => .inr (hback (.inl hkn))) .inl
    · exact .inr (hback (.inr hk))

/-- The driver of every lane of a group stands in electrical idle; other groups are as they were. -/
theorem State.idleLanes_ei {s : State} (h : s.Inv) (g k : Nat) (hk : k = g ∨ (s.pgs k).ei = Vector.replicate 8 true) :
    ((s.idleLanes g).pgs k).ei = Vector.replicate 8 true := by
  obtain ⟨p, hp⟩ : ∃ p : PgSt, p = { s.pgs g with
    den := Vector.replicate 8 true, ei := Vector.replicate 8 true, fmt := [], fmt1 := [], out := [] } := ⟨_, rfl⟩
  have ht : s.idleLanes g = (List.range 8).foldl (fun t l => t.setDriver g l true) (s.setPg g p) := by
    rw [hp]
    rfl
  have hlane := LaneOnly.foldl (f := fun t l => t.setDriver g l true) (fun t l hi => LaneOnly.wr hi (8 * g + l) 0x14 _) (List.range 8)
    (h.setPg g p)
  rw [ht, State.pgs_congr (s := s.setPg g p) (by rw [hlane.frame])]
  by_cases hkg : k = g
  · rw [hkg, State.pgs_setPg_self h, hp]
  · exact (congrArg PgSt.ei (spGet_spSet_ne _ _ hkg)).trans (hk.resolve_left hkg)

theorem State.idleAll_spec (l : List Nat) {s : State} (h : s.Inv) :
    (l.foldl State.idleLanes s).Inv ∧ (l.foldl State.idleLanes s).mem = s.mem ∧ (l.foldl State.idleLanes s).tap = s.tap ∧
    ∀ k, k ∈ l ∨ (s.pgs k).ei = Vector.replicate 8 true → ((l.foldl State.idleLanes s).pgs k).ei = Vector.replicate 8 true := by
  induction l generalizing s with
  | nil =>
    refine ⟨h, rfl, rfl, fun k hk => ?_⟩
    rcases hk with hk | hk
    · exact absurd hk List.not_mem_nil
    · exact hk
  | cons g l ih =>
    obtain ⟨hinv, hframe, -, -, -⟩ := State.idleLanes_spec h g
    have hmem : (s.idleLanes g).mem = s.mem := by rw [hframe]
    have htap : (s.idleLanes g).tap = s.tap := by rw [hframe]
    have hback := State.idleLanes_ei h g
    rw [List.foldl_cons]
    generalize s.idleLanes g = u at hinv hmem htap hback ⊢
    obtain ⟨hinv', hmem', htap', hei⟩ := ih hinv
    refine ⟨hinv', hmem'.trans hmem, htap'.trans htap, fun k hk => hei k ?_⟩
    rcases hk with hk | hk
    · exact (List.mem_cons.mp hk).elim (fun hkg => .inr (hback k (.inl hkg))) .inl
    · exact .inr (hback k (.inr hk))

/-- An instruction that leaves an EXTEST gives every lane back (R291). -/
theorem State.lanesBack_spec {s : State} (h : s.Inv) :
    let t := s.lanesBack
    t.mem = s.mem ∧ t.tap = s.tap ∧ (∀ n : Fin 64, t.Back n.val) ∧ ∀ g : Fin 8, (t.pgs g.val).ei = Vector.replicate 8 true := by
  intro t
  obtain ⟨hinv, hmem, htap, hei⟩ := State.idleAll_spec (List.range 8) h
  have ht : t = (List.range 64).foldl State.untrain ((List.range 8).foldl State.idleLanes s) := rfl
  rw [ht]
  generalize (List.range 8).foldl State.idleLanes s = u at hinv hmem htap hei ⊢
  have hlane := LaneOnly.foldl (f := State.untrain) (fun t n hi => LaneOnly.untrain hi n) (List.range 64) hinv
  refine ⟨?_, ?_, fun n => State.untrainAll_back _ hinv _ (.inl (List.mem_range.mpr n.isLt)), fun g => ?_⟩
  · rw [hlane.frame]
    exact hmem
  · rw [hlane.frame]
    exact htap
  · rw [State.pgs_congr (s := u) (by rw [hlane.frame])]
    exact hei _ (.inl (List.mem_range.mpr g.isLt))

/-- With no EXTEST in force, an instruction that is none touches the test access port alone (R291). -/
theorem State.tapLoad_stays {s : State} (he : s.extest = false) {i : ScanInstr} (hi : handsOver i = false) :
    s.tapLoad i = { s with tap := { s.tap with instr := i } } := by
  unfold State.tapLoad
  rw [hi, he]
  rfl

/-- TCK edges with no EXTEST in force touch the test access port alone, and keep the cells (R291). -/
theorem State.tapEdge_stays {s : State} (he : s.extest = false) (b : Bool) :
    ∃ p : Tap, s.tapEdge b = { s with tap := p } ∧ handsOver p.instr = false ∧ p.cells = s.tap.cells := by
  obtain ⟨p, hp⟩ : ∃ p : Tap, p = { s.tap with st := s.tap.st.next b } := ⟨_, rfl⟩
  have hcells : p.cells = s.tap.cells := hp ▸ rfl
  have hinstr : handsOver p.instr = false := hp ▸ he
  have hedge : s.tapEdge b = if s.tap.st.next b = .testLogicReset then State.tapLoad { s with tap := p } .idcode
      else { s with tap := p } := by
    rw [hp]
    rfl
  by_cases hr : s.tap.st.next b = .testLogicReset
  · exact ⟨{ p with instr := .idcode }, hedge.trans ((if_pos hr).trans (State.tapLoad_stays (s := { s with tap := p }) hinstr rfl)), rfl,
      hcells⟩
  · exact ⟨p, hedge.trans (if_neg hr), hinstr, hcells⟩

theorem State.tapEdges_stay (l : List Bool) {s : State} (he : s.extest = false) :
    ∃ p : Tap, l.foldl State.tapEdge s = { s with tap := p } ∧ handsOver p.instr = false ∧ p.cells = s.tap.cells := by
  induction l generalizing s with
  | nil => exact ⟨s.tap, rfl, he, rfl⟩
  | cons b l ih =>
    obtain ⟨p, hp, hinstr, hcells⟩ := State.tapEdge_stays he b
    obtain ⟨p', hp', hinstr', hcells'⟩ := ih (s := { s with tap := p }) hinstr
    refine ⟨p', ?_, hinstr', hcells'.trans hcells⟩
    rw [List.foldl_cons, hp, hp']

/-- The instruction of a test access port after the update of its cells. -/
theorem Tap.meets_spec (l : List (Fin 64 × Int × Int)) (t : Tap) : (l.foldl Tap.meet t).cells = t.cells ∧
    (l.foldl Tap.meet t).instr = t.instr := by
  induction l generalizing t with
  | nil => exact ⟨rfl, rfl⟩
  | cons x l ih => exact ⟨(ih _).1, (ih _).2⟩

theorem Tap.update_instr (t : Tap) (d : ScanData) : (t.update d).instr = t.instr := (Tap.meets_spec d.seen _).2

theorem Tap.update_cells (t : Tap) (d : ScanData) :
    (t.update d).cells = if t.instr = .bypass ∨ t.instr = .idcode then t.cells else d.cells := (Tap.meets_spec d.seen _).1

/-- An instruction other than an EXTEST comes into force (R291). -/
theorem State.scan_other {s u : State} {i : ScanInstr} (hi : handsOver i = false) (d : ScanData)
    (hu : s.tapLoad i = u) (htap : u.tap = { s.tap with instr := i }) :
    ∃ p : Tap, s.scan i d = { u with tap := p } ∧ handsOver p.instr = false ∧
      p.cells = if i = .bypass ∨ i = .idcode then s.tap.cells else d.cells := by
  obtain ⟨q, hq⟩ : ∃ q, q = u.tap.update d := ⟨_, rfl⟩
  have hinstr : handsOver q.instr = false := by rwa [hq, Tap.update_instr, htap]
  obtain ⟨p, hp, hpi, hpc⟩ := State.tapEdges_stay d.tms (s := { u with tap := q }) hinstr
  refine ⟨p, ?_, hpi, hpc.trans ?_⟩
  · rw [State.scan, hu, ← hq, hp]
  · change q.cells = _
    rw [hq, Tap.update_cells, htap]

theorem handsOver_otherInstr (k : OtherScan) : handsOver (otherInstr k) = false := by cases k <;> rfl

theorem handsOver_extestInstr (k : ExtestKind) : handsOver (extestInstr k) = true := by cases k <;> rfl

theorem State.extestExit_leaves {s : State} (h : s.Inv) (he : s.extest = true) (k : OtherScan) (d : ScanData) :
    let t := s.scan (otherInstr k) d
    t.extest = false ∧ t.mem = s.mem ∧ (∀ n : Fin 64, t.Back n.val) ∧ ∀ g : Fin 8, (t.pgs g.val).ei = Vector.replicate 8 true := by
  have hinv : State.Inv { s with tap := { s.tap with instr := otherInstr k } } := { h with }
  obtain ⟨hmem, htap, hback, hei⟩ := State.lanesBack_spec hinv
  obtain ⟨u, hu⟩ : ∃ u, u = State.lanesBack { s with tap := { s.tap with instr := otherInstr k } } := ⟨_, rfl⟩
  rw [← hu] at hmem htap hback hei
  have hload : s.tapLoad (otherInstr k) = u := by
    unfold State.tapLoad
    rw [handsOver_otherInstr, he, hu]
    rfl
  obtain ⟨p, hp, hinstr, -⟩ := State.scan_other (handsOver_otherInstr k) d hload htap
  intro t
  have ht : t = { u with tap := p } := hp
  rw [ht]
  exact ⟨hinstr, hmem, hback, hei⟩

theorem State.extestExit_stays {s : State} (he : s.extest = false) (k : OtherScan) (d : ScanData) :
    ∃ p : Tap, s.scan (otherInstr k) d = { s with tap := p } ∧ handsOver p.instr = false ∧
      p.cells = if k = .samplePreload then d.cells else s.tap.cells := by
  obtain ⟨p, hp, hinstr, hcells⟩ := State.scan_other (handsOver_otherInstr k) d (State.tapLoad_stays he (handsOver_otherInstr k)) rfl
  refine ⟨p, hp, hinstr, hcells.trans ?_⟩
  cases k <;> rfl

/-- An EXTEST instruction comes into force (R291). -/
theorem State.scan_extest (s : State) (k : ExtestKind) (d : ScanData) : s.scan (extestInstr k) d =
    d.tms.foldl State.tapEdge { s.stopAll with tap := { s.tap with instr := extestInstr k }.update d } := by
  obtain ⟨u, hu⟩ : ∃ u, u = s.stopAll := ⟨_, rfl⟩
  have hload : s.tapLoad (extestInstr k) = { u with tap := { s.tap with instr := extestInstr k } } := by
    unfold State.tapLoad
    rw [handsOver_extestInstr, hu, Bool.not_true, Bool.and_false]
    rfl
  rw [State.scan, hload, ← hu]

/- Test receivers and contacts (R266 to R268, R509) ------------------------------------------------------------------------ -/

theorem testRx_ac (old : Bool) (v0 v : Int) :
    (150 ≤ v - v0 → testRx true old v0 v = true) ∧ (v - v0 ≤ -150 → testRx true old v0 v = false) := by
  have hd : Config.testRx true % 150 < 150 := Nat.mod_lt _ (by decide)
  obtain ⟨d, hd'⟩ : ∃ d : Int, d = 150 - (Config.testRx true % 150 : Nat) := ⟨_, rfl⟩
  have htest : testRx true old v0 v = if d ≤ v - v0 then true else if v - v0 ≤ -d then false else old := hd' ▸ rfl
  refine ⟨fun h => htest.trans (if_pos (by omega)), fun h => htest.trans ?_⟩
  rw [if_neg (by omega), if_pos (by omega)]

theorem testRx_dc (old : Bool) (v0 v : Int) :
    (50 < v → testRx false old v0 v = true) ∧ (v < -50 → testRx false old v0 v = false) ∧
    (-25 ≤ v → v ≤ 25 → testRx false old v0 v = old) := by
  have hh : Config.testRx false % 51 < 51 := Nat.mod_lt _ (by decide)
  obtain ⟨h, hh'⟩ : ∃ h : Int, h = 50 + (Config.testRx false % 51 : Nat) := ⟨_, rfl⟩
  have htest : testRx false old v0 v = if h < 2 * v then true else if 2 * v < -h then false else old := hh' ▸ rfl
  refine ⟨fun hv => htest.trans (if_pos (by omega)), fun hv => htest.trans ?_, fun hlo hhi => htest.trans ?_⟩
  · rw [if_neg (by omega), if_pos (by omega)]
  · rw [if_neg (by omega), if_neg (by omega)]

section
variable {s : State} {n : Nat} {tx : W32} {a u b : UiOut} (hp : s.power ≠ .off)
include hp

theorem State.contactOf_boundary (he : s.extest = true) : s.contactOf n tx a u b = .boundary s.tap.instr (s.tap.cells.getLsbD n) := by
  unfold State.contactOf
  rw [if_neg hp, if_pos he]

variable (he : s.extest = false)
include he

theorem State.contactOf_idle (hi : u.idle = true) : s.contactOf n tx a u b = .idle := by
  unfold State.contactOf
  rw [if_neg hp, he, if_neg Bool.false_ne_true, if_pos hi]

theorem State.contactOf_on (hi : u.idle = false) (ho : u.on = true) :
    s.contactOf n tx a u b = .level (s.symVolt n tx a.sym u.sym b.sym) := by
  unfold State.contactOf
  rw [if_neg hp, he, if_neg Bool.false_ne_true, hi, if_neg Bool.false_ne_true, if_pos ho]

theorem State.contactOf_off (hi : u.idle = false) (ho : u.on = false) :
    s.contactOf n tx a u b = .off (s.rf (aLn n 0) 4 2 % 3) (min 10 (s.rf (aLn n 0) 8 4)) := by
  unfold State.contactOf
  rw [if_neg hp, he, if_neg Bool.false_ne_true, hi, if_neg Bool.false_ne_true, ho, if_neg Bool.false_ne_true]

end

theorem State.tdoPin_sent {s : State} (hp : s.power ≠ .off) : s.tdoPin = .sent () ↔ s.tap.st = .shiftDr ∨ s.tap.st = .shiftIr := by
  unfold State.tdoPin
  rw [if_neg hp]
  cases s.tap.st <;> simp

/-- Settles O46: each command by its equation, EXTEST exits by the lanes they give back, receivers by their thresholds. -/
theorem laneMonitors : Obligations.LaneMonitors := by
  unfold Obligations.LaneMonitors
  refine ⟨?_, ?_, ?_, ?_, ?_⟩
  · intro s n
    refine ⟨fun v hs hv => ?_, fun v hs hv => ?_, fun e hs => ?_, fun hc => congrArg Host.Outcome.next (if_pos hc),
      fun hc => congrArg Host.Outcome.next (if_neg (hc ▸ Bool.false_ne_true)), fun bits errors hc hl hinv =>
        ⟨_, rfl, State.prbsLost_spec hinv hc hl bits errors⟩, fun bits errors hl => congrArg Host.Outcome.next (if_neg (by simp [hl])),
      fun hs hinv => ?_, fun bits errors hs hinv hc hl => ?_⟩
    · exact congrArg Host.Outcome.next ((State.mgmtDo_awake hs _ _ _).trans (if_neg (hv ▸ Bool.false_ne_true)))
    · exact congrArg Host.Outcome.next ((State.mgmtDo_awake hs _ _ _).trans (if_pos hv))
    · exact congrArg (fun t : State => Host.Outcome.next t.poll) (if_pos hs)
    · have hin := hinv.mgmtIn (aLn n.val 0x70) true
      obtain ⟨hbits, herr, hrd, hmem⟩ := State.prbsClear_spec hin n.val
      exact ⟨_, congrArg Host.Outcome.next (State.mgmtDo_awake hs _ _ _), hbits, herr,
        fun a h64 h68 h6C => (hrd a h64 h68 h6C).trans (State.rd_congr (State.mgmtIn_regs _ _ _) a), hmem.trans (State.mgmtIn_mem _ _ _)⟩
    · obtain ⟨hcinv, hframe, hbits, -⟩ := State.prbsCount_spec hinv hc hl bits errors
      have hsl : (s.prbsCount n.val bits errors).sleeping = false := by
        rw [hframe]
        exact hs
      have hexec := State.mgmtDo_awake hsl (aLn n.val 0x68) none fun s => s.prbsBitsRead n.val
      have hin := hcinv.mgmtIn (aLn n.val 0x68) false
      have hlane : ((s.prbsCount n.val bits errors).mgmtIn (aLn n.val 0x68) false).lane n.val =
          (s.prbsCount n.val bits errors).lane n.val := rfl
      rw [← hlane] at hbits
      have hlt : (((s.prbsCount n.val bits errors).mgmtIn (aLn n.val 0x68) false).lane n.val).bits < 2 ^ 48 := by
        rw [hbits]
        exact Nat.mod_lt _ (by decide)
      obtain ⟨hout, hhi, hlanes⟩ := State.prbsBitsRead_spec hin n.val hlt
      rw [hbits] at hout hhi
      exact ⟨_, congrArg Host.Outcome.next hexec, hout, hhi,
        (congrArg (fun l => (spGet (fun _ => LnSt.init) l n.val).bits) hlanes).trans hbits⟩
  · intro s d
    refine ⟨fun k => ?_, fun k he hinv => ?_, fun k he => ?_⟩
    · exact congrArg Host.Outcome.next (State.scan_extest s k d)
    · obtain ⟨hext, hmem, hback, hei⟩ := State.extestExit_leaves hinv he k d
      exact ⟨_, rfl, hext, hmem, hback, hei⟩
    · obtain ⟨p, hp, hinstr, hcells⟩ := State.extestExit_stays he k d
      refine ⟨{ s with tap := p }, congrArg Host.Outcome.next hp, hinstr, rfl, fun hk => hcells.trans (if_pos hk), fun hk => hcells.trans (if_neg hk)⟩
  · intro old v0 v
    obtain ⟨hup, hdown⟩ := testRx_ac old v0 v
    exact ⟨hup, hdown, testRx_dc old v0 v⟩
  · intro s n tx a u b hp w pre post swing
    refine ⟨State.contactOf_boundary hp, State.contactOf_idle hp, fun he hi ho hb => ?_, fun he hi ho hb => ?_, fun he hi ho => ?_⟩
    · rw [State.contactOf_on hp he hi ho]
      exact congrArg Contact.level (if_neg (hb ▸ Bool.false_ne_true))
    · rw [State.contactOf_on hp he hi ho]
      exact congrArg Contact.level (if_pos hb)
    · rw [State.contactOf_off hp he hi ho]
      have hlt : s.rf (aLn n.val 0) 4 2 < 4 := Nat.mod_lt _ (by decide)
      refine congrArg (Contact.off · _) ?_
      split <;> omega
  · intro s
    refine ⟨fun hp => ⟨if_pos hp, if_pos hp, if_pos hp, fun n tx a u b => if_pos hp⟩, fun hp => ⟨if_neg hp, if_neg hp, State.tdoPin_sent hp⟩⟩

end Sys2Proof.Machine
end

section

/-! Sync words and joint starts: the statement (O47). -/

namespace Sys2Proof.Machine

/- The parity of a word (R288) ----------------------------------------------------------------------------------------------- -/

theorem onesIn_succ (v n : Nat) : onesIn v (n + 1) = v % 2 + onesIn (v / 2) n := by
  have hstep : ∀ i, v / 2 ^ (i + 1) = v / 2 / 2 ^ i := fun i => by rw [Nat.pow_succ', Nat.div_div_eq_div_mul]
  unfold onesIn
  rw [List.range_succ_eq_map, List.filter_cons, List.filter_map, Nat.pow_zero, Nat.div_one]
  have hfun : ((fun i => v / 2 ^ i % 2 == 1) ∘ Nat.succ) = fun i => v / 2 / 2 ^ i % 2 == 1 := funext fun i => by
    rw [Function.comp, Nat.succ_eq_add_one, hstep]
  rw [hfun]
  rcases Nat.mod_two_eq_zero_or_one v with h | h
  · rw [h, if_neg (by decide), List.length_map, Nat.zero_add]
  · rw [h, if_pos (by decide), List.length_cons, List.length_map, Nat.add_comm]

/-- The bit below an even number counts by itself. -/
theorem onesIn_even_add {k b : Nat} (hb : b < 2) (n : Nat) : onesIn (2 * k + b) (n + 1) = b + onesIn k n := by
  rw [onesIn_succ, show (2 * k + b) % 2 = b by omega, show (2 * k + b) / 2 = k by omega]

theorem syncWordOf_toNat {code arg : Nat} (hc : code < 16) (ha : arg < 128) :
    ∃ b < 2, (syncWordOf code arg).toNat = 2 * (0x5800 + code * 2 ^ 7 + arg) + b ∧
      b = onesIn (0x5800 + code * 2 ^ 7 + arg) 15 % 2 := by
  have hw : 0xB000 + code % 16 * 2 ^ 8 + arg % 128 * 2 = 2 * (0x5800 + code * 2 ^ 7 + arg) + 0 := by
    rw [Nat.mod_eq_of_lt hc, Nat.mod_eq_of_lt ha]
    ring
  refine ⟨onesIn (0x5800 + code * 2 ^ 7 + arg) 15 % 2, Nat.mod_lt _ (by decide), ?_, rfl⟩
  unfold syncWordOf
  dsimp only
  rw [hw, onesIn_even_add (by decide), Nat.zero_add, BitVec.toNat_ofNat]
  have hb : onesIn (0x5800 + code * 2 ^ 7 + arg) 15 % 2 < 2 := Nat.mod_lt _ (by decide)
  generalize onesIn (0x5800 + code * 2 ^ 7 + arg) 15 % 2 = b at hb ⊢
  exact Nat.mod_eq_of_lt (by omega)

/-- A word that is sent has even parity and carries its code and argument (R288). -/
theorem syncWordOf_spec {code arg : Nat} (hc : code < 16) (ha : arg < 128) :
    ones16 (syncWordOf code arg) % 2 = 0 ∧ (syncWordOf code arg).toNat / 2 ^ 12 = 0xB ∧
    (syncWordOf code arg).toNat / 2 ^ 8 % 16 = code ∧ (syncWordOf code arg).toNat / 2 % 128 = arg := by
  obtain ⟨b, hb, hw, hpar⟩ := syncWordOf_toNat hc ha
  have hones : ones16 (syncWordOf code arg) = b + onesIn (0x5800 + code * 2 ^ 7 + arg) 15 := by
    rw [ones16, hw, onesIn_even_add hb]
  rw [hones, hw]
  exact ⟨by omega, by omega, by omega, by omega⟩

/- Words that act (R288, R289) ------------------------------------------------------------------------------------------------ -/

theorem State.syncAct_front {s : State} {k : BitVec 4} {l : List (BitVec 4)} (h : s.syncq = k :: l) :
    s.syncAct k = some { s with syncq := l } := by
  unfold State.syncAct
  rw [h]
  exact if_pos rfl

theorem State.syncAct_empty {s : State} (h : s.syncq = []) (k : BitVec 4) : s.syncAct k = none := by
  unfold State.syncAct
  rw [h]

theorem State.pgs_setPg_ne (s : State) {g k : Nat} (hk : k ≠ g) (v : PgSt) : (s.setPg g v).pgs k = s.pgs k := spGet_spSet_ne _ _ hk

/-- A frame clock that starts touches its group, lanes and expanders (R262). -/
theorem State.clockStart_frame {s : State} (h : s.Inv) (g : Nat) :
    (s.clockStart g).Inv ∧ (s.clockStart g).mem = s.mem ∧ (s.clockStart g).syncq = s.syncq ∧
    ∀ k, k ≠ g → (s.clockStart g).pgs k = s.pgs k := by
  have h₀ := State.handOver_spec h g
  have hmem₀ : (s.handOver g).mem = s.mem := by rw [h₀.frame]
  have hsyncq₀ : (s.handOver g).syncq = s.syncq := by rw [h₀.frame]
  have hothers := h₀.others
  have hinv₀ := h₀.inv
  rw [State.clockStart_eq]
  generalize s.handOver g = x at hmem₀ hsyncq₀ hothers hinv₀ ⊢
  have hrest := Clocked.clockRest (hinv₀.setPg g (x.pgs g).begun) g
  have hpgs : ∀ k, k ≠ g → (x.setPg g (x.pgs g).begun).pgs k = x.pgs k := fun k hk => State.pgs_setPg_ne x hk _
  have hmem := State.setPg_mem x g (x.pgs g).begun
  have hsyncq : (x.setPg g (x.pgs g).begun).syncq = x.syncq := State.setPg_syncq _ _ _
  generalize x.setPg g (x.pgs g).begun = y at hrest hpgs hmem hsyncq ⊢
  exact ⟨hrest.inv, hrest.mem.trans (hmem.trans hmem₀), hrest.syncq.trans (hsyncq.trans hsyncq₀),
    fun k hk => (State.pgs_congr hrest.pg k).trans ((hpgs k hk).trans (hothers k hk))⟩

/-- A locked group restarts its frame clock (R288). -/
def State.restart (s : State) (g : Nat) : State := (s.setB (aSyn (0x18 + 0x10 * g)) 2).clockStart g

/-- A group that has restarted. -/
def State.Restarted (s : State) (g : Nat) : Prop :=
  (s.pgs g).started = 1 ∧ (s.pgs g).run = true ∧ s.bit (aSyn (0x18 + 0x10 * g)) 2 = true

theorem State.restart_spec {s : State} (h : s.Inv) {g : Nat} (hg : g < 8) :
    (s.restart g).Inv ∧ (s.restart g).mem = s.mem ∧ (s.restart g).syncq = s.syncq ∧ (s.restart g).Restarted g ∧
    (∀ k, k ≠ g → (s.restart g).pgs k = s.pgs k) ∧ ∀ k < 8, k ≠ g → s.Restarted k → (s.restart g).Restarted k := by
  have hset := h.setB (aSyn (0x18 + 0x10 * g)) 2
  have hbit := State.bit_setB_self h.regs (aSyn (0x18 + 0x10 * g)) (i := 2) (by decide)
  have hrd : ∀ k, k ≠ g → (s.setB (aSyn (0x18 + 0x10 * g)) 2).rd (aSyn (0x18 + 0x10 * k)) = s.rd (aSyn (0x18 + 0x10 * k)) :=
    fun k hk => State.rd_wf_ne (by unfold aSyn; omega)
  have hpgs : ∀ k, (s.setB (aSyn (0x18 + 0x10 * g)) 2).pgs k = s.pgs k := fun _ => rfl
  have hmem : (s.setB (aSyn (0x18 + 0x10 * g)) 2).mem = s.mem := rfl
  have hsyncq : (s.setB (aSyn (0x18 + 0x10 * g)) 2).syncq = s.syncq := rfl
  unfold State.restart
  generalize s.setB (aSyn (0x18 + 0x10 * g)) 2 = u at hset hbit hrd hpgs hmem hsyncq ⊢
  obtain ⟨hrun, hstarted, hsync⟩ := State.clockStart_spec hset g
  obtain ⟨hinv, hmem', hsyncq', hothers⟩ := State.clockStart_frame hset g
  have hkeep : ∀ k < 8, (u.clockStart g).bit (aSyn (0x18 + 0x10 * k)) 2 = u.bit (aSyn (0x18 + 0x10 * k)) 2 := fun k hk =>
    State.bit_of_rd (hsync _ (by unfold aSyn; omega) (by unfold aSyn; omega)) 2
  refine ⟨hinv, hmem'.trans hmem, hsyncq'.trans hsyncq, ⟨hstarted, hrun, (hkeep g hg).trans hbit⟩,
    fun k hk => (hothers k hk).trans (hpgs k), fun k hk8 hk hr => ?_⟩
  obtain ⟨hs1, hr1, hb1⟩ := hr
  have hp : (u.clockStart g).pgs k = s.pgs k := (hothers k hk).trans (hpgs k)
  exact ⟨(congrArg PgSt.started hp).trans hs1, (congrArg PgSt.run hp).trans hr1,
    (hkeep k hk8).trans ((State.bit_of_rd (hrd k hk) 2).trans hb1)⟩

/-- Groups that restart one after the other (R288). -/
theorem State.restarts_spec (l : List Nat) {s : State} (h : s.Inv) (hl : ∀ g ∈ l, g < 8) :
    (l.foldl State.restart s).mem = s.mem ∧ (l.foldl State.restart s).syncq = s.syncq ∧
    (∀ k < 8, k ∈ l ∨ s.Restarted k → (l.foldl State.restart s).Restarted k) ∧
    ∀ k, k ∉ l → (l.foldl State.restart s).pgs k = s.pgs k := by
  induction l generalizing s with
  | nil =>
    refine ⟨rfl, rfl, fun k _ hk => ?_, fun _ _ => rfl⟩
    rcases hk with hk | hk
    · exact absurd hk List.not_mem_nil
    · exact hk
  | cons g l ih =>
    obtain ⟨hinv, hmem, hsyncq, hself, hothers, hkeep⟩ := State.restart_spec h (hl g List.mem_cons_self)
    rw [List.foldl_cons]
    generalize s.restart g = u at hinv hmem hsyncq hself hothers hkeep ⊢
    obtain ⟨hmem', hsyncq', hdone, hrest⟩ := ih hinv fun k hk => hl k (List.mem_cons_of_mem g hk)
    refine ⟨hmem'.trans hmem, hsyncq'.trans hsyncq, fun k hk8 hk => hdone k hk8 ?_, fun k hk => ?_⟩
    · by_cases hkg : k = g
      · exact .inr (hkg ▸ hself)
      · exact hk.imp (fun hm => (List.mem_cons.mp hm).resolve_left hkg) (hkeep k hk8 hkg)
    · obtain ⟨hkg, hkl⟩ := List.ne_and_not_mem_of_not_mem_cons hk
      exact (hrest k hkl).trans (hothers k hkg)

/-- A word that arrives (R288). -/
theorem State.syncIn_eq {s : State} (hj : s.joined = true) (w : BitVec 16) :
    let code := w.toNat / 2 ^ 8 % 16
    let s1 := (s.wf (aSyn 0x108) 0 4 code).wf (aSyn 0x108) 8 7 (w.toNat / 2 % 128)
    s.syncIn w = if w.toNat / 2 ^ 12 != 0xB || ones16 w % 2 != 0 then s.setB (aSyn 0x110) 0
      else if code != 1 && code != 2 && code != 3 then s.setB (aSyn 0x110) 1
      else { s1 with syncq := s1.syncq ++ [BitVec.ofNat 4 code] } := if_neg (by rw [hj]; decide)

theorem State.leaderStart_sends {s : State} (h2 : s.rf (aSyn 0x100) 0 2 = 2) (hj : s.joined = true) (hp : s.startPending = true)
    (hs : s.startSent = false) :
    s.leaderStart true = { s.setB (aSyn 0x108) 16 with
      syncOut := some (syncWordOf 2 s.startSeq.toNat), startSeq := s.startSeq + 1, startSent := true } :=
  if_pos (by rw [h2, hj, hp, hs]; rfl)

/-- Settles O47: each command by its equation, an EPOCH group by group, and the words sent by their parity. -/
theorem synchronization : Obligations.Synchronization := by
  unfold Obligations.Synchronization
  refine ⟨?_, ?_, ?_, fun code arg hc ha => syncWordOf_spec hc ha⟩
  · intro s w code
    refine ⟨fun hj => congrArg Host.Outcome.next (if_pos (by rw [hj]; rfl)), fun hj hw => congrArg Host.Outcome.next ?_,
      fun hj htop hpar hcode => congrArg Host.Outcome.next ?_, fun hj htop hpar hlo hhi hinv => ?_⟩
    · rw [State.syncIn_eq hj]
      exact if_pos (by simpa using hw)
    · rw [State.syncIn_eq hj, if_neg (by rw [htop, hpar]; decide)]
      exact if_pos (by simp only [Bool.and_eq_true, bne_iff_ne]; omega)
    · have heq : s.syncIn w = { (s.wf (aSyn 0x108) 0 4 code).wf (aSyn 0x108) 8 7 (w.toNat / 2 % 128) with
          syncq := s.syncq ++ [BitVec.ofNat 4 code] } := by
        rw [State.syncIn_eq hj, if_neg (by rw [htop, hpar]; decide)]
        exact if_neg (by simp only [Bool.and_eq_true, bne_iff_ne]; omega)
      have hwf := hinv.wf (aSyn 0x108) 0 4 code
      refine ⟨_, congrArg Host.Outcome.next heq, rfl, ?_, ?_, fun a ha => ?_⟩
      · refine (State.rf_wf_disjoint hwf.regs _ _ (.inl (by decide))).trans ((State.rf_wf_self hinv.regs _ _ (by decide)).trans ?_)
        exact Nat.mod_eq_of_lt (Nat.mod_lt _ (by decide))
      · refine (State.rf_wf_self hwf.regs _ _ (by decide)).trans ?_
        exact Nat.mod_eq_of_lt (Nat.mod_lt _ (by decide))
      · exact (State.rd_wf_ne ha).trans (State.rd_wf_ne ha)
  · intro s l s1
    have hepoch : s.syncq = 1 :: l → exec .epoch s = .next s1.epochStart := fun hq => by
      refine congrArg Host.Outcome.next ?_
      unfold State.epochAct
      rw [State.syncAct_front hq]
    have hstart : s.syncq = 2 :: l → exec .startWord s = .next (if s1.startPending then
        ({ s1.startNow with startSent := false }.clrB (aSyn 0x108) 17).post rkOther none 12 0 else s1.setB (aSyn 0x110) 1).poll := fun hq => by
      refine congrArg (fun t : State => Host.Outcome.next t.poll) ?_
      unfold State.startAct
      rw [State.syncAct_front hq]
    refine ⟨fun hq hbusy => (hepoch hq).trans (congrArg Host.Outcome.next (if_pos ?_)), fun hq hidle hinv => ?_,
      fun hq hp => (hstart hq).trans ?_, fun hq hp => (hstart hq).trans ?_, fun hq => ?_, fun hq => ⟨?_, ?_, ?_⟩⟩
    · obtain ⟨n, hn⟩ := hbusy
      exact List.any_eq_true.mpr ⟨n.val, List.mem_range.mpr n.isLt, bne_iff_ne.mpr hn⟩
    · have hnone : ¬((List.range 16).any fun n => s1.pxState n != 0) = true := fun hc => by
        obtain ⟨n, hn, hne⟩ := List.any_eq_true.mp hc
        exact bne_iff_ne.mp hne (hidle ⟨n, List.mem_range.mp hn⟩)
      have hs1 : s1.Inv := { hinv with }
      obtain ⟨hmem, hsyncq, hdone, hrest⟩ := State.restarts_spec ((List.range 8).filter s1.pgLocked) hs1
        fun g hg => List.mem_range.mp (List.mem_of_mem_filter hg)
      refine ⟨_, (hepoch hq).trans (congrArg Host.Outcome.next (if_neg hnone)), hsyncq, fun g hg => ?_, fun g hg => ?_, hmem⟩
      · exact hdone g.val g.isLt (.inl (List.mem_filter.mpr ⟨List.mem_range.mpr g.isLt, hg⟩))
      · exact hrest g.val fun hm => Bool.false_ne_true (hg.symm.trans (List.of_mem_filter hm))
    · rw [if_neg (hp ▸ Bool.false_ne_true)]
    · rw [if_pos hp]
    · refine congrArg Host.Outcome.next ?_
      unfold State.stopAct
      rw [State.syncAct_front hq]
    · refine congrArg Host.Outcome.next ?_
      unfold State.epochAct
      rw [State.syncAct_empty hq]
    · refine congrArg (fun t : State => Host.Outcome.next t.poll) ?_
      unfold State.startAct
      rw [State.syncAct_empty hq]
    · refine congrArg Host.Outcome.next ?_
      unfold State.stopAct
      rw [State.syncAct_empty hq]
  · intro s
    have hsend : ∀ code arg, s.rf (aSyn 0x100) 0 2 = 2 → code = 1 ∨ code = 3 →
        (s.mgmtIn (aSyn 0x104) true).syncSend code arg = { s.mgmtIn (aSyn 0x104) true with syncOut := some (syncWordOf code arg) } :=
      fun code arg h2 hcode => (if_neg (by
        rw [State.rf_of_rd (s := s) (State.rd_congr (State.mgmtIn_regs _ _ _) _), h2]
        decide)).trans (if_pos hcode)
    have hrefuse : ∀ code arg, s.rf (aSyn 0x100) 0 2 ≠ 2 →
        (s.mgmtIn (aSyn 0x104) true).syncSend code arg = (s.mgmtIn (aSyn 0x104) true).flag (aSyn 0x110) 7 :=
      fun code arg h2 => if_pos (by
        rw [State.rf_of_rd (s := s) (State.rd_congr (State.mgmtIn_regs _ _ _) _)]
        exact bne_iff_ne.mpr h2)
    refine ⟨fun arg hs h2 => ⟨?_, ?_⟩, fun arg hs h2 => ⟨?_, ?_⟩, fun h2 hj hp hsent => congrArg Host.Outcome.next
      (State.leaderStart_sends h2 hj hp hsent), rfl, fun hr hj ht => congrArg Host.Outcome.next (if_pos ?_),
      fun hr => congrArg Host.Outcome.next (if_neg (by rw [hr]; exact Bool.false_ne_true))⟩
    · exact congrArg Host.Outcome.next ((State.mgmtDo_awake hs _ _ _).trans (hsend 1 _ h2 (.inl rfl)))
    · exact congrArg Host.Outcome.next ((State.mgmtDo_awake hs _ _ _).trans (hsend 3 _ h2 (.inr rfl)))
    · exact congrArg Host.Outcome.next ((State.mgmtDo_awake hs _ _ _).trans (hrefuse 1 _ h2))
    · exact congrArg Host.Outcome.next ((State.mgmtDo_awake hs _ _ _).trans (hrefuse 3 _ h2))
    · rw [hr, hj]
      exact bne_iff_ne.mpr ht

end Sys2Proof.Machine
end

section

/-! SUPPORT. Owners, accesses and retention of the banks (O48). -/

namespace Sys2Proof.Machine

/- Register addresses of a bank ------------------------------------------------------------------------------------------------ -/

theorem regFields_bnk {b o : Nat} (hb : b < 48) (ho : o < 0x400) (h4 : o % 4 = 0) : regFields (aBnk b o) = tabFind tabBnk o := by
  have hlo : 0x80000 ≤ aBnk b o := by unfold aBnk; omega
  have hhi : aBnk b o < 0x8C000 := by unfold aBnk; omega
  have hal : aBnk b o % 4 = 0 := by unfold aBnk; omega
  have hdiv : (aBnk b o - 0x80000) / 0x400 = b := by unfold aBnk; omega
  have hmod : (aBnk b o - 0x80000) % 0x400 = o := by unfold aBnk; omega
  generalize aBnk b o = a at hlo hhi hal hdiv hmod
  unfold regFields tabRep
  rw [if_neg (by omega), if_neg (by omega), if_neg (by omega), if_neg (by omega), if_neg (by omega), if_neg (by omega),
    if_neg (by omega), if_neg (by omega), if_neg (by omega), if_neg (by omega), if_pos hhi, hdiv, hmod, if_pos hb]

theorem State.unitWrite_bnk {s : State} {b o : Nat} (hb : b < 48) (ho : o < 0x400) (g : Agent) (v : W32) :
    s.unitWrite g (aBnk b o) v = s.bnkWrite g b o v := by
  have hlo : 0x80000 ≤ aBnk b o := by unfold aBnk; omega
  have hhi : aBnk b o < 0x8C000 := by unfold aBnk; omega
  have hdiv : (aBnk b o - 0x80000) / 0x400 = b := by unfold aBnk; omega
  have hmod : aBnk b o % 0x400 = o := by unfold aBnk; omega
  generalize aBnk b o = a at hlo hhi hdiv hmod
  unfold State.unitWrite
  rw [if_neg (by omega), if_neg (by omega), if_neg (by omega), if_neg (by omega), if_neg (by omega), if_neg (by omega), if_pos hhi,
    hdiv, hmod]

/-- A write of OWNER through a bridge (R333). -/
theorem State.writeReg_owner {s : State} {b : Nat} (hb : b < 48) (g : Agent) (v : W32) :
    s.writeReg g (aBnk b 0) v = s.ownerBus b g v := by
  have hal : aBnk b 0 % 4 = 0 := by unfold aBnk; omega
  have hlt : aBnk b 0 < 0x8C000 := by unfold aBnk; omega
  have hfields : regFields (aBnk b 0) ≠ [] := by
    rw [regFields_bnk hb (by decide) (by decide)]
    exact List.cons_ne_nil _ _
  unfold State.writeReg
  rw [if_neg (by omega), if_neg hfields, State.unitWrite_bnk hb (by decide)]
  exact if_pos rfl

/- Owners (R332 to R334) ------------------------------------------------------------------------------------------------------- -/

theorem State.ownerWrite_taken {s : State} {b : Nat} {a : Agent} {v : W32} (hw : s.bankWriter b a = true)
    (hc : ownerCode (field v 0 8) = true) (hb : s.bit (aBnk b 8) 4 = false) :
    s.ownerWrite b a v = (s.setBank b { s.bank b with next := some (BitVec.ofNat 8 (field v 0 8)) }).setB (aBnk b 8) 4 :=
  if_neg (by rw [hw, hc, hb]; decide)

theorem State.ownerWrite_refused {s : State} {b : Nat} {a : Agent} {v : W32}
    (h : s.bankWriter b a = false ∨ ownerCode (field v 0 8) = false ∨ s.bit (aBnk b 8) 4 = true) :
    s.ownerWrite b a v = s.flag (aBnk b 0xC) 2 := if_pos (by rcases h with h | h | h <;> simp [h])

theorem State.ownerUndo_fresh {s : State} {b : Nat} (h : (s.busCycle 0).own = []) : s.ownerUndo b = s := by
  unfold State.ownerUndo
  rw [h]
  rfl

/-- The first write of OWNER in a PCLK cycle (R332 to R334). -/
theorem State.ownerBus_fresh {s : State} {b : Nat} (h : (s.busCycle 0).own = []) (a : Agent) (v : W32) :
    ∃ k, s.ownerBus b a v = { s.ownerWrite b a v with bus := k } := by
  unfold State.ownerBus
  rw [State.ownerUndo_fresh h]
  exact ⟨_, rfl⟩

theorem State.bridgeWrite_owner {s : State} {b : Nat} (hb : b < 48) (hbus : s.bus = []) (a : Agent) (v : W32) :
    ∃ j k, s.bridgeWrite a (aBnk b 0) v = { State.ownerWrite { s with bus := j } b a v with bus := k } := by
  have hlow : busOf (aBnk b 0) = 0 := if_pos (by unfold aBnk; omega)
  have hown : ((s.busEnter (aBnk b 0) (busInput a) (some (readMask (regFields (aBnk b 0)) (s.regView (aBnk b 0))))).busCycle 0).own =
      [] := by
    unfold State.busEnter State.setBus State.busCycle
    rw [hlow, hbus]
    rfl
  unfold State.bridgeWrite
  rw [State.writeReg_owner hb]
  obtain ⟨k, hk⟩ := State.ownerBus_fresh hown a v
  exact ⟨_, k, hk⟩

/-- What an earlier OWNER write of the cycle did is taken back (R333). -/
structure Undone (s t : State) (b : Nat) (asked : Bool) : Prop where
  inv : t.Inv
  writer : ∀ a, t.bankWriter b a = s.bankWriter b a
  free : t.bit (aBnk b 8) 4 = false
  next : asked = true → (t.bank b).next = none
  unrefused : asked = false → t.bit (aBnk b 0xC) 2 = false

theorem State.bankWriter_congr {s t : State} {b : Nat} (h0 : t.rd (aBnk b 0) = s.rd (aBnk b 0)) (h4 : t.rd (aBnk b 4) = s.rd (aBnk b 4))
    (a : Agent) : t.bankWriter b a = s.bankWriter b a := by
  have howner : t.owner b = s.owner b := State.rf_of_rd h0 0 8
  have hsteward : t.rf (aBnk b 4) 8 4 = s.rf (aBnk b 4) 8 4 := State.rf_of_rd h4 8 4
  unfold State.bankWriter
  rw [howner, hsteward]

theorem State.bank_setBank_self {s : State} (h : s.Inv) (b : Nat) (v : BankSt) : (s.setBank b v).bank b = v :=
  spGet_spSet_self h.banks _ _

theorem aBnk_inj {b o o' : Nat} (h : o ≠ o') : aBnk b o ≠ aBnk b o' := by unfold aBnk; omega

theorem State.ownerUndo_spec {s : State} (h : s.Inv) {b : Nat} {asked : Bool}
    (hown : (s.busCycle 0).own.find? (fun p => p.1 == b) = some (b, asked)) (hb : asked = true ∨ s.bit (aBnk b 8) 4 = false) :
    Undone s (s.ownerUndo b) b asked := by
  have hinv := (State.ownerUndo_keeps (.refl s) b).inv h
  cases asked with
  | true =>
    have hun : s.ownerUndo b = (s.setBank b { s.bank b with next := none }).clrB (aBnk b 8) 4 := by
      unfold State.ownerUndo
      rw [hown]
    have hset := (State.setBank_keeps (.refl s) b { s.bank b with next := none }).inv h
    have hself := State.bank_setBank_self h b { s.bank b with next := none }
    have hregs : (s.setBank b { s.bank b with next := none }).regs = s.regs := rfl
    rw [hun] at hinv ⊢
    generalize s.setBank b { s.bank b with next := none } = u at hinv hset hself hregs ⊢
    have hrd : ∀ o, o ≠ 8 → (u.clrB (aBnk b 8) 4).rd (aBnk b o) = s.rd (aBnk b o) := fun o ho =>
      (State.rd_wf_ne (aBnk_inj ho)).trans (State.rd_congr hregs _)
    exact ⟨hinv, State.bankWriter_congr (hrd 0 (by decide)) (hrd 4 (by decide)), State.bit_clrB_self hset.regs _ (by decide),
      fun _ => congrArg BankSt.next hself, fun hc => absurd hc (by decide)⟩
  | false =>
    have hun : s.ownerUndo b = (s.clrB (aBnk b 0xC) 2).unflag (aBnk b 0xC) 2 := by
      unfold State.ownerUndo
      rw [hown]
    have hregs : (s.ownerUndo b).regs = (s.clrB (aBnk b 0xC) 2).regs := by
      rw [hun]
      rfl
    have hrd : ∀ o, o ≠ 0xC → (s.ownerUndo b).rd (aBnk b o) = s.rd (aBnk b o) := fun o ho =>
      (State.rd_congr hregs _).trans (State.rd_wf_ne (aBnk_inj ho))
    exact ⟨hinv, State.bankWriter_congr (hrd 0 (by decide)) (hrd 4 (by decide)),
      (State.bit_of_rd (hrd 8 (by decide)) 4).trans (hb.resolve_left (by decide)), fun hc => absurd hc (by decide),
      fun _ => (State.bit_congr hregs _ _).trans (State.bit_clrB_self h.regs _ (by decide))⟩

/-- Of several OWNER writes in a PCLK cycle the last is judged alone (R333). -/
theorem State.ownerBus_spec {s : State} (h : s.Inv) {b : Nat} {asked : Bool}
    (hown : (s.busCycle 0).own.find? (fun p => p.1 == b) = some (b, asked)) (hb : asked = true ∨ s.bit (aBnk b 8) 4 = false)
    (a : Agent) (v : W32) :
    let c := field v 0 8
    let t := s.ownerBus b a v
    (s.bankWriter b a = true → ownerCode c = true →
      (t.bank b).next = some (BitVec.ofNat 8 c) ∧ t.bit (aBnk b 8) 4 = true ∧ (asked = false → t.bit (aBnk b 0xC) 2 = false)) ∧
    (s.bankWriter b a = false ∨ ownerCode c = false →
      (asked = true → (t.bank b).next = none) ∧ t.bit (aBnk b 8) 4 = false ∧ t.bit (aBnk b 0xC) 2 = true) := by
  intro c t
  have hu := State.ownerUndo_spec h hown hb
  have ht : ∃ k, t = { (s.ownerUndo b).ownerWrite b a v with bus := k } := ⟨_, rfl⟩
  generalize s.ownerUndo b = u at hu ht
  obtain ⟨k, ht⟩ := ht
  have hbit : ∀ o i, t.bit (aBnk b o) i = (u.ownerWrite b a v).bit (aBnk b o) i := fun o i => by rw [ht]; rfl
  have hbank : t.bank b = (u.ownerWrite b a v).bank b := by rw [ht]; rfl
  refine ⟨fun hw hc => ?_, fun hr => ?_⟩
  · have htaken := State.ownerWrite_taken (v := v) ((hu.writer a).trans hw) hc hu.free
    have hset := (State.setBank_keeps (.refl u) b { u.bank b with next := some (BitVec.ofNat 8 c) }).inv hu.inv
    have hself := State.bank_setBank_self hu.inv b { u.bank b with next := some (BitVec.ofNat 8 c) }
    have hregs : (u.setBank b { u.bank b with next := some (BitVec.ofNat 8 c) }).regs = u.regs := rfl
    rw [hbit, hbit, hbank, htaken]
    generalize u.setBank b _ = x at hset hself hregs ⊢
    exact ⟨congrArg BankSt.next hself, State.bit_setB_self hset.regs _ (by decide), fun ha =>
      (State.bit_wr_ne _ _ (aBnk_inj (by decide))).trans ((State.bit_congr hregs _ _).trans (hu.unrefused ha))⟩
  · have hrefused := State.ownerWrite_refused (v := v) (b := b) (a := a) (s := u)
      (hr.imp (fun hw => (hu.writer a).trans hw) .inl)
    rw [hbit, hbit, hbank, hrefused]
    refine ⟨fun ha => hu.next ha, ?_, ?_⟩
    · exact (State.bit_congr (State.flag_regs _ _ _) _ _).trans ((State.bit_wr_ne _ _ (aBnk_inj (by decide))).trans hu.free)
    · exact (State.bit_congr (State.flag_regs _ _ _) _ _).trans (State.bit_setB_self hu.inv.regs _ (by decide))

theorem admits_eq {c m : Nat} (h1 : m ≠ 0x41) (h2 : m ≠ 0x42) : admits c m = decide (c = m ∨ (c = 0x10 ∧ m = 0x40)) := by
  rw [Bool.eq_iff_iff]
  simp [admits, h1, h2]

/- Errors of accesses (R327, R328, R331) --------------------------------------------------------------------------------------- -/

theorem State.bankErr_spec {s : State} (h : s.Inv) (b m o : Nat) (w : Bool) {kind : Nat} (hk : kind ≤ 2) :
    let t := s.bankErr b m o w kind
    t.bit (aBnk b 0xC) (if kind = 2 then 4 else kind) = true ∧ t.mem = s.mem ∧
    (s.rf (aBnk b 0xC) 0 2 ≠ 0 ∨ s.bit (aBnk b 0xC) 4 = true → t.rd (aBnk b 0x10) = s.rd (aBnk b 0x10)) ∧
    (s.rf (aBnk b 0xC) 0 2 = 0 → s.bit (aBnk b 0xC) 4 = false → t.rd (aBnk b 0x10) = BitVec.ofNat 32 (o % 2 ^ 22 + 2 ^ 31)) := by
  intro t
  obtain ⟨v, hv⟩ : ∃ v : W32, v = BitVec.ofNat 32 (o % 2 ^ 22 + 2 ^ 31) := ⟨_, rfl⟩
  obtain ⟨x, hx⟩ : ∃ x : W32, x = BitVec.ofNat 32 (m % 256 + kind * 2 ^ 8 + w.toNat * 2 ^ 12) := ⟨_, rfl⟩
  obtain ⟨i, hi⟩ : ∃ i, i = if kind = 2 then 4 else kind := ⟨_, rfl⟩
  have hi32 : i < 32 := by
    rw [hi]
    split <;> omega
  obtain ⟨s1, hs1⟩ : ∃ s1, s1 = if s.rf (aBnk b 0xC) 0 2 = 0 && !s.bit (aBnk b 0xC) 4 then
      (s.wr (aBnk b 0x10) v).wr (aBnk b 0x14) x else s := ⟨_, rfl⟩
  have ht : t = s1.setB (aBnk b 0xC) i := by
    rw [hs1, hi, hv, hx]
    rfl
  have hs1inv : s1.Inv := by
    rw [hs1]
    split
    · exact (h.wr _ _).wr _ _
    · exact h
  have hmem : s1.mem = s.mem := by
    rw [hs1]
    split <;> rfl
  have hrd : t.rd (aBnk b 0x10) = s1.rd (aBnk b 0x10) := ht ▸ State.rd_wf_ne (aBnk_inj (by decide))
  rw [← hi, ← hv, hrd]
  refine ⟨ht ▸ State.bit_setB_self hs1inv.regs _ hi32, ?_, fun hc => ?_, fun h0 h4 => ?_⟩
  · rw [ht]
    exact hmem
  · rw [hs1, if_neg]
    rcases hc with hc | hc <;> simp [hc]
  · rw [hs1, if_pos (by simp [h0, h4]), State.rd_wr_ne (aBnk_inj (by decide)), State.rd_wr_self h.regs]

/- Accesses (R327, R328, R344) -------------------------------------------------------------------------------------------------- -/

/-- What a byte becomes under an aliased write (R327). -/
def aliasByte (al : Alias) (old v : Byte) : Byte :=
  match al with
  | .normal => v
  | .set => old ||| v
  | .clear => old &&& ~~~v

theorem State.aliasWrite_cons (s : State) (al : Alias) (key : Nat) (v : Byte) (l : List Byte) :
    s.aliasWrite al key (v :: l) = (s.setByte key (aliasByte al (s.byte key) v)).aliasWrite al (key + 1) l := by cases al <;> rfl

theorem State.aliasWrite_spec (al : Alias) (l : List Byte) {s : State} (h : s.Inv) (key : Nat) :
    (∀ i < l.length, (s.aliasWrite al key l).byte (key + i) = aliasByte al (s.byte (key + i)) (l.getD i 0)) ∧
    (∀ a, a < key ∨ key + l.length ≤ a → (s.aliasWrite al key l).byte a = s.byte a) := by
  induction l generalizing s key with
  | nil => exact ⟨fun i hi => absurd hi (Nat.not_lt_zero i), fun _ _ => rfl⟩
  | cons v l ih =>
    rw [State.aliasWrite_cons]
    have hinv := (State.setByte_keeps (.refl s) key (aliasByte al (s.byte key) v)).inv h
    have hself := State.byte_setByte_self h.mem key (aliasByte al (s.byte key) v)
    have hother : ∀ a, a ≠ key → (s.setByte key (aliasByte al (s.byte key) v)).byte a = s.byte a := fun a ha => State.byte_setByte_ne ha
    generalize s.setByte key (aliasByte al (s.byte key) v) = u at hinv hself hother ⊢
    obtain ⟨hin, hout⟩ := ih hinv (key + 1)
    refine ⟨fun i hi => ?_, fun a ha => ?_⟩
    · cases i with
      | zero => exact (hout key (.inl (Nat.lt_succ_self key))).trans hself
      | succ i =>
        have hstep := hin i (Nat.lt_of_succ_lt_succ hi)
        rwa [hother (key + 1 + i) (by omega), Nat.add_assoc, Nat.add_comm 1 i] at hstep
    · have hlen : (v :: l).length = l.length + 1 := rfl
      rw [hlen] at ha
      rw [hout a (by omega), hother a (by omega)]

/-- The first and the last word of an access, where it covers them in part. -/
def partWords (b o n : Nat) : List Nat :=
  (if o % 8 = 0 then [] else [bankWord b o]) ++ if (o + n) % 8 = 0 then [] else [bankWord b (o + n - 1)]

/-- The words that a write reads are those it covers in part (R328). -/
theorem mem_readWords {b o n k : Nat} (hn : 0 < n) : k ∈ readWords b o n .normal true ↔ k ∈ partWords b o n := by
  have hread : k ∈ readWords b o n .normal true ↔
      k ∈ bankWords b o n ∧ (8 * (k - bankWord b 0) < o ∨ o + n < 8 * (k - bankWord b 0) + 8) := by
    unfold readWords
    rw [if_neg (by decide), List.mem_filter, Bool.or_eq_true, decide_eq_true_eq, decide_eq_true_eq]
  have hwords : k ∈ bankWords b o n ↔ ∃ i, i < (o + n - 1) / 8 - o / 8 + 1 ∧ bankWord b o + i = k := by
    unfold bankWords
    rw [List.mem_map]
    exact exists_congr fun i => and_congr_left' List.mem_range
  have hpart : k ∈ partWords b o n ↔ (o % 8 ≠ 0 ∧ k = bankWord b o) ∨ ((o + n) % 8 ≠ 0 ∧ k = bankWord b (o + n - 1)) := by
    unfold partWords
    rw [List.mem_append]
    refine or_congr ?_ ?_ <;> split <;> simp_all
  obtain ⟨w, hw⟩ : ∃ w, w = b * 0x80000 := ⟨_, rfl⟩
  have hword : ∀ x, bankWord b x = w + x / 8 := fun x => by rw [bankWord, hw]
  have hzero : bankWord b 0 = w := by rw [hword, Nat.zero_div, Nat.add_zero]
  rw [hread, hwords, hpart, hzero, hword o, hword (o + n - 1)]
  clear hread hwords hpart hword hzero hw
  have hq : 8 * (o / 8) + o % 8 = o := Nat.div_add_mod o 8
  have hq8 : o % 8 < 8 := Nat.mod_lt _ (by decide)
  have hp : 8 * ((o + n) / 8) + (o + n) % 8 = o + n := Nat.div_add_mod _ 8
  have hp8 : (o + n) % 8 < 8 := Nat.mod_lt _ (by decide)
  have hl : 8 * ((o + n - 1) / 8) + (o + n - 1) % 8 = o + n - 1 := Nat.div_add_mod _ 8
  have hl8 : (o + n - 1) % 8 < 8 := Nat.mod_lt _ (by decide)
  generalize o / 8 = q, o % 8 = q', (o + n) / 8 = p, (o + n) % 8 = p', (o + n - 1) / 8 = r, (o + n - 1) % 8 = r' at *
  constructor
  · rintro ⟨⟨i, hi, rfl⟩, hc | hc⟩
    · exact .inl (by omega)
    · exact .inr (by omega)
  · rintro (⟨h8, rfl⟩ | ⟨h8, rfl⟩)
    · exact ⟨⟨0, by omega, by omega⟩, .inl (by omega)⟩
    · exact ⟨⟨r - q, by omega, by omega⟩, .inr (by omega)⟩

theorem bankWords_ne_nil (b o n : Nat) : bankWords b o n ≠ [] := by
  unfold bankWords
  rw [ne_eq, List.map_eq_nil_iff, List.range_eq_nil]
  omega

/-- Words of which one cannot be read (R328, R344). -/
def State.unreadable (s : State) (ecc : Ecc) (l : List Nat) : Prop := ecc.ue = true ∨ ∃ k ∈ l, s.wordPois k = true

/-- What a write leaves: its bytes, and no word of it poisoned (R344). -/
def State.bankPut (t : State) (b o n : Nat) (al : Alias) (l : List Byte) : State :=
  (bankWords b o n).foldl (fun t k => t.setWordPois k false) (t.aliasWrite al (bankKey b o) l)

section
variable {s : State} {m b o n : Nat} {al : Alias} {w : Option (List Byte)} {ecc : Ecc}

/-- An access that reads no word (R328). -/
theorem State.bankDo_blind {l : List Byte} (h : readWords b o n al true = []) :
    s.bankDo m b o n al (some l) ecc = (s.bankPut b o n al l, .ok) := by
  have hrd : (readWords b o n al (some l).isSome).isEmpty = true := List.isEmpty_iff.mpr h
  unfold State.bankDo
  simp only [hrd, Bool.true_or, if_true, Bool.not_true, Bool.false_and, Bool.false_eq_true, if_false]
  rfl

variable {c : State} (hc : c = if s.inSaveBuffer b o then s else s.bankCe b ecc.ce) (h : readWords b o n al w.isSome ≠ [])
include hc h

/-- An access that reads words (R328, R344). -/
theorem State.bankDo_reads : s.bankDo m b o n al w ecc =
    if ecc.ue || (readWords b o n al w.isSome).any s.wordPois then (c.bankErr b m o w.isSome 2, .err 2)
    else (w.elim c (c.bankPut b o n al), .ok) := by
  have hrd : (readWords b o n al w.isSome).isEmpty = false := by
    rw [List.isEmpty_eq_false_iff]
    exact h
  have hs1 : (if (readWords b o n al w.isSome).isEmpty || s.inSaveBuffer b o then s else s.bankCe b ecc.ce) = c := by
    rw [hrd, Bool.false_or, hc]
  unfold State.bankDo
  dsimp only
  rw [hs1, hrd, Bool.not_false, Bool.true_and]
  cases w <;> rfl

theorem State.bankDo_bad (hb : s.unreadable ecc (readWords b o n al w.isSome)) :
    s.bankDo m b o n al w ecc = (c.bankErr b m o w.isSome 2, .err 2) := by
  rw [State.bankDo_reads hc h, if_pos]
  rcases hb with hb | hb
  · rw [hb, Bool.true_or]
  · rw [List.any_eq_true.mpr hb, Bool.or_true]

theorem State.bankDo_good (hb : ¬ s.unreadable ecc (readWords b o n al w.isSome)) :
    s.bankDo m b o n al w ecc = (w.elim c (c.bankPut b o n al), .ok) := by
  rw [State.bankDo_reads hc h, if_neg]
  rw [Bool.or_eq_true, List.any_eq_true]
  exact hb

end

theorem readWords_read (b o n : Nat) (al : Alias) : readWords b o n al false = bankWords b o n := if_pos rfl

theorem readWords_alias {al : Alias} (h : al ≠ .normal) (b o n : Nat) : readWords b o n al true = bankWords b o n :=
  if_pos (by rw [bne_iff_ne.mpr h]; rfl)

theorem State.unreadable_part {s : State} {ecc : Ecc} {b o n : Nat} (hn : 0 < n) :
    s.unreadable ecc (readWords b o n .normal true) ↔ s.unreadable ecc (partWords b o n) :=
  or_congr_right (exists_congr fun _ => and_congr_left' (mem_readWords hn))

theorem readWords_eq_nil {b o n : Nat} (hn : 0 < n) : readWords b o n .normal true = [] ↔ partWords b o n = [] := by
  simp only [List.eq_nil_iff_forall_not_mem, mem_readWords hn]

end Sys2Proof.Machine
end

section

/-! The banks: the statement (O48). -/

namespace Sys2Proof.Machine

/- Handover and admission (R329, R334) --------------------------------------------------------------------------------------- -/

section
variable {s : State} {b : Nat}

theorem State.handover_ends {n : BitVec 8} (hn : (s.bank b).next = some n)
    (h : n.toNat = s.owner b ∨ (s.bank b).acc.any (·.allow) = false) :
    s.handover b = (((s.setBank b { s.bank b with next := none }).wf (aBnk b 0) 0 8 n.toNat).clrB (aBnk b 8) 4).post rkOther none 14 b := by
  unfold State.handover
  dsimp only
  rw [hn]
  refine if_neg fun hc => ?_
  obtain ⟨hne, hany⟩ := hc
  exact h.elim hne fun hf => Bool.false_ne_true (hf.symm.trans hany)

theorem State.handover_waits {n : BitVec 8} (hn : (s.bank b).next = some n) (hne : n.toNat ≠ s.owner b)
    (h : (s.bank b).acc.any (·.allow) = true) : s.handover b = s := by
  unfold State.handover
  dsimp only
  rw [hn]
  exact if_pos ⟨hne, h⟩

theorem State.handover_none (hn : (s.bank b).next = none) : s.handover b = s := by
  unfold State.handover
  dsimp only
  rw [hn]

variable {m : Nat}

theorem State.admission_always (h : m = 0x41 ∨ m = 0x42) : s.admission b m = some true := if_pos h

theorem State.admission_owner (h1 : m ≠ 0x41) (h2 : m ≠ 0x42) (hn : (s.bank b).next = none) :
    s.admission b m = some (decide (s.owner b = m ∨ (s.owner b = 0x10 ∧ m = 0x40))) := by
  unfold State.admission
  rw [if_neg (not_or.mpr ⟨h1, h2⟩), hn, admits_eq h1 h2]

theorem State.admission_handover {n : BitVec 8} (h1 : m ≠ 0x41) (h2 : m ≠ 0x42) (hn : (s.bank b).next = some n)
    (hne : n.toNat ≠ s.owner b) :
    s.admission b m = if n.toNat = m ∨ (n.toNat = 0x10 ∧ m = 0x40) then none else some false := by
  unfold State.admission
  rw [if_neg (not_or.mpr ⟨h1, h2⟩), hn]
  dsimp only
  rw [if_neg hne, admits_eq h1 h2]
  simp only [decide_eq_true_eq]

/- Delivered accesses (R327, R330, R340, R361) --------------------------------------------------------------------------------- -/

variable {x : BankAcc} {rest : List BankAcc} (hacc : (s.bank b).acc = x :: rest)
include hacc

theorem State.bankServe_behind (ecc : Ecc) (h : s.bankBehind b x = true) : s.bankServe b ecc = s := by
  unfold State.bankServe
  dsimp only
  rw [hacc]
  exact if_pos (by rw [h, Bool.or_true])

theorem State.bankRefuse_behind (h : s.bankBehind b x = true) : s.bankRefuse b = s := by
  unfold State.bankRefuse
  dsimp only
  rw [hacc]
  exact if_pos (by rw [h, Bool.or_true])

theorem State.bankRefuse_allowed (h : x.allow = true) : s.bankRefuse b = s := by
  unfold State.bankRefuse
  dsimp only
  rw [hacc]
  exact if_pos (by rw [h, Bool.true_or])

theorem State.bankRefuse_refused (hb : s.bankBehind b x = false) (h : x.allow = false) :
    s.bankRefuse b = ((s.setBank b { s.bank b with acc := rest }).bankErr b (masterCode x.txn.master) (bankPlace x.txn.addr).2.1
      x.txn.data.isSome 0).answer x.txn (.err 0) := by
  unfold State.bankRefuse
  dsimp only
  rw [hacc]
  exact if_neg (by rw [hb, h]; decide)

variable (hs : s.sleeping = false) (hb : s.bankBehind b x = false) (ha : x.allow = true) (ecc : Ecc)
include hs hb ha

/-- The oldest access has its turn. -/
theorem State.bankServe_turn :
    let s1 := s.setBank b { s.bank b with acc := rest }
    let p := bankPlace x.txn.addr
    let m := masterCode x.txn.master
    let q := if x.asleep then (s1.bankErr b m p.2.1 x.txn.data.isSome 1, .err 1)
      else s1.bankDo m b p.2.1 x.txn.size p.2.2 x.txn.data ecc
    s.bankServe b ecc = if !x.asleep && !s.awake b then s.autoWake b else q.1.answer x.txn q.2 := by
  intro s1 p m q
  unfold State.bankServe
  dsimp only
  rw [hacc]
  exact if_neg (by rw [hs, hb, ha]; decide)

theorem State.bankServe_awake (hx : x.asleep = false) (hw : s.awake b = true) :
    let q := (s.setBank b { s.bank b with acc := rest }).bankDo (masterCode x.txn.master) b (bankPlace x.txn.addr).2.1 x.txn.size
      (bankPlace x.txn.addr).2.2 x.txn.data ecc
    s.bankServe b ecc = q.1.answer x.txn q.2 := by
  intro q
  rw [State.bankServe_turn hacc hs hb ha ecc, hx, hw]
  rfl

theorem State.bankServe_asleep (hx : x.asleep = true) :
    s.bankServe b ecc = ((s.setBank b { s.bank b with acc := rest }).bankErr b (masterCode x.txn.master) (bankPlace x.txn.addr).2.1
      x.txn.data.isSome 1).answer x.txn (.err 1) := by
  rw [State.bankServe_turn hacc hs hb ha ecc, hx]
  rfl

theorem State.bankServe_held (hx : x.asleep = false) (hw : s.awake b = false) : s.bankServe b ecc = s.clrB (aBnk b 4) 0 := by
  rw [State.bankServe_turn hacc hs hb ha ecc, hx, hw]
  rfl

end

/- Arrivals (R340, R341) ------------------------------------------------------------------------------------------------------- -/

/-- An access queued at a bank, in the beats of its transaction. -/
def State.queueAt (s t : State) (x : Txn) (ok asleep : Bool) : State :=
  { t.setBank x.bank { s.bank x.bank with
      acc := (s.bank x.bank).acc ++ x.beats.map fun y => BankAcc.mk y ok asleep s.nextId } with nextId := s.nextId + 1 }

section
variable {s : State} {x : Txn}

theorem State.toBank_eq : s.toBank x =
    let ok := s.admission x.bank (masterCode x.master) == some true
    let held := !s.awake x.bank && (s.bit (aBnk x.bank 4) 1 || s.wakeWanted x.bank)
    s.queueAt (if ok && held then s.autoWake x.bank else s) x ok (ok && !s.awake x.bank && !held) := rfl

theorem State.toBank_refused (h : s.admission x.bank (masterCode x.master) ≠ some true) : s.toBank x = s.queueAt s x false false := by
  have hok : (s.admission x.bank (masterCode x.master) == some true) = false := beq_eq_false_iff_ne.mpr h
  rw [State.toBank_eq, hok]
  rfl

variable (h : s.admission x.bank (masterCode x.master) = some true)
include h

theorem State.toBank_awake (hw : s.awake x.bank = true) : s.toBank x = s.queueAt s x true false := by
  rw [State.toBank_eq, h, hw]
  rfl

theorem State.toBank_held (hw : s.awake x.bank = false) (hk : s.bit (aBnk x.bank 4) 1 = true ∨ s.wakeWanted x.bank = true) :
    s.toBank x = s.queueAt (s.clrB (aBnk x.bank 4) 0) x true false := by
  have hheld : (s.bit (aBnk x.bank 4) 1 || s.wakeWanted x.bank) = true := Bool.or_eq_true _ _ ▸ hk
  rw [State.toBank_eq, h, hw, hheld]
  rfl

theorem State.toBank_asleep (hw : s.awake x.bank = false) (h1 : s.bit (aBnk x.bank 4) 1 = false) (h2 : s.wakeWanted x.bank = false) :
    s.toBank x = s.queueAt s x true true := by
  rw [State.toBank_eq, h, hw, h1, h2]
  rfl

end

/- Retention (R339, R340) ------------------------------------------------------------------------------------------------------ -/

/-- A bank that begins to wake (R339, R340). -/
theorem State.bankWake_spec {s : State} (h : s.Inv) {b : Nat} (hp : s.power_ b = 2)
    (hw : s.bit (aBnk b 4) 0 = false ∨ s.wakeWanted b = true) :
    (s.bankWake b).power_ b = 3 ∧ (s.bankWake b).bit (aBnk b 4) 0 = false ∧ OnlyRegs s (s.bankWake b) [aBnk b 4, aBnk b 8] := by
  obtain ⟨s1, hs1⟩ : ∃ s1, s1 = if s.wakeWanted b then s.autoWake b else s := ⟨_, rfl⟩
  have h1 : s1.Inv ∧ s1.bit (aBnk b 4) 0 = false ∧ s1.power_ b = 2 ∧ s1 = { s with regs := s1.regs } ∧
      ∀ a, a ≠ aBnk b 4 → s1.rd a = s.rd a := by
    by_cases hk : s.wakeWanted b = true
    · rw [if_pos hk] at hs1
      rw [hs1]
      have hrd : ∀ a, a ≠ aBnk b 4 → (s.autoWake b).rd a = s.rd a := fun a ha => State.rd_wf_ne ha
      exact ⟨h.clrB _ _, State.bit_clrB_self h.regs _ (by decide), (State.rf_of_rd (hrd _ (aBnk_inj (by decide))) 0 2).trans hp, rfl, hrd⟩
    · rw [if_neg hk] at hs1
      rw [hs1]
      exact ⟨h, hw.resolve_right hk, hp, rfl, fun _ _ => rfl⟩
  have hwake : s.bankWake b = if s1.power_ b = 2 ∧ s1.bit (aBnk b 4) 0 = false then s1.setPower b 3 else s1 := by
    rw [hs1]
    rfl
  obtain ⟨hinv, hbit, hpow, hframe, hrd⟩ := h1
  rw [if_pos ⟨hpow, hbit⟩] at hwake
  rw [hwake]
  refine ⟨State.rf_wf_self hinv.regs _ _ (by decide), ?_, ?_, fun a ha => ?_⟩
  · exact (State.bit_of_rd (State.rd_wf_ne (aBnk_inj (by decide))) 0).trans hbit
  · unfold State.setPower
    rw [hframe]
    rfl
  · obtain ⟨h4, ha⟩ := List.ne_and_not_mem_of_not_mem_cons ha
    exact (State.rd_wf_ne fun hc => ha (List.mem_singleton.mpr hc)).trans (hrd a h4)

theorem State.bankWake_none {s : State} {b : Nat} (hp : s.power_ b ≠ 2) (hw : s.wakeWanted b = false) : s.bankWake b = s := by
  unfold State.bankWake
  rw [hw, if_neg Bool.false_ne_true]
  exact if_neg fun hc => hp hc.1

/-- Settles O48: each operation by its equation; OWNER writes of one cycle by what the last of them finds. -/
theorem banks : Obligations.Banks := by
  unfold Obligations.Banks
  refine ⟨?_, ?_, ?_, ?_, ?_, ?_, ?_, ?_, ?_, ?_⟩
  · intro s b a v c s' hs
    refine ⟨?_, ?_, fun k => ?_, fun hbus hw hc hb => ?_, fun hbus hr => ?_, rfl, rfl, fun k => ?_⟩
    · exact congrArg Host.Outcome.next (if_neg (hs ▸ Bool.false_ne_true))
    · exact congrArg Host.Outcome.next (State.awakeDo_awake hs fun s => s.bridgeWrite .dma (aBnk b.val 0) v)
    · refine congrArg Host.Outcome.next ((State.awakeDo_awake hs fun s => s.loneWrite k.val (aBnk b.val 0) v).trans (if_neg ?_))
      unfold aBnk
      omega
    · obtain ⟨j, k, hk⟩ := State.bridgeWrite_owner b.isLt hbus a v
      have ht := State.ownerWrite_taken (s := { s with bus := j }) (b := b.val) hw hc hb
      rw [ht] at hk
      have hs' : s' = _ := hk
      rw [hs']
      rfl
    · obtain ⟨j, k, hk⟩ := State.bridgeWrite_owner b.isLt hbus a v
      have ht := State.ownerWrite_refused (s := { s with bus := j }) (b := b.val) (a := a) (v := v) hr
      rw [ht] at hk
      have hs' : s' = _ := hk
      rw [hs']
      rfl
    · simp [State.bankWriter]
  · intro s b a v asked hinv hown hb
    exact State.ownerBus_spec hinv hown hb a v
  · intro s b hs
    have hexec : ∀ {u}, s.handover b.val = u → exec (.handoverComplete b) s = .next u.poll := fun hu =>
      congrArg Host.Outcome.next ((State.awakeDo_awake hs _).trans (congrArg State.poll hu))
    exact ⟨fun n hn h => hexec (State.handover_ends hn h), fun n hn hne h => hexec (State.handover_waits hn hne h),
      fun hn => hexec (State.handover_none hn)⟩
  · intro s b m
    exact ⟨State.admission_always, State.admission_owner, fun n h1 h2 hn hne => State.admission_handover h1 h2 hn hne⟩
  · intro s b x rest ecc s1 m o al q hs hacc
    have hrefuse : ∀ {u}, s.bankRefuse b.val = u → exec (.nonowner b) s = .next u := fun hu =>
      congrArg Host.Outcome.next ((State.awakeDo_awake hs _).trans hu)
    refine ⟨fun hb => ⟨congrArg Host.Outcome.next (State.bankServe_behind hacc ecc hb), hrefuse (State.bankRefuse_behind hacc hb)⟩,
      fun hb => ⟨fun ha hx hw => ?_, fun ha hx => ?_, fun ha hx hw => ?_, fun ha => ?_, fun ha => ?_⟩⟩
    · exact congrArg Host.Outcome.next (State.bankServe_awake hacc hs hb ha ecc hx hw)
    · exact congrArg Host.Outcome.next (State.bankServe_asleep hacc hs hb ha ecc hx)
    · exact congrArg Host.Outcome.next (State.bankServe_held hacc hs hb ha ecc hx hw)
    · exact hrefuse (State.bankRefuse_refused hacc hb ha)
    · exact hrefuse (State.bankRefuse_allowed hacc ha)
  · intro s x b put
    exact ⟨State.toBank_refused, fun h => ⟨State.toBank_awake h, State.toBank_held h, State.toBank_asleep h⟩⟩
  · intro s m b o n al ecc hn c bad
    have hread : readWords b o n al (none : Option (List Byte)).isSome = bankWords b o n := readWords_read b o n al
    have hne : readWords b o n al (none : Option (List Byte)).isSome ≠ [] := hread ▸ bankWords_ne_nil b o n
    refine ⟨fun hg => State.bankDo_good rfl hne (hread ▸ hg), fun hb => State.bankDo_bad rfl hne (hread ▸ hb), ?_⟩
    intro l put part
    refine ⟨fun hal hp => ?_, fun hal hp hg => ?_, fun hal hp hb => ?_, fun hal hg => ?_, fun hal hb => ?_⟩
    · subst hal
      exact State.bankDo_blind ((readWords_eq_nil hn).mpr hp)
    · subst hal
      exact State.bankDo_good (w := some l) rfl (fun hc => hp ((readWords_eq_nil hn).mp hc)) fun hc => hg ((State.unreadable_part hn).mp hc)
    · subst hal
      exact State.bankDo_bad (w := some l) rfl (fun hc => hp ((readWords_eq_nil hn).mp hc)) ((State.unreadable_part hn).mpr hb)
    · have hr : readWords b o n al (some l).isSome = bankWords b o n := readWords_alias hal b o n
      exact State.bankDo_good (w := some l) rfl (hr ▸ bankWords_ne_nil b o n) (hr ▸ hg)
    · have hr : readWords b o n al (some l).isSome = bankWords b o n := readWords_alias hal b o n
      exact State.bankDo_bad (w := some l) rfl (hr ▸ bankWords_ne_nil b o n) (hr ▸ hb)
  · intro s b m o kind w hinv hk
    exact State.bankErr_spec hinv b m o w hk
  · intro s al key l hinv
    obtain ⟨hin, hout⟩ := State.aliasWrite_spec al l hinv key
    refine ⟨fun i hi => (hin i hi).trans ?_, hout⟩
    cases al <;> rfl
  · intro s b hs
    have hdo : ∀ {f : State → State} {u}, f s = u → (Host.Outcome.next (s.awakeDo f) : Host.Outcome State Fault Refusal) = .next u :=
      fun hu => congrArg Host.Outcome.next ((State.awakeDo_awake hs _).trans hu)
    refine ⟨fun hp h0 h5 hq => hdo (if_pos ⟨hp, h0, h5, List.isEmpty_iff.mpr hq⟩), fun h => hdo (if_neg fun hc => ?_),
      fun hp => hdo (if_pos hp), fun hp => hdo (if_neg hp), fun hp hw hinv => ?_, fun hp hw => hdo (State.bankWake_none hp hw),
      fun hp => hdo (if_pos hp), fun hp => hdo (if_neg hp)⟩
    · obtain ⟨hp, h0, h5, hq⟩ := hc
      rcases h with h | h | h | h
      · exact h hp
      · exact Bool.false_ne_true (h.symm.trans h0)
      · exact Bool.false_ne_true (h5.symm.trans h)
      · exact h (List.isEmpty_iff.mp hq)
    · exact ⟨_, hdo rfl, State.bankWake_spec hinv hp hw⟩

end Sys2Proof.Machine
end

section

/-! SUPPORT. The Gleaner and the spares (O49). -/

namespace Sys2Proof.Machine

/- Poisoned words (R344) ------------------------------------------------------------------------------------------------------- -/

theorem State.wordBad_congr {s t : State} (hb : t.bankPois = s.bankPois) (hr : t.recPois = s.recPois) (ht : t.tasks = s.tasks) (k : Nat) :
    t.wordBad k = s.wordBad k := by
  unfold State.wordBad State.wordPois State.recPoisoned State.recWord State.task
  rw [hb, hr, ht]

theorem State.wordPois_setWordPois {s : State} (h : s.Inv) (k j : Nat) :
    (s.setWordPois k true).wordPois j = (s.wordPois j || j == k) := by
  by_cases hjk : j = k
  · rw [hjk, beq_self_eq_true, Bool.or_true]
    have hself := spGet_spSet_self h.bankPois k true
    exact hself
  · rw [beq_eq_false_iff_ne.mpr hjk, Bool.or_false]
    have hother := spGet_spSet_ne (d := fun _ => false) s.bankPois true hjk
    exact hother

/-- A record word that holds what it held when it was marked (R344). -/
theorem State.recPoisoned_mark {s : State} (h : s.Inv) (k j : Nat) :
    State.recPoisoned { s with recPois := spSet (fun _ => none) s.recPois k (some (s.recWord k)) } j = (s.recPoisoned j || j == k) := by
  obtain ⟨l, hl⟩ : ∃ l, l = spSet (fun _ => none) s.recPois k (some (s.recWord k)) := ⟨_, rfl⟩
  have hmark : State.recPoisoned { s with recPois := l } j = (spGet (fun _ => none) l j == some (s.recWord j)) := rfl
  rw [← hl, hmark, hl]
  by_cases hjk : j = k
  · rw [hjk, spGet_spSet_self h.recPois, beq_self_eq_true, beq_self_eq_true, Bool.or_true]
  · rw [spGet_spSet_ne _ _ hjk, beq_eq_false_iff_ne.mpr hjk, Bool.or_false]
    rfl

/-- A word that is carried as poisoned (R344). -/
theorem State.wordBad_poisonWord {s : State} (h : s.Inv) (k j : Nat) : (s.poisonWord k).wordBad j = (s.wordBad j || j == k) := by
  unfold State.poisonWord State.wordBad
  by_cases hk : k < recWord0
  · rw [if_pos hk]
    by_cases hj : j < recWord0
    · rw [if_pos hj, if_pos hj, State.wordPois_setWordPois h]
    · rw [if_neg hj, if_neg hj, beq_eq_false_iff_ne.mpr (by omega), Bool.or_false]
      rfl
  · rw [if_neg hk]
    by_cases hj : j < recWord0
    · rw [if_pos hj, if_pos hj, beq_eq_false_iff_ne.mpr (by omega), Bool.or_false]
      rfl
    · have hiff : (j - recWord0 == k - recWord0) = (j == k) := by
        rw [Bool.eq_iff_iff, beq_iff_eq, beq_iff_eq]
        omega
      rw [if_neg hj, if_neg hj, State.recPoisoned_mark h, hiff]

/-- A record that is written frees its words of the mark, as far as they change (R344). -/
theorem State.wordBad_setTask {s : State} (k : Nat) (v : TaskRec) {j : Nat}
    (hb : s.wordBad (recWord0 + (3 * k + j)) = true) :
    (s.setTask k v).wordBad (recWord0 + (3 * k + j)) = decide ((s.setTask k v).recWord (3 * k + j) = s.recWord (3 * k + j)) ∧
    ∀ i, i / 3 ≠ k → (s.setTask k v).wordBad (recWord0 + i) = s.wordBad (recWord0 + i) := by
  have hrec : ∀ (t : State) i, t.wordBad (recWord0 + i) = (spGet (fun _ => none) t.recPois i == some (t.recWord i)) := fun t i => by
    unfold State.wordBad State.recPoisoned
    rw [if_neg (by omega), Nat.add_sub_cancel_left]
  refine ⟨?_, fun i hi => ?_⟩
  · rw [hrec, beq_iff_eq] at hb
    have hmark : spGet (fun _ => none) (s.setTask k v).recPois (3 * k + j) = some (s.recWord (3 * k + j)) := hb
    rw [hrec, hmark, Bool.eq_iff_iff, beq_iff_eq, decide_eq_true_eq, Option.some_inj]
    exact eq_comm
  · rw [hrec, hrec]
    have htask : (s.setTask k v).task (i / 3) = s.task (i / 3) := State.task_setTask_ne _ hi
    have hword : (s.setTask k v).recWord i = s.recWord i := by
      unfold State.recWord
      rw [htask]
    rw [hword]
    rfl

/- The copy of a row (R343 to R345) -------------------------------------------------------------------------------------------- -/

/-- The registers of a bank that a copy may write, and the Gleaner's sticky bits. -/
def copyRegs (inst : Nat) : List Nat := [aBnk inst 0xC, aBnk inst 0x10, aBnk inst 0x14, aBnk inst 0x18, aGln 0x10]

theorem State.bankErr_frame {s : State} (h : s.Inv) (b m o : Nat) (w : Bool) (kind : Nat) :
    let t := s.bankErr b m o w kind
    t.Inv ∧ t = { s with regs := t.regs } ∧ ∀ a, a ∉ [aBnk b 0xC, aBnk b 0x10, aBnk b 0x14] → t.rd a = s.rd a := by
  intro t
  obtain ⟨v, hv⟩ : ∃ v : W32, v = BitVec.ofNat 32 (o % 2 ^ 22 + 2 ^ 31) := ⟨_, rfl⟩
  obtain ⟨x, hx⟩ : ∃ x : W32, x = BitVec.ofNat 32 (m % 256 + kind * 2 ^ 8 + w.toNat * 2 ^ 12) := ⟨_, rfl⟩
  obtain ⟨s1, hs1⟩ : ∃ s1, s1 = if s.rf (aBnk b 0xC) 0 2 = 0 && !s.bit (aBnk b 0xC) 4 then
      (s.wr (aBnk b 0x10) v).wr (aBnk b 0x14) x else s := ⟨_, rfl⟩
  have ht : t = s1.setB (aBnk b 0xC) (if kind = 2 then 4 else kind) := by
    rw [hs1, hv, hx]
    rfl
  have h1 : s1.Inv ∧ s1 = { s with regs := s1.regs } ∧ ∀ a, a ≠ aBnk b 0x10 → a ≠ aBnk b 0x14 → s1.rd a = s.rd a := by
    rw [hs1]
    split
    · exact ⟨(h.wr _ _).wr _ _, rfl, fun a h10 h14 => (State.rd_wr_ne h14).trans (State.rd_wr_ne h10)⟩
    · exact ⟨h, rfl, fun _ _ _ => rfl⟩
  obtain ⟨hinv, hframe, hrd⟩ := h1
  rw [ht]
  refine ⟨hinv.setB _ _, ?_, fun a ha => ?_⟩
  · rw [hframe]
    rfl
  · obtain ⟨hc, ha⟩ := List.ne_and_not_mem_of_not_mem_cons ha
    obtain ⟨h10, ha⟩ := List.ne_and_not_mem_of_not_mem_cons ha
    exact (State.rd_wf_ne hc).trans (hrd a h10 fun he => ha (List.mem_singleton.mpr he))

theorem State.bankCe_spec {s : State} (h : s.Inv) (b n : Nat) :
    let t := s.bankCe b n
    t.Inv ∧ t = { s with regs := t.regs } ∧ (∀ a, a ≠ aBnk b 0xC → a ≠ aBnk b 0x18 → t.rd a = s.rd a) ∧
    (t.rd (aBnk b 0x18)).toNat = min ((s.rd (aBnk b 0x18)).toNat + n) 0xFFFFFFFF := by
  intro t
  by_cases hn : n = 0
  · have ht : t = s := if_pos hn
    have hlt : (s.rd (aBnk b 0x18)).toNat < 2 ^ 32 := (s.rd (aBnk b 0x18)).isLt
    rw [ht, hn]
    exact ⟨h, rfl, fun _ _ _ => rfl, by omega⟩
  · obtain ⟨m, hm⟩ : ∃ m, m = min ((s.rd (aBnk b 0x18)).toNat + n) 0xFFFFFFFF := ⟨_, rfl⟩
    have ht : t = (s.wr (aBnk b 0x18) (BitVec.ofNat 32 m)).setB (aBnk b 0xC) 3 := by
      rw [hm]
      exact if_neg hn
    have hself := State.rd_wr_self h.regs (aBnk b 0x18) (BitVec.ofNat 32 m)
    have hmod : (BitVec.ofNat 32 m).toNat = m := by
      rw [BitVec.toNat_ofNat]
      omega
    rw [ht, ← hm]
    generalize BitVec.ofNat 32 m = v at hself hmod ⊢
    refine ⟨(h.wr _ _).setB _ _, rfl, fun a hc h18 => (State.rd_wf_ne hc).trans (State.rd_wr_ne h18), ?_⟩
    rw [State.setB, State.rd_wf_ne (aBnk_inj (by decide)), hself, hmod]

/-- A word that the copy could not correct (R344). -/
def State.carryWord (inst tgt row : Nat) (t : State) (w : Fin 32) : State :=
  (if tgt = 0 then t.bankErr inst 0x42 (256 * row + 8 * w.val) false 2 else t).poisonWord (glnWord tgt inst row w.val)

/-- Words that the copy carries as poisoned (R344). -/
structure Carried (s t : State) (tgt inst row : Nat) (l : List (Fin 32)) : Prop where
  inv : t.Inv
  frame : t = { s with regs := t.regs, bankPois := t.bankPois, recPois := t.recPois }
  rd : ∀ a, a ∉ [aBnk inst 0xC, aBnk inst 0x10, aBnk inst 0x14] → t.rd a = s.rd a
  bad : ∀ k, t.wordBad k = (s.wordBad k || l.any fun w => k == glnWord tgt inst row w.val)
  err : tgt = 0 → l ≠ [] → t.bit (aBnk inst 0xC) 4 = true

theorem State.poisonWord_regs (s : State) (k : Nat) : (s.poisonWord k).regs = s.regs := by
  unfold State.poisonWord
  split <;> rfl

theorem State.poisonWord_frame (s : State) (k : Nat) :
    s.poisonWord k = { s with bankPois := (s.poisonWord k).bankPois, recPois := (s.poisonWord k).recPois } := by
  unfold State.poisonWord
  split <;> rfl

theorem Carried.one {s : State} (h : s.Inv) (tgt inst row : Nat) (w : Fin 32) :
    Carried s (s.carryWord inst tgt row w) tgt inst row [w] := by
  obtain ⟨k, hk⟩ : ∃ k, k = glnWord tgt inst row w.val := ⟨_, rfl⟩
  obtain ⟨u, hu⟩ : ∃ u, u = if tgt = 0 then s.bankErr inst 0x42 (256 * row + 8 * w.val) false 2 else s := ⟨_, rfl⟩
  have hcarry : s.carryWord inst tgt row w = u.poisonWord k := by
    rw [hu, hk]
    rfl
  have h1 : u.Inv ∧ u = { s with regs := u.regs } ∧ (∀ a, a ∉ [aBnk inst 0xC, aBnk inst 0x10, aBnk inst 0x14] → u.rd a = s.rd a) ∧
      (tgt = 0 → u.bit (aBnk inst 0xC) 4 = true) := by
    by_cases h0 : tgt = 0
    · rw [if_pos h0] at hu
      rw [hu]
      obtain ⟨hinv, hframe, hrd⟩ := State.bankErr_frame h inst 0x42 (256 * row + 8 * w.val) false 2
      obtain ⟨hbit, -⟩ := State.bankErr_spec h inst 0x42 (256 * row + 8 * w.val) false (kind := 2) (by decide)
      exact ⟨hinv, hframe, hrd, fun _ => hbit⟩
    · rw [if_neg h0] at hu
      rw [hu]
      exact ⟨h, rfl, fun _ _ => rfl, fun hc => absurd hc h0⟩
  obtain ⟨hinv, hframe, hrd, hbit⟩ := h1
  have hregs := u.poisonWord_regs k
  have hpf := u.poisonWord_frame k
  have hbad := State.wordBad_poisonWord hinv k
  have hpinv := (State.poisonWord_keeps (.refl u) k).inv hinv
  rw [hcarry]
  refine ⟨hpinv, ?_, fun a ha => (State.rd_congr hregs a).trans (hrd a ha), fun j => ?_,
    fun h0 _ => (State.bit_congr hregs _ _).trans (hbit h0)⟩
  · generalize u.poisonWord k = x at hpf ⊢
    rw [hpf, hframe]
  · rw [hbad, State.wordBad_congr (s := s) (t := u) (by rw [hframe]) (by rw [hframe]) (by rw [hframe]), List.any_cons, List.any_nil,
      Bool.or_false, hk]

theorem Carried.foldl (tgt inst row : Nat) (l : List (Fin 32)) {s : State} (h : s.Inv) :
    Carried s (l.foldl (State.carryWord inst tgt row) s) tgt inst row l := by
  induction l generalizing s with
  | nil => exact ⟨h, rfl, fun _ _ => rfl, fun k => (Bool.or_false _).symm, fun _ hc => absurd rfl hc⟩
  | cons w l ih =>
    have h₁ := Carried.one h tgt inst row w
    rw [List.foldl_cons]
    generalize s.carryWord inst tgt row w = u at h₁ ⊢
    have h₂ := ih h₁.inv
    have hnil : l = [] → l.foldl (State.carryWord inst tgt row) u = u := fun hl => by rw [hl, List.foldl_nil]
    generalize l.foldl (State.carryWord inst tgt row) u = t at h₂ hnil ⊢
    refine ⟨h₂.inv, by rw [h₂.frame, h₁.frame], fun a ha => (h₂.rd a ha).trans (h₁.rd a ha), fun k => ?_, fun h0 _ => ?_⟩
    · rw [h₂.bad, h₁.bad, List.any_cons, List.any_cons, List.any_nil, Bool.or_false, Bool.or_assoc]
    · by_cases hl : l = []
      · rw [hnil hl]
        exact h₁.err h0 (List.cons_ne_nil _ _)
      · exact h₂.err h0 hl

/-- What the copy of a row leaves (R328, R343 to R345). -/
theorem State.gleanCopy_spec {s : State} (h : s.Inv) (tgt inst row : Nat) (r : MarchResult) :
    let t := s.gleanCopy tgt inst row r
    t.Inv ∧ t = { s with regs := t.regs, bankPois := t.bankPois, recPois := t.recPois } ∧
    (∀ a, a ∉ copyRegs inst → t.rd a = s.rd a) ∧
    (∀ k, t.wordBad k = (s.wordBad k || r.poisoned.any fun w => k == glnWord tgt inst row w.val)) ∧
    ((∃ w : Fin 32, t.wordBad (glnWord tgt inst row w.val) = true) → t.bit (aGln 0x10) 2 = true) ∧
    (tgt = 0 → inst < 48 → (t.rd (aBnk inst 0x18)).toNat = min ((s.rd (aBnk inst 0x18)).toNat + r.corrected) 0xFFFFFFFF ∧
      (r.poisoned ≠ [] → t.bit (aBnk inst 0xC) 4 = true)) := by
  intro t
  obtain ⟨s0, hs0⟩ : ∃ s0, s0 = if tgt = 0 then s.bankCe inst r.corrected else s := ⟨_, rfl⟩
  have h0 : s0.Inv ∧ s0 = { s with regs := s0.regs } ∧ (∀ a, a ∉ copyRegs inst → s0.rd a = s.rd a) ∧
      (tgt = 0 → (s0.rd (aBnk inst 0x18)).toNat = min ((s.rd (aBnk inst 0x18)).toNat + r.corrected) 0xFFFFFFFF) := by
    by_cases ht0 : tgt = 0
    · rw [if_pos ht0] at hs0
      obtain ⟨hinv, hframe, hrd, hce⟩ := State.bankCe_spec h inst r.corrected
      rw [hs0]
      exact ⟨hinv, hframe, fun a ha => hrd a (fun hc => ha (by rw [hc, copyRegs]; simp)) (fun hc => ha (by rw [hc, copyRegs]; simp)),
        fun _ => hce⟩
    · rw [if_neg ht0] at hs0
      rw [hs0]
      exact ⟨h, rfl, fun _ _ => rfl, fun hc => absurd hc ht0⟩
  obtain ⟨hinv0, hframe0, hrd0, hce0⟩ := h0
  have hc := Carried.foldl tgt inst row r.poisoned hinv0
  obtain ⟨s1, hs1⟩ : ∃ s1, s1 = r.poisoned.foldl (State.carryWord inst tgt row) s0 := ⟨_, rfl⟩
  rw [← hs1] at hc
  have ht : t = if (List.range 32).any fun w => s1.wordBad (glnWord tgt inst row w) then s1.setB (aGln 0x10) 2 else s1 := by
    rw [hs1, hs0]
    rfl
  have hkeep : t.Inv ∧ t = { s1 with regs := t.regs } ∧ ∀ a, a ≠ aGln 0x10 → t.rd a = s1.rd a := by
    rw [ht]
    split
    · exact ⟨hc.inv.setB _ _, rfl, fun a ha => State.rd_wf_ne ha⟩
    · exact ⟨hc.inv, rfl, fun _ _ => rfl⟩
  obtain ⟨htinv, htframe, htrd⟩ := hkeep
  have hbad : ∀ k, t.wordBad k = s1.wordBad k := State.wordBad_congr (by rw [htframe]) (by rw [htframe]) (by rw [htframe])
  have hbad0 : ∀ k, s0.wordBad k = s.wordBad k := State.wordBad_congr (by rw [hframe0]) (by rw [hframe0]) (by rw [hframe0])
  refine ⟨htinv, by rw [htframe, hc.frame, hframe0], fun a ha => ?_, fun k => ?_, fun hw => ?_, fun h0 hi => ⟨?_, fun hl => ?_⟩⟩
  · have hgln : a ≠ aGln 0x10 := fun he => ha (by rw [he, copyRegs]; simp)
    refine (htrd a hgln).trans ((hc.rd a fun hm => ha ?_).trans (hrd0 a ha))
    rw [copyRegs]
    simp only [List.mem_cons, List.not_mem_nil, or_false] at hm ⊢
    tauto
  · rw [hbad, hc.bad, hbad0]
  · obtain ⟨w, hw⟩ := hw
    have hany : ((List.range 32).any fun w => s1.wordBad (glnWord tgt inst row w)) = true :=
      List.any_eq_true.mpr ⟨w.val, List.mem_range.mpr w.isLt, (hbad _).symm.trans hw⟩
    rw [ht, if_pos hany]
    exact State.bit_setB_self hc.inv.regs _ (by decide)
  · have h18 : aBnk inst 0x18 ≠ aGln 0x10 := by unfold aBnk aGln; omega
    have hout : aBnk inst 0x18 ∉ [aBnk inst 0xC, aBnk inst 0x10, aBnk inst 0x14] := by
      simp [aBnk]
    rw [htrd _ h18, hc.rd _ hout]
    exact hce0 h0
  · exact (State.bit_of_rd (htrd _ (by unfold aBnk aGln; omega)) 4).trans (hc.err h0 hl)


end Sys2Proof.Machine
end

section

/-! SUPPORT. Spares and the end of a row (O49). -/

namespace Sys2Proof.Machine

/-- Spares come into use: the registers of the Gleaner's pass and of GLEANING stay. -/
structure Spared (s t : State) : Prop where
  inv : t.Inv
  frame : t = { s with regs := t.regs, repairQ := t.repairQ, fresh := t.fresh }
  rd : ∀ o ∈ [4, 8, 0x10], t.rd (aGln o) = s.rd (aGln o)
  gleaning : ∀ b < 48, t.bit (aBnk b 8) 5 = s.bit (aBnk b 8) 5

theorem Spared.refl {s : State} (h : s.Inv) : Spared s s := ⟨h, rfl, fun _ _ => rfl, fun _ _ => rfl⟩

theorem Spared.trans {s t u : State} (h₁ : Spared s t) (h₂ : Spared t u) : Spared s u :=
  ⟨h₂.inv, by rw [h₂.frame, h₁.frame], fun o ho => (h₂.rd o ho).trans (h₁.rd o ho),
    fun b hb => (h₂.gleaning b hb).trans (h₁.gleaning b hb)⟩

/-- A register that is none of those. -/
theorem Spared.wr {s : State} (h : s.Inv) {a : Nat} (hg : ∀ o ∈ [4, 8, 0x10], aGln o ≠ a) (hb : ∀ b < 48, aBnk b 8 ≠ a) (v : W32) :
    Spared s (s.wr a v) :=
  ⟨h.wr a v, rfl, fun o ho => State.rd_wr_ne (hg o ho), fun b hb48 => State.bit_wr_ne _ _ (hb b hb48)⟩

theorem Spared.spareLow {s : State} (h : s.Inv) : Spared s s.spareLow :=
  Spared.wr h (fun o _ => by unfold aGln aHlt; omega) (fun b _ => by unfold aBnk aHlt; omega) _

@[simp] theorem State.rd_queueRepair (s : State) (r : Repair) (a : Nat) : (s.queueRepair r).rd a = s.rd a := rfl
@[simp] theorem State.repairQ_queueRepair (s : State) (r : Repair) : (s.queueRepair r).repairQ = s.repairQ ++ [r] := rfl
@[simp] theorem State.mem_queueRepair (s : State) (r : Repair) : (s.queueRepair r).mem = s.mem := rfl
@[simp] theorem State.rd_setGlnDue (s : State) (d a : Nat) : State.rd { s with glnDue := d } a = s.rd a := rfl
@[simp] theorem State.rd_setGlnPos (s : State) (p a : Nat) : State.rd { s with glnPos := p } a = s.rd a := rfl

theorem Spared.queueRepair {s : State} (h : s.Inv) (r : Repair) : Spared s (s.queueRepair r) :=
  ⟨(State.queueRepair_keeps (.refl s) r).inv h, rfl, fun _ _ => rfl, fun _ _ => rfl⟩

theorem Spared.used {s : State} (h : s.Inv) : Spared s s.used := ⟨h.used, rfl, fun _ _ => rfl, fun _ _ => rfl⟩

theorem not_mem_pass {o : Nat} (h : 0x20 ≤ o) : ∀ o' ∈ [4, 8, 0x10], aGln o' ≠ aGln o := fun o' ho' => by
  simp only [List.mem_cons, List.not_mem_nil, or_false] at ho'
  unfold aGln
  omega

theorem Spared.useOther {s : State} (h : s.Inv) (i : Nat) : Spared s (s.useOther i) := by
  have hw := Spared.wr h (a := aGln (0x20 + 4 * i)) (not_mem_pass (by omega)) (fun b _ => by unfold aBnk aGln; omega)
    (putField (s.rd (aGln (0x20 + 4 * i))) 0 7 (s.rf (aGln (0x20 + 4 * i)) 0 7 + 1))
  unfold State.useOther
  dsimp only
  generalize (if i = 13 then 2 else 4) = k
  split
  · exact hw.trans (Spared.spareLow hw.inv)
  · exact hw

/-- What a spare row of a bank that comes into use leaves (R346). -/
theorem State.useSpare_spec {s : State} (h : s.Inv) {b i : Nat} (hb : b < 48) (hi : i < 32) (row origin : Nat) :
    let t := s.useSpare b i row origin
    Spared s t ∧ t.repairQ = s.repairQ ∧ t.rd (aGln 0xC) = s.rd (aGln 0xC) ∧
    t.rd (aBnk b (0x100 + 4 * i)) = BitVec.ofNat 32 (row % 2 ^ 14 + origin * 2 ^ 28 + 2 ^ 31) ∧
    ∀ j < 32, j ≠ i → t.rd (aBnk b (0x100 + 4 * j)) = s.rd (aBnk b (0x100 + 4 * j)) := by
  intro t
  obtain ⟨v, hv⟩ : ∃ v : W32, v = BitVec.ofNat 32 (row % 2 ^ 14 + origin * 2 ^ 28 + 2 ^ 31) := ⟨_, rfl⟩
  obtain ⟨s1, hs1⟩ : ∃ s1, s1 = s.wr (aBnk b (0x100 + 4 * i)) v := ⟨_, rfl⟩
  obtain ⟨s2, hs2⟩ : ∃ s2, s2 = s1.wf (aBnk b 8) 8 6 (s.rf (aBnk b 8) 8 6 + 1) := ⟨_, rfl⟩
  have ht : t = if s2.bankSpares b ≤ 4 then s2.spareLow else s2 := by
    rw [hs2, hs1, hv]
    rfl
  have h1 : Spared s s1 := hs1 ▸ Spared.wr h (fun o ho => by
    simp only [List.mem_cons, List.not_mem_nil, or_false] at ho
    unfold aGln aBnk
    omega) (fun c _ => by unfold aBnk; omega) v
  have h2 : Spared s1 s2 := by
    rw [hs2]
    refine ⟨h1.inv.wf _ _ _ _, rfl, fun o ho => State.rd_wf_ne ?_, fun c hc => ?_⟩
    · simp only [List.mem_cons, List.not_mem_nil, or_false] at ho
      unfold aGln aBnk
      omega
    · by_cases hcb : c = b
      · rw [hcb, State.bit, State.rf_wf_disjoint h1.inv.regs _ _ (.inl (by decide))]
        rfl
      · exact State.bit_wr_ne _ _ (by unfold aBnk; omega)
  have h3 : Spared s2 t ∧ t.repairQ = s2.repairQ ∧ ∀ a, a ≠ aHlt 0 → t.rd a = s2.rd a := by
    rw [ht]
    split
    · exact ⟨Spared.spareLow h2.inv, rfl, fun a ha => State.rd_wf_ne ha⟩
    · exact ⟨.refl h2.inv, rfl, fun _ _ => rfl⟩
  obtain ⟨h3, hq3, hrd3⟩ := h3
  have hq : s2.repairQ = s.repairQ := by
    rw [hs2, hs1]
    rfl
  have hrd2 : ∀ a, a ≠ aBnk b 8 → s2.rd a = s1.rd a := fun a ha => hs2 ▸ State.rd_wf_ne ha
  have hrd1 : ∀ a, a ≠ aBnk b (0x100 + 4 * i) → s1.rd a = s.rd a := fun a ha => hs1 ▸ State.rd_wr_ne ha
  rw [← hv]
  refine ⟨h1.trans (h2.trans h3), hq3.trans hq, ?_, ?_, fun j hj hji => ?_⟩
  · exact (hrd3 _ (by unfold aGln aHlt; omega)).trans ((hrd2 _ (by unfold aGln aBnk; omega)).trans (hrd1 _ (by unfold aGln aBnk; omega)))
  · refine (hrd3 _ (by unfold aBnk aHlt; omega)).trans ((hrd2 _ (by unfold aBnk; omega)).trans ?_)
    rw [hs1]
    exact State.rd_wr_self h.regs _ _
  · exact (hrd3 _ (by unfold aBnk aHlt; omega)).trans ((hrd2 _ (by unfold aBnk; omega)).trans (hrd1 _ (by unfold aBnk; omega)))

theorem State.freeSpare_lt {s : State} {b i : Nat} (h : s.freeSpare b = some i) : i < 32 :=
  List.mem_range.mp (List.mem_of_find?_eq_some h)

/-- An unused spare that fails (R346). -/
theorem Spared.badSpare {s : State} (h : s.Inv) (m i : Nat) : Spared s (s.badSpare m i) := by
  unfold State.badSpare
  dsimp only
  split
  next hm =>
    split
    next hi =>
      obtain ⟨hsp, -⟩ := State.useSpare_spec h hm hi.1 (s.rf (aBnk m (0x100 + 4 * i)) 0 14) 3
      have hu := hsp.trans (Spared.used hsp.inv)
      exact hu.trans (Spared.queueRepair hu.inv _)
    next => exact .refl h
  next =>
    split
    · have hsp := Spared.useOther h (m - 48)
      have hu := hsp.trans (Spared.used hsp.inv)
      exact hu.trans (Spared.queueRepair hu.inv _)
    · exact .refl h

theorem Spared.badSpares (l : List (Fin 62 × Fin 64)) {s : State} (h : s.Inv) :
    Spared s (l.foldl (fun s x => s.badSpare x.1.val x.2.val) s) := by
  induction l generalizing s with
  | nil => exact .refl h
  | cons x l ih => exact (Spared.badSpare h _ _).trans (ih (Spared.badSpare h _ _).inv)

/- The soft repair of a row (R346) --------------------------------------------------------------------------------------------- -/

/-- A row that failed is noted (R346). -/
def State.rowFailed (s : State) : State := (s.setB (aGln 0x10) 0).bump (aGln 0xC) 1

theorem State.rowFailed_spec {s : State} (h : s.Inv) :
    let t := s.rowFailed
    t.Inv ∧ t = { s with regs := t.regs } ∧ t.bit (aGln 0x10) 0 = true ∧ t.rd (aGln 0xC) = s.rd (aGln 0xC) + 1 ∧
    ∀ a, a ≠ aGln 0x10 → a ≠ aGln 0xC → t.rd a = s.rd a := by
  have hne : aGln 0xC ≠ aGln 0x10 := by decide
  have hset := h.setB (aGln 0x10) 0
  refine ⟨hset.bump _ _, rfl, ?_, ?_, fun a h10 hC => (State.rd_wr_ne hC).trans (State.rd_wf_ne h10)⟩
  · exact (State.bit_wr_ne _ _ hne.symm).trans (State.bit_setB_self h.regs _ (by decide))
  · refine (State.rd_wr_self hset.regs _ _).trans ?_
    rw [State.setB, State.rd_wf_ne hne]
    rfl

theorem State.freeSpare_rowFailed {s : State} (h : s.Inv) (b : Nat) : s.rowFailed.freeSpare b = s.freeSpare b := by
  obtain ⟨-, -, -, -, hrd⟩ := State.rowFailed_spec h
  unfold State.freeSpare
  have hbit : ∀ i ∈ List.range 32, (!s.rowFailed.bit (aBnk b (0x100 + 4 * i)) 31) = !s.bit (aBnk b (0x100 + 4 * i)) 31 := fun i hi => by
    have hi32 := List.mem_range.mp hi
    rw [State.bit_of_rd (hrd _ (by unfold aBnk aGln; omega) (by unfold aBnk aGln; omega))]
  exact List.find?_congr hbit

theorem State.softRepair_bank (s : State) (inst row : Nat) : s.softRepair 0 inst row =
    (match s.rowFailed.freeSpare inst with
    | some i => (s.rowFailed.useSpare inst i row 2).queueRepair ⟨1, 1, inst, row⟩
    | none => (s.rowFailed.setB (aGln 0x10) 1).setB (aBnk inst 0xC) 5) := rfl

theorem State.softRepair_other {tgt : Nat} (ht : tgt ≠ 0) (s : State) (inst row : Nat) : ∃ i r, s.softRepair tgt inst row =
    if s.rowFailed.hasOther i then (s.rowFailed.useOther i).queueRepair r else s.rowFailed.setB (aGln 0x10) 1 :=
  ⟨_, _, if_neg ht⟩

/-- A repair: what the pass has come to stays (R346). -/
structure Repaired (s t : State) : Prop where
  inv : t.Inv
  frame : t = { s with regs := t.regs, repairQ := t.repairQ, fresh := t.fresh }
  rd : ∀ o ∈ [4, 8], t.rd (aGln o) = s.rd (aGln o)
  failed : t.bit (aGln 0x10) 0 = true

theorem State.softRepair_repaired {s : State} (h : s.Inv) {tgt inst : Nat} (hi : tgt = 0 → inst < 48) (row : Nat) :
    Repaired s (s.softRepair tgt inst row) := by
  obtain ⟨hinv, hframe, hbit, -, hrd⟩ := State.rowFailed_spec h
  have hrow : ∀ o ∈ [4, 8], s.rowFailed.rd (aGln o) = s.rd (aGln o) := fun o ho => by
    simp only [List.mem_cons, List.not_mem_nil, or_false] at ho
    exact hrd _ (by unfold aGln; omega) (by unfold aGln; omega)
  have hspared : ∀ {t}, Spared s.rowFailed t → Repaired s t := fun {t} hs => by
    refine ⟨hs.inv, ?_, fun o ho => (hs.rd o ?_).trans (hrow o ho), (State.bit_of_rd (hs.rd 0x10 (by decide)) 0).trans hbit⟩
    · rw [hs.frame, hframe]
    · simp only [List.mem_cons, List.not_mem_nil, or_false] at ho ⊢
      omega
  have hexhausted : Repaired s (s.rowFailed.setB (aGln 0x10) 1) := by
    refine ⟨hinv.setB _ _, ?_, fun o ho => (State.rd_wf_ne ?_).trans (hrow o ho),
      (State.bit_setB_ne hinv.regs _ (by decide)).trans hbit⟩
    · generalize s.rowFailed = u at hframe ⊢
      rw [hframe]
      rfl
    · simp only [List.mem_cons, List.not_mem_nil, or_false] at ho
      unfold aGln
      omega
  by_cases h0 : tgt = 0
  · subst h0
    have hi48 := hi rfl
    rw [State.softRepair_bank]
    cases hf : s.rowFailed.freeSpare inst with
    | some i =>
      obtain ⟨hs, -⟩ := State.useSpare_spec hinv hi48 (State.freeSpare_lt hf) row 2
      exact hspared (hs.trans (Spared.queueRepair hs.inv _))
    | none =>
      obtain ⟨hinv', hframe', hrd', hbit'⟩ := hexhausted
      refine ⟨hinv'.setB _ _, ?_, fun o ho => (State.rd_wf_ne ?_).trans (hrd' o ho), (State.bit_wr_ne _ _ ?_).trans hbit'⟩
      · generalize s.rowFailed.setB (aGln 0x10) 1 = u at hframe' ⊢
        rw [hframe']
        rfl
      · unfold aGln aBnk
        simp only [List.mem_cons, List.not_mem_nil, or_false] at ho
        omega
      · unfold aGln aBnk
        omega
  · obtain ⟨i, r, heq⟩ := State.softRepair_other h0 s inst row
    rw [heq]
    split
    · have hs := Spared.useOther hinv i
      exact hspared (hs.trans (Spared.queueRepair hs.inv _))
    · exact hexhausted

theorem spareWord_row {row : Nat} (h : row < 2 ^ 14) (origin : Nat) :
    (BitVec.ofNat 32 (row % 2 ^ 14 + origin * 2 ^ 28 + 2 ^ 31) : W32) = BitVec.ofNat 32 (row + origin * 2 ^ 28 + 2 ^ 31) := by
  rw [Nat.mod_eq_of_lt h]

section
variable {s : State} (h : s.Inv) {inst row : Nat}
include h

theorem State.softRepair_some {i : Nat} (hf : s.freeSpare inst = some i) :
    s.softRepair 0 inst row = (s.rowFailed.useSpare inst i row 2).queueRepair ⟨1, 1, inst, row⟩ := by
  rw [State.softRepair_bank, State.freeSpare_rowFailed h, hf]

theorem State.softRepair_none (hf : s.freeSpare inst = none) :
    s.softRepair 0 inst row = (s.rowFailed.setB (aGln 0x10) 1).setB (aBnk inst 0xC) 5 := by
  rw [State.softRepair_bank, State.freeSpare_rowFailed h, hf]

variable (hi : inst < 48)
include hi

/-- A row of a bank that takes a spare (R346). -/
theorem State.softRepair_takes (hrow : row < 2 ^ 14) {i : Nat} (hf : s.freeSpare inst = some i) :
    (s.softRepair 0 inst row).rd (aBnk inst (0x100 + 4 * i)) = BitVec.ofNat 32 (row + 2 * 2 ^ 28 + 2 ^ 31) ∧
    (s.softRepair 0 inst row).repairQ = s.repairQ ++ [⟨1, 1, inst, row⟩] ∧ (s.softRepair 0 inst row).bit (aGln 0x10) 0 = true ∧
    (s.softRepair 0 inst row).rd (aGln 0xC) = s.rd (aGln 0xC) + 1 ∧ (s.softRepair 0 inst row).mem = s.mem ∧
    ∀ j < 32, j ≠ i → (s.softRepair 0 inst row).rd (aBnk inst (0x100 + 4 * j)) = s.rd (aBnk inst (0x100 + 4 * j)) := by
  obtain ⟨hinv, hframe, hbit, hcount, hrd⟩ := State.rowFailed_spec h
  have hq : s.rowFailed.repairQ = s.repairQ := by rw [hframe]
  have hmem : s.rowFailed.mem = s.mem := by rw [hframe]
  have hrd' : ∀ j < 32, s.rowFailed.rd (aBnk inst (0x100 + 4 * j)) = s.rd (aBnk inst (0x100 + 4 * j)) := fun j hj =>
    hrd _ (by unfold aBnk aGln; omega) (by unfold aBnk aGln; omega)
  rw [State.softRepair_some h hf]
  generalize s.rowFailed = u at hinv hbit hcount hq hmem hrd' ⊢
  obtain ⟨hs, hsq, hsC, hself, hothers⟩ := State.useSpare_spec hinv hi (State.freeSpare_lt hf) row 2
  have hself' := hself.trans (spareWord_row hrow 2)
  clear hself
  generalize u.useSpare inst i row 2 = x at hs hsq hsC hself' hothers ⊢
  have hregs := x.rd_queueRepair ⟨1, 1, inst, row⟩
  have hxmem : x.mem = u.mem := by rw [hs.frame]
  refine ⟨(hregs _).trans hself', ?_, ?_, (hregs _).trans (hsC.trans hcount), (x.mem_queueRepair _).trans (hxmem.trans hmem),
    fun j hj hji => (hregs _).trans ((hothers j hj hji).trans (hrd' j hj))⟩
  · rw [State.repairQ_queueRepair, hsq, hq]
  · exact (State.bit_of_rd ((hregs _).trans (hs.rd 0x10 (by decide))) 0).trans hbit

/-- A row of a bank that has no spare left (R346). -/
theorem State.softRepair_exhausted (hf : s.freeSpare inst = none) :
    (s.softRepair 0 inst row).repairQ = s.repairQ ∧ (s.softRepair 0 inst row).bit (aGln 0x10) 1 = true ∧
    (s.softRepair 0 inst row).bit (aBnk inst 0xC) 5 = true := by
  obtain ⟨hinv, hframe, -, -, -⟩ := State.rowFailed_spec h
  have hq : s.rowFailed.repairQ = s.repairQ := by rw [hframe]
  have hset := hinv.setB (aGln 0x10) 1
  rw [State.softRepair_none h hf]
  refine ⟨hq, (State.bit_wr_ne _ _ ?_).trans (State.bit_setB_self hinv.regs _ (by decide)), State.bit_setB_self hset.regs _ (by decide)⟩
  unfold aGln aBnk
  omega

end

/- The end of a row (R343 to R346) --------------------------------------------------------------------------------------------- -/

theorem glnTarget_inst {p : Nat} (h : (glnTarget p).1 = 0) : (glnTarget p).2.1 < 48 := by
  unfold glnTarget at h ⊢
  by_cases h1 : p < 786432
  · rw [if_pos h1]
    change p / 16384 < 48
    omega
  rw [if_neg h1] at h
  by_cases h2 : p < 884736
  · rw [if_pos h2] at h
    exact absurd h Nat.one_ne_zero
  rw [if_neg h2] at h
  by_cases h3 : p < 966656
  · rw [if_pos h3] at h
    exact absurd h (by decide : (2 : Nat) ≠ 0)
  · rw [if_neg h3] at h
    exact absurd h (by decide : (3 : Nat) ≠ 0)

theorem State.clrB_frame (s : State) (a i : Nat) : s.clrB a i = { s with regs := (s.clrB a i).regs } := rfl

/-- The row of the save buffer is done (R343 to R346). -/
theorem State.gleanEnd_spec {s : State} (h : s.Inv) (r : MarchResult) :
    let t := glnTarget s.glnPos
    let s' := s.gleanEnd r
    s'.bit (aGln 4) 31 = false ∧ s'.mem = s.mem ∧ s'.ths = s.ths ∧
    (s.glnPos + 1 < glnRows → s'.glnPos = s.glnPos + 1 ∧ s'.rd (aGln 8) = s.rd (aGln 8)) ∧
    (glnRows ≤ s.glnPos + 1 → s'.glnPos = 0 ∧ s'.rd (aGln 8) = s.rd (aGln 8) + 1) ∧
    s'.glnDue = s.eclk + 125 * s.rf (aGln 0) 8 16 * s.rf 0x40 16 5 ∧ (∀ k, s'.wordBad k = s.wordBad k) ∧
    (r.mismatch = true → s'.bit (aGln 0x10) 0 = true) ∧
    (r.mismatch = false → s.glnPos + 1 < glnRows → s'.repairQ = s.repairQ) ∧
    (t.1 = 0 → s'.bit (aBnk t.2.1 8) 5 = false) := by
  intro t s'
  have hinst : t.1 = 0 → t.2.1 < 48 := glnTarget_inst
  obtain ⟨s3, hs3⟩ : ∃ s3, s3 = if r.mismatch then s.softRepair t.1 t.2.1 t.2.2 else s := ⟨_, rfl⟩
  obtain ⟨s4, hs4⟩ : ∃ s4, s4 = if t.1 = 0 then s3.clrB (aBnk t.2.1 8) 5 else s3 := ⟨_, rfl⟩
  obtain ⟨d, hd⟩ : ∃ d, d = s.eclk + s.usCycles (s.rf (aGln 0) 8 16) := ⟨_, rfl⟩
  obtain ⟨s5, hs5⟩ : ∃ s5, s5 = { s4.clrB (aGln 4) 31 with glnDue := d } := ⟨_, rfl⟩
  have h3 : s3.Inv ∧ s3 = { s with regs := s3.regs, repairQ := s3.repairQ, fresh := s3.fresh } ∧
      (∀ o ∈ [4, 8], s3.rd (aGln o) = s.rd (aGln o)) ∧ (r.mismatch = true → s3.bit (aGln 0x10) 0 = true) ∧
      (r.mismatch = false → s3.repairQ = s.repairQ) := by
    by_cases hm : r.mismatch = true
    · rw [if_pos hm] at hs3
      have hr := State.softRepair_repaired h hinst t.2.2
      rw [hs3]
      exact ⟨hr.inv, hr.frame, hr.rd, fun _ => hr.failed, fun hf => absurd (hm.symm.trans hf) (by decide)⟩
    · rw [if_neg hm] at hs3
      rw [hs3]
      exact ⟨h, rfl, fun _ _ => rfl, fun hc => absurd hc hm, fun _ => rfl⟩
  obtain ⟨hinv3, hframe3, hrd3, hfail3, hq3⟩ := h3
  have h4 : s4.Inv ∧ s4 = { s3 with regs := s4.regs } ∧ (∀ o ∈ [4, 8, 0x10], s4.rd (aGln o) = s3.rd (aGln o)) ∧
      (t.1 = 0 → s4.bit (aBnk t.2.1 8) 5 = false) := by
    by_cases h0 : t.1 = 0
    · rw [if_pos h0] at hs4
      have hi := hinst h0
      rw [hs4]
      refine ⟨hinv3.clrB _ _, rfl, fun o ho => State.rd_wf_ne ?_, fun _ => State.bit_clrB_self hinv3.regs _ (by decide)⟩
      simp only [List.mem_cons, List.not_mem_nil, or_false] at ho
      unfold aGln aBnk
      omega
    · rw [if_neg h0] at hs4
      rw [hs4]
      exact ⟨hinv3, rfl, fun _ _ => rfl, fun hc => absurd hc h0⟩
  obtain ⟨hinv4, hframe4, hrd4, hbit4⟩ := h4
  have h5 : s5.Inv ∧ s5 = { s4 with regs := s5.regs, glnDue := d } ∧ s5.bit (aGln 4) 31 = false ∧
      (∀ a, a ≠ aGln 4 → s5.rd a = s4.rd a) := by
    obtain ⟨u, hu⟩ : ∃ u, u = s4.clrB (aGln 4) 31 := ⟨_, rfl⟩
    have hclr : u.Inv := hu ▸ hinv4.clrB (aGln 4) 31
    have hframe : u = { s4 with regs := u.regs } := hu ▸ State.clrB_frame s4 (aGln 4) 31
    have hbit : u.bit (aGln 4) 31 = false := hu ▸ State.bit_clrB_self hinv4.regs _ (by decide)
    have hrd : ∀ a, a ≠ aGln 4 → u.rd a = s4.rd a := fun a ha => hu ▸ State.rd_wf_ne ha
    rw [hs5, ← hu]
    refine ⟨{ hclr with }, ?_, (State.bit_of_rd (State.rd_setGlnDue _ _ _) _).trans hbit, fun a ha => (State.rd_setGlnDue _ _ a).trans (hrd a ha)⟩
    rw [hframe]
  obtain ⟨hinv5, hframe5, hbit5, hrd5⟩ := h5
  have hdue : d = s.eclk + 125 * s.rf (aGln 0) 8 16 * s.rf 0x40 16 5 := by rw [hd, State.usCycles]
  have heq : s' = if s.glnPos + 1 < glnRows then { s5 with glnPos := s.glnPos + 1 }
      else r.badSpares.foldl (fun s x => s.badSpare x.1.val x.2.val) ({ s5 with glnPos := 0 }.bump (aGln 8) 1) := by
    rw [hs5, hs4, hs3, hd]
    rfl
  have hframe : s5 = { s with regs := s5.regs, repairQ := s5.repairQ, fresh := s5.fresh, glnDue := d } := by
    rw [hframe5, hframe4, hframe3]
  have hq5 : s5.repairQ = s3.repairQ := by rw [hframe5, hframe4]
  have hrd8 : s5.rd (aGln 8) = s.rd (aGln 8) :=
    (hrd5 _ (by decide)).trans ((hrd4 8 (by decide)).trans (hrd3 8 (by decide)))
  have hfail : r.mismatch = true → s5.bit (aGln 0x10) 0 = true := fun hm =>
    (State.bit_of_rd ((hrd5 _ (by decide)).trans (hrd4 0x10 (by decide))) 0).trans (hfail3 hm)
  have hgl : t.1 = 0 → s5.bit (aBnk t.2.1 8) 5 = false := fun h0 => by
    have hi := hinst h0
    exact (State.bit_of_rd (hrd5 _ (by unfold aBnk aGln; omega)) 5).trans (hbit4 h0)
  by_cases hlast : s.glnPos + 1 < glnRows
  · rw [if_pos hlast] at heq
    rw [heq]
    have hrdp : ∀ a, State.rd { s5 with glnPos := s.glnPos + 1 } a = s5.rd a := State.rd_setGlnPos s5 _
    refine ⟨(State.bit_of_rd (hrdp _) _).trans hbit5, ?_, ?_, fun _ => ⟨rfl, (hrdp _).trans hrd8⟩, fun hc => absurd hlast (by omega), ?_, ?_,
      fun hm => (State.bit_of_rd (hrdp _) _).trans (hfail hm), fun hm _ => hq5.trans (hq3 hm),
      fun h0 => (State.bit_of_rd (hrdp _) _).trans (hgl h0)⟩
    · rw [hframe]
    · rw [hframe]
    · rw [← hdue, hframe]
    · exact State.wordBad_congr (by rw [hframe]) (by rw [hframe]) (by rw [hframe])
  · rw [if_neg hlast] at heq
    obtain ⟨s6, hs6⟩ : ∃ s6, s6 = { s5 with glnPos := 0 }.bump (aGln 8) 1 := ⟨_, rfl⟩
    have hinv50 : State.Inv { s5 with glnPos := 0 } := { hinv5 with }
    have hinv6 : s6.Inv := by
      rw [hs6]
      exact hinv50.bump _ _
    have hframe6 : s6 = { s5 with glnPos := 0, regs := s6.regs } := by
      rw [hs6]
      rfl
    have hrd6 : ∀ a, a ≠ aGln 8 → s6.rd a = s5.rd a := fun a ha => by
      rw [hs6]
      exact (State.rd_wr_ne ha).trans (State.rd_setGlnPos s5 0 a)
    have hcount : s6.rd (aGln 8) = s5.rd (aGln 8) + 1 := by
      rw [hs6]
      refine (State.rd_wr_self hinv50.regs _ _).trans ?_
      rw [State.rd_setGlnPos]
      rfl
    have hsp := Spared.badSpares r.badSpares hinv6
    obtain ⟨u, hu⟩ : ∃ u, u = r.badSpares.foldl (fun s x => s.badSpare x.1.val x.2.val) s6 := ⟨_, rfl⟩
    rw [← hs6, ← hu] at heq
    rw [← hu] at hsp
    rw [heq]
    have hall : u = { s with regs := u.regs, repairQ := u.repairQ, fresh := u.fresh, glnDue := d, glnPos := 0 } := by
      rw [hsp.frame, hframe6, hframe]
    refine ⟨?_, ?_, ?_, fun hc => absurd hc hlast, fun _ => ⟨?_, ?_⟩, ?_, ?_, fun hm => ?_, fun _ hc => absurd hc hlast, fun h0 => ?_⟩
    · exact (State.bit_of_rd ((hsp.rd 4 (by decide)).trans (hrd6 _ (by decide))) 31).trans hbit5
    · rw [hall]
    · rw [hall]
    · rw [hall]
    · exact (hsp.rd 8 (by decide)).trans (hcount.trans (congrArg (· + 1) hrd8))
    · rw [← hdue, hall]
    · exact State.wordBad_congr (by rw [hall]) (by rw [hall]) (by rw [hall])
    · exact (State.bit_of_rd ((hsp.rd 0x10 (by decide)).trans (hrd6 _ (by decide))) 0).trans (hfail hm)
    · have hi := hinst h0
      exact (hsp.gleaning _ hi).trans ((State.bit_of_rd (hrd6 _ (by unfold aBnk aGln; omega)) 5).trans (hgl h0))

end Sys2Proof.Machine
end

section

/-! The Gleaner, the repair map and DRAM: the statement (O49). -/

namespace Sys2Proof.Machine

/- The next row (R343 to R345) ------------------------------------------------------------------------------------------------- -/

theorem field_top {x : Nat} (h : x < 2 ^ 31) : field (BitVec.ofNat 32 (x + 2 ^ 31)) 31 1 = 1 := by
  rw [field, BitVec.toNat_ofNat]
  omega

theorem glnTarget_lt (p : Nat) : (glnTarget p).1 < 4 ∧ (glnTarget p).2.1 < 48 := by
  unfold glnTarget
  by_cases h1 : p < 786432
  · rw [if_pos h1]
    exact ⟨(by decide : 0 < 4), by change p / 16384 < 48; omega⟩
  rw [if_neg h1]
  by_cases h2 : p < 884736
  · rw [if_pos h2]
    exact ⟨(by decide : 1 < 4), by change (p - 786432) / 8192 < 48; omega⟩
  rw [if_neg h2]
  by_cases h3 : p < 966656
  · rw [if_pos h3]
    exact ⟨(by decide : 2 < 4), (by decide : 0 < 48)⟩
  · rw [if_neg h3]
    exact ⟨(by decide : 3 < 4), (by decide : 0 < 48)⟩

/-- The word that names a row (R345). -/
def glnName (t : Nat × Nat × Nat) : W32 := BitVec.ofNat 32 (t.1 + t.2.1 % 64 * 2 ^ 4 + t.2.2 % 2 ^ 17 * 2 ^ 12 + 2 ^ 31)

theorem field_glnName (p : Nat) : field (glnName (glnTarget p)) 31 1 = 1 := by
  have hlt := (glnTarget_lt p).1
  exact field_top (by omega)

/-- The Gleaner copies a row (R328, R343 to R345). -/
theorem State.gleanBegin_spec {s : State} (h : s.Inv) (r : MarchResult) (hen : s.bit (aGln 0) 0 = true) (hdue : s.glnDue ≤ s.eclk) :
    let p := s.glnSkip 48 s.glnPos % glnRows
    let t := glnTarget p
    let s' := s.gleanBegin r
    s'.glnPos = p ∧ s'.mem = s.mem ∧ s'.ths = s.ths ∧ s'.rd (aGln 4) = glnName t ∧
    (∀ k, s'.wordBad k = (s.wordBad k || r.poisoned.any fun w => k == glnWord t.1 t.2.1 t.2.2 w.val)) ∧
    ((∃ w : Fin 32, s'.wordBad (glnWord t.1 t.2.1 t.2.2 w.val) = true) → s'.bit (aGln 0x10) 2 = true) ∧
    (t.1 = 0 → s'.bit (aBnk t.2.1 8) 5 = true ∧
      (s'.rd (aBnk t.2.1 0x18)).toNat = min ((s.rd (aBnk t.2.1 0x18)).toNat + r.corrected) 0xFFFFFFFF ∧
      (r.poisoned ≠ [] → s'.bit (aBnk t.2.1 0xC) 4 = true)) := by
  intro p t s'
  obtain ⟨v, hv⟩ : ∃ v, v = glnName t := ⟨_, rfl⟩
  obtain ⟨u, hu⟩ : ∃ u : State, u = { s with glnPos := p } := ⟨_, rfl⟩
  obtain ⟨s1, hs1⟩ : ∃ s1, s1 = u.wr (aGln 4) v := ⟨_, rfl⟩
  obtain ⟨s2, hs2⟩ : ∃ s2, s2 = if t.1 = 0 then s1.setB (aBnk t.2.1 8) 5 else s1 := ⟨_, rfl⟩
  have hs' : s' = s2.gleanCopy t.1 t.2.1 t.2.2 r := by
    have hgo : ¬ (s.bit (aGln 0) 0 = false ∨ s.eclk < s.glnDue) := by
      rw [hen]
      exact fun hc => hc.elim (fun hf => Bool.false_ne_true hf.symm) (Nat.not_lt.mpr hdue)
    rw [hs2, hs1, hu, hv]
    exact if_neg hgo
  have huinv : u.Inv := hu ▸ { h with }
  have hurd : ∀ a, u.rd a = s.rd a := fun a => hu ▸ State.rd_setGlnPos s p a
  have h1 : s1.Inv := hs1 ▸ huinv.wr _ _
  have hrd1 : ∀ a, a ≠ aGln 4 → s1.rd a = s.rd a := fun a ha => (hs1 ▸ State.rd_wr_ne ha).trans (hurd a)
  have hname : s1.rd (aGln 4) = v := hs1 ▸ State.rd_wr_self huinv.regs _ _
  have hframe1 : s1 = { s with glnPos := p, regs := s1.regs } := by
    rw [hs1, hu]
    rfl
  have hi48 : t.2.1 < 48 := (glnTarget_lt p).2
  have h2 : s2.Inv ∧ s2 = { s1 with regs := s2.regs } ∧ (∀ a, (t.1 = 0 → a ≠ aBnk t.2.1 8) → s2.rd a = s1.rd a) ∧
      (t.1 = 0 → s2.bit (aBnk t.2.1 8) 5 = true) := by
    by_cases h0 : t.1 = 0
    · rw [if_pos h0] at hs2
      rw [hs2]
      exact ⟨h1.setB _ _, rfl, fun a ha => State.rd_wf_ne (ha h0), fun _ => State.bit_setB_self h1.regs _ (by decide)⟩
    · rw [if_neg h0] at hs2
      rw [hs2]
      exact ⟨h1, rfl, fun _ _ => rfl, fun hc => absurd hc h0⟩
  obtain ⟨hinv2, hframe2, hrd2, hbit2⟩ := h2
  obtain ⟨-, hframe, hrd, hbad, hsticky, hbank⟩ := State.gleanCopy_spec hinv2 t.1 t.2.1 t.2.2 r
  obtain ⟨x, hx⟩ : ∃ x, x = s2.gleanCopy t.1 t.2.1 t.2.2 r := ⟨_, rfl⟩
  rw [← hx] at hframe hrd hbad hsticky hbank hs'
  have hall : x = { s with glnPos := p, regs := x.regs, bankPois := x.bankPois, recPois := x.recPois } := by
    rw [hframe, hframe2, hframe1]
  have hbad2 : ∀ k, s2.wordBad k = s.wordBad k := State.wordBad_congr (by rw [hframe2, hframe1]) (by rw [hframe2, hframe1])
    (by rw [hframe2, hframe1])
  rw [hs', ← hv]
  refine ⟨by rw [hall], by rw [hall], by rw [hall], ?_, fun k => (hbad k).trans (by rw [hbad2]), hsticky, fun h0 => ?_⟩
  · refine (hrd _ ?_).trans ((hrd2 _ fun _ => ?_).trans hname)
    · simp only [copyRegs, List.mem_cons, List.not_mem_nil, or_false, aBnk, aGln]
      omega
    · unfold aBnk aGln
      omega
  · obtain ⟨hce, herr⟩ := hbank h0 hi48
    have h18 : s2.rd (aBnk t.2.1 0x18) = s.rd (aBnk t.2.1 0x18) :=
      (hrd2 _ fun _ => aBnk_inj (by decide)).trans (hrd1 _ (by unfold aBnk aGln; omega))
    rw [h18] at hce
    refine ⟨(State.bit_of_rd (hrd _ ?_) 5).trans (hbit2 h0), hce, herr⟩
    simp only [copyRegs, List.mem_cons, List.not_mem_nil, or_false, aBnk, aGln]
    omega

/- DRAM (R349, R350) ----------------------------------------------------------------------------------------------------------- -/

theorem aDrc_ne {k o o' : Nat} (h : o' < 0x100) : aDrcCh k o ≠ aDrc o' := by unfold aDrcCh aDrc; omega

theorem aDrcCh_inj {k o o' : Nat} (h : o ≠ o') : aDrcCh k o ≠ aDrcCh k o' := by unfold aDrcCh; omega

/-- The first error of a channel is captured (R350). -/
theorem State.dramCapture_spec {s : State} (h : s.Inv) (k o : Nat) :
    let t := s.dramCapture k o
    t.Inv ∧ t.mem = s.mem ∧ ∀ a, a ≠ aDrcCh k 8 → a ≠ aDrcCh k 0xC → t.rd a = s.rd a := by
  intro t
  obtain ⟨v, hv⟩ : ∃ v : W32, v = BitVec.ofNat 32 (o / 2 ^ 32 % 8 + 2 ^ 31) := ⟨_, rfl⟩
  have ht : t = if s.bit (aDrcCh k 0xC) 31 then s else (s.wr (aDrcCh k 8) (BitVec.ofNat 32 o)).wr (aDrcCh k 0xC) v := by
    rw [hv]
    rfl
  rw [ht]
  split
  · exact ⟨h, rfl, fun _ _ _ => rfl⟩
  · exact ⟨(h.wr _ _).wr _ _, rfl, fun a h8 hC => (State.rd_wr_ne hC).trans (State.rd_wr_ne h8)⟩

theorem State.pprCand_frame (s : State) (o : Nat) : (s.pprCand o).regs = s.regs ∧ (s.pprCand o).mem = s.mem := by
  unfold State.pprCand
  split <;> exact ⟨rfl, rfl⟩

/-- An error of a channel is counted and noted (R350). -/
theorem State.dramNote_spec {s : State} (h : s.Inv) (k o c i : Nat) (hc : c < 8) (hi : i < 32) :
    let t := ((s.bumpSat (aDrcCh k c) 1).setB (aDrc 0xC) i).dramCapture k o
    t.Inv ∧ t.mem = s.mem ∧ t.rd (aDrcCh k c) = BitVec.ofNat 32 (min ((s.rd (aDrcCh k c)).toNat + 1) 0xFFFFFFFF) ∧
    t.bit (aDrc 0xC) i = true := by
  intro t
  obtain ⟨m, hm⟩ : ∃ m : W32, m = BitVec.ofNat 32 (min ((s.rd (aDrcCh k c)).toNat + 1) 0xFFFFFFFF) := ⟨_, rfl⟩
  obtain ⟨u, hu⟩ : ∃ u, u = (s.wr (aDrcCh k c) m).setB (aDrc 0xC) i := ⟨_, rfl⟩
  have hwr := h.wr (aDrcCh k c) m
  have huinv : u.Inv := hu ▸ hwr.setB _ _
  have humem : u.mem = s.mem := hu ▸ rfl
  have hself : u.rd (aDrcCh k c) = m := by
    rw [hu, State.setB, State.rd_wf_ne (aDrc_ne (by decide)), State.rd_wr_self h.regs]
  have hbit : u.bit (aDrc 0xC) i = true := hu ▸ State.bit_setB_self hwr.regs _ hi
  have ht : t = u.dramCapture k o := by
    rw [hu, hm]
    rfl
  obtain ⟨hinv, hmem, hrd⟩ := State.dramCapture_spec huinv k o
  rw [ht, ← hm]
  exact ⟨hinv, hmem.trans humem, (hrd _ (aDrcCh_inj (by omega)) (aDrcCh_inj (by omega))).trans hself,
    (State.bit_of_rd (hrd _ (aDrc_ne (by decide)).symm (aDrc_ne (by decide)).symm) i).trans hbit⟩

theorem State.dramUe_spec {s : State} (h : s.Inv) (o : Nat) :
    let ch := s.dramChan o
    (s.dramUe o).rd (aDrcCh ch 4) = BitVec.ofNat 32 (min ((s.rd (aDrcCh ch 4)).toNat + 1) 0xFFFFFFFF) ∧
    (s.dramUe o).bit (aDrc 0xC) 1 = true ∧ (s.dramUe o).mem = s.mem := by
  intro ch
  obtain ⟨-, hmem, hrd, hbit⟩ := State.dramNote_spec h ch o 4 1 (by decide) (by decide)
  have ht : s.dramUe o = (((s.bumpSat (aDrcCh ch 4) 1).setB (aDrc 0xC) 1).dramCapture ch o).pprCand o := rfl
  obtain ⟨u, hu⟩ : ∃ u, u = ((s.bumpSat (aDrcCh ch 4) 1).setB (aDrc 0xC) 1).dramCapture ch o := ⟨_, rfl⟩
  rw [← hu] at hmem hrd hbit ht
  obtain ⟨hregs, hpmem⟩ := u.pprCand_frame o
  rw [ht]
  exact ⟨(State.rd_congr hregs _).trans hrd, (State.bit_congr hregs _ _).trans hbit, hpmem.trans hmem⟩

theorem State.dramCe_spec {s : State} (h : s.Inv) (o : Nat) :
    let ch := s.dramChan o
    (s.dramCe o).rd (aDrcCh ch 0) = BitVec.ofNat 32 (min ((s.rd (aDrcCh ch 0)).toNat + 1) 0xFFFFFFFF) ∧
    (s.dramCe o).bit (aDrc 0xC) 0 = true ∧ (s.dramCe o).mem = s.mem := by
  intro ch
  obtain ⟨-, hmem, hrd, hbit⟩ := State.dramNote_spec h ch o 0 0 (by decide) (by decide)
  obtain ⟨u, hu⟩ : ∃ u, u = ((s.bumpSat (aDrcCh ch 0) 1).setB (aDrc 0xC) 0).dramCapture ch o := ⟨_, rfl⟩
  rw [← hu] at hmem hrd hbit
  obtain ⟨n, hn⟩ : ∃ n, n = spGet (fun _ => 0) s.rowCe (s.dramRow o) + 1 := ⟨_, rfl⟩
  obtain ⟨x, hx⟩ : ∃ x : State, x = { u with rowCe := spSet (fun _ => 0) u.rowCe (s.dramRow o) n } := ⟨_, rfl⟩
  have ht : s.dramCe o = if max 1 (s.rf (aDrc 8) 0 8) ≤ n then x.pprCand o else x := by
    rw [hx, hn, hu]
    rfl
  have hxregs : x.regs = u.regs := hx ▸ rfl
  have hxmem : x.mem = u.mem := hx ▸ rfl
  obtain ⟨hregs, hpmem⟩ := x.pprCand_frame o
  have hall : (s.dramCe o).regs = u.regs ∧ (s.dramCe o).mem = u.mem := by
    rw [ht]
    split
    · exact ⟨hregs.trans hxregs, hpmem.trans hxmem⟩
    · exact ⟨hxregs, hxmem⟩
  exact ⟨(State.rd_congr hall.1 _).trans hrd, (State.bit_congr hall.1 _ _).trans hbit, hall.2.trans hmem⟩

/-- Channel, row of 256 bytes and byte of a place. -/
theorem cell_unique {q r b q' r' b' : Nat} (hb : b < 2 ^ 8) (hb' : b' < 2 ^ 8) (hq : q < 2 ^ 23) (hq' : q' < 2 ^ 23)
    (h : r * 2 ^ 31 + (q * 2 ^ 8 + b) = r' * 2 ^ 31 + (q' * 2 ^ 8 + b')) : q = q' ∧ r = r' ∧ b = b' := by
  have hr : r = r' := by omega
  omega

/-- An offset names one place of the stacks (R349). -/
theorem State.dramCell_inj {s : State} {o o' : Nat} (ho : o < 2 ^ 35) (ho' : o' < 2 ^ 35) (h : s.dramCell o = s.dramCell o') : o = o' := by
  unfold State.dramCell State.dramChan State.dramC at h
  split at h
  · omega
  · obtain ⟨hq, hr, hb⟩ := cell_unique (q := o / 2 ^ 12) (r := o / 2 ^ 8 % 16) (b := o % 2 ^ 8) (q' := o' / 2 ^ 12) (r' := o' / 2 ^ 8 % 16)
      (b' := o' % 2 ^ 8) (by omega) (by omega) (by omega) (by omega) h
    omega

theorem State.dramCell_congr {s t : State} (h : t.regs = s.regs) (o : Nat) : t.dramCell o = s.dramCell o := by
  unfold State.dramCell State.dramChan State.dramC
  rw [State.bit_congr h]

/-- Bytes that are stored in the DRAM (R349). -/
theorem State.setDram_spec (l : List Byte) {s : State} (h : s.Inv) {o : Nat} (ho : o + l.length ≤ 2 ^ 35) :
    (∀ i < l.length, (s.setDram o l).byte (dramKey (s.dramCell (o + i))) = l.getD i 0) ∧
    ∀ o', o' < o → (s.setDram o l).byte (dramKey (s.dramCell o')) = s.byte (dramKey (s.dramCell o')) := by
  induction l generalizing s o with
  | nil => exact ⟨fun i hi => absurd hi (Nat.not_lt_zero i), fun _ _ => rfl⟩
  | cons v l ih =>
    have hlen : (v :: l).length = l.length + 1 := rfl
    have hbound : o + 1 + l.length ≤ 2 ^ 35 := by omega
    have hlt : o < 2 ^ 35 := by omega
    obtain ⟨u, hu⟩ : ∃ u, u = s.setByte (dramKey (s.dramCell o)) v := ⟨_, rfl⟩
    have huinv : u.Inv := hu ▸ (State.setByte_keeps (.refl s) _ _).inv h
    have hself : u.byte (dramKey (s.dramCell o)) = v := hu ▸ State.byte_setByte_self h.mem _ _
    have hother : ∀ a, a ≠ dramKey (s.dramCell o) → u.byte a = s.byte a := fun a ha => hu ▸ State.byte_setByte_ne ha
    have hcell : ∀ x, u.dramCell x = s.dramCell x := State.dramCell_congr (hu ▸ rfl)
    have hset : s.setDram o (v :: l) = u.setDram (o + 1) l := by
      rw [hu]
      rfl
    obtain ⟨hin, hout⟩ := ih huinv hbound
    rw [hset]
    refine ⟨fun i hi => ?_, fun o' ho' => ?_⟩
    · cases i with
      | zero =>
        have hstep := hout o (Nat.lt_succ_self o)
        rw [hcell, hself] at hstep
        exact hstep
      | succ i =>
        have hstep := hin i (by omega)
        rw [hcell, Nat.add_assoc, Nat.add_comm 1 i] at hstep
        exact hstep
    · have hstep := hout o' (by omega)
      rw [hcell] at hstep
      refine hstep.trans (hother _ fun hc => ?_)
      have hcc : s.dramCell o' = s.dramCell o := Nat.add_left_cancel hc
      have := State.dramCell_inj (by omega) hlt hcc
      omega

section
variable {s : State} {o n : Nat} {w : Option (List Byte)} {ecc : Ecc}

/-- A burst that cannot be read (R350, R352). -/
def State.badBurst (s : State) (o : Nat) (ecc : Ecc) : Prop := ecc.ue = true ∨ s.isPoison (s.burstOf o) = true

theorem State.dramDo_bad (hr : (w.isNone || n != 32) = true) (hb : s.badBurst o ecc) : s.dramDo o n w ecc = (s.dramUe o, .err 2) := by
  refine if_pos ?_
  rw [hr, Bool.true_and, Bool.or_eq_true]
  exact hb

theorem State.dramDo_good (hr : (w.isNone || n != 32) = true) (hb : ¬ s.badBurst o ecc) :
    let s1 := if ecc.ce = 0 then s else s.dramCe o
    s.dramDo o n w ecc = (w.elim s1 fun l => (s1.setDram o l).setPoison (s.burstOf o) false, .ok) := by
  intro s1
  have hs1 : (if (w.isNone || n != 32) && ecc.ce != 0 then s.dramCe o else s) = s1 := by
    rw [hr, Bool.true_and]
    unfold s1
    by_cases h0 : ecc.ce = 0
    · rw [if_pos h0, if_neg (by rw [h0]; decide)]
    · rw [if_neg h0, if_pos (bne_iff_ne.mpr h0)]
  unfold State.dramDo
  dsimp only
  rw [hs1, if_neg]
  · cases w <;> rfl
  · rw [hr, Bool.true_and, Bool.or_eq_true]
    exact hb

theorem State.dramDo_whole (l : List Byte) :
    s.dramDo o 32 (some l) ecc = ((s.setDram o l).setPoison (s.burstOf o) false, .ok) := rfl

end

/-- An access that the controller of a channel performs (R350, R361). -/
theorem State.dramServe_takes {s : State} {k : Nat} {t : Txn} {rest : List (Nat × Txn)} (hs : s.sleeping = false)
    (ht : takeChan k s.dramq = some (t, rest)) (hb : s.dramBehind k t.master = false) (ecc : Ecc) :
    s.dramServe k ecc = ({ s with dramq := rest }.dramDo (t.addr - 0x1000000000) t.size t.data ecc).1.answer t
      ({ s with dramq := rest }.dramDo (t.addr - 0x1000000000) t.size t.data ecc).2 := by
  unfold State.dramServe
  rw [hs, if_neg Bool.false_ne_true, ht]
  dsimp only
  rw [hb, if_neg Bool.false_ne_true]

theorem State.dramServe_behind {s : State} {k : Nat} {t : Txn} {rest : List (Nat × Txn)} (hs : s.sleeping = false)
    (ht : takeChan k s.dramq = some (t, rest)) (hb : s.dramBehind k t.master = true) (ecc : Ecc) : s.dramServe k ecc = s := by
  unfold State.dramServe
  rw [hs, if_neg Bool.false_ne_true, ht]
  exact if_pos hb

theorem State.dramServe_none {s : State} {k : Nat} (ht : takeChan k s.dramq = none) (ecc : Ecc) : s.dramServe k ecc = s := by
  unfold State.dramServe
  rw [ht]
  exact ite_self s

/-- The next repair record, if the map has room (R347). -/
theorem State.mapWrite_room {s : State} {r : Repair} {rest : List Repair} (hq : s.repairQ = r :: rest) (hr : s.nv.repairs.length < 4096) :
    s.mapWrite = ({ s with repairQ := rest }.wf (aNvc 4) 0 13 (s.nv.repairs.length + 1)).nvPut
      { s.nv with repairs := s.nv.repairs ++ [r] } := by
  unfold State.mapWrite
  rw [hq]
  exact if_pos hr

theorem State.mapWrite_full {s : State} {r : Repair} {rest : List Repair} (hq : s.repairQ = r :: rest) (hr : 4096 ≤ s.nv.repairs.length) :
    s.mapWrite = ({ s with repairQ := rest }.setB (aNvc 8) 0).setB (aHlt 0) 10 := by
  unfold State.mapWrite
  rw [hq]
  exact if_neg (Nat.not_lt.mpr hr)

theorem State.mapWrite_none {s : State} (hq : s.repairQ = []) : s.mapWrite = s := by
  unfold State.mapWrite
  rw [hq]

section
variable {s : State} {k : Nat} (hen : s.bit (aDrc 8) 8 = true) (hs : s.sleeping = false) {c : Nat} {rest : List Nat}
  (hc : takeCand k s.pprq = some (c, rest)) (bad : BitVec 32)

/-- A candidate row that takes a spare, its unreadable bursts carried as poisoned (R352). -/
def State.rowPoisoned (s : State) (c : Nat) (bad : BitVec 32) : State :=
  ((List.range 32).filter fun i => bad.getLsbD i).foldl (fun t i => t.setPoison (32 * c + i) true) s

theorem State.softPpr_none (h : s.bit (aDrc 8) 8 = false ∨ takeCand k s.pprq = none) (left : Bool) : s.softPpr k left bad = s := by
  unfold State.softPpr
  rcases h with h | h
  · exact if_pos (.inl h)
  · rw [h]
    exact ite_self s

include hen hs hc

theorem State.softPpr_takes :
    let s3 := ((State.rowPoisoned { s with pprq := rest } c bad).wf (aDrcCh k 0x10) 0 16 (s.rf (aDrcCh k 0x10) 0 16 + 1)).setB (aDrc 0xC) 2
    s.softPpr k true bad = if s.bit (aDrc 8) 9 then s3.queueRepair ⟨5, 1, k, c % 2 ^ 21⟩ else s3 := by
  intro s3
  unfold State.softPpr
  rw [if_neg (by rw [hen, hs]; decide), hc]
  rfl

theorem State.softPpr_exhausted :
    s.softPpr k false bad = ({ s with pprq := rest }.setB (aDrc 0xC) 3).setB (aHlt 0) 10 := by
  unfold State.softPpr
  rw [if_neg (by rw [hen, hs]; decide), hc]
  rfl

end

/-- Settles O49: a row of the Gleaner by its copy and its end, the DRAM by its accesses, repairs by the spares they take. -/
theorem repairAndDram : Obligations.RepairAndDram := by
  unfold Obligations.RepairAndDram
  refine ⟨?_, ?_, ?_, ?_, ?_, ?_, ?_, ?_, ?_, ?_, ?_⟩
  · intro s r
    have hexec : ∀ {u}, s.sleeping = false → (if s.bit (aGln 4) 31 then s.gleanEnd r else s.gleanBegin r) = u →
        exec (.gleanerRow r) s = .next u := fun hs hu => congrArg Host.Outcome.next ((State.awakeDo_awake hs _).trans hu)
    refine ⟨fun hno => ?_, fun hb hs => hexec hs (if_pos hb), fun hen hdue hb hs hinv => ?_⟩
    · by_cases hs : s.sleeping = true
      · exact congrArg Host.Outcome.next (if_pos hs)
      · obtain ⟨hoff, hb⟩ := hno.resolve_right hs
        exact hexec (Bool.eq_false_iff.mpr hs) ((if_neg (hb ▸ Bool.false_ne_true)).trans (if_pos hoff))
    · intro p t
      obtain ⟨hpos, hmem, hths, hname, hbad, hsticky, hbank⟩ := State.gleanBegin_spec hinv r hen hdue
      refine ⟨_, hexec hs (if_neg (hb ▸ Bool.false_ne_true)), hpos, hmem, hths, ?_, hname, fun w hw => ?_, fun k hk => ?_, hsticky, hbank⟩
      · have hfield : (s.gleanBegin r).rf (aGln 4) 31 1 = 1 := (congrArg (field · 31 1) hname).trans (field_glnName p)
        exact beq_iff_eq.mpr hfield
      · rw [hbad, Bool.or_eq_true, List.any_eq_true]
        exact .inr ⟨w, hw, beq_self_eq_true _⟩
      · have hnone : (r.poisoned.any fun w => k == glnWord t.1 t.2.1 t.2.2 w.val) = false :=
          List.any_eq_false.mpr fun w hw => by
            rw [beq_iff_eq]
            exact hk w hw
        exact (hbad k).trans ((congrArg (s.wordBad k || ·) hnone).trans (Bool.or_false _))
  · intro s r hinv _
    exact State.gleanEnd_spec hinv r
  · intro inst row w
    refine ⟨?_, rfl, rfl, rfl⟩
    change bankWord inst (256 * row) + w = _
    unfold bankWord
    omega
  · intro s k v j _ _ hb
    exact State.wordBad_setTask k v hb
  · intro s inst row hinv hrow
    exact ⟨fun i hf => State.softRepair_takes hinv inst.isLt hrow hf, fun hf => State.softRepair_exhausted hinv inst.isLt hf⟩
  · intro s r rest
    exact ⟨fun hq hr => congrArg Host.Outcome.next (State.mapWrite_room hq hr), fun hq hr => congrArg Host.Outcome.next (State.mapWrite_full hq hr),
      fun hq => congrArg Host.Outcome.next (State.mapWrite_none hq)⟩
  · intro s k ecc t rest q
    exact ⟨fun hs ht => ⟨fun hb => congrArg Host.Outcome.next (State.dramServe_takes hs ht hb ecc),
      fun hb => congrArg Host.Outcome.next (State.dramServe_behind hs ht hb ecc)⟩,
      fun ht => congrArg Host.Outcome.next (State.dramServe_none ht ecc)⟩
  · intro s o n ecc bad
    refine ⟨fun hb => State.dramDo_bad rfl hb, fun hb => State.dramDo_good (w := none) rfl hb, fun l => ⟨fun hn => ?_, fun hn hb => ?_,
      fun hn hb => ?_, fun hinv ho => (State.setDram_spec l hinv ho).1⟩, fun hinv => ?_⟩
    · subst hn
      exact State.dramDo_whole l
    · exact State.dramDo_bad (bne_iff_ne.mpr hn) hb
    · exact State.dramDo_good (w := some l) (bne_iff_ne.mpr hn) hb
    · intro ch
      obtain ⟨hurd, hubit, humem⟩ := State.dramUe_spec hinv o
      obtain ⟨hcrd, hcbit, hcmem⟩ := State.dramCe_spec hinv o
      exact ⟨hurd, hubit, hcrd, hcbit, hcmem, humem⟩
  · intro s k burst ecc t c l
    refine ⟨fun h => congrArg Host.Outcome.next (if_pos h), fun hr hs hp => ?_⟩
    have hgo : ¬ (s.rf (aDrc 4) 0 16 = 0 ∨ s.sleeping = true ∨ spGet (fun _ => false) s.scrubbed c = true) := by
      rw [hs, hp]
      simpa using hr
    exact ⟨fun hl => congrArg Host.Outcome.next ((if_neg hgo).trans (if_pos hl)),
      fun hl => congrArg Host.Outcome.next ((if_neg hgo).trans (if_neg (Nat.not_lt.mpr hl)))⟩
  · intro s k c rest bad s1 s2 s3 hen hs hc
    have htakes := State.softPpr_takes hen hs hc bad
    exact ⟨fun h9 => congrArg Host.Outcome.next (htakes.trans (if_pos h9)),
      fun h9 => congrArg Host.Outcome.next (htakes.trans (if_neg (h9 ▸ Bool.false_ne_true))),
      congrArg Host.Outcome.next (State.softPpr_exhausted hen hs hc bad)⟩
  · intro s k left bad h
    exact congrArg Host.Outcome.next (State.softPpr_none bad h left)

end Sys2Proof.Machine
end

section

/-! The matrix and the peripheral DMA: the statement (O50). -/

namespace Sys2Proof.Machine

/- Arbitration (R358) ---------------------------------------------------------------------------------------------------------- -/

/-- The best head is one of the list, and none has a larger key. -/
theorem bestHead_spec (l : List (Nat × Txn)) : (bestHead l = none ↔ l = []) ∧
    ∀ x, bestHead l = some x → ∃ e, (e, x) ∈ l ∧ ∀ p ∈ l, p.1 ≤ e := by
  induction l with
  | nil => exact ⟨⟨fun _ => rfl, fun _ => rfl⟩, fun x hx => absurd hx (Option.some_ne_none x).symm⟩
  | cons p l ih =>
    obtain ⟨e, y⟩ := p
    obtain ⟨hnone, hsome⟩ := ih
    cases hb : bestHead l with
    | none =>
      have hl := hnone.mp hb
      have heq : bestHead ((e, y) :: l) = some y := by rw [bestHead, hb]
      rw [heq]
      refine ⟨⟨fun hc => absurd hc (Option.some_ne_none y), fun hc => absurd hc (List.cons_ne_nil _ _)⟩, fun x hx => ?_⟩
      obtain rfl := Option.some.inj hx
      subst hl
      exact ⟨e, List.mem_singleton.mpr rfl, fun p hp => (congrArg Prod.fst (List.mem_singleton.mp hp)).le⟩
    | some z =>
      obtain ⟨ez, hz, hmax⟩ := hsome z hb
      have heq : bestHead ((e, y) :: l) = if l.any fun p => e < p.1 then some z else some y := by rw [bestHead, hb]
      rw [heq]
      by_cases hany : (l.any fun p => e < p.1) = true
      · rw [if_pos hany]
        refine ⟨⟨fun hc => absurd hc (Option.some_ne_none z), fun hc => absurd hc (List.cons_ne_nil _ _)⟩, fun x hx => ?_⟩
        obtain rfl := Option.some.inj hx
        obtain ⟨p, hp, hlt⟩ := List.any_eq_true.mp hany
        have hez := hmax p hp
        have hlt := of_decide_eq_true hlt
        exact ⟨ez, List.mem_cons_of_mem _ hz, List.forall_mem_cons.mpr ⟨by dsimp only; omega, hmax⟩⟩
      · rw [if_neg hany]
        refine ⟨⟨fun hc => absurd hc (Option.some_ne_none y), fun hc => absurd hc (List.cons_ne_nil _ _)⟩, fun x hx => ?_⟩
        obtain rfl := Option.some.inj hx
        refine ⟨e, List.mem_cons_self, List.forall_mem_cons.mpr ⟨Nat.le_refl e, fun p hp => ?_⟩⟩
        exact Nat.not_lt.mp fun hlt => hany (List.any_eq_true.mpr ⟨p, hp, decide_eq_true hlt⟩)

/-- The heads that a port may grant, with their effective QoS (R358). -/
def State.grantHeads (s : State) (t : Nat) : List (Nat × Txn) :=
  let ptr := s.rf (aMtx (0x80 + 4 * t)) 16 5
  (((((List.range 22).map fun i => (ptr + 1 + i) % 22).filterMap (s.headAt t)).filter (s.grantable t)).map fun x =>
    (effQos (s.rf (aMtx (0x80 + 4 * t)) 0 8) x.qos x.wait, x))

theorem State.mem_grantHeads {s : State} {t : Nat} {p : Nat × Txn} : p ∈ s.grantHeads t ↔
    p.1 = effQos (s.rf (aMtx (0x80 + 4 * t)) 0 8) p.2.qos p.2.wait ∧ (∃ m < 22, s.headAt t m = some p.2) ∧ s.grantable t p.2 = true := by
  unfold State.grantHeads
  simp only [List.mem_map, List.mem_filter, List.mem_filterMap, List.mem_range]
  constructor
  · rintro ⟨x, ⟨⟨m, ⟨i, -, rfl⟩, hx⟩, hg⟩, rfl⟩
    exact ⟨rfl, ⟨_, Nat.mod_lt _ (by decide), hx⟩, hg⟩
  · rintro ⟨h1, ⟨m, hm, hx⟩, hg⟩
    refine ⟨p.2, ⟨⟨m, ⟨(m + 22 - (s.rf (aMtx (0x80 + 4 * t)) 16 5 + 1) % 22) % 22, Nat.mod_lt _ (by decide), ?_⟩, hx⟩, hg⟩, ?_⟩
    · omega
    · rw [← h1]

theorem State.winner_eq (s : State) (t : Nat) : s.winner t = bestHead (s.grantHeads t) := rfl

/-- A port grants the head with the highest effective QoS (R358). -/
theorem State.winner_some {s : State} {t : Nat} {x : Txn} (h : s.winner t = some x) :
    (∃ m < 22, s.headAt t m = some x) ∧ s.grantable t x = true ∧
    ∀ m < 22, ∀ y, s.headAt t m = some y → s.grantable t y = true →
      effQos (s.rf (aMtx (0x80 + 4 * t)) 0 8) y.qos y.wait ≤ effQos (s.rf (aMtx (0x80 + 4 * t)) 0 8) x.qos x.wait := by
  rw [State.winner_eq] at h
  obtain ⟨e, hx, hmax⟩ := (bestHead_spec _).2 x h
  obtain ⟨he, hhead, hg⟩ := State.mem_grantHeads.mp hx
  refine ⟨hhead, hg, fun m hm y hy hyg => ?_⟩
  have hle := hmax (effQos (s.rf (aMtx (0x80 + 4 * t)) 0 8) y.qos y.wait, y) (State.mem_grantHeads.mpr ⟨rfl, ⟨m, hm, hy⟩, hyg⟩)
  exact hle.trans he.le

theorem State.winner_none {s : State} {t : Nat} :
    s.winner t = none ↔ ∀ m < 22, ∀ y, s.headAt t m = some y → s.grantable t y = false := by
  rw [State.winner_eq, (bestHead_spec _).1, List.eq_nil_iff_forall_not_mem]
  constructor
  · intro h m hm y hy
    exact Bool.eq_false_iff.mpr fun hg => h (effQos (s.rf (aMtx (0x80 + 4 * t)) 0 8) y.qos y.wait, y) (State.mem_grantHeads.mpr ⟨rfl, ⟨m, hm, hy⟩, hg⟩)
  · intro h p hp
    obtain ⟨-, ⟨m, hm, hx⟩, hg⟩ := State.mem_grantHeads.mp hp
    exact Bool.false_ne_true ((h m hm _ hx).symm.trans hg)

section
variable {s : State} {t n : Nat}

theorem State.grantPort_busy (h : n < s.portBusy t) :
    s.grantPort t n = ((s.decodeErr.ageHeads t n).fetchAll).occupy t (s.portBusy t - n) := if_pos h

variable (h : s.portBusy t ≤ n)
include h

theorem State.grantPort_grants {x : Txn} (hw : ((s.decodeErr.ageHeads t n).fetchAll).winner t = some x) :
    let s1 := (s.decodeErr.ageHeads t n).fetchAll
    s.grantPort t n = ((({ s1 with mtxq := dropTxn x s1.mtxq }.granted_ t x).occupy t x.beats.length).toTarget t x) := by
  intro s1
  refine (if_neg (Nat.not_lt.mpr h)).trans ?_
  rw [hw]

theorem State.grantPort_none (hw : ((s.decodeErr.ageHeads t n).fetchAll).winner t = none) :
    s.grantPort t n = ((s.decodeErr.ageHeads t n).fetchAll).occupy t 0 := by
  refine (if_neg (Nat.not_lt.mpr h)).trans ?_
  rw [hw]

end

/-- CNT_CLEAR of the matrix (R359). -/
theorem State.rd_mtxClear (s : State) (a : Nat) :
    s.mtxClear.rd a = if aMtx 0x100 ≤ a ∧ a < aMtx 0x180 then regReset a else s.rd a := by
  have hget := spGet_filter regReset (fun k => !(decide (aMtx 0x100 ≤ k) && decide (k < aMtx 0x180))) s.regs a
  refine hget.trans ?_
  by_cases h : aMtx 0x100 ≤ a ∧ a < aMtx 0x180
  · rw [if_pos h, if_neg]
    rw [decide_eq_true h.1, decide_eq_true h.2]
    decide
  · rw [if_neg h, if_pos]
    · rfl
    · rw [Bool.not_eq_true', Bool.and_eq_false_iff, decide_eq_false_iff_not, decide_eq_false_iff_not]
      exact not_and_or.mp h

/- Register accesses at ports 15 and 16 (R365) --------------------------------------------------------------------------------- -/

section
variable {s : State} {t : Nat} (ht : 15 ≤ t) {x : Txn}
include ht

theorem State.toTarget_bridge : s.toTarget t x = s.bridge x := by
  unfold State.toTarget
  rw [if_neg (by omega), if_neg (by omega), if_neg (by omega)]

theorem State.toTarget_refused (h : x.size ≠ 4 ∨ (x.addr - 0x80000000) % 4 ≠ 0) : s.toTarget t x = s.respond x (.error 3) :=
  (State.toTarget_bridge ht).trans (if_pos h)

variable (h4 : x.size = 4) (ha : (x.addr - 0x80000000) % 4 = 0)
include h4 ha

theorem State.toTarget_write {l : List Byte} (hd : x.data = some l) (hf : x.for_ = .lone) :
    s.toTarget t x = s.bridgeWrite (busAgent x.master) (x.addr - 0x80000000) (BitVec.ofNat 32 (leNat l)) := by
  have hlone : ∀ u : State, u.respond x (.ok []) = u := fun u => by
    unfold State.respond
    rw [hf]
  rw [State.toTarget_bridge ht]
  unfold State.bridge
  dsimp only
  rw [if_neg (by rw [h4, ha]; decide), hd]
  exact hlone _

theorem State.toTarget_read (hd : x.data = none) :
    s.toTarget t x = (s.bridgeRead (busAgent x.master) (x.addr - 0x80000000)).1.respond x
      (.ok (natLe 4 (s.bridgeRead (busAgent x.master) (x.addr - 0x80000000)).2.toNat)) := by
  rw [State.toTarget_bridge ht]
  unfold State.bridge
  dsimp only
  rw [if_neg (by rw [h4, ha]; decide), hd]

end

/- Channels of the DMA (R368 to R373) ------------------------------------------------------------------------------------------ -/

theorem State.wf_frame (s : State) (a lo w x : Nat) : s.wf a lo w x = { s with regs := (s.wf a lo w x).regs } := rfl

theorem State.setB_frame (s : State) (a i : Nat) : s.setB a i = { s with regs := (s.setB a i).regs } := rfl

theorem aDma_inj {c o o' : Nat} (h : o ≠ o') : aDma c o ≠ aDma c o' := by unfold aDma; omega

theorem takeNat_none {k : Nat} {l : List Nat} (h : k ∉ l) : takeNat k l = none := by
  induction l with
  | nil => rfl
  | cons a l ih =>
    obtain ⟨hne, hl⟩ := List.ne_and_not_mem_of_not_mem_cons h
    rw [takeNat, if_neg (Ne.symm hne), ih hl]
    rfl

section
variable {s : State} {c : Nat}

theorem State.dmaEnable_good (h0 : s.bit (aDma c 0x1C) 0 = false)
    (hg : s.dmaSideOk c false = true ∧ s.dmaSideOk c true = true ∧ trigCode (s.rf (aDma c 0x18) 0 7) = true) :
    s.dmaEnable c = (((s.setB (aDma c 0x1C) 0).wf (aDma c 0x20) 0 3 1).wf (aDma c 0x20) 16 16 0).setDma c ⟨0, 0, none, false⟩ := by
  obtain ⟨hsrc, hdst, htrig⟩ := hg
  unfold State.dmaEnable
  rw [h0, if_neg Bool.false_ne_true, hsrc, hdst, htrig]
  rfl

theorem State.dmaEnable_bad (h0 : s.bit (aDma c 0x1C) 0 = false)
    (hg : ¬ (s.dmaSideOk c false = true ∧ s.dmaSideOk c true = true ∧ trigCode (s.rf (aDma c 0x18) 0 7) = true)) :
    s.dmaEnable c = s.flag (aDma c 0x24) 2 := by
  unfold State.dmaEnable
  rw [h0, if_neg Bool.false_ne_true, if_neg]
  rw [Bool.and_eq_true, Bool.and_eq_true, and_assoc]
  exact hg

theorem State.dmaTrigger_waits (h : s.dmaState c = 1) : s.dmaTrigger c = s.dmaBegin c := if_pos h

theorem State.dmaTrigger_moving (h : s.dmaState c = 2) :
    s.dmaTrigger c = if s.bit (aDma c 0x20) 4 then s.flag (aDma c 0x24) 0 else s.setB (aDma c 0x20) 4 :=
  (if_neg (by rw [h]; decide)).trans (if_pos h)

theorem State.dmaTrigger_other (h1 : s.dmaState c ≠ 1) (h2 : s.dmaState c ≠ 2) : s.dmaTrigger c = s :=
  (if_neg h1).trans (if_neg h2)

/-- An element whose channel meets an error (R373). -/
theorem State.dmaError_spec (h : s.Inv) (a : Nat) :
    let t := s.dmaError c a
    t.dmaState c = 4 ∧ t.bit (aDma c 0x1C) 0 = false ∧ t.bit (aDma c 0x24) 1 = true ∧
    t.rd (aDma c 0x28) = BitVec.ofNat 32 a ∧ t.rd (aDma c 0x2C) = BitVec.ofNat 32 (a / 2 ^ 32 % 256) ∧ t.mem = s.mem ∧
    t.evq = s.evq ++ [EvReq.mk rkDma none 9 (BitVec.ofNat 32 c)] := by
  intro t
  obtain ⟨v, hv⟩ : ∃ v : W32, v = BitVec.ofNat 32 a := ⟨_, rfl⟩
  obtain ⟨w, hw⟩ : ∃ w : W32, w = BitVec.ofNat 32 (a / 2 ^ 32 % 256) := ⟨_, rfl⟩
  obtain ⟨s1, hs1⟩ : ∃ s1, s1 = ((s.clrB (aDma c 0x1C) 0).wf (aDma c 0x20) 0 3 4).setB (aDma c 0x24) 1 := ⟨_, rfl⟩
  obtain ⟨s2, hs2⟩ : ∃ s2, s2 = s1.setDma c { s1.dmaCh c with elem := none, stop := false } := ⟨_, rfl⟩
  obtain ⟨s3, hs3⟩ : ∃ s3, s3 = (s2.wr (aDma c 0x28) v).wr (aDma c 0x2C) w := ⟨_, rfl⟩
  have ht : t = s3.post rkDma none 9 c := by
    rw [hs3, hs2, hs1, hv, hw]
    rfl
  have hclr := h.clrB (aDma c 0x1C) 0
  have hwf := hclr.wf (aDma c 0x20) 0 3 4
  have h1 : s1.Inv := hs1 ▸ hwf.setB _ _
  have h2 : s2.Inv := hs2 ▸ (State.setDma_keeps (.refl s1) c _).inv h1
  have hregs2 : s2.regs = s1.regs := by
    rw [hs2]
    rfl
  have hregs : t.regs = s3.regs := ht ▸ State.post_regs s3 _ _ _ _
  have hf1 : s1 = { s with regs := s1.regs } := by
    obtain ⟨x, hx⟩ : ∃ x, x = s.clrB (aDma c 0x1C) 0 := ⟨_, rfl⟩
    obtain ⟨y, hy⟩ : ∃ y, y = x.wf (aDma c 0x20) 0 3 4 := ⟨_, rfl⟩
    have hfx : x = { s with regs := x.regs } := hx ▸ State.clrB_frame s _ _
    have hfy : y = { x with regs := y.regs } := hy ▸ State.wf_frame x _ _ _ _
    have hf : s1 = { y with regs := s1.regs } := by
      rw [hs1, ← hx, ← hy]
      exact State.setB_frame y _ _
    rw [hf, hfy, hfx]
  have hf2 : s2 = { s1 with dma := s2.dma } := by
    rw [hs2]
    rfl
  have hf3 : s3 = { s2 with regs := s3.regs } := by
    rw [hs3]
    rfl
  have hrest : t.mem = s.mem ∧ t.evq = s.evq ++ [EvReq.mk rkDma none 9 (BitVec.ofNat 32 c)] := by
    rw [ht, hf3, hf2, hf1]
    exact ⟨rfl, rfl⟩
  have hoff : ∀ {o}, o ≠ 0x28 → o ≠ 0x2C → t.rd (aDma c o) = s1.rd (aDma c o) := fun h28 h2C => by
    rw [State.rd_congr hregs, hs3, State.rd_wr_ne (aDma_inj h2C), State.rd_wr_ne (aDma_inj h28), State.rd_congr hregs2]
  rw [← hv, ← hw]
  refine ⟨?_, ?_, ?_, ?_, ?_, hrest⟩
  · refine (State.rf_of_rd (hoff (by decide) (by decide)) 0 3).trans ?_
    rw [hs1, State.setB, State.rf_of_rd (State.rd_wf_ne (aDma_inj (by decide))), State.rf_wf_self hclr.regs _ _ (by decide)]
    rfl
  · refine (State.bit_of_rd (hoff (by decide) (by decide)) 0).trans ?_
    rw [hs1]
    exact (State.bit_wr_ne _ _ (aDma_inj (by decide))).trans ((State.bit_wr_ne _ _ (aDma_inj (by decide))).trans
      (State.bit_clrB_self h.regs _ (by decide)))
  · refine (State.bit_of_rd (hoff (by decide) (by decide)) 1).trans ?_
    rw [hs1]
    exact State.bit_setB_self hwf.regs _ (by decide)
  · rw [State.rd_congr hregs, hs3, State.rd_wr_ne (aDma_inj (by decide)), State.rd_wr_self h2.regs]
  · rw [State.rd_congr hregs, hs3, State.rd_wr_self (h2.wr _ _).regs]

theorem State.dmaServes_some (h : s.dmaServes = some c) : s.dmaBusy c = true ∨ (s.dmaState c = 2 ∧ 0 < (s.dmaCh c).left) := by
  unfold State.dmaServes at h
  split at h
  next d hd =>
    obtain rfl := Option.some.inj h
    exact .inl (List.find?_some hd)
  next =>
    have hp := List.find?_some h
    rw [Bool.and_eq_true, beq_iff_eq, decide_eq_true_eq] at hp
    exact .inr hp

end

/- Elements (R370, R371, R373) ------------------------------------------------------------------------------------------------- -/

section
variable {s s1 : State} {c : Nat} {l : List Byte}

/-- An element that has been read goes to its destination. -/
theorem State.dmaStore_waits (hp : s.dmaPut c (s.dmaAddr c true (s.dmaCh c).moved) l = (s1, none)) : s.dmaStore c l = s1 := by
  unfold State.dmaStore
  dsimp only
  rw [hp]

theorem State.dmaStore_fails (hp : s.dmaPut c (s.dmaAddr c true (s.dmaCh c).moved) l = (s1, some false)) :
    s.dmaStore c l = s1.dmaError c (s.dmaAddr c true (s.dmaCh c).moved) := by
  unfold State.dmaStore
  dsimp only
  rw [hp]

theorem State.dmaStore_done (hp : s.dmaPut c (s.dmaAddr c true (s.dmaCh c).moved) l = (s1, some true)) :
    s.dmaStore c l = s1.dmaNextElem c := by
  unfold State.dmaStore
  dsimp only
  rw [hp]

theorem State.dmaMove_waits (he : (s.dmaCh c).elem = none)
    (hp : State.dmaRead { s with dmaLast := c } c (s.dmaAddr c false (s.dmaCh c).moved) (s.dmaElem c) = (s1, none)) :
    s.dmaMove c = s1 := by
  unfold State.dmaMove
  dsimp only
  rw [he]
  dsimp only
  rw [hp]

theorem State.dmaMove_fails (he : (s.dmaCh c).elem = none) {k : Nat}
    (hp : State.dmaRead { s with dmaLast := c } c (s.dmaAddr c false (s.dmaCh c).moved) (s.dmaElem c) = (s1, some (.error k))) :
    s.dmaMove c = s1.dmaError c (s.dmaAddr c false (s.dmaCh c).moved) := by
  unfold State.dmaMove
  dsimp only
  rw [he]
  dsimp only
  rw [hp]

theorem State.dmaMove_read (he : (s.dmaCh c).elem = none)
    (hp : State.dmaRead { s with dmaLast := c } c (s.dmaAddr c false (s.dmaCh c).moved) (s.dmaElem c) = (s1, some (.ok l))) :
    s.dmaMove c = (s1.setDma c { s1.dmaCh c with elem := some l }).dmaStore c l := by
  unfold State.dmaMove
  dsimp only
  rw [he]
  dsimp only
  rw [hp]

theorem State.dmaMove_write (he : (s.dmaCh c).elem = some l) : s.dmaMove c = State.dmaStore { s with dmaLast := c } c l := by
  unfold State.dmaMove
  dsimp only
  rw [he]

/-- The read of an element in memory begins (R371). -/
theorem State.dmaRead_begins {a n : Nat} (hx : s.xferOf (.dma c) = none) (hn : 0 < n) (ha : ∀ o, regionOf a ≠ .ctrl o) :
    s.dmaRead c a n = (s.xferStart (.dma c) 20 0 32 false a n none, none) := by
  unfold State.dmaRead
  split
  next o ho => exact absurd ho (ha o)
  next => rw [State.xfer_begins hx 20 0 (by decide) a hn none]

theorem State.dmaPut_begins {a n : Nat} (hx : s.xferOf (.dma c) = none) (hn : 0 < n) (ha : ∀ o, regionOf a ≠ .ctrl o)
    (hl : l.length = n) : s.dmaPut c a l = (s.xferStart (.dma c) 20 0 32 false a n (some l), none) := by
  subst hl
  unfold State.dmaPut
  split
  next o ho => exact absurd ho (ha o)
  next => rw [State.xfer_begins hx 20 0 (by decide) a hn (some l)]

end

/- The end of a block (R372) --------------------------------------------------------------------------------------------------- -/

section
variable {s : State} {c : Nat}

theorem State.dmaBlockEnd_none (h : s.dmaState c ≠ 2 ∨ (s.dmaCh c).left ≠ 0 ∨ s.dmaBusy c = true) : s.dmaBlockEnd c = s := if_pos h

variable (h2 : s.dmaState c = 2) (h0 : (s.dmaCh c).left = 0) (hb : s.dmaBusy c = false)
include h2 h0 hb

theorem State.dmaBlockEnd_due : ¬ (s.dmaState c ≠ 2 ∨ (s.dmaCh c).left ≠ 0 ∨ s.dmaBusy c = true) := by
  rw [h2, h0, hb]
  decide

/-- The last block of a channel (R372). -/
theorem State.dmaBlockEnd_last (h : s.Inv) (ht : s.rf (aDma c 0x14) 16 16 ≠ 0)
    (hn : (s.rf (aDma c 0x20) 16 16 + 1) % 2 ^ 16 = s.rf (aDma c 0x14) 16 16) :
    let t := s.dmaBlockEnd c
    t.dmaState c = 3 ∧ t.bit (aDma c 0x1C) 0 = false ∧ t.rf (aDma c 0x20) 16 16 = (s.rf (aDma c 0x20) 16 16 + 1) % 2 ^ 16 ∧
    t.evq = s.evq ++ [EvReq.mk rkDma none 9 (BitVec.ofNat 32 c)] ∧ t.dmaq = s.dmaq ++ [0x28 + c] ∧ t.mem = s.mem := by
  intro t
  obtain ⟨n, hnn⟩ : ∃ n, n = (s.rf (aDma c 0x20) 16 16 + 1) % 2 ^ 16 := ⟨_, rfl⟩
  have hlt : n < 2 ^ 16 := hnn ▸ Nat.mod_lt _ (by decide)
  obtain ⟨s1, hs1⟩ : ∃ s1, s1 = s.wf (aDma c 0x20) 16 16 n := ⟨_, rfl⟩
  obtain ⟨s2, hs2⟩ : ∃ s2, s2 = (s1.clrB (aDma c 0x1C) 0).wf (aDma c 0x20) 0 3 3 := ⟨_, rfl⟩
  obtain ⟨s3, hs3⟩ : ∃ s3, s3 = (s2.clrB (aDma c 0x20) 4).dmaDone c := ⟨_, rfl⟩
  have ht : t = { s3 with dmaq := s3.dmaq ++ [0x28 + c] } := by
    rw [hs3, hs2, hs1, hnn]
    exact (if_neg (State.dmaBlockEnd_due h2 h0 hb)).trans (if_pos ⟨ht, hn⟩)
  have h1 : s1.Inv := hs1 ▸ h.wf _ _ _ _
  have hclr := h1.clrB (aDma c 0x1C) 0
  have h2' : s2.Inv := hs2 ▸ hclr.wf _ _ _ _
  have hregs : t.regs = (s2.clrB (aDma c 0x20) 4).regs := by
    rw [ht, hs3]
    exact State.post_regs (s2.clrB (aDma c 0x20) 4) rkDma none 9 c
  have hf1 : s1 = { s with regs := s1.regs } := hs1 ▸ State.wf_frame s _ _ _ _
  have hf2 : s2 = { s1 with regs := s2.regs } := by
    obtain ⟨x, hx⟩ : ∃ x, x = s1.clrB (aDma c 0x1C) 0 := ⟨_, rfl⟩
    have hfx : x = { s1 with regs := x.regs } := hx ▸ State.clrB_frame s1 _ _
    have hf : s2 = { x with regs := s2.regs } := by
      rw [hs2, ← hx]
      exact State.wf_frame x _ _ _ _
    rw [hf, hfx]
  have hf3 : s3.evq = s2.evq ++ [EvReq.mk rkDma none 9 (BitVec.ofNat 32 c)] ∧ s3.dmaq = s2.dmaq ∧ s3.mem = s2.mem := by
    obtain ⟨x, hx⟩ : ∃ x, x = s2.clrB (aDma c 0x20) 4 := ⟨_, rfl⟩
    have hfx : x = { s2 with regs := x.regs } := hx ▸ State.clrB_frame s2 _ _
    rw [hs3, ← hx, hfx]
    exact ⟨rfl, rfl, rfl⟩
  have hrest : t.evq = s.evq ++ [EvReq.mk rkDma none 9 (BitVec.ofNat 32 c)] ∧ t.dmaq = s.dmaq ++ [0x28 + c] ∧ t.mem = s.mem := by
    obtain ⟨hevq, hdmaq, hmem⟩ := hf3
    have hevq2 : s2.evq = s.evq := by rw [hf2, hf1]
    have hdmaq2 : s2.dmaq = s.dmaq := by rw [hf2, hf1]
    have hmem2 : s2.mem = s.mem := by rw [hf2, hf1]
    rw [ht]
    exact ⟨hevq.trans (by rw [hevq2]), congrArg (· ++ [0x28 + c]) (hdmaq.trans hdmaq2), hmem.trans hmem2⟩
  rw [← hnn]
  refine ⟨?_, ?_, ?_, hrest⟩
  · rw [State.dmaState, State.rf_of_rd (State.rd_congr hregs _), State.clrB, State.rf_wf_disjoint h2'.regs _ _ (.inl (by decide)), hs2,
      State.rf_wf_self hclr.regs _ _ (by decide)]
    rfl
  · rw [State.bit_congr hregs]
    refine (State.bit_wr_ne _ _ (aDma_inj (by decide))).trans ?_
    rw [hs2]
    exact (State.bit_wr_ne _ _ (aDma_inj (by decide))).trans (State.bit_clrB_self h1.regs _ (by decide))
  · rw [State.rf_of_rd (State.rd_congr hregs _), State.clrB, State.rf_wf_disjoint h2'.regs _ _ (.inr (by decide)), hs2,
      State.rf_wf_disjoint hclr.regs _ _ (.inr (by decide)), State.clrB, State.rf_of_rd (State.rd_wf_ne (aDma_inj (by decide))), hs1,
      State.rf_wf_self h.regs _ _ (by decide)]
    exact Nat.mod_eq_of_lt hlt

/-- A block with more to come (R372). -/
theorem State.dmaBlockEnd_more
    (hn : s.rf (aDma c 0x14) 16 16 = 0 ∨ (s.rf (aDma c 0x20) 16 16 + 1) % 2 ^ 16 ≠ s.rf (aDma c 0x14) 16 16) :
    let s1 := s.wf (aDma c 0x20) 16 16 ((s.rf (aDma c 0x20) 16 16 + 1) % 2 ^ 16)
    let s2 := if s.bit (aDma c 0x10) 20 then s1.post rkDma none 9 c else s1
    s.dmaBlockEnd c = if s.bit (aDma c 0x20) 4 then (s2.clrB (aDma c 0x20) 4).dmaBegin c else s2.wf (aDma c 0x20) 0 3 1 := by
  intro s1 s2
  refine (if_neg (State.dmaBlockEnd_due h2 h0 hb)).trans (if_neg fun hc => ?_)
  exact hn.elim hc.1 fun hne => hne hc.2

end

/-- Settles O50: the matrix by the head that a port grants, the DMA by what each of its operations leaves. -/
theorem matrixAndDma : Obligations.MatrixAndDma := by
  unfold Obligations.MatrixAndDma
  refine ⟨?_, ?_, ?_, ?_, ?_, ?_, ?_, ?_, ?_, ?_, ?_, ?_, ?_⟩
  · intro s t n hs s1
    have hexec : ∀ {u}, s.grantPort t.val n = u → exec (.transactionGrant t n) s = .next u.poll := fun hu =>
      congrArg Host.Outcome.next ((State.awakeDo_awake hs _).trans (congrArg State.poll hu))
    exact ⟨fun h => hexec (State.grantPort_busy h), fun x h hw => hexec (State.grantPort_grants h hw),
      fun h hw => hexec (State.grantPort_none h hw)⟩
  · intro s t step
    exact ⟨fun x hx => State.winner_some hx, State.winner_none⟩
  · intro step q w
    exact ⟨if_pos rfl, fun hq => (if_neg hq).trans (if_pos rfl), fun hq h0 => (if_neg hq).trans (if_neg (by omega))⟩
  · intro s hs _
    have hrd := (s.mgmtIn (aMtx 0x18C) true).rd_mtxClear
    have hin : ∀ a, (s.mgmtIn (aMtx 0x18C) true).rd a = s.rd a := State.rd_congr (State.mgmtIn_regs _ _ _)
    refine ⟨_, congrArg Host.Outcome.next (State.mgmtDo_awake hs _ _ _), fun a hl hu => (hrd a).trans (if_pos ⟨hl, hu⟩), fun a ha => ?_, rfl⟩
    exact (hrd a).trans ((if_neg (by omega)).trans (hin a))
  · intro s t x ht g a
    exact ⟨State.toTarget_refused ht, fun l h4 ha hd hf => State.toTarget_write ht h4 ha hd hf, fun h4 ha hd => State.toTarget_read ht h4 ha hd⟩
  · intro s c good b hs
    have hdo : ∀ {f : State → State} {v u}, f b = u →
        (Host.Outcome.next (s.mgmtDo (aDma c.val 0x1C) (some v) f) : Host.Outcome State Fault Refusal) = .next u := fun hu =>
      congrArg Host.Outcome.next ((State.mgmtDo_awake hs _ _ _).trans hu)
    refine ⟨fun h0 hg => hdo (State.dmaEnable_good (s := b) h0 hg), fun h0 hg => hdo (State.dmaEnable_bad (s := b) h0 hg),
      fun h0 => hdo (if_pos h0), fun h1 => hdo (State.dmaTrigger_waits (s := b) h1), fun h2 hp => hdo ?_, fun h2 hp => hdo ?_,
      fun h1 h2 => hdo (State.dmaTrigger_other (s := b) h1 h2), fun hb => hdo (if_pos hb),
      fun hb => hdo (if_neg (hb ▸ Bool.false_ne_true))⟩
    · exact (State.dmaTrigger_moving (s := b) h2).trans (if_neg (hp ▸ Bool.false_ne_true))
    · exact (State.dmaTrigger_moving (s := b) h2).trans (if_pos hp)
  · intro s src l hs
    refine ⟨fun hq => ?_, fun hq => ?_⟩
    · refine congrArg Host.Outcome.next ((if_neg (hs ▸ Bool.false_ne_true)).trans ?_)
      unfold State.dmaSource
      rw [hq]
    · refine congrArg Host.Outcome.next ((if_neg (hs ▸ Bool.false_ne_true)).trans ?_)
      unfold State.dmaSource
      rw [takeNat_none hq]
  · intro s s1 c l k s0 d src dst read hs hc
    have hexec : ∀ {u}, s.dmaMove c = u → exec (.dmaElement () ()) s = .next u.poll := fun {u} hu => by
      refine congrArg Host.Outcome.next ((State.awakeDo_awake hs _).trans ?_)
      rw [hc]
      exact congrArg State.poll hu
    refine ⟨fun he => ⟨fun hr => hexec ?_, fun hr => hexec ?_, fun hr => hexec ?_⟩,
      fun he => ⟨fun hp => hexec ?_, fun hp => hexec ?_, fun hp => ?_⟩⟩
    · exact State.dmaMove_waits he hr
    · exact State.dmaMove_fails he hr
    · exact State.dmaMove_read he hr
    · exact (State.dmaMove_write he).trans (State.dmaStore_waits (s := s0) hp)
    · exact (State.dmaMove_write he).trans (State.dmaStore_fails (s := s0) hp)
    · exact hexec ((State.dmaMove_write he).trans (State.dmaStore_done (s := s0) hp))
  · intro s c a n hx hn ha
    exact ⟨State.dmaRead_begins hx hn ha, fun l hl => State.dmaPut_begins hx hn ha hl⟩
  · intro s c a hinv
    exact State.dmaError_spec hinv a
  · intro s hn
    by_cases hs : s.sleeping = true
    · exact congrArg Host.Outcome.next (if_pos hs)
    · refine congrArg Host.Outcome.next ((State.awakeDo_awake (Bool.eq_false_iff.mpr hs) _).trans ?_)
      rw [hn]
  · intro s c hc
    exact State.dmaServes_some hc
  · intro s c n total s1 s2 hs
    have hdo : ∀ {u}, s.dmaBlockEnd c.val = u → exec (.blockEnd c) s = .next u := fun hu =>
      congrArg Host.Outcome.next ((State.awakeDo_awake hs _).trans hu)
    refine ⟨fun h => hdo (State.dmaBlockEnd_none h), fun h2 h0 hb ht hn hinv => ⟨_, hdo rfl, State.dmaBlockEnd_last h2 h0 hb hinv ht hn⟩,
      fun h2 h0 hb hn => ⟨fun hp => hdo ?_, fun hp => hdo ?_⟩⟩
    · exact (State.dmaBlockEnd_more h2 h0 hb hn).trans (if_pos hp)
    · exact (State.dmaBlockEnd_more h2 h0 hb hn).trans (if_neg (hp ▸ Bool.false_ne_true))

end Sys2Proof.Machine
end

section

/-! SUPPORT. The timer block: what its accesses, triggers and ticks leave unchanged. -/

namespace Sys2Proof.Machine

/- Addresses ------------------------------------------------------------------------------------------------------------------- -/

theorem aTmr_inj {c o o' : Nat} (h : o ≠ o') : aTmr c o ≠ aTmr c o' := by unfold aTmr; omega

theorem aTmr_ne {c d o : Nat} (h : c ≠ d) : aTmr c o ≠ aTmr d o := by unfold aTmr; omega

/-- Registers of two offsets in the timer block are different ones, whatever their channels. -/
theorem aTmr_off {c d o o' : Nat} (ho : o < 0x40) (ho' : o' < 0x40) (h : o ≠ o') : aTmr c o ≠ aTmr d o' := by unfold aTmr; omega

/- Steps that touch some registers only ---------------------------------------------------------------------------------------------- -/

/-- A step of the timers touches, of registers, those of `P` only; memory, threads and buses stay, and no event is lost. -/
structure TickOnly (P : Nat → Prop) (s t : State) : Prop where
  mem : t.mem = s.mem
  ths : t.ths = s.ths
  bus : t.bus = s.bus
  evq : ∀ e ∈ s.evq, e ∈ t.evq
  rd : ∀ a, ¬ P a → t.rd a = s.rd a

namespace TickOnly

variable {P Q : Nat → Prop} {s t u : State}

theorem refl (s : State) : TickOnly P s s := ⟨rfl, rfl, rfl, fun _ he => he, fun _ _ => rfl⟩

theorem trans (h : TickOnly P s t) (g : TickOnly P t u) : TickOnly P s u :=
  ⟨g.mem.trans h.mem, g.ths.trans h.ths, g.bus.trans h.bus, fun e he => g.evq e (h.evq e he),
    fun a ha => (g.rd a ha).trans (h.rd a ha)⟩

theorem mono (h : TickOnly P s t) (hPQ : ∀ a, P a → Q a) : TickOnly Q s t :=
  ⟨h.mem, h.ths, h.bus, h.evq, fun a ha => h.rd a fun hp => ha (hPQ a hp)⟩

/-- A step that leaves the registers alone. -/
theorem frame (hm : t.mem = s.mem) (ht : t.ths = s.ths) (hb : t.bus = s.bus) (he : ∀ e ∈ s.evq, e ∈ t.evq)
    (hr : t.regs = s.regs) : TickOnly P s t := ⟨hm, ht, hb, he, fun a _ => State.rd_congr hr a⟩

theorem wr {a : Nat} (ha : P a) (s : State) (v : W32) : TickOnly P s (s.wr a v) :=
  ⟨State.wr_mem .., State.wr_ths .., State.wr_bus .., fun _ he => he,
    fun _ hb => State.rd_wr_ne fun hba => hb (hba ▸ ha)⟩

theorem wf {a : Nat} (ha : P a) (s : State) (lo w x : Nat) : TickOnly P s (s.wf a lo w x) := wr ha s _

theorem setB {a : Nat} (ha : P a) (s : State) (i : Nat) : TickOnly P s (s.setB a i) := wr ha s _

theorem clrB {a : Nat} (ha : P a) (s : State) (i : Nat) : TickOnly P s (s.clrB a i) := wr ha s _

theorem used (s : State) : TickOnly P s s.used := frame rfl rfl rfl (fun _ he => he) rfl

theorem post (s : State) (r : Nat) (k : Option Nat) (c o : Nat) : TickOnly P s (s.post r k c o) :=
  frame rfl rfl rfl (fun _ he => List.mem_append_left _ he) rfl

theorem ite {c : Prop} [Decidable c] {t u : State} (ht : TickOnly P s t) (hu : TickOnly P s u) :
    TickOnly P s (if c then t else u) := by
  split_ifs
  · exact ht
  · exact hu

theorem foldl {α : Type} {f : State → α → State} (l : List α) (hf : ∀ t, ∀ x ∈ l, TickOnly P t (f t x)) (s : State) :
    TickOnly P s (l.foldl f s) := by
  induction l generalizing s with
  | nil => exact refl s
  | cons x l ih =>
    exact (hf s x List.mem_cons_self).trans (ih (fun t y hy => hf t y (List.mem_cons_of_mem _ hy)) _)

theorem rf (h : TickOnly P s t) {a : Nat} (ha : ¬ P a) (lo w : Nat) : t.rf a lo w = s.rf a lo w := by
  rw [State.rf, h.rd a ha]
  rfl

theorem bit (h : TickOnly P s t) {a : Nat} (ha : ¬ P a) (i : Nat) : t.bit a i = s.bit a i := by
  rw [State.bit, h.rf ha]
  rfl

end TickOnly

/- Triggers (R386, R387) ---------------------------------------------------------------------------------------------------------------- -/

/-- The registers in which the sensor ADC shows a request of a timer. -/
def AdcReg (a : Nat) : Prop := a = aHlt 0 ∨ a = aTmrBlk 0x1008 ∨ a = aTmrBlk 0x100C

/-- The registers of the channels are none of the ADC's. -/
theorem not_adcReg {c o : Nat} (hc : c ≤ 32) (ho : o < 0x40) : ¬ AdcReg (aTmr c o) := by
  unfold AdcReg aTmr aTmrBlk aHlt
  omega

theorem State.showWaiting_only (s : State) : TickOnly AdcReg s s.showWaiting := by
  have hstat : AdcReg (aTmrBlk 0x100C) := .inr (.inr rfl)
  unfold State.showWaiting
  split
  · exact .clrB hstat s 7
  · exact .ite ((TickOnly.wf hstat s 0 5 _).trans (.setB hstat _ 7))
      ((TickOnly.used s).trans ((TickOnly.wf hstat _ 0 5 _).trans (.setB hstat _ 7)))

theorem State.adcTimer_only (s : State) (c : Nat) : TickOnly AdcReg s (s.adcTimer c) := by
  unfold State.adcTimer
  refine .ite (.frame rfl rfl rfl (fun _ he => he) rfl) (.ite (.setB (.inl rfl) s 5) ?_)
  split
  · exact .frame rfl rfl rfl (fun _ he => he) rfl
  · refine TickOnly.trans ?_ (State.showWaiting_only _)
    exact .frame rfl rfl rfl (fun _ he => he) rfl
  · exact (TickOnly.setB (.inr (.inl rfl)) s 0).trans (.wf (.inr (.inr rfl)) _ 8 5 c)

theorem State.wakeBy_only (s : State) (src : WakeSource) : TickOnly AdcReg s (s.wakeBy src) :=
  .ite (.frame rfl rfl rfl (fun _ he => he) rfl) (.refl s)

/-- A trigger touches no register but those of the sensor ADC (R386, R387). -/
theorem State.tmrTrigger_only (s : State) (b : Nat) : TickOnly AdcReg s (s.tmrTrigger b) := by
  have hadc : TickOnly AdcReg s (s.trigAdc b) := .ite (State.adcTimer_only s b) (.refl s)
  have hdma : TickOnly AdcReg (s.trigAdc b) ((s.trigAdc b).trigDma b) :=
    .ite (.frame rfl rfl rfl (fun _ he => he) rfl) (.refl _)
  have hevt : ∀ t : State, TickOnly AdcReg t (t.trigEvt b) := fun t => .ite (.post t _ _ _ _) (.refl t)
  have hact : ∀ t : State, TickOnly AdcReg t (t.trigAct b) := fun t => .ite (.refl t) (.frame rfl rfl rfl (fun _ he => he) rfl)
  have hall := ((hadc.trans hdma).trans (hevt _)).trans (hact _)
  exact .ite (hall.trans (State.wakeBy_only _ _)) hall

theorem State.tmrEvents_only (s : State) (b : Nat) (m w : Bool) : TickOnly AdcReg s (s.tmrEvents b m w) :=
  .ite (State.tmrTrigger_only s b) (.refl s)

/- Counters of one or two words (R383) ------------------------------------------------------------------------------------------------------ -/

/-- A step that leaves CFG alone leaves the pairing alone. -/
theorem TickOnly.tmrLinked {P : Nat → Prop} {s t : State} (h : TickOnly P s t) (c : Nat) (hP : ¬ P (aTmr (c - c % 2) 4)) :
    t.tmrLinked c = s.tmrLinked c := h.bit hP 3

/-- A counter keeps its value where its words stay. -/
theorem TickOnly.tmrVal {P : Nat → Prop} {s t : State} (h : TickOnly P s t) (c o : Nat) (hP : ¬ P (aTmr (c - c % 2) 4))
    (h0 : ¬ P (aTmr c o)) (h1 : ¬ P (aTmr (c + 1) o)) : t.tmrVal c o = s.tmrVal c o := by
  rw [State.tmrVal, h.tmrLinked c hP, h.rd _ h0, h.rd _ h1]
  rfl

/-- Storing a value touches the words of the value alone. -/
theorem State.setTmrVal_only (s : State) (b o v : Nat) :
    TickOnly (fun a => a = aTmr b o ∨ s.tmrLinked b = true ∧ a = aTmr (b + 1) o) s (s.setTmrVal b o v) := by
  unfold State.setTmrVal
  have h1 := TickOnly.wr (P := fun a => a = aTmr b o ∨ s.tmrLinked b = true ∧ a = aTmr (b + 1) o) (.inl rfl) s
    (BitVec.ofNat 32 v)
  by_cases hl : s.tmrLinked b = true
  · rw [if_pos hl]
    exact h1.trans (.wr (.inr ⟨hl, rfl⟩) _ _)
  · rw [if_neg hl]
    exact h1

/-- A value that the counter can hold. -/
def State.tmrFits (s : State) (b v : Nat) : Prop := v < if s.tmrLinked b then 2 ^ 64 else 2 ^ 32

/-- A value register holds no more than its words. -/
theorem State.tmrVal_fits (s : State) (b o : Nat) : s.tmrFits b (s.tmrVal b o) := by
  have h0 := (s.rd (aTmr b o)).isLt
  have h1 := (s.rd (aTmr (b + 1) o)).isLt
  unfold State.tmrFits State.tmrVal
  split_ifs <;> omega

/-- A value that fits, stored, is read back (R383). -/
theorem State.tmrVal_setTmrVal {s : State} (h : spOk regReset s.regs = true) {b o v : Nat} (ho : o ≠ 4) (ho' : o < 0x40)
    (hv : s.tmrFits b v) : (s.setTmrVal b o v).tmrVal b o = v := by
  have hcfg : ∀ c d : Nat, aTmr c 4 ≠ aTmr d o := fun c d => aTmr_off (by decide) ho' ho.symm
  have hlink : (s.setTmrVal b o v).tmrLinked b = s.tmrLinked b :=
    (s.setTmrVal_only b o v).tmrLinked b fun hc => hc.elim (hcfg _ _) fun hc => hcfg _ _ hc.2
  have hne : aTmr b o ≠ aTmr (b + 1) o := aTmr_ne (Nat.succ_ne_self b).symm
  rw [State.tmrVal, hlink]
  unfold State.tmrFits at hv
  by_cases hl : s.tmrLinked b = true
  · rw [if_pos hl] at hv ⊢
    have heq : s.setTmrVal b o v = (s.wr (aTmr b o) (BitVec.ofNat 32 v)).wr (aTmr (b + 1) o) (BitVec.ofNat 32 (v / 2 ^ 32)) :=
      if_pos hl
    rw [heq, State.rd_wr_self (State.wr_regs_ok h _ _), State.rd_wr_ne hne, State.rd_wr_self h, BitVec.toNat_ofNat,
      BitVec.toNat_ofNat]
    omega
  · rw [if_neg hl] at hv ⊢
    have heq : s.setTmrVal b o v = s.wr (aTmr b o) (BitVec.ofNat 32 v) := if_neg hl
    rw [heq, State.rd_wr_self h, BitVec.toNat_ofNat]
    omega

/-- The next count fits (R375). -/
theorem State.tmrNext_fits (s : State) (c : Nat) : s.tmrFits c (s.tmrNext c) := by
  have h := s.tmrVal_fits c 0xC
  unfold State.tmrFits at h ⊢
  unfold State.tmrNext
  split_ifs at h ⊢ <;> omega

/- Gates (R380 to R382) ------------------------------------------------------------------------------------------------------------------------ -/

/-- The registers in which a gate shows. -/
def GateReg (c a : Nat) : Prop := a = aTmr c 0x2C ∨ a = aTmr c 0x30

theorem State.gateSample_only {P : Nat → Prop} (s : State) (c : Nat) (pin : Bool) : TickOnly P s (s.gateSample c pin) := by
  have hfree : ∀ (p : Prop) [Decidable p], TickOnly P s (if p then s else s.used) := fun p _ => .ite (.refl s) (.used s)
  exact (hfree _).trans (.frame rfl rfl rfl (fun _ he => he) rfl)

theorem State.setGateSpan_only {P : Nat → Prop} (s : State) (c n : Nat) : TickOnly P s (s.setGateSpan c n) :=
  .frame rfl rfl rfl (fun _ he => he) rfl

/-- The gate's part of a tick (R381, R382). -/
theorem State.gateTick_only (s : State) (c : Nat) (pin : Bool) : TickOnly (GateReg c) s (s.gateTick c pin) := by
  have hput : TickOnly (GateReg c) s ((s.gateSample c pin).putB (aTmr c 0x2C) 0 (s.gateAt c)) :=
    (s.gateSample_only c pin).trans (.wf (.inl rfl) _ _ _ _)
  exact .ite (hput.trans ((TickOnly.clrB (.inl rfl) _ 1).trans (State.setGateSpan_only _ _ _)))
    (.ite (hput.trans ((State.setGateSpan_only _ _ _).trans ((TickOnly.setB (.inl rfl) _ 1).trans
      ((TickOnly.setB (.inr rfl) _ 1).trans (.post _ _ _ _ _)))))
      (hput.trans (State.setGateSpan_only _ _ _)))

/- Actions (R388) -------------------------------------------------------------------------------------------------------------------------------- -/

/-- An action touches the count and the control of its channel. -/
theorem State.tmrActOn_only {P : Nat → Prop} (s : State) (b : Nat) (ks : List Nat) (h0 : P (aTmr b 0)) (h1 : P (aTmr b 0x14))
    (h2 : P (aTmr (b + 1) 0x14)) : TickOnly P s (s.tmrActOn b ks) := by
  have hval : TickOnly P s (s.setTmrVal b 0x14 (s.tmrVal b 0x1C)) :=
    (s.setTmrVal_only b 0x14 _).mono fun a ha => ha.elim (fun h => h ▸ h1) fun h => h.2 ▸ h2
  have hre : TickOnly P s (if ks.contains 3 then s.setTmrVal b 0x14 (s.tmrVal b 0x1C) else s) := .ite hval (.refl s)
  exact .ite (hre.trans (.clrB h0 _ 0)) (.ite (hre.trans (.setB h0 _ 0)) hre)

theorem State.tmrApply_only (s : State) (l : List (Nat × Nat)) :
    TickOnly (fun _ => True) s (s.tmrApply l) :=
  .foldl _ (fun t b _ => t.tmrActOn_only b _ trivial trivial trivial) s

/-- An edge changes memory and threads not at all and leaves no bus cycle open (R376, R388). -/
theorem State.edgeOf_spec (s : State) (c : Nat) : (s.edgeOf c).mem = s.mem ∧ (s.edgeOf c).ths = s.ths ∧ (s.edgeOf c).bus = [] := by
  have hact := ({ s.busEnd with tmrDue := s.tmrActs, tmrActs := [], tmrEdge := 0 } : State).tmrApply_only s.tmrDue
  unfold State.edgeOf
  by_cases hc : c < s.tmrEdge
  · rw [if_pos hc]
    exact ⟨hact.mem, hact.ths, rfl⟩
  · rw [if_neg hc]
    exact ⟨rfl, rfl, rfl⟩

/-- The divider changes its own count alone (R374). -/
theorem State.divided_spec (s : State) (c : Nat) : (s.divided c).1.mem = s.mem ∧ (s.divided c).1.ths = s.ths := by
  unfold State.divided
  split_ifs
  · exact ⟨rfl, rfl⟩
  · exact ⟨rfl, rfl⟩
  · exact ⟨rfl, rfl⟩

/-- A fold over a range whose function acts at one place only acts there once. -/
theorem foldl_range_one {α : Type} (f : α → Nat → α) {j : Nat} (hf : ∀ t b, b ≠ j → f t b = t) (n : Nat) (x : α) :
    (List.range n).foldl f x = if j < n then f x j else x := by
  induction n with
  | zero => rfl
  | succ n ih =>
    rw [List.range_succ, List.foldl_append, ih]
    change f (if j < n then f x j else x) n = _
    by_cases hj : j = n
    · subst hj
      rw [if_neg (lt_irrefl j), if_pos (Nat.lt_succ_self j)]
    · rw [hf _ n (Ne.symm hj)]
      by_cases hlt : j < n
      · rw [if_pos hlt, if_pos (Nat.lt_succ_of_lt hlt)]
      · rw [if_neg hlt, if_neg (by omega)]

end Sys2Proof.Machine
end

section

/-! SUPPORT. Ticks, actions, group starts, slow steps and the capture of a count (O51). -/

namespace Sys2Proof.Machine

/- Ticks (R374 to R382) ---------------------------------------------------------------------------------------------------------------- -/

section
variable {s t : State} {c : Nat}

theorem State.tickAt_ticks (ht : ((s.divided c).2 && ((s.divided c).1.edgeOf c).ticks c) = true) :
    s.tickAt c = some ((s.divided c).1.edgeOf c) := if_pos ht

theorem State.tickAt_silent (ht : ((s.divided c).2 && ((s.divided c).1.edgeOf c).ticks c) = false) : s.tickAt c = none :=
  if_neg (ht ▸ Bool.false_ne_true)

theorem State.tmrTick_some (ht : s.tickAt c = some t) (pin : Bool) : s.tmrTick c pin = t.tickRun c pin := by
  rw [State.tmrTick, ht]

theorem State.tmrTick_none (ht : s.tickAt c = none) (pin : Bool) : s.tmrTick c pin = (s.divided c).1 := by
  rw [State.tmrTick, ht]

theorem State.tickIf_holds (ht : s.tickAt c = some t) (pin : Bool) {p : State → Bool} (hp : p t = true) :
    s.tickIf c pin p = t.tickRun c pin := by
  rw [State.tickIf, ht]
  exact if_pos hp

theorem State.tickIf_fails (ht : s.tickAt c = some t) (pin : Bool) {p : State → Bool} (hp : p t = false) :
    s.tickIf c pin p = s := by
  rw [State.tickIf, ht]
  exact if_neg (hp ▸ Bool.false_ne_true)

theorem State.tickIf_none (ht : s.tickAt c = none) (pin : Bool) (p : State → Bool) : s.tickIf c pin p = s := by
  rw [State.tickIf, ht]

/-- A command that acts at a tick of a kind changes nothing without such a tick. -/
theorem State.tickIf_silent (pin : Bool) {p : State → Bool}
    (h : ((s.divided c).2 && ((s.divided c).1.edgeOf c).ticks c) = false ∨ p ((s.divided c).1.edgeOf c) = false) :
    s.tickIf c pin p = s := by
  by_cases ht : ((s.divided c).2 && ((s.divided c).1.edgeOf c).ticks c) = true
  · exact State.tickIf_fails (State.tickAt_ticks ht) pin (h.resolve_left fun hf => Bool.false_ne_true (hf.symm.trans ht))
  · exact State.tickIf_none (State.tickAt_silent (Bool.eq_false_iff.mpr ht)) pin p

/-- The kind of a tick that two tests select, when one of them fails. -/
theorem and_false_of_or {a b : Bool} (h : a = false ∨ b = false) : (a && b) = false := by
  rcases h with rfl | rfl
  · rfl
  · exact Bool.and_false a

theorem State.tickRun_counting (hc : s.counts c = true) (pin : Bool) : s.tickRun c pin =
    ((s.gateTick c pin).setTmrVal c 0x14 (s.tmrNext c)).tmrEvents c (s.matches c) (s.wraps c) := if_pos hc

theorem State.tickRun_idle (hc : s.counts c = false) (pin : Bool) : s.tickRun c pin = s.gateTick c pin :=
  if_neg (hc ▸ Bool.false_ne_true)

/-- A channel that ticks governs itself. -/
theorem State.base_of_ticks (h : s.ticks c = true) : s.tmrBase c = c := by
  unfold State.ticks at h
  simp only [Bool.and_eq_true] at h
  exact eq_of_beq h.1.1.1

/-- The registers that a counting tick may touch after the gate: the count and those of the ADC. -/
def CountReg (s : State) (c a : Nat) : Prop :=
  AdcReg a ∨ a = aTmr c 0x14 ∨ s.tmrLinked c = true ∧ a = aTmr (c + 1) 0x14

/-- No register of a channel but a count is one of those. -/
theorem not_countReg {s : State} {c d o : Nat} (hd : d ≤ 32) (ho : o < 0x40) (h : o ≠ 0x14) : ¬ CountReg s c (aTmr d o) :=
  fun hc => hc.elim (not_adcReg hd ho) fun hc => hc.elim (aTmr_off ho (by decide) h) fun hc => aTmr_off ho (by decide) h hc.2

theorem not_gateReg {c d o : Nat} (ho : o < 0x40) (h0 : o ≠ 0x2C) (h1 : o ≠ 0x30) : ¬ GateReg c (aTmr d o) :=
  fun hc => hc.elim (aTmr_off ho (by decide) h0) (aTmr_off ho (by decide) h1)

/-- What a tick does after the gate. -/
theorem State.tickRun_only (s : State) (c : Nat) (pin : Bool) :
    TickOnly (CountReg (s.gateTick c pin) c) (s.gateTick c pin) (s.tickRun c pin) :=
  .ite (((State.setTmrVal_only _ c 0x14 _).mono fun _ => .inr).trans
    ((State.tmrEvents_only _ c _ _).mono fun _ => .inl)) (.refl _)

/-- A tick of a channel that counts (R375). -/
theorem State.tickRun_spec {s : State} (h : s.Inv) {c : Nat} (hc : c < 32) (pin : Bool) (hcount : s.counts c = true) :
    (s.tickRun c pin).tmrVal c 0x14 = s.tmrNext c ∧ (s.tickRun c pin).mem = s.mem ∧ (s.tickRun c pin).ths = s.ths ∧
    (s.tickRun c pin).bus = s.bus ∧
    ∀ k, k < 32 → k ≠ c → k ≠ c + 1 → (s.tickRun c pin).rd (aTmr k 0x14) = s.rd (aTmr k 0x14) := by
  have hgate := s.gateTick_only c pin
  have hrun := s.tickRun_only c pin
  have hg : (s.gateTick c pin).Inv := (State.gateTick_keeps (.refl s) c pin).inv h
  have hlink : (s.gateTick c pin).tmrLinked c = s.tmrLinked c :=
    hgate.tmrLinked c (not_gateReg (by decide) (by decide) (by decide))
  have hfit : (s.gateTick c pin).tmrFits c (s.tmrNext c) := by
    have hf := s.tmrNext_fits c
    rwa [State.tmrFits, ← hlink] at hf
  refine ⟨?_, hrun.mem.trans hgate.mem, hrun.ths.trans hgate.ths, hrun.bus.trans hgate.bus, fun k hk hkc hkc' => ?_⟩
  · rw [State.tickRun_counting hcount, (State.tmrEvents_only _ c _ _).tmrVal c 0x14
      (not_adcReg (by omega) (by decide)) (not_adcReg (by omega) (by decide)) (not_adcReg (by omega) (by decide)),
      State.tmrVal_setTmrVal hg.regs (by decide) (by decide) hfit]
  · rw [hrun.rd, hgate.rd _ (not_gateReg (by decide) (by decide) (by decide))]
    rintro (ha | ha | ha)
    · exact not_adcReg (by omega) (by decide) ha
    · exact aTmr_ne hkc ha
    · exact aTmr_ne hkc' ha.2

/-- A tick at which an unbroken gate reaches MAXGATE (R382). -/
theorem State.tickRun_maxgate {s : State} (h : s.Inv) {c : Nat} (hc : c < 32) (pin : Bool) (hg : s.gateAt c = true)
    (hm : s.gateMaxed c = true) : (s.tickRun c pin).bit (aTmr c 0x2C) 1 = true ∧ (s.tickRun c pin).bit (aTmr c 0x30) 1 = true ∧
    EvReq.mk rkTmr none 6 (BitVec.ofNat 32 c) ∈ (s.tickRun c pin).evq ∧ (s.tickRun c pin).mem = s.mem := by
  have hgate := s.gateTick_only c pin
  have hrun := s.tickRun_only c pin
  obtain ⟨x, hx⟩ : ∃ x, x = ((s.gateSample c pin).putB (aTmr c 0x2C) 0 (s.gateAt c)).setGateSpan c (s.gateSpan c + 1) := ⟨_, rfl⟩
  have heq : s.gateTick c pin = ((x.setB (aTmr c 0x2C) 1).setB (aTmr c 0x30) 1).post rkTmr none 6 c := by
    rw [hx]
    unfold State.gateTick
    dsimp only
    rw [if_neg (by rw [hg]; decide), if_pos hm]
  have hxi : x.Inv := by
    rw [hx]
    exact (State.setGateSpan_keeps (State.putB_keeps (State.gateSample_keeps (.refl s) c pin) _ _ _) _ _).inv h
  have hbit : ∀ a i, (s.gateTick c pin).bit a i = ((x.setB (aTmr c 0x2C) 1).setB (aTmr c 0x30) 1).bit a i := by
    intro a i
    rw [heq]
    exact State.bit_congr (State.post_regs ..) a i
  refine ⟨?_, ?_, ?_, hrun.mem.trans hgate.mem⟩
  · rw [hrun.bit (not_countReg (by omega) (by decide) (by decide)), hbit]
    exact (State.bit_wr_ne _ _ (aTmr_inj (by decide))).trans (State.bit_setB_self hxi.regs _ (by decide))
  · rw [hrun.bit (not_countReg (by omega) (by decide) (by decide)), hbit,
      State.bit_setB_self (hxi.setB _ _).regs _ (by decide)]
  · refine hrun.evq _ ?_
    rw [heq]
    exact List.mem_append_right _ List.mem_cons_self

end

/- Actions (R388) ------------------------------------------------------------------------------------------------------------------------ -/

/-- Actions that all reach one channel take effect there alone. -/
theorem State.tmrApply_one {s : State} {l : List (Nat × Nat)} {j : Nat} (hj : j < 32) (hl : ∀ a ∈ l, s.tmrBase a.1 = j) :
    s.tmrApply l = s.tmrActOn j (l.map (·.2)) := by
  unfold State.tmrApply
  have hself : (l.filter fun a => s.tmrBase a.1 == j) = l := List.filter_eq_self.mpr fun a ha => beq_iff_eq.mpr (hl a ha)
  rw [foldl_range_one (j := j), if_pos hj, hself]
  intro t b hb
  have hnil : (l.filter fun a => s.tmrBase a.1 == b) = [] :=
    List.filter_eq_nil_iff.mpr fun a ha hab => hb ((eq_of_beq hab).symm.trans (hl a ha))
  rw [hnil]
  rfl

theorem State.tmrBase_lt {s : State} {k : Nat} (hk : k < 32) : s.tmrBase k < 32 := by
  unfold State.tmrBase
  split_ifs <;> omega

/- Group starts (R389, R390) ----------------------------------------------------------------------------------------------------------------- -/

/-- What a group start does to one channel. -/
def State.startChan (s : State) (c : Nat) : State := (s.setTmrVal c 0x14 (s.tmrVal c 0x1C)).setB (aTmr c 0) 0

/-- The registers that starting channel `c` touches. -/
def StartReg (s : State) (c a : Nat) : Prop := a = aTmr c 0 ∨ a = aTmr c 0x14 ∨ s.tmrLinked c = true ∧ a = aTmr (c + 1) 0x14

theorem not_startReg {s : State} {c d o : Nat} (ho : o < 0x40) (h : o ≠ 0x14) (h0 : o ≠ 0) : ¬ StartReg s c (aTmr d o) :=
  fun hc => hc.elim (aTmr_off ho (by decide) h0) fun hc => hc.elim (aTmr_off ho (by decide) h) fun hc =>
    aTmr_off ho (by decide) h hc.2

theorem State.startChan_only (s : State) (c : Nat) : TickOnly (StartReg s c) s (s.startChan c) :=
  ((State.setTmrVal_only s c 0x14 _).mono fun _ => .inr).trans (.setB (.inl rfl) _ 0)

theorem State.startChan_regs (s : State) (c : Nat) : s.startChan c = { s with regs := (s.startChan c).regs } := by
  unfold State.startChan State.setTmrVal
  by_cases hl : s.tmrLinked c = true
  · simp only [if_pos hl]
    rfl
  · simp only [if_neg hl]
    rfl

/-- The channel runs from its phase. -/
theorem State.startChan_spec {s : State} (h : s.Inv) (c : Nat) : (s.startChan c).bit (aTmr c 0) 0 = true ∧
    (s.startChan c).tmrVal c 0x14 = (s.startChan c).tmrVal c 0x1C := by
  have hk : (s.setTmrVal c 0x14 (s.tmrVal c 0x1C)).Inv := (State.setTmrVal_keeps (.refl s) _ _ _).inv h
  have hset : TickOnly (· = aTmr c 0) (s.setTmrVal c 0x14 (s.tmrVal c 0x1C)) (s.startChan c) := .setB (P := (· = aTmr c 0)) rfl _ 0
  have hval : ∀ o : Nat, o < 0x40 → o ≠ 0 → (s.startChan c).tmrVal c o = (s.setTmrVal c 0x14 (s.tmrVal c 0x1C)).tmrVal c o :=
    fun o ho h0 => hset.tmrVal c o (aTmr_off (by decide) (by decide) (by decide)) (aTmr_off ho (by decide) h0)
      (aTmr_off ho (by decide) h0)
  have hne : ∀ d o : Nat, o < 0x40 → o ≠ 0x14 →
      ¬ (aTmr d o = aTmr c 0x14 ∨ s.tmrLinked c = true ∧ aTmr d o = aTmr (c + 1) 0x14) :=
    fun d o ho h0 hc => hc.elim (aTmr_off ho (by decide) h0) fun hc => aTmr_off ho (by decide) h0 hc.2
  refine ⟨State.bit_setB_self hk.regs _ (by decide), ?_⟩
  rw [hval 0x14 (by decide) (by decide), hval 0x1C (by decide) (by decide),
    State.tmrVal_setTmrVal h.regs (by decide) (by decide) (s.tmrVal_fits c 0x1C),
    (s.setTmrVal_only c 0x14 _).tmrVal c 0x1C (hne _ _ (by decide) (by decide)) (hne _ _ (by decide) (by decide))
      (hne _ _ (by decide) (by decide))]

/-- The channels of a list are started one after another. -/
theorem State.startChans_only (l : List Nat) (s : State) :
    TickOnly (fun a => ∃ c ∈ l, StartReg s c a) s (l.foldl State.startChan s) := by
  induction l generalizing s with
  | nil => exact .refl s
  | cons x l ih =>
    have hx := s.startChan_only x
    refine (hx.mono fun a ha => ⟨x, List.mem_cons_self, ha⟩).trans ((ih (s.startChan x)).mono ?_)
    rintro a ⟨c, hc, ha⟩
    refine ⟨c, List.mem_cons_of_mem _ hc, ?_⟩
    unfold StartReg at ha ⊢
    rwa [hx.tmrLinked c (not_startReg (by decide) (by decide) (by decide))] at ha

theorem State.startChans_regs (l : List Nat) (s : State) :
    l.foldl State.startChan s = { s with regs := (l.foldl State.startChan s).regs } := by
  induction l generalizing s with
  | nil => rfl
  | cons x l ih =>
    obtain ⟨r, hr⟩ : ∃ r, s.startChan x = { s with regs := r } := ⟨_, s.startChan_regs x⟩
    rw [List.foldl_cons, hr]
    exact ih _

/-- Channels that govern themselves do not touch each other's counts. -/
theorem not_startReg_of_base {s : State} {c d : Nat} (hc : s.tmrBase c = c) (hd : s.tmrBase d = d) (hcd : c ≠ d) :
    ¬ StartReg s d (aTmr c 0x14) ∧ (s.tmrLinked c = true → ¬ StartReg s d (aTmr (c + 1) 0x14)) := by
  have hpair : ∀ x y : Nat, s.tmrBase x = x → s.tmrLinked x = true → y = x + 1 → s.tmrBase y = x := by
    rintro x y hx hl rfl
    unfold State.tmrBase at hx ⊢
    rw [if_pos hl] at hx
    have hxy : x + 1 - (x + 1) % 2 = x - x % 2 := by omega
    have hl' : s.tmrLinked (x + 1) = true := by
      unfold State.tmrLinked at hl ⊢
      rw [hxy]
      exact hl
    rw [if_pos hl', hxy, hx]
  constructor
  · rintro (ha | ha | ⟨hl, ha⟩)
    · exact aTmr_off (by decide) (by decide) (by decide) ha
    · exact aTmr_ne hcd ha
    · have hcd' : c = d + 1 := by unfold aTmr at ha; omega
      have := (hpair d c hd hl hcd').symm.trans hc
      omega
  · rintro hl (ha | ha | ⟨_, ha⟩)
    · exact aTmr_off (by decide) (by decide) (by decide) ha
    · have hcd' : d = c + 1 := by unfold aTmr at ha; omega
      have := (hpair c d hc hl hcd').symm.trans hd
      omega
    · exact hcd (by unfold aTmr at ha; omega)

/-- Every channel of the list runs from its phase. -/
theorem State.startChans_started (l : List Nat) {s : State} (h : s.Inv) (hb : ∀ c ∈ l, s.tmrBase c = c) :
    ∀ c ∈ l, (l.foldl State.startChan s).bit (aTmr c 0) 0 = true ∧
      (l.foldl State.startChan s).tmrVal c 0x14 = (l.foldl State.startChan s).tmrVal c 0x1C := by
  induction l generalizing s with
  | nil => exact fun c hc => absurd hc List.not_mem_nil
  | cons x l ih =>
    intro c hc
    have hx := s.startChan_only x
    have hxi : (s.startChan x).Inv := (State.setB_keeps (State.setTmrVal_keeps (.refl s) _ _ _) _ _).inv h
    have hlink : ∀ d, (s.startChan x).tmrLinked d = s.tmrLinked d := fun d =>
      hx.tmrLinked d (not_startReg (by decide) (by decide) (by decide))
    have hbase : ∀ d, (s.startChan x).tmrBase d = s.tmrBase d := fun d => by rw [State.tmrBase, hlink]; rfl
    have hbl : ∀ d ∈ l, (s.startChan x).tmrBase d = d := fun d hd => (hbase d).trans (hb d (List.mem_cons_of_mem _ hd))
    by_cases hcl : c ∈ l
    · exact ih hxi hbl c hcl
    · obtain rfl : c = x := (List.mem_cons.mp hc).resolve_right hcl
      have honly := State.startChans_only l (s.startChan c)
      obtain ⟨hrun, hval⟩ := State.startChan_spec h c
      have hbc : (s.startChan c).tmrBase c = c := (hbase c).trans (hb c List.mem_cons_self)
      have hne : ∀ d ∈ l, c ≠ d := fun d hd hcd => hcl (hcd ▸ hd)
      have hoff : ∀ e o : Nat, o < 0x40 → o ≠ 0x14 → o ≠ 0 → ¬ ∃ d ∈ l, StartReg (s.startChan c) d (aTmr e o) :=
        fun e o ho h1 h0 ⟨d, _, hd⟩ => not_startReg ho h1 h0 hd
      have hcount : (l.foldl State.startChan (s.startChan c)).tmrVal c 0x14 = (s.startChan c).tmrVal c 0x14 := by
        rw [State.tmrVal, State.tmrVal, honly.tmrLinked c (hoff _ _ (by decide) (by decide) (by decide)),
          honly.rd (aTmr c 0x14) fun ⟨d, hd, ha⟩ => (not_startReg_of_base hbc (hbl d hd) (hne d hd)).1 ha]
        by_cases hl : (s.startChan c).tmrLinked c = true
        · rw [if_pos hl, if_pos hl,
            honly.rd (aTmr (c + 1) 0x14) fun ⟨d, hd, ha⟩ => (not_startReg_of_base hbc (hbl d hd) (hne d hd)).2 hl ha]
        · rw [if_neg hl, if_neg hl]
      constructor
      · refine (honly.bit ?_ 0).trans hrun
        rintro ⟨d, hd, ha | ha | ha⟩
        · exact aTmr_ne (hne d hd) ha
        · exact aTmr_off (by decide) (by decide) (by decide) ha
        · exact aTmr_off (by decide) (by decide) (by decide) ha.2
      · exact hcount.trans (hval.trans (honly.tmrVal c 0x1C (hoff _ _ (by decide) (by decide) (by decide))
          (hoff _ _ (by decide) (by decide) (by decide)) (hoff _ _ (by decide) (by decide) (by decide))).symm)

/-- SPREAD touches the phases of its channels (R390). -/
theorem State.spread_only (n i : Nat) (l : List Nat) (s : State) :
    TickOnly (fun a => ∃ c ∈ l, a = aTmr c 0x1C) s (s.spread n i l) := by
  induction l generalizing s i with
  | nil => exact .refl s
  | cons x l ih =>
    exact (TickOnly.wr ⟨x, List.mem_cons_self, rfl⟩ s _).trans
      ((ih (i + 1) _).mono fun a ⟨c, hc, ha⟩ => ⟨c, List.mem_cons_of_mem _ hc, ha⟩)

theorem State.spread_regs (n i : Nat) (l : List Nat) (s : State) : s.spread n i l = { s with regs := (s.spread n i l).regs } := by
  induction l generalizing s i with
  | nil => rfl
  | cons x l ih => exact ih (i + 1) _

/-- SPREAD spaces the phases evenly (R390). -/
theorem State.spread_phase (n : Nat) {l : List Nat} (hn : l.Nodup) {s : State} (h : s.Inv) (i j c : Nat) (hj : l[j]? = some c) :
    (s.spread n i l).rd (aTmr c 0x1C) = BitVec.ofNat 32 ((i + j) * ((s.rd (aTmr c 0xC)).toNat + 1) / n) := by
  induction l generalizing s i j with
  | nil => exact absurd hj (by simp)
  | cons x l ih =>
    obtain ⟨hx, hl⟩ := List.nodup_cons.mp hn
    obtain ⟨v, hv⟩ : ∃ v : W32, v = BitVec.ofNat 32 (i * ((s.rd (aTmr x 0xC)).toNat + 1) / n) := ⟨_, rfl⟩
    have heq : s.spread n i (x :: l) = (s.wr (aTmr x 0x1C) v).spread n (i + 1) l := by rw [hv]; rfl
    rw [heq]
    cases j with
    | zero =>
      obtain rfl : x = c := Option.some.inj hj
      rw [(State.spread_only n (i + 1) l _).rd, State.rd_wr_self h.regs, hv]
      · rfl
      · rintro ⟨d, hd, ha⟩
        have hxd : x ≠ d := fun hxd => hx (hxd ▸ hd)
        exact aTmr_ne hxd ha
    | succ j =>
      rw [ih hl (h.wr _ _) (i + 1) j hj, State.rd_wr_ne (aTmr_off (by decide) (by decide) (by decide)), Nat.add_right_comm i 1 j]
      rfl

/-- A group start (R389, R390). -/
theorem State.groupStart_spec {s : State} (h : s.Inv) (spread : Bool) :
    let u := s.groupChans.filter fun c => !s.tmrLinked c
    let t := s.groupStart spread
    (∀ c ∈ s.groupChans, t.bit (aTmr c 0) 0 = true ∧ t.tmrVal c 0x14 = t.tmrVal c 0x1C) ∧
    (∀ c : Nat, c < 32 → c ∉ s.groupChans → t.bit (aTmr c 0) 0 = s.bit (aTmr c 0) 0) ∧
    (spread = false → ∀ c : Nat, c < 32 → t.rd (aTmr c 0x1C) = s.rd (aTmr c 0x1C)) ∧
    (spread = true → ∀ i c, u[i]? = some c → t.rd (aTmr c 0x1C) = BitVec.ofNat 32 (i * ((s.rd (aTmr c 0xC)).toNat + 1) / u.length)) ∧
    t = { s with regs := t.regs } := by
  intro u
  obtain ⟨x, hx⟩ : ∃ x, x = if spread then (s.putB (aTmrBlk 0x1004) 1 spread).spread u.length 0 u
    else s.putB (aTmrBlk 0x1004) 1 spread := ⟨_, rfl⟩
  have heq : s.groupStart spread = s.groupChans.foldl State.startChan x := by rw [hx]; rfl
  rw [heq]
  intro t
  have hput : TickOnly (fun a => a = aTmrBlk 0x1004 ∨ ∃ c ∈ u, a = aTmr c 0x1C) s (s.putB (aTmrBlk 0x1004) 1 spread) :=
    .wf (.inl rfl) _ _ _ _
  have hx1 : TickOnly (fun a => a = aTmrBlk 0x1004 ∨ ∃ c ∈ u, a = aTmr c 0x1C) s x := by
    rw [hx]
    exact .ite (hput.trans ((State.spread_only u.length 0 u _).mono fun _ => .inr)) hput
  have hxi : x.Inv := by
    rw [hx]
    have hk := State.putB_keeps (.refl s) (aTmrBlk 0x1004) 1 spread
    exact (State.Keeps.ite (c := spread = true) (State.spread_keeps hk u.length 0 u) hk).inv h
  have hxr : x = { s with regs := x.regs } := by
    rw [hx]
    by_cases hsp : spread = true
    · rw [if_pos hsp]
      exact State.spread_regs _ _ _ _
    · rw [if_neg hsp]
      rfl
  have hblk : ∀ c o, c < 32 → o < 0x40 → aTmr c o ≠ aTmrBlk 0x1004 := by
    intro c o hc ho
    unfold aTmr aTmrBlk
    omega
  have hmem : ∀ c ∈ s.groupChans, c < 32 ∧ s.tmrBase c = c := by
    intro c hc
    obtain ⟨hr, hp⟩ := List.mem_filter.mp hc
    exact ⟨List.mem_range.mp hr, eq_of_beq (Bool.and_eq_true_iff.mp hp).2⟩
  have hbase : ∀ c ∈ s.groupChans, x.tmrBase c = c := by
    intro c hc
    obtain ⟨hc32, hb⟩ := hmem c hc
    have hl : x.tmrLinked c = s.tmrLinked c := hx1.tmrLinked c fun ha => ha.elim (hblk _ _ (by omega) (by decide))
      fun ⟨d, _, ha⟩ => aTmr_off (by decide) (by decide) (by decide) ha
    rw [State.tmrBase, hl]
    exact hb
  have honly := State.startChans_only s.groupChans x
  have hphase : ∀ c : Nat, t.rd (aTmr c 0x1C) = x.rd (aTmr c 0x1C) := fun c =>
    honly.rd _ fun ⟨d, _, ha⟩ => not_startReg (by decide) (by decide) (by decide) ha
  refine ⟨State.startChans_started _ hxi hbase, fun c hc32 hc => ?_, fun hsp c hc => ?_, fun hsp i c hi => ?_, ?_⟩
  · rw [honly.bit, hx1.bit]
    · rintro (ha | ⟨d, _, ha⟩)
      · exact hblk c _ hc32 (by decide) ha
      · exact aTmr_off (by decide) (by decide) (by decide) ha
    · rintro ⟨d, hd, ha | ha | ha⟩
      · have hcd : c ≠ d := fun hcd => hc (hcd ▸ hd)
        exact aTmr_ne hcd ha
      · exact aTmr_off (by decide) (by decide) (by decide) ha
      · exact aTmr_off (by decide) (by decide) (by decide) ha.2
  · rw [hphase c, hx, if_neg (hsp ▸ Bool.false_ne_true)]
    exact State.rd_wf_ne (hblk c _ hc (by decide))
  · have hc : c < 32 := (hmem c (List.mem_of_mem_filter (List.mem_of_getElem? hi))).1
    have hnodup : u.Nodup := List.Nodup.filter _ (List.Nodup.filter _ List.nodup_range)
    rw [hphase c, hx, if_pos hsp, State.spread_phase _ hnodup ((State.putB_keeps (.refl s) _ _ _).inv h) 0 i c hi, Nat.zero_add]
    exact congrArg (fun w : W32 => BitVec.ofNat 32 (i * (w.toNat + 1) / u.length)) (State.rd_wf_ne (hblk c _ hc (by decide)))
  · have hfold := State.startChans_regs s.groupChans x
    have hx2 : { x with regs := t.regs } = ({ s with regs := t.regs } : State) := by
      rw [hxr]
    exact hfold.trans hx2

/- Slow mode (R391) ------------------------------------------------------------------------------------------------------------------------------ -/

/-- A slow step adds modulo the period, and wraps where it passes the end of it (R391). -/
theorem slowStep_spec (old step r cmp : Nat) : (slowStep old step r cmp).1 = (old + step) % (r + 1) ∧
    (slowStep old step r cmp).2.1 = decide (r < old + step) := by
  unfold slowStep
  dsimp only
  by_cases h : r < old + step
  · rw [if_pos h]
    exact ⟨(Nat.mod_eq_sub_mod h).symm, (decide_eq_true h).symm⟩
  · rw [if_neg h]
    exact ⟨(Nat.mod_eq_of_lt (by omega)).symm, (decide_eq_false h).symm⟩

/-- What an SCLK edge leaves of the mode (R391). -/
theorem State.tmrSclk_eq {s : State} {c : Nat} (hc : s.tmrBase c = c) {u : State}
    (hu : (if s.inSlow c && (s.edgeOf c).bit (aTmr c 0) 0 then (s.edgeOf c).slowRun c else s) = u) :
    s.tmrSclk c = { u with tmrSlow := spSet (fun _ => false) u.tmrSlow c (s.bit aDbgHalt 0 || s.sleeping) } := by
  have hne : ¬ (s.tmrBase c != c) = true := fun hb => bne_iff_ne.mp hb hc
  subst hu
  exact if_neg hne

/- The capture of R385 -------------------------------------------------------------------------------------------------------------------------- -/

/-- A read of the management controller on a bus at rest opens a cycle that holds no earlier value. -/
theorem State.mgmtIn_before {s : State} (hs : s.bus = []) (a k : Nat) : ((s.mgmtIn a false).busCycle k).before = [] := by
  have hcyc : ∀ j, s.busCycle j = BusCycle.init := fun j => by rw [State.busCycle, hs]; rfl
  unfold State.mgmtIn State.busEnter State.setBus
  rw [hcyc]
  change (spGet (fun _ => BusCycle.init) (spSet (fun _ => BusCycle.init) s.bus (busOf a) (BusCycle.init.enter 0 [])) k).before = []
  rw [hs]
  by_cases hk : k = busOf a
  · rw [hk, spGet_spSet_self rfl]
    rfl
  · rw [spGet_spSet_ne _ _ hk]
    rfl

end Sys2Proof.Machine
end

section

/-! Timers: the statement (O51). -/

namespace Sys2Proof.Machine

/-- The divider (R374). -/
theorem timers_divided (s : State) (c : Nat) :
    let k := spGet (fun _ => 0) s.tmrDiv c + 1
    let put := fun n : Nat => { s with tmrDiv := spSet (fun _ => 0) s.tmrDiv c n }
    (s.rf (aTmr c 4) 0 2 ≠ 1 → s.divided c = (s, true)) ∧
    (s.rf (aTmr c 4) 0 2 = 1 → s.bit (aSyn 4) 31 = false → s.divided c = (s, false)) ∧
    (s.rf (aTmr c 4) 0 2 = 1 → s.bit (aSyn 4) 31 = true →
      (k < max 16 (s.rf (aTmr c 8) 0 16) → s.divided c = (put k, false)) ∧
      (max 16 (s.rf (aTmr c 8) 0 16) ≤ k → s.divided c = (put 0, true))) := by
  intro k put
  unfold State.divided
  refine ⟨fun hclk => if_pos (bne_iff_ne.mpr hclk), fun hclk htref => ?_, fun hclk htref => ?_⟩
  · rw [if_neg fun hb => bne_iff_ne.mp hb hclk, if_pos (by rw [htref]; rfl)]
  · rw [if_neg fun hb => bne_iff_ne.mp hb hclk, if_neg (by rw [htref]; decide)]
    refine ⟨fun hk => ?_, fun hk => ?_⟩
    · dsimp only
      rw [decide_eq_false (Nat.not_le.mpr hk)]
      rfl
    · dsimp only
      rw [decide_eq_true hk]
      rfl

/-- The gate input and its flip-flops (R380, R381). -/
theorem timers_gate (s : State) (c : Nat) (pin : Bool) :
    let g := s.rf (aTmr c 4) 8 7
    let high := s.bit (aTmr c 4) 4
    let x := s.gateIn c pin
    let f := s.gateFf c
    (g < 4 → x = (pin == high)) ∧
    (0x20 ≤ g → g < 0x40 → x = (s.bit (aHlt (0x300 + 4 * (g - 0x20))) 31 == high)) ∧
    (0x40 ≤ g → x = (s.bit (aLn (g - 0x40) 0x14) 14 == high)) ∧ (4 ≤ g → g < 0x20 → x = false) ∧
    ∃ v fresh, s.gateSample c pin = { s with
        fresh := fresh, tmrGate := spSet (fun _ => (false, false, false)) s.tmrGate c (x, v, f.2.1) } ∧
      (x = f.1 → v = x) ∧ (v = x ∨ v = f.1) := by
  intro g high x f
  have hx : x = if g < 4 then pin == high
      else if 0x20 ≤ g ∧ g < 0x40 then s.bit (aHlt (0x300 + 4 * (g - 0x20))) 31 == high
      else if 0x40 ≤ g then s.bit (aLn (g - 0x40) 0x14) 14 == high else false := rfl
  refine ⟨fun h => ?_, fun h h' => ?_, fun h => ?_, fun h h' => ?_, ?_⟩
  · rw [hx, if_pos h]
  · rw [hx, if_neg (by omega), if_pos ⟨h, h'⟩]
  · rw [hx, if_neg (by omega), if_neg (by omega), if_pos h]
  · rw [hx, if_neg (by omega), if_neg (by omega), if_neg (by omega)]
  · have hs : s.gateSample c pin = { (if x = f.1 then s else s.used) with
        tmrGate := spSet (fun _ => (false, false, false)) s.tmrGate c
          (x, (if x = f.1 then x else if s.free.getLsbD 0 then x else f.1), f.2.1) } := rfl
    rw [hs]
    by_cases hxf : x = f.1
    · refine ⟨x, s.fresh, ?_, fun _ => rfl, .inl rfl⟩
      rw [if_pos hxf, if_pos hxf]
    · refine ⟨if s.free.getLsbD 0 then x else f.1, s.fresh + 1, ?_, fun h => absurd h hxf, ?_⟩
      · rw [if_neg hxf, if_neg hxf]
        rfl
      · exact (em _).imp (fun h => if_pos h) fun h => if_neg h

/-- Actions at the end of an edge (R388). -/
theorem timers_action (s : State) :
    let due := s.tmrDue
    let s1 := { s with tmrDue := s.tmrActs, tmrActs := [], tmrEdge := 0, bus := [] }
    (due = [] → exec .action s = .next s1) ∧
    ∀ k : Fin 32, let b := s.tmrBase k.val
      (due = [(k.val, 1)] → exec .action s = .next (s1.setB (aTmr b 0) 0)) ∧
      (due = [(k.val, 2)] → exec .action s = .next (s1.clrB (aTmr b 0) 0)) ∧
      (due = [(k.val, 1), (k.val, 2)] → exec .action s = .next (s1.clrB (aTmr b 0) 0)) ∧
      (due = [(k.val, 3)] → exec .action s = .next (s1.setTmrVal b 0x14 (s.tmrVal b 0x1C))) := by
  intro due s1
  have hexec : ∀ {u}, s1.tmrApply due = u → exec .action s = .next u := fun hu => congrArg Host.Outcome.next hu
  refine ⟨fun hd => hexec ?_, fun k => ?_⟩
  · rw [hd]
    exact State.tmrApply_one (j := 0) (by decide) fun a ha => absurd ha List.not_mem_nil
  · intro b
    have hone : ∀ l : List (Nat × Nat), (∀ a ∈ l, a.1 = k.val) → due = l → ∀ {u}, s1.tmrActOn b (l.map (·.2)) = u →
        exec .action s = .next u := fun l hl hd u hu => hexec (by
      rw [hd]
      exact (State.tmrApply_one (State.tmrBase_lt k.isLt) fun a ha => by rw [hl a ha]; rfl).trans hu)
    refine ⟨fun hd => hone _ ?_ hd rfl, fun hd => hone _ ?_ hd rfl, fun hd => hone _ ?_ hd rfl, fun hd => hone _ ?_ hd rfl⟩ <;>
      simp

/-- Settles O51: a tick is the gate's part, then the count and its events; the rest follows from what each of these touches. -/
theorem timers : Obligations.Timers := by
  unfold Obligations.Timers
  refine ⟨fun s c => timers_divided s c.val, fun s c pin => ?_, fun s c pin => timers_gate s c.val pin, timers_action,
    fun s spread hs h => ?_, slowStep_spec, fun s c => ?_, fun s p hs => ?_, fun s a v w hf => ?_⟩
  · intro d t ticks
    have htk : ticks = true → s.tickAt c.val = some t := State.tickAt_ticks
    have hti : s.Inv → t.Inv := fun h => (State.edgeOf_keeps (State.divided_keeps (.refl s) c.val) c.val).inv h
    obtain ⟨hdm, hdt⟩ := s.divided_spec c.val
    obtain ⟨hem, het, heb⟩ := d.1.edgeOf_spec c.val
    refine ⟨fun h => congrArg Host.Outcome.next (State.tmrTick_none (State.tickAt_silent h) pin),
      fun h => congrArg Host.Outcome.next (State.tmrTick_some (htk h) pin), fun h => State.tickRun_idle h pin,
      fun h => State.tickRun_counting h pin, fun h => ⟨s.tmrActions, rfl, ?_⟩, fun h => ?_, fun h hc hi => ?_,
      fun h hc hm => ?_, fun h => ?_, fun h hc hm => ?_, fun h => ?_, fun h hg hm hi => ?_, fun h => ?_, fun h hg => ?_,
      fun h => ?_⟩
    · rw [State.edgeOf, if_pos h]
      rfl
    · rw [State.edgeOf, if_neg (Nat.not_lt.mpr h)]
      rfl
    · obtain ⟨hv, hmem, hths, hbus, hrest⟩ := State.tickRun_spec (hti hi) c.isLt pin hc
      exact ⟨_, congrArg Host.Outcome.next (State.tmrTick_some (htk h) pin), hv, hmem.trans (hem.trans hdm),
        hths.trans (het.trans hdt), hbus.trans heb, fun k => hrest k.val k.isLt⟩
    · exact congrArg Host.Outcome.next ((State.tickIf_holds (htk h) pin (Bool.and_eq_true_iff.mpr ⟨hc, hm⟩)).trans
        (State.tmrTick_some (htk h) pin).symm)
    · exact congrArg Host.Outcome.next (State.tickIf_silent pin (h.imp_right and_false_of_or))
    · exact congrArg Host.Outcome.next ((State.tickIf_holds (htk h) pin (Bool.and_eq_true_iff.mpr ⟨hc, hm⟩)).trans
        (State.tmrTick_some (htk h) pin).symm)
    · exact congrArg Host.Outcome.next (State.tickIf_silent pin (h.imp_right and_false_of_or))
    · obtain ⟨h2c, h30, hev, hmem⟩ := State.tickRun_maxgate (hti hi) c.isLt pin hg hm
      exact ⟨_, congrArg Host.Outcome.next (State.tickIf_holds (htk h) pin (Bool.and_eq_true_iff.mpr ⟨hg, hm⟩)), h2c, h30, hev,
        hmem.trans (hem.trans hdm)⟩
    · exact congrArg Host.Outcome.next (State.tickIf_silent pin (h.imp_right and_false_of_or))
    · exact congrArg Host.Outcome.next (if_pos (Bool.and_eq_true_iff.mpr ⟨h, hg⟩))
    · exact congrArg Host.Outcome.next (if_neg (and_false_of_or h ▸ Bool.false_ne_true))
  · obtain ⟨x, hx⟩ : ∃ x, x = s.mgmtIn (aTmrBlk 0x1004) true := ⟨_, rfl⟩
    have hxr : x.regs = s.regs := by rw [hx]; rfl
    have hchans : x.groupChans = s.groupChans := by rw [hx]; rfl
    obtain ⟨hrun, hrest, hkeep, hspread, hframe⟩ := State.groupStart_spec (hx ▸ h.mgmtIn _ _ : x.Inv) spread
    simp only [hchans, State.rd_congr hxr, State.bit_congr hxr, show ∀ c, x.tmrLinked c = s.tmrLinked c from
      fun c => State.bit_congr hxr _ _] at hrun hrest hkeep hspread
    refine ⟨x.groupStart spread, ?_, hrun, fun c => hrest c.val c.isLt, fun hsp c => hkeep hsp c.val c.isLt, hspread, ?_⟩
    · rw [hx]
      exact congrArg Host.Outcome.next (State.mgmtDo_awake hs _ _ _)
    · rw [← hx]
      exact hframe
  · intro s1 st q mode
    have hexec : ∀ {u}, s.tmrSclk c.val = u → exec (.slowStep c) s = .next u := fun hu => congrArg Host.Outcome.next hu
    refine ⟨fun hb hsl hr hst => hexec (State.tmrSclk_eq hb ?_), fun hb hsl hr hst => hexec (State.tmrSclk_eq hb ?_),
      fun hb hsr => hexec (State.tmrSclk_eq hb (if_neg (and_false_of_or hsr ▸ Bool.false_ne_true))),
      fun hb => hexec (if_pos (bne_iff_ne.mpr hb))⟩
    · rw [if_pos (Bool.and_eq_true_iff.mpr ⟨hsl, hr⟩), State.slowRun]
      rw [if_neg (Nat.not_lt.mpr hst)]
    · rw [if_pos (Bool.and_eq_true_iff.mpr ⟨hsl, hr⟩), State.slowRun]
      rw [if_pos hst]
  · intro b now
    have hexec : ∀ {u}, b.tmrCountRead p.val = u → exec (.tmrCountRead p) s = .next u := fun hu =>
      congrArg Host.Outcome.next ((State.mgmtDo_awake hs _ _ _).trans hu)
    have hlink : b.tmrLinked (2 * p.val) = s.tmrLinked (2 * p.val) := rfl
    refine ⟨fun hbus c => ?_, fun hl => hexec ?_, fun hl => hexec ?_⟩
    · change b.busWord _ _ = _
      rw [State.busWord, State.mgmtIn_before hbus]
      rfl
    · unfold State.tmrCountRead
      dsimp only
      rw [hlink, if_pos hl]
      rfl
    · unfold State.tmrCountRead
      dsimp only
      rw [hlink, if_neg (hl ▸ Bool.false_ne_true)]
      rfl
  · rw [State.busWord, hf]
    rfl

end Sys2Proof.Machine
end

section

/-! SUPPORT. Host queues and completions: what the accesses of BAR0 and of host memory leave. -/

namespace Sys2Proof.Machine

/- Registers of BAR0 ------------------------------------------------------------------------------------------------------------ -/

section
variable {s : State} (h : spOk bar0Reset s.bar0 = true)
include h

/-- A field of BAR0 written is read back. -/
theorem State.rfB_wfB_self (a : Nat) {lo w : Nat} (x : Nat) (hw : lo + w ≤ 32) : (s.wfB a lo w x).rfB a lo w = x % 2 ^ w := by
  rw [State.rfB, State.wfB, State.rdB_wrB_self h, field_putField_self _ _ hw]

/-- A write of a field of BAR0 leaves the others of its register alone. -/
theorem State.rfB_wfB_disjoint (a : Nat) {lo w lo' w' : Nat} (x : Nat) (hd : lo' + w' ≤ lo ∨ lo + w ≤ lo') :
    (s.wfB a lo w x).rfB a lo' w' = s.rfB a lo' w' := by
  rw [State.rfB, State.wfB, State.rdB_wrB_self h, field_putField_ne _ _ hd]
  rfl

end

theorem State.wfB_frame (s : State) (a lo w x : Nat) : s.wfB a lo w x = { s with bar0 := (s.wfB a lo w x).bar0 } := rfl

theorem State.rdB_congr {s u : State} (h : u.bar0 = s.bar0) (a : Nat) : u.rdB a = s.rdB a := by
  rw [State.rdB, h]
  rfl

theorem State.rfB_congr {s u : State} (h : u.bar0 = s.bar0) (a lo w : Nat) : u.rfB a lo w = s.rfB a lo w := by
  rw [State.rfB, State.rdB_congr h]
  rfl

theorem State.bitB_congr {s u : State} (h : u.bar0 = s.bar0) (a i : Nat) : u.bitB a i = s.bitB a i := by
  rw [State.bitB, State.rfB_congr h]
  rfl

/- Stops of a queue (R394, R396) --------------------------------------------------------------------------------------------------- -/

/-- Settling touches the queue's status alone. -/
theorem State.qSettle_frame (s : State) (q : Nat) : s.qSettle q = { s with bar0 := (s.qSettle q).bar0 } := by
  unfold State.qSettle
  split_ifs
  · exact State.wfB_frame s _ _ _ _
  · rfl

/-- Settling touches bit 0 of the queue's status alone. -/
theorem State.rfB_qSettle {s : State} (h : spOk bar0Reset s.bar0 = true) (q lo w : Nat) (hlo : 1 ≤ lo) :
    (s.qSettle q).rfB (aQ q 0x18) lo w = s.rfB (aQ q 0x18) lo w := by
  unfold State.qSettle
  split_ifs
  · exact State.rfB_wfB_disjoint h _ _ (.inr hlo)
  · rfl

/-- The commands of queue `q` answer nothing more (R394). -/
def killed (q : Nat) (l : List Cur) : List Cur := l.map fun c => if c.pkt.q.val = q then { c with live := false } else c

theorem killed_dead {q : Nat} {l : List Cur} {c : Cur} (hc : c ∈ killed q l) (hq : c.pkt.q.val = q) : c.live = false := by
  obtain ⟨x, _, hx⟩ := List.mem_map.mp hc
  by_cases hxq : x.pkt.q.val = q
  · rw [if_pos hxq] at hx
    rw [← hx]
  · rw [if_neg hxq] at hx
    exact absurd (hx ▸ hq) hxq

theorem killed_map_id (q : Nat) (l : List Cur) : (killed q l).map (·.id) = l.map (·.id) := by
  rw [killed, List.map_map]
  refine List.map_congr_left fun c _ => ?_
  dsimp only [Function.comp_apply]
  split_ifs <;> rfl

theorem killed_queue (q : Nat) (l : List Cur) : (killed q l).map (·.pkt.q) = l.map (·.pkt.q) := by
  rw [killed, List.map_map]
  refine List.map_congr_left fun c _ => ?_
  dsimp only [Function.comp_apply]
  split_ifs <;> rfl

/-- A queue whose commands answer nothing more has them in progress still. -/
theorem any_killed (q r : Nat) (l : List Cur) : ((killed r l).any fun c => c.pkt.q.val == q) = l.any fun c => c.pkt.q.val == q := by
  have hq : ∀ l : List Cur, (l.any fun c => c.pkt.q.val == q) = (l.map (·.pkt.q)).any fun k => k.val == q := fun l => by
    rw [List.any_map]
    rfl
  rw [hq, hq, killed_queue]

/-- The error of a queue pair (R396). -/
theorem State.qError_spec {s : State} (h : s.Inv) (q : Fin 16) {e : Nat} (he : e < 16) :
    let s' := s.qError q.val e
    s'.qFailed q.val = true ∧ s'.rfB (aQ q.val 0x18) 4 4 = e ∧ s'.bit (aCmd 8) (if e ≤ 2 then 1 else 2) = true ∧
    s'.hostMem = s.hostMem ∧ s'.mem = s.mem ∧ (s.qBusy q.val = false → s'.bitB (aQ q.val 0x18) 0 = false) ∧
    (∀ c ∈ s'.inprog, c.pkt.q = q → c.live = false) ∧ s'.inprog.map (·.id) = s.inprog.map (·.id) := by
  obtain ⟨b, hb⟩ : ∃ b, b = ((s.wfB (aQ q.val 0x18) 1 1 1).wfB (aQ q.val 0x18) 4 4 e).bar0 := ⟨_, rfl⟩
  obtain ⟨r, hr⟩ : ∃ r, r = (s.setB (aCmd 8) (if e ≤ 2 then 1 else 2)).regs := ⟨_, rfl⟩
  obtain ⟨x, hx⟩ : ∃ x, x = { s with bar0 := b, regs := r, inprog := killed q.val s.inprog } := ⟨_, rfl⟩
  have heq : s.qError q.val e = x.qSettle q.val := by rw [hx, hb, hr]; rfl
  have hw1 : spOk bar0Reset (s.wfB (aQ q.val 0x18) 1 1 1).bar0 = true := State.wrB_bar0_ok h.bar0 _ _
  have hok : spOk bar0Reset x.bar0 = true := by
    rw [hx, hb]
    exact State.wrB_bar0_ok hw1 _ _
  have hxb : x.bar0 = ((s.wfB (aQ q.val 0x18) 1 1 1).wfB (aQ q.val 0x18) 4 4 e).bar0 := by rw [hx, hb]
  have herr : x.rfB (aQ q.val 0x18) 1 1 = 1 := by
    rw [State.rfB_congr hxb, State.rfB_wfB_disjoint hw1 _ _ (by decide), State.rfB_wfB_self h.bar0 _ _ (by decide)]
    rfl
  have hcode : x.rfB (aQ q.val 0x18) 4 4 = e := by
    rw [State.rfB_congr hxb, State.rfB_wfB_self hw1 _ _ (by decide)]
    exact Nat.mod_eq_of_lt he
  have hfail : x.qFailed q.val = true := beq_iff_eq.mpr herr
  intro s'
  have hs' : s' = x.qSettle q.val := heq
  have hfr : s' = { x with bar0 := s'.bar0 } := by rw [hs']; exact x.qSettle_frame q.val
  have hregs : s'.regs = r := by rw [hfr, hx]
  have hin : s'.inprog = killed q.val s.inprog := by rw [hfr, hx]
  refine ⟨?_, ?_, ?_, by rw [hfr, hx], by rw [hfr, hx], fun hbusy => ?_, ?_, ?_⟩
  · rw [hs']
    exact beq_iff_eq.mpr ((State.rfB_qSettle hok _ _ _ (by decide)).trans herr)
  · rw [hs']
    exact (State.rfB_qSettle hok _ _ _ (by decide)).trans hcode
  · rw [State.bit_congr (hregs.trans hr)]
    exact State.bit_setB_self h.regs _ (by split_ifs <;> decide)
  · have hidle : x.qBusy q.val = false := by
      rw [State.qBusy, hx]
      exact (any_killed _ _ _).trans hbusy
    rw [hs', State.qSettle, hfail, hidle, if_pos (by rw [Bool.or_true]; rfl), State.bitB, State.rfB_wfB_self hok _ _ (by decide)]
    rfl
  · rw [hin]
    exact fun c hc hq => killed_dead hc (congrArg Fin.val hq)
  · rw [hin]
    exact killed_map_id _ _

/- Host memory --------------------------------------------------------------------------------------------------------------------- -/

theorem State.toHostMem_frame (s : State) (a : Nat) (l : List Byte) : s.toHostMem a l = { s with hostMem := (s.toHostMem a l).hostMem } := by
  induction l generalizing s a with
  | nil => rfl
  | cons v l ih => exact ih _ (a + 1)

/-- A byte written outside a place leaves it. -/
theorem State.hostByte_outside (l : List Byte) (s : State) (a k : Nat) (hk : ∀ i < l.length, k ≠ (a + i) % 2 ^ 64) :
    spGet memUnwritten (s.toHostMem a l).hostMem k = spGet memUnwritten s.hostMem k := by
  induction l generalizing s a with
  | nil => rfl
  | cons v l ih =>
    refine (ih _ (a + 1) fun i hi => ?_).trans (spGet_spSet_ne _ _ (hk 0 (Nat.succ_pos _)))
    rw [Nat.add_right_comm]
    exact hk (i + 1) (Nat.succ_lt_succ hi)

/-- Bytes written to host memory stand there. -/
theorem State.hostByte_written (l : List Byte) {s : State} (h : Memory.wf s.hostMem = true) (a : Nat) (hl : l.length ≤ 2 ^ 64)
    {i : Nat} (hi : i < l.length) : spGet memUnwritten (s.toHostMem a l).hostMem ((a + i) % 2 ^ 64) = l.getD i 0 := by
  induction l generalizing s a i with
  | nil => exact absurd hi (Nat.not_lt_zero i)
  | cons v l ih =>
    have hlen : l.length + 1 ≤ 2 ^ 64 := hl
    cases i with
    | zero =>
      refine (State.hostByte_outside l _ (a + 1) _ fun j hj => ?_).trans (spGet_spSet_self h _ _)
      omega
    | succ i =>
      have hput : Memory.wf (spSet memUnwritten s.hostMem (a % 2 ^ 64) v) = true := spOk_spSet h _ _
      have := ih (s := { s with hostMem := spSet memUnwritten s.hostMem (a % 2 ^ 64) v }) hput (a + 1) (by omega)
        (Nat.lt_of_succ_lt_succ hi)
      rwa [Nat.add_right_comm] at this

theorem natLe_length (n v : Nat) : (natLe n v).length = n := by
  induction n generalizing v with
  | zero => rfl
  | succ n ih => exact congrArg (· + 1) (ih _)

theorem completionBytes_length (r0 r1 head q tag st : Nat) (phase : Bool) :
    (completionBytes r0 r1 head q tag st phase).length = 16 := by
  simp only [completionBytes, List.length_append, natLe_length]
  rfl

/- Completions (R395, R400) ----------------------------------------------------------------------------------------------------------- -/

/-- The completion of a live command whose write succeeds, by the parts of the state that it touches (R395, R397, R400). -/
theorem State.postCpl_good (s : State) {c : Cur} (hlive : c.live = true) (herr : c.pkt.cplErr = false) (st r0 r1 : Nat) :
    let q := c.pkt.q.val
    let p := s.qp q
    let base := s.rfB (aQ q 8) 12 20 * 2 ^ 12 + (s.rdB (aQ q 0xC)).toNat * 2 ^ 32
    let t := (p.ctail + 1) % s.cqLen q
    s.postCpl c st r0 r1 = { s with
      hostMem := (s.toHostMem (base + 16 * p.ctail) (completionBytes (if keepsResult st then r0 else 0)
        (if keepsResult st then r1 else 0) c.head q c.pkt.tag.toNat st p.phase)).hostMem
      queues := spSet (fun _ => QSt.init) s.queues q { p with ctail := t, phase := if t = 0 then !p.phase else p.phase }
      regs := (s.bump (aCmd 0xC) 1).regs
      msixPend := if s.bitB (aQ q 0x14) 9 && !c.pkt.flags.getLsbD 1 then
        s.msixPend ||| BitVec.ofNat 32 (2 ^ s.rfB (aQ q 0x14) 0 5) else s.msixPend } := by
  intro q p base t
  have hfr := s.toHostMem_frame (base + 16 * p.ctail) (completionBytes (if keepsResult st then r0 else 0)
        (if keepsResult st then r1 else 0) c.head q c.pkt.tag.toNat st p.phase)
  obtain ⟨m, hm⟩ : ∃ m, m = (s.toHostMem (base + 16 * p.ctail) (completionBytes (if keepsResult st then r0 else 0)
        (if keepsResult st then r1 else 0) c.head q c.pkt.tag.toNat st p.phase)).hostMem := ⟨_, rfl⟩
  rw [← hm] at hfr ⊢
  unfold State.postCpl
  dsimp only
  rw [if_neg (by rw [hlive]; decide), if_neg (herr ▸ Bool.false_ne_true), hfr]
  by_cases hi : (s.bitB (aQ q 0x14) 9 && !c.pkt.flags.getLsbD 1) = true
  · rw [if_pos hi, if_pos hi]
    rfl
  · rw [if_neg hi, if_neg hi]
    rfl

/-- A command whose queue has stopped answers nothing (R394). -/
theorem State.postCpl_dead (s : State) {c : Cur} (hlive : c.live = false) (st r0 r1 : Nat) : s.postCpl c st r0 r1 = s :=
  if_pos (by rw [hlive]; rfl)

/-- The state in which a completion is posted: the command is gone, and an error of the host has raised its bit (R402). -/
def State.ended (s : State) (c : Cur) (st : Nat) : State :=
  if st = 5 then ({ s with inprog := s.inprog.filter fun x => x.id != c.id }).setB (aCmd 8) 2
  else { s with inprog := s.inprog.filter fun x => x.id != c.id }

theorem State.ended_frame (s : State) (c : Cur) (st : Nat) : s.ended c st =
    { s with inprog := s.inprog.filter fun x => x.id != c.id, regs := (s.ended c st).regs } := by
  unfold State.ended
  split_ifs <;> rfl

theorem State.complete_eq (s : State) (c : Cur) (st r0 r1 : Nat) :
    s.complete c st r0 r1 = ((s.ended c st).postCpl c st r0 r1).qSettle c.pkt.q.val := rfl

theorem State.ended_rd (s : State) (c : Cur) (st : Nat) {a : Nat} (ha : a ≠ aCmd 8) : (s.ended c st).rd a = s.rd a := by
  unfold State.ended
  split_ifs
  · exact State.rd_wr_ne ha
  · rfl

theorem State.ended_inv {s : State} (h : s.Inv) (c : Cur) (st : Nat) : (s.ended c st).Inv := by
  have hgone : ({ s with inprog := s.inprog.filter fun x => x.id != c.id } : State).Inv :=
    { h with ids := fun y hy => h.ids y (List.mem_of_mem_filter hy) }
  unfold State.ended
  split_ifs
  · exact hgone.setB _ _
  · exact hgone

theorem keepsResult_eq (st : Nat) : keepsResult st = decide (st = 0 ∨ st = 5 ∨ st = 6 ∨ st = 7 ∨ st = 0xC ∨ st = 0xD) := by
  rw [Bool.eq_iff_iff]
  simp only [keepsResult, Bool.or_eq_true, beq_iff_eq, decide_eq_true_eq]
  tauto

/-- A completion (R395, R397, R400). -/
theorem State.complete_spec {s : State} (h : s.Inv) {c : Cur} (hlive : c.live = true) (herr : c.pkt.cplErr = false) (st r0 r1 : Nat) :
    let q := c.pkt.q.val
    let p := s.qp q
    let s' := s.complete c st r0 r1
    let base := s.rfB (aQ q 8) 12 20 * 2 ^ 12 + (s.rdB (aQ q 0xC)).toNat * 2 ^ 32
    let k := keepsResult st
    (∀ i < 16, spGet memUnwritten s'.hostMem ((base + 16 * p.ctail + i) % 2 ^ 64) =
      (completionBytes (if k then r0 else 0) (if k then r1 else 0) c.head q c.pkt.tag.toNat st p.phase).getD i 0) ∧
    (s'.qp q).ctail = (p.ctail + 1) % s.cqLen q ∧
    (s'.qp q).phase = (if (p.ctail + 1) % s.cqLen q = 0 then !p.phase else p.phase) ∧
    s'.inprog = s.inprog.filter (fun x => x.id != c.id) ∧ s'.rd (aCmd 0xC) = s.rd (aCmd 0xC) + 1 ∧ s'.mem = s.mem ∧
    s'.msixPend = (if s.bitB (aQ q 0x14) 9 && !c.pkt.flags.getLsbD 1 then
      s.msixPend ||| BitVec.ofNat 32 (2 ^ s.rfB (aQ q 0x14) 0 5) else s.msixPend) := by
  intro q p s' base k
  obtain ⟨x, hx⟩ : ∃ x, x = s.ended c st := ⟨_, rfl⟩
  have hxr : x.rd (aCmd 0xC) = s.rd (aCmd 0xC) := by
    rw [hx]
    exact s.ended_rd c st (by decide)
  have hxi : x.Inv := hx ▸ State.ended_inv h c st
  have hxf := s.ended_frame c st
  rw [← hx] at hxf
  have hq : x.queues = s.queues := by rw [hxf]
  have hb : x.bar0 = s.bar0 := by rw [hxf]
  have hqp : x.qp q = p := by rw [State.qp, hq]; rfl
  have hpend : x.msixPend = s.msixPend := by rw [hxf]
  have hpost := x.postCpl_good hlive herr st r0 r1
  dsimp only at hpost
  rw [State.cqLen] at hpost
  simp only [State.rfB_congr hb, State.rdB_congr hb, State.bitB_congr hb, hpend, show x.qp c.pkt.q.val = p from hqp] at hpost
  have hs' : s' = (x.postCpl c st r0 r1).qSettle q := by rw [hx]; rfl
  have hfr := (x.postCpl c st r0 r1).qSettle_frame q
  rw [← hs', hpost] at hfr
  have hqueue : s'.qp q = { p with
      ctail := (p.ctail + 1) % s.cqLen q
      phase := if (p.ctail + 1) % s.cqLen q = 0 then !p.phase else p.phase } := by
    rw [State.qp, hfr]
    exact spGet_spSet_self hxi.queues _ _
  refine ⟨fun i hi => ?_, by rw [hqueue], by rw [hqueue], ?_, ?_, ?_, by rw [hfr]⟩
  · rw [hfr]
    exact State.hostByte_written _ hxi.hostMem _ (by rw [completionBytes_length]; decide) (by rw [completionBytes_length]; exact hi)
  · rw [hfr, hxf]
  · have hregs : s'.regs = (x.bump (aCmd 0xC) 1).regs := by rw [hfr]
    rw [State.rd_congr hregs, State.bump, State.rd_wr_self hxi.regs, hxr]
    rfl
  · rw [hfr, hxf]

theorem State.complete_dead (s : State) {c : Cur} (hlive : c.live = false) (st r0 r1 : Nat) :
    (s.complete c st r0 r1).hostMem = s.hostMem := by
  rw [State.complete_eq, State.postCpl_dead _ hlive, State.qSettle_frame, State.ended_frame]

end Sys2Proof.Machine
end

section

/-! Host queues: the statement (O52). -/

namespace Sys2Proof.Machine

/-- Without PERST_N, an access of the host to the endpoint acts (R437). -/
theorem State.linkDo_free {s : State} (h : s.perst = false) (f : State → State) : s.linkDo f = f s := if_neg (h ▸ Bool.false_ne_true)

theorem State.linkDo_held {s : State} (h : s.perst = true) (f : State → State) : s.linkDo f = s := if_pos h

/-- The end of a link on a powered device (R393). -/
theorem State.linkDown_spec {s : State} (hp : s.power ≠ .off) (h : s.Inv) :
    s.linkDown.queues = [] ∧ s.linkDown.cfgSpace = [] ∧ s.linkDown.bar2 = [] ∧ s.linkDown.msixPend = 0 ∧
    s.linkDown.rd (aCmd 0) = 0 ∧ s.linkDown.bit (aCmd 8) 0 = true ∧ (∀ a, a ≠ 8 → s.linkDown.rdB a = bar0Reset a) ∧
    s.linkDown.rdB 8 = s.rdB 8 ∧ (∀ c ∈ s.linkDown.inprog, c.live = false) ∧ s.linkDown.mem = s.mem ∧
    s.linkDown.hostMem = s.hostMem ∧ s.linkDown.perst = s.perst := by
  obtain ⟨x, hx⟩ : ∃ x, x = { s with
    bar0 := s.bar0.filter fun p => p.1 == 8
    bar2 := []
    cfgSpace := []
    msixPend := 0
    queues := []
    inprog := s.inprog.map fun c : Cur => { c with live := false } } := ⟨_, rfl⟩
  have heq : s.linkDown = (x.setB (aCmd 8) 0).wr (aCmd 0) 0 := by
    rw [hx]
    exact if_neg hp
  have hreg : spOk regReset x.regs = true := by
    rw [hx]
    exact h.regs
  have hset : spOk regReset (x.setB (aCmd 8) 0).regs = true := State.wr_regs_ok hreg _ _
  have hfr : s.linkDown = { x with regs := s.linkDown.regs } := by rw [heq]; rfl
  have hb : ∀ a, s.linkDown.rdB a = spGet bar0Reset (s.bar0.filter fun p => p.1 == 8) a := fun a => by
    rw [State.rdB, hfr, hx]
  have hget := spGet_filter bar0Reset (fun k => k == 8) s.bar0
  refine ⟨by rw [hfr, hx], by rw [hfr, hx], by rw [hfr, hx], by rw [hfr, hx], ?_, ?_, fun a ha => ?_, ?_, ?_, by rw [hfr, hx],
    by rw [hfr, hx], by rw [hfr, hx]⟩
  · rw [heq, State.rd_wr_self hset]
  · rw [heq, State.bit_wr_ne _ _ (by decide)]
    exact State.bit_setB_self hreg _ (by decide)
  · rw [hb, hget, if_neg (by rw [beq_false_of_ne ha]; decide)]
  · rw [hb, hget, if_pos (by decide)]
    rfl
  · rw [hfr, hx]
    intro c hc
    obtain ⟨y, _, hy⟩ := List.mem_map.mp hc
    rw [← hy]

/-- With no link, the host reads every register of BAR0 in its reset state (R392, R393). -/
theorem State.bar0View_down {s : State} (h : s.rd (aCmd 0) = 0) (a : Nat) : s.bar0View a = bar0Reset a := by
  have hbit : s.bit (aCmd 0) 8 = false := by
    rw [State.bit, State.rf, h]
    rfl
  rw [State.bar0View, hbit, if_pos (by rw [Bool.or_eq_true]; exact .inr rfl)]

theorem linkUp_fields {sp wd : Nat} (h : sp < 8) (h' : wd < 16) (v : W32) (hv : v = BitVec.ofNat 32 (sp + wd * 2 ^ 4 + 2 ^ 8)) :
    field v 0 3 = sp ∧ field v 4 4 = wd := by
  have hn : v.toNat = sp + wd * 16 + 256 := by
    rw [hv, BitVec.toNat_ofNat]
    exact Nat.mod_eq_of_lt (by omega)
  unfold field
  rw [hn]
  constructor <;> omega

/-- Settles O52: each access of the endpoint is a case split on PERST_N and on the queue's state; the error of a queue, a completion
and the end of a link follow from what they touch. -/
theorem hostQueues : Obligations.HostQueues := by
  unfold Obligations.HostQueues
  refine ⟨fun s q v speed width hp => ?_, fun s q v hp => ?_, fun s q v hp => ?_, fun s q e h he => State.qError_spec h q he,
    fun s v => ?_, fun s c st r0 r1 h hlive herr => ?_, fun s c st r0 r1 hlive => State.complete_dead s hlive st r0 r1,
    fun s why => ?_, fun s speed width => ?_⟩
  · have hheld : ∀ f, (Host.Outcome.next (s.linkDo f) : Host.Outcome State Fault Refusal) = .next s := fun f =>
      congrArg _ (State.linkDo_held hp f)
    exact ⟨hheld _, hheld _, hheld _, hheld _,
      congrArg Host.Outcome.next (if_neg fun hc => Bool.false_ne_true (hc.2.1.symm.trans hp))⟩
  · intro s1 s2 sq cq
    have hen : ∀ {u}, s.qCfgWrite q.val (v ||| 0x100) = u → exec (.queueEnable q v) s = .next u := fun hu =>
      congrArg Host.Outcome.next ((State.linkDo_free hp _).trans hu)
    have hdi : ∀ {u}, s.qCfgWrite q.val (v &&& ~~~(0x100 : W32)) = u → exec (.queueDisable q v) s = .next u := fun hu =>
      congrArg Host.Outcome.next ((State.linkDo_free hp _).trans hu)
    have hon : (v ||| 0x100).getLsbD 8 = true := by simp
    have hoff : (v &&& ~~~(0x100 : W32)).getLsbD 8 = false := by simp
    refine ⟨fun he hsq hcq => hen ?_, fun he hbad => hen ?_, fun he => ⟨hen ?_, hdi ?_⟩, fun he => hdi ?_⟩
    · unfold State.qCfgWrite
      dsimp only
      rw [hon, he, if_pos (by decide), if_pos ⟨hsq, hcq⟩]
    · unfold State.qCfgWrite
      dsimp only
      rw [hon, he, if_pos (by decide), if_neg fun hc => by
        have h1 : 1 ≤ sq := hc.1
        have h2 : 1 ≤ cq := hc.2
        omega]
    · unfold State.qCfgWrite
      dsimp only
      rw [hon, he, if_neg (by decide), if_neg (by decide)]
    · unfold State.qCfgWrite
      dsimp only
      rw [hoff, he, if_neg (by decide), if_pos (by decide)]
    · unfold State.qCfgWrite
      dsimp only
      rw [hoff, he, if_neg (by decide), if_neg (by decide)]
  · intro i p n ahead
    have hsq : ∀ {u}, s.sqTailWrite q.val v = u → exec (.sqTail q v) s = .next u := fun hu =>
      congrArg Host.Outcome.next ((State.linkDo_free hp _).trans hu)
    have hcq : ∀ {u}, s.cqHeadWrite q.val v = u → exec (.cqHead q v) s = .next u := fun hu =>
      congrArg Host.Outcome.next ((State.linkDo_free hp _).trans hu)
    have hahead : (decide (n ≤ i) || decide ((p.ctail + n - p.chead) % n < (i + n - p.chead) % n)) = true ↔ ahead := by
      rw [Bool.or_eq_true, decide_eq_true_eq, decide_eq_true_eq]
    refine ⟨fun he hf => ?_, fun hno => ?_⟩
    · have huse : ¬ (!s.qEnabled q.val || s.qFailed q.val) = true := by rw [he, hf]; decide
      exact ⟨fun hi => hsq ((if_neg huse).trans (if_neg (Nat.not_le.mpr hi))), fun hi => hsq ((if_neg huse).trans (if_pos hi)),
        fun ha => hcq ((if_neg huse).trans (if_neg fun hc => ha (hahead.mp hc))),
        fun ha => hcq ((if_neg huse).trans (if_pos (hahead.mpr ha)))⟩
    · have huse : (!s.qEnabled q.val || s.qFailed q.val) = true := by
        rw [Bool.or_eq_true]
        exact hno.imp_left fun he => by rw [he]; rfl
      exact ⟨hsq (if_pos huse), hcq (if_pos huse)⟩
  · intro on
    have hcond : (s.msixPend.getLsbD v.val && s.msixOn && !(s.rd2 (16 * v.val + 12)).getLsbD 0) = true ↔
        s.msixPend.getLsbD v.val = true ∧ on ∧ (s.rd2 (16 * v.val + 12)).getLsbD 0 = false := by
      simp only [State.msixOn, Bool.and_eq_true, Bool.not_eq_true', and_assoc, on]
    refine ⟨fun h1 h2 h3 => congrArg Host.Outcome.next (if_pos (hcond.mpr ⟨h1, h2, h3⟩)), fun hno =>
      congrArg Host.Outcome.next (if_neg fun hc => ?_)⟩
    obtain ⟨h1, h2, h3⟩ := hcond.mp hc
    rcases hno with hn | hn | hn
    · exact Bool.false_ne_true (hn.symm.trans h1)
    · exact hn h2
    · exact Bool.false_ne_true (h3.symm.trans hn)
  · have hspec := State.complete_spec h hlive herr st r0 r1
    rw [keepsResult_eq] at hspec
    exact hspec
  · have hoff : s.power = .off → s.linkDown = s := fun hp => if_pos hp
    have hend : (∀ b, why ≠ .perst b) → s.linkEnd why = s.linkDown := by
      intro hw
      cases why with
      | perst b => exact absurd rfl (hw b)
      | _ => rfl
    refine ⟨fun hw => by rw [hw]; rfl, fun hw hp => ?_, fun hw hp => ?_, fun hw hp h => ?_⟩
    · rw [hw]
      change Host.Outcome.next { s.linkDown with perst := true } = _
      rw [hoff hp]
    · exact congrArg Host.Outcome.next ((hend hw).trans (hoff hp))
    · obtain ⟨hqs, hcfg, hbar2, hpend, hrd, hbit, hbar0, hstat, hlive, hmem, hhost, hperst⟩ := State.linkDown_spec hp h
      have hview : ∀ a, s.linkDown.bar0View a = bar0Reset a := State.bar0View_down hrd
      by_cases hwp : why = .perst true
      · have heq : s.linkEnd why = { s.linkDown with perst := true } := by rw [hwp]; rfl
        refine ⟨_, congrArg Host.Outcome.next heq, hqs, hcfg, hbar2, hpend, hrd, hbit,
          State.bar0View_down hrd, hbar0, hstat, hlive, hmem, hhost, ?_⟩
        rw [hwp, Bool.or_eq_true_iff.mpr (.inr (by decide))]
      · have hall : ∀ b, why ≠ .perst b := by
          intro b
          cases b with
          | false => exact hw
          | true => exact hwp
        refine ⟨_, congrArg Host.Outcome.next (hend hall), hqs, hcfg, hbar2, hpend, hrd, hbit, hview, hbar0, hstat, hlive, hmem,
          hhost, ?_⟩
        rw [hperst, beq_false_of_ne hwp, Bool.or_false]
  · intro good
    have hwd : ∀ k : Nat, k < 16 → (width = BitVec.ofNat 4 k ↔ width.toNat = k) := by
      intro k hk
      rw [← BitVec.toNat_inj, BitVec.toNat_ofNat, Nat.mod_eq_of_lt hk]
    have hgood : good ↔ 1 ≤ speed.toNat ∧ speed.toNat ≤ 5 ∧
        (width.toNat = 1 ∨ width.toNat = 2 ∨ width.toNat = 4 ∨ width.toNat = 8) := by
      rw [← hwd 1 (by decide), ← hwd 2 (by decide), ← hwd 4 (by decide), ← hwd 8 (by decide)]
      rfl
    have hup : s.power = .up → s.perst = false → good → exec (.linkUp speed width) s =
        .next (s.wr (aCmd 0) (BitVec.ofNat 32 (speed.toNat + width.toNat * 2 ^ 4 + 2 ^ 8))) := fun hp hn hg =>
      congrArg Host.Outcome.next (if_pos ⟨hp, hn, hgood.mp hg⟩)
    refine ⟨hup, fun hno => congrArg Host.Outcome.next (if_neg fun hc => ?_), fun hp hn hg h => ⟨_, hup hp hn hg, ?_⟩⟩
    · exact hno.elim (fun hp => hp hc.1) fun hg => hg (hgood.mpr hc.2.2)
    · obtain ⟨v, hv⟩ : ∃ v, v = BitVec.ofNat 32 (speed.toNat + width.toNat * 2 ^ 4 + 2 ^ 8) := ⟨_, rfl⟩
      obtain ⟨hs, hw⟩ := linkUp_fields speed.isLt width.isLt v hv
      have h1 := speed.isLt
      have h2 := width.isLt
      rw [← hv, State.cfgView, if_pos rfl, State.rf, State.rf, State.rd_wr_self h.regs, hs, hw, BitVec.toNat_ofNat]
      exact Nat.mod_eq_of_lt (by omega)

end Sys2Proof.Machine
end

section

/-! SUPPORT. Host commands: the table of opcodes, what a command that starts finds, the checks and the waits (R398 to R413). -/

namespace Sys2Proof.Machine

/- The table of opcodes (R398) -------------------------------------------------------------------------------------------------- -/

/-- The rows of the opcode tables. -/
def hostTable : List (Nat × (Packet → Instr)) := [(0x00, .nop), (0x01, .identify), (0x02, .abort), (0x03, .fence), (0x04, .noticeWait),
  (0x10, .imageErase), (0x11, .imageStage), (0x12, .imageCommit), (0x13, .imageActivate), (0x14, .imageRead),
  (0x15, .keyProvision), (0x16, .keyRevoke), (0x17, .sigPolicy), (0x18, .imageActivateHost), (0x20, .regRead), (0x21, .regWrite),
  (0x22, .regBlockRead), (0x30, .memRead), (0x31, .memWrite), (0x32, .bankOwner), (0x33, .siteResults), (0x40, .siteArm),
  (0x41, .testStart), (0x42, .testStop), (0x43, .siteDisarm), (0x44, .siteWait), (0x45, .doorbell), (0x46, .siteSignal),
  (0x50, .taskQuery), (0x51, .taskSignal), (0x52, .taskKill), (0x53, .taskSetPrio), (0x54, .taskSetAffinity), (0x55, .taskList),
  (0x60, .laneTrain), (0x61, .laneCal), (0x62, .laneEyeScan), (0x63, .lanePrbs), (0x70, .healthRead), (0x71, .stickyRead),
  (0x72, .stickyClear), (0x73, .spareMapRead), (0x80, .syncConfig), (0x81, .syncSend), (0x82, .pgRelock), (0x90, .prepareRemoval),
  (0x91, .deviceReset), (0x92, .resume)]

/-- A code of the table names its row. -/
theorem commandOf_row (op : BitVec 8) (p : Packet) : ∀ x ∈ hostTable, op.toNat = x.1 → commandOf op p = x.2 p := by
  unfold hostTable
  simp only [List.forall_mem_cons]
  refine ⟨?_, ?_, ?_, ?_, ?_, ?_, ?_, ?_, ?_, ?_, ?_, ?_, ?_, ?_, ?_, ?_, ?_, ?_, ?_, ?_, ?_, ?_, ?_, ?_, ?_, ?_, ?_, ?_, ?_, ?_, ?_,
    ?_, ?_, ?_, ?_, ?_, ?_, ?_, ?_, ?_, ?_, ?_, ?_, ?_, ?_, ?_, ?_, ?_, fun x hx => absurd hx List.not_mem_nil⟩
  all_goals
    intro h
    simp only [commandOf, h]

/-- Any other code is BAD_OPCODE's. -/
theorem commandOf_bad (op : BitVec 8) (p : Packet) (h : ∀ x ∈ hostTable, op.toNat ≠ x.1) : commandOf op p = .badOpcode op p := by
  unfold hostTable at h
  simp only [List.forall_mem_cons] at h
  unfold commandOf
  split
  case h_49 => rfl
  all_goals
    exfalso
    omega

/-- A command at the end of an empty queue is the next to run. -/
theorem step_submit {s : State} (hs : s.pending = []) (w : BitVec 512) (p : Packet) : step (s.submit w p) = exec (hostCommand w p) s := by
  have hq : (s.submit w p).pending = [hostCommand w p] := by
    rw [State.submit, hs]
    rfl
  have hrest : { s.submit w p with pending := [] } = s := by
    rw [← hs]
    rfl
  rw [step, hq]
  exact congrArg (exec (hostCommand w p)) hrest

/- The queue that is next (R404) -------------------------------------------------------------------------------------------------- -/

/-- The queues in the order in which they are looked at. -/
def State.takeOrder (s : State) : List Nat := (List.range 16).map fun i => (s.lastQ + 1 + i) % 16

theorem State.mem_takeOrder (s : State) (q : Nat) : q ∈ s.takeOrder ↔ q < 16 := by
  constructor
  · intro h
    obtain ⟨i, _, rfl⟩ := List.mem_map.mp h
    exact Nat.mod_lt _ (by decide)
  · intro h
    refine List.mem_map.mpr ⟨(q + 16 - (s.lastQ + 1) % 16) % 16, List.mem_range.mpr (Nat.mod_lt _ (by decide)), ?_⟩
    omega

/-- The queue is that of the high class, if any of that class is eligible, and else any eligible one. -/
theorem State.pickQ_high {s : State} {q : Nat} (h : s.takeOrder.find? (fun q => s.eligible q && s.bitB (aQ q 0x14) 10) = some q) :
    s.pickQ = some q := by
  unfold State.takeOrder at h
  unfold State.pickQ
  dsimp only
  rw [h]

theorem State.pickQ_any {s : State} (h : s.takeOrder.find? (fun q => s.eligible q && s.bitB (aQ q 0x14) 10) = none) :
    s.pickQ = s.takeOrder.find? s.eligible := by
  unfold State.takeOrder at h ⊢
  unfold State.pickQ
  dsimp only
  rw [h]

/-- The queue that is next is eligible, and of the high class if any of that class is (R404). -/
theorem State.pickQ_spec {s : State} {q : Nat} (h : s.pickQ = some q) : q < 16 ∧ s.eligible q = true ∧
    ((∃ k < 16, s.eligible k = true ∧ s.bitB (aQ k 0x14) 10 = true) → s.bitB (aQ q 0x14) 10 = true) := by
  cases hf : s.takeOrder.find? (fun q => s.eligible q && s.bitB (aQ q 0x14) 10) with
  | some r =>
    obtain rfl : r = q := Option.some.inj ((State.pickQ_high hf).symm.trans h)
    have hp := List.find?_some hf
    rw [Bool.and_eq_true] at hp
    exact ⟨(s.mem_takeOrder r).mp (List.mem_of_find?_eq_some hf), hp.1, fun _ => hp.2⟩
  | none =>
    have he := (State.pickQ_any hf).symm.trans h
    refine ⟨(s.mem_takeOrder q).mp (List.mem_of_find?_eq_some he), List.find?_some he, ?_⟩
    rintro ⟨k, hk, hek, hhk⟩
    exact absurd (Bool.and_eq_true_iff.mpr ⟨hek, hhk⟩) (List.find?_eq_none.mp hf k ((s.mem_takeOrder k).mpr hk))

theorem State.pickQ_none (s : State) : s.pickQ = none ↔ ∀ q < 16, s.eligible q = false := by
  constructor
  · intro h q hq
    cases hf : s.takeOrder.find? (fun q => s.eligible q && s.bitB (aQ q 0x14) 10) with
    | some r => exact absurd ((State.pickQ_high hf).symm.trans h) (Option.some_ne_none r)
    | none =>
      have he := (State.pickQ_any hf).symm.trans h
      exact Bool.eq_false_iff.mpr (List.find?_eq_none.mp he q ((s.mem_takeOrder q).mpr hq))
  · intro h
    cases hp : s.pickQ with
    | none => rfl
    | some q =>
      obtain ⟨hq, he, _⟩ := State.pickQ_spec hp
      exact absurd (he.symm.trans (h q hq)) (by decide)

/-- A queue that is next has no command in progress. -/
theorem State.not_busy_of_pickQ {s : State} {q : Nat} (h : s.pickQ = some q) : s.qBusy q = false := by
  have he := (State.pickQ_spec h).2.1
  unfold State.eligible at he
  simp only [Bool.and_eq_true, Bool.not_eq_true'] at he
  exact he.1.2

/-- No command in progress is of a queue that is not busy. -/
theorem State.queue_ne_of_not_busy {s : State} {q : Nat} (h : s.qBusy q = false) {c : Cur} (hc : c ∈ s.inprog) : c.pkt.q.val ≠ q := by
  intro hq
  have hbusy : s.qBusy q = true := List.any_eq_true.mpr ⟨c, hc, beq_iff_eq.mpr hq⟩
  exact Bool.false_ne_true (h.symm.trans hbusy)

/- Starts (R404 to R408) -------------------------------------------------------------------------------------------------------------- -/

/-- What the row of a command looks for: the command that has not started, or stands in its data phase. -/
def isRow (op : Nat) (p : Packet) (c : Cur) : Bool := c.pkt == p && c.op == op && (c.wait == .held || c.wait == .data)

/-- A list without a command of the packet's queue holds no command of the row. -/
theorem find_isRow_none {l : List Cur} {op : Nat} {p : Packet} (h : ∀ c ∈ l, c.pkt.q.val ≠ p.q.val) : l.find? (isRow op p) = none := by
  refine List.find?_eq_none.mpr fun c hc hrow => ?_
  unfold isRow at hrow
  simp only [Bool.and_eq_true, beq_iff_eq] at hrow
  exact h c hc (congrArg (fun p => p.q.val) hrow.1.1)

/-- A row whose command is not in progress once it had its turn does nothing more. -/
theorem State.hostCmd_absent {s t : State} {op : Nat} {p : Packet} (ht : (if s.qBusy p.q.val then s else s.take op p) = t)
    (h : ∀ c ∈ t.inprog, c.pkt.q.val ≠ p.q.val) (run : State → Cur → State) : s.hostCmd op p run = t := by
  have hf : t.inprog.find? (fun c => c.pkt == p && c.op == op && (c.wait == .held || c.wait == .data)) = none := find_isRow_none h
  unfold State.hostCmd
  dsimp only
  rw [ht, hf]

/-- A row whose command is in progress, has not started and may begin, runs it. -/
theorem State.hostCmd_runs {s t : State} {op : Nat} {p : Packet} {c : Cur} (ht : (if s.qBusy p.q.val then s else s.take op p) = t)
    (hf : t.inprog.find? (isRow op p) = some c) (hs : (t.sleeping && decide (4 < op)) = false) (hm : t.mayBegin c = true)
    (run : State → Cur → State) : s.hostCmd op p run = (run (t.setWait c .data) { c with wait := .data }).poll := by
  have hf' : t.inprog.find? (fun c => c.pkt == p && c.op == op && (c.wait == .held || c.wait == .data)) = some c := hf
  unfold State.hostCmd
  dsimp only
  rw [ht, hf']
  dsimp only
  rw [if_neg (hs ▸ Bool.false_ne_true), hm, if_pos (by rw [Bool.or_true])]

section
variable {s : State} {op : Nat} {p : Packet}

/-- The command as it is taken: not started. -/
def State.tookCur (s : State) (op : Nat) (p : Packet) : Cur := { s.curOf op p with wait := .held }

/-- The state in which the command is taken. -/
def State.tookCmd (s : State) (op : Nat) (p : Packet) : State :=
  { s.setQp p.q.val { s.qp p.q.val with head := (s.curOf op p).head } with
    lastQ := p.q.val, nextId := s.nextId + 1, inprog := s.inprog ++ [s.tookCur op p] }

theorem State.take_eq (hr : s.bitB 8 0 = true) (hn : s.pickQ = some p.q.val) (hf : p.fetchErr = false) (op : Nat) :
    s.take op p = s.tookCmd op p := by
  unfold State.take
  dsimp only
  rw [if_neg (by rw [State.takes, hr, hn]; simp), if_neg (hf ▸ Bool.false_ne_true)]
  rfl

theorem State.take_stops (hr : s.takes = true) (hn : s.pickQ = some p.q.val) (hf : p.fetchErr = true) (op : Nat) :
    s.take op p = s.qError p.q.val 3 := by
  unfold State.take
  dsimp only
  rw [if_neg (by rw [hr, hn]; simp), if_pos hf]

theorem State.take_waits (h : s.takes = false ∨ s.pickQ ≠ some p.q.val) (op : Nat) : s.take op p = s := by
  unfold State.take
  dsimp only
  refine if_pos ?_
  rw [Bool.or_eq_true, Bool.not_eq_true', bne_iff_ne]
  exact h

/-- The commands in progress before the one taken are those of before. -/
theorem State.before_tookCmd (hids : ∀ x ∈ s.inprog, x.id < s.nextId) :
    (s.tookCmd op p).inprog.takeWhile (fun x => x.id != s.nextId) = s.inprog := by
  have hall : ∀ x ∈ s.inprog, (x.id != s.nextId) = true := fun x hx => bne_iff_ne.mpr (Nat.ne_of_lt (hids x hx))
  change (s.inprog ++ [s.tookCur op p]).takeWhile _ = _
  rw [List.takeWhile_append_of_pos hall]
  have hlast : ([s.tookCur op p].takeWhile fun x => x.id != s.nextId) = [] := by
    rw [List.takeWhile_cons_of_neg]
    exact fun h => bne_iff_ne.mp h rfl
  rw [hlast, List.append_nil]

/-- A command that is taken and starts may begin (R405, R407, R408). -/
theorem State.Starts.mayBegin (h : s.Starts op p) : (s.tookCmd op p).mayBegin (s.tookCur op p) = true := by
  have hbefore := State.before_tookCmd (op := op) (p := p) h.ids
  have hfence : (!(s.tookCur op p).fenced || s.inprog.isEmpty) = true := by
    cases hfe : (s.tookCur op p).fenced with
    | false => rfl
    | true =>
      have hnil := h.fence (by
        have hor := hfe
        unfold Cur.fenced at hor
        rw [Bool.or_eq_true, beq_iff_eq] at hor
        exact hor)
      rw [hnil]
      rfl
  have hother : ∀ f : Cur → Bool, (∀ x ∈ s.inprog, f x = false) →
      ((s.tookCmd op p).inprog.any fun x => x.id != (s.tookCur op p).id && f x) = false := by
    intro f hf
    refine List.any_eq_false.mpr fun x hx => ?_
    rcases List.mem_append.mp hx with hx | hx
    · rw [hf x hx, Bool.and_false]
      exact Bool.false_ne_true
    · rw [List.mem_singleton.mp hx, bne_self_eq_false, Bool.false_and]
      exact Bool.false_ne_true
  have hexcl : ((s.tookCmd op p).inprog.any fun x => x.id != (s.tookCur op p).id && (exclusive x.op && x.started)) = false :=
    hother _ fun x hx => by
      cases hxe : exclusive x.op with
      | false => rfl
      | true => exact h.others x hx hxe
  have halone : (exclusive (s.tookCur op p).op &&
      (s.tookCmd op p).inprog.any fun x => x.id != (s.tookCur op p).id && x.wait == .data) = false := by
    cases hxe : exclusive (s.tookCur op p).op with
    | false => rfl
    | true => exact hother (fun x => x.wait == .data) fun x hx => beq_false_of_ne (h.alone hxe x hx)
  have horder : (s.inprog.any fun x => !x.started && !x.fenced) = false := by
    refine List.any_eq_false.mpr fun x hx hc => ?_
    rw [Bool.and_eq_true, Bool.not_eq_true', Bool.not_eq_true'] at hc
    rcases h.order x hx with ho | ho
    · exact Bool.false_ne_true (hc.1.symm.trans ho)
    · exact Bool.false_ne_true (hc.2.symm.trans ho)
  unfold State.mayBegin
  dsimp only
  simp only [Bool.and_assoc] at hexcl ⊢
  have hid : (s.tookCur op p).id = s.nextId := rfl
  rw [hid] at hexcl halone ⊢
  rw [hbefore, hfence, hexcl, halone, horder]
  rfl

/-- Its wait set, the state is the one in which it has begun. -/
theorem State.Starts.setWait_tookCmd (h : s.Starts op p) : (s.tookCmd op p).setWait (s.tookCur op p) .data = s.begun op p := by
  have hmap : ((s.inprog ++ [s.tookCur op p]).map fun x => if x.id = (s.tookCur op p).id then { x with wait := .data } else x) =
      s.inprog ++ [s.curOf op p] := by
    rw [List.map_append]
    congr 1
    · refine (List.map_congr_left fun x hx => ?_).trans (List.map_id _)
      exact if_neg (Nat.ne_of_lt (h.ids x hx))
    · rw [List.map_singleton, if_pos rfl]
      rfl
  have heq : (s.tookCmd op p).setWait (s.tookCur op p) .data = { s.tookCmd op p with
    inprog := (s.inprog ++ [s.tookCur op p]).map fun x => if x.id = (s.tookCur op p).id then { x with wait := .data } else x } := rfl
  rw [heq, hmap]
  rfl

/-- A command that is taken and starts at once runs in the state in which it has begun, and then every waiting command goes on
(R404, R405). -/
theorem State.Starts.hostCmd (h : s.Starts op p) (run : State → Cur → State) :
    s.hostCmd op p run = (run (s.begun op p) (s.curOf op p)).poll := by
  have hbusy := State.not_busy_of_pickQ h.next
  have htake : (if s.qBusy p.q.val then s else s.take op p) = s.tookCmd op p := by
    rw [hbusy, if_neg Bool.false_ne_true]
    exact State.take_eq h.ready h.next h.fetched op
  have hfind : (s.tookCmd op p).inprog.find? (isRow op p) = some (s.tookCur op p) := by
    change (s.inprog ++ [s.tookCur op p]).find? _ = _
    rw [List.find?_append, find_isRow_none fun c hc => State.queue_ne_of_not_busy hbusy hc]
    have hrow : isRow op p (s.tookCur op p) = true := by
      unfold isRow
      simp only [Bool.and_eq_true, Bool.or_eq_true, beq_iff_eq]
      exact ⟨⟨rfl, rfl⟩, .inl rfl⟩
    rw [List.find?_cons_of_pos hrow]
    rfl
  have hsleep : ((s.tookCmd op p).sleeping && decide (4 < op)) = false := by
    by_cases hop : 4 < op
    · have hs : (s.tookCmd op p).sleeping = false := h.awake hop
      rw [hs]
      rfl
    · rw [decide_eq_false hop, Bool.and_false]
  rw [State.hostCmd_runs htake hfind hsleep h.mayBegin, h.setWait_tookCmd]
  rfl

end

/- Checks (R403) -------------------------------------------------------------------------------------------------------------------------- -/

/-- The checks see of a state that begins a command what they saw before. -/
theorem State.precheck_congr {s u : State} (h : u.bar0 = s.bar0) (op : Nat) (p : Packet) (len named : Nat) :
    u.precheck op p len named = s.precheck op p len named := by
  unfold State.precheck
  rw [State.bitB_congr h]

theorem guarded_ok {status : Nat} (h : status = 0) (run : State → Cur → State) (s : State) (c : Cur) :
    guarded status run s c = run s c := if_pos h

theorem guarded_fails {status : Nat} (h : status ≠ 0) (run : State → Cur → State) (s : State) (c : Cur) :
    guarded status run s c = s.complete c status 0 0 := if_neg h

/-- A bit that a mask does not name is set exactly if masking changes the number. -/
theorem land_ne_iff (a m : Nat) : a ≠ Nat.land a m ↔ ∃ i, a.testBit i = true ∧ m.testBit i = false := by
  constructor
  · intro h
    by_contra hno
    refine h (Nat.eq_of_testBit_eq fun i => ?_)
    have hi : (Nat.land a m).testBit i = (a.testBit i && m.testBit i) := Nat.testBit_and a m i
    rw [hi]
    cases ha : a.testBit i with
    | false => rfl
    | true =>
      cases hm : m.testBit i with
      | false => exact absurd ⟨i, ha, hm⟩ hno
      | true => rfl
  · rintro ⟨i, ha, hm⟩ h
    have hi : (Nat.land a m).testBit i = (a.testBit i && m.testBit i) := Nat.testBit_and a m i
    rw [← h, ha, hm] at hi
    exact Bool.false_ne_true hi.symm

/-- The order of the checks (R403). -/
theorem State.precheck_spec (s : State) (op : Nat) (p : Packet) (len named : Nat) :
    let odd := 4 ≤ p.flags.toNat ∨ p.rsvd ≠ 0 ∨ ∃ i, p.params.toNat.testBit i = true ∧ named.testBit i = false
    (p.length.toNat ≠ len → s.precheck op p len named = 2) ∧
    (p.length.toNat = len → s.bitB 8 1 = true → permitted op = false → s.precheck op p len named = 0xE) ∧
    (p.length.toNat = len → s.bitB 8 1 = false ∨ permitted op = true → odd → s.precheck op p len named = 3) ∧
    (p.length.toNat = len → s.bitB 8 1 = false ∨ permitted op = true → ¬odd → s.precheck op p len named = 0) := by
  intro odd
  have hlen : p.length.toNat = len → ¬ (p.length.toNat != len) = true := fun h hb => bne_iff_ne.mp hb h
  have hperm : s.bitB 8 1 = false ∨ permitted op = true → ¬ (s.bitB 8 1 && !permitted op) = true := by
    rintro (h | h)
    · rw [h, Bool.false_and]
      exact Bool.false_ne_true
    · rw [h, Bool.not_true, Bool.and_false]
      exact Bool.false_ne_true
  have hodd : (p.flags.toNat / 4 != 0 || p.rsvd != 0 || p.params.toNat != Nat.land p.params.toNat named) = true ↔ odd := by
    rw [Bool.or_eq_true, Bool.or_eq_true, bne_iff_ne, bne_iff_ne, bne_iff_ne, land_ne_iff, or_assoc]
    refine or_congr_left ?_
    omega
  unfold State.precheck
  refine ⟨fun h => if_pos (bne_iff_ne.mpr h), fun h hp hop => ?_, fun h hp ho => ?_, fun h hp ho => ?_⟩
  · rw [if_neg (hlen h), if_pos (by rw [hp, hop]; rfl)]
  · rw [if_neg (hlen h), if_neg (hperm hp), if_pos (hodd.mpr ho)]
  · rw [if_neg (hlen h), if_neg (hperm hp), if_neg fun hc => ho (hodd.mp hc)]

/- Waits (R405, R413) ------------------------------------------------------------------------------------------------------------------------ -/

/-- A fold whose steps change nothing changes nothing. -/
theorem foldl_id {α β : Type} {f : α → β → α} {a : α} (l : List β) (h : ∀ b ∈ l, f a b = a) : l.foldl f a = a := by
  induction l with
  | nil => rfl
  | cons b l ih =>
    rw [List.foldl_cons, h b List.mem_cons_self]
    exact ih fun x hx => h x (List.mem_cons_of_mem _ hx)

theorem State.poll_of_still {s : State} (h : ∀ c ∈ s.inprog, s.pollCur c = s) : s.poll = s := by
  refine foldl_id _ fun c hc => ?_
  split_ifs
  · exact h c hc
  · rfl

/-- A command that is held or in its data phase waits for its row. -/
theorem State.pollCur_row (s : State) {c : Cur} (h : c.wait = .held ∨ c.wait = .data) : s.pollCur c = s := by
  have hawake : s.awakeDo (fun t => t) = s := by
    unfold State.awakeDo
    split_ifs <;> rfl
  rcases h with h | h
  · simp only [State.pollCur, State.pollBus, h]
    exact hawake
  · simp only [State.pollCur, State.pollBus, h]
    exact hawake

/-- In sleep, only a wait for a notice goes on (R27). -/
theorem State.pollCur_asleep {s : State} (hs : s.sleeping = true) {c : Cur} (h : ∀ k, c.wait ≠ .notice k) : s.pollCur c = s := by
  unfold State.pollCur
  split
  · next k hk => exact absurd hk (h k)
  · rw [State.awakeDo, if_pos hs]

/-- A sticky notice answers the only command, which waits for one (R413). -/
theorem State.poll_sticky {s : State} {c : Cur} {k : BitVec 3} {v : W32} (hin : s.inprog = [c]) (hw : c.wait = .notice k)
    (hk : k.getLsbD 0 = true) (hn : s.stickyNote = some v) : s.poll = { s with stickyNote := none }.complete c 0 0 v.toNat := by
  have hany : (s.inprog.any fun x => x.id == c.id) = true := by
    rw [hin]
    exact List.any_eq_true.mpr ⟨c, List.mem_singleton_self c, beq_self_eq_true _⟩
  have htake : s.takeNotice k = some (0, v, { s with stickyNote := none }) := by
    unfold State.takeNotice
    rw [hk, hn]
  have hcur : s.pollCur c = { s with stickyNote := none }.complete c 0 0 v.toNat := by
    simp only [State.pollCur, hw, htake]
  have hfold : s.poll = if s.inprog.any fun x => x.id == c.id then s.pollCur c else s := by
    rw [State.poll]
    conv_lhs => rw [hin]
    rfl
  rw [hfold, if_pos hany, hcur]

end Sys2Proof.Machine
end

section

/-! Host commands: the statement (O53). -/

namespace Sys2Proof.Machine

section
variable {s : State} {op : Nat} {p : Packet}

/-- A row whose queue is not next, or which no takes, changes nothing (R404). -/
theorem State.hostCmd_waits (hb : s.qBusy p.q.val = false) (h : s.takes = false ∨ s.pickQ ≠ some p.q.val) (run : State → Cur → State) :
    s.hostCmd op p run = s :=
  State.hostCmd_absent (by rw [hb, if_neg Bool.false_ne_true, State.take_waits h]) (fun _ hc => State.queue_ne_of_not_busy hb hc) run

/-- A failing fetch takes nothing and stops the queue (R396). -/
theorem State.hostCmd_stops (hr : s.takes = true) (hn : s.pickQ = some p.q.val) (hf : p.fetchErr = true) (run : State → Cur → State) :
    s.hostCmd op p run = s.qError p.q.val 3 := by
  have hb := State.not_busy_of_pickQ hn
  have hin : (s.qError p.q.val 3).inprog = killed p.q.val s.inprog := by
    unfold State.qError State.qStop
    rw [State.qSettle_frame]
    rfl
  refine State.hostCmd_absent (by rw [hb, if_neg Bool.false_ne_true, State.take_stops hr hn hf]) (fun c hc => ?_) run
  rw [hin] at hc
  have hq : c.pkt.q ∈ (killed p.q.val s.inprog).map (·.pkt.q) := List.mem_map_of_mem hc
  rw [killed_queue] at hq
  obtain ⟨x, hx, hxq⟩ := List.mem_map.mp hq
  exact fun hcq => State.queue_ne_of_not_busy hb hx ((congrArg Fin.val hxq).trans hcq)

/-- The statement form of a check that fails: the command completes with its status. -/
theorem guarded_complete (status : Nat) (s : State) (c : Cur) :
    guarded status (fun s c => s.complete c 0 0 0) s c = s.complete c status 0 0 := by
  by_cases h : status = 0
  · rw [guarded_ok h, h]
  · exact guarded_fails h _ s c

theorem begun_precheck (s : State) (op len named : Nat) (p q : Packet) (o : Nat) :
    (s.begun op p).precheck o q len named = s.precheck o q len named := State.precheck_congr rfl o q len named

theorem guarded_begun {f : State → Cur → State} {st : Nat} {u : State} (h : s.Starts op p) (hst : st = 0) (run : State → Cur → State)
    (hrun : run (s.begun op p) (s.curOf op p) = guarded st f (s.begun op p) (s.curOf op p))
    (hu : f (s.begun op p) (s.curOf op p) = u) : s.hostCmd op p run = u.poll := by
  rw [h.hostCmd, hrun, guarded_ok hst, hu]

/-- The identity page of a device without an image has 256 bytes (R411). -/
theorem State.identity_length {s : State} (h : s.image = none) : s.identity.length = 256 := by
  have hflat : ((List.range 4).flatMap fun i => natLe 4 (s.rd (0x10 + 4 * i)).toNat).length = 16 := by
    rw [List.length_flatMap]
    simp only [natLe_length]
    rfl
  unfold State.identity
  rw [h]
  simp only [List.length_append, natLe_length, hflat, Option.getD_none, List.length_replicate]

theorem State.toBuffer_whole {c : Cur} (h : c.pkt.hostErr = none) (l : List Byte) (r0 r1 : Nat) :
    s.toBuffer c l r0 r1 = (s.toHostMem (pdptr c.pkt) l).complete c 0 r0 r1 := by
  rw [State.toBuffer, h]

theorem State.toBuffer_stops {c : Cur} {l : List Byte} {k : Nat} (h : c.pkt.hostErr = some k) (hk : k < l.length) (r0 r1 : Nat) :
    s.toBuffer c l r0 r1 = (s.toHostMem (pdptr c.pkt) (l.take k)).complete c 5 k 0 := by
  rw [State.toBuffer, h]
  exact if_pos hk

/-- The command that an ABORT names, among those before it (R412). -/
theorem State.Starts.find_named (h : s.Starts op p) (q tag : Nat) :
    (s.begun op p).inprog.find? (fun x => x.pkt.q.val == q && x.pkt.tag.toNat == tag && x.id != (s.curOf op p).id) =
      s.inprog.find? fun x => x.pkt.q.val == q && x.pkt.tag.toNat == tag := by
  change (s.inprog ++ [s.curOf op p]).find? _ = _
  have hlast : ([s.curOf op p].find? fun x => x.pkt.q.val == q && x.pkt.tag.toNat == tag && x.id != (s.curOf op p).id) = none := by
    rw [List.find?_cons_of_neg]
    · rfl
    · rw [bne_self_eq_false, Bool.and_false]
      exact Bool.false_ne_true
  have hbefore : ∀ l : List Cur, (∀ x ∈ l, x.id < s.nextId) →
      l.find? (fun x => x.pkt.q.val == q && x.pkt.tag.toNat == tag && x.id != (s.curOf op p).id) =
        l.find? fun x => x.pkt.q.val == q && x.pkt.tag.toNat == tag := by
    intro l hl
    induction l with
    | nil => rfl
    | cons x l ih =>
      have hne : (x.id != (s.curOf op p).id) = true := bne_iff_ne.mpr (Nat.ne_of_lt (hl x List.mem_cons_self))
      rw [List.find?_cons, List.find?_cons, hne, Bool.and_true, ih fun y hy => hl y (List.mem_cons_of_mem _ hy)]
  rw [List.find?_append, hlast, Option.or_none, hbefore _ h.ids]

theorem State.abortCmd_some {c x : Cur} {q tag : Nat}
    (h : s.inprog.find? (fun x => x.pkt.q.val == q && x.pkt.tag.toNat == tag && x.id != c.id) = some x) :
    s.abortCmd c q tag = if x.wait.abortable then (s.complete x 0xA 0 0).complete c 0 1 0 else s.complete c 0 0 0 := by
  rw [State.abortCmd, h]

theorem State.abortCmd_none {c : Cur} {q tag : Nat}
    (h : s.inprog.find? (fun x => x.pkt.q.val == q && x.pkt.tag.toNat == tag && x.id != c.id) = none) :
    s.abortCmd c q tag = s.complete c 0 0 0 := by
  rw [State.abortCmd, h]

theorem firstOf_cons_zero {a : Nat} (h : a = 0) (l : List Nat) : firstOf (a :: l) = firstOf l := if_pos h

theorem firstOf_cons_ne {a : Nat} (h : a ≠ 0) (l : List Nat) : firstOf (a :: l) = a := if_neg h

theorem stIf_false {c : Bool} (h : c = false) (st : Nat) : stIf c st = 0 := if_neg (h ▸ Bool.false_ne_true)

theorem stIf_true {c : Bool} (h : c = true) (st : Nat) : stIf c st = st := if_pos h

/-- Only commands of before wait for a notice. -/
theorem State.begun_notices (s : State) (op : Nat) (p : Packet) :
    ((s.begun op p).inprog.filter fun x => x.wait.isNotice) = s.inprog.filter fun x => x.wait.isNotice := by
  change (s.inprog ++ [s.curOf op p]).filter _ = _
  rw [List.filter_append]
  exact List.append_nil _

end

/-- Settles O53: a command that starts runs in the state in which it has begun; what each row does there is a case split on its
checks. -/
theorem hostCommands : Obligations.HostCommands := by
  unfold Obligations.HostCommands
  refine ⟨fun s w p hs => ?_, fun s op p run => ⟨fun h => h.hostCmd run, fun hb h => State.hostCmd_waits hb h run,
      fun hr hn hf => State.hostCmd_stops hr hn hf run⟩, fun s q h => State.pickQ_spec h,
    fun s => ⟨s.pickQ_none, fun h => State.poll_of_still fun c hc => s.pollCur_row (h c hc),
      fun hs h => State.poll_of_still fun c hc => State.pollCur_asleep hs (h c hc)⟩,
    fun s op p len named => s.precheck_spec op p len named, fun s p h => ?_, fun s p h => ?_, fun s op p => ⟨fun hop h => ?_, fun hop => ?_⟩,
    fun s p h hpre hok => ⟨fun hlen => ?_, fun hlen => ?_⟩, fun s h => State.identity_length h,
    fun s c l r0 r1 => ⟨fun h => State.toBuffer_whole h l r0 r1, fun k h hk => State.toBuffer_stops h hk r0 r1⟩,
    fun s p h hpre => ?_, fun s p h hpre => ?_, fun s c k v hin hw hk hn => State.poll_sticky hin hw hk hn⟩
  · intro rows op
    exact ⟨fun x hx ho => (step_submit hs w p).trans (congrArg (exec · s) (commandOf_row op (packetOf w p) x hx ho)),
      fun hno => (step_submit hs w p).trans (congrArg (exec · s) (commandOf_bad op (packetOf w p) hno))⟩
  · refine congrArg Host.Outcome.next ((h.hostCmd _).trans ?_)
    rw [runNop, guarded_complete, begun_precheck]
  · refine congrArg Host.Outcome.next ((h.hostCmd _).trans ?_)
    rw [runFence, guarded_complete, begun_precheck]
  · refine congrArg Host.Outcome.next ?_
    rw [if_neg fun hc => hop (List.contains_iff_mem.mp hc)]
    exact h.hostCmd _
  · exact congrArg Host.Outcome.next (if_pos (List.contains_iff_mem.mpr hop))
  · have hbuf : bufStatus p 256 = 0 := stIf_false (by rw [hok, decide_eq_false (Nat.not_lt.mpr hlen)]; rfl) 3
    have hst : firstOf [(s.begun 1 p).precheck 1 p 12 (namedBits bufFields), bufStatus p 256] = 0 := by
      rw [begun_precheck, firstOf_cons_zero hpre, firstOf_cons_zero hbuf]
      rfl
    exact congrArg Host.Outcome.next (guarded_begun h hst (runIdentify p) rfl rfl)
  · have hbuf : bufStatus p 256 = 3 := stIf_true (by rw [hok, decide_eq_true hlen]; rfl) 3
    have hst : firstOf [(s.begun 1 p).precheck 1 p 12 (namedBits bufFields), bufStatus p 256] = 3 := by
      rw [begun_precheck, firstOf_cons_zero hpre, firstOf_cons_ne (by rw [hbuf]; decide), hbuf]
    refine congrArg Host.Outcome.next ((h.hostCmd _).trans ?_)
    rw [runIdentify, hst, guarded_fails (by decide)]
  · intro named
    have hexec : ∀ {u}, (s.begun 2 p).abortCmd (s.curOf 2 p) (pfld p 8 0 4) (pfld p 8 16 16) = u → exec (.abort p) s = .next u.poll :=
      fun hu => congrArg Host.Outcome.next (guarded_begun h ((begun_precheck ..).trans hpre) (runAbort p) rfl hu)
    have hfind := h.find_named (pfld p 8 0 4) (pfld p 8 16 16)
    refine ⟨fun x hx ha => hexec ?_, fun x hx ha => hexec ?_, fun hnone => hexec ?_⟩
    · rw [State.abortCmd_some (hfind.trans hx), if_pos ha]
    · rw [State.abortCmd_some (hfind.trans hx), if_neg (ha ▸ Bool.false_ne_true)]
    · exact State.abortCmd_none (hfind.trans hnone)
  · intro n
    have hn : ((s.begun 4 p).inprog.filter fun x => x.wait.isNotice).length = n := by rw [State.begun_notices]
    refine ⟨fun hlt => ?_, fun hge => ?_⟩
    · have hst : firstOf [(s.begun 4 p).precheck 4 p 4 (namedBits [(8, 0, 3)]),
          stIf (decide (4 ≤ ((s.begun 4 p).inprog.filter fun x => x.wait.isNotice).length)) 9] = 0 := by
        rw [begun_precheck, firstOf_cons_zero hpre, firstOf_cons_zero (stIf_false (decide_eq_false (by omega)) 9)]
        rfl
      exact congrArg Host.Outcome.next (guarded_begun h hst (runNoticeWait p) rfl rfl)
    · have hst : firstOf [(s.begun 4 p).precheck 4 p 4 (namedBits [(8, 0, 3)]),
          stIf (decide (4 ≤ ((s.begun 4 p).inprog.filter fun x => x.wait.isNotice).length)) 9] = 9 := by
        have hbusy : stIf (decide (4 ≤ ((s.begun 4 p).inprog.filter fun x => x.wait.isNotice).length)) 9 = 9 :=
          stIf_true (decide_eq_true (by omega)) 9
        rw [begun_precheck, firstOf_cons_zero hpre, firstOf_cons_ne (by rw [hbusy]; decide), hbusy]
      refine congrArg Host.Outcome.next ((h.hostCmd _).trans ?_)
      rw [runNoticeWait, hst, guarded_fails (by decide)]

end Sys2Proof.Machine
end

section

/-! SUPPORT. Images: slots of the NV flash, staging, and what placement puts where (R181, R184, R446, R447). -/

namespace Sys2Proof.Machine

/- Slots of the NV flash (R446, R447) ---------------------------------------------------------------------------------------------- -/

/-- Bytes of the two slots have different keys. -/
theorem flashKey_ne {k m a b : Nat} (ha : a < imgMax) (hb : b < imgMax) (h : m ≠ k ∨ b ≠ a) :
    flashKey m b ≠ flashKey k a := by
  unfold flashKey imgMax at *
  omega

theorem State.setSlot_frame (s : State) (k st : Nat) : s.setSlot k st = { s with
    nv := if k = 0 then { s.nv with stA := st } else { s.nv with stB := st }
    nvOld := (s.setSlot k st).nvOld
    regs := (s.setSlot k st).regs } := rfl

theorem State.unboot_frame (s : State) (k : Nat) : s.unboot k = { s with
    nv := if s.nv.boot = k then { s.nv with boot := 3 } else s.nv
    nvOld := (s.unboot k).nvOld
    regs := (s.unboot k).regs } := by
  unfold State.unboot
  split_ifs <;> rfl

/-- An erased slot is empty, in its state and in its bytes, and boots no more; the other slot stays (R414, R446, R447). -/
theorem State.eraseSlot_spec (s : State) {k o : Nat} (hk : k < 2) (ho : o < imgMax) :
    (s.eraseSlot k).programmed k o = none ∧ (s.eraseSlot k).programmed (1 - k) o = s.programmed (1 - k) o ∧
    (s.eraseSlot k).nv.slot k = 0 ∧ (s.nv.boot = k → (s.eraseSlot k).nv.boot = 3) := by
  obtain ⟨x, hx⟩ : ∃ x, x = ({ s with
    flash := s.flash.filter fun p => !(flashKey k 0 ≤ p.1 && p.1 < flashKey k 0 + imgMax) } : State) := ⟨_, rfl⟩
  have hfr : s.eraseSlot k = (x.unboot k).setSlot k 0 := by rw [hx]; rfl
  have hflash : (s.eraseSlot k).flash = s.flash.filter fun p => !(flashKey k 0 ≤ p.1 && p.1 < flashKey k 0 + imgMax) := by
    rw [hfr, State.setSlot_frame, State.unboot_frame, hx]
  have hget : ∀ j, spGet (fun _ => none) (s.eraseSlot k).flash j =
      if (!(decide (flashKey k 0 ≤ j) && decide (j < flashKey k 0 + imgMax))) = true then spGet (fun _ => none) s.flash j else none := fun j => by
    rw [hflash]
    exact spGet_filter (fun _ => none) (fun j => !(decide (flashKey k 0 ≤ j) && decide (j < flashKey k 0 + imgMax))) s.flash j
  have hnv : (s.eraseSlot k).nv = if k = 0 then { (x.unboot k).nv with stA := 0 } else { (x.unboot k).nv with stB := 0 } := by
    rw [hfr, State.setSlot_frame]
  refine ⟨?_, ?_, ?_, fun hb => ?_⟩
  · rw [State.programmed, hget, if_neg]
    unfold flashKey
    simp only [Bool.not_eq_true', Bool.and_eq_false_iff, decide_eq_false_iff_not]
    omega
  · rw [State.programmed, hget, if_pos]
    · rfl
    · unfold flashKey
      unfold imgMax at ho ⊢
      simp only [Bool.not_eq_true', Bool.and_eq_false_iff, decide_eq_false_iff_not]
      omega
  · rw [hnv, NvSt.slot]
    split_ifs <;> rfl
  · have hboot : (x.unboot k).nv.boot = 3 := by
      have hxb : x.nv.boot = k := by rw [hx]; exact hb
      rw [State.unboot_frame, if_pos hxb]
    rw [hnv]
    split_ifs <;> exact hboot

/- Staging (R414) ------------------------------------------------------------------------------------------------------------------------- -/

/-- Programming touches the flash alone. -/
theorem State.program_frame (l : List Byte) (s : State) (k o n : Nat) :
    (s.program k o l n).1 = { s with flash := (s.program k o l n).1.flash } := by
  induction l generalizing s o n with
  | nil => rfl
  | cons v l ih =>
    unfold State.program
    split_ifs
    · rfl
    · exact ih _ (o + 1) (n + 1)

theorem State.program_stops {s : State} {k o : Nat} (h : s.programmed k o ≠ none) (v : Byte) (l : List Byte) (n : Nat) :
    s.program k o (v :: l) n = (s, n, false) := if_pos (Option.isSome_iff_ne_none.mpr h)

/-- The flash with one more byte programmed. -/
def State.burnt (s : State) (k o : Nat) (v : Byte) : State :=
  { s with flash := spSet (fun _ => none) s.flash (flashKey k o) (some v) }

theorem State.burnt_flash (s : State) (k o : Nat) (v : Byte) :
    (s.burnt k o v).flash = spSet (fun _ => (none : Option Byte)) s.flash (flashKey k o) (some v) := rfl

theorem State.program_goes {s : State} {k o : Nat} (h : s.programmed k o = none) (v : Byte) (l : List Byte) (n : Nat) :
    s.program k o (v :: l) n = (s.burnt k o v).program k (o + 1) l (n + 1) := if_neg (by rw [h]; decide)

/-- Programming stops at the first byte that is programmed already, or at the end (R414). -/
theorem State.program_spec {k : Nat} (hk : k < 2) (l : List Byte) {s : State} (h : spOk (fun _ => (none : Option Byte)) s.flash = true)
    (o n j : Nat) (hl : o + l.length ≤ imgMax) (hj : j ≤ l.length) (hfree : ∀ i < j, s.programmed k (o + i) = none)
    (hstop : j < l.length → s.programmed k (o + j) ≠ none) :
    (s.program k o l n).2 = (n + j, decide (j = l.length)) ∧
    (∀ i < j, (s.program k o l n).1.programmed k (o + i) = some (l.getD i 0)) ∧
    ∀ m b, m < 2 → b < imgMax → m ≠ k ∨ b < o ∨ o + j ≤ b → (s.program k o l n).1.programmed m b = s.programmed m b := by
  induction l generalizing s o n j with
  | nil =>
    obtain rfl := Nat.le_zero.mp hj
    exact ⟨rfl, fun i hi => absurd hi (Nat.not_lt_zero i), fun _ _ _ _ _ => rfl⟩
  | cons v l ih =>
    have hlen : o + (l.length + 1) ≤ imgMax := hl
    cases j with
    | zero =>
      have hstop' : s.programmed k o ≠ none := hstop (Nat.succ_pos _)
      rw [State.program_stops hstop']
      exact ⟨rfl, fun i hi => absurd hi (Nat.not_lt_zero i), fun _ _ _ _ _ => rfl⟩
    | succ j =>
      have hj' : j ≤ l.length := Nat.le_of_succ_le_succ hj
      have hput : ∀ m b, m < 2 → b < imgMax → m ≠ k ∨ b ≠ o → (s.burnt k o v).programmed m b = s.programmed m b :=
        fun m b _ hb hne => by
          rw [State.programmed, State.burnt_flash, spGet_spSet_ne _ _ (flashKey_ne (by omega) hb hne)]
          rfl
      have hnext : ∀ i, i < l.length → (s.burnt k o v).programmed k (o + 1 + i) = s.programmed k (o + (i + 1)) := fun i hi => by
        rw [hput k (o + 1 + i) hk (by omega) (.inr (by omega)), Nat.add_right_comm, Nat.add_assoc]
      have hfree' : s.programmed k o = none := hfree 0 (Nat.succ_pos _)
      rw [State.program_goes hfree']
      obtain ⟨hres, hval, hrest⟩ := ih (s := s.burnt k o v) (by rw [State.burnt_flash]; exact spOk_spSet h _ _) (o + 1) (n + 1) j (by omega) hj'
        (fun i hi => (hnext i (by omega)).trans (hfree (i + 1) (Nat.succ_lt_succ hi)))
        fun hlt => by
          rw [hnext j hlt]
          exact hstop (Nat.succ_lt_succ hlt)
      refine ⟨?_, fun i hi => ?_, fun m b hm hb hout => ?_⟩
      · rw [hres, Nat.add_right_comm, Nat.add_assoc]
        simp only [List.length_cons, Nat.succ_inj]
      · cases i with
        | zero =>
          rw [hrest k (o + 0) hk (by omega) (.inr (.inl (by omega))), Nat.add_zero, State.programmed, State.burnt_flash,
            spGet_spSet_self h]
          rfl
        | succ i =>
          have hv := hval i (Nat.lt_of_succ_lt_succ hi)
          rwa [Nat.add_right_comm, Nat.add_assoc] at hv
      · rw [hrest m b hm hb (by omega)]
        exact hput m b hm hb (by omega)

theorem hostMoves_whole {p : Packet} (h : p.hostErr = none) : hostMoves p = pdlen p ∧ hostFails p = false := by
  have hm : hostMoves p = pdlen p := by rw [hostMoves, h]
  exact ⟨hm, by rw [hostFails, hm]; exact decide_eq_false (lt_irrefl _)⟩

theorem hostFails_of {p : Packet} {n : Nat} (h : p.hostErr = some n) (hn : n < pdlen p) : hostFails p = true := by
  have hm : hostMoves p = min n (pdlen p) := by rw [hostMoves, h]
  rw [hostFails, hm]
  exact decide_eq_true (by omega)

/- Folds over records ------------------------------------------------------------------------------------------------------------------------- -/

/-- In a fold over records of different keys, what the step of one of them establishes and the others keep holds at the end. -/
theorem foldl_of_mem {α : Type} {f : State → α → State} {key : α → Nat} {Q I : State → Prop} {x : α}
    (hinv : ∀ t y, I t → I (f t y)) (hset : ∀ t, I t → Q (f t x)) (l : List α)
    (hkeep : ∀ t, ∀ y ∈ l, key y ≠ key x → Q t → Q (f t y)) (hn : (l.map key).Nodup) (hx : x ∈ l) {s : State} (h : I s) :
    Q (l.foldl f s) := by
  have hrest : ∀ m : List α, (∀ y ∈ m, y ∈ l) → (∀ y ∈ m, key y ≠ key x) → ∀ t, Q t → Q (m.foldl f t) := by
    intro m
    induction m with
    | nil => exact fun _ _ t ht => ht
    | cons y m ih =>
      intro hm hne t ht
      exact ih (fun z hz => hm z (List.mem_cons_of_mem _ hz)) (fun z hz => hne z (List.mem_cons_of_mem _ hz)) _
        (hkeep t y (hm y List.mem_cons_self) (hne y List.mem_cons_self) ht)
  induction l generalizing s with
  | nil => exact absurd hx List.not_mem_nil
  | cons y l ih =>
    obtain ⟨hy, hl⟩ := List.nodup_cons.mp hn
    rcases List.mem_cons.mp hx with rfl | hxl
    · refine hrest l (fun z hz => List.mem_cons_of_mem _ hz) (fun z hz hzk => hy ?_) _ (hset s h)
      rw [← hzk]
      exact List.mem_map_of_mem hz
    · exact ih (fun t z hz => hkeep t z (List.mem_cons_of_mem _ hz)) hl hxl (hinv s y h)
        fun m hm => hrest m fun z hz => List.mem_cons_of_mem _ (hm z hz)

/-- Steps that touch the registers alone, folded, touch the registers alone. -/
theorem foldl_regs {α : Type} {f : State → α → State} (hf : ∀ t x, ∃ r, f t x = { t with regs := r }) (l : List α) (s : State) :
    ∃ r, l.foldl f s = { s with regs := r } := by
  induction l generalizing s with
  | nil => exact ⟨s.regs, rfl⟩
  | cons x l ih =>
    obtain ⟨r, hr⟩ := hf s x
    obtain ⟨r', hr'⟩ := ih (f s x)
    exact ⟨r', by rw [List.foldl_cons, hr', hr]⟩

/- Placement (R181) ------------------------------------------------------------------------------------------------------------------------------ -/

/-- A number of one byte. -/
theorem Img.num_one_lt (m : Img) (o : Nat) : m.num o 1 < 2 ^ 8 := by
  have h : m.num o 1 = (m.get o).toNat + 256 * 0 := rfl
  have hb := (m.get o).isLt
  omega

/-- A register of BAR0 that takes a value other than its reset reads it back, whatever the map holds. -/
theorem State.rdB_wrB_of_ne {s : State} {a : Nat} {v : W32} (h : v ≠ bar0Reset a) : (s.wrB a v).rdB a = v := by
  unfold State.rdB State.wrB
  dsimp only
  rw [spSet, if_neg h]
  exact spGet_spIns_self _ _ _

theorem putField_bit (v : W32) {lo : Nat} (h : lo + 1 ≤ 32) : putField v lo 1 1 ≠ 0 := by
  intro hz
  have hf := field_putField_self v 1 (lo := lo) (w := 1) h
  rw [hz] at hf
  have h0 : field 0 lo 1 = 0 := by
    unfold field
    simp
  exact absurd (h0.symm.trans hf) (by decide)

/-- What the last step of placement touches (R181). -/
theorem State.imageOn_eq (s : State) (m : Img) (a : Nat) : ∃ (u : State) (r : List (Nat × W32)), u = { s with regs := r } ∧
    s.imageOn m a = { u.showSlots a with image := some (m.bytes 0x30 16, m.bytes 0x40 64) }.wfB 8 2 1 1 := by
  refine ⟨_, _, (foldl_regs ?_ (List.range 96) s).choose_spec, rfl⟩
  intro t i
  split
  · exact ⟨_, rfl⟩
  · exact ⟨t.regs, rfl⟩

/-- What the last step of placement leaves (R181). -/
theorem State.imageOn_spec (s : State) (m : Img) (a : Nat) :
    (∃ r b, s.imageOn m a = { s with regs := r, image := some (m.bytes 0x30 16, m.bytes 0x40 64), bar0 := b }) ∧
    (s.imageOn m a).bitB 8 2 = true := by
  obtain ⟨u, r, hu, heq⟩ := s.imageOn_eq m a
  constructor
  · rw [heq, hu]
    exact ⟨_, _, rfl⟩
  · obtain ⟨y, hy⟩ : ∃ y : State, s.imageOn m a = y.wfB 8 2 1 1 := ⟨_, heq⟩
    have hv : putField (y.rdB 8) 2 1 1 ≠ bar0Reset 8 := putField_bit _ (by decide)
    rw [hy, State.bitB, State.rfB, State.wfB, State.rdB_wrB_of_ne hv, field_putField_self _ _ (by decide)]
    rfl

/-- A placed image is the one that runs, on an empty Culm (R151, R163, R181). -/
theorem State.place_spec (s : State) (m : Img) (a : Nat) :
    let t := s.place m a
    t.image = some (m.bytes 0x30 16, m.bytes 0x40 64) ∧ t.bitB 8 2 = true ∧ t.chans = [] ∧ t.flights = [] ∧ t.culmDone = 0 ∧
    t.culmStart ≠ none := by
  intro t
  obtain ⟨x, hx⟩ : ∃ x : State, t = x.startCulm.imageOn m a := ⟨_, rfl⟩
  obtain ⟨⟨r, b, hfr⟩, hbit⟩ := x.startCulm.imageOn_spec m a
  rw [← hx] at hfr hbit
  refine ⟨by rw [hfr], hbit, by rw [hfr]; rfl, by rw [hfr]; rfl, by rw [hfr]; rfl, ?_⟩
  rw [hfr]
  exact Option.some_ne_none _

/-- A fold of writes to a canonical map, one key after another: key `k` reads what its write gave it. -/
theorem spGet_fill {α : Type} [DecidableEq α] (d : Nat → α) (f : Nat → α) (n k : Nat) {l : List (Nat × α)} (h : spOk d l = true) :
    spGet d ((List.range n).foldl (fun m i => spSet d m i (f i)) l) k = if k < n then f k else spGet d l k := by
  have hok : ∀ n, spOk d ((List.range n).foldl (fun m i => spSet d m i (f i)) l) = true := by
    intro n
    induction n with
    | zero => exact h
    | succ n ih =>
      rw [List.range_succ, List.foldl_append]
      exact spOk_spSet ih _ _
  induction n with
  | zero => rfl
  | succ n ih =>
    rw [List.range_succ, List.foldl_append]
    by_cases hk : k = n
    · subst hk
      rw [if_pos (Nat.lt_succ_self _)]
      exact spGet_spSet_self (hok _) _ _
    · refine (spGet_spSet_ne _ _ hk).trans (ih.trans ?_)
      by_cases hlt : k < n
      · rw [if_pos hlt, if_pos (Nat.lt_succ_of_lt hlt)]
      · rw [if_neg hlt, if_neg (by omega)]

/-- The program store as its words are placed. -/
theorem foldl_prog (f : Nat → W128) (l : List Nat) (s : State) :
    l.foldl (fun (t : State) n => { t with prog := spSet (fun _ => faultWord) t.prog n (f n) }) s =
      { s with prog := l.foldl (fun m n => spSet (fun _ => faultWord) m n (f n)) s.prog } := by
  induction l generalizing s with
  | nil => rfl
  | cons n l ih => exact ih _

/-- The program store holds the image's words and else fault words (R63, R65, R517). -/
theorem State.instrAt_placeProgram (s : State) {m : Img} {x : Sect} (hx : m.find 1 = some x) (pc : Pc) :
    (s.placeProgram m).instrAt pc =
      if pc.toNat < x.len / 16 then BitVec.ofNat 128 (m.num (x.off + 16 * pc.toNat) 16) else faultWord := by
  have heq : s.placeProgram m = { s with
      prog := (List.range (x.len / 16)).foldl (fun l n => spSet (fun _ => faultWord) l n (BitVec.ofNat 128 (m.num (x.off + 16 * n) 16))) []
      progOn := true
      bankPois := s.bankPois.filter fun p => decide (p.1 < progWord0) || decide (ctxWord0 ≤ p.1) } := by
    unfold State.placeProgram
    rw [hx]
    dsimp only
    rw [foldl_prog fun n => BitVec.ofNat 128 (m.num (x.off + 16 * n) 16)]
  rw [heq]
  exact spGet_fill (fun _ => faultWord) (fun n => BitVec.ofNat 128 (m.num (x.off + 16 * n) 16)) (x.len / 16) pc.toNat rfl

/-- Every channel record stands in its registers (R170). -/
theorem State.placeChannels_spec {s : State} (h : s.Inv) {m : Img} {r : Rcd} (hr : r ∈ m.rcds 2)
    (hn : ((m.rcds 2).map fun q => m.num q.off 2).Nodup) :
    (s.placeChannels m).rd (aCulm (0x8000 + 8 * m.num r.off 2)) = BitVec.ofNat 32 (m.route r) ∧
    (s.placeChannels m).rd (aCulm (0x8004 + 8 * m.num r.off 2)) = BitVec.ofNat 32 (m.bind r) := by
  refine foldl_of_mem (key := fun q => m.num q.off 2) (I := State.Inv)
    (Q := fun t => t.rd (aCulm (0x8000 + 8 * m.num r.off 2)) = BitVec.ofNat 32 (m.route r) ∧
      t.rd (aCulm (0x8004 + 8 * m.num r.off 2)) = BitVec.ofNat 32 (m.bind r))
    (fun t q ht => (ht.wr _ _).wr _ _) (fun t ht => ⟨?_, ?_⟩) _ (fun t q _ hq ht => ⟨?_, ?_⟩) hn hr h
  · rw [State.rd_wr_ne (by unfold aCulm; omega)]
    exact State.rd_wr_self ht.regs _ _
  · exact State.rd_wr_self (ht.wr _ _).regs _ _
  · rw [State.rd_wr_ne (by unfold aCulm; omega), State.rd_wr_ne (by unfold aCulm; omega)]
    exact ht.1
  · rw [State.rd_wr_ne (by unfold aCulm; omega), State.rd_wr_ne (by unfold aCulm; omega)]
    exact ht.2

/-- Registers of different engines, or of different offsets, are different ones. -/
theorem aEng_ne {e f o o' : Nat} (ho : o < 0x1000) (ho' : o' < 0x1000) (h : e ≠ f ∨ o ≠ o') : aEng e o ≠ aEng f o' := by
  unfold aEng
  omega

/-- A register written in every engine of a list. -/
theorem foldl_engines_self {l : List Nat} (hn : l.Nodup) {e : Nat} (he : e ∈ l) {o : Nat} (ho : o < 0x1000) (v : W32) {s : State}
    (h : s.Inv) : (l.foldl (fun (u : State) e => u.wr (aEng e o) v) s).rd (aEng e o) = v := by
  refine foldl_of_mem (f := fun (u : State) e => u.wr (aEng e o) v) (key := id) (x := e) (I := State.Inv) (Q := fun t => t.rd (aEng e o) = v)
    (fun t q ht => ht.wr _ _) (fun t ht => State.rd_wr_self ht.regs _ _) l (fun t q _ hq ht => ?_) (by rwa [List.map_id]) he h
  exact (State.rd_wr_ne (aEng_ne ho ho (.inl (Ne.symm hq)))).trans ht

/-- Writes of one register in every engine of a list leave the others. -/
theorem foldl_engines_ne (l : List Nat) {b o : Nat} (hb : ∀ e, b ≠ aEng e o) (v : W32) (s : State) :
    (l.foldl (fun (u : State) e => u.wr (aEng e o) v) s).rd b = s.rd b := by
  induction l generalizing s with
  | nil => rfl
  | cons e l ih => exact (ih _).trans (State.rd_wr_ne (hb e))

/-- Every gate record stands in its entry of every engine (R171). -/
theorem State.placeGates_spec {s : State} (h : s.Inv) {m : Img} {r : Rcd} (hr : r ∈ m.rcds 3)
    (hn : ((m.rcds 3).map fun q => m.num q.off 1).Nodup) {e : Nat} (he : e < 108) :
    (s.placeGates m).rd (aEng e (0x100 + 4 * m.num r.off 1)) = BitVec.ofNat 32 (m.num (r.off + 4) 4) := by
  have hlt : ∀ q : Rcd, 0x100 + 4 * m.num q.off 1 < 0x1000 := fun q => by
    have := m.num_one_lt q.off
    omega
  refine foldl_of_mem (key := fun q => m.num q.off 1) (I := State.Inv)
    (Q := fun t => t.rd (aEng e (0x100 + 4 * m.num r.off 1)) = BitVec.ofNat 32 (m.num (r.off + 4) 4))
    (fun t q ht => (State.foldl_keeps (.refl t) fun u _ => State.wr_keeps (.refl u) _ _).inv ht) (fun t ht => ?_) _
    (fun t q _ hq ht => ?_) hn hr h
  · exact foldl_engines_self List.nodup_range (List.mem_range.mpr he) (hlt r) _ ht
  · exact (foldl_engines_ne _ (fun f => aEng_ne (hlt r) (hlt q) (.inr (by omega))) _ t).trans ht

/-- The bytes of a list written to memory stand there. -/
theorem State.byte_setByteList_self (l : List Byte) {s : State} (h : Memory.wf s.mem = true) (a : Nat) {i : Nat} (hi : i < l.length) :
    (s.setByteList a l).byte (a + i) = l.getD i 0 := by
  induction l generalizing s a i with
  | nil => exact absurd hi (Nat.not_lt_zero i)
  | cons v l ih =>
    cases i with
    | zero => exact (State.byte_setByteList_frame (.inl (Nat.lt_succ_self a))).trans (State.byte_setByte_self h _ _)
    | succ i =>
      have := ih (State.setByte_wf h a v) (a + 1) (Nat.lt_of_succ_lt_succ hi)
      rwa [Nat.add_right_comm] at this

theorem State.foldl_setWordPois_mem (l : List Nat) (s : State) : (l.foldl (fun (u : State) k => u.setWordPois k false) s).mem = s.mem := by
  induction l generalizing s with
  | nil => rfl
  | cons k l ih => exact ih _

/-- The last block of bank contents stands in its bank (R176). -/
theorem State.placeData_spec {s : State} (h : s.Inv) {m : Img} {bs : List Blk} {b : Blk} (hb : m.blocks 12 = bs ++ [b])
    (hd : m.blocks 13 = []) {i : Nat} (hi : i < 8 * b.cnt) :
    (s.placeData m).byte (bankKey b.inst (8 * b.start) + i) = m.get (b.off + i) := by
  have hwf : Memory.wf (bs.foldl (fun (t : State) b =>
      (bankWords b.inst (8 * b.start) (8 * b.cnt)).foldl (fun (u : State) k => u.setWordPois k false)
        (t.setByteList (bankKey b.inst (8 * b.start)) (m.bytes b.off (8 * b.cnt)))) s).mem = true := by
    refine List.foldlRecOn (motive := fun t : State => Memory.wf t.mem = true) _ _ h.mem fun t ht c _ => ?_
    rw [State.foldl_setWordPois_mem]
    exact State.setByteList_wf ht _ _
  unfold State.placeData
  rw [hb, hd, List.foldl_append]
  have hlen : (m.bytes b.off (8 * b.cnt)).length = 8 * b.cnt := by
    rw [Img.bytes, List.length_map, List.length_range]
  rw [State.byte, List.foldl_nil, List.foldl_cons, List.foldl_nil, State.foldl_setWordPois_mem]
  refine (State.byte_setByteList_self _ hwf _ (by rw [hlen]; exact hi)).trans ?_
  rw [List.getD_eq_getElem _ _ (by rw [hlen]; exact hi)]
  simp only [Img.bytes, List.getElem_map, List.getElem_range]

/-- Every bank of a record has its owner (R174). -/
theorem State.placeOwners_spec {s : State} (h : s.Inv) {m : Img} {r : Rcd} (hr : r ∈ m.rcds 10)
    (hn : ((m.rcds 10).map fun q => m.num q.off 1).Nodup) : (s.placeOwners m).owner (m.num r.off 1) = m.num (r.off + 1) 1 := by
  refine foldl_of_mem (key := fun q => m.num q.off 1) (I := State.Inv) (Q := fun t => t.owner (m.num r.off 1) = m.num (r.off + 1) 1)
    (fun t q ht => ht.wf _ _ _ _) (fun t ht => ?_) _ (fun t q _ hq ht => ?_) hn hr h
  · exact (State.rf_wf_self ht.regs _ _ (by decide)).trans (Nat.mod_eq_of_lt (m.num_one_lt _))
  · exact (State.rf_wr_ne _ _ _ (by unfold aBnk; omega)).trans ht

/-- The last write of a fold of writes to an empty map is read back. -/
theorem spGet_foldl_last {α β : Type} [DecidableEq α] (d : Nat → α) (k : β → Nat) (v : β → α) (l : List β) (x : β) :
    spGet d ((l ++ [x]).foldl (fun m y => spSet d m (k y) (v y)) []) (k x) = v x := by
  rw [List.foldl_append]
  exact spGet_spSet_self (spOk_foldl_spSet rfl l) _ _

/-- The unit stores hold the image's words, the last for each place, and else their factory contents (R517). -/
theorem State.placeUnits_spec (s : State) (m : Img) (k n : Nat) :
    (m.blocks 6 = [] → (s.placeUnits m).micro k n = 0) ∧ (m.blocks 7 = [] → (s.placeUnits m).scramble k n = scrIdent (65536 * k + n)) ∧
    (∀ i j v l, m.unitWords 6 = l ++ [(i, j, v)] → (s.placeUnits m).micro i j = BitVec.ofNat 128 v) ∧
    (∀ i j v l, m.unitWords 7 = l ++ [(i, j, v)] → (s.placeUnits m).scramble i j = BitVec.ofNat 32 v) := by
  have hnil : ∀ t, m.blocks t = [] → m.unitWords t = [] := fun t ht => by rw [Img.unitWords, ht]; rfl
  have hmicro : ∀ i j, (s.placeUnits m).micro i j = spGet (fun _ => 0) ((m.unitWords 6).foldl (fun l w =>
    spSet (fun _ => 0) l (4096 * w.1 + w.2.1) (BitVec.ofNat 128 w.2.2)) []) (4096 * i + j) := fun _ _ => rfl
  have hscr : ∀ i j, (s.placeUnits m).scramble i j = spGet scrIdent ((m.unitWords 7).foldl (fun l w =>
    spSet scrIdent l (65536 * w.1 + w.2.1) (BitVec.ofNat 32 w.2.2)) []) (65536 * i + j) := fun _ _ => by
    rw [State.scramble]
    rfl
  refine ⟨fun h => ?_, fun h => ?_, fun i j v l h => ?_, fun i j v l h => ?_⟩
  · rw [hmicro, hnil 6 h]
    rfl
  · rw [hscr, hnil 7 h]
    rfl
  · rw [hmicro, h]
    exact spGet_foldl_last (fun _ => 0) (fun w : Nat × Nat × Nat => 4096 * w.1 + w.2.1) (fun w => BitVec.ofNat 128 w.2.2) l (i, j, v)
  · rw [hscr, h]
    exact spGet_foldl_last scrIdent (fun w : Nat × Nat × Nat => 65536 * w.1 + w.2.1) (fun w => BitVec.ofNat 32 w.2.2) l (i, j, v)

/- New tasks (R184) ---------------------------------------------------------------------------------------------------------------------------- -/

theorem newTask_spec (q prio affinity pin mask obj : Nat) : let t := newTask q prio affinity pin mask obj
    t.prio = prio ∧ t.eprio = prio ∧ t.quantum = q ∧ t.mask = BitVec.ofNat 32 mask ∧
    (mask = 0 → t.state = .ready) ∧ (mask ≠ 0 → t.state = .asleep ∧ t.obj = BitVec.ofNat 32 obj) ∧
    t.pinned = decide (pin / 2 ^ 15 % 2 = 1) ∧
    (pin / 2 ^ 15 % 2 = 1 → t.sheaf = pin / 2 ^ 8 % 16 ∧ t.engine = pin / 2 ^ 4 % 8 ∧ t.slot = pin % 8) := by
  intro t
  by_cases hp : nf pin 15 1 = 1
  · have ht : t = { newTask q prio affinity 0 mask obj with
        pinned := true, sheaf := nf pin 8 4, engine := nf pin 4 3, slot := nf pin 0 3 } := if_pos hp
    have h0 : pin / 2 ^ 0 % 2 ^ 3 = pin % 8 := by rw [Nat.pow_zero, Nat.div_one]; rfl
    rw [ht]
    exact ⟨rfl, rfl, rfl, rfl, fun hm => if_pos hm, fun hm => ⟨if_neg hm, if_neg hm⟩, (decide_eq_true hp).symm,
      fun _ => ⟨rfl, rfl, h0⟩⟩
  · have ht : t = newTask q prio affinity 0 mask obj := if_neg hp
    rw [ht]
    exact ⟨rfl, rfl, rfl, rfl, fun hm => if_pos hm, fun hm => ⟨if_neg hm, if_neg hm⟩, (decide_eq_false hp).symm,
      fun h => absurd h hp⟩

theorem newContext_spec (id pc ring xsp : Nat) : let w := newContext id pc ring xsp
    w.length = 64 ∧ w[58]? = some (BitVec.ofNat 64 (pc % 2 ^ 17 + (pc + 1) % 2 ^ 17 * 2 ^ 32)) ∧
    w[59]? = some (BitVec.ofNat 64 (ring * 2 ^ 8)) ∧ w[62]? = some (BitVec.ofNat 64 xsp) ∧
    w[63]? = some (BitVec.ofNat 64 (id * 2 ^ 32)) ∧
    ∀ i < 64, i ≠ 58 → i ≠ 59 → i ≠ 62 → i ≠ 63 → w[i]? = some 0 := by
  intro w
  refine ⟨rfl, rfl, rfl, rfl, rfl, fun i hi h1 h2 h3 h4 => ?_⟩
  have hget : w[i]? = (List.range 64)[i]?.map fun i =>
    if i = 58 then BitVec.ofNat 64 (pc % 2 ^ 17 + (pc + 1) % 2 ^ 17 * 2 ^ 32)
    else if i = 59 then BitVec.ofNat 64 (ring * 2 ^ 8)
    else if i = 62 then BitVec.ofNat 64 xsp
    else if i = 63 then BitVec.ofNat 64 (id * 2 ^ 32)
    else 0 := List.getElem?_map ..
  rw [hget, List.getElem?_range hi, Option.map_some, if_neg h1, if_neg h2, if_neg h3, if_neg h4]

end Sys2Proof.Machine
end

section

/-! SUPPORT. Images, keys, registers and memory: what the commands of groups 0x1 to 0x3 do once they start. -/

namespace Sys2Proof.Machine

/- Checks in a list (R403) -------------------------------------------------------------------------------------------------------- -/

theorem firstOf_one (a : Nat) : firstOf [a] = a := by
  by_cases h : a = 0
  · rw [firstOf_cons_zero h, h]
    rfl
  · exact firstOf_cons_ne h []

theorem firstOf_two (a b : Nat) : firstOf [a, b] = if a = 0 then b else a := by
  by_cases h : a = 0
  · rw [firstOf_cons_zero h, firstOf_one, if_pos h]
  · rw [firstOf_cons_ne h, if_neg h]

/-- No check of the list fails. -/
theorem firstOf_zero {l : List Nat} (h : ∀ a ∈ l, a = 0) : firstOf l = 0 := by
  induction l with
  | nil => rfl
  | cons a l ih =>
    rw [firstOf_cons_zero (h a List.mem_cons_self)]
    exact ih fun b hb => h b (List.mem_cons_of_mem _ hb)

theorem firstOf_pair {a b : Nat} (ha : a = 0) (hb : b = 0) : firstOf [a, b] = 0 := by
  rw [firstOf_two, if_pos ha, hb]

theorem firstOf_triple {a b c : Nat} (ha : a = 0) (hb : b = 0) (hc : c = 0) : firstOf [a, b, c] = 0 := by
  rw [firstOf_cons_zero ha, firstOf_pair hb hc]

/-- Every check of a list that none fails passes. -/
theorem eq_zero_of_firstOf {a : Nat} {l : List Nat} (h : firstOf (a :: l) = 0) : a = 0 ∧ firstOf l = 0 := by
  by_cases ha : a = 0
  · exact ⟨ha, by rwa [firstOf_cons_zero ha] at h⟩
  · rw [firstOf_cons_ne ha] at h
    exact absurd h ha

theorem stIf_eq_zero {c : Bool} {st : Nat} (hst : st ≠ 0) (h : stIf c st = 0) : c = false := by
  by_contra hc
  rw [stIf_true (by rwa [Bool.not_eq_false] at hc)] at h
  exact hst h

/- Commands that start (R404) ------------------------------------------------------------------------------------------------------ -/

section
variable {s : State} {op : Nat} {p : Packet}

/-- A command whose check fails completes with its status (R403). -/
theorem State.Starts.refused (h : s.Starts op p) {f : State → Cur → State} {st : Nat} (hst : st ≠ 0) (run : State → Cur → State)
    (hrun : run (s.begun op p) (s.curOf op p) = guarded st f (s.begun op p) (s.curOf op p)) :
    s.hostCmd op p run = ((s.begun op p).complete (s.curOf op p) st 0 0).poll := by
  rw [h.hostCmd, hrun, guarded_fails hst]

theorem State.begun_slotStatus (s : State) (op : Nat) (p : Packet) (o : Nat) : (s.begun op p).slotStatus o p = s.slotStatus o p := by
  unfold State.slotStatus
  rw [begun_precheck]

theorem State.begun_stageStatus (s : State) (op : Nat) (p : Packet) (o : Nat) : (s.begun op p).stageStatus o p = s.stageStatus o p := by
  unfold State.stageStatus
  rw [begun_precheck]

theorem State.begun_memStatus (s : State) (op : Nat) (p : Packet) (o : Nat) (w : Bool) :
    (s.begun op p).memStatus o p w = s.memStatus o p w := by
  unfold State.memStatus
  rw [begun_precheck]

theorem State.begun_slotInUse (s : State) (op : Nat) (p : Packet) (k : Nat) : (s.begun op p).slotInUse k = s.slotInUse k := rfl

theorem State.begun_activeStatus (s : State) (op : Nat) (p : Packet) : (s.begun op p).activeStatus = s.activeStatus := rfl

theorem State.activeStatus_eq {s : State} (h : s.activeStatus ≠ 0) : s.activeStatus = 8 := by
  unfold State.activeStatus stIf at h ⊢
  split_ifs at h ⊢
  · rfl
  · exact absurd rfl h

/-- A command that stands in its data phase, alone and awake, goes on when its row comes again (R402). -/
theorem State.hostCmd_again {c : Cur} (hin : s.inprog = [c]) (hp : c.pkt = p) (hop : c.op = op) (hw : c.wait = .data)
    (hs : s.sleeping = false) (run : State → Cur → State) : s.hostCmd op p run = (run s c).poll := by
  have hbusy : s.qBusy p.q.val = true := by
    rw [State.qBusy, hin, ← hp]
    exact List.any_eq_true.mpr ⟨c, List.mem_singleton_self c, beq_self_eq_true _⟩
  have hrow : isRow op p c = true := by
    unfold isRow
    simp only [Bool.and_eq_true, Bool.or_eq_true, beq_iff_eq]
    exact ⟨⟨hp, hop⟩, .inr hw⟩
  have hfind : s.inprog.find? (fun c => c.pkt == p && c.op == op && (c.wait == .held || c.wait == .data)) = some c := by
    rw [hin]
    exact List.find?_cons_of_pos hrow
  have hcur : { c with wait := .data } = c := by rw [← hw]
  have hset : s.setWait c .data = s := by
    have hmap : (s.inprog.map fun x => if x.id = c.id then { x with wait := .data } else x) = s.inprog := by
      rw [hin, List.map_singleton, if_pos rfl, hcur]
    rw [State.setWait, hmap]
  unfold State.hostCmd
  dsimp only
  rw [if_pos hbusy, hfind]
  dsimp only
  rw [hs, Bool.false_and, if_neg Bool.false_ne_true, beq_iff_eq.mpr hw, Bool.true_or, if_pos rfl, hset, hcur]

end

/- Transfers of MEM_READ and MEM_WRITE (R355, R418) ------------------------------------------------------------------------------------- -/

section
variable {s : State} {c : Cur} {x : Xfer}

theorem State.xferOf_none {k : XferKey} (h : ∀ x ∈ s.xfers, x.key ≠ k) : s.xferOf k = none :=
  List.find?_eq_none.mpr fun x hx hk => h x hx (eq_of_beq hk)

theorem State.memReadCmd_begins (h : s.xferOf (.host c.id) = none) (hn : 0 < hostMoves c.pkt) :
    s.memReadCmd c = s.xferStart (.host c.id) 13 0 256 false (daddr c.pkt) (hostMoves c.pkt) none := by
  unfold State.memReadCmd State.hostXfer
  dsimp only
  rw [State.xfer_begins h 13 0 (by decide) _ hn]

theorem State.memReadCmd_waits (h : s.xferOf (.host c.id) = some x) (ho : x.over = false) : s.memReadCmd c = s := by
  unfold State.memReadCmd State.hostXfer
  dsimp only
  rw [State.xfer_waits h ho]

theorem State.memReadCmd_done (h : s.xferOf (.host c.id) = some x) (ho : x.over = true) (he : x.err = none) : s.memReadCmd c =
    ((s.dropXfer (.host c.id)).toHostMem (pdptr c.pkt) x.got).complete c (stIf (hostFails c.pkt) 5) (hostMoves c.pkt) 0 := by
  unfold State.memReadCmd State.hostXfer
  dsimp only
  rw [State.xfer_ends h ho]
  dsimp only
  rw [he]

theorem State.memReadCmd_failed (h : s.xferOf (.host c.id) = some x) (ho : x.over = true) {e : Nat} (he : x.err = some e) :
    s.memReadCmd c =
      ((s.dropXfer (.host c.id)).toHostMem (pdptr c.pkt) (x.got.take x.last)).complete c (errStatus e) x.last 0 := by
  unfold State.memReadCmd State.hostXfer
  dsimp only
  rw [State.xfer_ends h ho]
  dsimp only
  rw [he]

theorem State.memWriteCmd_begins (h : s.xferOf (.host c.id) = none) (hn : 0 < hostMoves c.pkt) :
    s.memWriteCmd c = s.xferStart (.host c.id) 13 0 256 false (daddr c.pkt) (hostMoves c.pkt)
      (some (hostBytes c.pkt.buf (hostMoves c.pkt))) := by
  unfold State.memWriteCmd State.hostXfer
  dsimp only
  rw [State.xfer_begins h 13 0 (by decide) _ hn]

theorem State.memWriteCmd_waits (h : s.xferOf (.host c.id) = some x) (ho : x.over = false) : s.memWriteCmd c = s := by
  unfold State.memWriteCmd State.hostXfer
  dsimp only
  rw [State.xfer_waits h ho]

theorem State.memWriteCmd_done (h : s.xferOf (.host c.id) = some x) (ho : x.over = true) (he : x.err = none) : s.memWriteCmd c =
    (s.dropXfer (.host c.id)).complete c (stIf (hostFails c.pkt) 5) (hostMoves c.pkt) 0 := by
  unfold State.memWriteCmd State.hostXfer
  dsimp only
  rw [State.xfer_ends h ho]
  dsimp only
  rw [he]

theorem State.memWriteCmd_failed (h : s.xferOf (.host c.id) = some x) (ho : x.over = true) {e : Nat} (he : x.err = some e) :
    s.memWriteCmd c = (s.dropXfer (.host c.id)).complete c (errStatus e) x.last 0 := by
  unfold State.memWriteCmd State.hostXfer
  dsimp only
  rw [State.xfer_ends h ho]
  dsimp only
  rw [he]

theorem stIf_hostFails (p : Packet) : stIf (hostFails p) 5 = if hostMoves p < pdlen p then 5 else 0 := by
  unfold stIf hostFails
  simp only [decide_eq_true_eq]

/-- A transaction of a transfer stays in its range and in one block (R355). -/
theorem State.xferTxn_spec (s : State) {x : Xfer} (hb : x.blk = 256) (hs : x.sent < x.len) : let t := s.xferTxn x
    t.addr = x.addr + x.sent ∧ 0 < t.size ∧ x.sent + t.size ≤ x.len ∧ t.addr / 256 = (t.addr + t.size - 1) / 256 := by
  intro t
  have ha : t.addr = x.addr + x.sent := rfl
  have hn : t.size = min (256 - (x.addr + x.sent) % 256) (x.len - x.sent) := by
    rw [← hb]
    rfl
  refine ⟨ha, ?_, ?_, ?_⟩
  · omega
  · omega
  · rw [ha]
    omega

end

/-- What an attempt to stage leaves besides the answer (R414, R446, R447). -/
theorem State.stage_spec (s : State) (c : Cur) (k o : Nat) (l : List Byte) :
    let q := (s.unboot k).program k o l 0
    let s1 := if 0 < q.2.1 then q.1.setSlot k 1 else q.1
    (q.2.2 = false → s.stage c k o l = s1.complete c 0x11 0 0) ∧
    (q.2.2 = true → c.pkt.hostErr = none → s.stage c k o l = s1.complete c 0 q.2.1 0) ∧
    (∀ n, q.2.2 = true → c.pkt.hostErr = some n → n < pdlen c.pkt → s.stage c k o l = s1.complete c 5 q.2.1 0) := by
  intro q s1
  have heq : s.stage c k o l = if !q.2.2 then s1.complete c 0x11 0 0
    else if hostFails c.pkt then s1.complete c 5 q.2.1 0 else s1.complete c 0 q.2.1 0 := rfl
  refine ⟨fun hq => ?_, fun hq he => ?_, fun n hq he hn => ?_⟩
  · rw [heq, hq]
    rfl
  · rw [heq, hq, (hostMoves_whole he).2]
    rfl
  · rw [heq, hq, hostFails_of he hn]
    rfl

/-- Activation of an image (R416, R444). -/
theorem State.activate_spec (s : State) (m m2 : Img) (a : Nat) :
    (∀ f, m.check Config.fwVersion.toNat s.nv = some f → s.activate m (some m2) a = (s.checkResult (some f), false)) ∧
    (m.check Config.fwVersion.toNat s.nv = none → m2.digest = m.digest →
      s.activate m (some m2) a = (((s.checkResult none).clearImage).place m2 a, true)) ∧
    (m.check Config.fwVersion.toNat s.nv = none → m2.digest ≠ m.digest → (s.activate m (some m2) a).2 = false) := by
  unfold State.activate
  refine ⟨fun f hf => by rw [hf], fun hc hd => ?_, fun hc hd => ?_⟩
  · rw [hc]
    exact if_pos hd
  · rw [hc]
    dsimp only
    rw [if_neg hd]

theorem State.results_length (s : State) : s.results.length = 2048 := by
  unfold State.results
  rw [List.length_flatMap]
  simp only [List.length_append, natLe_length, List.map_const', List.sum_replicate, List.length_range]
  rfl

theorem addrStatus_ok {a : Nat} (h : a < 2 ^ 31) (h4 : a % 4 = 0) : addrStatus a = 0 := by
  rw [addrStatus, if_neg (Nat.not_le.mpr h), if_neg (not_not.mpr h4)]

/-- A wait for a handover (R332, R418). -/
theorem State.pollBus_owner {s : State} {c : Cur} {b prev : Nat} (hw : c.wait = .owner b prev) :
    s.pollBus c = if s.bit (aBnk b 8) 4 then s else s.complete c 0 prev 0 := by
  rw [State.pollBus, hw]

theorem State.pollCur_owner {s : State} {c : Cur} {b prev : Nat} (hw : c.wait = .owner b prev) (hs : s.sleeping = false) :
    s.pollCur c = s.pollBus c := by
  rw [State.pollCur, hw]
  exact State.awakeDo_awake hs _

/-- The only command in progress goes on. -/
theorem State.poll_single {s : State} {c : Cur} (h : s.inprog = [c]) : s.poll = s.pollCur c := by
  have hany : (s.inprog.any fun x => x.id == c.id) = true := by
    rw [h]
    exact List.any_eq_true.mpr ⟨c, List.mem_singleton_self c, beq_self_eq_true _⟩
  have hfold : s.poll = if s.inprog.any fun x => x.id == c.id then s.pollCur c else s := by
    rw [State.poll]
    conv_lhs => rw [h]
    rfl
  rw [hfold, if_pos hany]

end Sys2Proof.Machine
end

section

/-! Images, keys, registers and memory: the statement (O54). -/

namespace Sys2Proof.Machine

section
variable {s : State} {p : Packet}

/-- IMAGE_COMMIT of a slot that it may commit (R414). -/
theorem imageCommit_spec (h : s.Starts 0x12 p) (hst : s.slotStatus 0x12 p = 0) (hu : s.slotInUse (pfld p 8 0 32) = 0) :
    let k := pfld p 8 0 32
    let b := s.begun 0x12 p
    (∀ f, (s.slotImg k).check Config.fwVersion.toNat s.nv = some f → exec (.imageCommit p) s =
      .next (((b.checkResult (some f)).setSlot k 3).imageRefused (s.curOf 0x12 p)).poll) ∧
    ((s.slotImg k).check Config.fwVersion.toNat s.nv = none → exec (.imageCommit p) s =
      .next (((b.setSlot k 2).setBoot k).complete (s.curOf 0x12 p) 0 0 0).poll) := by
  intro k b
  have hok : firstOf [b.slotStatus 0x12 p, b.slotInUse k] = 0 := firstOf_pair ((s.begun_slotStatus ..).trans hst) hu
  have hexec : ∀ {u}, b.commitSlot (s.curOf 0x12 p) k = u → exec (.imageCommit p) s = .next u.poll := fun hu =>
    congrArg Host.Outcome.next (guarded_begun h hok (runImageCommit p) rfl hu)
  have himg : b.slotImg k = s.slotImg k := rfl
  have hnv : b.nv = s.nv := rfl
  refine ⟨fun f hf => hexec ?_, fun hn => hexec ?_⟩
  · rw [State.commitSlot, himg, hnv, hf]
  · rw [State.commitSlot, himg, hnv, hn]

/-- IMAGE_ACTIVATE (R414, R444). -/
theorem imageActivate_spec (h : s.Starts 0x13 p) (hst : s.slotStatus 0x13 p = 0) :
    (s.activeStatus ≠ 0 → exec (.imageActivate p) s = .next ((s.begun 0x13 p).complete (s.curOf 0x13 p) 8 0 0).poll) ∧
    (∀ t, s.activeStatus = 0 → (s.begun 0x13 p).activateSlot (pfld p 8 0 32) = (t, true) →
      exec (.imageActivate p) s = .next (t.complete (s.curOf 0x13 p) 0 0 0).poll) ∧
    (∀ t, s.activeStatus = 0 → (s.begun 0x13 p).activateSlot (pfld p 8 0 32) = (t, false) →
      exec (.imageActivate p) s = .next (t.imageRefused (s.curOf 0x13 p)).poll) := by
  have hsl := (s.begun_slotStatus 0x13 p 0x13).trans hst
  have hexec : s.activeStatus = 0 → ∀ {u}, (s.begun 0x13 p).activateCmd (s.curOf 0x13 p) (pfld p 8 0 32) = u →
      exec (.imageActivate p) s = .next u.poll := fun ha u hu =>
    congrArg Host.Outcome.next (guarded_begun h (firstOf_pair hsl ((s.begun_activeStatus 0x13 p).trans ha)) (runImageActivate p) rfl hu)
  refine ⟨fun ha => ?_, fun t ha ht => hexec ha ?_, fun t ha ht => hexec ha ?_⟩
  · have hbad : firstOf [(s.begun 0x13 p).slotStatus 0x13 p, (s.begun 0x13 p).activeStatus] = 8 := by
      rw [firstOf_two, if_pos hsl, s.begun_activeStatus, State.activeStatus_eq ha]
    refine congrArg Host.Outcome.next ((h.hostCmd _).trans ?_)
    rw [runImageActivate, hbad, guarded_fails (by decide)]
  · rw [State.activateCmd, ht]
  · rw [State.activateCmd, ht]

/-- IMAGE_ACTIVATE_HOST of an image that becomes active (R416). -/
theorem imageActivateHost_spec (t : State) (h : s.Starts 0x18 p) (hpre : s.precheck 0x18 p 12 (namedBits bufFields) = 0)
    (hok : dataOk p imgMax = true) (ha : s.activeStatus = 0) (he : p.hostErr = none)
    (ht : (s.begun 0x18 p).activate (firstReading p) (secondReading p) 2 = (t, true)) :
    exec (.imageActivateHost p) s = .next (t.complete (s.curOf 0x18 p) 0 0 0).poll := by
  have hst : firstOf [(s.begun 0x18 p).precheck 0x18 p 12 (namedBits bufFields), stIf (!dataOk p imgMax) 3,
      (s.begun 0x18 p).activeStatus] = 0 :=
    firstOf_triple ((begun_precheck ..).trans hpre) (stIf_false (by rw [hok]; rfl) 3) ha
  refine congrArg Host.Outcome.next (guarded_begun h hst (runImageActivateHost p) rfl ?_)
  have hpkt : (s.curOf 0x18 p).pkt = p := rfl
  unfold State.activateHost
  rw [hpkt, (hostMoves_whole he).2, if_neg Bool.false_ne_true, ht]

/-- KEY_PROVISION (R414, R415). -/
theorem keyProvision_spec (s : State) (p : Packet) :
    let k := pfld p 0x14 0 32
    let x := beNat ((hostBytes p.buf 96).take 48)
    let y := beNat ((hostBytes p.buf 96).drop 48)
    let b := s.begun 0x15 p
    let st := firstOf [s.precheck 0x15 p 16 (namedBits (bufFields ++ [(0x14, 0, 32)])), stIf (!dataOk p dlenMax || pdlen p != 96) 3,
      stIf (decide (4 ≤ k)) 3]
    s.Starts 0x15 p → st = 0 → p.hostErr = none →
    (s.nv.keyTaken k = true → exec (.keyProvision p) s = .next (b.complete (s.curOf 0x15 p) 0x10 0 0).poll) ∧
    (s.nv.keyTaken k = false → onCurve x y = false →
      exec (.keyProvision p) s = .next (b.complete (s.curOf 0x15 p) 0x10 0 0).poll) ∧
    (s.nv.keyTaken k = false → onCurve x y = true → exec (.keyProvision p) s =
      .next ((b.setNv { s.nv with keys := s.nv.keys.setIfInBounds k (some (x, y)) }).complete (s.curOf 0x15 p) 0 0 0).poll) := by
  intro k x y b st h hst he
  obtain ⟨hpre, hst⟩ := eq_zero_of_firstOf hst
  obtain ⟨hbuf, hst⟩ := eq_zero_of_firstOf hst
  have hslot := (eq_zero_of_firstOf hst).1
  have hlen : pdlen p = 96 := by
    have hor := stIf_eq_zero (by decide) hbuf
    rw [Bool.or_eq_false_iff] at hor
    exact not_not.mp fun hne => Bool.false_ne_true (hor.2.symm.trans (bne_iff_ne.mpr hne))
  obtain ⟨hmoves, hfails⟩ := hostMoves_whole he
  have hpkt : (s.curOf 0x15 p).pkt = p := rfl
  have hprov : b.provision (s.curOf 0x15 p) k (hostBytes p.buf (hostMoves p)) = if onCurve x y then
      (b.setNv { s.nv with keys := s.nv.keys.setIfInBounds k (some (x, y)) }).complete (s.curOf 0x15 p) 0 0 0
      else b.complete (s.curOf 0x15 p) 0x10 0 0 := by
    rw [hmoves, hlen]
    unfold State.provision
    rw [hpkt, hfails, if_neg Bool.false_ne_true]
    rfl
  have hfree : s.nv.keyTaken k = false → firstOf [b.precheck 0x15 p 16 (namedBits (bufFields ++ [(0x14, 0, 32)])),
      stIf (!dataOk p dlenMax || pdlen p != 96) 3, stIf (decide (4 ≤ k)) 3, stIf (b.nv.keyTaken k) 0x10] = 0 := fun hk => by
    rw [firstOf_cons_zero ((begun_precheck ..).trans hpre)]
    exact firstOf_triple hbuf hslot (stIf_false hk _)
  have hexec : s.nv.keyTaken k = false → ∀ {u}, b.provision (s.curOf 0x15 p) k (hostBytes p.buf (hostMoves p)) = u →
      exec (.keyProvision p) s = .next u.poll := fun hk u hu =>
    congrArg Host.Outcome.next (guarded_begun h (hfree hk) (runKeyProvision p) rfl hu)
  refine ⟨fun hk => ?_, fun hk hc => hexec hk ?_, fun hk hc => hexec hk ?_⟩
  · have hbad : firstOf [b.precheck 0x15 p 16 (namedBits (bufFields ++ [(0x14, 0, 32)])),
        stIf (!dataOk p dlenMax || pdlen p != 96) 3, stIf (decide (4 ≤ k)) 3, stIf (b.nv.keyTaken k) 0x10] = 0x10 := by
      have htaken : b.nv.keyTaken k = true := hk
      rw [firstOf_cons_zero ((begun_precheck ..).trans hpre), firstOf_cons_zero hbuf, firstOf_cons_zero hslot, firstOf_one,
        stIf_true htaken]
    refine congrArg Host.Outcome.next ((h.hostCmd _).trans ?_)
    rw [runKeyProvision, hbad, guarded_fails (by decide)]
  · rw [hprov, if_neg (hc ▸ Bool.false_ne_true)]
  · rw [hprov, if_pos hc]

/-- SIG_POLICY (R414, R415). -/
theorem sigPolicy_spec (s : State) (p : Packet) :
    let req := pfld p 8 0 1 == 1
    let lock := pfld p 8 1 1 == 1
    s.Starts 0x17 p → s.precheck 0x17 p 4 (namedBits [(8, 0, 2)]) = 0 →
    (s.nv.lock = true → req ≠ s.nv.require → exec (.sigPolicy p) s =
      .next ((s.begun 0x17 p).complete (s.curOf 0x17 p) 0xD 0 0).poll) ∧
    (s.nv.lock = false ∨ req = s.nv.require → exec (.sigPolicy p) s =
      .next (((s.begun 0x17 p).setNv { s.nv with require := req, lock := s.nv.lock || lock }).complete
        (s.curOf 0x17 p) 0 0 0).poll) := by
  intro req lock h hpre
  have hexec : ∀ {u}, (s.begun 0x17 p).policy (s.curOf 0x17 p) req lock = u → exec (.sigPolicy p) s = .next u.poll := fun hu =>
    congrArg Host.Outcome.next (guarded_begun h ((begun_precheck ..).trans hpre) (runSigPolicy p) rfl hu)
  refine ⟨fun hl hr => hexec ?_, fun hor => hexec ?_⟩
  · exact if_pos (Bool.and_eq_true_iff.mpr ⟨hl, bne_iff_ne.mpr hr⟩)
  · refine if_neg fun hc => ?_
    obtain ⟨hl, hr⟩ := Bool.and_eq_true_iff.mp hc
    exact hor.elim (fun hn => Bool.false_ne_true (hn.symm.trans hl)) fun hn => bne_iff_ne.mp hr hn

/-- REG_READ (R417). -/
theorem regRead_spec (s : State) (p : Packet) :
    let a := pfld p 8 0 32
    let b := s.begun 0x20 p
    s.Starts 0x20 p → s.precheck 0x20 p 4 (namedBits [(8, 0, 32)]) = 0 →
    (a < 2 ^ 31 → a % 4 = 0 → exec (.regRead p) s =
      .next ((b.bridgeRead .mgmt a).1.complete (s.curOf 0x20 p) 0 (b.bridgeRead .mgmt a).2.toNat 0).poll) ∧
    (a < 2 ^ 31 → a % 4 ≠ 0 → exec (.regRead p) s = .next (b.complete (s.curOf 0x20 p) 4 0 0).poll) ∧
    (2 ^ 31 ≤ a → exec (.regRead p) s = .next (b.complete (s.curOf 0x20 p) 3 0 0).poll) := by
  intro a b h hpre
  have hpre' : b.precheck 0x20 p 4 (namedBits [(8, 0, 32)]) = 0 := (begun_precheck ..).trans hpre
  have hbad : ∀ st, addrStatus a = st → st ≠ 0 → exec (.regRead p) s = .next (b.complete (s.curOf 0x20 p) st 0 0).poll := by
    intro st ha hst
    have hf : firstOf [b.precheck 0x20 p 4 (namedBits [(8, 0, 32)]), addrStatus a] = st := by
      rw [firstOf_two, if_pos hpre', ha]
    refine congrArg Host.Outcome.next ((h.hostCmd _).trans ?_)
    rw [runRegRead, hf, guarded_fails hst]
  refine ⟨fun ha h4 => ?_, fun ha h4 => hbad 4 ?_ (by decide), fun ha => hbad 3 (if_pos ha) (by decide)⟩
  · exact congrArg Host.Outcome.next (guarded_begun h (firstOf_pair hpre' (addrStatus_ok ha h4)) (runRegRead p) rfl rfl)
  · rw [addrStatus, if_neg (Nat.not_le.mpr ha), if_pos h4]

/-- MEM_READ and MEM_WRITE that their row presents again (R402, R418). -/
theorem memCommands_again (s : State) (p : Packet) (c : Cur) (x : Xfer) (hin : s.inprog = [c]) (hp : c.pkt = p) (hw : c.wait = .data)
    (hs : s.sleeping = false) (hx : s.xferOf (.host c.id) = some x) :
    let d := s.dropXfer (.host c.id)
    (c.op = 0x30 → s.memStatus 0x30 p false = 0 →
      (x.over = false → exec (.memRead p) s = .next s.poll) ∧
      (x.over = true → x.err = none → exec (.memRead p) s =
        .next ((d.toHostMem (pdptr p) x.got).complete c (if hostMoves p < pdlen p then 5 else 0) (hostMoves p) 0).poll) ∧
      (∀ e, x.over = true → x.err = some e → exec (.memRead p) s =
        .next ((d.toHostMem (pdptr p) (x.got.take x.last)).complete c (if e = 0 then 6 else 7) x.last 0).poll)) ∧
    (c.op = 0x31 → s.memStatus 0x31 p true = 0 →
      (x.over = false → exec (.memWrite p) s = .next s.poll) ∧
      (x.over = true → x.err = none → exec (.memWrite p) s =
        .next (d.complete c (if hostMoves p < pdlen p then 5 else 0) (hostMoves p) 0).poll) ∧
      (∀ e, x.over = true → x.err = some e → exec (.memWrite p) s =
        .next (d.complete c (if e = 0 then 6 else 7) x.last 0).poll)) := by
  intro d
  refine ⟨fun hop hst => ?_, fun hop hst => ?_⟩
  · have hexec : ∀ {u}, s.memReadCmd c = u → exec (.memRead p) s = .next u.poll := fun hu =>
      congrArg Host.Outcome.next ((State.hostCmd_again hin hp hop hw hs _).trans
        (congrArg State.poll ((guarded_ok hst State.memReadCmd s c).trans hu)))
    refine ⟨fun ho => hexec (State.memReadCmd_waits hx ho), fun ho he => hexec ?_, fun e ho he => hexec ?_⟩
    · rw [State.memReadCmd_done hx ho he, hp, stIf_hostFails]
    · rw [State.memReadCmd_failed hx ho he, hp]
      rfl
  · have hexec : ∀ {u}, s.memWriteCmd c = u → exec (.memWrite p) s = .next u.poll := fun hu =>
      congrArg Host.Outcome.next ((State.hostCmd_again hin hp hop hw hs _).trans
        (congrArg State.poll ((guarded_ok hst State.memWriteCmd s c).trans hu)))
    refine ⟨fun ho => hexec (State.memWriteCmd_waits hx ho), fun ho he => hexec ?_, fun e ho he => hexec ?_⟩
    · rw [State.memWriteCmd_done hx ho he, hp, stIf_hostFails]
    · rw [State.memWriteCmd_failed hx ho he]
      rfl

/-- BANK_OWNER (R332, R418). -/
theorem bankOwner_spec (s : State) (p : Packet) :
    let b := pfld p 8 0 8
    s.Starts 0x32 p → s.precheck 0x32 p 4 (namedBits [(8, 0, 16)]) = 0 → b < 48 → ownerCode (pfld p 8 8 8) = true →
    (s.bit (aBnk b 8) 4 = false → exec (.bankOwner p) s = .next (((s.begun 0x32 p).bridgeWrite .mgmt (aBnk b 0)
      (BitVec.ofNat 32 (pfld p 8 8 8))).setWait (s.curOf 0x32 p) (.owner b (s.owner b))).poll) ∧
    (s.bit (aBnk b 8) 4 = true → exec (.bankOwner p) s = .next ((s.begun 0x32 p).complete (s.curOf 0x32 p) 9 0 0).poll) := by
  intro b h hpre hb hcode
  have hpre' : (s.begun 0x32 p).precheck 0x32 p 4 (namedBits [(8, 0, 16)]) = 0 := (begun_precheck ..).trans hpre
  have hcodes : stIf (decide (48 ≤ b) || !ownerCode (pfld p 8 8 8)) 3 = 0 :=
    stIf_false (by rw [decide_eq_false (Nat.not_le.mpr hb), hcode]; rfl) 3
  refine ⟨fun hbusy => ?_, fun hbusy => ?_⟩
  · exact congrArg Host.Outcome.next (guarded_begun
      (f := fun s c => (s.bridgeWrite .mgmt (aBnk b 0) (BitVec.ofNat 32 (pfld p 8 8 8))).setWait c (.owner b (s.owner b)))
      h (firstOf_triple hpre' hcodes (stIf_false hbusy 9)) (runBankOwner p) rfl rfl)
  · have hf : firstOf [(s.begun 0x32 p).precheck 0x32 p 4 (namedBits [(8, 0, 16)]),
        stIf (decide (48 ≤ b) || !ownerCode (pfld p 8 8 8)) 3, stIf ((s.begun 0x32 p).bit (aBnk b 8) 4) 9] = 9 := by
      have hbit : (s.begun 0x32 p).bit (aBnk b 8) 4 = true := hbusy
      rw [firstOf_cons_zero hpre', firstOf_cons_zero hcodes, firstOf_one, stIf_true hbit]
    refine congrArg Host.Outcome.next ((h.hostCmd _).trans ?_)
    rw [runBankOwner, hf, guarded_fails (by decide)]

end

/-- Settles O54: each command that starts is a case split on its checks; what staging and placement leave follows from the maps they
write. -/
theorem imageAndMemoryCommands : Obligations.ImageAndMemoryCommands := by
  unfold Obligations.ImageAndMemoryCommands
  refine ⟨fun s p => ?_, fun s k o hk ho _ => s.eraseSlot_spec hk ho, fun s p h hst hu => ?_, fun s k o j l hk hl h => ?_,
    fun s c k o l => s.stage_spec c k o l, fun s m a => s.place_spec m a, fun s m x hx => s.instrAt_placeProgram hx,
    fun s m r h hr hn => State.placeChannels_spec h hr hn, fun s m r e h hr hn he => State.placeGates_spec h hr hn he,
    fun s m bs b h hb hd i hi => State.placeData_spec h hb hd hi, fun s m r h hr hn => State.placeOwners_spec h hr hn,
    fun s m k n => s.placeUnits_spec m k n, newTask_spec, newContext_spec, fun s p h hst hu => imageCommit_spec h hst hu,
    fun s p h hst => imageActivate_spec h hst, fun s p t h hpre hok ha he ht => imageActivateHost_spec t h hpre hok ha he ht,
    fun s m m2 a => s.activate_spec m m2 a, fun s p h hst => ?_, keyProvision_spec, fun s p h hpre hk => ?_, sigPolicy_spec,
    regRead_spec, fun s p => ?_, fun s p => ?_, fun s p h hst hx hn => ?_, fun s p h hst hx hn => ?_, memCommands_again,
    fun s x hb hs => s.xferTxn_spec hb hs, bankOwner_spec, fun s c b prev hin hw hs => ?_, fun s p h hpre hok hlen => ?_⟩
  · intro k c st h
    have hst : firstOf [(s.begun 0x10 p).slotStatus 0x10 p, (s.begun 0x10 p).slotInUse k] = st := by
      rw [s.begun_slotStatus, s.begun_slotInUse]
    refine ⟨fun h0 => congrArg Host.Outcome.next (guarded_begun h (hst.trans h0) (runImageErase p) rfl rfl), fun h0 => ?_⟩
    refine congrArg Host.Outcome.next ((h.hostCmd _).trans ?_)
    rw [runImageErase, hst, guarded_fails h0]
  · exact congrArg Host.Outcome.next (guarded_begun h (firstOf_pair ((s.begun_stageStatus ..).trans hst) hu) (runImageStage p) rfl rfl)
  · intro q
    refine ⟨s.program_frame l k o 0, fun hfree => ?_, fun hj hfree hstop => ?_⟩
    · obtain ⟨hres, hval, hrest⟩ := State.program_spec hk l h.flash o 0 l.length hl (le_refl _) hfree fun hlt => absurd hlt (lt_irrefl _)
      rw [Nat.zero_add, decide_eq_true rfl] at hres
      exact ⟨hres, hval, hrest⟩
    · obtain ⟨hres, hval, hrest⟩ := State.program_spec hk l h.flash o 0 j hl (Nat.le_of_lt hj) hfree fun _ => hstop
      rw [Nat.zero_add, decide_eq_false (Nat.ne_of_lt hj)] at hres
      exact ⟨hres, hval, fun i hi hlt => hrest k (o + i) hk (by omega) (.inr (.inr (by omega)))⟩
  · exact congrArg Host.Outcome.next (guarded_begun h ((s.begun_stageStatus ..).trans hst) (runImageRead p) rfl rfl)
  · have hst : firstOf [(s.begun 0x16 p).precheck 0x16 p 4 (namedBits [(8, 0, 32)]), stIf (decide (4 ≤ pfld p 8 0 32)) 3] = 0 :=
      firstOf_pair ((begun_precheck ..).trans hpre) (stIf_false (decide_eq_false (Nat.not_le.mpr hk)) 3)
    exact congrArg Host.Outcome.next (guarded_begun h hst (runKeyRevoke p) rfl rfl)
  · intro a w h hpre ha h4
    exact congrArg Host.Outcome.next (guarded_begun h (firstOf_pair ((begun_precheck ..).trans hpre) (addrStatus_ok ha h4))
      (runRegWrite p) rfl rfl)
  · intro a q h hpre hok hlen ha h4
    have hbuf : stIf (!dataOk p 0x4000 || pdlen p == 0) 3 = 0 :=
      stIf_false (by rw [hok, beq_false_of_ne (Nat.pos_iff_ne_zero.mp hlen)]; rfl) 3
    exact congrArg Host.Outcome.next (guarded_begun h (firstOf_triple ((begun_precheck ..).trans hpre) hbuf (addrStatus_ok ha h4))
      (runRegBlockRead p) rfl rfl)
  · have hnone : (s.begun 0x30 p).xferOf (.host (s.curOf 0x30 p).id) = none := State.xferOf_none hx
    exact congrArg Host.Outcome.next (guarded_begun h ((s.begun_memStatus ..).trans hst) (runMemRead p) rfl
      (State.memReadCmd_begins hnone hn))
  · have hnone : (s.begun 0x31 p).xferOf (.host (s.curOf 0x31 p).id) = none := State.xferOf_none hx
    exact congrArg Host.Outcome.next (guarded_begun h ((s.begun_memStatus ..).trans hst) (runMemWrite p) rfl
      (State.memWriteCmd_begins hnone hn))
  · have hpoll : s.poll = if s.bit (aBnk b 8) 4 then s else s.complete c 0 prev 0 := by
      rw [State.poll_single hin, State.pollCur_owner hw hs, State.pollBus_owner hw]
    exact ⟨fun hb => hpoll.trans (if_neg (hb ▸ Bool.false_ne_true)), fun hb => hpoll.trans (if_pos hb)⟩
  · have hbuf : bufStatus p 2048 = 0 := stIf_false (by rw [hok, decide_eq_false (Nat.not_lt.mpr hlen)]; rfl) 3
    exact ⟨s.results_length, congrArg Host.Outcome.next
      (guarded_begun h (firstOf_pair ((begun_precheck ..).trans hpre) hbuf) (runSiteResults p) rfl rfl)⟩

end Sys2Proof.Machine
end

section

/-! SUPPORT. Test and task commands: what arming and starting leave, and the waits of groups 0x4 and 0x5 (R419 to R421). -/

namespace Sys2Proof.Machine

/- Expanders under the management controller (R406) ------------------------------------------------------------------------------------ -/

theorem regFields_px {n o : Nat} (hn : n < 16) (ho : o < 0x10000) (h4 : o % 4 = 0) : regFields (aPx n o) = tabFind tabPx o := by
  have hlo : 0x200000 ≤ aPx n o := by unfold aPx; omega
  have hhi : aPx n o < 0x300000 := by unfold aPx; omega
  have hal : aPx n o % 4 = 0 := by unfold aPx; omega
  have hdiv : (aPx n o - 0x200000) / 0x10000 = n := by unfold aPx; omega
  have hmod : (aPx n o - 0x200000) % 0x10000 = o := by unfold aPx; omega
  generalize aPx n o = a at hlo hhi hal hdiv hmod
  unfold regFields tabRep
  rw [if_neg (by omega), if_neg (by omega), if_neg (by omega), if_neg (by omega), if_neg (by omega), if_neg (by omega),
    if_neg (by omega), if_neg (by omega), if_neg (by omega), if_neg (by omega), if_neg (by omega), if_neg (by omega),
    if_neg (by omega), if_neg (by omega), if_neg (by omega), if_neg (by omega), if_neg (by omega), if_neg (by omega),
    if_pos hhi, hdiv, hmod, if_pos hn]

theorem State.unitWrite_px {s : State} {n o : Nat} (hn : n < 16) (ho : o < 0x10000) (g : Agent) (v : W32) :
    s.unitWrite g (aPx n o) v = s.pxWrite n o v := by
  have hlo : 0x200000 ≤ aPx n o := by unfold aPx; omega
  have hhi : aPx n o < 0x300000 := by unfold aPx; omega
  have hdiv : (aPx n o - 0x200000) / 0x10000 = n := by unfold aPx; omega
  have hmod : aPx n o % 0x10000 = o := by unfold aPx; omega
  generalize aPx n o = a at hlo hhi hdiv hmod
  unfold State.unitWrite
  rw [if_neg (by omega), if_neg (by omega), if_neg (by omega), if_neg (by omega), if_neg (by omega), if_neg (by omega),
    if_neg (by omega), if_neg (by omega), if_neg (by omega), if_neg (by omega), if_neg (by omega), if_neg (by omega), if_pos hhi,
    hdiv, hmod]

/-- A write of an expander's CTRL through a bridge (R233). -/
theorem State.writeReg_pxCtrl {s : State} {n : Nat} (hn : n < 16) (g : Agent) (v : W32) :
    s.writeReg g (aPx n 0) v = s.pxCtrlWrite n v := by
  have hal : aPx n 0 % 4 = 0 := by unfold aPx; omega
  have hlt : aPx n 0 < 0x300000 := by unfold aPx; omega
  have hfields : regFields (aPx n 0) ≠ [] := by
    rw [regFields_px hn (by decide) (by decide)]
    exact List.cons_ne_nil _ _
  unfold State.writeReg
  rw [if_neg (by omega), if_neg hfields, State.unitWrite_px hn (by decide)]
  exact if_pos rfl

/-- A write of ARM alone. -/
theorem State.pxCtrlWrite_arm (s : State) (n : Nat) : s.pxCtrlWrite n 1 =
    if (s.pxState n ≤ 2 && !(s.pxs n).take) = true then (s.putB (aPx n 0) 0 true).pxRest n else s.putB (aPx n 0) 0 true := by
  have h0 : (1 : W32).getLsbD 0 = true := rfl
  have h1 : (1 : W32).getLsbD 1 = false := rfl
  have h2 : (1 : W32).getLsbD 2 = false := rfl
  unfold State.pxCtrlWrite
  rw [h0, h1, h2, if_neg Bool.false_ne_true, if_neg Bool.false_ne_true]
  dsimp only
  rw [Bool.not_true, Bool.and_false, if_neg Bool.false_ne_true]

/-- Coming to rest touches the state of the expander and its wait. -/
theorem State.pxRest_rd (s : State) (n : Nat) {a : Nat} (h4 : a ≠ aPx n 4) (h2C : a ≠ aPx n 0x2C) : (s.pxRest n).rd a = s.rd a := by
  obtain ⟨v, hv | hv⟩ := s.pxRest_eq n
  · rw [hv]
    exact State.rd_wr_ne h4
  · rw [hv]
    exact (State.rd_wr_ne h4).trans (State.rd_wr_ne h2C)

/-- Arming an expander through the management controller's bridge sets ARM and touches nothing else but its state and its wait. -/
theorem State.armPx_spec {s : State} (h : s.Inv) {n : Nat} (hn : n < 16) :
    (s.bridgeWrite .mgmt (aPx n 0) 1).Inv ∧ (s.bridgeWrite .mgmt (aPx n 0) 1).isArmed n = true ∧
    ∀ a, a ≠ aPx n 0 → a ≠ aPx n 4 → a ≠ aPx n 0x2C → (s.bridgeWrite .mgmt (aPx n 0) 1).rd a = s.rd a := by
  obtain ⟨x, hx⟩ : ∃ x, x = s.busEnter (aPx n 0) (busInput .mgmt) (some (readMask (regFields (aPx n 0)) (s.regView (aPx n 0)))) :=
    ⟨_, rfl⟩
  have heq : s.bridgeWrite .mgmt (aPx n 0) 1 = x.pxCtrlWrite n 1 := by
    rw [hx]
    exact State.writeReg_pxCtrl hn .mgmt 1
  have hxr : x.regs = s.regs := by rw [hx]; rfl
  have hxi : spOk regReset x.regs = true := by rw [hxr]; exact h.regs
  have hbit : (x.putB (aPx n 0) 0 true).bit (aPx n 0) 0 = true := State.bit_setB_self hxi _ (by decide)
  have h4 : aPx n 0 ≠ aPx n 4 := by unfold aPx; omega
  have h2C : aPx n 0 ≠ aPx n 0x2C := by unfold aPx; omega
  refine ⟨(State.bridgeWrite_keeps (.refl s) _ _ _).inv h, ?_, fun a ha0 ha4 ha2C => ?_⟩
  · rw [heq, State.pxCtrlWrite_arm]
    split_ifs
    · exact (State.bit_of_rd (State.pxRest_rd _ n h4 h2C) 0).trans hbit
    · exact hbit
  · rw [heq, State.pxCtrlWrite_arm]
    split_ifs
    · exact (State.pxRest_rd _ n ha4 ha2C).trans ((State.rd_wf_ne ha0).trans (State.rd_congr hxr a))
    · exact (State.rd_wf_ne ha0).trans (State.rd_congr hxr a)

/-- Arming the expanders of a list. -/
theorem State.armPxs_spec (l : List Nat) (hl : ∀ n ∈ l, n < 16) {s : State} (h : s.Inv) :
    let t := l.foldl (fun (t : State) n => t.bridgeWrite .mgmt (aPx n 0) 1) s
    (∀ n, n ∈ l ∨ s.isArmed n = true → t.isArmed n = true) ∧ ∀ a, a < 0x200000 → t.rd a = s.rd a := by
  induction l generalizing s with
  | nil => exact ⟨fun n hn => hn.elim (fun hn => absurd hn List.not_mem_nil) id, fun _ _ => rfl⟩
  | cons m l ih =>
    obtain ⟨hinv, harm, hrd⟩ := State.armPx_spec h (hl m List.mem_cons_self)
    obtain ⟨hall, hlow⟩ := ih (fun n hn => hl n (List.mem_cons_of_mem _ hn)) hinv
    refine ⟨fun n hn => hall n ?_, fun a ha => (hlow a ha).trans (hrd a ?_ ?_ ?_)⟩
    · by_cases hnm : n = m
      · exact .inr (hnm ▸ harm)
      · refine hn.imp (fun hn => (List.mem_cons.mp hn).resolve_left hnm) fun hs => ?_
        refine (State.bit_of_rd (hrd (aPx n 0) ?_ ?_ ?_) 0).trans hs <;> unfold aPx <;> omega
    · unfold aPx; omega
    · unfold aPx; omega
    · unfold aPx; omega

/- Sites (R17, R419) ----------------------------------------------------------------------------------------------------------------------- -/

theorem aSite_status_ne {i j : Nat} (h : i ≠ j) : aSite i 0x14 ≠ aSite j 0x14 := by unfold aSite; omega

/-- Armed sites stand in ARMED, and the others as before. -/
theorem State.armSite_fold (l : List Nat) {s : State} (h : s.Inv) :
    (l.foldl State.armSite s).Inv ∧ (∀ i, i ∈ l ∨ s.rd (aSite i 0x14) = 1 → (l.foldl State.armSite s).rd (aSite i 0x14) = 1) ∧
    ∀ i, i ∉ l → (l.foldl State.armSite s).rd (aSite i 0x14) = s.rd (aSite i 0x14) := by
  induction l generalizing s with
  | nil => exact ⟨h, fun i hi => hi.elim (fun hi => absurd hi List.not_mem_nil) id, fun _ _ => rfl⟩
  | cons j l ih =>
    have hinv : (s.armSite j).Inv := (State.armSite_keeps (.refl s) j).inv h
    have hself : (s.armSite j).rd (aSite j 0x14) = 1 := State.rd_wr_self h.regs _ _
    have hne : ∀ i, i ≠ j → (s.armSite j).rd (aSite i 0x14) = s.rd (aSite i 0x14) := fun i hi =>
      State.rd_wr_ne (aSite_status_ne hi)
    obtain ⟨hi, hset, hrest⟩ := ih hinv
    refine ⟨hi, fun i hi => hset i ?_, fun i hi => ?_⟩
    · by_cases hij : i = j
      · exact .inr (hij ▸ hself)
      · exact hi.imp (fun hi => (List.mem_cons.mp hi).resolve_left hij) fun hs => (hne i hij).trans hs
    · obtain ⟨hij, hil⟩ := not_or.mp (mt List.mem_cons.mpr hi)
      exact (hrest i hil).trans (hne i hij)

theorem State.queueResets_regs (s : State) (sites : List Nat) (n : Nat) : (s.queueResets sites n).regs = s.regs := rfl

theorem foldl_queueResets_regs (sites l : List Nat) (s : State) :
    (l.foldl (fun (t : State) n => t.queueResets sites n) s).regs = s.regs := by
  induction l generalizing s with
  | nil => rfl
  | cons n l ih => exact (ih _).trans (s.queueResets_regs sites n)

/-- SITE_ARM arms its sites and their expanders (R17, R308, R419). -/
theorem State.armSites_spec {s : State} (h : s.Inv) (l : List Nat) (hl : ∀ i ∈ l, i < 256) :
    (∀ i ∈ l, (s.armSites l).siteState i = 1 ∧ (s.armSites l).siteFinal i = false) ∧
    (∀ i < 256, i ∉ l → (s.armSites l).rd (aSite i 0x14) = s.rd (aSite i 0x14)) ∧
    (∀ n : Fin 16, n.val ∈ s.sitePx l → (s.armSites l).isArmed n.val = true) := by
  obtain ⟨x, hx⟩ : ∃ x, x = l.foldl State.armSite s := ⟨_, rfl⟩
  obtain ⟨y, hy⟩ : ∃ y, y = (s.sitePx l).foldl (fun (t : State) n => t.bridgeWrite .mgmt (aPx n 0) 1) x := ⟨_, rfl⟩
  have heq : s.armSites l = (List.range 4).foldl (fun (t : State) n => t.queueResets l n) y := by rw [hy, hx]; rfl
  have hregs : (s.armSites l).regs = y.regs := by
    rw [heq]
    exact foldl_queueResets_regs l _ y
  obtain ⟨hxi, hset, hrest⟩ := State.armSite_fold l h
  rw [← hx] at hxi hset hrest
  have hpx : ∀ n ∈ s.sitePx l, n < 16 := fun n hn => List.mem_range.mp (List.mem_filter.mp hn).1
  obtain ⟨harm, hlow⟩ := State.armPxs_spec (s.sitePx l) hpx hxi
  rw [← hy] at harm hlow
  have hstatus : ∀ i, i < 256 → (s.armSites l).rd (aSite i 0x14) = x.rd (aSite i 0x14) := fun i hi =>
    (State.rd_congr hregs _).trans (hlow _ (by unfold aSite; omega))
  refine ⟨fun i hi => ?_, fun i hi hil => (hstatus i hi).trans (hrest i hil), fun n hn => ?_⟩
  · have hone := (hstatus i (hl i hi)).trans (hset i (.inl hi))
    constructor
    · rw [State.siteState, State.rf, hone]
      rfl
    · rw [State.siteFinal, State.bit, State.rf, hone]
      rfl
  · exact (State.bit_congr hregs _ _).trans (harm n.val (.inl hn))

/-- A request makes every armed expander that is at rest STARTING (R234). -/
theorem State.requestStart_spec {s : State} (hr : s.startReq = false) : s.requestStart.startReq = true ∧
    (s.Inv → ∀ n : Fin 16, s.isArmed n.val = true → s.pxState n.val = 1 → s.requestStart.pxState n.val = 2) := by
  have heq : s.requestStart = (s.armedPx.filter fun n => s.pxState n == 1).foldl State.pxRest { s with startReq := true } :=
    if_neg (hr ▸ Bool.false_ne_true)
  have hframe : ∀ (t : State) m, (t.pxRest m).startReq = t.startReq := by
    intro t m
    obtain ⟨v, hv | hv⟩ := t.pxRest_eq m
    · rw [hv]
      rfl
    · rw [hv]
      rfl
  have hfold : ∀ (l : List Nat) (t : State), (l.foldl State.pxRest t).startReq = t.startReq := by
    intro l
    induction l with
    | nil => exact fun _ => rfl
    | cons m l ih => exact fun t => (ih _).trans (hframe t m)
  refine ⟨by rw [heq, hfold], fun h n harm hst => ?_⟩
  have hmem : n.val ∈ s.armedPx.filter fun n => s.pxState n == 1 :=
    List.mem_filter.mpr ⟨List.mem_filter.mpr ⟨List.mem_range.mpr n.isLt, harm⟩, beq_iff_eq.mpr hst⟩
  have hnodup : (s.armedPx.filter fun n => s.pxState n == 1).Nodup := (List.nodup_range.filter _).filter _
  rw [heq]
  have hne : ∀ (t : State) m, m ≠ n.val → ∀ o, o = 0 ∨ o = 4 → (t.pxRest m).rd (aPx n.val o) = t.rd (aPx n.val o) :=
    fun t m hm o ho => t.pxRest_rd m (by unfold aPx; omega) (by unfold aPx; omega)
  refine foldl_of_mem (f := State.pxRest) (key := id) (x := n.val) (Q := fun t => t.pxState n.val = 2)
    (I := fun t => t.Inv ∧ t.isArmed n.val = true ∧ t.startReq = true)
    (fun t m ⟨hi, ha, hq⟩ => ⟨(State.pxRest_keeps (.refl t) m).inv hi, ?_, (hframe t m).trans hq⟩) (fun t ⟨hi, ha, hq⟩ => ?_) _
    (fun t m _ hm ht => ?_) (by rwa [List.map_id]) hmem ⟨{ h with }, harm, rfl⟩
  · exact (State.bit_of_rd (t.pxRest_rd m (by unfold aPx; omega) (by unfold aPx; omega)) 0).trans ha
  · unfold State.pxRest
    rw [ha, hq, if_pos rfl, if_pos rfl]
    dsimp only
    refine State.rf_setPxState_self ?_ n.val (by decide)
    split_ifs
    · exact hi.wr _ _
    · exact hi
  · exact (State.rf_of_rd (hne t m hm 4 (.inr rfl)) 0 3).trans ht

theorem State.requestStart_set (s : State) : s.requestStart.startReq = true := by
  cases hr : s.startReq with
  | true =>
    have heq : s.requestStart = s := if_pos hr
    rw [heq, hr]
  | false => exact (State.requestStart_spec hr).1

end Sys2Proof.Machine
end

section

/-! SUPPORT. What a completion leaves, the end of a start request, and the waits that poll (R400, R419 to R421). -/

namespace Sys2Proof.Machine

/- What a completion touches (R395 to R397) ----------------------------------------------------------------------------------------- -/

theorem State.qError_frame (s : State) (q e : Nat) :
    s.qError q e = { s with bar0 := (s.qError q e).bar0, regs := (s.qError q e).regs, inprog := (s.qError q e).inprog } := by
  unfold State.qError State.qStop
  rw [State.qSettle_frame]
  rfl

/-- The parts of the state that a completion touches. -/
structure Completes (s t : State) : Prop where
  frame : t = { s with
    hostMem := t.hostMem, queues := t.queues, regs := t.regs, msixPend := t.msixPend, bar0 := t.bar0, inprog := t.inprog }

theorem Completes.refl (s : State) : Completes s s := ⟨rfl⟩

theorem Completes.trans {s t u : State} (h : Completes s t) (g : Completes t u) : Completes s u := by
  obtain ⟨h⟩ := h
  obtain ⟨g⟩ := g
  constructor
  rw [h] at g
  exact g

theorem State.postCpl_completes (s : State) (c : Cur) (st r0 r1 : Nat) : Completes s (s.postCpl c st r0 r1) := by
  cases hl : c.live with
  | false =>
    rw [State.postCpl_dead s hl]
    exact .refl s
  | true =>
    cases he : c.pkt.cplErr with
    | false =>
      constructor
      rw [State.postCpl_good s hl he]
    | true =>
      have heq : s.postCpl c st r0 r1 = s.qError c.pkt.q.val 4 := by
        unfold State.postCpl
        dsimp only
        rw [hl, he]
        rfl
      constructor
      rw [heq]
      conv_lhs => rw [State.qError_frame]
      rw [State.qError_frame]

theorem State.complete_completes (s : State) (c : Cur) (st r0 r1 : Nat) : Completes s (s.complete c st r0 r1) := by
  have h1 : Completes s (s.ended c st) := ⟨by rw [State.ended_frame]⟩
  have h3 : ∀ t : State, Completes t (t.qSettle c.pkt.q.val) := fun t => ⟨by rw [State.qSettle_frame]⟩
  exact (h1.trans (State.postCpl_completes _ c st r0 r1)).trans (h3 _)

theorem State.completeAll_completes (s : State) (f : Cur → Bool) (st r0 : Nat) : Completes s (s.completeAll f st r0) := by
  have hfold : ∀ (l : List Cur) (t : State), Completes t (l.foldl (fun t c => t.complete c st r0 0) t) := by
    intro l
    induction l with
    | nil => exact fun t => .refl t
    | cons c l ih => exact fun t => (t.complete_completes c st r0 0).trans (ih _)
  exact hfold _ s

/-- The commands that are to complete are one. -/
theorem State.completeAll_one {s : State} {c : Cur} {f : Cur → Bool} (h : s.inprog = [c]) (hf : f c = true) (st r0 : Nat) :
    s.completeAll f st r0 = s.complete c st r0 0 := by
  rw [State.completeAll, h, List.filter_cons_of_pos hf]
  rfl

theorem State.completeAll_none {s : State} {c : Cur} {f : Cur → Bool} (h : s.inprog = [c]) (hf : f c = false) (st r0 : Nat) :
    s.completeAll f st r0 = s := by
  rw [State.completeAll, h, List.filter_cons_of_neg (hf ▸ Bool.false_ne_true)]
  rfl

/- The end of a start request (R289, R420) -------------------------------------------------------------------------------------------- -/

theorem State.pxRest_startReq (t : State) (m : Nat) : (t.pxRest m).startReq = t.startReq := by
  obtain ⟨v, hv | hv⟩ := t.pxRest_eq m
  · rw [hv]
    rfl
  · rw [hv]
    rfl

/-- After a withdrawal no start is requested; without a request it changes nothing. -/
theorem State.withdraw_spec (s : State) : s.withdraw.startReq = false ∧ (s.startReq = false → s.withdraw = s) := by
  have hid : s.startReq = false → s.withdraw = s := fun h => if_neg (h ▸ Bool.false_ne_true)
  refine ⟨?_, hid⟩
  cases hr : s.startReq with
  | false => rw [hid hr, hr]
  | true =>
    obtain ⟨x, hx⟩ : ∃ x, x = ({ s with startReq := false, startSent := false } : State).clrB (aSyn 0x108) 17 := ⟨_, rfl⟩
    have hxr : x.startReq = false := by
      rw [hx, State.clrB_frame]
    have heq : s.withdraw = ((List.range 16).foldl (fun t n => if t.pxState n = 2 && !(t.pxs n).take then
        (t.pxRest n).mapHolds (Hold.left n false) else t) x).completeAll (fun c => c.wait == .release) 0xA 0 := by
      rw [hx]
      exact if_pos hr
    have hfold : ∀ (l : List Nat) (t : State), (l.foldl (fun t n => if t.pxState n = 2 && !(t.pxs n).take then
        (t.pxRest n).mapHolds (Hold.left n false) else t) t).startReq = t.startReq := by
      intro l
      induction l with
      | nil => exact fun _ => rfl
      | cons n l ih =>
        intro t
        refine (ih _).trans ?_
        dsimp only
        split_ifs
        · exact t.pxRest_startReq n
        · rfl
    rw [heq, (State.completeAll_completes _ _ _ _).frame]
    exact (hfold _ x).trans hxr

/- Waits that poll (R405, R419 to R421) ------------------------------------------------------------------------------------------------- -/

section
variable {s : State} {c : Cur}

/-- A wait behind the peripheral buses goes on awake. -/
theorem State.poll_bus (hin : s.inprog = [c]) (hs : s.sleeping = false) (hw : ∀ k, c.wait ≠ .notice k) : s.poll = s.pollBus c := by
  rw [State.poll_single hin]
  unfold State.pollCur
  split
  · next k hk => exact absurd hk (hw k)
  · exact State.awakeDo_awake hs _

theorem State.poll_arm {mask : Nat} (hin : s.inprog = [c]) (hw : c.wait = .arm mask) (hs : s.sleeping = false) :
    s.poll = if s.armPending mask then s else s.complete c 0 (maskSites mask).length 0 := by
  rw [State.poll_bus hin hs (by rw [hw]; simp), State.pollBus, hw]

theorem State.poll_sites {mask : Nat} (hin : s.inprog = [c]) (hw : c.wait = .sites mask) (hs : s.sleeping = false) :
    s.poll = if ((maskSites mask).all fun i => s.siteState i == 3 && s.siteFinal i) then s.complete c 0 (maskSites mask).length 0
      else s := by
  rw [State.poll_bus hin hs (by rw [hw]; simp), State.pollBus, hw]

theorem State.poll_ops {op next stop out refused : Nat} {arg : W32} (hin : s.inprog = [c])
    (hw : c.wait = .ops op arg next stop out refused) (hs : s.sleeping = false) :
    s.poll = s.pollOps c op arg next stop out refused := by
  rw [State.poll_bus hin hs (by rw [hw]; simp), State.pollBus, hw]

theorem State.poll_query {t : Nat} (hin : s.inprog = [c]) (hw : c.wait = .query t) (hs : s.sleeping = false) :
    s.poll = s.pollQuery c t := by
  rw [State.poll_bus hin hs (by rw [hw]; simp), State.pollBus, hw]

theorem State.poll_context {t : Nat} {l : List Byte} (hin : s.inprog = [c]) (hw : c.wait = .context t l) (hs : s.sleeping = false) :
    s.poll = s.pollContext c t l := by
  rw [State.poll_bus hin hs (by rw [hw]; simp), State.pollBus, hw]

/-- Of the operations that are done none is of the command. -/
theorem State.takeOps_none {id : Nat} (h : ∀ d ∈ s.opsDone, d.1 ≠ id) : s.takeOps id = (0, 0, s) := by
  have hmine : (s.opsDone.filter fun p => p.1 == id) = [] := List.filter_eq_nil_iff.mpr fun d hd hid => h d hd (eq_of_beq hid)
  have hrest : (s.opsDone.filter fun p => p.1 != id) = s.opsDone := List.filter_eq_self.mpr fun d hd => bne_iff_ne.mpr (h d hd)
  unfold State.takeOps
  rw [hmine, hrest]
  rfl

/-- The only operation that is done is one of the command. -/
theorem State.takeOps_one {id : Nat} {refused : Bool} (h : s.opsDone = [(id, refused)]) :
    s.takeOps id = (1, refused.toNat, { s with opsDone := [] }) := by
  have hmine : ([(id, refused)].filter fun p => p.1 == id) = [(id, refused)] := List.filter_cons_of_pos (beq_self_eq_true id)
  have hrest : ([(id, refused)].filter fun p => p.1 != id) = [] :=
    List.filter_cons_of_neg (by rw [bne_self_eq_false]; exact Bool.false_ne_true)
  unfold State.takeOps
  rw [h, hmine, hrest]
  cases refused <;> rfl

/-- The operation of a command on one task is enqueued (R421). -/
theorem State.pollOps_feeds {op t : Nat} {arg : W32} (hd : ∀ d ∈ s.opsDone, d.1 ≠ c.id) (hroom : s.taskOps.length < 16) :
    s.pollOps c op arg t (t + 1) 0 0 = (s.hostOp c.id t op arg).setWait c (.ops op arg (t + 1) (t + 1) 1 0) := by
  have hfeed : s.feedOps c.id op arg t (t + 1) = (s.hostOp c.id t op arg, t + 1) := by
    have hone : min (16 - s.taskOps.length) (t + 1 - t) = 1 := by omega
    unfold State.feedOps
    rw [hone]
    rfl
  unfold State.pollOps
  dsimp only
  rw [State.takeOps_none hd, hfeed]
  dsimp only
  have hleft : 0 + (t + 1 - t) - 0 = 1 := by omega
  rw [hleft, if_neg fun hc => Nat.one_ne_zero hc.2]

/-- The operation of a command on one task is done (R421). -/
theorem State.pollOps_done {op t : Nat} {arg : W32} {refused : Bool} (hd : s.opsDone = [(c.id, refused)]) (hop : c.op ≠ 0x46) :
    s.pollOps c op arg (t + 1) (t + 1) 1 0 = { s with opsDone := [] }.complete c (if refused then 0xD else 0) 0 0 := by
  have hfeed : ∀ u : State, u.feedOps c.id op arg (t + 1) (t + 1) = (u, t + 1) := fun u => by
    have hnone : min (16 - u.taskOps.length) (t + 1 - (t + 1)) = 0 := by omega
    unfold State.feedOps
    rw [hnone]
    rfl
  unfold State.pollOps
  dsimp only
  rw [State.takeOps_one hd]
  dsimp only
  rw [hfeed]
  dsimp only
  have hleft : 1 + (t + 1 - (t + 1)) - 1 = 0 := by omega
  rw [hleft, if_pos ⟨rfl, rfl⟩, if_neg hop]
  cases refused <;> rfl

/-- A TASK_QUERY whose READ is done (R421). -/
theorem State.pollQuery_done {t : Nat} {refused : Bool} (hd : s.opsDone = [(c.id, refused)]) :
    s.pollQuery c t = if refused.toNat ≠ 0 then { s with opsDone := [] }.complete c 0xD 0 0
      else if pdlen c.pkt = 536 then ({ s with opsDone := [] }.setWait c (.context t s.queryBytes)).pollContext c t s.queryBytes
      else { s with opsDone := [] }.toBuffer c s.queryBytes 0 0 := by
  unfold State.pollQuery
  dsimp only
  rw [State.takeOps_one hd]
  rfl

theorem State.pollContext_begins {t : Nat} {l : List Byte} (h : s.xferOf (.host c.id) = none) :
    s.pollContext c t l = s.xferStart (.host c.id) 13 0 256 false (ctxKey t) 512 none := by
  unfold State.pollContext
  rw [State.xfer_begins h 13 0 (by decide) _ (by decide)]

section
variable {x : Xfer} {t : Nat} {l : List Byte} (hx : s.xferOf (.host c.id) = some x)
include hx

theorem State.pollContext_waits (ho : x.over = false) : s.pollContext c t l = s := by
  unfold State.pollContext
  rw [State.xfer_waits hx ho]

theorem State.pollContext_done (ho : x.over = true) (he : x.err = none) :
    s.pollContext c t l = (s.dropXfer (.host c.id)).toBuffer c (l ++ x.got) 0 0 := by
  unfold State.pollContext
  rw [State.xfer_ends hx ho]
  dsimp only
  rw [he]
  rfl

theorem State.pollContext_failed (ho : x.over = true) (he : x.err ≠ none) (hh : c.pkt.hostErr = none) :
    s.pollContext c t l = ((s.dropXfer (.host c.id)).toHostMem (pdptr c.pkt) (l ++ x.got.take x.last)).complete c 7
      (l ++ x.got.take x.last).length 0 := by
  unfold State.pollContext
  rw [State.xfer_ends hx ho]
  dsimp only
  rw [if_neg (by rwa [Option.isNone_iff_eq_none]), hh]
  rfl

end

end

end Sys2Proof.Machine
end

section

/-! Test and task commands: the statement (O55). -/

namespace Sys2Proof.Machine

section
variable {s : State} {p : Packet}

/-- A check on the sites of a mask passes. -/
theorem stIf_any_false {α : Type} {l : List α} {f : α → Bool} (h : ∀ i ∈ l, f i = false) (st : Nat) : stIf (l.any f) st = 0 :=
  stIf_false (List.any_eq_false.mpr fun i hi hf => Bool.false_ne_true ((h i hi).symm.trans hf)) st

theorem stIf_any_true {α : Type} {l : List α} {f : α → Bool} (h : ∃ i ∈ l, f i = true) (st : Nat) : stIf (l.any f) st = st :=
  stIf_true (List.any_eq_true.mpr h) st

/-- A command that passes its first check and fails the second. -/
theorem State.Starts.refused_pair {op : Nat} {f : State → Cur → State} {a b st : Nat} (h : s.Starts op p) (ha : a = 0) (hb : b = st)
    (hst : st ≠ 0) (run : State → Cur → State)
    (hrun : run (s.begun op p) (s.curOf op p) = guarded (firstOf [a, b]) f (s.begun op p) (s.curOf op p)) :
    s.hostCmd op p run = ((s.begun op p).complete (s.curOf op p) st 0 0).poll := by
  rw [h.hostCmd, hrun, firstOf_two, if_pos ha, hb, guarded_fails hst]

/-- SITE_ARM (R419). -/
theorem siteArm_spec (h : s.Starts 0x40 p) (hpre : s.precheck 0x40 p 32 (namedBits maskField) = 0) :
    ((∀ i ∈ pktSites p, s.mayArm i = true) → exec (.siteArm p) s =
      .next (((s.begun 0x40 p).armSites (pktSites p)).setWait (s.curOf 0x40 p) (.arm (pfld p 8 0 256))).poll) ∧
    ((∃ i ∈ pktSites p, s.mayArm i = false) → exec (.siteArm p) s =
      .next ((s.begun 0x40 p).complete (s.curOf 0x40 p) 8 0 0).poll) := by
  have hpre' : (s.begun 0x40 p).precheck 0x40 p 32 (namedBits maskField) = 0 := (begun_precheck ..).trans hpre
  refine ⟨fun hall => ?_, fun hex => ?_⟩
  · have hok : stIf (!(pktSites p).all (s.begun 0x40 p).mayArm) 8 = 0 := by
      have hall' : (pktSites p).all (s.begun 0x40 p).mayArm = true := List.all_eq_true.mpr hall
      exact stIf_false (by rw [hall']; rfl) 8
    exact congrArg Host.Outcome.next (guarded_begun h (firstOf_pair hpre' hok) (runSiteArm p) rfl rfl)
  · have hbad : stIf (!(pktSites p).all (s.begun 0x40 p).mayArm) 8 = 8 := by
      refine stIf_true ?_ 8
      obtain ⟨i, hi, hf⟩ := hex
      rw [Bool.not_eq_true', List.all_eq_false]
      refine ⟨i, hi, fun hc => ?_⟩
      exact Bool.false_ne_true (hf.symm.trans hc)
    exact congrArg Host.Outcome.next (h.refused_pair hpre' hbad (by decide) (runSiteArm p) rfl)

/-- TEST_START (R419). -/
theorem testStart_spec (s : State) (p : Packet) :
    let b := s.begun 0x41 p
    let c := s.curOf 0x41 p
    s.Starts 0x41 p → s.precheck 0x41 p 4 (namedBits [(8, 0, 1)]) = 0 →
    (pfld p 8 0 1 = 0 → s.armedPx ≠ [] → exec (.testStart p) s = .next (b.requestStart.complete c 0 0 0).poll) ∧
    (pfld p 8 0 1 = 1 → s.armedPx ≠ [] → exec (.testStart p) s = .next (b.requestStart.setWait c .release).poll) ∧
    (pfld p 8 0 1 = 0 → s.armedPx = [] → exec (.testStart p) s =
      .next (b.requestStart.startRelease.complete c 0 (!b.requestStart.startRelease.startReq).toNat 0).poll) := by
  intro b c h hpre
  have hexec : ∀ {u}, b.testStart c (pfld p 8 0 1 == 1) = u → exec (.testStart p) s = .next u.poll := fun hu =>
    congrArg Host.Outcome.next (guarded_begun h ((begun_precheck ..).trans hpre) (runTestStart p) rfl hu)
  have harmed : b.armedPx = s.armedPx := rfl
  have hreq : b.requestStart.startReq = true := b.requestStart_set
  have hsome : s.armedPx ≠ [] → ¬ b.armedPx.isEmpty = true := fun ha hc => ha (List.isEmpty_iff.mp (harmed ▸ hc))
  refine ⟨fun hw ha => hexec ?_, fun hw ha => hexec ?_, fun hw ha => hexec ?_⟩
  · have hw' : (pfld p 8 0 1 == 1) = false := by rw [hw]; rfl
    unfold State.testStart
    dsimp only
    rw [hw', if_neg Bool.false_ne_true, if_neg Bool.false_ne_true, if_neg (hsome ha), hreq]
    rfl
  · have hw' : (pfld p 8 0 1 == 1) = true := by rw [hw]; rfl
    unfold State.testStart
    dsimp only
    rw [hw', if_pos rfl, if_pos rfl, if_neg (hsome ha)]
  · have hw' : (pfld p 8 0 1 == 1) = false := by rw [hw]; rfl
    unfold State.testStart
    dsimp only
    rw [hw', if_neg Bool.false_ne_true, if_neg Bool.false_ne_true, if_pos (by rw [harmed, ha]; rfl)]

/-- The waits of SITE_WAIT (R402, R419). -/
theorem siteWait_waits (s : State) (c : Cur) (mask : Nat) (hin : s.inprog = [c]) (hw : c.wait = .sites mask) :
    (s.sleeping = false → (∀ i ∈ maskSites mask, s.siteState i = 3 ∧ s.siteFinal i = true) →
      s.poll = s.complete c 0 (maskSites mask).length 0) ∧
    ((∃ i ∈ maskSites mask, s.siteState i ≠ 3 ∨ s.siteFinal i = false) → s.poll = s) ∧
    (pfld c.pkt 0x28 0 32 ≠ 0 → exec (.siteWaitTimeout c.pkt.q) s = .next (s.complete c 0xB 0 0)) ∧
    (pfld c.pkt 0x28 0 32 = 0 → exec (.siteWaitTimeout c.pkt.q) s = .next s) := by
  have htimed : c.timed c.pkt.q.val = (pfld c.pkt 0x28 0 32 != 0) := by
    rw [Cur.timed, hw]
    dsimp only
    rw [beq_self_eq_true, Bool.true_and]
  refine ⟨fun hs hall => ?_, fun hex => ?_, fun ht => ?_, fun ht => ?_⟩
  · rw [State.poll_sites hin hw hs, if_pos]
    refine List.all_eq_true.mpr fun i hi => ?_
    obtain ⟨h3, hf⟩ := hall i hi
    rw [h3, hf]
    rfl
  · cases hs : s.sleeping with
    | true =>
      refine State.poll_of_still fun d hd => State.pollCur_asleep hs fun k hk => ?_
      rw [hin] at hd
      rw [List.mem_singleton.mp hd, hw] at hk
      cases hk
    | false =>
      rw [State.poll_sites hin hw hs, if_neg]
      intro hall
      obtain ⟨i, hi, hno⟩ := hex
      obtain ⟨h3, hf⟩ := Bool.and_eq_true_iff.mp (List.all_eq_true.mp hall i hi)
      exact hno.elim (fun hn => hn (eq_of_beq h3)) fun hn => Bool.false_ne_true (hn.symm.trans hf)
  · exact congrArg Host.Outcome.next (State.completeAll_one hin (htimed.trans (bne_iff_ne.mpr ht)) 0xB 0)
  · exact congrArg Host.Outcome.next (State.completeAll_none hin (by rw [htimed, ht]; rfl) 0xB 0)

/-- TASK_QUERY (R421). -/
theorem taskQuery_spec (s : State) (p : Packet) :
    let t := pfld p 0x14 0 16
    let c := s.curOf 0x50 p
    let b := s.begun 0x50 p
    s.Starts 0x50 p → s.precheck 0x50 p 16 (namedBits (bufFields ++ [(0x14, 0, 16)])) = 0 → dataOk p dlenMax = true →
    (pdlen p = 24 ∨ pdlen p = 536) → t < 40960 →
    (s.taskOps.length < 16 → exec (.taskQuery p) s = .next ((b.hostOp c.id t 5 0).setWait c (.query t)).poll) ∧
    (16 ≤ s.taskOps.length → exec (.taskQuery p) s = .next b.poll) := by
  intro t c b h hpre hok hlen ht
  have hbuf : stIf (!dataOk p dlenMax || !(pdlen p == 24 || pdlen p == 536)) 3 = 0 := by
    refine stIf_false ?_ 3
    rw [hok]
    rcases hlen with hl | hl <;> rw [hl] <;> rfl
  have htask : taskStatus t = 0 := stIf_false (decide_eq_false (Nat.not_le.mpr ht)) 3
  have hexec : ∀ {u}, b.queryStart c t = u → exec (.taskQuery p) s = .next u.poll := fun hu =>
    congrArg Host.Outcome.next (guarded_begun h (firstOf_triple ((begun_precheck ..).trans hpre) hbuf htask) (runTaskQuery p) rfl hu)
  exact ⟨fun hr => hexec (if_pos hr), fun hr => hexec (if_neg (Nat.not_lt.mpr hr))⟩

/-- A command on one task waits for its operation, or is refused for a task that no record can have (R421). -/
theorem taskCommand_spec {op len named t : Nat} {run : Packet → State → Cur → State} {f : State → Cur → State}
    (hrun : ∀ (u : State) c, run p u c = guarded (firstOf [u.precheck op p len named, taskStatus t]) f u c)
    (h : s.Starts op p) (hpre : s.precheck op p len named = 0) :
    (t < 40960 → s.hostCmd op p (run p) = (f (s.begun op p) (s.curOf op p)).poll) ∧
    (40960 ≤ t → s.hostCmd op p (run p) = ((s.begun op p).complete (s.curOf op p) 3 0 0).poll) := by
  have hpre' : (s.begun op p).precheck op p len named = 0 := (begun_precheck ..).trans hpre
  refine ⟨fun ht => ?_, fun ht => ?_⟩
  · exact guarded_begun h (firstOf_pair hpre' (stIf_false (decide_eq_false (Nat.not_le.mpr ht)) 3)) (run p) (hrun _ _) rfl
  · exact h.refused_pair hpre' (stIf_true (decide_eq_true ht) 3) (by decide) (run p) (hrun _ _)

theorem next_and {a b : Prop} {x u v : State} (h : (a → x = u) ∧ (b → x = v)) :
    (a → (Host.Outcome.next x : Host.Outcome State Fault Refusal) = .next u) ∧
    (b → (Host.Outcome.next x : Host.Outcome State Fault Refusal) = .next v) :=
  ⟨fun ha => congrArg _ (h.1 ha), fun hb => congrArg _ (h.2 hb)⟩

/-- TASK_SIGNAL, TASK_KILL, TASK_SET_PRIO and TASK_SET_AFFINITY (R421). -/
theorem taskCommands_spec (s : State) (p : Packet) :
    let t := pfld p 8 0 16
    (s.Starts 0x51 p → s.precheck 0x51 p 4 (namedBits [(8, 0, 21)]) = 0 →
      (t < 40960 → exec (.taskSignal p) s =
        .next ((s.begun 0x51 p).waitOp (s.curOf 0x51 p) 2 (pfld p 8 16 5) t).poll) ∧
      (40960 ≤ t → exec (.taskSignal p) s = .next ((s.begun 0x51 p).complete (s.curOf 0x51 p) 3 0 0).poll)) ∧
    (s.Starts 0x52 p → s.precheck 0x52 p 4 (namedBits [(8, 0, 16)]) = 0 →
      (t < 40960 → exec (.taskKill p) s = .next ((s.begun 0x52 p).waitOp (s.curOf 0x52 p) 1 0 t).poll) ∧
      (40960 ≤ t → exec (.taskKill p) s = .next ((s.begun 0x52 p).complete (s.curOf 0x52 p) 3 0 0).poll)) ∧
    (s.Starts 0x53 p → s.precheck 0x53 p 4 (namedBits [(8, 0, 19)]) = 0 →
      (t < 40960 → exec (.taskSetPrio p) s =
        .next ((s.begun 0x53 p).waitOp (s.curOf 0x53 p) 3 (pfld p 8 16 3) t).poll) ∧
      (40960 ≤ t → exec (.taskSetPrio p) s = .next ((s.begun 0x53 p).complete (s.curOf 0x53 p) 3 0 0).poll)) ∧
    (s.Starts 0x54 p → s.precheck 0x54 p 8 (namedBits [(8, 0, 16), (0xC, 0, 12)]) = 0 →
      (t < 40960 → exec (.taskSetAffinity p) s =
        .next ((s.begun 0x54 p).waitOp (s.curOf 0x54 p) 4 (pfld p 0xC 0 12) t).poll) ∧
      (40960 ≤ t → exec (.taskSetAffinity p) s =
        .next ((s.begun 0x54 p).complete (s.curOf 0x54 p) 3 0 0).poll)) := by
  intro t
  exact ⟨fun h hpre => next_and (taskCommand_spec (run := runTaskSignal) (fun _ _ => rfl) h hpre),
    fun h hpre => next_and (taskCommand_spec (run := runTaskKill) (fun _ _ => rfl) h hpre),
    fun h hpre => next_and (taskCommand_spec (run := runTaskSetPrio) (fun _ _ => rfl) h hpre),
    fun h hpre => next_and (taskCommand_spec (run := runTaskSetAffinity) (fun _ _ => rfl) h hpre)⟩

/-- The operation of a command, as the management controller writes it (R406, R421). -/
theorem hostOp_spec (s : State) (id t op : Nat) (arg : W32) (h : s.Inv) :
    (op = 2 ∨ op = 3 ∨ op = 4 → s.hostOp id t op arg =
      (((s.mgmtIn (aGrn 0x64) true).wr (aGrn 0x64) arg).mgmtIn (aGrn 0x60) true).enqueueOp t op arg (some id)) ∧
    (op ≠ 2 → op ≠ 3 → op ≠ 4 → s.hostOp id t op arg =
      (s.mgmtIn (aGrn 0x60) true).enqueueOp t op (s.rd (aGrn 0x64)) (some id)) := by
  refine ⟨fun hop => ?_, fun h2 h3 h4 => ?_⟩
  · unfold State.hostOp
    dsimp only
    rw [if_pos hop, State.rd_wr_self (h.mgmtIn _ _).regs]
  · unfold State.hostOp
    dsimp only
    rw [if_neg (by omega)]

/-- A TASK_QUERY whose READ is done goes on (R421). -/
theorem taskQuery_waits (s : State) (c : Cur) (t : Nat) (refused : Bool) (hin : s.inprog = [c]) (hw : c.wait = .query t)
    (hd : s.opsDone = [(c.id, refused)]) (hs : s.sleeping = false) :
    let d := { s with opsDone := [] }
    let rec_ := (List.range 6).flatMap fun k => natLe 4 (s.rd (aGrn (0x70 + 4 * k))).toNat
    (refused = true → s.poll = d.complete c 0xD 0 0) ∧
    (refused = false → pdlen c.pkt ≠ 536 → s.poll = d.toBuffer c rec_ 0 0) ∧
    (refused = false → pdlen c.pkt = 536 → (∀ x ∈ s.xfers, x.key ≠ .host c.id) →
      s.poll = (d.setWait c (.context t rec_)).xferStart (.host c.id) 13 0 256 false (ctxKey t) 512 none) := by
  intro d rec_
  have hpoll := (State.poll_query hin hw hs).trans (State.pollQuery_done (t := t) hd)
  refine ⟨fun hr => hpoll.trans ?_, fun hr hl => hpoll.trans ?_, fun hr hl hx => hpoll.trans ?_⟩
  · rw [hr]
    rfl
  · rw [hr, if_neg (by decide), if_neg hl]
    rfl
  · rw [hr, if_neg (by decide), if_pos hl]
    have hnone : (d.setWait c (.context t rec_)).xferOf (.host c.id) = none := State.xferOf_none hx
    exact State.pollContext_begins hnone

end

/-- Settles O55: each command that starts is a case split on its checks, each wait one on what it waits for. -/
theorem testAndTaskCommands : Obligations.TestAndTaskCommands := by
  unfold Obligations.TestAndTaskCommands
  refine ⟨fun s p h hpre => siteArm_spec h hpre, fun s l h hl => State.armSites_spec h l hl, fun s c mask hin hw hs => ?_, testStart_spec,
    fun s hr => State.requestStart_spec hr, fun s p h hpre => ?_, fun s => s.withdraw_spec, fun s p h hpre => ?_, fun s p h hpre => ?_,
    siteWait_waits, fun s p h hpre => ?_, fun s p => ?_, taskQuery_spec, taskCommands_spec, fun s c op t arg hin hw hd hroom hs => ?_,
    hostOp_spec, taskQuery_waits, fun s c t l x hin hw hs hx => ?_, fun s c op t arg refused hin hw hd hop hs => ?_,
    fun s p h hpre hok hlen => ?_⟩
  · have hpoll := State.poll_arm hin hw hs
    exact ⟨fun ha => hpoll.trans (if_neg (ha ▸ Bool.false_ne_true)), fun ha => hpoll.trans (if_pos ha)⟩
  · exact congrArg Host.Outcome.next (guarded_begun h ((begun_precheck ..).trans hpre) (runTestStop p) rfl rfl)
  · have hpre' : (s.begun 0x43 p).precheck 0x43 p 32 (namedBits maskField) = 0 := (begun_precheck ..).trans hpre
    refine ⟨fun hall => ?_, fun hex => ?_⟩
    · have hok : stIf ((pktSites p).any fun i => (s.begun 0x43 p).siteState i == 2) 8 = 0 :=
        stIf_any_false (fun i hi => beq_false_of_ne (hall i hi)) 8
      exact congrArg Host.Outcome.next (guarded_begun h (firstOf_pair hpre' hok) (runSiteDisarm p) rfl rfl)
    · have hbad : stIf ((pktSites p).any fun i => (s.begun 0x43 p).siteState i == 2) 8 = 8 :=
        stIf_any_true (hex.imp fun i hi => ⟨hi.1, beq_iff_eq.mpr hi.2⟩) 8
      exact congrArg Host.Outcome.next (h.refused_pair hpre' hbad (by decide) (runSiteDisarm p) rfl)
  · have hpre' : (s.begun 0x44 p).precheck 0x44 p 36 (namedBits (maskField ++ [(0x28, 0, 32)])) = 0 := (begun_precheck ..).trans hpre
    refine ⟨fun hall => ?_, fun hex => ?_⟩
    · have hok : stIf ((pktSites p).any fun i => (s.begun 0x44 p).siteState i == 0) 8 = 0 :=
        stIf_any_false (fun i hi => beq_false_of_ne (hall i hi)) 8
      exact congrArg Host.Outcome.next (guarded_begun h (firstOf_pair hpre' hok) (runSiteWait p) rfl rfl)
    · have hbad : stIf ((pktSites p).any fun i => (s.begun 0x44 p).siteState i == 0) 8 = 8 :=
        stIf_any_true (hex.imp fun i hi => ⟨hi.1, beq_iff_eq.mpr hi.2⟩) 8
      exact congrArg Host.Outcome.next (h.refused_pair hpre' hbad (by decide) (runSiteWait p) rfl)
  · exact congrArg Host.Outcome.next (guarded_begun h ((begun_precheck ..).trans hpre) (runDoorbell p) rfl rfl)
  · intro t h hpre
    have hpre' : (s.begun 0x46 p).precheck 0x46 p 4 (namedBits [(8, 0, 13)]) = 0 := (begun_precheck ..).trans hpre
    refine ⟨fun hk => ?_, fun hk => ?_⟩
    · have hok : stIf (pfld p 8 8 5 == 31) 3 = 0 := stIf_false (beq_false_of_ne hk) 3
      exact congrArg Host.Outcome.next (guarded_begun h (firstOf_pair hpre' hok) (runSiteSignal p) rfl rfl)
    · have hbad : stIf (pfld p 8 8 5 == 31) 3 = 3 := stIf_true (beq_iff_eq.mpr hk) 3
      exact congrArg Host.Outcome.next (h.refused_pair hpre' hbad (by decide) (runSiteSignal p) rfl)
  · exact (State.poll_ops hin hw hs).trans (State.pollOps_feeds hd hroom)
  · intro d
    have hpoll := State.poll_context hin hw hs
    exact ⟨fun ho => hpoll.trans (State.pollContext_waits hx ho), fun ho he => hpoll.trans (State.pollContext_done hx ho he),
      fun ho he hh => hpoll.trans (State.pollContext_failed hx ho he hh)⟩
  · exact (State.poll_ops hin hw hs).trans (State.pollOps_done hd hop)
  · have hlen' : taskCount ≤ pdlen p := hlen
    have hbuf : bufStatus p taskCount = 0 := stIf_false (by rw [hok, decide_eq_false (Nat.not_lt.mpr hlen')]; rfl) 3
    exact congrArg Host.Outcome.next (guarded_begun h (firstOf_pair ((begun_precheck ..).trans hpre) hbuf) (runTaskList p) rfl rfl)

end Sys2Proof.Machine
end

section

/-! SUPPORT. Lane, health, sync and control commands: the waits of groups 0x6 and 0x8, the snapshot, and what an ended command, a
removal preparation and a device reset leave (R422 to R425, R442, R458, R484). -/

namespace Sys2Proof.Machine

/- Waits (R422, R424) ----------------------------------------------------------------------------------------------------------------- -/

section
variable {s : State} {c : Cur}

theorem State.poll_train {mask failed : Nat} (hin : s.inprog = [c]) (hw : c.wait = .train mask failed) (hs : s.sleeping = false) :
    s.poll = if ((maskLanes mask).all fun n => decide (2 ≤ s.tstate n)) then
      s.complete c 0 ((failed + maskOf ((maskLanes mask).filter fun n => s.tstate n == 3)) % 2 ^ 32)
        ((failed + maskOf ((maskLanes mask).filter fun n => s.tstate n == 3)) / 2 ^ 32) else s := by
  rw [State.poll_bus hin hs (by rw [hw]; simp), State.pollBus, hw]

theorem State.poll_relock {gs refused codes : Nat} (hin : s.inprog = [c]) (hw : c.wait = .relock gs refused codes)
    (hs : s.sleeping = false) :
    s.poll = if ((List.range 8).filter fun g => gs / 2 ^ g % 2 == 1).all s.pgLocked then s.complete c 0 refused codes else s := by
  rw [State.poll_bus hin hs (by rw [hw]; simp), State.pollBus, hw]

/-- The groups of a mask of 8. -/
theorem mem_maskGroups {gs g : Nat} : g ∈ ((List.range 8).filter fun g => gs / 2 ^ g % 2 == 1) ↔ g < 8 ∧ gs.testBit g = true := by
  rw [List.mem_filter, List.mem_range, Nat.testBit_eq_decide_div_mod_eq, beq_iff_eq, decide_eq_true_iff]

end

/- The snapshot (R484) ------------------------------------------------------------------------------------------------------------------ -/

/-- Pieces of one length add up. -/
theorem length_flatMap_const {α β : Type} {l : List α} {f : α → List β} {n : Nat} (h : ∀ a, (f a).length = n) :
    (l.flatMap f).length = l.length * n := by
  rw [List.length_flatMap, List.map_congr_left (g := fun _ => n) fun a _ => h a, List.map_const', List.sum_replicate, smul_eq_mul]

theorem State.snapshot_length (s : State) : s.snapshot.length = 256 := by
  have hsens : ∀ v, (sensorBytes v).length = 2 := fun v => natLe_length 2 _
  unfold State.snapshot
  simp only [List.length_append, natLe_length, List.length_replicate,
    length_flatMap_const (fun t => hsens (s.rd (aHlt (0x100 + 4 * t)))),
    length_flatMap_const (fun t => hsens (s.rd (aHlt (0x200 + 4 * t)))),
    length_flatMap_const (fun r => natLe_length 2 (s.rf (aHlt (0x640 + 4 * r)) 0 16)),
    length_flatMap_const (fun i => natLe_length 2 (s.rf (aShf i 4) 0 9)), List.length_range]

/-- The snapshot is read from the registers; the core voltage rounds as it likes. -/
theorem State.snapshot_congr {s u : State} (hr : u.regs = s.regs) (hf : u.fresh = s.fresh) : u.snapshot = s.snapshot := by
  have hlock : u.locked = s.locked := funext fun e => State.bit_congr hr _ _
  have hbank : u.bankSpares = s.bankSpares := funext fun b => congrArg (32 - ·) (State.rf_congr hr _ _ _)
  have hother : u.otherSpares = s.otherSpares := funext fun i => by
    rw [State.otherSpares, State.otherSpares, State.rf_congr hr, State.rf_congr hr]
  have hvdd : u.vddCore = s.vddCore := by
    rw [State.vddCore, State.vddCore, State.rf_congr hr, State.free, State.free, hf]
  unfold State.snapshot
  simp only [State.lockupMap, State.hotDegrees, State.warm, State.critical, hlock, hbank, hother, hvdd,
    State.rd_congr hr, State.rf_congr hr, State.bit_congr hr]

/-- Taking a command leaves what the snapshot shows. -/
theorem State.begun_snapshot (s : State) (op : Nat) (p : Packet) : (s.begun op p).snapshot = s.snapshot :=
  State.snapshot_congr rfl rfl

/- A Sync word by the management controller (R288, R424) ---------------------------------------------------------------------------------- -/

theorem pfld_lt (p : Packet) (o b w : Nat) : pfld p o b w < 2 ^ w := Nat.mod_lt _ (Nat.two_pow_pos w)

/-- The fields of SYNC_TX with GO. -/
theorem syncTx_fields {code arg : Nat} (hc : code < 2 ^ 4) (ha : arg < 2 ^ 7) {v : W32}
    (hv : v = BitVec.ofNat 32 (code + arg * 2 ^ 8 + 2 ^ 31)) :
    v.getLsbD 31 = true ∧ field v 0 4 = code ∧ field v 8 7 = arg := by
  have hn : v.toNat = code + arg * 256 + 2147483648 := by
    rw [hv, BitVec.toNat_ofNat]
    exact Nat.mod_eq_of_lt (by omega)
  refine ⟨?_, ?_, ?_⟩
  · rw [BitVec.getLsbD, Nat.testBit_eq_decide_div_mod_eq, hn, decide_eq_true_iff]
    omega
  · rw [field, hn]
    omega
  · rw [field, hn]
    omega

/-- A leader's write of SYNC_TX through a bridge (R288). -/
theorem State.bridgeWrite_syncTx {s : State} (hl : s.rf (aSyn 0x100) 0 2 = 2) {code arg : Nat} (hcode : code = 1 ∨ code = 3)
    (ha : arg < 2 ^ 7) {v : W32} (hv : v = BitVec.ofNat 32 (code + arg * 2 ^ 8 + 2 ^ 31)) (g : Agent) :
    (s.bridgeWrite g (aSyn 0x104) v).syncOut = some (syncWordOf code arg) := by
  obtain ⟨hgo, hf0, hf8⟩ := syncTx_fields (by omega) ha hv
  obtain ⟨x, hx⟩ : ∃ x, x = s.busEnter (aSyn 0x104) (busInput g) (some (readMask (regFields (aSyn 0x104)) (s.regView (aSyn 0x104)))) :=
    ⟨_, rfl⟩
  have hxl : x.rf (aSyn 0x100) 0 2 = 2 := by
    rw [hx]
    exact hl
  have hlead : ¬ (x.rf (aSyn 0x100) 0 2 != 2) = true := by
    rw [hxl]
    decide
  have hunit : x.unitWrite g (aSyn 0x104) v = x.synWrite 0x104 v := rfl
  have heq : s.bridgeWrite g (aSyn 0x104) v = x.synWrite 0x104 v := by
    rw [State.bridgeWrite, ← hx, State.writeReg, if_neg (by decide), if_neg (by decide), hunit]
  rw [heq, State.synWrite, if_neg (by decide), if_pos rfl, if_neg hlead, if_pos hgo, hf0, hf8, State.syncSend, if_neg hlead,
    if_pos hcode]

/- What an ended command leaves (R395, R396, R425) ------------------------------------------------------------------------------------ -/

theorem aQ_ne_status (q : Nat) : (8 : Nat) ≠ aQ q 0x18 := by unfold aQ; omega

theorem State.wfB_queue_rdB (s : State) (q lo w x : Nat) : (s.wfB (aQ q 0x18) lo w x).rdB 8 = s.rdB 8 :=
  State.rdB_wrB_ne (aQ_ne_status q)

theorem State.qSettle_rdB (s : State) (q : Nat) : (s.qSettle q).rdB 8 = s.rdB 8 := by
  unfold State.qSettle
  split_ifs
  · exact s.wfB_queue_rdB ..
  · rfl

/-- An error of a queue leaves the commands in progress, and BAR0.STATUS. -/
theorem State.qError_keeps_list (s : State) (q e : Nat) :
    (s.qError q e).inprog.map (·.id) = s.inprog.map (·.id) ∧ (s.qError q e).rdB 8 = s.rdB 8 := by
  obtain ⟨x, hx⟩ : ∃ x, x = (s.wfB (aQ q 0x18) 1 1 1).wfB (aQ q 0x18) 4 4 e := ⟨_, rfl⟩
  have hxi : x.inprog = s.inprog := by rw [hx]; rfl
  have hxb : x.rdB 8 = s.rdB 8 := by rw [hx, State.wfB_queue_rdB, State.wfB_queue_rdB]
  obtain ⟨y, hy⟩ : ∃ y, y = { x.setB (aCmd 8) (if e ≤ 2 then 1 else 2) with inprog := killed q x.inprog } := ⟨_, rfl⟩
  have hyi : y.inprog = killed q x.inprog := by rw [hy]
  have hyb : y.bar0 = x.bar0 := by rw [hy]; rfl
  have heq : s.qError q e = y.qSettle q := by rw [hy, hx]; rfl
  rw [heq]
  refine ⟨?_, ?_⟩
  · rw [State.qSettle_frame]
    dsimp only
    rw [hyi, killed_map_id, hxi]
  · rw [State.qSettle_rdB, State.rdB_congr hyb, hxb]

/-- Whatever becomes of its completion, the command leaves those in progress, and BAR0.STATUS stays. -/
theorem State.complete_leaves (s : State) (c : Cur) (st r0 r1 : Nat) :
    (s.complete c st r0 r1).inprog.map (·.id) = (s.inprog.map (·.id)).filter (fun i => i != c.id) ∧
    (s.complete c st r0 r1).rdB 8 = s.rdB 8 := by
  obtain ⟨x, hx⟩ : ∃ x, x = s.ended c st := ⟨_, rfl⟩
  have hxf := s.ended_frame c st
  rw [← hx] at hxf
  have hxi : x.inprog.map (·.id) = (s.inprog.map (·.id)).filter (fun i => i != c.id) := by
    rw [hxf, List.filter_map]
    rfl
  have hxb : x.rdB 8 = s.rdB 8 := State.rdB_congr (by rw [hxf]) 8
  have hpost : (x.postCpl c st r0 r1).inprog.map (·.id) = x.inprog.map (·.id) ∧ (x.postCpl c st r0 r1).rdB 8 = x.rdB 8 := by
    cases hl : c.live with
    | false =>
      rw [State.postCpl_dead x hl]
      exact ⟨rfl, rfl⟩
    | true =>
      cases he : c.pkt.cplErr with
      | false =>
        rw [State.postCpl_good x hl he]
        exact ⟨rfl, State.rdB_congr rfl 8⟩
      | true =>
        have heq : x.postCpl c st r0 r1 = x.qError c.pkt.q.val 4 := by
          unfold State.postCpl
          dsimp only
          rw [hl, he]
          rfl
        rw [heq]
        exact x.qError_keeps_list _ 4
  rw [State.complete_eq, ← hx]
  refine ⟨?_, ?_⟩
  · rw [State.qSettle_frame]
    exact hpost.1.trans hxi
  · rw [State.qSettle_rdB, hpost.2, hxb]

/-- Several commands end: those of other numbers stay. -/
theorem State.completeAll_leaves (s : State) (f : Cur → Bool) (st r0 : Nat) :
    (∀ i ∈ (s.completeAll f st r0).inprog.map (·.id), ∃ x ∈ s.inprog, x.id = i ∧ ∀ y ∈ s.inprog, f y = true → y.id ≠ i) ∧
    (s.completeAll f st r0).rdB 8 = s.rdB 8 := by
  have hfold : ∀ (l : List Cur) (t : State), let u := l.foldl (fun t c => t.complete c st r0 0) t
      (∀ i ∈ u.inprog.map (·.id), i ∈ t.inprog.map (·.id) ∧ ∀ y ∈ l, y.id ≠ i) ∧ u.rdB 8 = t.rdB 8 := by
    intro l
    induction l with
    | nil => exact fun t => ⟨fun i hi => ⟨hi, fun y hy => absurd hy List.not_mem_nil⟩, rfl⟩
    | cons c l ih =>
      intro t
      obtain ⟨hlist, hbar⟩ := ih (t.complete c st r0 0)
      obtain ⟨hids, hst⟩ := t.complete_leaves c st r0 0
      refine ⟨fun i hi => ?_, hbar.trans hst⟩
      obtain ⟨hmem, hrest⟩ := hlist i hi
      rw [hids, List.mem_filter] at hmem
      refine ⟨hmem.1, fun y hy => ?_⟩
      rcases List.mem_cons.mp hy with heq | hy
      · exact heq ▸ (bne_iff_ne.mp hmem.2).symm
      · exact hrest y hy
  obtain ⟨hlist, hbar⟩ := hfold (s.inprog.filter f) s
  refine ⟨fun i hi => ?_, hbar⟩
  obtain ⟨hmem, hrest⟩ := hlist i hi
  obtain ⟨x, hx, hxi⟩ := List.mem_map.mp hmem
  exact ⟨x, hx, hxi, fun y hy hf => hrest y (List.mem_filter.mpr ⟨hy, hf⟩)⟩

/- History, removal and reset (R425, R442, R451, R458) --------------------------------------------------------------------------------- -/

/-- A history entry counts, and touches the NV store and the registers alone. -/
theorem State.writeHistory_frame (s : State) (kind : Nat) :
    let t := s.writeHistory kind
    t.nv.seq = s.nv.seq + 1 ∧ t.repairQ = s.repairQ ∧ t.bar0 = s.bar0 ∧ t.inprog = s.inprog ∧ t.mem = s.mem ∧ t.safe = s.safe :=
  ⟨rfl, rfl, rfl, rfl, rfl, rfl⟩

/-- The queued repair records are appended to the map, or lost, until none is queued. -/
theorem State.mapWrites_empty (q : List Repair) : ∀ s : State, s.repairQ = q →
    let t := s.times State.mapWrite q.length
    t.repairQ = [] ∧ t.nv.seq = s.nv.seq ∧ t.bar0 = s.bar0 := by
  induction q with
  | nil => exact fun s hq => ⟨hq, rfl, rfl⟩
  | cons r rest ih =>
    intro s hq
    have hone : s.mapWrite.repairQ = rest ∧ s.mapWrite.nv.seq = s.nv.seq ∧ s.mapWrite.bar0 = s.bar0 := by
      rcases Nat.lt_or_ge s.nv.repairs.length 4096 with hroom | hfull
      · rw [State.mapWrite_room hq hroom]
        exact ⟨rfl, rfl, rfl⟩
      · rw [State.mapWrite_full hq hfull]
        exact ⟨rfl, rfl, rfl⟩
    obtain ⟨hrest, hseq, hbar⟩ := hone
    obtain ⟨he, hs, hb⟩ := ih s.mapWrite hrest
    exact ⟨he, hs.trans hseq, hb.trans hbar⟩

/-- Steps 5 and 6 of R458. -/
theorem State.makeSafe_spec {s : State} (h : s.Inv) : s.makeSafe.safe = true ∧ s.makeSafe.bitB 8 1 = true ∧ s.makeSafe.repairQ = [] ∧
    s.makeSafe.nv.seq = s.nv.seq + 1 := by
  obtain ⟨t, ht⟩ : ∃ t, t = s.times State.mapWrite s.repairQ.length := ⟨_, rfl⟩
  obtain ⟨hq, hseq, hbar⟩ := State.mapWrites_empty s.repairQ s rfl
  rw [← ht] at hq hseq hbar
  obtain ⟨u, hu⟩ : ∃ u, u = t.writeHistory 2 := ⟨_, rfl⟩
  obtain ⟨huseq, huq, hubar, _⟩ := t.writeHistory_frame 2
  rw [← hu] at huseq huq hubar
  have heq : s.makeSafe = { u with safe := true }.wfB 8 1 1 1 := by rw [hu, ht]; rfl
  have hok : spOk bar0Reset ({ u with safe := true } : State).bar0 = true := by
    rw [show ({ u with safe := true } : State).bar0 = s.bar0 from hubar.trans hbar]
    exact h.bar0
  rw [heq]
  refine ⟨rfl, ?_, huq.trans hq, huseq.trans (congrArg (· + 1) hseq)⟩
  rw [State.bitB, State.rfB_wfB_self hok _ _ (by decide)]
  rfl

/-- A device reset that is accepted ends every command (R425, R442). -/
theorem State.resetAccepted_spec {s : State} (h : s.Inv) (c : Cur) : let t := s.resetAccepted c
    t.inprog = [] ∧ t.bitB 8 3 = true ∧ t.nv.seq = s.nv.seq + 1 ∧ t.mem = s.mem := by
  obtain ⟨x, hx⟩ : ∃ x, x = s.wfB 8 3 1 1 := ⟨_, rfl⟩
  have hxb : x.bitB 8 3 = true := by
    rw [hx, State.bitB, State.rfB_wfB_self h.bar0 _ _ (by decide)]
    rfl
  have hxs : x.nv = s.nv ∧ x.mem = s.mem := by
    rw [hx]
    exact ⟨rfl, rfl⟩
  obtain ⟨y, hy⟩ : ∃ y, y = x.completeAll (fun x => x.id != c.id) 0xA 0 := ⟨_, rfl⟩
  obtain ⟨hyi, hyb⟩ := x.completeAll_leaves (fun x => x.id != c.id) 0xA 0
  have hyf := (x.completeAll_completes (fun x => x.id != c.id) 0xA 0).frame
  rw [← hy] at hyi hyb hyf
  obtain ⟨z, hz⟩ : ∃ z, z = y.complete c 0 0 0 := ⟨_, rfl⟩
  obtain ⟨hzi, hzb⟩ := y.complete_leaves c 0 0 0
  have hzf := (y.complete_completes c 0 0 0).frame
  rw [← hz] at hzi hzb hzf
  obtain ⟨hseq, _, hbar, hin, hmem, _⟩ := z.writeHistory_frame 1
  have heq : s.resetAccepted c = z.writeHistory 1 := by rw [hz, hy, hx]; rfl
  dsimp only
  rw [heq]
  refine ⟨hin.trans (List.map_eq_nil_iff (f := fun d : Cur => d.id) |>.mp (List.eq_nil_iff_forall_not_mem.mpr fun i hi => ?_)), ?_, ?_, ?_⟩
  · rw [hzi, List.mem_filter] at hi
    obtain ⟨d, hd, hdi, hno⟩ := hyi i hi.1
    exact hno d hd (hdi ▸ hi.2) hdi
  · rw [State.bitB_congr hbar, State.bitB, State.rfB, hzb, hyb]
    exact hxb
  · have hnv : z.nv = s.nv := by rw [hzf, hyf]; exact hxs.1
    rw [hseq, hnv]
  · rw [hmem, hzf, hyf]
    exact hxs.2

end Sys2Proof.Machine
end

section

/-! Lane, health, sync and control commands: the statement (O56). -/

namespace Sys2Proof.Machine

section
variable {s : State} {p : Packet}

theorem bufStatus_ok {n : Nat} (hok : dataOk p dlenMax = true) (hn : n ≤ pdlen p) : bufStatus p n = 0 :=
  stIf_false (by rw [hok, decide_eq_false (Nat.not_lt.mpr hn)]; rfl) 3

/-- A command that passes its first check and runs unless the second fails. -/
theorem State.Starts.checked {op : Nat} {f : State → Cur → State} {st : Nat} {a : Nat} {b : Bool} {y : Nat} {u : State}
    (h : s.Starts op p) (hst : st ≠ 0) (ha : a = 0) (hb : stIf b st = y) (run : State → Cur → State)
    (hrun : run (s.begun op p) (s.curOf op p) = guarded (firstOf [a, y]) f (s.begun op p) (s.curOf op p))
    (hu : f (s.begun op p) (s.curOf op p) = u) :
    (b = false → s.hostCmd op p run = u.poll) ∧
    (b = true → s.hostCmd op p run = ((s.begun op p).complete (s.curOf op p) st 0 0).poll) :=
  ⟨fun hf => guarded_begun h (firstOf_pair ha (hb.symm.trans (stIf_false hf st))) run hrun hu,
    fun ht => h.refused_pair ha (hb.symm.trans (stIf_true ht st)) hst run hrun⟩

/-- The wait of LANE_TRAIN (R422). -/
theorem laneTrain_waits (s : State) (c : Cur) (mask failed : Nat) (hin : s.inprog = [c]) (hw : c.wait = .train mask failed)
    (hs : s.sleeping = false) : let f := failed + maskOf ((maskLanes mask).filter fun n => s.tstate n == 3)
    ((∀ n ∈ maskLanes mask, 2 ≤ s.tstate n) → s.poll = s.complete c 0 (f % 2 ^ 32) (f / 2 ^ 32)) ∧
    ((∃ n ∈ maskLanes mask, s.tstate n < 2) → s.poll = s) := by
  intro f
  have hpoll := State.poll_train hin hw hs
  refine ⟨fun hall => hpoll.trans (if_pos ?_), fun ⟨n, hn, hlt⟩ => hpoll.trans (if_neg fun hall => ?_)⟩
  · exact List.all_eq_true.mpr fun n hn => decide_eq_true (hall n hn)
  · exact absurd (of_decide_eq_true (List.all_eq_true.mp hall n hn)) (Nat.not_le.mpr hlt)

/-- LANE_CAL and LANE_EYE_SCAN (R422). -/
theorem laneCal_spec (s : State) (p : Packet) :
    let ls := maskLanes (pfld p 0x14 0 64)
    s.Starts 0x61 p → s.precheck 0x61 p 24 (namedBits (bufFields ++ [(0x14, 0, 64), (0x1C, 0, 2)])) = 0 →
    dataOk p dlenMax = true → 32 * ls.length ≤ pdlen p → exec (.laneCal p) s =
      .next ((ls.foldl (fun (t : State) n => t.calAction (pfld p 0x1C 0 2) n) (s.begun 0x61 p)).toBuffer (s.curOf 0x61 p)
        (ls.flatMap (s.begun 0x61 p).calBytes) 0 0).poll := by
  intro ls h hpre hok hlen
  exact congrArg Host.Outcome.next (guarded_begun
    (f := fun s c => (ls.foldl (fun (t : State) n => t.calAction (pfld p 0x1C 0 2) n) s).toBuffer c (ls.flatMap s.calBytes) 0 0)
    h (firstOf_pair ((begun_precheck ..).trans hpre) (bufStatus_ok hok hlen)) (runLaneCal p) rfl rfl)

theorem laneEyeScan_spec (h : s.Starts 0x62 p)
    (hpre : s.precheck 0x62 p 24
      (namedBits (bufFields ++ [(0x14, 0, 6), (0x14, 8, 2), (0x18, 0, 24), (0x1C, 0, 10), (0x1C, 12, 16)])) = 0)
    (hok : dataOk p dlenMax = true) (hlen : 4 * pfld p 0x18 16 8 * pfld p 0x1C 20 8 ≤ pdlen p) :
    (scanBad p = false → exec (.laneEyeScan p) s = .next (((s.begun 0x62 p).bridgeWrite .mgmt (aLn (pfld p 0x14 0 6) 0x80)
      (scanWord p 0)).setWait (s.curOf 0x62 p) (.scan 0 [])).poll) ∧
    (scanBad p = true → exec (.laneEyeScan p) s = .next ((s.begun 0x62 p).complete (s.curOf 0x62 p) 3 0 0).poll) := by
  have hpre' : (s.begun 0x62 p).precheck 0x62 p 24
      (namedBits (bufFields ++ [(0x14, 0, 6), (0x14, 8, 2), (0x18, 0, 24), (0x1C, 0, 10), (0x1C, 12, 16)])) = 0 :=
    (begun_precheck ..).trans hpre
  have hbuf := bufStatus_ok hok hlen
  refine ⟨fun hg => ?_, fun hb => ?_⟩
  · exact congrArg Host.Outcome.next (guarded_begun h (firstOf_triple hpre' hbuf (stIf_false hg 3)) (runLaneEyeScan p) rfl rfl)
  · have hf : firstOf [(s.begun 0x62 p).precheck 0x62 p 24
        (namedBits (bufFields ++ [(0x14, 0, 6), (0x14, 8, 2), (0x18, 0, 24), (0x1C, 0, 10), (0x1C, 12, 16)])),
        bufStatus p (4 * pfld p 0x18 16 8 * pfld p 0x1C 20 8), stIf (scanBad p) 3] = 3 := by
      rw [firstOf_cons_zero hpre', firstOf_cons_zero hbuf, firstOf_one, stIf_true hb]
    refine congrArg Host.Outcome.next ((h.hostCmd _).trans ?_)
    rw [runLaneEyeScan, hf, guarded_fails (by decide)]

/-- HEALTH_READ, STICKY_READ and SPARE_MAP_READ (R423). -/
theorem healthCommands_spec (s : State) (p : Packet) (hok : dataOk p dlenMax = true) :
    (s.Starts 0x70 p → s.precheck 0x70 p 12 (namedBits bufFields) = 0 → 256 ≤ pdlen p →
      s.snapshot.length = 256 ∧ exec (.healthRead p) s =
        .next ((s.begun 0x70 p).used.toBuffer (s.curOf 0x70 p) s.snapshot 0 0).poll) ∧
    (s.Starts 0x71 p → s.precheck 0x71 p 12 (namedBits bufFields) = 0 → exec (.stickyRead p) s =
      .next ((s.begun 0x71 p).toBuffer (s.curOf 0x71 p) (wholeRecords p s.stickyBytes) s.stickyRegs.length (s.rd 0x80).toNat).poll) ∧
    (s.Starts 0x73 p → s.precheck 0x73 p 12 (namedBits bufFields) = 0 → exec (.spareMapRead p) s =
      .next ((s.begun 0x73 p).toBuffer (s.curOf 0x73 p) (wholeRecords p (s.repairMap.flatMap Repair.bytes))
        s.repairMap.length 0).poll) := by
  have hdata : stIf (!dataOk p dlenMax) 3 = 0 := stIf_false (by rw [hok]; rfl) 3
  refine ⟨fun h hpre hlen => ⟨s.snapshot_length, ?_⟩, fun h hpre => ?_, fun h hpre => ?_⟩
  · exact congrArg Host.Outcome.next (guarded_begun (f := fun s c => s.used.toBuffer c s.snapshot 0 0) h
      (firstOf_pair ((begun_precheck ..).trans hpre) (bufStatus_ok hok hlen)) (runHealthRead p) rfl
      (congrArg (fun l => (s.begun 0x70 p).used.toBuffer (s.curOf 0x70 p) l 0 0) (s.begun_snapshot 0x70 p)))
  · exact congrArg Host.Outcome.next (guarded_begun h (firstOf_pair ((begun_precheck ..).trans hpre) hdata) (runStickyRead p) rfl rfl)
  · exact congrArg Host.Outcome.next (guarded_begun h (firstOf_pair ((begun_precheck ..).trans hpre) hdata) (runSpareMapRead p) rfl rfl)

/-- STICKY_CLEAR (R423). -/
theorem stickyClear_spec (s : State) (p : Packet) :
    let a := pfld p 8 0 32
    let b := s.begun 0x72 p
    s.Starts 0x72 p → s.precheck 0x72 p 8 (namedBits [(8, 0, 32), (0xC, 0, 32)]) = 0 →
    (a = 0xFFFFFFFF → exec (.stickyClear p) s = .next (b.clearSticky.complete (s.curOf 0x72 p) 0 0 0).poll) ∧
    (a < 2 ^ 31 → a % 4 = 0 → hasW1c a = true → exec (.stickyClear p) s =
      .next ((b.bridgeWrite .mgmt a (BitVec.ofNat 32 (pfld p 0xC 0 32))).complete (s.curOf 0x72 p) 0 0 0).poll) ∧
    (a ≠ 0xFFFFFFFF → a % 4 ≠ 0 ∨ hasW1c a = false → exec (.stickyClear p) s =
      .next (b.complete (s.curOf 0x72 p) 3 0 0).poll) := by
  intro a b h hpre
  have hpre' : b.precheck 0x72 p 8 (namedBits [(8, 0, 32), (0xC, 0, 32)]) = 0 := (begun_precheck ..).trans hpre
  have hexec : ∀ {u}, clearStatus a = 0 →
      (if a = allSticky then b.clearSticky else b.bridgeWrite .mgmt a (BitVec.ofNat 32 (pfld p 0xC 0 32))) = u →
      exec (.stickyClear p) s = .next (u.complete (s.curOf 0x72 p) 0 0 0).poll := fun hst hu =>
    congrArg Host.Outcome.next (guarded_begun
      (f := fun s c => (if a = allSticky then s.clearSticky else
        s.bridgeWrite .mgmt a (BitVec.ofNat 32 (pfld p 0xC 0 32))).complete c 0 0 0)
      h (firstOf_pair hpre' hst) (runStickyClear p) rfl (congrArg (fun u : State => u.complete (s.curOf 0x72 p) 0 0 0) hu))
  refine ⟨fun ha => hexec (if_pos ha) (if_pos ha), fun ha h4 hw => ?_, fun ha hbad => ?_⟩
  · have hne : a ≠ allSticky := by
      unfold allSticky
      omega
    refine hexec ((if_neg hne).trans (stIf_false ?_ 3)) (if_neg hne)
    rw [h4, hw]
    rfl
  · have hst : clearStatus a = 3 := by
      refine (if_neg ha).trans (stIf_true ?_ 3)
      rcases hbad with h4 | hw
      · rw [bne_iff_ne.mpr h4, Bool.true_or]
      · rw [hw]
        exact Bool.or_true _
    refine congrArg Host.Outcome.next (h.refused_pair
      (f := fun s c => (if a = allSticky then s.clearSticky else
        s.bridgeWrite .mgmt a (BitVec.ofNat 32 (pfld p 0xC 0 32))).complete c 0 0 0) hpre' hst (by decide) (runStickyClear p) rfl)

/-- SYNC_SEND (R424). -/
theorem syncSend_spec (h : s.Starts 0x81 p) (hpre : s.precheck 0x81 p 4 (namedBits [(8, 0, 4), (8, 8, 7)]) = 0)
    (hcode : pfld p 8 0 4 = 1 ∨ pfld p 8 0 4 = 3) :
    (s.rf (aSyn 0x100) 0 2 = 2 →
      let t := (s.begun 0x81 p).bridgeWrite .mgmt (aSyn 0x104) (BitVec.ofNat 32 (pfld p 8 0 4 + pfld p 8 8 7 * 2 ^ 8 + 2 ^ 31))
      exec (.syncSend p) s = .next (t.complete (s.curOf 0x81 p) 0 0 0).poll ∧
      t.syncOut = some (syncWordOf (pfld p 8 0 4) (pfld p 8 8 7))) ∧
    (s.rf (aSyn 0x100) 0 2 ≠ 2 → exec (.syncSend p) s =
      .next ((s.begun 0x81 p).complete (s.curOf 0x81 p) 0xF 0 0).poll) := by
  have hpre' : (s.begun 0x81 p).precheck 0x81 p 4 (namedBits [(8, 0, 4), (8, 8, 7)]) = 0 := (begun_precheck ..).trans hpre
  have hword : stIf (pfld p 8 0 4 != 1 && pfld p 8 0 4 != 3) 3 = 0 := by
    refine stIf_false ?_ 3
    rcases hcode with hc | hc <;> rw [hc] <;> rfl
  obtain ⟨v, hv⟩ : ∃ v, v = BitVec.ofNat 32 (pfld p 8 0 4 + pfld p 8 8 7 * 2 ^ 8 + 2 ^ 31) := ⟨_, rfl⟩
  rw [← hv]
  refine ⟨fun hl => ⟨?_, ?_⟩, fun hl => ?_⟩
  · have hlead : stIf ((s.begun 0x81 p).rf (aSyn 0x100) 0 2 != 2) 0xF = 0 := stIf_false (bne_eq_false_iff_eq.mpr hl) 0xF
    exact congrArg Host.Outcome.next (guarded_begun h (firstOf_triple hpre' hword hlead) (runSyncSend p) rfl
      (congrArg (fun v => ((s.begun 0x81 p).bridgeWrite .mgmt (aSyn 0x104) v).complete (s.curOf 0x81 p) 0 0 0) hv.symm))
  · exact State.bridgeWrite_syncTx (s := s.begun 0x81 p) hl hcode (pfld_lt p 8 8 7) hv .mgmt
  · have hlead : stIf ((s.begun 0x81 p).rf (aSyn 0x100) 0 2 != 2) 0xF = 0xF := stIf_true (bne_iff_ne.mpr hl) 0xF
    have hf : firstOf [(s.begun 0x81 p).precheck 0x81 p 4 (namedBits [(8, 0, 4), (8, 8, 7)]),
        stIf (pfld p 8 0 4 != 1 && pfld p 8 0 4 != 3) 3, stIf ((s.begun 0x81 p).rf (aSyn 0x100) 0 2 != 2) 0xF] = 0xF := by
      rw [firstOf_cons_zero hpre', firstOf_cons_zero hword, firstOf_one, hlead]
    refine congrArg Host.Outcome.next ((h.hostCmd _).trans ?_)
    rw [runSyncSend, hf, guarded_fails (by decide)]

/-- The wait of PG_RELOCK (R424). -/
theorem pgRelock_waits (s : State) (c : Cur) (gs refused codes : Nat) (hin : s.inprog = [c]) (hw : c.wait = .relock gs refused codes)
    (hs : s.sleeping = false) :
    ((∀ g < 8, gs.testBit g = true → s.pgLocked g = true) → s.poll = s.complete c 0 refused codes) ∧
    ((∃ g < 8, gs.testBit g = true ∧ s.pgLocked g = false) → s.poll = s) := by
  have hpoll := State.poll_relock hin hw hs
  refine ⟨fun hall => hpoll.trans (if_pos ?_), fun ⟨g, hg, hbit, hno⟩ => hpoll.trans (if_neg fun hall => ?_)⟩
  · exact List.all_eq_true.mpr fun g hg => hall g (mem_maskGroups.mp hg).1 (mem_maskGroups.mp hg).2
  · exact Bool.false_ne_true (hno.symm.trans (List.all_eq_true.mp hall g (mem_maskGroups.mpr ⟨hg, hbit⟩)))

/-- The end of a reset's delay (R442). -/
theorem resetDelayEnd_spec (s : State) :
    (s.bitB 8 3 = true → s.inprog = [] → s.power ≠ .off → exec .resetDelayEnd s = .next (s.fullReset 2 true)) ∧
    (s.bitB 8 3 = false → exec .resetDelayEnd s = .next s) := by
  refine ⟨fun hb hin hp => congrArg Host.Outcome.next ?_, fun hb => congrArg Host.Outcome.next (if_neg ?_)⟩
  · refine (if_pos ?_).trans (if_neg hp)
    rw [hb, hin]
    rfl
  · rw [hb, Bool.false_and]
    exact Bool.false_ne_true

end

/-- Settles O56: each command that starts is a case split on its checks, each wait one on what it waits for; what removal and reset
leave follows from the list of commands and the repair queue that they work off. -/
theorem laneAndControlCommands : Obligations.LaneAndControlCommands := by
  unfold Obligations.LaneAndControlCommands
  refine ⟨fun s p h hpre => ?_, laneTrain_waits, laneCal_spec, fun s p h hpre hok hlen => laneEyeScan_spec h hpre hok hlen,
    fun s p h hpre => ?_, healthCommands_spec, stickyClear_spec, fun s p h hpre => ?_,
    fun s p h hpre hcode => syncSend_spec h hpre hcode, fun s p h hpre => ?_, pgRelock_waits, fun s p h hpre => ?_,
    fun s h => State.makeSafe_spec h, fun s p h hpre => ?_, fun s c h hc => State.resetAccepted_spec h c, resetDelayEnd_spec,
    fun s p h hpre => ?_⟩
  · intro r
    exact congrArg Host.Outcome.next (guarded_begun
      (f := fun s c =>
        let r := s.trainAll p (maskLanes (pfld p 8 0 64))
        r.1.setWait c (.train (maskOf r.2.1) (maskOf r.2.2)))
      h ((begun_precheck ..).trans hpre) (runLaneTrain p) rfl rfl)
  · exact congrArg Host.Outcome.next (guarded_begun h ((begun_precheck ..).trans hpre) (runLanePrbs p) rfl rfl)
  · exact next_and (h.checked (b := s.siteActive) (by decide) ((begun_precheck ..).trans hpre) rfl (runSyncConfig p) rfl rfl)
  · intro s1 r
    exact next_and (h.checked (b := s.siteActive)
      (f := fun s c =>
        let s1 := s.bridgeWrite .mgmt (aSyn 0) (BitVec.ofNat 32 (pfld p 0x10 0 20))
        let r := s1.relockAll (BitVec.ofNat 32 (pfld p 0xC 0 32)) (pktGroups p)
        r.1.setWait c (.relock (maskOf r.2.1) (maskOf (r.2.2.map (·.1))) ((r.2.2.map fun q => q.2 * 2 ^ (4 * q.1)).foldl (· + ·) 0)))
      (by decide) ((begun_precheck ..).trans hpre) rfl (runPgRelock p) rfl rfl)
  · exact congrArg Host.Outcome.next (guarded_begun h ((begun_precheck ..).trans hpre) (runPrepareRemoval p) rfl rfl)
  · refine (next_and (h.checked (b := pfld p 8 0 32 == 0 || decide (1000 < pfld p 8 0 32)) (by decide) ((begun_precheck ..).trans hpre)
      rfl (runDeviceReset p) rfl rfl)).imp (fun hok h1 h2 => hok ?_) fun hbad hout => hbad ?_
    · rw [beq_false_of_ne (by omega), decide_eq_false (by omega)]
      rfl
    · rcases hout with h0 | h1
      · rw [h0]
        rfl
      · rw [decide_eq_true h1, Bool.or_true]
  · refine (next_and (h.checked (b := !s.bitB 8 1) (by decide) ((begun_precheck ..).trans hpre) rfl (runResume p) rfl rfl)).imp
      (fun hok hb => hok ?_) fun hbad hb => hbad ?_
    · rw [hb]
      rfl
    · rw [hb]
      rfl

end Sys2Proof.Machine
end

section

/-! SMBus answers and AVSBus requests (O57). -/

namespace Sys2Proof.Machine

section
variable {s : State}

/- SMBus (R426 to R428) --------------------------------------------------------------------------------------------------------------- -/

theorem State.smbIdentity_length (s : State) : s.smbIdentity.length = 32 := by
  simp only [State.smbIdentity, List.length_append, natLe_length,
    length_flatMap_const (fun i => natLe_length 4 (s.rd (0x10 + 4 * i)).toNat), List.length_range]

theorem State.smbHealth_length (s : State) : s.smbHealth.length = 16 := by
  simp only [State.smbHealth, List.length_append, natLe_length]

theorem State.smbServe_off (h : s.power = .off) (ok : Bool) (code : Nat) (data : List Byte) : s.smbServe ok code data = s := if_pos h

theorem State.smbServe_bad (h : s.power ≠ .off) (code : Nat) (data : List Byte) :
    s.smbServe false code data = { s.setB (aCmd 8) 4 with smbOut := [] } := by
  unfold State.smbServe
  rw [if_neg h]
  rfl

theorem State.smbServe_good (h : s.power ≠ .off) (code : Nat) (data : List Byte) :
    s.smbServe true code data = { s with smbOut := data ++ [pec ([BitVec.ofNat 8 (2 * s.smbAddr), BitVec.ofNat 8 code,
      BitVec.ofNat 8 (2 * s.smbAddr + 1)] ++ data)] } := by
  unfold State.smbServe
  rw [if_neg h]
  rfl

/-- A block that the firmware serves leads with its length. -/
theorem State.smbBlock_eq {l : List Byte} {n : Nat} (h : l.length = n) :
    s.smbBlock l = if s.power = .up then BitVec.ofNat 8 n :: l else [0] := by
  rw [State.smbBlock, h]
  rfl

/-- The bits of the status byte. -/
theorem State.smbStatusByte_spec (s : State) :
    s.smbStatusByte < 128 ∧ (s.smbStatusByte % 2 = 1 ↔ s.bitB 8 0 = true) ∧ (s.smbStatusByte / 64 % 2 = 1 ↔ s.safe = true) := by
  have h1 := Bool.toNat_le (s.bit (aCmd 0) 8)
  have h2 := Bool.toNat_le (s.bitB 8 2)
  have h3 := Bool.toNat_le (s.bit 0x90 0)
  have h4 := Bool.toNat_le (s.bit 0x90 1)
  have h5 := Bool.toNat_le (s.bitB 8 1)
  have h0 := Bool.toNat_le (s.bitB 8 0)
  have h6 := Bool.toNat_le s.safe
  have hone : ∀ b : Bool, b.toNat = 1 ↔ b = true := fun b => Bool.toNat_eq_one
  rw [← hone (s.bitB 8 0), ← hone s.safe, State.smbStatusByte]
  omega

/-- The Alert Response Address (R428). -/
theorem State.alertAnswer_spec (s : State) :
    (s.power = .off ∨ s.bit 0x90 1 = false → exec .alertResponse s = .next { s with smbOut := [] }) ∧
    (s.power ≠ .off → s.bit 0x90 1 = true → Runs .alertResponse s fun s' => ∃ d e : Byte, s'.smbOut = [d, e] ∧
      d.toNat / 2 = s.smbAddr ∧ s' = { s with smbOut := s'.smbOut, fresh := s.fresh + 1 }) := by
  refine ⟨fun h => congrArg Host.Outcome.next (if_pos h), fun hp hb => ?_⟩
  have hno : ¬ (s.power = .off ∨ s.bit 0x90 1 = false) := not_or.mpr ⟨hp, fun hf => Bool.false_ne_true (hf.symm.trans hb)⟩
  refine ⟨_, congrArg Host.Outcome.next (if_neg hno), _, _, rfl, ?_, rfl⟩
  have hstrap := s.straps.isLt
  have haddr : s.smbAddr = 0x58 + s.straps.toNat := rfl
  rw [BitVec.toNat_ofNat, Nat.mod_eq_of_lt (by omega)]
  omega

/- AVSBus requests (R429 to R431) ------------------------------------------------------------------------------------------------------ -/

theorem State.avsSend_spec (s : State) (k : AvsKind) : let t := s.avsSend k
    t.avsOut.head? = some ⟨s.rf (aCmd 0x14) 0 4, s.rf (aCmd 0x14) 8 8, k⟩ ∧ t.avsOut.length ≤ 4 ∧ t = { s with avsOut := t.avsOut } :=
  ⟨rfl, List.length_take_le _ _, rfl⟩

theorem State.avsAlert_spec (s : State) (r : AvsResp) : (r.alert = none → s.avsAlert r = s) ∧
    let t := (s.avsSend .readStatus).setB (aCmd 8) 5
    (∀ d, r.alert = some (some d) → s.avsAlert r = t.wf (aCmd 0x18) 0 16 d.toNat) ∧
    (r.alert = some none → s.avsAlert r = { t with avs := { t.avs with status := some 0 } }) := by
  unfold State.avsAlert
  exact ⟨fun h => by rw [h], fun d h => by rw [h], fun h => by rw [h]⟩

/-- A Write that is taken, that waits to be sent again, or that was sent again 3 times. -/
theorem State.avsWrite_spec (s : State) (mv n : Nat) (r : AvsResp) : let t := (s.avsSend (.write mv)).avsAlert r
    (r.taken = true → s.avsWrite mv n r = { (t.wf (aCmd 0x10) 0 16 mv).wf (aHlt 0x604) 28 4 ((mv - 900) / 5) with
      avs := { t.avs with write := none, read := some (mv, none) } }) ∧
    (r.taken = false → n < 3 → s.avsWrite mv n r = { t with avs := { t.avs with write := some (mv, n) } }) ∧
    (r.taken = false → 3 ≤ n → s.avsWrite mv n r = { t.setB (aCmd 8) 3 with
      avs := { t.avs with goal := none, write := none, read := none, status := none, stopped := true } }) := by
  refine ⟨fun h => if_pos h, fun h hn => ?_, fun h hn => ?_⟩
  · exact (if_neg (h ▸ Bool.false_ne_true)).trans (if_pos hn)
  · exact (if_neg (h ▸ Bool.false_ne_true)).trans (if_neg (Nat.not_lt.mpr hn))

/-- A read-back within 10 mV, and one farther away. -/
theorem State.avsRead_spec (s : State) (mv got : Nat) :
    let t := s.wf (aCmd 0x10) 16 16 got
    (got ≤ mv + 10 → mv ≤ got + 10 → s.avsRead mv got = { t with avs := { s.avs with read := none } }) ∧
    (mv + 10 < got ∨ got + 10 < mv → (s.avsRead mv got).avs.stopped = true) := by
  obtain ⟨t, ht⟩ : ∃ t, t = s.wf (aCmd 0x10) 16 16 got := ⟨_, rfl⟩
  have hta : t.avs = s.avs := by rw [ht, State.wf_frame]
  have heq : s.avsRead mv got = if 10 < max mv got - min mv got then { t with avs := { s.avs with read := none } }.avsFail
      else { t with avs := { s.avs with read := none } } := by
    rw [State.avsRead, ← ht, hta]
  dsimp only
  rw [← ht, heq]
  refine ⟨fun hlo hhi => if_neg (by omega), fun hfar => ?_⟩
  rw [if_pos (by omega)]
  rfl

theorem State.avsStep_spec (s : State) (next : AvsResp) :
    (s.avs.goal = none ∨ s.avs.stopped = true → s.avsStep next = s) ∧
    (∀ g, s.avs.goal = some g → s.avs.stopped = false →
      (s.stepNow < g → s.avsStep next = s.avsWrite (900 + 5 * (s.stepNow + 1)) 0 next) ∧
      (g < s.stepNow → s.avsStep next = s.avsWrite (900 + 5 * (s.stepNow - 1)) 0 next) ∧
      (g = s.stepNow → s.avsStep next = { s with avs := { s.avs with goal := none } })) := by
  have hgoal : ∀ g, s.avs.goal = some g → s.avs.stopped = false → s.avsStep next =
      if s.stepNow < g then s.avsWrite (900 + 5 * (s.stepNow + 1)) 0 next
      else if g < s.stepNow then s.avsWrite (900 + 5 * (s.stepNow - 1)) 0 next
      else { s with avs := { s.avs with goal := none } } := by
    intro g hg hs
    unfold State.avsStep
    rw [hg]
    exact if_neg (hs ▸ Bool.false_ne_true)
  refine ⟨fun h => ?_, fun g hg hs => ⟨fun hlt => ?_, fun hlt => ?_, fun heq => ?_⟩⟩
  · unfold State.avsStep
    cases hg : s.avs.goal with
    | none => rfl
    | some g => exact if_pos (h.resolve_left (by rw [hg]; exact Option.some_ne_none g))
  · rw [hgoal g hg hs, if_pos hlt]
  · rw [hgoal g hg hs, if_neg (Nat.lt_asymm hlt), if_pos hlt]
  · rw [hgoal g hg hs, if_neg (by omega), if_neg (by omega)]

/-- The read-back of a Write that was taken. -/
theorem State.avsReadback_first {mv : Nat} (h : s.avs.read = some (mv, none)) (r next : AvsResp) :
    s.avsReadback r next = if r.taken then (((s.avsSend .readVoltage).avsAlert r).avsRead mv r.mv.toNat).avsStep next
      else { (s.avsSend .readVoltage).avsAlert r with
        avs := { ((s.avsSend .readVoltage).avsAlert r).avs with read := some (mv, some 0) } } := by
  unfold State.avsReadback
  rw [h]

theorem State.avsReadback_again {mv n : Nat} (h : s.avs.read = some (mv, some n)) (r next : AvsResp) :
    s.avsReadback r next = s := by
  unfold State.avsReadback
  rw [h]

theorem State.avsReadback_none (h : s.avs.read = none) (r next : AvsResp) :
    s.avsReadback r next = if s.avs.write.isNone then s.avsStep next else s := by
  unfold State.avsReadback
  rw [h]

theorem State.avsRetry_status {n : Nat} (h : s.avs.status = some n) (r : AvsResp) : s.avsRetry r = s.statusRetry n r := by
  unfold State.avsRetry
  rw [h]

theorem State.avsRetry_request (h : s.avs.status = none) (r : AvsResp) : s.avsRetry r = s.requestRetry r := by
  unfold State.avsRetry
  rw [h]

theorem State.requestRetry_write {mv n : Nat} (h : s.avs.write = some (mv, n)) (r : AvsResp) :
    s.requestRetry r = s.avsWrite mv (n + 1) r := by
  unfold State.requestRetry
  rw [h]

theorem State.requestRetry_read {mv n : Nat} (hw : s.avs.write = none) (h : s.avs.read = some (mv, some n)) (r : AvsResp) :
    s.requestRetry r = if r.taken then ((s.avsSend .readVoltage).avsAlert r).avsRead mv r.mv.toNat
      else if n < 2 then { (s.avsSend .readVoltage).avsAlert r with
        avs := { ((s.avsSend .readVoltage).avsAlert r).avs with read := some (mv, some (n + 1)) } }
      else ((s.avsSend .readVoltage).avsAlert r).avsFail := by
  unfold State.requestRetry
  rw [hw]
  dsimp only
  rw [h]

theorem State.requestRetry_none (hw : s.avs.write = none) (h : ∀ mv n, s.avs.read ≠ some (mv, some n)) (r : AvsResp) :
    s.requestRetry r = s := by
  unfold State.requestRetry
  rw [hw]
  dsimp only
  split
  · next mv n hr => exact absurd hr (h mv n)
  · rfl

end

/-- Settles O57: each answer and each request is a case split on what it finds: the power, the PEC, the state of the request. -/
theorem voltageAndSmbus : Obligations.VoltageAndSmbus := by
  unfold Obligations.VoltageAndSmbus
  refine ⟨fun s code data => ⟨fun h ok => State.smbServe_off h ok code data,
      fun h => ⟨State.smbServe_bad h code data, State.smbServe_good h code data⟩⟩, fun s ok => ?_, fun s => s.alertAnswer_spec,
    fun s k => s.avsSend_spec k, fun s r => s.avsAlert_spec r, fun s mv n r => s.avsWrite_spec mv n r, fun s mv got => s.avsRead_spec mv got,
    fun s r next mv h => ?_, fun s r next => ⟨fun mv n h => ?_, fun h hw => ?_, fun x h hw => ?_⟩, fun s next => s.avsStep_spec next,
    fun s r n h => ?_, fun s r mv n h => ?_, fun s r h hw hr => ?_⟩
  · obtain ⟨hlt, hready, hsafe⟩ := s.smbStatusByte_spec
    exact ⟨rfl, congrArg (fun l => Host.Outcome.next (s.smbServe ok 1 l)) (State.smbBlock_eq s.smbIdentity_length), rfl,
      s.smbIdentity_length, congrArg (fun l => Host.Outcome.next (s.smbServe ok 2 l).used) (State.smbBlock_eq s.smbHealth_length),
      s.smbHealth_length, hlt, hready, hsafe⟩
  · have hfirst := State.avsReadback_first h r next
    exact ⟨fun ht => congrArg Host.Outcome.next (hfirst.trans (if_pos ht)),
      fun ht => congrArg Host.Outcome.next (hfirst.trans (if_neg (ht ▸ Bool.false_ne_true)))⟩
  · exact congrArg Host.Outcome.next (State.avsReadback_again h r next)
  · exact congrArg Host.Outcome.next ((State.avsReadback_none h r next).trans (if_pos (by rw [hw]; rfl)))
  · exact congrArg Host.Outcome.next ((State.avsReadback_none h r next).trans (if_neg (by rw [hw]; exact Bool.false_ne_true)))
  · have hretry := State.avsRetry_status h r
    refine ⟨fun ht => congrArg Host.Outcome.next (hretry.trans (if_pos ht)), fun ht hn => congrArg Host.Outcome.next (hretry.trans ?_),
      fun ht hn => congrArg Host.Outcome.next (hretry.trans ?_)⟩
    · exact (if_neg (ht ▸ Bool.false_ne_true)).trans (if_pos hn)
    · exact (if_neg (ht ▸ Bool.false_ne_true)).trans (if_neg (Nat.not_lt.mpr hn))
  · have hretry := State.avsRetry_request h r
    refine ⟨fun hw => congrArg Host.Outcome.next (hretry.trans (State.requestRetry_write hw r)), fun hw hr => ?_⟩
    have hread := hretry.trans (State.requestRetry_read hw hr r)
    refine ⟨fun ht => congrArg Host.Outcome.next (hread.trans (if_pos ht)), fun ht hn => congrArg Host.Outcome.next (hread.trans ?_),
      fun ht hn => congrArg Host.Outcome.next (hread.trans ?_)⟩
    · exact (if_neg (ht ▸ Bool.false_ne_true)).trans (if_pos hn)
    · exact (if_neg (ht ▸ Bool.false_ne_true)).trans (if_neg (Nat.not_lt.mpr hn))
  · exact congrArg Host.Outcome.next ((State.avsRetry_request h r).trans (State.requestRetry_none hw hr r))

end Sys2Proof.Machine
end

section

/-! SUPPORT. Power, resets, start and modes: what a reset keeps, what the start reads, what refuses sleep, and the copy of a history
entry (R432 to R456). -/

namespace Sys2Proof.Machine

/- Folds of register writes --------------------------------------------------------------------------------------------------------------- -/

section
variable {l : List Nat} {g : Nat → Nat} {v : Nat → W32}

/-- Writes of other registers leave a register. -/
theorem foldl_wr_ne {b : Nat} (h : ∀ i ∈ l, b ≠ g i) (s : State) : (l.foldl (fun t i => t.wr (g i) (v i)) s).rd b = s.rd b := by
  induction l generalizing s with
  | nil => rfl
  | cons i l ih =>
    exact (ih (fun j hj => h j (List.mem_cons_of_mem _ hj)) _).trans (State.rd_wr_ne (h i List.mem_cons_self))

/-- Of registers that are written in turn each holds what was written to it. -/
theorem foldl_wr_self (hn : l.Nodup) (hg : ∀ i ∈ l, ∀ j ∈ l, i ≠ j → g i ≠ g j) {i : Nat} (hi : i ∈ l) {s : State} (h : s.Inv) :
    (l.foldl (fun t i => t.wr (g i) (v i)) s).rd (g i) = v i := by
  refine foldl_of_mem (f := fun (t : State) i => t.wr (g i) (v i)) (key := id) (x := i) (I := State.Inv) (Q := fun t => t.rd (g i) = v i)
    (fun t j ht => ht.wr _ _) (fun t ht => State.rd_wr_self ht.regs _ _) l (fun t j hj hne ht => ?_) (by rwa [List.map_id]) hi h
  exact (State.rd_wr_ne (hg i hi j hj (Ne.symm hne))).trans ht

theorem foldl_wr_frame (s : State) : ∃ r, l.foldl (fun t i => t.wr (g i) (v i)) s = { s with regs := r } :=
  foldl_regs (fun _ _ => ⟨_, rfl⟩) l s

end

/- Resets (R432, R439 to R441) --------------------------------------------------------------------------------------------------------- -/

section
variable {s : State}

/-- The record of a reset. -/
theorem resetCause_field {cause : Nat} (hc : cause < 4) {b : Bool} {v : W32}
    (hv : v = BitVec.ofNat 32 (cause % 4 + b.toNat * 2 ^ 4 + 3 * 2 ^ 12)) : field v 0 2 = cause := by
  have hb := Bool.toNat_le b
  have hn : v.toNat = cause + b.toNat * 16 + 12288 := by
    rw [hv, BitVec.toNat_ofNat, Nat.mod_eq_of_lt hc]
    exact Nat.mod_eq_of_lt (by omega)
  rw [field, hn]
  omega

/-- What a full reset keeps, and what it clears. -/
theorem State.fullReset_spec {cause : Nat} (hc : cause < 4) (hist : Bool) : let t := s.fullReset cause hist
    t.nv = s.nv ∧ t.nvOld = s.nvOld ∧ t.perst = s.perst ∧ t.straps = s.straps ∧ t.flash = s.flash ∧ t.pending = s.pending ∧ t.ths = [] ∧
    t.tasks = [] ∧ t.inprog = [] ∧ t.power = .entry ∧ t.bitB 8 0 = false ∧ t.rf 0x60 0 2 = cause ∧
    (∀ a, a ≠ 0x60 → t.rd a = regReset a) ∧
    (∀ a, inDram a = true → t.byte a = (if cause = 0 then memUnwritten a else s.dramKept.byte a)) ∧
    (∀ a, inDram a = false → t.byte a = memUnwritten a) := by
  obtain ⟨v, hv⟩ : ∃ v, v = BitVec.ofNat 32 (cause % 4 + hist.toNat * 2 ^ 4 + 3 * 2 ^ 12) := ⟨_, rfl⟩
  obtain ⟨x, hx⟩ : ∃ x, x = { State.reset with
    pending := s.pending, fresh := s.fresh, nv := s.nv, nvOld := s.nvOld, flash := s.flash, hostMem := s.hostMem, msixSent := s.msixSent
    perst := s.perst, straps := s.straps
    mem := if (cause != 0) then s.dramKept.mem.filter fun p => inDram p.1 else []
    poisoned := if (cause != 0) then s.dramKept.poisoned else [] } := ⟨_, rfl⟩
  have hxr : x.regs = [] := by rw [hx]; rfl
  have hxm : ∀ a, x.byte a = if cause = 0 then memUnwritten a else if inDram a then s.dramKept.byte a else memUnwritten a := by
    intro a
    rw [State.byte, hx]
    dsimp only
    split_ifs with hkeep h0 hin h0
    · exact absurd h0 (bne_iff_ne.mp hkeep)
    · exact (spGet_filter memUnwritten inDram _ a).trans (if_pos hin)
    · exact (spGet_filter memUnwritten inDram _ a).trans (if_neg hin)
    · rfl
    · exact absurd (bne_iff_ne.mpr h0) hkeep
    · exact absurd (bne_iff_ne.mpr h0) hkeep
  have heq : s.fullReset cause hist = x.wr 0x60 v := by rw [hx, hv]; rfl
  have hkept : x.nv = s.nv ∧ x.nvOld = s.nvOld ∧ x.perst = s.perst ∧ x.straps = s.straps ∧ x.flash = s.flash ∧ x.pending = s.pending ∧
      x.ths = [] ∧ x.tasks = [] ∧ x.inprog = [] ∧ x.power = .entry := by
    rw [hx]
    exact ⟨rfl, rfl, rfl, rfl, rfl, rfl, rfl, rfl, rfl, rfl⟩
  have hbar : x.bar0 = [] := by rw [hx]; rfl
  obtain ⟨hnv, hold, hperst, hstraps, hflash, hpend, hths, htasks, hin, hpow⟩ := hkept
  dsimp only
  rw [heq]
  refine ⟨hnv, hold, hperst, hstraps, hflash, hpend, hths, htasks, hin, hpow, ?_, ?_, fun a ha => ?_, fun a ha => ?_, fun a ha => ?_⟩
  · have hready : State.reset.bitB 8 0 = false := by decide
    exact (State.bitB_congr (s := State.reset) hbar 8 0).trans hready
  · rw [State.rf, State.rd_wr_self (by rw [hxr]; rfl)]
    exact resetCause_field hc hv
  · rw [State.rd_wr_ne ha, State.rd, hxr]
    rfl
  · rw [show (x.wr 0x60 v).byte a = x.byte a from rfl, hxm, if_pos ha]
  · rw [show (x.wr 0x60 v).byte a = x.byte a from rfl, hxm]
    split_ifs with h0 hin
    · rfl
    · exact absurd (ha.symm.trans hin) Bool.false_ne_true
    · rfl

/-- The writes that a controller has acknowledged (R362, R440). -/
theorem State.dramKept_none (h : s.dramq = []) : s.dramKept = s := by
  rw [State.dramKept, h]
  rfl

theorem State.dramKept_read {k : Nat} {y : Txn} (h : s.dramq = [(k, y)]) (hd : y.data = none) : s.dramKept = s := by
  rw [State.dramKept, h, List.foldl_cons, List.foldl_nil, hd]

theorem State.dramKept_write {k o : Nat} {y : Txn} {l : List Byte} (h : s.dramq = [(k, y)]) (hd : y.data = some l)
    (ha : y.addr = 0x1000000000 + o) (hz : y.size = 32) : s.dramKept = (s.setDram o l).setPoison (s.burstOf o) false := by
  rw [State.dramKept, h, List.foldl_cons, List.foldl_nil, hd]
  dsimp only
  rw [ha, hz, Nat.add_sub_cancel_left, State.dramDo_whole]

/- The start (R435, R438, R449) ---------------------------------------------------------------------------------------------------------- -/

theorem State.startUp_spec (s : State) (o : BootObs) :
    (s.power ≠ .entry → exec (.startSequence o) s = .next s) ∧
    (s.power = .entry → o.firmwareOk = false → exec (.startSequence o) s = .next { s with power := .dead }.hardFault) ∧
    (s.power = .entry → o.firmwareOk = true → exec (.startSequence o) s =
      .next ((((((({ s with power := .up }.wf (aCmd 0x1C) 0 7 (0x58 + s.straps.toNat)).cutOff o).loadRecords o).firstRequest
        o).hardRepair o.worn).bootImage).wfB 8 0 1 1)) := by
  refine ⟨fun h => congrArg Host.Outcome.next (if_pos h), fun h hf => congrArg Host.Outcome.next ?_,
    fun h hf => congrArg Host.Outcome.next ?_⟩
  · exact (if_neg (not_not_intro h)).trans (if_pos (by rw [hf]; rfl))
  · exact (if_neg (not_not_intro h)).trans (if_neg (by rw [hf]; exact Bool.false_ne_true))

/-- What a power loss cut off (R449, R451). -/
theorem State.cutOff_spec (s : State) (o : BootObs) : (s.rf 0x60 0 4 ≠ 0 → s.cutOff o = s) ∧
    (s.rf 0x60 0 4 = 0 →
      (∀ (k : Fin 2) (i : Nat), i < imgMax → (s.cutOff o).programmed k.val i =
        if o.cutErase.any (fun c => c.1 == k && decide (i < c.2.toNat)) then none else s.programmed k.val i) ∧
      (o.cutEntry = none → (s.cutOff o).nv = s.nv) ∧
      (∀ n e l, o.cutEntry = some n → s.nv.hist = e :: l → (s.cutOff o).nv = { s.nv with hist := e.take n.toNat :: l })) := by
  refine ⟨fun h => if_pos h, fun h => ?_⟩
  have hno : ¬ s.rf 0x60 0 4 ≠ 0 := not_not_intro h
  have hflash : (s.cutOff o).flash = s.flash.filter fun p =>
      !(o.cutErase.any fun c => p.1 / imgMax == c.1.val && decide (p.1 % imgMax < c.2.toNat)) := by
    unfold State.cutOff
    rw [if_neg hno]
    split <;> rfl
  refine ⟨fun k i hi => ?_, fun hc => ?_, fun n e l hc hl => ?_⟩
  · have hdiv : flashKey k.val i / imgMax = k.val := by
      rw [flashKey, Nat.mul_add_div (by decide), Nat.div_eq_of_lt hi, Nat.add_zero]
    have hmod : flashKey k.val i % imgMax = i := by
      rw [flashKey, Nat.mul_add_mod, Nat.mod_eq_of_lt hi]
    have hsame : ∀ c : Fin 2 × BitVec 27, (k.val == c.1.val) = (c.1 == k) := fun c =>
      Bool.eq_iff_iff.mpr (by rw [beq_iff_eq, beq_iff_eq, eq_comm, Fin.val_inj])
    rw [State.programmed, hflash]
    refine (spGet_filter (fun _ => (none : Option Byte))
      (fun j => !(o.cutErase.any fun c => j / imgMax == c.1.val && decide (j % imgMax < c.2.toNat))) s.flash (flashKey k.val i)).trans ?_
    simp only [hdiv, hmod, hsame]
    cases o.cutErase.any fun c => c.1 == k && decide (i < c.2.toNat) <;> rfl
  · unfold State.cutOff
    rw [if_neg hno, hc]
  · unfold State.cutOff
    rw [if_neg hno, hc]
    dsimp only
    rw [hl]

theorem State.loadService_one (r : ServiceRec) (newer : Bool) :
    s.loadService [(r, newer)] = { s with nv := if newer then s.nv.fall s.nvOld r else s.nv }.setB (aNvc 8) 2 := rfl

theorem State.nvPut_spec (s : State) (v : NvSt) : (s.nvPut v).nv = v ∧
    (v.repairs ≠ s.nv.repairs → (s.nvPut v).nvOld.repairs = s.nv.repairs) ∧
    (v.repairs = s.nv.repairs → (s.nvPut v).nvOld.repairs = s.nvOld.repairs) :=
  ⟨rfl, fun h => if_neg (Ne.symm h), fun h => if_pos h.symm⟩

/-- A recorded row after the hard repairs of the start. -/
def afterRepair (worn : List (Fin 16 × BitVec 21)) (r : Repair) : Repair :=
  if r.due && !wornRow worn r then { r with flags := r.flags + 2 } else r

/-- A row that is still due is one that the stack can no longer repair. -/
theorem wornRow_of_due {worn : List (Fin 16 × BitVec 21)} {r : Repair} (h : (afterRepair worn r).due = true) :
    wornRow worn (afterRepair worn r) = true := by
  unfold afterRepair at h ⊢
  split_ifs at h ⊢ with hok
  · obtain ⟨hdue, _⟩ := Bool.and_eq_true_iff.mp hok
    have hold := (Bool.and_eq_true_iff.mp hdue).2
    have hnew := (Bool.and_eq_true_iff.mp h).2
    rw [beq_iff_eq] at hold hnew
    dsimp only at hnew
    omega
  · rw [h, Bool.true_and, Bool.not_eq_true', Bool.not_eq_false] at hok
    exact hok

/-- The rows are repaired in the map; the registers alone tell of it. -/
theorem State.hardRepair_spec (s : State) (worn : List (Fin 16 × BitVec 21)) : let t := s.hardRepair worn
    (∀ r ∈ t.nv.repairs, r.due = true → wornRow worn r = true) ∧
    (s.Inv → (∃ r ∈ s.nv.repairs, r.due = true ∧ wornRow worn r = true) → t.bit (aDrc 0xC) 3 = true) := by
  obtain ⟨x, hx⟩ : ∃ x, x = s.nvPut { s.nv with repairs := s.nv.repairs.map (afterRepair worn) } := ⟨_, rfl⟩
  have hxn : x.nv.repairs = s.nv.repairs.map (afterRepair worn) := by rw [hx]; rfl
  have hxr : x.regs = s.regs := by rw [hx]; rfl
  obtain ⟨f, hf⟩ : ∃ f : State → Nat → State, f = fun (t : State) k =>
      t.wf (aDrcCh k 0x10) 16 16 (s.nv.repairs.filter fun r => (r.due && !wornRow worn r) && r.inst == k).length := ⟨_, rfl⟩
  obtain ⟨y, hy⟩ : ∃ y, y = (List.range 16).foldl f x := ⟨_, rfl⟩
  obtain ⟨r, hr⟩ : ∃ r, y = { x with regs := r } := by
    rw [hy, hf]
    exact foldl_regs (fun _ _ => ⟨_, rfl⟩) _ x
  have hyn : y.nv.repairs = s.nv.repairs.map (afterRepair worn) := by rw [hr]; exact hxn
  have heq : s.hardRepair worn = if s.nv.repairs.any fun r => r.due && wornRow worn r then (y.setB (aDrc 0xC) 3).setB (aHlt 0) 10
      else y := by
    rw [hy, hf, hx]
    rfl
  have htn : (s.hardRepair worn).nv.repairs = s.nv.repairs.map (afterRepair worn) := by
    rw [heq]
    split_ifs
    · exact hyn
    · exact hyn
  refine ⟨fun q hq hdue => ?_, fun h ⟨q, hq, hdue, hworn⟩ => ?_⟩
  · rw [htn] at hq
    obtain ⟨q0, _, rfl⟩ := List.mem_map.mp hq
    exact wornRow_of_due hdue
  · have hyi : spOk regReset y.regs = true := by
      have hfold : ∀ (l : List Nat) (t : State), spOk regReset t.regs = true → spOk regReset (l.foldl f t).regs = true := by
        intro l
        induction l with
        | nil => exact fun _ ht => ht
        | cons k l ih =>
          intro t ht
          refine ih _ ?_
          rw [hf]
          exact State.wr_regs_ok ht _ _
      rw [hy]
      exact hfold _ x (by rw [hxr]; exact h.regs)
    rw [heq, if_pos (List.any_eq_true.mpr ⟨q, hq, by rw [hdue, hworn]; rfl⟩)]
    exact (State.bit_wr_ne _ _ (by decide)).trans (State.bit_setB_self hyi _ (by decide))

/-- The boot image (R438). -/
theorem State.bootImage_first {t : State} {ok : Bool} (hb : s.nv.boot < 2) (h : s.activateSlot s.nv.boot = (t, ok)) :
    s.bootImage = if ok then t.bootCause 1 s.nv.boot
      else if t.nv.boot = 1 - s.nv.boot then
        if ((t.setB (aNvc 8) 3).activateSlot (1 - s.nv.boot)).2 then
          ((t.setB (aNvc 8) 3).activateSlot (1 - s.nv.boot)).1.bootCause 2 (1 - s.nv.boot)
        else ((t.setB (aNvc 8) 3).activateSlot (1 - s.nv.boot)).1.bootCause 3 3
      else (t.setB (aNvc 8) 3).bootCause 3 3 := by
  unfold State.bootImage
  dsimp only
  rw [if_neg (Nat.not_le.mpr hb), h]
  cases ok with
  | true => rfl
  | false =>
    dsimp only
    rw [if_neg Bool.false_ne_true]
    rcases (t.setB (aNvc 8) 3).activateSlot (1 - s.nv.boot) with ⟨u, ok⟩
    cases ok <;> rfl

end

/- Sleep (R454 to R456) ------------------------------------------------------------------------------------------------------------------ -/

/-- The lowest code that applies refuses sleep. -/
theorem State.sleepCode_spec (s : State) :
    let site := ∃ i < 256, s.siteState i = 1 ∨ s.siteState i = 2
    let px := ∃ n < 16, s.pxState n ≠ 0
    let dma := ∃ c < 8, s.bit (aDma c 0x1C) 0 = true
    (s.sleepCode = 0 ↔ ¬site ∧ ¬px ∧ ¬dma ∧ s.bit aDbgHalt 0 = false ∧ s.bitB 8 1 = false) ∧
    (site → s.sleepCode = 1) ∧ (¬site → px → s.sleepCode = 2) ∧ (¬site → ¬px → dma → s.sleepCode = 3) ∧
    (¬site → ¬px → ¬dma → s.bit aDbgHalt 0 = true → s.sleepCode = 4) ∧
    (¬site → ¬px → ¬dma → s.bit aDbgHalt 0 = false → s.bitB 8 1 = true → s.sleepCode = 5) := by
  intro site px dma
  have hsite : ((List.range 256).any fun i => s.siteState i == 1 || s.siteState i == 2) = true ↔ site := by
    simp only [List.any_eq_true, List.mem_range, Bool.or_eq_true, beq_iff_eq, site]
  have hpx : ((List.range 16).any fun n => s.pxState n != 0) = true ↔ px := by
    simp only [List.any_eq_true, List.mem_range, bne_iff_ne, px]
  have hdma : ((List.range 8).any fun c => s.bit (aDma c 0x1C) 0) = true ↔ dma := by
    simp only [List.any_eq_true, List.mem_range, dma]
  unfold State.sleepCode
  simp only [hsite, hpx, hdma]
  by_cases h1 : site
  · simp [h1]
  by_cases h2 : px
  · simp [h1, h2]
  by_cases h3 : dma
  · simp [h1, h2, h3]
  cases h4 : s.bit aDbgHalt 0 with
  | true => simp [h1, h2, h3]
  | false => cases h5 : s.bitB 8 1 <;> simp [h1, h2, h3]

/-- A wake by the source that was recorded, and one by another. -/
theorem State.wake_spec (s : State) (src : WakeSource) :
    let t := { s with sleeping := false, wakeDue := none }
    (s.sleeping = true → s.wakeDue = some src →
      (src = .command → exec (.wake src) s = .next (t.wf 0x6C 0 2 1).lateAll.poll) ∧
      (∀ c, src = .timer c → exec (.wake src) s = .next ((t.wf 0x6C 0 2 2).wf 0x6C 8 5 c.val).lateAll.poll) ∧
      (src = .halt → exec (.wake src) s = .next (t.wf 0x6C 0 2 3).lateAll.poll)) ∧
    (s.sleeping = false ∨ s.wakeDue ≠ some src → exec (.wake src) s = .next s.poll) := by
  intro t
  refine ⟨fun hs hw => ?_, fun h => congrArg (fun u : State => Host.Outcome.next u.poll) (if_neg fun hc => ?_)⟩
  · have hgo : (s.sleeping && s.wakeDue == some src) = true := by
      rw [hs, hw, beq_self_eq_true]
      rfl
    have hexec : ∀ {u}, s.wake src = u → exec (.wake src) s = .next u.poll := fun hu =>
      congrArg (fun u : State => Host.Outcome.next u.poll) hu
    refine ⟨fun hsrc => hexec ?_, fun c hsrc => hexec ?_, fun hsrc => hexec ?_⟩
    · unfold State.wake
      rw [if_pos hgo, hsrc]
      rfl
    · unfold State.wake
      rw [if_pos hgo, hsrc]
      rfl
    · unfold State.wake
      rw [if_pos hgo, hsrc]
      rfl
  · obtain ⟨hs, hw⟩ := Bool.and_eq_true_iff.mp hc
    rcases h with h | h
    · exact Bool.false_ne_true (h.symm.trans hs)
    · exact h (eq_of_beq hw)

/-- What waited is delivered one request after another. -/
theorem State.lateAll_append {s : State} {l : List LateReq} {x : LateReq} (h : s.late = l ++ [x]) :
    s.lateAll = { s with late := l }.lateAll.lateOne x := by
  rw [State.lateAll, h, List.foldl_append]
  rfl

/- The copy of a history entry (R451) ------------------------------------------------------------------------------------------------------- -/

section
variable {s : State} {age : Nat}

theorem State.histDone_none (h : s.histCopy = none) : s.histDone = s := by
  unfold State.histDone
  rw [h]

theorem State.histDone_absent (h : s.histCopy = some age) (hn : s.nv.hist[age]? = none) :
    s.histDone = ({ s with histCopy := none }.clrB (aNvc 0x14) 0).clrB (aNvc 0x14) 1 := by
  unfold State.histDone
  rw [h]
  dsimp only
  rw [hn]

theorem State.histDone_copies {e : List Byte} (h : s.histCopy = some age) (he : s.nv.hist[age]? = some e) :
    ∃ x, x = (List.range 16).foldl (fun t i => t.wr (aNvc (0x40 + 4 * i)) (s.histWord e i))
      { ({ s with histCopy := none }.clrB (aNvc 0x14) 0) with fresh := s.fresh + 16 } ∧
      s.histDone = if crcHolds e then x.setB (aNvc 0x14) 1 else (x.clrB (aNvc 0x14) 1).setB (aNvc 8) 1 := by
  refine ⟨_, rfl, ?_⟩
  unfold State.histDone
  rw [h]
  dsimp only
  rw [he]

/-- A copied entry stands in its registers, and whether its CRC holds is told. -/
theorem State.histDone_spec {e : List Byte} (h : s.histCopy = some age) (he : s.nv.hist[age]? = some e) (hinv : s.Inv) :
    let s' := s.histDone
    s'.histCopy = none ∧ s'.bit (aNvc 0x14) 0 = false ∧ s'.bit (aNvc 0x14) 1 = crcHolds e ∧
    (crcHolds e = false → s'.bit (aNvc 8) 1 = true) ∧
    (∀ i < 16, 4 * i + 4 ≤ e.length → s'.rd (aNvc (0x40 + 4 * i)) = BitVec.ofNat 32 (leNat ((e.drop (4 * i)).take 4))) ∧
    s'.nv = s.nv := by
  obtain ⟨x, hx, hdone⟩ := State.histDone_copies h he
  obtain ⟨y, hy⟩ : ∃ y, y = { ({ s with histCopy := none }.clrB (aNvc 0x14) 0) with fresh := s.fresh + 16 } := ⟨_, rfl⟩
  obtain ⟨hyc, hyn⟩ : y.histCopy = none ∧ y.nv = s.nv := by
    rw [hy, State.clrB_frame]
    exact ⟨rfl, rfl⟩
  have hyi : y.Inv := by
    have hcl : ({ s with histCopy := none } : State).Inv := { hinv with }
    rw [hy]
    exact { hcl.clrB (aNvc 0x14) 0 with }
  have hyb : y.bit (aNvc 0x14) 0 = false := by
    rw [hy]
    exact State.bit_clrB_self (s := { s with histCopy := none }) hinv.regs _ (by decide)
  rw [← hy] at hx
  obtain ⟨r, hr⟩ : ∃ r, x = { y with regs := r } := by
    rw [hx]
    exact foldl_wr_frame y
  have hxc : x.histCopy = none := by rw [hr]; exact hyc
  have hxn : x.nv = s.nv := by rw [hr]; exact hyn
  have hxi : x.Inv := by
    rw [hx]
    exact List.foldlRecOn (motive := State.Inv) _ _ hyi fun t ht i _ => ht.wr _ _
  have hxr := hxi.regs
  have hne : ∀ i ∈ List.range 16, aNvc 0x14 ≠ aNvc (0x40 + 4 * i) := fun i _ => by unfold aNvc; omega
  have hxb : x.bit (aNvc 0x14) 0 = false := by
    rw [hx]
    exact (State.bit_of_rd (foldl_wr_ne hne y) 0).trans hyb
  have hxw : ∀ i < 16, x.rd (aNvc (0x40 + 4 * i)) = s.histWord e i := fun i hi => by
    rw [hx]
    exact foldl_wr_self (g := fun i => aNvc (0x40 + 4 * i)) List.nodup_range (fun i _ j _ hij => by unfold aNvc; omega)
      (List.mem_range.mpr hi) hyi
  have hword : ∀ i < 16, 4 * i + 4 ≤ e.length → s.histWord e i = BitVec.ofNat 32 (leNat ((e.drop (4 * i)).take 4)) := fun i _ hl =>
    if_pos hl
  dsimp only
  cases hcrc : crcHolds e with
  | true =>
    rw [hdone, if_pos hcrc]
    refine ⟨hxc, ?_, State.bit_setB_self hxr _ (by decide), fun hf => absurd hf.symm Bool.false_ne_true, fun i hi hl => ?_, hxn⟩
    · exact (State.bit_setB_ne hxr _ (by decide)).trans hxb
    · exact ((State.rd_wf_ne (by unfold aNvc; omega)).trans (hxw i hi)).trans (hword i hi hl)
  | false =>
    rw [hdone, if_neg (by rw [hcrc]; exact Bool.false_ne_true)]
    have hzr : spOk regReset (x.clrB (aNvc 0x14) 1).regs = true := State.wr_regs_ok hxr _ _
    refine ⟨?_, ?_, ?_, fun _ => State.bit_setB_self hzr _ (by decide), fun i hi hl => ?_, ?_⟩
    · rw [State.setB_frame, State.clrB_frame]
      exact hxc
    · exact (State.bit_wr_ne _ _ (by decide)).trans ((State.bit_clrB_ne hxi _ (by decide)).trans hxb)
    · exact (State.bit_wr_ne _ _ (by decide)).trans (State.bit_clrB_self hxr _ (by decide))
    · exact (((State.rd_wf_ne (by unfold aNvc; omega)).trans (State.rd_wf_ne (by unfold aNvc; omega))).trans (hxw i hi)).trans
        (hword i hi hl)
    · rw [State.setB_frame, State.clrB_frame]
      exact hxn

end

end Sys2Proof.Machine
end

section

/-! Power, resets, start and modes: the statement (O58). -/

namespace Sys2Proof.Machine

/-- ENTER (R454). -/
theorem enter_spec (s : State) : let b := s.mgmtIn 0x64 true
    (s.sleeping = false → s.sleepCode = 0 → exec .enter s = .next { b with sleepDue := true }) ∧
    (s.sleeping = false → s.sleepCode ≠ 0 → exec .enter s = .next (b.wf 0x64 4 4 s.sleepCode)) ∧
    (s.sleeping = true → exec .enter s = .next { s with late := s.late ++ [.access 0x64 (some 1)] }) := by
  intro b
  have hcode : b.sleepCode = s.sleepCode := rfl
  have hawake : s.sleeping = false → exec .enter s = .next b.sleepAsk := fun hs =>
    congrArg Host.Outcome.next (State.mgmtDo_awake hs 0x64 (some 1) State.sleepAsk)
  refine ⟨fun hs hc => (hawake hs).trans (congrArg Host.Outcome.next ?_), fun hs hc => (hawake hs).trans (congrArg Host.Outcome.next ?_),
    fun hs => congrArg Host.Outcome.next (State.mgmtDo_asleep hs 0x64 (some 1) State.sleepAsk)⟩
  · exact if_pos (hcode.trans hc)
  · rw [State.sleepAsk, if_neg (fun h => hc (hcode.symm.trans h)), hcode]

/-- Settles O58: each reset, start, request of a mode and copy is a case split on the power, the records and the requests that it
finds. -/
theorem powerAndModes : Obligations.PowerAndModes := by
  unfold Obligations.PowerAndModes
  refine ⟨fun s => ⟨fun h => congrArg Host.Outcome.next (if_pos h), fun h => congrArg Host.Outcome.next (if_neg h), rfl,
      fun h => ⟨congrArg Host.Outcome.next (if_neg h), congrArg Host.Outcome.next (if_neg h)⟩,
      fun h => ⟨congrArg Host.Outcome.next (if_pos h), congrArg Host.Outcome.next (if_pos h)⟩⟩,
    fun s cause hist hc _ => State.fullReset_spec hc hist,
    fun s k o y l => ⟨State.dramKept_none, State.dramKept_read, State.dramKept_write⟩, State.startUp_spec, fun s o => ?_,
    fun s r newer h => ?_, State.nvPut_spec, State.hardRepair_spec, fun s t => ⟨fun h => if_pos h, fun hb h => ?_, fun hb h hn => ?_⟩,
    fun s t u hb h hn => ⟨fun hu => ?_, fun hu => ?_⟩, fun s => ⟨fun h => ?_, fun h => ?_, rfl⟩, enter_spec, State.sleepCode_spec,
    fun s => ⟨fun hd hs => congrArg Host.Outcome.next (if_pos (by rw [hd, hs]; rfl)), fun h => ?_⟩, State.wake_spec,
    fun s => ⟨fun h => ?_, fun l a v h => State.lateAll_append h, fun l a h => State.lateAll_append h,
      fun l c h => State.lateAll_append h⟩, fun s => ⟨rfl, rfl⟩, fun s age hs => ?_, fun s age e hs h he hinv => ?_,
    fun s age hs h he => ?_, fun s h => congrArg Host.Outcome.next ?_⟩
  · obtain ⟨hskip, hcut⟩ := s.cutOff_spec o
    exact ⟨hskip, fun h _ => hcut h⟩
  · rw [State.loadService_one]
    exact ⟨rfl, State.bit_setB_self h.regs _ (by decide), rfl⟩
  · rw [State.bootImage_first hb h]
    rfl
  · rw [State.bootImage_first hb h, if_neg Bool.false_ne_true, if_neg hn]
  · rw [State.bootImage_first hb h, if_neg Bool.false_ne_true, if_pos hn, hu]
    rfl
  · rw [State.bootImage_first hb h, if_neg Bool.false_ne_true, if_pos hn, hu]
    rfl
  · exact congrArg (fun u : State => Host.Outcome.next u.poll) (if_neg (h ▸ Bool.false_ne_true))
  · exact congrArg (fun u : State => Host.Outcome.next u.poll) (if_pos h)
  · refine congrArg Host.Outcome.next (if_neg fun hc => ?_)
    obtain ⟨hd, hs⟩ := Bool.and_eq_true_iff.mp hc
    rw [Bool.not_eq_true'] at hs
    exact h.elim (fun hf => Bool.false_ne_true (hf.symm.trans hd)) fun ht => Bool.false_ne_true (hs.symm.trans ht)
  · rw [State.lateAll, h]
    exact congrArg (fun l => { s with late := l }) h.symm
  · exact congrArg Host.Outcome.next (State.mgmtDo_awake hs _ _ _)
  · exact ⟨_, congrArg Host.Outcome.next (State.awakeDo_awake hs _), State.histDone_spec h he hinv⟩
  · exact congrArg Host.Outcome.next ((State.awakeDo_awake hs _).trans (State.histDone_absent h he))
  · unfold State.awakeDo
    rw [State.histDone_none h, ite_self]

end Sys2Proof.Machine
end

section

/-! SUPPORT. Sensors and life: what a conversion leaves, and the acceleration factor (R462 to R467, R473). -/

namespace Sys2Proof.Machine

/- Sensor results (R462, R464) ----------------------------------------------------------------------------------------------------------- -/

/-- The result registers lie together. -/
theorem sensorReg_range {k : Nat} (h : sensorCode k = true) : aHlt 0x100 ≤ sensorReg k ∧ sensorReg k < aHlt 0x280 := by
  unfold sensorCode at h
  rw [Bool.or_eq_true, Bool.and_eq_true, decide_eq_true_iff, decide_eq_true_iff, decide_eq_true_iff] at h
  unfold sensorReg aHlt
  split_ifs <;> omega

theorem validWord_fields {code : Nat} (hc : code < 4096) {v : W32} (hv : v = validWord code) :
    field v 0 12 = code ∧ field v 31 1 = 1 := by
  have hn : v.toNat = code + 2147483648 := by
    rw [hv, validWord, BitVec.toNat_ofNat, show code % 2 ^ 12 = code from Nat.mod_eq_of_lt hc]
    exact Nat.mod_eq_of_lt (by omega)
  refine ⟨?_, ?_⟩ <;> rw [field, hn] <;> omega

/-- The registers that a result moves beside its own: the limits' flags, the hottest sensor and the power. -/
def LimitReg (a : Nat) : Prop := a = aHlt 0 ∨ a = aHlt 4 ∨ a = aHlt 8 ∨ a = aHlt 0x650

theorem State.oneOf_frame (s : State) (l : List Nat) : ∃ f, (s.oneOf l).2 = { s with fresh := f } := by
  unfold State.oneOf
  split
  · exact ⟨s.fresh, rfl⟩
  · exact ⟨s.fresh, rfl⟩
  · exact ⟨_, rfl⟩

/-- Drawing a free value touches no register, no memory and no event. -/
theorem State.oneOf_only {P : Nat → Prop} (s : State) (l : List Nat) : TickOnly P s (s.oneOf l).2 := by
  obtain ⟨f, hf⟩ := s.oneOf_frame l
  rw [hf]
  exact .frame rfl rfl rfl (fun _ he => he) rfl

theorem State.hottest_only (s : State) : TickOnly LimitReg s s.hottest ∧ s.hottest.dmaq = s.dmaq := by
  unfold State.hottest
  dsimp only
  obtain ⟨l, hl⟩ : ∃ l, l = ((s.temps.filter fun q => q.2 == maxVal s.temps).map (·.1)) := ⟨_, rfl⟩
  rw [← hl]
  refine ⟨((s.oneOf_only l).trans (.wr (.inr (.inr (.inl rfl))) _ _)).trans (.wf (.inr (.inl rfl)) _ 8 6 _), ?_⟩
  obtain ⟨f, hf⟩ := s.oneOf_frame l
  rw [hf]
  rfl

theorem State.thermal_only (s : State) (code : Nat) : TickOnly LimitReg s (s.thermal code) ∧ (s.thermal code).dmaq = s.dmaq := by
  obtain ⟨honly, hq⟩ := s.hottest_only
  have hset : ∀ {t : State} i, TickOnly LimitReg s t → TickOnly LimitReg s (t.setB (aHlt 0) i) := fun i ht =>
    ht.trans (.setB (.inl rfl) _ i)
  unfold State.thermal
  dsimp only
  refine ⟨.ite (hset 1 (.ite (hset 0 honly) honly)) (.ite (hset 0 honly) honly), ?_⟩
  split_ifs
  · exact hq
  · exact hq
  · exact hq
  · exact hq

/-- The limits of a thermal result (R467). -/
theorem State.thermal_limits {s : State} (h : s.Inv) (code : Nat) :
    (s.rf (aHlt 0xC) 16 12 < code → (s.thermal code).bit (aHlt 0) 1 = true) ∧
    (s.rf (aHlt 0xC) 0 12 < code → (s.thermal code).bit (aHlt 0) 0 = true) := by
  have hi : s.hottest.Inv := (State.hottest_keeps (.refl s)).inv h
  unfold State.thermal
  dsimp only
  refine ⟨fun hc => ?_, fun hw => ?_⟩
  · rw [if_pos hc]
    refine State.bit_setB_self ?_ _ (by decide)
    split_ifs
    · exact (hi.setB _ _).regs
    · exact hi.regs
  · rw [if_pos hw]
    have hset := State.bit_setB_self hi.regs (aHlt 0) (i := 0) (by decide)
    split_ifs
    · exact (State.bit_setB_ne (hi.setB _ _).regs _ (by decide)).trans hset
    · exact hset

theorem State.powerSum_frame (s : State) : ∃ f x, s.powerSum = { s with fresh := f }.wf (aHlt 0x650) 0 16 x := by
  unfold State.powerSum
  dsimp only
  split_ifs
  · exact ⟨s.fresh, _, rfl⟩
  · exact ⟨_, _, rfl⟩

theorem State.powerSum_only (s : State) : TickOnly LimitReg s s.powerSum := by
  obtain ⟨f, x, hf⟩ := s.powerSum_frame
  have hpow : LimitReg (aHlt 0x650) := .inr (.inr (.inr rfl))
  rw [hf]
  exact TickOnly.trans (P := LimitReg) (t := { s with fresh := f }) (.frame rfl rfl rfl (fun _ he => he) rfl) (.wf hpow _ 0 16 x)

theorem State.voltage_only (s : State) (v code : Nat) : TickOnly LimitReg s (s.voltage v code) ∧ (s.voltage v code).dmaq = s.dmaq := by
  obtain ⟨x, hx⟩ : ∃ x, x = if 20 ≤ v then s.powerSum else s := ⟨_, rfl⟩
  have honly : TickOnly LimitReg s x := by
    rw [hx]
    exact .ite s.powerSum_only (.refl s)
  have hq : x.dmaq = s.dmaq := by
    obtain ⟨f, y, hf⟩ := s.powerSum_frame
    rw [hx, hf]
    split_ifs <;> rfl
  unfold State.voltage
  dsimp only
  rw [← hx]
  refine ⟨.ite (honly.trans (.setB (.inl rfl) _ 3)) honly, ?_⟩
  split_ifs
  · exact hq
  · exact hq

/- Comparators (R465) -------------------------------------------------------------------------------------------------------------------- -/

/-- Comparator `i`. -/
def aCmp (i : Nat) : Nat := aHlt (0x300 + 4 * i)

theorem aCmp_ne {i j : Nat} (h : i ≠ j) : aCmp i ≠ aCmp j := by unfold aCmp aHlt; omega

theorem State.cmpOut_congr {s t : State} {i : Nat} (h : t.rd (aCmp i) = s.rd (aCmp i)) (code : Nat) : t.cmpOut i code = s.cmpOut i code := by
  unfold State.cmpOut
  dsimp only
  rw [show aHlt (0x300 + 4 * i) = aCmp i from rfl, State.rf_of_rd h, State.rf_of_rd h, State.bit_of_rd h, State.bit_of_rd h]

/-- OUT is written, and a rise is told. -/
theorem State.cmpJudge_eq (s : State) (i code : Nat) : ∃ y, y = s.putB (aCmp i) 31 (s.cmpOut i code) ∧
    s.cmpJudge i code = if s.cmpOut i code && !s.bit (aCmp i) 31 then y.post rkSensor none 11 i else y :=
  ⟨_, rfl, rfl⟩

theorem State.cmpJudge_only (s : State) (i code : Nat) :
    TickOnly (· = aCmp i) s (s.cmpJudge i code) ∧ (s.cmpJudge i code).dmaq = s.dmaq := by
  obtain ⟨y, hy, heq⟩ := s.cmpJudge_eq i code
  have hput : TickOnly (· = aCmp i) s y := hy ▸ TickOnly.wf (P := (· = aCmp i)) rfl s 31 1 _
  have hq : y.dmaq = s.dmaq := by rw [hy, State.putB, State.wf_frame]
  rw [heq]
  refine ⟨.ite (hput.trans (.post _ _ _ _ _)) hput, ?_⟩
  split_ifs
  · exact hq
  · exact hq

theorem State.cmpJudge_out {s : State} (h : s.Inv) (i code : Nat) : (s.cmpJudge i code).bit (aCmp i) 31 = s.cmpOut i code := by
  obtain ⟨y, hy, heq⟩ := s.cmpJudge_eq i code
  have hput : y.bit (aCmp i) 31 = s.cmpOut i code := by
    rw [hy, State.bit, State.putB, State.rf_wf_self h.regs _ _ (by decide)]
    cases s.cmpOut i code <;> rfl
  rw [heq]
  split_ifs
  · exact (State.bit_congr (State.post_regs ..) _ _).trans hput
  · exact hput

/-- Each comparator of a list judges once. -/
theorem State.cmpJudges_spec (code : Nat) (l : List Nat) (hn : l.Nodup) : ∀ s : State, s.Inv →
    let t := l.foldl (fun t i => t.cmpJudge i code) s
    (∀ i ∈ l, t.bit (aCmp i) 31 = s.cmpOut i code) ∧ (∀ i, i ∉ l → t.rd (aCmp i) = s.rd (aCmp i)) ∧
    TickOnly (fun a => ∃ i ∈ l, a = aCmp i) s t ∧ t.dmaq = s.dmaq := by
  induction l with
  | nil => exact fun s _ => ⟨fun i hi => absurd hi List.not_mem_nil, fun _ _ => rfl, .refl s, rfl⟩
  | cons j l ih =>
    intro s h
    obtain ⟨hj, hl⟩ := List.nodup_cons.mp hn
    obtain ⟨honly, hq⟩ := s.cmpJudge_only j code
    obtain ⟨hout, hrest, htick, hdma⟩ := ih hl (s.cmpJudge j code) ((State.cmpJudge_keeps (.refl s) j code).inv h)
    have hother : ∀ i, i ≠ j → (s.cmpJudge j code).rd (aCmp i) = s.rd (aCmp i) := fun i hij => honly.rd _ (aCmp_ne hij)
    refine ⟨fun i hi => ?_, fun i hi => ?_, ?_, hdma.trans hq⟩
    · by_cases hij : i = j
      · exact hij ▸ (State.bit_of_rd (hrest j hj) 31).trans (State.cmpJudge_out h j code)
      · exact (hout i ((List.mem_cons.mp hi).resolve_left hij)).trans (State.cmpOut_congr (hother i hij) code)
    · obtain ⟨hij, hil⟩ := not_or.mp (mt List.mem_cons.mpr hi)
      exact (hrest i hil).trans (hother i hij)
    · exact (honly.mono fun a ha => ⟨j, List.mem_cons_self, ha⟩).trans
        (htick.mono fun a ⟨i, hi, ha⟩ => ⟨i, List.mem_cons_of_mem _ hi, ha⟩)

/-- The register that shows the ADC's waiting request. -/
def AdcStat (a : Nat) : Prop := a = aTmrBlk 0x100C

/- The ADC's places (R463) ----------------------------------------------------------------------------------------------------------------- -/

theorem State.showWaiting_stat (s : State) : TickOnly AdcStat s s.showWaiting ∧ s.showWaiting.dmaq = s.dmaq := by
  have hstat : AdcStat (aTmrBlk 0x100C) := rfl
  unfold State.showWaiting
  split
  · exact ⟨.clrB hstat s 7, rfl⟩
  · split_ifs
    · exact ⟨(TickOnly.wf hstat s 0 5 _).trans (.setB hstat _ 7), rfl⟩
    · exact ⟨(TickOnly.used s).trans ((TickOnly.wf hstat _ 0 5 _).trans (.setB hstat _ 7)), rfl⟩

theorem State.adcAdvance_only (s : State) : TickOnly AdcStat s s.adcAdvance ∧ s.adcAdvance.dmaq = s.dmaq := by
  obtain ⟨x, hx⟩ : ∃ x, x = { s with adc := { s.adc with now := s.adc.next, next := s.adc.held.map fun k => (32, k), held := none } } :=
    ⟨_, rfl⟩
  have heq : s.adcAdvance = x.showWaiting := by rw [hx]; rfl
  obtain ⟨hshow, hq⟩ := x.showWaiting_stat
  have hxo : TickOnly AdcStat s x := by
    rw [hx]
    exact .frame rfl rfl rfl (fun _ he => he) rfl
  rw [heq]
  exact ⟨hxo.trans hshow, hq.trans (by rw [hx])⟩

theorem State.adcScan_only (s : State) : TickOnly AdcStat s s.adcScan ∧ s.adcScan.dmaq = s.dmaq := by
  unfold State.adcScan
  dsimp only
  by_cases hgo : (s.adc.scan && s.adc.now.isNone) = true
  · rw [if_pos hgo]
    exact ⟨.frame rfl rfl rfl (fun _ he => he) rfl, rfl⟩
  · rw [if_neg hgo]
    exact ⟨.refl s, rfl⟩

/-- A scan request that starts (R463). -/
theorem State.adcScan_starts {s : State} (hn : s.adc.now = none) (hs : s.adc.scan = true) (ha : s.adc.scanAt < 72) :
    sensorCode (if s.adc.scanAt < 48 then s.adc.scanAt else s.adc.scanAt + 16) = true ∧
    s.adcScan = { s with adc := { s.adc with
      now := some (33, if s.adc.scanAt < 48 then s.adc.scanAt else s.adc.scanAt + 16), scan := false,
      scanAt := (s.adc.scanAt + 1) % 72 } } := by
  refine ⟨?_, if_pos (by rw [hs, hn]; rfl)⟩
  unfold sensorCode
  rw [Bool.or_eq_true, Bool.and_eq_true, decide_eq_true_iff, decide_eq_true_iff, decide_eq_true_iff]
  split_ifs <;> omega

/- The end of a conversion (R464 to R467) --------------------------------------------------------------------------------------------------- -/

/-- The state in which a result stands, before its limits and comparators are judged. -/
def State.stored (s : State) (src k code : Nat) : State :=
  let s1 := (s.wr (sensorReg k) (validWord code)).wr (aHlt 0x18)
    (BitVec.ofNat 32 (code % 2 ^ 12 + k * 2 ^ 16 + src * 2 ^ 24 + 2 ^ 31))
  if src < 33 then { s1 with dmaq := s1.dmaq ++ [0x21] } else s1

theorem State.converted_eq {s : State} {src k : Nat} (hs : s.sleeping = false) (hn : s.adc.now = some (src, k)) (code : Nat) :
    s.converted code = (((if k < 0x40 then (s.stored src k code).thermal code
      else (s.stored src k code).voltage (k - 0x40) code).judgeAll k code).adcAdvance).adcScan := by
  unfold State.converted
  rw [hn]
  dsimp only
  rw [hs, if_neg Bool.false_ne_true]
  rfl

theorem State.converted_none {s : State} {code : Nat} (h : s.sleeping = true ∨ s.adc.now = none) : s.converted code = s := by
  unfold State.converted
  cases hn : s.adc.now with
  | none => rfl
  | some x => exact if_pos (h.resolve_right (by rw [hn]; exact Option.some_ne_none x))

theorem State.stored_spec {s : State} (h : s.Inv) {src k code : Nat} (hk : sensorCode k = true) (hc : code < 4096) :
    let t := s.stored src k code
    t.Inv ∧ t.rf (sensorReg k) 0 12 = code ∧ t.bit (sensorReg k) 31 = true ∧ t.mem = s.mem ∧ (src < 33 → 0x21 ∈ t.dmaq) ∧
    ∀ a, a ≠ sensorReg k → a ≠ aHlt 0x18 → t.rd a = s.rd a := by
  obtain ⟨hlo, hhi⟩ := sensorReg_range hk
  have h18 : sensorReg k ≠ aHlt 0x18 := by unfold aHlt at *; omega
  obtain ⟨v, hv⟩ : ∃ v, v = validWord code := ⟨_, rfl⟩
  obtain ⟨w, hw⟩ : ∃ w, w = BitVec.ofNat 32 (code % 2 ^ 12 + k * 2 ^ 16 + src * 2 ^ 24 + 2 ^ 31) := ⟨_, rfl⟩
  obtain ⟨hf0, hf31⟩ := validWord_fields hc hv
  obtain ⟨x, hx⟩ : ∃ x, x = (s.wr (sensorReg k) v).wr (aHlt 0x18) w := ⟨_, rfl⟩
  have hxi : x.Inv := hx ▸ (h.wr _ _).wr _ _
  have hxv : x.rd (sensorReg k) = v := by
    rw [hx, State.rd_wr_ne h18, State.rd_wr_self h.regs]
  have hxo : ∀ a, a ≠ sensorReg k → a ≠ aHlt 0x18 → x.rd a = s.rd a := fun a ha ha' => by
    rw [hx, State.rd_wr_ne ha', State.rd_wr_ne ha]
  have hxm : x.mem = s.mem := by rw [hx]; rfl
  obtain ⟨d, hd⟩ : ∃ d, s.stored src k code = { x with dmaq := d } ∧ (src < 33 → 0x21 ∈ d) := by
    have heq : s.stored src k code = if src < 33 then { x with dmaq := x.dmaq ++ [0x21] } else x := by rw [hx, hv, hw]; rfl
    by_cases hsrc : src < 33
    · exact ⟨x.dmaq ++ [0x21], by rw [heq, if_pos hsrc], fun _ => List.mem_append_right _ List.mem_cons_self⟩
    · exact ⟨x.dmaq, by rw [heq, if_neg hsrc], fun hc => absurd hc hsrc⟩
  obtain ⟨heq, hmem⟩ := hd
  dsimp only
  rw [heq]
  refine ⟨{ hxi with }, ?_, ?_, hxm, hmem, hxo⟩
  · exact (congrArg (fun v => field v 0 12) hxv).trans hf0
  · exact beq_iff_eq.mpr ((congrArg (fun v => field v 31 1) hxv).trans hf31)

/-- The result stands in its register, the limits and the comparators have judged it. -/
theorem State.converted_spec {s : State} (h : s.Inv) {src k code : Nat} (hs : s.sleeping = false) (hn : s.adc.now = some (src, k))
    (hk : sensorCode k = true) (hc : code < 4096) : let s' := s.converted code
    s'.rf (sensorReg k) 0 12 = code ∧ s'.bit (sensorReg k) 31 = true ∧ s'.mem = s.mem ∧
    (k < 0x40 → s.rf (aHlt 0xC) 16 12 < code → s'.bit (aHlt 0) 1 = true) ∧
    (k < 0x40 → s.rf (aHlt 0xC) 0 12 < code → s'.bit (aHlt 0) 0 = true) ∧
    (src < 33 → 0x21 ∈ s'.dmaq) ∧
    (∀ i < 32, s.rf (aCmp i) 0 8 = k → s'.bit (aCmp i) 31 = s.cmpOut i code) ∧
    (∀ i < 32, s.rf (aCmp i) 0 8 ≠ k → s'.rd (aCmp i) = s.rd (aCmp i)) := by
  obtain ⟨hlo, hhi⟩ := sensorReg_range hk
  obtain ⟨x, hx⟩ : ∃ x, x = s.stored src k code := ⟨_, rfl⟩
  obtain ⟨hxi, hxf, hxb, hxm, hxd, hxr⟩ := State.stored_spec h (src := src) hk hc
  rw [← hx] at hxi hxf hxb hxm hxd hxr
  obtain ⟨y, hy⟩ : ∃ y, y = if k < 0x40 then x.thermal code else x.voltage (k - 0x40) code := ⟨_, rfl⟩
  obtain ⟨hyo, hyd⟩ : TickOnly LimitReg x y ∧ y.dmaq = x.dmaq := by
    rw [hy]
    split_ifs
    · exact x.thermal_only code
    · exact x.voltage_only _ code
  have hyi : y.Inv := by
    rw [hy]
    split_ifs
    · exact (State.thermal_keeps (.refl x) code).inv hxi
    · exact (State.voltage_keeps (.refl x) _ code).inv hxi
  have hycmp : ∀ i, i < 32 → y.rd (aCmp i) = s.rd (aCmp i) := fun i hi =>
    (hyo.rd _ (by unfold LimitReg aCmp aHlt; omega)).trans
      (hxr _ (by unfold aCmp aHlt at *; omega) (by unfold aCmp aHlt; omega))
  obtain ⟨l, hl⟩ : ∃ l, l = (List.range 32).filter fun i => y.rf (aCmp i) 0 8 == k := ⟨_, rfl⟩
  have hmem : ∀ i < 32, i ∈ l ↔ s.rf (aCmp i) 0 8 = k := fun i hi => by
    rw [hl, List.mem_filter, List.mem_range, beq_iff_eq, State.rf_of_rd (hycmp i hi)]
    exact and_iff_right hi
  obtain ⟨z, hz⟩ : ∃ z, z = l.foldl (fun t i => t.cmpJudge i code) y := ⟨_, rfl⟩
  obtain ⟨hzout, hzrd, hzo, hzd⟩ := State.cmpJudges_spec code l (hl ▸ List.nodup_range.filter _) y hyi
  rw [← hz] at hzout hzrd hzo hzd
  obtain ⟨u, hu⟩ : ∃ u, u = z.adcAdvance := ⟨_, rfl⟩
  obtain ⟨huo, hud⟩ := z.adcAdvance_only
  rw [← hu] at huo hud
  obtain ⟨hwo, hwd⟩ := u.adcScan_only
  have heq : s.converted code = u.adcScan := by
    rw [State.converted_eq hs hn, ← hx, ← hy, hu, hz, hl]
    rfl
  have hend := huo.trans hwo
  have hlow : ∀ a, a < aHlt 0x300 → aHlt 0 ≤ a → u.adcScan.rd a = y.rd a := fun a ha ha0 =>
    (hend.rd a (by unfold AdcStat aTmrBlk aHlt at *; omega)).trans
      (hzo.rd a fun ⟨i, _, hi⟩ => by unfold aCmp aHlt at *; omega)
  have hcmp : ∀ i, i < 32 → u.adcScan.rd (aCmp i) = z.rd (aCmp i) := fun i hi => hend.rd _ (by unfold AdcStat aTmrBlk aCmp aHlt; omega)
  have hsens : u.adcScan.rd (sensorReg k) = x.rd (sensorReg k) :=
    (hlow _ (by unfold aHlt at *; omega) (by unfold aHlt at *; omega)).trans (hyo.rd _ (by unfold LimitReg aHlt at *; omega))
  have hlim : u.adcScan.rd (aHlt 0) = y.rd (aHlt 0) := hlow _ (by decide) (by decide)
  have hwarn : x.rd (aHlt 0xC) = s.rd (aHlt 0xC) := hxr _ (by unfold aHlt at *; omega) (by decide)
  dsimp only
  rw [heq]
  refine ⟨(State.rf_of_rd hsens 0 12).trans hxf, (State.bit_of_rd hsens 31).trans hxb,
    hend.mem.trans (hzo.mem.trans (hyo.mem.trans hxm)), fun hk hcrit => ?_, fun hk hw => ?_, fun hsrc => ?_, fun i hi hki => ?_,
    fun i hi hki => ?_⟩
  · rw [State.bit_of_rd hlim, hy, if_pos hk]
    exact (State.thermal_limits hxi code).1 (by rwa [State.rf_of_rd hwarn])
  · rw [State.bit_of_rd hlim, hy, if_pos hk]
    exact (State.thermal_limits hxi code).2 (by rwa [State.rf_of_rd hwarn])
  · rw [hwd, hud, hzd, hyd]
    exact hxd hsrc
  · exact (State.bit_of_rd (hcmp i hi) 31).trans ((hzout i ((hmem i hi).mpr hki)).trans (State.cmpOut_congr (hycmp i hi) code))
  · exact (hcmp i hi).trans ((hzrd i fun hc => hki ((hmem i hi).mp hc)).trans (hycmp i hi))

/- The acceleration factor (R473) -------------------------------------------------------------------------------------------------------------- -/

theorem lt_odd_pow {a r r' n : Nat} (hr : r ≤ r') (h : a < (2 * r + 1) ^ n) : a < (2 * r' + 1) ^ n :=
  lt_of_lt_of_le h (Nat.pow_le_pow_left (by omega) n)

theorem two_pow_lt_odd_pow {e b r n : Nat} (he : e ≤ b * n) (hr : 2 ^ b < 2 * r + 1) (hn : n ≠ 0) : 2 ^ e < (2 * r + 1) ^ n := by
  calc 2 ^ e ≤ 2 ^ (b * n) := Nat.pow_le_pow_right (by decide) he
    _ = (2 ^ b) ^ n := Nat.pow_mul _ _ _
    _ < (2 * r + 1) ^ n := Nat.pow_lt_pow_left hr hn

/-- What reaches stays reached by greater numbers. -/
theorem lifeReached_mono {m : Int} {r r' : Nat} (hr : r ≤ r') (h : lifeReached m r = true) : lifeReached m r' = true := by
  unfold lifeReached at h ⊢
  by_cases hneg : 5280 + m < 0
  · exact if_pos hneg
  · rw [if_neg hneg, decide_eq_true_iff] at h ⊢
    exact lt_odd_pow hr h

/-- The search bit by bit finds the least number that reaches, among those that its bits can name. -/
theorem lifeSearch_least (m : Int) (k : Nat) : ∀ acc, lifeReached m (acc + 2 ^ k - 1) = true →
    (∀ r < acc, lifeReached m r = false) →
    lifeReached m (lifeSearch m k acc) = true ∧ ∀ r < lifeSearch m k acc, lifeReached m r = false := by
  induction k with
  | zero => exact fun acc htop hlow => ⟨htop, hlow⟩
  | succ k ih =>
    intro acc htop hlow
    unfold lifeSearch
    have hpos := Nat.two_pow_pos k
    split_ifs with hmid
    · exact ih acc hmid hlow
    · refine ih (acc + 2 ^ k) ?_ fun r hr => ?_
      · rwa [Nat.add_assoc, ← Nat.two_mul, ← Nat.pow_succ']
      · exact Bool.eq_false_iff.mpr fun hreach => hmid (lifeReached_mono (Nat.le_sub_one_of_lt hr) hreach)

/-- The greatest number of 41 bits reaches for every pair of codes. -/
theorem lifeReached_top {m : Int} (h : m ≤ 14400) : lifeReached m (0 + 2 ^ 41 - 1) = true := by
  unfold lifeReached
  by_cases hneg : 5280 + m < 0
  · exact if_pos hneg
  · rw [if_neg hneg, decide_eq_true_iff]
    exact two_pow_lt_odd_pow (b := 41) (by omega) (by norm_num) (by decide)

theorem lifeFactor_least {code vcode : Nat} (hc : code < 4096) (hv : vcode < 4096) :
    lifeReached (lifeExponent code vcode) (lifeFactor code vcode) = true ∧
    ∀ r < lifeFactor code vcode, lifeReached (lifeExponent code vcode) r = false := by
  refine lifeSearch_least _ 41 0 (lifeReached_top ?_) fun r hr => absurd hr (Nat.not_lt_zero r)
  unfold lifeExponent
  omega

end Sys2Proof.Machine
end

section

/-! SUPPORT. Ageing, sparing and the sticky hierarchy: what an evaluation, a remap and an update of DEV_STICKY leave (R469 to R483). -/

namespace Sys2Proof.Machine

/- Ageing (R469, R470) --------------------------------------------------------------------------------------------------------------------- -/

/-- AGE of engine `e`. -/
def aAge (e : Nat) : Nat := aHlt (0x400 + 4 * e)

theorem State.ageStore_none {s : State} (x : W64) (e : Nat) (h : (s.ageSum e).2 = 0) : s.ageStore x e = s.setB (aAge e) 31 := if_pos h

/-- SLOW of a window is rounded down or up. -/
theorem State.ageStore_some {s : State} (x : W64) (e : Nat) (h : (s.ageSum e).2 ≠ 0) : ∃ v : Int,
    s.ageStore x e = (s.wf (aAge e) 0 16 (twos 16 v)).setB (aAge e) 31 ∧
    (v = 10000 * (s.ageSum e).1 / ((ageZero e : Int) * (s.ageSum e).2) ∨
      v = 10000 * (s.ageSum e).1 / ((ageZero e : Int) * (s.ageSum e).2) + 1) := by
  unfold State.ageStore
  dsimp only
  rw [if_neg h]
  refine ⟨_, rfl, ?_⟩
  split_ifs
  · exact .inl rfl
  · exact .inr rfl
  · exact .inl rfl

theorem State.ageStore_only (s : State) (x : W64) (e : Nat) : TickOnly (· = aAge e) s (s.ageStore x e) := by
  by_cases h : (s.ageSum e).2 = 0
  · rw [State.ageStore_none x e h]
    exact TickOnly.setB (P := (· = aAge e)) rfl s 31
  · obtain ⟨v, hv, _⟩ := State.ageStore_some x e h
    rw [hv]
    exact (TickOnly.wf (P := (· = aAge e)) rfl s 0 16 _).trans (.setB (P := (· = aAge e)) rfl _ 31)

theorem State.ageStore_valid {s : State} (h : s.Inv) (x : W64) (e : Nat) : (s.ageStore x e).bit (aAge e) 31 = true := by
  by_cases hn : (s.ageSum e).2 = 0
  · rw [State.ageStore_none x e hn]
    exact State.bit_setB_self h.regs _ (by decide)
  · obtain ⟨v, hv, _⟩ := State.ageStore_some x e hn
    rw [hv]
    exact State.bit_setB_self (h.wf _ _ _ _).regs _ (by decide)

theorem State.ageStore_spec {s : State} (h : s.Inv) (x : W64) (e : Nat) : let q := s.ageSum e
    let t := s.ageStore x e
    t.bit (aAge e) 31 = true ∧
    (q.2 ≠ 0 → ∃ v : Int, t.rf (aAge e) 0 16 = twos 16 v ∧
      (v = 10000 * q.1 / ((ageZero e : Int) * q.2) ∨ v = 10000 * q.1 / ((ageZero e : Int) * q.2) + 1)) ∧
    (q.2 = 0 → t = s.setB (aAge e) 31) := by
  refine ⟨State.ageStore_valid h x e, fun hn => ?_, State.ageStore_none x e⟩
  obtain ⟨v, hv, hround⟩ := State.ageStore_some x e hn
  refine ⟨v, ?_, hround⟩
  rw [hv, State.setB, State.rf_wf_disjoint (h.wf _ _ _ _).regs _ _ (by decide), State.rf_wf_self h.regs _ _ (by decide)]
  exact Nat.mod_eq_of_lt (twos_lt 16 v)

theorem State.ageMax_frame (s : State) : ∃ r f, s.ageMax = { s with regs := r, fresh := f } := by
  unfold State.ageMax
  dsimp only
  split
  · exact ⟨_, _, rfl⟩
  · next l e t hl =>
    obtain ⟨g, hg⟩ : ∃ g, g = (e :: t).filter fun k => s.slow k == t.foldl (fun m k => max m (s.slow k)) (s.slow e) := ⟨_, rfl⟩
    obtain ⟨f, hf⟩ := s.oneOf_frame g
    rw [hl, ← hg, hf]
    exact ⟨_, _, rfl⟩

/-- AGE_STATUS. -/
def AgeReg (a : Nat) : Prop := a = aHlt 0x604

theorem State.ageMax_only (s : State) : TickOnly AgeReg s s.ageMax := by
  have h604 : AgeReg (aHlt 0x604) := rfl
  unfold State.ageMax
  dsimp only
  split
  · exact (TickOnly.used s).trans (.wf h604 _ 0 23 _)
  · exact ((s.oneOf_only _).trans (.wf h604 _ 0 16 _)).trans (.wf h604 _ 16 7 _)

/- Requests of the core voltage (R429, R430) ------------------------------------------------------------------------------------------------- -/

/-- A register write, and a field write, touch the registers alone. -/
theorem State.wf_is (s : State) (a lo w x : Nat) : ∃ r, s.wf a lo w x = { s with regs := r } := ⟨_, rfl⟩

/-- What the AVSBus master touches: registers, its requests and its frames. -/
structure AvsOnly (s t : State) : Prop where
  frame : ∃ g a o, t = { s with regs := g, avs := a, avsOut := o }

theorem AvsOnly.trans {s t u : State} (h : AvsOnly s t) (g : AvsOnly t u) : AvsOnly s u := by
  obtain ⟨g1, a1, o1, h⟩ := h
  obtain ⟨g2, a2, o2, g⟩ := g
  exact ⟨g2, a2, o2, by rw [g, h]⟩

theorem AvsOnly.wf (s : State) (a lo w x : Nat) : AvsOnly s (s.wf a lo w x) := by
  obtain ⟨r, hr⟩ := s.wf_is a lo w x
  exact ⟨r, s.avs, s.avsOut, hr⟩

theorem AvsOnly.avs (s : State) (v : AvsSt) : AvsOnly s { s with avs := v } := ⟨s.regs, v, s.avsOut, rfl⟩

theorem AvsOnly.setB (s : State) (a i : Nat) : AvsOnly s (s.setB a i) := .wf s a i 1 1

theorem State.avsSend_only (s : State) (k : AvsKind) : AvsOnly s (s.avsSend k) := ⟨s.regs, s.avs, _, rfl⟩

theorem State.avsAlert_only (s : State) (r : AvsResp) : AvsOnly s (s.avsAlert r) := by
  obtain ⟨hnone, hsome, hfail⟩ := s.avsAlert_spec r
  have hread := (s.avsSend_only .readStatus).trans (.setB _ (aCmd 8) 5)
  cases h : r.alert with
  | none =>
    rw [hnone h]
    exact ⟨s.regs, s.avs, s.avsOut, rfl⟩
  | some x =>
    cases x with
    | none => exact hfail h ▸ hread.trans (.avs _ _)
    | some d => exact hsome d h ▸ hread.trans (.wf _ _ _ _ _)

theorem State.avsWrite_only (s : State) (mv n : Nat) (r : AvsResp) : AvsOnly s (s.avsWrite mv n r) := by
  obtain ⟨t, ht⟩ : ∃ t, t = (s.avsSend (.write mv)).avsAlert r := ⟨_, rfl⟩
  have hto : AvsOnly s t := ht ▸ (s.avsSend_only _).trans (State.avsAlert_only _ r)
  obtain ⟨htaken, hagain, hfail⟩ := s.avsWrite_spec mv n r
  dsimp only at htaken hagain hfail
  rw [← ht] at htaken hagain hfail
  cases h : r.taken with
  | true =>
    rw [htaken h]
    exact ((hto.trans (.wf _ _ _ _ _)).trans (.wf _ _ _ _ _)).trans (.avs _ _)
  | false =>
    rcases Nat.lt_or_ge n 3 with hn | hn
    · rw [hagain h hn]
      exact hto.trans (.avs _ _)
    · rw [hfail h hn]
      exact (hto.trans (.setB _ _ _)).trans (.avs _ _)

/-- The registers of the AVSBus master. -/
def AvsReg (a : Nat) : Prop := a = aCmd 8 ∨ a = aCmd 0x18

theorem State.avsAlert_rd (s : State) (r : AvsResp) {a : Nat} (ha : ¬ AvsReg a) : (s.avsAlert r).rd a = s.rd a := by
  have h8 : a ≠ aCmd 8 := fun h => ha (.inl h)
  have h18 : a ≠ aCmd 0x18 := fun h => ha (.inr h)
  obtain ⟨t, ht⟩ : ∃ t, t = (s.avsSend .readStatus).setB (aCmd 8) 5 := ⟨_, rfl⟩
  have htr : t.rd a = s.rd a := by
    rw [ht]
    exact State.rd_wf_ne h8
  obtain ⟨hnone, hsome, hfail⟩ := s.avsAlert_spec r
  dsimp only at hsome hfail
  rw [← ht] at hsome hfail
  cases h : r.alert with
  | none => rw [hnone h]
  | some x =>
    cases x with
    | none =>
      rw [hfail h]
      exact htr
    | some d =>
      rw [hsome d h]
      exact (State.rd_wf_ne h18).trans htr

/-- A Write touches, of AGE_STATUS, the acknowledged step alone, and of the others CMD's registers of the core voltage. -/
theorem State.avsWrite_regs {s : State} (h : s.Inv) (mv n : Nat) (r : AvsResp) :
    (∀ lo w, lo + w ≤ 28 → (s.avsWrite mv n r).rf (aHlt 0x604) lo w = s.rf (aHlt 0x604) lo w) ∧
    ∀ a, 0x30000 ≤ a → a ≠ aHlt 0x604 → (s.avsWrite mv n r).rd a = s.rd a := by
  obtain ⟨t, ht⟩ : ∃ t, t = (s.avsSend (.write mv)).avsAlert r := ⟨_, rfl⟩
  have hti : t.Inv := by
    rw [ht]
    exact (State.avsAlert_keeps (State.avsSend_keeps (.refl s) _) r).inv h
  have htr : ∀ a, 0x30000 ≤ a → t.rd a = s.rd a := fun a ha => by
    rw [ht]
    exact State.avsAlert_rd _ r (by unfold AvsReg aCmd; omega)
  obtain ⟨htaken, hagain, hfail⟩ := s.avsWrite_spec mv n r
  dsimp only at htaken hagain hfail
  rw [← ht] at htaken hagain hfail
  have hsame : ∀ lo w, t.rf (aHlt 0x604) lo w = s.rf (aHlt 0x604) lo w := fun lo w => State.rf_of_rd (htr _ (by decide)) lo w
  cases htk : r.taken with
  | true =>
    obtain ⟨u, hu⟩ : ∃ u, u = t.wf (aCmd 0x10) 0 16 mv := ⟨_, rfl⟩
    have hui : u.Inv := hu ▸ hti.wf _ _ _ _
    have hur : ∀ a, 0x30000 ≤ a → u.rd a = s.rd a := fun a ha => by
      rw [hu, State.rd_wf_ne (by unfold aCmd; omega), htr a ha]
    have htaken := htaken htk
    rw [← hu] at htaken
    obtain ⟨v, hv⟩ : ∃ v, v = u.wf (aHlt 0x604) 28 4 ((mv - 900) / 5) := ⟨_, rfl⟩
    rw [← hv] at htaken
    have hvr : (s.avsWrite mv n r).regs = v.regs := by rw [htaken]
    refine ⟨fun lo w hlw => ?_, fun a ha hne => ?_⟩
    · rw [State.rf_congr hvr, hv, State.rf_wf_disjoint hui.regs _ _ (.inl hlw)]
      exact State.rf_of_rd (hur _ (by decide)) lo w
    · rw [State.rd_congr hvr, hv, State.rd_wf_ne hne, hur a ha]
  | false =>
    rcases Nat.lt_or_ge n 3 with hn | hn
    · rw [hagain htk hn]
      exact ⟨fun lo w _ => hsame lo w, fun a ha _ => htr a ha⟩
    · have hfail := hfail htk hn
      obtain ⟨v, hv⟩ : ∃ v, v = t.setB (aCmd 8) 3 := ⟨_, rfl⟩
      have h8 : ∀ a, 0x30000 ≤ a → v.rd a = s.rd a := fun a ha => by
        rw [hv]
        exact (State.rd_wf_ne (by unfold aCmd; omega)).trans (htr a ha)
      rw [← hv] at hfail
      rw [hfail]
      exact ⟨fun lo w _ => State.rf_of_rd (h8 _ (by decide)) lo w, fun a ha _ => h8 a ha⟩

theorem State.ageRequest_eq (s : State) (need : Nat) (r : AvsResp) :
    s.ageRequest need r = s ∨ ∃ mv, s.ageRequest need r = s.avsWrite mv 0 r := by
  unfold State.ageRequest
  dsimp only
  split_ifs
  · exact .inl rfl
  · exact .inr ⟨_, rfl⟩
  · exact .inr ⟨_, rfl⟩
  · exact .inl rfl

/- Candidates for sparing (R476 to R478) ------------------------------------------------------------------------------------------------------ -/

theorem State.spareCheck_eq (s : State) (sh : Nat) : s.spareCheck sh = s ∨ s.spareCheck sh = s.setB (aHlt 0) 12 := by
  unfold State.spareCheck
  split_ifs
  · exact .inr rfl
  · exact .inl rfl

/-- Sheaf registers, and HLT.STICKY. -/
def SpareReg (a : Nat) : Prop := a = aHlt 0 ∨ 0x100000 ≤ a

/-- An engine that is a candidate already, or out of use, is none anew. -/
theorem State.candidate_eq (s : State) (e : Nat) : s.candidate e = s ∨ ∃ y x, y = s.setB (aShf (e / 9) 4) (16 + e % 9) ∧
    x = { y with repairQ := y.repairQ ++ [Repair.mk 6 1 (16 * (e / 9) + e % 9) 0] } ∧ s.candidate e = x.spareCheck (e / 9) := by
  unfold State.candidate
  dsimp only
  split_ifs
  · exact .inl rfl
  · exact .inr ⟨_, _, rfl, rfl, rfl⟩

theorem State.candidate_frame (s : State) (e : Nat) : ∃ r q, s.candidate e = { s with regs := r, repairQ := q } := by
  rcases s.candidate_eq e with h | ⟨y, x, hy, hx, h⟩
  · exact ⟨s.regs, s.repairQ, h⟩
  · obtain ⟨r, hr⟩ := s.wf_is (aShf (e / 9) 4) (16 + e % 9) 1 1
    rw [State.setB, hr] at hy
    rw [hy] at hx
    rcases x.spareCheck_eq (e / 9) with hc | hc
    · exact ⟨r, x.repairQ, by rw [h, hc, hx]⟩
    · obtain ⟨r', hr'⟩ := x.wf_is (aHlt 0) 12 1 1
      exact ⟨r', x.repairQ, by rw [h, hc, State.setB, hr', hx]⟩

/-- A good slot becomes a candidate, with a repair record. -/
theorem State.candidate_spec {s : State} (h : s.Inv) {sh k : Nat} (hk : k < 9) (hw : s.bit (aShf sh 4) (16 + k) = false)
    (ho : s.bit (aShf sh 4) k = false) : let t := s.candidate (9 * sh + k)
    t.bit (aShf sh 4) (16 + k) = true ∧ t.repairQ = s.repairQ ++ [⟨6, 1, 16 * sh + k, 0⟩] ∧ t.mem = s.mem := by
  have hdiv : (9 * sh + k) / 9 = sh := by omega
  have hmod : (9 * sh + k) % 9 = k := by omega
  obtain ⟨y, hy⟩ : ∃ y, y = s.setB (aShf sh 4) (16 + k) := ⟨_, rfl⟩
  have hyb : y.bit (aShf sh 4) (16 + k) = true := by
    rw [hy]
    exact State.bit_setB_self h.regs _ (by omega)
  have hyf : y.repairQ = s.repairQ ∧ y.mem = s.mem := by
    rw [hy, State.setB_frame]
    exact ⟨rfl, rfl⟩
  obtain ⟨x, hx⟩ : ∃ x, x = { y with repairQ := s.repairQ ++ [Repair.mk 6 1 (16 * sh + k) 0] } := ⟨_, rfl⟩
  have hxb : x.bit (aShf sh 4) (16 + k) = true := by rw [hx]; exact hyb
  have hxq : x.repairQ = s.repairQ ++ [⟨6, 1, 16 * sh + k, 0⟩] := by rw [hx]
  have hxm : x.mem = s.mem := by rw [hx]; exact hyf.2
  have heq : s.candidate (9 * sh + k) = x.spareCheck sh := by
    unfold State.candidate
    dsimp only
    rw [hdiv, hmod, hw, ho, ← hy, hyf.1, hx]
    rfl
  dsimp only
  rw [heq]
  rcases x.spareCheck_eq sh with hc | hc
  · rw [hc]
    exact ⟨hxb, hxq, hxm⟩
  · rw [hc]
    refine ⟨(State.bit_wr_ne _ _ ?_).trans hxb, hxq, hxm⟩
    unfold aShf aHlt
    omega

theorem State.candidate_rd (s : State) (e : Nat) {a : Nat} (ha : ¬ SpareReg a) : (s.candidate e).rd a = s.rd a := by
  obtain ⟨h0, hshf⟩ := not_or.mp ha
  have hne : a ≠ aShf (e / 9) 4 := by unfold aShf; omega
  rcases s.candidate_eq e with h | ⟨y, x, hy, hx, h⟩
  · rw [h]
  · have hyr : y.rd a = s.rd a := by
      rw [hy]
      exact State.rd_wf_ne hne
    have hxr : x.rd a = y.rd a := State.rd_congr (by rw [hx]) a
    rcases x.spareCheck_eq (e / 9) with hc | hc
    · rw [h, hc, hxr, hyr]
    · rw [h, hc]
      exact (State.rd_wf_ne h0).trans (hxr.trans hyr)

/- An evaluation (R469 to R472) -------------------------------------------------------------------------------------------------------------- -/

theorem aAge_ne {e f : Nat} (h : e ≠ f) : aAge e ≠ aAge f := by unfold aAge aHlt; omega

/-- The windows of an evaluation are stored one engine after another. -/
theorem State.ageStores_spec (x : W64) (l : List Nat) : ∀ s : State, s.Inv → l.Nodup →
    let t := l.foldl (fun (t : State) e => t.ageStore x e) s
    t.Inv ∧ (∀ e ∈ l, t.bit (aAge e) 31 = true) ∧ (∀ a, (∀ e ∈ l, a ≠ aAge e) → t.rd a = s.rd a) ∧
    t.mem = s.mem ∧ t.ths = s.ths := by
  induction l with
  | nil => exact fun s h _ => ⟨h, fun e he => absurd he List.not_mem_nil, fun _ _ => rfl, rfl, rfl⟩
  | cons j l ih =>
    intro s h hn
    obtain ⟨hj, hl⟩ := List.nodup_cons.mp hn
    have honly := s.ageStore_only x j
    obtain ⟨hi, hvalid, hrd, hmem, hths⟩ := ih (s.ageStore x j) ((State.ageStore_keeps (.refl s) x j).inv h) hl
    refine ⟨hi, fun e he => ?_, fun a ha => ?_, hmem.trans honly.mem, hths.trans honly.ths⟩
    · by_cases hej : e = j
      · have hother : ∀ f ∈ l, aAge j ≠ aAge f := fun f hf => aAge_ne fun heq => hj (heq ▸ hf)
        exact hej ▸ (State.bit_of_rd (hrd _ hother) 31).trans (State.ageStore_valid h x j)
      · exact hvalid e ((List.mem_cons.mp he).resolve_left hej)
    · exact (hrd a fun e he => ha e (List.mem_cons_of_mem _ he)).trans (honly.rd a (ha j List.mem_cons_self))

/-- Candidates one after another. -/
theorem State.candidates_spec (l : List Nat) : ∀ s : State, let t := l.foldl State.candidate s
    (∃ r q, t = { s with regs := r, repairQ := q }) ∧ ∀ a, ¬ SpareReg a → t.rd a = s.rd a := by
  induction l with
  | nil => exact fun s => ⟨⟨s.regs, s.repairQ, rfl⟩, fun _ _ => rfl⟩
  | cons e l ih =>
    intro s
    obtain ⟨⟨r, q, hf⟩, hrd⟩ := ih (s.candidate e)
    obtain ⟨r', q', hf'⟩ := s.candidate_frame e
    refine ⟨⟨r, q, ?_⟩, fun a ha => (hrd a ha).trans (s.candidate_rd e ha)⟩
    rw [List.foldl_cons, hf, hf']

/-- Flags that an evaluation may set in HLT.STICKY. -/
structure Flagged (s t : State) : Prop where
  inv : s.Inv → t.Inv
  frame : ∃ r, t = { s with regs := r }
  rd : ∀ a, a ≠ aHlt 0 → t.rd a = s.rd a

theorem Flagged.refl (s : State) : Flagged s s := ⟨id, ⟨s.regs, rfl⟩, fun _ _ => rfl⟩

theorem Flagged.setB {s t : State} (h : Flagged s t) (i : Nat) : Flagged s (t.setB (aHlt 0) i) := by
  obtain ⟨r, hr⟩ := h.frame
  obtain ⟨r', hr'⟩ := t.wf_is (aHlt 0) i 1 1
  refine ⟨fun hi => (h.inv hi).setB _ _, ⟨r', ?_⟩, fun a ha => (State.rd_wf_ne ha).trans (h.rd a ha)⟩
  rw [State.setB, hr', hr]

theorem Flagged.ite {s t u : State} {c : Prop} [Decidable c] (ht : Flagged s t) (hu : Flagged s u) : Flagged s (if c then t else u) := by
  split_ifs
  · exact ht
  · exact hu

/-- The steps that an evaluation asks for. -/
def State.ageNeed (s : State) (top : Nat) : Nat :=
  min ((stepsFor (BitVec.ofNat 16 (s.rf (aHlt 0x604) 0 16)).toInt).toNat) (min 12 top)

/-- The parts of an evaluation: the windows, the steps needed, the flags, the candidates and the request. -/
theorem State.ageEvaluate_parts (s : State) (r : AvsResp) : ∃ t0 t1 t2 t3 : State, ∃ (l : List Nat) (past : Bool),
    t0 = (List.range 108).foldl (fun (t : State) e => t.ageStore s.free e) s.used ∧ t1 = ({ t0 with age := [] } : State).ageMax ∧
    t2 = t1.wf (aHlt 0x604) 24 4 (t1.ageNeed (s.rf (aHlt 0x608) 0 4)) ∧ Flagged t2 t3 ∧
    s.ageEvaluate r =
      ({ l.foldl State.candidate t3 with ageOver := past } : State).ageRequest (t1.ageNeed (s.rf (aHlt 0x608) 0 4)) r := by
  refine ⟨_, _, _, _, _, _, rfl, rfl, rfl, ?_, rfl⟩
  exact .ite (.ite (.setB (.ite (.setB (.refl _) 7) (.refl _)) 6) (.ite (.setB (.refl _) 7) (.refl _)))
    (.setB (.ite (.setB (.ite (.setB (.refl _) 7) (.refl _)) 6) (.ite (.setB (.refl _) 7) (.refl _))) 8)

theorem State.ageEvaluate_spec {s : State} (h : s.Inv) (r : AvsResp) : let s' := s.ageEvaluate r
    s'.age = [] ∧ s'.mem = s.mem ∧ s'.ths = s.ths ∧ (∀ e < 108, s'.bit (aAge e) 31 = true) ∧
    s'.rf (aHlt 0x604) 24 4 = min ((stepsFor (BitVec.ofNat 16 (s'.rf (aHlt 0x604) 0 16)).toInt).toNat)
      (min 12 (s.rf (aHlt 0x608) 0 4)) := by
  obtain ⟨t0, t1, t2, t3, l, past, h0, h1, h2, hflag, heq⟩ := s.ageEvaluate_parts r
  obtain ⟨hi0, hvalid, _, hmem0, hths0⟩ := State.ageStores_spec s.free (List.range 108) s.used ((State.used_keeps (.refl s)).inv h)
    List.nodup_range
  rw [← h0] at hi0 hvalid hmem0 hths0
  obtain ⟨e0, he0⟩ : ∃ t, t = ({ t0 with age := [] } : State) := ⟨_, rfl⟩
  have hei : e0.Inv := he0 ▸ { hi0 with age := rfl }
  obtain ⟨g, f, hf⟩ := e0.ageMax_frame
  have hmax := e0.ageMax_only
  rw [← he0] at h1
  rw [← h1] at hf hmax
  have hi1 : t1.Inv := h1 ▸ (State.ageMax_keeps (.refl e0)).inv hei
  obtain ⟨need, hneed⟩ : ∃ n, n = t1.ageNeed (s.rf (aHlt 0x608) 0 4) := ⟨_, rfl⟩
  have hlt : need < 2 ^ 4 := by
    rw [hneed, State.ageNeed]
    omega
  rw [← hneed] at h2 heq
  have hi2 : t2.Inv := h2 ▸ hi1.wf _ _ _ _
  have hstep : t2.rf (aHlt 0x604) 24 4 = need := by
    rw [h2, State.rf_wf_self hi1.regs _ _ (by decide)]
    exact Nat.mod_eq_of_lt hlt
  have hslow : t2.rf (aHlt 0x604) 0 16 = t1.rf (aHlt 0x604) 0 16 := by
    rw [h2, State.rf_wf_disjoint hi1.regs _ _ (by decide)]
  obtain ⟨⟨c, q, hc⟩, hcrd⟩ := State.candidates_spec l t3
  obtain ⟨u, hu⟩ : ∃ u, u = ({ l.foldl State.candidate t3 with ageOver := past } : State) := ⟨_, rfl⟩
  rw [← hu] at heq
  have hui : u.Inv := by
    have hfold := (State.foldl_keeps (.refl t3) fun t e => State.candidate_keeps (.refl t) e : t3.Keeps (l.foldl State.candidate t3))
    rw [hu]
    exact { hfold.inv (hflag.inv hi2) with }
  have hur : ∀ a, a ≠ aHlt 0 → a < 0x100000 → u.rd a = t2.rd a := fun a ha hlo => by
    rw [hu]
    exact (hcrd a (by unfold SpareReg; omega)).trans (hflag.rd a ha)
  have huf : u.age = [] ∧ u.mem = s.mem ∧ u.ths = s.ths := by
    obtain ⟨r3, hr3⟩ := hflag.frame
    obtain ⟨r2, hr2⟩ := t1.wf_is (aHlt 0x604) 24 4 need
    rw [hu, hc, hr3, h2, hr2, hf, he0]
    exact ⟨rfl, hmem0, hths0⟩
  have hbits : ∀ e < 108, u.bit (aAge e) 31 = true := fun e he => by
    have hne0 : aAge e ≠ aHlt 0 := by unfold aAge aHlt; omega
    have hne : aAge e ≠ aHlt 0x604 := by unfold aAge aHlt; omega
    rw [State.bit_of_rd (hur _ hne0 (by unfold aAge aHlt; omega)), h2, State.bit_of_rd (State.rd_wf_ne hne),
      State.bit_of_rd (hmax.rd _ hne), State.bit_congr (by rw [he0] : e0.regs = t0.regs)]
    exact hvalid e (List.mem_range.mpr he)
  have hfields : u.rf (aHlt 0x604) 24 4 = need ∧ u.rf (aHlt 0x604) 0 16 = t1.rf (aHlt 0x604) 0 16 := by
    have hrd := hur (aHlt 0x604) (by decide) (by decide)
    exact ⟨(State.rf_of_rd hrd 24 4).trans hstep, (State.rf_of_rd hrd 0 16).trans hslow⟩
  have hgoal : ∀ lo w, lo + w ≤ 28 → (s.ageEvaluate r).rf (aHlt 0x604) lo w = u.rf (aHlt 0x604) lo w := fun lo w hlw => by
    rcases u.ageRequest_eq need r with hreq | ⟨mv, hreq⟩
    · rw [heq, hreq]
    · rw [heq, hreq, (State.avsWrite_regs hui mv 0 r).1 lo w hlw]
  dsimp only
  rw [hgoal 24 4 (by decide), hgoal 0 16 (by decide), hfields.1, hfields.2]
  obtain ⟨hage, hmem, hths⟩ := huf
  have hlast : AvsOnly u (s.ageEvaluate r) := by
    rcases u.ageRequest_eq need r with hreq | ⟨mv, hreq⟩
    · rw [heq, hreq]
      exact ⟨u.regs, u.avs, u.avsOut, rfl⟩
    · rw [heq, hreq]
      exact u.avsWrite_only mv 0 r
  obtain ⟨g', a', o', hlast⟩ := hlast
  refine ⟨by rw [hlast]; exact hage, by rw [hlast]; exact hmem, by rw [hlast]; exact hths, fun e he => ?_, hneed⟩
  rcases u.ageRequest_eq need r with hreq | ⟨mv, hreq⟩
  · rw [heq, hreq]
    exact hbits e he
  · have hrd := (State.avsWrite_regs hui mv 0 r).2 (aAge e) (by unfold aAge aHlt; omega) (by unfold aAge aHlt; omega)
    rw [heq, hreq, State.bit_of_rd hrd]
    exact hbits e he

end Sys2Proof.Machine
end

section

/-! SUPPORT. Sparing, life, rail currents and the sticky hierarchy (R473, R476 to R483). -/

namespace Sys2Proof.Machine

/- Life (R473) -------------------------------------------------------------------------------------------------------------------------------- -/

theorem State.lifeAdd_spec {s : State} (h : s.Inv) (af : Nat) :
    let f := (s.rd (aHlt 0x614)).toNat + af
    let u := (s.rf (aHlt 0x610) 0 16 + f / 129259930) % 2 ^ 16
    (s.lifeAdd af).rf (aHlt 0x610) 0 16 = u ∧ (s.lifeAdd af).rf (aHlt 0x614) 0 27 = f % 129259930 ∧
    (s.rf (aHlt 0x618) 0 16 ≤ u → (s.lifeAdd af).bit (aHlt 0) 9 = true) := by
  intro f u
  obtain ⟨x, hx⟩ : ∃ x, x = s.wf (aHlt 0x614) 0 27 (f % 129259930) := ⟨_, rfl⟩
  have hxi : x.Inv := hx ▸ h.wf _ _ _ _
  have hxf : x.rf (aHlt 0x614) 0 27 = f % 129259930 := by
    rw [hx, State.rf_wf_self h.regs _ _ (by decide)]
    exact Nat.mod_eq_of_lt (lt_trans (Nat.mod_lt _ (by decide)) (by norm_num))
  obtain ⟨y, hy⟩ : ∃ y, y = x.wf (aHlt 0x610) 0 16 u := ⟨_, rfl⟩
  have hyi : y.Inv := hy ▸ hxi.wf _ _ _ _
  have hyu : y.rf (aHlt 0x610) 0 16 = u := by
    rw [hy, State.rf_wf_self hxi.regs _ _ (by decide)]
    exact Nat.mod_mod _ _
  have hyf : y.rf (aHlt 0x614) 0 27 = f % 129259930 := by
    rw [hy]
    exact (State.rf_of_rd (State.rd_wf_ne (by decide)) 0 27).trans hxf
  have heq : s.lifeAdd af = if s.rf (aHlt 0x618) 0 16 ≤ u then y.setB (aHlt 0) 9 else y := by rw [hy, hx]; rfl
  rw [heq]
  split_ifs with hw
  · exact ⟨(State.rf_of_rd (State.rd_wf_ne (by decide)) 0 16).trans hyu, (State.rf_of_rd (State.rd_wf_ne (by decide)) 0 27).trans hyf,
      fun _ => State.bit_setB_self hyi.regs _ (by decide)⟩
  · exact ⟨hyu, hyf, fun hc => absurd hc hw⟩

/-- A life update whose voltage has a result and whose factor the register holds. -/
theorem State.lifeUpdate_known {s : State} (hv : s.bit (aHlt 0x250) 31 = true)
    (haf : lifeFactor (s.rf (aHlt 8) 0 12) (s.rf (aHlt 0x250) 0 12) < 2 ^ 16) :
    s.lifeUpdate = { (s.lifeAdd (lifeFactor (s.rf (aHlt 8) 0 12) (s.rf (aHlt 0x250) 0 12))).wf (aHlt 0x61C) 0 16
      (lifeFactor (s.rf (aHlt 8) 0 12) (s.rf (aHlt 0x250) 0 12)) with lifeTicks := s.lifeTicks + 1 } := by
  unfold State.lifeUpdate
  dsimp only
  rw [hv, if_pos rfl, if_pos rfl, if_pos haf]

/- Rail currents -------------------------------------------------------------------------------------------------------------------------------- -/

/-- A report stands in the four registers, each with its VALID bit. -/
theorem State.railReport_spec {s : State} (h : s.Inv) (l : List (BitVec 16)) : let t := s.railReport l
    (∀ r < 4, t.rf (aHlt (0x640 + 4 * r)) 0 16 = (l.getD r 0).toNat ∧ t.bit (aHlt (0x640 + 4 * r)) 31 = true) ∧ t.mem = s.mem := by
  obtain ⟨v, hv⟩ : ∃ v : Nat → W32, v = fun r => BitVec.ofNat 32 ((l.getD r 0).toNat + 2 ^ 31) := ⟨_, rfl⟩
  have hfields : ∀ r, field (v r) 0 16 = (l.getD r 0).toNat ∧ field (v r) 31 1 = 1 := fun r => by
    have hlt := (l.getD r 0).isLt
    have hn : (v r).toNat = (l.getD r 0).toNat + 2147483648 := by
      rw [hv, BitVec.toNat_ofNat]
      exact Nat.mod_eq_of_lt (by omega)
    refine ⟨?_, ?_⟩ <;> rw [field, hn] <;> omega
  obtain ⟨x, hx⟩ : ∃ x, x = (List.range 4).foldl (fun t r => t.wr (aHlt (0x640 + 4 * r)) (v r)) s := ⟨_, rfl⟩
  obtain ⟨g, hg⟩ : ∃ g, x = { s with regs := g } := by
    rw [hx]
    exact foldl_wr_frame s
  have heq : s.railReport l = x.powerSum := by rw [hx, hv]; rfl
  have honly := x.powerSum_only
  have hrd : ∀ r < 4, x.powerSum.rd (aHlt (0x640 + 4 * r)) = v r := fun r hr => by
    rw [honly.rd _ (by unfold LimitReg aHlt; omega), hx]
    exact foldl_wr_self (g := fun r => aHlt (0x640 + 4 * r)) List.nodup_range (fun i _ j _ hij => by unfold aHlt; omega)
      (List.mem_range.mpr hr) h
  dsimp only
  rw [heq]
  refine ⟨fun r hr => ⟨?_, ?_⟩, honly.mem.trans (by rw [hg])⟩
  · rw [State.rf, hrd r hr]
    exact (hfields r).1
  · rw [State.bit, State.rf, hrd r hr]
    exact beq_iff_eq.mpr (hfields r).2

/- Sparing (R476 to R478) ----------------------------------------------------------------------------------------------------------------------- -/

/-- Registers of engine `d` that a remap copies. -/
def CopyReg (d a : Nat) : Prop := ∃ o, 0x28 ≤ o ∧ o < 0x200 ∧ a = aEng d o

theorem State.copyReg_only {P : Nat → Prop} (s : State) (a : Nat) {b : Nat} (hb : P b) : TickOnly P s (s.copyReg a b) :=
  .foldl _ (fun t _ _ => .ite (.wf hb t _ _ _) (.refl t)) s

theorem State.copyEngine_only (s : State) (e d : Nat) : TickOnly (CopyReg d) s (s.copyEngine e d) := by
  refine .foldl _ (fun t o ho => t.copyReg_only _ ⟨o, ?_, ?_, rfl⟩) s
  · rcases List.mem_append.mp ho with ho | ho
    · simp only [List.mem_cons, List.not_mem_nil, or_false] at ho
      omega
    · obtain ⟨i, _, hi⟩ := List.mem_map.mp ho
      omega
  · rcases List.mem_append.mp ho with ho | ho
    · simp only [List.mem_cons, List.not_mem_nil, or_false] at ho
      omega
    · obtain ⟨i, hi, hio⟩ := List.mem_map.mp ho
      have := List.mem_range.mp hi
      omega

/-- The position of an engine. -/
theorem State.posOf_some {s : State} {sh k p : Nat} (h : s.posOf sh k = some p) : p < 8 := by
  exact List.mem_range.mp (List.mem_of_find?_eq_some h)

/-- The spare slot is none of a position. -/
theorem State.spareSlot_some {s : State} {sh d : Nat} (h : s.spareSlot sh = some d) : d < 9 ∧ s.posOf sh d = none := by
  have hfree := List.find?_some h
  rw [Bool.and_eq_true, Bool.and_eq_true, Option.isNone_iff_eq_none] at hfree
  exact ⟨List.mem_range.mp (List.mem_of_find?_eq_some h), hfree.1.1⟩

/-- A remap, as a sequence of writes. -/
theorem State.remap_eq {s : State} {sh k p d : Nat} (hk : k < 9) (hb : s.bit (aShf sh 4) (16 + k) = true)
    (hp : s.posOf sh k = some p) (hd : s.spareSlot sh = some d) : ∃ t1 t2 t3 t4 : State,
    t1 = ((s.copyEngine (9 * sh + k) (9 * sh + d)).wf (aShf sh 0) (4 * p) 4 d).setB (aHlt 0) 11 ∧
    t2 = (t1.setB (aShf sh 4) k).clrB (aShf sh 4) (16 + k) ∧ t3 = t2.clrB (aEng (9 * sh + k) 0) 0 ∧
    t4 = (t3.putB (aEng (9 * sh + d) 0) 0 (s.mapped (9 * sh + k))).setB (aHlt 0) 10 ∧
    s.remap (9 * sh + k) = t4.spareCheck sh := by
  refine ⟨_, _, _, _, rfl, rfl, rfl, rfl, ?_⟩
  have hdiv : (9 * sh + k) / 9 = sh := by omega
  have hmod : (9 * sh + k) % 9 = k := by omega
  unfold State.remap
  dsimp only
  rw [hdiv, hmod, hb, hp, hd]
  rfl

/-- A check for a spare may set NO_SPARE_ENG, and does where a candidate of a position finds none. -/
theorem State.spareCheck_spec {t : State} (h : t.Inv) (sh : Nat) : let s' := t.spareCheck sh
    (∀ a, a ≠ aHlt 0 → s'.rd a = t.rd a) ∧ (∀ i, i ≠ 12 → s'.bit (aHlt 0) i = t.bit (aHlt 0) i) ∧ s'.mem = t.mem ∧ s'.ths = t.ths ∧
    (s'.spareSlot sh = none → (∃ j < 9, s'.bit (aShf sh 4) (16 + j) = true ∧ (s'.posOf sh j).isSome = true) →
      s'.bit (aHlt 0) 12 = true) := by
  by_cases hcheck : (((List.range 9).any fun k => t.bit (aShf sh 4) (16 + k) && (t.posOf sh k).isSome) && (t.spareSlot sh).isNone) = true
  · have heq : t.spareCheck sh = t.setB (aHlt 0) 12 := if_pos hcheck
    rw [heq]
    exact ⟨fun a ha => State.rd_wf_ne ha, fun i hi => State.bit_setB_ne h.regs _ hi, rfl, rfl, fun _ _ => State.bit_setB_self h.regs _ (by decide)⟩
  · have heq : t.spareCheck sh = t := if_neg hcheck
    rw [heq]
    refine ⟨fun _ _ => rfl, fun _ _ => rfl, rfl, rfl, fun hnone ⟨j, hj, hjw, hjp⟩ => absurd ?_ hcheck⟩
    rw [hnone, Bool.and_eq_true]
    exact ⟨List.any_eq_true.mpr ⟨j, List.mem_range.mpr hj, by rw [hjw, hjp]; rfl⟩, rfl⟩

theorem aShf_ne_hlt (sh o o' : Nat) (h : o' < 0x1000) : aShf sh o ≠ aHlt o' := by unfold aShf aHlt; omega

theorem aEng_ne_hlt (e o o' : Nat) (h : o' < 0x1000) : aEng e o ≠ aHlt o' := by unfold aEng aHlt; omega

theorem aEng_ne_shf {sh j o : Nat} (hj : j < 9) (ho : o < 0x1000) : aEng (9 * sh + j) 0 ≠ aShf sh o := by unfold aEng aShf; omega

/-- The writes of a remap: the position, the marks of the candidate, and MAPPED of both engines (R477). -/
theorem State.remap_writes {t0 t1 t2 t3 t4 : State} (h : t0.Inv) {sh k p d : Nat} {m : Bool} (hk : k < 9) (hd : d < 9) (hp : p < 8)
    (hdk : d ≠ k) (h1 : t1 = (t0.wf (aShf sh 0) (4 * p) 4 d).setB (aHlt 0) 11)
    (h2 : t2 = (t1.setB (aShf sh 4) k).clrB (aShf sh 4) (16 + k)) (h3 : t3 = t2.clrB (aEng (9 * sh + k) 0) 0)
    (h4 : t4 = (t3.putB (aEng (9 * sh + d) 0) 0 m).setB (aHlt 0) 10) :
    t4.Inv ∧ t4.rf (aShf sh 0) (4 * p) 4 = d ∧ t4.bit (aShf sh 4) k = true ∧ t4.bit (aShf sh 4) (16 + k) = false ∧
    t4.mapped (9 * sh + k) = false ∧ t4.mapped (9 * sh + d) = m ∧ t4.bit (aHlt 0) 11 = true ∧ t4.bit (aHlt 0) 10 = true ∧
    t4.mem = t0.mem ∧ t4.ths = t0.ths := by
  have hshf : ∀ o, aShf sh o ≠ aHlt 0 := fun o => aShf_ne_hlt sh o 0 (by decide)
  have heng : ∀ e, aEng e 0 ≠ aHlt 0 := fun e => aEng_ne_hlt e 0 0 (by decide)
  have hne04 : aShf sh 0 ≠ aShf sh 4 := by unfold aShf; omega
  have hengs : aEng (9 * sh + k) 0 ≠ aEng (9 * sh + d) 0 := aEng_ne (by decide) (by decide) (.inl (by omega))
  obtain ⟨a1, ha1⟩ : ∃ a, a = t0.wf (aShf sh 0) (4 * p) 4 d := ⟨_, rfl⟩
  rw [← ha1] at h1
  obtain ⟨a2, ha2⟩ : ∃ a, a = t1.setB (aShf sh 4) k := ⟨_, rfl⟩
  rw [← ha2] at h2
  obtain ⟨a4, ha4⟩ : ∃ a, a = t3.putB (aEng (9 * sh + d) 0) 0 m := ⟨_, rfl⟩
  rw [← ha4] at h4
  have ha1i : a1.Inv := ha1 ▸ h.wf _ _ _ _
  have h1i : t1.Inv := h1 ▸ ha1i.setB _ _
  have ha2i : a2.Inv := ha2 ▸ h1i.setB _ _
  have h2i : t2.Inv := h2 ▸ ha2i.clrB _ _
  have h3i : t3.Inv := h3 ▸ h2i.clrB _ _
  have ha4i : a4.Inv := ha4 ▸ h3i.wf _ _ _ _
  have r1 : ∀ b, b ≠ aHlt 0 → t1.rd b = a1.rd b := fun b hb => h1 ▸ State.rd_wf_ne hb
  have r2 : ∀ b, b ≠ aShf sh 4 → t2.rd b = t1.rd b := fun b hb => by
    rw [h2]
    exact (State.rd_wf_ne hb).trans (ha2 ▸ State.rd_wf_ne hb)
  have r3 : ∀ b, b ≠ aEng (9 * sh + k) 0 → t3.rd b = t2.rd b := fun b hb => h3 ▸ State.rd_wf_ne hb
  have ra4 : ∀ b, b ≠ aEng (9 * sh + d) 0 → a4.rd b = t3.rd b := fun b hb => ha4 ▸ State.rd_wf_ne hb
  have r4 : ∀ b, b ≠ aHlt 0 → t4.rd b = a4.rd b := fun b hb => h4 ▸ State.rd_wf_ne hb
  have hlast : ∀ o, o < 0x1000 → t4.rd (aShf sh o) = t2.rd (aShf sh o) := fun o ho =>
    (r4 _ (hshf o)).trans ((ra4 _ (aEng_ne_shf hd ho).symm).trans (r3 _ (aEng_ne_shf hk ho).symm))
  have hall : TickOnly (fun _ => True) t0 t4 := by
    have o1 : TickOnly (fun _ => True) t0 t1 := h1 ▸ (ha1 ▸ .wf trivial _ _ _ _ : TickOnly (fun _ => True) t0 a1).trans (.setB trivial _ _)
    have o2 : TickOnly (fun _ => True) t1 t2 := h2 ▸ (ha2 ▸ .setB trivial _ _ : TickOnly (fun _ => True) t1 a2).trans (.clrB trivial _ _)
    have o3 : TickOnly (fun _ => True) t2 t3 := h3 ▸ .clrB trivial _ _
    have o4 : TickOnly (fun _ => True) t3 t4 := h4 ▸ (ha4 ▸ .wf trivial _ _ _ _ : TickOnly (fun _ => True) t3 a4).trans (.setB trivial _ _)
    exact ((o1.trans o2).trans o3).trans o4
  refine ⟨h4 ▸ ha4i.setB _ _, ?_, ?_, ?_, ?_, ?_, ?_, ?_, hall.mem, hall.ths⟩
  · rw [State.rf_of_rd (hlast 0 (by decide)), State.rf_of_rd (r2 _ hne04), State.rf_of_rd (r1 _ (hshf 0)), ha1,
      State.rf_wf_self h.regs _ _ (by omega)]
    exact Nat.mod_eq_of_lt (by omega)
  · rw [State.bit_of_rd (hlast 4 (by decide)), h2, State.bit_clrB_ne ha2i _ (by omega), ha2]
    exact State.bit_setB_self h1i.regs _ (by omega)
  · rw [State.bit_of_rd (hlast 4 (by decide)), h2]
    exact State.bit_clrB_self ha2i.regs _ (by omega)
  · rw [State.mapped, State.bit_of_rd (r4 _ (heng _)), State.bit_of_rd (ra4 _ hengs), h3]
    exact State.bit_clrB_self h2i.regs _ (by decide)
  · rw [State.mapped, State.bit_of_rd (r4 _ (heng _)), ha4, State.bit, State.putB, State.rf_wf_self h3i.regs _ _ (by decide)]
    cases m <;> rfl
  · rw [h4, State.bit_setB_ne ha4i.regs _ (by decide), State.bit_of_rd (ra4 _ (heng _).symm), State.bit_of_rd (r3 _ (heng _).symm),
      State.bit_of_rd (r2 _ (hshf 4).symm), h1]
    exact State.bit_setB_self ha1i.regs _ (by decide)
  · rw [h4]
    exact State.bit_setB_self ha4i.regs _ (by decide)

/-- A candidate's position passes to the good spare, with its registers (R477, R478). -/
theorem State.remap_spec {s : State} (h : s.Inv) {sh k p d : Nat} (hk : k < 9) (hb : s.bit (aShf sh 4) (16 + k) = true)
    (hp : s.posOf sh k = some p) (hd : s.spareSlot sh = some d) : let s' := s.remap (9 * sh + k)
    s'.physOf sh p = some d ∧ s'.bit (aShf sh 4) k = true ∧ s'.bit (aShf sh 4) (16 + k) = false ∧ s'.mapped (9 * sh + k) = false ∧
    s'.mapped (9 * sh + d) = s.mapped (9 * sh + k) ∧ s'.bit (aHlt 0) 11 = true ∧ s'.bit (aHlt 0) 10 = true ∧ s'.mem = s.mem ∧
    s'.ths = s.ths ∧ (s'.spareSlot sh = none →
      (∃ j < 9, s'.bit (aShf sh 4) (16 + j) = true ∧ (s'.posOf sh j).isSome = true) → s'.bit (aHlt 0) 12 = true) := by
  obtain ⟨hd9, hdpos⟩ := State.spareSlot_some hd
  have hdk : d ≠ k := fun heq => Option.some_ne_none p (hp.symm.trans (heq ▸ hdpos))
  have hcopy := s.copyEngine_only (9 * sh + k) (9 * sh + d)
  have hci : (s.copyEngine (9 * sh + k) (9 * sh + d)).Inv := (State.copyEngine_keeps (.refl s) _ _).inv h
  obtain ⟨t1, t2, t3, t4, h1, h2, h3, h4, heq⟩ := State.remap_eq hk hb hp hd
  obtain ⟨hi, hpos, hout, hwait, hold, hnew, h11, h10, hmem, hths⟩ :=
    State.remap_writes hci hk hd9 (State.posOf_some hp) hdk h1 h2 h3 h4
  obtain ⟨hrd, hbits, hcm, hct, hnone⟩ := State.spareCheck_spec hi sh
  dsimp only
  rw [heq]
  refine ⟨?_, (State.bit_of_rd (hrd _ (aShf_ne_hlt _ _ _ (by decide))) _).trans hout,
    (State.bit_of_rd (hrd _ (aShf_ne_hlt _ _ _ (by decide))) _).trans hwait,
    (State.bit_of_rd (hrd _ (aEng_ne_hlt _ _ _ (by decide))) _).trans hold,
    (State.bit_of_rd (hrd _ (aEng_ne_hlt _ _ _ (by decide))) _).trans hnew, (hbits 11 (by decide)).trans h11,
    (hbits 10 (by decide)).trans h10, hcm.trans (hmem.trans hcopy.mem), hct.trans (hths.trans hcopy.ths), hnone⟩
  unfold State.physOf
  dsimp only
  rw [State.rf_of_rd (hrd _ (aShf_ne_hlt _ _ _ (by decide))), hpos, if_pos hd9]

/- The sticky hierarchy (R480 to R483) ----------------------------------------------------------------------------------------------------------- -/

/-- The summary registers. -/
def SumReg (a : Nat) : Prop := 0xA0 ≤ a ∧ a ≤ 0xB8

theorem State.sumUpdate_only (s : State) : TickOnly SumReg s s.sumUpdate := by
  unfold State.sumUpdate
  dsimp only
  have hsum : ∀ {t : State} (a : Nat) (v : W32), SumReg a → TickOnly SumReg s t → TickOnly SumReg s (t.wr a v) := fun a v ha ht =>
    ht.trans (.wr ha _ v)
  have hin : ∀ a, 0xA0 ≤ a → a ≤ 0xB8 → SumReg a := fun _ hlo hhi => ⟨hlo, hhi⟩
  exact hsum _ _ (hin _ (by decide) (by decide)) (hsum _ _ (hin _ (by decide) (by decide)) (hsum _ _ (hin _ (by decide) (by decide))
    (hsum _ _ (hin _ (by decide) (by decide)) (hsum _ _ (hin _ (by decide) (by decide)) (hsum _ _ (hin _ (by decide) (by decide))
    (hsum _ _ (hin _ (by decide) (by decide)) (.refl s)))))))

theorem State.sumUpdate_frame (s : State) : ∃ r, s.sumUpdate = { s with regs := r } := by
  have hwr : ∀ (t : State) a v, (∃ r, t = { s with regs := r }) → ∃ r, t.wr a v = { s with regs := r } := by
    rintro _ a v ⟨r, rfl⟩
    exact ⟨_, rfl⟩
  unfold State.sumUpdate
  dsimp only
  exact hwr _ _ _ (hwr _ _ _ (hwr _ _ _ (hwr _ _ _ (hwr _ _ _ (hwr _ _ _ (hwr _ _ _ ⟨s.regs, rfl⟩))))))

/-- FAULT_N and ALERT_N follow their masks (R483). -/
theorem State.pinsUpdate_spec {s : State} (h : s.Inv) : let t := s.pinsUpdate
    t.bit 0x90 0 = (s.bit 0x90 2 || s.rd 0x80 &&& s.rd 0x84 != 0) ∧ t.bit 0x90 1 = (s.rd 0x80 &&& s.rd 0x88 != 0) ∧
    t.rd 0x80 = s.rd 0x80 ∧ t.evq = s.evq ∧ t.stickyNote = s.stickyNote ∧ t.mem = s.mem := by
  obtain ⟨fault, hf⟩ : ∃ b : Bool, b = (s.bit 0x90 2 || s.rd 0x80 &&& s.rd 0x84 != 0) := ⟨_, rfl⟩
  obtain ⟨alert, ha⟩ : ∃ b : Bool, b = (s.rd 0x80 &&& s.rd 0x88 != 0) := ⟨_, rfl⟩
  obtain ⟨x, hx⟩ : ∃ x, x = s.putB 0x90 0 fault := ⟨_, rfl⟩
  have hxi : x.Inv := hx ▸ h.wf _ _ _ _
  obtain ⟨y, hy⟩ : ∃ y, y = x.putB 0x90 1 alert := ⟨_, rfl⟩
  have hput : ∀ {u : State} (b : Bool), u.Inv → ∀ i < 32, (u.putB 0x90 i b).bit 0x90 i = b := fun b hu i hi => by
    rw [State.bit, State.putB, State.rf_wf_self hu.regs _ _ (by omega)]
    cases b <;> rfl
  have hy1 : y.bit 0x90 1 = alert := hy ▸ hput alert hxi 1 (by decide)
  have hy0 : y.bit 0x90 0 = fault := by
    rw [hy, State.bit, State.putB, State.rf_wf_disjoint hxi.regs _ _ (by decide)]
    exact hx ▸ hput fault h 0 (by decide)
  have hyr : y.rd 0x80 = s.rd 0x80 := by
    rw [hy, State.putB, State.rd_wf_ne (by decide), hx, State.putB, State.rd_wf_ne (by decide)]
  have hyf : y.evq = s.evq ∧ y.stickyNote = s.stickyNote ∧ y.mem = s.mem := by
    rw [hy, State.putB, State.wf_frame, hx, State.putB, State.wf_frame]
    exact ⟨rfl, rfl, rfl⟩
  have heq : s.pinsUpdate = if fault && !s.bit 0x90 0 then { y with faultNote := some (s.rd 0x80) } else y := by
    rw [hy, hx, hf, ha]
    rfl
  dsimp only
  rw [heq, ← hf, ← ha]
  split_ifs
  · exact ⟨hy0, hy1, hyr, hyf⟩
  · exact ⟨hy0, hy1, hyr, hyf⟩

/-- DEV_STICKY follows its sources; a bit that rises raises HEALTH. -/
theorem State.devUpdate_spec {s : State} (h : s.Inv) : let t := s.devUpdate
    t.rd 0x80 = BitVec.ofNat 32 s.devSticky ∧
    ((s.rd 0x80).toNat ||| s.devSticky = (s.rd 0x80).toNat → t.evq = s.evq ∧ t.stickyNote = s.stickyNote) ∧
    ((s.rd 0x80).toNat ||| s.devSticky ≠ (s.rd 0x80).toNat → t.evq = s.evq ++ [EvReq.mk rkHealth none 13 0] ∧
      t.stickyNote = some (BitVec.ofNat 32 s.devSticky)) ∧
    t.bit 0x90 0 = (s.bit 0x90 2 || BitVec.ofNat 32 s.devSticky &&& s.rd 0x84 != 0) ∧
    t.bit 0x90 1 = (BitVec.ofNat 32 s.devSticky &&& s.rd 0x88 != 0) ∧ t.mem = s.mem := by
  obtain ⟨v, hv⟩ : ∃ v, v = BitVec.ofNat 32 s.devSticky := ⟨_, rfl⟩
  obtain ⟨w, hw⟩ : ∃ w, w = s.wr 0x80 v := ⟨_, rfl⟩
  obtain ⟨x, hx⟩ : ∃ x, x = w.sumUpdate := ⟨_, rfl⟩
  have hxi : x.Inv := by
    rw [hx, hw]
    exact (State.sumUpdate_keeps (.refl _)).inv (h.wr _ _)
  have hxo : TickOnly SumReg w x := hx ▸ w.sumUpdate_only
  obtain ⟨g, hg⟩ := w.sumUpdate_frame
  rw [← hx] at hg
  have hxf : x.evq = s.evq ∧ x.stickyNote = s.stickyNote ∧ x.mem = s.mem := by
    rw [hg, hw]
    exact ⟨rfl, rfl, rfl⟩
  have hx80 : x.rd 0x80 = v := by
    rw [hxo.rd _ (by unfold SumReg; omega), hw, State.rd_wr_self h.regs]
  have hxr : ∀ a, a = 0x84 ∨ a = 0x88 ∨ a = 0x90 → x.rd a = s.rd a := fun a ha => by
    rw [hxo.rd _ (by unfold SumReg; omega), hw, State.rd_wr_ne (by omega)]
  obtain ⟨y, hy⟩ : ∃ y, y = if Nat.lor (s.rd 0x80).toNat s.devSticky = (s.rd 0x80).toNat then x
      else { x.post rkHealth none 13 0 with stickyNote := some v } := ⟨_, rfl⟩
  have heq : s.devUpdate = y.pinsUpdate := by rw [hy, hx, hw, hv]; rfl
  obtain ⟨hyi, hyr, hym⟩ : y.Inv ∧ y.regs = x.regs ∧ y.mem = x.mem := by
    rw [hy]
    split_ifs
    · exact ⟨hxi, rfl, rfl⟩
    · exact ⟨{ (State.post_keeps (.refl x) rkHealth none 13 0).inv hxi with }, rfl, rfl⟩
  obtain ⟨hf, ha, h80, hev, hnote, hmem⟩ := State.pinsUpdate_spec hyi
  rw [State.rd_congr hyr, State.rd_congr hyr, State.bit_congr hyr, hx80, hxr _ (.inl rfl),
    State.bit_of_rd (hxr _ (.inr (.inr rfl)))] at hf
  rw [State.rd_congr hyr, State.rd_congr hyr, hx80, hxr _ (.inr (.inl rfl))] at ha
  rw [State.rd_congr hyr, hx80] at h80
  dsimp only
  rw [heq, ← hv]
  refine ⟨h80, fun hsame => ?_, fun hrise => ?_, hf, ha, hmem.trans (hym.trans hxf.2.2)⟩
  · have hyx : y = x := hy.trans (if_pos hsame)
    rw [hev, hnote, hyx]
    exact ⟨hxf.1, hxf.2.1⟩
  · have hyx : y = { x.post rkHealth none 13 0 with stickyNote := some v } := hy.trans (if_neg hrise)
    rw [hev, hnote, hyx]
    exact ⟨congrArg (· ++ [EvReq.mk rkHealth none 13 0]) hxf.1, rfl⟩

end Sys2Proof.Machine
end

section

/-! Sensors, ageing, life, sparing and the sticky hierarchy: the statement (O59). -/

namespace Sys2Proof.Machine

section
variable {s : State}

theorem engIx_div (e : EngId) : engIx e / 9 = e.s.val := by
  have := e.k.isLt
  unfold engIx
  omega

theorem engIx_mod (e : EngId) : engIx e % 9 = e.k.val := by
  have := e.k.isLt
  unfold engIx
  omega

theorem engIx_lt (e : EngId) : engIx e < 108 := by
  have hs := e.s.isLt
  have hk := e.k.isLt
  unfold engIx
  omega

/-- A sensor request by the management controller (R463, R464). -/
theorem adcGo_spec (s : State) (k : BitVec 8) (hs : s.sleeping = false) : let b := s.mgmtIn (aHlt 0x14) true
    (sensorCode k.toNat = false → exec (.adcGo k) s = .next (b.flag (aHlt 0) 5)) ∧
    (sensorCode k.toNat = true → s.adc.now = none → exec (.adcGo k) s =
      .next { b with adc := { s.adc with now := some (32, k.toNat) } }) ∧
    (∀ x, sensorCode k.toNat = true → s.adc.now = some x → s.adc.next = none → exec (.adcGo k) s =
      .next { b with adc := { s.adc with next := some (32, k.toNat) } }.showWaiting) ∧
    (∀ x y, sensorCode k.toNat = true → s.adc.now = some x → s.adc.next = some y → s.adc.held = none →
      exec (.adcGo k) s = .next { b with adc := { s.adc with held := some k.toNat } }) ∧
    (∀ x y z, sensorCode k.toNat = true → s.adc.now = some x → s.adc.next = some y → s.adc.held = some z →
      exec (.adcGo k) s = .next { b.flag (aHlt 0) 14 with adc := { s.adc with held := some k.toNat } }) := by
  intro b
  have hadc : b.adc = s.adc := rfl
  obtain ⟨v, hv⟩ : ∃ v, v = BitVec.ofNat 32 (k.toNat + 2 ^ 31) := ⟨_, rfl⟩
  have hgoes : exec (.adcGo k) s = .next (b.adcGo k.toNat) := by
    refine congrArg Host.Outcome.next ?_
    rw [← hv]
    exact State.mgmtDo_awake hs (aHlt 0x14) (some v) fun s => s.adcGo k.toNat
  have hexec : ∀ {u}, b.adcGo k.toNat = u → exec (.adcGo k) s = .next u := fun hu => hgoes.trans (congrArg Host.Outcome.next hu)
  have hgo : sensorCode k.toNat = true → ¬ (!sensorCode k.toNat) = true := fun hk => by
    rw [hk]
    exact Bool.false_ne_true
  refine ⟨fun hk => hexec ?_, fun hk hn => hexec ?_, fun x hk hn hx => hexec ?_, fun x y hk hn hx hh => hexec ?_,
    fun x y z hk hn hx hh => hexec ?_⟩
  · exact if_pos (by rw [hk]; rfl)
  · unfold State.adcGo
    rw [if_neg (hgo hk), hadc, hn]
  · unfold State.adcGo
    rw [if_neg (hgo hk), hadc, hn, hx]
  · unfold State.adcGo
    rw [if_neg (hgo hk), hadc, hn, hx, hh]
    rfl
  · unfold State.adcGo
    rw [if_neg (hgo hk), hadc, hn, hx, hh]
    rfl

/-- A spare request by the management controller (R476). -/
theorem spareReq_spec (s : State) (sh k : BitVec 4) (hs : s.sleeping = false) :
    (sh.toNat < 12 → k.toNat < 9 → s.bit (aShf sh.toNat 4) (16 + k.toNat) = false → s.bit (aShf sh.toNat 4) k.toNat = false →
      s.Inv → Runs (.spareReq sh k) s fun s' => s'.bit (aShf sh.toNat 4) (16 + k.toNat) = true ∧
        s'.repairQ = s.repairQ ++ [⟨6, 1, 16 * sh.toNat + k.toNat, 0⟩] ∧ s'.mem = s.mem) ∧
    (12 ≤ sh.toNat ∨ 9 ≤ k.toNat → exec (.spareReq sh k) s = .next (s.mgmtIn (aHlt 0x664) true)) := by
  obtain ⟨v, hv⟩ : ∃ v, v = BitVec.ofNat 32 (sh.toNat + k.toNat * 16 + 2 ^ 31) := ⟨_, rfl⟩
  have hexec : exec (.spareReq sh k) s = .next ((s.mgmtIn (aHlt 0x664) true).spareReq sh.toNat k.toNat) := by
    refine congrArg Host.Outcome.next ?_
    rw [← hv]
    exact State.mgmtDo_awake hs (aHlt 0x664) (some v) fun s => s.spareReq sh.toNat k.toNat
  refine ⟨fun hsh hk hw ho h => ?_, fun hout => hexec.trans (congrArg Host.Outcome.next (if_neg (by omega)))⟩
  have hgo : (s.mgmtIn (aHlt 0x664) true).spareReq sh.toNat k.toNat =
      (s.mgmtIn (aHlt 0x664) true).candidate (9 * sh.toNat + k.toNat) := if_pos ⟨hsh, hk⟩
  exact ⟨_, hexec.trans (congrArg Host.Outcome.next hgo), State.candidate_spec (h.mgmtIn _ _) hk hw ho⟩

/-- A remap that is due (R477). -/
theorem remap_due (e : EngId) (p d : Nat) (hs : s.sleeping = false) (hr : s.remapReady (engIx e) = true)
    (hb : s.bit (aShf e.s.val 4) (16 + e.k.val) = true) (hp : s.posOf e.s.val e.k.val = some p) (hd : s.spareSlot e.s.val = some d)
    (h : s.Inv) : Runs (.remap e) s fun s' =>
      s'.physOf e.s.val p = some d ∧ s'.bit (aShf e.s.val 4) e.k.val = true ∧
      s'.bit (aShf e.s.val 4) (16 + e.k.val) = false ∧ s'.mapped (engIx e) = false ∧ s'.mapped (9 * e.s.val + d) = s.mapped (engIx e) ∧
      s'.bit (aHlt 0) 11 = true ∧ s'.bit (aHlt 0) 10 = true ∧ s'.mem = s.mem ∧ s'.ths = s.ths ∧
      (s'.spareSlot e.s.val = none → (∃ k < 9, s'.bit (aShf e.s.val 4) (16 + k) = true ∧ (s'.posOf e.s.val k).isSome = true) →
        s'.bit (aHlt 0) 12 = true) :=
  ⟨_, congrArg Host.Outcome.next ((State.awakeDo_awake hs _).trans (if_pos hr)), State.remap_spec h e.k.isLt hb hp hd⟩

/-- The report of the four rails. -/
theorem railCurrentReport_spec (core lane hi io : BitVec 16) (hs : s.sleeping = false) (h : s.Inv) :
    Runs (.railCurrentReport core lane hi io) s fun s' =>
      s'.rf (aHlt 0x640) 0 16 = core.toNat ∧ s'.rf (aHlt 0x644) 0 16 = lane.toNat ∧ s'.rf (aHlt 0x648) 0 16 = hi.toNat ∧
      s'.rf (aHlt 0x64C) 0 16 = io.toNat ∧ s'.bit (aHlt 0x640) 31 = true ∧ s'.mem = s.mem := by
  obtain ⟨hrails, hmem⟩ := State.railReport_spec h [core, lane, hi, io]
  exact ⟨_, congrArg Host.Outcome.next (State.awakeDo_awake hs _), (hrails 0 (by decide)).1, (hrails 1 (by decide)).1,
    (hrails 2 (by decide)).1, (hrails 3 (by decide)).1, (hrails 0 (by decide)).2, hmem⟩

end

/-- Settles O59: a conversion, an evaluation, a remap and an update are followed register by register through the writes they make;
the acceleration factor is what a search bit by bit finds. -/
theorem health : Obligations.Health := by
  unfold Obligations.Health
  refine ⟨adcGo_spec, fun s => ⟨fun hs => ?_, fun hs => ?_, State.adcScan_starts⟩, fun s code src k hs hn hk h => ?_,
    fun s code h => congrArg Host.Outcome.next (State.converted_none h), fun s => rfl, fun s e count => ?_,
    fun s x e h _ => State.ageStore_spec h x e, fun s r => ⟨fun hp => congrArg Host.Outcome.next (if_neg hp), fun hp h => ?_⟩,
    fun code vcode hc hv => lifeFactor_least hc hv, fun s af h => State.lifeAdd_spec h af, fun s => ?_, spareReq_spec,
    fun s e p d hs hr hb hp hd h => remap_due e p d hs hr hb hp hd h, fun s e hr => congrArg Host.Outcome.next ?_, fun s hs => ?_,
    fun s core lane hi io hs => ⟨congrArg Host.Outcome.next (State.awakeDo_awake hs _),
      fun h => railCurrentReport_spec core lane hi io hs h⟩⟩
  · exact ⟨congrArg Host.Outcome.next (if_neg (hs ▸ Bool.false_ne_true)), congrArg Host.Outcome.next (if_neg (hs ▸ Bool.false_ne_true))⟩
  · exact ⟨congrArg Host.Outcome.next (if_pos hs), congrArg Host.Outcome.next (if_pos hs)⟩
  · exact ⟨_, rfl, State.converted_spec h hs hn hk code.isLt⟩
  · intro q f
    have hfreq : s.ageFreq (engIx e) count = f := by
      rw [State.ageFreq, ageTherm, engIx_div, engIx_mod]
    refine congrArg Host.Outcome.next ?_
    rw [State.ageWindow, hfreq]
  · obtain ⟨hage, hmem, hths, hvalid, hsteps⟩ := State.ageEvaluate_spec h r
    exact ⟨_, congrArg Host.Outcome.next (if_pos hp), hage, hmem, hths, fun e => hvalid _ (engIx_lt e), hsteps⟩
  · intro af
    exact ⟨fun hp hv haf => congrArg Host.Outcome.next ((if_pos hp).trans (State.lifeUpdate_known hv haf)),
      fun hp => congrArg Host.Outcome.next (if_pos hp),
      fun hp => ⟨congrArg Host.Outcome.next (if_neg hp), congrArg Host.Outcome.next (if_neg hp)⟩⟩
  · unfold State.awakeDo
    dsimp only
    rw [hr, if_neg Bool.false_ne_true, ite_self]
  · exact ⟨congrArg Host.Outcome.next (State.awakeDo_awake hs _), fun h => State.devUpdate_spec h⟩

end Sys2Proof.Machine
end

section
/-!
SUPPORT. The fields of a register share no bit (R6), read from the register tables.
-/

namespace Sys2Proof.Machine

/-- The bits of a field: its lowest bit and its width. -/
def Field.span (f : Field) : Nat × Nat := (f.lo, f.w)

/-- Spans that lie in a word and share no bit. -/
@[reducible] def SpansApart (l : List (Nat × Nat)) : Prop :=
  l.Pairwise (fun x y => x.1 + x.2 ≤ y.1 ∨ y.1 + y.2 ≤ x.1) ∧ ∀ x ∈ l, 0 < x.2 ∧ x.1 + x.2 ≤ 32

/-- The spans of a table's registers: those of index 0 stand for all of an array. -/
def tabSpans (t : List RegArr) : List (List (Nat × Nat)) := t.map fun r => (r.fields 0).map Field.span

/-- Every register of an array has the spans of its first. -/
def RegArr.AlikeSpans (r : RegArr) : Prop := ∀ i, (r.fields i).map Field.span = (r.fields 0).map Field.span

theorem r1_alike (o : Nat) (f : List Field) : (r1 o f).AlikeSpans := fun _ => rfl
theorem rN_alike (o n : Nat) (f : List Field) : (rN o n f).AlikeSpans := fun _ => rfl
theorem rS_alike (o d n : Nat) (f : List Field) : (rS o d n f).AlikeSpans := fun _ => rfl

/-- The tables of control space. -/
def regTabs : List (List RegArr) :=
  [tabGlb, tabCmd, tabNvc, tabHlt, tabTmr, tabTmrBlk, tabMtx, tabDma, tabBnk, tabGln, tabGrn, tabCulm, tabSyn, tabShf, tabEng,
    tabPx, tabPg, tabLn, tabThr, tabDrc, tabDbg]

theorem alike_of_mem_regTabs : ∀ t ∈ regTabs, ∀ r ∈ t, r.AlikeSpans := by
  have hv : RegArr.AlikeSpans ⟨0x280, 4, 24, fun v => [fIm 0 12 (vwinReset v).1, fIm 16 12 (vwinReset v).2]⟩ := fun _ => rfl
  have hq : RegArr.AlikeSpans ⟨0x000, 4, 22, fun m => [fIm 0 4 (qosReset m).1, fIm 8 4 (qosReset m).2]⟩ := fun _ => rfl
  have hg : RegArr.AlikeSpans ⟨0x20, 4, 14, fun i => [fRo 0 7, fRo 16 7 (if i < 12 then 32 else if i = 12 then 64 else 8)]⟩ :=
    fun _ => rfl
  have ht : RegArr.AlikeSpans ⟨0x080, 4, 32, fun i =>
      let k := i % 8
      [fWl 0 5 (4*k), fWl 8 5 (4*k+1), fWl 16 5 (4*k+2), fWl 24 5 (4*k+3)]⟩ := fun _ => rfl
  simp only [regTabs, tabGlb, tabCmd, tabNvc, tabHlt, tabTmr, tabTmrBlk, tabMtx, tabDma, tabBnk, tabGln, tabGrn, tabCulm, tabSyn,
    tabShf, tabEng, tabPx, tabPg, tabLn, tabThr, tabDrc, tabDbg, List.forall_mem_cons, r1_alike, rN_alike, rS_alike, hv, hq, hg, ht,
    List.not_mem_nil, false_imp_iff, implies_true, and_self]

theorem apart_of_mem_regTabs : ∀ t ∈ regTabs, ∀ l ∈ tabSpans t, SpansApart l := by decide

theorem tabFind_eq_nil_or (t : List RegArr) (o : Nat) : tabFind t o = [] ∨ ∃ r ∈ t, ∃ i, tabFind t o = r.fields i := by
  induction t with
  | nil => exact Or.inl rfl
  | cons r t ih =>
    unfold tabFind
    split
    · exact Or.inr ⟨r, List.mem_cons_self, _, rfl⟩
    · exact ih.imp id fun ⟨q, hq, i, he⟩ => ⟨q, List.mem_cons_of_mem _ hq, i, he⟩

theorem spansApart_tabFind {t : List RegArr} (ht : t ∈ regTabs) (o : Nat) : SpansApart ((tabFind t o).map Field.span) := by
  rcases tabFind_eq_nil_or t o with hn | ⟨r, hr, i, he⟩
  · rw [hn]; exact ⟨List.Pairwise.nil, fun _ hx => absurd hx List.not_mem_nil⟩
  · rw [he, alike_of_mem_regTabs t ht r hr i]
    exact apart_of_mem_regTabs t ht _ (List.mem_map_of_mem hr)

/-- The fields of some table at some offset, or none. -/
def FromTab (l : List Field) : Prop := l = [] ∨ ∃ t ∈ regTabs, ∃ o, l = tabFind t o

theorem FromTab.nil : FromTab [] := Or.inl rfl

theorem FromTab.find {t : List RegArr} (o : Nat) (ht : t ∈ regTabs) : FromTab (tabFind t o) := Or.inr ⟨t, ht, o, rfl⟩

theorem FromTab.ite_iff {c : Prop} [Decidable c] {l r : List Field} :
    FromTab (if c then l else r) ↔ (c → FromTab l) ∧ (¬c → FromTab r) := by
  by_cases hc : c <;> simp [hc]

theorem regFields_fromTab (a : Nat) : FromTab (regFields a) := by
  have hf : ∀ t ∈ regTabs, ∀ o, FromTab (tabFind t o) := fun t ht o => .find o ht
  simp only [regTabs, List.forall_mem_cons] at hf
  simp only [regFields, tabRep, FromTab.ite_iff, FromTab.nil, hf, implies_true, and_self]

/-- The fields of a register lie in its word and share no bit (R6). -/
theorem spansApart_regFields (a : Nat) : SpansApart ((regFields a).map Field.span) := by
  rcases regFields_fromTab a with hn | ⟨t, ht, o, he⟩
  · rw [hn]; exact ⟨List.Pairwise.nil, fun _ hx => absurd hx List.not_mem_nil⟩
  · rw [he]; exact spansApart_tabFind ht o

theorem regFields_pairwise (a : Nat) : (regFields a).Pairwise fun x y => x.lo + x.w ≤ y.lo ∨ y.lo + y.w ≤ x.lo :=
  List.pairwise_map.mp (spansApart_regFields a).1

theorem regFields_span {a : Nat} {f : Field} (hf : f ∈ regFields a) : 0 < f.w ∧ f.lo + f.w ≤ 32 :=
  (spansApart_regFields a).2 _ (List.mem_map_of_mem hf)

theorem regFields_unaligned {a : Nat} (h : a % 4 ≠ 0) : regFields a = [] := if_pos h

theorem regFields_beyond {a : Nat} (h : 0x810000 ≤ a) : regFields a = [] := by
  simp (disch := omega) only [regFields, if_neg, ite_self]

/-- A register that exists lies at a multiple of 4 below 0x0081_0000 (R511). -/
theorem address_of_regFields {a : Nat} (h : regFields a ≠ []) : a % 4 = 0 ∧ a < 0x810000 :=
  ⟨Decidable.not_not.mp fun hn => h (regFields_unaligned hn), Nat.not_le.mp fun hn => h (regFields_beyond hn)⟩

end Sys2Proof.Machine
end

section
/-! Writes by the access codes alone, and the bits that an access sets (R6 to R8). -/

namespace Sys2Proof.Machine

/- The fields of a word written ------------------------------------------------------------------------------------------- -/

theorem writeFields_cons (locked : Bool) (held : Nat → Bool) (v : W32) (f : Field) (fs : List Field) (old : W32) :
    writeFields locked held v (f :: fs) old = writeFields locked held v fs (writeFields locked held v [f] old) := rfl

theorem writeFields_nil (locked : Bool) (held : Nat → Bool) (v : W32) (old : W32) : writeFields locked held v [] old = old := rfl

theorem field_mod (v : W32) (lo w : Nat) : field v lo w % 2 ^ w = field v lo w := Nat.mod_mod _ _

section
variable (locked : Bool) (held : Nat → Bool) (v : W32)

/- One field, by its access code (R6, R7, R8). -/

theorem writeFields_rw {f : Field} (h : f.acc = .rw) (old : W32) :
    writeFields locked held v [f] old = putField old f.lo f.w (field v f.lo f.w) := by
  unfold writeFields
  rw [List.foldl_cons, h]
  rfl

theorem writeFields_wl {f : Field} (h : f.acc = .wl) (old : W32) :
    writeFields locked held v [f] old = if locked then old else putField old f.lo f.w (field v f.lo f.w) := by
  unfold writeFields
  rw [List.foldl_cons, h]
  rfl

theorem writeFields_w1c {f : Field} (h : f.acc = .w1c) (old : W32) :
    writeFields locked held v [f] old = if field v f.lo f.w = 0 ∨ held f.lo = true then old else putField old f.lo f.w 0 := by
  unfold writeFields
  rw [List.foldl_cons, h]
  rfl

theorem writeFields_kept {f : Field} (h : f.acc = .ro ∨ f.acc = .wo ∨ f.acc = .trg) (old : W32) :
    writeFields locked held v [f] old = old := by
  unfold writeFields
  rcases h with h | h | h <;> rw [List.foldl_cons, h] <;> rfl

/-- A field takes a value of its own or stays, whatever its access code. -/
theorem writeFields_single (f : Field) : (∀ old, writeFields locked held v [f] old = old) ∨
    ∃ x, ∀ old, writeFields locked held v [f] old = putField old f.lo f.w x := by
  rcases hacc : f.acc with _ | _ | _ | _ | _ | _
  · exact Or.inr ⟨_, writeFields_rw locked held v hacc⟩
  · exact Or.inl (writeFields_kept locked held v (Or.inl hacc))
  · exact Or.inl (writeFields_kept locked held v (Or.inr (Or.inl hacc)))
  · by_cases hz : field v f.lo f.w = 0 ∨ held f.lo = true
    · exact Or.inl fun old => (writeFields_w1c locked held v hacc old).trans (if_pos hz)
    · exact Or.inr ⟨0, fun old => (writeFields_w1c locked held v hacc old).trans (if_neg hz)⟩
  · exact Or.inl (writeFields_kept locked held v (Or.inr (Or.inr hacc)))
  · cases locked
    · exact Or.inr ⟨_, writeFields_wl false held v hacc⟩
    · exact Or.inl (writeFields_wl true held v hacc)

/-- A write of one field leaves the bits of the others alone. -/
theorem field_writeFields_single_ne (f : Field) {lo w : Nat} (hd : lo + w ≤ f.lo ∨ f.lo + f.w ≤ lo) (old : W32) :
    field (writeFields locked held v [f] old) lo w = field old lo w := by
  rcases writeFields_single locked held v f with hk | ⟨x, hx⟩
  · rw [hk]
  · rw [hx, field_putField_ne _ _ hd]

/-- A write of other fields leaves a field alone. -/
theorem field_writeFields_ne {fs : List Field} {lo w : Nat} (hd : ∀ f ∈ fs, lo + w ≤ f.lo ∨ f.lo + f.w ≤ lo) (old : W32) :
    field (writeFields locked held v fs old) lo w = field old lo w := by
  induction fs generalizing old with
  | nil => rfl
  | cons g gs ih =>
    rw [writeFields_cons, ih fun f hf => hd f (List.mem_cons_of_mem _ hf),
      field_writeFields_single_ne locked held v g (hd g List.mem_cons_self)]

/-- What one field holds after a write depends on what it held alone. -/
theorem field_writeFields_single_congr {f : Field} (hw : f.lo + f.w ≤ 32) {old u : W32}
    (h : field u f.lo f.w = field old f.lo f.w) :
    field (writeFields locked held v [f] u) f.lo f.w = field (writeFields locked held v [f] old) f.lo f.w := by
  rcases writeFields_single locked held v f with hk | ⟨x, hx⟩
  · rw [hk, hk, h]
  · rw [hx, hx, field_putField_self _ _ hw, field_putField_self _ _ hw]

/-- Among fields that share no bit each is written as if it stood alone. -/
theorem field_writeFields_mem {fs : List Field} (hp : fs.Pairwise fun x y => x.lo + x.w ≤ y.lo ∨ y.lo + y.w ≤ x.lo) {f : Field}
    (hf : f ∈ fs) (hw : f.lo + f.w ≤ 32) (old : W32) :
    field (writeFields locked held v fs old) f.lo f.w = field (writeFields locked held v [f] old) f.lo f.w := by
  induction fs generalizing old with
  | nil => exact absurd hf List.not_mem_nil
  | cons g gs ih =>
    obtain ⟨hg, hgs⟩ := List.pairwise_cons.mp hp
    rw [writeFields_cons]
    rcases List.mem_cons.mp hf with rfl | hf
    · exact field_writeFields_ne locked held v hg _
    · rw [ih hgs hf]
      exact field_writeFields_single_congr locked held v hw (field_writeFields_single_ne locked held v g (hg f hf).symm old)

end

/- A bit that an access sets (R7) ----------------------------------------------------------------------------------------------- -/

theorem State.bit_flag_self {s : State} (h : s.Inv) (a : Nat) {i : Nat} (hi : i < 32) : (s.flag a i).bit a i = true :=
  (State.bit_congr (State.flag_regs s a i) a i).trans (State.bit_setB_self h.regs a hi)

theorem State.flag_frame (s : State) (a i : Nat) : s.flag a i = { s with regs := (s.flag a i).regs, bus := (s.flag a i).bus } := rfl

theorem State.busCycle_setBus_self {s : State} (h : s.Inv) (k : Nat) (c : BusCycle) : (s.setBus k c).busCycle k = c :=
  spGet_spSet_self h.bus _ _

theorem State.busCycle_congr {s u : State} (h : u.bus = s.bus) (k : Nat) : u.busCycle k = s.busCycle k := by
  rw [State.busCycle, h]
  rfl

/-- In a cycle in which an input has made its access, what the device sets is remembered. -/
theorem State.busCycle_flag {s : State} (h : s.Inv) (a i : Nat) (hin : (s.busCycle (busOf a)).inputs ≠ []) :
    (s.flag a i).busCycle (busOf a) =
      { s.busCycle (busOf a) with sets := (a, i) :: (s.busCycle (busOf a)).sets } := by
  unfold State.flag
  rw [State.busCycle_setBus_self (h.setB a i)]
  dsimp only
  rw [List.isEmpty_eq_false_iff.mpr hin]
  rfl

theorem State.flagged_flag {s : State} (h : s.Inv) (a i : Nat) (hin : (s.busCycle (busOf a)).inputs ≠ []) :
    (s.flag a i).flagged a i = true := by
  rw [State.flagged, State.busCycle_flag h a i hin, List.contains_iff_mem]
  exact List.mem_cons_self

theorem State.flag_onlyRegs (s : State) (a i : Nat) : OnlyRegs { s with bus := (s.flag a i).bus } (s.flag a i) [a] :=
  ⟨rfl, fun _ hb => State.rd_flag_ne i fun he => hb (List.mem_singleton.mpr he)⟩

/- A write by the access codes ------------------------------------------------------------------------------------------------------ -/

/-- The word that a write by the access codes leaves. -/
def State.writtenWord (s : State) (a : Nat) (v : W32) : W32 :=
  writeFields s.wlLocked (s.flagged a) v (regFields a) (s.rd a)

/-- A write gives a locked field of the register other bits (R8). -/
def State.breaksLock (s : State) (a : Nat) (v : W32) : Bool := s.wlLocked && lockedDiff v (regFields a) (s.rd a)

theorem State.plainWrite_eq (s : State) (a : Nat) (v : W32) :
    s.plainWrite a v = if s.breaksLock a v then (s.wr a (s.writtenWord a v)).flag 0x8C 0 else s.wr a (s.writtenWord a v) := rfl

/-- A register without a lockable field is written and nothing more. -/
theorem State.plainWrite_of_no_wl {a : Nat} (hf : (regFields a).any (fun f => f.acc == .wl) = false) (s : State) (v : W32) :
    s.plainWrite a v = s.wr a (s.writtenWord a v) := by
  rw [State.plainWrite_eq]
  have hno : s.breaksLock a v = false := by
    unfold State.breaksLock lockedDiff
    rw [Bool.and_eq_false_iff, List.any_eq_false]
    exact Or.inr fun f hm => by rw [Bool.not_eq_true, Bool.and_eq_false_iff]; exact Or.inl (Bool.eq_false_iff.mpr (List.any_eq_false.mp hf f hm))
  rw [hno]
  rfl

theorem State.plainWrite_frame (s : State) (a : Nat) (v : W32) :
    s.plainWrite a v = { s with regs := (s.plainWrite a v).regs, bus := (s.plainWrite a v).bus } := by
  rw [State.plainWrite_eq]
  split <;> rfl

theorem State.rd_plainWrite_self {s : State} (h : s.Inv) {a : Nat} (ha : a ≠ 0x8C) (v : W32) :
    (s.plainWrite a v).rd a = s.writtenWord a v := by
  rw [State.plainWrite_eq]
  split
  · rw [State.rd_flag_ne 0 ha, State.rd_wr_self h.regs]
  · rw [State.rd_wr_self h.regs]

theorem State.rd_plainWrite_ne {s : State} {a b : Nat} (hba : b ≠ a) (hb : b ≠ 0x8C) (v : W32) :
    (s.plainWrite a v).rd b = s.rd b := by
  rw [State.plainWrite_eq]
  split
  · rw [State.rd_flag_ne 0 hb, State.rd_wr_ne hba]
  · rw [State.rd_wr_ne hba]

/-- A field after a write by the access codes is what its own code makes of it. -/
theorem State.rf_plainWrite {s : State} (h : s.Inv) {a : Nat} (ha : a ≠ 0x8C) (v : W32) {f : Field} (hf : f ∈ regFields a) :
    (s.plainWrite a v).rf a f.lo f.w = field (writeFields s.wlLocked (s.flagged a) v [f] (s.rd a)) f.lo f.w := by
  rw [State.rf, State.rd_plainWrite_self h ha]
  exact field_writeFields_mem _ _ _ (regFields_pairwise a) hf (regFields_span hf).2 _

/-- A locked field that a write gives other bits sets LOCKED_WRITE (R8). -/
theorem State.lockedWrite_plainWrite {s : State} (h : s.Inv) {a : Nat} (v : W32) {f : Field} (hf : f ∈ regFields a) (hacc : f.acc = .wl)
    (hlock : s.wlLocked = true) (hne : field v f.lo f.w ≠ s.rf a f.lo f.w) : (s.plainWrite a v).bit 0x8C 0 = true := by
  have hbr : s.breaksLock a v = true := by
    unfold State.breaksLock lockedDiff
    rw [hlock, Bool.true_and, List.any_eq_true]
    exact ⟨f, hf, by rw [hacc]; exact (Bool.true_and _).trans (bne_iff_ne.mpr hne)⟩
  rw [State.plainWrite_eq, if_pos hbr]
  exact State.bit_flag_self (h.wr a _) 0x8C (by omega)

/-- What each access code makes of a field that is written (R6 to R8). -/
structure FieldWritten (s t : State) (a : Nat) (v : W32) (f : Field) : Prop where
  rw : f.acc = .rw → t.rf a f.lo f.w = field v f.lo f.w
  wl_free : f.acc = .wl → s.wlLocked = false → t.rf a f.lo f.w = field v f.lo f.w
  wl_locked : f.acc = .wl → s.wlLocked = true → t.rf a f.lo f.w = s.rf a f.lo f.w
  w1c_free : f.acc = .w1c → s.flagged a f.lo = false →
    t.rf a f.lo f.w = if field v f.lo f.w = 0 then s.rf a f.lo f.w else 0
  w1c_held : f.acc = .w1c → s.flagged a f.lo = true → t.rf a f.lo f.w = s.rf a f.lo f.w
  kept : f.acc = .ro ∨ f.acc = .wo ∨ f.acc = .trg → t.rf a f.lo f.w = s.rf a f.lo f.w

theorem State.plainWrite_field {s : State} (h : s.Inv) {a : Nat} (ha : a ≠ 0x8C) (v : W32) {f : Field} (hf : f ∈ regFields a) :
    FieldWritten s (s.plainWrite a v) a v f := by
  have hw := (regFields_span hf).2
  have hput : ∀ x, field (putField (s.rd a) f.lo f.w x) f.lo f.w = x % 2 ^ f.w := fun x => field_putField_self _ x hw
  refine ⟨fun hacc => ?_, fun hacc hl => ?_, fun hacc hl => ?_, fun hacc hh => ?_, fun hacc hh => ?_, fun hacc => ?_⟩ <;>
    rw [State.rf_plainWrite h ha v hf]
  · rw [writeFields_rw _ _ _ hacc, hput, field_mod]
  · rw [writeFields_wl _ _ _ hacc, hl, if_neg Bool.false_ne_true, hput, field_mod]
  · rw [writeFields_wl _ _ _ hacc, if_pos hl, State.rf]
  · rw [writeFields_w1c _ _ _ hacc, hh]
    by_cases hz : field v f.lo f.w = 0
    · rw [if_pos (Or.inl hz), if_pos hz, State.rf]
    · rw [if_neg (not_or.mpr ⟨hz, Bool.false_ne_true⟩), if_neg hz, hput, Nat.zero_mod]
  · rw [writeFields_w1c _ _ _ hacc, if_pos (Or.inr hh), State.rf]
  · rw [writeFields_kept _ _ _ hacc, State.rf]

end Sys2Proof.Machine
end

section
/-! Register writes of the units, and the PCLK cycle that an access joins (R4, R6 to R10, R258, R365 to R367, R459). -/

namespace Sys2Proof.Machine

/- Which rule a write follows (R4, R10) -------------------------------------------------------------------------------------- -/

theorem State.writeReg_refused {a : Nat} (h : a % 4 ≠ 0 ∨ 2 ^ 31 ≤ a) (s : State) (g : Agent) (v : W32) : s.writeReg g a v = s := if_pos h

theorem State.writeReg_reserved {a : Nat} (h4 : a % 4 = 0) (hlt : a < 2 ^ 31) (hf : regFields a = []) (s : State) (g : Agent) (v : W32) :
    s.writeReg g a v = s.flag 0x8C 1 :=
  (if_neg (by omega)).trans (if_pos hf)

theorem State.writeReg_unit {a : Nat} (hf : regFields a ≠ []) (s : State) (g : Agent) (v : W32) :
    s.writeReg g a v = s.unitWrite g a v := by
  obtain ⟨h4, hlt⟩ := address_of_regFields hf
  exact (if_neg (by omega)).trans (if_neg hf)

theorem State.unitWrite_faultEn (s : State) (g : Agent) (v : W32) : s.unitWrite g 0x84 v = (s.plainWrite 0x84 v).pinsUpdate := rfl

theorem State.unitWrite_glbSticky (s : State) (g : Agent) (v : W32) : s.unitWrite g 0x8C v = s.plainWrite 0x8C v := rfl

theorem State.unitWrite_dbgHalt (s : State) (g : Agent) (v : W32) : s.unitWrite g aDbgHalt v = s.haltWrite v := rfl

/- Debug halt (R453) --------------------------------------------------------------------------------------------------------------- -/

theorem State.haltWrite_set {v : W32} (hv : v.getLsbD 0 = true) (s : State) : s.haltWrite v = s.haltOn := if_pos hv

theorem State.haltWrite_clear {v : W32} (hv : v.getLsbD 0 = false) (s : State) : s.haltWrite v = (s.clrB aDbgHalt 0).clrB aDbgHalt 1 :=
  if_neg (hv ▸ Bool.false_ne_true)

theorem State.writeReg_dbgHalt (s : State) (g : Agent) (v : W32) : s.writeReg g aDbgHalt v = s.haltWrite v :=
  (State.writeReg_unit (by decide) s g v).trans (State.unitWrite_dbgHalt s g v)

/- The PCLK cycle of an access (R365, R366) --------------------------------------------------------------------------------------------- -/

theorem State.busCycle_empty {s : State} (h : s.bus = []) (k : Nat) : s.busCycle k = BusCycle.init := by
  rw [State.busCycle, h]
  rfl

theorem State.busCycle_enter_write {s : State} (h : s.Inv) (a i : Nat) (w : W32) :
    (s.busEnter a i (some w)).busCycle (busOf a) = (s.busCycle (busOf a)).enter i (s.busSees a w) :=
  State.busCycle_setBus_self h _ _

theorem State.busCycle_enter_read {s : State} (h : s.Inv) (a i : Nat) :
    (s.busEnter a i none).busCycle (busOf a) = (s.busCycle (busOf a)).enter i [] :=
  State.busCycle_setBus_self h _ _

theorem State.Inv.busEnter {s : State} (h : s.Inv) (a i : Nat) (o : Option W32) : (s.busEnter a i o).Inv :=
  (State.busEnter_keeps (.refl s) a i o).inv h

theorem BusCycle.enter_init (i : Nat) (seen : List (Nat × W32)) : (BusCycle.init.enter i seen).inputs = [i] ∧
    (BusCycle.init.enter i seen).sets = [] ∧ (BusCycle.init.enter i seen).before = seen := by
  refine ⟨rfl, rfl, ?_⟩
  exact List.filter_eq_self.mpr fun _ _ => rfl

/-- An input after the last joins the cycle: what is set and seen in it stays. -/
theorem BusCycle.enter_joins {c : BusCycle} {i : Nat} (h : ∀ j ∈ c.inputs, j < i) (seen : List (Nat × W32)) :
    c.enter i seen = { c with
      inputs := c.inputs ++ [i], before := c.before ++ seen.filter fun p => c.before.all fun q => q.1 != p.1 } := by
  have hno : ¬ c.inputs.any (i ≤ ·) = true := by
    rw [List.any_eq_true]
    rintro ⟨j, hj, hij⟩
    have := h j hj
    have := of_decide_eq_true hij
    omega
  unfold BusCycle.enter
  rw [if_neg hno]

/-- An input that does not come after the last begins the next cycle. -/
theorem BusCycle.enter_begins {c : BusCycle} {i j : Nat} (hj : j ∈ c.inputs) (hij : i ≤ j) (seen : List (Nat × W32)) :
    c.enter i seen = BusCycle.init.enter i seen := by
  have hyes : c.inputs.any (i ≤ ·) = true := List.any_eq_true.mpr ⟨j, hj, decide_eq_true hij⟩
  unfold BusCycle.enter
  rw [if_pos hyes]
  rfl

/- FAULT_EN (R367, R483) ----------------------------------------------------------------------------------------------------------------- -/

/-- The pins change no register but PINS and no cycle of a bus. -/
theorem State.pinsUpdate_frame (s : State) : (∀ a, a ≠ 0x90 → s.pinsUpdate.rd a = s.rd a) ∧ s.pinsUpdate.bus = s.bus := by
  obtain ⟨fault, hf⟩ : ∃ b : Bool, b = (s.bit 0x90 2 || s.rd 0x80 &&& s.rd 0x84 != 0) := ⟨_, rfl⟩
  obtain ⟨alert, ha⟩ : ∃ b : Bool, b = (s.rd 0x80 &&& s.rd 0x88 != 0) := ⟨_, rfl⟩
  obtain ⟨y, hy⟩ : ∃ y, y = (s.putB 0x90 0 fault).putB 0x90 1 alert := ⟨_, rfl⟩
  have heq : s.pinsUpdate = if fault && !s.bit 0x90 0 then { y with faultNote := some (s.rd 0x80) } else y := by
    rw [hy, hf, ha]
    rfl
  have hrd : ∀ a, a ≠ 0x90 → y.rd a = s.rd a := fun a hne => by
    rw [hy, State.putB, State.rd_wf_ne hne, State.putB, State.rd_wf_ne hne]
  have hbus : y.bus = s.bus := by
    rw [hy, State.putB, State.wf_frame, State.putB, State.wf_frame]
  rw [heq]
  split
  · exact ⟨hrd, hbus⟩
  · exact ⟨hrd, hbus⟩

/-- A write of FAULT_EN through a bridge: its bits are those written, and its cycle is that which the access joined. -/
theorem State.bridgeWrite_faultEn {s : State} (h : s.Inv) (g : Agent) (v : W32) :
    (s.bridgeWrite g 0x84 v).rf 0x84 0 23 = field v 0 23 ∧
    (s.bridgeWrite g 0x84 v).busCycle 0 = (s.busCycle 0).enter (busInput g) [(0x84, readMask (regFields 0x84) (s.rd 0x84))] := by
  obtain ⟨u, hu⟩ : ∃ u, u = s.busEnter 0x84 (busInput g) (some (readMask (regFields 0x84) (s.regView 0x84))) := ⟨_, rfl⟩
  have hui : u.Inv := hu ▸ h.busEnter _ _ _
  have heq : s.bridgeWrite g 0x84 v = (u.plainWrite 0x84 v).pinsUpdate := by
    rw [State.bridgeWrite, ← hu, State.writeReg_unit (by decide), State.unitWrite_faultEn]
  have hpl : u.plainWrite 0x84 v = u.wr 0x84 (u.writtenWord 0x84 v) := State.plainWrite_of_no_wl rfl u v
  have hcyc : u.busCycle 0 = (s.busCycle 0).enter (busInput g) [(0x84, readMask (regFields 0x84) (s.rd 0x84))] := by
    rw [hu]
    exact State.busCycle_enter_write h 0x84 _ _
  obtain ⟨hrd, hbus⟩ := (u.plainWrite 0x84 v).pinsUpdate_frame
  rw [heq]
  refine ⟨?_, ?_⟩
  · rw [State.rf_of_rd (hrd 0x84 (by decide))]
    exact (State.plainWrite_field hui (by decide) v (f := fIm 0 23 1) List.mem_cons_self).rw rfl
  · rw [State.busCycle_congr (hbus.trans (by rw [hpl, State.wr_bus] : _ = u.bus)), hcyc]

theorem State.Inv.bridgeWrite {s : State} (h : s.Inv) (g : Agent) (a : Nat) (v : W32) : (s.bridgeWrite g a v).Inv :=
  (State.bridgeWrite_keeps (.refl s) g a v).inv h

theorem readMask_faultEn (v : W32) : field (readMask (regFields 0x84) v) 0 23 = field v 0 23 := by
  have hm : readMask (regFields 0x84) v = putField 0 0 23 (field v 0 23) := rfl
  rw [hm, field_putField_self _ _ (by decide), field_mod]

/-- A read of FAULT_EN gives its word, or the one that the cycle saw first. -/
theorem State.bridgeRead_faultEn {s : State} (h : s.Inv) (g : Agent) : (s.bridgeRead g 0x84).2 =
    (((((s.busCycle 0).enter (busInput g) []).before.find? fun p => p.1 == 0x84).map (·.2)).getD
      (readMask (regFields 0x84) (s.rd 0x84))) := by
  obtain ⟨u, hu⟩ : ∃ u, u = s.busEnter 0x84 (busInput g) none := ⟨_, rfl⟩
  have hcyc : u.busCycle 0 = (s.busCycle 0).enter (busInput g) [] := hu ▸ State.busCycle_enter_read h 0x84 _
  have hread : (u.readReg 0x84).2 = readMask (regFields 0x84) (u.rd 0x84) := rfl
  have hrd : u.rd 0x84 = s.rd 0x84 := by
    rw [hu, State.busEnter]
    rfl
  rw [← hcyc, ← hrd, ← hread, hu]
  rfl

/- A reserved address (R7, R10) --------------------------------------------------------------------------------------------------------------- -/

/-- A clear of UNMAPPED leaves it set exactly where an access of the same PCLK cycle has set it (R7). -/
theorem State.bridgeWrite_unmapped {s : State} (h : s.Inv) (hset : s.bit 0x8C 1 = true) {w : W32} (hw : w.getLsbD 1 = true) :
    (s.bridgeWrite .dma 0x8C w).bit 0x8C 1 =
      ((s.busCycle 0).enter 1 [(0x8C, readMask (regFields 0x8C) (s.rd 0x8C))]).sets.contains (0x8C, 1) := by
  obtain ⟨u, hu⟩ : ∃ u, u = s.busEnter 0x8C 1 (some (readMask (regFields 0x8C) (s.regView 0x8C))) := ⟨_, rfl⟩
  have hcyc : u.busCycle 0 = (s.busCycle 0).enter 1 [(0x8C, readMask (regFields 0x8C) (s.rd 0x8C))] := by
    rw [hu]
    exact State.busCycle_enter_write h 0x8C _ _
  have hui : u.Inv := hu ▸ h.busEnter _ _ _
  have heq : s.bridgeWrite .dma 0x8C w = u.wr 0x8C (u.writtenWord 0x8C w) := by
    have hpl : u.plainWrite 0x8C w = u.wr 0x8C (u.writtenWord 0x8C w) := State.plainWrite_of_no_wl rfl u w
    rw [State.bridgeWrite, show busInput Agent.dma = 1 from rfl, ← hu, State.writeReg_unit (by decide), State.unitWrite_glbSticky, hpl]
  have hmem : (⟨1, 1, .w1c, 0, false⟩ : Field) ∈ regFields 0x8C := by decide
  have hbit : field (u.rd 0x8C) 1 1 = 1 := by
    have : u.rd 0x8C = s.rd 0x8C := by
      rw [hu, State.busEnter]
      rfl
    rw [this]
    exact beq_iff_eq.mp hset
  have hv : field w 1 1 ≠ 0 := fun h0 => by
    have ht := testBit_field w 1 1 0
    rw [h0, hw, Nat.zero_testBit] at ht
    exact absurd ht (by decide)
  have hone := field_writeFields_mem u.wlLocked (u.flagged 0x8C) w (regFields_pairwise 0x8C) hmem (by decide) (u.rd 0x8C)
  rw [writeFields_w1c _ _ _ rfl] at hone
  rw [heq, State.bit, State.rf, State.rd_wr_self hui.regs, ← hcyc, State.writtenWord, hone]
  change (field (if field w 1 1 = 0 ∨ u.flagged 0x8C 1 = true then u.rd 0x8C else putField (u.rd 0x8C) 1 1 0) 1 1 == 1) = u.flagged 0x8C 1
  cases hfl : u.flagged 0x8C 1
  · rw [if_neg (not_or.mpr ⟨hv, Bool.false_ne_true⟩), field_putField_self _ _ (by decide)]
    rfl
  · rw [if_pos (Or.inr rfl), hbit]
    rfl

/-- A write to a reserved address of bus 0 sets UNMAPPED and is remembered in its PCLK cycle. -/
theorem State.bridgeWrite_reserved {s : State} (h : s.Inv) (hb : s.bus = []) {a : Nat} (h4 : a % 4 = 0) (hlt : a < 0x200000)
    (hf : regFields a = []) (v : W32) : (s.bridgeWrite .mgmt a v).bit 0x8C 1 = true ∧
    ((s.bridgeWrite .mgmt a v).busCycle 0).inputs = [0] ∧ ((s.bridgeWrite .mgmt a v).busCycle 0).sets = [(0x8C, 1)] := by
  obtain ⟨u, hu⟩ : ∃ u, u = s.busEnter a 0 (some (readMask (regFields a) (s.regView a))) := ⟨_, rfl⟩
  have hui : u.Inv := hu ▸ h.busEnter _ _ _
  have heq : s.bridgeWrite .mgmt a v = u.flag 0x8C 1 := by
    rw [State.bridgeWrite, show busInput Agent.mgmt = 0 from rfl, ← hu, State.writeReg_reserved h4 (by omega) hf]
  have hbus : busOf a = 0 := if_pos hlt
  obtain ⟨hin, hsets, -⟩ := BusCycle.enter_init 0 (s.busSees a (readMask (regFields a) (s.regView a)))
  have hcyc := State.busCycle_enter_write h a 0 (readMask (regFields a) (s.regView a))
  rw [← hu, hbus, State.busCycle_empty hb] at hcyc
  have hfl : (u.flag 0x8C 1).busCycle 0 = { u.busCycle 0 with sets := (0x8C, 1) :: (u.busCycle 0).sets } :=
    State.busCycle_flag hui 0x8C 1 (by rw [show busOf 0x8C = 0 from rfl, hcyc, hin]; exact List.cons_ne_nil _ _)
  rw [heq, hfl, hcyc, hin, hsets]
  exact ⟨State.bit_flag_self hui 0x8C (by decide), rfl, rfl⟩

/-- A later clear of the same PCLK cycle leaves UNMAPPED set; one of a later cycle clears it (R7). -/
theorem State.unmapped_cleared {s : State} (h : s.Inv) (hb : s.bus = []) {a : Nat} (h4 : a % 4 = 0) (hlt : a < 0x200000)
    (hf : regFields a = []) (v : W32) {w : W32} (hw : w.getLsbD 1 = true) :
    ((s.bridgeWrite .mgmt a v).bridgeWrite .dma 0x8C w).bit 0x8C 1 = true ∧
    ((s.bridgeWrite .mgmt a v).busEnd.bridgeWrite .dma 0x8C w).bit 0x8C 1 = false := by
  obtain ⟨hbit, hin, hsets⟩ := State.bridgeWrite_reserved h hb h4 hlt hf v
  obtain ⟨t, ht⟩ : ∃ t, t = s.bridgeWrite .mgmt a v := ⟨_, rfl⟩
  have hti : t.Inv := ht ▸ h.bridgeWrite _ _ _
  rw [← ht] at hbit hin hsets ⊢
  refine ⟨?_, ?_⟩
  · rw [State.bridgeWrite_unmapped hti hbit hw,
      BusCycle.enter_joins (by rw [hin]; intro j hj; rw [List.mem_singleton.mp hj]; exact Nat.zero_lt_one), hsets]
    rfl
  · have hei : t.busEnd.Inv := (State.busEnd_keeps (.refl t)).inv hti
    rw [State.bridgeWrite_unmapped hei ((State.bit_congr rfl 0x8C 1).trans hbit) hw, State.busCycle_empty rfl]
    rfl

end Sys2Proof.Machine
end

section
/-! Register writes by every agent (O60). -/

namespace Sys2Proof.Machine

/- The way of a write to its bus (R27, R353, R365, R392, R455) -------------------------------------------------------------------- -/

theorem registerWrite_eq (g : Agent) (a v : W32) (s : State) : exec (.registerWrite g a v) s = .next (s.busWrite g a.toNat v).poll := rfl

/-- An agent inside the device. -/
def InsideAgent (g : Agent) : Prop := g = .mgmt ∨ g = .dma ∨ (∃ k, g = .engine k) ∨ g = .debug

/-- A write of an agent inside goes to its bridge unless it is a request of halt that comes in sleep. -/
theorem State.busWrite_inside {g : Agent} (hg : InsideAgent g) {s : State} {a : Nat} (v : W32)
    (h : (s.sleeping && a == aDbgHalt && (g == .mgmt || g == .debug)) = false) : s.busWrite g a v = s.sendWrite g a v := by
  rcases hg with rfl | rfl | ⟨k, rfl⟩ | rfl <;> exact if_neg (h ▸ Bool.false_ne_true)

/-- A request of halt that comes in sleep is taken at once (R456). -/
theorem State.busWrite_halt {g : Agent} (hg : g = .mgmt ∨ g = .debug) {s : State} (hs : s.sleeping = true) (v : W32) :
    s.busWrite g aDbgHalt v = s.haltWrite v := by
  rcases hg with rfl | rfl <;> exact if_pos (by rw [hs]; rfl)

theorem State.busWrite_awake {g : Agent} (hg : InsideAgent g) {s : State} (hs : s.sleeping = false) (a : Nat) (v : W32) :
    s.busWrite g a v = s.sendWrite g a v :=
  State.busWrite_inside hg v (by rw [hs]; rfl)

theorem State.lateDo_awake {s : State} (h : s.sleeping = false) (a : Nat) (v : Option W32) (f : State → State) : s.lateDo a v f = f s :=
  if_neg (h ▸ Bool.false_ne_true)

theorem State.lateDo_asleep {s : State} (h : s.sleeping = true) (a : Nat) (v : Option W32) (f : State → State) :
    s.lateDo a v f = { s with late := s.late ++ [.access a v] } := if_pos h

theorem State.awakeDo_asleep {s : State} (h : s.sleeping = true) (f : State → State) : s.awakeDo f = s := if_pos h

theorem State.sendWrite_mgmt (s : State) (a : Nat) (v : W32) :
    s.sendWrite .mgmt a v = s.lateDo a (some v) fun s => s.bridgeWrite .mgmt a v := rfl

theorem State.sendWrite_dma (s : State) (a : Nat) (v : W32) : s.sendWrite .dma a v = s.awakeDo fun s => s.bridgeWrite .dma a v := rfl

theorem State.sendWrite_engine (s : State) (k : Fin 12) (a : Nat) (v : W32) :
    s.sendWrite (.engine k) a v = s.awakeDo fun s => s.loneWrite k.val a v := rfl

theorem registerWrite_awake {s : State} (hs : s.sleeping = false) (a v : W32) :
    exec (.registerWrite .mgmt a v) s = .next (s.bridgeWrite .mgmt a.toNat v).poll ∧
    exec (.registerWrite .dma a v) s = .next (s.bridgeWrite .dma a.toNat v).poll ∧
    (∀ k, exec (.registerWrite (.engine k) a v) s = .next (s.loneWrite k.val a.toNat v).poll) ∧
    exec (.registerWrite .debug a v) s = .next (s.loneWrite 21 a.toNat v).poll := by
  have hto : ∀ {g : Agent} {u : State}, InsideAgent g → s.sendWrite g a.toNat v = u → exec (.registerWrite g a v) s = .next u.poll :=
    fun hg hu => by rw [registerWrite_eq, State.busWrite_awake hg hs, hu]
  exact ⟨hto (Or.inl rfl) ((s.sendWrite_mgmt _ v).trans (State.lateDo_awake hs _ _ _)),
    hto (Or.inr (Or.inl rfl)) ((s.sendWrite_dma _ v).trans (State.awakeDo_awake hs _)),
    fun k => hto (Or.inr (Or.inr (Or.inl ⟨k, rfl⟩))) ((s.sendWrite_engine k _ v).trans (State.awakeDo_awake hs _)),
    hto (Or.inr (Or.inr (Or.inr rfl))) rfl⟩

theorem registerWrite_standing {s : State} (hs : s.sleeping = true) (a v : W32) :
    exec (.registerWrite .dma a v) s = .next s.poll ∧ ∀ k, exec (.registerWrite (.engine k) a v) s = .next s.poll := by
  refine ⟨?_, fun k => ?_⟩
  · rw [registerWrite_eq, State.busWrite_inside (Or.inr (Or.inl rfl)) v (Bool.and_false _), State.sendWrite_dma,
      State.awakeDo_asleep hs]
  · rw [registerWrite_eq, State.busWrite_inside (Or.inr (Or.inr (Or.inl ⟨k, rfl⟩))) v (Bool.and_false _), State.sendWrite_engine,
      State.awakeDo_asleep hs]

theorem registerWrite_asleep {s : State} (hs : s.sleeping = true) (a v : W32) (ha : a.toNat ≠ aDbgHalt) :
    exec (.registerWrite .mgmt a v) s = .next ({ s with late := s.late ++ [.access a.toNat (some v)] } : State).poll ∧
    exec (.registerWrite .debug a v) s = .next (s.loneWrite 21 a.toNat v).poll := by
  have hno : ∀ b, (s.sleeping && a.toNat == aDbgHalt && b) = false := fun b => by
    rw [beq_eq_false_iff_ne.mpr ha, Bool.and_false, Bool.false_and]
  refine ⟨?_, ?_⟩
  · rw [registerWrite_eq, State.busWrite_inside (Or.inl rfl) v (hno _), State.sendWrite_mgmt, State.lateDo_asleep hs]
  · rw [registerWrite_eq, State.busWrite_inside (Or.inr (Or.inr (Or.inr rfl))) v (hno _)]
    rfl

theorem registerWrite_halt {s : State} {g : Agent} (hg : g = .mgmt ∨ g = .debug) (hs : s.sleeping = true) (v : W32) :
    (v.getLsbD 0 = true → exec (.registerWrite g 0x800000 v) s = exec .haltRequest s) ∧
    (v.getLsbD 0 = false → exec (.registerWrite g 0x800000 v) s = .next ((s.clrB aDbgHalt 0).clrB aDbgHalt 1).poll) := by
  have hto : exec (.registerWrite g 0x800000 v) s = .next (s.haltWrite v).poll := by
    rw [registerWrite_eq, show (0x800000 : W32).toNat = aDbgHalt from rfl, State.busWrite_halt hg hs]
  refine ⟨fun hv => ?_, fun hv => ?_⟩
  · rw [hto, State.haltWrite_set hv]
    rfl
  · rw [hto, State.haltWrite_clear hv]

theorem State.loneWrite_cases (s : State) (m a : Nat) (v : W32) : (a % 4 ≠ 0 ∨ 2 ^ 31 ≤ a → s.loneWrite m a v = s) ∧
    (a % 4 = 0 → a < 2 ^ 31 → s.loneWrite m a v = { s with
      mtxq := insTxn ⟨m, .lone, 0x80000000 + a, 4, some (natLe 4 v.toNat), s.mqos m true, 0, s.eclk, 0⟩ s.mtxq }) :=
  ⟨fun h => if_pos h, fun h4 hlt => if_neg fun h => h.elim (fun h => h h4) (fun h => Nat.not_le.mpr hlt h)⟩

/-- The host writes BAR0, BAR2 and configuration space (R392), but not while PERST_N is asserted (R437). -/
theorem registerWrite_host (s : State) (a v : W32) :
    (s.perst = false → exec (.registerWrite .bar0 a v) s = .next (s.bar0Write a.toNat v).poll ∧
      (a.toNat % 4 = 0 → a.toNat < 0x200 → exec (.registerWrite .bar2 a v) s =
        .next { s with bar2 := spSet bar2Reset s.bar2 a.toNat v }.poll) ∧
      (a.toNat % 4 = 0 → exec (.registerWrite .cfg a v) s = .next { s with
        cfgSpace := spSet cfgReset s.cfgSpace a.toNat
          ((s.rdCfg a.toNat &&& ~~~(cfgMask a.toNat)) ||| (v &&& cfgMask a.toNat)) }.poll)) ∧
    (s.perst = true → exec (.registerWrite .bar0 a v) s = .next s.poll ∧ exec (.registerWrite .bar2 a v) s = .next s.poll ∧
      exec (.registerWrite .cfg a v) s = .next s.poll) := by
  have hto : ∀ {g : Agent} {u : State}, s.busWrite g a.toNat v = u → exec (.registerWrite g a v) s = .next u.poll :=
    fun hu => by rw [registerWrite_eq, hu]
  refine ⟨fun hp => ⟨hto (State.linkDo_free hp fun s => s.bar0Write a.toNat v), fun h4 hlt => hto ?_, fun h4 => hto ?_⟩, fun hp =>
    ⟨hto (State.linkDo_held hp fun s => s.bar0Write a.toNat v), hto (State.linkDo_held hp fun s => s.bar2Write a.toNat v),
      hto (State.linkDo_held hp fun s => s.cfgWrite a.toNat v)⟩⟩
  · exact (State.linkDo_free hp fun s => s.bar2Write a.toNat v).trans (if_pos ⟨h4, hlt⟩)
  · exact (State.linkDo_free hp fun s => s.cfgWrite a.toNat v).trans (if_neg fun h => h h4)

/-- In sleep the accesses of the management controller wait (R27). -/
theorem State.mgmt_waits {s : State} (hs : s.sleeping = true) (n : Fin 64) (v : W32) (c : Fin 8) (k : BitVec 8) (e : EngId) :
    exec (.train n v) s = .next { s with late := s.late ++ [.access (aLn n.val 0x10) (some v)] } ∧
    exec (.dmaGo c) s = .next { s with late := s.late ++ [.access (aDma c.val 0x1C) (some 3)] } ∧
    exec (.adcGo k) s = .next { s with late := s.late ++ [.access (aHlt 0x14) (some (BitVec.ofNat 32 (k.toNat + 2 ^ 31)))] } ∧
    exec (.engCntClear e) s = .next { s with late := s.late ++ [.access (aEng (engIx e) 0x20) (some 1)] } ∧
    exec .culmFrameLo s = .next { s with late := s.late ++ [.access (aCulm 0) none] } := by
  refine ⟨congrArg Host.Outcome.next (State.mgmtDo_asleep hs _ _ _), congrArg Host.Outcome.next (State.mgmtDo_asleep hs _ _ _),
    congrArg Host.Outcome.next ?_, congrArg Host.Outcome.next (State.mgmtDo_asleep hs _ _ _),
    congrArg Host.Outcome.next (State.mgmtDo_asleep hs _ _ _)⟩
  obtain ⟨w, hw⟩ : ∃ w, w = BitVec.ofNat 32 (k.toNat + 2 ^ 31) := ⟨_, rfl⟩
  rw [← hw]
  exact State.mgmtDo_asleep hs (aHlt 0x14) (some w) fun s => s.adcGo k.toNat

/-- Writes of FAULT_EN in one PCLK cycle apply in the order management, DMA, matrix, and a read of the cycle returns the word before
them (R365 to R367). -/
theorem State.faultEn_order {s : State} (h : s.Inv) (hb : s.bus = []) (v w : W32) (k : Fin 12) :
    ((s.bridgeWrite .mgmt 0x84 v).bridgeWrite .dma 0x84 w).rf 0x84 0 23 = field w 0 23 ∧
    ((s.bridgeWrite .dma 0x84 w).bridgeWrite .mgmt 0x84 v).rf 0x84 0 23 = field v 0 23 ∧
    ((s.bridgeWrite .mgmt 0x84 v).bridgeWrite (.engine k) 0x84 w).rf 0x84 0 23 = field w 0 23 ∧
    field ((s.bridgeWrite .mgmt 0x84 v).bridgeRead .mgmt 0x84).2 0 23 = field v 0 23 ∧
    ((s.bridgeWrite .mgmt 0x84 v).bridgeRead (.engine k) 0x84).2 = readMask (regFields 0x84) (s.rd 0x84) := by
  have hm := h.bridgeWrite .mgmt 0x84 v
  obtain ⟨hval, hcyc⟩ := State.bridgeWrite_faultEn h .mgmt v
  rw [State.busCycle_empty hb] at hcyc
  refine ⟨(State.bridgeWrite_faultEn hm .dma w).1, (State.bridgeWrite_faultEn (h.bridgeWrite .dma 0x84 w) .mgmt v).1,
    (State.bridgeWrite_faultEn hm (.engine k) w).1, ?_, ?_⟩
  · have hin : ((s.bridgeWrite .mgmt 0x84 v).busCycle 0).inputs = [0] := by rw [hcyc]; rfl
    rw [State.bridgeRead_faultEn hm, show busInput Agent.mgmt = 0 from rfl, BusCycle.enter_begins (j := 0) (hin ▸ List.mem_singleton_self 0) (Nat.le_refl 0),
      (BusCycle.enter_init 0 []).2.2, List.find?_nil, Option.map_none, Option.getD_none, readMask_faultEn]
    exact hval
  · rw [State.bridgeRead_faultEn hm, hcyc]
    rfl

/- Expanders in a burst (R258) ----------------------------------------------------------------------------------------------------- -/

theorem State.pxWrite_busy {s : State} {n o : Nat} (ho : 0x40 ≤ o) (hst : s.pxState n = 2 ∨ s.pxState n = 3) (v : W32) :
    ((∃ f ∈ regFields (aPx n o), f.acc ≠ .ro) → s.pxWrite n o v = s.flag (aPx n 0x28) 6) ∧
    ((∀ f ∈ regFields (aPx n o), f.acc = .ro) → s.pxWrite n o v = s.plainWrite (aPx n o) v) := by
  have hbusy : s.pxBusy n = true := by
    unfold State.pxBusy
    rcases hst with h | h <;> rw [h] <;> rfl
  have hcond : (0x40 ≤ o && s.pxBusy n && (regFields (aPx n o)).any (fun f => f.acc != .ro)) =
      (regFields (aPx n o)).any (fun f => f.acc != .ro) := by
    rw [decide_eq_true ho, hbusy, Bool.true_and, Bool.true_and]
  unfold State.pxWrite
  rw [if_neg (show ¬ o = 0 by omega), hcond]
  refine ⟨fun ⟨f, hf, hacc⟩ => if_pos ?_, fun hro => if_neg fun hany => ?_⟩
  · exact List.any_eq_true.mpr ⟨f, hf, bne_iff_ne.mpr hacc⟩
  · obtain ⟨f, hf, hacc⟩ := List.any_eq_true.mp hany
    exact bne_iff_ne.mp hacc (hro f hf)

/- A lane kept at idle (R459) --------------------------------------------------------------------------------------------------------------- -/

/-- Whether each lane is kept at idle stays as it was. -/
def KeptSame (s t : State) : Prop := ∀ k, (t.lane k).kept = (s.lane k).kept

theorem KeptSame.of_lanes {s t : State} (h : t.lanes = s.lanes) : KeptSame s t := fun k => by
  rw [State.lane, h]
  rfl

theorem KeptSame.ite {s t u : State} {c : Prop} [Decidable c] (ht : KeptSame s t) (hu : KeptSame s u) :
    KeptSame s (if c then t else u) := by
  split
  · exact ht
  · exact hu

theorem KeptSame.setLane {s t : State} (hst : KeptSame s t) (h : t.Inv) (n : Nat) {x : LnSt} (hx : x.kept = (s.lane n).kept) :
    KeptSame s (t.setLane n x) := fun k => by
  by_cases hk : k = n
  · rw [hk, State.lane_setLane_self h, hx]
  · rw [State.lane_setLane_ne hk, hst k]

theorem State.plainWrite_lanes (s : State) (a : Nat) (v : W32) : (s.plainWrite a v).lanes = s.lanes := by
  rw [State.plainWrite_frame]

theorem State.flag_kept (s : State) (a i : Nat) : KeptSame s (s.flag a i) := .of_lanes rfl

theorem State.plainWrite_kept (s : State) (a : Nat) (v : W32) : KeptSame s (s.plainWrite a v) := .of_lanes (s.plainWrite_lanes a v)

theorem State.lnCfgWrite_kept (s : State) (n : Nat) (v : W32) : KeptSame s (s.lnCfgWrite n v) := by
  have hp := s.plainWrite_lanes (aLn n 0) v
  unfold State.lnCfgWrite
  exact .ite (.of_lanes hp) (.of_lanes hp)

theorem State.lnPrbsWrite_kept {s : State} (h : s.Inv) (n : Nat) (v : W32) : KeptSame s (s.lnPrbsWrite n v) := by
  obtain ⟨p, hp⟩ : ∃ p, p = s.plainWrite (aLn n 0x60) v := ⟨_, rfl⟩
  have hk : KeptSame s p := hp ▸ s.plainWrite_kept _ v
  have hpi : p.Inv := hp ▸ (State.plainWrite_keeps (.refl s) _ v).inv h
  unfold State.lnPrbsWrite
  dsimp only
  rw [← hp]
  have hg : KeptSame s (if v.getLsbD 0 && !s.bit (aLn n 0x60) 0 then p.setLane n { p.lane n with gen := 0x7FFFFFFF } else p) :=
    .ite (hk.setLane hpi n (hk n)) hk
  exact .ite (fun k => hg k) hg

theorem State.trainGo_kept {s : State} (h : s.Inv) (n : Nat) : KeptSame s (s.trainGo n) := by
  unfold State.trainGo
  split
  · obtain ⟨t, ht⟩ : ∃ t, t = ((s.wf (aLn n 0x14) 0 2 1).wf (aLn n 0x14) 4 3 1).wf (aLn n 0x14) 8 4 0 := ⟨_, rfl⟩
    have hti : t.Inv := ht ▸ ((h.wf _ _ _ _).wf _ _ _ _).wf _ _ _ _
    have hk : KeptSame s t := .of_lanes (ht ▸ rfl)
    dsimp only
    rw [← ht]
    exact .ite (hk.setLane hti _ (hk _)) hk
  · exact .of_lanes rfl

theorem State.trainWrite_kept {s : State} (h : s.Inv) (n : Nat) (v : W32) : KeptSame s (s.trainWrite n v) := by
  unfold State.trainWrite
  exact .ite (fun k => State.trainGo_kept (h.wr _ _) n k) (.of_lanes rfl)

theorem State.prbsClear_kept {s : State} (h : s.Inv) (n : Nat) : KeptSame s (s.prbsClear n) := by
  unfold State.prbsClear
  exact KeptSame.setLane (.of_lanes rfl) (((h.wr _ _).wr _ _).wr _ _) n rfl

theorem State.eyeScanWrite_kept {s : State} (h : s.Inv) (n : Nat) (v : W32) : KeptSame s (s.eyeScanWrite n v) := by
  obtain ⟨x, hx⟩ : ∃ x, x = s.wr (aLn n 0x80) (v &&& 0x33FFFF) := ⟨_, rfl⟩
  obtain ⟨y, hy⟩ : ∃ y, y = x.clrB (aLn n 0x84) 31 := ⟨_, rfl⟩
  have hxk : KeptSame s x := .of_lanes (hx ▸ rfl)
  have hyk : KeptSame s y := .of_lanes ((congrArg State.lanes (hy.trans (State.clrB_frame _ _ _))).trans (hx ▸ rfl))
  have hyi : y.Inv := hy ▸ (hx ▸ h.wr _ _ : x.Inv).clrB _ _
  unfold State.eyeScanWrite
  dsimp only
  rw [← hx, ← hy]
  exact .ite (hyk.setLane hyi n (hxk n)) hxk

/-- What a write does to a lane leaves it kept at idle or not, as it was. -/
theorem State.lnApply_kept {s : State} (h : s.Inv) (n o : Nat) (v : W32) : KeptSame s (s.lnApply n o v) := by
  have hsame : KeptSame s s := fun _ => rfl
  unfold State.lnApply
  exact .ite (s.flag_kept _ _) (.ite (s.lnCfgWrite_kept n v) (.ite (.ite (s.plainWrite_kept _ v) (s.flag_kept _ _))
    (.ite (State.trainWrite_kept h n v) (.ite (State.lnPrbsWrite_kept h n v) (.ite (.ite (State.prbsClear_kept h n) hsame)
      (.ite (State.eyeScanWrite_kept h n v) (s.plainWrite_kept _ v)))))))

/-- A lane kept at idle is freed by exactly those writes that configure it. -/
theorem State.lnWrite_kept {s : State} (h : s.Inv) {n : Nat} (hk : (s.lane n).kept = true) (o : Nat) (v : W32) :
    ((s.lnWrite n o v).lane n).kept = !s.configures n o v := by
  have hl : ((s.lnApply n o v).lane n).kept = true := (State.lnApply_kept h n o v n).trans hk
  have hli : (s.lnApply n o v).Inv := (State.lnApply_keeps (.refl s) n o v).inv h
  unfold State.lnWrite
  dsimp only
  rw [hl, Bool.true_and]
  cases hc : s.configures n o v
  · exact hl
  · rw [if_pos rfl, State.lane_setLane_self hli]
    rfl

/- The obligation ------------------------------------------------------------------------------------------------------------------------------ -/

/-- Settles O60: each way of a write, each rule of a register and each access code by its own lemma; the order of a PCLK cycle from the
cycle that an access joins. -/
theorem registerWrites : Obligations.RegisterWrites := by
  refine ⟨fun s a v => ⟨fun hs => registerWrite_awake hs a v, fun hs => registerWrite_standing hs a v,
    fun hs => registerWrite_asleep hs a v⟩, State.loneWrite_cases, fun s v g hg hs => registerWrite_halt hg hs v, fun s g v => ?_,
    fun _ _ _ => rfl, registerWrite_host, fun s v w k h hb => State.faultEn_order h hb v w k,
    fun s hs n v c k e => State.mgmt_waits hs n v c k e, fun s g a v => ⟨fun h => State.writeReg_refused h s g v,
      fun h4 hlt hf => State.writeReg_reserved h4 hlt hf s g v, fun hf => State.writeReg_unit hf s g v⟩,
    fun s g v => ⟨rfl, rfl, rfl, rfl, rfl⟩, ?_, ?_, fun s a v w h hb h4 hlt hf hw => State.unmapped_cleared h hb h4 hlt hf v hw,
    fun s n o v ho hst => ?_, fun s n o v h hk => State.lnWrite_kept h hk o v,
    fun a => ⟨regFields_pairwise a, fun f hf => regFields_span hf⟩⟩
  · rw [State.writeReg_dbgHalt]
    exact ⟨fun hv => State.haltWrite_set hv s, fun hv => State.haltWrite_clear hv s⟩
  · intro s a v f h ha hf
    obtain ⟨hrw, hfree, hlocked, hw1c, hheld, hkept⟩ := State.plainWrite_field h ha v hf
    exact ⟨hrw, hfree, hlocked, fun hacc hl hne => State.lockedWrite_plainWrite h v hf hacc hl hne, hw1c, hheld, hkept,
      fun b hba hb => State.rd_plainWrite_ne hba hb v, s.plainWrite_frame a v⟩
  · intro s a i h hi
    exact ⟨State.bit_flag_self h a hi, s.flag_onlyRegs a i, fun j _ hji => State.bit_flag_ne h a hji, State.flagged_flag h a i⟩
  · exact State.pxWrite_busy ho hst v

end Sys2Proof.Machine
end
